-- ==== Sys2Proof/Word.lean ====
section
/-! DEFINITION. The words of the block and their plainest arithmetic: bytes, wrapping and saturating counters,
little-endian fields (R8, R9, R661). -/
namespace Sys2Proof

/-- A byte as a frame, a message or an image carries it. -/
abbrev Byte := BitVec 8

/-- A wrapping counter of `n` bits after one more count (R661). -/
def wrapInc (n c : Nat) : Nat := (c + 1) % 2 ^ n

/-- A wrapping counter of `n` bits after `k` more counts (R661). -/
def wrapAdd (n c k : Nat) : Nat := (c + k) % 2 ^ n

/-- A saturating counter of `n` bits after `k` more counts (R661). -/
def satAdd (n c k : Nat) : Nat := min (2 ^ n - 1) (c + k)

/-- `v` as `n` bytes, least significant first (R9). -/
def leBytes : Nat → Nat → List Byte
  | 0, _ => []
  | n + 1, v => BitVec.ofNat 8 v :: leBytes n (v / 256)

/-- The number that the bytes spell, least significant first (R9). -/
def leNat : List Byte → Nat
  | [] => 0
  | b :: r => b.toNat + 256 * leNat r

/-- A number of `n` bits read as two's complement (R661). -/
def toSigned (n v : Nat) : Int :=
  if v % 2 ^ n < 2 ^ (n - 1) then (v % 2 ^ n : Nat) else (v % 2 ^ n : Nat) - (2 ^ n : Nat)

/-- A signed value as `n` bits of two's complement (R661). -/
def ofSigned (n : Nat) (v : Int) : Nat := (v % (2 ^ n : Nat)).toNat

/-- Nearest integer of `a / b`, halves away from zero (R5); `b` is positive. -/
def roundDiv (a b : Int) : Int :=
  if 0 ≤ a then (2 * a + b) / (2 * b) else -((2 * (-a) + b) / (2 * b))

/-- Nearest integer of a rational, halves away from zero (R5). -/
def roundRat (q : Rat) : Int := roundDiv q.num q.den

/-- The quotient rounded up. -/
def ceilDiv (a b : Nat) : Nat := (a + b - 1) / b

/-- `v` held between `lo` and `hi`. -/
def clampInt (lo hi v : Int) : Int := max lo (min hi v)

/-- `v` held between `lo` and `hi`. -/
def clampRat (lo hi v : Rat) : Rat := max lo (min hi v)

/-- The sign of a rational: -1, 0 or 1. -/
def signRat (q : Rat) : Rat := if q < 0 then -1 else if 0 < q then 1 else 0

/-- The absolute value of a rational. -/
def absRat (q : Rat) : Rat := if q < 0 then -q else q

end Sys2Proof
end

