-- ==== Sys2Proof/Syntax.lean ====
section
/-! DEFINITION. The commands of the block: one constructor of `Instr` for each row of spec/opcode_table.json, with the
operands that the row's rule speaks of. The first operand `t` of every command is the date at which it happens, in
1/256 tick of the 4 ns timebase (R420), on the model's own clock (assumption 1). -/
namespace Sys2Proof

/-- Which message a host command is: its session, its message_id (R57), and whether it came to the pair group
address (R96). -/
structure Src where
  session : Nat
  msg     : Nat
  group   : Bool
  deriving DecidableEq, Repr, Inhabited

/-- A symbol of an 8b/10b lane: a K-symbol by its value, a data byte, or what a receiver makes of a code violation or a disparity
error (R329, R330). -/
inductive Symbol where
  | k (v : Nat)
  | d (b : Byte)
  | bad
  deriving DecidableEq, Repr, Inhabited

/-- The causes of a loss of power good (object 0x0101 last_off_cause). -/
inductive OffCause where
  | inputLow | inputHigh | presence | slotReset | watchdog | coreVoltage | reference | pd0Rail | domainFault
  deriving DecidableEq, Repr, Inhabited

/-- What ended on a DDR5 channel in TRAIN (R243, R245). -/
inductive TrainResult where
  | verified | verifyFailed | trained | trainFailed
  deriving DecidableEq, Repr, Inhabited

/-- One conversion of a TS or TB sensor as the thermal manager sees it (R574): temperature in 1/16 °C, raw code, the
two converter flags, and the age of the latest completed conversion in µs. -/
structure SensorConv where
  temp  : Int
  code  : Nat
  high  : Bool
  low   : Bool
  ageUs : Nat
  deriving DecidableEq, Repr, Inhabited

/-- The functions of *Table: Supported and unsupported network functions* that are discarded (R54). -/
inductive DiscardKind where
  | tcp | ipFragment | vlan | otherMulticast | otherUdpPort | badFcs
  deriving DecidableEq, Repr, Inhabited

/-- What one engine makes of one vector of codec self-verification (R215, R216): engine kind (0 compressor, 1 decompressor, 2 decode
engine), engine number, vector, and the CRC-32C of the stored result, of a compressor, and of the decoded one. -/
structure VectorResult where
  kind    : Nat
  engine  : Nat
  vector  : Nat
  stored  : Nat
  decoded : Nat
  deriving DecidableEq, Repr, Inhabited

/-- A block of the page store as a decompressor reads it: its bytes, and the place of the first one that lies in a burst reported as
uncorrectable, when there is one (R217, R250). -/
structure BlockRead where
  bytes    : List Byte
  poisoned : Option Nat
  deriving DecidableEq, Repr, Inhabited

/-- What an Announce message says of a PTP clock: the fields the best master clock algorithm compares. -/
structure PtpAnnounce where
  priority1     : Nat
  clockClass    : Nat
  clockAccuracy : Nat
  variance      : Nat
  priority2     : Nat
  identity      : Nat
  stepsRemoved  : Nat
  deriving DecidableEq, Repr, Inhabited

/-- PTP messages that the module handles (R431, R432). Times in 2^-16 ns. -/
inductive PtpMsg where
  | announce (domain source : Nat) (a : PtpAnnounce)
  | sync (domain source seq : Nat) (twoStep : Bool) (origin correction : Int)
  | followUp (domain source seq : Nat) (origin correction : Int)
  | delayReq (domain source seq : Nat) (correction : Int)
  | delayResp (domain source seq : Nat) (receive correction : Int)
  | pdelayReq (domain source seq : Nat) (correction : Int)
  | pdelayResp (domain source seq : Nat) (twoStep : Bool) (receipt correction : Int)
  | pdelayRespFollowUp (domain source seq : Nat) (response correction : Int)
  | unsupported
  deriving DecidableEq, Repr, Inhabited

/-- The PTP messages that fall due at the module (R432). -/
inductive PtpDue where
  | sync | announce | delay
  deriving DecidableEq, Repr, Inhabited

/-- One SSI frame as sampled (R263, R264). -/
structure SsiBits where
  idleHigh  : Bool
  startLow  : Bool
  value     : Nat
  status    : Nat
  parityBit : Bool
  endLow    : Bool
  deriving DecidableEq, Repr, Inhabited

/-- Who reads an uncorrectable burst (*Table: Uncorrectable error outcomes*). -/
inductive EccReader where
  | q0 | q1 | q2 | scrub | q7 | other
  deriving DecidableEq, Repr, Inhabited

/-- A burst of 64 bytes as it was read: its address, and of each of its 16 beats the bits of the 40-bit code word that were read wrong
(R247). -/
structure BurstRead where
  addr  : Nat
  beats : List (BitVec 40)
  deriving DecidableEq, Repr, Inhabited

/-- Where a UDP datagram goes: to the group address or to the module's own (R97), and to which UDP port (R56). -/
structure UdpDest where
  group : Bool
  port  : Nat
  deriving DecidableEq, Repr, Inhabited

/-- A rising edge of Z of an input, and how many consecutive samples show it (R255). -/
structure IndexEdge where
  input  : Nat
  agreed : Nat
  deriving DecidableEq, Repr, Inhabited

/-- What the render engine read for a line otherwise than it was stored: a surface block that fails its check (surface, tile, block;
R146), and decoder contexts, each by its number and the bytes read (R209). -/
structure LineRead where
  badBlock : Option (Nat × Nat × Nat)
  states   : List (Nat × List Byte)
  deriving DecidableEq, Repr, Inhabited

/-- What came back in a loop-back (24_loopback_and_test.md). What is not listed came back as it should. -/
inductive LoopReturn where
  | nothing
  /-- of each lane in turn, the runs of bits that differ from the pattern: place of the first one, counted from the start, and length
  (R641) -/
  | bits (wrong : List (List (Nat × Nat)))
  /-- statistics that are out; the place, count, sum and sum of squares of those listed; ms of the first one that differs (R648) -/
  | stats (done : Nat) (wrong : List (Nat × Nat × Nat × Nat)) (firstMs : Nat)
  /-- bits read; bursts with wrong bits; ms of the first (R649) -/
  | scan (bits : Nat) (reads : List BurstRead) (firstMs : Nat)
  /-- bits tested; failed ones; byte address and ms of the first (R650) -/
  | march (bits failed firstAddr firstMs : Nat)
  /-- edges that the test counter has counted, illegal transitions, wire disagreements; ms of the first error (R651) -/
  | edges (count illegal disagreements firstMs : Nat)
  /-- read-backs by output, step and level: 0 high, 1 low, 2 high impedance (R652) -/
  | levels (l : List (Nat × Nat × Nat))
  /-- engine-vectors done; those listed; ms of the first failure (R215) -/
  | vectors (done : Nat) (results : List VectorResult) (firstMs : Nat)
  deriving DecidableEq, Repr, Inhabited

/-- What an uncorrectable burst belongs to. -/
inductive EccTarget where
  | pageStream (pageId lane block : Nat)
  | surfaceTile (surfaceId tile : Nat)
  | reference (pageId row col : Nat)
  | systemSurface (surfaceId : Nat)
  | systemLut (lutId : Nat)
  | systemPage (pageId : Nat)
  | systemRun (runId : Nat)
  | systemResult (ticket : Nat)
  | /-- object 0: the tap banks; any other: supervisor data -/ systemOther (object : Nat)
  | unused
  deriving DecidableEq, Repr, Inhabited

/-- How discovery and set-up of a camera port ended (R363 and *Table: Camera port states*). -/
structure CamDiscovery where
  ok          : Bool
  offeredRate : Nat
  connections : Nat
  readBack    : Bool
  deriving DecidableEq, Repr, Inhabited

/-- One packet of a camera (R364, R381): an image header, lines of the mosaic, or a packet of the control channel. -/
inductive CamPacket where
  | control (crcOk : Bool)
  | header (width pixelBits tag : Nat)
  | lines (crcOk : Bool) (first : Nat) (samples : List (List Nat))
  deriving DecidableEq, Repr, Inhabited

/-- Why a camera frame ended (R381). -/
inductive FrameEnd where
  | endOfImage | nextHeader | timeout
  deriving DecidableEq, Repr, Inhabited

/-- The header of a ring frame and its body (*Table: Ring frame header*). -/
structure RingFrame where
  type   : Nat
  source : Nat
  dest   : Nat
  hops   : Nat
  seq    : Nat
  body   : List Byte
  deriving DecidableEq, Repr, Inhabited

/-- One ORDER entry of the partner link (*Table: Partner frame types*). -/
structure OrderEntry where
  session : Nat
  msg     : Nat
  type    : Nat
  crc     : Nat
  deriving DecidableEq, Repr, Inhabited

/-- The records that the flash writer writes (R599): calibration store, training record, configuration copy. -/
inductive FlashRecord where
  | calibration | training | configCopy
  deriving DecidableEq, Repr, Inhabited

/-- A command: one constructor for each row of the table, in the table's order. -/
inductive Instr where
  | powerGood (t : Nat) (straps inputMv : Nat)
  | powerGoodLost (t : Nat) (cause : OffCause) (domain : Nat)
  | bootSelect (t : Nat)
  | configRead (t : Nat)
  | trainingDone (t : Nat) (ch : Nat) (devIds : List Nat) (dts : List Int) (res : TrainResult)
  | memoryInitialised (t : Nat)
  | codecSelftest (t : Nat) (results : List VectorResult)
  | watchdogExpiry (t : Nat)
  | inputLow (t : Nat) (mv : Nat)
  | shutdownLatchClear (t : Nat) (inputRemoved : Bool)
  | thermalSample (t : Nat) (conv : List SensorConv)
  | blitzOff (t : Nat)
  | shutdownRecordWritten (t : Nat)
  | speedMonitorWindow (t : Nat) (mon count : Nat)
  | speedMonitorBroken (t : Nat) (mon : Nat)
  | governorPeriod (t : Nat)
  | dptSegmentReceived (t : Nat) (port addr : Nat) (dest : UdpDest) (udp : List Byte)
  | networkFrameDiscarded (t : Nat) (port : Nat) (kind : DiscardKind)
  | arpNdpRequest (t : Nat) (port : Nat) (ndp : Bool) (target sender : Nat)
  | icmpEcho (t : Nat) (port : Nat) (v6 : Bool) (sender : Nat) (data : List Byte)
  | portLinkChange (t : Nat) (port : Nat) (up : Bool)
  | portSpeedAlternate (t : Nat) (port : Nat)
  | ackDelayExpiry (t : Nat) (session : Nat)
  | creditReopened (t : Nat) (session credit : Nat)
  | dptRtoExpiry (t : Nat) (session seq : Nat)
  | sessionTimeout (t : Nat) (session : Nat)
  | keepaliveDue (t : Nat) (session : Nat)
  | sessionOpen (t : Nat) (port addr : Nat) (group : Bool) (header body : List Byte)
  | sessionClose (t : Nat) (src : Src) (payload : List Byte)
  | keepalive (t : Nat) (session : Nat)
  | ack (t : Nat) (session ack sack credit : Nat)
  | unknownType (t : Nat) (src : Src) (type : Nat)
  | haltReq (t : Nat) (src : Src) (payload : List Byte)
  | restartReq (t : Nat) (src : Src) (payload : List Byte)
  | maintenanceReq (t : Nat) (src : Src)
  | loopbackStart (t : Nat) (src : Src) (payload : List Byte)
  | loopbackStop (t : Nat) (src : Src) (payload : List Byte) (r : LoopReturn)
  | loopbackEnd (t : Nat) (ticket : Nat) (lockDue : Bool) (r : LoopReturn)
  | loopbackPreempted (t : Nat) (ticket : Nat) (r : LoopReturn)
  | surfaceDefine (t : Nat) (src : Src) (payload : List Byte)
  | surfaceData (t : Nat) (src : Src) (payload : List Byte)
  | surfaceSeal (t : Nat) (src : Src) (payload : List Byte)
  | sealCheckDone (t : Nat)
  | surfaceFree (t : Nat) (src : Src) (payload : List Byte)
  | lutDefine (t : Nat) (src : Src) (payload : List Byte)
  | pageDefine (t : Nat) (src : Src) (payload : List Byte)
  | pageFree (t : Nat) (src : Src) (payload : List Byte)
  | runDefine (t : Nat) (src : Src) (payload : List Byte)
  | runArm (t : Nat) (src : Src) (payload : List Byte)
  | runArmVerdict (t : Nat)
  | runStop (t : Nat) (src : Src) (payload : List Byte)
  | runCancel (t : Nat) (src : Src) (payload : List Byte)
  | runEnd (t : Nat) (src : Src) (payload : List Byte)
  | calRunNow (t : Nat) (src : Src) (payload : List Byte)
  | calFreeze (t : Nat) (src : Src) (payload : List Byte)
  | calThaw (t : Nat) (src : Src) (payload : List Byte)
  | calReset (t : Nat) (src : Src) (payload : List Byte)
  | moveAbs (t : Nat) (src : Src) (payload : List Byte)
  | moveRel (t : Nat) (src : Src) (payload : List Byte)
  | jog (t : Nat) (src : Src) (payload : List Byte)
  | stop (t : Nat) (src : Src) (payload : List Byte)
  | estop (t : Nat) (src : Src) (payload : List Byte)
  | home (t : Nat) (src : Src) (payload : List Byte)
  | gear (t : Nat) (src : Src) (payload : List Byte)
  | gearChange (t : Nat) (src : Src) (payload : List Byte)
  | setParams (t : Nat) (src : Src) (payload : List Byte)
  | enable (t : Nat) (src : Src) (payload : List Byte)
  | disable (t : Nat) (src : Src) (payload : List Byte)
  | clearFault (t : Nat) (src : Src) (payload : List Byte)
  | timedOutputCancel (t : Nat) (src : Src) (payload : List Byte)
  | timedOutputOnce (t : Nat) (src : Src) (payload : List Byte)
  | timedOutputPeriodic (t : Nat) (src : Src) (payload : List Byte)
  | resultRead (t : Nat) (src : Src) (payload : List Byte)
  | resultRelease (t : Nat) (src : Src) (payload : List Byte)
  | statusRead (t : Nat) (src : Src) (payload : List Byte)
  | imageBegin (t : Nat) (src : Src) (payload : List Byte)
  | imageBlock (t : Nat) (src : Src) (payload : List Byte)
  | flashBlockWritten (t : Nat)
  | imageVerify (t : Nat) (src : Src) (payload : List Byte)
  | imageActivate (t : Nat) (src : Src) (payload : List Byte)
  | configActivationDone (t : Nat)
  | imageConfirm (t : Nat) (src : Src)
  | imageAbort (t : Nat) (src : Src)
  | bundleConfirmed (t : Nat)
  | ptpMessageReceived (t : Nat) (port : Nat) (m : PtpMsg)
  | ptpMessageDue (t : Nat) (kind : PtpDue)
  | timeServoMeasurement (t : Nat) (offset : Int)
  | timeSourceLost (t : Nat)
  | timeChangeApply (t : Nat)
  | timedOutputEdge (t : Nat) (out : Nat)
  | timedOutputPulseEnd (t : Nat) (out : Nat)
  | ppsEdge (t : Nat)
  | quadratureEdge (t : Nat) (input : Nat) (a b : Bool) (agreed : Nat)
  | wireFault (t : Nat) (input pair samples : Nat)
  | indexEvent (t : Nat) (edge : IndexEdge)
  | ssiFrame (t : Nat) (input : Nat) (f : SsiBits)
  | positionFaultCleared (t : Nat) (input : Nat)
  | coastTrigger (t : Nat) (input : Nat)
  | extrapolatedTrigger (t : Nat) (input : Nat)
  | auxCompareTrigger (t : Nat) (chan : Nat)
  | dinChange (t : Nat) (din : Nat) (level : Bool) (edgeT : Nat)
  | haltInAsserted (t : Nat)
  | haltInDeasserted (t : Nat)
  | printGoEdge (t : Nat) (level : Bool) (edgeT : Nat)
  | lineTrigger (t : Nat) (bar : Nat)
  | deferredFireSync (t : Nat) (bar : Nat)
  | linePacketComplete (t : Nat) (bar : Nat)
  | overspeedClear (t : Nat)
  | fireUnderrun (t : Nat) (lane : Nat)
  | fireDecodeError (t : Nat) (lane : Nat) (block : Nat × BlockRead)
  | haltRepeat (t : Nat) (bar : Nat)
  | slotReleasePoint (t : Nat)
  | pageRenderStart (t : Nat)
  | compositionLine (t : Nat) (line : LineRead)
  | chunkCompressed (t : Nat) (comp : Nat) (mismatch : Bool)
  | pageRendered (t : Nat)
  | flagFall (t : Nat) (port ageNs : Nat)
  | dtRead (t : Nat) (temps : List (List (Option Int)))
  | scrubPass (t : Nat)
  | eccUncorrectable (t : Nat) (burst : BurstRead) (reader : EccReader) (target : EccTarget) (copy : Option BurstRead)
  | eccCorrectedRate (t : Nat) (sub : Nat) (reads : List (Nat × BurstRead))
  | linkStatusFrame (t : Nat) (link : Nat) (inverted : Bool) (between frame : List Symbol)
  | linkUpLost (t : Nat) (link : Nat) (since : Nat)
  | statusTimeout (t : Nat) (link : Nat)
  | linkTrainTimeout (t : Nat) (link : Nat)
  | pllUnlock (t : Nat) (pll : Nat)
  | ownerFrameDue (t : Nat) (lane : Nat)
  | cameraDiscovery (t : Nat) (port : Nat) (d : CamDiscovery)
  | cameraDown (t : Nat) (port : Nat) (conn : Nat) (cause : Nat)
  | cameraRetry (t : Nat) (port : Nat)
  | cameraPacket (t : Nat) (port conn : Nat) (p : CamPacket)
  | cameraFrameEnd (t : Nat) (port : Nat) (why : FrameEnd)
  | cameraWriteAck (t : Nat) (port gen : Nat) (ok : Bool)
  | motionProfilePeriod (t : Nat)
  | pwmPeriod (t : Nat) (axis vbusMv : Nat) (fullScale : Bool)
  | holdCurrentDelay (t : Nat) (axis : Nat)
  | ringFrameReceived (t : Nat) (crcOk : Bool) (f : RingFrame)
  | ringFrameResend (t : Nat) (seq : Nat)
  | ringTimeSend (t : Nat)
  | ringDelayExchange (t : Nat) (resp : Option RingFrame)
  | kingListenExpiry (t : Nat)
  | discoverSend (t : Nat)
  | discover (t : Nat) (f : RingFrame)
  | ringAttnAsserted (t : Nat)
  | joinGrant (t : Nat) (f : RingFrame)
  | bypassOpenTime (t : Nat)
  | joinHello (t : Nat) (f : RingFrame)
  | joinHelloTimeout (t : Nat)
  | eject (t : Nat) (f : RingFrame)
  | leaveReq (t : Nat) (f : RingFrame)
  | leaveWaitExpiry (t : Nat)
  | roll (t : Nat) (f : RingFrame)
  | ringMemberLost (t : Nat) (node : Nat)
  | originSend (t : Nat)
  | origin (t : Nat) (f : RingFrame)
  | runArmedFrame (t : Nat) (f : RingFrame)
  | cascadeArmed (t : Nat) (f : RingFrame)
  | slotReady (t : Nat) (f : RingFrame)
  | ringRelease (t : Nat) (f : RingFrame)
  | ringNotReady (t : Nat) (f : RingFrame)
  | cascadeStop (t : Nat) (f : RingFrame)
  | ringImageBlock (t : Nat) (f : RingFrame)
  | imageAck (t : Nat) (f : RingFrame)
  | relayAckDue (t : Nat)
  | heartbeatDue (t : Nat)
  | heartbeat (t : Nat) (digest : List Byte) (body : List Byte)
  | heartbeatMissed (t : Nat)
  | pairWaitExpiry (t : Nat)
  | reclaimWaitExpiry (t : Nat)
  | order (t : Nat) (entries : List OrderEntry)
  | tokenArm (t : Nat) (seq : Nat) (body : List Byte)
  | tokenRelease (t : Nat) (seq : Nat) (body : List Byte)
  | tokenNotReady (t : Nat) (seq : Nat) (body : List Byte)
  | tokenGovernor (t : Nat) (seq : Nat) (body : List Byte)
  | tokenTap (t : Nat) (seq : Nat) (body : List Byte)
  | tokenChangeover (t : Nat) (seq : Nat) (body : List Byte)
  | tokenResult (t : Nat) (seq : Nat) (body : List Byte)
  | tokenRing (t : Nat) (seq : Nat) (body : List Byte)
  | tokenBar (t : Nat) (seq : Nat) (body : List Byte)
  | tokenCamera (t : Nat) (seq : Nat) (body : List Byte)
  | tokenAxis (t : Nat) (seq : Nat) (body : List Byte)
  | tokenGapTimeout (t : Nat)
  | resendReq (t : Nat) (kind first count : Nat)
  | partnerSegment (t : Nat) (udp : List Byte)
  | copy (t : Nat) (body : List Byte)
  | catchupDone (t : Nat)
  | signature (t : Nat) (pageId sig : Nat)
  | partnerCamera (t : Nat) (body : List Byte)
  | flashRecordWritten (t : Nat) (rec : FlashRecord) (ok : Bool)
  | imageVerifyDone (t : Nat)
  | loopbackDone (t : Nat) (ticket : Nat) (r : LoopReturn)
  | pllRelock (t : Nat) (pll : Nat)
  | igmpMldQuery (t : Nat) (port : Nat) (v6 : Bool) (groupAddr : Nat)
  deriving DecidableEq, Repr, Inhabited

end Sys2Proof
end

