-- ==== Sys2Proof/Config.lean ====
section
/-! DEFINITION. What a configuration image fixes (18_configuration_image.md), and the free values: results that the
spec leaves open, each an opaque constant applied to the state's counter `freeN` (assumption 4). -/
namespace Sys2Proof

/-- One head of a link (*Table: Head entry*, R177). -/
structure Head where
  firstFile : Nat
  nozzles   : Nat
  rankCount : Nat
  rankBase  : Nat
  reversed  : Bool
  deriving DecidableEq, Repr, Inhabited

/-- A threshold tile (field 0x0820 screen.tiles): thresholds row by row, those of a cell consecutive. -/
structure Tile where
  width  : Nat
  height : Nat
  levels : Nat
  cells  : List Nat
  deriving DecidableEq, Repr, Inhabited

/-- A sensor mosaic (*Table: Mosaic entry*): cell (i, j) at place 8j + i. -/
structure Mosaic where
  width  : Nat
  height : Nat
  phaseX : Nat
  phaseY : Nat
  cells  : List Nat
  deriving DecidableEq, Repr, Inhabited

/-- How a numeric field out of its range reads (the Clamp columns): its own first clamp; what a rule does beyond it is
`clampMore` of Machine/ConfigRead.lean. -/
inductive ClampRule where
  /-- to the nearest limit of the range -/
  | nearest
  /-- values above the range read as the given value -/
  | above (v : Int)
  /-- values outside the range read as 0xFF -/
  | orFF
  /-- values outside the range read as the given value -/
  | outside (v : Int)
  deriving DecidableEq, Repr, Inhabited

/-- A row of a configuration table: ID, number of elements, range, default of every element, own clamp. -/
structure FieldDef where
  id   : Nat
  n    : Nat
  lo   : Int
  hi   : Int
  dflt : Int
  rule : ClampRule
  deriving DecidableEq, Repr, Inhabited

/-- A complete configuration (R531): the numeric fields by ID, and the fields of type 2 that are no addresses. -/
structure Cfg where
  /-- field ID and its elements -/
  num       : List (Nat × List Int)
  /-- identity.press_name, 32 bytes -/
  pressName : List Byte
  /-- geometry.bar_name, 8 × 16 bytes -/
  barNames  : List (List Byte)
  /-- heads.head_table, 16 links -/
  heads     : List (List Head)
  /-- heads.known_dead, 16 links -/
  knownDead : List (List Nat)
  /-- screen.tiles, none where dropped -/
  tiles     : List (Option Tile)
  /-- camera.mosaic, 4 cameras -/
  mosaics   : List Mosaic
  /-- security.dpt_key, 32 bytes -/
  dptKey    : List Byte
  /-- security.config_key, 97 bytes or empty -/
  configKey : List Byte
  deriving DecidableEq, Repr, Inhabited

namespace Config

/-- Session ids drawn at SESSION_OPEN (R71): a nonzero number from the random source. -/
opaque freeSessionId : Nat → BitVec 16
/-- The module's initial sequence number in SESSION_ACCEPT, for a SESSION_OPEN's payload (R62, R98). -/
opaque freeInitialSeq : List Byte → BitVec 32
/-- Random bytes: the module's nonce in SESSION_ACCEPT, for a SESSION_OPEN's payload (R93, R98). -/
opaque freeNonce : List Byte → BitVec 128
/-- run_tag at power good (R355). -/
opaque freeRunTag : Nat → BitVec 16

/-- The white level of a plane by a strip, where the frame shows none of its guard lines (R403). -/
opaque freeWhite : Nat → Nat → Nat → BitVec 16
/-- An optical density whose white level is 0, by the mean measured (R403). -/
opaque freeDensity : Nat → Rat → BitVec 16
/-- A sample of a raw tap on a line that did not arrive whole, by its number in the capture (R390). -/
opaque freeSample : Nat → Nat → BitVec 16
/-- The absolute difference of a located window from the reference, by the reference bytes that it covers and the means of its planes:
the spec does not say how a camera value and a reference byte are set against each other (R405). -/
opaque windowDifference : List Nat → List Nat → BitVec 8
/-- The estimate of the time left that RESULT_READ reports of a pending result (R87). -/
opaque freeEstimate : Nat → BitVec 32
/-- The traffic of a QoS port, object 0x0703 mib, by port (R225). -/
opaque freeTraffic : Nat → Nat → BitVec 32
/-- The power taken at the input, object 0x0101 input_power (R552). -/
opaque freePower : Nat → BitVec 16
/-- What a bundle's migration table makes of an F3 or F4 image (R543, R544), by the bundle digest and the image: the
payload of the F5 copy, or the first field that fails. -/
opaque migration : List Byte → List Byte → Except Nat (List Byte)
/-- Whether an object of the memory has bytes in a range under test, where only a part of its area is tested: the spec does
not say where in its area an object lies (R222, R650); by the draw and the object. -/
opaque inRange : Nat → Nat → Bool
/-- What the ECC makes of a beat with three or more wrong bits (R247). -/
opaque freeBeat : Nat → BitVec 40 → BitVec 8
/-- The wait from a compare point to the next character boundary of a camera's uplink (R370). -/
opaque freeUplinkWait : Nat → Nat
/-- Whether ring.group is 1 on the module of a node: a setting of that module, which no frame tells the king (R493). -/
opaque groupNode : Nat → Bool
/-- Whether RING_ATTN_N is still asserted when the king looks again: no command gives its release (R484). -/
opaque freeAttn : Nat → Bool
/-- A value that the spec leaves open and that no constant above names. -/
opaque freeValue : Nat → BitVec 64

end Config

end Sys2Proof
end

