-- ==== Sys2Proof/Machine/Fields.lean ====
section
/-! DEFINITION. The configuration fields: their IDs under the names of the spec, and the table of the numeric fields
(*Table: Configuration sections* of 18_configuration_image.md and the field tables it names): elements, range, default,
own clamp. -/
namespace Sys2Proof.Machine
open Sys2Proof

/-- identity.config_id (file 18): u32; default 0. -/
abbrev Fld.identity_config_id : Nat := 0x0101
/-- identity.press_name (file 18): UTF-8; default empty. -/
abbrev Fld.identity_press_name : Nat := 0x0102
/-- identity.expected_node (file 18): 0–7 or 0xFF; default 0xFF. -/
abbrev Fld.identity_expected_node : Nat := 0x0103
/-- power.domain_enable (file 18): 0x000–0x3FF; default 0x3FF. -/
abbrev Fld.power_domain_enable : Nat := 0x0201
/-- network.p0_mode (file 03): 0–4 (OFF, 25G, 25G_RSFEC, 10G, 25G_THEN_10G); default 4. -/
abbrev Fld.network_p0_mode : Nat := 0x0301
/-- network.p1_mode (file 03): 0–4; default 4. -/
abbrev Fld.network_p1_mode : Nat := 0x0302
/-- network.mtu (file 03): 1,500–9,000; default 9,000. -/
abbrev Fld.network_mtu : Nat := 0x0303
/-- network.p0_ipv4 (file 03): unicast or 0 (none); default 0. -/
abbrev Fld.network_p0_ipv4 : Nat := 0x0304
/-- network.p1_ipv4 (file 03): unicast or 0; default 0. -/
abbrev Fld.network_p1_ipv4 : Nat := 0x0305
/-- network.p0_ipv6 (file 03): global unicast or 0 (link-local only); default 0. -/
abbrev Fld.network_p0_ipv6 : Nat := 0x0306
/-- network.p1_ipv6 (file 03): as 0x0306; default 0. -/
abbrev Fld.network_p1_ipv6 : Nat := 0x0307
/-- network.dpt_port (file 03): 1,024–65,535; default 49,300. -/
abbrev Fld.network_dpt_port : Nat := 0x0308
/-- network.pair_group_v4 (file 03): 239.0.0.0/8 or 0; default 0. -/
abbrev Fld.network_pair_group_v4 : Nat := 0x0309
/-- network.pair_group_v6 (file 03): ff05::/16 or ff08::/16, or 0; default 0. -/
abbrev Fld.network_pair_group_v6 : Nat := 0x030A
/-- network.session_timeout (file 03): 100–10,000; default 1,000. -/
abbrev Fld.network_session_timeout : Nat := 0x030B
/-- network.dpt_rto (file 03): 100–10,000; default 500. -/
abbrev Fld.network_dpt_rto : Nat := 0x030C
/-- network.dpt_retries (file 03): 1–16; default 8. -/
abbrev Fld.network_dpt_retries : Nat := 0x030D
/-- network.credit_max (file 03): 64–4,096; default 1,024. -/
abbrev Fld.network_credit_max : Nat := 0x030E
/-- network.ack_delay (file 03): 5–200; default 20. -/
abbrev Fld.network_ack_delay : Nat := 0x030F
/-- geometry.bar_name (file 18): 8 bars × UTF-8; default "BAR0" to "BAR7". -/
abbrev Fld.geometry_bar_name : Nat := 0x0401
/-- geometry.bar_offset (file 10): 8 bars × 0–4,000,000,000; default 0. -/
abbrev Fld.geometry_bar_offset : Nat := 0x0402
/-- heads.head_table (file 06): 16 links × 0–32 entries, *Table: Head entry*; default empty. -/
abbrev Fld.heads_head_table : Nat := 0x0501
/-- heads.known_dead (file 06): 16 links × 0–256 slots, each entry a u16 slot number; default empty. -/
abbrev Fld.heads_known_dead : Nat := 0x0502
/-- heads.link_enable (file 11): 16 × 0–1; default 1. -/
abbrev Fld.heads_link_enable : Nat := 0x0503
/-- heads.status_timeout (file 11): 200–10,000; default 1,000. -/
abbrev Fld.heads_status_timeout : Nat := 0x0504
/-- heads.train_timeout (file 11): 10–10,000; default 100. -/
abbrev Fld.heads_train_timeout : Nat := 0x0505
/-- position.mode (file 09): 16 inputs × 0–3; default 0. -/
abbrev Fld.position_mode : Nat := 0x0601
/-- position.invert (file 09): 16 × 0–1; default 0. -/
abbrev Fld.position_invert : Nat := 0x0602
/-- position.filter_samples (file 09): 16 × 0–7; default 0. -/
abbrev Fld.position_filter_samples : Nat := 0x0603
/-- position.wire_samples (file 09): 16 × 1–64; default 3. -/
abbrev Fld.position_wire_samples : Nat := 0x0604
/-- position.counts_per_rev (file 09): 16 × 4–1,073,741,824; default 4,096. -/
abbrev Fld.position_counts_per_rev : Nat := 0x0605
/-- position.travel_per_rev (file 09): 16 × 0 or 1,000,000–4,000,000,000; default 0. -/
abbrev Fld.position_travel_per_rev : Nat := 0x0606
/-- position.index_use (file 09): 16 × 0–1; default 1. -/
abbrev Fld.position_index_use : Nat := 0x0607
/-- position.index_ref (file 09): 16 × 0 to counts_per_rev − 1; default 0. -/
abbrev Fld.position_index_ref : Nat := 0x0608
/-- position.index_width (file 09): 16 × 1–4; default 1. -/
abbrev Fld.position_index_width : Nat := 0x0609
/-- position.index_window (file 09): 16 × 0–64; default 4. -/
abbrev Fld.position_index_window : Nat := 0x060A
/-- position.index_policy (file 09): 16 × 0–1 (FAULT, IGNORE); default 0. -/
abbrev Fld.position_index_policy : Nat := 0x060B
/-- position.illegal_window (file 09): 10–100,000; default 1,000. -/
abbrev Fld.position_illegal_window : Nat := 0x060C
/-- position.fault_policy (file 09): 16 × 0–1 (COAST, HALT); default 0. -/
abbrev Fld.position_fault_policy : Nat := 0x060D
/-- position.coast_limit (file 09): 0–1,024; default 64. -/
abbrev Fld.position_coast_limit : Nat := 0x060E
/-- position.fault_clear (file 09): 1–1,000; default 10. -/
abbrev Fld.position_fault_clear : Nat := 0x060F
/-- position.compare_hysteresis (file 09): 0–16; default 2. -/
abbrev Fld.position_compare_hysteresis : Nat := 0x0610
/-- position.speed_window (file 09): 1–10,000; default 100. -/
abbrev Fld.position_speed_window : Nat := 0x0611
/-- position.extrapolate (file 09): 0–1; default 1. -/
abbrev Fld.position_extrapolate : Nat := 0x0612
/-- position.ssi_bits (file 09): 16 × 12–32; default 24. -/
abbrev Fld.position_ssi_bits : Nat := 0x0613
/-- position.ssi_extra (file 09): 16 × 0–4; default 0. -/
abbrev Fld.position_ssi_extra : Nat := 0x0614
/-- position.ssi_parity (file 09): 16 × 0–2 (none, even, odd); default 0. -/
abbrev Fld.position_ssi_parity : Nat := 0x0615
/-- position.ssi_clock (file 09): 16 × 100–10,000; default 2,000. -/
abbrev Fld.position_ssi_clock : Nat := 0x0616
/-- position.ssi_monoflop (file 09): 16 × 1–64; default 20. -/
abbrev Fld.position_ssi_monoflop : Nat := 0x0617
/-- position.ssi_period (file 09): 16 × 2–1,000; default 40. -/
abbrev Fld.position_ssi_period : Nat := 0x0618
/-- position.ssi_max_step (file 09): 16 × 1–1,048,576; default 1,024. -/
abbrev Fld.position_ssi_max_step : Nat := 0x0619
/-- position.bar_input (file 09): 8 bars × 0–15 or 0xFF; default 0. -/
abbrev Fld.position_bar_input : Nat := 0x061A
/-- din.filter (file 09): 24 × 0–10,000; default 5. -/
abbrev Fld.din_filter : Nat := 0x061B
/-- din.invert (file 09): 24 × 0–1; default 0. -/
abbrev Fld.din_invert : Nat := 0x061C
/-- din.latch_input (file 09): 24 × 0–15; default 0. -/
abbrev Fld.din_latch_input : Nat := 0x061D
/-- firing.min_interval (file 10): 8 bars × 5,000–1,000,000; default 5,000. -/
abbrev Fld.firing_min_interval : Nat := 0x0701
/-- firing.max_defer (file 10): 0–512; default 128. -/
abbrev Fld.firing_max_defer : Nat := 0x0702
/-- firing.overspeed_warn (file 10): 50–100; default 98. -/
abbrev Fld.firing_overspeed_warn : Nat := 0x0703
/-- firing.head_pause (file 10): 8 bars × 20–90; default 55. -/
abbrev Fld.firing_head_pause : Nat := 0x0704
/-- firing.head_limit (file 10): 8 bars × 25–95; default 60. -/
abbrev Fld.firing_head_limit : Nat := 0x0705
/-- firing.head_hysteresis (file 10): 1–10; default 3. -/
abbrev Fld.firing_head_hysteresis : Nat := 0x0706
/-- firing.head_pause_stop (file 10): 0–1; default 0. -/
abbrev Fld.firing_head_pause_stop : Nat := 0x0707
/-- firing.damage_policy (file 10): 0–1 (REPORT, HALT_BAR); default 0. -/
abbrev Fld.firing_damage_policy : Nat := 0x0708
/-- firing.head_delay (file 10): 16 links × 32 heads × 0–62; default 0. -/
abbrev Fld.firing_head_delay : Nat := 0x0709
/-- firing.rank_delay (file 10): 16 links × 16 ranks × 0–62; default 0. -/
abbrev Fld.firing_rank_delay : Nat := 0x070A
/-- firing.rank_tap (file 10): 16 links × 16 ranks × 0–255; default 0. -/
abbrev Fld.firing_rank_tap : Nat := 0x070B
/-- render.governor_enable (file 02): 0–1; default 1. -/
abbrev Fld.render_governor_enable : Nat := 0x0801
/-- render.governor_headroom (file 02): 0–25; default 8. -/
abbrev Fld.render_governor_headroom : Nat := 0x0802
/-- render.governor_hysteresis (file 02): 3–15; default 4. -/
abbrev Fld.render_governor_hysteresis : Nat := 0x0803
/-- render.governor_period (file 02): 50–1,000; default 100. -/
abbrev Fld.render_governor_period : Nat := 0x0804
/-- render.governor_down_hold (file 02): 1–100; default 10. -/
abbrev Fld.render_governor_down_hold : Nat := 0x0805
/-- render.governor_max_step (file 02): 0–12; default 12. -/
abbrev Fld.render_governor_max_step : Nat := 0x0806
/-- render.guard_complete (file 05): 0–1; default 1. -/
abbrev Fld.render_guard_complete : Nat := 0x0810
/-- render.decode_retries (file 05): 0–3; default 1. -/
abbrev Fld.render_decode_retries : Nat := 0x0811
/-- screen.tiles (file 06): 0–16 tiles: width u16, height u16, levels u8 (1 or 3), reserved 3 bytes, then width × height ×
levels u16 row by row, a cell's thresholds consecutive; default none. -/
abbrev Fld.screen_tiles : Nat := 0x0820
/-- screen.select (file 06): 8 bars × 6 combinations (index = 2 × lpi code + drop_depth − 1); 0–15 or 0xFF; default 0xFF. -/
abbrev Fld.screen_select : Nat := 0x0821
/-- screen.origin_x (file 06): 8 bars × 0–1,023; default 0. -/
abbrev Fld.screen_origin_x : Nat := 0x0822
/-- screen.origin_y (file 06): 8 bars × 0–1,023; default 0. -/
abbrev Fld.screen_origin_y : Nat := 0x0823
/-- screen.ep_mode (file 06): 8 bars × 0–2 (OFF, ALTERNATE, SPLIT); default 2. -/
abbrev Fld.screen_ep_mode : Nat := 0x0824
/-- screen.ep_reach (file 06): 1–2; default 2. -/
abbrev Fld.screen_ep_reach : Nat := 0x0825
/-- screen.stitch_mode (file 06): 8 bars × 0–1 (HARD, RAMP); default 1. -/
abbrev Fld.screen_stitch_mode : Nat := 0x0826
/-- memory.surface_gib (file 08): 8–48; default 24. -/
abbrev Fld.memory_surface_gib : Nat := 0x0901
/-- memory.inspect_gib (file 08): 1–16; default 4. -/
abbrev Fld.memory_inspect_gib : Nat := 0x0902
/-- memory.tc_q1 (file 08): 500–10,000; default 2,000. -/
abbrev Fld.memory_tc_q1 : Nat := 0x0903
/-- memory.tc_q2 (file 08): 1,000–50,000; default 4,000. -/
abbrev Fld.memory_tc_q2 : Nat := 0x0904
/-- memory.tc_q3 (file 08): 1,000–50,000; default 8,000. -/
abbrev Fld.memory_tc_q3 : Nat := 0x0905
/-- memory.tc_q4 (file 08): 2,000–100,000; default 20,000. -/
abbrev Fld.memory_tc_q4 : Nat := 0x0906
/-- memory.tc_q5 (file 08): 2,000–100,000; default 20,000. -/
abbrev Fld.memory_tc_q5 : Nat := 0x0907
/-- memory.tc_q6 (file 08): 5,000–1,000,000; default 50,000. -/
abbrev Fld.memory_tc_q6 : Nat := 0x0908
/-- memory.tc_q7 (file 08): 10,000–1,000,000; default 100,000. -/
abbrev Fld.memory_tc_q7 : Nat := 0x0909
/-- memory.q1_rate (file 08): 40–160; default 160. -/
abbrev Fld.memory_q1_rate : Nat := 0x090A
/-- memory.q7_rate (file 08): 5–25; default 25. -/
abbrev Fld.memory_q7_rate : Nat := 0x090B
/-- memory.scrub_period (file 08): 1–168; default 24. -/
abbrev Fld.memory_scrub_period : Nat := 0x090C
/-- memory.ce_threshold (file 08): 1–65,535; default 64. -/
abbrev Fld.memory_ce_threshold : Nat := 0x090D
/-- memory.train_reuse (file 08): 0–1; default 1. -/
abbrev Fld.memory_train_reuse : Nat := 0x090E
/-- camera.enable (file 12): 4 × 0–1; default 0. -/
abbrev Fld.camera_enable : Nat := 0x0A01
/-- camera.connections (file 12): 4 × 1–4; default 1. -/
abbrev Fld.camera_connections : Nat := 0x0A02
/-- camera.cxp_rate (file 12): 4 × 0–6 (CXP-1, -2, -3, -5, -6, -10, -12); default 6. -/
abbrev Fld.camera_cxp_rate : Nat := 0x0A03
/-- camera.width (file 12): 4 × 64–16,384; default 4,096. -/
abbrev Fld.camera_width : Nat := 0x0A04
/-- camera.height (file 12): 4 × 1–8,192; default 1,024. -/
abbrev Fld.camera_height : Nat := 0x0A05
/-- camera.pixel_bits (file 12): 4 × 8, 10, 12; default 8. -/
abbrev Fld.camera_pixel_bits : Nat := 0x0A06
/-- camera.latency (file 12): 4 × 0–3; default 1. -/
abbrev Fld.camera_latency : Nat := 0x0A07
/-- camera.source (file 12): 4 × 0–15; default 0. -/
abbrev Fld.camera_source : Nat := 0x0A08
/-- camera.offset (file 12): 4 × 0–4,000,000,000; default 0. -/
abbrev Fld.camera_offset : Nat := 0x0A09
/-- camera.file_origin (file 12): 4 × 0–27,262,975; default 0. -/
abbrev Fld.camera_file_origin : Nat := 0x0A0A
/-- camera.file_per_pixel (file 12): 4 × 65,536–1,048,576; default 212,992. -/
abbrev Fld.camera_file_per_pixel : Nat := 0x0A0B
/-- camera.line_per_row (file 12): 4 × 65,536–1,048,576; default 212,992. -/
abbrev Fld.camera_line_per_row : Nat := 0x0A0C
/-- camera.trigger_mode (file 12): 4 × 0–1 (UPLINK, TPO); default 0. -/
abbrev Fld.camera_trigger_mode : Nat := 0x0A0D
/-- camera.trigger_output (file 12): 4 × 0–7; default 0. -/
abbrev Fld.camera_trigger_output : Nat := 0x0A0E
/-- camera.strobe_output (file 12): 4 × 0–7 or 0xFF; default 0xFF. -/
abbrev Fld.camera_strobe_output : Nat := 0x0A0F
/-- camera.strobe_offset (file 12): 4 × −4,096 to 4,096; default 0. -/
abbrev Fld.camera_strobe_offset : Nat := 0x0A10
/-- camera.strobe_width (file 12): 4 × 100–100,000; default 10,000. -/
abbrev Fld.camera_strobe_width : Nat := 0x0A11
/-- camera.frame_timeout (file 12): 4 × 100–1,000,000; default 100,000. -/
abbrev Fld.camera_frame_timeout : Nat := 0x0A12
/-- camera.mosaic (file 12): 4 × *Table: Mosaic entry*; default 1 × 1 CLEAR. -/
abbrev Fld.camera_mosaic : Nat := 0x0A13
/-- camera.reconstruct (file 12): 4 × 0–1 (BINNED, INTERPOLATED); default 1. -/
abbrev Fld.camera_reconstruct : Nat := 0x0A14
/-- camera.exposure (file 12): 4 × 1,000–10,000,000; default 20,000. -/
abbrev Fld.camera_exposure : Nat := 0x0A15
/-- camera.gain (file 12): 4 × 0–4,800; default 0. -/
abbrev Fld.camera_gain : Nat := 0x0A16
/-- camera.exposure_address (file 12): 4 × u32; default 0. -/
abbrev Fld.camera_exposure_address : Nat := 0x0A17
/-- camera.gain_address (file 12): 4 × u32; default 0. -/
abbrev Fld.camera_gain_address : Nat := 0x0A18
/-- camera.traverse_axis (file 12): 4 × 0–11 or 0xFF; default 0xFF. -/
abbrev Fld.camera_traverse_axis : Nat := 0x0A19
/-- camera.raw_tap_point (file 12): 4 × 0–3; default 0. -/
abbrev Fld.camera_raw_tap_point : Nat := 0x0A1A
/-- camera.raw_tap_interval (file 12): 4 × 1–65,535; default 100. -/
abbrev Fld.camera_raw_tap_interval : Nat := 0x0A1B
/-- camera.raw_tap_window (file 12): 4 × x, y, width, height, u16 each; default whole frame. -/
abbrev Fld.camera_raw_tap_window : Nat := 0x0A1C
/-- calibration.enable (file 13): 0x00–0x3F; default 0x1F. -/
abbrev Fld.calibration_enable : Nat := 0x0B01
/-- calibration.accept_mode (file 13): 0–1 (REPEAT, PLAUSIBILITY); default 0. -/
abbrev Fld.calibration_accept_mode : Nat := 0x0B02
/-- calibration.guard_lines (file 13): 16–256; default 32. -/
abbrev Fld.calibration_guard_lines : Nat := 0x0B03
/-- calibration.nc_every (file 13): 1–1,024; default 8. -/
abbrev Fld.calibration_nc_every : Nat := 0x0B04
/-- calibration.nc_pitch (file 13): 8–64; default 16. -/
abbrev Fld.calibration_nc_pitch : Nat := 0x0B05
/-- calibration.nc_lines (file 13): 4–64; default 12. -/
abbrev Fld.calibration_nc_lines : Nat := 0x0B06
/-- calibration.density_every (file 13): 1–1,024; default 4. -/
abbrev Fld.calibration_density_every : Nat := 0x0B07
/-- calibration.density_level (file 13): 4,096–61,440; default 32,768. -/
abbrev Fld.calibration_density_level : Nat := 0x0B08
/-- calibration.density_lines (file 13): 32–512; default 128. -/
abbrev Fld.calibration_density_lines : Nat := 0x0B09
/-- calibration.tap_window (file 13): 4–256; default 8. -/
abbrev Fld.calibration_tap_window : Nat := 0x0B0A
/-- calibration.density_slope (file 13): 8 bars × 1–64; default 4. -/
abbrev Fld.calibration_density_slope : Nat := 0x0B0B
/-- calibration.tone_every (file 13): 1–1,024; default 16. -/
abbrev Fld.calibration_tone_every : Nat := 0x0B0C
/-- calibration.tone_lines (file 13): 32–512; default 96. -/
abbrev Fld.calibration_tone_lines : Nat := 0x0B0D
/-- calibration.tone_target (file 13): 8 bars × 9 points × 0–3,000; default 0, 200, 400, …, 1,600. -/
abbrev Fld.calibration_tone_target : Nat := 0x0B0E
/-- calibration.reg_every (file 13): 1–1,024; default 2. -/
abbrev Fld.calibration_reg_every : Nat := 0x0B0F
/-- calibration.reg_reference_bar (file 13): 0–7; default 0. -/
abbrev Fld.calibration_reg_reference_bar : Nat := 0x0B10
/-- calibration.bar_plane (file 13): 8 bars × 0–4; default 3 (CLEAR). -/
abbrev Fld.calibration_bar_plane : Nat := 0x0B11
/-- calibration.damping (file 13): 10–100; default 75. -/
abbrev Fld.calibration_damping : Nat := 0x0B12
/-- calibration.max_step (file 13): 1–32; default 8. -/
abbrev Fld.calibration_max_step : Nat := 0x0B13
/-- calibration.tol_density (file 13): 0–16; default 2. -/
abbrev Fld.calibration_tol_density : Nat := 0x0B14
/-- calibration.tol_tone (file 13): 0–4,096; default 512. -/
abbrev Fld.calibration_tol_tone : Nat := 0x0B15
/-- calibration.tol_timing (file 13): 1–64; default 8. -/
abbrev Fld.calibration_tol_timing : Nat := 0x0B16
/-- calibration.tol_flat (file 13): 1–20; default 3. -/
abbrev Fld.calibration_tol_flat : Nat := 0x0B17
/-- calibration.slew_step (file 13): 1–32; default 8. -/
abbrev Fld.calibration_slew_step : Nat := 0x0B18
/-- calibration.dead_threshold (file 13): 50–800; default 300. -/
abbrev Fld.calibration_dead_threshold : Nat := 0x0B19
/-- calibration.revive_threshold (file 13): 200–950; default 600. -/
abbrev Fld.calibration_revive_threshold : Nat := 0x0B1A
/-- calibration.plaus_limit (file 13): 1–64; default 4. -/
abbrev Fld.calibration_plaus_limit : Nat := 0x0B1B
/-- calibration.disagree_limit (file 13): 2–64; default 8. -/
abbrev Fld.calibration_disagree_limit : Nat := 0x0B1C
/-- calibration.white_target (file 13): 16,384–64,000; default 52,000. -/
abbrev Fld.calibration_white_target : Nat := 0x0B1D
/-- calibration.white_band (file 13): 2–25; default 8. -/
abbrev Fld.calibration_white_band : Nat := 0x0B1E
/-- calibration.flat_lines (file 13): 64–1,024; default 256. -/
abbrev Fld.calibration_flat_lines : Nat := 0x0B1F
/-- calibration.margin_files (file 13): 64–4,096; default 512. -/
abbrev Fld.calibration_margin_files : Nat := 0x0B20
/-- calibration.defect_level (file 13): 1–255; default 24. -/
abbrev Fld.calibration_defect_level : Nat := 0x0B21
/-- timebase.source (file 14): 0–2 (FREE, PTP, RING); default 0. -/
abbrev Fld.timebase_source : Nat := 0x0C01
/-- ptp.port (file 14): 0–1; default 0. -/
abbrev Fld.ptp_port : Nat := 0x0C02
/-- ptp.transport (file 14): 0–2 (UDP4, UDP6, L2); default 2. -/
abbrev Fld.ptp_transport : Nat := 0x0C03
/-- ptp.delay_mechanism (file 14): 0–1 (E2E, P2P); default 0. -/
abbrev Fld.ptp_delay_mechanism : Nat := 0x0C04
/-- ptp.domain (file 14): 0–127; default 0. -/
abbrev Fld.ptp_domain : Nat := 0x0C05
/-- ptp.role (file 14): 0–1 (SLAVE_ONLY, MASTER_CAPABLE); default 0. -/
abbrev Fld.ptp_role : Nat := 0x0C06
/-- ptp.priority1 (file 14): 0–255; default 128. -/
abbrev Fld.ptp_priority1 : Nat := 0x0C07
/-- ptp.priority2 (file 14): 0–255; default 128. -/
abbrev Fld.ptp_priority2 : Nat := 0x0C08
/-- ptp.one_step (file 14): 0–1; default 1. -/
abbrev Fld.ptp_one_step : Nat := 0x0C09
/-- ptp.log_sync_interval (file 14): −7 to 1; default −3. -/
abbrev Fld.ptp_log_sync_interval : Nat := 0x0C0A
/-- ptp.log_delay_interval (file 14): −7 to 5; default 0. -/
abbrev Fld.ptp_log_delay_interval : Nat := 0x0C0B
/-- ptp.announce_timeout (file 14): 2–10; default 3. -/
abbrev Fld.ptp_announce_timeout : Nat := 0x0C0C
/-- ptp.asymmetry (file 14): −100,000 to 100,000; default 0. -/
abbrev Fld.ptp_asymmetry : Nat := 0x0C0D
/-- timebase.step_threshold (file 14): 100–1,000,000,000; default 1,000,000. -/
abbrev Fld.timebase_step_threshold : Nat := 0x0C0E
/-- timebase.max_slew (file 14): 1,000–488,000; default 100,000. -/
abbrev Fld.timebase_max_slew : Nat := 0x0C0F
/-- timebase.lock_threshold (file 14): 10–100,000; default 100. -/
abbrev Fld.timebase_lock_threshold : Nat := 0x0C10
/-- timebase.pps_mode (file 14): 0–2 (OFF, LOCKED_ONLY, ALWAYS); default 1. -/
abbrev Fld.timebase_pps_mode : Nat := 0x0C11
/-- timebase.pps_width (file 14): 1–500,000; default 10,000. -/
abbrev Fld.timebase_pps_width : Nat := 0x0C12
/-- motion.enable (file 15): 0–1; default 0. -/
abbrev Fld.motion_enable : Nat := 0x0D01
/-- motion.microsteps (file 15): 1–256; default 64. -/
abbrev Fld.motion_microsteps : Nat := 0x0D02
/-- motion.nm_per_microstep (file 15): 1–1,000,000; default 100. -/
abbrev Fld.motion_nm_per_microstep : Nat := 0x0D03
/-- motion.v_max (file 15): 1–4,000,000; default 64,000. -/
abbrev Fld.motion_v_max : Nat := 0x0D04
/-- motion.accel (file 15): 1–400,000,000; default 256,000. -/
abbrev Fld.motion_accel : Nat := 0x0D05
/-- motion.decel (file 15): 1–400,000,000; default 256,000. -/
abbrev Fld.motion_decel : Nat := 0x0D06
/-- motion.jerk (file 15): 0 or 1,000–4,000,000,000; default 0. -/
abbrev Fld.motion_jerk : Nat := 0x0D07
/-- motion.estop_decel (file 15): 1–400,000,000; default 1,024,000. -/
abbrev Fld.motion_estop_decel : Nat := 0x0D08
/-- motion.run_current (file 15): 0–10,000; default 1,000. -/
abbrev Fld.motion_run_current : Nat := 0x0D09
/-- motion.hold_current (file 15): 0–10,000; default 500. -/
abbrev Fld.motion_hold_current : Nat := 0x0D0A
/-- motion.hold_delay (file 15): 0–10,000; default 200. -/
abbrev Fld.motion_hold_delay : Nat := 0x0D0B
/-- motion.phase_r (file 15): 10–100,000; default 1,000. -/
abbrev Fld.motion_phase_r : Nat := 0x0D0C
/-- motion.phase_l (file 15): 10–100,000; default 2,000. -/
abbrev Fld.motion_phase_l : Nat := 0x0D0D
/-- motion.ke (file 15): 0–100,000; default 0. -/
abbrev Fld.motion_ke : Nat := 0x0D0E
/-- motion.pwm_khz (file 15): 20–100; default 40. -/
abbrev Fld.motion_pwm_khz : Nat := 0x0D0F
/-- motion.vbus_input (file 15): 0–3; default 0. -/
abbrev Fld.motion_vbus_input : Nat := 0x0D10
/-- motion.vbus_min (file 15): 10,000–80,000; default 18,000. -/
abbrev Fld.motion_vbus_min : Nat := 0x0D11
/-- motion.vbus_max (file 15): 15,000–100,000; default 60,000. -/
abbrev Fld.motion_vbus_max : Nat := 0x0D12
/-- motion.encoder_input (file 15): 0–15 or 0xFF; default 0xFF. -/
abbrev Fld.motion_encoder_input : Nat := 0x0D13
/-- motion.enc_ratio (file 15): signed 32 bit, not 0; default 65,536. -/
abbrev Fld.motion_enc_ratio : Nat := 0x0D14
/-- motion.stall_window (file 15): 1–65,535; default 128. -/
abbrev Fld.motion_stall_window : Nat := 0x0D15
/-- motion.stall_time (file 15): 10–100,000; default 1,000. -/
abbrev Fld.motion_stall_time : Nat := 0x0D16
/-- motion.home_input (file 15): 0–23 or 0xFF; default 0xFF. -/
abbrev Fld.motion_home_input : Nat := 0x0D17
/-- motion.home_dir (file 15): 0–1 (NEGATIVE, POSITIVE); default 0. -/
abbrev Fld.motion_home_dir : Nat := 0x0D18
/-- motion.home_speed (file 15): 1–4,000,000; default 16,000. -/
abbrev Fld.motion_home_speed : Nat := 0x0D19
/-- motion.home_creep (file 15): 1–4,000,000; default 1,000. -/
abbrev Fld.motion_home_creep : Nat := 0x0D1A
/-- motion.home_backoff (file 15): 1–1,000,000; default 2,000. -/
abbrev Fld.motion_home_backoff : Nat := 0x0D1B
/-- motion.home_position (file 15): −2^47 to 2^47 − 1; default 0. -/
abbrev Fld.motion_home_position : Nat := 0x0D1C
/-- motion.home_travel_max (file 15): 1–2^47; default 10,000,000. -/
abbrev Fld.motion_home_travel_max : Nat := 0x0D1D
/-- motion.limit_neg (file 15): 0–23 or 0xFF; default 0xFF. -/
abbrev Fld.motion_limit_neg : Nat := 0x0D1E
/-- motion.limit_pos (file 15): 0–23 or 0xFF; default 0xFF. -/
abbrev Fld.motion_limit_pos : Nat := 0x0D1F
/-- motion.halt_action (file 15): 0–1 (NONE, ESTOP); default 1. -/
abbrev Fld.motion_halt_action : Nat := 0x0D20
/-- motion.gear_lag_max (file 15): 1–1,000,000; default 1,024. -/
abbrev Fld.motion_gear_lag_max : Nat := 0x0D21
/-- ring.enable (file 16): 0–1; default 1. -/
abbrev Fld.ring_enable : Nat := 0x0E01
/-- ring.expected (file 16): 0x01–0xFF; default 0x01. -/
abbrev Fld.ring_expected : Nat := 0x0E02
/-- ring.group (file 16): 0–1; default 0. -/
abbrev Fld.ring_group : Nat := 0x0E03
/-- ring.ring_loss_tolerance (file 16): 100–10,000; default 500. -/
abbrev Fld.ring_ring_loss_tolerance : Nat := 0x0E04
/-- ring.leave_wait (file 16): 10–10,000; default 1,000. -/
abbrev Fld.ring_leave_wait : Nat := 0x0E05
/-- ring.origin_input (file 16): 0–15; default 0. -/
abbrev Fld.ring_origin_input : Nat := 0x0E06
/-- redundancy.pair_enable (file 17): 0–1; default 0. -/
abbrev Fld.redundancy_pair_enable : Nat := 0x0F01
/-- redundancy.pair_wait (file 17): 100–10,000; default 2,000. -/
abbrev Fld.redundancy_pair_wait : Nat := 0x0F02
/-- redundancy.reclaim_wait (file 17): 200–5,000; default 500. -/
abbrev Fld.redundancy_reclaim_wait : Nat := 0x0F03
/-- thermal.throttle_lower (file 20): 0–20; default 0. -/
abbrev Fld.thermal_throttle_lower : Nat := 0x1001
/-- thermal.warn_lower (file 20): 0–25; default 0. -/
abbrev Fld.thermal_warn_lower : Nat := 0x1002
/-- thermal.hysteresis (file 20): 1–10; default 3. -/
abbrev Fld.thermal_hysteresis : Nat := 0x1003
/-- compat.go_delay (file 22): 128–65,535; default 2,048. -/
abbrev Fld.compat_go_delay : Nat := 0x1101
/-- compat.go_filter (file 22): 0–10,000; default 5. -/
abbrev Fld.compat_go_filter : Nat := 0x1102
/-- compat.encoder_divider (file 22): 16 × 1–65,535; default 8. -/
abbrev Fld.compat_encoder_divider : Nat := 0x1103
/-- security.dpt_auth (file 03): 0–2 (OFF, ACCEPT, REQUIRED); default 0. -/
abbrev Fld.security_dpt_auth : Nat := 0x1201
/-- security.dpt_key_id (file 03): 0–255; default 0. -/
abbrev Fld.security_dpt_key_id : Nat := 0x1202
/-- security.dpt_key (file 03): any; default all zero. -/
abbrev Fld.security_dpt_key : Nat := 0x1203
/-- security.config_key (file 18): Uncompressed P-384 public key, or empty; default empty. -/
abbrev Fld.security_config_key : Nat := 0x1204
/-- security.require_confirm (file 21): 0–1; default 0. -/
abbrev Fld.security_require_confirm : Nat := 0x1205
/-- security.relay_bundles (file 21): 0–1; default 1. -/
abbrev Fld.security_relay_bundles : Nat := 0x1206
/-- security.rollback_floor (file 21): u32; default 0. -/
abbrev Fld.security_rollback_floor : Nat := 0x1207

/-- The numeric fields of section 0x01. -/
def fieldTable01 : List FieldDef :=
  [⟨Fld.identity_config_id, 1, 0, 4294967295, 0, .nearest⟩,
   ⟨Fld.identity_expected_node, 1, 0, 7, 255, .orFF⟩]
/-- The numeric fields of section 0x02. -/
def fieldTable02 : List FieldDef :=
  [⟨Fld.power_domain_enable, 1, 0, 1023, 1023, .nearest⟩]
/-- The numeric fields of section 0x03. -/
def fieldTable03 : List FieldDef :=
  [⟨Fld.network_p0_mode, 1, 0, 4, 4, (.above 4)⟩,
   ⟨Fld.network_p1_mode, 1, 0, 4, 4, (.above 4)⟩,
   ⟨Fld.network_mtu, 1, 1500, 9000, 9000, .nearest⟩,
   ⟨Fld.network_p0_ipv4, 1, 0, 4294967295, 0, (.outside 0)⟩,
   ⟨Fld.network_p1_ipv4, 1, 0, 4294967295, 0, (.outside 0)⟩,
   ⟨Fld.network_p0_ipv6, 1, 0, 340282366920938463463374607431768211455, 0, (.outside 0)⟩,
   ⟨Fld.network_p1_ipv6, 1, 0, 340282366920938463463374607431768211455, 0, (.outside 0)⟩,
   ⟨Fld.network_dpt_port, 1, 1024, 65535, 49300, .nearest⟩,
   ⟨Fld.network_pair_group_v4, 1, 0, 4294967295, 0, (.outside 0)⟩,
   ⟨Fld.network_pair_group_v6, 1, 0, 340282366920938463463374607431768211455, 0, (.outside 0)⟩,
   ⟨Fld.network_session_timeout, 1, 100, 10000, 1000, .nearest⟩,
   ⟨Fld.network_dpt_rto, 1, 100, 10000, 500, .nearest⟩,
   ⟨Fld.network_dpt_retries, 1, 1, 16, 8, .nearest⟩,
   ⟨Fld.network_credit_max, 1, 64, 4096, 1024, .nearest⟩,
   ⟨Fld.network_ack_delay, 1, 5, 200, 20, .nearest⟩]
/-- The numeric fields of section 0x04. -/
def fieldTable04 : List FieldDef :=
  [⟨Fld.geometry_bar_offset, 8, 0, 4000000000, 0, .nearest⟩]
/-- The numeric fields of section 0x05. -/
def fieldTable05 : List FieldDef :=
  [⟨Fld.heads_link_enable, 16, 0, 1, 1, (.above 1)⟩,
   ⟨Fld.heads_status_timeout, 1, 200, 10000, 1000, .nearest⟩,
   ⟨Fld.heads_train_timeout, 1, 10, 10000, 100, .nearest⟩]
/-- The numeric fields of section 0x06. -/
def fieldTable06 : List FieldDef :=
  [⟨Fld.position_mode, 16, 0, 3, 0, (.above 0)⟩,
   ⟨Fld.position_invert, 16, 0, 1, 0, (.above 1)⟩,
   ⟨Fld.position_filter_samples, 16, 0, 7, 0, (.above 7)⟩,
   ⟨Fld.position_wire_samples, 16, 1, 64, 3, .nearest⟩,
   ⟨Fld.position_counts_per_rev, 16, 4, 1073741824, 4096, .nearest⟩,
   ⟨Fld.position_travel_per_rev, 16, 0, 4000000000, 0, .nearest⟩,
   ⟨Fld.position_index_use, 16, 0, 1, 1, (.above 1)⟩,
   ⟨Fld.position_index_ref, 16, 0, 1073741823, 0, .nearest⟩,
   ⟨Fld.position_index_width, 16, 1, 4, 1, .nearest⟩,
   ⟨Fld.position_index_window, 16, 0, 64, 4, .nearest⟩,
   ⟨Fld.position_index_policy, 16, 0, 1, 0, (.above 0)⟩,
   ⟨Fld.position_illegal_window, 1, 10, 100000, 1000, .nearest⟩,
   ⟨Fld.position_fault_policy, 16, 0, 1, 0, (.above 1)⟩,
   ⟨Fld.position_coast_limit, 1, 0, 1024, 64, .nearest⟩,
   ⟨Fld.position_fault_clear, 1, 1, 1000, 10, .nearest⟩,
   ⟨Fld.position_compare_hysteresis, 1, 0, 16, 2, .nearest⟩,
   ⟨Fld.position_speed_window, 1, 1, 10000, 100, .nearest⟩,
   ⟨Fld.position_extrapolate, 1, 0, 1, 1, (.above 1)⟩,
   ⟨Fld.position_ssi_bits, 16, 12, 32, 24, .nearest⟩,
   ⟨Fld.position_ssi_extra, 16, 0, 4, 0, .nearest⟩,
   ⟨Fld.position_ssi_parity, 16, 0, 2, 0, (.above 0)⟩,
   ⟨Fld.position_ssi_clock, 16, 100, 10000, 2000, .nearest⟩,
   ⟨Fld.position_ssi_monoflop, 16, 1, 64, 20, .nearest⟩,
   ⟨Fld.position_ssi_period, 16, 2, 1000, 40, .nearest⟩,
   ⟨Fld.position_ssi_max_step, 16, 1, 1048576, 1024, .nearest⟩,
   ⟨Fld.position_bar_input, 8, 0, 15, 0, .orFF⟩,
   ⟨Fld.din_filter, 24, 0, 10000, 5, .nearest⟩,
   ⟨Fld.din_invert, 24, 0, 1, 0, (.above 1)⟩,
   ⟨Fld.din_latch_input, 24, 0, 15, 0, .nearest⟩]
/-- The numeric fields of section 0x07. -/
def fieldTable07 : List FieldDef :=
  [⟨Fld.firing_min_interval, 8, 5000, 1000000, 5000, .nearest⟩,
   ⟨Fld.firing_max_defer, 1, 0, 512, 128, .nearest⟩,
   ⟨Fld.firing_overspeed_warn, 1, 50, 100, 98, .nearest⟩,
   ⟨Fld.firing_head_pause, 8, 20, 90, 55, .nearest⟩,
   ⟨Fld.firing_head_limit, 8, 25, 95, 60, .nearest⟩,
   ⟨Fld.firing_head_hysteresis, 1, 1, 10, 3, .nearest⟩,
   ⟨Fld.firing_head_pause_stop, 1, 0, 1, 0, (.above 1)⟩,
   ⟨Fld.firing_damage_policy, 1, 0, 1, 0, (.above 1)⟩,
   ⟨Fld.firing_head_delay, 512, 0, 62, 0, .nearest⟩,
   ⟨Fld.firing_rank_delay, 256, 0, 62, 0, .nearest⟩,
   ⟨Fld.firing_rank_tap, 256, 0, 255, 0, .nearest⟩]
/-- The numeric fields of section 0x08. -/
def fieldTable08 : List FieldDef :=
  [⟨Fld.render_governor_enable, 1, 0, 1, 1, (.above 1)⟩,
   ⟨Fld.render_governor_headroom, 1, 0, 25, 8, .nearest⟩,
   ⟨Fld.render_governor_hysteresis, 1, 3, 15, 4, .nearest⟩,
   ⟨Fld.render_governor_period, 1, 50, 1000, 100, .nearest⟩,
   ⟨Fld.render_governor_down_hold, 1, 1, 100, 10, .nearest⟩,
   ⟨Fld.render_governor_max_step, 1, 0, 12, 12, .nearest⟩,
   ⟨Fld.render_guard_complete, 1, 0, 1, 1, (.above 1)⟩,
   ⟨Fld.render_decode_retries, 1, 0, 3, 1, (.above 3)⟩,
   ⟨Fld.screen_select, 48, 0, 15, 255, .orFF⟩,
   ⟨Fld.screen_origin_x, 8, 0, 1023, 0, .nearest⟩,
   ⟨Fld.screen_origin_y, 8, 0, 1023, 0, .nearest⟩,
   ⟨Fld.screen_ep_mode, 8, 0, 2, 2, (.above 2)⟩,
   ⟨Fld.screen_ep_reach, 1, 1, 2, 2, .nearest⟩,
   ⟨Fld.screen_stitch_mode, 8, 0, 1, 1, (.above 1)⟩]
/-- The numeric fields of section 0x09. -/
def fieldTable09 : List FieldDef :=
  [⟨Fld.memory_surface_gib, 1, 8, 48, 24, .nearest⟩,
   ⟨Fld.memory_inspect_gib, 1, 1, 16, 4, .nearest⟩,
   ⟨Fld.memory_tc_q1, 1, 500, 10000, 2000, .nearest⟩,
   ⟨Fld.memory_tc_q2, 1, 1000, 50000, 4000, .nearest⟩,
   ⟨Fld.memory_tc_q3, 1, 1000, 50000, 8000, .nearest⟩,
   ⟨Fld.memory_tc_q4, 1, 2000, 100000, 20000, .nearest⟩,
   ⟨Fld.memory_tc_q5, 1, 2000, 100000, 20000, .nearest⟩,
   ⟨Fld.memory_tc_q6, 1, 5000, 1000000, 50000, .nearest⟩,
   ⟨Fld.memory_tc_q7, 1, 10000, 1000000, 100000, .nearest⟩,
   ⟨Fld.memory_q1_rate, 1, 40, 160, 160, .nearest⟩,
   ⟨Fld.memory_q7_rate, 1, 5, 25, 25, .nearest⟩,
   ⟨Fld.memory_scrub_period, 1, 1, 168, 24, .nearest⟩,
   ⟨Fld.memory_ce_threshold, 1, 1, 65535, 64, .nearest⟩,
   ⟨Fld.memory_train_reuse, 1, 0, 1, 1, (.above 1)⟩]
/-- The numeric fields of section 0x0A. -/
def fieldTable0A : List FieldDef :=
  [⟨Fld.camera_enable, 4, 0, 1, 0, (.above 1)⟩,
   ⟨Fld.camera_connections, 4, 1, 4, 1, .nearest⟩,
   ⟨Fld.camera_cxp_rate, 4, 0, 6, 6, (.above 6)⟩,
   ⟨Fld.camera_width, 4, 64, 16384, 4096, .nearest⟩,
   ⟨Fld.camera_height, 4, 1, 8192, 1024, .nearest⟩,
   ⟨Fld.camera_pixel_bits, 4, 8, 12, 8, (.outside 8)⟩,
   ⟨Fld.camera_latency, 4, 0, 3, 1, .nearest⟩,
   ⟨Fld.camera_source, 4, 0, 15, 0, .nearest⟩,
   ⟨Fld.camera_offset, 4, 0, 4000000000, 0, .nearest⟩,
   ⟨Fld.camera_file_origin, 4, 0, 27262975, 0, .nearest⟩,
   ⟨Fld.camera_file_per_pixel, 4, 65536, 1048576, 212992, .nearest⟩,
   ⟨Fld.camera_line_per_row, 4, 65536, 1048576, 212992, .nearest⟩,
   ⟨Fld.camera_trigger_mode, 4, 0, 1, 0, (.above 0)⟩,
   ⟨Fld.camera_trigger_output, 4, 0, 7, 0, .nearest⟩,
   ⟨Fld.camera_strobe_output, 4, 0, 7, 255, .orFF⟩,
   ⟨Fld.camera_strobe_offset, 4, (-4096), 4096, 0, .nearest⟩,
   ⟨Fld.camera_strobe_width, 4, 100, 100000, 10000, .nearest⟩,
   ⟨Fld.camera_frame_timeout, 4, 100, 1000000, 100000, .nearest⟩,
   ⟨Fld.camera_reconstruct, 4, 0, 1, 1, .nearest⟩,
   ⟨Fld.camera_exposure, 4, 1000, 10000000, 20000, .nearest⟩,
   ⟨Fld.camera_gain, 4, 0, 4800, 0, .nearest⟩,
   ⟨Fld.camera_exposure_address, 4, 0, 4294967295, 0, .nearest⟩,
   ⟨Fld.camera_gain_address, 4, 0, 4294967295, 0, .nearest⟩,
   ⟨Fld.camera_traverse_axis, 4, 0, 11, 255, .orFF⟩,
   ⟨Fld.camera_raw_tap_point, 4, 0, 3, 0, (.above 0)⟩,
   ⟨Fld.camera_raw_tap_interval, 4, 1, 65535, 100, .nearest⟩,
   ⟨Fld.camera_raw_tap_window, 16, 0, 65535, 0, .nearest⟩]
/-- The numeric fields of section 0x0B. -/
def fieldTable0B : List FieldDef :=
  [⟨Fld.calibration_enable, 1, 0, 63, 31, .nearest⟩,
   ⟨Fld.calibration_accept_mode, 1, 0, 1, 0, (.above 0)⟩,
   ⟨Fld.calibration_guard_lines, 1, 16, 256, 32, .nearest⟩,
   ⟨Fld.calibration_nc_every, 1, 1, 1024, 8, .nearest⟩,
   ⟨Fld.calibration_nc_pitch, 1, 8, 64, 16, .nearest⟩,
   ⟨Fld.calibration_nc_lines, 1, 4, 64, 12, .nearest⟩,
   ⟨Fld.calibration_density_every, 1, 1, 1024, 4, .nearest⟩,
   ⟨Fld.calibration_density_level, 1, 4096, 61440, 32768, .nearest⟩,
   ⟨Fld.calibration_density_lines, 1, 32, 512, 128, .nearest⟩,
   ⟨Fld.calibration_tap_window, 1, 4, 256, 8, .nearest⟩,
   ⟨Fld.calibration_density_slope, 8, 1, 64, 4, .nearest⟩,
   ⟨Fld.calibration_tone_every, 1, 1, 1024, 16, .nearest⟩,
   ⟨Fld.calibration_tone_lines, 1, 32, 512, 96, .nearest⟩,
   ⟨Fld.calibration_tone_target, 72, 0, 3000, 0, .nearest⟩,
   ⟨Fld.calibration_reg_every, 1, 1, 1024, 2, .nearest⟩,
   ⟨Fld.calibration_reg_reference_bar, 1, 0, 7, 0, .nearest⟩,
   ⟨Fld.calibration_bar_plane, 8, 0, 4, 3, (.above 3)⟩,
   ⟨Fld.calibration_damping, 1, 10, 100, 75, .nearest⟩,
   ⟨Fld.calibration_max_step, 1, 1, 32, 8, .nearest⟩,
   ⟨Fld.calibration_tol_density, 1, 0, 16, 2, .nearest⟩,
   ⟨Fld.calibration_tol_tone, 1, 0, 4096, 512, .nearest⟩,
   ⟨Fld.calibration_tol_timing, 1, 1, 64, 8, .nearest⟩,
   ⟨Fld.calibration_tol_flat, 1, 1, 20, 3, .nearest⟩,
   ⟨Fld.calibration_slew_step, 1, 1, 32, 8, .nearest⟩,
   ⟨Fld.calibration_dead_threshold, 1, 50, 800, 300, .nearest⟩,
   ⟨Fld.calibration_revive_threshold, 1, 200, 950, 600, .nearest⟩,
   ⟨Fld.calibration_plaus_limit, 1, 1, 64, 4, .nearest⟩,
   ⟨Fld.calibration_disagree_limit, 1, 2, 64, 8, .nearest⟩,
   ⟨Fld.calibration_white_target, 1, 16384, 64000, 52000, .nearest⟩,
   ⟨Fld.calibration_white_band, 1, 2, 25, 8, .nearest⟩,
   ⟨Fld.calibration_flat_lines, 1, 64, 1024, 256, .nearest⟩,
   ⟨Fld.calibration_margin_files, 1, 64, 4096, 512, .nearest⟩,
   ⟨Fld.calibration_defect_level, 1, 1, 255, 24, .nearest⟩]
/-- The numeric fields of section 0x0C. -/
def fieldTable0C : List FieldDef :=
  [⟨Fld.timebase_source, 1, 0, 2, 0, (.above 0)⟩,
   ⟨Fld.ptp_port, 1, 0, 1, 0, (.above 0)⟩,
   ⟨Fld.ptp_transport, 1, 0, 2, 2, .nearest⟩,
   ⟨Fld.ptp_delay_mechanism, 1, 0, 1, 0, (.above 0)⟩,
   ⟨Fld.ptp_domain, 1, 0, 127, 0, (.above 0)⟩,
   ⟨Fld.ptp_role, 1, 0, 1, 0, (.above 0)⟩,
   ⟨Fld.ptp_priority1, 1, 0, 255, 128, .nearest⟩,
   ⟨Fld.ptp_priority2, 1, 0, 255, 128, .nearest⟩,
   ⟨Fld.ptp_one_step, 1, 0, 1, 1, (.above 1)⟩,
   ⟨Fld.ptp_log_sync_interval, 1, (-7), 1, (-3), .nearest⟩,
   ⟨Fld.ptp_log_delay_interval, 1, (-7), 5, 0, .nearest⟩,
   ⟨Fld.ptp_announce_timeout, 1, 2, 10, 3, .nearest⟩,
   ⟨Fld.ptp_asymmetry, 1, (-100000), 100000, 0, .nearest⟩,
   ⟨Fld.timebase_step_threshold, 1, 100, 1000000000, 1000000, .nearest⟩,
   ⟨Fld.timebase_max_slew, 1, 1000, 488000, 100000, .nearest⟩,
   ⟨Fld.timebase_lock_threshold, 1, 10, 100000, 100, .nearest⟩,
   ⟨Fld.timebase_pps_mode, 1, 0, 2, 1, (.above 1)⟩,
   ⟨Fld.timebase_pps_width, 1, 1, 500000, 10000, .nearest⟩]
/-- The numeric fields of section 0x0D. -/
def fieldTable0D : List FieldDef :=
  [⟨Fld.motion_enable, 12, 0, 1, 0, (.above 1)⟩,
   ⟨Fld.motion_microsteps, 12, 1, 256, 64, .nearest⟩,
   ⟨Fld.motion_nm_per_microstep, 12, 1, 1000000, 100, .nearest⟩,
   ⟨Fld.motion_v_max, 12, 1, 4000000, 64000, .nearest⟩,
   ⟨Fld.motion_accel, 12, 1, 400000000, 256000, .nearest⟩,
   ⟨Fld.motion_decel, 12, 1, 400000000, 256000, .nearest⟩,
   ⟨Fld.motion_jerk, 12, 0, 4000000000, 0, .nearest⟩,
   ⟨Fld.motion_estop_decel, 12, 1, 400000000, 1024000, .nearest⟩,
   ⟨Fld.motion_run_current, 12, 0, 10000, 1000, .nearest⟩,
   ⟨Fld.motion_hold_current, 12, 0, 10000, 500, .nearest⟩,
   ⟨Fld.motion_hold_delay, 12, 0, 10000, 200, .nearest⟩,
   ⟨Fld.motion_phase_r, 12, 10, 100000, 1000, .nearest⟩,
   ⟨Fld.motion_phase_l, 12, 10, 100000, 2000, .nearest⟩,
   ⟨Fld.motion_ke, 12, 0, 100000, 0, .nearest⟩,
   ⟨Fld.motion_pwm_khz, 12, 20, 100, 40, .nearest⟩,
   ⟨Fld.motion_vbus_input, 12, 0, 3, 0, (.above 0)⟩,
   ⟨Fld.motion_vbus_min, 12, 10000, 80000, 18000, .nearest⟩,
   ⟨Fld.motion_vbus_max, 12, 15000, 100000, 60000, .nearest⟩,
   ⟨Fld.motion_encoder_input, 12, 0, 15, 255, .orFF⟩,
   ⟨Fld.motion_enc_ratio, 12, (-2147483648), 2147483647, 65536, .nearest⟩,
   ⟨Fld.motion_stall_window, 12, 1, 65535, 128, .nearest⟩,
   ⟨Fld.motion_stall_time, 12, 10, 100000, 1000, .nearest⟩,
   ⟨Fld.motion_home_input, 12, 0, 23, 255, .orFF⟩,
   ⟨Fld.motion_home_dir, 12, 0, 1, 0, (.above 1)⟩,
   ⟨Fld.motion_home_speed, 12, 1, 4000000, 16000, .nearest⟩,
   ⟨Fld.motion_home_creep, 12, 1, 4000000, 1000, .nearest⟩,
   ⟨Fld.motion_home_backoff, 12, 1, 1000000, 2000, .nearest⟩,
   ⟨Fld.motion_home_position, 12, (-140737488355328), 140737488355327, 0, .nearest⟩,
   ⟨Fld.motion_home_travel_max, 12, 1, 140737488355328, 10000000, .nearest⟩,
   ⟨Fld.motion_limit_neg, 12, 0, 23, 255, .orFF⟩,
   ⟨Fld.motion_limit_pos, 12, 0, 23, 255, .orFF⟩,
   ⟨Fld.motion_halt_action, 12, 0, 1, 1, (.above 1)⟩,
   ⟨Fld.motion_gear_lag_max, 12, 1, 1000000, 1024, .nearest⟩]
/-- The numeric fields of section 0x0E. -/
def fieldTable0E : List FieldDef :=
  [⟨Fld.ring_enable, 1, 0, 1, 1, (.above 1)⟩,
   ⟨Fld.ring_expected, 1, 1, 255, 1, .nearest⟩,
   ⟨Fld.ring_group, 1, 0, 1, 0, (.above 1)⟩,
   ⟨Fld.ring_ring_loss_tolerance, 1, 100, 10000, 500, .nearest⟩,
   ⟨Fld.ring_leave_wait, 1, 10, 10000, 1000, .nearest⟩,
   ⟨Fld.ring_origin_input, 1, 0, 15, 0, .nearest⟩]
/-- The numeric fields of section 0x0F. -/
def fieldTable0F : List FieldDef :=
  [⟨Fld.redundancy_pair_enable, 1, 0, 1, 0, (.above 1)⟩,
   ⟨Fld.redundancy_pair_wait, 1, 100, 10000, 2000, .nearest⟩,
   ⟨Fld.redundancy_reclaim_wait, 1, 200, 5000, 500, .nearest⟩]
/-- The numeric fields of section 0x10. -/
def fieldTable10 : List FieldDef :=
  [⟨Fld.thermal_throttle_lower, 1, 0, 20, 0, .nearest⟩,
   ⟨Fld.thermal_warn_lower, 1, 0, 25, 0, .nearest⟩,
   ⟨Fld.thermal_hysteresis, 1, 1, 10, 3, .nearest⟩]
/-- The numeric fields of section 0x11. -/
def fieldTable11 : List FieldDef :=
  [⟨Fld.compat_go_delay, 1, 128, 65535, 2048, .nearest⟩,
   ⟨Fld.compat_go_filter, 1, 0, 10000, 5, .nearest⟩,
   ⟨Fld.compat_encoder_divider, 16, 1, 65535, 8, .nearest⟩]
/-- The numeric fields of section 0x12. -/
def fieldTable12 : List FieldDef :=
  [⟨Fld.security_dpt_auth, 1, 0, 2, 0, (.above 2)⟩,
   ⟨Fld.security_dpt_key_id, 1, 0, 255, 0, .nearest⟩,
   ⟨Fld.security_require_confirm, 1, 0, 1, 0, (.above 1)⟩,
   ⟨Fld.security_relay_bundles, 1, 0, 1, 1, (.above 1)⟩,
   ⟨Fld.security_rollback_floor, 1, 0, 4294967295, 0, .nearest⟩]

/-- The numeric fields of the configuration, in ascending ID. -/
def fieldTable : List FieldDef :=
  fieldTable01 ++ fieldTable02 ++ fieldTable03 ++ fieldTable04 ++ fieldTable05 ++ fieldTable06 ++ fieldTable07 ++ fieldTable08 ++ fieldTable09 ++ fieldTable0A ++ fieldTable0B ++ fieldTable0C ++ fieldTable0D ++ fieldTable0E ++ fieldTable0F ++ fieldTable10 ++ fieldTable11 ++ fieldTable12

/-- The default of element `i` of a field; calibration.tone_target has 0, 200, 400, ..., 1,600 over its nine points, and
camera.raw_tap_window takes the whole frame. -/
def fieldDefaultAt (f : FieldDef) (i : Nat) : Int :=
  if f.id = Fld.calibration_tone_target then (200 * (i % 9) : Nat)
  else if f.id = Fld.camera_raw_tap_window then (if i % 4 < 2 then 0 else 65535)
  else f.dflt

/-- The elements of an absent field. -/
def fieldDefaults (f : FieldDef) : List Int := (List.range f.n).map (fieldDefaultAt f)

/-- The defaults of geometry.bar_name: "BAR0" to "BAR7". -/
def defaultBarName (b : Nat) : List Byte := [0x42, 0x41, 0x52, BitVec.ofNat 8 (0x30 + b)] ++ List.replicate 12 0

/-- The 1 × 1 CLEAR mosaic. -/
def clearMosaic : Mosaic := ⟨1, 1, 0, 0, 3 :: List.replicate 63 0⟩

/-- Every field at the default of its table. -/
def defaultCfg : Cfg where
  num := fieldTable.map fun f => (f.id, fieldDefaults f)
  pressName := List.replicate 32 0
  barNames := (List.range 8).map defaultBarName
  heads := List.replicate 16 []
  knownDead := List.replicate 16 []
  tiles := []
  mosaics := List.replicate 4 clearMosaic
  dptKey := List.replicate 32 0
  configKey := []

/-- The elements of the numeric field `id`; none for an ID that is not one. -/
def cfgLookup : List (Nat × List Int) → Nat → List Int
  | [], _ => []
  | (j, v) :: r, id => if j = id then v else cfgLookup r id

/-- Element `i` of the numeric field `id`. -/
def cfgInt (c : Cfg) (id i : Nat) : Int := (cfgLookup c.num id).getD i 0

/-- Element `i` of the unsigned field `id`. -/
def cfgNat (c : Cfg) (id i : Nat) : Nat := (cfgInt c id i).toNat

/-- The configuration with element `i` of field `id` set. -/
def cfgSet (c : Cfg) (id i : Nat) (v : Int) : Cfg :=
  { c with num := c.num.map fun p => if p.1 = id then (p.1, p.2.set i v) else p }

/-- The configuration with the elements of field `id` set. -/
def cfgSetAll (c : Cfg) (id : Nat) (v : List Int) : Cfg :=
  { c with num := c.num.map fun p => if p.1 = id then (p.1, v) else p }

end Sys2Proof.Machine
end

