-- ==== Sys2Proof/Machine/State.lean ====
section
/-! DEFINITION. The state of the block as plain data: every register, counter, mode, queue, buffer, store and pin that
the spec gives the module. A field's docstring says its width, the rule and the file of spec/ that name it, and its
value in `State.reset` (`-`: the spec gives a dash or none; the value is then the model's, assumption 2). -/
namespace Sys2Proof.Machine
open Sys2Proof

/-! ### Module and power -/

/-- The states of the module (*Table: Module states*, R19). -/
inductive ModState where
  | off | boot | config | train | idle | armed | print | drain | halted | maintenance | shutdown
  deriving DecidableEq, Repr, Inhabited

/-- The pair states (*Table: Pair states*, R501). -/
inductive PairState where
  | solo | active | standby | catchup | severed | unpairedVersion
  deriving DecidableEq, Repr, Inhabited

/-- The ring states (*Table: Ring states*). -/
inductive RingState where
  | bypassed | joining | king | member | passThrough
  deriving DecidableEq, Repr, Inhabited

/-- Object 0x0000 module_state and what R19 to R24 keep beside it. -/
structure Mod where
  /-- 4 bits; R19 (01); reset OFF: nothing runs. -/
  state : ModState := .off
  /-- 4 bits; object 0x0000 (25); reset 1. -/
  previous : Nat := 1
  /-- 8 bits; object 0x0000 (25); reset 1. -/
  cause : Nat := 1
  /-- 16 bits, wraps; object 0x0000 (25); reset 0. -/
  transitions : Nat := 0
  /-- module time, 2^-16 ns; object 0x0000 since (25); reset -. -/
  since : Int := 0
  /-- bit; R610 (22); reset -. -/
  compat : Bool := false
  /-- bit; R56 (03), object 0x0000 default_address; reset 0. -/
  defaultAddress : Bool := false
  /-- bit; R592 (21): the boot ROM serves this MAINTENANCE; reset 0. -/
  romServed : Bool := false
  /-- bit; R24 (01): the cause of HALTED was detected by the module; reset 0. -/
  haltModuleDetected : Bool := false
  /-- bit; level of HALT_IN_N, 1 asserted; R22 (01), object 0x0503 halt_in; reset -. -/
  haltIn : Bool := false
  /-- bit; accepted level of PRINT_GO; R614 (22), object 0x0503 print_go; reset -. -/
  printGo : Bool := false
  /-- 8 bits; mode of the last RESTART_REQ, none after a start by power good; R243 (08), R561 (19); reset none. -/
  restartMode : Option Nat := none
  /-- bit; R501 (17): the module has entered IDLE since this start; reset 0. -/
  idleSeen : Bool := false
  /-- bit; R279 (09): the first entry into IDLE after power good has been; reset 0. -/
  idleSincePower : Bool := false
  /-- model clock at the entry into BOOT or at power good; object 0x0101 start_ms (19); reset -. -/
  startedAt : Nat := 0
  /-- bit; R13 (00): CONFIG has been entered since power good; reset 0. -/
  configSeen : Bool := false
  /-- bit; R594 (21): the supervisor has stopped servicing the watchdog; reset 0. -/
  watchdogStopped : Bool := false
  deriving DecidableEq, Repr, Inhabited

/-- Object 0x0101 power_status and the hot-swap controller's record (R552, R555, R560). -/
structure Power where
  /-- 4 bits; object 0x0101 (19); reset -: 0, first application of input. -/
  lastOffCause : Nat := 0
  /-- 4 bits: SLOT_ID0, SLOT_ID1, SLOT_SIDE, SLOT_PAR from bit 0; R565 (19); reset -. -/
  straps : Nat := 0
  /-- bit; R565 (19); reset -. -/
  strapValid : Bool := false
  /-- 2 bits; R470 (16), R565 (19); reset -. -/
  position : Nat := 0
  /-- bit, 0 A and 1 B; R565 (19); reset -. -/
  side : Nat := 0
  /-- 10 bits; object 0x0101 domains_on (19), R553; reset -: all off. -/
  domainsOn : List Nat := []
  /-- 10 bits; object 0x0101 domains_held (19), R555; reset -. -/
  domainsHeld : List Nat := []
  /-- 4 bits; object 0x0101 fault_domain (19); reset -. -/
  faultDomain : Nat := 0
  /-- consecutive starts ended by a fault of each domain; R555 (19); reset -. -/
  faultCounts : List Nat := List.replicate 10 0
  /-- 16 bits, mV; object 0x0101 (19); reset -. -/
  inputMv : Nat := 0
  /-- 16 bits, wraps; object 0x0101 starts (19); reset -. -/
  starts : Nat := 0
  /-- 16 bits, ms; object 0x0101 start_ms (19); reset -. -/
  startMs : Nat := 0
  /-- 16 bits, wraps; object 0x0101 (19); reset -. -/
  watchdogResets : Nat := 0
  /-- bit; R560 (19); reset -: clear. -/
  shutdownLatch : Bool := false
  /-- bit: INPUT_LOW raised and the input not yet back above 41.0 V; R548 (19); reset 0. -/
  inputLowRaised : Bool := false
  /-- model clock at the loss of power good by the watchdog, which lasts 10 ms; R559 (19); reset none. -/
  watchdogUntil : Option Nat := none
  /-- events to raise on entering IDLE or MAINTENANCE (code, detail): R552, R555, R566, R583, R593, R594; reset none. -/
  atStart : List (Nat × List Byte) := []
  deriving DecidableEq, Repr, Inhabited

/-- What the die's one-time-programmable memory holds (R33, R55, R243, R588, object 0x0001). -/
structure Otp where
  /-- 64 bits; object 0x0001 (25); reset -. -/
  dieId : Nat := 0
  /-- 32 bits; object 0x0001 (25); reset -. -/
  serial : Nat := 0
  /-- 3 bits; object 0x0001 keys_revoked (25), R588 (21); reset -. -/
  keysRevoked : Nat := 0
  /-- 48 bits each; object 0x0001 (25), R55 (03); reset -. -/
  mac : List Nat := [0, 0]
  /-- Dravnus public keys of key_id 1 to 3, 97 bytes each; R588 (21); reset -. -/
  keys : List (List Byte) := [[], [], []]
  /-- slow-corner window count of each of the 24 monitors; R33 (02); reset -. -/
  slowCount : List Nat := List.replicate 24 4096
  deriving DecidableEq, Repr, Inhabited

/-! ### Thermal manager, monitors, governor -/

/-- One entry of object 0x0103 thermal_sensor and what R574 keeps for it. -/
structure Sensor where
  /-- 16 bits, signed, 1/16 °C; object 0x0103 (20); reset -. -/
  temperature : Int := 0
  /-- 3 bits; object 0x0103 state (20); reset -: 6, NOT_TAKING_PART. -/
  state : Nat := 6
  /-- bit; object 0x0103 (20); reset 0. -/
  warning : Bool := false
  /-- bit; object 0x0103 (20); reset 0. -/
  throttle : Bool := false
  /-- 16 bits, signed, 1/16 °C; object 0x0103 peak (20); reset -. -/
  peak : Int := 0
  /-- 16 bits, wraps; object 0x0103 (20); reset 0. -/
  brokenCount : Nat := 0
  /-- raw code of the last sample; R574 STUCK (20); reset -. -/
  lastCode : Nat := 0
  /-- consecutive samples with that code; R574 (20); reset 0. -/
  sameCode : Nat := 0
  deriving DecidableEq, Repr, Inhabited

/-- The shutdown record (R583). -/
structure ShutdownRecord where
  reading : Nat
  value   : Int
  cause   : Nat
  time    : Int
  seq     : Nat
  /-- CRC-32C over the rest -/
  crc     : Nat
  deriving DecidableEq, Repr, Inhabited

/-- Object 0x0102 thermal_status and the thermal manager (R569 to R583). -/
structure Thermal where
  /-- 28 entries, object 0x0103 (20). -/
  sensors : List Sensor := List.replicate 28 {}
  /-- bit; R573 (20); reset 0. -/
  blitz : Bool := false
  /-- bit; R577 (20); reset 0. -/
  warning : Bool := false
  /-- bit; R578 (20); reset 0. -/
  throttle : Bool := false
  /-- 16 bits, wraps; object 0x0102 (20); reset 0. -/
  blitzEntries : Nat := 0
  /-- 16 bits, wraps; object 0x0102 (20); reset 0. -/
  throttleEntries : Nat := 0
  /-- time under throttle, in 1/256 tick; object 0x0102 throttle_ms (20); reset 0. -/
  throttleTime : Nat := 0
  /-- model clock of the last sample under throttle; object 0x0102 throttle_ms (20); reset none. -/
  throttleSince : Option Nat := none
  /-- model clock since which every reading has stayed below its blitz-exit level; R573 (20); reset none. -/
  coolSince : Option Nat := none
  /-- the shutdown record held and reported; R583 (20); reset none. -/
  record : Option ShutdownRecord := none
  /-- the shutdown record on its way to flash; R583 (20), R599 (21); reset none. -/
  recordPending : Option ShutdownRecord := none
  deriving DecidableEq, Repr, Inhabited

/-- One speed monitor (object 0x0110, R33 to R39). -/
structure Monitor where
  /-- 16 bits; object 0x0110 index (02); reset -: 4,096. -/
  index : Nat := 4096
  /-- model clock of the last completed window, from which object 0x0110 counts age (02); reset none. -/
  doneAt : Option Nat := none
  /-- bit; R36 (02); reset -: valid. -/
  valid : Bool := true
  /-- consecutive windows below 3,686 while valid; R38 (02); reset 0. -/
  belowFloor : Nat := 0
  deriving DecidableEq, Repr, Inhabited

/-- The governor (object 0x0111, R42 to R51). -/
structure Gov where
  /-- 4 bits, 0-12; R42 (02); reset 0. -/
  step : Nat := 0
  /-- bit: started on entering IDLE; R42 (02); reset 0. -/
  running : Bool := false
  /-- bit; R45 (02), object 0x0111; reset 0. -/
  atLimit : Bool := false
  /-- 4 bits, 0-8; R42 (02); reset 8. -/
  renderDuty : Nat := 8
  /-- 16 bits, wraps; object 0x0111 (02); reset 0. -/
  stepsTaken : Nat := 0
  /-- µs; `hold` of R44 (02); reset 0. -/
  hold : Nat := 0
  /-- bit: GOVERNOR_TOKEN_OVERRIDDEN raised in this throttle episode; R49 (02); reset 0. -/
  overridden : Bool := false
  /-- the render indices of the last 64 windows, newest first; R51 (02); reset -. -/
  window64 : List Nat := []
  /-- model clock of the end of the newest of them; R51 (02); reset 0. -/
  windowAt : Nat := 0
  deriving DecidableEq, Repr, Inhabited

/-! ### Network, sessions, results, events -/

/-- One entry of object 0x0201 dpt_port. -/
structure Port where
  /-- 4 bits; object 0x0201 mode_active (03); reset 0. -/
  modeActive : Nat := 0
  /-- bit; object 0x0201 (03); reset 0. -/
  linkUp : Bool := false
  /-- 16 bits, wraps; object 0x0201 (03); reset 0. -/
  linkDowns : Nat := 0
  /-- 32 bits, wraps; object 0x0201 (03); reset 0. -/
  framesRx : Nat := 0
  /-- 16 bits, wraps; R54, R61 (03); reset 0. -/
  discarded : Nat := 0
  /-- 16 bits, wraps; object 0x0201 (03); reset 0. -/
  fcsErrors : Nat := 0
  /-- 16 bits, wraps; object 0x0201 (03); reset 0. -/
  echoAnswered : Nat := 0
  /-- echoes answered in the present second and its start; R53 (03); reset 0. -/
  echoInSecond : Nat := 0
  echoSecond : Nat := 0
  /-- the speed tried without block lock in mode 4, 1 25G or 3 10G, and since when; R53 (03); reset 1 at 0. -/
  trying : Nat := 1
  /-- model clock since when it is tried; R53 (03); reset 0. -/
  tryingSince : Nat := 0
  deriving DecidableEq, Repr, Inhabited

/-- A segment of the module's own that is not acknowledged yet (R68). -/
structure TxSeg where
  seq     : Nat
  type    : Nat
  flags   : Nat
  msg     : Nat
  offset  : Nat
  payload : List Byte
  sentAt  : Nat
  tries   : Nat
  /-- it answers a message that came to the pair group address, or belongs to a session opened there: only ACTIVE or SOLO
  sends it; R97 -/
  group   : Bool
  deriving DecidableEq, Repr, Inhabited

/-- A message of the host, being reassembled or complete (R58, R60, R76). -/
structure RxMsg where
  msg      : Nat
  type     : Nat
  /-- (segment_offset, payload) in the order of arrival -/
  parts    : List (Nat × List Byte)
  /-- end of the message, once LAST has arrived -/
  last     : Option Nat
  /-- REJECT reason of R60 that applies in this message's place; 0 none -/
  bad      : Nat
  /-- a segment of it came to the pair group address (R97, R98) -/
  group    : Bool := false
  deriving DecidableEq, Repr, Inhabited

/-- A complete message of the host that waits for its turn (R76, R78): message_id, type, payload, and whether it came to the
pair group address. -/
structure Waiting where
  msg     : Nat
  type    : Nat
  payload : List Byte
  group   : Bool
  deriving DecidableEq, Repr, Inhabited

/-- One DPT session (object 0x0202, R62 to R75). -/
structure Session where
  /-- 16 bits; 0 when the entry is free; object 0x0202 (03); reset 0. -/
  id : Nat := 0
  /-- bit; object 0x0202 control (03); reset 0. -/
  control : Bool := false
  /-- bit; object 0x0202 auth (03); reset 0. -/
  auth : Bool := false
  /-- bit; object 0x0202 group (03); reset 0. -/
  group : Bool := false
  /-- 16 bits: the credit last advertised, object 0x0202 credit (03), and the ack sent with it; R63; reset 0. -/
  credit : Nat := 0
  /-- 32 bits: the ack sent with the credit last advertised; R66 (03); reset 0. -/
  advAck : Nat := 0
  /-- 16 bits, wraps; object 0x0202 (03); reset 0. -/
  retransmits : Nat := 0
  /-- 16 bits, wraps; R63 (03); reset 0. -/
  overCredit : Nat := 0
  /-- 16 bits, wraps; R95 (03); reset 0. -/
  authFailures : Nat := 0
  /-- 32 bits, wraps; object 0x0202 (03); reset 0. -/
  messagesApplied : Nat := 0
  /-- 32 bits: next sequence number of the module's direction; R62 (03). -/
  txSeq : Nat := 0
  /-- 32 bits: next message_id of the module's direction; R57 (03). -/
  txMsg : Nat := 1
  /-- 32 bits: highest sequence number below which every segment of the host has arrived; R57 ack (03). -/
  rxAck : Nat := 0
  /-- sequence numbers received above rxAck; R57 sack (03). -/
  rxAhead : List Nat := []
  /-- 32 bits: next message_id to be applied; R76 (03). -/
  nextApply : Nat := 2
  /-- message_ids applied or rejected ahead of their turn; R77, R82 (03). -/
  appliedAhead : List Nat := []
  /-- messages in reassembly or waiting; R60, R76 (03). -/
  rx : List RxMsg := []
  /-- complete messages that wait for their turn, in the order of arrival; R76, R78 (03). -/
  waiting : List Waiting := []
  /-- of the segments of the messages in `rx`, those that have left the reassembly and ingest buffers for the memory; R66
  (03); reset 0. -/
  drained : Nat := 0
  /-- initial_seq and host_nonce of the SESSION_OPEN that opened it; R65 (03); reset none. -/
  opening : List Byte := []
  /-- segments of the module not yet acknowledged; R68 (03). -/
  tx : List TxSeg := []
  /-- segments received since the last acknowledgement; R64 (03). -/
  unackedRx : Nat := 0
  /-- model clock of the first unacknowledged segment; R64 (03). -/
  firstUnacked : Option Nat := none
  /-- model clock of the latest arrival; R72 (03). -/
  lastRx : Nat := 0
  /-- model clock of the latest sending; R72 (03). -/
  lastTx : Nat := 0
  /-- port and address of the most recent accepted segment; R73 (03). -/
  port : Nat := 0
  addr : Nat := 0
  /-- bit: what the module answers now came to the pair group address; R97 (03). -/
  toGroup : Bool := false
  /-- 32 bytes: the session key; R93 (03). -/
  key : List Byte := []
  /-- the host's latest advertised credit; R57 (03). -/
  hostCredit : Nat := 0
  deriving DecidableEq, Repr, Inhabited

/-- A held or pending result (R86 to R91). -/
structure Result where
  ticket    : Nat
  kind      : Nat
  /-- the body, once the work is done; the result is ready when body and time both are there -/
  body      : Option (List Byte)
  /-- the time at which it became ready (of a standby: from the RESULT token, R508) -/
  time      : Option Int
  /-- 16 bits: how often it has been read; R87 -/
  readCount : Nat
  /-- it has been read while ready, so that a further read sets REPEAT; R87 -/
  repeated  : Bool
  /-- RESULT_RELEASE came while pending; R89 -/
  dropWhenReady : Bool
  /-- results that became ready after this one did; R88 -/
  newer     : Nat
  deriving DecidableEq, Repr, Inhabited

/-- The host network block: ports, sessions, results (03). -/
structure Net where
  /-- 2 entries; object 0x0201 (03). -/
  ports : List Port := [{}, {}]
  /-- 4 entries; R69 (03). -/
  sessions : List Session := [{}, {}, {}, {}]
  /-- host addresses that have opened a session, with their port; R73 (03); reset none. -/
  hosts : List (Nat × Nat) := []
  /-- (port, address) of the hosts whose link-layer address has been asked for; R55 (03); reset none. -/
  neighbours : List (Nat × Nat) := []
  /-- 16 bits, wraps: SESSION_OPEN segments with a wrong MAC, which belong to no session; R95 (03); reset 0. -/
  openFailures : Nat := 0
  /-- results held or pending; R88 (03); reset none. -/
  results : List Result := []
  /-- the last 4,096 tickets issued or accepted, newest first; R90 (03); reset none. -/
  tickets : List Nat := []
  /-- 32 bits: next ticket of an unsolicited result (03, Results); reset 0x80000000. -/
  nextTicket : Nat := 0x80000000
  deriving DecidableEq, Repr, Inhabited

/-- One entry of the event log (object 0x0003). -/
structure Event where
  seq    : Nat
  code   : Nat
  time   : Int
  detail : List Byte
  deriving DecidableEq, Repr, Inhabited

/-- The event log (R664 to R672). -/
structure Log where
  /-- 256 entries at most, oldest first; object 0x0003 (25); reset none. -/
  events : List Event := []
  /-- 32 bits, wraps; object 0x0002 next_seq (25); reset 0. -/
  nextSeq : Nat := 0
  /-- 32 bits, wraps; R669 (25); reset 0. -/
  suppressed : Nat := 0
  /-- 32 bits, wraps; object 0x0002 unsent (25); reset 0. -/
  unsent : Nat := 0
  /-- (event code, index, model clock of its last raising, occurrences since) of events with a limit; R669 (25). -/
  limits : List (Nat × Nat × Nat × Nat) := []
  deriving DecidableEq, Repr, Inhabited

/-! ### Jobs: surfaces, LUTs, pages, runs (04, 05) -/

/-- A surface (R103 to R108). -/
structure Surface where
  id       : Nat
  width    : Nat
  height   : Nat
  channels : Nat
  depth    : Nat
  dpi      : Nat
  tileSize : Nat
  raron    : Bool
  /-- tile number and its stored bytes, in ascending tile number -/
  tiles    : List (Nat × List Byte)
  sealed   : Bool
  deriving DecidableEq, Repr, Inhabited

/-- A LUT (R149). -/
structure Lut where
  id     : Nat
  output : Bool
  curves : List (List Nat)
  deriving DecidableEq, Repr, Inhabited

/-- A layer of a page (*Table: Layer entry*, R141). -/
structure Layer where
  surface   : Nat
  destX     : Int
  destY     : Int
  destW     : Nat
  destH     : Nat
  srcX      : Nat
  srcY      : Nat
  chanMap   : Nat
  op        : Nat
  flags     : Nat
  alpha     : Nat
  opacity   : Nat
  lut       : Nat
  dropStep  : Nat
  deriving DecidableEq, Repr, Inhabited

/-- A guarded region of a page (*Table: Guarded region entry*, R109). -/
structure Region where
  bar       : Nat
  x0        : Nat
  width     : Nat
  y0        : Nat
  height    : Nat
  signature : Nat
  deriving DecidableEq, Repr, Inhabited

/-- Page states (R117). -/
inductive PageState where
  | defined | rendering | rendered | quarantined
  deriving DecidableEq, Repr, Inhabited

/-- A stored block of the page store: the 16-byte header and the body (R193, R205). -/
abbrev Block := List Byte

/-- One lane part of a page: its global lane, its length in bytes, its blocks in block_seq order and the address of each
in the page's directory (R187, R189, R205). -/
structure LanePart where
  lane   : Nat
  lineLen : Nat
  length : Nat
  blocks : List Block
  directory : List Nat
  deriving DecidableEq, Repr, Inhabited

/-- A page (R109 to R112, R117 to R121). -/
structure Page where
  id         : Nat
  ticket     : Nat
  length     : Nat
  lpi        : Nat
  depth      : Nat
  barMask    : Nat
  refFactor  : Nat
  fileStart  : Nat
  fileCount  : Nat
  layers     : List Layer
  regions    : List Region
  state      : PageState
  /-- the PAGE_DEFINE result is still pending; R111 -/
  resultDue  : Bool
  /-- bytes reserved in the page store, or stored once RENDERED; R121 -/
  reserved   : Nat
  /-- the streams of the page; R187 -/
  parts      : List LanePart
  /-- files of the margin that carries a registration block: first and count; R400 -/
  margin     : Option (Nat × Nat)
  /-- computed signature and pass flag of each region, once computed; R157 -/
  verdicts   : List (Option (Nat × Bool))
  /-- whole-page reference bytes, row by row; R162, R163 -/
  reference  : List (List Byte)
  /-- reference bytes of the mark area in its margin, row by row; R161, R163, R398 -/
  markRef    : List (List Byte)
  /-- bursts of the reference that could not be read: row and first pixel; R250 -/
  refBad     : List (Nat × Nat)
  /-- what the reference covers: 0 none, 1 marks only, 2 the whole page; R161, R164 -/
  refKind    : Nat
  /-- model clock of the last firing of its last line, none while it has never fired; R132 -/
  firedAt    : Option Nat
  /-- model clock of becoming RENDERED; R132 -/
  renderedAt : Nat
  /-- cost units, fixed when its surfaces are first all defined; R167, R108 -/
  cost       : Option Nat
  /-- the sum of the versions of its bars' render-side elements at rendering; R117, R393 -/
  renderVersion : Nat
  /-- events raised once per PAGE_DEFINE: LAYER_MISMATCH, UNCOVERED_FILES, TILE_CONTEXTS_EXCEEDED, EP_UNRESOLVED -/
  raised     : List Nat
  /-- lowest (bar, file) that en passant could not resolve in this rendering; R184 -/
  epUnresolved : Option (Nat × Nat)
  /-- store signature received from the partner; R509 -/
  partnerSig : Option Nat
  deriving DecidableEq, Repr, Inhabited

/-- A run definition (*Table: RUN_DEFINE body*, R114). -/
structure RunDef where
  id          : Nat
  form        : Nat
  policy      : Nat
  flags       : Nat
  barMask     : Nat
  lpi         : Nat
  depth       : Nat
  startMode   : Nat
  inspection  : Nat
  gap         : Nat
  releaseLead : Nat
  armLead     : Nat
  plannedSpeed : Nat
  renderAhead : Nat
  startValue  : Nat
  repeatCount : Nat
  slots       : List Nat
  deriving DecidableEq, Repr, Inhabited

/-- Slot states (R117). -/
inductive SlotState where
  | released | firing | fired | spoiled
  deriving DecidableEq, Repr, Inhabited

/-- A mark block of a strip or margin (*Table: Mark blocks*, R397): kind bit, first line within the strip, lines,
and for the nozzle check the bar. -/
structure MarkBlock where
  kind  : Nat
  bar   : Nat
  line  : Nat
  lines : Nat
  deriving DecidableEq, Repr, Inhabited

/-- An element of a correction kind (R393, R406): kind bit, bar or link or camera, number within it. -/
structure Element where
  kind : Nat
  unit : Nat
  num  : Nat
  deriving DecidableEq, Repr, Inhabited

/-- The mark strip in the gap after a slot (R395 to R399). -/
structure Strip where
  slot      : Nat
  /-- the page whose resolution, depth and reference factor it takes -/
  page      : Nat
  /-- its mark blocks, in order; R397, R399 -/
  blocks    : List MarkBlock
  /-- its length in lines; R395, R399 -/
  lines     : Nat
  /-- the due kinds that it holds, as bits of *Table: Correction kinds*; R396, R399 -/
  placed    : Nat
  /-- its lane parts; R398 -/
  parts     : List LanePart
  /-- its reference bytes, row by row; R161, R398 -/
  reference : List (List Byte)
  /-- versions of the render-side elements latched when it entered RENDERING; R393 -/
  versions  : List (Element × Nat)
  /-- it has been rendered; R399 -/
  done      : Bool
  deriving DecidableEq, Repr, Inhabited

/-- A slot that has been released, or passed unreleased (R117 to R119). -/
structure Slot where
  num      : Nat
  page     : Nat
  state    : SlotState
  /-- mask of the spoil reasons recorded; R119 -/
  reasons  : Nat
  /-- line number of the page start at the leading bar; R291 -/
  start    : Int
  /-- length of its page in lines, with the margin; R291 -/
  length   : Nat
  /-- bars that have sent their last line or stopped firing it; R119 -/
  barsDone : Nat
  /-- bars that fired its first line -/
  barsFired : Nat
  /-- bars whose link was down or joined late, by link: left out of the slot; R321, R346 -/
  linksOut : Nat
  /-- (bar, cause) of LINE_DAMAGED events raised; R320 -/
  damaged  : List (Nat × Nat)
  /-- it has ended, fired or spoiled; R119, R139 -/
  ended    : Bool
  /-- the strip that follows the page and belongs to the slot; R399 -/
  strip    : Option Strip
  /-- versions of the fire-side elements latched at its first line on each bar; R393 -/
  versions : List (Element × Nat)
  /-- blocks of its lane parts that a decompressor has read otherwise than they were stored: lane, block, what it read; R217 -/
  upsets   : List (Nat × Nat × BlockRead)
  /-- the same for the lane parts of its strip -/
  stripUpsets : List (Nat × Nat × BlockRead)
  /-- the streams that the slot fires in place of its page's present ones: those kept at a re-rendering; R115, R118, R413 -/
  streams  : Option (List LanePart)
  /-- bar, first line on it and K_b, latched when the bar reaches the slot; R291, R297 -/
  latched  : List (Nat × Int × Nat)
  deriving DecidableEq, Repr, Inhabited

/-- The armed run (R124 to R139, object 0x0301). -/
structure Armed where
  run         : RunDef
  /-- pages still to be printed, in order: slot sequence after R129 moved them -/
  queue       : List Nat
  /-- cycles of a repeat run still to come after the present one; none: until RUN_STOP -/
  cyclesLeft  : Option Nat
  /-- number of the next slot to be released; object 0x0301 next_slot -/
  nextSlot    : Nat
  /-- line number of the next slot's page start at the leading bar, once fixed; R116, R115 -/
  nextStart   : Option Int
  /-- the slots decided so far, in order, until they have no more effect; R117 to R119 -/
  slots       : List Slot
  /-- model clock at which it was armed, or its cascade; R116, R494 -/
  armedAt     : Nat
  /-- its releases have ended: no further slot is released; R124 -/
  releasesEnded : Bool
  /-- under HOLD it waits for a page that is not RENDERED; R130 -/
  hold        : Bool
  /-- slots for which RENDER_AT_RISK was raised; R127 -/
  riskRaised  : List Nat
  /-- RUN_DONE has been decided; R139 -/
  runEnded    : Bool
  /-- its definition has been lost: nothing more is released; R250 -/
  lost        : Bool
  /-- a bar of the run has been halted; object 0x0301 bar_halted -/
  barHalted   : Bool
  /-- 32 bits: slots fired; object 0x0301, R139 -/
  fired       : Nat
  /-- 32 bits: slots spoiled; object 0x0301, R139 -/
  spoiled     : Nat
  /-- 32 bits: pages quarantined in the run; object 0x0301, R139 -/
  quarantined : Nat
  /-- leading offset in nm in force (own or the cascade's), R290, R494 -/
  leadOffset  : Nat
  /-- the leading bar; R290 -/
  leadBar     : Nat
  /-- the compatibility start: n_go, once an edge has been taken; R615 -/
  nGo         : Option Int
  /-- strips in RENDERING or RENDERED whose slot is not released yet; R399 -/
  strips      : List Strip
  /-- the first slot whose strip has not been considered yet; R396, R399 -/
  nextStrip   : Nat
  /-- run bars whose nozzle check was left out with its strip: they come first; R397, R399 -/
  ncOwed      : List Nat
  /-- pages removed from the run because they were QUARANTINED; R130 -/
  removed     : List Nat
  /-- the run's digest as it was armed; R493 -/
  digest      : Nat
  deriving DecidableEq, Repr, Inhabited

/-- A RUN_ARM whose result is not ready yet (R126). -/
structure PendingArm where
  ticket : Nat
  run    : Nat
  /-- the body that its result will have: verdict, reason and what the prediction gave; R125 -/
  body   : List Byte
  /-- first slot at risk and the µs by which it is predicted late; R125 -/
  risk   : Option (Nat × Nat)
  deriving DecidableEq, Repr, Inhabited

/-- The job objects of the module (04). -/
structure Jobs where
  /-- up to 4,096; R102 (04); reset none (R242). -/
  surfaces : List Surface := []
  /-- up to 1,024; R102 (04); reset none. -/
  luts : List Lut := []
  /-- up to 16,384; R102 (04); reset none. -/
  pages : List Page := []
  /-- up to 16; R102 (04); reset none. -/
  runs : List RunDef := []
  /-- seal checks waiting, in the order applied: surface, ticket; R703 (04); reset none. -/
  seals : List (Nat × Nat) := []
  /-- the check at the head of the queue has started; R703; reset false. -/
  sealing : Bool := false
  /-- RUN_ARM under prediction; R126 (04); reset none. -/
  arming : Option PendingArm := none
  /-- the armed run; R102 (04); reset none. -/
  armed : Option Armed := none
  /-- 32 bits: armed or last run; object 0x0301 run_id (04); reset 0xFFFFFFFF. -/
  runId : Nat := 0xFFFFFFFF
  /-- fields of object 0x0301 that outlive the run: form, policy, bar_halted, next_slot, fired, spoiled, quarantined;
  reset 0. -/
  lastForm : Nat := 0
  lastPolicy : Nat := 0
  lastBarHalted : Bool := false
  lastNextSlot : Nat := 0
  lastFired : Nat := 0
  lastSpoiled : Nat := 0
  lastQuarantined : Nat := 0
  /-- 16 bits: run_tag; R355 (11); reset -. -/
  runTag : Nat := 0
  /-- drop depth of the last run armed, 2 before any; object 0x0501 ceiling (10); reset -. -/
  lastDepth : Nat := 2
  deriving DecidableEq, Repr, Inhabited

/-! ### Render engine, codec, memory (05 to 08) -/

/-- A chunk waiting in a compressor's input buffer (R189): page, global lane, chunk number, bytes. -/
structure Chunk where
  page  : Nat
  lane  : Nat
  num   : Nat
  bytes : List Byte
  deriving DecidableEq, Repr, Inhabited

/-- One compressor (R212, R213). -/
structure Compressor where
  input      : Option Chunk := none
  /-- mismatches since power good; R213 -/
  mismatches : Nat := 0
  /-- it takes no further chunk; R213 -/
  retired    : Bool := false
  deriving DecidableEq, Repr, Inhabited

/-- What a page in RENDERING has latched and accumulated (R153, R155, R175, R189). -/
structure Rendering where
  page       : Nat
  /-- next line to compose; object 0x0302 line -/
  line       : Nat
  /-- latched output LUT of each bar, none for the identity; R153 -/
  outLut     : List (Option (List Nat))
  /-- latched tone curve of each bar, none for the identity; R153 -/
  tone       : List (Option (List Nat))
  /-- latched density taps of each bar: (file, tap), zero taps not listed; R175 -/
  taps       : List (List (Nat × Int))
  /-- latched dead slots of each link; R175 -/
  dead       : List (List Nat)
  /-- CRC register of each region; R155 -/
  crcs       : List Nat
  /-- a region has failed its check; R155 -/
  failed     : Bool
  /-- lane bytes not yet cut into a chunk, and chunks cut so far: (global lane, bytes, chunks); R189 -/
  open_      : List (Nat × List Byte × Nat)
  /-- chunks cut and waiting for a compressor with an empty input buffer; R189 -/
  waiting    : List Chunk
  /-- reference sums of the row of reference pixels under way; R163 -/
  refSums    : List Nat
  /-- lines in those sums; R163 -/
  refLines   : Nat
  /-- the same of the mark area in the margin; R161, R163, R398 -/
  markSums   : List Nat
  /-- lines in those sums; R163 -/
  markLines  : Nat
  /-- reads again of blocks on the present line: surface, tile and block, and how often; R146 -/
  retries    : List ((Nat × Nat × Nat) × Nat)
  /-- the strip that is rendered, none for a page; R399 -/
  strip      : Option Strip
  /-- versions of the render-side elements as latched; R393 -/
  versions   : List (Element × Nat)
  deriving DecidableEq, Repr, Inhabited

/-- A decoder context: the layer and the tile of a surface that it decodes, and its sealed state of 10,304 bytes (R208, R210). -/
structure DecContext where
  layer   : Nat
  surface : Nat
  tile    : Nat
  state   : List Byte
  deriving DecidableEq, Repr, Inhabited

/-- The render engine (05, 06, 07). -/
structure Render where
  /-- the page in RENDERING; object 0x0302 (05); reset none. -/
  now : Option Rendering := none
  /-- 32 bits, wraps; object 0x0302 (05); reset 0. -/
  pagesRendered : Nat := 0
  /-- 16 bits, wraps; object 0x0302 (05); reset 0. -/
  regionsPassed : Nat := 0
  /-- 16 bits, wraps; object 0x0302 (05); reset 0. -/
  regionsFailed : Nat := 0
  /-- 16 bits, wraps; R146 (05); reset 0. -/
  decodeRetries : Nat := 0
  /-- 16 bits, wraps; R147 (05); reset 0. -/
  surfacesCorrupt : Nat := 0
  /-- 16 bits, wraps; R164 (05); reset 0. -/
  referencesReduced : Nat := 0
  /-- 32 bits, wraps; R183 (06); reset 0. -/
  epDrops : Nat := 0
  /-- 32 bits, wraps; R183 (06); reset 0. -/
  epLost : Nat := 0
  /-- 16 bits, wraps; R183 (06); reset 0. -/
  epUnresolved : Nat := 0
  /-- 16 bits, wraps; R185 (06); reset 0. -/
  stitchForced : Nat := 0
  /-- 16 bits; object 0x0303 dead_files (06); reset 0. -/
  deadFiles : Nat := 0
  /-- 48 compressors; R189, R213 (07). -/
  compressors : List Compressor := List.replicate 48 {}
  /-- bit; R215 (07); reset 0. -/
  selftestPassed : Bool := false
  /-- 16 bits, wraps; R212 (07); reset 0. -/
  encodeMismatches : Nat := 0
  /-- 32 bits, wraps; object 0x0801 (07); reset 0. -/
  blocksWritten : Nat := 0
  /-- 32 bits, wraps; object 0x0801 (07); reset 0. -/
  blocksRaw : Nat := 0
  /-- 16 bits, wraps; object 0x0801 (07); reset 0. -/
  surfaceBlockFailures : Nat := 0
  /-- 16 bits, wraps; R209 (07); reset 0. -/
  contextResumeFailures : Nat := 0
  /-- up to 1,024 sealed states of 10,304 bytes; R208, R210 (07); reset none. -/
  contexts : List DecContext := []
  /-- 16 bits; object 0x0801 contexts_peak (07); reset 0. -/
  contextsPeak : Nat := 0
  /-- ENCODE_MISMATCH already raised for these pages; R212 (07); reset none. -/
  mismatchPages : List Nat := []
  /-- 48 entries: malformed and crc_failed, 16 bits each; object 0x0802 (07); reset 0. -/
  decompressors : List (Nat × Nat) := List.replicate 48 (0, 0)
  deriving DecidableEq, Repr, Inhabited

/-- The stored training values (R246). -/
structure TrainRecord where
  seq    : Nat
  dieId  : Nat
  devIds : List (List Nat)
  dts    : List Int
  /-- the training values of each channel -/
  values : List Nat
  /-- CRC-32C over the rest -/
  crc    : Nat
  deriving DecidableEq, Repr, Inhabited

/-- A memory subchannel (object 0x0702). -/
structure Subchannel where
  /-- 8 bits, signed; none when broken; object 0x0702 dt (08); reset -. -/
  dt : Option Int := some 0
  /-- model clock of the last successful read; R574 NOT_UPDATING (20); reset -. -/
  dtRead : Nat := 0
  /-- bit: a mode-register read of a device failed; R574 OPEN (20); reset 0. -/
  dtFailed : Bool := false
  /-- bit; R238 (08); reset 0. -/
  doubled : Bool := false
  /-- 16 bits, wraps; object 0x0702 (08); reset 0. -/
  corrected : Nat := 0
  /-- 16 bits, wraps; object 0x0702 (08); reset 0. -/
  uncorrectable : Nat := 0
  /-- corrections of the last hour: date and how many; R248 (08); reset none. -/
  hour : List (Nat × Nat) := []
  deriving DecidableEq, Repr, Inhabited

/-- A QoS port (object 0x0703). -/
structure Qos where
  /-- 32 bits, wraps; object 0x0703 mib (08); reset 0. -/
  mib : Nat := 0
  /-- 16 bits, wraps; R225 (08); reset 0. -/
  flagFalls : Nat := 0
  /-- 16 bits, saturating, 100 ns; object 0x0703 max_age (08); reset 0. -/
  maxAge : Nat := 0
  deriving DecidableEq, Repr, Inhabited

/-- The memory controller (08). -/
structure Mem where
  /-- 4 bits: channels trained; object 0x0701 trained (08), R571; reset 0. -/
  trained : List Bool := List.replicate 4 false
  /-- how this start trains: none undecided, some 0 reuse, some (k+1) full with reason k of TRAINING_FULL; R243. -/
  mode : Option Nat := none
  /-- full trainings failed on each channel; R245 (08); reset 0. -/
  failures : List Nat := List.replicate 4 0
  /-- training values in use, one for each channel; R243, R246 (08); reset -. -/
  values : List Nat := List.replicate 4 0
  /-- LUTs that the memory has lost and that no LUT_DEFINE has replaced; R250 (08); reset none. -/
  lostLuts : List Nat := []
  /-- device identities and DT readings read at this start; R243, R246 (08); reset -. -/
  devIds : List (List Nat) := List.replicate 4 []
  dtsRead : List Int := List.replicate 8 0
  /-- bit; object 0x0701 training_reused (08); reset 0. -/
  reused : Bool := false
  /-- bit: the memory has been written with zero data and valid ECC; R557 (19); reset 0. -/
  initialised : Bool := false
  /-- 16 bits, wraps; object 0x0701 (08); reset 0. -/
  scrubPasses : Nat := 0
  /-- model clock at which the present scrub period began; R249 (08); reset 0. -/
  scrubSince : Nat := 0
  /-- 8 entries; object 0x0702 (08). -/
  sub : List Subchannel := List.replicate 8 {}
  /-- 8 entries; object 0x0703 (08). -/
  qos : List Qos := List.replicate 8 {}
  deriving DecidableEq, Repr, Inhabited

/-! ### Position (09) -/

/-- How a line trigger arose (R280, R269). -/
inductive TrigKind where
  | direct | extrapolated | coast
  deriving DecidableEq, Repr, Inhabited

/-- A trigger on its way to a bar: compare point, date, kind (R279, R304). -/
structure Trig where
  n    : Int
  t    : Nat
  kind : TrigKind
  deriving DecidableEq, Repr, Inhabited

/-- A coast in progress (*Table: Fault policies*, R269). -/
structure Coast where
  cL     : Int
  tL     : Nat
  vNum   : Int
  vDen   : Nat
  issued : Nat
  bars   : Nat
  deriving DecidableEq, Repr, Inhabited

/-- One position input (objects 0x0601, 0x0602). -/
structure Input where
  /-- bit; R266 (09); reset 0. -/
  fault : Bool := false
  /-- bit; R273 (09); reset 0. -/
  reversed : Bool := false
  /-- bit; object 0x0601 index_seen (09); reset 0. -/
  indexSeen : Bool := false
  /-- accepted levels of A and B; R257 (09); reset -. -/
  a : Bool := false
  b : Bool := false
  /-- 8 bits, saturating; R258 (09); reset 0. -/
  uncertainty : Nat := 0
  /-- 48 bits, two's complement; R259 (09); reset 0. -/
  count : Int := 0
  /-- 48 bits, two's complement; R273 (09); reset 0. -/
  hwm : Int := 0
  /-- latched pairs, newest first: as many as R275 needs; R260 (09); reset none. -/
  latched : List (Int × Nat) := []
  /-- hwm and reversed as each of the latched pairs left them, in their order; R287 (09); reset none. -/
  marks : List (Int × Bool) := []
  /-- sign of the last count step; R262 (09); reset 0. -/
  direction : Int := 0
  /-- 16 bits, wraps; R258 (09); reset 0. -/
  illegal : Nat := 0
  /-- 32 bits, signed; R262 (09); reset 0. -/
  indexSlip : Int := 0
  /-- 16 bits, wraps; object 0x0601 (09); reset 0. -/
  indexMismatches : Nat := 0
  /-- consecutive mismatches; R262 (09); reset 0. -/
  mismatches : Nat := 0
  /-- 16 bits, wraps; object 0x0601 (09); reset 0. -/
  wireDisagreements : Nat := 0
  /-- 16 bits, wraps; R264 (09); reset 0. -/
  ssiFrameErrors : Nat := 0
  /-- last accepted SSI value; R265 (09); reset none. -/
  ssiPrev : Option Nat := none
  /-- step of the last SSI frame; R280 (09); reset 0. -/
  ssiStep : Int := 0
  /-- model clocks of recent position errors; R266 (09); reset none. -/
  errors : List Nat := []
  /-- model clock of the last error, disagreement, mismatch or qualifying cause; R267 (09); reset 0. -/
  lastTrouble : Nat := 0
  /-- 64 bits, 32.32; R278 (09), object 0x0602; reset 0. -/
  spacing : Nat := 0
  /-- hwm at the first entry into IDLE, with 32 fraction bits; R279, R492 (09, 16); reset 0. -/
  origin : Int := 0
  /-- line number of the next compare point; R280 (09); reset 0. -/
  nextLine : Int := 0
  /-- line number of the next compare point at the entry into ARMED; R292 (10); reset 0. -/
  nArm : Int := 0
  /-- 16 bits, wraps; object 0x0602 (09); reset 0. -/
  coastTriggers : Nat := 0
  /-- 32 bits, wraps; object 0x0602 (09); reset 0. -/
  triggers : Nat := 0
  /-- date of the scheduled extrapolated trigger; R280 (09); reset none. -/
  scheduled : Option Nat := none
  /-- the coast in progress; R269 (09); reset none. -/
  coast : Option Coast := none
  /-- a coast has ended or a fault halted the bars: no normal triggers until the run ends; R271 (09); reset 0. -/
  stopped : Bool := false
  deriving DecidableEq, Repr, Inhabited

/-- The action of an auxiliary compare channel (R284). -/
inductive AuxAction where
  | frame (cam : Nat) | pulse (out widthNs : Nat) | gearChange (axis : Nat)
  deriving DecidableEq, Repr, Inhabited

/-- An auxiliary compare channel (R284). -/
structure Aux where
  source  : Nat
  /-- first point and spacing, with 32 fraction bits -/
  point   : Int
  /-- spacing, with 32 fraction bits; R284 -/
  spacing : Nat
  /-- number of points; R284 -/
  count   : Nat
  /-- what a point does; R284 -/
  action  : AuxAction
  deriving DecidableEq, Repr, Inhabited

/-- A discrete input (object 0x0603). -/
structure Din where
  /-- bit; R286 (09); reset -. -/
  level : Bool := false
  /-- bit; object 0x0603 (09); reset 0. -/
  lastRising : Bool := false
  /-- 16 bits, wraps; R287 (09); reset 0. -/
  edges : Nat := 0
  /-- module time of the last change; object 0x0603 (09); reset 0. -/
  lastTime : Int := 0
  /-- line-position value, hwm with 32 fraction bits; R287 (09); reset 0. -/
  lastPosition : Int := 0
  deriving DecidableEq, Repr, Inhabited

/-- The position unit (09). -/
structure Pos where
  /-- 16 inputs; objects 0x0601, 0x0602 (09). -/
  inputs : List Input := List.replicate 16 {}
  /-- 32 auxiliary channels; R284 (09); reset none. -/
  aux : List (Option Aux) := List.replicate 32 none
  /-- 24 discrete inputs; object 0x0603 (09). -/
  dins : List Din := List.replicate 24 {}
  deriving DecidableEq, Repr, Inhabited

/-! ### Firing and links (10, 11) -/

/-- The packet of one compare point on a bar's lanes (R301, R335). -/
structure Packet where
  n      : Int
  start  : Nat
  done   : Option Nat
  /-- lines of the slots with a line at this point -/
  slots  : List Nat
  deriving DecidableEq, Repr, Inhabited

/-- A bar of the fire engine (object 0x0501). -/
structure Bar where
  /-- 3 bits; 0 none, otherwise as BAR_HALTED; object 0x0501 halt_cause (10); reset 0. -/
  haltCause : Nat := 0
  /-- bit; R316 (10); reset 0. -/
  paused : Bool := false
  /-- bit; R318 (10); reset 0. -/
  inhibited : Bool := false
  /-- bit: every head has read below the limit since, so that the next slot released ends the inhibit; R319 (10). -/
  inhibitCool : Bool := false
  /-- bit: this module's own head readings call for a pause; R316, R322 (10); reset 0. -/
  ownPause : Bool := false
  /-- bit: this module's own head readings call for an inhibit; R318, R322 (10); reset 0. -/
  ownInhibit : Bool := false
  /-- bit; object 0x0501 overspeed (10); reset 0. -/
  overspeed : Bool := false
  /-- 8 bits; K_b in force; R291 (10); reset 0. -/
  maxDelay : Nat := 0
  /-- 32 bits; object 0x0501 sequence (10); reset 0. -/
  sequence : Nat := 0
  /-- o_b in force, in 1/256 line; R290 (10); reset 0. -/
  offset : Nat := 0
  /-- 24 bits; object 0x0501 castle_seq (10); reset 0. -/
  castleSeq : Nat := 0
  /-- the first FIRE-SYNC after a castling is still to come; R668 (25); reset 0. -/
  castleWait : Bool := false
  /-- 32 bits, wraps; object 0x0501 (10); reset 0. -/
  linesFired : Nat := 0
  /-- 16 bits, wraps; R307 (10); reset 0. -/
  drops : Nat := 0
  /-- 16 bits, wraps; R306 (10); reset 0. -/
  deferred : Nat := 0
  /-- 16 bits, saturating, ns; object 0x0501 max_deferral (10); reset 0. -/
  maxDeferral : Nat := 0
  /-- 16 bits, wraps; R319 (10); reset 0. -/
  inhibitedLines : Nat := 0
  /-- 16 bits, wraps; object 0x0501 (10); reset 0. -/
  damagedLines : Nat := 0
  /-- triggers waiting for the bar, oldest first; R280, R304 (09, 10); reset none. -/
  trigs : List Trig := []
  /-- date of the last FIRE-SYNC inserted or scheduled; R306 (10); reset none. -/
  syncLast : Option Nat := none
  /-- the deferred FIRE-SYNCs scheduled: compare point and date, oldest first; R306 (10); reset none. -/
  pendingSync : List (Int × Nat) := []
  /-- the packet in progress or complete; R301 (10); reset none. -/
  packet : Option Packet := none
  /-- compare points of the bar since the module entered PRINT, up to 2; R300 (10); reset 0. -/
  pointsInPrint : Nat := 0
  /-- latched registration tap, in 1/256 line; R297 (10); reset 0. -/
  regTap : Int := 0
  /-- latched rank taps of its two links, 16 each; R297 (10); reset 0. -/
  rankTaps : List (List Int) := [List.replicate 16 0, List.replicate 16 0]
  /-- the last line number handled on this bar; R292 (10); reset none. -/
  lastPoint : Option Int := none
  deriving DecidableEq, Repr, Inhabited

/-- What a data lane repeats once the symbols given to it have gone out: K28.5, training blocks, or either with HALT once
in a microsecond (R311, R336, R339, R346). -/
inductive LaneFill where
  | idle | training | halt | haltTraining
  deriving DecidableEq, Repr, Inhabited

/-- A global data lane of the fire engine (object 0x0502, R295). -/
structure FireLane where
  /-- 16 bits, wraps; R32 (02); reset 0. -/
  underruns : Nat := 0
  /-- 16 bits, wraps; R307 (10); reset 0. -/
  packetsEnded : Nat := 0
  /-- the line buffer: (n mod 64, lane line), at most 64 entries, lines of level 0 not listed; R295 (10); reset none. -/
  buffer : List (Nat × List Byte) := []
  /-- what the lane's decompressor reads: the slots from their release points on, in order, and of each the lane lines it
  has delivered, those of its strip after those of its page; R296, R218 (10); reset none. -/
  reading : List (Nat × Nat) := []
  /-- role and owner word of the last OWNER frame, its date; R338 (11); reset none. -/
  ownerSent : Option Nat := none
  /-- bit: the running disparity of the lane is positive, at the start of `stream`; R329 (11); reset 0, negative. -/
  rd : Bool := false
  /-- the symbols that the lane sends from `streamAt` (model clock) on, and what it repeats after them; R302, R329, R336
  (11); reset none, 0, K28.5. -/
  stream : List Symbol := []
  streamAt : Nat := 0
  /-- what the lane repeats after those symbols; R329, R336 (11); reset idle. -/
  fill : LaneFill := .idle
  deriving DecidableEq, Repr, Inhabited

/-- The fire engine (10). -/
structure Fire where
  /-- 8 bars; object 0x0501 (10). -/
  bars : List Bar := List.replicate 8 {}
  /-- 48 lanes; object 0x0502 (10). -/
  lanes : List FireLane := List.replicate 48 {}
  /-- bit: OVERSPEED_N asserted; R309 (10); reset 0. -/
  overspeedN : Bool := false
  /-- model clock of the last drop; R309 (10); reset none. -/
  lastDrop : Option Nat := none
  /-- model clock since which every rate has stayed below the clear level; R309 (10); reset none. -/
  slowSince : Option Nat := none
  deriving DecidableEq, Repr, Inhabited

/-- Link states (*Table: Link states*). -/
inductive LinkState where
  | disabled | training | up | idleOnly
  deriving DecidableEq, Repr, Inhabited

/-- A head's reading as last reported (object 0x0413). -/
structure HeadReading where
  /-- 16 bits, signed, 1/16 °C; object 0x0413 (11); reset 0. -/
  temperature : Int := 0
  /-- 4 bits; object 0x0413 (11); reset 0. -/
  sampleCount : Nat := 0
  /-- 4 bits; object 0x0413 state (11); reset 4 (ABSENT). -/
  state : Nat := 4
  /-- model clock of the last new sample; object 0x0413 age (11); reset none (age 255). -/
  sampledAt : Option Nat := none
  /-- consecutive STATUS frames with that sample_count; R576 (20); reset 0. -/
  sameCount : Nat := 0
  /-- HEAD_SENSOR_BROKEN raised in this episode; R576 (20); reset 0. -/
  brokenRaised : Bool := false
  deriving DecidableEq, Repr, Inhabited

/-- A head link (object 0x0412). -/
structure Link where
  /-- 2 bits; object 0x0412 state (11); reset 0 (DISABLED). -/
  state : LinkState := .disabled
  /-- bit; object 0x0412 (11); reset 0. -/
  dualHomed : Bool := false
  /-- bit; object 0x0412 up_inverted (11), R341; reset 0. -/
  upInverted : Bool := false
  /-- 4 bits; object 0x0412 last_down_cause (11); reset 0. -/
  downCause : Nat := 0
  /-- 6 bits; object 0x0412 (11); reset 0. -/
  laneMap : Nat := 0
  /-- 3 bits; object 0x0412 (11); reset 0. -/
  laneInverted : Nat := 0
  /-- 32 bits; object 0x0412 (11); reset 0. -/
  carrierId : Nat := 0
  /-- 32 bits; R701 (11); reset 0xFFFFFFFF. -/
  ownerSeen : Nat := 0xFFFFFFFF
  /-- 16 bits, wraps; object 0x0412 (11); reset 0. -/
  linkDowns : Nat := 0
  /-- 16 bits each, the carrier's counts; object 0x0412 (11); reset 0. -/
  crcErrors : Nat := 0
  shortDiscards : Nat := 0
  syncWithoutLine : Nat := 0
  duplicatesDropped : Nat := 0
  nonOwnerDropped : Nat := 0
  /-- 16 bits, wraps; object 0x0412 status_bad (11); reset 0. -/
  statusBad : Nat := 0
  /-- 16 bits, wraps: code violations and stray K-symbols on UP outside a frame; R330 (11); reset 0. -/
  strays : Nat := 0
  /-- 8 bits; object 0x0412 head_count (11); reset 0. -/
  headCount : Nat := 0
  /-- 32 bits; object 0x0412 last_fired (11); reset 0. -/
  lastFired : Nat := 0
  /-- consecutive valid STATUS frames that meet R342 (11); reset 0. -/
  goodFrames : Nat := 0
  /-- model clock at which training started; R343 (11); reset 0. -/
  trainSince : Nat := 0
  /-- LINK_TRAIN_TIMEOUT raised since; R343 (11); reset 0. -/
  timeoutRaised : Bool := false
  /-- ident and head_count last received in this episode; R344 (11); reset none. -/
  miscabled : Option Nat := none
  countRaised : Option Nat := none
  /-- model clock of the last valid STATUS frame; R345 (11); reset 0. -/
  lastStatus : Nat := 0
  /-- the link joins its bar at the first line of the next slot; R346 (11); reset 0. -/
  joinNext : Bool := false
  /-- 32 heads; object 0x0413 (11). -/
  heads : List HeadReading := List.replicate 32 {}
  deriving DecidableEq, Repr, Inhabited

/-- The head links (11). -/
structure Links where
  /-- 16 links; object 0x0412 (11). -/
  links : List Link := List.replicate 16 {}
  /-- 4 transmit PLLs: locked; R328 (11); reset locked. -/
  pll : List Bool := List.replicate 4 true
  deriving DecidableEq, Repr, Inhabited

/-! ### Cameras and colour loop (12, 13) -/

/-- Camera port states (*Table: Camera port states*). -/
inductive CamState where
  | disabled | discovery | ready | fault
  deriving DecidableEq, Repr, Inhabited

/-- A command of settings (R374 to R377). -/
structure CamCommand where
  gen      : Nat
  exposure : Nat
  gain     : Nat
  writtenAt : Nat
  /-- index of the commit trigger, once committed -/
  commit   : Option Nat
  /-- the camera has acknowledged it; R376 -/
  acked    : Bool
  /-- its write has failed; R377 -/
  failed   : Bool
  deriving DecidableEq, Repr, Inhabited

/-- The frame in progress on a port (R381, R389). -/
structure CamFrame where
  trigger   : Nat
  /-- line number of the trigger, with fraction -/
  line      : Rat
  /-- 32 bits, signed: lines from the arming point to the trigger; *Table: Frame record* -/
  lineSeq   : Nat
  /-- module time of the trigger; *Table: Frame record* -/
  time      : Int
  /-- model clock of the trigger; R381 -/
  trigAt    : Nat
  /-- files by which a traversing axis has moved the camera; R368, R463 -/
  shift     : Rat
  /-- the dark and gain entries in force at the trigger; R386 -/
  flat      : List (Nat × Nat × Nat × Nat)
  /-- header seen: width, pixel bits, tag -/
  header    : Option (Nat × Nat × Nat)
  /-- lines received, in order: none where excluded (R364, R233), else its samples -/
  lines     : List (Option (List Nat))
  /-- numbers of the lines that came and were excluded; R364, R233 -/
  excluded  : List Nat
  /-- a line had a CRC error; R382 -/
  crc       : Bool
  /-- triggers skipped since the frame before; R372, R382 -/
  skippedBefore : Nat
  deriving DecidableEq, Repr, Inhabited

/-- One statistic (R389): its window — kind of mark, 6 for the white level, or 7 for the comparison with a page's
reference; bar, link or camera; window, nozzle, or entry; and within it the row, patch, half or block of lines — and its
plane, with the count of valid pixels, their sum and the sum of their squares. -/
structure Stat where
  /-- the slot whose strip or margin holds the window -/
  slot  : Nat
  /-- kind of mark, 6 for the white level, 7 for the comparison with a page's reference -/
  kind  : Nat
  /-- bar, link or camera -/
  unit  : Nat
  /-- window, nozzle, or entry -/
  num   : Nat
  /-- row, patch, half or block of lines within it -/
  sub   : Nat
  /-- colour plane of the sensor; R388, R389 -/
  plane : Nat
  /-- count of its valid pixels; R389 -/
  count : Nat
  /-- sum of their values; R389 -/
  sum   : Nat
  /-- sum of the squares of their values; R389 -/
  sq    : Nat
  deriving DecidableEq, Repr, Inhabited

/-- The frame record (*Table: Frame record*) and its statistics (R389). -/
structure FrameRecord where
  camera     : Nat
  marks      : Nat
  generation : Nat
  trigger    : Nat
  /-- line number of the trigger, with fraction -/
  line       : Rat
  /-- 32 bits, signed: lines from the arming point to the trigger -/
  lineSeq    : Nat
  /-- module time of the trigger -/
  time       : Int
  /-- 16 bits: lines received -/
  lines      : Nat
  /-- 16 bits: the camera's frame tag; R382 -/
  tag        : Nat
  /-- its statistics, in order; R389 -/
  stats      : List Stat
  deriving DecidableEq, Repr, Inhabited

/-- What the frames so far have seen of a blank strip: its slot, their generation and marks, and their statistics of both
halves (R379, R404). -/
structure BlankSeen where
  slot  : Nat
  gen   : Nat
  marks : Nat
  stats : List Stat
  deriving DecidableEq, Repr, Inhabited

/-- A camera connection (object 0x0902). -/
structure CamConn where
  /-- bit; object 0x0902 (12); reset 0. -/
  locked : Bool := false
  /-- 16 bits, wraps; R364 (12); reset 0. -/
  streamCrc : Nat := 0
  /-- 16 bits, wraps; R364 (12); reset 0. -/
  controlCrc : Nat := 0
  /-- 16 bits, wraps; object 0x0902 (12); reset 0. -/
  lockLosses : Nat := 0
  deriving DecidableEq, Repr, Inhabited

/-- A camera port (object 0x0901). -/
structure Cam where
  /-- 3 bits; object 0x0901 (12); reset 0 (DISABLED). -/
  state : CamState := .disabled
  /-- 3 bits; object 0x0901 rate (12); reset 0. -/
  rate : Nat := 0
  /-- connections in use, 0 for none yet; object 0x0901 (12); reset 0. -/
  connections : Nat := 0
  /-- 16 bits: latest committed g; object 0x0901 generation (12); reset 0. -/
  generation : Nat := 0
  /-- 32 bits, wraps; object 0x0901 (12); reset 0. -/
  frames : Nat := 0
  /-- 16 bits, wraps; object 0x0901 (12); reset 0. -/
  framesMarked : Nat := 0
  /-- 16 bits, wraps; object 0x0901 (12); reset 0. -/
  unsure : Nat := 0
  /-- 16 bits, wraps; R372 (12); reset 0. -/
  triggersSkipped : Nat := 0
  /-- 16 bits, wraps; R377 (12); reset 0. -/
  writeFailures : Nat := 0
  /-- 16 bits, wraps; R391 (12); reset 0. -/
  tapsSkipped : Nat := 0
  /-- 16 bits, 64-byte units; object 0x0901 buffer_peak (12); reset 0. -/
  bufferPeak : Nat := 0
  /-- fill of the receive buffer in 1/32 sample, and the model clock at which it stood so; R384 (12); reset 0. -/
  fill : Nat := 0
  fillAt : Nat := 0
  /-- the blank strip that frames are seeing; R404 (13); reset none. -/
  blank : Option BlankSeen := none
  /-- discoveries failed in a row; *Table: Camera port states* (12); reset 0. -/
  failures : Nat := 0
  /-- model clock of the entry into FAULT; the retry is due 10 s later (12); reset 0. -/
  faultAt : Nat := 0
  /-- triggers since READY, skipped ones included; R376 (12); reset 0. -/
  triggers : Nat := 0
  /-- triggers skipped since the previous frame received; R378 (12); reset 0. -/
  skipped : Nat := 0
  /-- of each trigger point passed whose strobe is still to come, whether it was skipped; R372 (12); reset none. -/
  strobes : List Bool := []
  /-- of each strobe passed whose trigger point is still to come, whether it was skipped; R372 (12); reset none. -/
  led : List Bool := []
  /-- source tag of the previous frame received; R378 (12); reset none. -/
  tag : Option Nat := none
  /-- commands of this camera since READY, newest last; R374 (12); reset none. -/
  commands : List CamCommand := []
  /-- 16 bits: next generation number; R374 (12); reset 0. -/
  nextGen : Nat := 0
  /-- every frame is unsure until a rewrite is acknowledged: the rewrite's generation and, once acknowledged, the trigger
  from which frames follow it and how many are still to follow; R377 (12); reset none. -/
  unsureFrom : Option (Nat × Option (Nat × Nat)) := none
  /-- the frame in progress; R381 (12); reset none. -/
  frame : Option CamFrame := none
  /-- a frame that has ended while the writes of its commit trigger wait for their acknowledgement; R377 (12); reset none. -/
  ended : Option CamFrame := none
  /-- bit: the partner hosts the camera: its records come from there; R380 (12); reset 0. -/
  atPartner : Bool := false
  /-- dark and gain entries that differ from 0 and 4,096: (column, phase, dark, gain); R386 (12); reset none. -/
  flat : List (Nat × Nat × Nat × Nat) := []
  /-- 4 connections; object 0x0902 (12). -/
  conns : List CamConn := List.replicate 4 {}
  /-- an exposure command was issued for the present strip; R414 (13); reset none. -/
  exposedSlot : Option Nat := none
  /-- exposure and gain in force at the sequencer; R374 (12); reset 0. -/
  exposure : Nat := 0
  gain : Nat := 0
  /-- the latest frame record and statistics, as passed to calibration and the partner; R389 (12); reset none. -/
  record : Option FrameRecord := none
  deriving DecidableEq, Repr, Inhabited

/-- A proposal held (R406): the value, or the table for TONE and FLAT, its version and generation. -/
structure Held where
  elem    : Element
  value   : List Int
  version : Nat
  gen     : Nat
  /-- its frame was marked: it may not be used for an acceptance; R383 -/
  marked  : Bool
  deriving DecidableEq, Repr, Inhabited

/-- One kind's counters (object 0x0A02). -/
structure CalKind where
  /-- 32 bits, wraps; object 0x0A02 (13); reset 0. -/
  occurrences : Nat := 0
  /-- 32 bits, wraps; object 0x0A02 (13); reset 0. -/
  proposals : Nat := 0
  /-- 16 bits, wraps; R402 (13); reset 0. -/
  stale : Nat := 0
  /-- 16 bits, wraps; object 0x0A02 (13); reset 0. -/
  disagreements : Nat := 0
  /-- 32 bits, wraps; object 0x0A02 (13); reset 0. -/
  accepted : Nat := 0
  /-- 32 bits; object 0x0A02 (13); reset 0xFFFFFFFF. -/
  lastSlot : Nat := 0xFFFFFFFF
  /-- module time; object 0x0A02 (13); reset 0. -/
  lastTime : Int := 0
  deriving DecidableEq, Repr, Inhabited

/-- The accepted values of the colour loop (R393, R417), the store's contents (R418). -/
structure CalValues where
  /-- density taps of each bar: (file, tap), zero taps not listed, files rising; R174 (06); reset 0. -/
  taps : List (List (Nat × Int)) := List.replicate 8 []
  /-- dead slots of each link, rising; R181 (06); reset empty. -/
  dead : List (List Nat) := List.replicate 16 []
  /-- rank taps accepted, per link: (rank, tap) where accepted; R298 (10), firing.rank_tap elsewhere. -/
  rank : List (List (Nat × Int)) := List.replicate 16 []
  /-- tone curve of each bar, none for the identity; R152 (05); reset none. -/
  tone : List (Option (List Nat)) := List.replicate 8 none
  /-- registration tap of each bar, in 1/256 line; R290 (10); reset 0. -/
  reg : List Int := List.replicate 8 0
  /-- version of each element accepted so far; R393 (13); reset 0. -/
  versions : List (Element × Nat) := []
  deriving DecidableEq, Repr, Inhabited

/-- A CAL_REQUEST RUN_NOW whose result is pending (R416). -/
structure RunNow where
  ticket   : Nat
  kinds    : Nat
  bars     : Nat
  accepted : List Nat
  disagreed : List Nat
  /-- elements that have answered -/
  done     : List Element
  deriving DecidableEq, Repr, Inhabited

/-- A mark printed and not yet measured: its slot, block, page position across, the compare point of its first line at
the leading bar, and the versions under which it was printed (R393, R401, R402). -/
structure PrintedMark where
  slot     : Nat
  block    : MarkBlock
  point    : Int
  versions : List (Element × Nat)
  /-- files that the block covers: first and count -/
  files    : Nat × Nat
  deriving DecidableEq, Repr, Inhabited

/-- A slot under MARKS or FULL: the cameras that have seen its end, whether that is all of them, and of its windows the
largest absolute difference from the reference and the count above calibration.defect_level (R165, R405). -/
structure Inspected where
  slot    : Nat
  cams    : Nat
  done    : Bool
  largest : Nat
  over_   : Nat
  deriving DecidableEq, Repr, Inhabited

/-- The colour loop (13). -/
structure Cal where
  /-- accepted values; R393 (13). -/
  values : CalValues := {}
  /-- held proposals; R406 (13); reset none. -/
  held : List Held := []
  /-- consecutive disagreements of an element, and CAL_UNSTABLE raised; R408 (13); reset none. -/
  disagree : List (Element × Nat × Bool) := []
  /-- bit; R411 (13); reset 0. -/
  frozen : Bool := false
  /-- slews outstanding: element and the accepted value still being approached; R412 (13); reset none. -/
  slews : List (Element × Int) := []
  /-- bit; R413 (13); reset 0. -/
  rerendering : Bool := false
  /-- render-side values accepted while a re-rendering is in progress, in order; R413 (13); reset none. -/
  waiting : List (Element × List Int) := []
  /-- pages of the new cycle still to be rendered; R413 (13); reset none. -/
  rerenderPages : List Nat := []
  /-- the old streams of a cycle under re-rendering, by page; R115 (04); reset none. -/
  oldParts : List (Nat × List LanePart) := []
  /-- 6 bits: kinds due and not yet placed; R396 (13); reset 0. -/
  due : Nat := 0
  /-- the run bar whose nozzle check comes next, as a count of occurrences; R397 (13); reset 0. -/
  ncTurn : Nat := 0
  /-- 16 bits, wraps; R399 (13); reset 0. -/
  stripsSkipped : Nat := 0
  /-- 32 bits; object 0x0A01 store_sequence (13); reset -. -/
  storeSeq : Nat := 0
  /-- values changed since the store was written; R418 (13); reset 0. -/
  changed : Bool := false
  /-- 6 kinds; object 0x0A02 (13). -/
  kinds : List CalKind := List.replicate 6 {}
  /-- RUN_NOW requests pending; R416 (13); reset none. -/
  runNow : List RunNow := []
  /-- the marks printed and not yet measured; R393, R401 (13); reset none. -/
  marks : List PrintedMark := []
  /-- slots that the cameras are seeing or have seen; R165 (05), R405 (13); reset none. -/
  inspected : List Inspected := []
  /-- dead-nozzle changes and others of the strip under measurement that CAL_DISAGREED has reported; reset none. -/
  disagreedStrips : List (Nat × Nat) := []
  deriving DecidableEq, Repr, Inhabited

/-! ### Time (14) -/

/-- Time states (*Table: Time states*). -/
inductive TimeState where
  | free | acquiring | locked | holdover
  deriving DecidableEq, Repr, Inhabited

/-- A timed output's programme (R436, R437): start and period in 2^-16 ns, width in ns. -/
structure Programme where
  periodic : Bool
  start    : Int
  width    : Nat
  period   : Nat
  /-- edges left, none for unlimited -/
  left     : Option Nat
  /-- number k of the next edge -/
  next     : Nat
  deriving DecidableEq, Repr, Inhabited

/-- A timed output (object 0x0B02); entry 8 is PPS. -/
structure Tpo where
  /-- bit; object 0x0B02 level (14); reset 0. -/
  level : Bool := false
  /-- 32 bits, wraps; object 0x0B02 (14); reset 0. -/
  edges : Nat := 0
  /-- 16 bits, wraps; R440 (14); reset 0. -/
  late : Nat := 0
  /-- the programme; R436 (14); reset none. -/
  prog : Option Programme := none
  /-- model clock at which the pulse ends; R437 (14); reset none. -/
  fallAt : Option Nat := none
  /-- module second of the last PPS edge; R441 (14); reset none. -/
  lastSecond : Option Int := none
  deriving DecidableEq, Repr, Inhabited

/-- The timebase (object 0x0B01). -/
structure Time where
  /-- 64 bits, ticks; R421 raw0 (14); reset 0. -/
  raw0 : Nat := 0
  /-- 2^-16 ns; R421 t0 (14); reset 0. -/
  t0 : Int := 0
  /-- 30 bits, signed, 2^-40; R421 (14); reset 0. -/
  rate : Int := 0
  /-- the pending change: raw count, step in 2^-16 ns, rate; R425, R427 (14); reset none. -/
  pending : Option (Nat × Int × Int) := none
  /-- the anchors that changes of the last second replaced, newest first: raw0, t0, rate; R426 (14); reset none. -/
  old : List (Nat × Int × Int) := []
  /-- bit: LOCKED since power good, the previous lock of R433 (14); reset 0. -/
  hasLocked : Bool := false
  /-- 16 bits, wraps; R427 (14); reset 0. -/
  changesReplaced : Nat := 0
  /-- 2 bits; object 0x0B01 state (14); reset 0 (FREE). -/
  state : TimeState := .free
  /-- bit; object 0x0B01 ptp_master (14); reset 0. -/
  ptpMaster : Bool := false
  /-- 16 bits, wraps; object 0x0B01 steps (14); reset 0. -/
  steps : Nat := 0
  /-- ns, exact as last measured; object 0x0B01 offset (14); reset 0. -/
  offset : Int := 0
  /-- integrator i of the servo, ppb; R428 (14); reset 0. -/
  integ : Rat := 0
  /-- consecutive measurements within lock_threshold; *Table: Time states* (14); reset 0. -/
  within : Nat := 0
  /-- model clock of the last measurement; R428, R429 (14); reset none. -/
  lastMeasure : Option Nat := none
  /-- 32 bits, ns; object 0x0B01 path_delay (14); reset 0. -/
  pathDelay : Int := 0
  /-- the best master: clock source and its Announce; R433 (14); reset none. -/
  master : Option (Nat × PtpAnnounce) := none
  /-- foreign masters heard: source, Announce, model clock; R433 (14); reset none. -/
  foreign : List (Nat × PtpAnnounce × Nat) := []
  /-- Sync awaiting its Follow_Up: sequence, ingress module time, correction; R432 (14); reset none. -/
  syncHeld : Option (Nat × Int × Int) := none
  /-- delay request under way: sequence, departure module time, peer turnaround data; R431 (14); reset none. -/
  delayHeld : Option (Nat × Int × Option (Int × Int)) := none
  /-- master-to-slave difference of the last Sync; R431 (14); reset 0. -/
  syncDiff : Option Int := none
  /-- 16 bits: sequence numbers of the PTP messages sent; R432 (14); reset 0. -/
  ptpSeq : Nat := 0
  /-- model clock of the last PTP message heard from the master; *Table: Time sources* (14); reset none. -/
  lastSync : Option Nat := none
  lastAnnounce : Option Nat := none
  /-- 9 outputs; object 0x0B02 (14). -/
  outs : List Tpo := List.replicate 9 {}
  deriving DecidableEq, Repr, Inhabited

/-! ### Motion (15) -/

/-- Axis states (*Table: Axis states*). -/
inductive AxisState where
  | off | hold | moving | homing | geared | stopping | fault
  deriving DecidableEq, Repr, Inhabited

/-- Homing phases (*Table: Homing phases*). -/
inductive HomePhase where
  | seek | seekBrake | backoff | backoffTravel | approach | settle | failing
  deriving DecidableEq, Repr, Inhabited

/-- Profile parameters (R448). -/
structure Params where
  vMax  : Nat
  accel : Nat
  decel : Nat
  jerk  : Nat
  jerkLimited : Bool
  deriving DecidableEq, Repr, Inhabited

/-- The request in progress on an axis (R468). -/
structure AxisReq where
  ticket   : Nat
  deferred : Bool
  reversed : Bool
  late     : Bool
  reversal : Rat
  /-- position at which the retarget was applied; R450 -/
  retargetAt : Option Rat
  /-- largest abs(dev) during the request; R468 -/
  maxDev   : Nat
  deriving DecidableEq, Repr, Inhabited

/-- A pending gear change (R461): ticket, master count c, ramp Rc, ratio r1 (32 fraction bits), started, late. -/
structure GearChange where
  ticket  : Nat
  at_     : Rat
  ramp    : Nat
  ratio   : Int
  started : Bool
  late    : Bool
  /-- largest abs(dev) since the request; R468 -/
  maxDev  : Nat := 0
  deriving DecidableEq, Repr, Inhabited

/-- An axis (object 0x0C01). -/
structure Axis where
  /-- 3 bits; R445 (15); reset 0 (OFF). -/
  state : AxisState := .off
  /-- bit; R458 (15); reset 0. -/
  homed : Bool := false
  /-- microsteps with 32 fraction bits; R447 p (15); reset 0. -/
  p : Rat := 0
  /-- microsteps/s; R447 v (15); reset 0. -/
  v : Rat := 0
  /-- microsteps/s²; R447 a (15); reset 0. -/
  a : Rat := 0
  /-- target of the profile; R447 (15); reset 0. -/
  target : Rat := 0
  /-- jog velocity, none for a positioned move; R447 (15); reset none. -/
  jog : Option Rat := none
  /-- the shadow; R448 (15); reset: configuration. -/
  shadow : Params := ⟨64000, 256000, 256000, 0, false⟩
  /-- the latched parameters; R448 (15); reset: configuration. -/
  latched : Params := ⟨64000, 256000, 256000, 0, false⟩
  /-- 4 bits; object 0x0C01 fault_cause (15); reset 0. -/
  faultCause : Nat := 0
  /-- 4 bits; object 0x0C01 stop_cause (15); reset 0. -/
  stopCause : Nat := 0
  /-- dev of R457 (15); reset 0. -/
  deviation : Rat := 0
  /-- gear lag; R462 (15); reset 0. -/
  lag : Rat := 0
  /-- 16 bits, wraps; object 0x0C01 (15); reset 0. -/
  stalls : Nat := 0
  /-- 16 bits, wraps; R454 (15); reset 0. -/
  saturations : Nat := 0
  /-- 16 bits, mV; object 0x0C01 vbus (15); reset -. -/
  vbus : Nat := 0
  /-- 16 bits, wraps; object 0x0C01 (15); reset 0. -/
  estops : Nat := 0
  /-- the request in progress; R468 (15); reset none. -/
  req : Option AxisReq := none
  /-- homing phase, travel since HOME started, and a position or reason of the phase; R458, R459 (15); reset none. -/
  home : Option (HomePhase × Rat × Rat) := none
  /-- the homing latch to apply: encoder or commanded position; R459 (15); reset none. -/
  latchDue : Option Rat := none
  /-- gearing: input, g_off, g_anchor, ratio (32 fraction bits); R460 (15); reset none. -/
  gear : Option (Nat × Rat × Rat × Int) := none
  /-- the pending gear change; R461 (15); reset none. -/
  change : Option GearChange := none
  /-- the GEAR_LAG event was raised; R462 (15); reset 0. -/
  lagRaised : Bool := false
  /-- encoder count reference: count_ref and the position it stands for; R457 (15); reset 0. -/
  countRef : Int := 0
  refPos : Rat := 0
  /-- bit: an ENABLE has set that reference; R457 (15); reset 0. -/
  referenced : Bool := false
  /-- positions of the profile periods of homing, newest first, with their model clocks; R459 (15); reset none. -/
  track : List (Nat × Rat) := []
  /-- the emergency stop that the next profile period acts on: its cause; R451, R453 (15); reset none. -/
  stopDue : Option Nat := none
  /-- partner: the ticket of an ESTOP whose token has not come; R464 (15); reset none. -/
  estopReq : Option Nat := none
  /-- model clock since which dev has exceeded stall_window; R457 (15); reset none. -/
  stallSince : Option Nat := none
  /-- model clock of the entry into HOLD; R445 (15); reset 0. -/
  holdSince : Nat := 0
  /-- bit: hold current in force; R445 (15); reset 0. -/
  holdCurrent : Bool := false
  /-- consecutive bus samples out of range; R456 (15); reset 0. -/
  vbusBad : Nat := 0
  /-- signed ticks high of phase A and B in the present PWM period, none for high impedance; R455 (15); reset none. -/
  duty : Option (Int × Int) := none
  deriving DecidableEq, Repr, Inhabited

/-! ### Ring and pair (16, 17) -/

/-- A ring node as the roll shows it (object 0x0D02). -/
structure Node where
  /-- 3 bits; object 0x0D02 (16); reset 0. -/
  state : Nat := 0
  /-- bit; object 0x0D02 (16); reset 0. -/
  present : Bool := false
  /-- bit; object 0x0D02 (16); reset 0. -/
  pairActive : Bool := false
  /-- bit; object 0x0D02 gap_ok (16), R485; reset 0. -/
  gapOk : Bool := false
  /-- 4 bits each; object 0x0D02 (16); reset 0. -/
  major : Nat := 0
  minor : Nat := 0
  /-- 32 bits; object 0x0D02 (16); reset 0xFFFFFFFF. -/
  runId : Nat := 0xFFFFFFFF
  /-- 16 bits, ns; object 0x0D02 (16); reset 0. -/
  hopDelay : Nat := 0
  /-- king: the run that the module armed by its RUN_ARMED, and the returned rolls since that did not show it; R492 (16);
  reset none. -/
  groupRun : Option (Nat × Nat) := none
  /-- model clock of its last roll entry; R489 (16); reset none. -/
  seen : Option Nat := none
  /-- RING_MEMBER_LOST raised; R489 (16); reset 0. -/
  lost : Bool := false
  /-- what the node armed: run_id, digest, leading offset; R493 (16); reset none. -/
  armed : Option (Nat × Nat × Nat) := none
  /-- slots it has reported ready; R495 (16); reset none. -/
  ready : List Nat := []
  /-- relay acknowledgement: next_offset and status; R607 (21); reset none. -/
  relay : Option (Nat × Nat) := none
  deriving DecidableEq, Repr, Inhabited

/-- A control or management frame that has not returned yet (R478). -/
structure RingTx where
  frame  : RingFrame
  sentAt : Nat
  resends : Nat
  deriving DecidableEq, Repr, Inhabited

/-- The ring port (object 0x0D01). -/
structure Ring where
  /-- 3 bits; object 0x0D01 state (16); reset 0 (BYPASSED). -/
  state : RingState := .bypassed
  /-- bit; object 0x0D01 bypass_closed (16); reset 1. -/
  bypassClosed : Bool := true
  /-- bit; object 0x0D01 king_heard (16); reset 0. -/
  kingHeard : Bool := false
  /-- 8 bits; object 0x0D01 hops (16); reset 0. -/
  hops : Nat := 0
  /-- 4 bits; R490 (16); reset 0. -/
  commonMinor : Nat := 0
  /-- 8 bits; object 0x0D01 roll (16); reset 0. -/
  roll : Nat := 0
  /-- 16 bits, wraps; object 0x0D01 outages (16); reset 0. -/
  outages : Nat := 0
  /-- 16 bits, µs, saturating; object 0x0D01 (16); reset 0. -/
  longestOutage : Nat := 0
  /-- king: offsets of the relay blocks that wait to be sent; R476, R606 (16, 21); reset none. -/
  imageTx : List Nat := []
  /-- the image frames sent within the last 100 µs: model clock, symbol times; R476 (16); reset none. -/
  imageSent : List (Nat × Nat) := []
  /-- bit: a DISCOVER of this module's major revision has been heard; R483 (16); reset 0. -/
  sameMajor : Bool := false
  /-- 16 bits, wraps; R475 (16); reset 0. -/
  crcDiscards : Nat := 0
  /-- 16 bits, wraps; R478 (16); reset 0. -/
  resends : Nat := 0
  /-- 8 nodes; object 0x0D02 (16). -/
  nodes : List Node := List.replicate 8 {}
  /-- 16 bits: next frame number; R474 seq (16); reset 0. -/
  seq : Nat := 0
  /-- frames awaiting their return; R478 (16); reset none. -/
  tx : List RingTx := []
  /-- (source, seq) already applied, newest first; R478 (16); reset none. -/
  applied : List (Nat × Nat) := []
  /-- bit: RING_ATTN_N asserted by this module; R483 (16); reset 0. -/
  attn : Bool := false
  /-- bit: ejected, silent until the next start; R487 (16); reset 0. -/
  ejected : Bool := false
  /-- bit: RING_VERSION_MISMATCH raised; R483 (16); reset 0. -/
  versionRaised : Bool := false
  /-- model clock of the entry into IDLE at which the king's listen began; R482 (16); reset none. -/
  listenSince : Option Nat := none
  /-- opening time of the grant received (module time); R484 (16); reset none. -/
  openAt : Option Int := none
  /-- king: node granted, and the model clock at which its bypass opens; R484 (16); reset none. -/
  granted : Option (Nat × Nat) := none
  /-- king: nodes already tried in this round; R484 (16); reset none. -/
  tried : List Nat := []
  /-- king: RING_ATTN_N has been asserted, and the present round of grants is not over; R484 (16); reset 0. -/
  attnLine : Bool := false
  /-- king: nodes whose LEAVE_REQ waits for the conditions of R485; R488 (16); reset none. -/
  leavers : List Nat := []
  /-- model clock of the king's last frame heard; R489 (16); reset none. -/
  kingSeen : Option Nat := none
  /-- model clock of the king's last TIME frame; R434, *Table: Time sources* (14); reset none. -/
  timeSeen : Option Nat := none
  /-- the delay request under way: the departure time that it carries, and the model clock at its departure; R422, R434
  (14); reset none. -/
  delayReq : Option (Int × Nat) := none
  /-- 2^-16 ns: the hop delay from the king as last measured; R434 (14); reset 0. -/
  hopDelay : Int := 0
  /-- model clock of the last returned roll; R489 (16); reset none. -/
  rollSeen : Option Nat := none
  /-- the planned leave: what follows it and when it was asked (restart or maintenance); R488 (16); reset none. -/
  leaving : Option (Bool × Nat) := none
  /-- CASCADE_ARMED applied or sent for the armed run, its leading offset in nm; R494 (16); reset none. -/
  cascade : Option Nat := none
  /-- partner of the king: the decisions applied by token whose ring frame (type, body) it has not heard yet; R626 (23);
  reset none. -/
  owed : List (Nat × List Byte) := []
  /-- SLOT_READY already sent for these slots; R495 (16); reset none. -/
  readySent : List Nat := []
  /-- no release until the cascade stop ends; R497 (16); reset 0. -/
  stopped : Bool := false
  /-- RUN_DIGEST_MISMATCH raised for these nodes in this run; reset none. -/
  mismatchRaised : List Nat := []
  deriving DecidableEq, Repr, Inhabited

/-- A decision token of the active (R507, R508). -/
structure Token where
  seq  : Nat
  kind : Nat
  body : List Byte
  deriving DecidableEq, Repr, Inhabited

/-- A decision that waits for the partner's acknowledgement (R508): its token and what it does. -/
inductive Decision where
  | arm (verdict : Nat)
  | release (slot page : Nat) (start : Int)
  | notReady (slot action : Nat)
  | result (ticket : Nat) (time : Int)
  | camera (cam gen exposure gain : Nat)
  | tap (elem : Element) (version : Nat) (value : List Int)
  | ring (f : RingFrame)
  | changeover
  | goStop
  deriving DecidableEq, Repr, Inhabited

/-- The objects of *Table: Catch-up contents*. -/
inductive CopyKind where
  | surface | lut | page | run | streams | result | session | calibration | armed | none
  deriving DecidableEq, Repr, Inhabited

/-- What the active copies to its partner, as it stood when it was last compared (R512). -/
structure CopyBase where
  surfaces : List Surface
  luts     : List Lut
  pages    : List Page
  runs     : List RunDef
  results  : List Result
  sessions : List Session
  values   : CalValues
  armed    : Option Armed
  deriving DecidableEq, Repr, Inhabited

/-- The partner port and pair state (object 0x0E01). -/
structure Pair where
  /-- 3 bits; object 0x0E01 pair_state (17); reset 3 (CATCHUP; 0 when pair_enable is 0). -/
  state : PairState := .catchup
  /-- bit; object 0x0E01 partner_link_up (17); reset 0. -/
  linkUp : Bool := false
  /-- bit; object 0x0E01 partner_absent (17); reset 0. -/
  absent : Bool := false
  /-- 24 bits; R359 (11), object 0x0E01 epoch; reset 0. -/
  epoch : Nat := 0
  /-- 32 bits; object 0x0E01 token_seq (17): last token sent or applied, one more than it; reset 0. -/
  tokenSeq : Nat := 0
  /-- bit: a token has been sent or applied since the numbers began; R505 (17); reset 0. -/
  tokenAny : Bool := false
  /-- 32 bits; object 0x0E01 order_seq (17); reset 0. -/
  orderSeq : Nat := 0
  /-- bit: an order entry likewise; R505 (17); reset 0. -/
  orderAny : Bool := false
  /-- 16 bits, wraps; object 0x0E01 (17); reset 0. -/
  castlings : Nat := 0
  /-- 16 bits, wraps; object 0x0E01 (17); reset 0. -/
  demotions : Nat := 0
  /-- 16 bits, wraps; object 0x0E01 (17); reset 0. -/
  severances : Nat := 0
  /-- 8 bits; object 0x0E01 sever_cause (17); reset 0. -/
  severCause : Nat := 0
  /-- 16 bits, wraps; object 0x0E01 (17); reset 0. -/
  missed : Nat := 0
  /-- 16 bits; object 0x0E01 catchup_progress (17); reset 0. -/
  progress : Nat := 0
  /-- 16 bits, wraps; object 0x0E01 (17); reset 0. -/
  signatures : Nat := 0
  /-- 16 bits, wraps; object 0x0E01 crc_discards (17); reset 0. -/
  crcDiscards : Nat := 0
  /-- consecutive heartbeats missed and the model clock of the last one heard; R505 (17); reset none. -/
  missRun : Nat := 0
  lastBeat : Option Nat := none
  /-- model clock of the last heartbeat sent; R505 (17); reset none. -/
  lastSent : Option Nat := none
  /-- 16 bits: frame number of the next frame on the partner port; R474, R504 (17); reset 0. -/
  frameSeq : Nat := 0
  /-- the last heartbeat's pair state, module state, flags, epoch, token_seq, order_seq; R505 (17); reset none. -/
  peerState : Nat := 3
  peerModule : Nat := 0
  peerFlags : Nat := 0
  peerEpoch : Nat := 0
  peerToken : Nat := 0
  peerOrder : Nat := 0
  /-- the partner's bundle digest; R502 (17); reset none. -/
  peerDigest : List Byte := []
  /-- consecutive heartbeats in which a bar's sequence differed by more than 1, per bar; R509 (17); reset 0. -/
  diverged : List Nat := List.replicate 8 0
  /-- model clock of the first entry into IDLE at which pair_wait began; R501 (17); reset none. -/
  waitSince : Option Nat := none
  /-- bit: the pair state has been decided at the first entry into IDLE; R501 (17); reset 0. -/
  decided : Bool := false
  /-- model clock at which reclaim_wait began; R516 (17); reset none. -/
  reclaimSince : Option Nat := none
  /-- tokens received out of order; R507 (17); reset none. -/
  tokensAhead : List Token := []
  /-- model clock at which the gap in token_seq opened; R510 (17); reset none. -/
  gapSince : Option Nat := none
  /-- 32 bits: the token_seq at which that gap ends; R507 (17); reset 0. -/
  gapEnd : Nat := 0
  /-- active: tokens sent, for RESEND_REQ; R506 (17); reset none. -/
  tokensSent : List Token := []
  /-- active: decisions waiting for acknowledgement with their token_seq; R508 (17); reset none. -/
  decisions : List (Nat × Decision) := []
  /-- active: order entries sent; R506 (17); reset none. -/
  ordersSent : List OrderEntry := []
  /-- partner: order entries not yet applied; R506 (17); reset none. -/
  orders : List OrderEntry := []
  /-- partner: messages asked for again once; *Table: Divergence checks* (17); reset none. -/
  resent : List (Nat × Nat) := []
  /-- partner: group messages held for ordering: session, message_id, type, bytes; R506 (17); reset none. -/
  held : List (Nat × Nat × Nat × List Byte) := []
  /-- datagrams of group messages as received, for RESEND_REQ; R506 (17); reset none. -/
  segments : List (List Byte) := []
  /-- partner: the pieces so far of a datagram that takes several SEGMENT frames; R504 (17); reset none. -/
  segPart : List Byte := []
  /-- active: what it copied from, once a catch-up has begun; R512 (17); reset none. -/
  copyBase : Option CopyBase := none
  /-- active: the objects that are still to be copied: kind, id; R512 (17); reset none. -/
  toCopy : List (CopyKind × Nat) := []
  /-- active: bytes of the first of them that have gone out; R512 (17); reset 0. -/
  copyAt : Nat := 0
  /-- active: model clock from which Q7 has room for the next COPY frame; R512 (17); reset 0. -/
  copyNext : Nat := 0
  /-- partner: bytes copied in catch-up; R512, CATCHUP_DONE (17); reset 0. -/
  copied : Nat := 0
  /-- partner: the objects copied: kind, id, offset, data; R512 (17); reset none. -/
  copies : List (Nat × Nat × Nat × List Byte) := []
  /-- partner: an ARM token has come while the copy was complete; R513 (17); reset 0. -/
  armSeen : Bool := false
  /-- partner: the copy is complete; R513 (17); reset 0. -/
  copyDone : Bool := false
  /-- camera records received from the partner's cameras; R380 (12); reset none. -/
  camRecords : List (List Byte) := []
  /-- partner: entries of tables that come in several TAP tokens: kind, unit, entries so far; *Table: Decision tokens*
  (17); reset none. -/
  tapIn : List (Nat × Nat × List Int) := []
  deriving DecidableEq, Repr, Inhabited

/-! ### Configuration image, firmware, flash (18, 21) -/

/-- An area of the configuration region: the image, its sequence number and its seal CRC (18, R520). -/
structure Area where
  image : List Byte
  seq   : Nat
  crc   : Nat
  deriving DecidableEq, Repr, Inhabited

/-- An entry of the clamp report (object 0x0F11). -/
structure ClampEntry where
  field    : Nat
  element  : Nat
  action   : Nat
  causedBy : Nat
  given    : Nat
  used     : Nat
  deriving DecidableEq, Repr, Inhabited

/-- The configuration in force and its report (objects 0x0F10, 0x0F11). -/
structure Conf where
  /-- the fields in force; R522 (18); reset: defaults of their tables. -/
  cfg : Cfg := defaultCfg
  /-- bit: a configuration is in force; R56 (03), R531 (18); reset 0. -/
  inForce : Bool := false
  /-- 3 bits; object 0x0F10 area (18); reset -. -/
  area : Nat := 0
  /-- bit; object 0x0F10 migrated (18); reset -. -/
  migrated : Bool := false
  /-- bit; object 0x0F10 pending (18); reset 0. -/
  pending : Bool := false
  /-- 8 bits; object 0x0F10 format (18); reset -. -/
  format : Nat := 0
  /-- 32 bits; object 0x0F10 sequence (18); reset -. -/
  sequence : Nat := 0
  /-- 48 bytes: SHA-384 of the installed image; object 0x0F10 digest (18); reset -. -/
  digest : List Byte := []
  /-- the clamp report in the order of arising; object 0x0F11 (18); reset none. -/
  report : List ClampEntry := []
  /-- 16 bits, saturating: departures; object 0x0F10 entries (18); reset -. -/
  entries : Nat := 0
  /-- events that reading the configuration raises at the first entry into IDLE (code, detail); R534, R536, R288 (18, 09);
  reset none. -/
  atIdle : List (Nat × List Byte) := []
  /-- bit: the copy in use is still to be written over the other; R521 (18); reset 0. -/
  copyDue : Bool := false
  deriving DecidableEq, Repr, Inhabited

/-- The boot-select record (R590). -/
structure BootRec where
  seq       : Nat
  selected  : Nat
  previous  : Nat
  trial     : Nat
  confirmed : Bool
  /-- CRC-32C of bytes 0 to 11 -/
  crc       : Nat
  deriving DecidableEq, Repr, Inhabited

/-- A copy of a slot state record (R589). -/
structure SlotCopy where
  seq    : Nat
  /-- *Table: Slot states* -/
  state  : Nat
  /-- the bundle digest -/
  digest : List Byte
  /-- CRC-32C of the preceding 56 bytes -/
  crc    : Nat
  deriving DecidableEq, Repr, Inhabited

/-- A bundle slot of the flash (R584, R589, R598). -/
structure BundleSlot where
  /-- the two slot state records; R584, R589 (21); reset none: EMPTY. -/
  copies : List (Option SlotCopy) := [none, none]
  /-- the header recorded at IMAGE_BEGIN; R596 (21); reset none. -/
  header : List Byte := []
  /-- blocks written: number, bytes, CRC recorded; R598 (21); reset none. -/
  blocks : List (Nat × List Byte × Nat) := []
  deriving DecidableEq, Repr, Inhabited

/-- A copy of the calibration store (R418). -/
structure StoreCopy where
  seq    : Nat
  values : CalValues
  /-- CRC-32C over the rest -/
  crc    : Nat
  deriving DecidableEq, Repr, Inhabited

/-- The flash (R584). -/
structure Flash where
  /-- areas C0, C1, M0, M1, S; R520 (18); reset none. -/
  areas : List (Option Area) := List.replicate 5 none
  /-- migrated_from matches are inside the images; R543 (18). Two boot-select copies; R590 (21); reset none. -/
  boot : List (Option BootRec) := [none, none]
  /-- 2 bundle slots; R584 (21). -/
  slots : List BundleSlot := [{}, {}]
  /-- calibration store copies; R418 (13); reset none. -/
  calStore : List (Option StoreCopy) := [none, none]
  /-- training record copies; R246 (08); reset none. -/
  training : List (Option TrainRecord) := [none, none]
  /-- shutdown record copies; R583 (20); reset none. -/
  shutdown : List (Option ShutdownRecord) := [none, none]
  /-- area S: blocks of a configuration image under download; R598 (21); reset none. -/
  staging : List (Nat × List Byte × Nat) := []
  stagingHeader : List Byte := []
  deriving DecidableEq, Repr, Inhabited

/-- A write waiting for the flash writer (R599). -/
structure FlashJob where
  kind  : Nat
  block : Nat
  data  : List Byte
  crc   : Nat
  deriving DecidableEq, Repr, Inhabited

/-- The update and the running bundle (objects 0x0F01, 0x0F02). -/
structure Update where
  /-- bit; object 0x0F01 running_slot (21); reset -. -/
  runningSlot : Nat := 0
  /-- bit; object 0x0F01 trial (21); reset -. -/
  trial : Bool := false
  /-- bit; R603 (21); reset 0. -/
  confirmReceived : Bool := false
  /-- bit; object 0x0F01 relaying (21); reset 0. -/
  relaying : Bool := false
  /-- manifest of the running bundle: major, minor, patch, ring major, ring minor, config_formats; R585 (21); reset -. -/
  major : Nat := 0
  minor : Nat := 0
  patch : Nat := 0
  ringMajor : Nat := 0
  ringMinor : Nat := 0
  formats : Nat := 0
  /-- 48 bytes: bundle digest; R502, R585 (17, 21); reset -. -/
  digest : List Byte := []
  /-- current download of each kind, bundle and configuration: opened; R595 (21); reset none. -/
  current : List Bool := [false, false]
  /-- kind named by the most recently applied IMAGE_BEGIN; R595 (21); reset none. -/
  lastKind : Option Nat := none
  /-- image blocks accepted and waiting for the flash writer; R599 (21); reset none. -/
  queue : List FlashJob := []
  /-- verifications asked for, in order: kind (0 bundle, 1 configuration image, 2 relayed bundle), ticket, promote
  afterwards; R600, R601, R607 (21); reset none. -/
  verifying : List (Nat × Nat × Bool) := []
  /-- the last verification of area S was VALID; R541 (18); reset 0. -/
  confValid : Bool := false
  /-- configuration activations under way: tickets; R541 (18); reset none. -/
  activating : List Nat := []
  /-- records waiting for the flash writer: calibration, training, configuration copy; R246, R418, R521; reset none. -/
  records : List FlashRecord := []
  /-- the relayed digest, first 8 bytes; R606 (21); reset none. -/
  relayDigest : List Byte := []
  /-- 32 bits: next byte of the relay to be taken; R607 (21); reset 0. -/
  relayOffset : Nat := 0
  /-- bytes of the relay taken and not yet handed to the flash writer; R606 (21); reset none. -/
  relayBytes : List Byte := []
  /-- 8 bits: IMAGE_ACK status, and the outcome that goes with FAILED; R607 (21); reset 3 (NOT_WANTED), 0. -/
  relayStatus : Nat := 3
  relayOutcome : Nat := 0
  /-- model clock of the last IMAGE_ACK; R607 (21); reset none. -/
  lastAck : Option Nat := none
  deriving DecidableEq, Repr, Inhabited

/-! ### Loop-backs (24) -/

/-- A running loop-back (object 0x0020). -/
structure Loop where
  ticket    : Nat
  interface : Nat
  index     : Nat
  depth     : Nat
  pattern   : Nat
  duration  : Nat
  startedAt : Nat
  paramA    : Nat
  paramB    : Nat
  /-- the generator has stopped, by STOP or at its time: model clock; R644 (24). -/
  endedAt : Option Nat := none
  stopped : Bool := false
  /-- so far, as object 0x0020 shows them; of a FAR loop-back and of POSITION PAD what they count; R644, R651 (24). -/
  locked : Bool := false
  units  : Nat := 0
  errors : Nat := 0
  /-- model clock of the first error of those two. -/
  firstAt : Option Nat := none
  /-- of each data lane, the next LOOP frame's seq and the register of its pattern; R641, R644 (24). -/
  generators : List (Nat × Nat) := []
  /-- crc_errors of the last STATUS frame since the start; R644 (24). -/
  basis : Option Nat := none
  /-- the input's counts of illegal transitions and wire disagreements at the start; R651 (24). -/
  illegal       : Nat := 0
  disagreements : Nat := 0
  deriving DecidableEq, Repr, Inhabited

/-! ### What a command puts out -/

/-- The UDP checksum of a PTP message: as computed, zero, or kept correct by two bytes appended to the message (R432). -/
inductive UdpSum where
  | ordinary | zero | appended
  deriving DecidableEq, Repr, Inhabited

/-- What a command makes the module send or do at an interface, in order (the model's own field, assumption 3). -/
inductive Out where
  /-- a DPT message of a type of a session (0 for none), by its payload and the datagrams that carry it, sent from a port to an
  address -/
  | dpt (port addr session type : Nat) (payload : List Byte) (datagrams : List (List Byte))
  /-- a single DPT datagram: an ACK, a KEEPALIVE, or a segment resent under R68 -/
  | datagram (port addr : Nat) (bytes : List Byte)
  /-- an ARP or NDP request for a host's link-layer address (R55) -/
  | resolve (port addr : Nat)
  | arpReply (port target sender : Nat)
  | echoReply (port sender : Nat) (data : List Byte)
  | membership (port groupAddr : Nat)
  /-- the neighbour solicitation by which a port asks whether another node has its IPv6 address (R53) -/
  | addressDetection (port addr : Nat)
  /-- a PTP message by its IEEE 1588 type: its time-stamp field and its correctionField, both in 2^-16 ns (R431, R432) -/
  | ptp (port kind seq : Nat) (stamp correction : Int) (checksum : UdpSum)
  /-- an Announce, with its timeSource and ptpTimescale (*Table: IEEE 1588-2019 support*) -/
  | ptpAnnounce (port seq : Nat) (a : PtpAnnounce) (timeSource : Nat) (ptpTimescale : Bool)
  /-- what a global data lane of the Tollos links sends from now on, until the next of these for it: symbols, and after
  them the lane's fill; and the running disparity at which they begin (R302, R329, R336) -/
  | lane (lane : Nat) (rd : Bool) (symbols : List Symbol)
  /-- the generator of a loop-back drives the pads of an interface: with a serial pattern from the register `seed` on, or with the
  steps of a motion axis (R641, R652) -/
  | pattern (interface index pattern seed : Nat)
  /-- a ring frame on ring-out, and the symbols of lanes R0 and R1 (R473, R474) -/
  | ring (f : RingFrame) (lanes : List (List Symbol))
  /-- a frame on the partner port, and the symbols of lanes P0 to P3 (R504) -/
  | partner (type : Nat) (body : List Byte) (lanes : List (List Symbol))
  /-- the lanes of ring-out (0) or of the partner port (1) train, with these blocks (R473, R504) -/
  | portTraining (port : Nat) (lanes : List (List Symbol))
  /-- the full bundle digest, once at partner link up (*Table: HEARTBEAT body*); the spec names no frame for it -/
  | partnerDigest (digest : List Byte)
  /-- the trigger packet of a camera on its uplink, and the delay value that it carries (R370) -/
  | camTrigger (cam delay : Nat)
  | camWrite (cam addr value : Nat)
  | ssiClock (input : Nat)
  | flashWrite (what : Nat)
  deriving DecidableEq, Repr, Inhabited

/-! ### The whole -/

/-- The state of the block. -/
structure State where
  /-- commands waiting, first in first out (the model's own field, assumption 1); reset empty. -/
  pending : List Instr := []
  /-- the model's clock, in 1/256 tick since reset (the model's own field, assumption 1); reset 0. -/
  now : Nat := 0
  /-- the clock at the latest power good, where the raw counter is 0; R419 (14); reset 0. -/
  rawOrigin : Nat := 0
  /-- what the present command puts out (the model's own field, assumption 3); reset none. -/
  sent : List Out := []
  /-- counter of the free values drawn (the model's own field, assumption 4); reset 0. -/
  freeN : Nat := 0
  mod : Mod := {}
  power : Power := {}
  otp : Otp := {}
  flash : Flash := {}
  conf : Conf := {}
  update : Update := {}
  log : Log := {}
  thermal : Thermal := {}
  /-- 24 speed monitors; object 0x0110 (02). -/
  monitors : List Monitor := List.replicate 24 {}
  gov : Gov := {}
  net : Net := {}
  jobs : Jobs := {}
  render : Render := {}
  mem : Mem := {}
  pos : Pos := {}
  fire : Fire := {}
  links : Links := {}
  /-- 4 camera ports; object 0x0901 (12). -/
  cams : List Cam := List.replicate 4 {}
  cal : Cal := {}
  time : Time := {}
  /-- 12 axes; object 0x0C01 (15). -/
  axes : List Axis := List.replicate 12 {}
  ring : Ring := {}
  pair : Pair := {}
  /-- running loop-backs, of which object 0x0020 shows 16 (24); reset none. -/
  loops : List Loop := []
  deriving DecidableEq, Repr, Inhabited

/-- The module as it is before any command: OFF, nothing stored, every register at its reset value (R13, R19). -/
def State.reset : State := {}

/-- Why a run of the model would stop with a fault. No meaning answers with one: every row of the table has an effect
in every state (a stop would be safe). -/
inductive Fault where
  /-- raised by no meaning; safe -/
  | none
  deriving DecidableEq, Repr, Inhabited

/-- Why a command has no meaning in this model. -/
inductive Refusal where
  /-- a row whose arm of `exec` has no meaning yet, by its mnemonic; safe -/
  | notModelled (mnemonic : String)
  deriving DecidableEq, Repr, Inhabited

end Sys2Proof.Machine
end

