-- ==== Sys2Proof/Machine/Commands.lean ====
section
/-! DEFINITION. What the commands in the queue are, as a command that stands before them may have to know: the messages of the
host (03_host_transport.md, R78) and the dates. -/
namespace Sys2Proof.Machine
open Sys2Proof

/-- The date and the source of a command that is a complete message of the host on an open session. -/
def messageOf (c : Instr) : Option (Nat × Src) :=
  match c with
  | .sessionClose t src .. | .unknownType t src .. | .haltReq t src .. | .restartReq t src .. | .maintenanceReq t src .. |
    .loopbackStart t src .. | .loopbackStop t src .. | .surfaceDefine t src .. | .surfaceData t src .. |
    .surfaceSeal t src .. | .surfaceFree t src .. | .lutDefine t src .. | .pageDefine t src .. | .pageFree t src .. |
    .runDefine t src .. | .runArm t src .. | .runStop t src .. | .runCancel t src .. | .runEnd t src .. |
    .calRunNow t src .. | .calFreeze t src .. | .calThaw t src .. | .calReset t src .. | .moveAbs t src .. |
    .moveRel t src .. | .jog t src .. | .stop t src .. | .estop t src .. | .home t src .. | .gear t src .. |
    .gearChange t src .. | .setParams t src .. | .enable t src .. | .disable t src .. | .clearFault t src .. |
    .timedOutputCancel t src .. | .timedOutputOnce t src .. | .timedOutputPeriodic t src .. | .resultRead t src .. |
    .resultRelease t src .. | .statusRead t src .. | .imageBegin t src .. | .imageBlock t src .. | .imageVerify t src .. |
    .imageActivate t src .. | .imageConfirm t src .. | .imageAbort t src .. => some (t, src)
  | _ => none

/-- The date of a command. -/
def dateOf (c : Instr) : Nat :=
  match c with
  | .powerGood t .. | .powerGoodLost t .. | .bootSelect t .. | .configRead t .. | .trainingDone t .. |
    .memoryInitialised t .. | .codecSelftest t .. | .watchdogExpiry t .. | .inputLow t .. | .shutdownLatchClear t .. |
    .thermalSample t .. | .blitzOff t .. | .shutdownRecordWritten t .. | .speedMonitorWindow t .. |
    .speedMonitorBroken t .. | .governorPeriod t .. | .dptSegmentReceived t .. | .networkFrameDiscarded t .. |
    .arpNdpRequest t .. | .icmpEcho t .. | .portLinkChange t .. | .portSpeedAlternate t .. | .ackDelayExpiry t .. |
    .creditReopened t .. | .dptRtoExpiry t .. | .sessionTimeout t .. | .keepaliveDue t .. | .sessionOpen t .. |
    .sessionClose t .. | .keepalive t .. | .ack t .. | .unknownType t .. | .haltReq t .. | .restartReq t .. |
    .maintenanceReq t .. | .loopbackStart t .. | .loopbackStop t .. | .loopbackEnd t .. | .loopbackPreempted t .. |
    .surfaceDefine t .. | .surfaceData t .. | .surfaceSeal t .. | .sealCheckDone t .. | .surfaceFree t .. |
    .lutDefine t .. | .pageDefine t .. | .pageFree t .. | .runDefine t .. | .runArm t .. | .runArmVerdict t .. |
    .runStop t .. | .runCancel t .. | .runEnd t .. | .calRunNow t .. | .calFreeze t .. | .calThaw t .. | .calReset t .. |
    .moveAbs t .. | .moveRel t .. | .jog t .. | .stop t .. | .estop t .. | .home t .. | .gear t .. | .gearChange t .. |
    .setParams t .. | .enable t .. | .disable t .. | .clearFault t .. | .timedOutputCancel t .. | .timedOutputOnce t .. |
    .timedOutputPeriodic t .. | .resultRead t .. | .resultRelease t .. | .statusRead t .. | .imageBegin t .. |
    .imageBlock t .. | .flashBlockWritten t .. | .imageVerify t .. | .imageActivate t .. | .configActivationDone t .. |
    .imageConfirm t .. | .imageAbort t .. | .bundleConfirmed t .. | .ptpMessageReceived t .. | .ptpMessageDue t .. |
    .timeServoMeasurement t .. | .timeSourceLost t .. | .timeChangeApply t .. | .timedOutputEdge t .. |
    .timedOutputPulseEnd t .. | .ppsEdge t .. | .quadratureEdge t .. | .wireFault t .. | .indexEvent t .. | .ssiFrame t .. |
    .positionFaultCleared t .. | .coastTrigger t .. | .extrapolatedTrigger t .. | .auxCompareTrigger t .. |
    .dinChange t .. | .haltInAsserted t .. | .haltInDeasserted t .. | .printGoEdge t .. | .lineTrigger t .. |
    .deferredFireSync t .. | .linePacketComplete t .. | .overspeedClear t .. | .fireUnderrun t .. | .fireDecodeError t .. |
    .haltRepeat t .. | .slotReleasePoint t .. | .pageRenderStart t .. | .compositionLine t .. | .chunkCompressed t .. |
    .pageRendered t .. | .flagFall t .. | .dtRead t .. | .scrubPass t .. | .eccUncorrectable t .. | .eccCorrectedRate t .. |
    .linkStatusFrame t .. | .linkUpLost t .. | .statusTimeout t .. | .linkTrainTimeout t .. | .pllUnlock t .. |
    .ownerFrameDue t .. | .cameraDiscovery t .. | .cameraDown t .. | .cameraRetry t .. | .cameraPacket t .. |
    .cameraFrameEnd t .. | .cameraWriteAck t .. | .motionProfilePeriod t .. | .pwmPeriod t .. | .holdCurrentDelay t .. |
    .ringFrameReceived t .. | .ringFrameResend t .. | .ringTimeSend t .. | .ringDelayExchange t .. |
    .kingListenExpiry t .. | .discoverSend t .. | .discover t .. | .ringAttnAsserted t .. | .joinGrant t .. |
    .bypassOpenTime t .. | .joinHello t .. | .joinHelloTimeout t .. | .eject t .. | .leaveReq t .. | .leaveWaitExpiry t .. |
    .roll t .. | .ringMemberLost t .. | .originSend t .. | .origin t .. | .runArmedFrame t .. | .cascadeArmed t .. |
    .slotReady t .. | .ringRelease t .. | .ringNotReady t .. | .cascadeStop t .. | .ringImageBlock t .. | .imageAck t .. |
    .relayAckDue t .. | .heartbeatDue t .. | .heartbeat t .. | .heartbeatMissed t .. | .pairWaitExpiry t .. |
    .reclaimWaitExpiry t .. | .order t .. | .tokenArm t .. | .tokenRelease t .. | .tokenNotReady t .. |
    .tokenGovernor t .. | .tokenTap t .. | .tokenChangeover t .. | .tokenResult t .. | .tokenRing t .. | .tokenBar t .. |
    .tokenCamera t .. | .tokenAxis t .. | .tokenGapTimeout t .. | .resendReq t .. | .partnerSegment t .. | .copy t .. |
    .catchupDone t .. | .signature t .. | .partnerCamera t .. | .flashRecordWritten t .. | .imageVerifyDone t .. |
    .loopbackDone t .. | .pllRelock t .. | .igmpMldQuery t .. => t

end Sys2Proof.Machine
end

