-- ==== Sys2Proof/Machine/Symbols.lean ====
section
/-! DEFINITION. The symbols of the Tollos lanes, their frames and training blocks (11_tollos_link.md, R329 to R339), and the 8b/10b
code of IEEE 802.3 Clause 36 that carries them (log entry 80). -/
namespace Sys2Proof.Machine
open Sys2Proof

/-! ### K-symbols (*Table: Tollos K-symbols*) -/

def kComma : Symbol := .k 0xBC
def kFireSync : Symbol := .k 0x3C
def kHalt : Symbol := .k 0xF7
def kStart : Symbol := .k 0xFB
def kEnd : Symbol := .k 0xFD
def kError : Symbol := .k 0xFE
def kTraining : Symbol := .k 0x1C

/-! ### Frames and training blocks -/

/-- The CRC-32C that closes a frame, over its type byte and body (R156, R331). -/
def frameCrc (f : List Byte) : List Byte := leBytes 4 (crc32c f)

/-- A frame of a type byte and a body `f` (R331). -/
def frameSymbols (f : List Byte) : List Symbol := kStart :: ((f ++ frameCrc f).map .d ++ [kEnd])

/-- A training block with an ident byte (R339). -/
def identBlock (ident : Nat) : List Symbol :=
  [kComma, kTraining, .d 0xB5, .d (BitVec.ofNat 8 ident)] ++ List.replicate 12 (.d 0xB5)

/-- A training block of a lane of a Tollos link (R339). -/
def trainingBlock (link lane : Nat) : List Symbol := identBlock (4 * link + lane)

/-- The bytes of a ring or partner frame from its type on: the header of *Table: Ring frame header*, the body, padding to
a whole group of `n` lanes, and the CRC-32C over all of it (R474, R504). -/
def wireBytes (n : Nat) (f : RingFrame) : List Byte :=
  let b := leBytes 1 f.type ++ leBytes 1 f.source ++ leBytes 1 f.dest ++ leBytes 1 f.hops ++ leBytes 2 f.seq ++
    leBytes 2 f.body.length ++ f.body
  let p := b ++ List.replicate ((n - b.length % n) % n) 0
  p ++ leBytes 4 (crc32c p)

/-- The symbols of a frame on `n` lanes: K27.7 on all of them, byte n × i + k on lane k, and K29.7 on all of them (R474, R504). -/
def wireLanes (n : Nat) (f : RingFrame) : List (List Symbol) :=
  (List.range n).map fun k =>
    kStart :: (((wireBytes n f).zipIdx.filter fun p => p.2 % n = k).map fun p => Symbol.d p.1) ++ [kEnd]

/-- The symbol times that a ring frame takes (R477). -/
def frameTimes (f : RingFrame) : Nat := 2 + (wireBytes 2 f).length / 2

/-- The training blocks of the ring and partner lanes, by their ident of lane 0: 0xC0 on the two of the ring, 0xD0 on the
four of the partner port (R473, R504). -/
def portTraining (n ident : Nat) : List (List Symbol) := (List.range n).map fun k => identBlock (ident + k)

/-- FIRE-SYNC of a line sequence (R302). -/
def syncSymbols (seq : Nat) : List Symbol := [kFireSync, .d (BitVec.ofNat 8 seq)]

/-- The data byte of a symbol. -/
def symbolByte : Symbol → Option Byte
  | .d b => some b
  | _ => none

/-- A symbol outside a frame that a receiver counts: a code violation, or a K-symbol that has no place there (R330). -/
def isStray (x : Symbol) : Bool :=
  match x with
  | .bad => true
  | .k v => !([0xBC, 0x3C, 0xF7, 0x1C].contains v)
  | .d _ => false

/-- What a receiver makes of a frame's symbols, from K27.7 on: its type byte and body where every symbol within is a data byte,
it ends with K29.7, and the CRC is right; FIRE-SYNC and HALT, which never come on UP, have no place in it (R330 to R332). -/
def readFrame (l : List Symbol) : Option (List Byte) :=
  match l with
  | [] => none
  | x :: r =>
    let inside := r.takeWhile (· ≠ kEnd)
    if x ≠ kStart || !r.contains kEnd || inside.any (fun x => (symbolByte x).isNone) then none
    else
      let b := inside.filterMap symbolByte
      let f := b.take (b.length - 4)
      if 5 ≤ b.length && b.drop (b.length - 4) = frameCrc f then some f else none

/-! ### 8b/10b (R329) -/

/-- The six bits abcdei of D.x at negative running disparity. -/
def sixBits : List Nat :=
  [0b100111, 0b011101, 0b101101, 0b110001, 0b110101, 0b101001, 0b011001, 0b111000, 0b111001, 0b100101, 0b010101, 0b110100,
   0b001101, 0b101100, 0b011100, 0b010111, 0b011011, 0b100011, 0b010011, 0b110010, 0b001011, 0b101010, 0b011010, 0b111010,
   0b110011, 0b100110, 0b010110, 0b110110, 0b001110, 0b101110, 0b011110, 0b101011]

/-- The four bits fghj of D.x.y at negative running disparity, primary form. -/
def fourBits : List Nat := [0b1011, 0b1001, 0b0101, 0b1100, 0b1101, 0b1010, 0b0110, 0b1110]

/-- The ones of a group of bits. -/
def onesOf (n v : Nat) : Nat := ((List.range n).filter fun i => v.testBit i).length

/-- The running disparity after a group of `n` bits: positive for more ones than zeros, unchanged for as many. -/
def disparityAfter (n v : Nat) (rd : Bool) : Bool :=
  if 2 * onesOf n v = n then rd else decide (n < 2 * onesOf n v)

/-- The group for the running disparity: complemented at a positive one, if it is unbalanced or one of the two balanced
groups that have two forms. -/
def atDisparity (n v : Nat) (twoForms rd : Bool) : Nat :=
  if rd && (2 * onesOf n v ≠ n || twoForms) then 2 ^ n - 1 - v else v

/-- The alternate form D.x.A7 takes the place of D.x.P7. -/
def alternate7 (x : Nat) (rd : Bool) : Bool := if rd then x = 11 || x = 13 || x = 14 else x = 17 || x = 18 || x = 20

/-- The code group abcdei fghj of a data byte, and the running disparity after it. -/
def codeData (rd : Bool) (b : Nat) : Nat × Bool :=
  let x := b % 32
  let y := b / 32
  let six := atDisparity 6 (sixBits.getD x 0) (x = 7) rd
  let rd1 := disparityAfter 6 six rd
  let four := if y = 7 && alternate7 x rd1 then atDisparity 4 0b0111 false rd1
    else atDisparity 4 (fourBits.getD y 0) (y = 3) rd1
  (six * 16 + four, disparityAfter 4 four rd1)

/-- The code group of a K-symbol, and the running disparity after it. -/
def codeControl (rd : Bool) (v : Nat) : Nat × Bool :=
  let x := v % 32
  let y := v / 32
  let six := atDisparity 6 (if x = 28 then 0b001111 else sixBits.getD x 0) false rd
  let rd1 := disparityAfter 6 six rd
  let four := if rd1 then ([0b0100, 0b1001, 0b0101, 0b0011, 0b0010, 0b1010, 0b0110, 0b1000] : List Nat).getD y 0
    else ([0b1011, 0b0110, 0b1010, 0b1100, 0b1101, 0b0101, 0b1001, 0b0111] : List Nat).getD y 0
  (six * 16 + four, disparityAfter 4 four rd1)

/-- The code group of a symbol that a module sends. -/
def codeGroup (rd : Bool) (x : Symbol) : Nat × Bool :=
  match x with
  | .d b => codeData rd b.toNat
  | .k v => codeControl rd v
  | .bad => (0, rd)

/-- The code groups of a stretch of symbols that begins at a running disparity. -/
def codeGroups : Bool → List Symbol → List Nat
  | _, [] => []
  | rd, x :: l => (codeGroup rd x).1 :: codeGroups (codeGroup rd x).2 l

/-- The running disparity after a stretch of symbols. -/
def runningDisparity (rd : Bool) (l : List Symbol) : Bool := l.foldl (fun r x => (codeGroup r x).2) rd

end Sys2Proof.Machine
end

