-- ==== Sys2Proof/Machine/Ops.lean ====
section
/-! DEFINITION. The operations that every family of commands uses: the clock and module time, events, DPT messages
sent, REJECT, results, decision tokens, transitions of the module state, and the access to one entry of a group. -/
namespace Sys2Proof.Machine
open Sys2Proof

/-! ### The clock and module time -/

/-- `n` ns in 1/256 tick (R420). -/
def nsT (n : Nat) : Nat := 64 * n
/-- `n` µs in 1/256 tick. -/
def usT (n : Nat) : Nat := 64000 * n
/-- `n` ms in 1/256 tick. -/
def msT (n : Nat) : Nat := 64000000 * n
/-- `n` s in 1/256 tick. -/
def secT (n : Nat) : Nat := 64000000000 * n

/-- A command begins: the clock moves to its date, and nothing has been put out yet (assumptions 1, 3). -/
def beginAt (t : Nat) (s : State) : State := { s with now := max s.now t, sent := [] }

/-- The raw count of a date, in 1/256 tick (R419, R420). -/
def rawOf (s : State) (date : Nat) : Int := (date : Int) - s.rawOrigin

/-- The raw counter in ticks (R419). -/
def rawTicks (s : State) : Nat := (s.now - s.rawOrigin) / 256

/-- Module time under an anchor (R421). -/
def anchorTime (raw0 : Nat) (t0 rate d256 : Int) : Int :=
  t0 + (d256 - raw0 * 256) * 1024 + (d256 - raw0 * 256) * rate / 2 ^ 30

/-- The anchors, newest first: that of the pending change, the one in force, and those replaced (R421, R425). -/
def anchors (s : State) : List (Nat × Int × Int) :=
  (match s.time.pending with
    | some (rc, step, rate) => [(rc, anchorTime s.time.raw0 s.time.t0 s.time.rate (rc * 256) + step, rate)]
    | none => []) ++
  (s.time.raw0, s.time.t0, s.time.rate) :: s.time.old

/-- Module time at a date: under the newest anchor whose raw count the date has reached (R421, R426). -/
def timeAt (s : State) (date : Nat) : Int :=
  let a := ((anchors s).find? fun a => (a.1 * 256 : Int) ≤ rawOf s date).getD ((anchors s).getLastD (0, 0, 0))
  anchorTime a.1 a.2.1 a.2.2 (rawOf s date)

/-- The date at which module time was or will be `time`: under the newest anchor that begins at or before it (R421, R426). -/
def dateOfTime (s : State) (time : Int) : Nat :=
  let a := ((anchors s).find? fun a => a.2.1 ≤ time).getD ((anchors s).getLastD (0, 0, 0))
  let d : Rat := ((time - a.2.1 : Int) : Rat) / (1024 + (a.2.2 : Rat) / 2 ^ 30)
  (s.rawOrigin + a.1 * 256 + d.floor).toNat

/-- Module time now, in 2^-16 ns. -/
def timeNow (s : State) : Int := timeAt s s.now

/-- A time in the time-stamp format (R423). -/
def stampNative (t : Int) : List Byte :=
  leBytes 6 (ofSigned 48 (t / 65536 / 1000000000)) ++ leBytes 4 (t / 65536 % 1000000000).toNat ++
    leBytes 2 (t % 65536).toNat

/-- A time in the legacy layout (R621). -/
def stampLegacy (t : Int) : List Byte := leBytes 8 (ofSigned 64 (t / 655360)) ++ leBytes 4 0

/-- A time as the module reports it (R423, R621, R663). -/
def stampOf (s : State) (t : Int) : List Byte := if s.mod.compat then stampLegacy t else stampNative t

/-- The time that 12 bytes in the time-stamp format give (R423). -/
def readNative (b : List Byte) : Int :=
  ((leNat (b.take 6) * 1000000000 + leNat ((b.drop 6).take 4)) * 65536 + leNat ((b.drop 10).take 2) : Nat)

/-- The time that the module reads from a DPT message (R423, R621). -/
def readStamp (s : State) (b : List Byte) : Int :=
  if s.mod.compat then (leNat (b.take 8) * 655360 : Nat) else readNative b

/-! ### Bytes -/

/-- `n` bytes at offset `o`, read as a number (R9). -/
def fld (b : List Byte) (o n : Nat) : Nat := leNat ((b.drop o).take n)

/-- A signed number of `n` bytes at offset `o`. -/
def sfld (b : List Byte) (o n : Nat) : Int := toSigned (8 * n) (fld b o n)

/-- A signed number as `n` bytes. -/
def sgBytes (n : Nat) (v : Int) : List Byte := leBytes n (ofSigned (8 * n) v)

/-- The bytes cut or filled with zeros to `n`. -/
def padTo (n : Nat) (l : List Byte) : List Byte := l.take n ++ List.replicate (n - l.length) 0

/-- The bits of a list, bit i for entry i. -/
def maskOf (l : List Bool) : Nat := (l.zipIdx.map fun p => if p.1 then 2 ^ p.2 else 0).sum

/-- The bits of a list of bit numbers, each counted once. -/
def bitsOf (l : List Nat) : Nat := (l.eraseDups.map fun i => 2 ^ i).sum

/-- The numbers below `n` whose bit is set. -/
def bitList (n m : Nat) : List Nat := (List.range n).filter fun i => m.testBit i

/-- A Boolean as a number. -/
def b2n (b : Bool) : Nat := if b then 1 else 0

/-! ### Lists -/

/-- `x` put into a list that is in order, before what it is not after. -/
def putInOrder {α : Type} (before : α → α → Bool) (x : α) : List α → List α
  | [] => [x]
  | y :: l => if before x y then x :: y :: l else y :: putInOrder before x l

/-- A list in order; what is equal stays as it stood. -/
def inOrder {α : Type} (before : α → α → Bool) (l : List α) : List α := l.foldr (putInOrder before) []

/-! ### One entry of a group -/

/-- The configuration in force: an unsigned element. -/
def cfgN (s : State) (id i : Nat) : Nat := cfgNat s.conf.cfg id i
/-- The configuration in force: a signed element. -/
def cfgI (s : State) (id i : Nat) : Int := cfgInt s.conf.cfg id i

def barOf (s : State) (b : Nat) : Bar := s.fire.bars.getD b {}
def linkOf (s : State) (k : Nat) : Link := s.links.links.getD k {}
def inputOf (s : State) (i : Nat) : Input := s.pos.inputs.getD i {}
def camOf (s : State) (c : Nat) : Cam := s.cams.getD c {}
def axisOf (s : State) (a : Nat) : Axis := s.axes.getD a {}
def sessionOf (s : State) (i : Nat) : Session := s.net.sessions.getD i {}
def portOf (s : State) (p : Nat) : Port := s.net.ports.getD p {}
def nodeOf (s : State) (n : Nat) : Node := s.ring.nodes.getD n {}
def laneOf (s : State) (g : Nat) : FireLane := s.fire.lanes.getD g {}

def modBar (b : Nat) (f : Bar → Bar) (s : State) : State :=
  { s with fire := { s.fire with bars := s.fire.bars.modify b f } }
def modLane (g : Nat) (f : FireLane → FireLane) (s : State) : State :=
  { s with fire := { s.fire with lanes := s.fire.lanes.modify g f } }
def modLink (k : Nat) (f : Link → Link) (s : State) : State :=
  { s with links := { s.links with links := s.links.links.modify k f } }
def modInput (i : Nat) (f : Input → Input) (s : State) : State :=
  { s with pos := { s.pos with inputs := s.pos.inputs.modify i f } }
def modCam (c : Nat) (f : Cam → Cam) (s : State) : State := { s with cams := s.cams.modify c f }
def modAxis (a : Nat) (f : Axis → Axis) (s : State) : State := { s with axes := s.axes.modify a f }
def modSession (i : Nat) (f : Session → Session) (s : State) : State :=
  { s with net := { s.net with sessions := s.net.sessions.modify i f } }
def modPort (p : Nat) (f : Port → Port) (s : State) : State :=
  { s with net := { s.net with ports := s.net.ports.modify p f } }
def modNode (n : Nat) (f : Node → Node) (s : State) : State :=
  { s with ring := { s.ring with nodes := s.ring.nodes.modify n f } }
def modOut (n : Nat) (f : Tpo → Tpo) (s : State) : State :=
  { s with time := { s.time with outs := s.time.outs.modify n f } }

/-- Puts something out (assumption 3). -/
def emit (o : Out) (s : State) : State := { s with sent := s.sent ++ [o] }

/-- A ring frame on ring-out. -/
def ringOut (f : RingFrame) : Out := .ring f (wireLanes 2 f)

/-- The place of a ring frame type in the order in which a node inserts its own frames: time, control, management, image
(R476). -/
def ringClass (type : Nat) : Nat :=
  if type < 0x23 then 0 else if 0x38 ≤ type then 3 else if type < 0x29 then 2 else 1

/-- A frame of the node's own that waits for its insertion behind one of an earlier class (R476). -/
def givesWay (f : RingFrame) (o : Out) : Bool :=
  match o with
  | .ring g _ => g.source = f.source && g.hops = 0 && ringClass f.type < ringClass g.type
  | _ => false

/-- A node's own ring frame goes in before those of later classes that it puts out in the same instant (R476). -/
def emitOwn (f : RingFrame) (s : State) : State :=
  let later := (s.sent.reverse.takeWhile (givesWay f)).reverse
  { s with sent := s.sent.take (s.sent.length - later.length) ++ ringOut f :: later }

/-- The header of a partner frame: the module's node number, its partner's, and the frame number (R474, R504). -/
def partnerFrame (s : State) (type : Nat) (body : List Byte) : RingFrame :=
  let n := if s.power.strapValid then 2 * s.power.position + s.power.side else 7
  { type := type, source := n, dest := if n % 2 = 0 then n + 1 else n - 1, hops := 0, seq := s.pair.frameSeq, body := body }

/-- A frame on the partner port (R504). -/
def sendPartner (type : Nat) (body : List Byte) (s : State) : State :=
  emit (.partner type body (wireLanes 4 (partnerFrame s type body)))
    { s with pair := { s.pair with frameSeq := wrapInc 16 s.pair.frameSeq } }

/-! ### The symbols of a data lane (R302, R311, R324, R329, R336, R346) -/

/-- One period of a lane's fill. -/
def fillBlock (g : Nat) (f : LaneFill) : List Symbol :=
  match f with
  | .idle => [kComma]
  | .training => trainingBlock (g / 3) (g % 3)
  | .halt => kHalt :: List.replicate 624 kComma
  | .haltTraining => (List.replicate 39 (trainingBlock (g / 3) (g % 3))).flatten ++ [kHalt]

/-- The symbols of a lane begun since `streamAt` at 6.25 Gbaud; the two of a FIRE-SYNC are not parted. -/
def laneSent (s : State) (g : Nat) : Nat :=
  let x := laneOf s g
  let k := ceilDiv ((s.now - x.streamAt) * 5) 512
  if 0 < k && x.stream[k - 1]? = some kFireSync then k + 1 else k

/-- The symbols given to a lane that it has not begun. -/
def laneRest (s : State) (g : Nat) : List Symbol := (laneOf s g).stream.drop (laneSent s g)

/-- The running disparity of a lane at the next symbol boundary (R329). -/
def laneDisparity (s : State) (g : Nat) : Bool :=
  let x := laneOf s g
  let k := laneSent s g - x.stream.length
  let b := fillBlock g x.fill
  let rd := runningDisparity x.rd (x.stream.take (laneSent s g))
  let flips := runningDisparity rd b ≠ rd && k / b.length % 2 = 1
  runningDisparity (if flips then !rd else rd) (b.take (k % b.length))

/-- From the next symbol boundary on a lane sends `l`, and then its fill. -/
def putSymbols (g : Nat) (fill : LaneFill) (l : List Symbol) (s : State) : State :=
  emit (.lane g (laneDisparity s g) l) (modLane g (fun x => { x with
    rd := laneDisparity s g, stream := l, streamAt := max s.now (x.streamAt + ceilDiv (laneSent s g * 512) 5), fill := fill }) s)

/-- Symbols are inserted between those of a lane (R302, R310). -/
def insertSymbols (g : Nat) (l : List Symbol) (s : State) : State := putSymbols g (laneOf s g).fill (l ++ laneRest s g) s

/-- Symbols follow those of a lane: frames, one after the other (R331, R336). -/
def sendSymbols (g : Nat) (l : List Symbol) (s : State) : State := putSymbols g (laneOf s g).fill (laneRest s g ++ l) s

/-- A data lane carries symbols of the module's choice: its link is in TRAINING or UP, and its PLL is locked (R328, *Table: Link
states*). -/
def laneDriven (s : State) (g : Nat) : Bool :=
  let x := linkOf s (g / 3)
  (x.state = .training || x.state = .up) && s.links.pll.getD (g / 12) true

/-- The global lanes of a bar. -/
def barLanes (b : Nat) : List Nat := (List.range 6).map fun j => 6 * b + j

/-- The counter of the free values after one is drawn (assumption 4). -/
def drawFree (s : State) : State := { s with freeN := s.freeN + 1 }

/-- The counter after several are drawn. -/
def drawFrees (k : Nat) (s : State) : State := { s with freeN := s.freeN + k }

/-- Applies `f` to every element in turn. -/
def forEach {α : Type} (l : List α) (f : α → State → State) (s : State) : State := l.foldl (fun a x => f x a) s

/-! ### The pair -/

/-- STANDBY or CATCHUP: decisions come from the active's tokens (R133, R322, R464). -/
def follows (s : State) : Bool := s.pair.state = .standby || s.pair.state = .catchup

/-- ACTIVE or SOLO: the module drives its links and answers the group address (R27, R97, R500). -/
def drives (s : State) : Bool := s.pair.state = .active || s.pair.state = .solo

/-- The partner takes decisions: ACTIVE, and the partner is heard in STANDBY or CATCHUP (R508). -/
def partnerTakes (s : State) : Bool :=
  s.pair.state = .active && !s.pair.absent && (s.pair.peerState = 2 || s.pair.peerState = 3)

/-! ### DPT messages sent (R57, R59, R62, R94) -/

/-- An address of IPv6 in the model's numbering: 2^32 and above. -/
def isV6 (addr : Nat) : Bool := 2 ^ 32 ≤ addr

/-- The largest payload of one segment to a session (R59). -/
def maxPayload (s : State) (se : Session) : Nat :=
  cfgN s Fld.network_mtu 0 - (if isV6 se.addr then 40 else 20) - 8 - 32 - (if se.auth then 16 else 0)

/-- The sack field: bit i for a segment ack + 2 + i received (R57). -/
def sackOf (se : Session) : Nat :=
  bitsOf ((List.range 32).filter fun i => se.rxAhead.contains ((se.rxAck + 2 + i) % 2 ^ 32))

/-- A DPT datagram with the fields of *Table: DPT header*; `key` where AUTH is set. -/
def dptHeader (key : Option (List Byte)) (type flags session seq ack sack credit msg off : Nat) (payload : List Byte) :
    List Byte :=
  let h := leBytes 2 0x5444 ++ leBytes 1 0x20 ++ leBytes 1 type ++ leBytes 2 (flags + if key.isSome then 4 else 0) ++
    leBytes 2 session ++ leBytes 4 seq ++ leBytes 4 ack ++ leBytes 4 sack ++ leBytes 2 credit ++ leBytes 2 payload.length ++
    leBytes 4 msg ++ leBytes 4 off ++ payload
  h ++ (key.map fun k => dptMac k h).getD []

/-- DDR5 is trained on every channel (R81). -/
def memTrained (s : State) : Bool := s.mem.trained.all id

/-- The largest credit that the module advertises (R66, R81). -/
def creditMax (s : State) : Nat :=
  if memTrained s then cfgN s Fld.network_credit_max 0 else min 64 (cfgN s Fld.network_credit_max 0)

/-- A message in reassembly is whole: its end is known, and its segments reach it (R58). -/
def isWhole (m : RxMsg) : Bool := m.last.any fun e => (m.parts.map fun q => q.2.length).sum = e

/-- The segments of a session in the reassembly and ingest buffers: of messages under way or waiting, less those that have
gone on to the memory (R66, log entry 22). -/
def heldSegments (se : Session) : Nat := (se.rx.map fun m => m.parts.length).sum - se.drained

/-- The buffers of a session have emptied as far as a credit of `c` tells (R66). -/
def drainTo (c top : Nat) (se : Session) : Session :=
  { se with drained := max se.drained ((se.rx.map fun m => m.parts.length).sum - (top - c)) }

/-- The credit that the module advertises next on a session; image blocks that wait for the flash writer lower it, by one
each: DESIGN CHOICE, log entry 22 (R66, R599). -/
def creditNow (s : State) (se : Session) : Nat := creditMax s - heldSegments se - s.update.queue.length

/-- A segment of the module as a datagram, with the present ack, sack and credit (R57, R64, R94). -/
def dptDatagram (credit : Nat) (se : Session) (x : TxSeg) : List Byte :=
  dptHeader (if se.auth then some se.key else none) x.type x.flags se.id x.seq se.rxAck (sackOf se) credit x.msg x.offset
    x.payload

/-- The segments of one message of the module: `ps` its pieces from number `k` on. -/
def messageSegs (now : Nat) (grp : Bool) (se : Session) (type mx n : Nat) : Nat → List (List Byte) → List TxSeg
  | _, [] => []
  | k, p :: ps =>
    { seq := (se.txSeq + k) % 2 ^ 32, type := type, flags := (if k = 0 then 1 else 0) + (if k + 1 = n then 2 else 0)
      msg := se.txMsg, offset := k * mx, payload := p, sentAt := now, tries := 0, group := grp } ::
        messageSegs now grp se type mx n (k + 1) ps

/-- What a datagram of the module advertises: its ack and credit (R63, R64). -/
def advertise (now credit : Nat) (se : Session) : Session :=
  { se with credit := credit, advAck := se.rxAck, unackedRx := 0, firstUnacked := none, lastTx := now }

/-- Whether the module answers what came to the group address, or to its own: the former only in ACTIVE or SOLO (R97). -/
def transmits (s : State) (group : Bool) : Bool := !group || drives s

/-- Puts out to a host; its link-layer address is asked for before the first sending (R55). -/
def emitTo (port addr : Nat) (o : Out) (s : State) : State :=
  if s.net.neighbours.contains (port, addr) then emit o s
  else emit o (emit (.resolve port addr) { s with net := { s.net with neighbours := (port, addr) :: s.net.neighbours } })

/-- Numbers a message of the module on session entry `i`, and sends it to where the session's latest accepted segment came
from; its segments wait for their acknowledgement (R62, R64, R68, R73). What belongs to the group address (`grp`) a
following module numbers as the active does, and does not send (R97, R98). -/
def sendOn (grp : Bool) (i type : Nat) (payload : List Byte) (s : State) : State :=
  let se := sessionOf s i
  if se.id = 0 then s
  else
    let mx := maxPayload s se
    let ps := if payload.isEmpty then [[]] else pieces mx payload
    let segs := messageSegs s.now grp se type mx ps.length 0 ps
    let c := creditNow s se
    let s1 := modSession i (fun e => advertise s.now c
      { e with tx := e.tx ++ segs, txSeq := (e.txSeq + ps.length) % 2 ^ 32, txMsg := (e.txMsg + 1) % 2 ^ 32 }) s
    if transmits s grp then emitTo se.port se.addr (.dpt se.port se.addr se.id type payload (segs.map (dptDatagram c se))) s1 else s1

/-- Sends a message of the module in answer to one of the host. -/
def sendDpt (i type : Nat) (payload : List Byte) (s : State) : State := sendOn (sessionOf s i).toGroup i type payload s

/-- An ACK or KEEPALIVE segment, which carries the next unused sequence number and does not use it (R62); its flags and its
message number, the next unused one likewise, are the model's (log entry 22). -/
def bareSegment (type : Nat) (se : Session) : TxSeg :=
  { seq := se.txSeq, type := type, flags := 3, msg := se.txMsg, offset := 0, payload := [], sentAt := 0, tries := 0, group := false }

/-- Sends an ACK or KEEPALIVE segment with the credit `c` (R62, R64). -/
def sendBare (type c i : Nat) (s : State) : State :=
  let se := sessionOf s i
  emitTo se.port se.addr (.datagram se.port se.addr (dptDatagram c se (bareSegment type se)))
    (modSession i (advertise s.now c) s)

/-- Sends an ACK segment with the credit `c` (R64, R66). A following module sends none to the group address; what the
active advertises there holds for its session too (R97, R98). -/
def sendAckWith (c i : Nat) (s : State) : State :=
  let se := sessionOf s i
  if se.id = 0 then s
  else if transmits s se.toGroup then sendBare 0x05 c i s
  else modSession i (advertise s.now c) s

/-- Sends an ACK segment with the present credit. -/
def sendAck (i : Nat) (s : State) : State := sendAckWith (creditNow s (sessionOf s i)) i s

/-- The module sends of its own accord on a session: on a group session only in ACTIVE or SOLO (R97). -/
def speaks (s : State) (se : Session) : Bool := !se.group || drives s

/-- Sends a message that answers none; on a group session a following module numbers it only (R97, R98). -/
def sendOwn (i type : Nat) (payload : List Byte) (s : State) : State := sendOn (sessionOf s i).group i type payload s

/-- The entries of the open sessions. -/
def openSessions (s : State) : List Nat := (List.range 4).filter fun i => (sessionOf s i).id ≠ 0

/-- The entry of an open session by its id. -/
def sessionIdx (s : State) (id : Nat) : Option Nat := (openSessions s).find? fun i => (sessionOf s i).id = id

/-! ### Events (R664 to R670, R85) -/

/-- The payload of EVENT (*Table: Message catalogue*, 0x45). -/
def eventPayload (s : State) (e : Event) : List Byte :=
  leBytes 2 e.code ++ leBytes 2 0 ++ leBytes 4 e.seq ++ stampOf s e.time ++ e.detail

/-- Raises an event whose condition arose at module time `t`: the next sequence number, the log, EVENT on every open
session (R664, R665, R666, R672, R85). -/
def raiseAt (code : Nat) (detail : List Byte) (t : Int) (s : State) : State :=
  let e : Event := { seq := s.log.nextSeq, code := code, time := t, detail := padTo 16 detail }
  let l := s.log.events ++ [e]
  let s1 := { s with log := { s.log with
    events := l.drop (l.length - 256), nextSeq := wrapInc 32 s.log.nextSeq
    unsent := if (openSessions s).isEmpty then wrapInc 32 s.log.unsent else s.log.unsent } }
  forEach (openSessions s) (fun i => sendOwn i 0x45 (eventPayload s e)) s1

/-- Raises an event whose condition arises now. -/
def raise (code : Nat) (detail : List Byte) (s : State) : State := raiseAt code detail (timeNow s) s

/-- An event that its limit holds back: not raised, counted in suppressed (R669). -/
def suppress (s : State) : State := { s with log := { s.log with suppressed := wrapInc 32 s.log.suppressed } }

/-- An event code of an index is no longer limited by what was raised before. -/
def forgetLimit (code idx : Nat) (s : State) : State :=
  { s with log := { s.log with limits := s.log.limits.filter fun e => !(e.1 = code && e.2.1 = idx) } }

/-- The limits with one entry set. -/
def setLimit (code idx last n : Nat) (l : List (Nat × Nat × Nat × Nat)) : List (Nat × Nat × Nat × Nat) :=
  (l.filter fun e => !(e.1 = code && e.2.1 = idx)) ++ [(code, idx, last, n)]

/-- Raises an event at most once in `window` for `idx`; its detail is given the count of occurrences, the suppressed
ones included (R669). -/
def raiseLimited (code idx window : Nat) (detail : Nat → List Byte) (s : State) : State :=
  match s.log.limits.find? fun e => e.1 = code && e.2.1 = idx with
  | some (_, _, last, n) =>
    if s.now < last + window then
      suppress { s with log := { s.log with limits := setLimit code idx last (n + 1) s.log.limits } }
    else raise code (detail (n + 1)) { s with log := { s.log with limits := setLimit code idx s.now 0 s.log.limits } }
  | none => raise code (detail 1) { s with log := { s.log with limits := setLimit code idx s.now 0 s.log.limits } }

/-- As `raiseLimited`, of `k` occurrences at once. -/
def raiseLimitedBy (k code idx window : Nat) (detail : Nat → List Byte) (s : State) : State :=
  match s.log.limits.find? fun e => e.1 = code && e.2.1 = idx with
  | some (_, _, last, n) =>
    if s.now < last + window then
      suppress { s with log := { s.log with limits := setLimit code idx last (n + k) s.log.limits } }
    else raise code (detail (n + k)) { s with log := { s.log with limits := setLimit code idx s.now 0 s.log.limits } }
  | none => raise code (detail k) { s with log := { s.log with limits := setLimit code idx s.now 0 s.log.limits } }

/-! ### Transitions of the module state (R19, R20, R670) -/

/-- *Table: Module state codes*. -/
def stateCode : ModState → Nat
  | .off => 0 | .boot => 1 | .config => 2 | .train => 3 | .idle => 4 | .armed => 5 | .print => 6
  | .drain => 7 | .halted => 8 | .maintenance => 9 | .shutdown => 10

/-- *Table: HEARTBEAT body*, pair_state. -/
def pairCode : PairState → Nat
  | .solo => 0 | .active => 1 | .standby => 2 | .catchup => 3 | .severed => 4 | .unpairedVersion => 5

/-- The ring states as object 0x0D01 and SESSION_ACCEPT report them. -/
def ringCode : RingState → Nat
  | .bypassed => 0 | .joining => 1 | .king => 2 | .member => 3 | .passThrough => 4

/-- The record of a transition (object 0x0000) and its event 0x0010 MODULE_STATE (R670). A transition to OFF is never
reported. -/
def setModState (st : ModState) (cause : Nat) (s : State) : State :=
  let old := s.mod.state
  let s1 := { s with mod := { s.mod with
    state := st, previous := stateCode old, cause := cause
    transitions := wrapInc 16 s.mod.transitions, since := timeNow s } }
  raise 0x0010 (leBytes 1 (stateCode old) ++ leBytes 1 (stateCode st) ++ leBytes 1 cause) s1

/-- A run is armed: ARMED, PRINT or DRAIN. -/
def inRun (s : State) : Bool := s.mod.state = .armed || s.mod.state = .print || s.mod.state = .drain

/-- A state in which a run's slots may be fired. -/
def isFiring (s : State) : Bool := s.mod.state = .print || s.mod.state = .drain

/-! ### Decision tokens (R507, R508) -/

/-- Sends a decision token when ACTIVE (*Table: Partner frame types*, 0x03). -/
def sendToken (kind : Nat) (body : List Byte) (s : State) : State :=
  if s.pair.state = .active then
    sendPartner 3 (leBytes 4 s.pair.tokenSeq ++ leBytes 1 kind ++ leBytes 3 0 ++ body)
      { s with pair := { s.pair with
        tokenSeq := wrapInc 32 s.pair.tokenSeq, tokenAny := true
        tokensSent := s.pair.tokensSent ++ [⟨s.pair.tokenSeq, kind, body⟩] } }
  else s

/-- A decision marked "On acknowledgement": it waits for the partner's acknowledgement, and takes effect at once when
the partner takes no tokens (R508). -/
def onAck (kind : Nat) (body : List Byte) (d : Decision) (f : State → State) (s : State) : State :=
  if partnerTakes s then
    let seq := s.pair.tokenSeq
    let s1 := sendToken kind body s
    { s1 with pair := { s1.pair with decisions := s1.pair.decisions ++ [(seq, d)] } }
  else f (sendToken kind body s)

/-! ### Results (R83, R86 to R91) -/

/-- The results that R88 counts before a ready one is dropped: 256, or 16 while a channel is untrained (R81). -/
def resultDepth (s : State) : Nat := if s.mem.trained.all id then 256 else 16

/-- Whether a result is ready. -/
def resultReady (r : Result) : Bool := r.body.isSome && r.time.isSome

/-- A ticket issued or accepted (R90). -/
def noteTicket (ticket : Nat) (s : State) : State :=
  { s with net := { s.net with tickets := (ticket :: s.net.tickets).take 4096 } }

/-- A result is pending (R83, R86). -/
def addPending (ticket kind : Nat) (s : State) : State :=
  let s1 := noteTicket ticket s
  { s1 with net := { s1.net with results := s1.net.results ++
    [{ ticket := ticket, kind := kind, body := none, time := none, readCount := 0, repeated := false
       dropWhenReady := false, newer := 0 }] } }

/-- The result of `ticket` has become ready: it counts as newer for the ready results held; those with as many newer
ones as R88 gives, and itself when R89 drops it, are held no longer. -/
def settleResult (ticket : Nat) (s : State) : State :=
  let rs := s.net.results.map fun r =>
    if r.ticket ≠ ticket && resultReady r then { r with newer := r.newer + 1 } else r
  let kept := rs.filter fun r => !(resultReady r && (resultDepth s ≤ r.newer || (r.ticket = ticket && r.dropWhenReady)))
  { s with net := { s.net with results := kept } }

/-- Sets the time of a result, and settles it when its body is there. -/
def timeResult (ticket : Nat) (t : Int) (s : State) : State :=
  match s.net.results.find? fun r => r.ticket = ticket with
  | none => s
  | some r =>
    let s1 := { s with net := { s.net with results := s.net.results.map fun r =>
      if r.ticket = ticket then { r with time := some t } else r } }
    if r.body.isSome then settleResult ticket s1 else s1

/-- The work of a pending result is done: its body is known, and it becomes ready now, on the partner's acknowledgement
when ACTIVE, with the RESULT token when following (R508). -/
def finishResult (ticket : Nat) (body : List Byte) (s : State) : State :=
  match s.net.results.find? fun r => r.ticket = ticket && r.body.isNone with
  | none => s
  | some r =>
    let s1 := { s with net := { s.net with results := s.net.results.map fun r =>
      if r.ticket = ticket then { r with body := some body } else r } }
    if follows s then (if r.time.isSome then settleResult ticket s1 else s1)
    else onAck 0x06 (leBytes 4 ticket ++ stampNative (timeNow s)) (.result ticket (timeNow s))
      (timeResult ticket (timeNow s)) s1

/-- An unsolicited result with the module's next ticket (*Results*). -/
def unsolicited (body : List Byte) (s : State) : State :=
  let k := s.net.nextTicket
  finishResult k body (addPending k 0x00FF
    { s with net := { s.net with nextTicket := 0x80000000 + (k + 1) % 0x80000000 } })

/-! ### Messages of the host (R76 to R84, R92, R96 to R100) -/

/-- What a message leads to: the state after it, or the reason and detail of its REJECT. -/
abbrev Verdict := Except (Nat × Nat) State

/-- The reject reasons of *Table: Reject reasons*. -/
def reasonUnknownType : Nat := 0x0001
def reasonMalformed : Nat := 0x0002
def reasonTooLong : Nat := 0x0003
def reasonWrongRole : Nat := 0x0004
def reasonWrongState : Nat := 0x0005
def reasonTicketInUse : Nat := 0x0006
def reasonControlHeld : Nat := 0x0007
def reasonSessionsFull : Nat := 0x0008
def reasonAuthRequired : Nat := 0x0009
def reasonVersion : Nat := 0x000A
def reasonNoResource : Nat := 0x000B
def reasonTicketRange : Nat := 0x000C

/-- The payload of a REJECT (R82). -/
def rejectPayload (msg type reason detail : Nat) : List Byte :=
  leBytes 4 msg ++ leBytes 1 type ++ leBytes 1 0 ++ leBytes 2 reason ++ leBytes 4 detail

/-- Sends REJECT (R82). -/
def sendReject (i msg type reason detail : Nat) (s : State) : State :=
  sendDpt i 0x06 (rejectPayload msg type reason detail) s

/-- The bytes of the on-die store in use: reassembly, unacknowledged segments, results and image blocks (R81). -/
def storeLoad (s : State) : Nat :=
  (s.net.sessions.map fun e =>
    (e.rx.map fun m => (m.parts.map fun p => p.2.length).sum).sum + (e.tx.map fun x => x.payload.length + 32).sum).sum +
  (s.net.results.map fun r => (r.body.getD []).length).sum +
  (s.update.queue.map fun j => j.data.length).sum

/-- Message types that carry a ticket as their first field and produce a result (R83). -/
def takesTicket (type : Nat) : Bool :=
  [0x0B, 0x22, 0x25, 0x28, 0x2C, 0x2D, 0x60, 0x62, 0x63].contains type

/-- The message brings a new ticket: LOOPBACK_REQ with action STOP names that of the loop-back it ends (R83, R640). -/
def bringsTicket (type : Nat) (payload : List Byte) : Bool := takesTicket type && !(type = 0x0B && fld payload 4 1 = 1)

/-- The fixed fields of a message's payload, in bytes (*Table: Message catalogue* and the tables it names). -/
def fixedLength (type : Nat) : Nat :=
  match type with
  | 0x03 => 4 | 0x08 => 4 | 0x09 => 4 | 0x0B => 32 | 0x20 => 20 | 0x21 => 8 | 0x22 => 8 | 0x23 => 4 | 0x24 => 8
  | 0x25 => 28 | 0x26 => 4 | 0x27 => 40 | 0x28 => 8 | 0x29 => 4 | 0x2A => 4 | 0x2B => 4 | 0x2C => 8 | 0x2D => 8
  | 0x2E => 36 | 0x40 => 4 | 0x42 => 4 | 0x43 => 4 | 0x60 => 264 | 0x61 => 4 | 0x62 => 4 | 0x63 => 4
  | _ => 0

/-- The types that the host may send (*Table: Message catalogue*). -/
def hostTypes : List Nat :=
  [0x01, 0x03, 0x04, 0x05, 0x08, 0x09, 0x0A, 0x0B, 0x20, 0x21, 0x22, 0x23, 0x24, 0x25, 0x26, 0x27, 0x28, 0x29, 0x2A, 0x2B,
   0x2C, 0x2D, 0x2E, 0x40, 0x42, 0x43, 0x60, 0x61, 0x62, 0x63, 0x64, 0x65]

/-- Messages that an OBSERVER session may send (R79). -/
def observerMay (type : Nat) : Bool := [0x03, 0x04, 0x05, 0x08, 0x40, 0x43].contains type

/-- Messages with side effects, which a STANDBY module refuses on its unicast address (R100). DESIGN CHOICE, log entry 22:
every type but SESSION_OPEN, SESSION_CLOSE, KEEPALIVE, ACK and STATUS_READ has some. -/
def hasSideEffects (type : Nat) : Bool := !([0x01, 0x03, 0x04, 0x05, 0x43].contains type)

/-- A module state in which no DPT message is answered (*Table: Message classes by module state*). -/
def isSilent (s : State) : Bool :=
  s.mod.state = .off || s.mod.state = .boot || s.mod.state = .config || s.mod.state = .shutdown

/-- *Table: Message classes by module state*, R80 and R592: whether the state accepts the type. -/
def stateAccepts (s : State) (type : Nat) : Bool :=
  if type = 0x03 || type = 0x04 || type = 0x05 || type = 0x40 || type = 0x42 || type = 0x43 then true
  else if type = 0x08 then !s.mod.defaultAddress
  else if 0x20 ≤ type && type ≤ 0x3F then s.mod.state = .idle || inRun s || s.mod.state = .halted
  else if 0x60 ≤ type && type ≤ 0x6F then s.mod.state ≠ .train
  else if type = 0x09 then s.mod.state = .idle || s.mod.state = .maintenance
  else if type = 0x0A then s.mod.state = .idle
  else if type = 0x0B then s.mod.state ≠ .train && !s.mod.defaultAddress
  else true

/-- A message's turn: its message_id is the next to be applied in its session, or it is a HALT_REQ not yet applied
(R76, R77, R65). -/
def isItsTurn (se : Session) (type msg : Nat) : Bool :=
  msg = se.nextApply || (type = 0x08 && !se.appliedAhead.contains msg && (msg + 2 ^ 32 - se.nextApply) % 2 ^ 32 < 2 ^ 31)

/-- The next message_id once those applied ahead of it are passed. -/
def passAhead : Nat → Nat → List Nat → Nat × List Nat
  | 0, m, l => (m, l)
  | n + 1, m, l => if l.contains m then passAhead n ((m + 1) % 2 ^ 32) (l.erase m) else (m, l)

/-- A message has been applied or rejected: the order moves on, and its segments are freed (R76). -/
def consume (msg : Nat) (se : Session) : Session :=
  let r := if msg = se.nextApply then passAhead (se.appliedAhead.length + 1) ((msg + 1) % 2 ^ 32) se.appliedAhead
           else (se.nextApply, msg :: se.appliedAhead)
  let gone := ((se.rx.filter fun m => m.msg = msg).map fun m => m.parts.length).sum
  { se with nextApply := r.1, appliedAhead := r.2, rx := se.rx.filter (fun m => m.msg ≠ msg), drained := se.drained - gone }

/-- A message of a session has been applied or rejected already (R65). -/
def isPast (se : Session) (msg : Nat) : Bool :=
  se.appliedAhead.contains msg || (0 < (se.nextApply + 2 ^ 32 - msg) % 2 ^ 32 && (se.nextApply + 2 ^ 32 - msg) % 2 ^ 32 < 2 ^ 31)

/-- A message that came to the group address or not is taken in its turn; an advertised credit of 0 that rises is told at once
(R66). -/
def takeTurn (i : Nat) (group : Bool) (msg : Nat) (s : State) : State :=
  let s1 := modSession i (fun e => { consume msg e with toGroup := group }) s
  if (sessionOf s1 i).credit = 0 && 0 < creditNow s1 (sessionOf s1 i) then sendAck i s1 else s1

/-- The ORDER entry that the active sends for a group message it applies (R506). -/
def sendOrder (group : Bool) (session msg type : Nat) (payload : List Byte) (s : State) : State :=
  if group && s.pair.state = .active then
    let e : OrderEntry := { session := session, msg := msg, type := type, crc := crc32c payload }
    sendPartner 2 (leBytes 2 session ++ leBytes 2 0 ++ leBytes 4 msg ++ leBytes 1 type ++ leBytes 3 0 ++
        leBytes 4 e.crc)
      { s with pair := { s.pair with orderSeq := wrapInc 32 s.pair.orderSeq, orderAny := true
                                     ordersSent := s.pair.ordersSent ++ [e] } }
  else s

/-- A message that R60 refuses is rejected in its place, with an ORDER entry where it came to the group address; what came
of it is not kept, so the entry's CRC-32C is that of no bytes (R506; DESIGN CHOICE, log entry 22). -/
def rejectOne (i : Nat) (m : RxMsg) (s : State) : State :=
  sendReject i m.msg m.type m.bad 0 (sendOrder m.group (sessionOf s i).id m.msg m.type [] (takeTurn i (sessionOf s i).toGroup m.msg s))

/-- Messages that R60 refuses are rejected as their turn comes, a group message on a following module in the place of its
ORDER entry (R60, R98); `n` bounds them. -/
def rejectBad : Nat → Nat → State → State
  | 0, _, s => s
  | n + 1, i, s =>
    match (sessionOf s i).rx.find? fun m => m.msg = (sessionOf s i).nextApply && m.bad ≠ 0 && !(m.group && follows s) with
    | none => s
    | some m => rejectBad n i (rejectOne i m s)

/-- The checks of *Dravnus Page Transport* before a message's own: role, state, address, store, ticket, fixed fields
(R79, R80, R81, R83, R100; their order: assumption 5). A type outside the catalogue has no check before its own (R84). -/
def admissionError (s : State) (se : Session) (group : Bool) (type : Nat) (payload : List Byte) : Option Nat :=
  if !hostTypes.contains type then none
  else if !se.control && !observerMay type then some reasonWrongRole
  else if !group && s.pair.state = .standby && hasSideEffects type then some reasonWrongState
  else if !stateAccepts s type then some reasonWrongState
  else if !memTrained s && (1048576 < payload.length || 4194304 < storeLoad s + payload.length) then
    some reasonNoResource
  else if bringsTicket type payload && 4 ≤ payload.length && 0x80000000 ≤ fld payload 0 4 then some reasonTicketRange
  else if payload.length < fixedLength type then some reasonMalformed
  else if bringsTicket type payload && s.net.results.any (fun r => r.ticket = fld payload 0 4) then some reasonTicketInUse
  else none

/-- Applies a message whose turn has come: admission, then its own meaning; a REJECT where either refuses it
(R82). The message's meaning is given the session entry and the payload. -/
def applyMessage (i : Nat) (group : Bool) (msg type : Nat) (payload : List Byte)
    (f : Nat → List Byte → State → Verdict) (s : State) : State :=
  let se := sessionOf s i
  let s1 := sendOrder group se.id msg type payload (takeTurn i group msg s)
  rejectBad se.rx.length i <|
    match admissionError s1 se group type payload with
    | some r => sendReject i msg type r 0 s1
    | none =>
      match f i payload s1 with
      | .ok s2 => modSession i (fun e => if e.id = se.id then
          { e with messagesApplied := wrapInc 32 e.messagesApplied } else e) s2
      | .error (r, d) => sendReject i msg type r d s1

/-- A group message waits on a following module for its ORDER entry; one that is there already is the same (R98, R506). Of a
SESSION_OPEN the datagram follows 17 bytes of where it came from. -/
def holdMessage (m : Nat × Nat × Nat × List Byte) (s : State) : State :=
  if s.pair.held.any fun x => x.1 = m.1 && x.2.1 = m.2.1 && (x.2.2.1 ≠ 0x01 || x.2.2.2.drop 17 = m.2.2.2.drop 17) then s
  else { s with pair := { s.pair with held := s.pair.held ++ [m] } }

/-- No message of an open session of lower id has become complete in the same instant and stands behind in the queue: it would go
first (R78). -/
def goesFirst (s : State) (session : Nat) : Bool :=
  !s.pending.any fun c => match messageOf c with
    | some (t, src) => t ≤ s.now && src.session < session && (sessionIdx s src.session).isSome
    | none => false

/-- A complete message waits for its turn on entry `i`; one that is past, or waits already, is dropped (R65, R76). -/
def keepWaiting (i : Nat) (m : Waiting) (s : State) : State :=
  let se := sessionOf s i
  if isPast se m.msg || se.waiting.any (fun x => x.msg = m.msg) then s
  else modSession i (fun e => { e with waiting := e.waiting ++ [m] }) s

/-- A complete message of the host is due: it is answered on an open session, in the session's order, or waits; a group message
waits for its ORDER entry on a following module (R76, R78, R96, R98). -/
def onMessage (t : Nat) (src : Src) (type : Nat) (payload : List Byte)
    (f : Nat → List Byte → State → Verdict) (s : State) : State :=
  let s1 := beginAt t s
  match sessionIdx s1 src.session with
  | none => s1
  | some i =>
    if isSilent s1 then s1
    else if src.group && follows s1 then holdMessage (src.session, src.msg, type, payload) s1
    else if goesFirst s1 src.session && isItsTurn (sessionOf s1 i) type src.msg then applyMessage i src.group src.msg type payload f s1
    else keepWaiting i ⟨src.msg, type, payload, src.group⟩ s1

end Sys2Proof.Machine
end

