-- ==== Sys2Proof/Machine/Copies.lean ====
section
/-! DEFINITION. The records of the flash that are kept as two copies, each with a sequence number and a CRC-32C
(21_firmware_update.md, R584, R589 to R591; 20_thermal.md, R583; 08_memory.md, R246; 13_calibration_loop.md, R418): which copy is in force,
which one the next write overwrites, and the check of each. The layouts that the spec does not give are the model's (log entry 75). -/
namespace Sys2Proof.Machine
open Sys2Proof

/-! ### Two copies -/

/-- `a` comes after `b` in the order of R62. -/
def seqAfter (a b : Nat) : Bool := let d := (a % 2 ^ 32 + 2 ^ 32 - b % 2 ^ 32) % 2 ^ 32; 0 < d && d < 2 ^ 31

/-- The place of the copy in force: the only one, or the one with the higher sequence number. -/
def laterCopy {α : Type} (seq : α → Nat) (l : List (Option α)) : Option Nat :=
  match l.getD 0 none, l.getD 1 none with
  | none, none => none
  | some _, none => some 0
  | none, some _ => some 1
  | some a, some b => some (if seqAfter (seq b) (seq a) then 1 else 0)

/-- The copy in force. -/
def copyInForce {α : Type} (seq : α → Nat) (l : List (Option α)) : Option α :=
  (laterCopy seq l).bind fun k => l.getD k none

/-- The place that the next write overwrites: that of the copy not in force. -/
def nextPlace {α : Type} (seq : α → Nat) (l : List (Option α)) : Nat := ((laterCopy seq l).map fun k => 1 - k).getD 0

/-- The sequence number of the next write. -/
def nextSeq {α : Type} (seq : α → Nat) (l : List (Option α)) : Nat := ((copyInForce seq l).map fun a => wrapInc 32 (seq a)).getD 0

/-! ### Slot state records (R589) -/

/-- The CRC-32C of a slot state record's 56 bytes before it (R589). -/
def slotCrc (seq state : Nat) (digest : List Byte) : Nat :=
  crc32c (leBytes 4 seq ++ leBytes 1 state ++ leBytes 3 0 ++ padTo 48 digest)

/-- A copy of a slot state record, where its CRC-32C holds. -/
def validSlot (r : Option SlotCopy) : Option SlotCopy := r.filter fun x => x.crc = slotCrc x.seq x.state x.digest

def slotRec (s : State) (n : Nat) : BundleSlot := s.flash.slots.getD n {}

def modSlotRec (n : Nat) (f : BundleSlot → BundleSlot) (s : State) : State :=
  { s with flash := { s.flash with slots := s.flash.slots.modify n f } }

/-- The slot state record in force; a slot with no valid copy is EMPTY (R589). -/
def slotInForce (s : State) (n : Nat) : SlotCopy :=
  (copyInForce (fun x => x.seq) ((slotRec s n).copies.map validSlot)).getD { seq := 0, state := 0, digest := [], crc := 0 }

/-- *Table: Slot states*. -/
def slotState (s : State) (n : Nat) : Nat := (slotInForce s n).state

/-- The bundle digest that a slot state record holds. -/
def slotDigest (s : State) (n : Nat) : List Byte := (slotInForce s n).digest

/-- A slot state record is written over the older copy, with the next sequence number (R589). -/
def writeSlot (n state : Nat) (digest : List Byte) (s : State) : State :=
  let l := (slotRec s n).copies.map validSlot
  let q := nextSeq (fun x => x.seq) l
  modSlotRec n (fun x => { x with
    copies := x.copies.set (nextPlace (fun x => x.seq) l)
      (some { seq := q, state := state, digest := digest, crc := slotCrc q state digest }) }) s

/-- A slot comes to a state; its digest stays. -/
def markSlot (n state : Nat) (s : State) : State := writeSlot n state (slotDigest s n) s

/-- A slot comes to a state and a digest, if they are new. -/
def putSlot (n state : Nat) (digest : List Byte) (s : State) : State :=
  if slotState s n = state && slotDigest s n = digest then s else writeSlot n state digest s

/-! ### The boot-select record (R590) -/

/-- The CRC-32C of bytes 0 to 11 of *Table: Boot-select record*. -/
def bootCrc (r : BootRec) : Nat :=
  crc32c (leBytes 4 r.seq ++ leBytes 1 r.selected ++ leBytes 1 r.previous ++ leBytes 1 r.trial ++ leBytes 1 (b2n r.confirmed) ++
    leBytes 4 0)

/-- A copy of the boot-select record, where its CRC-32C holds. -/
def validBoot (r : Option BootRec) : Option BootRec := r.filter fun x => x.crc = bootCrc x

/-- The record in force; without one, slot 0, confirmed (R591). -/
def bootRec (s : State) : BootRec :=
  (copyInForce (fun x => x.seq) (s.flash.boot.map validBoot)).getD
    { seq := 0, selected := 0, previous := 1, trial := 0, confirmed := true, crc := 0 }

/-- Both copies of the boot-select record are written, one after the other (R590). -/
def writeBoot (selected previous trial : Nat) (confirmed : Bool) (s : State) : State :=
  let r : BootRec := { seq := wrapInc 32 (bootRec s).seq, selected := selected, previous := previous, trial := trial
                       confirmed := confirmed, crc := 0 }
  let c : BootRec := { r with crc := bootCrc r }
  { s with flash := { s.flash with boot := [some c, some c] } }

/-! ### The shutdown record (R583) -/

/-- The CRC-32C of a shutdown record. -/
def shutdownCrc (r : ShutdownRecord) : Nat :=
  crc32c (leBytes 4 r.seq ++ leBytes 1 r.reading ++ sgBytes 2 r.value ++ leBytes 1 r.cause ++ sgBytes 12 r.time)

/-- A copy of the shutdown record, where its CRC-32C holds. -/
def validShutdown (r : Option ShutdownRecord) : Option ShutdownRecord := r.filter fun x => x.crc = shutdownCrc x

/-- The shutdown record in flash: of its valid copies the one written later (R583). -/
def flashRecord (s : State) : Option ShutdownRecord := copyInForce (fun x => x.seq) (s.flash.shutdown.map validShutdown)

/-- A shutdown record, with the sequence number and the CRC-32C of the next write (R583). -/
def shutdownRecord (reading : Nat) (value : Int) (cause : Nat) (time : Int) (s : State) : ShutdownRecord :=
  let r : ShutdownRecord := { reading := reading, value := value, cause := cause, time := time
                              seq := nextSeq (fun x => x.seq) (s.flash.shutdown.map validShutdown), crc := 0 }
  { r with crc := shutdownCrc r }

/-! ### Training records (R246) -/

/-- The CRC-32C of a training record. -/
def recordCrc (r : TrainRecord) : Nat :=
  crc32c (leBytes 4 r.seq ++ leBytes 16 r.dieId ++ (r.devIds.flatMap fun l => l.flatMap (leBytes 8)) ++ (r.dts.flatMap (sgBytes 2)) ++
    r.values.flatMap (leBytes 8))

/-- A copy of the training record, where its CRC-32C holds (R246). -/
def validCopy (r : Option TrainRecord) : Option TrainRecord := r.filter fun x => x.crc = recordCrc x

/-! ### The calibration store (R418) -/

/-- The bytes of a list: its length and its entries. -/
def listBytes {α : Type} (f : α → List Byte) (l : List α) : List Byte := leBytes 4 l.length ++ l.flatMap f

/-- The CRC-32C of a copy of the calibration store. -/
def storeCrc (seq : Nat) (v : CalValues) : Nat :=
  let tap (p : Nat × Int) : List Byte := leBytes 4 p.1 ++ sgBytes 4 p.2
  crc32c (leBytes 4 seq ++ listBytes (listBytes tap) v.taps ++ listBytes (listBytes (leBytes 4)) v.dead ++
    listBytes (listBytes tap) v.rank ++ listBytes (fun c => listBytes (leBytes 4) (c.getD [])) v.tone ++ listBytes (sgBytes 4) v.reg ++
    listBytes (fun p => leBytes 1 p.1.kind ++ leBytes 4 p.1.unit ++ leBytes 4 p.1.num ++ leBytes 8 p.2) v.versions)

/-- A copy of the calibration store, where its CRC-32C holds (R418). -/
def validStore (r : Option StoreCopy) : Option StoreCopy := r.filter fun x => x.crc = storeCrc x.seq x.values

end Sys2Proof.Machine
end

