-- ==== Sys2Proof/Machine/NozzleMap.lean ====
section
/-! DEFINITION. The nozzle map (06_screening_and_nozzle_map.md): which slots a link drives, which file each prints, its
rank, its stitch zones, and the groups and lanes that carry them. -/
namespace Sys2Proof.Machine
open Sys2Proof

/-- The heads of a link (R177). -/
def headsOf (c : Cfg) (k : Nat) : List Head := c.heads.getD k []

/-- The heads with the first link slot of each (R177). -/
def headBases : Nat → List Head → List (Head × Nat)
  | _, [] => []
  | base, h :: r => (h, base) :: headBases (base + h.nozzles) r

/-- The slots of a link (R177). -/
def linkSlots (c : Cfg) (k : Nat) : Nat := ((headsOf c k).map fun h => h.nozzles).sum

/-- The file that nozzle `n` of a head prints (R178). -/
def nozzleFile (h : Head) (n : Nat) : Nat :=
  if h.reversed then h.firstFile + h.nozzles - 1 - n else h.firstFile + n

/-- The nozzle of a head that prints file `x` (R178). -/
def headNozzle (h : Head) (x : Nat) : Option Nat :=
  if h.firstFile ≤ x && x < h.firstFile + h.nozzles then
    some (if h.reversed then h.firstFile + h.nozzles - 1 - x else x - h.firstFile)
  else none

/-- The slots of a link that print file `x`, in head order (R178): the lower head's first in a stitch zone. -/
def fileSlots (c : Cfg) (k x : Nat) : List Nat :=
  (headBases 0 (headsOf c k)).filterMap fun p => (headNozzle p.1 x).map (p.2 + ·)

/-- The head number, head and nozzle of a link slot (R178). -/
def slotHead (c : Cfg) (k slot : Nat) : Option (Nat × Head × Nat) :=
  ((headBases 0 (headsOf c k)).zipIdx.find? fun p => p.1.2 ≤ slot && slot < p.1.2 + p.1.1.nozzles).map
    fun p => (p.2, p.1.1, slot - p.1.2)

/-- The rank of a link slot (R178). -/
def slotRank (c : Cfg) (k slot : Nat) : Nat :=
  match slotHead c k slot with
  | some (_, h, n) => h.rankBase + n % max 1 h.rankCount
  | none => 0

/-- The file of a link slot. -/
def slotFile (c : Cfg) (k slot : Nat) : Option Nat :=
  (slotHead c k slot).map fun p => nozzleFile p.2.1 p.2.2

/-- The stitch zones of a link: first file and width (R179). -/
def stitchZones : List Head → List (Nat × Nat)
  | h :: g :: r =>
    let n := h.firstFile + h.nozzles - g.firstFile
    (if n = 0 then [] else [(g.firstFile, min n g.nozzles)]) ++ stitchZones (g :: r)
  | _ => []

/-- The links of a bar that have heads (R15, R180). -/
def barLinks (c : Cfg) (b : Nat) : List Nat := [2 * b, 2 * b + 1].filter fun k => !(headsOf c k).isEmpty

/-- The link of a bar on whose files `x` lies (R15). -/
def fileLink (b x : Nat) : Nat := if x < 53248 then 2 * b else 2 * b + 1

/-- The ranges so far, the newest first, with the files of one more head. -/
def coverHead (l : List (Nat × Nat)) (h : Head) : List (Nat × Nat) :=
  match l with
  | (a, z) :: q => if h.firstFile ≤ z then (a, max z (h.firstFile + h.nozzles)) :: q
                   else (h.firstFile, h.firstFile + h.nozzles) :: l
  | [] => [(h.firstFile, h.firstFile + h.nozzles)]

/-- The files of a link with at least one nozzle, as ranges (first, beyond the last), rising and apart. -/
def coveredRanges (l : List Head) : List (Nat × Nat) := (l.foldl coverHead []).reverse

/-- The covered files of a bar as ranges. -/
def barCovered (c : Cfg) (b : Nat) : List (Nat × Nat) :=
  coveredRanges (headsOf c (2 * b)) ++ coveredRanges (headsOf c (2 * b + 1))

/-- The number of files in ranges. -/
def rangesCount (l : List (Nat × Nat)) : Nat := (l.map fun p => p.2 - p.1).sum

/-- The files of ranges that lie from `a` up to but not including `z`. -/
def rangesWithin (a z : Nat) (l : List (Nat × Nat)) : List (Nat × Nat) :=
  (l.map fun p => (max a p.1, min z p.2)).filter fun p => p.1 < p.2

/-- Lowest and highest slot of a head whose file lies in [a, z), the head's first slot being `base`. -/
def headSpan (a z : Nat) (p : Head × Nat) : Option (Nat × Nat) :=
  let lo := max a p.1.firstFile
  let hi := min z (p.1.firstFile + p.1.nozzles)
  if lo < hi then
    if p.1.reversed then
      some (p.2 + (p.1.firstFile + p.1.nozzles - hi), p.2 + (p.1.firstFile + p.1.nozzles - 1 - lo))
    else some (p.2 + (lo - p.1.firstFile), p.2 + (hi - 1 - p.1.firstFile))
  else none

/-- The span on a link of the screened files given as ranges: its first and last group (R187). -/
def spanOf (c : Cfg) (k : Nat) (ranges : List (Nat × Nat)) : Option (Nat × Nat) :=
  let l := ranges.flatMap fun r => (headBases 0 (headsOf c k)).filterMap (headSpan r.1 r.2)
  match l with
  | [] => none
  | p :: q => some (q.foldl (fun m x => min m x.1) p.1 / 64, q.foldl (fun m x => max m x.2) p.2 / 64)

/-- The groups of a span that travel on lane `n` (R186, R187). -/
def laneGroups (span : Nat × Nat) (n : Nat) : List Nat :=
  ((List.range (span.2 + 1 - span.1)).map (span.1 + ·)).filter fun g => g % 3 = n

/-- The bytes of one line of a lane part (R187). -/
def laneLine (span : Nat × Nat) (n d : Nat) : Nat := (laneGroups span n).length * 8 * d

/-- The last group of a link. -/
def lastGroup (c : Cfg) (k : Nat) : Nat := (linkSlots c k - 1) / 64

/-- The bytes of a full lane line of a link (R187, R295). -/
def fullLaneLine (c : Cfg) (k n d : Nat) : Nat :=
  if linkSlots c k = 0 then 0 else laneLine (0, lastGroup c k) n d

/-- Whether a slot is dead: listed in heads.known_dead, or in the latched dead map (R181). -/
def slotDead (c : Cfg) (dead : List (List Nat)) (k slot : Nat) : Bool :=
  (c.knownDead.getD k []).contains slot || (dead.getD k []).contains slot

/-- A file of a bar has a nozzle that is not dead (R181). -/
def fileAlive (c : Cfg) (dead : List (List Nat)) (b x : Nat) : Bool :=
  (fileSlots c (fileLink b x) x).any fun sl => !slotDead c dead (fileLink b x) sl

/-- The dead nozzles of a link, known dead included (object 0x0420). -/
def deadSlots (c : Cfg) (dead : List (List Nat)) (k : Nat) : List Nat :=
  ((c.knownDead.getD k [] ++ dead.getD k []).eraseDups).filter (· < linkSlots c k)

/-- The dead files of a bar: those of its dead slots that no other nozzle keeps alive (R181), rising. -/
def deadFiles (c : Cfg) (dead : List (List Nat)) (b : Nat) : List Nat :=
  inOrder (· ≤ ·) (([2 * b, 2 * b + 1].flatMap fun k => (deadSlots c dead k).filterMap (slotFile c k)).eraseDups.filter
    fun x => !fileAlive c dead b x)

/-- Lines per inch of an lpi code. -/
def lpiOf (code : Nat) : Nat := if code = 0 then 1200 else if code = 1 then 600 else 300

/-- The leading bar of a bar mask: the smallest offset, the lower number on a tie (R289). -/
def leadingBar (c : Cfg) (mask : Nat) : Nat :=
  (bitList 8 mask).foldl
    (fun best b => if best = 8 || cfgNat c Fld.geometry_bar_offset b < cfgNat c Fld.geometry_bar_offset best then b
                   else best) 8

/-- The ranks a head uses (R178). -/
def headRanks (h : Head) : List Nat := (List.range (min h.rankCount h.nozzles)).map (h.rankBase + ·)

/-- The ceiling of a link in lines/s, as a fraction 600,000,000 / B_k (R305): B_k. -/
def linkBytes (c : Cfg) (k d : Nat) : Nat := 8 * d * ceilDiv (ceilDiv (linkSlots c k) 64) 3

/-- The line ceiling of a bar in lines/s (R305). -/
def barCeiling (c : Cfg) (b d : Nat) : Rat :=
  (barLinks c b).foldl (fun m k => min m ((600000000 : Rat) / linkBytes c k d))
    (min 200000 ((1000000000 : Rat) / max 1 (cfgNat c Fld.firing_min_interval b)))

end Sys2Proof.Machine
end

