-- ==== Sys2Proof/Machine/Raron.lean ====
section
/-! DEFINITION. The Raron codec (07_raron_codec.md): blocks, the dictionary, encoding and decoding with its checks. The
dictionary is the array of its entries (prefix code, final byte); entry 257 + i stands at place i. -/
namespace Sys2Proof.Machine
open Sys2Proof

/-- The entries of a dictionary (*Table: Code space*). -/
abbrev Dict := Array (Nat × Byte)

/-- `next`, the next code to be assigned. -/
def dictNext (d : Dict) : Nat := 257 + d.size

/-- The width of a code (R198). -/
def codeWidth (n : Nat) : Nat := if n < 512 then 9 else if n < 1024 then 10 else if n < 2048 then 11 else 12

/-- A full dictionary receives no further entries. -/
def dictAdd (d : Dict) (p : Nat) (b : Byte) : Dict := if dictNext d < 4096 then d.push (p, b) else d

/-- The string of a code, in front of `acc`; `n` bounds the prefixes followed. -/
def dictString (d : Dict) : Nat → Nat → List Byte → List Byte
  | 0, _, acc => acc
  | n + 1, k, acc =>
    if k < 256 then BitVec.ofNat 8 k :: acc
    else match d[k - 257]? with
      | none => acc
      | some (p, b) => dictString d n p (b :: acc)

/-- The code of the entry with the given prefix and final byte. -/
def dictFind (d : Dict) (p : Nat) (b : Byte) : Option Nat :=
  (d.findIdx? fun e => e.1 = p && e.2 = b).map (· + 257)

/-- One byte taken by the encoder: dictionary, matched code, codes written with their widths, newest first (R200). -/
def encodeByte (st : Dict × Option Nat × List (Nat × Nat)) (c : Byte) : Dict × Option Nat × List (Nat × Nat) :=
  match st with
  | (d, none, out) => (d, some c.toNat, out)
  | (d, some w, out) =>
    match dictFind d w c with
    | some e => (d, some e, out)
    | none => (dictAdd d w c, some c.toNat, (w, codeWidth (dictNext d)) :: out)

/-- The codes of a block from an empty dictionary, each with its width (R200). -/
def encodeCodes (data : List Byte) : List (Nat × Nat) :=
  match data.foldl encodeByte (#[], none, []) with
  | (d, some w, out) => ((w, codeWidth (dictNext d)) :: out).reverse
  | (_, none, out) => out.reverse

/-- One code packed: pending bits, their count, bytes written, newest first (R199). -/
def packCode (st : Nat × Nat × List Byte) (c : Nat × Nat) : Nat × Nat × List Byte :=
  let v := st.1 + c.1 * 2 ^ st.2.1
  let n := st.2.1 + c.2
  let k := n / 8
  (v / 256 ^ k, n % 8, (leBytes k v).reverse ++ st.2.2)

/-- The body bytes of a string of codes (R199). -/
def packCodes (l : List (Nat × Nat)) : List Byte :=
  let r := l.foldl packCode (0, 0, [])
  (if r.2.1 = 0 then r.2.2 else BitVec.ofNat 8 r.1 :: r.2.2).reverse

/-- A block header (*Table: Block header*). -/
def blockHeader (flags seq orig stored crc : Nat) : List Byte :=
  leBytes 1 flags ++ leBytes 1 0 ++ leBytes 2 seq ++ leBytes 4 orig ++ leBytes 4 stored ++ leBytes 4 crc

/-- A chunk stored as a RAW block with RESET (R196, R212). -/
def rawBlock (seq : Nat) (data : List Byte) : Block :=
  blockHeader 5 seq data.length data.length (crc32c data) ++ data

/-- A chunk as the module's compressors store it (R202). -/
def encodeChunk (seq : Nat) (data : List Byte) : Block :=
  let body := packCodes (encodeCodes data)
  if body.length < data.length then blockHeader 4 seq data.length body.length (crc32c data) ++ body
  else rawBlock seq data

/-- `w` bits of the body at bit `pos` (R199). -/
def bodyBits (body : Array Byte) (pos w : Nat) : Nat :=
  let at_ (i : Nat) : Nat := (body.getD (pos / 8 + i) 0).toNat
  (at_ 0 + 256 * at_ 1 + 65536 * at_ 2) / 2 ^ (pos % 8) % 2 ^ w

/-- The codes of a body decoded (R203): bytes out, newest first; the dictionary; the bits read; whether MALFORMED. `fuel`
bounds the codes read. -/
def decodeCodes (body : Array Byte) (orig stored : Nat) :
    Nat → Dict → Option Nat → List Byte → Nat → Nat → List Byte × Dict × Nat × Bool
  | 0, d, _, out, _, pos => (out, d, pos, true)
  | fuel + 1, d, prev, out, n, pos =>
    if orig ≤ n then (out, d, pos, false)
    else
      let nx := dictNext d + if prev.isSome && dictNext d < 4096 then 1 else 0
      let w := codeWidth nx
      if 8 * stored < pos + w then (out, d, pos, true)
      else
        let k := bodyBits body pos w
        if k = 256 then
          if prev.isNone then (out, d, pos + w, true) else decodeCodes body orig stored fuel #[] none out n (pos + w)
        else
          let s? : Option (List Byte) :=
            if k < dictNext d then some (dictString d 4097 k [])
            else match prev with
              | some p =>
                if k = dictNext d then
                  let sp := dictString d 4097 p []
                  some (sp ++ sp.take 1)
                else none
              | none => none
          match s? with
          | none => (out, d, pos + w, true)
          | some s =>
            let d1 := match prev with
              | some p => dictAdd d p (s.headD 0)
              | none => d
            if orig < n + s.length then (out, d1, pos + w, true)
            else decodeCodes body orig stored fuel d1 (some k) (s.reverse ++ out) (n + s.length) (pos + w)

/-- Bits at or above `pos` of the body are all 0. -/
def padClear (body : Array Byte) (stored pos : Nat) : Bool :=
  pos % 8 = 0 || bodyBits body pos (8 * stored - pos) = 0

/-- A block decoded (R203): its bytes as delivered, the dictionary after it, and the failure, 0 MALFORMED, 1 CRC. -/
def decodeBlock (flags orig stored crc : Nat) (body : List Byte) (d : Dict) : List Byte × Dict × Option Nat :=
  let d0 := if flags.testBit 2 then #[] else d
  if flags.testBit 0 then (body, d0, if crc32c body = crc then none else some 1)
  else
    let a := body.toArray
    match decodeCodes a orig stored (2 * orig + 2) d0 none [] 0 0 with
    | (out, d1, pos, bad) =>
      if bad || (pos + 7) / 8 ≠ stored || !padClear a stored pos then (out.reverse, d1, some 0)
      else (out.reverse, d1, if crc32c out.reverse = crc then none else some 1)

/-- The header checks of R194, R196, R197 and R204 for the block of number `seq` in its sequence. -/
def headerOk (b : List Byte) (seq : Nat) : Bool :=
  let flags := leNat (b.take 1)
  let orig := leNat ((b.drop 4).take 4)
  let stored := leNat ((b.drop 8).take 4)
  16 ≤ b.length && (flags.testBit 1 != flags.testBit 2) && (seq ≠ 0 || flags.testBit 2) &&
    leNat ((b.drop 2).take 2) = seq % 65536 && 1 ≤ orig && orig ≤ 65536 &&
    (if flags.testBit 0 then stored = orig else 1 ≤ stored && stored < orig)

/-- A block sequence decoded from its bytes: the original data, or the number of the block that fails (R203, R204, R211).
`fuel` bounds the blocks. -/
def decodeSequence : Nat → List Byte → Nat → Dict → Except Nat (List Byte)
  | 0, b, seq, _ => if b.isEmpty then .ok [] else .error seq
  | fuel + 1, b, seq, d =>
    if b.isEmpty then .ok []
    else if !headerOk b seq then .error seq
    else
      let stored := leNat ((b.drop 8).take 4)
      let body := (b.drop 16).take stored
      if body.length < stored then .error seq
      else match decodeBlock (leNat (b.take 1)) (leNat ((b.drop 4).take 4)) stored (leNat ((b.drop 12).take 4)) body d with
        | (_, _, some _) => .error seq
        | (out, d1, none) =>
          match decodeSequence fuel (b.drop (16 + stored)) (seq + 1) d1 with
          | .ok r => .ok (out ++ r)
          | .error e => .error e

/-- A surface tile decoded to `len` raw bytes (R105, R204), or the number of the block that fails. -/
def decodeTile (b : List Byte) (len : Nat) : Except Nat (List Byte) :=
  match decodeSequence (b.length / 17 + 1) b 0 #[] with
  | .ok r => if r.length = len then .ok r else .error 0
  | .error e => .error e

/-- The dictionary that the blocks before number i leave to it: an empty one, unless it has HISTORY_CONT (R195). -/
def dictBefore (bs : List Block) : Nat → Dict
  | 0 => #[]
  | i + 1 =>
    let cont (j : Nat) : Bool := (leNat ((bs.getD j []).take 1)).testBit 1
    if !cont (i + 1) then #[]
    else
      let b := bs.getD i []
      let stored := leNat ((b.drop 8).take 4)
      (decodeBlock (leNat (b.take 1)) (leNat ((b.drop 4).take 4)) stored (leNat ((b.drop 12).take 4)) ((b.drop 16).take stored)
        (dictBefore bs i)).2.1

/-- Block number `seq` of a lane part decoded at the fire side, with dictionary `d` before it: the bytes delivered in place of its
`expect` original ones, and the failure, 0 MALFORMED, 1 CRC. From a poisoned burst on it is MALFORMED (R204, R217, R250). -/
def decodeLaneBlock (d : Dict) (seq expect : Nat) (r : BlockRead) : List Byte × Option Nat :=
  let b := r.bytes
  let cut := r.poisoned.getD b.length
  if cut < 16 || !headerOk b seq || leNat ((b.drop 4).take 4) ≠ expect || (b.drop 16).length < leNat ((b.drop 8).take 4) then
    (List.replicate expect 0, some 0)
  else
    let flags := leNat (b.take 1)
    let stored := leNat ((b.drop 8).take 4)
    let fill (out : List Byte) : List Byte × Option Nat := (out ++ List.replicate (expect - out.length) 0, some 0)
    if cut < 16 + stored then
      if flags.testBit 0 then fill ((b.drop 16).take (cut - 16))
      else fill (decodeCodes (b.drop 16).toArray expect (cut - 16) (2 * expect + 2) (if flags.testBit 2 then #[] else d)
        none [] 0 0).1.reverse
    else
      match decodeBlock flags expect stored (leNat ((b.drop 12).take 4)) ((b.drop 16).take stored) d with
      | (out, _, some 0) => fill out
      | (out, _, e) => (out, e)

/-- The bytes a block occupies in the page store: whole 64-byte units (R205). -/
def blockSpace (b : Block) : Nat := 64 * ceilDiv b.length 64

end Sys2Proof.Machine
end

