-- ==== Sys2Proof/Machine/Compose.lean ====
section
/-! DEFINITION. Composition (05_composition.md): surfaces read and resampled, LUTs, blending, reference pixels, and the
cost of a page. -/
namespace Sys2Proof.Machine
open Sys2Proof

/-! ### Surfaces -/

/-- The columns and rows of tiles of a surface (R103). -/
def tileCols (sf : Surface) : Nat := ceilDiv sf.width sf.tileSize
def tileRows (sf : Surface) : Nat := ceilDiv sf.height sf.tileSize

/-- The tiles of a surface (R103). -/
def tileCount (sf : Surface) : Nat := tileCols sf * tileRows sf

/-- The width and height of a tile in pixels (R103). -/
def tileDims (sf : Surface) (t : Nat) : Nat × Nat :=
  (min sf.tileSize (sf.width - (t % tileCols sf) * sf.tileSize),
   min sf.tileSize (sf.height - (t / tileCols sf) * sf.tileSize))

/-- The raw bytes of a tile (R103). -/
def rawTileBytes (sf : Surface) (t : Nat) : Nat :=
  (tileDims sf t).1 * (tileDims sf t).2 * sf.channels * (sf.depth / 8)

/-- The stored bytes of a tile, none when it is absent. -/
def tileData (sf : Surface) (t : Nat) : Option (List Byte) := (sf.tiles.find? fun p => p.1 = t).map (·.2)

/-- The raw pixels of a tile: as stored, or decoded (R105, R146). -/
def tilePixels (sf : Surface) (t : Nat) : Except Nat (Array Byte) :=
  match tileData sf t with
  | none => .error 0
  | some b =>
    if sf.raron then (decodeTile b (rawTileBytes sf t)).map (·.toArray)
    else .ok b.toArray

/-- The 16-bit sample of a channel at row r, column col, from the decoded tiles (steps 2 and 3 of *Table: Composition
steps*). -/
def sampleAt (sf : Surface) (tiles : Nat → Array Byte) (r col ch : Nat) : Nat :=
  let t := (r / sf.tileSize) * tileCols sf + col / sf.tileSize
  let o := ((r % sf.tileSize) * (tileDims sf t).1 + col % sf.tileSize) * sf.channels + ch
  let a := tiles t
  if sf.depth = 8 then (a.getD o 0).toNat * 257
  else (a.getD (2 * o) 0).toNat + 256 * (a.getD (2 * o + 1) 0).toNat

/-! ### Resampling -/

/-- How a layer scales: f across, kv along, m rows averaged (R148). -/
structure Scale where
  f : Nat
  kv : Nat
  m : Nat

/-- The factors of a surface on a page of the given resolution (R148). -/
def scaleOf (sf : Surface) (lpi : Nat) : Scale :=
  { f := 1200 / max 1 sf.dpi, kv := max 1 (lpi / max 1 sf.dpi), m := max 1 (sf.dpi / lpi) }

/-- The rows of a surface after averaging (R148). -/
def avgRows (sf : Surface) (sc : Scale) : Nat := ceilDiv sf.height sc.m

/-- A bit of a layer's flags. -/
def repeatX (l : Layer) : Bool := l.flags.testBit 0
def repeatY (l : Layer) : Bool := l.flags.testBit 1
def isBilinear (l : Layer) : Bool := l.flags.testBit 2
def invertsAlpha (l : Layer) : Bool := l.flags.testBit 3

/-- An index wrapped or clamped to 0 .. n - 1 (wrapx, wrapy, srow of R148). -/
def wrapIdx (rep : Bool) (n : Nat) (i : Int) : Nat :=
  if rep then (i % (max 1 n : Nat)).toNat else (clampInt 0 ((n : Int) - 1) i).toNat

/-- The size of a layer's rectangle (R141). -/
def layerW (l : Layer) (sf : Surface) : Nat := if l.destW = 0 then sf.width * 1200 / max 1 sf.dpi else l.destW
def layerH (l : Layer) (sf : Surface) (lpi : Nat) : Nat :=
  if l.destH = 0 then ceilDiv (sf.height * lpi) (max 1 sf.dpi) else l.destH

/-- The pattern position of a layer at offsets (u, v) in its rectangle (R148). -/
def patternPos (l : Layer) (sf : Surface) (sc : Scale) (u v : Int) : Int × Int :=
  let px := (l.srcX * sc.f : Nat) + u
  let py := (l.srcY * sc.kv : Nat) + v
  (px, if repeatX l then py + (l.dropStep : Int) * (px / (max 1 (sf.width * sc.f) : Nat)) else py)

/-- Whether a layer covers file x (relative to file_start) and line y (R145). -/
def layerCovers (l : Layer) (sf : Surface) (lpi : Nat) (x y : Int) : Bool :=
  let sc := scaleOf sf lpi
  let p := patternPos l sf sc (x - l.destX) (y - l.destY)
  l.destX ≤ x && x < l.destX + layerW l sf && l.destY ≤ y && y < l.destY + layerH l sf lpi &&
    (repeatX l || (0 ≤ p.1 && p.1 < (sf.width * sc.f : Nat))) &&
    (repeatY l || (0 ≤ p.2 && p.2 < (avgRows sf sc * sc.kv : Nat)))

/-- A sample of averaged row j: the mean of m source rows (row(j) of R148). -/
def rowSample (l : Layer) (sf : Surface) (sc : Scale) (tiles : Nat → Array Byte) (j col ch : Nat) : Nat :=
  if sc.m = 1 then sampleAt sf tiles (wrapIdx (repeatY l) sf.height j) col ch
  else (((List.range sc.m).map fun i =>
    sampleAt sf tiles (wrapIdx (repeatY l) sf.height (j * sc.m + i : Nat)) col ch).sum + sc.m / 2) / sc.m

/-- The two places and the weight of bilinear interpolation along one axis (R148). -/
def bilinearPos (p : Int) (scale : Nat) : Int × Nat :=
  let s := (p * 256 + 128) / scale - 128
  (s / 256, (s % 256).toNat)

/-- The resampled sample of a channel at page position (x, y) (R148). -/
def resample (l : Layer) (sf : Surface) (lpi : Nat) (tiles : Nat → Array Byte) (x y : Int) (ch : Nat) : Nat :=
  let sc := scaleOf sf lpi
  let p := patternPos l sf sc (x - l.destX) (y - l.destY)
  let wx (i : Int) := wrapIdx (repeatX l) sf.width i
  let wy (i : Int) := wrapIdx (repeatY l) (avgRows sf sc) i
  let row (r c : Int) := rowSample l sf sc tiles (wy r) (wx c) ch
  if !isBilinear l then row (p.2 / sc.kv) (p.1 / sc.f)
  else
    let i := bilinearPos p.1 sc.f
    let j := bilinearPos p.2 sc.kv
    let top := (row j.1 i.1 * (256 - i.2) + row j.1 (i.1 + 1) * i.2 + 128) / 256
    let bot := (row (j.1 + 1) i.1 * (256 - i.2) + row (j.1 + 1) (i.1 + 1) * i.2 + 128) / 256
    (top * (256 - j.2) + bot * j.2 + 128) / 256

/-! ### LUTs and blending -/

/-- A curve evaluated at v (R151). -/
def evalCurve (e : List Nat) (v : Nat) : Nat :=
  (e.getD (v / 16) 0 * (16 - v % 16) + e.getD (v / 16 + 1) 0 * (v % 16) + 8) / 16

/-- An input LUT applied to channel ch (R150). -/
def inputLut (lut : Option Lut) (ch v : Nat) : Nat :=
  match lut with
  | none => v
  | some t =>
    if t.curves.length = 1 then evalCurve (t.curves.getD 0 []) v
    else if ch < t.curves.length then evalCurve (t.curves.getD ch []) v else v

/-- Division by 65,535, halves away from zero (R154). -/
def div65535 (p : Int) : Int := if 0 ≤ p then (p + 32767) / 65535 else -((-p + 32767) / 65535)

/-- *Table: Blend operations*. -/
def blendOp (op : Nat) (d s : Int) : Int :=
  match op with
  | 0 => s
  | 1 => max d s
  | 2 => min d s
  | 3 => min 65535 (d + s)
  | 4 => max 0 (d - s)
  | 5 => d + s - div65535 (d * s)
  | _ => 0

/-- One layer blended into a value (R154): d the value so far, s the LUT-applied sample, alpha the resampled alpha. -/
def blend (l : Layer) (d s alpha : Nat) : Nat :=
  let a0 := if l.alpha = 0xFF then 65535 else alpha
  let a1 := if invertsAlpha l then 65535 - a0 else a0
  let a := (l.opacity * a1 + 32767) / 65535
  ((d : Int) + div65535 ((blendOp l.op d s - d) * a)).toNat

/-- The channel that feeds bar b in a layer, none for 0xF (R141). -/
def layerChannel (l : Layer) (b : Nat) : Option Nat :=
  let n := l.chanMap / 16 ^ b % 16
  if n = 15 then none else some n

/-- A layer as composition reads it: its surface, its input LUT, its decoded tiles. -/
structure LayerView where
  layer : Layer
  surface : Surface
  lut : Option Lut
  tiles : Nat → Array Byte

/-- A layer's share in the value of bar b at (x, y) (steps 2 to 6). -/
def layerStep (v : LayerView) (lpi b : Nat) (x y : Int) (d : Nat) : Nat :=
  match layerChannel v.layer b with
  | none => d
  | some ch =>
    if layerCovers v.layer v.surface lpi x y then
      let s := inputLut v.lut ch (resample v.layer v.surface lpi v.tiles x y ch)
      let al := if v.layer.alpha = 0xFF then 65535 else resample v.layer v.surface lpi v.tiles x y v.layer.alpha
      blend v.layer d s al
    else d

/-- The blended values of bar b over the files of line y (steps 1 to 6, R140, R154). -/
def blendLine (vs : List LayerView) (pg : Page) (b y : Nat) : List Nat :=
  (List.range pg.fileCount).map fun (x : Nat) => vs.foldl (fun d v => layerStep v (lpiOf pg.lpi) b x y d) 0

/-- The surface of an id. -/
def surfaceOf (s : State) (id : Nat) : Option Surface := s.jobs.surfaces.find? fun f => f.id = id
/-- The LUT of an id. -/
def lutOf (s : State) (id : Nat) : Option Lut := s.jobs.luts.find? fun l => l.id = id
/-- The page of an id. -/
def pageOf (s : State) (id : Nat) : Option Page := s.jobs.pages.find? fun p => p.id = id

/-! ### The reference store (R162, R163) -/

/-- The sums of a line added to those of its row of reference pixels: one sum for each reference pixel and bar. -/
def addRefLine (f : Nat) (bars : List (List Nat)) (sums : List Nat) : List Nat :=
  let line := (pieces f (List.range ((bars.headD []).length))).flatMap fun xs =>
    bars.map fun v => (xs.map fun x => v.getD x 0).sum
  if sums.isEmpty then line else List.zipWith (· + ·) sums line

/-- The bytes of a finished row of reference pixels over `lines` lines of `files` files (R163). -/
def refRow (f lines files nb : Nat) (sums : List Nat) : List Byte :=
  sums.zipIdx.map fun p =>
    let n := max 1 (lines * min f (files - f * (p.2 / max 1 nb)))
    BitVec.ofNat 8 (min 255 (((p.1 + n / 2) / n + 128) / 256))

/-- The size of a page's whole-page reference (R162). -/
def wholeRefSize (pg : Page) : Nat :=
  ceilDiv pg.length pg.refFactor * ceilDiv pg.fileCount pg.refFactor * (bitList 8 pg.barMask).length

/-! ### Cost (R166, R167, R234, R235) -/

/-- A layer's rectangle clipped to the page: x0, x1, y0, y1, and its weight. -/
def layerRect (s : State) (pg : Page) (l : Layer) : Option (Nat × Nat × Nat × Nat × Nat) :=
  (surfaceOf s l.surface).bind fun sf =>
    let cut (a : Int) (n lim : Nat) : Nat × Nat :=
      ((clampInt 0 lim a).toNat, (clampInt 0 lim (a + n)).toNat)
    let x := cut l.destX (layerW l sf) pg.fileCount
    let y := cut l.destY (layerH l sf (lpiOf pg.lpi)) pg.length
    if x.1 < x.2 && y.1 < y.2 then
      some (x.1, x.2, y.1, y.2, if 64 < sf.channels * sf.depth then 2 else 1)
    else none

/-- The intervals between the rising cuts. -/
def intervals (l : List Nat) : List (Nat × Nat) :=
  let m := inOrder (· ≤ ·) l.eraseDups
  m.zip (m.drop 1)

/-- The composition cost of a page: max(1, ceil(W / 2)) over its pixels (R166). -/
def compositionCost (s : State) (pg : Page) : Nat :=
  let rs := pg.layers.filterMap (layerRect s pg)
  let xs := intervals ([0, pg.fileCount] ++ rs.flatMap fun r => [r.1, r.2.1])
  let ys := intervals ([0, pg.length] ++ rs.flatMap fun r => [r.2.2.1, r.2.2.2.1])
  (xs.flatMap fun x => ys.map fun y =>
    let w := (rs.map fun r =>
      if r.1 ≤ x.1 && x.2 ≤ r.2.1 && r.2.2.1 ≤ y.1 && y.2 ≤ r.2.2.2.1 then r.2.2.2.2 else 0).sum
    (x.2 - x.1) * (y.2 - y.1) * max 1 (ceilDiv w 2)).sum

/-- The screened files of a page on a bar, its margin mark included (R168, R400). -/
def screenedRanges (pg : Page) : List (Nat × Nat) :=
  (match pg.margin with
   | some (a, n) => if a < pg.fileStart then [(a, a + n), (pg.fileStart, pg.fileStart + pg.fileCount)]
                    else [(pg.fileStart, pg.fileStart + pg.fileCount), (a, a + n)]
   | none => [(pg.fileStart, pg.fileStart + pg.fileCount)])

/-- The spans of a page: link and span, for each link of its bars that holds a screened file (R187). -/
def pageSpans (c : Cfg) (pg : Page) : List (Nat × Nat × Nat) :=
  (bitList 8 pg.barMask).flatMap fun b => (barLinks c b).filterMap fun k =>
    (spanOf c k (screenedRanges pg)).map fun sp => (k, sp)

/-- The sum of the lane line lengths of a page over every lane of every bar (R166). -/
def pageLineBytes (c : Cfg) (pg : Page) : Nat :=
  ((pageSpans c pg).map fun p => ([0, 1, 2].map fun n => laneLine p.2 n pg.depth).sum).sum

/-- The cost of a page in cost units from its layer rectangles and the spans of its bars (R166); a margin mark, which its
run may add, is no part of it. -/
def computeCost (s : State) (pg : Page) : Nat :=
  max (compositionCost s pg) (pg.length * pageLineBytes s.conf.cfg { pg with margin := none } / 2)

/-- The cost of a page: the one fixed when its surfaces were first all defined (R167). -/
def pageCost (s : State) (pg : Page) : Nat := pg.cost.getD (computeCost s pg)

/-- The cost of each page whose surfaces are all defined, and were not before, is fixed (R167). -/
def fixCosts (s : State) : State :=
  { s with jobs := { s.jobs with pages := s.jobs.pages.map fun p =>
    if p.cost.isNone && p.layers.all fun l => (surfaceOf s l.surface).isSome then { p with cost := some (computeCost s p) } else p } }

/-- The raw size of a page (R121). -/
def rawPageSize (pg : Page) : Nat :=
  ((bitList 8 pg.barMask).map fun _ => ceilDiv (pg.length * pg.fileCount * pg.depth) 8).sum

/-- The extra reservation of a page for stitch slots, padding and margins (R188), each bar's rounded up to whole bytes:
the rule gives no rounding (DESIGN CHOICE, log entry 94). -/
def extraReservation (c : Cfg) (pg : Page) : Nat :=
  ((bitList 8 pg.barMask).map fun b =>
    let sl := (((pageSpans c pg).filter fun p => p.1 / 2 = b).map fun p => 64 * (p.2.2 + 1 - p.2.1)).sum
    ceilDiv (pg.length * (sl - pg.fileCount) * pg.depth) 8).sum

/-- The chunks of a page (R189, R206). -/
def pageChunks (c : Cfg) (pg : Page) : Nat :=
  ((pageSpans c pg).map fun p => ([0, 1, 2].map fun n =>
    ceilDiv (pg.length * laneLine p.2 n pg.depth) 65536).sum).sum

/-- The page-store space reserved when a page enters RENDERING (R121, R188, R206). -/
def pageReservation (c : Cfg) (pg : Page) : Nat :=
  rawPageSize pg + extraReservation c pg + 128 * pageChunks c pg

/-- The indices of an axis from `a` to `z`, as bilinear interpolation and scale by `f` read them for pattern positions p0 to p1
(R148). -/
def readSpan (l : Layer) (f : Nat) (p0 p1 : Int) : Int × Int :=
  if isBilinear l then ((bilinearPos p0 f).1, (bilinearPos p1 f).1 + 1) else (p0 / f, p1 / f)

/-- The repetitions of a layer that files x0 to before x1 of the page show: number, first and last column read, not
wrapped (R148). -/
def columnsRead (l : Layer) (sf : Surface) (sc : Scale) (x0 x1 : Nat) : List (Int × Int × Int) :=
  let w : Int := (max 1 (sf.width * sc.f) : Nat)
  let p0 : Int := (l.srcX * sc.f : Nat) + ((x0 : Int) - l.destX)
  let p1 : Int := (l.srcX * sc.f : Nat) + ((x1 : Int) - 1 - l.destX)
  if repeatX l then
    (List.range (p1 / w - p0 / w + 1).toNat).map fun (i : Nat) =>
      let q := p0 / w + i
      (q, readSpan l sc.f (max p0 (q * w)) (min p1 (q * w + w - 1)))
  else
    let a := max p0 0
    let z := min p1 (w - 1)
    if z < a then [] else [(0, readSpan l sc.f a z)]

/-- The averaged rows, not wrapped, that repetition q of a layer reads on page lines y0 to before y1; none where it shows
nothing there (R145, R148). -/
def rowsRead (l : Layer) (sf : Surface) (sc : Scale) (q : Int) (y0 y1 : Nat) : Option (Int × Int) :=
  let off : Int := (l.srcY * sc.kv : Nat) + (if repeatX l then (l.dropStep : Int) * q else 0)
  let p0 := off + ((y0 : Int) - l.destY)
  let p1 := off + ((y1 : Int) - 1 - l.destY)
  if repeatY l then some (readSpan l sc.kv p0 p1)
  else
    let a := max p0 0
    let z := min p1 ((avgRows sf sc * sc.kv : Nat) - 1 : Int)
    if z < a then none else some (readSpan l sc.kv a z)

/-- The pieces of an axis of n indices that indices lo to hi fall into: repetition, first and last index within it (R148). -/
def axisPieces (rep : Bool) (n : Nat) (lo hi : Int) : List (Int × Nat × Nat) :=
  let m : Int := (max 1 n : Nat)
  if rep then
    (List.range (hi / m - lo / m + 1).toNat).map fun (i : Nat) =>
      let r := lo / m + i
      (r, (max lo (r * m) - r * m).toNat, (min hi (r * m + m - 1) - r * m).toNat)
  else [(0, (clampInt 0 (m - 1) lo).toNat, (clampInt 0 (m - 1) hi).toNat)]

/-- The tiles from a to z of an axis. -/
def tilesFrom (ts a z : Nat) : List Nat := (List.range (z / ts + 1 - a / ts)).map fun i => a / ts + i

/-- The tile columns that columns lo to hi fall into, with their repetitions. -/
def columnTiles (l : Layer) (sf : Surface) (lo hi : Int) : List (Int × Nat) :=
  (axisPieces (repeatX l) sf.width lo hi).flatMap fun p => (tilesFrom sf.tileSize p.2.1 p.2.2).map fun t => (p.1, t)

/-- The source rows from the first of averaged row a to the last of averaged row z: those of the surface, and how many of
them wrap to its first rows (rowSample). -/
def sourceRows (l : Layer) (sf : Surface) (sc : Scale) (a z : Nat) : (Nat × Nat) × Nat :=
  let last := z * sc.m + sc.m - 1
  ((min (a * sc.m) (sf.height - 1), min last (sf.height - 1)), if repeatY l then last + 1 - sf.height else 0)

/-- The tile rows that a piece of an axis of averaged rows falls into: repetition, tile row, first and last row of the surface in
it. -/
def pieceTiles (l : Layer) (sf : Surface) (sc : Scale) (p : Int × Nat × Nat) : List (Int × Nat × Nat × Nat) :=
  let r := sourceRows l sf sc p.2.1 p.2.2
  ((tilesFrom sf.tileSize r.1.1 r.1.2).map fun t =>
    (p.1, t, max r.1.1 (t * sf.tileSize), min r.1.2 (t * sf.tileSize + sf.tileSize - 1))) ++
    (if r.2 = 0 then [] else [(p.1, 0, 0, r.2 - 1)])

/-- The tile rows that averaged rows lo to hi fall into. -/
def rowTiles (l : Layer) (sf : Surface) (sc : Scale) (lo hi : Int) : List (Int × Nat × Nat × Nat) :=
  (axisPieces (repeatY l) (avgRows sf sc) lo hi).flatMap (pieceTiles l sf sc)

/-- The tile rows that repetition q of a layer reads on page lines y0 to before y1, each once for each of their repetitions. -/
def tileRowsRead (l : Layer) (sf : Surface) (sc : Scale) (q : Int) (y0 y1 : Nat) : List (Int × Nat) :=
  match rowsRead l sf sc q y0 y1 with
  | some r => (axisPieces (repeatY l) (avgRows sf sc) r.1 r.2).flatMap fun p =>
      ((pieceTiles l sf sc p).map fun x => (x.1, x.2.1)).eraseDups
  | none => []

/-- The tiles that a layer's rectangle reads on page lines y0 to before y1, one entry for each repetition, where each
repetition has rows of its own (R145, R148, R234). -/
def droppedReads (l : Layer) (sf : Surface) (sc : Scale) (x0 x1 y0 y1 : Nat) : List ((Int × Nat) × (Int × Nat)) :=
  ((columnsRead l sf sc x0 x1).flatMap fun q => (columnTiles l sf q.2.1 q.2.2).flatMap fun c =>
    (tileRowsRead l sf sc q.1 y0 y1).map fun r => (c, r)).eraseDups

/-- How often each of n tiles of an axis occurs in a list of them. -/
def timesRead (n : Nat) (l : List (Int × Nat)) : List (Nat × Nat) :=
  (List.range n).map fun t => (t, (l.filter fun p => p.2 = t).length)

/-- How often a layer's rectangle reads each tile, by repetitions: tile column, tile row, times (R148, R234). Where every
repetition reads the same rows, the columns of all of them lie side by side. -/
def tileReads (l : Layer) (sf : Surface) (sc : Scale) (x0 x1 y0 y1 : Nat) : List (Nat × Nat × Nat) :=
  if repeatX l && l.dropStep ≠ 0 then (droppedReads l sf sc x0 x1 y0 y1).map fun p => (p.1.2, p.2.2, 1)
  else
    let qs := columnsRead l sf sc x0 x1
    match qs.head?, qs.getLast? with
    | some a, some z =>
      (timesRead (tileCols sf) (columnTiles l sf a.2.1 z.2.2)).flatMap fun c =>
        (timesRead (tileRows sf) (tileRowsRead l sf sc 0 y0 y1)).map fun r => (c.1, r.1, c.2 * r.2)
    | _, _ => []

/-- The stored bytes that a layer reads (R234); every tile at its raw size until every surface of the page is sealed. -/
def layerTraffic (s : State) (pg : Page) (sealedAll : Bool) (l : Layer) : Nat :=
  match surfaceOf s l.surface, layerRect s pg l with
  | some sf, some (x0, x1, y0, y1, _) =>
    ((tileReads l sf (scaleOf sf (lpiOf pg.lpi)) x0 x1 y0 y1).map fun p =>
      if p.2.2 = 0 then 0
      else
        let t := p.2.1 * tileCols sf + p.1
        p.2.2 * if sealedAll then ((tileData sf t).getD []).length else rawTileBytes sf t).sum
  | _, _ => 0

/-- Every surface of a page is defined and sealed (R106). -/
def surfacesSealed (s : State) (pg : Page) : Bool :=
  pg.layers.all fun l => (surfaceOf s l.surface).any fun sf => sf.sealed

/-- The memory traffic of a page: B(p) times its cost (R234). -/
def pageTraffic (s : State) (pg : Page) (full : Bool) : Nat :=
  (pg.layers.map (layerTraffic s pg (surfacesSealed s pg))).sum + rawPageSize pg + extraReservation s.conf.cfg pg +
    if full then wholeRefSize pg else 0

/-- The cost that a page is charged with: cost × max(1, B / 5.7) (R235). -/
def chargedCost (s : State) (pg : Page) (full : Bool) : Rat :=
  max (pageCost s pg : Rat) ((pageTraffic s pg full : Rat) * 10 / 57)

/-! ### Tiles read at once (R210) -/

/-- What a layer reads on line y: tiles with the first and last row read in each, once for every run of columns (R148). -/
def readsOnLine (s : State) (pg : Page) (l : Layer) (y : Nat) : List (Nat × Nat × Nat) :=
  match surfaceOf s l.surface, layerRect s pg l with
  | some sf, some (x0, x1, y0, y1, _) =>
    if y < y0 || y1 ≤ y then []
    else
      let sc := scaleOf sf (lpiOf pg.lpi)
      (columnsRead l sf sc x0 x1).flatMap fun q => match rowsRead l sf sc q.1 y (y + 1) with
        | none => []
        | some r => (rowTiles l sf sc r.1 r.2).flatMap fun p =>
            (columnTiles l sf q.2.1 q.2.2).map fun c => (p.2.1 * tileCols sf + c.2, p.2.2.1, p.2.2.2)
  | _, _ => []

/-- The tiles that a layer reads on line y, each once: number, first and last row read in it (R148). -/
def tilesOnLine (s : State) (pg : Page) (l : Layer) (y : Nat) : List (Nat × Nat × Nat) :=
  let all := readsOnLine s pg l y
  ((all.map fun p => p.1).eraseDups).map fun t =>
    let mine := all.filter fun p => p.1 = t
    (t, mine.foldl (fun a p => min a p.2.1) (mine.headD (0, 0, 0)).2.1, mine.foldl (fun a p => max a p.2.2) 0)

/-- The last row of the surface that tile t holds. -/
def lastRowOf (sf : Surface) (t : Nat) : Nat := t / tileCols sf * sf.tileSize + (tileDims sf t).2 - 1

/-- The tiles of a Raron layer that need decoding on line y: not those whose rows from the first one read on are all in
the row cache, which holds what the line before read (R210). -/
def tilesDecoded (s : State) (pg : Page) (l : Layer) (y : Nat) : List (Nat × Nat × Nat) :=
  match surfaceOf s l.surface with
  | none => []
  | some sf =>
    if !sf.raron then []
    else
      let before := if y = 0 then [] else readsOnLine s pg l (y - 1)
      let cached (t row : Nat) : Bool := before.any fun q => q.1 = t && q.2.1 ≤ row && row ≤ q.2.2
      let reads := readsOnLine s pg l y
      (tilesOnLine s pg l y).filter fun p => reads.any fun r =>
        r.1 = p.1 && !(List.range (lastRowOf sf p.1 + 1 - r.2.1)).all fun i => cached p.1 (r.2.1 + i)

/-- The Raron tiles of a page that need a decoder on line y, each once for each layer (R210). -/
def contextsOnLine (s : State) (pg : Page) (y : Nat) : Nat := (pg.layers.map fun l => (tilesDecoded s pg l y).length).sum

/-- The first line with the largest count of tiles, and the count, when it exceeds 1,024 (R210). No line reads more tiles than the
page's surfaces have. -/
def contextsExceeded (s : State) (pg : Page) : Option (Nat × Nat) :=
  if (pg.layers.map fun l => ((surfaceOf s l.surface).map fun sf => if sf.raron then tileCount sf else 0).getD 0).sum ≤ 1024 then none
  else
    let best := (List.range pg.length).foldl (fun (m : Nat × Nat) y =>
      let n := contextsOnLine s pg y
      if m.2 < n then (y, n) else m) (0, 0)
    if 1024 < best.2 then some best else none

/-! ### A line as composition reads it -/

/-- The layers of a page as read on line y; a layer whose surface is not there is left out. -/
def layerViews (s : State) (pg : Page) (y : Nat) : List LayerView :=
  pg.layers.filterMap fun l =>
    (surfaceOf s l.surface).map fun sf =>
      let dec := (tilesOnLine s pg l y).map fun p => (p.1, (tilePixels sf p.1).toOption.getD #[])
      { layer := l, surface := sf, lut := if l.lut = 0xFFFF then none else lutOf s l.lut
        tiles := fun t => ((dec.find? fun p => p.1 = t).map (·.2)).getD #[] }

/-- The first tile, in layer and tile order, that a page reads on line y and that does not decode, with the number of its
block that fails (R146, R211). -/
def badTile (s : State) (pg : Page) (y : Nat) : Option (Nat × Nat × Nat) :=
  (pg.layers.flatMap fun l => match surfaceOf s l.surface with
    | some sf => if sf.raron then (tilesOnLine s pg l y).map fun p => (sf, p.1) else []
    | none => []).findSome? fun p => match tilePixels p.1 p.2 with
    | .error k => some (p.1.id, p.2, k)
    | .ok _ => none

end Sys2Proof.Machine
end

