-- ==== Sys2Proof/Machine/RingOps.lean ====
section
/-! DEFINITION. The ring as the other families use it (16_satos_ring.md): the module's node number, its role, frames it
sends, and its bypass. -/
namespace Sys2Proof.Machine
open Sys2Proof

/-- The node number: 2 × position + side, 7 when the straps fail their parity (R470, R566). -/
def nodeNumber (s : State) : Nat := if s.power.strapValid then 2 * s.power.position + s.power.side else 7

/-- The owner word of the module (*Table: Line packet*, R333). -/
def ownerWord (s : State) : Nat := s.pair.epoch % 2 ^ 24 + 2 ^ 24 * s.power.side

/-- KING or MEMBER: the module is joined (R491). -/
def joined (s : State) : Bool := s.ring.state = .king || s.ring.state = .member

/-- The module's runs are coordinated across the ring (R491, R622). -/
def inGroup (s : State) : Bool := cfgN s Fld.ring_group 0 = 1

/-- The king of a coordinated cascade (R495). -/
def groupKing (s : State) : Bool := inGroup s && s.ring.state = .king

/-- A member of a coordinated cascade, which takes the king's decisions (R496). -/
def groupMember (s : State) : Bool := inGroup s && s.ring.state ≠ .king

/-- The nodes of the last roll other than this one. -/
def otherNodes (s : State) : List Nat := (bitList 8 s.ring.roll).filter fun n => n ≠ nodeNumber s

/-- Control and management frames, which are resent until they return (R478). -/
def resentType (type : Nat) : Bool := 0x23 ≤ type && type ≤ 0x35

/-- Sends a ring frame of the module's own with its next frame number (R474, R476, R478). -/
def ringSend (type dest : Nat) (body : List Byte) (s : State) : State :=
  let f : RingFrame := { type := type, source := nodeNumber s, dest := dest, hops := 0, seq := s.ring.seq, body := body }
  emitOwn f { s with ring := { s.ring with
    seq := wrapInc 16 s.ring.seq
    tx := if resentType type then s.ring.tx ++ [{ frame := f, sentAt := s.now, resends := 0 }] else s.ring.tx } }

/-- Sends a frame that only SOLO or ACTIVE sends for its position, while joined (R499). -/
def ringSendActive (type dest : Nat) (body : List Byte) (s : State) : State :=
  if joined s && drives s then ringSend type dest body s else s

/-- The king's partner, which would be king after a castling (R626). -/
def kingsStandby (s : State) : Bool :=
  inGroup s && s.power.strapValid && s.power.position = 0 && s.ring.state = .member && follows s

/-- A decision on a slot goes to the ring from the king; its partner keeps what it has not heard the king send (R625, R626). -/
def ringDecision (type : Nat) (body : List Byte) (s : State) : State :=
  if groupKing s then ringSendActive type 0xFF body s
  else if kingsStandby s then { s with ring := { s.ring with owed := s.ring.owed ++ [(type, body)] } }
  else s

/-- The module's bypass opens: the lanes of ring-out train the receiver after it (R473, R484). -/
def openBypass (s : State) : State :=
  emit (.portTraining 0 (portTraining 2 0xC0)) { s with ring := { s.ring with bypassClosed := false } }

/-- A change of the ring state with its event 0x0D10 RING_STATE. -/
def setRingState (st : RingState) (s : State) : State :=
  if s.ring.state = st then s
  else raise 0x0D10 (leBytes 1 (ringCode s.ring.state) ++ leBytes 1 (ringCode st))
    { s with ring := { s.ring with state := st } }

/-- Closes the module's bypass and leaves the ring in the given state; what was to be sent or opened is over (R479). -/
def closeBypass (st : RingState) (s : State) : State :=
  setRingState st { s with ring := { s.ring with
    bypassClosed := true, kingHeard := false, tx := [], attn := false
    imageTx := [], sameMajor := false, openAt := none, granted := none, tried := [], attnLine := false, leavers := []
    kingSeen := none, timeSeen := none, delayReq := none, rollSeen := none, leaving := none
    cascade := none, readySent := [], stopped := false, owed := [] } }

end Sys2Proof.Machine
end

