-- ==== Sys2Proof/Machine/RunOps.lean ====
section
/-! DEFINITION. The armed run and its slots (04_jobs_pages_runs.md): the slot states, spoils and ends, the leading bar's
position, the pages' states, and what halts, pauses and drains do to slots. No function here changes the module state. -/
namespace Sys2Proof.Machine
open Sys2Proof

/-! ### The armed run -/

def modArmed (f : Armed → Armed) (s : State) : State :=
  { s with jobs := { s.jobs with armed := s.jobs.armed.map f } }

def modSlot (n : Nat) (f : Slot → Slot) (s : State) : State :=
  modArmed (fun a => { a with slots := a.slots.map fun x => if x.num = n then f x else x }) s

def modPage (id : Nat) (f : Page → Page) (s : State) : State :=
  { s with jobs := { s.jobs with pages := s.jobs.pages.map fun p => if p.id = id then f p else p } }

/-- The bar mask of the armed run; 0 with none. -/
def runMask (s : State) : Nat := (s.jobs.armed.map fun a => a.run.barMask).getD 0

/-- The bars of the armed run, rising. -/
def runBars (s : State) : List Nat := bitList 8 (runMask s)

/-- The resolution of the armed run in lines per inch. -/
def runLpi (s : State) : Nat := (s.jobs.armed.map fun a => lpiOf a.run.lpi).getD 1200

/-- The drop depth that bounds the ceilings: of the armed run, of the last one armed, or 2 bits (object 0x0501). -/
def runDepth (s : State) : Nat := (s.jobs.armed.map fun a => a.run.depth).getD s.jobs.lastDepth

def slotOf (s : State) (n : Nat) : Option Slot := s.jobs.armed.bind fun a => a.slots.find? fun x => x.num = n

/-- The slots released and not ended. -/
def openSlots (s : State) : List Slot :=
  match s.jobs.armed with
  | none => []
  | some a => a.slots.filter fun x => !x.ended

/-- The open slots that bar b has not finished. -/
def slotsOn (s : State) (b : Nat) : List Slot := (openSlots s).filter fun x => !x.barsDone.testBit b

/-! ### The web (R275 to R279) -/

/-- The web master input of a bar, none where position.bar_input is 0xFF (R268). -/
def barInput (s : State) (b : Nat) : Option Nat :=
  let i := cfgN s Fld.position_bar_input b
  if i < 16 then some i else none

/-- The bars of the armed run that an input feeds (R269). -/
def fedBars (s : State) (i : Nat) : List Nat := (runBars s).filter fun b => barInput s b = some i

/-- A count or high-water mark as a 48-bit two's-complement value (R259). -/
def wrap48 (c : Int) : Int := toSigned 48 (ofSigned 48 c)

/-- The difference of two counts, read as a signed value (R259). -/
def countDiff (a b : Int) : Int := wrap48 (a - b)

/-- The difference of two positions with 32 fraction bits, likewise. -/
def pointDiff (a b : Int) : Int := toSigned 80 (ofSigned 80 (a - b))

/-- The speed estimate in counts/s at the first of some latched pairs, newest first, over a window; 0 with fewer than two
(R275). -/
def estimateOf (w : Nat) (l : List (Int × Nat)) : Rat :=
  match l with
  | [] => 0
  | (c, t) :: r =>
    match (r.find? fun p => p.2 + w ≤ t).orElse fun _ => r.getLast? with
    | none => 0
    | some (c0, t0) => if t0 < t then (countDiff c c0 : Rat) * 64000000000 / ((t - t0 : Nat) : Rat) else 0

/-- An input's speed estimate at its latest latched pair (R275). -/
def speedEstimate (s : State) (i : Nat) : Rat :=
  estimateOf (usT (cfgN s Fld.position_speed_window 0)) (inputOf s i).latched

/-- The reported speed in counts/s (R276): the estimate, limited while the web
slows or stops. -/
def reportedSpeed (s : State) (i : Nat) : Rat :=
  let v := speedEstimate s i
  match (inputOf s i).latched with
  | (_, t) :: (_, t1) :: _ =>
    if s.now - t ≤ t - t1 || s.now ≤ t then v
    else
      let m : Rat := 64000000000 / ((s.now - t : Nat) : Rat)
      clampRat (-m) m v
  | _ => v

/-- The measured line rate of a web master input in lines/s (R277). -/
def lineRate (s : State) (i : Nat) : Rat :=
  let sp := (inputOf s i).spacing
  if sp = 0 then 0 else max 0 (speedEstimate s i) * 4294967296 / sp

/-- Compare point n of an input, with 32 fraction bits (R279). -/
def comparePoint (x : Input) (n : Int) : Int := x.origin + n * x.spacing

/-- The line number, with fraction, of a position of an input in 2^-32 count: (position - origin) ÷ spacing (R277, R279), reckoned
from the next compare point, since positions are compared by their difference (R259). -/
def lineOf (x : Input) (p : Int) : Rat :=
  if x.spacing = 0 then 0 else x.nextLine - (pointDiff (comparePoint x x.nextLine) p : Rat) / x.spacing

/-- The line position of an input: (hwm - origin) ÷ spacing (R277). -/
def linePosition (x : Input) : Rat := lineOf x (x.hwm * 4294967296)

/-- The web master input of the run's leading bar (R115). -/
def leadInput (s : State) : Option Nat := s.jobs.armed.bind fun a => barInput s a.leadBar

/-- The leading bar's line position; 0 without a run. -/
def leadPosition (s : State) : Rat := ((leadInput s).map fun i => linePosition (inputOf s i)).getD 0

/-- The next compare point's line number at the leading bar. -/
def leadNextLine (s : State) : Int := ((leadInput s).map fun i => (inputOf s i).nextLine).getD 0

/-- The planned line rate of a run, in lines/s (R123). -/
def plannedRate (r : RunDef) : Rat := ((r.plannedSpeed * lpiOf r.lpi * 10 : Nat) : Rat) / 254

/-- The lines of a page, for the pitch of its slot. -/
def pageLength (s : State) (id : Nat) : Nat := ((pageOf s id).map fun p => p.length).getD 0

/-- The pitch of a slot that holds page `id` (*Table: Run forms*, R115). -/
def pitchOf (s : State) (r : RunDef) (id : Nat) : Nat := pageLength s id + if r.form = 1 then 0 else r.gap

/-- The release point of the next slot, once its page start is fixed (R122, R615). -/
def releasePoint (s : State) (a : Armed) : Option Int :=
  a.nextStart.map fun p =>
    if s.mod.compat && a.nextSlot = 0 then a.nGo.getD (p - a.run.releaseLead) else p - a.run.releaseLead

/-! ### Page states (R117) -/

/-- A page in RENDERED. -/
def pageRendered (s : State) (id : Nat) : Bool := (pageOf s id).any fun p => p.state = .rendered

def pageQuarantined (s : State) (id : Nat) : Bool := (pageOf s id).any fun p => p.state = .quarantined

/-- The streams kept of a page during a re-rendering (R115). -/
def oldStreams (s : State) (id : Nat) : Option (List LanePart) := (s.cal.oldParts.find? fun p => p.1 = id).map (·.2)

/-- A page whose streams may be fired: RENDERED, or its old streams during a re-rendering, unless it has become QUARANTINED (R110,
R115, R122). -/
def pageReady (s : State) (id : Nat) : Bool := pageRendered s id || ((oldStreams s id).isSome && !pageQuarantined s id)

/-- The streams that a slot fires. -/
def slotParts (s : State) (x : Slot) : List LanePart :=
  x.streams.getD (((pageOf s x.page).map fun p => p.parts).getD [])

/-- A page's reference is dropped (R165). -/
def dropReference (id : Nat) (s : State) : State := modPage id (fun p => { p with reference := [], markRef := [], refBad := [], refKind := 0 }) s

/-- The mask of the guarded regions that failed. -/
def failedRegions (p : Page) : Nat :=
  maskOf (p.verdicts.map fun v => match v with
    | some (_, false) => true
    | _ => false)

/-- A page in RENDERING returns to DEFINED: what it holds of this rendering is discarded (R137, R160, R191). The blocks
stored so far, the reference and the compressor inputs of the page are given up; its page-store reservation is kept. -/
def abandonRendering (s : State) : State :=
  match s.render.now with
  | none => s
  | some r =>
    let s1 := { s with render := { s.render with
      now := none
      compressors := s.render.compressors.map fun c => { c with input := none } } }
    if r.strip.isSome then s1
    else modPage r.page (fun p => { p with
      state := .defined, parts := [], reference := [], markRef := [], refKind := 0
      verdicts := p.verdicts.map fun _ => none, epUnresolved := none }) s1

/-! ### Slots (R117 to R119) -/

/-- The bits of *Table: Spoil reasons*. -/
def spoilBlank : Nat := 0
def spoilOverspeed : Nat := 1
def spoilHalt : Nat := 2
def spoilThermal : Nat := 3
def spoilCastled : Nat := 4
def spoilPosition : Nat := 5

/-- A spoil cause on a slot that has not ended: its reason is recorded, and the slot is SPOILED (R117, R119). -/
def spoilSlot (n bit : Nat) (s : State) : State :=
  match slotOf s n with
  | none => s
  | some x =>
    if x.ended then s
    else
      modArmed (fun a => if x.state = .spoiled then a else { a with spoiled := wrapInc 32 a.spoiled }) <|
        modSlot n (fun y => { y with state := .spoiled, reasons := y.reasons ||| 2 ^ bit }) s

/-- A slot ends: FIRED, or SPOILED with every reason recorded (R119, R132). -/
def endSlot (n : Nat) (s : State) : State :=
  match slotOf s n with
  | none => s
  | some x =>
    if x.ended then s
    else if x.state = .spoiled then
      raise 0x0316 (leBytes 4 n ++ leBytes 4 x.page ++ leBytes 1 x.reasons) (modSlot n (fun y => { y with ended := true }) s)
    else
      raise 0x0315 (leBytes 4 n ++ leBytes 4 x.page) <|
        modPage x.page (fun p => { p with firedAt := some s.now }) <|
          modArmed (fun a => { a with fired := a.fired + 1 }) <|
            modSlot n (fun y => { y with ended := true, state := .fired }) s

/-- Ends the slot once every bar of the run has finished it (R119). -/
def checkSlot (n : Nat) (s : State) : State :=
  match slotOf s n with
  | none => s
  | some x => if !x.ended && (runMask s) &&& x.barsDone = runMask s then endSlot n s else s

/-- The decompressors of bar b are done with slot n, whatever is left of the block they hold (R218, R296). -/
def endReading (b n : Nat) (s : State) : State :=
  forEach (barLanes b) (fun g => modLane g (fun x => { x with reading := x.reading.filter fun p => p.1 ≠ n })) s

/-- Bar b has sent its last line of the slot, or has stopped firing it (R119). -/
def barDone (b n : Nat) (s : State) : State :=
  checkSlot n (modSlot n (fun y => { y with barsDone := y.barsDone ||| 2 ^ b }) (endReading b n s))

/-- Bar b stops firing the slots that it has not finished, each of which takes the spoil reasons (R119, R136, R270,
R318). -/
def stopSlotsOn (b : Nat) (bits : List Nat) (s : State) : State :=
  let ns := (slotsOn s b).map fun x => x.num
  forEach ns (barDone b) (forEach ns (fun n => forEach bits (spoilSlot n)) s)

/-- Every open slot takes the reason and ends (R137). -/
def spoilAll (bit : Nat) (s : State) : State :=
  let ns := (openSlots s).map fun x => x.num
  forEach ns endSlot (forEach ns (fun n => spoilSlot n bit) s)

/-- Every slot in FIRING takes the reason (R514, R516). -/
def spoilFiring (bit : Nat) (s : State) : State :=
  forEach (((openSlots s).filter fun x => x.state = .firing).map fun x => x.num) (fun n => spoilSlot n bit) s

/-! ### Owner words -/

/-- The owner word that stands for no owner (*Table: STATUS frame*). -/
def noOwner : Nat := 0xFFFFFFFF

/-- Two owner words name the same owner: their reserved bits [31:25] are not read, except that all ones stand for none
(R12, *Table: STATUS frame*). -/
def sameOwner (a b : Nat) : Bool := (a = noOwner) == (b = noOwner) && a % 2 ^ 25 = b % 2 ^ 25

/-! ### Halts (R310, R311) -/

/-- The bar is halted (R311). -/
def halted (s : State) (b : Nat) : Bool := (barOf s b).haltCause ≠ 0

/-- A bar of the run is halted. -/
def anyHalted (s : State) : Bool := (runBars s).any (halted s)

/-- Every bar of the run is halted (R20). -/
def allHalted (s : State) : Bool := runMask s ≠ 0 && (runBars s).all (halted s)

/-- A bar of the run is paused (R317). -/
def anyPaused (s : State) : Bool := (runBars s).any fun b => (barOf s b).paused

/-- HALT on a lane that carries symbols, at the next symbol boundary and then once in a microsecond; a line packet ends there
(R310, R311, R346). -/
def haltLane (packet : Bool) (g : Nat) (s : State) : State :=
  let fill : LaneFill := if (laneOf s g).fill = .training || (laneOf s g).fill = .haltTraining then .haltTraining else .halt
  putSymbols g fill (kHalt :: if packet then [] else laneRest s g) s

/-- HALT on some lanes, where they carry a signal. -/
def haltLanes (packet : Bool) (l : List Nat) (s : State) : State := forEach (l.filter (laneDriven s)) (haltLane packet) s

/-- The HALT symbols of a bar, which the module sends only where it drives its links (R27, R310, R346, R500). -/
def sendHalt (b : Nat) (s : State) : State := if drives s then haltLanes (barOf s b).packet.isSome (barLanes b) s else s

/-- A lane that carries HALT carries idle or training blocks again (R311, R500). -/
def endHalt (g : Nat) (s : State) : State :=
  match (laneOf s g).fill with
  | .halt => putSymbols g .idle [kComma] s
  | .haltTraining => putSymbols g .training (trainingBlock (g / 3) (g % 3)) s
  | _ => s

/-- No lane carries HALT any more. -/
def endHalts (s : State) : State := forEach (List.range 48) endHalt s

/-- A halt takes effect on a bar: HALT on its lanes, no packet and no FIRE-SYNC from now on, event 0x0514 BAR_HALTED for a
bar of the run, and its slots stopped with the reasons (R310, R311, R136, R270). -/
def haltBar (b cause : Nat) (bits : List Nat) (s : State) : State :=
  if halted s b then s
  else
    let s1 := modBar b (fun x => { x with haltCause := cause, pendingSync := [], packet := none }) (sendHalt b s)
    if (runBars s).contains b then
      stopSlotsOn b bits (raise 0x0514 (leBytes 1 b ++ leBytes 1 cause) s1)
    else s1

end Sys2Proof.Machine
end

