-- ==== Sys2Proof/Machine/PosOps.lean ====
section
/-! DEFINITION. Position inputs as the other families use them (09_web_position.md): counts, the line-position value, and
the level of a discrete input. -/
namespace Sys2Proof.Machine
open Sys2Proof

/-- A rational rounded down to 32 fraction bits. -/
def floor32 (q : Rat) : Rat := (((q * 4294967296).floor : Int) : Rat) / 4294967296

/-- A rational rounded to 32 fraction bits (R5). -/
def fix32 (q : Rat) : Rat := ((roundRat (q * 4294967296) : Int) : Rat) / 4294967296

/-- The input is one of the SSI modes (*Table: Position input modes*). -/
def isSsi (s : State) (i : Nat) : Bool := 2 ≤ cfgN s Fld.position_mode i

/-- The count latched at or before a date; the oldest held when none is. -/
def countAt (s : State) (i date : Nat) : Int :=
  let x := inputOf s i
  match (x.latched.find? fun p => p.2 ≤ date).orElse fun _ => x.latched.getLast? with
  | some p => p.1
  | none => x.count

/-- The bound of extrapolation beyond hwm, in counts, after a step of the last SSI frame (R280). -/
def boundAfter (s : State) (i : Nat) (step : Int) : Int := if isSsi s i then max 1 step else 1

/-- The bound of extrapolation beyond hwm, in counts (R280). -/
def extrapolationBound (s : State) (i : Nat) : Int := boundAfter s i (inputOf s i).ssiStep

/-- hwm and reversed as they stood with the last `r` latched pairs taken away, and the step of an SSI frame that came last
then. -/
def markThen (x : Input) (r : Nat) : (Int × Bool) × Int :=
  if r = 0 then ((x.hwm, x.reversed), x.ssiStep)
  else
    let c := (x.latched.getD r (x.count, 0)).1
    (x.marks.getD r (c, false), countDiff c (x.latched.getD (r + 1) (c, 0)).1)

/-- The line-position value of an input at a date: hwm plus the fraction that is extrapolated from the pair latched last
by then, with 32 fraction bits (R280, R287). Before the oldest pair held it is that pair's count: log entry 42. -/
def linePosValue (s : State) (i date : Nat) : Rat :=
  let x := inputOf s i
  let r := (x.latched.takeWhile fun p => date < p.2).length
  let m := markThen x r
  match x.latched.drop r with
  | [] => ((x.latched.getLast?.map (·.1)).getD x.hwm : Int)
  | (c, t) :: l =>
    let v := estimateOf (usT (cfgN s Fld.position_speed_window 0)) ((c, t) :: l)
    if cfgN s Fld.position_extrapolate 0 = 1 && !m.1.2 && 0 < v then
      floor32 (m.1.1 + min (v * ((date - t : Nat) : Rat) / 64000000000) (boundAfter s i m.2 - 1 / 4294967296))
    else m.1.1

/-- The difference of two line-position values (R259). -/
def posDiff (a b : Rat) : Rat := (pointDiff ((a - b) * 4294967296).floor 0 : Rat) / 4294967296

/-- The accepted level of discrete input `d`; inactive for 0xFF (R286, R452). -/
def dinActive (s : State) (d : Nat) : Bool := (s.pos.dins.getD d {}).level && d < 24

/-- An auxiliary channel's action is a gear change of axis a (R461). -/
def auxOfAxis (a : Nat) (c : Option Aux) : Bool :=
  match c with
  | some x => x.action == .gearChange a
  | none => false

/-- The first free auxiliary channel takes `x` (R284); none changes when all are in use. -/
def addAux (x : Aux) (s : State) : State :=
  match s.pos.aux.findIdx? fun c => c.isNone with
  | some k => { s with pos := { s.pos with aux := s.pos.aux.set k (some x) } }
  | none => s

/-- The channels for which `f` holds are released (R284). -/
def dropAux (f : Option Aux → Bool) (s : State) : State :=
  { s with pos := { s.pos with aux := s.pos.aux.map fun c => if f c then none else c } }

end Sys2Proof.Machine
end

