-- ==== Sys2Proof/Machine/MotionOps.lean ====
section
/-! DEFINITION. Motion axes (15_motion.md): requests and their results, the entries of the axis states, and the profile
formula. -/
namespace Sys2Proof.Machine
open Sys2Proof

/-- The codes of *Table: Object 0x0C01 axis_status*, state. -/
def axisCode : AxisState → Nat
  | .off => 0 | .hold => 1 | .moving => 2 | .homing => 3 | .geared => 4 | .stopping => 5 | .fault => 6

/-- The module states in which motion is on (R446). -/
def motionOn (st : ModState) : Bool :=
  st = .idle || st = .armed || st = .print || st = .drain || st = .halted

/-- The outcomes of *Table: MOVE_REQUEST result body*. -/
def moveDone : Nat := 0
def moveStopped : Nat := 1
def moveEstopped : Nat := 2
def moveFault : Nat := 3
def moveSuperseded : Nat := 4
def moveHomingFailed : Nat := 5
def moveApplied : Nat := 6

/-- The result body of a motion request (*Table: MOVE_REQUEST result body*). -/
def moveBody (s : State) (outcome flags : Nat) (pos reversal : Rat) (overshoot maxDev : Nat) : List Byte :=
  leBytes 1 outcome ++ leBytes 1 flags ++ leBytes 2 0 ++ sgBytes 8 (roundRat pos) ++ sgBytes 8 (roundRat reversal) ++
    leBytes 4 overshoot ++ leBytes 4 maxDev ++ stampOf s (timeNow s)

/-- The result body of a request that reports only the position (R468). -/
def plainBody (s : State) (a outcome flags : Nat) : List Byte := moveBody s outcome flags (axisOf s a).p 0 0 0

/-- The request in progress on axis a ends with an outcome (R449, R468). -/
def endReq (a outcome : Nat) (s : State) : State :=
  let x := axisOf s a
  match x.req with
  | none => s
  | some r =>
    let flags := b2n r.deferred + 2 * b2n r.reversed + 4 * b2n r.late
    let ovr := if r.reversed then (roundRat (absRat (r.reversal - r.retargetAt.getD r.reversal))).toNat else 0
    finishResult r.ticket (moveBody s outcome flags x.p (if r.reversed then r.reversal else 0) ovr r.maxDev)
      (modAxis a (fun y => { y with req := none }) s)

/-- The pending gear change of axis a ends with an outcome, and its auxiliary channel is released (R461, R468). -/
def endChange (a outcome : Nat) (s : State) : State :=
  match (axisOf s a).change with
  | none => s
  | some c =>
    finishResult c.ticket (moveBody s outcome (4 * b2n c.late) (axisOf s a).p 0 0 c.maxDev)
      (dropAux (auxOfAxis a) (modAxis a (fun y => { y with change := none }) s))

/-- A request is in progress on axis a. -/
def putReq (a ticket : Nat) (retargetAt : Option Rat) (s : State) : State :=
  let r : AxisReq := { ticket := ticket, deferred := false, reversed := false, late := false, reversal := 0
                       retargetAt := retargetAt, maxDev := 0 }
  modAxis a (fun x => { x with req := some r }) s

/-- A request is in progress on axis a: its result is pending. -/
def beginReq (a ticket : Nat) (retargetAt : Option Rat) (s : State) : State :=
  putReq a ticket retargetAt (addPending ticket 0x2D s)

/-- The axis enters HOLD, at rest (R445). -/
def enterHold (a : Nat) (s : State) : State :=
  modAxis a (fun x => { x with state := .hold, v := 0, a := 0, jog := none, home := none, gear := none, latchDue := none
                               stopDue := none, track := [], holdSince := s.now, holdCurrent := false }) s

/-- The axis leaves what it does for OFF, without a ramp (R445, R446). -/
def axisOff (a : Nat) (s : State) : State :=
  modAxis a (fun x => { x with state := .off, v := 0, a := 0, jog := none, home := none, gear := none, latchDue := none
                               stopDue := none, track := [], stallSince := none, duty := none, holdCurrent := false })
    (endChange a moveStopped (endReq a moveStopped s))

/-- Every axis enters OFF (R446). -/
def axesOff (s : State) : State := forEach (List.range 12) axisOff s

/-- On entry into BOOT, every axis loses its position and its homed flag (R446). -/
def axesLose (s : State) : State :=
  { s with axes := s.axes.map fun x => { x with p := 0, target := 0, homed := false, countRef := 0, refPos := 0, deviation := 0,
                                                referenced := false, estopReq := none, lag := 0, req := none, change := none } }

/-- The decision token AXIS (*Table: Decision tokens*, 0x0A). -/
def axisToken (a event : Nat) (value : Int) (s : State) : State :=
  sendToken 0x0A (leBytes 1 a ++ leBytes 1 event ++ sgBytes 8 value) s

/-- The axis enters FAULT: 1 stall, 2 encoder, 3 bus low, 4 bus high (R453, R456, R457). -/
def axisFault (a cause : Nat) (s : State) : State :=
  if (axisOf s a).state = .fault then s
  else
    raise 0x0C10 (leBytes 1 a ++ leBytes 1 cause) <| endChange a moveFault <| endReq a moveFault <|
      modAxis a (fun x => { x with
        state := .fault, faultCause := cause, v := 0, a := 0, jog := none, home := none, gear := none
        latchDue := none, stopDue := none, track := [], stallSince := none, duty := none, holdCurrent := false
        stalls := if cause = 1 then wrapInc 16 x.stalls else x.stalls
        homed := if cause = 1 then false else x.homed }) s

/-- An emergency stop: 1 ESTOP, 2 limit, 3 halt. The axis brakes from the next profile period; at OFF and FAULT there is
nothing to brake (R451, R453). -/
def axisEstop (a cause : Nat) (s : State) : State :=
  let x := axisOf s a
  if x.state = .off || x.state = .fault then s
  else
    endChange a moveEstopped <| endReq a moveEstopped <|
      modAxis a (fun y => { y with
        state := .stopping, stopCause := cause, jog := none, home := none, gear := none, latchDue := none
        stopDue := none, track := [], estops := wrapInc 16 y.estops }) s

/-- A fault that the module finds itself: a module that follows takes it from the active's tokens (R464). -/
def ownFault (a cause : Nat) (s : State) : State :=
  if follows s || (axisOf s a).state = .fault then s else axisFault a cause (axisToken a 0 cause s)

/-- Nothing on axis a can be braked. -/
def atRest (s : State) (a : Nat) : Bool := (axisOf s a).state = .off || (axisOf s a).state = .fault

/-- An emergency stop that the module takes itself (R464). -/
def ownEstop (a cause : Nat) (s : State) : State :=
  if follows s || atRest s a then s else axisEstop a cause (axisToken a 1 cause s)

/-- A limit or the entry into HALTED stops axis a: the next profile period acts on it, after the faults (R451, R453). -/
def requestStop (a cause : Nat) (s : State) : State :=
  if follows s || atRest s a then s else modAxis a (fun x => { x with stopDue := some (x.stopDue.getD cause) }) s

/-- The emergency stop that is due on axis a comes before a homing latch and messages (R453). -/
def stopFirst (a : Nat) (s : State) : State :=
  match (axisOf s a).stopDue with
  | some c => ownEstop a c s
  | none => s

/-- The request of an ESTOP that waited for its token (R464). -/
def takeEstopReq (a : Nat) (s : State) : State :=
  match (axisOf s a).estopReq with
  | some k => putReq a k none (modAxis a (fun x => { x with estopReq := none }) s)
  | none => s

/-- An emergency stop by the active's token (R464). -/
def estopByToken (a cause : Nat) (s : State) : State :=
  if cause = 1 then takeEstopReq a (axisEstop a cause s) else axisEstop a cause s

/-! ### The profile (R447) -/

/-- One bit of the integer square root: the root so far grows by 2^k when its square still fits. -/
def isqrtFrom (n : Nat) : Nat → Nat → Nat
  | 0, r => r
  | k + 1, r => isqrtFrom n k (if (r + 2 ^ k) * (r + 2 ^ k) ≤ n then r + 2 ^ k else r)

/-- A square root, rounded down to 32 fraction bits. -/
def sqrtRat (q : Rat) : Rat := ((isqrtFrom ((q * 2 ^ 64).floor).toNat 96 0 : Nat) : Rat) / 4294967296

/-- The distance from speed v and acceleration a, both along the motion, to rest (R447). -/
def stopDist (v a D J : Rat) : Rat :=
  if J = 0 then v * v / (2 * D)
  else if a < 0 && J * v < a * a / 2 then
    let t := (-a - sqrtRat (a * a - 2 * J * v)) / J
    v * t + a * t * t / 2 + J * t * t * t / 6
  else
    let m := min D (sqrtRat (J * v + a * a / 2))
    let t1 := max 0 ((a + m) / J)
    let v1 := v + a * t1 - J * t1 * t1 / 2
    let d1 := v * t1 + a * t1 * t1 / 2 - J * t1 * t1 * t1 / 6
    let t3 := m / J
    let t2 := if m = D then max 0 ((v1 - m * m / (2 * J)) / D) else 0
    let v2 := v1 - m * t2
    d1 + (v1 * t2 - m * t2 * t2 / 2) + (v2 * t3 - m * t3 * t3 / 2 + J * t3 * t3 * t3 / 6)

/-- What one profile period gives: position, speed, acceleration. -/
structure Motion where
  p : Rat
  v : Rat
  a : Rat
  deriving DecidableEq, Repr, Inhabited

/-- T = 10 µs, in seconds. -/
def profileT : Rat := 1 / 100000

/-- The jerk in force: 0 for a trapezoidal profile. -/
def jerkOf (q : Params) : Rat := if q.jerkLimited then q.jerk else 0

/-- One profile period towards sign `s`, over distance `dist` (none: infinite), with top speed V (R447). While the axis
brakes before a reversal, V does not bound it (R449). -/
def profileStep (V A D J : Rat) (s : Rat) (dist : Option Rat) (m : Motion) : Motion :=
  let away := m.v ≠ 0 && signRat m.v ≠ s
  let goal : Rat :=
    if away then -(signRat m.v) * D
    else if dist.any fun d => d ≤ stopDist (absRat m.v) (s * m.a) D J then -s * D
    else if absRat m.v < V then s * A
    else 0
  let a1 := if J = 0 then goal else m.a + clampRat (-(J * profileT)) (J * profileT) (goal - m.a)
  let lim := if away then max V (absRat m.v) else V
  let v1 := clampRat (-lim) lim (m.v + a1 * profileT)
  let zero := goal = -(signRat m.v) * D && signRat v1 ≠ signRat m.v
  let v2 := if zero then 0 else v1
  { p := fix32 (m.p + (m.v + v2) / 2 * profileT), v := v2, a := if zero then 0 else a1 }

/-- The arrival rule of R447. -/
def arrives (target D : Rat) (m : Motion) : Bool := absRat (target - m.p) < 1 && absRat m.v ≤ D * profileT

/-- A period towards a target, arrival included. -/
def profileTo (V : Rat) (q : Params) (target : Rat) (m : Motion) : Motion :=
  let r := profileStep V q.accel q.decel (jerkOf q) (signRat (target - m.p)) (some (absRat (target - m.p))) m
  if arrives target q.decel r then { p := target, v := 0, a := 0 } else r

/-- A period of braking at rate D, trapezoidally (R451). -/
def brakeStep (D : Rat) (m : Motion) : Motion :=
  let v1 := m.v - signRat m.v * D * profileT
  let v2 := if signRat v1 ≠ signRat m.v then 0 else v1
  { p := fix32 (m.p + (m.v + v2) / 2 * profileT), v := v2, a := if v2 = 0 then 0 else -(signRat m.v) * D }

/-! ### Encoders (R457) -/

/-- The encoder of an axis, none without one. -/
def axisEncoder (s : State) (a : Nat) : Option Nat :=
  let i := cfgN s Fld.motion_encoder_input a
  if i < 16 then some i else none

/-- The position that an encoder count stands for. -/
def encoderAt (s : State) (a : Nat) (count : Int) : Rat :=
  (axisOf s a).refPos + ((countDiff count (axisOf s a).countRef * cfgI s Fld.motion_enc_ratio a : Int) : Rat) / 65536

/-- The axis position at a date, for a homing latch or a frame: the encoder's where there is one, otherwise the commanded
one, of the profile period that the date falls in (R459, R463). -/
def axisPosAt (s : State) (a date : Nat) : Rat :=
  match axisEncoder s a with
  | some i => encoderAt s a (countAt s i date)
  | none => (((axisOf s a).track.find? fun e => e.1 ≤ date).map fun e => e.2).getD (axisOf s a).p

/-- Motion is on for axis a (R445, R446). -/
def axisEnabled (s : State) (a : Nat) : Bool := motionOn s.mod.state && cfgN s Fld.motion_enable a = 1

/-- POSITION_FAULT of input i puts the axes whose encoder it is into FAULT at once (R457). -/
def encoderFault (i : Nat) (s : State) : State :=
  forEach ((List.range 12).filter fun a => axisEnabled s a && axisEncoder s a = some i) (fun a => ownFault a 2) s

/-- Deviation of the commanded position from the encoder (R457). -/
def axisDev (s : State) (a i : Nat) : Rat := (axisOf s a).p - encoderAt s a (inputOf s i).count

end Sys2Proof.Machine
end

