-- ==== Sys2Proof/Machine/SessionOps.lean ====
section
/-! DEFINITION. DPT sessions as the other families use them (03_host_transport.md): their closing, and what an
acknowledgement removes. -/
namespace Sys2Proof.Machine
open Sys2Proof

/-- A free entry; the counters of the entry stay (R74, R660). A complete message that still waits for a lower message_id is
discarded with the session, like the incompletely received ones (R74): DESIGN CHOICE, log entry 22. -/
def freedSession (se : Session) : Session :=
  { credit := se.credit, retransmits := se.retransmits, overCredit := se.overCredit, authFailures := se.authFailures
    messagesApplied := se.messagesApplied }

/-- Closes session entry `i`, telling the host why (*Table: Message catalogue*, 0x03): what it holds of incomplete
messages and unsent segments is discarded, and nothing else (R74). -/
def closeSession (i reason : Nat) (s : State) : State :=
  modSession i freedSession (sendOwn i 0x03 (leBytes 2 reason ++ leBytes 2 0) s)

/-- The reasons of SESSION_CLOSE. -/
def closeTimeout : Nat := 1
def closeLost : Nat := 2
def closeTakenOver : Nat := 3
def closeRestart : Nat := 4

/-- Every session ends without a word: the network is switched off (R554). -/
def dropSessions (s : State) : State :=
  { s with net := { s.net with sessions := s.net.sessions.map freedSession, hosts := [], neighbours := [] } }

/-- Whether an acknowledgement covers a sequence number (R57, R63). -/
def ackCovers (ack sack seq : Nat) : Bool :=
  (ack + 2 ^ 32 - seq) % 2 ^ 32 < 2 ^ 31 ||
    (let d := (seq + 2 ^ 32 - (ack + 2)) % 2 ^ 32
     d < 32 && sack.testBit d)

/-- The fields ack, sack and credit of an arriving segment (R57, R67, R68). -/
def applyAck (ack sack credit : Nat) (se : Session) : Session :=
  { se with tx := se.tx.filter fun x => !ackCovers ack sack x.seq, hostCredit := credit }

end Sys2Proof.Machine
end

