-- ==== Sys2Proof/Machine/LinkOps.lean ====
section
/-! DEFINITION. Head links and cameras as the other families use them (11_tollos_link.md, 12_inspection_cameras.md): a
link's entry into training and its departures from UP, and the release of camera channels. -/
namespace Sys2Proof.Machine
open Sys2Proof

/-- *Table: Object 0x0412 link_status*, state. -/
def linkCode : LinkState → Nat
  | .disabled => 0 | .training => 1 | .up => 2 | .idleOnly => 3

/-- A domain is on (object 0x0101 domains_on). -/
def domainOn (s : State) (d : Nat) : Bool := s.power.domainsOn.contains d

/-- The domain of a link (*Table: Power domains*). -/
def linkDomain (k : Nat) : Nat := if k < 8 then 3 else 4

/-- A link that may train: enabled, with heads, its domain on (*Table: Link states*). -/
def linkEnabled (s : State) (k : Nat) : Bool :=
  cfgN s Fld.heads_link_enable k = 1 && !(headsOf s.conf.cfg k).isEmpty && domainOn s (linkDomain k)

/-- The PLL of a link is locked (R328). -/
def linkPll (s : State) (k : Nat) : Bool := s.links.pll.getD (k / 4) true

def linkUp (s : State) (k : Nat) : Bool := (linkOf s k).state = .up

/-- A link as it starts to train: nothing of an earlier episode counts (R342, R343, R344). -/
def trained (now : Nat) (x : Link) : Link :=
  { x with state := .training, goodFrames := 0, trainSince := now, timeoutRaised := false, miscabled := none
           countRaised := none, joinNext := false }

/-- The lanes of a link forget their last OWNER frames. -/
def forgetOwner (k : Nat) (s : State) : State :=
  forEach [3 * k, 3 * k + 1, 3 * k + 2] (fun g => modLane g fun x => { x with ownerSent := none }) s

/-- Training blocks on each data lane of link k, while its PLL drives it; with HALT where its bar is halted (R328, R339,
R342, R346). -/
def sendTraining (k : Nat) (s : State) : State :=
  if !linkPll s k then s
  else
    let fill : LaneFill := if (barOf s (k / 2)).haltCause ≠ 0 && drives s then .haltTraining else .training
    forEach [0, 1, 2] (fun l => putSymbols (3 * k + l) fill (trainingBlock k l)) s

/-- A link has come UP: its training blocks give way to idle, or on a halted bar to HALT (R311, R342). -/
def endTraining (k : Nat) (s : State) : State :=
  let fill : LaneFill := if (barOf s (k / 2)).haltCause ≠ 0 && drives s then .halt else .idle
  forEach [0, 1, 2] (fun l => putSymbols (3 * k + l) fill [kComma]) s

/-- The lanes of a link start: their running disparity is negative (R329). -/
def startLanes (k : Nat) (s : State) : State :=
  forEach [3 * k, 3 * k + 1, 3 * k + 2] (fun g => modLane g fun x => { x with
    rd := false, stream := [], streamAt := s.now, fill := .idle }) s

/-- Link k starts to train (*Table: Link states*). -/
def startTraining (k : Nat) (s : State) : State :=
  sendTraining k (startLanes k (forgetOwner k (modLink k (trained s.now) s)))

/-- Link k leaves UP for TRAINING with a cause (R345), and carries training blocks, unless its PLL is unlocked or it is disabled;
what it means for the bar is `linkLost`. -/
def leaveUp (k cause : Nat) (s : State) : State :=
  let s1 := raise 0x0411 (leBytes 1 k ++ leBytes 1 cause) <| forgetOwner k <|
    modLink k (fun x => { trained s.now x with
      downCause := cause, linkDowns := wrapInc 16 x.linkDowns
      heads := x.heads.map fun q => { q with brokenRaised := false } }) s
  if cause = 6 || cause = 7 then s1 else sendTraining k s1

/-- Link k enters DISABLED, with cause 7 when it was UP (*Table: Link down causes*). -/
def disableLink (k : Nat) (s : State) : State :=
  modLink k (fun x => { x with state := .disabled }) (if linkUp s k then leaveUp k 7 s else s)

/-- Every link enters DISABLED (*Table: Link states*). -/
def disableLinks (s : State) : State := forEach (List.range 16) disableLink s

/-- The links that may train start to train, at the entry into TRAIN (*Table: Link states*). -/
def bringUpLinks (s : State) : State :=
  forEach ((List.range 16).filter (linkEnabled s)) startTraining s

/-- Every link is IDLE_ONLY (R568). -/
def idleOnlyLinks (s : State) : State :=
  forEach (List.range 16) (fun k s => startLanes k (modLink k (fun x => { x with state := .idleOnly }) s)) s

/-- A channel that the camera sequencer programmed: every one but those of gear changes (R284, R373). -/
def isCamAux (c : Option Aux) : Bool :=
  match c with
  | some x => match x.action with
    | .gearChange _ => false
    | _ => true
  | none => false

/-- The cameras' channels are released (R373). -/
def dropCamAux (s : State) : State :=
  dropAux isCamAux { s with cams := s.cams.map fun c => { c with strobes := [], led := [] } }

/-- Every camera port is DISABLED: the domain is off (*Table: Camera port states*). -/
def disableCams (s : State) : State :=
  { s with cams := s.cams.map fun c => { c with
    state := .disabled, frame := none, ended := none, commands := [], unsureFrom := none
    conns := c.conns.map fun k => { k with locked := false } } }

end Sys2Proof.Machine
end

