-- ==== Sys2Proof/Machine/Values.lean ====
section
/-! DEFINITION. The elements of the colour loop and their values (13_calibration_loop.md, R393, R407, R410). -/
namespace Sys2Proof.Machine
open Sys2Proof

/-- The rank tap accepted for rank r of link k, firing.rank_tap where none is (R298). -/
def rankTapOf (s : State) (k r : Nat) : Int :=
  (((s.cal.values.rank.getD k []).find? fun p => p.1 = r).map (·.2)).getD (cfgI s Fld.firing_rank_tap (16 * k + r))

/-- The version of an element (R393). -/
def versionOf (s : State) (e : Element) : Nat :=
  ((s.cal.values.versions.find? fun p => p.1 = e).map (·.2)).getD 0

/-- A version rises by one (R393). -/
def raiseVersion (e : Element) (s : State) : State :=
  let l := s.cal.values.versions.filter fun p => p.1 ≠ e
  { s with cal := { s.cal with values := { s.cal.values with versions := l ++ [(e, versionOf s e + 1)] } } }

/-- The identity tone curve (R151). -/
def identityCurve : List Nat := (List.range 4097).map fun j => min 65535 (16 * j)

/-- The tone curve in force for a bar. -/
def curveOf (s : State) (b : Nat) : List Nat := (s.cal.values.tone.getD b none).getD identityCurve

/-- The dark and then the gain entries of a camera, by column and phase. -/
def flatTables (s : State) (c : Nat) : List Int :=
  let l := (List.range (8 * cfgN s Fld.camera_width c)).map fun i =>
    (((camOf s c).flat.find? fun e => e.1 = i / 8 && e.2.1 = i % 8).map (·.2.2)).getD (0, 4096)
  (l.map fun e => (e.1 : Int)) ++ l.map fun e => (e.2 : Int)

/-- The first file of a density window. -/
def windowFile (s : State) (w : Nat) : Nat := w * cfgN s Fld.calibration_tap_window 0

/-- The present value of an element: one number, or the entries of its table. -/
def valueOf (s : State) (e : Element) : List Int :=
  if e.kind = 0 then [(((s.cal.values.taps.getD e.unit []).find? fun p => p.1 = windowFile s e.num).map (·.2)).getD 0]
  else if e.kind = 1 then [if (s.cal.values.dead.getD e.unit []).contains e.num then 1 else 0]
  else if e.kind = 2 then [rankTapOf s e.unit e.num]
  else if e.kind = 3 then (curveOf s e.unit).map fun (v : Nat) => (v : Int)
  else if e.kind = 4 then [s.cal.values.reg.getD e.unit 0]
  else flatTables s e.unit

/-- The bar that an element belongs to; a camera's own number for FLAT. -/
def elemBar (e : Element) : Nat := if e.kind = 1 || e.kind = 2 then e.unit / 2 else e.unit

/-- The number of an element in tokens and events: for a link, 65,536 is added for the bar's second one. -/
def elemCode (e : Element) : Nat := e.num + if e.kind = 1 || e.kind = 2 then 65536 * (e.unit % 2) else 0

/-- The element that a kind, a bar and a number name. -/
def elemOf (kind bar code : Nat) : Element :=
  if kind = 1 || kind = 2 then ⟨kind, 2 * bar + code / 65536 % 2, code % 65536⟩ else ⟨kind, bar, code⟩

/-- The density taps of a bar with those of one window set (R174). -/
def setTaps (first n : Nat) (v : Int) (l : List (Nat × Int)) : List (Nat × Int) :=
  (l.filter fun p => p.1 < first) ++
    (if v = 0 then [] else (List.range n).map fun i => (first + i, v)) ++ l.filter fun p => first + n ≤ p.1

/-- The flat-field entries that differ from dark 0 and gain 4,096. -/
def flatOf (w : Nat) (l : List Int) : List (Nat × Nat × Nat × Nat) :=
  (List.range (8 * w)).filterMap fun i =>
    let d := (l.getD i 0).toNat
    let g := (l.getD (8 * w + i) 4096).toNat
    if d = 0 && g = 4096 then none else some (i / 8, i % 8, d, g)

def modValues (f : CalValues → CalValues) (s : State) : State := { s with cal := { s.cal with values := f s.cal.values } }

/-- An element takes a value. -/
def putValue (e : Element) (v : List Int) (s : State) : State :=
  let x := v.headD 0
  if e.kind = 0 then
    let f := setTaps (windowFile s e.num) (cfgN s Fld.calibration_tap_window 0) x
    modValues (fun q => { q with taps := q.taps.modify e.unit f }) s
  else if e.kind = 1 then
    modValues (fun q => { q with dead := q.dead.modify e.unit fun l =>
      (l.filter fun n => n < e.num) ++ (if x = 0 then [] else [e.num]) ++ l.filter fun n => e.num < n }) s
  else if e.kind = 2 then
    modValues (fun q => { q with rank := q.rank.modify e.unit fun l => (l.filter fun p => p.1 ≠ e.num) ++ [(e.num, x)] }) s
  else if e.kind = 3 then modValues (fun q => { q with tone := q.tone.set e.unit (some (v.map Int.toNat)) }) s
  else if e.kind = 4 then modValues (fun q => { q with reg := q.reg.set e.unit x }) s
  else modCam e.unit (fun c => { c with flat := flatOf (cfgN s Fld.camera_width e.unit) v }) s

/-- A held proposal of an element is discarded: its version changes (R410). -/
def dropHeld (e : Element) (s : State) : State := { s with cal := { s.cal with held := s.cal.held.filter fun h => h.elem ≠ e } }

/-- NOZZLE_DEAD and NOZZLE_REVIVED. -/
def nozzleEvent (e : Element) (old new : List Int) (s : State) : State :=
  if e.kind ≠ 1 || old = new then s
  else raise (if new = [0] then 0x0A15 else 0x0A14) (leBytes 1 e.unit ++ leBytes 4 e.num) s

/-- A value is in force from its boundary on: the element's version rises, and the store is to be written (R393, R418). -/
def installValue (e : Element) (v : List Int) (s : State) : State :=
  let old := valueOf s e
  let s1 := dropHeld e (raiseVersion e (putValue e v s))
  nozzleEvent e old v { s1 with cal := { s1.cal with changed := true } }

end Sys2Proof.Machine
end

