-- ==== Sys2Proof/Machine/States.lean ====
section
/-! DEFINITION. What entering a module state does (01_module_in_the_press.md, R19 to R24; 19_power_and_start.md): OFF, BOOT,
CONFIG, MAINTENANCE, SHUTDOWN, IDLE, HALTED, DRAIN. -/
namespace Sys2Proof.Machine
open Sys2Proof

/-! ### Parts -/

/-- Every programme is cleared, and every timed output and PPS is driven low (R442). -/
def clearOutputs (s : State) : State :=
  { s with time := { s.time with outs := s.time.outs.map fun o => { o with level := false, prog := none, fallAt := none } } }

/-- *Table: Time states*. -/
def timeCode : TimeState → Nat
  | .free => 0 | .acquiring => 1 | .locked => 2 | .holdover => 3

/-- A change of the time state with its event 0x0B10 TIME_STATE. -/
def setTimeState (st : TimeState) (s : State) : State :=
  if s.time.state = st then s
  else raise 0x0B10 (leBytes 1 (timeCode s.time.state) ++ leBytes 1 (timeCode st) ++
      sgBytes 4 (clampInt (-2147483648) 2147483647 s.time.offset))
    { s with time := { s.time with state := st, within := 0, hasLocked := s.time.hasLocked || st = .locked } }

/-- A source that was followed is to be measured again: HOLDOVER (R562). -/
def loseTime (s : State) : State :=
  if s.time.state = .locked || s.time.state = .acquiring then setTimeState .holdover s else s

/-- Every object, result and reservation of the memory is lost (R242). -/
def loseMemory (s : State) : State :=
  { s with
    jobs := { s.jobs with surfaces := [], luts := [], pages := [], runs := [], seals := [], sealing := false, arming := none, armed := none }
    render := { s.render with
      now := none, contexts := [], mismatchPages := [], selftestPassed := false
      compressors := s.render.compressors.map fun c => { c with input := none, retired := false } }
    net := { s.net with results := [], tickets := [] }
    mem := { s.mem with lostLuts := [], trained := List.replicate 4 false, mode := none, failures := List.replicate 4 0, reused := false,
                        initialised := false }
    fire := { s.fire with lanes := s.fire.lanes.map fun l => { l with buffer := [] } }
    cal := { s.cal with held := [], disagree := [], frozen := false, slews := [], rerendering := false
                        waiting := [], rerenderPages := [], oldParts := [], due := 0, runNow := [], marks := []
                        disagreedStrips := [] } }

/-- What a bar keeps of a run is over; its pause and its inhibit stand (R311, R319). -/
def clearBar (x : Bar) : Bar :=
  { x with haltCause := 0, overspeed := false, trigs := [], syncLast := none, pendingSync := [], packet := none
           pointsInPrint := 0, lastPoint := none, castleWait := false }

/-- The halts of the bars and what they and their decompressors keep of a run are over (R218, R311). -/
def clearBars (s : State) : State :=
  { s with fire := { s.fire with bars := s.fire.bars.map clearBar, lanes := s.fire.lanes.map fun l => { l with reading := [] } } }

/-- The line triggers of a run are over: no spacing, no trigger scheduled, no coast (R278, R271). -/
def endRunInputs (s : State) : State :=
  { s with pos := { s.pos with inputs := s.pos.inputs.map fun x =>
    { x with spacing := 0, scheduled := none, coast := none, stopped := false } } }

/-- OVERSPEED_N is deasserted outside ARMED, PRINT and DRAIN (R309). -/
def clearOverspeed (s : State) : State :=
  let s1 := { s with fire := { s.fire with overspeedN := false, lastDrop := none, slowSince := none } }
  if s.fire.overspeedN then raise 0x0512 [] s1 else s1

/-- No page starts or goes on RENDERING any more: the seal check at the head of the queue starts (R703). -/
def sealsGo (s : State) : State :=
  if s.render.now.isSome || s.jobs.seals.isEmpty then s else { s with jobs := { s.jobs with sealing := true } }

/-- The fields of object 0x0301 that outlive the run; with no run armed, the seal check at the head of the queue starts (R703). -/
def keepRun (s : State) : State :=
  match s.jobs.armed with
  | none => s
  | some a => { s with jobs := { s.jobs with
      armed := none, lastForm := a.run.form, lastPolicy := a.run.policy, lastBarHalted := a.barHalted
      lastNextSlot := a.nextSlot, lastFired := a.fired, lastSpoiled := a.spoiled, lastQuarantined := a.quarantined
      lastDepth := a.run.depth, sealing := !s.jobs.seals.isEmpty } }

/-- The ring's share in the run is over. -/
def endCascade (s : State) : State :=
  { s with ring := { s.ring with cascade := none, readySent := [], stopped := false, mismatchRaised := [], owed := []
                                 nodes := s.ring.nodes.map fun n => { n with armed := none, ready := [] } } }

/-- The colour loop's share in the run is over: held proposals, marks, re-rendering (R410, R413). What was accepted stays
accepted: values that waited for a changeover are in force from here on, and slews under way are over, since the next
arming puts their values in force (R297, R412, R418; DESIGN CHOICE, log entry 87). -/
def endCalRun (s0 : State) : State :=
  let s := forEach s0.cal.slews (fun p => raiseVersion p.1) (forEach s0.cal.waiting (fun p => installValue p.1 p.2) s0)
  { s with cal := { s.cal with held := [], frozen := false, slews := [], rerendering := false, waiting := []
                               rerenderPages := [], oldParts := [], marks := [], disagreedStrips := [], inspected := [] } }

/-- The inspection pipeline has finished with every slot of the run (R165). -/
def endInspection (s : State) : State :=
  forEach (((s.jobs.armed.map fun a => a.slots).getD []).map fun x => x.page) dropReference s

/-- The milliseconds since this start began (object 0x0101 start_ms). -/
def sinceStart (s : State) : Nat := (s.now - s.mod.startedAt) / msT 1

/-- Events kept for the next entry into IDLE or MAINTENANCE. -/
def atNextStart (code : Nat) (detail : List Byte) (s : State) : State :=
  { s with power := { s.power with atStart := s.power.atStart ++ [(code, detail)] } }

/-- The detail of an event kept for a start; the time in THERMAL_SHUTDOWN has the layout of this start (R583, R621). -/
def startDetail (s : State) (e : Nat × List Byte) : List Byte :=
  if e.1 = 0x0147 then e.2.take 4 ++ stampOf s (readNative (e.2.drop 4)) else e.2

/-- The first entry of this start into IDLE or MAINTENANCE: MODULE_STARTED and the events kept for it (R552, R665). -/
def announceStart (s : State) : State :=
  let ms := min 65535 (sinceStart s)
  let s1 := raise 0x0120 (leBytes 1 s.power.lastOffCause ++ leBytes 4 ms ++ leBytes 1 (b2n s.mem.reused))
    { s with power := { s.power with startMs := ms } }
  forEach s1.power.atStart (fun e => raise e.1 (startDetail s e)) { s1 with power := { s1.power with atStart := [] } }

/-! ### OFF, BOOT and CONFIG -/

/-- OFF: nothing runs, and nothing is kept but the hot-swap controller's record, what is in one-time-programmable memory
and flash, and the levels at the press inputs (R19, R552). -/
def goOff (s : State) : State :=
  { pending := s.pending, now := s.now, freeN := s.freeN, sent := s.sent, otp := s.otp, flash := s.flash
    power := { lastOffCause := s.power.lastOffCause, faultCounts := s.power.faultCounts, faultDomain := s.power.faultDomain
               domainsHeld := s.power.domainsHeld, starts := s.power.starts
               watchdogResets := s.power.watchdogResets, shutdownLatch := s.power.shutdownLatch
               watchdogUntil := s.power.watchdogUntil, atStart := s.power.atStart, inputMv := s.power.inputMv }
    mod := { haltIn := s.mod.haltIn, printGo := s.mod.printGo }
    pos := { dins := s.pos.dins.map fun d => { level := d.level } } }

/-- A DRAM reading takes no part while PD7 is off (*Table: Object 0x0103 thermal_sensor*). -/
def dramOff (p : Sensor × Nat) : Sensor := if 20 ≤ p.2 then { p.1 with state := 6 } else p.1

/-- A bar that no head reading holds: not paused, not inhibited. -/
def coolBar (b : Bar) : Bar :=
  { b with paused := false, inhibited := false, inhibitCool := false, ownPause := false, ownInhibit := false }

/-- What a restart keeps of a head: what object 0x0413 shows as last reported (R660). -/
def keptHead (x : HeadReading) : HeadReading := { x with sameCount := 0, brokenRaised := false }

/-- What a restart keeps of a ring node: what object 0x0D02 shows (R660). -/
def keptNode (x : Node) : Node :=
  { x with groupRun := none, seen := none, lost := false, armed := none, ready := [], relay := none }

/-- Entry into BOOT: PD1 to PD9 go off, the memory is lost, motion, outputs, links, cameras and the ring are off, and the
pair state is undecided (R242, R442, R446, R501, R554, R562). A start that a restart ends, ends in no domain fault (R555).
Where the spec is silent, two things are the model's own (DESIGN CHOICE, log entry 91): the return of the governor to step
0 is no step taken in steps_taken, and block lock that goes with PD1 raises no PORT_LINK_DOWN and counts no loss (R49,
R101). -/
def enterBoot (cause : Nat) (s : State) : State :=
  let s1 := setModState .boot cause s
  let s2 := disableCams (disableLinks (clearOutputs (axesLose (axesOff s1))))
  let s3 := dropCamAux (clearBars (endRunInputs (loseMemory (loseTime (endCascade (closeBypass .bypassed s2))))))
  { s3 with
    mod := { s3.mod with defaultAddress := false, compat := false, romServed := false, haltModuleDetected := false
                         idleSeen := false, startedAt := s.now, watchdogStopped := false }
    power := { s3.power with
      domainsOn := [0], starts := wrapInc 16 s3.power.starts
      faultCounts := if s.mod.state = .off then s3.power.faultCounts else List.replicate 10 0 }
    conf := { s3.conf with inForce := false, atIdle := [], copyDue := false }
    gov := { s3.gov with step := 0, running := false, atLimit := false, renderDuty := 8, hold := 0
                         overridden := s3.gov.overridden && s3.thermal.throttle, window64 := [] }
    net := { s3.net with sessions := s3.net.sessions.map freedSession, hosts := []
                         neighbours := []
                         ports := s3.net.ports.map fun p => { p with linkUp := false, modeActive := 0 } }
    fire := { s3.fire with bars := s3.fire.bars.map coolBar }
    links := { s3.links with links := s3.links.links.map fun l => { l with heads := l.heads.map keptHead } }
    ring := { s3.ring with ejected := false, versionRaised := false, listenSince := none
                           nodes := s3.ring.nodes.map keptNode }
    pair := { s3.pair with state := .catchup, linkUp := false, absent := false, missRun := 0, lastBeat := none, lastSent := none
                           waitSince := none, decided := false, reclaimSince := none, tokensAhead := [], gapSince := none
                           tokensSent := [], decisions := [], ordersSent := [], orders := [], resent := [], held := []
                           segments := [], copies := [], armSeen := false, copyDone := false, peerDigest := [] }
    update := { s3.update with current := [false, false], queue := [], verifying := [], activating := [], records := []
                               relaying := false, relayBytes := [], relayOffset := 0, relayDigest := []
                               relayStatus := 3, confValid := false }
    thermal := { s3.thermal with sensors := s3.thermal.sensors.zipIdx.map dramOff, record := flashRecord s }
    loops := [] }

/-- The status fields that the first entry into CONFIG after power good sets to their Reset values (R13, R660). -/
def resetCounters (s : State) : State :=
  let s1 := { s with log := { s.log with unsent := 0, suppressed := 0 } }
  { s1 with
    mod := { s.mod with transitions := 0 }
    time := { s.time with changesReplaced := 0, steps := 0 }
    links := { s.links with links := List.replicate 16 {} }
    thermal := { s.thermal with blitzEntries := 0, throttleEntries := 0, throttleTime := 0
                                sensors := s.thermal.sensors.map fun x => { x with brokenCount := 0 } }
    net := { s.net with
      ports := s.net.ports.map fun p => { p with linkDowns := 0, framesRx := 0, discarded := 0, fcsErrors := 0
                                                 echoAnswered := 0 }
      sessions := s.net.sessions.map fun _ => {} } }

/-- A port in mode 4 begins with 25GBASE-R as PD1 comes on (R53). -/
def freshPorts (s : State) : State :=
  { s with net := { s.net with ports := s.net.ports.map fun p => { p with trying := 1, tryingSince := s.now } } }

/-- Entry into CONFIG: PD1 is switched on, unless it is held, and a port in mode 4 tries 25GBASE-R first (R53, R553, R555,
R660). -/
def enterConfig (cause : Nat) (s : State) : State :=
  let s1 := setModState .config cause s
  let s2 := if s1.mod.configSeen then s1 else resetCounters s1
  freshPorts { s2 with
    mod := { s2.mod with configSeen := true }
    power := { s2.power with domainsOn := [0, 1].filter fun d => !s2.power.domainsHeld.contains d } }

/-! ### MAINTENANCE and SHUTDOWN -/

/-- Entry into MAINTENANCE: motion, outputs, cameras and the ring are off (R24, R364, R373, R442, R446); without a configuration
in force, the domains and links are those of R568, the address is that of R56, and the module is SOLO, as with pair_enable 0
(R501). -/
def enterMaintenance (cause : Nat) (s : State) : State :=
  let s1 := setModState .maintenance cause s
  let s2 := closeBypass .passThrough (dropCamAux (disableCams (clearOutputs (axesOff s1))))
  let s3 :=
    if s2.conf.inForce then s2
    else
      let s0 := { s2 with
        mod := { s2.mod with defaultAddress := true }
        power := { s2.power with domainsOn := [0, 1, 3, 4].filter fun d => !s2.power.domainsHeld.contains d }
        pair := { s2.pair with state := .solo, epoch := 0 } }
      idleOnlyLinks (if domainOn s2 1 then s0 else freshPorts s0)
  if s3.mod.idleSeen then s3 else announceStart s3

/-- HALT on all 48 data lanes, whatever the states of their links, where PD3 or PD4 is on and the PLL gives a signal (R25, R328,
R551); "a standby that enters SHUTDOWN sends HALT under R25" (11_tollos_link.md, after R359). -/
def haltAllLanes (s : State) : State :=
  forEach ((List.range 48).filter fun g => domainOn s (linkDomain (g / 3)) && linkPll s (g / 3)) (fun g => insertSymbols g [kHalt]) s

/-- Entry into SHUTDOWN: HALT on all 48 lanes, the bars of the run halted with cause 6, then PD1 to PD9 off and the
shutdown latch set (R25, R311, R479, R554, R560). -/
def enterShutdown (rec : ShutdownRecord) (s : State) : State :=
  let s1 := forEach (runBars s) (fun b s => if halted s b then s else
      raise 0x0514 (leBytes 1 b ++ leBytes 1 6)
        (modBar b (fun x => { x with haltCause := 6, pendingSync := [], packet := none }) s))
    (haltAllLanes (setModState .shutdown 20 s))
  let s2 := abandonRendering (spoilAll spoilHalt s1)
  let s3 := endRunInputs (dropCamAux (disableCams (disableLinks (clearOutputs (axesOff s2)))))
  let s4 := clearOverspeed (closeBypass .bypassed s3)
  dropSessions { s4 with
    power := { s4.power with domainsOn := [0], shutdownLatch := true }
    thermal := { s4.thermal with recordPending := some rec }
    gov := { s4.gov with running := false }
    pair := { s4.pair with linkUp := false }
    loops := [] }

/-! ### IDLE -/

/-- The part of an entry into IDLE that belongs to the first one of the start: MODULE_STARTED and the events of the
start, the governor (R42), the origins after power good (R279), the wait for the partner (R501), and the records that the
flash still lacks (R246, R521). -/
def firstIdle (s : State) : State :=
  let s1 := forEach s.conf.atIdle (fun e => raise e.1 e.2) (announceStart { s with mod := { s.mod with idleSeen := true } })
  let s2 := if s1.mod.idleSincePower then s1
    else { s1 with
      mod := { s1.mod with idleSincePower := true }
      pos := { s1.pos with inputs := s1.pos.inputs.map fun x => { x with origin := x.hwm * 4294967296 } } }
  { s2 with
    conf := { s2.conf with atIdle := [], copyDue := false }
    gov := { s2.gov with running := true, step := 0, renderDuty := 8 }
    pair := { s2.pair with waitSince := if cfgN s2 Fld.redundancy_pair_enable 0 = 1 then some s2.now else none }
    update := { s2.update with records := s2.update.records ++ (if s2.mem.reused then [] else [.training]) ++
                                 (if s2.conf.copyDue then [.configCopy] else []) } }

/-- A module at position 0 listens for another king after entering IDLE (R482). -/
def listens (s : State) : Bool :=
  s.power.position = 0 && cfgN s Fld.ring_enable 0 = 1 && s.ring.state = .bypassed && !s.ring.ejected

/-- Entry into IDLE (R20, R137, R139, R278, R311, R373, R410, R418, R482): what the run left is over; a position-0 module
listens for a king. -/
def enterIdle (cause : Nat) (s : State) : State :=
  let done := s.jobs.armed.map fun a => (a.run.id, a.fired, a.spoiled, a.quarantined)
  let s1 := setModState .idle cause s
  let s2 := if s.mod.state = .drain || s.mod.state = .halted then
      match done with
      | some (r, f, sp, q) => raise 0x0317 (leBytes 4 r ++ leBytes 4 f ++ leBytes 4 sp ++ leBytes 4 q) s1
      | none => s1
    else s1
  let s3 := clearOverspeed (dropCamAux (endCascade (endCalRun (endRunInputs (clearBars (endHalts (keepRun (endInspection s2))))))))
  let s4 := { s3 with
    mod := { s3.mod with haltModuleDetected := false }
    ring := { s3.ring with listenSince := (if listens s3 then some (s3.ring.listenSince.getD s3.now) else none) }
    update := { s3.update with records := s3.update.records ++ (if s3.cal.changed then [.calibration] else []) } }
  if s4.mod.idleSeen then s4 else firstIdle s4

/-! ### DRAIN and HALTED -/

/-- A group module tells the ring that its releases end (R497). -/
def sendCascadeStop (cause : Nat) (s : State) : State :=
  if inGroup s && s.jobs.armed.isSome && !s.ring.stopped then
    ringSendActive 0x35 0xFF (leBytes 4 s.jobs.runId ++ leBytes 1 cause)
      { s with ring := { s.ring with stopped := true } }
  else s

/-- A HALT_REQ of an open session, not applied yet, that leaves no bar of the run unhalted (R77, R313). -/
def haltsRun (src : Src) (p : List Byte) (s : State) : Bool :=
  4 ≤ p.length && !(src.group && follows s) &&
    ((sessionIdx s src.session).any fun i => isItsTurn (sessionOf s i) 0x08 src.msg) &&
    (runBars s).all fun b => halted s b || (fld p 0 1).testBit b

/-- A halt of the module stands behind in the queue, due at the same moment: HALTED takes precedence over DRAIN and IDLE (R21). -/
def haltComes (s : State) : Bool :=
  s.pending.any fun c => match c with
    | .haltInAsserted t => decide (t ≤ s.now)
    | .haltReq t src p => decide (t ≤ s.now) && haltsRun src p s
    | _ => false

/-- DRAIN is over once every released slot has ended (R20, R21, R134). -/
def settle (s : State) : State :=
  if s.mod.state = .drain && (openSlots s).isEmpty && !haltComes s then enterIdle 15 s else s

/-- Releases end: ARMED or PRINT becomes DRAIN, unless a halt of the module comes at the same moment (R21, R134, R136,
R497, R616). -/
def endReleases (s : State) : State :=
  let s1 := sealsGo (modArmed (fun a => { a with releasesEnded := true, hold := false }) s)
  if (s.mod.state = .armed || s.mod.state = .print) && !haltComes s then setModState .drain 14 s1 else s1

/-- Entry into HALTED: HALT on every head link, every open slot is SPOILED with reason HALT, rendering stops, an axis with
halt_action 1 stops, held proposals and camera triggers are dropped, and a group module stops the cascade (R24, R137,
R373, R410, R453, R497). FAULT_N where the bars were halted for mixed causes, some by HALT_REQ and some by what the module
detected, the spec leaves open: it is asserted where any bar of the run has a module-detected cause (DESIGN CHOICE, log
entry 92). -/
def enterHalted (cause : Nat) (s : State) : State :=
  let byModule := cause = 18 && (runBars s).any fun b => 3 ≤ (barOf s b).haltCause
  let s1 := setModState .halted cause s
  let s2 := modArmed (fun a => { a with releasesEnded := true, hold := false }) (spoilAll spoilHalt s1)
  let s3 := sealsGo (dropCamAux (abandonRendering s2))
  let s4 := forEach ((List.range 12).filter fun a => cfgN s3 Fld.motion_halt_action a = 1) (fun a => requestStop a 3) s3
  let s5 := forEach ((List.range 8).filter fun b => !halted s b) sendHalt s4
  clearOverspeed (sendCascadeStop 2 { s5 with
    mod := { s5.mod with haltModuleDetected := byModule }
    cal := { s5.cal with held := [] } })

/-- After the halt of bars of the run: HALTED when every bar of the run is halted, DRAIN otherwise (R20, R23, R136, R313,
R497). Object 0x0301 keeps that a single-bar halt took place (*Table: Halt sources*), be it of the run's only bar. -/
def afterHalt (allCause : Nat) (s : State) : State :=
  let s1 := modArmed (fun a => { a with barHalted := true }) s
  if !inRun s then s
  else if allHalted s then enterHalted allCause (if allCause = 18 then s1 else s)
  else if anyHalted s then settle (sendCascadeStop 1 (endReleases s1))
  else s

/-- Bars of the run halt for a cause with spoil reasons (R136, R270, R310, R320, R321). -/
def haltBars (bars : List Nat) (cause allCause : Nat) (bits : List Nat) (s : State) : State :=
  afterHalt allCause (forEach bars (fun b => haltBar b cause bits) s)

/-! ### A link of the run is lost (R321) -/

/-- LINE_DAMAGED, at most once per slot, bar and cause (R320). -/
def damageSlot (n b lane cause seq : Nat) (s : State) : State :=
  match slotOf s n with
  | none => s
  | some x =>
    if x.damaged.contains (b, cause) then s
    else raise 0x0513 (leBytes 4 n ++ leBytes 1 b ++ leBytes 1 lane ++ leBytes 1 cause ++ leBytes 4 seq)
      (modSlot n (fun y => { y with damaged := (b, cause) :: y.damaged }) s)

end Sys2Proof.Machine
end

