-- ==== Sys2Proof/Machine/Marks.lean ====
section
/-! DEFINITION. Test marks (13_calibration_loop.md, R394 to R401): which kinds are due at a slot, and how a strip and a
margin are laid out. -/
namespace Sys2Proof.Machine
open Sys2Proof

/-- The blocks of a strip in their fixed order: registration, nozzle check, density, tone, and the blank block of FLAT
(R396, *Table: Mark blocks*). -/
inductive BlockKind where
  | registration | nozzleCheck | density | tone | blank
  deriving DecidableEq, Repr, Inhabited

def stripOrder : List BlockKind := [.registration, .nozzleCheck, .density, .tone, .blank]

/-- The kinds of correction that a block serves, as bits of *Table: Correction kinds*. -/
def blockKinds : BlockKind → Nat
  | .registration => 16 | .nozzleCheck => 6 | .density => 1 | .tone => 8 | .blank => 32

/-- The kind bit that a mark of the block is recorded under. -/
def blockBit : BlockKind → Nat
  | .registration => 4 | .nozzleCheck => 1 | .density => 0 | .tone => 3 | .blank => 5

/-- The lines of a block on a run of `nb` bars (*Table: Mark blocks*). -/
def blockLines (s : State) (nb : Nat) : BlockKind → Nat
  | .registration => 32 * nb
  | .nozzleCheck => 2 * cfgN s Fld.calibration_nc_pitch 0 * cfgN s Fld.calibration_nc_lines 0
  | .density => cfgN s Fld.calibration_density_lines 0 * nb
  | .tone => cfgN s Fld.calibration_tone_lines 0 * nb
  | .blank => 2 * cfgN s Fld.calibration_flat_lines 0

/-- The gap that a run leaves after a page (*Table: Run forms*). -/
def runGap (r : RunDef) : Nat := if r.form = 1 then 0 else r.gap

/-- The lines that a strip may use (R395). -/
def stripRoom (s : State) (r : RunDef) : Nat := runGap r - 2 * cfgN s Fld.calibration_guard_lines 0

/-- The mark kinds due at slot n by their intervals (R396). -/
def dueAt (s : State) (n : Nat) : Nat :=
  let on (b : BlockKind) (every : Nat) : Nat := if n % max 1 (cfgN s every 0) = 0 then blockKinds b else 0
  (on .registration Fld.calibration_reg_every + on .nozzleCheck Fld.calibration_nc_every +
    on .density Fld.calibration_density_every + on .tone Fld.calibration_tone_every) &&&
    cfgN s Fld.calibration_enable 0

/-- What a strip takes of the due kinds: its blocks, its lines, the kinds placed and those that do not fit (R396, R397). -/
structure StripPlan where
  blocks : List MarkBlock
  lines  : Nat
  placed : Nat
  left   : Nat
  deriving DecidableEq, Repr, Inhabited

/-- One kind is tried in a strip of `room` lines (R396). -/
def planBlock (s : State) (bars : List Nat) (room due ncBar : Nat) (p : StripPlan) (b : BlockKind) : StripPlan :=
  let k := due &&& blockKinds b
  let n := blockLines s bars.length b
  if k = 0 then p
  else if p.lines + n ≤ room then
    { p with blocks := p.blocks ++ [{ kind := blockBit b, bar := ncBar, line := p.lines, lines := n }]
             lines := p.lines + n, placed := p.placed ||| k }
  else { p with left := p.left ||| k }

/-- The strip after a slot with the kinds due; a nozzle check in it belongs to bar `ncBar` (R395, R396). -/
def planStrip (s : State) (r : RunDef) (due ncBar : Nat) : StripPlan :=
  if r.inspection = 0 then ⟨[], 0, 0, 0⟩
  else stripOrder.foldl (planBlock s (bitList 8 r.barMask) (stripRoom s r) due ncBar) ⟨[], 0, 0, 0⟩

/-- The bar of the next nozzle check: the one whose check was left out first, or the one whose turn it is (R397). -/
def nextNcBar (s : State) (a : Armed) : Nat :=
  let bars := bitList 8 a.run.barMask
  a.ncOwed.headD (bars.getD (s.cal.ncTurn % max 1 bars.length) 0)

/-- The blocks of a plan hold a nozzle check. -/
def hasNozzleCheck (l : List MarkBlock) : Bool := l.any fun b => b.kind = 1

/-- The mark kinds due at slot n, those of slots passed since the last strip included (R396). -/
def dueUpTo (s : State) (n : Nat) : Nat :=
  match s.jobs.armed with
  | none => s.cal.due
  | some a =>
    if a.run.inspection = 0 then s.cal.due
    else (List.range (n + 1 - a.nextStrip)).foldl (fun d i => d ||| dueAt s (a.nextStrip + i)) s.cal.due

/-- The kinds due up to slot n are noted, and no strip of these slots is considered any more (R396). -/
def passStrips (n : Nat) (s : State) : State :=
  modArmed (fun a => { a with nextStrip := max a.nextStrip (n + 1) }) { s with cal := { s.cal with due := dueUpTo s n } }

/-- Whether margins carry the registration marks: band form, or a repeat gap that holds no registration block (R400,
R632). -/
def marginMarks (s : State) (r : RunDef) : Bool :=
  r.inspection ≠ 0 && (cfgN s Fld.calibration_enable 0).testBit 4 &&
    (r.form = 1 || (r.form = 2 && stripRoom s r < 32 * (bitList 8 r.barMask).length))

/-- Ranges joined where they touch or overlap, from ranges in rising order of their first files. -/
def joinRanges : List (Nat × Nat) → List (Nat × Nat)
  | [] => []
  | p :: r =>
    match joinRanges r with
    | q :: t => if q.1 ≤ p.2 then (p.1, max p.2 q.2) :: t else p :: q :: t
    | [] => [p]

/-- The files that any bar of a mask covers. -/
def maskCovered (c : Cfg) (mask : Nat) : List (Nat × Nat) :=
  joinRanges (inOrder (fun a b => a.1 ≤ b.1) ((bitList 8 mask).flatMap (barCovered c)))

/-- The cost of a strip of a number of lines (13, Cost). -/
def stripCost (s : State) (mask lines : Nat) : Nat := lines * rangesCount (maskCovered s.conf.cfg mask)

/-- The margin of a page that carries its registration block: first file and count; the operator side, at the low files,
is preferred (R400). -/
def pageMargin (s : State) (r : RunDef) (pg : Page) : Option (Nat × Nat) :=
  if !marginMarks s r then none
  else
    let cov := maskCovered s.conf.cfg r.barMask
    let lo := rangesWithin 0 pg.fileStart cov
    let hi := rangesWithin (pg.fileStart + pg.fileCount) 106496 cov
    let need := cfgN s Fld.calibration_margin_files 0
    let pick (l : List (Nat × Nat)) : Option (Nat × Nat) :=
      match l.head?, l.getLast? with
      | some a, some z => some (a.1, z.2 - a.1)
      | _, _ => none
    if need ≤ rangesCount lo then pick lo else if need ≤ rangesCount hi then pick hi else none

/-- A change to the counters of the kinds of a mask. -/
def modKinds (kinds : Nat) (f : CalKind → CalKind) (s : State) : State :=
  let l := s.cal.kinds.zipIdx.map fun p => if kinds.testBit p.2 then f p.1 else p.1
  { s with cal := { s.cal with kinds := l } }

/-- The marks of a kind placed (object 0x0A02 occurrences). -/
def countPlaced (kinds : Nat) (s : State) : State :=
  modKinds kinds (fun k => { k with occurrences := wrapInc 32 k.occurrences }) s

/-- The started strip of slot n is given up: its kinds stay due, and a bar whose nozzle check it holds comes next (R396,
R397, R399). -/
def dropStrip (x : Strip) (s : State) : State :=
  let s1 := if s.render.now.any fun r => r.strip.any fun y => y.slot = x.slot then abandonRendering s else s
  modArmed (fun a => { a with
      strips := a.strips.filter fun y => y.slot ≠ x.slot
      ncOwed := a.ncOwed ++ (x.blocks.filter fun b => b.kind = 1).map fun b => b.bar })
    { s1 with cal := { s1.cal with due := s1.cal.due ||| x.placed } }

/-- A strip is left out where its slot is released before it is RENDERED (R399). -/
def countSkipped (s : State) : State := { s with cal := { s.cal with stripsSkipped := wrapInc 16 s.cal.stripsSkipped } }

/-- The strip of slot n that has started to render. -/
def startedStrip (s : State) (n : Nat) : Option Strip := s.jobs.armed.bind fun a => a.strips.find? fun x => x.slot = n

/-- The strip of slot n as the slot is released: the strip that goes with it, once RENDERED, or none (R399). -/
def takeStrip (n : Nat) (s : State) : Option Strip × State :=
  match s.jobs.armed with
  | none => (none, s)
  | some a =>
    match startedStrip s n with
    | some x =>
      if x.done then
        (some x, countPlaced x.placed (modArmed (fun a => { a with strips := a.strips.filter fun y => y.slot ≠ n }) s))
      else (none, countSkipped (dropStrip x s))
    | none =>
      if n < a.nextStrip then (none, s)
      else
        let s1 := passStrips n s
        (none, if (planStrip s a.run s1.cal.due 0).blocks.isEmpty then s1 else countSkipped s1)

/-- Slot n passes unprinted: it has no strip, and what its strip held stays due (R128, R396). -/
def passStrip (n : Nat) (s : State) : State :=
  match startedStrip s n with
  | some x => dropStrip x s
  | none => passStrips n s

/-- The margin of the page of a released slot carries its registration block: the mark has been placed (R396, R400). -/
def placeMargin (id : Nat) (s : State) : State :=
  if (pageOf s id).any fun p => p.margin.isSome then
    countPlaced 16 { s with cal := { s.cal with due := s.cal.due &&& 47 } }
  else s

end Sys2Proof.Machine
end

