-- ==== Sys2Proof/Machine/CamOps.lean ====
section
/-! DEFINITION. The camera sequencer's auxiliary channels (12_inspection_cameras.md, R367 to R373; 09_web_position.md, R284;
23_mode_combinations.md, R631). -/
namespace Sys2Proof.Machine
open Sys2Proof

/-- The run that is armed has an inspection level of MARKS or FULL. -/
def runInspects (s : State) : Bool := s.jobs.armed.any fun a => a.run.inspection ≠ 0

/-- A camera's line offset O_c in lines, from the leading bar (R290, R367). -/
def camOffset (s : State) (c : Nat) : Rat :=
  let lead : Nat := (s.jobs.armed.map fun a => a.leadOffset).getD 0
  ((max 0 (roundRat (((cfgN s Fld.camera_offset c : Int) - lead) * runLpi s * 256 / 25400000 : Rat)) : Int) : Rat) / 256

/-- Lines of the run's resolution per row of a camera (R368, R631). -/
def camLinePerRow (s : State) (c : Nat) : Rat :=
  ((cfgN s Fld.camera_line_per_row c * runLpi s : Nat) : Rat) / (1200 * 65536)

/-- H_c in lines (R369). -/
def camFrameLines (s : State) (c : Nat) : Rat := (cfgN s Fld.camera_height c : Rat) * camLinePerRow s c

/-- The frames that cover a number of lines. -/
def framesOver (s : State) (c lines : Nat) : Nat :=
  if camFrameLines s c = 0 then 0 else ((lines : Rat) / camFrameLines s c).ceil.toNat

/-- What a slot asks a camera to see: the line of the first trigger and the number of triggers (R369, R401). A slot that
passed BLANK has no mark area. -/
def slotFrames (s : State) (c : Nat) (r : RunDef) (x : Slot) : List (Rat × Nat) :=
  let o := camOffset s c
  if r.inspection = 2 then [((x.start : Rat) + o, framesOver s c (x.length + runGap r))]
  else if r.inspection = 1 && x.reasons &&& 1 = 0 then
    let guard_ := cfgN s Fld.calibration_guard_lines 0
    (match (pageOf s x.page).bind fun p => p.margin with
      | some _ => [((x.start : Rat) + o, framesOver s c (32 * (bitList 8 r.barMask).length))]
      | none => []) ++
    (match x.strip with
      | some st => st.blocks.map fun m =>
          (((x.start + x.length + guard_ + m.line : Int) : Rat) + o, framesOver s c m.lines)
      | none => [])
  else []

/-- All frame sequences of the run's slots so far, in the order of the web. -/
def camSequences (s : State) (c : Nat) : List (Rat × Nat) :=
  match s.jobs.armed with
  | none => []
  | some a => a.slots.flatMap (slotFrames s c a.run)

/-- A line number with fraction as a point of an input, with 32 fraction bits (R279). -/
def linePoint (x : Input) (line : Rat) : Int := roundRat ((x.origin : Rat) + line * x.spacing)

/-- The frame channel and the strobe channel of a camera. -/
def isFrameChan (c : Nat) (a : Option Aux) : Bool :=
  match a with
  | some x => x.action == .frame c
  | none => false

def isStrobeChan (s : State) (c : Nat) (a : Option Aux) : Bool :=
  match a with
  | some x => match x.action with
    | .pulse o _ => o = cfgN s Fld.camera_strobe_output c
    | _ => false
  | none => false

/-- The lines between a frame trigger and its strobe (R371, R631). -/
def strobeLines (s : State) (c : Nat) : Rat := ((cfgI s Fld.camera_strobe_offset c * runLpi s : Int) : Rat) / (1200 * 256)

/-- An exhausted channel takes the next sequence of points beyond its last one. -/
def loadChan (s : State) (c : Nat) (shift : Rat) (x : Aux) : Aux :=
  if x.count ≠ 0 then x
  else
    let i := inputOf s x.source
    let last := x.point - x.spacing
    match (camSequences s c).find? fun q => pointDiff last (linePoint i (q.1 + shift)) < 0 && q.2 ≠ 0 with
    | some q => { x with point := linePoint i (q.1 + shift), count := q.2
                         spacing := (roundRat (camFrameLines s c * i.spacing)).toNat }
    | none => x

/-- A channel of camera c, when it is one, takes up what is next. -/
def loadOne (s : State) (c : Nat) (a : Option Aux) : Option Aux :=
  if isFrameChan c a then a.map (loadChan s c 0)
  else if isStrobeChan s c a then a.map (loadChan s c (strobeLines s c)) else a

/-- The channels of a camera take up what is next. -/
def loadCam (c : Nat) (s : State) : State := { s with pos := { s.pos with aux := s.pos.aux.map (loadOne s c) } }

/-- The cameras that a run programs: enabled (R284). -/
def enabledCams (s : State) : List Nat := (List.range 4).filter fun c => cfgN s Fld.camera_enable c = 1

def loadCams (s : State) : State := forEach (enabledCams s) loadCam s

/-- At the entry into ARMED the channels of each enabled camera are programmed, and a port that is not READY is reported
(R366, R373). -/
def programCams (s : State) : State :=
  forEach (enabledCams s) (fun c s =>
    let src := cfgN s Fld.camera_source c
    let here : Int := (inputOf s src).hwm * 4294967296
    let s1 := addAux { source := src, point := here, spacing := 0, count := 0, action := .frame c } s
    let o := cfgN s Fld.camera_strobe_output c
    let s2 := if o < 8 then
        addAux { source := src, point := here, spacing := 0, count := 0
                 action := .pulse o (cfgN s Fld.camera_strobe_width c) } s1
      else s1
    if runInspects s2 && (camOf s2 c).state ≠ .ready then raise 0x0912 (leBytes 1 c ++ leBytes 4 s2.jobs.runId) s2
    else s2) s

end Sys2Proof.Machine
end

