-- ==== Sys2Proof/Machine/Release.lean ====
section
/-! DEFINITION. Releases and the not-ready policies (04_jobs_pages_runs.md, R115, R116, R122, R128 to R133; 16_satos_ring.md,
R495 to R498; 22_0824_compatibility.md, R615, R616; 23_mode_combinations.md, R625, R633). -/
namespace Sys2Proof.Machine
open Sys2Proof

/-! ### What is next -/

/-- The slot list of a run without the pages removed from it (R130). -/
def liveSlots (a : Armed) : List Nat := a.run.slots.filter fun id => !a.removed.contains id

/-- The pages still to be printed once those of the present cycle are through (*Table: Run forms*). -/
def refill (a : Armed) : Armed :=
  if a.queue.isEmpty && a.run.form = 2 && !(liveSlots a).isEmpty then
    match a.cyclesLeft with
    | none => { a with queue := liveSlots a }
    | some 0 => a
    | some (k + 1) => { a with queue := liveSlots a, cyclesLeft := some k }
  else a

/-- The page of the next slot. -/
def nextPage (s : State) : Option Nat := s.jobs.armed.bind fun a => a.queue.head?

/-- The slot before the next one. -/
def prevSlot (s : State) : Option Slot :=
  s.jobs.armed.bind fun a => if a.nextSlot = 0 then none else slotOf s (a.nextSlot - 1)

/-- A decision on a slot waits for the partner's acknowledgement (R508). -/
def slotPending (s : State) : Bool :=
  s.pair.decisions.any fun d => match d.2 with
    | .release _ _ _ => true
    | .notReady _ _ => true
    | .goStop => true
    | _ => false

/-- What keeps every slot from being released here: a halt or pause of a bar of the run, a page that is not ready, a run
whose definition is lost (R122, R250, R317). -/
def slotReadyHere (s : State) : Bool :=
  match nextPage s with
  | some p => pageReady s p && !anyHalted s && !anyPaused s && !s.jobs.armed.any fun a => a.lost
  | none => false

/-! ### The cascade (R491 to R498) -/

/-- The king's position counts as lost for a member (R489). -/
def kingLost (s : State) : Bool := !s.ring.kingHeard

/-- The two nodes of a position. -/
def posNodes (s : State) (p : Nat) : List Node := [nodeOf s (2 * p), nodeOf s (2 * p + 1)]

/-- A node of the roll takes part in the coordinated run: it has armed, or its module is SOLO or ACTIVE in the group
(R493, R495). -/
def inCascade (s : State) (n : Nat) : Bool :=
  let x := nodeOf s n
  x.armed.isSome || (x.present && x.pairActive && !x.lost && Config.groupNode n)

/-- Positions that take part in the coordinated run beside this one (R493, R495). -/
def cascadePositions (s : State) : List Nat :=
  (List.range 4).filter fun p => p ≠ nodeNumber s / 2 && (inCascade s (2 * p) || inCascade s (2 * p + 1))

/-- A position has armed the king's run with the king's digest (R493). -/
def posArmed (s : State) (run digest p : Nat) : Bool :=
  (posNodes s p).any fun n => n.armed.any fun x => x.1 = run && x.2.1 = digest

/-- A position is ready for a slot: in the roll, armed alike, and SLOT_READY sent (R495). -/
def posReady (s : State) (run digest slot p : Nat) : Bool :=
  posArmed s run digest p && ((posNodes s p).any fun n => n.ready.contains slot) &&
    (posNodes s p).any fun n => n.present && n.pairActive && !n.lost

/-- The digest of a run (R493, R622). -/
def runDigest (s : State) (r : RunDef) : Nat :=
  crc32c (leBytes 1 r.form ++ leBytes 1 r.policy ++ leBytes 1 (r.flags % 2) ++ leBytes 1 r.lpi ++ leBytes 4 r.gap ++
    leBytes 4 r.releaseLead ++ leBytes 1 r.startMode ++ leBytes 4 r.startValue ++ leBytes 4 r.repeatCount ++
    leBytes 4 r.slots.length ++ (r.slots.flatMap fun p => leBytes 4 (pageLength s p)) ++
    (if s.mod.compat then [0x13] else []))

/-- Every other position is ready for a slot (R495). -/
def othersReady (s : State) (a : Armed) : Bool :=
  (cascadePositions s).all (posReady s a.run.id a.digest a.nextSlot)

/-- A member tells the king that the next slot is ready here (R495). -/
def sendSlotReady (s : State) : State :=
  match s.jobs.armed with
  | none => s
  | some a =>
    if inGroup s && inRun s && !a.releasesEnded && joined s && drives s && slotReadyHere s && !s.ring.readySent.contains a.nextSlot
    then
      ringSendActive 0x32 0xFF (leBytes 4 a.run.id ++ leBytes 4 a.nextSlot)
        { s with ring := { s.ring with readySent := a.nextSlot :: s.ring.readySent } }
    else s

/-! ### The end of releases -/

/-- Releases end once nothing is left to be printed (R20, R134). -/
def endIfLast (s : State) : State :=
  match s.jobs.armed with
  | some a => if a.queue.isEmpty && !a.releasesEnded then settle (endReleases s) else s
  | none => s

/-- PRINT_GO, found deasserted at the release point of the next slot, has stopped the run (R616, R622). -/
def goStop (s : State) : State :=
  match s.jobs.armed with
  | some a => settle (sendCascadeStop 0 (endReleases (raise 0x031F (leBytes 4 a.run.id ++ leBytes 4 a.nextSlot) s)))
  | none => s

/-! ### A release takes effect -/

/-- PRINT begins: the bars' compare points count from here (R300). -/
def enterPrint (s : State) : State :=
  setModState .print 12 { s with fire := { s.fire with bars := s.fire.bars.map fun b => { b with pointsInPrint := 0 } } }

/-- The decompressors of the run's bars begin to read a slot's lane parts at its release point (R296). -/
def beginReading (x : Slot) (s : State) : State :=
  forEach (slotParts s x) (fun p => modLane p.lane (fun y => { y with reading := y.reading ++ [(x.num, 0)] })) s

/-- Slot `n` is released with page `id`, its page start at line `start` (R122, R131, R399, R625); the page leaves the queue where
it is the one whose turn it is. -/
def releaseSlot (turn : Bool) (n id : Nat) (start : Int) (s : State) : State :=
  match s.jobs.armed with
  | none => s
  | some a =>
    if n ≠ a.nextSlot || a.releasesEnded then s
    else
      let t := takeStrip n s
      let s0 := placeMargin id t.2
      let x : Slot := { num := n, page := id, state := .released, reasons := 0, start := start, length := pageLength s id
                        barsDone := 0, barsFired := 0, linksOut := 0, damaged := [], ended := false, strip := t.1
                        versions := [], streams := if pageQuarantined s id then none else oldStreams s id, latched := [], upsets := [], stripUpsets := [] }
      let s1 := modArmed (fun a => refill { a with
          queue := if turn && a.queue.head? = some id then a.queue.drop 1 else a.queue
          nextSlot := n + 1, nextStart := some (start + pitchOf s a.run id), hold := false
          slots := a.slots ++ [x] }) s0
      let s2 := raise 0x0314 (leBytes 4 n ++ leBytes 4 id) (beginReading x s1)
      let s3 := if s2.mod.state = .armed then enterPrint s2 else s2
      let s4 := if turn then ringDecision 0x33 (leBytes 4 a.run.id ++ leBytes 4 n ++ sgBytes 8 start) s3 else s3
      sendSlotReady (endIfLast (loadCams s4))

/-! ### A not-ready action takes effect (R128 to R131) -/

/-- The run without a page (R130). -/
def withoutPage (id : Nat) (a : Armed) : Armed :=
  refill { a with queue := a.queue.filter (· ≠ id), removed := id :: a.removed }

/-- A page is removed from the run, and counts as quarantined in it (R130, R139). The spec does not say whether such a
page counts as it becomes QUARANTINED or as it is removed: DESIGN CHOICE, log entry 83. -/
def removePage (id : Nat) (s : State) : State :=
  raise 0x0313 (leBytes 4 id ++ leBytes 2 (((pageOf s id).map failedRegions).getD 0))
    (modArmed (fun a => { withoutPage id a with quarantined := wrapInc 32 a.quarantined }) s)

/-- The head page, when QUARANTINED, leaves the run (R130). -/
def dropQuarantined (s : State) : State :=
  match nextPage s with
  | some id => if s.jobs.armed.isSome && pageQuarantined s id then removePage id s else s
  | none => s

/-- Under HOLD, QUARANTINED pages leave the held slot one after the other; the last page of the run stays, for its slot to
pass as under BLANK (R130). `n` bounds them. -/
def dropHeldPages : Nat → State → State
  | 0, s => s
  | n + 1, s =>
    match s.jobs.armed, nextPage s with
    | some a, some id =>
      if a.hold && pageQuarantined s id && !(withoutPage id a).queue.isEmpty then dropHeldPages n (removePage id s) else s
    | _, _ => s

/-- The pages that come before page `id` have been removed where the slot was decided (R130, R133). `n` bounds them. -/
def dropBefore : Nat → Nat → State → State
  | 0, _, s => s
  | n + 1, id, s =>
    match s.jobs.armed, nextPage s with
    | some a, some h => if h ≠ id && a.queue.contains id then dropBefore n id (removePage h s) else s
    | _, _ => s

/-- The pages in the queue of the run. -/
def queueLength (s : State) : Nat := (s.jobs.armed.map fun a => a.queue.length).getD 0

/-- The release of the page whose turn it is, those removed before it being gone (R122, R130). -/
def applyRelease (n id : Nat) (start : Int) (s : State) : State := releaseSlot true n id start (dropBefore (queueLength s) id s)

/-- The slot passes unprinted, SPOILED with reason BLANK, and ends (R119, R128). -/
def passBlank (n id : Nat) (s : State) : State :=
  match s.jobs.armed with
  | none => s
  | some a =>
    let start := a.nextStart.getD (leadNextLine s + a.run.releaseLead)
    let x : Slot := { num := n, page := id, state := .spoiled, reasons := 2 ^ spoilBlank, start := start, length := pageLength s id
                      barsDone := 0, barsFired := 0, linksOut := 0, damaged := [], ended := true, strip := none
                      versions := [], streams := none, latched := [], upsets := [], stripUpsets := [] }
    raise 0x0316 (leBytes 4 n ++ leBytes 4 id ++ leBytes 1 1) <|
      modArmed (fun a => { a with
        nextSlot := n + 1, nextStart := some (start + pitchOf s a.run id), hold := false
        spoiled := wrapInc 32 a.spoiled, slots := a.slots ++ [x] }) (passStrip n s)

/-- The not-ready action on slot `n`: 0 BLANK, 1 REPEAT, 2 HOLD; a QUARANTINED page leaves the run first (R128, R129,
R130). -/
def applyNotReady (n action : Nat) (s0 : State) : State :=
  let s := if follows s0 then dropHeldPages (queueLength s0) s0 else s0
  match s.jobs.armed, nextPage s with
  | some a, some id =>
    if n ≠ a.nextSlot || a.releasesEnded || (action = 2 && a.hold) then s
    else
      let s1 := raise 0x0312 (leBytes 4 n ++ leBytes 4 id ++ leBytes 1 action) (dropQuarantined s)
      let s2 := ringDecision 0x34 (leBytes 4 a.run.id ++ leBytes 4 n ++ leBytes 1 action) s1
      if action = 2 then endIfLast (modArmed (fun a => { a with hold := true, nextStart := none }) s2)
      else if action = 1 then
        match prevSlot s with
        | some x => releaseSlot false n x.page (a.nextStart.getD (leadNextLine s + a.run.releaseLead)) s2
        | none => sendSlotReady (endIfLast (loadCams (passBlank n id s2)))
      else sendSlotReady (endIfLast (loadCams (passBlank n id s2)))
  | _, _ => s

/-! ### Decisions (R122, R507, R633) -/

/-- The action of the run's policy on the next slot: REPEAT needs a repeatable run, the previous slot's page in the page
store and no pause; where the page removed is the run's last, the slot passes as under BLANK (R128, R130, R317). -/
def policyAction (s : State) : Nat :=
  match s.jobs.armed, nextPage s with
  | some a, some id =>
    if pageQuarantined s id && (withoutPage id a).queue.isEmpty then 0
    else if a.run.policy = 1 && a.run.flags.testBit 0 && !anyPaused s && !anyHalted s &&
        (prevSlot s).any fun x => pageReady s x.page && x.reasons &&& 1 = 0 then 1
    else if a.run.policy = 2 then 2
    else 0
  | _, _ => 0

/-- The re-rendered cycle is complete, and with a partner its signatures match: the run changes over (R115, R413,
R633). -/
def changeover (s : State) : State :=
  { s with cal := { s.cal with rerendering := false, oldParts := [] } }

/-- Every page of the new cycle is RENDERED, and matches the partner's where the partner takes decisions. -/
def changeoverDue (s : State) : Bool :=
  s.cal.rerendering && s.cal.rerenderPages.isEmpty && !(s.pair.decisions.any fun d => d.2 = .changeover) &&
    match s.jobs.armed with
    | some a => (liveSlots a).all fun id => pageRendered s id &&
        (!partnerTakes s || (pageOf s id).any fun p => p.partnerSig.isSome)
    | none => false

/-- The token of the changeover goes directly before the RELEASE of its slot, and takes effect as that does (R508, R633). -/
def doChangeover (n : Nat) (s : State) : State :=
  if changeoverDue s && drives s then
    onAck 0x05 (leBytes 1 0xFF ++ leBytes 1 0 ++ leBytes 4 n ++ leBytes 4 0) .changeover changeover s
  else s

/-- Releases the next slot at a page start (R122). -/
def decideRelease (id : Nat) (start : Int) (s : State) : State :=
  match s.jobs.armed with
  | none => s
  | some a =>
    onAck 0x02 (leBytes 4 a.nextSlot ++ leBytes 4 id ++ sgBytes 8 start) (.release a.nextSlot id start)
      (applyRelease a.nextSlot id start) (doChangeover a.nextSlot s)

/-- Applies the not-ready policy to the next slot (R128). -/
def decideNotReady (action : Nat) (s : State) : State :=
  match s.jobs.armed with
  | none => s
  | some a =>
    onAck 0x03 (leBytes 4 a.nextSlot ++ leBytes 1 action) (.notReady a.nextSlot action)
      (applyNotReady a.nextSlot action) s

/-- The run stops by PRINT_GO. The spec has the standby take such a stop from a RUN token, and lists no token of that
name: the model sends a RING token with CASCADE_STOP's type and body, cause 0 (R616, R622, R623; DESIGN CHOICE, log entry
45). -/
def decideGoStop (a : Armed) (s : State) : State :=
  onAck 0x07 (leBytes 1 0x35 ++ leBytes 4 a.run.id ++ leBytes 1 0) .goStop goStop s

/-- The module decides releases: it is no follower, and in a coordinated cascade it is the king with CASCADE_ARMED sent
(R133, R494, R495, R625). -/
def decidesSlots (s : State) : Bool :=
  drives s && inRun s && !slotPending s &&
    (!inGroup s || (groupKing s && s.ring.cascade.isSome && !s.ring.stopped))

/-- The NEXT start is fixed: its release point is the leading bar's line position arm_lead after the entry into ARMED,
or after CASCADE_ARMED (R116, R494). A position between two lines counts as the later one: DESIGN CHOICE, log entry 35. -/
def fixStart (s : State) : State :=
  match s.jobs.armed with
  | none => s
  | some a =>
    if a.nextSlot = 0 && a.nextStart.isNone && !a.hold && a.run.startMode = 0 && !s.mod.compat &&
        a.armedAt + msT a.run.armLead ≤ s.now then
      modArmed (fun a => { a with nextStart := some ((leadPosition s).ceil + a.run.releaseLead) }) s
    else s

/-- A slot decision at the present web position: a held slot is released once it can be, any other at its release point
(R122, R128, R131, R615, R616). -/
def decideOnce (s : State) : State :=
  if !decidesSlots s then s
  else
    let s1 := fixStart s
    match s1.jobs.armed, nextPage s1 with
    | some a, some id =>
      let ready := slotReadyHere s1 && (!inGroup s1 || othersReady s1 a)
      if a.releasesEnded then s1
      else if a.hold then
        if ready then decideRelease id ((leadPosition s1).ceil + a.run.releaseLead) s1
        else if pageQuarantined s1 id then
          if policyAction s1 = 2 then dropQuarantined s1 else decideNotReady (policyAction s1) s1
        else s1
      else
        match releasePoint s1 a, a.nextStart with
        | some rp, some start =>
          if rp < leadNextLine s1 then
            if s1.mod.compat && 0 < a.nextSlot && !s1.mod.printGo then decideGoStop a s1
            else if ready then decideRelease id start s1
            else decideNotReady (policyAction s1) s1
          else s1
        | _, _ => s1
    | _, _ => s1

/-- While the run is held, the page that has moved into the held slot is looked at in its turn (R130, R131). -/
def decideHeld : Nat → State → State
  | 0, s => s
  | n + 1, s =>
    if s.jobs.armed.any fun a => a.hold then
      let s1 := decideOnce s
      if nextPage s1 = nextPage s then s1 else decideHeld n s1
    else s

/-- The slot decisions of this moment (R122, R128 to R131). -/
def decideSlot (s : State) : State := decideHeld (queueLength s) (decideOnce s)

/-- What may now be released is released: a held slot on the king or alone, SLOT_READY on a member, whose own QUARANTINED
pages leave the slot first (R130, R131, R495). -/
def retryHold (s : State) : State :=
  let s1 := sendSlotReady (if drives s && inGroup s && !groupKing s then dropHeldPages (queueLength s) s else s)
  if s1.jobs.armed.any fun a => a.hold then decideSlot s1 else s1

end Sys2Proof.Machine
end

