-- ==== Sys2Proof/Machine/BarOps.lean ====
section
/-! DEFINITION. The bars of the fire engine (10_firing.md; 11_tollos_link.md, R333, R335; 23_mode_combinations.md, R629 to
R631): offsets and latches, the line buffer, packets, FIRE-SYNC, drops and damaged lines. -/
namespace Sys2Proof.Machine
open Sys2Proof

/-! ### Offsets, taps and delays -/

/-- A signed value of 1200-lpi lines scaled to `lpi`, halves away from zero (R631). -/
def scaleLpi (v : Int) (lpi : Nat) : Int := roundRat ((v * lpi : Int) / 1200 : Rat)

/-- o_b in 1/256 line for a registration tap (R290, R631). -/
def barOffsetOf (s : State) (b : Nat) (reg : Int) : Nat :=
  let lead := ((s.jobs.armed.map fun a => a.leadOffset).getD 0 : Nat)
  let d : Rat := (((cfgN s Fld.geometry_bar_offset b : Int) - lead) * runLpi s * 256 : Int) / 25400000
  (roundRat d + scaleLpi reg (runLpi s)).toNat

/-- One value that slews towards its target (R412): by at most slew_step where the run asks for it. -/
def slewTo (s : State) (old new : Int) : Int :=
  match s.jobs.armed with
  | some a =>
    if a.run.form = 1 || (a.run.form = 2 && runGap a.run < 64) then
      old + clampInt (-(cfgN s Fld.calibration_slew_step 0 : Int)) (cfgN s Fld.calibration_slew_step 0) (new - old)
    else new
  | none => new

/-- f of a rank of link k of bar b (R630). -/
def rankFraction (s : State) (b k r : Nat) : Nat :=
  let x := barOf s b
  let tap := (x.rankTaps.getD (k % 2) []).getD r 0
  x.offset % 256 +
    (((cfgN s Fld.firing_rank_delay (16 * k + r) * 256 + tap) * runLpi s + 600) / 1200 : Int).toNat

/-- hd of a head (R630). -/
def headLines (s : State) (k h : Nat) : Nat := (cfgN s Fld.firing_head_delay (32 * k + h) * runLpi s + 600) / 1200

/-- k(s) of a link slot (R294, R630). -/
def totalDelay (s : State) (b k slot : Nat) : Nat :=
  match slotHead s.conf.cfg k slot with
  | some (h, hd, n) => headLines s k h + rankFraction s b k (hd.rankBase + n % max 1 hd.rankCount) / 256
  | none => 0

/-- K_b, the largest total integer delay of the bar's nozzles (R291). -/
def largestTotal (s : State) (b : Nat) : Nat :=
  ((barLinks s.conf.cfg b).flatMap fun k => (headsOf s.conf.cfg k).zipIdx.flatMap fun p =>
    (headRanks p.1).map fun r => headLines s k p.2 + rankFraction s b k r / 256).foldl max 0

/-- The ranks of a link that have nozzles. -/
def linkRanks (c : Cfg) (k : Nat) : List Nat := ((headsOf c k).flatMap headRanks).eraseDups

/-! ### Packet time and ceilings -/

/-- The packet time of link k in 1/256 tick (R335). -/
def linkPacketTime (s : State) (k : Nat) : Nat :=
  let n := linkBytes s.conf.cfg k (runDepth s)
  max (ceilDiv (n * 320) 3) (ceilDiv ((n + 64) * 512) 5)

/-- The packet time of a bar: its packet is complete on every lane when that of its slowest link is (R301, R335). -/
def packetTime (s : State) (b : Nat) : Nat := ((barLinks s.conf.cfg b).map (linkPacketTime s)).foldl max 0

/-- How long the symbols of a line packet take on a lane: 54 of framing and its lane line, at 6.25 Gbaud; the rest of the
packet time carries fill (R335, R336). -/
def packetSpan (s : State) (g : Nat) : Nat := ceilDiv ((54 + fullLaneLine s.conf.cfg (g / 3) (g % 3) (runDepth s)) * 512) 5

/-- The longest deferral of a bar in 1/256 tick (R306). -/
def maxDefer (s : State) (b : Nat) : Rat :=
  (cfgN s Fld.firing_max_defer 0 : Rat) * 250000000 / barCeiling s.conf.cfg b (runDepth s)

/-- The line sequence of compare point n on a bar (R292). -/
def seqOf (s : State) (b : Nat) (n : Int) : Nat :=
  match barInput s b with
  | some i => ofSigned 32 (n - (inputOf s i).nArm)
  | none => 0

/-- T_est in ns (R299). -/
def estPeriod (s : State) (b : Nat) : Rat :=
  match barInput s b with
  | none => 262140
  | some i =>
    let v := speedEstimate s i
    if v ≤ 0 then 262140 else min 262140 (((inputOf s i).spacing : Rat) / 4294967296 / v * 1000000000)

/-- The delay field of rank r (R299). -/
def delayField (s : State) (b k r : Nat) : Nat :=
  if (linkRanks s.conf.cfg k).contains r then
    min 65535 ((((rankFraction s b k r % 256 : Nat) : Rat) * estPeriod s b / 256 + 2) / 4).floor.toNat
  else 0

/-! ### The line buffer (R295) -/

/-- Block i of a lane part as its decompressor reads it: as stored, or what memory made of it (R217). -/
def blockRead (p : LanePart) (upsets : List (Nat × Nat × BlockRead)) (i : Nat) : BlockRead :=
  ((upsets.find? fun u => u.1 = p.lane && u.2.1 = i).map fun u => u.2.2).getD ⟨p.blocks.getD i [], none⟩

/-- What a decompressor delivers for block i of a lane part, and the failure (R189, R195, R203, R217). -/
def deliverBlock (p : LanePart) (i : Nat) (r : BlockRead) : List Byte × Option Nat :=
  decodeLaneBlock (dictBefore (p.blocks.set i r.bytes) i) i (min 65536 (p.length - 65536 * i)) r

/-- The bytes of line y of a lane part, from its blocks (R189, R203). -/
def partLine (p : LanePart) (upsets : List (Nat × Nat × BlockRead)) (y : Nat) : List Byte :=
  let lo := y * p.lineLen
  let hi := lo + p.lineLen
  let chunk (i : Nat) : List Byte := (deliverBlock p i (blockRead p upsets i)).1
  if p.lineLen = 0 then []
  else
    let first := lo / 65536
    let bytes := (List.range ((hi - 1) / 65536 + 1 - first)).flatMap fun i => chunk (first + i)
    (bytes.drop (lo - 65536 * first)).take p.lineLen

/-- A lane line within its full lane line: level 0 in every group outside the span (R295). -/
def widenLine (c : Cfg) (k n d : Nat) (span : Nat × Nat) (line : List Byte) : List Byte :=
  let before := ((List.range span.1).filter fun g => g % 3 = n).length * 8 * d
  padTo (fullLaneLine c k n d) (List.replicate before 0 ++ line)

/-- The spans of a strip: every covered file of the run's bars (R397). -/
def stripSpan (c : Cfg) (k : Nat) : Option (Nat × Nat) :=
  if linkSlots c k = 0 then none else some (0, lastGroup c k)

/-- The part of a lane. -/
def lanePart (l : List LanePart) (g : Nat) : Option LanePart := l.find? fun p => p.lane = g

/-- The lane line of global lane g at compare point n on bar b, none where it carries no page line, and of a slot whose firing has
stopped (R218, R291, R295, R399). -/
def laneLineAt (s : State) (b g : Nat) (n : Int) : Option (List Byte) :=
  let k := g / 3
  let c := s.conf.cfg
  ((s.jobs.armed.map fun a => a.slots).getD []).reverse.findSome? fun x =>
    match x.latched.find? fun q => q.1 = b with
    | none => none
    | some (_, first, _) =>
      let y := n - first
      if y < 0 || !(laneOf s g).reading.any (fun q => q.1 = x.num) then none
      else if y < x.length then
        (pageOf s x.page).bind fun pg => (lanePart (slotParts s x) g).bind fun p =>
          ((pageSpans c pg).find? fun q => q.1 = k).map fun q =>
            widenLine c k (g % 3) pg.depth q.2 (partLine p x.upsets y.toNat)
      else
        x.strip.bind fun st =>
          let z := y - x.length - cfgN s Fld.calibration_guard_lines 0
          if 0 ≤ z && z < st.lines then
            (lanePart st.parts g).bind fun p => (stripSpan c k).map fun sp =>
              widenLine c k (g % 3) (runDepth s) sp (partLine p x.stripUpsets z.toNat)
          else none

/-- Puts a lane line into the line buffer; a line of level 0 is not listed. -/
def putLine (n : Int) (line : Option (List Byte)) (x : FireLane) : FireLane :=
  let i := (n % 64).toNat
  let rest := x.buffer.filter fun p => p.1 ≠ i
  match line with
  | some l => { x with buffer := if l.all (· = 0) then rest else (i, l) :: rest }
  | none => { x with buffer := rest }

/-- The slot whose line a bar's decompressors deliver at compare point n, and the line, those of its strip after those of
its page. -/
def pageLineAt (s : State) (b : Nat) (n : Int) : Option (Nat × Nat) :=
  ((s.jobs.armed.map fun a => a.slots).getD []).reverse.findSome? fun x =>
    (x.latched.find? fun q => q.1 = b).bind fun q =>
      let y := n - q.2.1
      if y < 0 then none
      else if y < x.length then some (x.num, y.toNat)
      else x.strip.bind fun st =>
        let z := y - cfgN s Fld.calibration_guard_lines 0
        if x.length ≤ z && z < x.length + st.lines then some (x.num, z.toNat) else none

/-- A decompressor has delivered a line of a slot: it has left the slots before it (R296). -/
def advanceReading (q : Option (Nat × Nat)) (l : List (Nat × Nat)) : List (Nat × Nat) :=
  match q with
  | none => l
  | some (n, y) => (l.dropWhile fun p => p.1 < n).map fun p => if p.1 = n then (n, max p.2 (y + 1)) else p

/-- The line buffers of a bar take the lane lines of compare point n from its decompressors (R295, R296). -/
def fillLine (b : Nat) (n : Int) (s : State) : State :=
  forEach (barLanes b) (fun g s => modLane g (fun x =>
    { putLine n (laneLineAt s b g n) x with reading := advanceReading (pageLineAt s b n) x.reading }) s) s

/-- The level of a link slot at compare point n (R295). -/
def slotLevelAt (s : State) (b k slot : Nat) (n : Int) : Nat :=
  let d := runDepth s
  let g := slot / 64
  let i := ((n - totalDelay s b k slot) % 64).toNat
  match (laneOf s (3 * k + g % 3)).buffer.find? fun p => p.1 = i with
  | none => 0
  | some (_, l) => fld l (g / 3 * 8 * d) (8 * d) / 2 ^ (slot % 64 * d) % 2 ^ d

/-- The payload of the line packet of lane n of a link: its groups, slot by slot (R187, R295, R333). -/
def packetPayload (s : State) (b k lane : Nat) (n : Int) : List Byte :=
  let d := runDepth s
  (laneGroups (0, lastGroup s.conf.cfg k) lane).flatMap fun g =>
    leBytes (8 * d) ((List.range 64).map fun j =>
      if 64 * g + j < linkSlots s.conf.cfg k then slotLevelAt s b k (64 * g + j) n * 2 ^ (j * d) else 0).sum

/-- The line packet of a lane, from its type byte (*Table: Line packet*). -/
def linePacket (s : State) (b k lane : Nat) (n : Int) : List Byte :=
  let p := packetPayload s b k lane n
  leBytes 1 1 ++ leBytes 1 (lane + if runDepth s = 2 then 4 else 0) ++ leBytes 2 s.jobs.runTag ++ leBytes 4 (seqOf s b n) ++
    leBytes 4 (ownerWord s) ++ leBytes 2 p.length ++ leBytes 2 0 ++
    ((List.range 16).flatMap fun r => leBytes 2 (delayField s b k r)) ++ p

/-- The links of a bar that send line packets: UP, and joined to the bar's present slot (R321, R346). -/
def sendingLinks (s : State) (b : Nat) : List Nat :=
  (barLinks s.conf.cfg b).filter fun k => linkUp s k && !(linkOf s k).joinNext

/-! ### Latching at a slot's first line (R297) -/

/-- The fire-side elements of a bar (*Table: Correction kinds*): its registration and the ranks of its links. -/
def fireElements (s : State) (b : Nat) : List Element :=
  ⟨4, b, 0⟩ :: (barLinks s.conf.cfg b).flatMap fun k => (linkRanks s.conf.cfg k).map fun r => ⟨2, k, r⟩

/-- The bar's taps move to the accepted ones, and o_b and K_b follow (R290, R297, R412, R630). -/
def latchTaps (b : Nat) (s : State) : State :=
  let x := barOf s b
  let reg := slewTo s x.regTap (s.cal.values.reg.getD b 0)
  let taps := (List.range 2).map fun j => (List.range 16).map fun r =>
    slewTo s ((x.rankTaps.getD j []).getD r 0) (rankTapOf s (2 * b + j) r)
  let s1 := modBar b (fun y => { y with regTap := reg, rankTaps := taps, offset := barOffsetOf s b reg }) s
  modBar b (fun y => { y with maxDelay := largestTotal s1 b }) s1

/-- A slewed element has reached its value: its version rises (R412). -/
def endSlews (b : Nat) (s : State) : State :=
  let x := barOf s b
  let cur (e : Element) : Int := if e.kind = 4 then x.regTap else (x.rankTaps.getD (e.unit % 2) []).getD e.num 0
  let mine (e : Element) : Bool := if e.kind = 4 then e.unit = b else e.unit / 2 = b
  forEach (s.cal.slews.filter fun p => mine p.1 && cur p.1 = p.2) (fun p s => raiseVersion p.1
    { s with cal := { s.cal with slews := s.cal.slews.filter fun q => q.1 ≠ p.1 } }) s

/-- Every slot of the run, ended or not. -/
def allSlots (s : State) : List Slot := (s.jobs.armed.map fun a => a.slots).getD []

/-- The next slot that bar b has not latched, whether or not the bar still fires it (R297). -/
def nextToLatch (s : State) (b : Nat) : Option Slot :=
  (allSlots s).find? fun x => !(x.latched.any fun q => q.1 = b)

/-- The marks of a slot's strip or margin are recorded as printed, when its first line is latched on the leading bar
(R393, R402). -/
def noteMarks (b : Nat) (x : Slot) (s : State) : State :=
  match s.jobs.armed with
  | none => s
  | some a =>
    if b ≠ a.leadBar || x.ended || x.barsDone.testBit b then s
    else
      let guard_ := cfgN s Fld.calibration_guard_lines 0
      let cov := maskCovered s.conf.cfg a.run.barMask
      let full : Nat × Nat := match cov.head?, cov.getLast? with
        | some p, some q => (p.1, q.2 - p.1)
        | _, _ => (0, 0)
      let strips := match x.strip with
        | some st => st.blocks.map fun m =>
            ({ slot := x.num, block := m, point := x.start + x.length + guard_ + m.line, versions := st.versions
               files := full } : PrintedMark)
        | none => []
      let margins := match (pageOf s x.page).bind fun p => p.margin with
        | some m =>
          [({ slot := x.num, block := ⟨4, 0, 0, 32 * (bitList 8 a.run.barMask).length⟩, point := x.start, versions := []
              files := m } : PrintedMark)]
        | none => []
      { s with cal := { s.cal with marks := s.cal.marks ++ strips ++ margins } }

/-- Bar b reaches the first line of a slot at compare point n: taps latched, links joined or left out, an inhibit that may
end ends (R297, R319, R321, R346, R393). -/
def latchSlot (b : Nat) (n : Int) (x : Slot) (s : State) : State :=
  let s1 := endSlews b (latchTaps b s)
  let o := (barOf s1 b).offset
  let s2 := forEach (barLinks s1.conf.cfg b) (fun k => modLink k fun l => { l with joinNext := false }) s1
  let out := ((barLinks s2.conf.cfg b).filter fun k => !linkUp s2 k)
  let s3 := modSlot x.num (fun y => { y with
      latched := y.latched ++ [(b, x.start + (o / 256 : Nat), (barOf s1 b).maxDelay)]
      linksOut := y.linksOut ||| bitsOf out
      versions := y.versions ++ (fireElements s2 b).map fun e => (e, versionOf s2 e) }) s2
  let s4 := if (barOf s3 b).inhibited && (barOf s3 b).inhibitCool && !x.ended && !x.barsDone.testBit b then
      raise 0x0518 (leBytes 1 b) (modBar b (fun y => { y with inhibited := false, inhibitCool := false })
        (sendToken 0x08 (leBytes 1 b ++ leBytes 1 4 ++ leBytes 4 (seqOf s3 b n) ++ leBytes 1 0) s3))
    else s3
  noteMarks b x s4

/-- Latches the bar's next slot when compare point n reaches its first line; `fuel` bounds the slots. -/
def latchDueSlots (b : Nat) (n : Int) : Nat → State → State
  | 0, s => s
  | fuel + 1, s =>
    match nextToLatch s b with
    | none => s
    | some x =>
      let o := barOffsetOf s b (slewTo s (barOf s b).regTap (s.cal.values.reg.getD b 0)) / 256
      if x.start + o ≤ n then latchDueSlots b n fuel (latchSlot b n x s) else s

/-! ### Packets (R300, R301, R335) -/

/-- The packets of compare point n go out on the bar's lanes, each followed by K28.5: where the module drives its links
and the bar is not inhibited (R331, R336). -/
def sendPackets (b : Nat) (n : Int) (s : State) : State :=
  if drives s && !(barOf s b).inhibited then
    forEach (sendingLinks s b) (fun k => forEach [0, 1, 2] fun l s =>
      sendSymbols (3 * k + l) (frameSymbols (linePacket s b k l n) ++ [kComma]) s) s
  else s

/-- The lane is carrying the symbols of a line packet (R301, R335). -/
def packetOnLane (s : State) (g : Nat) : Bool :=
  isFiring s && drives s && (sendingLinks s (g / 6)).contains (g / 3) && !(barOf s (g / 6)).inhibited &&
    (barOf s (g / 6)).packet.any fun p => p.start ≤ s.now && s.now < p.start + packetSpan s g

/-- A line packet on a lane gives way to idle (R318, R500). -/
def endPacket (g : Nat) (s : State) : State :=
  if (barOf s (g / 6)).packet.any fun p => p.start ≤ s.now && s.now < p.start + packetSpan s g && !(laneRest s g).isEmpty then
    putSymbols g .idle [kComma] s
  else s

/-- The line buffers take every line from the one after the last packet's up to n. -/
def fillUpTo (b : Nat) (n : Int) (s : State) : State :=
  let from_ := match (barOf s b).packet with
    | some p => max (p.n + 1) (n - 63)
    | none => n - 63
  forEach (List.range (n + 1 - from_).toNat) (fun j => fillLine b (from_ + (j : Nat))) s

/-- The packet of compare point n starts (R301). -/
def startPacket (b : Nat) (n : Int) (s : State) : State :=
  let s1 := fillUpTo b n (latchDueSlots b n 16 s)
  let on := (slotsOn s1 b).filterMap fun x =>
    if x.latched.any fun q => q.1 = b && q.2.1 ≤ n then some x.num else none
  sendPackets b n (modBar b (fun y => { y with packet := some { n := n, start := s.now, done := none, slots := on } }) s1)

/-- The bar has slots to fire: always in PRINT, and in DRAIN until its last one ends (R300). -/
def barGoesOn (s : State) (b : Nat) : Bool :=
  !halted s b && (s.mod.state = .print || (s.mod.state = .drain && !(slotsOn s b).isEmpty))

/-- After point n is handled the packet of the next point starts, or the bar goes idle (R300, R301). -/
def nextPacket (b : Nat) (n : Int) (s : State) : State :=
  if barGoesOn s b then startPacket b n s else modBar b (fun y => { y with packet := none }) s

/-! ### Lines handled -/

/-- The last line of a slot on a bar, its strip included (R119, R291, R399). -/
def slotLastLine (s : State) (x : Slot) (first : Int) (K : Nat) : Int :=
  first + x.length - 1 + K +
    match x.strip with
    | some st => ((cfgN s Fld.calibration_guard_lines 0 + st.lines : Nat) : Int)
    | none => 0

/-- The slots that have a line at compare point n on bar b. -/
def slotsAt (s : State) (b : Nat) (n : Int) : List Slot :=
  (slotsOn s b).filter fun x => x.latched.any fun q => q.1 = b && q.2.1 ≤ n && n ≤ slotLastLine s x q.2.1 q.2.2

/-- Slots whose last line on the bar lies at or before n are done on it (R119). -/
def finishSlots (b : Nat) (n : Int) (s : State) : State :=
  let ns := (slotsOn s b).filter fun x => x.latched.any fun q => q.1 = b && slotLastLine s x q.2.1 q.2.2 ≤ n
  forEach (ns.map fun x => x.num) (barDone b) s

/-- A slot whose first line a bar fires is FIRING (R117). -/
def markFiring (b : Nat) (n : Int) (s : State) : State :=
  forEach ((slotsAt s b n).map fun x => x.num) (fun i => modSlot i fun y => { y with
    state := if y.state = .released then .firing else y.state, barsFired := y.barsFired ||| 2 ^ b }) s

/-- A line fired without a link that its slot counts on is damaged (10, Damaged lines). -/
def countMissing (b : Nat) (n : Int) (s : State) : State :=
  let gone := (barLinks s.conf.cfg b).filter fun k => !(sendingLinks s b).contains k
  if (slotsAt s b n).any fun x => gone.any fun k => !x.linksOut.testBit k then
    modBar b (fun y => { y with damagedLines := wrapInc 16 y.damagedLines }) s
  else s

/-- The data lanes of the links that take part in a bar's slot: a link that is not UP carries training blocks, and one
that came up during the slot idle (R302, R346, *Table: Link states*). -/
def sendingLanes (s : State) (b : Nat) : List Nat := (sendingLinks s b).flatMap fun k => [3 * k, 3 * k + 1, 3 * k + 2]

/-- FIRE-SYNC of compare point n is inserted (R302, R668); a following module sends none and counts none (R322). -/
def insertSync (b : Nat) (n : Int) (s : State) : State :=
  let q := seqOf s b n
  let s1 := if drives s then
      forEach (sendingLanes s b) (fun g => insertSymbols g (syncSymbols q)) (modBar b (fun y => { y with
        linesFired := wrapInc 32 y.linesFired, castleWait := false
        castleSeq := if y.castleWait then q % 2 ^ 24 else y.castleSeq }) s)
    else s
  finishSlots b n (countMissing b n (markFiring b n s1))

/-- The decision token BAR (*Table: Decision tokens*, 0x08). -/
def barToken (b action seq cause : Nat) (s : State) : State :=
  sendToken 0x08 (leBytes 1 b ++ leBytes 1 action ++ leBytes 4 seq ++ leBytes 1 cause) s

/-- A slot that has ended as FIRED turns out to have lost a line: it is SPOILED (R322). -/
def respoil (n bit : Nat) (s : State) : State :=
  match slotOf s n with
  | none => s
  | some x =>
    if x.ended && x.state = .fired then
      raise 0x0316 (leBytes 4 n ++ leBytes 4 x.page ++ leBytes 1 (2 ^ bit)) <|
        modArmed (fun a => { a with fired := a.fired - 1, spoiled := wrapInc 32 a.spoiled }) <|
          modSlot n (fun y => { y with state := .spoiled, reasons := 2 ^ bit }) s
    else s

/-- The slots, ended or not, that have a line at compare point n on bar b; for one that the bar has yet to latch, by its
offset now (R291, R307, R322). -/
def allSlotsAt (s : State) (b : Nat) (n : Int) : List Slot :=
  (allSlots s).filter fun x =>
    match x.latched.find? fun q => q.1 = b with
    | some q => q.2.1 ≤ n && n ≤ slotLastLine s x q.2.1 q.2.2
    | none =>
      let first : Int := x.start + (barOffsetOf s b (slewTo s (barOf s b).regTap (s.cal.values.reg.getD b 0)) / 256 : Nat)
      first ≤ n && n ≤ slotLastLine s x first (barOf s b).maxDelay

/-- What a drop of line n does to the bar, here or by token: its slots are SPOILED, the line is used up; a following
module, which has handled the line by then, spoils also the slots that ended with it. A slot that begins with the line is
latched when the next packet starts: those of earlier lines may still be to come (R297, R307, R322). -/
def applyDrop (b : Nat) (n : Int) (s : State) : State :=
  let on := (allSlotsAt s b n).filter fun x => !x.barsDone.testBit b
  let s2 := forEach (on.map fun x => x.num) (fun i => spoilSlot i spoilOverspeed) s
  let s3 := if follows s2 then forEach ((allSlotsAt s2 b n).map fun x => x.num) (fun i => respoil i spoilOverspeed) s2 else s2
  finishSlots b n (modBar b (fun y => { y with drops := wrapInc 16 y.drops }) s3)

/-- OVERSPEED_DROP, at most once per second and bar (R307). -/
def dropEvent (b : Nat) (n : Int) (deltaNs : Nat) (s : State) : State :=
  raiseLimited 0x0510 b (secT 1) (fun k => leBytes 1 b ++ leBytes 4 (seqOf s b n) ++ leBytes 4 deltaNs ++ leBytes 4 k) s

/-! ### OVERSPEED_N (R309) -/

/-- The warning level of a bar in lines/s, less `pc` percent of its ceiling. -/
def warnLevel (s : State) (b pc : Nat) : Rat :=
  barCeiling s.conf.cfg b (runDepth s) * ((cfgN s Fld.firing_overspeed_warn 0 - pc : Nat) : Rat) / 100

/-- The measured line rate of a bar. -/
def barRate (s : State) (b : Nat) : Rat := ((barInput s b).map fun i => lineRate s i).getD 0

/-- The rates as they are now: each bar's flag, OVERSPEED_N and its event, and since when the web has been slow (R309). -/
def updateOverspeed (s : State) : State :=
  if !inRun s then s
  else
    let s1 := forEach (runBars s) (fun b s => modBar b (fun y => { y with overspeed := warnLevel s b 0 < barRate s b }) s) s
    let fast := (runBars s1).find? fun b => (barOf s1 b).overspeed
    let recent := s1.fire.lastDrop.any fun t => s1.now < t + msT 10
    let slow := (runBars s1).all fun b => barRate s1 b < warnLevel s1 b 1
    let since := if slow then (s1.fire.slowSince.orElse fun _ => some s1.now) else none
    let s2 := { s1 with fire := { s1.fire with slowSince := since } }
    if (fast.isSome || recent) && !s2.fire.overspeedN then
      let b := fast.getD ((runBars s2).headD 0)
      raise 0x0511 (leBytes 1 b ++ leBytes 4 (barRate s2 b).floor.toNat) { s2 with fire := { s2.fire with overspeedN := true } }
    else s2

/-! ### A trigger (R280, R300, R306, R307, R318, R322) -/

/-- Line n is dropped by this module (R307). -/
def dropLine (b : Nat) (n : Int) (deltaNs : Nat) (s : State) : State :=
  let ended := (barOf s b).pendingSync.isEmpty && drives s
  let s1 := if ended then
      forEach (sendingLanes s b) (fun g s => putSymbols g .idle [kError, kEnd, kComma]
        (modLane g (fun l => { l with packetsEnded := wrapInc 16 l.packetsEnded }) s)) s
    else s
  let s2 := dropEvent b n deltaNs (applyDrop b n (barToken b 0 (seqOf s b n) 0 s1))
  let s3 := updateOverspeed { s2 with fire := { s2.fire with lastDrop := some s2.now } }
  if (barOf s3 b).pendingSync.isEmpty then nextPacket b (n + 1) s3 else s3

/-- When the packet of a compare point will be complete: after its start, or after the last FIRE-SYNC scheduled (R301,
R306). -/
def packetReady (s : State) (b : Nat) : Nat :=
  let x := barOf s b
  match x.pendingSync.getLast? with
  | some p => p.2 + packetTime s b
  | none => (x.packet.map fun p => p.start + packetTime s b).getD s.now

/-- The largest delta since RUN_ARM (object 0x0501 max_deferral). -/
def noteDelta (b delta : Nat) (s : State) : State :=
  modBar b (fun y => { y with maxDeferral := min 65535 (max y.maxDeferral (delta / 64)) }) s

/-- The bar handles a trigger whose packet it has: FIRE-SYNC now, later or not at all (R306). -/
def handleLine (b : Nat) (n : Int) (s : State) : State :=
  let x := barOf s b
  let floor_ := (x.syncLast.map fun t => t + nsT (cfgN s Fld.firing_min_interval b)).getD 0
  let ready := max s.now (max floor_ (packetReady s b))
  let delta := ready - s.now
  let s0 := noteDelta b delta s
  if maxDefer s b < delta then
    if follows s then nextPacket b (n + 1) (insertSync b n (dropEvent b n (delta / 64) s0))
    else dropLine b n (delta / 64) s0
  else
    let s1 := modBar b (fun y => { y with syncLast := some ready }) s0
    if delta = 0 || follows s then nextPacket b (n + 1) (insertSync b n s1)
    else modBar b (fun y => { y with
      pendingSync := y.pendingSync ++ [(n, ready)], deferred := wrapInc 16 y.deferred }) s1

/-- A compare point of an inhibited bar is counted, whatever its packet (R319). -/
def countInhibited (b : Nat) (s : State) : State :=
  if (barOf s b).inhibited then modBar b (fun y => { y with inhibitedLines := wrapInc 16 y.inhibitedLines }) s else s

/-- An inhibited bar sends nothing for a line; its line buffer advances (R318). -/
def inhibitedLine (b : Nat) (n : Int) (s : State) : State := nextPacket b (n + 1) (finishSlots b n s)

/-- A compare point at the very date of the entry into PRINT, of which DRAIN may follow at once, does not lie after it (R300).
DEDUCED: log entry 49. -/
def atPrintEntry (s : State) (b : Nat) : Bool :=
  (barOf s b).pointsInPrint = 0 && s.mod.since = timeNow s

/-- The bar takes compare point n (R292, R300, R306, R514). -/
def takePoint (b : Nat) (n : Int) (s : State) : State :=
  let s0 := modBar b (fun y => { y with sequence := seqOf s b n, lastPoint := some n }) s
  let s1 := if inRun s0 then countInhibited b s0 else s0
  if !inRun s1 || halted s1 b then s1
  else if !isFiring s1 || atPrintEntry s1 b then updateOverspeed s1
  else
    let s2 := modBar b (fun y => { y with pointsInPrint := min 2 (y.pointsInPrint + 1) }) s1
    let s3 :=
      if (barOf s2 b).pointsInPrint = 1 then nextPacket b (n + 1) s2
      else match (barOf s2 b).packet with
        | none => s2
        | some p =>
          if n < p.n && (barOf s2 b).pendingSync.isEmpty then s2
          else if (barOf s2 b).inhibited then inhibitedLine b n s2
          else handleLine b n s2
    updateOverspeed s3

/-- The deferred FIRE-SYNC that is due is inserted (R306); an inhibited bar sends none (R318). -/
def insertDue (b : Nat) (s : State) : State :=
  match (barOf s b).pendingSync with
  | [] => s
  | (n, t) :: rest =>
    if s.now < t || halted s b then s
    else
      let s0 := modBar b (fun y => { y with pendingSync := rest }) s
      let s1 := if (barOf s0 b).inhibited then finishSlots b n s0 else insertSync b n s0
      let next := match rest with
        | p :: _ => p.1
        | [] => ((barOf s1 b).lastPoint.getD n) + 1
      nextPacket b next s1

/-- The trigger that a bar handles next: the oldest one on its way, once its date has come. -/
def nextTrig (s : State) (b : Nat) : Option Trig :=
  match (barOf s b).trigs with
  | x :: _ => if x.t ≤ s.now then some x else none
  | [] => none

/-- The bar handles its oldest trigger, once its date has come (R306). -/
def handleDue (b : Nat) (s : State) : State :=
  match nextTrig s b with
  | none => s
  | some x => takePoint b x.n (modBar b (fun y => { y with trigs := y.trigs.drop 1 }) s)

/-- What is due on a bar at the same moment as a HALT goes before it: deferred FIRE-SYNCs and triggers of this date
(R310). The halt that follows, and not the end of DRAIN, decides what state the module enters (R21); `n` bounds them. -/
def syncsFirst : Nat → Nat → State → State
  | 0, _, s => s
  | n + 1, b, s => syncsFirst n b (handleDue b (insertDue b s))

/-- The same on several bars. -/
def barsFirst (bars : List Nat) (s : State) : State :=
  forEach bars (fun b s => syncsFirst ((barOf s b).trigs.length + (barOf s b).pendingSync.length) b s) s

/-! ### Damaged lines and lost links (R320, R321) -/

/-- Damaged lines of slots on a bar: LINE_DAMAGED, and under HALT_BAR the bar halts (R320). -/
def applyDamage (b lane cause seq : Nat) (slots : List Nat) (s : State) : State :=
  let s1 := forEach slots (fun n => damageSlot n b lane cause seq) s
  if cfgN s Fld.firing_damage_policy 0 = 1 then haltBars [b] 5 18 [spoilHalt] (barsFirst [b] s1) else s1

/-- Damage that this module finds; a following module takes it from the tokens (R322). -/
def ownDamage (b lane cause seq : Nat) (slots : List Nat) (s : State) : State :=
  if follows s || slots.isEmpty then s
  else applyDamage b lane cause seq slots (barToken b 6 seq cause s)

/-- A single-bar halt that this module decides (R310, R322). -/
def ownHalt (bars : List Nat) (cause : Nat) (bits : List Nat) (s : State) : State :=
  if follows s then s
  else
    let s1 := barsFirst bars s
    haltBars bars cause 18 bits
      (forEach (bars.filter fun b => !halted s1 b) (fun b s => barToken b 5 (barOf s b).sequence cause s) s1)

/-- Link k has left UP: what it means for its bar in the armed run; the first line without it is that of a FIRE-SYNC still
deferred, or the next one (R320, R321). -/
def linkLost (k : Nat) (s : State) : State :=
  let b := k / 2
  if !inRun s || !(runBars s).contains b || halted s b || (slotsOn s b).isEmpty then s
  else if (s.jobs.armed.any fun a => a.run.flags.testBit 2) then
    let on := (slotsOn s b).filter fun x => (x.latched.any fun q => q.1 = b) && !x.linksOut.testBit k
    let seq := match (barOf s b).pendingSync with
      | p :: _ => seqOf s b p.1
      | [] => ofSigned 32 ((barOf s b).sequence + 1)
    ownDamage b (3 * k) 2 seq (on.map fun x => x.num) s
  else ownHalt [b] 4 [spoilHalt] s

/-- Link k leaves UP with a cause, and its bar feels it (R321, R345). -/
def dropLink (k cause : Nat) (s : State) : State := if linkUp s k then linkLost k (leaveUp k cause s) else s

end Sys2Proof.Machine
end

