-- ==== Sys2Proof/Machine/Contexts.lean ====
section
/-! DEFINITION. Sealed states (07_raron_codec.md, R208 to R210) and the vectors of codec self-verification (R215): a decoder or an
encoder that has stopped in the middle of its work, written out, read back and continued. -/
namespace Sys2Proof.Machine
open Sys2Proof

/-! ### A decoder that can stop (R203, R208) -/

/-- A decoder in the middle of a block: dictionary, last code, body bits read, the bytes delivered, newest first, and how
many of them belong to the last code's string where it stopped inside one. -/
structure DecPos where
  dict : Dict
  prev : Option Nat
  bits : Nat
  out  : List Byte
  mid  : Option Nat
  deriving DecidableEq, Repr

/-- The string of the next code. -/
def codeString (p : DecPos) (k : Nat) : List Byte :=
  if k < dictNext p.dict then dictString p.dict 4097 k []
  else match p.prev with
    | some q => let sq := dictString p.dict 4097 q []
                sq ++ sq.take 1
    | none => []

/-- The rest of the string that the decoder stopped inside: as much of it as `n` bytes in all allow (R208). -/
def resumeString (n : Nat) (p : DecPos) : DecPos :=
  match p.mid, p.prev with
  | some k, some q =>
    let rest := (dictString p.dict 4097 q []).drop k
    let now := rest.take (n - p.out.length)
    { p with out := now.reverse ++ p.out, mid := if now.length < rest.length then some (k + now.length) else none }
  | _, _ => p

/-- Decodes codes until `n` original bytes of the block are delivered, after what is left of a string that the decoder
stopped inside; `fuel` bounds the codes (R203, R208). -/
def decodeUpTo (body : Array Byte) (n : Nat) : Nat → DecPos → DecPos
  | 0, p => p
  | fuel + 1, p =>
    if n ≤ p.out.length then p
    else if p.mid.isSome then decodeUpTo body n fuel (resumeString n p)
    else
      let nx := dictNext p.dict + if p.prev.isSome && dictNext p.dict < 4096 then 1 else 0
      let w := codeWidth nx
      let k := bodyBits body p.bits w
      if k = 256 then decodeUpTo body n fuel { p with dict := #[], prev := none, bits := p.bits + w }
      else
        let str := codeString p k
        let d1 := match p.prev with
          | some q => dictAdd p.dict q (str.headD 0)
          | none => p.dict
        if str.isEmpty then p
        else decodeUpTo body n fuel (resumeString n { dict := d1, prev := some k, bits := p.bits + w, out := p.out, mid := some 0 })

/-- A decoder at a point of a block, after `n` of its original bytes. -/
def decodeTo (flags : Nat) (body : List Byte) (d : Dict) (n : Nat) : DecPos :=
  let d0 : Dict := if flags.testBit 2 then #[] else d
  if flags.testBit 0 then ⟨d0, none, 8 * n, (body.take n).reverse, none⟩
  else decodeUpTo body.toArray n (2 * n + 2) ⟨d0, none, 0, [], none⟩

/-! ### Sealed states (R208, R209) -/

/-- What a sealed state says of the block being coded: open or not, number, original and stored length, place of its header. -/
structure SealedBlock where
  isOpen : Bool
  seq    : Nat
  orig   : Nat
  stored : Nat
  offset : Nat
  deriving DecidableEq, Repr

/-- The 20-bit entries of a dictionary, packed (*Table: Sealed state*, dictionary). -/
def packDict (d : Dict) : List Byte :=
  let e (c : Nat) : Nat := if c < 257 then 0 else match d[c - 257]? with
    | some (p, b) => p + 4096 * b.toNat
    | none => 0
  (List.range 2048).flatMap fun i => leBytes 5 (e (2 * i) + 2 ^ 20 * e (2 * i + 1))

/-- The CRC-32C register over some bytes, before the final exclusive-or. -/
def crcRegister (l : List Byte) : Nat := crc32c l ^^^ 0xFFFFFFFF

/-- A sealed state as laid out in *Table: Sealed state*: role 0 of an encoder, 1 of a decoder. -/
def sealBytes (role : Nat) (prev mid : Option Nat) (d : Dict) (x : SealedBlock) (done bits crc pending count : Nat) : List Byte :=
  let head := leBytes 2 1 ++ leBytes 1 role ++ leBytes 1 (b2n prev.isSome + 2 * b2n mid.isSome + 4 * b2n x.isOpen) ++
    leBytes 2 (dictNext d) ++ leBytes 2 (prev.getD 0xFFFF) ++ leBytes 2 (mid.getD 0) ++ leBytes 2 x.seq ++
    leBytes 4 x.orig ++ leBytes 4 x.stored ++ leBytes 4 done ++ leBytes 4 bits ++ leBytes 4 crc ++ leBytes 4 pending ++
    leBytes 1 count ++ leBytes 3 0 ++ leBytes 8 x.offset ++ List.replicate 12 0
  let dict := packDict d
  head ++ leBytes 4 (crc32c (head ++ dict)) ++ dict

/-- The sealed state of a decoder. -/
def sealState (p : DecPos) (x : SealedBlock) : List Byte :=
  if x.isOpen then sealBytes 1 p.prev p.mid p.dict x p.out.length p.bits (crcRegister p.out.reverse) 0 0
  else sealBytes 1 none none p.dict x 0 0 (crcRegister []) 0 0

/-- The sealed state of an encoder that has taken `done` bytes of a block and written whole bytes and some bits beyond them. -/
def sealEncoder (st : Dict × Option Nat × List (Nat × Nat)) (x : SealedBlock) (taken : List Byte) : List Byte :=
  let bits := (st.2.2.map fun c => c.2).sum
  let left := st.2.2.reverse.foldl packCode (0, 0, [])
  sealBytes 0 st.2.1 none st.1 { x with stored := 0 } taken.length bits (crcRegister taken) left.1 left.2.1

/-- The dictionary of a sealed state. -/
def readDict (b : List Byte) : Dict :=
  let next := fld b 4 2
  ((List.range (next - 257)).map fun i =>
    let e := fld b (64 + (257 + i) / 2 * 5) 5 / 2 ^ (20 * ((257 + i) % 2)) % 2 ^ 20
    (e % 4096, BitVec.ofNat 8 (e / 4096))).toArray

/-- The checks that an engine makes at a resume: state_crc, format, role, next, and a prefix below its own code in every entry
(R209). -/
def stateOk (role : Nat) (b : List Byte) : Bool :=
  b.length = 10304 && fld b 0 2 = 1 && fld b 2 1 = role && 257 ≤ fld b 4 2 && fld b 4 2 ≤ 4096 &&
    fld b 60 4 = crc32c (b.take 60 ++ b.drop 64) && (readDict b).toList.zipIdx.all fun p => p.1.1 < 257 + p.2

/-- The decoder that a sealed state resumes; `out` are the bytes that it had delivered in the block, newest first (R208). -/
def resumeState (b : List Byte) (out : List Byte) : DecPos :=
  let flags := fld b 3 1
  { dict := readDict b, prev := if flags.testBit 0 then some (fld b 6 2) else none, bits := fld b 24 4, out := out
    mid := if flags.testBit 1 then some (fld b 8 2) else none }

/-! ### The contexts of a page in RENDERING (R210) -/

/-- The sealed state of a tile's decoder once `n` original bytes of the tile are delivered (R208). `fuel` bounds the
blocks; `d` is the dictionary as the block begins, `offset` the place of its header. -/
def tileContext : Nat → List Byte → Nat → Nat → Nat → Dict → List Byte
  | 0, _, _, _, _, _ => []
  | fuel + 1, b, n, seq, offset, d =>
    let flags := leNat (b.take 1)
    let orig := leNat ((b.drop 4).take 4)
    let stored := leNat ((b.drop 8).take 4)
    let body := (b.drop 16).take stored
    if n = 0 || b.length < 16 then sealState ⟨d, none, 0, [], none⟩ ⟨false, seq, 0, 0, offset⟩
    else if orig ≤ n then
      tileContext fuel (b.drop (16 + stored)) (n - orig) (seq + 1) (offset + 16 + stored)
        (decodeBlock flags orig stored (leNat ((b.drop 12).take 4)) body d).2.1
    else sealState (decodeTo flags body d n) ⟨true, seq, orig, stored, offset⟩

/-- The contexts that the engine holds after composing line y of a page: one for each layer and Raron tile with rows still to be
decoded (R208, R210). -/
def lineContexts (s : State) (pg : Page) (y : Nat) : List DecContext :=
  pg.layers.zipIdx.flatMap fun l => match surfaceOf s l.1.surface with
    | none => []
    | some sf => (tilesDecoded s pg l.1 y).filterMap fun p =>
        if p.2.2 = lastRowOf sf p.1 then none
        else
          let rows := p.2.2 + 1 - p.1 / tileCols sf * sf.tileSize
          (tileData sf p.1).map fun b =>
            { layer := l.2, surface := sf.id, tile := p.1
              state := tileContext (b.length / 17 + 1) b (rows * (tileDims sf p.1).1 * sf.channels * (sf.depth / 8)) 0 0 #[] }

/-! ### Codec self-verification (R215) -/

/-- V0: 32 bytes of 0. -/
def vector0 : List Byte := List.replicate 32 0

/-- The CRC-32C register stepped by one byte of 0. -/
def crcStep (c : BitVec 32) : BitVec 32 := crcRun c [0]

/-- `n` bytes of the register's output: its low byte, before each step. DESIGN CHOICE: the rule does not say which bits of
the register are the output, nor how often it steps (log entry 29). -/
def crcOutput : Nat → BitVec 32 → List Byte
  | 0, _ => []
  | n + 1, c => c.truncate 8 :: crcOutput n (crcStep c)

def vector1 : List Byte := crcOutput 65536 1

def vector2 : List Byte := (List.range 65536).map fun i => BitVec.ofNat 8 (0x1B * (i / 5 % 4) + i % 3)

/-- A block decoded with an adjourn after every `k`-th code: sealed, checked and resumed (R208, R209, R215). `n` bounds
the adjourns; none where a sealed state fails its checks. -/
def decodeAdjourned (body : Array Byte) (orig k : Nat) : Nat → DecPos → Option (List Byte)
  | 0, p => some p.out.reverse
  | n + 1, p =>
    let q := decodeUpTo body orig k p
    if orig ≤ q.out.length then some q.out.reverse
    else
      let b := sealState q ⟨true, 0, orig, body.size, 0⟩
      if stateOk 1 b then decodeAdjourned body orig k n (resumeState b q.out) else none

/-- The original bytes of a vector (*Table: Codec self-verification vectors*). -/
def vectorInput (v : Nat) : List Byte := if v = 0 then vector0 else if v = 1 then vector1 else vector2

/-- The CRC-32C of the block that a vector is stored as. -/
def vectorStored (v : Nat) : Nat := crc32c (encodeChunk 0 (vectorInput v))

/-- The CRC-32C of what a vector decodes to; V3 is V2's stored block with an adjourn after every 1,000th code. -/
def vectorDecoded (v : Nat) : Nat :=
  if v < 3 then crc32c (vectorInput v)
  else
    let b := encodeChunk 0 vector2
    crc32c ((decodeAdjourned (b.drop 16).toArray 65536 1000 66 ⟨#[], none, 0, [], none⟩).getD [])

/-- The CRC-32C values that an engine came to for a vector are those that the supervisor image holds: a compressor stores
and decodes, the others decode (R215). -/
def vectorMatches (r : VectorResult) : Bool :=
  r.decoded = vectorDecoded r.vector && (r.kind ≠ 0 || r.stored = vectorStored r.vector)

end Sys2Proof.Machine
end

