-- ==== Sys2Proof/Machine/RenderOps.lean ====
section
/-! DEFINITION. The areas of the memory and what renders next (04_jobs_pages_runs.md, R120, R121, R125, R132; 05_composition.md,
R144, R164; 07_raron_codec.md, R205, R210, R214; 08_memory.md, R222, R235; 13_calibration_loop.md, R399). -/
namespace Sys2Proof.Machine
open Sys2Proof

/-! ### The memory areas (R222) -/

def gib (n : Nat) : Nat := n * 2 ^ 30

/-- Sizes of the surface area, the inspection and reference area and the page store (R222). -/
def surfaceArea (s : State) : Nat := gib (cfgN s Fld.memory_surface_gib 0)
def inspectArea (s : State) : Nat := gib (cfgN s Fld.memory_inspect_gib 0)
def pageStore (s : State) : Nat := gib (124 - cfgN s Fld.memory_surface_gib 0 - cfgN s Fld.memory_inspect_gib 0)

/-- The bytes that streams occupy in the page store: whole blocks and the directory (R121, R205). -/
def streamSize (l : List LanePart) : Nat :=
  (l.map fun p => (p.blocks.map fun b => blockSpace b + 8).sum).sum

/-- The raw size of a strip over the bars of a run (R399). -/
def stripRaw (s : State) (mask depth lines : Nat) : Nat :=
  ((bitList 8 mask).map fun b => ceilDiv (lines * rangesCount (barCovered s.conf.cfg b) * depth) 8).sum

/-- The page-store space of a strip. -/
def stripSpace (s : State) (st : Strip) : Nat :=
  if st.done then streamSize st.parts else stripRaw s (runMask s) (runDepth s) st.lines

/-- The streams kept of pages that are rendered again: those still to be released, and those of slots that fire them
(R115, R118). -/
def keptStreams (s : State) : List (Nat × List LanePart) :=
  (s.cal.oldParts ++ (openSlots s).filterMap fun x => x.streams.map fun p => (x.page, p)).eraseDups

/-- The page-store space in use: reservations and stored streams. -/
def pageStoreUsed (s : State) : Nat :=
  (s.jobs.pages.map fun p => p.reserved).sum + ((keptStreams s).map fun p => streamSize p.2).sum +
    ((s.jobs.armed.map fun a => (a.strips.map (stripSpace s)).sum + ((a.slots.filter fun x => !x.ended).map fun x =>
      (x.strip.map (stripSpace s)).getD 0).sum).getD 0)

/-- The bytes that a surface occupies: its raw size, or its Raron tiles (R103). -/
def surfaceSpace (sf : Surface) : Nat :=
  if sf.raron then (sf.tiles.map fun t => t.2.length).sum else sf.width * sf.height * sf.channels * (sf.depth / 8)

def surfaceUsed (s : State) : Nat := (s.jobs.surfaces.map surfaceSpace).sum

/-- The strips whose references the inspection area still holds: those not yet released, and those of slots not yet seen
to their end. -/
def heldStrips (a : Armed) (seen : List Inspected) : List Strip :=
  a.strips ++ a.slots.filterMap fun x => if seen.any fun p => p.slot = x.num && p.done then none else x.strip

/-- The inspection area in use: references of pages and of strips, and raw taps and inspection results held (R162, R164,
R391, R398). The spec gives camera frames no size there: DESIGN CHOICE, they take none of it (log entry 84). -/
def inspectUsed (s : State) : Nat :=
  ((s.jobs.armed.map fun a => ((heldStrips a s.cal.inspected).map fun x => (x.reference.map List.length).sum).sum).getD 0) +
  (s.jobs.pages.map fun p => (if p.refKind = 2 then wholeRefSize p else 0) + (p.markRef.map List.length).sum).sum +
    ((s.net.results.filter fun r => r.kind = 0xFF).map fun r => (r.body.getD []).length).sum

/-! ### Eviction (R132) -/

/-- A page that a run uses. -/
def runUses (a : RunDef) (id : Nat) : Bool := a.slots.contains id

/-- RENDERED pages that a run does not use, in the order in which it evicts them (R132). -/
def evictable (s : State) (r : RunDef) : List Page :=
  let key (p : Page) : Nat := p.firedAt.getD p.renderedAt
  inOrder (fun a b => key a < key b || (key a = key b && a.id ≤ b.id))
    (s.jobs.pages.filter fun p => p.state = .rendered && !runUses r p.id)

/-- A page goes back to DEFINED, with what it stored (R132). -/
def undoPage (id : Nat) (s : State) : State :=
  modPage id (fun p => { p with state := .defined, parts := [], reserved := 0, reference := [], markRef := [], refKind := 0, partnerSig := none
                                verdicts := p.verdicts.map fun _ => none }) s

/-- Evicts pages until `need` bytes are free. -/
def evictFor (need : Nat) : List Page → State → State
  | [], s => s
  | p :: r, s => if pageStoreUsed s + need ≤ pageStore s then s else evictFor need r (undoPage p.id s)

/-! ### Capacities (R35, R50, R51, R214) -/

/-- Compressors in service (R213). -/
def compressorsIn (s : State) : Nat := (s.render.compressors.filter fun c => !c.retired).length

/-- The factor of R214. -/
def compressorFactor (s : State) : Rat := if compressorsIn s < 38 then (compressorsIn s : Rat) / 38 else 1

/-- The guaranteed capacity in cost units per second (R50, R214). -/
def guaranteedCapacity (s : State) : Rat :=
  (11200000000 + (if cfgN s Fld.render_governor_enable 0 = 1 then
    (cfgN s Fld.render_governor_max_step 0 : Rat) * 283300000 else 0)) * compressorFactor s

/-! ### What may start -/

/-- The sum of the versions of the render-side elements of the bars of a mask: it changes with every accepted value that
bears on them (R117, R393). -/
def renderStamp (s : State) (mask : Nat) : Nat :=
  ((s.cal.values.versions.filter fun p =>
    ((p.1.kind = 0 || p.1.kind = 3) && mask.testBit p.1.unit) || (p.1.kind = 1 && mask.testBit (p.1.unit / 2))).map (·.2)).sum

/-- The lowest layer whose channels its surface does not have (R144). -/
def badLayer (s : State) (pg : Page) : Option Nat :=
  (List.range pg.layers.length).find? fun i =>
    match pg.layers[i]? with
    | none => false
    | some l => (surfaceOf s l.surface).any fun sf =>
        ((List.range 8).any fun b => (layerChannel l b).any fun c => sf.channels ≤ c) ||
          (l.alpha ≠ 0xFF && sf.channels ≤ l.alpha)

/-- An event that a page raises once per PAGE_DEFINE. -/
def pageEvent (id code : Nat) (detail : List Byte) (s : State) : State :=
  if (pageOf s id).any fun p => p.raised.contains code then s
  else raise code detail (modPage id (fun p => { p with raised := code :: p.raised }) s)

/-- A LUT that the page uses has been lost: an input LUT of a layer, or the output LUT of a bar (R250). -/
def lutLost (s : State) (pg : Page) : Bool :=
  pg.layers.any (fun l => l.lut ≠ 0xFFFF && s.mem.lostLuts.contains l.lut) ||
    (bitList 8 pg.barMask).any fun b => s.mem.lostLuts.contains (0xFF00 + b)

/-- A DEFINED page whose composition may start: its surfaces sealed, its LUTs not lost, its channels there, its tiles within the
contexts; with the event of what keeps it (R106, R144, R210, R250). -/
def checkStart (pg : Page) (s : State) : Bool × State :=
  if !surfacesSealed s pg || lutLost s pg then (false, s)
  else match badLayer s pg with
    | some i => (false, pageEvent pg.id 0x031A (leBytes 4 pg.id ++ leBytes 1 i) s)
    | none => match contextsExceeded s pg with
      | some (y, n) => (false, pageEvent pg.id 0x0814 (leBytes 4 pg.id ++ leBytes 4 y ++ leBytes 4 n) s)
      | none => (true, s)

/-! ### Starting a page or a strip -/

/-- Files of a page's screened ranges that no nozzle of a bar prints (R182). -/
def uncoveredFiles (c : Cfg) (pg : Page) : Nat :=
  let scr := screenedRanges pg
  ((bitList 8 pg.barMask).map fun b =>
    rangesCount scr - (scr.map fun r => rangesCount (rangesWithin r.1 r.2 (barCovered c b))).sum).sum

/-- The versions of the render-side elements of a bar mask (R393). -/
def renderVersions (s : State) (mask : Nat) : List (Element × Nat) :=
  s.cal.values.versions.filter fun p =>
    ((p.1.kind = 0 || p.1.kind = 3) && mask.testBit p.1.unit) || (p.1.kind = 1 && mask.testBit (p.1.unit / 2))

/-- What a rendering latches as it starts (R153, R175, R393). -/
def latchRendering (s : State) (id mask nregions : Nat) (st : Option Strip) : Rendering :=
  { page := id, line := 0
    outLut := (List.range 8).map fun b => (lutOf s (0xFF00 + b)).bind fun l => l.curves.head?
    tone := s.cal.values.tone, taps := s.cal.values.taps, dead := s.cal.values.dead
    crcs := List.replicate nregions 0xFFFFFFFF, failed := false, open_ := [], waiting := [], refSums := [], refLines := 0, markSums := [], markLines := 0
    retries := [], strip := st, versions := renderVersions s mask }

/-- The lane parts of a page or strip, empty, for the spans of its bars (R187, R189). -/
def emptyParts (spans : List (Nat × Nat × Nat)) (lines d : Nat) : List LanePart :=
  spans.flatMap fun p => [0, 1, 2].filterMap fun n =>
    let len := laneLine p.2 n d
    if len = 0 then none else some { lane := 3 * p.1 + n, lineLen := len, length := lines * len, blocks := [], directory := [] }

/-- A page enters RENDERING: space, taps and LUTs latched, reference and margin decided (R117, R121, R153, R161, R164,
R175, R182, R400). -/
def startPage (pg : Page) (s : State) : State :=
  match s.jobs.armed with
  | none => s
  | some a =>
    let pg1 := { pg with margin := pageMargin s a.run pg }
    let full := a.run.inspection = 2
    let free := inspectArea s - inspectUsed s
    let kind := if a.run.inspection = 0 then 0 else if full && wholeRefSize pg ≤ free then 2 else 1
    let s1 := modPage pg.id (fun _ => { pg1 with
      state := .rendering, reserved := max pg.reserved (pageReservation s.conf.cfg pg1)
      parts := emptyParts (pageSpans s.conf.cfg pg1) pg.length pg.depth
      reference := [], markRef := [], refBad := [], refKind := kind, verdicts := pg.verdicts.map fun _ => none
      renderVersion := renderStamp s pg.barMask, epUnresolved := none }) s
    let s2 := if full && kind = 1 then
        raise 0x031B (leBytes 4 pg.id) { s1 with render := { s1.render with
          referencesReduced := wrapInc 16 s1.render.referencesReduced } }
      else s1
    let n := uncoveredFiles s.conf.cfg pg1
    let s3 := if n = 0 then s2 else pageEvent pg.id 0x031C (leBytes 4 pg.id ++ leBytes 4 n) s2
    { s3 with
      render := { s3.render with now := some (latchRendering s pg.id pg.barMask pg.regions.length none) }
      cal := { s3.cal with rerenderPages := s3.cal.rerenderPages.filter (· ≠ pg.id) } }

/-- The strip of slot n starts to render (R399). -/
def startStrip (n id : Nat) (p : StripPlan) (s : State) : State :=
  match s.jobs.armed with
  | none => s
  | some a =>
    let c := s.conf.cfg
    let spans := (bitList 8 a.run.barMask).flatMap fun b => (barLinks c b).filterMap fun k => (stripSpan c k).map fun sp => (k, sp)
    let st : Strip := { slot := n, page := id, blocks := p.blocks, lines := p.lines, placed := p.placed
                        parts := emptyParts spans p.lines a.run.depth, reference := []
                        versions := renderVersions s a.run.barMask, done := false }
    let check := hasNozzleCheck p.blocks
    let turn := if check && a.ncOwed.isEmpty then s.cal.ncTurn + 1 else s.cal.ncTurn
    let s1 := modArmed (fun a => { a with
      strips := a.strips ++ [st], nextStrip := n + 1, ncOwed := if check then a.ncOwed.drop 1 else a.ncOwed }) s
    { s1 with
      cal := { s1.cal with due := s1.cal.due &&& (63 ^^^ p.placed), ncTurn := turn }
      render := { s1.render with now := some (latchRendering s id a.run.barMask 0 (some st)) } }

/-- The coming slots with their pages: number and page, in order. -/
def comingSlots (s : State) : List (Nat × Nat) :=
  match s.jobs.armed with
  | none => []
  | some a => a.queue.zipIdx.map fun p => (a.nextSlot + p.2, p.1)

/-- Slots that count against render_ahead: released and neither FIRED nor SPOILED, or coming with a RENDERED page (R120). -/
def aheadCount (s : State) : Nat :=
  ((openSlots s).filter fun x => x.state ≠ .spoiled).length + ((comingSlots s).filter fun p => pageRendered s p.2).length

/-- MARK_DEFERRED for the kinds that do not fit, at most once per second (R396). -/
def deferMarks (n left : Nat) (s : State) : State :=
  forEach ((List.range 6).filter left.testBit) (fun k => raiseLimited 0x0A18 0 (secT 1) fun _ => leBytes 1 k ++ leBytes 4 n) s

/-- The page of the run whose turn it is may start when its space fits, with eviction (R121, R132). -/
def tryPage (pg : Page) (s : State) : State :=
  match s.jobs.armed with
  | none => s
  | some a =>
    let need := pageReservation s.conf.cfg { pg with margin := pageMargin s a.run pg } - pg.reserved
    let s1 := evictFor need (evictable s a.run) s
    if pageStoreUsed s1 + need ≤ pageStore s1 then startPage pg s1 else s1

/-- The first thing that may start among the coming slots: a page, or the strip after a slot whose page is RENDERED
(R120, R399). -/
def renderNext : List (Nat × Nat) → State → State
  | [], s => s
  | (n, id) :: rest, s =>
    match pageOf s id, s.jobs.armed with
    | some pg, some a =>
      if pg.state = .defined && !s.cal.rerenderPages.contains id then
        if a.run.renderAhead ≤ aheadCount s then s
        else
          let r := checkStart pg s
          if r.1 then tryPage pg r.2 else renderNext rest r.2
      else if pageReady s id && a.nextStrip ≤ n && n < a.nextSlot + a.run.renderAhead && 0 < stripRoom s a.run then
        let due := dueUpTo s n
        let p := planStrip s a.run due (nextNcBar s a)
        let s1 := deferMarks n p.left s
        if p.blocks.isEmpty then renderNext rest (passStrips n s1)
        else if pageStoreUsed s1 + stripRaw s1 a.run.barMask a.run.depth p.lines ≤ pageStore s1 then startStrip n id p (passStrips n s1)
        else s1
      else renderNext rest s
    | _, _ => renderNext rest s

/-- The pages of a cycle to be rendered again, once nothing of the run's own slots is to be done (R115, R413). -/
def renderAgain : List Nat → State → State
  | [], s => s
  | id :: rest, s =>
    match pageOf s id with
    | some pg =>
      let r := checkStart pg s
      if pg.state = .defined && r.1 then tryPage pg r.2 else renderAgain rest r.2
    | none => renderAgain rest s

/-- Rendering goes on in a run until its releases end. -/
def rendersRun (s : State) : Bool := inRun s && s.jobs.armed.any fun a => !a.releasesEnded

/-- What may start next under R120 and R121, when the engine is free of pages and of a seal check that has started (R120,
R121, R399, R413, R703). -/
def startNext (s : State) : State :=
  if s.render.now.isSome || s.jobs.sealing || !rendersRun s then s
  else
    let s1 := renderNext (comingSlots s) s
    if s1.render.now.isSome then s1 else renderAgain s1.cal.rerenderPages s1

/-- The dead files of the map that the rendering has latched (object 0x0303 dead_files). -/
def countDead (s : State) : Nat :=
  let dead := (s.render.now.map fun r => r.dead).getD []
  ((List.range 8).map fun b => (deadFiles s.conf.cfg dead b).length).sum % 65536

/-- The render engine takes up what comes next, unless the governor has stopped rendering (R46, R120). -/
def takeUp (s : State) : State :=
  if s.gov.renderDuty = 0 || s.render.now.isSome then s
  else
    let s1 := startNext s
    if s1.render.now.isSome then { s1 with render := { s1.render with deadFiles := countDead s1 } } else s1

/-- The seal check at the head of the queue starts where no page may start or continue RENDERING, and where no run is
armed (R703). -/
def beginSeal (s : State) : State :=
  if !s.jobs.seals.isEmpty && (s.jobs.armed.isNone || (s.render.now.isNone && (startNext s).render.now.isNone)) then
    { s with jobs := { s.jobs with sealing := true } }
  else s

end Sys2Proof.Machine
end

