-- ==== Sys2Proof/Machine/CalOps.lean ====
section
/-! DEFINITION. Where correction values take effect (13_calibration_loop.md, R406 to R413, R416, R417;
17_castling.md, token TAP). -/
namespace Sys2Proof.Machine
open Sys2Proof

/-! ### Re-rendering a repeat cycle (R115, R413) -/

/-- The pages of a run's cycle, each once. -/
def cyclePages (a : Armed) : List Nat := (liveSlots a).eraseDups

/-- The pages of the cycle that hold streams of the old values: RENDERED, or in RENDERING with the taps latched at its
start (R175). -/
def stalePages (s : State) (a : Armed) : List Nat :=
  (cyclePages a).filter fun id => pageRendered s id || s.render.now.any fun x => x.strip.isNone && x.page = id

/-- A repeat run renders its cycle again; the old streams go on printing, in the slots released already too (R115, R118).
A page not yet rendered takes the new values in its turn (R120, R175). -/
def beginRerender (s : State) : State :=
  match s.jobs.armed with
  | none => s
  | some a =>
    let ids := stalePages s a
    if a.run.form ≠ 2 || !inRun s || a.releasesEnded || s.cal.rerendering || ids.isEmpty then s
    else
      let done := ids.filter (pageRendered s)
      let keep := done.filterMap fun id => (pageOf s id).map fun p => (id, p.parts)
      let s0 := modArmed (fun a => { a with slots := a.slots.map fun x =>
        if x.ended || x.streams.isSome then x else { x with streams := (keep.find? fun p => p.1 = x.page).map (·.2) } }) s
      let s1 := forEach done undoPage s0
      { s1 with cal := { s1.cal with rerendering := true, rerenderPages := ids, oldParts := keep } }

/-- A page that was in RENDERING when the re-rendering began is RENDERED with the old values: its streams are kept with
the old ones, and it is rendered again (R115, R175). -/
def keepOld (id : Nat) (s : State) : State :=
  if s.cal.rerendering && s.cal.rerenderPages.contains id then
    undoPage id { s with cal := { s.cal with
      oldParts := s.cal.oldParts ++ ((pageOf s id).map fun p => (id, p.parts)).toList } }
  else s

/-- The values that waited for the changeover start the next re-rendering. -/
def nextRerender (s : State) : State :=
  if s.cal.waiting.isEmpty || s.cal.rerendering then s
  else beginRerender (forEach s.cal.waiting (fun p => installValue p.1 p.2) { s with cal := { s.cal with waiting := [] } })

/-! ### Acceptance takes effect (R407, R410, R412, R413) -/

/-- The armed run changes the fire-side values of an element by slews: those of its bars, whose slots are still to be
latched (R412). -/
def slewsValues (s : State) (e : Element) : Bool :=
  inRun s && (runBars s).contains (elemBar e) &&
    s.jobs.armed.any fun a => a.run.form = 1 || (a.run.form = 2 && runGap a.run < 64)

/-- The accepted value of an element takes effect as *Table: Application boundaries* gives. -/
def applyTap (e : Element) (v : List Int) (s : State) : State :=
  if e.kind = 0 || e.kind = 1 || e.kind = 3 then
    if s.cal.rerendering then { s with cal := { s.cal with waiting := s.cal.waiting ++ [(e, v)] } }
    else beginRerender (installValue e v s)
  else if (e.kind = 2 || e.kind = 4) && slewsValues s e then
    let s1 := putValue e v s
    { s1 with cal := { s1.cal with changed := true, slews := (s1.cal.slews.filter fun p => p.1 ≠ e) ++ [(e, v.headD 0)] } }
  else installValue e v s

/-! ### The token TAP (R507) -/

/-- The bodies of the TAP tokens of a value: one, or several that carry a table 2,000 entries at a time. -/
def tapBodies (e : Element) (version : Nat) (v : List Int) : List (List Byte) :=
  let head (n : Nat) : List Byte := leBytes 1 e.kind ++ leBytes 1 (elemBar e) ++ leBytes 4 n ++ leBytes 4 version
  if e.kind = 3 || e.kind = 5 then
    (pieces 2000 v).zipIdx.map fun p => head (2000 * p.2) ++ p.1.flatMap fun x => leBytes 2 x.toNat
  else [head (elemCode e) ++ sgBytes 4 (v.headD 0)]

/-- The tokens of an accepted value; it takes effect on the acknowledgement of the last one (R508). -/
def sendTap (e : Element) (v : List Int) (s : State) : State :=
  let ver := versionOf s e + 1
  let l := tapBodies e ver v
  let s1 := forEach (l.take (l.length - 1)) (sendToken 0x05) s
  onAck 0x05 (l.getLastD []) (.tap e ver v) (applyTap e v) s1

/-! ### CAL_REQUEST RUN_NOW (R416) -/

/-- The elements of some kinds and bars; cameras for FLAT are those of bits 0 to 3. -/
def selectedElements (s : State) (kinds bars : Nat) : List Element :=
  let c := s.conf.cfg
  let bs := (bitList 8 bars).filter (runBars s).contains
  let tw := max 1 (cfgN s Fld.calibration_tap_window 0)
  let ref := let r := cfgN s Fld.calibration_reg_reference_bar 0
             if (runBars s).contains r then r else (runBars s).headD 0
  let on (k : Nat) (l : List Element) : List Element := if kinds.testBit k then l else []
  on 0 (bs.flatMap fun b => ((barCovered c b).flatMap fun r =>
      (List.range ((r.2 - 1) / tw + 1 - r.1 / tw)).map fun i => (⟨0, b, r.1 / tw + i⟩ : Element)).eraseDups) ++
    on 1 (bs.flatMap fun b => (barLinks c b).flatMap fun k => (List.range (linkSlots c k)).map fun n => (⟨1, k, n⟩ : Element)) ++
    on 2 (bs.flatMap fun b => (barLinks c b).flatMap fun k => (linkRanks c k).map fun r => (⟨2, k, r⟩ : Element)) ++
    on 3 (bs.map fun b => (⟨3, b, 0⟩ : Element)) ++
    on 4 ((bs.filter fun b => b ≠ ref).map fun b => (⟨4, b, 0⟩ : Element)) ++
    on 5 ((bitList 4 bars).map fun k => (⟨5, k, 0⟩ : Element))

/-- The body of a RUN_NOW result: per kind, elements accepted and elements disagreed. -/
def runNowBody (r : RunNow) : List Byte :=
  (List.range 6).flatMap fun k => leBytes 4 (r.accepted.getD k 0) ++ leBytes 4 (r.disagreed.getD k 0)

/-- Whether a request selected an element. -/
def runNowHas (r : RunNow) (e : Element) : Bool :=
  r.kinds.testBit e.kind && r.bars.testBit (elemBar e) && !r.done.contains e

/-- An element of a request has answered. -/
def answerOne (e : Element) (accepted : Bool) (r : RunNow) : RunNow :=
  if !runNowHas r e then r
  else
    let inc (l : List Nat) : List Nat := (List.range 6).map fun k => l.getD k 0 + if k = e.kind then 1 else 0
    { r with done := e :: r.done, accepted := if accepted then inc r.accepted else r.accepted
             disagreed := if accepted then r.disagreed else inc r.disagreed }

/-- Requests all of whose elements have answered are over. -/
def settleRunNow (s : State) : State :=
  let over_ (r : RunNow) : Bool := (selectedElements s r.kinds r.bars).all r.done.contains
  forEach (s.cal.runNow.filter over_) (fun r => finishResult r.ticket (runNowBody r))
    { s with cal := { s.cal with runNow := s.cal.runNow.filter fun r => !over_ r } }

/-- An element has been accepted or has disagreed once (R416). -/
def answerRunNow (e : Element) (accepted : Bool) (s : State) : State :=
  { s with cal := { s.cal with runNow := s.cal.runNow.map (answerOne e accepted) } }

end Sys2Proof.Machine
end

