-- ==== Sys2Proof/Machine/Optics.lean ====
section
/-! DEFINITION. The camera pipeline (12_inspection_cameras.md, R368, R382 to R391): assembly, flat-field, reconstruction,
location on the web, statistics, raw taps. -/
namespace Sys2Proof.Machine
open Sys2Proof

/-! ### Stages 1 to 3 (R385 to R388) -/

/-- Stage 1 widens a sample to 16 bits (R385). -/
def widen (bits v : Nat) : Nat :=
  if bits = 8 then v * 257 else if bits = 10 then v * 64 + v / 16 else v * 16 + v / 256

/-- The mosaic of a camera. -/
def mosaicOf (s : State) (c : Nat) : Mosaic := s.conf.cfg.mosaics.getD c clearMosaic

/-- The site type of a sensor pixel (R387). -/
def siteType (m : Mosaic) (x y : Nat) : Nat :=
  m.cells.getD (8 * ((y + m.phaseY) % max 1 m.height) + (x + m.phaseX) % max 1 m.width) 3

/-- The site types of a mosaic, rising. -/
def siteTypes (m : Mosaic) : List Nat :=
  (List.range 5).filter fun t => (List.range m.height).any fun j => (List.range m.width).any fun i =>
    m.cells.getD (8 * j + i) 3 = t

/-- What is seen through a camera in one frame: its mosaic, its width, whether planes are binned, and the rows of a stage,
none where a line did not arrive whole. -/
structure Optics where
  mosaic : Mosaic
  width  : Nat
  binned : Bool
  rows   : Array (Option (Array Nat))
  deriving DecidableEq, Repr, Inhabited

/-- The mosaic frame after stage 1: camera.height lines, truncated there, none where a line lacks (R382, R385). -/
def stage1 (s : State) (c : Nat) (fr : CamFrame) : Optics :=
  let bits := cfgN s Fld.camera_pixel_bits c
  let h := cfgN s Fld.camera_height c
  let l : List (Option (List Nat)) := fr.lines.take h ++ List.replicate (h - fr.lines.length) none
  { mosaic := mosaicOf s c, width := cfgN s Fld.camera_width c, binned := cfgN s Fld.camera_reconstruct c = 0
    rows := (l.map fun r => r.map fun v => (v.map (widen bits)).toArray).toArray }

/-- The dark and gain entries of a column and phase (R386). -/
def flatEntry (l : List (Nat × Nat × Nat × Nat)) (x p : Nat) : Nat × Nat :=
  ((l.find? fun e => e.1 = x && e.2.1 = p).map (·.2.2)).getD (0, 4096)

/-- A sample after the flat-field (R386). -/
def flatten (dg : Nat × Nat) (v : Nat) : Nat := min 65535 (((v - dg.1) * dg.2 + 2048) / 4096)

/-- Stage 2 (R386). -/
def stage2 (flat : List (Nat × Nat × Nat × Nat)) (o : Optics) : Optics :=
  { o with rows := o.rows.mapIdx fun y r => r.map fun v => v.mapIdx fun x w =>
      flatten (flatEntry flat x ((y + o.mosaic.phaseY) % max 1 o.mosaic.height)) w }

/-- The sample of a sensor pixel, where its line arrived. -/
def Optics.at (o : Optics) (x y : Nat) : Option Nat := (o.rows.getD y none).bind fun r => r[x]?

/-- The sensor pixels from the a-th to before the z-th of an axis, cut at its length. -/
def cutRange (a z n : Int) : List Nat := ((List.range (min z n - max 0 a).toNat).map fun i => i + (max 0 a).toNat)

/-- The rounded mean of samples; none of none. -/
def meanOf (l : List Nat) : Option Nat := if l.isEmpty then none else some ((l.sum + l.length / 2) / l.length)

/-- The valid samples of a type among the pixels of two ranges. -/
def samplesOf (o : Optics) (t : Nat) (xs ys : List Nat) : List Nat :=
  ys.flatMap fun y => xs.filterMap fun x => if siteType o.mosaic x y = t then o.at x y else none

/-- The binned value of tile (X, Y) (R388). -/
def binnedAt (o : Optics) (t X Y : Nat) : Option Nat :=
  let m := o.mosaic
  let x0 : Int := X * m.width - m.phaseX
  let y0 : Int := Y * m.height - m.phaseY
  meanOf (samplesOf o t (cutRange x0 (x0 + m.width) o.width) (cutRange y0 (y0 + m.height) o.rows.size))

/-- The interpolated value of a sensor pixel (R388). -/
def interpolatedAt (o : Optics) (t x y : Nat) : Option Nat :=
  if siteType o.mosaic x y = t then o.at x y
  else
    let xs := cutRange ((x : Int) - 1) (x + 2) o.width
    let ys := cutRange ((y : Int) - 1) (y + 2) o.rows.size
    if ys.any fun j => xs.any fun i => siteType o.mosaic i j = t then meanOf (samplesOf o t xs ys)
    else binnedAt o t ((x + o.mosaic.phaseX) / max 1 o.mosaic.width) ((y + o.mosaic.phaseY) / max 1 o.mosaic.height)

/-- An output pixel of stage 3 (R388). -/
def pixelAt (o : Optics) (t X Y : Nat) : Option Nat := if o.binned then binnedAt o t X Y else interpolatedAt o t X Y

/-- The size of the planes of stage 3. -/
def planeWidth (o : Optics) : Nat :=
  if o.binned then (o.width + o.mosaic.phaseX + o.mosaic.width - 1) / max 1 o.mosaic.width else o.width
def planeHeight (o : Optics) (rows : Nat) : Nat :=
  if o.binned then (rows + o.mosaic.phaseY + o.mosaic.height - 1) / max 1 o.mosaic.height else rows

/-- A sensor row that goes into output row Y arrived. -/
def rowWhole (o : Optics) (Y : Nat) : Bool :=
  let m := o.mosaic
  let ys := if o.binned then cutRange ((Y * m.height : Int) - m.phaseY) (Y * m.height - m.phaseY + m.height) (2 ^ 16) else [Y]
  ys.all fun y => (o.rows.getD y none).isSome

/-! ### Stage 4: location (R368, R388, R463) -/

/-- The file of output column X, with fraction. -/
def columnFile (s : State) (c : Nat) (shift : Rat) (X : Nat) : Rat :=
  let m := if cfgN s Fld.camera_reconstruct c = 0 then (mosaicOf s c).width else 1
  (cfgN s Fld.camera_file_origin c : Rat) / 256 + (X * m * cfgN s Fld.camera_file_per_pixel c : Nat) / 65536 + shift

/-- The line of the print, as the leading bar numbers it, that output row Y of a frame shows. -/
def rowLine (s : State) (c : Nat) (line : Rat) (Y : Nat) : Rat :=
  let m := if cfgN s Fld.camera_reconstruct c = 0 then (mosaicOf s c).height else 1
  line - camOffset s c + (Y * m : Nat) * camLinePerRow s c

/-- The output columns whose centres lie among files x0 to before x1. -/
def columnsIn (s : State) (c : Nat) (shift : Rat) (w : Nat) (x0 x1 : Rat) : List Nat :=
  (List.range w).filter fun X => x0 ≤ columnFile s c shift X && columnFile s c shift X < x1

/-- The output column that lies nearest to a file, when it is less than a column off. -/
def columnNear (s : State) (c : Nat) (shift : Rat) (w x : Nat) : List Nat :=
  let step := columnFile s c shift 1 - columnFile s c shift 0
  ((List.range w).find? fun X => absRat (columnFile s c shift X - x) * 2 ≤ step).toList

/-- The output rows that show lines y0 to before y1. -/
def rowsIn (s : State) (c : Nat) (line : Rat) (h : Nat) (y0 y1 : Rat) : List Nat :=
  (List.range h).filter fun Y => y0 ≤ rowLine s c line Y && rowLine s c line Y < y1

/-! ### Stage 5: statistics (R389, R397, R401, R403, R404) -/

/-- Count, sum and sum of squares of the valid pixels of a window, for each plane (R389). -/
def windowStats (o : Optics) (xs ys : List Nat) (slot kind unit num sub : Nat) : List Stat :=
  (siteTypes o.mosaic).map fun t =>
    let l := ys.flatMap fun Y => xs.filterMap fun X => pixelAt o t X Y
    { slot := slot, kind := kind, unit := unit, num := num, sub := sub, plane := t, count := l.length, sum := l.sum
      sq := (l.map fun v => v * v).sum }

/-- The plane that measures a bar: the first one present when its own is absent (R403). -/
def barPlane (s : State) (c b : Nat) : Nat :=
  let ts := siteTypes (mosaicOf s c)
  let t := cfgN s Fld.calibration_bar_plane b
  if ts.contains t then t else ts.headD 3

/-- The first file after the first j of the files of some ranges. -/
def nthFile : List (Nat × Nat) → Nat → Nat
  | [], _ => 0
  | [r], j => r.1 + j
  | r :: l, j => if j < r.2 - r.1 then r.1 + j else nthFile l (j - (r.2 - r.1))

/-- What a frame lets measurement see: camera, line of its trigger, the traverse of its axis, its optics after stage 2, and
whether windows must lie wholly in lines that arrived (R383). -/
structure Located where
  cam    : Nat
  line   : Rat
  shift  : Rat
  o      : Optics
  strict : Bool

/-- The rows of a band of lines, none when a marked frame lacks one of them (R383). -/
def bandRows (s : State) (v : Located) (y0 y1 : Rat) : List Nat :=
  let ys := rowsIn s v.cam v.line (planeHeight v.o v.o.rows.size) y0 y1
  if v.strict && !ys.all (rowWhole v.o) then [] else ys

/-- The output columns whose centres lie among the files of some ranges. -/
def coveredColumns (s : State) (v : Located) (l : List (Nat × Nat)) : List Nat :=
  (List.range (planeWidth v.o)).filter fun X =>
    let x := columnFile s v.cam v.shift X
    l.any fun r => (r.1 : Rat) ≤ x && x < (r.2 : Rat)

/-- The statistics of a density block: one for each window of each bar (R404). -/
def densityStats (s : State) (v : Located) (bars : List Nat) (m : PrintedMark) : List Stat :=
  let n := cfgN s Fld.calibration_density_lines 0
  let tw := cfgN s Fld.calibration_tap_window 0
  bars.zipIdx.flatMap fun p =>
    let ys := bandRows s v (m.point + (p.2 * n : Nat) : Int) (m.point + (p.2 * n + n : Nat) : Int)
    let ws := ((barCovered s.conf.cfg p.1).flatMap fun r => (List.range ((r.2 - 1) / max 1 tw + 1 - r.1 / max 1 tw)).map
      fun i => r.1 / max 1 tw + i).eraseDups
    ws.flatMap fun w => windowStats v.o
      (columnsIn s v.cam v.shift (planeWidth v.o) (w * tw : Nat) (w * tw + tw : Nat)) ys m.slot 0 p.1 w 0

/-- The first line of a nozzle's stroke within a nozzle check (R397). -/
def strokeLine (s : State) (head slot : Nat) : Nat :=
  let pitch := cfgN s Fld.calibration_nc_pitch 0
  let n := cfgN s Fld.calibration_nc_lines 0
  head % 2 * (pitch * n) + slot % max 1 pitch * n

/-- The statistics of a nozzle check: one for each row of each nozzle's stroke, whose column is the one nearest to its file
(R404). -/
def nozzleStats (s : State) (v : Located) (m : PrintedMark) : List Stat :=
  let n := cfgN s Fld.calibration_nc_lines 0
  (barLinks s.conf.cfg m.block.bar).flatMap fun k => (List.range (linkSlots s.conf.cfg k)).flatMap fun sl =>
    match slotHead s.conf.cfg k sl, slotFile s.conf.cfg k sl with
    | some (h, _, _), some x =>
      let y0 : Int := m.point + strokeLine s h sl
      (bandRows s v y0 (y0 + n : Int)).flatMap fun Y =>
        windowStats v.o (columnNear s v.cam v.shift (planeWidth v.o) x) [Y] m.slot 1 k sl Y
    | _, _ => []

/-- The statistics of a tone block: one for each patch of each bar (R404). -/
def toneStats (s : State) (v : Located) (bars : List Nat) (m : PrintedMark) : List Stat :=
  let n := cfgN s Fld.calibration_tone_lines 0
  bars.zipIdx.flatMap fun p =>
    let ys := bandRows s v (m.point + (p.2 * n : Nat) : Int) (m.point + (p.2 * n + n : Nat) : Int)
    let cov := barCovered s.conf.cfg p.1
    let nf := rangesCount cov
    (List.range 9).flatMap fun i => windowStats v.o
      (coveredColumns s v (rangesWithin (nthFile cov (i * nf / 9)) (nthFile cov ((i + 1) * nf / 9 - 1) + 1) cov))
      ys m.slot 3 p.1 i 0

/-- The statistics of a registration block: one for each row of each bar's band (R404). -/
def registrationStats (s : State) (v : Located) (bars : List Nat) (m : PrintedMark) : List Stat :=
  let xs := columnsIn s v.cam v.shift (planeWidth v.o) m.files.1 (m.files.1 + m.files.2 : Nat)
  bars.zipIdx.flatMap fun p =>
    (bandRows s v (m.point + (32 * p.2 : Nat) : Int) (m.point + (32 * p.2 + 32 : Nat) : Int)).flatMap fun Y =>
      windowStats v.o xs [Y] m.slot 4 p.1 0 Y

/-- The statistics of a blank block: of each column and phase, lit (0) and dark (1), from the samples of stage 1; of a
marked frame only where the rows of the half have all come (R383, R404). -/
def blankStats (s : State) (v : Located) (raw : Optics) (m : PrintedMark) : List Stat :=
  let n := cfgN s Fld.calibration_flat_lines 0
  let h := max 1 raw.mosaic.height
  [0, 1].flatMap fun half =>
    let inHalf (y : Nat) : Bool :=
      let l := v.line - camOffset s v.cam + (y : Rat) * camLinePerRow s v.cam
      ((m.point + (half * n : Nat) : Int) : Rat) ≤ l && l < ((m.point + (half * n + n : Nat) : Int) : Rat)
    let all := (List.range raw.rows.size).filter inHalf
    let rows := if v.strict && !(all.all fun y => (raw.rows.getD y none).isSome) then [] else all
    (List.range raw.width).flatMap fun x => (List.range h).map fun p =>
      let l := (rows.filter fun y => (y + raw.mosaic.phaseY) % h = p).filterMap fun y => raw.at x y
      { slot := m.slot, kind := 5, unit := v.cam, num := 8 * x + p, sub := half, plane := 0, count := l.length, sum := l.sum
        sq := (l.map fun v => v * v).sum }

/-- The white level of every plane in the guard lines before a strip, across the covered files (R403). -/
def whiteStats (s : State) (v : Located) (m : PrintedMark) : List Stat :=
  let g := cfgN s Fld.calibration_guard_lines 0
  let y1 : Int := m.point - m.block.line
  let cov := rangesWithin m.files.1 (m.files.1 + m.files.2) (maskCovered s.conf.cfg (runMask s))
  windowStats v.o (coveredColumns s v cov) (bandRows s v (y1 - g : Int) y1) m.slot 6 0 0 0

/-- The windows of a page that a frame shows: of calibration.tap_window files by 64 lines (R405). -/
def pageWindows (s : State) (v : Located) (x : Slot) (pg : Page) : List (Nat × Nat) :=
  let tw := max 1 (cfgN s Fld.calibration_tap_window 0)
  let ws := (coveredColumns s v [(pg.fileStart, pg.fileStart + pg.fileCount)]).map fun X => (columnFile s v.cam v.shift X).floor.toNat / tw
  let js := (bandRows s v x.start (x.start + x.length : Int)).map fun Y => (rowLine s v.cam v.line Y - x.start).floor.toNat / 64
  ws.eraseDups.flatMap fun w => js.eraseDups.map fun j => (w, j)

/-- The statistics of the windows that are compared with the references under FULL (R164, R389, R405). -/
def inspectionStats (s : State) (v : Located) : List Stat :=
  let tw := cfgN s Fld.calibration_tap_window 0
  match s.jobs.armed with
  | none => []
  | some a =>
    if a.run.inspection ≠ 2 then []
    else (a.slots.filter fun x => x.reasons &&& 1 = 0).flatMap fun x => match pageOf s x.page with
      | some pg => if pg.refKind ≠ 2 then []
          else (pageWindows s v x pg).flatMap fun q =>
            let xs := (coveredColumns s v [(pg.fileStart, pg.fileStart + pg.fileCount)]).filter fun X =>
              (columnFile s v.cam v.shift X).floor.toNat / max 1 tw = q.1
            windowStats v.o xs (bandRows s v (x.start + (64 * q.2 : Nat) : Int) (x.start + min x.length (64 * q.2 + 64) : Int))
              x.num 7 0 q.1 q.2
      | none => []

/-- The statistics of a mark that a frame shows; those of empty windows are left out. -/
def markStats (s : State) (v : Located) (raw : Optics) (m : PrintedMark) : List Stat :=
  let bars := runBars s
  ((if m.block.kind = 0 then densityStats s v bars m
    else if m.block.kind = 1 then nozzleStats s v m
    else if m.block.kind = 3 then toneStats s v bars m
    else if m.block.kind = 4 then registrationStats s v bars m
    else blankStats s v raw m) ++ whiteStats s v m).filter fun x => x.count ≠ 0

/-! ### The frame record (*Table: Frame record*) and its statistics on the partner link -/

/-- The 32 bytes of a frame record, its time in a given layout. -/
def recordBytes (stamp : List Byte) (r : FrameRecord) : List Byte :=
  leBytes 1 r.camera ++ leBytes 1 r.marks ++ leBytes 2 r.generation ++ leBytes 4 r.trigger ++ leBytes 4 (ofSigned 32 r.line.floor) ++
    leBytes 4 r.lineSeq ++ stamp ++ leBytes 2 r.lines ++ leBytes 2 r.tag

/-- A statistic record on the partner link, 32 bytes. -/
def statBytes (x : Stat) : List Byte :=
  leBytes 1 x.kind ++ leBytes 1 x.unit ++ leBytes 2 x.sub ++ leBytes 3 x.num ++ leBytes 1 x.plane ++ leBytes 4 x.slot ++ leBytes 4 x.count ++
    leBytes 8 x.sum ++ leBytes 8 x.sq

/-- The statistic that 32 bytes spell. -/
def readStat (b : List Byte) : Stat :=
  { kind := fld b 0 1, unit := fld b 1 1, sub := fld b 2 2, num := fld b 4 3, plane := fld b 7 1, slot := fld b 8 4, count := fld b 12 4
    sum := fld b 16 8, sq := fld b 24 8 }

/-- The frame record that 32 bytes spell, with no statistics yet. -/
def readRecord (b : List Byte) : FrameRecord :=
  { camera := fld b 0 1, marks := fld b 1 1, generation := fld b 2 2, trigger := fld b 4 4, line := (sfld b 8 4 : Int)
    lineSeq := fld b 12 4, time := readNative ((b.drop 16).take 12), lines := fld b 28 2, tag := fld b 30 2, stats := [] }

/-! ### Raw taps (R390, R391) -/

/-- A window of a stage's output: its left and top edges, its width and its rows. -/
def tapWindow (s : State) (c w h : Nat) : Nat × Nat × Nat × Nat :=
  let f (i : Nat) : Nat := cfgN s Fld.camera_raw_tap_window (4 * c + i)
  let x := min (f 0) w
  let y := min (f 1) h
  (x, y, min (f 2) (w - x), min (f 3) (h - y))

/-- The samples of a capture, row by row; where the stage has no value the sample is left open. `n` is the draw, `base` the
number of the first sample. -/
def tapRows (val : Nat → Nat → Option Nat) (n base : Nat) (w : Nat × Nat × Nat × Nat) : List (List Byte) :=
  (List.range w.2.2.2).map fun j => (List.range w.2.2.1).flatMap fun i =>
    leBytes 2 ((val (w.1 + i) (w.2.1 + j)).getD (Config.freeSample n (base + j * w.2.2.1 + i)).toNat)

/-- The rows of a capture of each plane, and its window. -/
def tapPlanes (s : State) (c : Nat) (raw o : Optics) : List (List (List Byte)) × (Nat × Nat × Nat × Nat) :=
  let h := cfgN s Fld.camera_height c
  if cfgN s Fld.camera_raw_tap_point c = 3 then
    let w := tapWindow s c (planeWidth o) (planeHeight o h)
    ((siteTypes o.mosaic).zipIdx.map fun t => tapRows (pixelAt o t.1) s.freeN (t.2 * w.2.2.1 * w.2.2.2) w, w)
  else
    let w := tapWindow s c raw.width h
    let q := if cfgN s Fld.camera_raw_tap_point c = 1 then raw else o
    ([tapRows q.at s.freeN 0 w], w)

/-- The body of a raw tap, cut at the last whole row that fits (R391): as many rows of every plane. -/
def tapBody (s : State) (c : Nat) (r : FrameRecord) (raw o : Optics) : List Byte :=
  let p := tapPlanes s c raw o
  let w := p.2
  let rows := min w.2.2.2 ((16777152 - 64) / max 1 (2 * w.2.2.1 * p.1.length))
  recordBytes (stampOf s r.time) r ++ leBytes 2 (cfgN s Fld.camera_raw_tap_point c) ++ leBytes 2 w.1 ++ leBytes 2 w.2.1 ++ leBytes 2 w.2.2.1 ++
    leBytes 2 rows ++ leBytes 1 p.1.length ++ List.replicate 21 0 ++ p.1.flatMap fun l => (l.take rows).flatten

end Sys2Proof.Machine
end

