-- ==== Sys2Proof/Machine/Measure.lean ====
section
/-! DEFINITION. Measurement and acceptance (13_calibration_loop.md, R402 to R411, R414): what the statistics of a frame
propose for the elements, and what becomes of a proposal. -/
namespace Sys2Proof.Machine
open Sys2Proof

/-! ### Optical density and tone targets (R403) -/

/-- The nearest integer of 1,000 · log10 of a ratio of 1 or more: the largest n with 10^(2n - 1) ≤ ratio^2000. -/
def milliLog (r : Rat) : Nat :=
  (List.range 13).foldl (fun n k =>
    let m := n + 2 ^ (12 - k)
    if 10 ^ (2 * m - 1) * r.den ^ 2000 ≤ r.num.toNat ^ 2000 then m else n) 0

/-- Optical density of S under white level W, in milli-OD; `n` is the draw where W is 0. -/
def densityOf (n : Nat) (w s : Rat) : Int :=
  let r := w / max s 1
  if r ≤ 0 then (Config.freeDensity n s).toInt else if 1 ≤ r then milliLog r else -(milliLog (1 / r))

/-- The contone values v_0 to v_8. -/
def toneValue (i : Nat) : Nat := if i = 8 then 65535 else 8192 * i

/-- A line through two points, at x. -/
def between (x0 y0 x1 y1 x : Rat) : Rat := if x1 = x0 then y0 else y0 + (y1 - y0) * (x - x0) / (x1 - x0)

/-- target_b(v) (R403). -/
def toneTarget (s : State) (b v : Nat) : Int :=
  let i := min 7 (v / 8192)
  let t (j : Nat) : Rat := (cfgI s Fld.calibration_tone_target (9 * b + j) : Int)
  roundRat (between (toneValue i) (t i) (toneValue (i + 1)) (t (i + 1)) v)

/-! ### What the statistics of a mark say -/

/-- The mean of the valid pixels of some statistics; none with no valid pixel. -/
def statMean (l : List Stat) : Option Rat :=
  let n := (l.map fun x => x.count).sum
  if n = 0 then none else some ((((l.map fun x => x.sum).sum : Nat) : Rat) / n)

/-- The white level of a plane by a slot's strip; left open where the frame shows none of its guard lines. -/
def whiteLevel (s : State) (r : FrameRecord) (slot plane : Nat) : Rat :=
  (statMean (r.stats.filter fun x => x.slot = slot && x.kind = 6 && x.plane = plane)).getD
    ((Config.freeWhite s.freeN slot plane).toNat : Nat)

/-- The centroid of the darkness of some rows, in lines; none where nothing is darker than white. -/
def darkCentroid (s : State) (r : FrameRecord) (w : Rat) (l : List Stat) : Option Rat :=
  let d (x : Stat) : Rat := w * x.count - x.sum
  let total := (l.map d).sum
  if total ≤ 0 then none else some ((l.map fun x => d x * rowLine s r.camera r.line x.sub).sum / total)

/-- The middle value of a list, the mean of the middle two of an even number. -/
def medianOf (l : List Rat) : Option Rat :=
  let m := inOrder (· ≤ ·) l
  let n := m.length
  if n = 0 then none
  else if n % 2 = 1 then m[n / 2]?
  else some ((m.getD (n / 2 - 1) 0 + m.getD (n / 2) 0) / 2)

/-- The number of a bar among the run's. -/
def barIndex (s : State) (b : Nat) : Nat := (runBars s).idxOf b

/-- A proposal damped (R404). -/
def damped (s : State) (e : Rat) : Int := -(roundRat (e * (cfgN s Fld.calibration_damping 0 : Nat) / 100))

/-- The reference byte of a density window: the reference pixel at the window's first file, in the middle of its bar's band
(R404). -/
def windowReference (s : State) (m : PrintedMark) (b w : Nat) : Nat :=
  match (slotOf s m.slot).bind fun x => x.strip with
  | none => 0
  | some st =>
    let f := max 1 ((pageOf s st.page).map fun p => p.refFactor).get!
    let n := cfgN s Fld.calibration_density_lines 0
    let row := (m.block.line + barIndex s b * n + n / 2) / f
    ((st.reference.getD row []).getD (((windowFile s w - m.files.1) / f) * (runBars s).length + barIndex s b) 0).toNat

/-- DENSITY (R404). -/
def proposeDensity (s : State) (r : FrameRecord) (m : PrintedMark) (l : List Stat) : List (Element × List Int) :=
  (l.filter fun x => x.plane = barPlane s r.camera x.unit).filterMap fun x => (statMean [x]).map fun mean =>
    let e := densityOf s.freeN (whiteLevel s r m.slot (barPlane s r.camera x.unit)) mean -
      toneTarget s x.unit (windowReference s m x.unit x.num * 257)
    let d := roundRat (((-e * (cfgN s Fld.calibration_damping 0 : Nat) : Int) : Rat) /
      (100 * cfgN s Fld.calibration_density_slope x.unit : Nat))
    let mx : Int := cfgN s Fld.calibration_max_step 0
    (⟨0, x.unit, x.num⟩, [clampInt (-mx) mx d])

/-- The stroke darkness of each nozzle of a link that has valid pixels, with its rows. -/
def strokes (s : State) (r : FrameRecord) (m : PrintedMark) (k : Nat) (l : List Stat) : List (Nat × Rat × List Stat) :=
  let w := whiteLevel s r m.slot (barPlane s r.camera (k / 2))
  let mine := l.filter fun x => x.unit = k && x.plane = barPlane s r.camera (k / 2)
  ((mine.map fun x => x.num).eraseDups).filterMap fun n =>
    let rows := mine.filter fun x => x.num = n
    (statMean rows).map fun v => (n, w - v, rows)

/-- DEAD (R404). -/
def proposeDead (s : State) (r : FrameRecord) (m : PrintedMark) (l : List Stat) : List (Element × List Int) :=
  (barLinks s.conf.cfg m.block.bar).flatMap fun k =>
    let st := strokes s r m k l
    match medianOf (st.map fun p => p.2.1) with
    | none => []
    | some med => st.filterMap fun p =>
        if p.2.1 * 1000 < (cfgN s Fld.calibration_dead_threshold 0 : Nat) * med then some (⟨1, k, p.1⟩, [1])
        else if (cfgN s Fld.calibration_revive_threshold 0 : Nat) * med ≤ p.2.1 * 1000 then some (⟨1, k, p.1⟩, [0])
        else none

/-- TIMING (R404). -/
def proposeTiming (s : State) (r : FrameRecord) (m : PrintedMark) (l : List Stat) : List (Element × List Int) :=
  let c := s.conf.cfg
  let w := whiteLevel s r m.slot (barPlane s r.camera m.block.bar)
  let half : Rat := ((cfgN s Fld.calibration_nc_lines 0 - 1 : Nat) : Rat) / 2
  (barLinks c m.block.bar).flatMap fun k => (linkRanks c k).filterMap fun q =>
    let live := (strokes s r m k l).filter fun p => slotRank c k p.1 = q && !slotDead c s.cal.values.dead k p.1
    let errs := live.filterMap fun p => (darkCentroid s r w p.2.2).map fun cen =>
      let head := ((slotHead c k p.1).map (·.1)).getD 0
      256 * (cen - (((m.point + strokeLine s head p.1 : Int) : Rat) + half))
    (medianOf errs).map fun e => (⟨2, k, q⟩, [damped s e])

/-- The first v at which a rising list of points (u, o) reaches t (R404, TONE). -/
def inverseAt (pts : List (Rat × Rat)) (t : Rat) : Rat :=
  match pts with
  | [] => t
  | [p] => p.1
  | p :: q :: rest =>
    if t ≤ p.2 then p.1
    else if t ≤ q.2 then between p.2 p.1 q.2 q.1 t
    else inverseAt (q :: rest) t

/-- The measured densities made to rise. -/
def risingFrom (m : Rat) : List Rat → List Rat
  | [] => []
  | o :: l => max m o :: risingFrom (max m o) l

/-- TONE (R404): a curve where every patch has valid pixels. -/
def proposeTone (s : State) (r : FrameRecord) (m : PrintedMark) (l : List Stat) : List (Element × List Int) :=
  (runBars s).filterMap fun b =>
    let w := whiteLevel s r m.slot (barPlane s r.camera b)
    let ods := (List.range 9).filterMap fun i =>
      (statMean (l.filter fun x => x.unit = b && x.num = i && x.plane = barPlane s r.camera b)).map fun v => ((densityOf s.freeN w v : Int) : Rat)
    if ods.length ≠ 9 then none
    else
      let old := curveOf s b
      let us := (List.range 9).map fun i => ((evalCurve old (toneValue i) : Nat) : Rat)
      let pts := us.zip (risingFrom (ods.headD 0) ods)
      some (⟨3, b, 0⟩, (List.range 4097).map fun j =>
        let t : Rat := (toneTarget s b (min 65535 (16 * j)) : Int)
        let o : Int := old.getD j 0
        o + roundRat ((inverseAt pts t - o) * (cfgN s Fld.calibration_damping 0 : Nat) / 100))

/-- The reference bar of a run (R404; calibration.reg_reference_bar). -/
def referenceBar (s : State) : Nat :=
  let b := cfgN s Fld.calibration_reg_reference_bar 0
  if (runBars s).contains b then b else (runBars s).headD 0

/-- The line error of a bar's registration block, in 1/256 line (R404). -/
def registrationError (s : State) (r : FrameRecord) (m : PrintedMark) (l : List Stat) (b : Nat) : Option Rat :=
  (darkCentroid s r (whiteLevel s r m.slot (barPlane s r.camera b)) (l.filter fun x => x.unit = b && x.plane = barPlane s r.camera b)).map fun c =>
    256 * (c - (((m.point + (32 * barIndex s b : Nat) : Int) : Rat) + 31 / 2))

/-- REGISTRATION (R404). -/
def proposeRegistration (s : State) (r : FrameRecord) (m : PrintedMark) (l : List Stat) : List (Element × List Int) :=
  match registrationError s r m l (referenceBar s) with
  | none => []
  | some ref => ((runBars s).filter fun b => b ≠ referenceBar s).filterMap fun b =>
      (registrationError s r m l b).map fun e => (⟨4, b, 0⟩, [damped s (e - ref)])

/-- FLAT (R404): tables where every column and phase has been seen lit and dark. -/
def proposeFlat (s : State) (c : Nat) (l : List Stat) : List (Element × List Int) :=
  let h := max 1 (mosaicOf s c).height
  let cells := (List.range (8 * cfgN s Fld.camera_width c)).map fun i =>
    if i % 8 < h then
      match statMean (l.filter fun x => x.num = i && x.sub = 1), statMean (l.filter fun x => x.num = i && x.sub = 0) with
      | some d, some v => some (roundRat d, clampInt 1 65535
          (roundRat ((4096 * cfgN s Fld.calibration_white_target 0 : Nat) / max 1 (v - d))))
      | _, _ => none
    else some ((0 : Int), (4096 : Int))
  if cells.any Option.isNone then []
  else [(⟨5, c, 0⟩, cells.filterMap (fun x => x.map (·.1)) ++ cells.filterMap fun x => x.map (·.2))]

/-- The proposals that a frame makes from one mark (R404). -/
def markProposals (s : State) (r : FrameRecord) (m : PrintedMark) : List (Element × List Int) :=
  let l := r.stats.filter fun x => x.slot = m.slot && x.kind = m.block.kind
  let on (k : Nat) : Bool := (cfgN s Fld.calibration_enable 0).testBit k ||
    (s.cal.runNow.any fun q => q.kinds.testBit k)
  if m.block.kind = 0 then (if on 0 then proposeDensity s r m l else [])
  else if m.block.kind = 1 then
    (if on 1 then proposeDead s r m l else []) ++ (if on 2 then proposeTiming s r m l else [])
  else if m.block.kind = 3 then (if on 3 then proposeTone s r m l else [])
  else if m.block.kind = 4 then (if on 4 then proposeRegistration s r m l else [])
  else proposeFlat s r.camera l

/-! ### Stale marks (R402, R412) -/

/-- The version of an element under which a mark was printed (R393). -/
def printedVersion (s : State) (m : PrintedMark) (e : Element) : Nat :=
  let l := if e.kind = 2 || e.kind = 4 then ((slotOf s m.slot).map fun x => x.versions).getD [] else m.versions
  ((l.find? fun p => p.1 = e).map (·.2)).getD 0

/-- A measurement that R402 discards: the element has another version by now, or is being slewed. -/
def staleFor (s : State) (m : PrintedMark) (e : Element) : Bool :=
  e.kind ≠ 5 && (printedVersion s m e ≠ versionOf s e || s.cal.slews.any fun p => p.1 = e)

/-! ### Acceptance (R406 to R409, R411) -/

/-- Two proposals agree (*Table: Agreement tolerances*). -/
def agree (s : State) (e : Element) (p q : List Int) : Bool :=
  let d (i : Nat) : Nat := (p.getD i 0 - q.getD i 0).natAbs
  if e.kind = 0 then d 0 ≤ cfgN s Fld.calibration_tol_density 0
  else if e.kind = 1 then p = q
  else if e.kind = 2 || e.kind = 4 then d 0 ≤ cfgN s Fld.calibration_tol_timing 0
  else if e.kind = 3 then
    let at_ (l : List Int) (i : Nat) : Int := evalCurve (l.map Int.toNat) (toneValue i)
    (List.range 9).all fun i => (at_ p i - at_ q i).natAbs ≤ cfgN s Fld.calibration_tol_tone 0
  else
    let n := p.length / 2
    (List.range n).all fun i => d (n + i) * 100 ≤ cfgN s Fld.calibration_tol_flat 0 * (q.getD (n + i) 0).natAbs

/-- A single proposal is plausible (R409). -/
def plausible (s : State) (e : Element) (p : List Int) : Bool :=
  let old := valueOf s e
  if e.kind = 1 then true
  else if e.kind = 3 then (List.range 4097).all fun j =>
    (p.getD j 0 - old.getD j 0).natAbs ≤ cfgN s Fld.calibration_tol_tone 0
  else if e.kind = 5 then agree s e p old
  else (p.headD 0).natAbs ≤ cfgN s Fld.calibration_plaus_limit 0

/-- The mean of two proposals, halves towards zero; for DEAD the proposal itself (R406). -/
def meanProposal (e : Element) (p q : List Int) : List Int :=
  if e.kind = 1 then p else List.zipWith (fun a b => (a + b).tdiv 2) p q

/-- The range of an element's value (*Table: Correction kinds*). -/
def elementRange (e : Element) : Int × Int :=
  if e.kind = 0 then (-128, 127) else if e.kind = 1 then (0, 1) else if e.kind = 2 then (0, 255)
  else if e.kind = 4 then (-8192, 8191) else (0, 65535)

/-- The value that an accepted change gives an element, before its clamp (R407). -/
def changedValue (s : State) (e : Element) (p : List Int) : List Int :=
  if e.kind = 0 || e.kind = 2 || e.kind = 4 then [(valueOf s e).headD 0 + p.headD 0] else p

/-- An accepted value is sent to the partner, clamped; TAP_AT_LIMIT where the clamp bites (R407). -/
def acceptValue (e : Element) (p : List Int) (slot : Nat) (s : State) : State :=
  let r := elementRange e
  let want := changedValue s e p
  let v := want.map (clampInt r.1 r.2)
  let s1 := if v = want then s
    else raise 0x0A12 (leBytes 1 e.kind ++ leBytes 1 (elemBar e) ++ leBytes 4 (elemCode e)) s
  let s2 := modKinds (2 ^ e.kind) (fun k => { k with
    accepted := wrapInc 32 k.accepted, lastSlot := slot, lastTime := timeNow s }) s1
  sendTap e v (dropHeld e { s2 with cal := { s2.cal with disagree := s2.cal.disagree.filter fun d => d.1 ≠ e } })

/-- A disagreement is counted, and CAL_UNSTABLE raised once for the element (R408). -/
def noteDisagreement (e : Element) (s : State) : State :=
  let old := (s.cal.disagree.find? fun d => d.1 = e).getD (e, 0, false)
  let n := old.2.1 + 1
  let due := cfgN s Fld.calibration_disagree_limit 0 ≤ n && !old.2.2
  let s1 := modKinds (2 ^ e.kind) (fun k => { k with disagreements := wrapInc 16 k.disagreements })
    { s with cal := { s.cal with disagree := (s.cal.disagree.filter fun d => d.1 ≠ e) ++ [(e, n, old.2.2 || due)] } }
  if due then raise 0x0A13 (leBytes 1 e.kind ++ leBytes 1 (elemBar e) ++ leBytes 4 (elemCode e)) s1 else s1

/-- The proposal is held (R406). -/
def holdProposal (e : Element) (p : List Int) (gen : Nat) (marked : Bool) (s : State) : State :=
  let h : Held := { elem := e, value := p, version := versionOf s e, gen := gen, marked := marked }
  { s with cal := { s.cal with held := (s.cal.held.filter fun x => x.elem ≠ e) ++ [h] } }

/-- What became of a proposal. -/
inductive Fate where
  | accepted | disagreed | held
  deriving DecidableEq, Repr, Inhabited

/-- A valid proposal from a frame of camera generation `gen`, marked or not: an acceptance rests on unmarked frames alone
(R383, R406, R409, R411). -/
def takeProposal (e : Element) (p : List Int) (gen slot : Nat) (marked : Bool) (s : State) : Fate × State :=
  let s1 := modKinds (2 ^ e.kind) (fun k => { k with proposals := wrapInc 32 k.proposals }) s
  let may := !s1.cal.frozen && !marked
  if cfgN s1 Fld.calibration_accept_mode 0 = 1 then
    if plausible s1 e p && may then (.accepted, acceptValue e p slot s1) else (.held, s1)
  else
    match s1.cal.held.find? fun h => h.elem = e && h.version = versionOf s1 e && h.gen = gen with
    | none => (.held, holdProposal e p gen marked s1)
    | some h =>
      if agree s1 e p h.value then
        if may && !h.marked then (.accepted, acceptValue e (meanProposal e p h.value) slot s1)
        else (.held, if h.marked && !marked then holdProposal e p gen false s1 else s1)
      else (.disagreed, noteDisagreement e (holdProposal e p gen marked s1))

/-- What a frame's proposals have led to: elements accepted and elements that disagreed. -/
structure Tally where
  accepted  : List Element
  disagreed : List Element
  state     : State

/-- One proposal of a frame (R402). -/
def tallyOne (r : FrameRecord) (m : PrintedMark) (a : Tally) (x : Element × List Int) : Tally :=
  if staleFor a.state m x.1 then
    { a with state := modKinds (2 ^ x.1.kind) (fun k => { k with stale := wrapInc 16 k.stale }) a.state }
  else
    match takeProposal x.1 x.2 r.generation m.slot (r.marks ≠ 0) a.state with
    | (.accepted, s) => { a with accepted := x.1 :: a.accepted, state := answerRunNow x.1 true s }
    | (.disagreed, s) => { a with disagreed := x.1 :: a.disagreed, state := answerRunNow x.1 false s }
    | (.held, s) => { a with state := s }

/-- CAL_ACCEPTED and CAL_DISAGREED, one for each kind and bar; the latter once for each strip. -/
def tallyEvents (slot : Nat) (a : Tally) : State :=
  let groups (l : List Element) : List (Nat × Nat) := (l.map fun e => (e.kind, elemBar e)).eraseDups
  let of (l : List Element) (g : Nat × Nat) : List Element := l.filter fun e => e.kind = g.1 && elemBar e = g.2
  let s1 := forEach (groups a.accepted) (fun g s =>
    let es := of a.accepted g
    let ver := (es.map (versionOf s)).foldl max 0
    raise 0x0A10 (leBytes 1 g.1 ++ leBytes 1 g.2 ++ leBytes 4 es.length ++ leBytes 4 ver) s) a.state
  forEach (groups a.disagreed) (fun g s =>
    if s.cal.disagreedStrips.contains (slot, 8 * g.1 + g.2) then s
    else raise 0x0A11 (leBytes 1 g.1 ++ leBytes 1 g.2 ++ leBytes 4 (of a.disagreed g).length)
      { s with cal := { s.cal with disagreedStrips := (slot, 8 * g.1 + g.2) :: s.cal.disagreedStrips } }) s1

/-- The proposals that a frame makes from one mark are taken (R402, R406). -/
def measureMark (r : FrameRecord) (s : State) (m : PrintedMark) : State :=
  let a := (markProposals s r m).foldl (tallyOne r m) { accepted := [], disagreed := [], state := s }
  if a.accepted.isEmpty && a.disagreed.isEmpty then a.state else tallyEvents m.slot a

/-- The measurement of a frame: only a module that decides makes proposals, and no frame marked GENERATION_UNSURE, FORMAT or
MISSING is used (R383, R406, R410). -/
def measureFrame (r : FrameRecord) (s : State) : State :=
  if !drives s || !inRun s || r.marks &&& 56 ≠ 0 || r.stats.isEmpty then s
  else
    let seen := s.cal.marks.filter fun m => r.stats.any fun x => x.slot = m.slot && x.kind = m.block.kind
    settleRunNow (seen.foldl (measureMark r) (drawFree s))

end Sys2Proof.Machine
end

