-- ==== Sys2Proof/Machine/TimeOps.lean ====
section
/-! DEFINITION. The timebase and the timed outputs as the other families use them (14_timebase.md, R425 to R428, R437, R440,
R441): changes of the anchor, and pulses. -/
namespace Sys2Proof.Machine
open Sys2Proof

/-- ns in the unit of module time, 2^-16 ns. -/
def nsUnits (n : Int) : Int := n * 65536

/-- A second in the unit of module time. -/
def secondUnits : Int := 65536000000000

/-- The anchors that readings of the last second may still need once a change has taken effect at a raw count (R426). -/
def keptAnchors (rc : Nat) (s : State) : List (Nat × Int × Int) :=
  let l := (rc, (0 : Int), (0 : Int)) :: (s.time.raw0, s.time.t0, s.time.rate) :: s.time.old
  (l.zip l.tail).filterMap fun p => if rawTicks s ≤ p.1.1 + 250000000 then some p.2 else none

/-- The pending change takes effect once its raw count is reached (R425, R426). -/
def settleChange (s : State) : State :=
  match s.time.pending with
  | none => s
  | some (rc, step, rate) =>
    if (rc * 256 : Int) ≤ rawOf s s.now then
      { s with time := { s.time with
        raw0 := rc, t0 := anchorTime s.time.raw0 s.time.t0 s.time.rate (rc * 256) + step, rate := rate, pending := none
        old := keptAnchors rc s } }
    else s

/-- A change is written, 16 ticks ahead; it replaces one that is pending (R427). -/
def writeChange (step rate : Int) (s : State) : State :=
  let s1 := settleChange s
  { s1 with time := { s1.time with
    pending := some (rawTicks s1 + 16, step, clampInt (-536870912) 536870911 rate)
    changesReplaced := if s1.time.pending.isSome then wrapInc 16 s1.time.changesReplaced else s1.time.changesReplaced } }

/-- A rate in ppb as the anchor holds it, in 2^-40 (R428). -/
def rateOf (ppb : Rat) : Int := roundRat (ppb * 1099511627776 / 1000000000)

/-- When an output falls whose next pulse would end at `d`: a pulse that is high completes its own width (R439). -/
def pulseEnd (x : Tpo) (d : Nat) : Nat := if x.level then max (x.fallAt.getD 0) d else d

/-- An output is driven high for a number of ns, counted on the raw counter; an edge is issued (R437, R422, R439). -/
def pulseOut (o widthNs : Nat) (s : State) : State :=
  modOut o (fun x => { x with level := true, edges := wrapInc 32 x.edges, fallAt := some (pulseEnd x (s.now + nsT widthNs)) }) s

/-- Late edges: one pulse for the latest, the others dropped (R440). -/
def countLate (o dropped : Nat) (s : State) : State :=
  raiseLimited 0x0B13 o (secT 1) (fun _ => leBytes 1 o ++ leBytes 4 dropped)
    (modOut o (fun x => { x with late := wrapAdd 16 x.late (dropped + 1) }) s)

/-- Module time has gone past an instant by more than the capture resolution: a step carried it there. -/
def isLate (s : State) (due : Int) : Bool := due + 1025 < timeNow s

/-- The source that the time servo follows: 0 FREE, 1 PTP, 2 RING, 3 the partner (R430). -/
def timeSource (s : State) : Nat := if follows s then 3 else cfgN s Fld.timebase_source 0

/-- The time state after a measurement within or beyond the lock threshold (*Table: Time states*). -/
def stateAfter (o : Rat) (s : State) : State :=
  let lock : Rat := (cfgN s Fld.timebase_lock_threshold 0 : Nat)
  let n := if absRat o ≤ lock then s.time.within + 1 else 0
  match s.time.state with
  | .free | .holdover =>
    let s1 := setTimeState .acquiring s
    { s1 with time := { s1.time with within := n - s.time.within } }
  | .acquiring =>
    if 16 ≤ n then setTimeState .locked s else { s with time := { s.time with within := n } }
  | .locked => if 4 * lock < absRat o then setTimeState .acquiring s else s

/-- One step of the servo on an offset in ns (R428). -/
def servoStep (o : Rat) (s : State) : State :=
  let dt : Rat := match s.time.lastMeasure with
    | some t => ((s.now - t : Nat) : Rat) / 64000000000
    | none => 0
  let s1 := settleChange { s with time := { s.time with lastMeasure := some s.now, offset := roundRat o } }
  if (cfgN s Fld.timebase_step_threshold 0 : Nat) < absRat o then
    let step := -(roundRat (o * 65536))
    raise 0x0B12 (sgBytes 8 (roundRat (-o)))
      (writeChange step s1.time.rate { s1 with time := { s1.time with steps := wrapInc 16 s1.time.steps } })
  else
    let mx : Rat := (cfgN s Fld.timebase_max_slew 0 : Nat)
    let i := clampRat (-mx) mx (s.time.integ - o * dt / 64)
    let r := clampRat (-mx) mx (i - o / 4)
    writeChange 0 (rateOf r) { s1 with time := { s1.time with integ := i } }

/-- An offset from the source in force is measured, in 2^-16 ns: the servo runs once (R428). -/
def measureOffset (offset : Int) (s : State) : State :=
  stateAfter ((offset : Rat) / 65536) (servoStep ((offset : Rat) / 65536) s)

/-- FREE: rate 0 (*Table: Time states*). -/
def freeTime (s : State) : State :=
  setTimeState .free (if s.time.rate = 0 && s.time.pending.isNone then s else writeChange 0 0 s)

end Sys2Proof.Machine
end

