-- ==== Sys2Proof/Machine/Cameras.lean ====
section
/-! DEFINITION. Inspection cameras (12_inspection_cameras.md, R363 to R391; 13_calibration_loop.md, R405, R414): port states,
stream packets, the end of a frame, settings and their generations, frame triggers and strobes. -/
namespace Sys2Proof.Machine
open Sys2Proof

/-! ### Port states (R363 to R365) -/

/-- The camera ports are on: PD8, and TRAIN or a later state that runs them (*Table: Camera port states*). -/
def camerasOn (s : State) : Bool :=
  domainOn s 8 && (s.mod.state = .train || motionOn s.mod.state)

/-- A command of settings that sets up the port: generation 0, in effect from the first trigger (R374). -/
def firstCommand (s : State) (c : Nat) : CamCommand :=
  { gen := 0, exposure := cfgN s Fld.camera_exposure c, gain := cfgN s Fld.camera_gain c, writtenAt := s.now, commit := some 0
    acked := true, failed := false }

/-- The register writes of a command; an address of 0 disables one (*Table: Camera configuration*). -/
def writeSettings (c : Nat) (k : CamCommand) (s : State) : State :=
  let ea := cfgN s Fld.camera_exposure_address c
  let ga := cfgN s Fld.camera_gain_address c
  let s1 := if ea = 0 then s else emit (.camWrite c ea k.exposure) s
  if ga = 0 then s1 else emit (.camWrite c ga k.gain) s1

/-- The port becomes READY with the rate that both sides know (R363, R374, R376, R386). -/
def enterReady (c rate : Nat) (s : State) : State :=
  let n := cfgN s Fld.camera_connections c
  let k := firstCommand s c
  let s1 := modCam c (fun x => { x with
    state := .ready, rate := rate, connections := n, generation := 0, failures := 0, triggers := 0, skipped := 0, tag := none
    commands := [k], nextGen := 1, unsureFrom := none, frame := none, ended := none, flat := [], exposure := k.exposure, gain := k.gain
    fill := 0, fillAt := s.now, blank := none, atPartner := false
    conns := x.conns.zipIdx.map fun p => { p.1 with locked := decide (p.2 < n) } }) (writeSettings c k s)
  raise 0x0910 (leBytes 1 c ++ leBytes 2 rate ++ leBytes 2 n) s1

/-- A discovery that failed; the third one in a row ends in FAULT. -/
def discoveryFailed (c : Nat) (s : State) : State :=
  modCam c (fun x => { x with
    failures := x.failures + 1
    state := if 3 ≤ x.failures + 1 then .fault else .discovery
    faultAt := if 3 ≤ x.failures + 1 then s.now else x.faultAt }) s

/-- CAMERA_DISCOVERY (R363): discovery and set-up of a port have ended. -/
def execCameraDiscovery (t port : Nat) (d : CamDiscovery) (s : State) : Host.Outcome State Fault Refusal :=
  let s1 := beginAt t s
  let want := cfgN s1 Fld.camera_connections port
  if (camOf s1 port).state ≠ .discovery || !camerasOn s1 then .next s1
  else if d.ok && d.connections < want then
    .next (discoveryFailed port (raise 0x0913 (leBytes 1 port ++ leBytes 2 d.connections ++ leBytes 2 want) s1))
  else if d.ok && d.readBack then
    .next (enterReady port (min d.offeredRate (cfgN s1 Fld.camera_cxp_rate port)) s1)
  else .next (discoveryFailed port s1)

/-- CAMERA_RETRY (*Table: Camera port states*): 10 s in FAULT have passed. -/
def execCameraRetry (t port : Nat) (s : State) : Host.Outcome State Fault Refusal :=
  let s1 := beginAt t s
  let x := camOf s1 port
  .next (if x.state = .fault && x.faultAt + secT 10 ≤ s1.now && camerasOn s1 then
    modCam port (fun x => { x with state := .discovery }) s1 else s1)

/-! ### Settings (R374 to R378, R380) -/

/-- The camera's next generation number after command `gen` (R374). -/
def genTaken (c gen : Nat) (s : State) : State := modCam c (fun x => { x with nextGen := (gen + 1) % 65536 }) s

/-- A command is written where the camera is cabled: it waits for the trigger that commits it (R375). -/
def issueCommand (c gen exposure gain : Nat) (s : State) : State :=
  let s1 := genTaken c gen s
  if (camOf s c).state ≠ .ready then s1
  else
    let k : CamCommand := { gen := gen, exposure := exposure, gain := gain, writtenAt := s.now, commit := none
                            acked := false, failed := false }
    modCam c (fun x => { x with commands := x.commands ++ [k] }) s1

/-- The sequencer starts a command: its generation number is taken, the partner is told, and it is written on the partner's
acknowledgement. A module that follows issues none of its own (R374, R380). -/
def startCommand (c gen exposure gain : Nat) (s : State) : State :=
  if follows s then s
  else
    onAck 0x09 (leBytes 1 c ++ leBytes 2 gen ++ leBytes 4 exposure ++ leBytes 2 gain) (.camera c gen exposure gain)
      (issueCommand c gen exposure gain) (genTaken c gen s)

/-- A committed command's write has not been acknowledged, or has failed: it is counted, and the same settings are written
again as a new command (R377). -/
def writeFailed (c : Nat) (k : CamCommand) (s : State) : State :=
  let g := (camOf s c).nextGen
  let s1 := modCam c (fun x => { x with
    writeFailures := wrapInc 16 x.writeFailures, unsureFrom := some (g, none)
    commands := x.commands.map fun q => if q.gen = k.gen then { q with failed := true } else q }) s
  startCommand c g k.exposure k.gain (raise 0x0915 (leBytes 1 c ++ leBytes 2 k.gen) s1)

/-- Committed commands that still lack their acknowledgement. -/
def unanswered (x : Cam) : List CamCommand := x.commands.filter fun k => k.commit.isSome && !k.acked && !k.failed

/-- gen(j): the command with the latest commit trigger that is in effect, and of several the highest (R376); before the
latency has passed once, the initial settings. -/
def genAt (s : State) (c j : Nat) : Nat :=
  let lat := cfgN s Fld.camera_latency c
  let l := (camOf s c).commands
  (((l.filter fun k => k.commit.any fun n => n + lat ≤ j).getLast?).map fun k => k.gen).getD 0

/-! ### Frame triggers and strobes (R369 to R372, R375, R463) -/

/-- The files by which a traversing axis has moved the camera at a date (R368, R463). -/
def traverseShift (s : State) (c date : Nat) : Rat :=
  let a := cfgN s Fld.camera_traverse_axis c
  if 12 ≤ a then 0
  else ((roundRat (axisPosAt s a date * (cfgN s Fld.motion_nm_per_microstep a * 1200 * 256 : Nat) / 25400000) : Int) : Rat) / 256

/-- The commands written at least 2 µs ago are committed at trigger j, their writes following the trigger (R375). -/
def commitCommands (c j : Nat) (s : State) : State :=
  let due (k : CamCommand) : Bool := k.commit.isNone && k.writtenAt + usT 2 ≤ s.now
  let l := (camOf s c).commands.filter due
  let mute := cfgN s Fld.camera_exposure_address c = 0 && cfgN s Fld.camera_gain_address c = 0
  let s1 := forEach l (writeSettings c) s
  match l.getLast? with
  | none => s1
  | some k => modCam c (fun x => { x with
      generation := k.gen, exposure := k.exposure, gain := k.gain
      commands := x.commands.map fun q => if due q then { q with commit := some j, acked := mute } else q }) s1

/-- The camera's strobe output pulses (R371). -/
def hasStrobe (s : State) (c : Nat) : Bool := decide (cfgN s Fld.camera_strobe_output c < 8)

/-- A trigger point has been passed: its strobe, where that is still to come, goes with it (R372). -/
def noteStrobe (c : Nat) (skipped : Bool) (s : State) : State :=
  if hasStrobe s c && (camOf s c).led.isEmpty then modCam c (fun x => { x with strobes := x.strobes ++ [skipped] }) s
  else modCam c (fun x => { x with led := x.led.drop 1 }) s

/-- The trigger at a point is skipped: the previous frame has not ended, or the strobe that leads it has been skipped (R372). -/
def triggerSkipped (x : Cam) : Bool := x.frame.isSome || x.led.headD false

/-- The trigger itself: a packet on the uplink, whose delay value is the wait since the compare point, or a pulse of 1 µs
(R370). -/
def sendTrigger (c : Nat) (s : State) : State :=
  if cfgN s Fld.camera_trigger_mode c = 1 then pulseOut (cfgN s Fld.camera_trigger_output c) 1000 s
  else drawFree (emit (.camTrigger c (Config.freeUplinkWait s.freeN)) s)

/-- The strobe of a frame that sees the dark half of a blank block stays off (R404). -/
def strobeDark (s : State) (c : Nat) (line : Rat) : Bool :=
  let l := line - strobeLines s c - camOffset s c
  let n := cfgN s Fld.calibration_flat_lines 0
  s.cal.marks.any fun m => m.block.kind = 5 && ((m.point + n : Int) : Rat) ≤ l && l < ((m.point + 2 * n : Int) : Rat)

/-- A strobe goes with its frame trigger: none where that one has been skipped. One that comes first is skipped while the
previous frame has not ended, and its trigger with it (R371, R372; DEDUCED, log entry 85). -/
def strobeSkipped (x : Cam) : Bool := x.strobes.headD (x.state ≠ .ready || x.frame.isSome)

/-- A strobe at `line` on its output, for a number of ns. -/
def strobePulse (c out width : Nat) (line : Rat) (s : State) : State :=
  let x := camOf s c
  let skip := strobeSkipped x
  let s1 := modCam c (fun x => if x.strobes.isEmpty then { x with led := x.led ++ [skip] } else { x with strobes := x.strobes.drop 1 }) s
  if skip || strobeDark s c line then s1 else pulseOut out width s1

/-! ### Packets (R364, R381, R384) -/

/-- The units of a receive buffer of 256 KiB that one sample takes, and all of them: 1/32 of a sample (R384). -/
def bufferUnits (bits : Nat) : Nat := 262144 * 8 / max 1 bits * 32

/-- A line of `n` samples comes into the receive buffer; whether it fits, and the buffer after it. -/
def bufferLine (bits n : Nat) (x : Cam) : Bool × Cam :=
  if bufferUnits bits < x.fill + 32 * n then (false, x)
  else
    let f := x.fill + 32 * n
    (true, { x with fill := f, bufferPeak := max x.bufferPeak (min 65535 (ceilDiv (f * bits) (32 * 8 * 64))) })

/-- The lines of a frame with `v` as number i; lines missed on the way hold nothing. -/
def setFrameLine (i : Nat) (v : Option (List Nat)) (l : List (Option (List Nat))) : List (Option (List Nat)) :=
  (l ++ List.replicate (i + 1 - l.length) none).set i v

/-- Line i of the frame arrives; one that does not fit in the buffer is discarded (R233, R384). -/
def takeLine (bits i : Nat) (v : List Nat) (x : Cam) : Cam :=
  let r := bufferLine bits v.length x
  { r.2 with frame := r.2.frame.map fun f =>
      { f with lines := setFrameLine i (if r.1 then some v else none) f.lines, crc := f.crc || !r.1
               excluded := if r.1 then f.excluded else i :: f.excluded } }

/-- The buffer after what its port has processed since (R384): 2 samples in 1 ns. -/
def drainBuffer (now : Nat) (x : Cam) : Cam := { x with fill := x.fill - (now - x.fillAt), fillAt := now }

/-- CAMERA_PACKET (R364, R381): a control packet, an image header, or lines, on connection `conn`. -/
def execCameraPacket (t port conn : Nat) (p : CamPacket) (s : State) : Host.Outcome State Fault Refusal :=
  let s1 := beginAt t s
  let st := (camOf s1 port).state
  match p with
  | .control ok =>
    .next (if ok || st = .disabled then s1
      else modCam port (fun x => { x with conns := x.conns.modify conn fun k => { k with controlCrc := wrapInc 16 k.controlCrc } }) s1)
  | .header w bits tag =>
    .next (if st ≠ .ready then s1
      else modCam port (fun x => { x with frame := x.frame.map fun f =>
        if f.header.isNone then { f with header := some (w, bits, tag % 65536) } else f }) s1)
  | .lines ok first samples =>
    .next (if st ≠ .ready then s1
      else if ok then
        modCam port (fun x =>
          if (x.frame.bind fun f => f.header).isNone then x
          else samples.zipIdx.foldl (fun x q => takeLine (cfgN s1 Fld.camera_pixel_bits port) (first + q.2) q.1 x)
            (drainBuffer s1.now x)) s1
      else
        modCam port (fun x => { x with
          conns := x.conns.modify conn fun k => { k with streamCrc := wrapInc 16 k.streamCrc }
          frame := x.frame.map fun f =>
            if f.header.isNone then f
            else { f with crc := true, excluded := (List.range samples.length).map (first + ·) ++ f.excluded
                          lines := samples.zipIdx.foldl (fun l q => setFrameLine (first + q.2) none l) f.lines } }) s1)

/-! ### The end of a frame (R378, R382, R389 to R391) -/

/-- The lines of a frame that came, those excluded among them (R364, R382). -/
def linesReceived (fr : CamFrame) : Nat :=
  (fr.lines.filter Option.isSome).length +
    (fr.excluded.eraseDups.filter fun i => (fr.lines.getD i none).isNone).length

/-- The marks of a frame but GENERATION_UNSURE (*Table: Frame marks*). -/
def frameMarks (s : State) (c : Nat) (fr : CamFrame) : Nat :=
  let n := linesReceived fr
  let h := cfgN s Fld.camera_height c
  (if n < h then 1 else 0) + (if h < fr.lines.length then 2 else 0) + (if fr.crc then 4 else 0) +
    (if fr.header.any fun q => q.1 ≠ cfgN s Fld.camera_width c || q.2.1 ≠ cfgN s Fld.camera_pixel_bits c then 16 else 0) +
    (if n = 0 then 32 else 0)

/-- The tag that R378 expects of the frame, when there is one to compare with. -/
def expectedTag (x : Cam) (fr : CamFrame) : Option Nat := x.tag.map fun k => (k + 1 + fr.skippedBefore) % 65536

/-- Every frame is unsure after a write that failed, until its rewrite has been acknowledged and camera.latency frames
have followed it (R377). -/
def writeUnsure (x : Cam) (fr : CamFrame) : Bool :=
  match x.unsureFrom with
  | none => false
  | some (_, none) => true
  | some (_, some (first, left)) => decide (fr.trigger < first) || left ≠ 0

/-- A frame has ended: one less is to follow the rewrite (R377). -/
def countFollowed (fr : CamFrame) (x : Cam) : Cam :=
  match x.unsureFrom with
  | some (g, some (first, left)) =>
    if fr.trigger < first then x
    else { x with unsureFrom := if left = 0 then none else some (g, some (first, left - 1)) }
  | _ => x

/-- The module takes a frame's tag as its new basis, and reports one that is not the expected one (R378). -/
def takeTag (c : Nat) (fr : CamFrame) (s : State) : State :=
  match fr.header with
  | none => s
  | some (_, _, tag) =>
    let want := expectedTag (camOf s c) fr
    let s1 := modCam c (fun x => { x with tag := some tag, skipped := x.skipped - fr.skippedBefore }) s
    match want with
    | some w =>
      if w = tag then s1
      else raiseLimited 0x0916 c (secT 1) (fun _ => leBytes 1 c ++ leBytes 2 w ++ leBytes 2 tag) s1
    | none => s1

/-- The record and the statistics of the frame that ends on camera c (R376, R389). -/
def frameRecord (s : State) (c : Nat) (fr : CamFrame) (raw o : Optics) : FrameRecord :=
  let x := camOf s c
  let tagBad := match fr.header, expectedTag x fr with
    | some (_, _, t), some w => t ≠ w
    | _, _ => false
  let m := frameMarks s c fr + if tagBad || writeUnsure x fr then 8 else 0
  let v : Located := { cam := c, line := fr.line, shift := fr.shift, o := o, strict := m ≠ 0 }
  { camera := c, marks := m, generation := genAt s c fr.trigger, trigger := fr.trigger, line := fr.line
    lineSeq := fr.lineSeq, time := fr.time, lines := min 65535 (linesReceived fr)
    tag := (fr.header.map fun q => q.2.2).getD 0
    stats := if m &&& 48 = 0 then s.cal.marks.flatMap (markStats s v raw) ++ inspectionStats s v else [] }

/-- An unsolicited result of this module's own camera: a module that follows has no token to wait for. -/
def captureResult (body : List Byte) (s : State) : State :=
  if follows s then
    let k := s.net.nextTicket
    let s1 := addPending k 0x00FF { s with net := { s.net with nextTicket := 0x80000000 + (k + 1) % 0x80000000 } }
    settleResult k { s1 with net := { s1.net with results := s1.net.results.map fun r =>
      if r.ticket = k then { r with body := some body, time := some (timeNow s) } else r } }
  else unsolicited body s

/-- The raw tap of a frame, where it is due and the inspection area has room for it (R382, R390, R391). -/
def takeRawTap (c : Nat) (r : FrameRecord) (raw o : Optics) (s : State) : State :=
  let p := cfgN s Fld.camera_raw_tap_point c
  let due := p ≠ 0 && (camOf s c).frames % max 1 (cfgN s Fld.camera_raw_tap_interval c) = 0
  if !due || r.marks &&& 32 ≠ 0 || (r.marks &&& 16 ≠ 0 && p ≠ 1) then s
  else
    let body := tapBody s c r raw o
    if inspectArea s < inspectUsed s + body.length then
      modCam c (fun x => { x with tapsSkipped := wrapInc 16 x.tapsSkipped }) s
    else
      let k := s.net.nextTicket
      raise 0x0917 (leBytes 1 c ++ leBytes 4 k) (captureResult body (drawFree s))

/-- The record and its statistics go to the partner: 126 statistics in a frame, the last frame holding fewer (R380, R504). -/
def sendRecord (r : FrameRecord) (s : State) : State :=
  if !(s.pair.linkUp && (s.pair.state = .active || follows s)) then s
  else
    forEach (List.range (r.stats.length / 126 + 1)) (fun i =>
      sendPartner 8 (recordBytes (stampNative r.time) r ++ ((r.stats.drop (126 * i)).take 126).flatMap statBytes)) s

/-! ### What a frame record leads to (R404, R405, R414) -/

/-- The last line of the print that a frame shows. -/
def lastLineSeen (s : State) (r : FrameRecord) : Rat :=
  rowLine s r.camera r.line 0 + (r.lines : Rat) * camLinePerRow s r.camera

/-- The blank strip that camera c's frames are seeing, with what this one adds: the frames of one generation make up its halves
(R379, R404). -/
def blankWith (r : FrameRecord) (old : Option BlankSeen) : Option BlankSeen :=
  match (r.stats.filter fun x => x.kind = 5).getLast? with
  | none => old
  | some x =>
    let l := r.stats.filter fun y => y.kind = 5 && y.slot = x.slot
    match old.filter fun b => b.slot = x.slot && b.gen = r.generation with
    | some b => some { b with marks := b.marks ||| r.marks, stats := b.stats ++ l }
    | none => some { slot := x.slot, gen := r.generation, marks := r.marks, stats := l }

/-- The blank strip has been seen to its end. -/
def blankOver (s : State) (r : FrameRecord) (b : BlankSeen) : Bool :=
  s.cal.marks.any fun m => m.block.kind = 5 && m.slot = b.slot &&
    ((m.point + (2 * cfgN s Fld.calibration_flat_lines 0 : Nat) : Int) : Rat) ≤ lastLineSeen s r

/-- What a frame adds to the blank strip that its camera sees; a strip seen to its end is measured once, by a record that
carries the generation and the marks of its frames (R379, R383, R404). -/
def takeBlank (r : FrameRecord) (s : State) : State :=
  let b := if r.marks &&& 56 = 0 then blankWith r (camOf s r.camera).blank else (camOf s r.camera).blank
  let over_ := b.filter (blankOver s r)
  let s1 := modCam r.camera (fun x => { x with blank := if over_.isSome then none else b }) s
  match over_ with
  | none => s1
  | some x => measureFrame { r with marks := x.marks, generation := x.gen, stats := x.stats } s1

/-- The exposure command that a white level outside its band calls for, once per strip (R414). -/
def exposeFrame (r : FrameRecord) (s : State) : State :=
  let plane := barPlane s r.camera ((runBars s).headD 0)
  match r.stats.find? fun x => x.kind = 6 && x.unit = plane with
  | none => s
  | some x =>
    match statMean [x] with
    | none => s
    | some w =>
      let target := cfgN s Fld.calibration_white_target 0
      let out := (target * cfgN s Fld.calibration_white_band 0 : Nat) < absRat (w - (target : Nat)) * 100
      if r.marks ≠ 0 || !out || (camOf s r.camera).exposedSlot = some x.slot then s
      else
        let e := if w = 0 then 10000000
          else (clampInt 1000 10000000 (roundRat ((cfgN s Fld.camera_exposure r.camera * target : Nat) / w))).toNat
        startCommand r.camera (camOf s r.camera).nextGen e (cfgN s Fld.camera_gain r.camera)
          (modCam r.camera (fun c => { c with exposedSlot := some x.slot }) s)

/-- The cameras that inspect: enabled, and READY here or hosted by the partner (R165, R380). -/
def inspectingMask (s : State) : Nat :=
  bitsOf ((enabledCams s).filter fun c => (camOf s c).state = .ready || (s.pair.linkUp && (camOf s c).atPartner))

/-- A page's window, of calibration.tap_window files by 64 lines: its reference bytes, but those of bursts that could not be read
(R250, R405). -/
def windowBytes (tw : Nat) (p : Page) (w j : Nat) : List Nat :=
  let f := max 1 p.refFactor
  let nb := max 1 (bitList 8 p.barMask).length
  let x0 := max p.fileStart (w * tw) - p.fileStart
  let x1 := min (p.fileStart + p.fileCount) (w * tw + tw) - p.fileStart
  let bad (row col : Nat) : Bool := p.refBad.any fun q => q.1 = row && q.2 ≤ col && col < q.2 + 64 / nb
  let cols := (List.range (ceilDiv x1 f)).filter fun col => x0 / f ≤ col
  let rows := (List.range (ceilDiv (64 * j + 64) f)).filter fun row => 64 * j / f ≤ row
  rows.flatMap fun row => (cols.filter fun col => !bad row col).flatMap fun col =>
    (((p.reference.getD row []).drop (col * nb)).take nb).map BitVec.toNat

/-- The windows of slot n that a frame has compared: of each, the absolute difference (R405). -/
def windowDifferences (s : State) (r : FrameRecord) (n : Nat) : List Nat :=
  match (slotOf s n).bind fun x => pageOf s x.page with
  | none => []
  | some p =>
    let l := r.stats.filter fun x => x.kind = 7 && x.slot = n && x.count ≠ 0
    let tw := max 1 (cfgN s Fld.calibration_tap_window 0)
    (l.map fun x => (x.num, x.sub)).eraseDups.map fun q =>
      (Config.windowDifference (windowBytes tw p q.1 q.2)
        ((l.filter fun x => (x.num, x.sub) = q).map fun x => (roundRat ((x.sum : Rat) / x.count)).toNat)).toNat

/-- Slot n has been seen to its end: its largest difference and the count above defect_level are reported (R405). -/
def reportInspection (x : Inspected) (s : State) : State :=
  let k := s.net.nextTicket
  raise 0x0A19 (leBytes 4 x.slot ++ leBytes 4 k)
    (unsolicited (leBytes 4 x.slot ++ leBytes 1 x.largest ++ leBytes 3 0 ++ leBytes 4 x.over_) s)

/-- A slot has been seen to its end by every camera: under FULL it is reported, and when it was the last slot of its page
the page's reference is dropped (R165, R405). -/
def slotSeen (n : Inspected) (s : State) : State :=
  match s.jobs.armed, slotOf s n.slot with
  | some a, some x =>
    let s1 := if a.run.inspection = 2 && drives s then reportInspection n s else s
    let more := a.queue.contains x.page || (a.run.form = 2 && a.cyclesLeft ≠ some 0 && (liveSlots a).contains x.page) ||
      a.slots.any fun y => y.page = x.page && !s.cal.inspected.any fun p => p.slot = y.num && p.done
    if more then s1 else dropReference x.page s1
  | _, _ => s

/-- What a frame adds to a slot under inspection: its camera when it has seen the slot's end, and the windows that it compared. -/
def inspectSlot (s : State) (r : FrameRecord) (x : Slot) (l : List Inspected) : List Inspected :=
  let d := windowDifferences s r x.num
  let seen : Bool := ((x.start + x.length : Int) : Rat) ≤ lastLineSeen s r
  if d.isEmpty && !seen then l
  else
    let old := (l.find? fun p => p.slot = x.num).getD { slot := x.num, cams := 0, done := false, largest := 0, over_ := 0 }
    let new := { old with
      cams := if seen then old.cams ||| 2 ^ r.camera else old.cams
      largest := d.foldl max old.largest
      over_ := old.over_ + (d.filter fun v => cfgN s Fld.calibration_defect_level 0 < v).length }
    if l.any fun p => p.slot = x.num then l.map fun p => if p.slot = x.num then new else p else l ++ [new]

/-- A camera's frame under MARKS or FULL: slots that every camera has seen to their end are done with (R165, R405). -/
def inspectFrame (r : FrameRecord) (s : State) : State :=
  match s.jobs.armed with
  | none => s
  | some a =>
    if a.run.inspection = 0 || r.marks &&& 48 ≠ 0 then s
    else
      let l := a.slots.foldl (fun l x => inspectSlot s r x l) s.cal.inspected
      let all := inspectingMask s
      let now (p : Inspected) : Bool := p.cams &&& all = all && p.cams ≠ 0 && !p.done
      forEach (l.filter now) slotSeen
        { s with cal := { s.cal with inspected := l.map fun p => if now p then { p with done := true } else p } }

/-- The partner's record of its camera: a camera that has become READY again counts its triggers and its generations from
0; otherwise the next generation number lies beyond the one in the record (R374, R380). -/
def noteRecord (r : FrameRecord) (s : State) : State :=
  let x := camOf s r.camera
  let anew := (x.record.map fun q => decide (r.trigger < q.trigger)).getD true
  let behind := (x.nextGen + 65535 - r.generation) % 65536 < 32768
  modCam r.camera (fun c => { c with record := some r, atPartner := true, nextGen := if behind && !anew then c.nextGen else (r.generation + 1) % 65536 }) s

/-- What a module makes of a frame record, of its own camera or its partner's: the one that decides measures it, and each
keeps account of the slots seen (R165, R380, R410). -/
def useRecord (r : FrameRecord) (s : State) : State :=
  if !inRun s then s
  else if !drives s then inspectFrame r s
  else
    inspectFrame r (exposeFrame r (takeBlank r (measureFrame { r with stats := r.stats.filter fun x => x.kind ≠ 5 } s)))

/-- A frame of camera c that has ended is marked, reduced to statistics, captured and passed on (R381 to R391). -/
def finishFrame (c : Nat) (fr : CamFrame) (s : State) : State :=
  let raw := stage1 s c fr
  let o := stage2 fr.flat raw
  let r := frameRecord s c fr raw o
  let s1 := modCam c (fun x => countFollowed fr { x with
    ended := none, record := some r, atPartner := false
    framesMarked := if r.marks ≠ 0 then wrapInc 16 x.framesMarked else x.framesMarked
    unsure := if r.marks &&& 8 ≠ 0 then wrapInc 16 x.unsure else x.unsure }) (takeTag c fr s)
  useRecord r (sendRecord r (takeRawTap c r raw o s1))

/-- The frame of camera c that has ended is finished. -/
def finishEnded (c : Nat) (s : State) : State :=
  match (camOf s c).ended with
  | none => s
  | some fr => finishFrame c fr s

/-- The frame in progress on camera c ends. It waits while a write of a command that it or an earlier trigger committed
may still fail, since such a failure marks it (R377, R381). -/
def endFrame (c : Nat) (s : State) : State :=
  match (camOf s c).frame with
  | none => s
  | some fr =>
    let s1 := modCam c (fun x => { x with frame := none, ended := some fr, frames := wrapInc 32 x.frames }) s
    if (unanswered (camOf s c)).isEmpty then finishEnded c s1 else s1

/-- A frame trigger of camera c at `line`, with its settings committed, or skipped while the previous frame has not ended
(R370, R372, R375 to R377). -/
def frameTrigger (c : Nat) (line : Rat) (s : State) : State :=
  let x := camOf s c
  if x.state ≠ .ready then noteStrobe c true s
  else
    let j := x.triggers
    let s1 := finishEnded c (forEach (unanswered x) (writeFailed c) (modCam c (fun x => { x with triggers := wrapInc 32 x.triggers }) s))
    if triggerSkipped x then
      raiseLimited 0x0914 c (secT 1) (fun n => leBytes 1 c ++ leBytes 4 n)
        (modCam c (fun x => { x with triggersSkipped := wrapInc 16 x.triggersSkipped, skipped := x.skipped + 1 })
          (noteStrobe c true s1))
    else
      let fr : CamFrame :=
        { trigger := j, line := line
          lineSeq := ofSigned 32 (line.floor - (inputOf s (cfgN s Fld.camera_source c)).nArm)
          time := timeNow s, trigAt := s.now, shift := traverseShift s c s.now, flat := x.flat, header := none, lines := []
          excluded := [], crc := false, skippedBefore := (camOf s1 c).skipped }
      commitCommands c j (sendTrigger c (noteStrobe c false (modCam c (fun x => { x with frame := some fr }) s1)))

/-- CAMERA_WRITE_ACK (R377): the writes of a command have been acknowledged or have failed. -/
def execCameraWriteAck (t port gen : Nat) (ok : Bool) (s : State) : Host.Outcome State Fault Refusal :=
  let s1 := beginAt t s
  match (unanswered (camOf s1 port)).find? fun k => k.gen = gen with
  | none => .next s1
  | some k =>
    let s2 := if ok then
        modCam port (fun y => { y with
          commands := y.commands.map fun q => if q.gen = gen then { q with acked := true } else q
          unsureFrom := match y.unsureFrom with
            | some (g, none) => if g = gen then some (g, some (y.triggers, cfgN s1 Fld.camera_latency port)) else some (g, none)
            | u => u }) s1
      else writeFailed port k s1
    .next (if (unanswered (camOf s2 port)).isEmpty then finishEnded port s2 else s2)

/-- CAMERA_FRAME_END (R381): end of image, the next image header, or frame_timeout after the trigger. -/
def execCameraFrameEnd (t port : Nat) (why : FrameEnd) (s : State) : Host.Outcome State Fault Refusal :=
  let s1 := beginAt t s
  match (camOf s1 port).frame with
  | none => .next s1
  | some fr =>
    let may := match why with
      | .timeout => decide (fr.trigAt + usT (cfgN s1 Fld.camera_frame_timeout port) ≤ s1.now)
      | _ => fr.header.isSome
    .next (if may then endFrame port s1 else s1)

/-- CAMERA_DOWN (R365): a connection has lost lock, or a control transaction has had no answer. -/
def execCameraDown (t port conn cause : Nat) (s : State) : Host.Outcome State Fault Refusal :=
  let s1 := beginAt t s
  let x := camOf s1 port
  if x.state ≠ .ready || x.connections ≤ conn then .next s1
  else
    let s2 := raise 0x0911 (leBytes 1 port ++ leBytes 1 cause) (finishEnded port (endFrame port s1))
    .next (modCam port (fun x => { x with
      state := .discovery
      conns := x.conns.zipIdx.map fun p =>
        { p.1 with locked := false, lockLosses := if cause = 0 && p.2 = conn then wrapInc 16 p.1.lockLosses else p.1.lockLosses } })
      s2)

end Sys2Proof.Machine
end

