-- ==== Sys2Proof/Machine/Motion.lean ====
section
/-! DEFINITION. MOVE_REQUEST (15_motion.md, R445 to R451, R458, R460, R461, R466 to R468): the twelve actions. -/
namespace Sys2Proof.Machine
open Sys2Proof

/-! ### What requests share -/

/-- *Table: Reject reasons of motion*. -/
def reasonAxisDisabled : Nat := 0x0C01
def reasonAxisFault : Nat := 0x0C02
def reasonAtLimit : Nat := 0x0C03
def reasonAxisBusy : Nat := 0x0C04

/-- A limit input in a direction is active (R452). -/
def limitActive (s : State) (a : Nat) (dir : Rat) : Bool :=
  if 0 < dir then dinActive s (cfgN s Fld.motion_limit_pos a)
  else if dir < 0 then dinActive s (cfgN s Fld.motion_limit_neg a) else false

/-- The axis shifts so that the latched point reads home_position, and settles (R458, R459). -/
def applyLatch (a : Nat) (s : State) : State :=
  let x := axisOf s a
  match x.latchDue, x.home with
  | some l, some (_, travel, _) =>
    let d : Rat := (cfgI s Fld.motion_home_position a : Int) - l
    modAxis a (fun y => { y with
      p := fix32 (y.p + d), refPos := y.refPos + d, target := y.target + d, latchDue := none
      home := some (.settle, travel, l) }) s
  | _, _ => modAxis a (fun y => { y with latchDue := none }) s

/-- A request that ends as soon as it is applied (R468). -/
def doneAtOnce (a ticket outcome flags : Nat) (s : State) : State :=
  finishResult ticket (plainBody s a outcome flags) (addPending ticket 0x2D s)

/-- A move latches the shadow as it starts (R448). -/
def latchShadow (a : Nat) (s : State) : State := modAxis a (fun x => { x with latched := x.shadow }) s

/-- The cause of an earlier emergency stop is reported until a request moves the axis again. -/
def clearStop (a : Nat) (s : State) : State := modAxis a (fun x => { x with stopCause := 0 }) s

/-- The ticket, the axis and the value of a MOVE_REQUEST (R466). -/
def moveTicket (p : List Byte) : Nat := fld p 0 4
def moveAxis (p : List Byte) : Nat := fld p 4 1
def moveValue (p : List Byte) : Int := sfld p 12 8

/-- What comes before messages on axis a in a profile period: an emergency stop that is due, then a homing latch (R453). -/
def causesFirst (a : Nat) (s : State) : State :=
  let s1 := stopFirst a s
  if (axisOf s1 a).latchDue.isSome then applyLatch a s1 else s1

/-- The checks that every action shares: the layout and motion.enable, and what comes before messages (R453, R466, R467).
`f` is given the axis and the ticket. -/
def moveCommon (p : List Byte) (s : State) (f : Nat → Nat → State → Verdict) : Verdict :=
  if p.length < 52 then .error (reasonMalformed, 0)
  else if 12 ≤ moveAxis p || cfgN s Fld.motion_enable (moveAxis p) = 0 then .error (reasonAxisDisabled, 0)
  else f (moveAxis p) (moveTicket p) (causesFirst (moveAxis p) s)

/-- An action that the axis state does not accept (R467). -/
def notAccepted (s : State) (a : Nat) : Verdict :=
  .error (if (axisOf s a).state = .fault then reasonAxisFault else reasonAxisBusy, 0)

/-! ### Moves (R447 to R449) -/

/-- A move to a target, or a jog, applied in HOLD or MOVING: it starts, or replaces the target at once (R448, R449). -/
def startMove (a ticket : Nat) (target : Rat) (jog : Option Rat) (s : State) : Verdict :=
  let x := axisOf s a
  let dir := match jog with
    | some v => signRat v
    | none => signRat (target - x.p)
  if x.state ≠ .hold && x.state ≠ .moving then notAccepted s a
  else if limitActive s a dir then .error (reasonAtLimit, 0)
  else
    let s1 := if x.state = .moving then beginReq a ticket (some x.p) (endReq a moveSuperseded s)
      else latchShadow a (beginReq a ticket none s)
    .ok (clearStop a (modAxis a (fun y => { y with state := .moving, target := target, jog := jog, holdCurrent := false }) s1))

def msgMoveAbs (p : List Byte) (s : State) : Verdict :=
  moveCommon p s fun a k s => startMove a k (moveValue p : Int) none s

/-- The distance counts from the position at application. -/
def msgMoveRel (p : List Byte) (s : State) : Verdict :=
  moveCommon p s fun a k s => startMove a k ((axisOf s a).p + (moveValue p : Int)) none s

def msgJog (p : List Byte) (s : State) : Verdict :=
  moveCommon p s fun a k s => startMove a k 0 (some (moveValue p : Int)) s

/-! ### STOP and ESTOP (R447, R451) -/

/-- The position at which the present profile comes to rest (R447). -/
def restPosition (x : Axis) : Rat :=
  x.p + signRat x.v * stopDist (absRat x.v) (signRat x.v * x.a) x.latched.decel (jerkOf x.latched)

def msgStop (p : List Byte) (s : State) : Verdict :=
  moveCommon p s fun a k s =>
    let x := axisOf s a
    if x.state = .moving || x.state = .homing || x.state = .geared then
      let s1 := beginReq a k none (endChange a moveStopped (endReq a moveStopped s))
      .ok (modAxis a (fun y => { y with
        state := .stopping, target := restPosition y, jog := none, home := none, gear := none, latchDue := none
        stopCause := 0 }) s1)
    else .ok (doneAtOnce a k moveDone 0 s)

/-- A following module takes the stop itself from the active's token (R451, R464). -/
def msgEstop (p : List Byte) (s : State) : Verdict :=
  moveCommon p s fun a k s =>
    let x := axisOf s a
    if x.state = .off || x.state = .fault then .ok (doneAtOnce a k moveDone 0 s)
    else if follows s && !(x.state = .stopping && x.stopCause = 1 && x.req.isNone) then
      .ok (modAxis a (fun y => { y with estopReq := some k }) (addPending k 0x2D s))
    else .ok (beginReq a k none (ownEstop a 1 s))

/-! ### HOME, GEAR, GEAR_CHANGE (R458, R460, R461) -/

def msgHome (p : List Byte) (s : State) : Verdict :=
  moveCommon p s fun a k s =>
    if (axisOf s a).state ≠ .hold || 24 ≤ cfgN s Fld.motion_home_input a then notAccepted s a
    else
      let phase : HomePhase := if dinActive s (cfgN s Fld.motion_home_input a) then .backoff else .seek
      .ok (clearStop a (modAxis a (fun y => { y with state := .homing, home := some (phase, 0, 0), holdCurrent := false })
        (latchShadow a (beginReq a k none s))))

/-- A ratio with 32 fraction bits. -/
def ratioOf (r : Int) : Rat := (r : Rat) / 4294967296

def msgGear (p : List Byte) (s : State) : Verdict :=
  moveCommon p s fun a k s =>
    let i := fld p 32 1
    let r := moveValue p
    if (axisOf s a).state ≠ .hold || 16 ≤ i then notAccepted s a
    else if limitActive s a (signRat (ratioOf r)) then .error (reasonAtLimit, 0)
    else
      .ok (clearStop a (modAxis a (fun y => { y with
        state := .geared, gear := some (i, y.p, linePosValue s i s.now, r), target := y.p, lag := 0, lagRaised := false
        holdCurrent := false }) (latchShadow a (beginReq a k none s))))

/-- A ramp in progress that is given up: gearing goes on at the ratio it has reached. -/
def freezeRamp (a : Nat) (s : State) : State :=
  let x := axisOf s a
  match x.gear, x.change with
  | some (i, off, anchor, r0), some c =>
    let d := posDiff (linePosValue s i s.now) anchor
    if c.started && c.ramp ≠ 0 then
      let r := r0 + roundRat ((c.ratio - r0 : Int) * d / c.ramp)
      let o := off + ratioOf r0 * d + ratioOf (c.ratio - r0) * d * d / (2 * c.ramp)
      modAxis a (fun y => { y with gear := some (i, o, anchor + d, r) }) s
    else s
  | _, _ => s

def msgGearChange (p : List Byte) (s : State) : Verdict :=
  moveCommon p s fun a k s =>
    match (axisOf s a).gear with
    | none => notAccepted s a
    | some (i, _, _, _) =>
      if (axisOf s a).state ≠ .geared then notAccepted s a
      else if limitActive s a (signRat (ratioOf (moveValue p))) then .error (reasonAtLimit, 0)
      else
        let c := sfld p 20 8
        let late := decide (posDiff c (linePosValue s i s.now) ≤ 0)
        let g : GearChange := { ticket := k, at_ := c, ramp := fld p 28 4, ratio := moveValue p, started := false, late := late }
        let s1 := addPending k 0x2D (endChange a moveSuperseded (freezeRamp a s))
        let s2 := modAxis a (fun y => { y with change := some g }) s1
        .ok (if late then s2
          else addAux { source := i, point := c * 4294967296, spacing := 0, count := 1, action := .gearChange a } s2)

/-! ### Parameters and states (R445, R448, R467) -/

/-- The parameters of SET_PARAMS, in the ranges of the configuration (R466, R469). -/
def readParams (p : List Byte) : Params :=
  let lim (hi v : Nat) : Nat := max 1 (min hi v)
  let j := min 4000000000 (fld p 48 4)
  { vMax := lim 4000000 (fld p 36 4), accel := lim 400000000 (fld p 40 4), decel := lim 400000000 (fld p 44 4)
    jerk := if j < 1000 then 0 else j, jerkLimited := (fld p 9 1).testBit 0 && 1000 ≤ j }

def msgSetParams (p : List Byte) (s : State) : Verdict :=
  moveCommon p s fun a k s =>
    let s1 := modAxis a (fun y => { y with shadow := readParams p }) s
    match (axisOf s a).req with
    | none => .ok (doneAtOnce a k moveApplied 0 s1)
    | some r =>
      .ok (doneAtOnce a k moveApplied 1 (raise 0x0C11 (leBytes 1 a ++ leBytes 4 r.ticket)
        (modAxis a (fun y => { y with req := y.req.map fun q => { q with deferred := true } }) s1)))

def msgEnable (p : List Byte) (s : State) : Verdict :=
  moveCommon p s fun a k s =>
    if (axisOf s a).state ≠ .off then notAccepted s a
    else
      let count := ((axisEncoder s a).map fun i => (inputOf s i).count).getD 0
      .ok (doneAtOnce a k moveApplied 0 (clearStop a (modAxis a (fun y => { y with
        countRef := count, refPos := y.p, referenced := true, deviation := 0, stallSince := none, vbusBad := 0 }) (enterHold a s))))

def msgDisable (p : List Byte) (s : State) : Verdict :=
  moveCommon p s fun a k s =>
    if (axisOf s a).state ≠ .off && (axisOf s a).state ≠ .hold then notAccepted s a
    else .ok (doneAtOnce a k moveApplied 0 (axisOff a s))

def msgClearFault (p : List Byte) (s : State) : Verdict :=
  moveCommon p s fun a k s =>
    if (axisOf s a).state ≠ .fault then notAccepted s a
    else .ok (doneAtOnce a k moveApplied 0 (modAxis a (fun y => { y with faultCause := 0 }) (axisOff a s)))

/-- MOVE_REQUEST, by its action; an action that no axis state accepts is refused (R466, R467). -/
def msgMove (_i : Nat) (p : List Byte) (s : State) : Verdict :=
  match fld p 8 1 with
  | 0 => msgMoveAbs p s
  | 1 => msgMoveRel p s
  | 2 => msgJog p s
  | 3 => msgStop p s
  | 4 => msgEstop p s
  | 5 => msgHome p s
  | 6 => msgGear p s
  | 7 => msgGearChange p s
  | 8 => msgSetParams p s
  | 9 => msgEnable p s
  | 10 => msgDisable p s
  | 11 => msgClearFault p s
  | _ => moveCommon p s fun a _ s => notAccepted s a

/-! ### The commands -/

end Sys2Proof.Machine
end

