-- ==== Sys2Proof/Machine/Coast.lean ====
section
/-! DEFINITION. Line triggers as they are issued, and faults on a web master input (09_web_position.md, R269 to R272, R280,
R281). -/
namespace Sys2Proof.Machine
open Sys2Proof

/-- The trigger of the next compare point of input i goes to the bars of the run that it feeds (R280, R283). -/
def issueTrigger (i : Nat) (kind : TrigKind) (date : Nat) (s : State) : State :=
  let n := (inputOf s i).nextLine
  let s1 := forEach (fedBars s i) (fun b => modBar b fun y => { y with trigs := y.trigs ++ [{ n := n, t := date, kind := kind }] }) s
  modInput i (fun x => { x with
    nextLine := n + 1, triggers := wrapInc 32 x.triggers
    coastTriggers := if kind = .coast then wrapInc 16 x.coastTriggers else x.coastTriggers }) s1

/-- The bars fed by an input handle every trigger on its way, before they halt (R21, R271). -/
def drainTriggers (i : Nat) (s : State) : State :=
  forEach (fedBars s i) (fun b s =>
    forEach (barOf s b).trigs (fun x s => takePoint b x.n s) (modBar b (fun y => { y with trigs := [] }) s)) s

/-- The date at which a coast reckons the next compare point (*Table: Fault policies*, COAST). -/
def coastDate (s : State) (i : Nat) (c : Coast) : Nat :=
  let ahead : Rat := (pointDiff (comparePoint (inputOf s i) (inputOf s i).nextLine) (c.cL * 4294967296) : Rat) / 4294967296
  let v : Rat := (c.vNum : Rat) / (max 1 c.vDen : Nat)
  if v ≤ 0 then c.tL else ((c.tL : Rat) + ahead * 64000000000 / v).ceil.toNat

/-- The coast is over: the bars fed halt, and each slot on them is SPOILED with the reasons HALT and POSITION
(R119, R136, R270, R271). -/
def endCoast (i : Nat) (c : Coast) (s : State) : State :=
  let s1 := modInput i (fun x => { x with coast := none, stopped := true, scheduled := none }) s
  ownHalt (fedBars s1 i) 3 [spoilHalt, spoilPosition] (raise 0x0615 (leBytes 1 i ++ leBytes 4 c.issued ++ leBytes 1 c.bars) s1)

/-- A coast trigger is issued; the last one that coast_limit allows ends the coast. -/
def coastStep (i : Nat) (c : Coast) (s : State) : State :=
  let c1 := { c with issued := c.issued + 1 }
  let s1 := issueTrigger i .coast s.now (modInput i (fun x => { x with coast := some c1 }) s)
  if cfgN s Fld.position_coast_limit 0 ≤ c1.issued then endCoast i c1 (drainTriggers i s1) else s1

/-- The coast triggers whose reckoned time has come; `n` bounds them. -/
def coastDue : Nat → Nat → State → State
  | 0, _, s => s
  | n + 1, i, s =>
    match (inputOf s i).coast with
    | none => s
    | some c => if coastDate s i c ≤ s.now then coastDue n i (coastStep i c s) else s

/-- A fault of a web master input acts on the bars of the armed run that it feeds, under its policy (R269, R270, R272). -/
def applyFault (i : Nat) (s : State) : State :=
  let x := inputOf s i
  let bars := (fedBars s i).filter fun b => !halted s b
  if !inRun s || bars.isEmpty || follows s || x.coast.isSome || x.stopped then s
  else if cfgN s Fld.position_fault_policy i = 1 then
    ownHalt bars 3 [spoilHalt, spoilPosition] s
  else
    let v := max 0 (speedEstimate s i)
    let last := (x.latched.head?).getD (x.count, s.now)
    let c : Coast := { cL := last.1, tL := last.2, vNum := v.num, vDen := v.den, issued := 0, bars := bitsOf bars }
    let s1 := forEach bars (fun b s => barToken b 7 (barOf s b).sequence 3 s)
      (raise 0x0614 (leBytes 1 i ++ sgBytes 4 (clampInt (-2147483648) 2147483647 v.floor) ++ leBytes 1 (bitsOf bars)) s)
    let s2 := modInput i (fun x => { x with coast := some c, scheduled := none }) s1
    if v = 0 || cfgN s Fld.position_coast_limit 0 = 0 then endCoast i c s2 else coastDue 1025 i s2

/-- The web master inputs of the armed run. -/
def runInputs (s : State) : List Nat := (List.range 16).filter fun i => !(fedBars s i).isEmpty

/-- Faults in force at the entry into ARMED count as raised then (R269). -/
def faultsAtArm (s : State) : State :=
  forEach ((runInputs s).filter fun i => (inputOf s i).fault) applyFault s

end Sys2Proof.Machine
end

