-- ==== Sys2Proof/Machine/Position.lean ====
section
/-! DEFINITION. The commands of the position inputs (09_web_position.md, R252 to R281): quadrature edges, wire faults, index
events, SSI frames, extrapolated and coast triggers, and the end of a fault. -/
namespace Sys2Proof.Machine
open Sys2Proof

/-! ### Which inputs count -/

/-- The position unit runs: a configuration is in force and its domain is on. -/
def positionOn (s : State) : Bool :=
  s.conf.inForce && s.mod.state ≠ .off && s.mod.state ≠ .boot && s.mod.state ≠ .shutdown

/-- The input is in QUADRATURE mode (*Table: Position input modes*). -/
def isQuadrature (s : State) (i : Nat) : Bool := positionOn s && cfgN s Fld.position_mode i = 1

/-- The input is in one of the SSI modes. -/
def isSsiOn (s : State) (i : Nat) : Bool := positionOn s && isSsi s i

/-! ### Faults (R254, R266, R267) -/

/-- A cause of POSITION_FAULT: 0 illegal transitions, 1 wire, 2 index, 3 SSI frames. An input in POSITION_FAULT already only
restarts its clearing time. -/
def raiseFault (i cause : Nat) (s : State) : State :=
  let s1 := modInput i (fun x => { x with lastTrouble := s.now }) s
  if (inputOf s i).fault then s1
  else encoderFault i <| applyFault i (raise 0x0610 (leBytes 1 i ++ leBytes 1 cause) (modInput i (fun x => { x with fault := true }) s1))

/-- A position error; two within illegal_window raise POSITION_FAULT (R266). -/
def positionError (i cause : Nat) (s : State) : State :=
  let w := usT (cfgN s Fld.position_illegal_window 0)
  let l := s.now :: (inputOf s i).errors.filter fun t => s.now ≤ t + w
  let s1 := modInput i (fun x => { x with errors := l, lastTrouble := s.now }) s
  if 2 ≤ l.length then raiseFault i cause s1 else s1

/-! ### Triggers (R279 to R281) -/

/-- How far the next compare point lies beyond the high-water mark, in 2^-32 count (R259, R279). -/
def pointAhead (x : Input) : Int := pointDiff (comparePoint x x.nextLine) (x.hwm * 4294967296)

/-- The input issues normal triggers: it is a web master of the armed run, and they have not stopped for a coast (R269, R271,
R280). -/
def triggersOn (s : State) (i : Nat) : Bool :=
  let x := inputOf s i
  inRun s && !(fedBars s i).isEmpty && x.spacing ≠ 0 && x.coast.isNone && !x.stopped

/-- The points reached or passed are triggered; `n` bounds them. -/
def directTriggers (date : Nat) : Nat → Nat → State → State
  | 0, _, s => s
  | n + 1, i, s =>
    if pointAhead (inputOf s i) ≤ 0 then directTriggers date n i (issueTrigger i .direct date s) else s

/-- The next point is scheduled when it lies inside the count that the web has entered (R280). -/
def schedulePoint (i : Nat) (s : State) : State :=
  let x := inputOf s i
  let v := speedEstimate s i
  match x.latched with
  | (_, tL) :: _ =>
    if cfgN s Fld.position_extrapolate 0 = 1 && !x.reversed && 0 < v &&
        pointAhead x < extrapolationBound s i * 4294967296 then
      let at_ := ((tL : Rat) + (pointAhead x : Int) / 4294967296 / v * 64000000000).ceil.toNat
      modInput i (fun x => { x with scheduled := some at_ }) s
    else s
  | [] => s

/-- A change of hwm: the schedule is cancelled, points reached are triggered, the next one is scheduled (R280). -/
def hwmChanged (i date : Nat) (s : State) : State :=
  let s1 := modInput i (fun x => { x with scheduled := none }) s
  if triggersOn s1 i then
    let x := inputOf s1 i
    let n := if 0 < pointAhead x then 0 else ((-(pointAhead x)) / x.spacing).toNat + 1
    schedulePoint i (directTriggers date n i s1)
  else s1

/-! ### Counting (R259, R260, R273) -/

/-- The pairs kept: those of the last 20 ms or of speed_window, and the one before (R275, R287). -/
def trimLatched (w now : Nat) (l : List (Int × Nat)) : List (Int × Nat) :=
  let new := l.takeWhile fun p => now < p.2 + w
  new ++ (l.drop new.length).take 1

/-- The high-water mark follows the count (R273). -/
def followCount (hyst : Nat) (x : Input) : Input :=
  let d := countDiff x.count x.hwm
  if x.reversed then
    if (hyst : Int) ≤ d then { x with hwm := x.count, reversed := false } else x
  else if 0 < d then { x with hwm := x.count }
  else if d < 0 then { x with reversed := true }
  else x

/-- An input takes up the pair of a new count, and hwm as it follows (R260, R273, R287). -/
def latchPair (w hyst date : Nat) (x : Input) : Input :=
  let l := trimLatched w date ((x.count, date) :: x.latched)
  let y := followCount hyst x
  { y with latched := l, marks := ((y.hwm, y.reversed) :: y.marks).take l.length }

/-- The count has taken a new value: the pair is latched, hwm follows, triggers arise, and the line rates are judged (R260, R273,
R280, R309). -/
def countChanged (i date : Nat) (s : State) : State :=
  let old := inputOf s i
  let w := max (msT 20) (usT (cfgN s Fld.position_speed_window 0))
  let s1 := modInput i (latchPair w (cfgN s Fld.position_compare_hysteresis 0) date) s
  updateOverspeed (
    if (inputOf s1 i).hwm ≠ old.hwm then hwmChanged i date s1
    else modInput i (fun x => { x with scheduled := if countDiff x.count x.hwm < 0 then none else x.scheduled }) s1)

/-- A step of the count by `d` at a date. -/
def countStep (i date : Nat) (d : Int) (s : State) : State :=
  countChanged i date (modInput i (fun x => { x with count := wrap48 (x.count + d), direction := d.sign }) s)

/-- *Table: Quadrature steps*: the levels (A, B) in the order of forward motion. -/
def quadraturePhase (a b : Bool) : Nat := if a then (if b then 2 else 1) else (if b then 3 else 0)

/-- A run of agreeing samples is long enough for the input's filter (R255). -/
def passesFilter (s : State) (i agreed : Nat) : Bool := cfgN s Fld.position_filter_samples i + 1 ≤ agreed

/-- The test counter of a POSITION PAD loop-back counts an accepted edge of its input (R651). -/
def countTest (input : Nat) (s : State) : State :=
  { s with loops := s.loops.map fun l =>
      if l.interface = 6 && l.depth = 1 && l.index = input then { l with units := l.units + 1 } else l }

/-- The levels of A and B change, as `agreed` consecutive samples show (R255, R257, R258). -/
def quadratureStep (input : Nat) (a b : Bool) (agreed : Nat) (s : State) : State :=
  let x := inputOf s input
  if !isQuadrature s input || !passesFilter s input agreed then s
  else
    let d := (quadraturePhase a b + 4 - quadraturePhase x.a x.b) % 4
    let s2 := modInput input (fun x => { x with a := a, b := b }) s
    let sign : Int := if cfgN s Fld.position_invert input = 1 then -1 else 1
    if d = 0 then s2
    else if d = 2 then
      positionError input 0 (modInput input (fun x => { x with
        illegal := wrapInc 16 x.illegal, uncertainty := satAdd 8 x.uncertainty 2 }) s2)
    else countStep input s2.now (if d = 1 then sign else -sign) (countTest input s2)

/-- QUADRATURE_EDGE (R255, R257, R258): the levels of A and B after a change that `agreed` consecutive samples show, dated
`t`. -/
def execQuadratureEdge (t input : Nat) (a b : Bool) (agreed : Nat) (s : State) : Host.Outcome State Fault Refusal :=
  .next (quadratureStep input a b agreed (beginAt t s))

/-- WIRE_FAULT (R253, R254): `samples` consecutive samples of one pair — 0 A, 1 B, 2 Z, 3 SSI data — are wire
disagreements. -/
def execWireFault (t input pair samples : Nat) (s : State) : Host.Outcome State Fault Refusal :=
  let s1 := beginAt t s
  if samples = 0 || !(if pair = 3 then isSsiOn s1 input else isQuadrature s1 input) then .next s1
  else
    let was := (inputOf s1 input).fault
    let s2 := modInput input (fun x => { x with
      wireDisagreements := wrapAdd 16 x.wireDisagreements samples, lastTrouble := s1.now }) s1
    if samples < cfgN s1 Fld.position_wire_samples input then .next s2
    else if was then .next (raiseFault input 1 s2)
    else .next (raise 0x0613 (leBytes 1 input ++ leBytes 1 pair) (raiseFault input 1 s2))

/-- The slip of an index event at the present count (R262). -/
def indexSlipOf (s : State) (i : Nat) : Int :=
  let n : Int := cfgN s Fld.position_counts_per_rev i
  let r : Int := cfgN s Fld.position_index_ref i
  let ref := if (inputOf s i).direction < 0 then r + cfgN s Fld.position_index_width i - 1 else r
  let d := (ref - (inputOf s i).count) % n
  if n < 2 * d then d - n else d

/-- An index correction: count, hwm and latched pairs move together (R262). -/
def correctCount (slip : Int) (x : Input) : Input :=
  { x with count := wrap48 (x.count + slip), hwm := wrap48 (x.hwm + slip)
           latched := x.latched.map fun p => (wrap48 (p.1 + slip), p.2)
           marks := x.marks.map fun p => (wrap48 (p.1 + slip), p.2)
           indexSlip := toSigned 32 (ofSigned 32 (x.indexSlip + slip)), uncertainty := 0, mismatches := 0
           indexSeen := true }

/-- An index event at the present count (R262). -/
def indexStep (input : Nat) (s : State) : State :=
  let x := inputOf s input
  let slip := indexSlipOf s input
  if slip.natAbs ≤ cfgN s Fld.position_index_window input then
    let s1 := modInput input (correctCount slip) s
    if slip = 0 then s1 else updateOverspeed (hwmChanged input s.now s1)
  else
    let n := x.mismatches + 1
    let s1 := modInput input (fun x => { x with
      indexMismatches := wrapInc 16 x.indexMismatches, mismatches := if n = 3 then 0 else n, lastTrouble := s.now })
      (raise 0x0612 (leBytes 1 input ++ leBytes 4 (ofSigned 32 x.count) ++ sgBytes 4 slip) s)
    if n = 3 && cfgN s Fld.position_index_policy input = 0 then raiseFault input 2 s1 else s1

/-- A change of A or B of the same sample of 4 ns, which stands behind in the queue, is applied before the index event,
with its own date; its own command then finds the levels as they are (R260, R261). -/
def edgeFirst (t input : Nat) (s : State) : State :=
  let edge (c : Instr) : Option (Nat × Bool × Bool × Nat) := match c with
    | .quadratureEdge u i a b n => if t ≤ u && u / 256 = t / 256 && i = input then some (u, a, b, n) else none
    | _ => none
  match s.pending.findSome? edge with
  | some (u, a, b, n) => { quadratureStep input a b n { s with now := max s.now u } with now := s.now }
  | none => s

/-- INDEX_EVENT (R255, R261, R262): a rising edge of Z. -/
def execIndexEvent (t : Nat) (edge : IndexEdge) (s : State) : Host.Outcome State Fault Refusal :=
  let s1 := beginAt t s
  .next (if !isQuadrature s1 edge.input || cfgN s1 Fld.position_index_use edge.input ≠ 1 ||
      !passesFilter s1 edge.input edge.agreed then s1
    else indexStep edge.input (edgeFirst t edge.input s1))

/-! ### SSI (R263 to R265) -/

/-- A Gray-coded value as binary. -/
def grayToBinary : Nat → Nat → Nat
  | 0, _ => 0
  | n + 1, g => g ^^^ grayToBinary n (g / 2)

/-- The ones of a number of n bits. -/
def ones (n v : Nat) : Nat := ((List.range n).filter v.testBit).length

/-- The value of an SSI frame in binary (R265). -/
def ssiValue (s : State) (i : Nat) (f : SsiBits) : Nat :=
  let v := f.value % 2 ^ cfgN s Fld.position_ssi_bits i
  if cfgN s Fld.position_mode i = 3 then grayToBinary 32 v else v

/-- The parity bit is right: over the data and status bits and itself, even or odd (R263, R264). -/
def ssiParityOk (s : State) (i : Nat) (f : SsiBits) : Bool :=
  let p := cfgN s Fld.position_ssi_parity i
  let n := ones (cfgN s Fld.position_ssi_bits i) f.value + ones (cfgN s Fld.position_ssi_extra i) f.status + b2n f.parityBit
  p = 0 || n % 2 = p - 1

/-- The step of an accepted SSI value (R265). -/
def ssiStepOf (s : State) (i x prev : Nat) : Int :=
  let n := cfgN s Fld.position_ssi_bits i
  toSigned n (ofSigned n ((x : Int) - prev))

/-- SSI_FRAME (R263 to R265): a frame has been read, dated `t` to the first falling edge of its clock. -/
def execSsiFrame (t input : Nat) (f : SsiBits) (s : State) : Host.Outcome State Fault Refusal :=
  let s1 := beginAt t s
  if !isSsiOn s1 input then .next s1
  else
    let x := inputOf s1 input
    let v := ssiValue s1 input f
    let step := (x.ssiPrev.map (ssiStepOf s1 input v)).getD 0
    let bad := !f.idleHigh || !f.startLow || !f.endLow || !ssiParityOk s1 input f ||
      ones (cfgN s1 Fld.position_ssi_extra input) f.status ≠ 0 || cfgN s1 Fld.position_ssi_max_step input < step.natAbs
    if bad then
      .next (positionError input 3 (raiseLimited 0x0616 input (secT 1) (fun n => leBytes 1 input ++ leBytes 4 n)
        (modInput input (fun x => { x with ssiFrameErrors := wrapInc 16 x.ssiFrameErrors }) s1)))
    else
      let count := if x.ssiPrev.isSome then wrap48 (x.count + step) else v
      .next (countChanged input s1.now (modInput input (fun x => { x with
        ssiPrev := some v, ssiStep := step, count := count
        direction := if step = 0 then x.direction else step.sign }) s1))

/-! ### Scheduled and coast triggers, clearing -/

/-- A scheduled trigger whose time has come is issued, and the next point is scheduled (R280). -/
def extrapolate (input : Nat) (s : State) : State :=
  match (inputOf s input).scheduled with
  | none => s
  | some d =>
    if s.now < d || !triggersOn s input then s
    else schedulePoint input (issueTrigger input .extrapolated d (modInput input (fun x => { x with scheduled := none }) s))

/-- The next point of a coast whose reckoned time has come is triggered (*Table: Fault policies*). -/
def coastOn (input : Nat) (s : State) : State := coastDue 1 input s

/-- The line triggers that are due now are issued: they go before the auxiliary ones (R285). -/
def linesFirst (s : State) : State := forEach (List.range 16) (fun i s => coastOn i (extrapolate i s)) s

/-- EXTRAPOLATED_TRIGGER (R280): the scheduled time has come. -/
def execExtrapolatedTrigger (t input : Nat) (s : State) : Host.Outcome State Fault Refusal := .next (extrapolate input (beginAt t s))

/-- COAST_TRIGGER (*Table: Fault policies*): the next point of a coast falls due. -/
def execCoastTrigger (t input : Nat) (s : State) : Host.Outcome State Fault Refusal := .next (coastOn input (beginAt t s))

/-- POSITION_FAULT_CLEARED (R267): the input has had no trouble for fault_clear. -/
def execPositionFaultCleared (t input : Nat) (s : State) : Host.Outcome State Fault Refusal :=
  let s1 := beginAt t s
  let x := inputOf s1 input
  if x.fault && x.lastTrouble + msT (cfgN s1 Fld.position_fault_clear 0) ≤ s1.now then
    .next (raise 0x0611 (leBytes 1 input) (modInput input (fun x => { x with fault := false }) s1))
  else .next s1

end Sys2Proof.Machine
end

