-- ==== Sys2Proof/Machine/Axes.lean ====
section
/-! DEFINITION. What motion does by itself (15_motion.md, R445, R447 to R464): the profile period, gearing, homing, the stall
check, the PWM period, hold current, and the auxiliary compare channels. -/
namespace Sys2Proof.Machine
open Sys2Proof

/-! ### Gear changes (R460, R461, R464) -/

/-- The pending gear change of axis a starts at a count: the gearing of before ends there (R460, R461). -/
def startChange (a : Nat) (at_ : Rat) (s : State) : State :=
  let x := axisOf s a
  match x.gear, x.change with
  | some (i, off, anchor, r0), some c =>
    if c.started then s
    else
      dropAux (auxOfAxis a) (modAxis a (fun y => { y with
        gear := some (i, off + ratioOf r0 * posDiff at_ anchor, at_, r0)
        change := some { c with started := true, at_ := at_ } }) s)
  | _, _ => s

/-- Where the pending gear change starts: at its count, or, late, at the present one, in whole counts as the token carries it. -/
def changeCount (s : State) (a : Nat) : Rat :=
  match (axisOf s a).gear, (axisOf s a).change with
  | some (i, _, _, _), some c => if c.late then ((linePosValue s i s.now).floor : Int) else c.at_
  | _, _ => 0

/-- A gear change whose moment this module finds itself; a module that follows takes it from the active's tokens (R464). -/
def ownChange (a : Nat) (s : State) : State :=
  if follows s then s
  else startChange a (changeCount s a) (axisToken a 3 (changeCount s a).floor s)

/-- The target of a geared axis, and the gearing once a ramp is complete (R460). -/
def gearTarget (a : Nat) (s : State) : Rat × State :=
  let x := axisOf s a
  match x.gear with
  | none => (x.p, s)
  | some (i, off, anchor, r0) =>
    let d := posDiff (linePosValue s i s.now) anchor
    match x.change with
    | some c =>
      if !c.started then (off + ratioOf r0 * d, s)
      else if d < c.ramp then (off + ratioOf r0 * d + ratioOf (c.ratio - r0) * d * d / (2 * c.ramp), s)
      else
        let o := off + (ratioOf r0 + ratioOf c.ratio) / 2 * c.ramp
        (o + ratioOf c.ratio * (d - c.ramp), endChange a moveDone
          (modAxis a (fun y => { y with gear := some (i, o, anchor + c.ramp, c.ratio) }) s))
    | none => (off + ratioOf r0 * d, s)

/-! ### Profile periods -/

/-- The motion of an axis. -/
def motionOf (x : Axis) : Motion := { p := x.p, v := x.v, a := x.a }

def putMotion (m : Motion) (x : Axis) : Axis := { x with p := m.p, v := m.v, a := m.a }

/-- The axis comes to rest in HOLD, its request ended with an outcome (R445, R468). -/
def comeToHold (a outcome : Nat) (s : State) : State := endReq a outcome (enterHold a s)

/-- A period of a move or a jog; the reversal of a retarget is noted and latches the shadow (R447 to R450). -/
def movePeriod (a : Nat) (s : State) : State :=
  let x := axisOf s a
  let q := x.latched
  let r := match x.jog with
    | some v => profileStep (absRat v) q.accel q.decel (jerkOf q) (signRat v) none (motionOf x)
    | none => profileTo q.vMax q x.target (motionOf x)
  let dir := match x.jog with
    | some v => signRat v
    | none => signRat (x.target - x.p)
  let s1 := modAxis a (putMotion r) s
  let turned := x.v ≠ 0 && signRat x.v ≠ dir && r.v = 0
  let s2 := if turned && (x.req.any fun q => q.retargetAt.isSome) then
      latchShadow a (modAxis a (fun y => { y with req := y.req.map fun q => { q with reversed := true, reversal := r.p } }) s1)
    else s1
  if x.jog.isNone && r.p = x.target && r.v = 0 then comeToHold a moveDone s2 else s2

/-- A period of stopping: an emergency stop brakes at estop_decel, STOP runs to its rest position (R447, R451). -/
def stopPeriod (a : Nat) (s : State) : State :=
  let x := axisOf s a
  let r := if x.stopCause ≠ 0 then brakeStep (cfgN s Fld.motion_estop_decel a) (motionOf x)
    else profileTo x.latched.vMax x.latched x.target (motionOf x)
  let s1 := modAxis a (putMotion r) s
  if x.stopCause ≠ 0 then
    if r.v = 0 then comeToHold a moveDone (raise 0x0C12 (leBytes 1 a ++ leBytes 1 x.stopCause) s1) else s1
  else if r.p = x.target && r.v = 0 then comeToHold a moveDone s1 else s1

/-- A period of gearing, and the lag it leaves (R460 to R462). -/
def gearPeriod (a : Nat) (s : State) : State :=
  let s0 := if (axisOf s a).change.any (fun c => c.late && !c.started) then ownChange a s else s
  let g := gearTarget a s0
  let x := axisOf g.2 a
  let r := profileTo x.latched.vMax x.latched g.1 (motionOf x)
  let lag := g.1 - r.p
  let mx : Rat := cfgN s Fld.motion_gear_lag_max a
  let s1 := modAxis a (fun y => { putMotion r y with
    target := g.1, lag := lag
    lagRaised := if absRat lag * 2 < mx then false else y.lagRaised || decide (mx < absRat lag) }) g.2
  if mx < absRat lag && !x.lagRaised then
    raise 0x0C15 (leBytes 1 a ++ sgBytes 4 (clampInt (-2147483648) 2147483647 (roundRat lag))) s1
  else s1

/-! ### Homing (R458, R459) -/

/-- The direction of home_dir. -/
def homeDir (s : State) (a : Nat) : Rat := if cfgN s Fld.motion_home_dir a = 1 then 1 else -1

/-- The home switch is active. -/
def atHome (s : State) (a : Nat) : Bool := dinActive s (cfgN s Fld.motion_home_input a)

/-- A period of homing towards a direction at a speed, without end. -/
def homeRun (x : Axis) (dir speed : Rat) : Motion :=
  profileStep speed x.latched.accel x.latched.decel (jerkOf x.latched) dir none (motionOf x)

/-- A period of braking at the latched decel, as the profile brakes: with a jerk the acceleration changes by it (R447). -/
def homeBrake (x : Axis) : Motion :=
  if x.v = 0 then { p := x.p, v := 0, a := 0 }
  else profileStep x.latched.vMax x.latched.accel x.latched.decel (jerkOf x.latched) (-(signRat x.v)) none (motionOf x)

/-- Homing has failed: the axis brakes, and enters HOLD without its homed flag (R459). -/
def failHoming (a reason : Nat) (s : State) : State :=
  modAxis a (fun y => { y with homed := false, latchDue := none
                               home := y.home.map fun h => (.failing, h.2.1, (reason : Rat)) }) s

/-- The motion of a homing phase, and the phase after it with its position. -/
def homeStep (s : State) (a : Nat) (ph : HomePhase) (aux : Rat) : Motion × HomePhase × Rat :=
  let x := axisOf s a
  let d := homeDir s a
  let fast : Rat := cfgN s Fld.motion_home_speed a
  let creep : Rat := cfgN s Fld.motion_home_creep a
  match ph with
  | .seek => if atHome s a then let r := homeBrake x; (r, if r.v = 0 then .backoff else .seekBrake, 0)
             else (homeRun x d fast, .seek, 0)
  | .seekBrake => let r := homeBrake x; (r, if r.v = 0 then .backoff else .seekBrake, 0)
  | .backoff => let r := homeRun x (-d) creep; if atHome s a then (r, .backoff, 0) else (r, .backoffTravel, r.p)
  | .backoffTravel =>
    let r := homeRun x (-d) creep
    if atHome s a then (r, .backoff, 0)
    else if (cfgN s Fld.motion_home_backoff a : Rat) ≤ absRat (r.p - aux) then (r, .approach, 0) else (r, .backoffTravel, aux)
  | .approach => (homeRun x d creep, .approach, 0)
  | .settle => (homeBrake x, .settle, aux)
  | .failing => (homeBrake x, .failing, aux)

/-- A period of homing (*Table: Homing phases*). -/
def homePeriod (a : Nat) (s : State) : State :=
  let x := axisOf s a
  match x.home with
  | none => s
  | some (ph, travel, aux) =>
    let r := homeStep s a ph aux
    let tr := travel + absRat (r.1.p - x.p)
    let s1 := modAxis a (fun y => { putMotion r.1 y with
      home := some (r.2.1, tr, r.2.2), track := ((s.now, r.1.p) :: y.track).take 10001 }) s
    if ph = .settle && r.1.v = 0 then
      raise 0x0C13 (leBytes 1 a ++ sgBytes 4 (clampInt (-2147483648) 2147483647 (roundRat aux)))
        (comeToHold a moveDone (modAxis a (fun y => { y with homed := true }) s1))
    else if ph = .failing then
      if r.1.v = 0 then raise 0x0C14 (leBytes 1 a ++ leBytes 1 aux.floor.toNat) (comeToHold a moveHomingFailed s1) else s1
    else if (cfgN s Fld.motion_home_travel_max a : Rat) < tr then failHoming a 0 s1
    else s1

/-! ### The stall check (R457) and the whole period -/

/-- The largest deviation of a request, with a further one (R468). -/
def widest (old : Nat) (dev : Rat) : Nat := max old (min 4294967295 (roundRat (absRat dev)).toNat)

/-- The deviation of an enabled axis with an encoder from its reference, and how long it has been beyond the window, in
every state of the axis (R457). -/
def stallCheck (a : Nat) (s : State) : State :=
  match axisEncoder s a with
  | none => s
  | some i =>
    if (axisOf s a).state = .fault || !axisEnabled s a then s
    else if (inputOf s i).fault then ownFault a 2 s
    else if !(axisOf s a).referenced then s
    else
      let dev := axisDev s a i
      let wide := (cfgN s Fld.motion_stall_window a : Rat) < absRat dev
      let since := if wide then some ((axisOf s a).stallSince.getD s.now) else none
      let s1 := modAxis a (fun y => { y with
        deviation := dev, stallSince := since
        req := y.req.map fun q => { q with maxDev := widest q.maxDev dev }
        change := y.change.map fun c => { c with maxDev := widest c.maxDev dev } }) s
      if since.any fun n => n + usT (cfgN s Fld.motion_stall_time a) ≤ s.now then ownFault a 1 s1 else s1

/-- One profile period of axis a: faults first, then an emergency stop, then a homing latch, then the motion (R447, R453). -/
def axisPeriod (a : Nat) (s : State) : State :=
  let s1 := stallCheck a s
  if atRest s1 a then s1
  else
    let s2 := causesFirst a s1
    match (axisOf s2 a).state with
    | .moving => movePeriod a s2
    | .homing => homePeriod a s2
    | .geared => gearPeriod a s2
    | .stopping => stopPeriod a s2
    | _ => s2

/-- MOTION_PROFILE_PERIOD (R447): a profile period of every axis. -/
def execMotionProfilePeriod (t : Nat) (s : State) : Host.Outcome State Fault Refusal :=
  let s1 := beginAt t s
  .next (if motionOn s1.mod.state then forEach (List.range 12) axisPeriod s1 else s1)

/-! ### Switches (R451, R459) -/

/-- The direction in which an axis moves; 0 at rest in HOLD. -/
def axisDir (s : State) (a : Nat) : Rat :=
  let x := axisOf s a
  if x.v ≠ 0 then signRat x.v
  else if x.state = .moving then
    match x.jog with
    | some v => signRat v
    | none => signRat (x.target - x.p)
  else if x.state = .homing then
    match x.home with
    | some (.backoff, _) => -(homeDir s a)
    | some (.backoffTravel, _) => -(homeDir s a)
    | some (.seek, _) => homeDir s a
    | some (.approach, _) => homeDir s a
    | _ => 0
  else if x.state = .geared then signRat (x.target - x.p) else 0

/-- Discrete input d became active: a limit in the direction of motion stops axis a, or fails its homing (R451, R459). -/
def limitHit (d a : Nat) (s : State) : State :=
  let x := axisOf s a
  let dir := axisDir s a
  let hit := (0 < dir && cfgN s Fld.motion_limit_pos a = d) || (dir < 0 && cfgN s Fld.motion_limit_neg a = d)
  if !hit || x.state = .off || x.state = .fault then s
  else if x.state = .homing then
    match x.home with
    | some (.failing, _) => s
    | _ => failHoming a 1 s
  else requestStop a 2 s

/-- The home switch of axis a became active at `date` while the axis approaches it: the latch, once (R458, R459, R464). The
latched position has 16 fraction bits, as the token carries it. -/
def homeHit (d date a : Nat) (s : State) : State :=
  if cfgN s Fld.motion_home_input a ≠ d || follows s then s
  else
    match (axisOf s a).state, (axisOf s a).home with
    | .homing, some (.approach, _) =>
      if (axisOf s a).latchDue.isSome then s
      else
        let l := roundRat (axisPosAt s a date * 65536)
        modAxis a (fun y => { y with latchDue := some ((l : Rat) / 65536) }) (axisToken a 2 l s)
    | _, _ => s

/-! ### The drive (R454 to R456) -/

/-- π to 32 decimal places. -/
def piRat : Rat := 314159265358979323846264338327950 / 100000000000000000000000000000000

/-- Terms of a power series, each rounded to 40 fraction bits: `t` the present term, `n` its number. -/
def seriesFrom (x2 : Rat) : Nat → Nat → Rat → Rat
  | 0, _, _ => 0
  | k + 1, n, t =>
    t + seriesFrom x2 k (n + 2)
      (((roundRat (-t * x2 / ((n + 1) * (n + 2) : Nat) * 1099511627776) : Int) : Rat) / 1099511627776)

/-- Sine and cosine of an angle from -π to π. -/
def sinRat (x : Rat) : Rat := seriesFrom (x * x) 18 1 x
def cosRat (x : Rat) : Rat := seriesFrom (x * x) 18 0 1

/-- The electrical angle of a position, from -π to π (R454). -/
def electricalAngle (p : Rat) (m : Nat) : Rat :=
  let turns := p / (4 * m : Nat)
  2 * piRat * (turns - (turns + 1 / 2).floor)

/-- The quotient by the bus voltage, held to ±1; and whether the clamp took effect (R454). -/
def dutyOf (u vbus : Rat) : Rat × Bool :=
  if vbus = 0 then (signRat u, u ≠ 0) else (clampRat (-1) 1 (u / vbus), 1 < absRat (u / vbus))

/-- The voltages of phases A and B of axis a in volts (R454): the angle's lead φ has cos φ = R ÷ Z and sin φ = wL ÷ Z with
Z = √(R² + (wL)²). -/
def phaseVoltages (s : State) (a : Nat) : Rat × Rat :=
  let x := axisOf s a
  let m := max 1 (cfgN s Fld.motion_microsteps a)
  let theta := electricalAngle x.p m
  let wl : Rat := 2 * piRat * x.v / (4 * m : Nat) * cfgN s Fld.motion_phase_l a / 1000000
  let r : Rat := (cfgN s Fld.motion_phase_r a : Rat) / 1000
  let z := sqrtRat (r * r + wl * wl)
  let i : Rat := (if x.state = .hold && x.holdCurrent then cfgN s Fld.motion_hold_current a
    else cfgN s Fld.motion_run_current a : Nat) / 1000
  let u := i * z + cfgN s Fld.motion_ke a * absRat x.v / (1000000 * m : Nat)
  (u * (cosRat theta * r - sinRat theta * wl) / z, u * (sinRat theta * r + cosRat theta * wl) / z)

/-- The bus reading of a PWM period, and the fault of an enabled axis after 8 in a row out of range, by the last of them
(R456). -/
def takeBus (a mv : Nat) (broken : Bool) (s : State) : State :=
  let low := broken || mv < 2000 || mv < cfgN s Fld.motion_vbus_min a
  let bad := low || cfgN s Fld.motion_vbus_max a < mv
  let s1 := modAxis a (fun y => { y with vbus := min 65535 mv, vbusBad := if bad then y.vbusBad + 1 else 0 }) s
  if 8 ≤ (axisOf s1 a).vbusBad && axisEnabled s a then ownFault a (if low then 3 else 4) s1 else s1

/-- PWM_PERIOD (R454 to R456): the bus is sampled, and the phase duties of an energised axis are computed; a module that
does not drive holds the outputs at high impedance (R464). Each phase that the clamp takes effect on is a saturation. -/
def execPwmPeriod (t axis vbusMv : Nat) (fullScale : Bool) (s : State) : Host.Outcome State Fault Refusal :=
  let s2 := takeBus axis vbusMv fullScale (beginAt t s)
  if atRest s2 axis then .next s2
  else
    let u := phaseVoltages s2 axis
    let n : Rat := (250000 / max 1 (cfgN s2 Fld.motion_pwm_khz axis) : Nat)
    let da := dutyOf u.1 ((vbusMv : Rat) / 1000)
    let db := dutyOf u.2 ((vbusMv : Rat) / 1000)
    let k := b2n da.2 + b2n db.2
    let s3 := modAxis axis (fun y => { y with
      saturations := wrapAdd 16 y.saturations k
      duty := if drives s2 then some (roundRat (da.1 * n), roundRat (db.1 * n)) else none }) s2
    .next (if k = 0 then s3 else raiseLimitedBy k 0x0C16 axis (secT 1) (fun n => leBytes 1 axis ++ leBytes 4 n) s3)

/-- HOLD_CURRENT_DELAY (R445): hold_delay has passed in HOLD. -/
def execHoldCurrentDelay (t axis : Nat) (s : State) : Host.Outcome State Fault Refusal :=
  let s1 := beginAt t s
  let x := axisOf s1 axis
  .next (if x.state = .hold && x.holdSince + msT (cfgN s1 Fld.motion_hold_delay axis) ≤ s1.now then
    modAxis axis (fun y => { y with holdCurrent := true }) s1 else s1)

/-! ### Auxiliary compare channels (R284) -/

/-- The point of a channel has been reached by its input's line-position value. -/
def auxReached (s : State) (x : Aux) : Bool :=
  x.count ≠ 0 && pointDiff x.point (linePosValue s x.source s.now * 4294967296).floor ≤ 0

/-- The line number of a point of an input, with fraction (R279). -/
def lineOfPoint (s : State) (x : Aux) : Rat := lineOf (inputOf s x.source) x.point

/-- The camera whose strobe an output is. -/
def strobeCam (s : State) (out : Nat) : Option Nat :=
  (enabledCams s).find? fun c => cfgN s Fld.camera_strobe_output c = out

/-- The action of a channel at its point. -/
def auxAct (x : Aux) (s : State) : State :=
  match x.action with
  | .frame c => loadCam c (frameTrigger c (lineOfPoint s x) s)
  | .pulse o w =>
    match strobeCam s o with
    | some c => loadCam c (strobePulse c o w (lineOfPoint s x) s)
    | none => pulseOut o w s
  | .gearChange a => ownChange a s

/-- AUX_COMPARE_TRIGGER (R284, R285): a channel's point is reached; it goes on to the next one. -/
def execAuxCompareTrigger (t chan : Nat) (s : State) : Host.Outcome State Fault Refusal :=
  let s1 := linesFirst (beginAt t s)
  match s1.pos.aux.getD chan none with
  | none => .next s1
  | some x =>
    if !auxReached s1 x then .next s1
    else
      let x1 := { x with point := x.point + x.spacing, count := x.count - 1 }
      let s2 := { s1 with pos := { s1.pos with aux := s1.pos.aux.set chan (some x1) } }
      .next (auxAct x s2)

end Sys2Proof.Machine
end

