-- ==== Sys2Proof/Machine/PairOps.lean ====
section
/-! DEFINITION. The pair state as the other families use it (17_castling.md, R500 to R513): its changes, severance, and the
return to STANDBY. -/
namespace Sys2Proof.Machine
open Sys2Proof

/-- A change of the pair state with its event 0x0E11 PAIR_STATE; held proposals are dropped (R410). -/
def setPairState (st : PairState) (s : State) : State :=
  if s.pair.state = st then s
  else raise 0x0E11 (leBytes 1 (pairCode s.pair.state) ++ leBytes 1 (pairCode st))
    { s with pair := { s.pair with state := st }, cal := { s.cal with held := [] } }

/-- The module enters SEVERED with a cause (*Table: Divergence checks*) and event 0x0E13 PAIR_SEVERED: it takes no part in
castling any more, and what waited for an acknowledgement is dropped (R510). -/
def enterSevered (cause : Nat) (s : State) : State :=
  let s1 := raise 0x0E13 (leBytes 1 cause) (setPairState .severed s)
  { s1 with pair := { s1.pair with
    severCause := cause, severances := wrapInc 16 s1.pair.severances, decisions := [], tokensAhead := [], gapSince := none
    copyDone := false, armSeen := false, copies := [], absent := false } }

/-- The module drives nothing any more: its axis outputs have high impedance at once, and its lanes carry idle (R464,
R500, R515). -/
def stopOutputs (s : State) : State :=
  let s1 := { s with axes := s.axes.map fun a => { a with duty := none } }
  endHalts (forEach (List.range 48) endPacket s1)

/-- A divergence is found on the partner: SEVERED (R510). The active is never severed by one. -/
def diverge (cause : Nat) (s : State) : State := if follows s then enterSevered cause s else s

/-- Every released slot's page is there (R511). -/
def slotsReady (s : State) : Bool := (openSlots s).all fun x => pageReady s x.page

/-- A partner in CATCHUP enters STANDBY once its copy is complete and the active is in IDLE or has armed (R511, R513). -/
def tryStandby (s : State) : State :=
  if s.pair.state = .catchup && s.pair.decided && s.pair.copyDone && slotsReady s &&
      (s.pair.armSeen || s.pair.peerModule = 4) then
    let s1 := setPairState .standby s
    raise 0x0E15 (leBytes 8 s.pair.copied) { s1 with pair := { s1.pair with progress := 65535 } }
  else s

/-- A standby lacks the page of a released slot: CATCHUP, until it holds every released slot's page (R511). -/
def dropToCatchup (s : State) : State :=
  if s.pair.state = .standby then
    let s1 := setPairState .catchup s
    { s1 with pair := { s1.pair with armSeen := true } }
  else s

/-- The store signature of a page (R509). -/
def storeSignature (l : List LanePart) : Nat :=
  crc32c ((inOrder (fun a b => a.lane ≤ b.lane) l).flatMap fun p => p.blocks.flatten)

/-- SIGNATURE of a page that has become RENDERED here (R509). -/
def sendSignature (id : Nat) (s : State) : State :=
  if s.pair.linkUp then
    sendPartner 7 (leBytes 4 id ++ leBytes 4 (((pageOf s id).map fun p => storeSignature p.parts).getD 0)) s
  else s

/-- The module's signature of a page and the partner's are compared once both are there (R509, R510); the active keeps a
partner's signature only where it matches (R633). -/
def compareSignature (id : Nat) (s : State) : State :=
  match pageOf s id with
  | none => s
  | some pg =>
    match pg.partnerSig with
    | some x =>
      if pg.state = .rendered then
        let s1 := { s with pair := { s.pair with signatures := wrapInc 16 s.pair.signatures } }
        if x = storeSignature pg.parts then s1
        else if follows s1 then diverge 1 s1
        else modPage id (fun p => { p with partnerSig := none }) s1
      else s
    | none => s

end Sys2Proof.Machine
end

