-- ==== Sys2Proof/Machine/Images.lean ====
section
/-! DEFINITION. Image headers, bundles and the boot-select record (18_configuration_image.md, R523, R524;
21_firmware_update.md, R585 to R590, R598). -/
namespace Sys2Proof.Machine
open Sys2Proof

/-! ### The header (R523, R524) -/

def imgKind (b : List Byte) : Nat := fld b 4 1
def imgFormat (b : List Byte) : Nat := fld b 5 1
def imgLength (b : List Byte) : Nat := fld b 8 4
def imgKeyId (b : List Byte) : Nat := fld b 112 1
def imgSigned (b : List Byte) : Bool := fld b 113 1 = 1

/-- Magic, kind, header_version and header_crc. -/
def imgHeaderOk (kind : Nat) (b : List Byte) : Bool :=
  256 ≤ b.length && b.take 4 = [0x4F#8, 0x4C#8, 0x44#8, 0x4E#8] && imgKind b = kind && fld b 6 2 = 1 &&
    fld b 156 4 = crc32c (b.take 156)

/-- stepping_mask is 0 or includes stepping C. -/
def steppingOk (mask : Nat) : Bool := mask = 0 || mask.testBit 2

/-- The payload digest is that of bytes 256 to image_length − 1. -/
def payloadDigestOk (b : List Byte) : Bool := (b.drop 64).take 48 = sha384 ((b.take (imgLength b)).drop 256)

/-- The signature of bytes 0 to 159 under a key. -/
def signatureOk (key b : List Byte) : Bool := ecdsaVerify key (sha384 (b.take 160)) ((b.drop 160).take 96)

/-- The largest configuration image and the largest bundle. -/
def maxConfigImage : Nat := 20971512
def maxBundle : Nat := 66060288

/-- The formats of a configuration image: F3, F4, F5, L3. -/
def configFormat (f : Nat) : Bool := f = 3 || f = 4 || f = 5 || f = 0x13

/-- The header checks of a configuration image (R524). -/
def configHeaderOk (b : List Byte) : Bool :=
  imgHeaderOk 1 b && configFormat (imgFormat b) && 1024 ≤ imgLength b && imgLength b ≤ maxConfigImage &&
    imgLength b = b.length && steppingOk (fld b 12 4) && payloadDigestOk b

/-! ### Bundles (R585 to R588) -/

/-- The manifest and what follows it. -/
def manifestOf (b : List Byte) : List Byte := b.drop 256
def componentCount (b : List Byte) : Nat := fld (manifestOf b) 13 1
def rollbackIndex (b : List Byte) : Nat := fld (manifestOf b) 20 4

/-- The bundle digest: SHA-384 of the manifest and its entries (R502, R585). -/
def bundleDigest (b : List Byte) : List Byte := sha384 ((manifestOf b).take (32 + 64 * componentCount b))

/-- A manifest entry: kind, offset, length, digest. -/
def component (b : List Byte) (k : Nat) : Nat × Nat × Nat × List Byte :=
  let e := (manifestOf b).drop (32 + 64 * k)
  (fld e 0 1, fld e 4 4, fld e 8 4, (e.drop 16).take 48)

/-- The bytes of a component image. -/
def componentBytes (b : List Byte) (k : Nat) : List Byte :=
  let c := component b k
  (b.drop c.2.1).take c.2.2.1

/-- Two components share no byte. -/
def apart (x y : Nat × Nat × Nat × List Byte) : Bool := x.2.1 + x.2.2.1 ≤ y.2.1 || y.2.1 + y.2.2.1 ≤ x.2.1

/-- Magic, version, one component of each kind, all inside the bundle and none over another (R586). -/
def manifestOk (b : List Byte) : Bool :=
  let n := componentCount b
  let cs := (List.range n).map (component b)
  256 + 32 + 64 * n ≤ b.length && (manifestOf b).take 4 = [0x4F#8, 0x4C#8, 0x4D#8, 0x46#8] && fld (manifestOf b) 4 2 = 1 &&
    [0x11, 0x12, 0x13, 0x14, 0x15].all (fun k => (cs.filter fun c => c.1 = k).length = 1) &&
    cs.all (fun c => c.2.1 + c.2.2.1 ≤ b.length) &&
    (List.range n).all fun i => (List.range i).all fun j => apart (component b i) (component b j)

/-- The header of a component passes the checks of R524 with its own kind; the formats of the table are those of
configuration images. -/
def componentHeaderOk (b : List Byte) (k : Nat) : Bool :=
  let c := componentBytes b k
  imgHeaderOk (component b k).1 c && 1024 ≤ imgLength c && imgLength c ≤ maxConfigImage && imgLength c = c.length

/-- The payload digest of a component, and its own SHA-384 as the manifest gives it (R524, R586). -/
def componentDigestOk (b : List Byte) (k : Nat) : Bool :=
  payloadDigestOk (componentBytes b k) && sha384 (componentBytes b k) = (component b k).2.2.2

/-- The key of a bundle's key_id verifies its header (R588). -/
def bundleSigned (s : State) (b : List Byte) : Bool :=
  let k := imgKeyId b
  imgSigned b && 1 ≤ k && k ≤ 3 && !s.otp.keysRevoked.testBit (k - 1) && signatureOk (s.otp.keys.getD (k - 1) []) b

/-- The first component that fails a check, by its entry. -/
def firstBad (b : List Byte) (ok : Nat → Bool) : Option Nat := (List.range (componentCount b)).find? fun k => !ok k

/-- Why a bundle does not start: 0 header, 1 signature, 2 stepping, 3 digest (R586 to R588, R593). -/
def bootCheck (s : State) (b : List Byte) : Option Nat :=
  if !(imgHeaderOk 0x10 b && 1024 ≤ imgLength b && imgLength b ≤ maxBundle && imgLength b ≤ b.length && manifestOk b &&
      (firstBad b (componentHeaderOk b)).isNone) then some 0
  else if !bundleSigned s b then some 1
  else if !(steppingOk (fld b 12 4) && (firstBad b fun k => steppingOk (fld (componentBytes b k) 12 4)).isNone) then some 2
  else if !(payloadDigestOk b && (firstBad b (componentDigestOk b)).isNone) then some 3
  else none

/-! ### Blocks (R597, R598) -/

/-- ceil(image_length ÷ 65,536). -/
def blockCount (header : List Byte) : Nat := ceilDiv (imgLength header) 65536

/-- A block is good: recorded, and its data matches its recorded CRC (R598). -/
def blockGood (l : List (Nat × List Byte × Nat)) (n : Nat) : Bool :=
  l.any fun x => x.1 = n && crc32c x.2.1 = x.2.2

/-- The numbers of the blocks that are not good. -/
def missingBlocks (header : List Byte) (l : List (Nat × List Byte × Nat)) : List Nat :=
  (List.range (blockCount header)).filter fun n => !blockGood l n

/-- The lowest block not yet good, or the number of blocks. -/
def nextBlock (header : List Byte) (l : List (Nat × List Byte × Nat)) : Nat :=
  (missingBlocks header l).headD (blockCount header)

/-- The bytes that the blocks hold. -/
def blockBytes (header : List Byte) (l : List (Nat × List Byte × Nat)) : List Byte :=
  (List.range (blockCount header)).flatMap fun n =>
    match l.find? fun x => x.1 = n with
    | some x => x.2.1
    | none => []

/-- The bundle in a slot. -/
def slotBytes (s : State) (n : Nat) : List Byte := blockBytes (slotRec s n).header (slotRec s n).blocks

/-- The other slot. -/
def otherSlot (n : Nat) : Nat := 1 - n

end Sys2Proof.Machine
end

