-- ==== Sys2Proof/Machine/ConfigFields.lean ====
section
/-! DEFINITION. Reading the records of a configuration image (18_configuration_image.md, R525 to R533; phases 1 to 3 of
*Table: Reading phases*). -/
namespace Sys2Proof.Machine
open Sys2Proof

/-! ### A reading and its report -/

/-- A configuration being read: the values as they stand, the values as read or supplied, the numeric fields given with
count 1, the fields read, and the report. -/
structure Reading where
  cfg    : Cfg
  given  : Cfg
  single : List Nat
  seen   : List Nat
  report : List ClampEntry

/-- Before any record: every field at its default, as one value (R533). -/
def emptyReading : Reading :=
  { cfg := defaultCfg, given := defaultCfg, single := fieldTable.map fun f => f.id, seen := [], report := [] }

/-- A value as the report shows it, 64 bits. -/
def shown (v : Int) : Nat := (v % 2 ^ 64).toNat

/-- The bytes of an address field of type 2; none for any other field (R526). -/
def addressBytes (id : Nat) : Option Nat :=
  if id = 0x0304 || id = 0x0305 || id = 0x0309 then some 4
  else if id = 0x0306 || id = 0x0307 || id = 0x030A then some 16 else none

/-- An element of a field as the report shows it: for type 2, the CRC-32C of the bytes. -/
def shownOf (id : Nat) (v : Int) : Nat :=
  match addressBytes id with
  | some n => crc32c (beBytes n v.toNat)
  | none => shown v

def addEntry (field element action causedBy given used : Nat) (r : Reading) : Reading :=
  { r with report := r.report ++ [⟨field, element, action, causedBy, given, used⟩] }

/-- Every entry of a list in turn. -/
def addEntries (l : List ClampEntry) (r : Reading) : Reading := { r with report := r.report ++ l }

/-- The values of a numeric field become `v`; each element that changes is reported, as one entry when a value given
with count 1 meets the same outcome on every element (R533). -/
def setField (id : Nat) (v : List Int) (action causedBy : Nat) (r : Reading) : Reading :=
  let old := cfgLookup r.cfg.num id
  let gv := cfgLookup r.given.num id
  let l := (List.range v.length).filterMap fun i =>
    if v.getD i 0 = old.getD i 0 then none
    else some (⟨id, i, action, causedBy, shownOf id (gv.getD i 0), shownOf id (v.getD i 0)⟩ : ClampEntry)
  let l1 := match l with
    | [] => []
    | e :: _ =>
      if r.single.contains id && 1 < v.length && l.length = v.length &&
          l.all (fun x => x.given = e.given && x.used = e.used)
      then [{ e with element := 0xFFFF }] else l
  { r with cfg := cfgSetAll r.cfg id v, report := r.report ++ l1 }

/-- One element of a numeric field becomes `v`. -/
def setElement (id i : Nat) (v : Int) (action causedBy : Nat) (r : Reading) : Reading :=
  setField id ((cfgLookup r.cfg.num id).set i v) action causedBy r

def rdInt (r : Reading) (id i : Nat) : Int := cfgInt r.cfg id i
def rdNat (r : Reading) (id i : Nat) : Nat := cfgNat r.cfg id i

/-! ### Sections and records (R525, R527) -/

/-- A field record: id, type, element size, count, value bytes. -/
structure Record where
  id    : Nat
  type  : Nat
  size  : Nat
  count : Nat
  bytes : List Byte

/-- The records between two offsets of a payload; none where one does not lie wholly inside. `n` bounds their number. -/
def recordsIn : Nat → List Byte → Option (List Record)
  | 0, b => if b.isEmpty then some [] else none
  | n + 1, b =>
    if b.isEmpty then some []
    else
      let len := fld b 4 2 * fld b 6 2
      let all := 8 + (len + 3) / 4 * 4
      if b.length < 8 || b.length < all then none
      else (recordsIn n (b.drop all)).map fun l =>
        ⟨fld b 0 2, fld b 2 1, fld b 4 2, fld b 6 2, (b.drop 8).take len⟩ :: l

/-- The directory: section number, record count, offset. -/
def directoryOf (b : List Byte) : List (Nat × Nat × Nat) :=
  (List.range (fld b 0 2)).map fun k => (fld b (4 + 8 * k) 1, fld b (6 + 8 * k) 2, fld b (8 + 8 * k) 4)

/-- The records of the sections of a directory, each section ending where the next one begins; none where R527 fails.
`payload` begins at byte 256, from which the offsets count. -/
def sectionRecords (payload : List Byte) : List (Nat × Nat × Nat) → Option (List Record)
  | [] => some []
  | (sec, n, off) :: rest =>
    let stop := match rest with
      | [] => payload.length
      | e :: _ => e.2.2
    if off % 4 = 0 && off ≤ stop && stop ≤ payload.length &&
        (match rest with
         | [] => true
         | e :: _ => sec < e.1) then
      match recordsIn n ((payload.take stop).drop off), sectionRecords payload rest with
      | some l, some m => if l.length = n && l.all (fun r => r.id / 256 = sec) then some (l ++ m) else none
      | _, _ => none
    else none

/-- The records behind a section directory at an offset of the payload; none where the structure is not correct (R527). -/
def readDirectory (payload : List Byte) (at_ : Nat) : Option (List Record) :=
  let d := payload.drop at_
  let n := fld d 0 2
  if d.length < 4 + 8 * n then none
  else
    let l := directoryOf d
    if l.all (fun e => at_ + 4 + 8 * n ≤ e.2.2) then sectionRecords payload l else none

/-! ### Values (R525, R526) -/

/-- The elements of a numeric value, extended to 64 bits. -/
def elementsOf (q : Record) : List Int :=
  (List.range q.count).map fun i => if q.type = 1 then sfld q.bytes (i * q.size) q.size else (fld q.bytes (i * q.size) q.size : Nat)

/-- The bytes of a continuation sequence. -/
def isCont (b : Byte) : Bool := 0x80 ≤ b.toNat && b.toNat ≤ 0xBF

/-- The length of the UTF-8 sequence at the front; 0 where none stands there. -/
def utf8Len (l : List Byte) : Nat :=
  let a := (l.getD 0 0).toNat
  let b := (l.getD 1 0).toNat
  let c := isCont (l.getD 2 0)
  let d := isCont (l.getD 3 0)
  if l.isEmpty then 0
  else if a < 0x80 then 1
  else if 0xC2 ≤ a && a ≤ 0xDF && isCont (l.getD 1 0) then 2
  else if a / 16 = 0xE && c && isCont (l.getD 1 0) && (a ≠ 0xE0 || 0xA0 ≤ b) && (a ≠ 0xED || b < 0xA0) then 3
  else if 0xF0 ≤ a && a ≤ 0xF4 && c && d && isCont (l.getD 1 0) && (a ≠ 0xF0 || 0x90 ≤ b) && (a ≠ 0xF4 || b < 0x90) then 4
  else 0

/-- The bytes before the first invalid UTF-8 sequence. -/
def validUtf8 : Nat → List Byte → List Byte
  | 0, _ => []
  | n + 1, l =>
    let k := utf8Len l
    if k = 0 || l.length < k then [] else l.take k ++ validUtf8 n (l.drop k)

/-- A string with its bytes from the first invalid sequence on read as zero (field 0x0102). -/
def cleanString (l : List Byte) : List Byte := padTo l.length (validUtf8 l.length l)

/-- The entries of an entry list whose entries have a fixed size: a u16 count for each outer element, then every entry in
the same order; none where the bytes do not match (R526). -/
def entryLists (outer size : Nat) (b : List Byte) : Option (List (List (List Byte))) :=
  let counts := (List.range outer).map fun i => fld b (2 * i) 2
  let ends := (List.range outer).map fun i => (counts.take (i + 1)).sum
  if b.length = 2 * outer + size * counts.sum then
    let body := b.drop (2 * outer)
    some ((List.range outer).map fun i => (List.range (counts.getD i 0)).map fun j =>
      (body.drop (size * (ends.getD i 0 - counts.getD i 0 + j))).take size)
  else none

/-- *Table: Head entry*. -/
def readHead (e : List Byte) : Head :=
  ⟨fld e 0 4, fld e 4 2, fld e 6 1, fld e 7 1, (fld e 8 1).testBit 0⟩

/-- *Table: Head entry*, as bytes. -/
def headBytes (h : Head) : List Byte :=
  leBytes 4 h.firstFile ++ leBytes 2 h.nozzles ++ leBytes 1 h.rankCount ++ leBytes 1 h.rankBase ++
    leBytes 1 (b2n h.reversed) ++ leBytes 3 0

/-- *Table: Mosaic entry*. -/
def readMosaic (e : List Byte) : Mosaic :=
  ⟨fld e 0 1, fld e 1 1, fld e 2 1, fld e 3 1,
   (e.drop 4).flatMap fun b => [b.toNat % 16, b.toNat / 16]⟩

/-- *Table: Mosaic entry*, as bytes. -/
def mosaicBytes (m : Mosaic) : List Byte :=
  leBytes 1 m.width ++ leBytes 1 m.height ++ leBytes 1 m.phaseX ++ leBytes 1 m.phaseY ++
    (pieces 2 m.cells).map fun p => BitVec.ofNat 8 (p.getD 0 0 + 16 * p.getD 1 0)

/-- The tiles of field 0x0820; none where the bytes do not match. `n` counts them. -/
def readTiles : Nat → List Byte → Option (List Tile)
  | 0, b => if b.isEmpty then some [] else none
  | n + 1, b =>
    let cells := fld b 0 2 * fld b 2 2 * fld b 4 1
    if b.length < 8 + 2 * cells then none
    else (readTiles n (b.drop (8 + 2 * cells))).map fun l =>
      ⟨fld b 0 2, fld b 2 2, fld b 4 1, (List.range cells).map fun i => fld b (8 + 2 * i) 2⟩ :: l

/-- A tile as bytes. -/
def tileBytes (t : Tile) : List Byte :=
  leBytes 2 t.width ++ leBytes 2 t.height ++ leBytes 1 t.levels ++ leBytes 3 0 ++ t.cells.flatMap (leBytes 2)

/-- A configuration with the value of a field of type 2; none where the count does not fit (R526, R529). -/
def setBytes (id : Nat) (b : List Byte) (c : Cfg) : Option Cfg :=
  if id = 0x0102 then (if b.length = 32 then some { c with pressName := b } else none)
  else if id = 0x0401 then (if b.length = 128 then some { c with barNames := pieces 16 b } else none)
  else if id = 0x0501 then (entryLists 16 12 b).map fun l => { c with heads := l.map fun k => k.map readHead }
  else if id = 0x0502 then (entryLists 16 2 b).map fun l => { c with knownDead := l.map fun k => k.map leNat }
  else if id = 0x0820 then
    if 16 < fld b 0 2 then none
    else (readTiles (fld b 0 2) (b.drop 2)).map fun l => { c with tiles := l.map some }
  else if id = 0x0A13 then
    match entryLists 4 36 b with
    | some l => if l.all (fun k => k.length = 1) then some { c with mosaics := l.map fun k => readMosaic (k.headD []) } else none
    | none => none
  else if id = 0x1203 then (if b.length = 32 then some { c with dptKey := b } else none)
  else if id = 0x1204 then (if b.length = 97 || b.isEmpty then some { c with configKey := b } else none)
  else match addressBytes id with
    | some n => if b.length = n then some (cfgSet c id 0 (beNat b : Nat)) else none
    | none => none

/-- The fields of type 2. -/
def byteFields : List Nat :=
  [0x0102, 0x0304, 0x0305, 0x0306, 0x0307, 0x0309, 0x030A, 0x0401, 0x0501, 0x0502, 0x0820, 0x0A13, 0x1203, 0x1204]

/-- The elements of a well-formed numeric record: each of its own, or one for all (R525). -/
def numericValue (f : FieldDef) (q : Record) : Option (List Int) :=
  if (q.type = 0 || q.type = 1) && [1, 2, 4, 8].contains q.size then
    let l := elementsOf q
    if q.count = f.n then some l
    else if q.count = 1 then some (List.replicate f.n (l.headD 0)) else none
  else none

/-- A value as a record of one element or of type 2 shows it in the report. -/
def recordGiven (q : Record) : Nat :=
  if q.type = 2 then crc32c q.bytes
  else match elementsOf q with
    | [v] => shown v
    | _ => 0

/-- The value in force of a field's first element, for an entry about the whole field. -/
def firstUsed (r : Reading) (id : Nat) : Nat := if byteFields.contains id then 0 else shown (rdInt r id 0)

/-- A record is read: IGNORED, DUPLICATE, DEFAULTED, or its value (R529). -/
def readRecord18 (r : Reading) (q : Record) : Reading :=
  let def? := fieldTable.find? fun f => f.id = q.id
  if def?.isNone && !byteFields.contains q.id then addEntry q.id 0xFFFF 2 0 0 0 r
  else if r.seen.contains q.id then addEntry q.id 0xFFFF 3 0 (recordGiven q) (firstUsed r q.id) r
  else
    let r1 := { r with seen := q.id :: r.seen }
    if byteFields.contains q.id then
      match (if q.type = 2 && q.size = 1 then setBytes q.id q.bytes r1.cfg else none) with
      | some c => { r1 with cfg := c, given := c }
      | none => addEntry q.id 0xFFFF 1 0 (recordGiven q) (firstUsed r1 q.id) r1
    else match def?.bind fun f => numericValue f q with
      | some v =>
        let c := cfgSetAll r1.cfg q.id v
        { r1 with cfg := c, given := c
                  single := if q.count = 1 then r1.single else r1.single.filter fun k => k ≠ q.id }
      | none => addEntry q.id 0xFFFF 1 0 (recordGiven q) (firstUsed r1 q.id) r1

/-- Phase 2: the records in payload order. -/
def readRecords (l : List Record) (r : Reading) : Reading := l.foldl readRecord18 r

/-- The fields that an image lacks, reported as supplied for an older format (R545, R612). -/
def reportDefaults (r : Reading) : Reading :=
  let ids := inOrder (· ≤ ·) (fieldTable.map (fun f => f.id) ++ byteFields)
  let absent := (ids.filter fun i => !r.seen.contains i).eraseDups
  absent.foldl (fun a i => addEntry i 0xFFFF 6 0 0 (firstUsed a i) a) r

end Sys2Proof.Machine
end

