-- ==== Sys2Proof/Machine/Clamps.lean ====
section
/-! DEFINITION. The clamp rules of the configuration (18_configuration_image.md, R528 phase 4, R530 to R533, R536, R537, and
the Clamp columns of the field tables; 19_power_and_start.md, R566; 22_0824_compatibility.md, R613; 23_mode_combinations.md,
R627). -/
namespace Sys2Proof.Machine
open Sys2Proof

/-! ### The clamp of one value -/

/-- An IPv4 address that is no unicast one: multicast, broadcast or loopback (0x0304). -/
def badV4 (a : Nat) : Bool := (224 ≤ a / 2 ^ 24 && a / 2 ^ 24 ≤ 239) || a = 2 ^ 32 - 1 || a / 2 ^ 24 = 127

/-- An IPv6 address that is no global unicast one: multicast, loopback or link-local (0x0306). -/
def badV6 (a : Nat) : Bool := a / 2 ^ 120 = 0xFF || a = 1 || a / 2 ^ 118 = 0x3FA

/-- A field's own first clamp: the row's rule, and the rules that the rows alone do not give. -/
def ownClamp (f : FieldDef) (v : Int) : Int :=
  let n := v.toNat
  if f.id = 0x0201 then (((v % 1024).toNat ||| 0xE3 : Nat) : Int)
  else if f.id = 0x0B01 then v % 64
  else if f.id = 0x0608 then v
  else if f.id = 0x0308 && (v = 319 || v = 320) then 49300
  else if f.id = 0x0304 || f.id = 0x0305 then (if badV4 n then 0 else v)
  else if f.id = 0x0306 || f.id = 0x0307 then (if badV6 n then 0 else v)
  else if f.id = 0x0309 then (if n / 2 ^ 24 = 239 then v else 0)
  else if f.id = 0x030A then (if n / 2 ^ 112 = 0xFF05 || n / 2 ^ 112 = 0xFF08 then v else 0)
  else if f.id = 0x0606 && 0 < v && v < 1000000 then 0
  else if f.id = 0x0A06 then (if v = 8 || v = 10 || v = 12 then v else 8)
  else if f.id = 0x0D02 then ((2 ^ (clampInt 1 256 v).toNat.log2 : Nat) : Int)
  else if f.id = 0x0D07 && v < 1000 then 0
  else if f.id = 0x0D14 && v = 0 then 65536
  else if f.id = 0x0E02 then (((clampInt 1 255 v).toNat ||| 1 : Nat) : Int)
  else if f.lo ≤ v && v ≤ f.hi then v
  else match f.rule with
    | .nearest => clampInt f.lo f.hi v
    | .above w => if v < f.lo then f.lo else w
    | .orFF => if v < f.lo then f.lo else 255
    | .outside w => w

/-! ### Clamps that name other fields -/

/-- The time of an SSI frame and the monoflop after it, in µs, rounded up (0x0618, R263). -/
def ssiMinimum (r : Reading) (i : Nat) : Nat :=
  let bits := 1 + rdNat r Fld.position_ssi_bits i + rdNat r Fld.position_ssi_extra i +
    (if rdNat r Fld.position_ssi_parity i = 0 then 0 else 1)
  ceilDiv (1000 * bits) (rdNat r Fld.position_ssi_clock i) + rdNat r Fld.position_ssi_monoflop i

/-- The mode of an input is OFF. -/
def inputOff (r : Reading) (i : Nat) : Bool := rdNat r Fld.position_mode i = 0
/-- An input that cannot be a web master: OFF or without travel. -/
def noWebMaster (r : Reading) (i : Nat) : Bool := inputOff r i || rdNat r Fld.position_travel_per_rev i = 0

/-- The site types of a mosaic. -/
def mosaicTypes (m : Mosaic) : List Nat :=
  (List.range 5).filter fun t => (List.range m.height).any fun j => (List.range m.width).any fun i =>
    m.cells.getD (8 * j + i) 3 = t

/-- Every site type of a mosaic stands in every 3 × 3 window of the sensor (0x0A14). -/
def interpolable (m : Mosaic) : Bool :=
  (mosaicTypes m).all fun t => (List.range m.height).all fun y => (List.range m.width).all fun x =>
    (List.range 9).any fun k => m.cells.getD (8 * ((y + k / 3) % m.height) + (x + k % 3) % m.width) 3 = t

/-- The size of the stage that a camera's raw tap captures (0x0A1C, R388, R390). -/
def stageSize (r : Reading) (c : Nat) : Nat × Nat :=
  let w := rdNat r Fld.camera_width c
  let h := rdNat r Fld.camera_height c
  let m := r.cfg.mosaics.getD c clearMosaic
  if rdNat r Fld.camera_raw_tap_point c = 3 && rdNat r Fld.camera_reconstruct c = 0 then
    ((w + m.phaseX + m.width - 1) / max 1 m.width, (h + m.phaseY + m.height - 1) / max 1 m.height)
  else (w, h)

/-- The most that a rank's delay may be, by the head delays of the heads that use it (0x070A). -/
def rankLimit (r : Reading) (k : Nat) : Nat :=
  let link := k / 16
  let rank := k % 16
  ((r.cfg.heads.getD link []).zipIdx.filterMap fun h =>
    if h.1.rankBase ≤ rank && rank < h.1.rankBase + h.1.rankCount
    then some (62 - rdNat r Fld.firing_head_delay (32 * link + h.2)) else none).foldl min 62

/-- A claim of a camera on a timed output by its trigger (0x0A0E, 0x0A0F). -/
def triggerClaim (r : Reading) (c o : Nat) : Bool :=
  rdNat r Fld.camera_enable c = 1 && rdNat r Fld.camera_trigger_mode c = 1 && rdNat r Fld.camera_trigger_output c = o

/-- Element `i` of a field after its own clamp `v`, by the fields that its row names. -/
def clampMore (s : State) (r : Reading) (id i : Nat) (v : Int) : Int :=
  let n := v.toNat
  let low (w : Nat) : Int := min v w
  let high (w : Int) : Int := max v w
  if id = 0x0503 then (if (r.cfg.heads.getD i []).isEmpty then 0 else v)
  else if id = 0x0607 then (if 2 ≤ rdNat r Fld.position_mode i then 0 else v)
  else if id = 0x0608 then v % max 1 (rdInt r Fld.position_counts_per_rev i)
  else if id = 0x060A then low (rdNat r Fld.position_counts_per_rev i / 4)
  else if id = 0x0618 then high (ssiMinimum r i)
  else if id = 0x061A then (if n < 16 && noWebMaster r n then 255 else v)
  else if id = 0x0705 then high (rdNat r Fld.firing_head_pause i + 2)
  else if id = 0x070A then low (rankLimit r i)
  else if id = 0x0902 then low (60 - rdNat r Fld.memory_surface_gib 0)
  else if id = 0x0A14 then (if interpolable (r.cfg.mosaics.getD i clearMosaic) then v else 0)
  else if id = 0x0B1A then high (rdNat r Fld.calibration_dead_threshold 0 + 100)
  else if id = 0x0C01 then (if v = 2 && s.power.position = 0 then 0 else v)
  else if id = 0x0C03 then
    (if v = 0 && rdNat r (if rdNat r Fld.ptp_port 0 = 0 then Fld.network_p0_ipv4 else Fld.network_p1_ipv4) 0 = 0 then 2
     else v)
  else if id = 0x0D08 then high (rdNat r Fld.motion_decel i)
  else if id = 0x0D0A then low (rdNat r Fld.motion_run_current i)
  else if id = 0x0D12 then high (rdNat r Fld.motion_vbus_min i + 5000)
  else if id = 0x0D13 then (if n < 16 && inputOff r n then 255 else v)
  else if id = 0x0D19 then low (rdNat r Fld.motion_v_max i)
  else if id = 0x0D1A then low (rdNat r Fld.motion_home_speed i)
  else if id = 0x0F01 then
    (if rdNat r Fld.network_pair_group_v4 0 = 0 && rdNat r Fld.network_pair_group_v6 0 = 0 then 0 else v)
  else if id = 0x1002 then high (rdInt r Fld.thermal_throttle_lower 0 - 5)
  else if id = 0x1206 then (if rdNat r Fld.ring_enable 0 = 0 then 0 else v)
  else v

/-- Selections whose tile is dropped, undefined or of the wrong depth read as 0xFF; then, in order, one whose tile takes
the distinct selected tiles past 16 MiB (0x0821). -/
def clampSelect (tiles : List (Option Tile)) (l : List Int) : List Int :=
  let size (t : Nat) : Nat := match tiles.getD t none with
    | some x => 2 * x.width * x.height * x.levels
    | none => 0
  let fits (p : Int × Nat) : Bool := 0 ≤ p.1 && match tiles.getD p.1.toNat none with
    | some t => t.levels = if p.2 % 2 = 0 then 1 else 3
    | none => false
  (l.zipIdx.foldl (fun (a : List Int × List Nat) p =>
    if !fits p then (a.1 ++ [255], a.2)
    else if a.2.contains p.1.toNat then (a.1 ++ [p.1], a.2)
    else if 16777216 < ((p.1.toNat :: a.2).map size).sum then (a.1 ++ [255], a.2)
    else (a.1 ++ [p.1], p.1.toNat :: a.2)) ([], [])).1

/-- Each point of a tone target raised to the previous one of its bar (0x0B0E). -/
def clampTargets (l : List Int) : List Int :=
  l.zipIdx.map fun p => ((l.drop (p.2 / 9 * 9)).take (p.2 % 9 + 1)).foldl max p.1

/-- The windows of the raw taps clipped to their stages (0x0A1C). -/
def clampWindows (r : Reading) (l : List Int) : List Int :=
  l.zipIdx.map fun p =>
    let c := p.2 / 4
    let z := stageSize r c
    let e (k : Nat) : Nat := (l.getD (4 * c + k) 0).toNat
    let x := min (e 0) (z.1 - 1)
    let y := min (e 1) (z.2 - 1)
    if p.2 % 4 = 0 then (x : Int) else if p.2 % 4 = 1 then (y : Int)
    else if p.2 % 4 = 2 then ((min (e 2) (z.1 - x) : Nat) : Int) else ((min (e 3) (z.2 - y) : Nat) : Int)

/-- The strobe outputs; one that is already claimed reads as 0xFF (0x0A0F). -/
def clampStrobes (r : Reading) (l : List Int) : List Int :=
  l.zipIdx.map fun p =>
    if p.1 ≠ 255 && ((List.range 4).any (fun c => triggerClaim r c p.1.toNat) ||
        (List.range p.2).any fun c => rdNat r Fld.camera_enable c = 1 && l.getD c 0 = p.1) then 255 else p.1

/-- The values of a numeric field after its clamps. -/
def clampedField (s : State) (f : FieldDef) (r : Reading) : List Int :=
  let l := (cfgLookup r.cfg.num f.id).map (ownClamp f)
  let m := l.zipIdx.map fun p => clampMore s r f.id p.2 p.1
  if f.id = 0x0821 then clampSelect r.cfg.tiles m
  else if f.id = 0x0B0E then clampTargets m
  else if f.id = 0x0A0F then clampStrobes r m
  else if f.id = 0x0A1C then clampWindows r m
  else m

/-! ### Rules that set other fields (R530, R537) -/

/-- The domains that are to be on: those that power.domain_enable leaves on and R555 does not hold. -/
def domainMask (s : State) (r : Reading) : Nat → Bool :=
  fun d => (rdNat r Fld.power_domain_enable 0).testBit d && !s.power.domainsHeld.contains d

/-- *Table: Power domain effects*. -/
def domainEffects (s : State) (r : Reading) : Reading :=
  let off := fun d => !domainMask s r d
  let zero (id : Nat) (q : Reading) : Reading := setField id ((cfgLookup q.cfg.num id).map fun _ => 0) 5 0x0201 q
  let links (lo : Nat) (q : Reading) : Reading := setField Fld.heads_link_enable
    ((cfgLookup q.cfg.num Fld.heads_link_enable).zipIdx.map fun p => if lo ≤ p.2 && p.2 < lo + 8 then 0 else p.1) 5 0x0201 q
  let r2 := if off 2 then zero Fld.redundancy_pair_enable (zero Fld.ring_enable r) else r
  let r3 := if off 3 then links 0 r2 else r2
  let r4 := if off 4 then links 8 r3 else r3
  let r5 := if off 8 then zero Fld.calibration_enable (zero Fld.camera_enable r4) else r4
  if off 9 then zero Fld.motion_enable r5 else r5

/-- A camera whose source has no travel is disabled (0x0A08). -/
def cameraSources (r : Reading) : Reading :=
  setField Fld.camera_enable ((cfgLookup r.cfg.num Fld.camera_enable).zipIdx.map fun p =>
    if rdNat r Fld.position_travel_per_rev (rdNat r Fld.camera_source p.2) = 0 then 0 else p.1) 5 0x0A08 r

/-- A trigger output that an earlier camera has claimed sets trigger_mode to 0 (0x0A0E). -/
def cameraTriggers (r : Reading) : Reading :=
  (List.range 4).foldl (fun q c =>
    if triggerClaim q c (rdNat q Fld.camera_trigger_output c) &&
        (List.range c).any (fun e => triggerClaim q e (rdNat q Fld.camera_trigger_output c))
    then setElement Fld.camera_trigger_mode c 0 5 0x0A0E q else q) r

/-- What a numeric field sets of other fields, once its own clamp has run. -/
def fieldEffects (s : State) (id : Nat) (r : Reading) : Reading :=
  if id = 0x0201 then domainEffects s r
  else if id = 0x0A08 then cameraSources r
  else if id = 0x0A0E then cameraTriggers r
  else if id = 0x0E06 then
    (if rdNat r Fld.position_travel_per_rev (rdNat r Fld.ring_origin_input 0) = 0
     then setField Fld.ring_group [0] 5 0x0E06 r else r)
  else r

/-! ### Fields of type 2 -/

/-- Whether a head may follow the heads kept so far, the newest first (R179, 0x0501). Of two heads with the same first
file the second does not fit: the spec does not say whether such heads are in ascending order (R192; DESIGN CHOICE, log
entry 95). -/
def headFits (link : Nat) (kept : List Head) (h : Head) : Bool :=
  let lo := 53248 * (link % 2)
  let last := h.firstFile + h.nozzles
  kept.length < 32 && 64 ≤ h.nozzles && h.nozzles ≤ 8192 && 1 ≤ h.rankCount && h.rankCount ≤ 16 &&
    h.rankBase + h.rankCount ≤ 16 && lo ≤ h.firstFile && last ≤ lo + 53248 &&
    (kept.map fun k => k.nozzles).sum + h.nozzles ≤ 53248 &&
    (match kept with
     | [] => true
     | p :: rest => p.firstFile < h.firstFile && min (p.firstFile + p.nozzles) last ≤ h.firstFile + 1024 &&
        rest.all fun q => q.firstFile + q.nozzles ≤ h.firstFile)

/-- The heads of a link up to the first one that breaks a rule. -/
def keepHeads (link : Nat) : List Head → List Head → List Head
  | _, [] => []
  | kept, h :: l => if headFits link kept h then h :: keepHeads link (h :: kept) l else []

/-- Entries of a list field that lost some, each as DROPPED. -/
def droppedEntries {α : Type} (id : Nat) (bytes : α → List Byte) (old new : List (List α)) : List ClampEntry :=
  (List.range old.length).filterMap fun k =>
    let a := old.getD k []
    let b := new.getD k []
    if a.length = b.length then none
    else some ⟨id, k, 4, 0, crc32c (a.flatMap bytes), crc32c (b.flatMap bytes)⟩

def clampHeads (r : Reading) : Reading :=
  let new := r.cfg.heads.zipIdx.map fun p => keepHeads p.2 [] p.1
  addEntries (droppedEntries 0x0501 headBytes r.cfg.heads new) { r with cfg := { r.cfg with heads := new } }

def clampDead (r : Reading) : Reading :=
  let slots (k : Nat) : Nat := ((r.cfg.heads.getD k []).map fun h => h.nozzles).sum
  let new := r.cfg.knownDead.zipIdx.map fun p => (p.1.filter fun n => n < slots p.2).take 256
  addEntries (droppedEntries 0x0502 (leBytes 2) r.cfg.knownDead new) { r with cfg := { r.cfg with knownDead := new } }

/-- A tile with threshold 0 read as 1 and the thresholds of each cell in ascending order (0x0820). -/
def cleanTile (t : Tile) : Tile :=
  let c := t.cells.map fun x => max 1 x
  { t with cells := if t.levels = 3 then (pieces 3 c).flatMap fun l => inOrder (· ≤ ·) l else c }

def tileOk (t : Tile) : Bool := 1 ≤ t.width && t.width ≤ 1024 && 1 ≤ t.height && t.height ≤ 1024 && (t.levels = 1 || t.levels = 3)

def clampTiles (r : Reading) : Reading :=
  let new := r.cfg.tiles.map fun t => t.bind fun x => if tileOk x then some (cleanTile x) else none
  let es := r.cfg.tiles.zipIdx.filterMap fun p => p.1.bind fun x =>
    if !tileOk x then some (⟨0x0820, p.2, 4, 0, crc32c (tileBytes x), crc32c []⟩ : ClampEntry)
    else if cleanTile x ≠ x then some ⟨0x0820, p.2, 0, 0, crc32c (tileBytes x), crc32c (tileBytes (cleanTile x))⟩
    else none
  addEntries es { r with cfg := { r.cfg with tiles := new } }

/-- Entries of a list whose elements changed, each as CLAMPED. -/
def changedEntries {α : Type} [DecidableEq α] (id : Nat) (bytes : α → List Byte) (old new : List α) : List ClampEntry :=
  (old.zip new).zipIdx.filterMap fun p =>
    if p.1.1 = p.1.2 then none else some ⟨id, p.2, 0, 0, crc32c (bytes p.1.1), crc32c (bytes p.1.2)⟩

/-- A mosaic of 1 to 8 by 1 to 8, phases modulo its size, codes above 4 as CLEAR (0x0A13). -/
def cleanMosaic (m : Mosaic) : Mosaic :=
  if 1 ≤ m.width && m.width ≤ 8 && 1 ≤ m.height && m.height ≤ 8 then
    { m with phaseX := m.phaseX % m.width, phaseY := m.phaseY % m.height
             cells := m.cells.map fun c => if 4 < c then 3 else c }
  else clearMosaic

def clampMosaics (r : Reading) : Reading :=
  let new := r.cfg.mosaics.map cleanMosaic
  addEntries (changedEntries 0x0A13 mosaicBytes r.cfg.mosaics new) { r with cfg := { r.cfg with mosaics := new } }

/-- A bar name without its invalid part; an empty one is the default (0x0401). -/
def cleanName (b : Nat) (l : List Byte) : List Byte :=
  let c := cleanString l
  if c.getD 0 0 = 0 then defaultBarName b else c

def clampNames (r : Reading) : Reading :=
  let new := r.cfg.barNames.zipIdx.map fun p => cleanName p.2 p.1
  addEntries (changedEntries 0x0401 id r.cfg.barNames new) { r with cfg := { r.cfg with barNames := new } }

def clampPressName (r : Reading) : Reading :=
  let new := cleanString r.cfg.pressName
  addEntries (changedEntries 0x0102 id [r.cfg.pressName] [new]) { r with cfg := { r.cfg with pressName := new } }

/-- An all-zero key where authentication is asked for is reported (0x1203). -/
def noteKey (r : Reading) : Reading :=
  if 1 ≤ rdNat r Fld.security_dpt_auth 0 && r.cfg.dptKey.all (· = 0) then
    addEntry 0x1203 0 0 0 (crc32c r.cfg.dptKey) (crc32c r.cfg.dptKey) r else r

def clampConfigKey (r : Reading) : Reading :=
  let new := if (ecPoint r.cfg.configKey).isSome then r.cfg.configKey else []
  addEntries (changedEntries 0x1204 id [r.cfg.configKey] [new]) { r with cfg := { r.cfg with configKey := new } }

/-! ### Phase 4 -/

/-- The entry of R536, where the image expects another node. -/
def noteNode (s : State) (r : Reading) : Reading :=
  let e := rdNat r Fld.identity_expected_node 0
  if e ≠ 255 && e ≠ nodeNumber s then addEntry 0x0103 0 0 0 e (nodeNumber s) r else r

/-- The clamp of a numeric field, and what it sets of others. A raw tap window that is absent is the whole frame, and
following the frame's size is no departure. -/
def clampNumeric (s : State) (f : FieldDef) (r : Reading) : Reading :=
  let v := clampedField s f r
  let r1 := if f.id = 0x0A1C && !r.seen.contains f.id then { r with cfg := cfgSetAll r.cfg f.id v }
            else setField f.id v 0 0 r
  let r2 := if f.id = 0x0103 then noteNode s r1 else r1
  fieldEffects s f.id r2

/-- The clamp rules of the fields of one section, those of type 2 in their places. -/
def clampSection (s : State) (l : List FieldDef) (r : Reading) : Reading := l.foldl (fun q f => clampNumeric s f q) r

/-- Every clamp rule in ascending field ID (R528 phase 4). -/
def clampAll (s : State) (r : Reading) : Reading :=
  let a := clampSection s fieldTable01 (clampPressName r)
  let b := clampNames (clampSection s (fieldTable02 ++ fieldTable03) a)
  let c := clampDead (clampHeads (clampSection s fieldTable04 b))
  let d := clampSection s (fieldTable05 ++ fieldTable06 ++ fieldTable07 ++ (fieldTable08.filter fun f => f.id < 0x0820)) c
  let e := clampSection s ((fieldTable08.filter fun f => 0x0820 ≤ f.id) ++ fieldTable09 ++
    (fieldTable0A.filter fun f => f.id < 0x0A13)) (clampTiles d)
  let f := clampSection s ((fieldTable0A.filter fun f => 0x0A13 ≤ f.id) ++ fieldTable0B ++ fieldTable0C ++ fieldTable0D ++
    fieldTable0E ++ fieldTable0F ++ fieldTable10 ++ fieldTable11 ++ (fieldTable12.filter fun f => f.id < 0x1203)) (clampMosaics e)
  clampSection s (fieldTable12.filter fun f => 0x1203 ≤ f.id) (clampConfigKey (noteKey f))

/-- Straps that fail their parity turn the ring and the pair off (R566). -/
def strapEffects (s : State) (r : Reading) : Reading :=
  if s.power.strapValid then r
  else setField Fld.redundancy_pair_enable [0] 5 0 (setField Fld.ring_enable [0] 5 0 r)

/-- A group member at position 1 to 3 follows the ring's time (R627). -/
def groupTime (s : State) (r : Reading) : Reading :=
  if 1 ≤ s.power.position && rdNat r Fld.ring_group 0 = 1 then setField Fld.timebase_source [2] 5 0x0E03 r else r

/-- *Table: Fixed settings* of compatibility mode (R613). -/
def fixedSettings (r : Reading) : Reading :=
  let odd := (cfgLookup r.cfg.num Fld.heads_link_enable).zipIdx.map fun p => if p.2 % 2 = 1 then 0 else p.1
  let heads := r.cfg.heads.zipIdx.map fun p => if p.2 % 2 = 1 then [] else p.1
  let r1 := setField Fld.heads_link_enable odd 5 0x1100 r
  let r2 := addEntries (droppedEntries 0x0501 headBytes r1.cfg.heads heads) { r1 with cfg := { r1.cfg with heads := heads } }
  setField Fld.calibration_accept_mode [1] 5 0x1100 (setField Fld.position_extrapolate [0] 5 0x1100 r2)

/-- An entry whose field ends at the value given or supplied is none (R533); the entries of R536 and of a zero key stand. -/
def departs (r : Reading) (e : ClampEntry) : Bool :=
  let l := cfgLookup r.cfg.num e.field
  !((e.action = 0 || e.action = 5) && e.field ≠ 0x0103 && !l.isEmpty &&
    (if e.element = 0xFFFF then l.all (fun v => shownOf e.field v = e.given)
     else shownOf e.field (l.getD e.element 0) = e.given))

/-- Phases 3 and 4 on the records read, with the fixed settings of compatibility mode where they apply (R528, R612). -/
def finishReading (s : State) (compat : Bool) (r : Reading) : Reading :=
  let r1 := clampAll s (strapEffects s r)
  let r2 := groupTime s r1
  let r3 := if compat then fixedSettings r2 else r2
  { r3 with report := r3.report.filter (departs r3) }

end Sys2Proof.Machine
end

