-- ==== Sys2Proof/Machine/ConfigRead.lean ====
section
/-! DEFINITION. CONFIG: the configuration image chosen, read and put in force (18_configuration_image.md, R520 to R545;
22_0824_compatibility.md, R610 to R613; 19_power_and_start.md, R553; 21_firmware_update.md, R594; 13_calibration_loop.md,
R418). -/
namespace Sys2Proof.Machine
open Sys2Proof

/-! ### The L3 payload (R611, R612) -/

/-- The head lists of the legacy block; none where they do not end inside it. -/
def readHeadLists : Nat → List Byte → Option (List (List Head))
  | 0, _ => some []
  | n + 1, b =>
    let k := fld b 0 2
    if b.length < 2 + 12 * k then none
    else (readHeadLists n (b.drop (2 + 12 * k))).map fun l =>
      ((List.range k).map fun i => readHead ((b.drop (2 + 12 * i)).take 12)) :: l

/-- The legacy block of a payload, its head lists and its extension records (R612 phase 1). -/
def readLegacy (p : List Byte) : Option (List Byte × List (List Head) × List Record) :=
  let len := fld p 0 4
  let ext := fld p 4 4
  if 1024 ≤ len && len ≤ 1048576 && len ≤ p.length then
    match readHeadLists 8 ((p.take len).drop 128),
        (if ext = 0 then some [] else if ext < len then none else readDirectory p ext) with
    | some h, some l => some (p.take len, h, l)
    | _, _ => none
  else none

/-- A field that the legacy block sets: to one value for all, or element by element. -/
def legacyField (id : Nat) (one : Bool) (v : List Int) (r : Reading) : Reading :=
  let c := cfgSetAll r.cfg id v
  { r with cfg := c, given := c, seen := id :: r.seen, single := if one then r.single else r.single.filter fun k => k ≠ id }

/-- The native fields of *Table: L3 parameter block*. -/
def legacyReading (b : List Byte) (heads : List (List Head)) : Reading :=
  let u8 (o : Nat) : Int := (fld b o 1 : Nat)
  let one (o : Nat) (n : Nat) : List Int := List.replicate 8 ((fld b o n : Nat) : Int)
  let enable := (List.range 16).map fun k => if k % 2 = 0 && (fld b 8 1).testBit (k / 2) then 1 else 0
  let policy := (List.replicate 16 (0 : Int)).set (fld b 9 1) (u8 10)
  let r1 := legacyField Fld.heads_link_enable false enable emptyReading
  let r2 := legacyField Fld.position_bar_input true (one 9 1) r1
  let r3 := legacyField Fld.position_fault_policy false policy r2
  let r4 := legacyField Fld.geometry_bar_offset false ((List.range 8).map fun i => (1000 * fld b (12 + 4 * i) 4 : Nat)) r3
  let r5 := legacyField Fld.compat_encoder_divider false ((List.range 16).map fun i => (fld b (44 + 2 * i) 2 : Nat)) r4
  let r6 := legacyField Fld.compat_go_delay true [((fld b 76 2 : Nat) : Int)] r5
  let r7 := legacyField Fld.firing_head_pause true (one 78 1) r6
  let r8 := legacyField Fld.firing_head_limit true (one 79 1) r7
  let r9 := legacyField Fld.firing_min_interval true (one 80 4) r8
  let c := { r9.cfg with heads := (List.range 16).map fun k => if k % 2 = 0 then heads.getD (k / 2) [] else [] }
  { r9 with cfg := c, given := c, seen := 0x0501 :: r9.seen }

/-! ### One image (R528, R539) -/

/-- The payload's structure is that of its format (R520, R527, R611, R612); F3 and F4 payloads are migration's alone. -/
def structureOk (s : State) (img : List Byte) : Bool :=
  if imgFormat img = 5 then (readDirectory (img.drop 256) 0).isSome
  else if imgFormat img = 0x13 then s.update.formats.testBit 3 && (readLegacy (img.drop 256)).isSome
  else true

/-- Phases 2 to 4 on an F5 or L3 image; of a migrated copy, the fields that it lacks are reported (R528, R545, R612). -/
def readConfig (s : State) (migrated : Bool) (img : List Byte) : Reading :=
  if imgFormat img = 0x13 then
    match readLegacy (img.drop 256) with
    | some (b, h, l) => finishReading s true (reportDefaults (readRecords l (legacyReading b h)))
    | none => finishReading s true emptyReading
  else
    let r := readRecords ((readDirectory (img.drop 256) 0).getD []) emptyReading
    finishReading s false (if migrated then reportDefaults r else r)

/-! ### Migration (R543, R544) -/

/-- The header of a migrated copy. -/
def migratedHeader (src payload : List Byte) : List Byte :=
  let h := src.take 5 ++ leBytes 1 5 ++ (src.drop 6).take 2 ++ leBytes 4 (256 + payload.length) ++ (src.drop 12).take 52 ++
    sha384 payload ++ leBytes 4 0 ++ (sha384 src).take 32 ++ leBytes 8 0
  h ++ leBytes 4 (crc32c h) ++ List.replicate 96 0

/-- An image in an older native format. -/
def olderFormat (img : List Byte) : Bool := imgFormat img = 3 || imgFormat img = 4

/-- The F5 copy of an older image, or the first field that fails; a format that the bundle does not read fails without
one (R544). -/
def migrateImage (s : State) (img : List Byte) : Except Nat (List Byte) :=
  if !s.update.formats.testBit (imgFormat img - 3) then .error 0
  else match Config.migration s.update.digest img with
    | .error f => .error (f % 65536)
    | .ok p => if (readDirectory p 0).isSome then .ok (migratedHeader img p ++ p) else .error 0

/-! ### The areas (R520, R521) -/

/-- What an area's seal is. -/
def sealOf (img : List Byte) (seq : Nat) : Nat := crc32c (img ++ leBytes 4 seq)

/-- An area holding an image under a sequence number. -/
def sealed (img : List Byte) (seq : Nat) : Area := { image := img, seq := seq, crc := sealOf img seq }

def areaOf18 (s : State) (k : Nat) : Option Area := s.flash.areas.getD k none

/-- Why an area does not pass: 0 seal, 1 header, 2 digest, 3 structure (R520). -/
def areaFault (s : State) (k : Nat) : Option Nat :=
  match areaOf18 s k with
  | none => some 0
  | some a =>
    let b := a.image
    if a.crc ≠ sealOf b a.seq then some 0
    else if !(imgHeaderOk 1 b && configFormat (imgFormat b) && 1024 ≤ imgLength b && imgLength b ≤ maxConfigImage &&
        imgLength b = b.length && steppingOk (fld b 12 4)) then some 1
    else if !payloadDigestOk b then some 2
    else if !structureOk s b then some 3
    else none

/-- The copy in use of C0 and C1: the passing one with the higher sequence number. -/
def installedCopy (s : State) : Option (Nat × Area) :=
  match areaFault s 0, areaFault s 1, areaOf18 s 0, areaOf18 s 1 with
  | none, none, some a, some b => some (if seqAfter b.seq a.seq then (1, b) else (0, a))
  | none, _, some a, _ => some (0, a)
  | _, none, _, some b => some (1, b)
  | _, _, _, _ => none

/-- The other copy is to be written over (R521). -/
def copiesDiffer (s : State) : Bool :=
  (areaFault s 0).isSome || (areaFault s 1).isSome || areaOf18 s 0 ≠ areaOf18 s 1

/-- The migrated copy that matches an installed image, if one passes (R543). -/
def migratedCopy (s : State) (img : List Byte) : Option (Nat × List Byte) :=
  ([2, 3].find? fun k => (areaFault s k).isNone && match areaOf18 s k with
    | some a => imgFormat a.image = 5 && (a.image.drop 116).take 32 = (sha384 img).take 32
    | none => false).map fun k => (k, match areaOf18 s k with
    | some a => a.image
    | none => [])

def setArea (k : Nat) (a : Option Area) (s : State) : State :=
  { s with flash := { s.flash with areas := s.flash.areas.set k a } }

/-! ### The outcomes of CONFIG -/

/-- Migration has failed: the slot is REJECTED, the other one selected and confirmed, and the module goes back to BOOT
(R545). -/
def migrationFailed (format field : Nat) (s : State) : State :=
  let n := s.update.runningSlot
  let s1 := raise 0x0F23 (leBytes 1 0 ++ leBytes 1 format ++ leBytes 2 field) s
  let s2 := writeBoot (otherSlot n) n 0 true (markSlot n 5 s1)
  enterBoot 4 (if s.update.trial then atNextStart 0x0F33 (leBytes 1 (otherSlot n)) s2 else s2)

/-- The domain of a helper: link sequencer, motion sequencer, camera and calibration sequencers. -/
def helperDomain (kind : Nat) : Nat := if kind = 0x12 then 6 else if kind = 0x13 then 9 else 8

/-- The first helper, among those whose domain is on, whose digest is not the manifest's (R594). -/
def badHelper (s : State) (on : Nat → Bool) : Option Nat :=
  let b := slotBytes s s.update.runningSlot
  ((List.range (componentCount b)).find? fun k =>
    (component b k).1 ≠ 0x11 && on (helperDomain (component b k).1) &&
      sha384 (componentBytes b k) ≠ (component b k).2.2.2).map fun k => (component b k).1

/-- A helper does not match its manifest: the slot is REJECTED, the other one selected, and the watchdog is serviced no
more (R594). -/
def helperMismatch (kind : Nat) (s : State) : State :=
  let n := s.update.runningSlot
  let s1 := writeBoot (otherSlot n) n 0 true (markSlot n 5 s)
  atNextStart 0x0F34 (leBytes 1 n ++ leBytes 1 kind) { s1 with mod := { s1.mod with watchdogStopped := true } }

/-- The valid copy of the calibration store with the higher sequence number is loaded (R418). -/
def loadStore (s : State) : State :=
  let c := copyInForce (fun x => x.seq) (s.flash.calStore.map validStore)
  match c with
  | some x => { s with cal := { s.cal with values := x.values, storeSeq := x.seq, changed := false } }
  | none => { s with cal := { s.cal with values := {}, storeSeq := 0, changed := false } }

/-- The motion parameters of an axis as the configuration gives them (R448). -/
def configParams (c : Cfg) (a : Nat) : Params :=
  { vMax := cfgNat c Fld.motion_v_max a, accel := cfgNat c Fld.motion_accel a, decel := cfgNat c Fld.motion_decel a
    jerk := cfgNat c Fld.motion_jerk a, jerkLimited := cfgNat c Fld.motion_jerk a ≠ 0 }

/-- The domains in the order of *Table: Power domains*, those that stay off left out (R553). -/
def switchedOn (s : State) (c : Cfg) : List Nat :=
  [0, 1, 7, 5, 6, 2, 3, 4, 8, 9].filter fun d =>
    (cfgNat c Fld.power_domain_enable 0).testBit d && !s.power.domainsHeld.contains d

/-- Events that the reading raises on entering IDLE: CONFIG_LOADED, CONFIG_NODE_MISMATCH, BAR_WITHOUT_POSITION (R534, R536,
0x061A). -/
def loadEvents (s : State) (area format seq : Nat) (r : Reading) : List (Nat × List Byte) :=
  let e := rdNat r Fld.identity_expected_node 0
  (0x0F20, leBytes 1 area ++ leBytes 1 format ++ leBytes 4 seq ++ leBytes 4 r.report.length) ::
  (if e ≠ 255 && e ≠ nodeNumber s then [(0x0F24, leBytes 1 e ++ leBytes 1 (nodeNumber s))] else []) ++
  ((List.range 8).filter fun b => rdNat r Fld.position_bar_input b = 255 && cfgNat r.given Fld.position_bar_input b ≠ 255).map
    fun b => (0x0617, leBytes 1 b)

/-- The lanes of a partner port in use train (R504). -/
def trainPartner (c : Cfg) (s : State) : State :=
  if cfgNat c Fld.redundancy_pair_enable 0 = 0 then s else emit (.portTraining 1 (portTraining 4 0xD0)) s

/-- The configuration comes in force; every domain that it leaves on is switched on (R522, R531, R534, R553, R610). -/
def putInForce (area : Nat) (migrated : Bool) (src : Area) (r : Reading) (s : State) : State :=
  let c := r.cfg
  let fmt := imgFormat src.image
  let s1 := loadStore (trainPartner c { s with
    conf := { s.conf with
      cfg := c, inForce := true, area := area, migrated := migrated, pending := false, format := fmt, sequence := src.seq
      digest := sha384 src.image, report := r.report.take 1024, entries := min 65535 r.report.length
      atIdle := loadEvents s area fmt src.seq r, copyDue := copiesDiffer s }
    mod := { s.mod with compat := fmt = 0x13, defaultAddress := false }
    power := { s.power with domainsOn := switchedOn s c }
    axes := s.axes.zipIdx.map fun p => { p.1 with shadow := configParams c p.2, latched := configParams c p.2 }
    pos := { s.pos with inputs := s.pos.inputs.map fun x => { x with ssiPrev := none } }
    pair := if cfgNat c Fld.redundancy_pair_enable 0 = 0 then { s.pair with state := .solo, epoch := 0 }
            else { s.pair with state := .catchup } })
  if cfgNat c Fld.timebase_source 0 = 0 && s1.pair.state = .solo then freeTime s1 else s1

/-- Entry into TRAIN: the links train, and the enabled cameras are discovered (R20, R24, R363). -/
def enterTrain (s : State) : State :=
  let s1 := bringUpLinks (setModState .train 3 s)
  { s1 with cams := s1.cams.zipIdx.map fun p =>
      if cfgN s1 Fld.camera_enable p.2 = 1 && domainOn s1 8 then { p.1 with state := .discovery, failures := 0 } else p.1 }

/-- The chosen image is read and its helpers are loaded. -/
def takeConfig (area : Nat) (migrated : Bool) (src : Area) (img : List Byte) (s : State) : State :=
  let r := readConfig s migrated img
  match badHelper s fun d => (switchedOn s r.cfg).contains d with
  | some k => helperMismatch k s
  | none => enterTrain (putInForce area migrated src r s)

/-- CONFIG_READ (R528): the configuration is read, checked, clamped and, where needed, migrated; TRAIN, MAINTENANCE or BOOT
follows (R20). -/
def execConfigRead (t : Nat) (s : State) : Host.Outcome State Fault Refusal :=
  let s1 := beginAt t s
  .next (
    if s1.mod.state ≠ .config || s1.mod.watchdogStopped then s1
    else
      let s2 := forEach [0, 1] (fun k s => match areaFault s k with
        | some f => raise 0x0F21 (leBytes 1 k ++ leBytes 1 f) s
        | none => s) s1
      match installedCopy s2 with
      | none => enterMaintenance 5 s2
      | some (k, a) =>
        if !olderFormat a.image then takeConfig k false a a.image s2
        else match migratedCopy s2 a.image with
          | some (m, img) => takeConfig m true a img s2
          | none => match migrateImage s2 a.image with
            | .error f => migrationFailed (imgFormat a.image) f s2
            | .ok img =>
              let s3 := setArea 3 (some (sealed img a.seq)) (setArea 2 (some (sealed img a.seq)) s2)
              let n := ((readConfig s3 true img).report.filter fun e => e.action = 6).length
              takeConfig 2 true a img (raise 0x0F22 (leBytes 1 0 ++ leBytes 1 (imgFormat a.image) ++ leBytes 4 n) s3))

end Sys2Proof.Machine
end

