-- ==== Sys2Proof/Machine/Screen.lean ====
section
/-! DEFINITION. Screening one line of one bar (06_screening_and_nozzle_map.md): levels, en passant, stitch zones, and the
groups that the lanes carry. -/
namespace Sys2Proof.Machine
open Sys2Proof

/-- The dispersed-dot order of the built-in tile at row i, column j (R172). -/
def bayer (i j : Nat) : Nat :=
  (List.range 4).foldl (fun b k => b * 4 + (((i ^^^ j) >>> k) % 2) * 2 + (i >>> k) % 2) 0

/-- Threshold `l` of the built-in tile (R172). -/
def builtinThreshold (d i j l : Nat) : Nat :=
  if d = 1 then 256 * bayer i j + 128 else ((l - 1) * 256 + bayer i j + 1) * 65536 / 769

/-- The tile a bar selects for a resolution code and a drop depth, none for the built-in tile (R171, R172). -/
def selectedTile (c : Cfg) (b lpi d : Nat) : Option Tile :=
  let i := cfgNat c Fld.screen_select (6 * b + 2 * lpi + d - 1)
  if i < 16 then (c.tiles.getD i none) else none

/-- Threshold `l` at file x and page line y of bar b (R172, R173). -/
def threshold (c : Cfg) (b lpi d x y l : Nat) : Nat :=
  let ox := cfgNat c Fld.screen_origin_x b
  let oy := cfgNat c Fld.screen_origin_y b
  match selectedTile c b lpi d with
  | none => builtinThreshold d ((y + oy) % 16) ((x + ox) % 16) l
  | some t => t.cells.getD ((((y + oy) % t.height) * t.width + (x + ox) % t.width) * t.levels + l - 1) 0

/-- The levels of a drop depth: 1 for 1-bit, 3 for 2-bit output. -/
def levelCount (d : Nat) : Nat := if d = 1 then 1 else 3

/-- The density tap of a file (R174). -/
def tapOf (taps : List (Nat × Int)) (x : Nat) : Int := ((taps.find? fun p => p.1 = x).map (·.2)).getD 0

/-- The drop level of file x for value v (R174). -/
def levelAt (c : Cfg) (b lpi d y : Nat) (taps : List (Nat × Int)) (x v : Nat) : Nat :=
  (List.range (levelCount d)).foldl (fun lev i =>
    if min 65536 (max 1 ((threshold c b lpi d x y (i + 1) : Int) - tapOf taps x * 256)) ≤ (v : Int) then i + 1
    else lev) 0

/-- The place of file x among the screened files of a line, given as segments (first file, values). -/
def segIndex : List (Nat × List Nat) → Nat → Nat → Option Nat
  | [], _, _ => none
  | (a, l) :: r, x, base => if a ≤ x && x < a + l.length then some (base + (x - a)) else segIndex r x (base + l.length)

/-- What en passant keeps while it goes through the dead files: working levels, levels handed on, levels lost, dead
files left unresolved, the lowest of them (R183, R184). -/
abbrev EpState := Array Nat × Nat × Nat × Nat × Option Nat

/-- `give` of R183: adds a level to the file at place `i`. -/
def epGive (maxLevel i n : Nat) (st : EpState) : EpState :=
  let sum := st.1.getD i 0 + n
  (st.1.setIfInBounds i (min maxLevel sum), st.2.1 + n, st.2.2.1 + (sum - min maxLevel sum), st.2.2.2)

/-- The places of the live files at `d` ± r: on the first side, on the other (R183). -/
def epSides (live : Int → Option Nat) (x : Nat) (first : Int) (r : Nat) : Option Nat × Option Nat :=
  (live ((x : Int) + first * (r : Int)), live ((x : Int) - first * (r : Int)))

/-- The handing on of one dead file's level q (R183). -/
def epFile (mode reach maxLevel : Nat) (first : Int) (live : Int → Option Nat) (Ls : Array Nat) (st : EpState)
    (x i : Nat) : EpState :=
  let q := Ls.getD i 0
  let st0 : EpState := (st.1.setIfInBounds i 0, st.2)
  if q = 0 || mode = 0 then st0
  else
    match ((List.range reach).map fun r => epSides live x first (r + 1)).find? fun p => p.1.isSome || p.2.isSome with
    | none => (st0.1, st0.2.1, st0.2.2.1, st0.2.2.2.1 + 1, some (min x (st0.2.2.2.2.getD x)))
    | some (A, B) =>
      let split := mode = 2 && maxLevel ≠ 1
      let a := if split then (q + 1) / 2 else q
      let cc := if split then q / 2 else 0
      match A, B with
      | some i, none => epGive maxLevel i (a + cc) st0
      | none, some j => epGive maxLevel j (a + cc) st0
      | some i, some j => epGive maxLevel j cc (epGive maxLevel i a st0)
      | none, none => st0

/-- Which nozzle of a stitch zone fires file x at page line y: the slot, and whether a dead nozzle reversed the choice
(R185). -/
def stitchChoice (hard : Bool) (z n x y : Nat) (deadLower deadUpper : Bool) : Bool × Bool :=
  let i := x - z
  let u0 := if hard then n / 2 ≤ i else (x * 181 + y * 97) % 256 < ((i + 1) * 256) / (n + 1)
  let u1 := if u0 && deadUpper then false else u0
  let u2 := if !u1 && deadLower then true else u1
  (u2, (u2 != u0) && !(deadLower && deadUpper))

/-- The slots of a link that file x fires at level v: (slot, level), and whether the choice was reversed (R181, R182,
R185). -/
def fileToSlots (c : Cfg) (b k : Nat) (dead : List (List Nat)) (y x v : Nat) : List (Nat × Nat) × Bool :=
  match fileSlots c k x with
  | [] => ([], false)
  | [sl] => ([(sl, if slotDead c dead k sl then 0 else v)], false)
  | lo :: hi :: _ =>
    match (stitchZones (headsOf c k)).find? fun z => z.1 ≤ x && x < z.1 + z.2 with
    | none => ([(lo, if slotDead c dead k lo then 0 else v)], false)
    | some (z, n) =>
      let r := stitchChoice (cfgNat c Fld.screen_stitch_mode b = 0) z n x y (slotDead c dead k lo) (slotDead c dead k hi)
      ([(if r.1 then hi else lo, v)], r.2)

/-- What screening a line of a bar gives: slot levels of its two links, levels handed on, lost, unresolved files, the
lowest of them, choices reversed. -/
structure ScreenOut where
  slots : List (List (Nat × Nat))
  drops : Nat
  lost : Nat
  unresolved : Nat
  lowest : Option Nat
  forced : Nat

/-- Screening of one line of bar b through steps 2 to 5 of *Table: Screening steps*; `segs` are the screened files with
their contone values, in ascending file (R168). -/
def screenLine (c : Cfg) (b lpi d y : Nat) (taps : List (Nat × Int)) (dead : List (List Nat))
    (segs : List (Nat × List Nat)) : ScreenOut :=
  let files := segs.flatMap fun p => p.2.zipIdx.map fun q => (p.1 + q.2, q.1)
  let ls := (files.map fun p => levelAt c b lpi d y taps p.1 p.2).toArray
  let idx (x : Nat) := segIndex segs x 0
  let live (x : Int) : Option Nat := if 0 ≤ x && fileAlive c dead b x.toNat then idx x.toNat else none
  let first : Int := if y % 2 = 0 then -1 else 1
  let ep := (deadFiles c dead b).foldl (fun st x => match idx x with
      | none => st
      | some i => epFile (cfgNat c Fld.screen_ep_mode b) (cfgNat c Fld.screen_ep_reach 0) (levelCount d) first live ls st x i)
    ((ls, 0, 0, 0, none) : EpState)
  let done := files.zipIdx.map fun p =>
    (fileLink b p.1.1, fileToSlots c b (fileLink b p.1.1) dead y p.1.1 (ep.1.getD p.2 0))
  { slots := [2 * b, 2 * b + 1].map fun k => (done.filter fun p => p.1 = k).flatMap fun p => p.2.1
    drops := ep.2.1, lost := ep.2.2.1, unresolved := ep.2.2.2.1, lowest := ep.2.2.2.2
    forced := (done.filter fun p => p.2.2).length }

/-- The levels of a span's slots, slot 64 g first at place 0 for the span's first group g. -/
def spanLevels (span : Nat × Nat) (slots : List (Nat × Nat)) : Array Nat :=
  slots.foldl (fun a p => a.setIfInBounds (p.1 - 64 * span.1) p.2)
    (Array.replicate (64 * (span.2 + 1 - span.1)) 0)

/-- One group of 64 slots as its 8 × d bytes (R187). -/
def packGroup (levels : Array Nat) (base d : Nat) : List Byte :=
  leBytes (8 * d) (((List.range 64).map fun i => levels.getD (base + i) 0 * 2 ^ (d * i)).sum)

/-- The line of lane part `n` of a link (R186, R187). -/
def packLane (span : Nat × Nat) (n d : Nat) (levels : Array Nat) : List Byte :=
  (laneGroups span n).flatMap fun g => packGroup levels (64 * (g - span.1)) d

/-- The slot levels of a nozzle-check sub-row (R169, R397): the slots with slot mod pitch = q of the heads of one
parity. -/
def nozzleCheckSlots (c : Cfg) (k pitch q parity level : Nat) : List (Nat × Nat) :=
  (List.range (linkSlots c k)).filterMap fun sl =>
    match slotHead c k sl with
    | some (h, _, _) => if h % 2 = parity && sl % pitch = q then some (sl, level) else none
    | none => none

end Sys2Proof.Machine
end

