-- ==== Sys2Proof/Machine/Render.lean ====
section
/-! DEFINITION. Rendering a page line by line (05_composition.md, R140, R146, R147, R153 to R165; 06_screening_and_nozzle_map.md,
R168, R169, R184 to R191; 07_raron_codec.md, R210 to R213; 13_calibration_loop.md, R397 to R400). -/
namespace Sys2Proof.Machine
open Sys2Proof

def modNow (f : Rendering → Rendering) (s : State) : State :=
  { s with render := { s.render with now := s.render.now.map f } }

/-! ### Chunks (R189, R191, R212) -/

/-- Chunks cut are handed to the lowest-numbered compressors in service whose input is empty (R189). -/
def feedCompressors : Nat → State → State
  | 0, s => s
  | n + 1, s =>
    match s.render.now with
    | none => s
    | some r =>
      match r.waiting, s.render.compressors.findIdx? fun c => c.input.isNone && !c.retired with
      | ch :: rest, some i =>
        feedCompressors n { s with render := { s.render with
          now := some { r with waiting := rest }
          compressors := s.render.compressors.modify i fun c => { c with input := some ch } } }
      | _, _ => s

/-- The whole chunks of a lane's bytes, numbered from `k`, and what is left; at the last line the rest is a chunk too
(R189). `fuel` bounds the chunks. -/
def cutChunks (page lane : Nat) (last : Bool) : Nat → Nat → List Byte → List Chunk × List Byte × Nat
  | 0, k, l => ([], l, k)
  | fuel + 1, k, l =>
    if 65536 ≤ l.length || (last && !l.isEmpty) then
      let r := cutChunks page lane last fuel (k + 1) (l.drop 65536)
      ({ page := page, lane := lane, num := k, bytes := l.take 65536 } :: r.1, r.2)
    else ([], l, k)

/-- The bytes of a line join their lane; whole chunks are cut (R189). -/
def addLaneBytes (last : Bool) (p : Nat × List Byte) (r : Rendering) : Rendering :=
  let old : Nat × List Byte × Nat := (r.open_.find? fun x => x.1 = p.1).getD (p.1, [], 0)
  let all := old.2.1 ++ p.2
  let cut := cutChunks r.page p.1 last (all.length / 65536 + 1) old.2.2 all
  { r with open_ := (r.open_.filter fun x => x.1 ≠ p.1) ++ [(p.1, cut.2)], waiting := r.waiting ++ cut.1 }

/-- The place of block `num` among those stored, in block_seq order (R205). -/
def blockPlace (num : Nat) (l : List Block) : Nat :=
  let later (x : Block) : Bool :=
    let d := (fld x 2 2 + 65536 - num % 65536) % 65536
    0 < d && d < 32768
  l.length - (l.reverse.takeWhile later).length

/-- Where the page store takes a block: at a 64-byte boundary, which the spec leaves open (R205). -/
def blockAddress (s : State) : Nat := 64 * ((Config.freeValue s.freeN).toNat % max 1 (pageStore s / 64))

/-- A block and its directory entry take their place in a lane part (R205). -/
def storeInPart (lane num addr : Nat) (b : Block) (l : List LanePart) : List LanePart :=
  l.map fun p =>
    if p.lane = lane then
      let k := blockPlace num p.blocks
      { p with blocks := p.blocks.take k ++ [b] ++ p.blocks.drop k, directory := p.directory.take k ++ [addr] ++ p.directory.drop k }
    else p

def modStrip (n : Nat) (f : Strip → Strip) (s : State) : State :=
  modArmed (fun a => { a with strips := a.strips.map fun x => if x.slot = n then f x else x }) s

/-- A block of the page or strip in RENDERING is stored. -/
def storeBlock (ch : Chunk) (b : Block) (s : State) : State :=
  match s.render.now with
  | none => s
  | some r =>
    let put := storeInPart ch.lane ch.num (blockAddress s) b
    match r.strip with
    | some st => modStrip st.slot (fun x => { x with parts := put x.parts }) (drawFree s)
    | none => modPage r.page (fun p => { p with parts := put p.parts }) (drawFree s)

/-! ### What a line holds -/

/-- What a line brings: its lane bytes, and the counts of screening. -/
structure LineOut where
  bytes : List (Nat × List Byte)
  drops : Nat
  lost : Nat
  unresolved : Nat
  lowest : Option (Nat × Nat)
  forced : Nat

/-- The lane bytes of a bar's line for its spans. -/
def laneBytes (spans : List (Nat × Nat × Nat)) (d b : Nat) (slots : List (List (Nat × Nat))) : List (Nat × List Byte) :=
  (spans.filter fun p => p.1 / 2 = b).flatMap fun p =>
    let levels := spanLevels p.2 (slots.getD (p.1 % 2) [])
    [0, 1, 2].filterMap fun n =>
      if laneLine p.2 n d = 0 then none else some (3 * p.1 + n, packLane p.2 n d levels)

/-- A curve or the identity (R151, R152). -/
def applyCurve (e : Option (List Nat)) (v : Nat) : Nat := match e with
  | some c => evalCurve c v
  | none => v

/-- Tone curve and screening of one bar's line (steps 10 and 11, R168); `segs` are its values at step 9. -/
def screenBar (s : State) (r : Rendering) (spans : List (Nat × Nat × Nat)) (lpi d y b : Nat) (segs : List (Nat × List Nat)) :
    LineOut :=
  let tone := r.tone.getD b none
  let o := screenLine s.conf.cfg b lpi d y (r.taps.getD b []) r.dead (segs.map fun p => (p.1, p.2.map (applyCurve tone)))
  { bytes := laneBytes spans d b o.slots, drops := o.drops, lost := o.lost, unresolved := o.unresolved
    lowest := o.lowest.map fun x => (b, x), forced := o.forced }

/-- The lower of two (bar, file). -/
def lowerOf (a b : Option (Nat × Nat)) : Option (Nat × Nat) :=
  match a, b with
  | some x, some y => if x.1 < y.1 || (x.1 = y.1 && x.2 ≤ y.2) then some x else some y
  | some x, none => some x
  | none, y => y

/-- The line is handed to the compressors, and its counts are added (R183, R185, R189). -/
def takeLines (last : Bool) (l : List LineOut) (s : State) : State :=
  let s1 := modNow (fun r => (l.flatMap fun o => o.bytes).foldl (fun r p => addLaneBytes last p r) r) s
  feedCompressors 48 { s1 with render := { s1.render with
    epDrops := wrapAdd 32 s1.render.epDrops (l.map fun o => o.drops).sum
    epLost := wrapAdd 32 s1.render.epLost (l.map fun o => o.lost).sum
    epUnresolved := wrapAdd 16 s1.render.epUnresolved (l.map fun o => o.unresolved).sum
    stitchForced := wrapAdd 16 s1.render.stitchForced (l.map fun o => o.forced).sum } }

/-! ### Marks (R397, R398, R400) -/

/-- The nine patches of a tone strip: the value at the j-th of n covered files. -/
def tonePatch (n j : Nat) : Nat :=
  let i := ((List.range 9).filter fun i => i * n / 9 ≤ j).length - 1
  if i = 8 then 65535 else 8192 * i

/-- The contone value that a strip block gives bar number i of its run at its line y, for the j-th of n covered files. -/
def markValue (s : State) (m : MarkBlock) (i y n j : Nat) : Nat :=
  if m.kind = 4 then (if y / 32 = i && 14 ≤ y % 32 && y % 32 ≤ 17 then 65535 else 0)
  else if m.kind = 0 then
    (if y / max 1 (cfgN s Fld.calibration_density_lines 0) = i then cfgN s Fld.calibration_density_level 0 else 0)
  else if m.kind = 3 then (if y / max 1 (cfgN s Fld.calibration_tone_lines 0) = i then tonePatch n j else 0)
  else 0

/-- The block of a strip that holds its line y. -/
def blockAt (st : Strip) (y : Nat) : Option MarkBlock := st.blocks.find? fun m => m.line ≤ y && y < m.line + m.lines

/-- The values of bar b, number i of the run, at line y of a strip, over its covered files. -/
def stripValues (s : State) (st : Strip) (b i y : Nat) : List (Nat × List Nat) :=
  let cov := barCovered s.conf.cfg b
  let n := rangesCount cov
  let value (j : Nat) : Nat := match blockAt st y with
    | some m => markValue s m i (y - m.line) n j
    | none => 0
  (cov.foldl (fun (a : List (Nat × List Nat) × Nat) r =>
    (a.1 ++ [(r.1, (List.range (r.2 - r.1)).map fun j => value (a.2 + j))], a.2 + (r.2 - r.1))) ([], 0)).1

/-- The line of bar b in a nozzle check (R169, R397). -/
def nozzleCheckLine (s : State) (spans : List (Nat × Nat × Nat)) (d b y : Nat) (m : MarkBlock) : LineOut :=
  let pitch := cfgN s Fld.calibration_nc_pitch 0
  let n := cfgN s Fld.calibration_nc_lines 0
  let sub := (y - m.line) % max 1 (pitch * n) / max 1 n
  let pass := (y - m.line) / max 1 (pitch * n)
  let slots := [2 * b, 2 * b + 1].map fun k =>
    if m.bar = b then nozzleCheckSlots s.conf.cfg k pitch sub pass (if d = 2 then 3 else 1) else []
  { bytes := laneBytes spans d b slots, drops := 0, lost := 0, unresolved := 0, lowest := none, forced := 0 }

/-- The margin's values of bar number i of the run at page line y (R400). -/
def marginLine (nb i y n : Nat) : List Nat :=
  List.replicate n (if y < 32 * nb && y / 32 = i && 14 ≤ y % 32 && y % 32 ≤ 17 then 65535 else 0)

/-! ### The reference (R161 to R163) -/

/-- A line joins a row of reference pixels under way, of which `n` lines and their sums are in: the sums and lines then,
and the row where it is full (R163). -/
def joinRow (f nb files : Nat) (last : Bool) (bars : List (List Nat)) (sums : List Nat) (n : Nat) : (List Nat × Nat) × Option (List Byte) :=
  let s1 := addRefLine f bars sums
  if n + 1 = f || last then (([], 0), some (refRow f (n + 1) files nb s1)) else ((s1, n + 1), none)

/-- A line joins the reference of the page or strip; a full row is stored by `put` (R161 to R163). -/
def feedReference (f nb files : Nat) (last : Bool) (bars : List (List Nat)) (put : List Byte → State → State) (s : State) :
    State :=
  match s.render.now with
  | none => s
  | some r =>
    let x := joinRow f nb files last bars r.refSums r.refLines
    let s1 := modNow (fun r => { r with refSums := x.1.1, refLines := x.1.2 }) s
    match x.2 with
    | some row => put row s1
    | none => s1

/-- A line joins the reference of the mark area in the page's margin (R161, R398). -/
def feedMarkRef (id f nb files : Nat) (last : Bool) (bars : List (List Nat)) (s : State) : State :=
  match s.render.now with
  | none => s
  | some r =>
    let x := joinRow f nb files last bars r.markSums r.markLines
    let s1 := modNow (fun r => { r with markSums := x.1.1, markLines := x.1.2 }) s
    match x.2 with
    | some row => modPage id (fun p => { p with markRef := p.markRef ++ [row] }) s1
    | none => s1

def putPageRow (id : Nat) (row : List Byte) (s : State) : State :=
  modPage id (fun p => { p with reference := p.reference ++ [row] }) s

def putStripRow (n : Nat) (row : List Byte) (s : State) : State :=
  modStrip n (fun x => { x with reference := x.reference ++ [row] }) s

/-! ### Guarded regions (R155 to R159) -/

/-- The bytes that a line gives a region: its values, each least significant byte first (R155). -/
def regionBytes (pg : Page) (g : Region) (vals : List Nat) : List Byte :=
  ((vals.drop (g.x0 - pg.fileStart)).take g.width).flatMap fun v => leBytes 2 v

/-- The CRC registers after line y (R155, R156). -/
def feedRegions (pg : Page) (y : Nat) (values : List (Nat × List Nat)) (crcs : List Nat) : List Nat :=
  crcs.zipIdx.map fun p => match pg.regions[p.2]? with
    | none => p.1
    | some g =>
      if g.y0 ≤ y && y < g.y0 + g.height then
        (crcRun (BitVec.ofNat 32 p.1) (regionBytes pg g (((values.find? fun v => v.1 = g.bar).map (·.2)).getD []))).toNat
      else p.1

/-- The verdict on region i, whose last line has been composed (R157, R158). -/
def judgeRegion (id i : Nat) (g : Region) (s : State) : State :=
  let sig := ((s.render.now.bind fun r => r.crcs[i]?).getD 0) ^^^ 0xFFFFFFFF
  let ok := sig = g.signature
  let s1 := modPage id (fun p => { p with verdicts := p.verdicts.set i (some (sig, ok)) }) s
  if ok then { s1 with render := { s1.render with regionsPassed := wrapInc 16 s1.render.regionsPassed } }
  else
    let s2 := modNow (fun r => { r with failed := true }) { s1 with render := { s1.render with
      regionsFailed := wrapInc 16 s1.render.regionsFailed } }
    raise 0x0318 (leBytes 4 id ++ leBytes 1 i ++ leBytes 4 sig ++ leBytes 4 g.signature) s2

/-- The regions whose last line is y. -/
def endingRegions (pg : Page) (y : Nat) : List (Region × Nat) := pg.regions.zipIdx.filter fun p => p.1.y0 + p.1.height = y + 1

/-- The last line of the last region. -/
def lastGuarded (pg : Page) : Nat := pg.regions.foldl (fun m g => max m (g.y0 + g.height)) 0

/-! ### The end of a rendering -/

/-- The body of the PAGE_DEFINE result (R111). DESIGN CHOICE: outcome and each pass flag take one byte, and nothing is
reserved (log entry 33). -/
def pageResult (pg : Page) (outcome : Nat) : List Byte :=
  leBytes 1 outcome ++ leBytes 8 (if outcome = 0 then streamSize pg.parts else 0) ++
    if outcome = 2 then []
    else pg.verdicts.flatMap fun v => match v with
      | some (sig, ok) => leBytes 4 sig ++ leBytes 1 (b2n ok)
      | none => leBytes 4 0 ++ leBytes 1 0

/-- The result of a page's PAGE_DEFINE, while it is due (R111). -/
def finishPage (id outcome : Nat) (s : State) : State :=
  match pageOf s id with
  | none => s
  | some pg =>
    if pg.resultDue then
      finishResult pg.ticket (pageResult pg outcome) (modPage id (fun p => { p with resultDue := false }) s)
    else s

/-- EP_UNRESOLVED, once per PAGE_DEFINE (R184). -/
def noteUnresolved (id : Nat) (s : State) : State :=
  match (pageOf s id).bind fun p => p.epUnresolved with
  | some (b, x) => pageEvent id 0x031D (leBytes 4 id ++ leBytes 1 b ++ leBytes 4 x) s
  | none => s

/-- The engine is free again. -/
def freeEngine (s : State) : State :=
  { s with render := { s.render with
    now := none, contexts := []
    compressors := s.render.compressors.map fun c => { c with input := none } } }

/-- The page becomes QUARANTINED: streams, reference and reservation are gone (R110, R158, R159). -/
def quarantinePage (id : Nat) (s : State) : State :=
  let s1 := modPage id (fun p => { p with state := .quarantined, parts := [], reserved := 0, reference := [], markRef := [], refKind := 0 })
    (freeEngine s)
  beginSeal (retryHold (noteUnresolved id (finishPage id 1 s1)))

/-- The page becomes RENDERED: its reservation shrinks, its result is ready, the partner gets its signature (R111, R117,
R121, R184, R509). -/
def pageDone (id : Nat) (s : State) : State :=
  let s1 := modPage id (fun p => { p with state := .rendered, reserved := streamSize p.parts, renderedAt := s.now })
    (freeEngine { s with render := { s.render with pagesRendered := wrapInc 32 s.render.pagesRendered } })
  let s2 := noteUnresolved id (finishPage id 0 s1)
  beginSeal (retryHold (tryStandby (keepOld id (compareSignature id (sendSignature id s2)))))

/-- The strip is RENDERED (R399). -/
def stripDone (n : Nat) (s : State) : State := beginSeal (modStrip n (fun x => { x with done := true }) (freeEngine s))

/-! ### One line -/

/-- One line of a strip (R397, R398). -/
def stripLine (st : Strip) (r : Rendering) (s : State) : State :=
  match s.jobs.armed, pageOf s r.page with
  | some a, some pg =>
    let c := s.conf.cfg
    let y := r.line
    let d := a.run.depth
    let bars := bitList 8 a.run.barMask
    let last := y + 1 = st.lines
    let spans := bars.flatMap fun b => (barLinks c b).filterMap fun k => (stripSpan c k).map fun sp => (k, sp)
    let vals := bars.zipIdx.map fun p => (p.1, stripValues s st p.1 p.2 y)
    let outs := vals.map fun p =>
      match blockAt st y with
      | some m => if m.kind = 1 then nozzleCheckLine s spans d p.1 y m
                  else screenBar s r spans a.run.lpi d y p.1 p.2
      | none => screenBar s r spans a.run.lpi d y p.1 p.2
    let cov := maskCovered c a.run.barMask
    let lo := (cov.head?.map (·.1)).getD 0
    let hi := (cov.getLast?.map (·.2)).getD 0
    let flat := vals.map fun p => (List.range (hi - lo)).map fun i =>
      ((p.2.findSome? fun q => if q.1 ≤ lo + i then q.2[lo + i - q.1]? else none).getD 0)
    let s1 := feedReference pg.refFactor bars.length (hi - lo) last flat (putStripRow st.slot) s
    takeLines last outs (modNow (fun r => { r with line := y + 1 }) s1)
  | _, _ => s

/-- One line of a page whose regions have all passed so far goes to screening and to the reference (steps 8 to 11). -/
def deliverLine (pg : Page) (r : Rendering) (values : List (Nat × List Nat)) (s : State) : State :=
  let y := r.line
  let last := y + 1 = pg.length
  let runB := runBars s
  let spans := pageSpans s.conf.cfg pg
  let out := values.map fun p => (p.1, p.2.map (applyCurve (r.outLut.getD p.1 none)))
  let margin (b : Nat) : List (Nat × List Nat) := match pg.margin with
    | some (a, n) => [(a, marginLine runB.length (runB.idxOf b) y n)]
    | none => []
  let segs (p : Nat × List Nat) : List (Nat × List Nat) :=
    inOrder (fun a b => a.1 ≤ b.1) ((pg.fileStart, p.2) :: margin p.1)
  let outs := out.map fun p => screenBar s r spans pg.lpi pg.depth y p.1 (segs p)
  let low := outs.foldl (fun m o => lowerOf m o.lowest) none
  let s1 := modPage pg.id (fun p => { p with epUnresolved := lowerOf p.epUnresolved low }) s
  let s2 := if pg.refKind = 2 then feedReference pg.refFactor out.length pg.fileCount last (out.map (·.2)) (putPageRow pg.id) s1 else s1
  let s3 := match pg.margin with
    | some (_, n) =>
      if pg.refKind ≠ 0 && y < 32 * runB.length then
        feedMarkRef pg.id pg.refFactor out.length n (last || y + 1 = 32 * runB.length) (out.map fun p => ((margin p.1).map (·.2)).flatten) s2
      else s2
    | none => s2
  takeLines last outs (modNow (fun r => { r with line := y + 1 }) s3)

/-- A failed page goes on to the last line of its last region, or ends at the failure (R158, R159). -/
def failLine (pg : Page) (y : Nat) (s : State) : State :=
  let s1 := modPage pg.id (fun p => { p with parts := [], reserved := 0, reference := [], markRef := [], refKind := 0 })
    (modNow (fun r => { r with line := y + 1, open_ := [], waiting := [], refSums := [], refLines := 0, markSums := [], markLines := 0 })
      { s with render := { s.render with compressors := s.render.compressors.map fun c => { c with input := none } } })
  if cfgN s Fld.render_guard_complete 0 = 0 || lastGuarded pg ≤ y + 1 then quarantinePage pg.id s1 else s1

/-- One line of a page (R140, R155 to R159). -/
def pageLine (pg : Page) (r : Rendering) (s : State) : State :=
  let y := r.line
  let vs := layerViews s pg y
  let values := (bitList 8 pg.barMask).map fun b => (b, blendLine vs pg b y)
  let s1 := modNow (fun r => { r with crcs := feedRegions pg y values r.crcs, retries := [] }) s
  let s2 := forEach (endingRegions pg y) (fun p => judgeRegion pg.id p.2 p.1) s1
  let ctx := lineContexts s pg y
  let s3 := { s2 with render := { s2.render with
    contexts := ctx, contextsPeak := max s2.render.contextsPeak ctx.length } }
  if s3.render.now.any fun r => r.failed then failLine pg y s3 else deliverLine pg r values s3

/-! ### A surface block that fails (R146, R147, R211) -/

/-- SURFACE_CORRUPT: the tile is missing, the surface unsealed, the page DEFINED again (R147). -/
def corruptTile (sf tile : Nat) (s : State) : State :=
  let s1 := abandonRendering { s with
    jobs := { s.jobs with surfaces := s.jobs.surfaces.map fun f =>
      if f.id = sf then { f with tiles := f.tiles.filter fun t => t.1 ≠ tile, sealed := false } else f }
    render := { s.render with surfacesCorrupt := wrapInc 16 s.render.surfacesCorrupt, contexts := [] } }
  beginSeal (raise 0x0319 (leBytes 4 sf ++ leBytes 4 tile) s1)

/-- Reads of a failing block counted in decode_retries. -/
def countRetries (n : Nat) (s : State) : State :=
  { s with render := { s.render with decodeRetries := wrapAdd 16 s.render.decodeRetries n } }

/-- Surface blocks that fail their check (object 0x0801 surface_block_failures). -/
def countFailures (n : Nat) (s : State) : State :=
  { s with render := { s.render with surfaceBlockFailures := wrapAdd 16 s.render.surfaceBlockFailures n } }

/-- The reads again of a block on the present line. -/
def retriesOf (r : Rendering) (b : Nat × Nat × Nat) : Nat := ((r.retries.find? fun p => p.1 = b).map (·.2)).getD 0

/-- A block that fails its check is read again, up to `limit` times, `n` times at once; with no retry left its tile is corrupt
(R146, R147). -/
def failBlock (limit n : Nat) (b : Nat × Nat × Nat) (s : State) : State :=
  let k := (s.render.now.map fun r => retriesOf r b).getD 0
  let m := min n (limit - k)
  let s1 := modNow (fun r => { r with retries := (r.retries.filter fun p => p.1 ≠ b) ++ [(b, k + m)] }) s
  if m < n then corruptTile b.1 b.2.1 (countFailures (m + 1) (countRetries m s1)) else countFailures m (countRetries m s1)

/-- The block that fails in this reading of the line: of a stored tile that does not decode, at every reading; or the engine's own
finding, once. -/
def lineFailure (s : State) (pg : Page) (y : Nat) (bad : Option (Nat × Nat × Nat)) : Option ((Nat × Nat × Nat) × Bool) :=
  match badTile s pg y with
  | some b => some (b, true)
  | none => bad.bind fun p =>
      if pg.layers.any (fun l => l.surface = p.1) && (surfaceOf s p.1).any (fun f => f.raron && p.2.1 < tileCount f) then
        some (p, false)
      else none

/-- A decoder context that is read otherwise than it was sealed, and fails a check at its resume: it counts as a block
that fails, and the tile is decoded again from its first block (R146, R209). -/
def failContext (limit : Nat) (c : Nat × List Byte) (s : State) : State :=
  match s.render.contexts[c.1]? with
  | none => s
  | some x =>
    if stateOk 1 c.2 || s.render.now.isNone then s
    else failBlock limit 1 (x.surface, x.tile, fld x.state 10 2) { s with render := { s.render with
      contextResumeFailures := wrapInc 16 s.render.contextResumeFailures } }

/-- COMPOSITION_LINE: the next line of the page or strip in RENDERING; none while render_duty is 0 (R46). A page whose
surfaces are no longer all sealed goes back to DEFINED (R106). -/
def execCompositionLine (t : Nat) (line : LineRead) (s : State) : Host.Outcome State Fault Refusal :=
  let s1 := beginAt t s
  match (if s1.gov.renderDuty = 0 then none else s1.render.now) with
  | none => .next s1
  | some r =>
    match r.strip with
    | some st => .next (if r.line < st.lines then stripLine st r s1 else s1)
    | none =>
      match pageOf s1 r.page with
      | none => .next s1
      | some pg =>
        if pg.length ≤ r.line then .next s1
        else if !surfacesSealed s1 pg then .next (beginSeal (abandonRendering s1))
        else
          let limit := cfgN s1 Fld.render_decode_retries 0
          let s2 := forEach line.states (failContext limit) s1
          match s2.render.now, lineFailure s2 pg r.line line.badBlock with
          | none, _ => .next s2
          | some _, some (b, true) => .next (failBlock limit (limit + 1) b s2)
          | some _, some (b, false) => .next (failBlock limit 1 b s2)
          | some q, none => .next (pageLine pg q s2)

/-- PAGE_RENDER_START: the engine takes up what comes next (R46, R120, R413). -/
def execPageRenderStart (t : Nat) (s : State) : Host.Outcome State Fault Refusal :=
  .next (beginSeal (takeUp (nextRerender (beginAt t s))))

/-- CHUNK_COMPRESSED: compressor `comp` has coded its chunk, and its check decoder has compared it (R212, R213); none does while
render_duty is 0 (R46). -/
def execChunkCompressed (t comp : Nat) (mismatch : Bool) (s : State) : Host.Outcome State Fault Refusal :=
  let s1 := beginAt t s
  match (if s1.gov.renderDuty = 0 then none else s1.render.compressors[comp]?) with
  | none => .next s1
  | some c =>
    match c.input with
    | none => .next s1
    | some ch =>
      let b := if mismatch then rawBlock (ch.num % 65536) ch.bytes else encodeChunk (ch.num % 65536) ch.bytes
      let n := if mismatch then c.mismatches + 1 else c.mismatches
      let gone := mismatch && 3 ≤ n && !c.retired
      let s2 := storeBlock ch b { s1 with render := { s1.render with
        compressors := s1.render.compressors.modify comp fun x =>
          { x with input := none, mismatches := n, retired := x.retired || gone }
        blocksWritten := wrapInc 32 s1.render.blocksWritten
        blocksRaw := if (b.headD 0).getLsbD 0 then wrapInc 32 s1.render.blocksRaw else s1.render.blocksRaw
        encodeMismatches := if mismatch then wrapInc 16 s1.render.encodeMismatches else s1.render.encodeMismatches } }
      let s3 := if mismatch && !s2.render.mismatchPages.contains ch.page then
          raise 0x0811 (leBytes 1 comp ++ leBytes 4 ch.page)
            { s2 with render := { s2.render with mismatchPages := ch.page :: s2.render.mismatchPages } }
        else s2
      let s4 := if gone then raise 0x0812 (leBytes 1 comp) s3 else s3
      .next (feedCompressors 48 s4)

/-- PAGE_RENDERED: every line is composed and every block stored: the page, or the strip, is RENDERED (R117, R399); no
page becomes ready while render_duty is 0 (R46). -/
def execPageRendered (t : Nat) (s : State) : Host.Outcome State Fault Refusal :=
  let s1 := beginAt t s
  match (if s1.gov.renderDuty = 0 then none else s1.render.now) with
  | none => .next s1
  | some r =>
    let idle := r.waiting.isEmpty && (r.open_.all fun x => x.2.1.isEmpty) &&
      s1.render.compressors.all fun c => c.input.isNone
    if !idle then .next s1
    else match r.strip with
      | some st => .next (if st.lines ≤ r.line then stripDone st.slot s1 else s1)
      | none =>
        match pageOf s1 r.page with
        | none => .next s1
        | some pg => .next (if pg.length ≤ r.line && !r.failed then pageDone pg.id s1 else s1)

end Sys2Proof.Machine
end

