-- ==== Sys2Proof/Machine/Jobs.lean ====
section
/-! DEFINITION. Surfaces, LUTs and pages as the host defines them (04_jobs_pages_runs.md, R102 to R113, R702, R703;
05_composition.md, R141 to R143, R149). -/
namespace Sys2Proof.Machine
open Sys2Proof

/-- The reject reasons of *Surfaces, Pages and Runs*. -/
def reasonUnknownId : Nat := 0x0301
def reasonInUse : Nat := 0x0302
def reasonSealed : Nat := 0x0303
def reasonRange : Nat := 0x0304
def reasonMismatch : Nat := 0x0305
def reasonNoSpace : Nat := 0x0306
def reasonHaltActive : Nat := 0x0307
def reasonNotJoined : Nat := 0x0D01

/-- The first reason that applies, in the order RANGE, UNKNOWN_ID, IN_USE, NO_SPACE (R702). -/
def firstReason (range unknown inUse noSpace : Bool) : Option Nat :=
  if range then some reasonRange else if unknown then some reasonUnknownId
  else if inUse then some reasonInUse else if noSpace then some reasonNoSpace else none

/-! ### What the armed run uses (R107, R112, R113, R126) -/

/-- The runs that count as armed: the armed one, and one whose RUN_ARM result is pending (R126). -/
def usedRuns (s : State) : List RunDef :=
  (s.jobs.armed.map fun a => a.run).toList ++
    (match s.jobs.arming with
     | some p => s.jobs.runs.filter fun r => r.id = p.run
     | none => [])

/-- The armed run still has a page in its slot list: it has not been removed (R130). -/
def runKeeps (s : State) (id : Nat) : Bool := s.jobs.armed.any fun a => (liveSlots a).contains id

/-- The run under admission references a page (R126). -/
def armingUses (s : State) (id : Nat) : Bool :=
  s.jobs.arming.any fun q => s.jobs.runs.any fun r => r.id = q.run && r.slots.contains id

/-- A page that the armed run references, or that a released slot still fires (R112, R118). -/
def pageInUse (s : State) (id : Nat) : Bool := runKeeps s id || armingUses s id || (openSlots s).any fun x => x.page = id

/-- The pages whose surfaces and LUTs may not change: those of the armed run in DEFINED or RENDERING, every page of a run that is
being armed, and a page that is being rendered (R107, R113, R126, *Table: Reject reasons of this chapter*, IN_USE). -/
def lockedPages (s : State) : List Page :=
  s.jobs.pages.filter fun p =>
    p.state = .rendering || (runKeeps s p.id && p.state = .defined) || armingUses s p.id

def surfaceInUse (s : State) (id : Nat) : Bool := (lockedPages s).any fun p => p.layers.any fun l => l.surface = id

/-- A LUT in use; the output LUTs are referenced by every page (R113, R153). -/
def lutInUse (s : State) (id : Nat) : Bool :=
  (lockedPages s).any fun p => 0xFF00 ≤ id || p.layers.any fun l => l.lut = id

/-! ### Surfaces (R103 to R108) -/

/-- The fields of a SURFACE_DEFINE. -/
def readSurface (p : List Byte) : Surface :=
  { id := fld p 0 4, width := fld p 4 4, height := fld p 8 4, channels := fld p 12 1, depth := fld p 13 1
    dpi := fld p 14 2, tileSize := fld p 16 2, raron := fld p 18 1 = 1, tiles := [], sealed := false }

/-- The bytes of the largest raw tile of a surface (R103). -/
def largestTile (sf : Surface) : Nat :=
  min sf.tileSize sf.width * min sf.tileSize sf.height * sf.channels * (sf.depth / 8)

/-- A SURFACE_DEFINE out of range (R103). -/
def surfaceRangeBad (p : List Byte) (sf : Surface) : Bool :=
  sf.id = 0xFFFFFFFF || sf.width = 0 || sf.height = 0 || sf.channels = 0 || 8 < sf.channels ||
    !([8, 16].contains sf.depth) || !([150, 300, 600, 1200].contains sf.dpi) ||
    !([128, 256, 512, 1024].contains sf.tileSize) || 1 < fld p 18 1 ||
    106496 * sf.dpi < sf.width * 1200 || 188976 * sf.dpi < sf.height * 1200 || 16777208 < largestTile sf

/-- The body of a seal result (*Table: SURFACE_SEAL result body*). -/
def sealBody (outcome missing first stored : Nat) : List Byte :=
  leBytes 1 outcome ++ leBytes 3 0 ++ leBytes 4 missing ++ leBytes 4 first ++ leBytes 8 stored

/-- The seal checks of a surface are abandoned, and the next one may start (R105, R703). -/
def abandonSeals (id : Nat) (s : State) : State :=
  beginSeal <| forEach (s.jobs.seals.filter fun q => q.1 = id) (fun q => finishResult q.2 (sealBody 3 0 0xFFFFFFFF 0))
    { s with jobs := { s.jobs with seals := s.jobs.seals.filter fun q => q.1 ≠ id
                                   sealing := s.jobs.sealing && s.jobs.seals.head?.any fun q => q.1 ≠ id } }

/-- The cost of the DEFINED pages that reference a surface is to be computed afresh (R108). -/
def forgetCosts (id : Nat) (s : State) : State :=
  { s with jobs := { s.jobs with pages := s.jobs.pages.map fun p =>
    if p.state = .defined && p.layers.any fun l => l.surface = id then { p with cost := none } else p } }

/-- SURFACE_DEFINE (R102, R103, R108, R167, R702). -/
def msgSurfaceDefine (_i : Nat) (p : List Byte) (s : State) : Verdict :=
  let sf := readSurface p
  let old := surfaceOf s sf.id
  let need := if sf.raron then 0 else surfaceSpace sf
  let space := surfaceUsed s - (old.map surfaceSpace).getD 0
  match firstReason (surfaceRangeBad p sf) false (old.isSome && surfaceInUse s sf.id)
      ((old.isNone && 4096 ≤ s.jobs.surfaces.length) || surfaceArea s < space + need) with
  | some r => .error (r, 0)
  | none =>
    let s1 := abandonSeals sf.id s
    .ok (fixCosts (forgetCosts sf.id
      { s1 with jobs := { s1.jobs with surfaces := (s1.jobs.surfaces.filter fun f => f.id ≠ sf.id) ++ [sf] } }))

/-- A tile takes its place in ascending tile number. -/
def placeTile (t : Nat) (d : List Byte) (l : List (Nat × List Byte)) : List (Nat × List Byte) :=
  (l.filter fun x => x.1 < t) ++ [(t, d)] ++ l.filter fun x => t < x.1

/-- SURFACE_DATA (R104). -/
def msgSurfaceData (_i : Nat) (p : List Byte) (s : State) : Verdict :=
  let id := fld p 0 4
  let t := fld p 4 4
  let d := p.drop 8
  match surfaceOf s id with
  | none => .error (reasonUnknownId, 0)
  | some sf =>
    if sf.sealed then .error (reasonSealed, 0)
    else if tileCount sf ≤ t then .error (reasonRange, 0)
    else if !sf.raron && d.length ≠ rawTileBytes sf t then .error (reasonRange, 0)
    else if sf.raron && surfaceArea s < surfaceUsed s - ((tileData sf t).getD []).length + d.length then
      .error (reasonNoSpace, 0)
    else
      .ok { s with jobs := { s.jobs with surfaces := s.jobs.surfaces.map fun f =>
        if f.id = id then { f with tiles := placeTile t d f.tiles } else f } }

/-- SURFACE_SEAL: the check is queued for the render engine (R105, R703). -/
def msgSurfaceSeal (_i : Nat) (p : List Byte) (s : State) : Verdict :=
  let id := fld p 4 4
  if (surfaceOf s id).isNone then .error (reasonUnknownId, 0)
  else
    let s1 := addPending (fld p 0 4) 0x22 s
    .ok (beginSeal { s1 with jobs := { s1.jobs with seals := s1.jobs.seals ++ [(id, fld p 0 4)] } })

/-- The tiles of a surface that are present and do not decode. -/
def badTiles (sf : Surface) : List Nat :=
  (List.range (tileCount sf)).filter fun t => (tileData sf t).isSome && match tilePixels sf t with
    | .ok _ => false
    | .error _ => true

/-- What a seal check finds: outcome, tiles missing, first tile missing or bad (R105). -/
def checkSeal (sf : Surface) : Nat × Nat × Nat :=
  let missing := (List.range (tileCount sf)).filter fun t => (tileData sf t).isNone
  let bad := badTiles sf
  let first := min (missing.headD 0xFFFFFFFF) (bad.headD 0xFFFFFFFF)
  if !missing.isEmpty then (1, missing.length, first)
  else if !bad.isEmpty then (2, 0, first)
  else (0, 0, 0xFFFFFFFF)

/-- The check at the head of the queue is over; the next one may start (R105, R703). -/
def endSeal (s : State) : State :=
  match s.jobs.seals with
  | [] => s
  | (id, ticket) :: rest =>
    let s2 := { s with jobs := { s.jobs with seals := rest, sealing := false } }
    match surfaceOf s2 id with
    | none => beginSeal (finishResult ticket (sealBody 3 0 0xFFFFFFFF 0) s2)
    | some sf =>
      let r := checkSeal sf
      let s3 := if r.1 = 0 then
          { s2 with jobs := { s2.jobs with surfaces := s2.jobs.surfaces.map fun f =>
            if f.id = id then { f with sealed := true } else f } }
        else s2
      let s4 := if sf.raron then countFailures (badTiles sf).length s3 else s3
      beginSeal (finishResult ticket (sealBody r.1 r.2.1 r.2.2 (surfaceSpace sf)) s4)

/-- SEAL_CHECK_DONE: the check that has started completes (R105, R703). -/
def execSealCheckDone (t : Nat) (s : State) : Host.Outcome State Fault Refusal :=
  let s1 := beginSeal (beginAt t s)
  .next (if s1.jobs.sealing then endSeal s1 else s1)

/-- SURFACE_FREE (R107). -/
def msgSurfaceFree (_i : Nat) (p : List Byte) (s : State) : Verdict :=
  let id := fld p 0 4
  match firstReason false (surfaceOf s id).isNone (surfaceInUse s id) false with
  | some r => .error (r, 0)
  | none =>
    let s1 := abandonSeals id s
    .ok { s1 with jobs := { s1.jobs with surfaces := s1.jobs.surfaces.filter fun f => f.id ≠ id } }

/-! ### LUTs (R113, R149) -/

/-- The u16 values of a byte string. -/
def words16 (l : List Byte) : List Nat := (pieces 2 l).map leNat

/-- LUT_DEFINE (R102, R113, R149, R702). -/
def msgLutDefine (_i : Nat) (p : List Byte) (s : State) : Verdict :=
  let id := fld p 0 2
  let kind := fld p 4 1
  let n := fld p 5 1
  let bad := 1 < kind || n = 0 || 8 < n || (kind = 1 && (n ≠ 1 || id < 0xFF00 || 0xFF07 < id)) ||
    (kind = 0 && 0xFEFF < id) || p.length ≠ 8 + 8194 * n
  let old := lutOf s id
  match firstReason bad false (lutInUse s id) (old.isNone && 1024 ≤ s.jobs.luts.length) with
  | some r => .error (r, 0)
  | none =>
    let l : Lut := { id := id, output := kind = 1, curves := (pieces 8194 (p.drop 8)).map words16 }
    .ok { s with jobs := { s.jobs with luts := (s.jobs.luts.filter fun x => x.id ≠ id) ++ [l] }
                 mem := { s.mem with lostLuts := s.mem.lostLuts.filter fun x => x ≠ id } }

/-! ### Pages (R109 to R112, R141 to R143) -/

/-- A layer entry (R141). -/
def readLayer (b : List Byte) : Layer :=
  { surface := fld b 0 4, destX := sfld b 4 4, destY := sfld b 8 4, destW := fld b 12 4, destH := fld b 16 4
    srcX := fld b 20 4, srcY := fld b 24 4, chanMap := fld b 28 4, op := fld b 32 1, flags := fld b 33 1
    alpha := fld b 34 1, opacity := fld b 36 2, lut := fld b 38 2, dropStep := fld b 40 4 }

/-- A region entry (*Table: Guarded region entry*). -/
def readRegion (b : List Byte) : Region :=
  { bar := fld b 0 1, x0 := fld b 4 4, width := fld b 8 4, y0 := fld b 12 4, height := fld b 16 4
    signature := fld b 20 4 }

/-- The fields of a PAGE_DEFINE (*Table: PAGE_DEFINE body*). -/
def readPage (p : List Byte) : Page :=
  let nl := fld p 15 1
  let nr := fld p 16 1
  let regions := (List.range nr).map fun i => readRegion (p.drop (28 + 64 * nl + 24 * i))
  { id := fld p 4 4, ticket := fld p 0 4, length := fld p 8 4, lpi := fld p 12 1, depth := fld p 13 1
    barMask := fld p 14 1, refFactor := fld p 17 1, fileStart := fld p 20 4, fileCount := fld p 24 4
    layers := (List.range nl).map fun i => readLayer (p.drop (28 + 64 * i))
    regions := regions, state := .defined, resultDue := true, reserved := 0, parts := [], margin := none
    verdicts := regions.map fun _ => none, reference := [], markRef := [], refBad := [], refKind := 0, firedAt := none, renderedAt := 0, cost := none, renderVersion := 0, raised := []
    epUnresolved := none, partnerSig := none }

/-- A layer out of range (R109, R142). -/
def layerRangeBad (mask : Nat) (l : Layer) : Bool :=
  ((List.range 8).any fun b =>
    let n := l.chanMap / 16 ^ b % 16
    n ≠ 15 && (7 < n || !mask.testBit b)) ||
  6 < l.op || (7 < l.alpha && l.alpha ≠ 0xFF) || (0xFF00 ≤ l.lut && l.lut ≠ 0xFFFF)

/-- A region out of range (R109, R155). -/
def regionRangeBad (pg : Page) (g : Region) : Bool :=
  7 < g.bar || !pg.barMask.testBit g.bar || g.width = 0 || g.height = 0 || g.x0 < pg.fileStart ||
    pg.fileStart + pg.fileCount < g.x0 + g.width || pg.length < g.y0 + g.height

/-- A PAGE_DEFINE out of range (R109, R142). -/
def pageRangeBad (nl nr : Nat) (pg : Page) : Bool :=
  pg.id = 0xFFFFFFFF || pg.length = 0 || 2 < pg.lpi || 188976 / 2 ^ pg.lpi < pg.length ||
    !([1, 2].contains pg.depth) || pg.barMask = 0 || nl = 0 || 8 < nl || 16 < nr || !([2, 4, 8].contains pg.refFactor) ||
    106495 < pg.fileStart || pg.fileCount = 0 || 106496 < pg.fileStart + pg.fileCount ||
    pg.layers.any (layerRangeBad pg.barMask) || pg.regions.any (regionRangeBad pg)

/-- An input LUT that is not there (R143). -/
def layerLutMissing (s : State) (l : Layer) : Bool := l.lut ≠ 0xFFFF && !((lutOf s l.lut).any fun t => !t.output)

/-- A page is withdrawn: its rendering, its streams and its due result end (R111, R112). -/
def withdrawPage (id : Nat) (s : State) : State :=
  let s1 := if s.render.now.any fun r => r.page = id && r.strip.isNone then abandonRendering s else s
  let s2 := finishPage id 2 s1
  { s2 with
    jobs := { s2.jobs with pages := s2.jobs.pages.filter fun p => p.id ≠ id }
    render := { s2.render with mismatchPages := s2.render.mismatchPages.filter fun x => x ≠ id } }

/-- PAGE_DEFINE (R102, R109, R111, R112, R142, R143, R702). -/
def msgPageDefine (_i : Nat) (p : List Byte) (s : State) : Verdict :=
  let nl := fld p 15 1
  let nr := fld p 16 1
  if p.length < 28 + 64 * nl + 24 * nr then .error (reasonMalformed, 0)
  else
    let pg := readPage p
    match firstReason (pageRangeBad nl nr pg) (pg.layers.any (layerLutMissing s)) (pageInUse s pg.id)
        ((pageOf s pg.id).isNone && 16384 ≤ s.jobs.pages.length) with
    | some r => .error (r, 0)
    | none =>
      let s1 := addPending pg.ticket 0x25 (withdrawPage pg.id s)
      .ok (fixCosts { s1 with jobs := { s1.jobs with pages := s1.jobs.pages ++ [pg] } })

/-- PAGE_FREE (R112). -/
def msgPageFree (_i : Nat) (p : List Byte) (s : State) : Verdict :=
  let id := fld p 0 4
  match firstReason false (pageOf s id).isNone (pageInUse s id) false with
  | some r => .error (r, 0)
  | none => .ok (withdrawPage id s)

/-! ### The commands -/

end Sys2Proof.Machine
end

