-- ==== Sys2Proof/Machine/Memory.lean ====
section
/-! DEFINITION. The memory controller (08_memory.md, R225, R233, R237 to R240, R247 to R250): flag falls, refresh, scrubbing,
errors. -/
namespace Sys2Proof.Machine
open Sys2Proof

/-- The time control of a QoS port in ns (*Table: QoS ports*). -/
def timeControl (s : State) (q : Nat) : Nat :=
  if q = 0 then 1000 else cfgN s (Fld.memory_tc_q1 + (q - 1)) 0

/-- The urgency of a request of port `q` by its age (R224). -/
def urgency (s : State) (q ageNs : Nat) : Nat :=
  if 2 * ageNs < timeControl s q then 0 else if ageNs < timeControl s q then 1 else 2

/-- FLAG_FALL (R224, R225, R233): the age of a request of port `port` has reached its time control. -/
def execFlagFall (t port ageNs : Nat) (s : State) : Host.Outcome State Fault Refusal :=
  let s1 := beginAt t s
  if !memTrained s1 || urgency s1 port ageNs < 2 then .next s1
  else
    let upd (q : Qos) : Qos :=
      { q with flagFalls := wrapInc 16 q.flagFalls, maxAge := max q.maxAge (min 65535 (ageNs / 100)) }
    let s2 := { s1 with mem := { s1.mem with qos := s1.mem.qos.modify port upd } }
    let d := leBytes 1 port ++ leBytes 4 ageNs
    .next (if port = 0 then raise 0x0710 d s2 else raiseLimited 0x0710 port (secT 1) (fun _ => d) s2)

/-! ### Where an address lies (R221) -/

/-- A place in the memory. -/
structure DramPlace where
  channel : Nat
  side    : Nat
  group   : Nat
  bank    : Nat
  row     : Nat
  column  : Nat
  deriving DecidableEq, Repr

/-- Bits hi to lo of a number. -/
def bitsAt (a hi lo : Nat) : Nat := a / 2 ^ lo % 2 ^ (hi + 1 - lo)

/-- The place of a physical byte address (R221). -/
def placeOf (addr : Nat) : DramPlace :=
  let a := addr / 64
  { channel := bitsAt a 1 0 ^^^ bitsAt a 15 14 ^^^ bitsAt a 25 24
    side := bitsAt a 2 2 ^^^ bitsAt a 16 16 ^^^ bitsAt a 26 26
    group := bitsAt a 5 3 ^^^ bitsAt a 19 17
    bank := bitsAt a 7 6 ^^^ bitsAt a 21 20
    row := bitsAt a 30 14
    column := bitsAt a 13 8 }

/-- The number of the subchannel that holds an address (R221, R237). -/
def subchannelOf (addr : Nat) : Nat := 2 * (placeOf addr).channel + (placeOf addr).side

/-! ### Temperature and refresh (R237 to R240, R574) -/

/-- The cause for which DTn is broken, 0 for none (*Table: Broken module readings*). -/
def brokenDt (now : Nat) (x : Subchannel) : Nat :=
  match x.dt with
  | none => 1
  | some v => if x.dtFailed then 1 else if v < -45 || 125 < v then 4 else if x.dtRead + msT 5 ≤ now then 5 else 0

/-- Reading DTn: the highest temperature of the five devices; none where a device's register could not be read (R237, R574). -/
def highestDt (l : List (Option Int)) : Option Int :=
  if l.isEmpty || l.any Option.isNone then none else (inOrder (fun a b => b ≤ a) (l.filterMap id)).head?

/-- The refresh interval of a subchannel: halved at 85 °C or with a broken reading, until DTn is below 83 °C (R238, R239). -/
def refreshOf (now : Nat) (x : Subchannel) : Subchannel :=
  { x with doubled :=
      if brokenDt now x ≠ 0 then true
      else match x.dt with
        | some v => if 85 ≤ v then true else if v < 83 then false else x.doubled
        | none => true }

/-- A subchannel changes, and its refresh interval with it; a change of the interval is reported (R238 to R240). -/
def refreshSub (k : Nat) (f : Subchannel → Subchannel) (s : State) : State :=
  let old := (s.mem.sub.getD k {}).doubled
  let s1 := { s with mem := { s.mem with sub := s.mem.sub.modify k fun x => refreshOf s.now (f x) } }
  let x := s1.mem.sub.getD k {}
  if old = x.doubled then s1
  else raise (if x.doubled then 0x0713 else 0x0714) (leBytes 1 k ++ sgBytes 2 ((x.dt.map (16 * ·)).getD 0x7FFF)) s1

/-- One subchannel has been read (R237). -/
def takeDt (now : Nat) (r : Option Int) (x : Subchannel) : Subchannel :=
  match r with
  | none => { x with dt := none, dtFailed := true }
  | some v => { x with dt := some v, dtFailed := false, dtRead := now }

/-- DT_READ (R237): the mode registers of the five devices of every subchannel have been read; none where one could not be. -/
def execDtRead (t : Nat) (temps : List (List (Option Int))) (s : State) : Host.Outcome State Fault Refusal :=
  let s1 := beginAt t s
  .next (if s1.power.domainsOn.contains 7 then
    forEach ((temps.take 8).zipIdx) (fun p => refreshSub p.2 (takeDt s1.now (highestDt p.1))) s1 else s1)

/-- SCRUB_PASS (R249): the scrub period comes due: the pass of the period is complete, and the next one starts. -/
def execScrubPass (t : Nat) (s : State) : Host.Outcome State Fault Refusal :=
  let s1 := beginAt t s
  .next (if s1.mem.initialised && s1.mem.scrubSince + secT (3600 * cfgN s1 Fld.memory_scrub_period 0) ≤ s1.now then
    { s1 with mem := { s1.mem with scrubPasses := wrapInc 16 s1.mem.scrubPasses, scrubSince := s1.now } } else s1)

/-! ### The beats of a burst (R247, R248) -/

/-- The bits of a beat that were read wrong. -/
def wrongBits (b : BitVec 40) : Nat := ((List.range 40).filter fun i => b.getLsbD i).length

/-- What the code makes of a beat: 0 good, 1 corrected, 2 reported. Of three or more wrong bits the rule says nothing: a
free value. -/
def beatOutcome (n : Nat) (b : BitVec 40) : Nat :=
  if wrongBits b = 0 then 0 else if wrongBits b = 1 then 1 else if wrongBits b = 2 then 2
  else (Config.freeBeat n b).toNat % 3

/-- A burst is uncorrectable when any of its beats is (R247). -/
def burstBad (s : State) (r : BurstRead) : Bool := r.beats.any fun b => beatOutcome s.freeN b = 2

/-- The corrections of a burst: one where any of its beats has been corrected and none is uncorrectable (R247, R248; object 0x0702
corrected counts bursts). -/
def burstCorrections (s : State) (r : BurstRead) : Nat :=
  b2n (!burstBad s r && r.beats.any fun b => beatOutcome s.freeN b = 1)

/-- The corrections of a subchannel in the last hour. -/
def hourCorrections (s : State) (k : Nat) : Nat := (((s.mem.sub.getD k {}).hour.filter fun p => s.now < p.1 + secT 3600).map (·.2)).sum

/-- The corrections of a burst read at date `at_` are counted; beyond ce_threshold in an hour they are reported (R248). -/
def countCorrections (at_ : Nat) (r : BurstRead) (s : State) : State :=
  let n := burstCorrections s r
  let k := subchannelOf r.addr
  let s1 := if n = 0 then s else { s with mem := { s.mem with sub := s.mem.sub.modify k fun x =>
    { x with corrected := wrapAdd 16 x.corrected n
             hour := (x.hour.filter fun p => s.now < p.1 + secT 3600) ++ [(at_, n)] } } }
  drawFree (if hourCorrections s1 k ≤ cfgN s1 Fld.memory_ce_threshold 0 then s1
    else raiseLimited 0x0711 k (secT 3600) (fun _ => leBytes 1 k ++ leBytes 4 (hourCorrections s1 k)) s1)

/-- ECC_CORRECTED_RATE (R248): bursts of a subchannel whose beats have been corrected, each with the date of its read. -/
def execEccCorrectedRate (t sub : Nat) (reads : List (Nat × BurstRead)) (s : State) : Host.Outcome State Fault Refusal :=
  let s1 := beginAt t s
  .next (if memTrained s1 then forEach (reads.filter fun p => subchannelOf p.2.addr = sub) (fun p => countCorrections (min p.1 s1.now) p.2) s1 else s1)

/-! ### Uncorrectable errors (R250) -/

/-- The area that a target lies in, in the order of *Table: Memory areas*. -/
def areaOf (s : State) (addr : Nat) : EccTarget → Nat
  | .pageStream _ _ _ => 0
  | .surfaceTile _ _ => 1
  | .reference _ _ _ => 2
  | .unused =>
    if addr < pageStore s then 0 else if addr < pageStore s + surfaceArea s then 1 else if addr < gib 124 then 2 else 3
  | _ => 3

/-- A slot with the page is released and not ended. -/
def pageReleased (s : State) (id : Nat) : Bool := (openSlots s).any fun x => x.page = id

/-- The other copy of a record of the system area, which lies in another channel, can be read: no burst of it has been found bad
(R223). -/
def copyGood (s : State) (r : BurstRead) (copy : Option BurstRead) : Bool :=
  !copy.any fun c => (placeOf c.addr).channel ≠ (placeOf r.addr).channel && burstBad s c

/-- The row of *Table: Uncorrectable error outcomes* that applies, counted from 0; 255 where none does. -/
def eccOutcome (s : State) (r : EccReader) (g : EccTarget) (good : Bool) : Nat :=
  match g with
  | .pageStream id _ _ =>
    if r = .q0 then 0 else if r = .scrub then (if pageReleased s id then 4 else 3) else if r = .q7 then 8 else 255
  | .surfaceTile _ _ => if r = .q2 then 1 else if r = .scrub then 5 else if r = .q7 then 8 else 255
  | .reference _ _ _ => if r = .q1 then 2 else if r = .q7 then 8 else 255
  | .unused => 255
  | _ => if good then 6 else 7

/-- A page goes back to DEFINED and keeps its reservation (R250). -/
def pageAgain (id : Nat) (s : State) : State :=
  let s1 := if s.render.now.any (fun r => r.strip.isNone && r.page = id) then abandonRendering s else s
  modPage id (fun p => if p.state = .rendered then
    { p with state := .defined, parts := [], reference := [], markRef := [], refKind := 0
             verdicts := p.verdicts.map fun _ => none } else p) s1

/-- A surface is undefined; a page in RENDERING that reads it returns to DEFINED (R106, R250). -/
def loseSurface (id : Nat) (s : State) : State :=
  let reads := match s.render.now with
    | some r => r.strip.isNone && (pageOf s r.page).any (fun p : Page => p.layers.any fun l => l.surface = id)
    | none => false
  let s1 := abandonSeals id (if reads then abandonRendering s else s)
  { s1 with jobs := { s1.jobs with surfaces := s1.jobs.surfaces.filter fun f => f.id ≠ id } }

/-- A tile is missing and its surface unsealed; a page in RENDERING that reads it returns to DEFINED (R147, R250). -/
def loseTile (sf tile : Nat) (s : State) : State :=
  let reads := match s.render.now with
    | some r => r.strip.isNone && (pageOf s r.page).any (fun p : Page => p.layers.any fun l => l.surface = sf)
    | none => false
  if !s.jobs.surfaces.any (fun f : Surface => f.id = sf && f.tiles.any fun q => q.1 = tile) then s
  else if reads then corruptTile sf tile s
  else
    raise 0x0319 (leBytes 4 sf ++ leBytes 4 tile) { s with
      jobs := { s.jobs with surfaces := s.jobs.surfaces.map fun f : Surface =>
        if f.id = sf then { f with tiles := f.tiles.filter fun q => q.1 ≠ tile, sealed := false } else f }
      render := { s.render with surfacesCorrupt := wrapInc 16 s.render.surfacesCorrupt } }

/-- An object of the system area whose two copies are bad becomes undefined; an armed run that references it can release
nothing that needs it (R250, R128). -/
def loseObject (g : EccTarget) (s : State) : State :=
  match g with
  | .systemSurface id => loseSurface id s
  | .systemLut id =>
    let reads := match s.render.now with
      | some r => r.strip.isNone && (pageOf s r.page).any (fun p : Page => p.layers.any fun l => l.lut = id)
      | none => false
    let s1 := if reads then abandonRendering s else s
    beginSeal { s1 with
      jobs := { s1.jobs with luts := s1.jobs.luts.filter fun l => l.id ≠ id }
      mem := { s1.mem with lostLuts := id :: s1.mem.lostLuts.filter fun x => x ≠ id } }
  | .systemPage id =>
    let s1 := pageAgain id s
    { s1 with jobs := { s1.jobs with pages := s1.jobs.pages.filter fun p => p.id ≠ id } }
  | .systemRun id =>
    let s1 := { s with jobs := { s.jobs with runs := s.jobs.runs.filter fun r => r.id ≠ id } }
    modArmed (fun a => { a with lost := a.lost || a.run.id = id }) s1
  | .systemResult k => { s with net := { s.net with results := s.net.results.filter fun r => r.ticket ≠ k } }
  | .systemOther k => if k = 0 then modArmed (fun a => { a with lost := true }) s else s
  | _ => s

/-- The pixels that an unreadable burst of a page's reference covers are left out of the comparison (R250, R405). -/
def excludeReference (id row col : Nat) (s : State) : State := modPage id (fun p => { p with refBad := (row, col) :: p.refBad }) s

/-- ECC_UNCORRECTABLE (R223, R247, R250): a read has found a burst that cannot be corrected; `copy` is the other copy of a
record of the system area as it was then read. What Q0 and Q2 readers meet comes about with FIRE_DECODE_ERROR and
COMPOSITION_LINE. -/
def execEccUncorrectable (t : Nat) (burst : BurstRead) (reader : EccReader) (target : EccTarget) (copy : Option BurstRead) (s : State) :
    Host.Outcome State Fault Refusal :=
  let s1 := beginAt t s
  if !memTrained s1 || !burstBad s1 burst then .next s1
  else
    let k := subchannelOf burst.addr
    let o := eccOutcome s1 reader target (copyGood s1 burst copy)
    let s2 := drawFree <|
      raise 0x0712 (leBytes 1 k ++ leBytes 8 burst.addr ++ leBytes 1 (areaOf s1 burst.addr target) ++ leBytes 1 o)
        { s1 with mem := { s1.mem with sub := s1.mem.sub.modify k fun x =>
          { x with uncorrectable := wrapInc 16 x.uncorrectable } } }
    .next (match target with
      | .pageStream id _ _ => if o = 3 then takeUp (pageAgain id s2) else s2
      | .surfaceTile f k => if o = 5 then loseTile f k s2 else s2
      | .reference id row col => if o = 2 then excludeReference id row col s2 else s2
      | _ => if o = 7 then loseObject target s2 else s2)

end Sys2Proof.Machine
end

