-- ==== Sys2Proof/Machine/Network.lean ====
section
/-! DEFINITION. The network below DPT and the segments of DPT sessions (03_host_transport.md, R52 to R68, R72, R73, R92 to
R97, R101). -/
namespace Sys2Proof.Machine
open Sys2Proof

/-! ### Addresses and ports (R55, R56, R96) -/

/-- A port's link-local address, its interface identifier formed from the MAC address (EUI-64). -/
def linkLocal (s : State) (p : Nat) : Nat :=
  let m := s.otp.mac.getD p 0
  0xFE80 * 2 ^ 112 + (m / 2 ^ 24 ^^^ 0x020000) * 2 ^ 40 + 0xFFFE * 2 ^ 24 + m % 2 ^ 24

/-- The addresses of a port, of IPv4 below 2^32 and of IPv6 above (R55, R56). -/
def portAddresses (s : State) (p : Nat) : List Nat :=
  if s.mod.defaultAddress then
    [169 * 2 ^ 24 + 254 * 2 ^ 16 + 72 * 256 + 10 + nodeNumber s + (if p = 1 then 100 else 0), linkLocal s p]
  else
    [cfgN s (if p = 0 then Fld.network_p0_ipv4 else Fld.network_p1_ipv4) 0,
     cfgN s (if p = 0 then Fld.network_p0_ipv6 else Fld.network_p1_ipv6) 0, linkLocal s p].filter (· ≠ 0)

/-- The mode of a port; mode 4 in a MAINTENANCE with no configuration in force (R53, R56). In CONFIG, before the image is
read, the spec names none: DESIGN CHOICE, that of the configuration last held, or of the defaults (log entry 86). -/
def portMode (s : State) (p : Nat) : Nat :=
  if s.mod.defaultAddress then 4 else cfgN s (if p = 0 then Fld.network_p0_mode else Fld.network_p1_mode) 0

/-- The multicast groups that a port joins: the pair groups, and the PTP groups of its transport (R96 and *Table: Supported
and unsupported network functions*). -/
def portGroups (s : State) (p : Nat) : List Nat :=
  if s.mod.defaultAddress then []
  else
    let ptp := cfgN s Fld.timebase_source 0 = 1 && cfgN s Fld.ptp_port 0 = p
    [cfgN s Fld.network_pair_group_v4 0, cfgN s Fld.network_pair_group_v6 0].filter (· ≠ 0) ++
      (if ptp && cfgN s Fld.ptp_transport 0 = 0 then [0xE0000181, 0xE000006B] else []) ++
      (if ptp && cfgN s Fld.ptp_transport 0 = 1 then [0xFF0E * 2 ^ 112 + 0x181, 0xFF02 * 2 ^ 112 + 0x6B] else [])

/-- A frame can arrive on a port: PD1 is on, and the port has block lock. -/
def portHears (s : State) (p : Nat) : Bool := p < 2 && s.power.domainsOn.contains 1 && (portOf s p).linkUp

/-- A frame has been received on a port. -/
def countFrame (p : Nat) (s : State) : State := modPort p (fun x => { x with framesRx := wrapInc 32 x.framesRx }) s

/-- A frame is discarded (R54, R61). -/
def countDiscard (p : Nat) (s : State) : State := modPort p (fun x => { x with discarded := wrapInc 16 x.discarded }) s

/-! ### Below DPT (R52 to R56, R101) -/

/-- NETWORK_FRAME_DISCARDED (R54). -/
def execNetworkFrameDiscarded (t port : Nat) (kind : DiscardKind) (s : State) : Host.Outcome State Fault Refusal :=
  let s1 := beginAt t s
  .next (
    if !portHears s1 port then s1
    else if kind = .badFcs then modPort port (fun x => { x with fcsErrors := wrapInc 16 x.fcsErrors }) s1
    else countDiscard port (countFrame port s1))

/-- ARP_NDP_REQUEST (R55): a request for one of the port's addresses of that family is answered. -/
def execArpNdpRequest (t port : Nat) (ndp : Bool) (target sender : Nat) (s : State) :
    Host.Outcome State Fault Refusal :=
  let s1 := beginAt t s
  .next (
    if !portHears s1 port then s1
    else if !isSilent s1 && (portAddresses s1 port).contains target && isV6 target = ndp then
      emit (.arpReply port target sender) (countFrame port s1)
    else countFrame port s1)

/-- One more echo in the present second of a port. -/
def noteEcho (now : Nat) (x : Port) : Port :=
  if x.echoSecond + secT 1 ≤ now then { x with echoSecond := now, echoInSecond := 1, echoAnswered := wrapInc 16 x.echoAnswered }
  else { x with echoInSecond := x.echoInSecond + 1, echoAnswered := wrapInc 16 x.echoAnswered }

/-- The port may answer one more echo in this second. -/
def mayEcho (now : Nat) (x : Port) : Bool := x.echoSecond + secT 1 ≤ now || x.echoInSecond < 1000

/-- ICMP_ECHO (*Table: Supported and unsupported network functions*). -/
def execIcmpEcho (t port : Nat) (v6 : Bool) (sender : Nat) (data : List Byte) (s : State) :
    Host.Outcome State Fault Refusal :=
  let s1 := beginAt t s
  let fits := data.length + 8 + (if v6 then 40 else 20) ≤ cfgN s1 Fld.network_mtu 0
  .next (
    if !portHears s1 port then s1
    else if !isSilent s1 && fits && mayEcho s1.now (portOf s1 port) && (portAddresses s1 port).any (fun a => isV6 a = v6) then
      emit (.echoReply port sender data) (modPort port (noteEcho s1.now) (countFrame port s1))
    else countFrame port s1)

/-- Membership reports of a port for some groups. -/
def reportGroups (p : Nat) (l : List Nat) (s : State) : State := forEach l (fun g => emit (.membership p g)) s

/-- Duplicate address detection of a port's IPv6 addresses (*Table: Supported and unsupported network functions*); what a
port does on finding a duplicate the spec leaves open (log entry 86). -/
def detectDuplicates (p : Nat) (s : State) : State :=
  forEach ((portAddresses s p).filter isV6) (fun a => emit (.addressDetection p a)) s

/-- A port under an Ethernet loop-back, which is down while that runs (R646). -/
def portTested (s : State) (p : Nat) : Bool := s.loops.any fun l => l.interface = 3 && l.index = p

/-- What mode_active shows of a port in a mode (object 0x0201). -/
def activeMode (mode trying : Nat) : Nat := if mode = 4 then trying else mode

/-- PORT_LINK_CHANGE (R52, R53, R101). -/
def execPortLinkChange (t port : Nat) (up : Bool) (s : State) : Host.Outcome State Fault Refusal :=
  let s1 := beginAt t s
  let x := portOf s1 port
  .next (
    if !(port < 2 && s1.power.domainsOn.contains 1) || portMode s1 port = 0 || portTested s1 port || x.linkUp = up then s1
    else if up then
      let s2 := raise 0x0214 (leBytes 1 port)
        (modPort port (fun x => { x with linkUp := true, modeActive := activeMode (portMode s1 port) x.trying }) s1)
      if isSilent s2 then s2 else reportGroups port (portGroups s2 port) (detectDuplicates port s2)
    else raise 0x0213 (leBytes 1 port) (modPort port (fun x =>
      { x with linkUp := false, modeActive := 0, linkDowns := wrapInc 16 x.linkDowns, trying := 1, tryingSince := s1.now }) s1))

/-- PORT_SPEED_ALTERNATE (R53): a port in mode 4 without block lock for 1 s tries the other speed. -/
def execPortSpeedAlternate (t port : Nat) (s : State) : Host.Outcome State Fault Refusal :=
  let s1 := beginAt t s
  let x := portOf s1 port
  .next (
    if port < 2 && s1.power.domainsOn.contains 1 && portMode s1 port = 4 && !portTested s1 port && !x.linkUp && x.tryingSince + secT 1 ≤ s1.now then
      modPort port (fun x => { x with trying := if x.trying = 1 then 3 else 1, tryingSince := s1.now }) s1
    else s1)

/-- IGMP_MLD_QUERY: a query for every group, or for one that the port has joined, is answered. -/
def execIgmpMldQuery (t port : Nat) (v6 : Bool) (groupAddr : Nat) (s : State) : Host.Outcome State Fault Refusal :=
  let s1 := beginAt t s
  .next (
    if !portHears s1 port then s1
    else if isSilent s1 then countFrame port s1
    else reportGroups port ((portGroups s1 port).filter fun g => isV6 g = v6 && (groupAddr = 0 || groupAddr = g))
      (countFrame port s1))

/-! ### A segment arrives (R57 to R66, R73, R92 to R95) -/

/-- The reject reasons that a message in reassembly may earn. -/
def overlaps (a b : Nat × List Byte) : Bool := a.1 < b.1 + b.2.length && b.1 < a.1 + a.2.length

/-- A message in reassembly takes a segment; disagreements and excess length mark it (R58, R60). -/
def takePart (type off : Nat) (lastSeg : Bool) (p : List Byte) (m : RxMsg) : RxMsg :=
  let stop := off + p.length
  let m1 := { m with parts := m.parts ++ [(off, p)], last := if lastSeg then some stop else m.last }
  if m.bad ≠ 0 then m
  else if 16777216 < stop then { m1 with bad := reasonTooLong, parts := [] }
  else if m.type ≠ type || m.parts.any (overlaps (off, p)) || (match m1.last with
      | some e => m1.parts.any fun q => e < q.1 + q.2.length
      | none => false) then { m1 with bad := reasonMalformed, parts := [] }
  else m1

/-- The parts of a message whose end is known leave a hole (R60). -/
def hasHole (m : RxMsg) : Bool := m.last.isSome && !isWhole m

/-- The next sequence numbers that have arrived are taken into ack. -/
def advanceAck : Nat → Nat → List Nat → Nat × List Nat
  | 0, a, l => (a, l)
  | n + 1, a, l => if l.contains ((a + 1) % 2 ^ 32) then advanceAck n ((a + 1) % 2 ^ 32) (l.erase ((a + 1) % 2 ^ 32)) else (a, l)

/-- The messages in reassembly once a segment has been added. A message that has been applied or rejected takes no more of its
segments. Whether LAST leaves a hole is judged once no sequence number is missing, since until then a segment that fills it may
still come: DESIGN CHOICE, log entry 22 (R60). -/
def reassemble (group : Bool) (type flags msg off : Nat) (complete : Bool) (p : List Byte) (se : Session) : List RxMsg :=
  if isPast se msg then se.rx
  else
    let new : RxMsg := { msg := msg, type := type, parts := [], last := none, bad := 0 }
    let m := takePart type off (flags.testBit 1) p ((se.rx.find? fun m => m.msg = msg).getD new)
    let rx := (se.rx.filter fun m => m.msg ≠ msg) ++ [{ m with group := m.group || group }]
    if complete then rx.map fun m => if m.bad = 0 && hasHole m then { m with bad := reasonMalformed, parts := [] } else m else rx

/-- A session takes a segment with a sequence number of its window (R57, R58, R60, R64). -/
def takeSegment (group : Bool) (now type flags seq msg off : Nat) (p : List Byte) (se : Session) : Session :=
  let r := advanceAck (se.rxAhead.length + 1) se.rxAck (seq :: se.rxAhead)
  { se with
    rx := reassemble group type flags msg off r.2.isEmpty p se, rxAck := r.1, rxAhead := r.2, unackedRx := se.unackedRx + 1
    firstUnacked := some (se.firstUnacked.getD now) }

/-- Whether an acknowledgement is due at once: after a missing sequence number, or 16 segments after the last one (R64). -/
def ackDue (d : Nat) (se : Session) : Bool := d ≠ 1 || 16 ≤ se.unackedRx

/-- A segment lies no further after the ack last advertised than the credit last advertised (R63). -/
def inWindow (se : Session) (seq : Nat) : Bool := (seq + 2 ^ 32 - se.advAck) % 2 ^ 32 ≤ se.credit

/-- Authentication plays no part: dpt_auth 0, or the MAINTENANCE of R56 (R80, R92). -/
def authOff (s : State) : Bool := s.mod.defaultAddress || cfgN s Fld.security_dpt_auth 0 = 0

/-- How the MAC of a datagram stands under a key (R92, R94): ignored with dpt_auth 0 and in the MAINTENANCE of R56. -/
def macOk (s : State) (key h : List Byte) (auth : Bool) (mac : List Byte) : Bool :=
  if authOff s then true
  else if auth then mac = dptMac key h
  else cfgN s Fld.security_dpt_auth 0 ≠ 2

/-- How a SESSION_OPEN datagram stands under security.dpt_key: none without AUTH, otherwise whether its MAC is right
(R92, R93, R94). -/
def openMac (s : State) (udp : List Byte) : Option Bool :=
  if (fld udp 4 2).testBit 2 then
    some (udp.drop (32 + fld udp 22 2) = dptMac s.conf.cfg.dptKey (udp.take (32 + fld udp 22 2)))
  else none

/-- The MAC of a SESSION_OPEN is wrong: it is discarded (R92, R95). -/
def openRefused (s : State) (udp : List Byte) : Bool := !authOff s && openMac s udp = some false

/-- A MAC is wrong: counted, and reported at most once a second for the session (R95). A segment without one is discarded
without a count. -/
def authFailed (i : Nat) (auth : Bool) (s : State) : State :=
  if auth then raiseLimited 0x0212 (sessionOf s i).id (secT 1) (fun _ => [])
    (modSession i (fun e => { e with authFailures := wrapInc 16 e.authFailures }) s)
  else s

/-- Where the module sends on a session from here: the port and the address of an accepted segment, and whether it came to the
group address (R73, R97); the address of a host whose SESSION_OPEN the partner link brought is known from here. -/
def hearFrom (i port addr : Nat) (group : Bool) (s : State) : State :=
  let known := s.net.hosts.any fun h => h.1 = addr
  modSession i (fun e => { e with port := port, addr := addr, toGroup := group })
    (if known then s else { s with net := { s.net with hosts := (addr, port) :: s.net.hosts } })

/-- A segment of an open session (R60, R63 to R66, R73). -/
def sessionSegment (i port addr : Nat) (group : Bool) (udp : List Byte) (s : State) : State :=
  let type := fld udp 3 1
  let seq := fld udp 8 4
  let s1 := modSession i (fun e => applyAck (fld udp 12 4) (fld udp 16 4) (fld udp 20 2) { e with lastRx := s.now }) s
  let se := sessionOf s1 i
  let d := (seq + 2 ^ 32 - se.rxAck) % 2 ^ 32
  if type = 0x04 || type = 0x05 then hearFrom i port addr group s1
  else if d = 0 || 2 ^ 31 ≤ d || se.rxAhead.contains seq then
    sendAck i (modSession i (fun e => { e with toGroup := group }) s1)
  else if !inWindow se seq then modSession i (fun e => { e with overCredit := wrapInc 16 e.overCredit }) s1
  else
    let s2 := modSession i (takeSegment group s.now type (fld udp 4 2) seq (fld udp 24 4) (fld udp 28 4)
      ((udp.drop 32).take (fld udp 22 2))) (hearFrom i port addr group s1)
    let s3 := if ackDue d (sessionOf s2 i) then sendAck i s2 else s2
    rejectBad (sessionOf s3 i).rx.length i s3

/-- A REJECT that belongs to no open session; it is not resent. Its seq, ack and credit, of which the spec says nothing, are 0
(log entry 22). -/
def rejectOutside (port addr session msg type reason : Nat) (s : State) : State :=
  let p := rejectPayload msg type reason 0
  emitTo port addr (.dpt port addr session 0x06 p [dptHeader none 0x06 3 session 0 0 0 0 msg 0 p]) s

/-- A datagram of another major version is answered with REJECT VERSION (R61). -/
def rejectVersion (port addr : Nat) (group : Bool) (udp : List Byte) (s : State) : State :=
  if !transmits s group then s
  else match sessionIdx s (fld udp 6 2) with
    | some i => sendReject i (fld udp 24 4) (fld udp 3 1) reasonVersion 0 s
    | none => rejectOutside port addr (fld udp 6 2) (fld udp 24 4) (fld udp 3 1) reasonVersion s

/-- The active keeps the datagrams of group messages, which its partner may ask for (R506). -/
def keepGroup (group : Bool) (udp : List Byte) (s : State) : State :=
  if group && s.pair.state = .active then { s with pair := { s.pair with segments := s.pair.segments ++ [udp] } } else s

/-- A host may use session entry `i`: its address has opened a session, or that of the session is not known yet (R73). -/
def hostMay (s : State) (i addr : Nat) : Bool := (sessionOf s i).addr = 0 || s.net.hosts.any fun h => h.1 = addr

/-- A DPT datagram that has reached the module's DPT port. SESSION_OPEN belongs to no session yet: it has a command of its
own. The address is tested before the MAC: a segment with a wrong MAC from an address that has opened no session is
dropped, and neither counted nor reported; the spec gives no order (R73, R95; DESIGN CHOICE, log entry 93). -/
def takeDatagram (port addr : Nat) (group : Bool) (udp : List Byte) (s : State) : State :=
  let auth := (fld udp 4 2).testBit 2
  if udp.length < 32 || fld udp 0 2 ≠ 0x5444 then countDiscard port s
  else if fld udp 2 1 / 16 ≠ 2 then countDiscard port (rejectVersion port addr group udp s)
  else if udp.length ≠ 32 + fld udp 22 2 + (if auth then 16 else 0) then countDiscard port s
  else if fld udp 6 2 = 0 && fld udp 3 1 = 0x01 then (if openRefused s udp then s else keepGroup group udp s)
  else match sessionIdx s (fld udp 6 2) with
    | none => s
    | some i =>
      if !hostMay s i addr then s
      else if !macOk s (sessionOf s i).key (udp.take (32 + fld udp 22 2)) auth (udp.drop (32 + fld udp 22 2)) then
        authFailed i auth s
      else sessionSegment i port addr group udp (keepGroup group udp s)

/-- The UDP port of DPT: network.dpt_port, and 49,300 with no configuration in force (R56). -/
def udpPort (s : State) : Nat := if s.mod.defaultAddress then 49300 else cfgN s Fld.network_dpt_port 0

/-- A UDP datagram on a port; one to another UDP port is discarded (R54, R57, R60, R61, R63). -/
def hearDatagram (t port addr : Nat) (dest : UdpDest) (udp : List Byte) (s : State) : State :=
  let s1 := beginAt t s
  if !portHears s1 port then s1
  else if isSilent s1 then countFrame port s1
  else if dest.port ≠ udpPort s1 then countDiscard port (countFrame port s1)
  else takeDatagram port addr dest.group udp (countFrame port s1)

/-! ### Timers (R64, R66, R68, R72) -/

/-- ACK_DELAY_EXPIRY (R64). -/
def execAckDelayExpiry (t session : Nat) (s : State) : Host.Outcome State Fault Refusal :=
  let s1 := beginAt t s
  match sessionIdx s1 session with
  | none => .next s1
  | some i =>
    match (sessionOf s1 i).firstUnacked with
    | none => .next s1
    | some f => .next (if f + usT (cfgN s1 Fld.network_ack_delay 0) ≤ s1.now then sendAck i s1 else s1)

/-- CREDIT_REOPENED (R66): the buffers of the session empty into the memory until the credit, which has been 0, is
`credit`; an ACK goes out at once. -/
def execCreditReopened (t session credit : Nat) (s : State) : Host.Outcome State Fault Refusal :=
  let s1 := beginAt t s
  match sessionIdx s1 session with
  | none => .next s1
  | some i =>
    let c := min credit (creditMax s1)
    .next (if (sessionOf s1 i).credit = 0 && 0 < c then sendAckWith c i (modSession i (drainTo c (creditMax s1)) s1) else s1)

/-- A segment of the module is sent again, with the present ack, sack and credit, at twice the interval (R64, R68). -/
def resendSegment (i : Nat) (x : TxSeg) (s : State) : State :=
  let se := sessionOf s i
  let c := creditNow s se
  let s1 := modSession i (fun e => { advertise s.now c e with
    retransmits := wrapInc 16 e.retransmits
    tx := e.tx.map fun y => if y.seq = x.seq then { y with tries := y.tries + 1, sentAt := s.now } else y }) s
  emitTo se.port se.addr (.datagram se.port se.addr (dptDatagram c se x)) s1

/-- DPT_RTO_EXPIRY (R68): a segment unacknowledged for its interval is resent, and after the last retry the session is
lost; what belongs to the group address only ACTIVE or SOLO sends again (R97). -/
def execDptRtoExpiry (t session seq : Nat) (s : State) : Host.Outcome State Fault Refusal :=
  let s1 := beginAt t s
  match sessionIdx s1 session with
  | none => .next s1
  | some i =>
    match (sessionOf s1 i).tx.find? fun x => x.seq = seq with
    | none => .next s1
    | some x =>
      .next (
        if !transmits s1 x.group || s1.now < x.sentAt + usT (cfgN s1 Fld.network_dpt_rto 0) * 2 ^ x.tries then s1
        else if x.tries < cfgN s1 Fld.network_dpt_retries 0 then resendSegment i x s1
        else raise 0x0210 [] (closeSession i closeLost s1))

/-- SESSION_TIMEOUT (R72). -/
def execSessionTimeout (t session : Nat) (s : State) : Host.Outcome State Fault Refusal :=
  let s1 := beginAt t s
  match sessionIdx s1 session with
  | none => .next s1
  | some i =>
    .next (if (sessionOf s1 i).lastRx + msT (cfgN s1 Fld.network_session_timeout 0) ≤ s1.now then closeSession i closeTimeout s1
           else s1)

/-- KEEPALIVE_DUE (R72): it carries the acknowledgement and uses no sequence number (R62, R64). -/
def execKeepaliveDue (t session : Nat) (s : State) : Host.Outcome State Fault Refusal :=
  let s1 := beginAt t s
  match sessionIdx s1 session with
  | none => .next s1
  | some i =>
    let se := sessionOf s1 i
    .next (if se.lastTx + msT (cfgN s1 Fld.network_session_timeout 0) / 4 ≤ s1.now && speaks s1 se then
      sendBare 0x04 (creditNow s1 se) i s1 else s1)

end Sys2Proof.Machine
end

