-- ==== Sys2Proof/Machine/Sessions.lean ====
section
/-! DEFINITION. The session messages (03_host_transport.md, R69 to R74, R80, R84, R92 to R97). -/
namespace Sys2Proof.Machine
open Sys2Proof

/-! ### SESSION_OPEN (R69 to R71, R92, R93) -/

/-- The entry of the CONTROL session. -/
def controlIdx (s : State) : Option Nat := (openSessions s).find? fun i => (sessionOf s i).control

/-- The payload of a SESSION_OPEN datagram. -/
def openPayload (udp : List Byte) : List Byte := (udp.drop 32).take (fld udp 22 2)

/-- Why a SESSION_OPEN is rejected: form, role, authentication, control held, sessions full (R70, R71, R92; field 0x1203). -/
def openError (s : State) (mac : Option Bool) (p : List Byte) : Option Nat :=
  let role := fld p 0 1
  let takeover := (fld p 1 1).testBit 0
  if p.length < 56 || 1 < role then some reasonMalformed
  else if !authOff s && cfgN s Fld.security_dpt_auth 0 = 2 && mac = none then some reasonAuthRequired
  else if !authOff s && role = 1 && s.conf.cfg.dptKey.all (· = 0) then some reasonAuthRequired
  else if role = 1 && (controlIdx s).isSome then (if takeover then none else some reasonControlHeld)
  else if (openSessions s).length = 4 then some reasonSessionsFull
  else none

/-- A session id that is not 0 and not in use, by the random number drawn. -/
def freshId (v : Nat) (used : List Nat) : Nat :=
  (((List.range 6).map fun k => (v + k) % 65536).find? fun x => x ≠ 0 && !used.contains x).getD 1

/-- The session key (R93). -/
def sessionKey (s : State) (hostNonce moduleNonce : List Byte) (id : Nat) : List Byte :=
  hmac256 s.conf.cfg.dptKey ([0x44#8, 0x50#8, 0x54#8, 0x2D#8, 0x53#8] ++ hostNonce ++ moduleNonce ++ leBytes 2 id)

/-- The payload of SESSION_ACCEPT. -/
def acceptPayload (s : State) (se : Session) (role : Nat) (nonce : List Byte) : List Byte :=
  leBytes 2 se.id ++ leBytes 1 role ++ leBytes 1 0 ++ leBytes 4 se.txSeq ++ nonce ++ leBytes 2 se.credit ++
    leBytes 2 (maxPayload s se) ++ leBytes 1 (stateCode s.mod.state) ++ leBytes 1 (pairCode s.pair.state) ++
    leBytes 1 (ringCode s.ring.state) ++ leBytes 1 0 ++ padTo 8 s.update.digest

/-- What a SESSION_OPEN that is sent again has in common with the first one: initial_seq and the random host_nonce (R65, R95). -/
def openingOf (p : List Byte) : List Byte := (p.drop 4).take 20

/-- The open session that a SESSION_OPEN has opened already (R65). -/
def openedBy (s : State) (p : List Byte) : Option Nat := (openSessions s).find? fun i => (sessionOf s i).opening = openingOf p

/-- A session opens in a free entry, under an id that the active has told or a random one (R70, R71, R98). The module's nonce and
initial sequence number are random, and the same on both modules of a pair (R98): one open value for each SESSION_OPEN, whose
host_nonce is new (R95; log entry 22). "Opened with AUTH" goes by the AUTH bit and the MAC of the datagram; the AUTH bit of the
payload's flags plays no part: DESIGN CHOICE, log entry 22 (R94). -/
def openSession (id? : Option Nat) (port addr : Nat) (group : Bool) (mac : Option Bool) (p : List Byte) (s : State) : State :=
  let role := fld p 0 1
  let s1 := match controlIdx s with
    | some i => if role = 1 then raise 0x0211 [] (closeSession i closeTakenOver s) else s
    | none => s
  match (List.range 4).find? fun i => (sessionOf s1 i).id = 0 with
  | none => s1
  | some i =>
    let id := id?.getD (freshId (Config.freeSessionId s1.freeN).toNat ((openSessions s1).map fun i => (sessionOf s1 i).id))
    let nonce := leBytes 16 (Config.freeNonce p).toNat
    let se : Session :=
      { freedSession (sessionOf s1 i) with
        id := id, control := role = 1, auth := !authOff s && mac = some true, group := group, toGroup := group
        txSeq := (Config.freeInitialSeq p).toNat, rxAck := fld p 4 4, advAck := fld p 4 4, credit := creditMax s
        lastRx := s.now, port := port, addr := addr, key := sessionKey s ((p.drop 8).take 16) nonce id
        messagesApplied := wrapInc 32 (sessionOf s1 i).messagesApplied, opening := openingOf p }
    let s2 := drawFree (modSession i (fun _ => se) s1)
    sendDpt i 0x02 (acceptPayload s2 se role nonce)
      (forgetLimit 0x0212 id { s2 with net := { s2.net with hosts := (addr, port) :: s2.net.hosts.filter fun h => h.1 ≠ addr } })

/-- REJECT of a SESSION_OPEN (R57, R70, R97). -/
def rejectOpen (reason port addr : Nat) (group : Bool) (s : State) : State :=
  if transmits s group then rejectOutside port addr 0 1 0x01 reason s else s

/-- What a following module keeps of a group SESSION_OPEN until its ORDER entry: port and address, then the datagram. -/
def heldOpen (port addr : Nat) (udp : List Byte) : List Byte := leBytes 1 port ++ leBytes 16 addr ++ udp

/-- The ORDER entry of a group SESSION_OPEN names the session that it opened, 0 where it was rejected (R98, R506). -/
def orderOpen (group : Bool) (p : List Byte) (before s : State) : State :=
  match (openSessions s).find? fun i => !(openSessions before).contains i || (sessionOf s i).id ≠ (sessionOf before i).id with
  | some i => sendOrder group (sessionOf s i).id 1 0x01 p s
  | none => sendOrder group 0 1 0x01 p s

/-- A SESSION_OPEN sent again is acknowledged and otherwise discarded; it goes where the session's segments go (R64, R65). -/
def openAgain (i : Nat) (group : Bool) (s : State) : State := sendAck i (modSession i (fun e => { e with toGroup := group }) s)

/-- A wrong MAC is counted and reported, at most once a second, without an answer (R95). -/
def openFailed (s : State) : State :=
  raiseLimited 0x0212 0 (secT 1) (fun _ => []) { s with net := { s.net with openFailures := wrapInc 16 s.net.openFailures } }

/-- SESSION_OPEN applied (R65, R70, R92, R95). -/
def applyOpen (port addr : Nat) (group : Bool) (udp : List Byte) (s : State) : State :=
  let p := openPayload udp
  let mac := openMac s udp
  if openRefused s udp then openFailed s
  else match openedBy s p, openError s mac p with
    | some i, _ => openAgain i group s
    | none, some r => sendOrder group 0 1 0x01 p (rejectOpen r port addr group s)
    | none, none => orderOpen group p s (openSession none port addr group mac p s)

/-- A datagram that passes the checks of R61 and carries a SESSION_OPEN; of one that does not, DPT_SEGMENT_RECEIVED says what
becomes. -/
def isOpenDatagram (udp : List Byte) : Bool :=
  fld udp 0 2 = 0x5444 && fld udp 2 1 / 16 = 2 && fld udp 3 1 = 0x01 && fld udp 6 2 = 0 &&
    udp.length = 32 + fld udp 22 2 + (if (fld udp 4 2).testBit 2 then 16 else 0)

/-- SESSION_OPEN (R61, R70, R93): its datagram as the header of *Table: DPT header* and what follows it, the payload and
the MAC. -/
def execSessionOpen (t port addr : Nat) (group : Bool) (header body : List Byte) (s : State) : Host.Outcome State Fault Refusal :=
  let s1 := beginAt t s
  let udp := header ++ body
  .next (
    if isSilent s1 || !isOpenDatagram udp then s1
    else if openRefused s1 udp then openFailed s1
    else if group && follows s1 then holdMessage (0, 1, 0x01, heldOpen port addr udp) s1
    else applyOpen port addr group udp s1)

/-! ### The other session messages -/

/-- SESSION_CLOSE of the host (R74). -/
def msgSessionClose (i : Nat) (_p : List Byte) (s : State) : Verdict := .ok (modSession i freedSession s)

/-- KEEPALIVE (R72): the session has been heard. -/
def execKeepalive (t session : Nat) (s : State) : Host.Outcome State Fault Refusal :=
  let s1 := beginAt t s
  match sessionIdx s1 session with
  | none => .next s1
  | some i => .next (modSession i (fun e => { e with lastRx := s1.now }) s1)

/-- ACK (R57, R62): the module's segments that it covers are done with. -/
def execAck (t session ack sack credit : Nat) (s : State) : Host.Outcome State Fault Refusal :=
  let s1 := beginAt t s
  match sessionIdx s1 session with
  | none => .next s1
  | some i => .next (modSession i (fun e => applyAck ack sack credit { e with lastRx := s1.now }) s1)

/-- A message of a type that the host may not send. -/
def msgUnknown (_i : Nat) (_p : List Byte) (_s : State) : Verdict := .error (reasonUnknownType, 0)

end Sys2Proof.Machine
end

