-- ==== Sys2Proof/Machine/Loops.lean ====
section
/-! DEFINITION. OWNER frames, and loop-backs: the patterns and their checker, what each interface counts, LOOP frames, and how a
loop-back begins and ends (11_tollos_link.md, R337, R338; 24_loopback_and_test.md, R637 to R654; 23_mode_combinations.md, R635). -/
namespace Sys2Proof.Machine
open Sys2Proof

/-! ### OWNER frames (*Table: OWNER frame*) -/

/-- The role in OWNER frames (R337). -/
def ownerRole (s : State) : Nat := if drives s && (s.mod.state = .idle || inRun s || s.mod.state = .halted) then 1 else 0

/-- The role and owner word as one number. -/
def claimWord (s : State) : Nat := ownerRole s * 2 ^ 32 + ownerWord s

/-- An OWNER frame (*Table: OWNER frame*). -/
def ownerFrame (s : State) (k : Nat) : List Byte :=
  leBytes 1 0x10 ++ leBytes 1 (ownerRole s) ++ leBytes 2 (if s.jobs.runId = 0xFFFFFFFF then 0 else s.jobs.runTag) ++
    leBytes 4 (ownerWord s) ++ leBytes 1 k ++
    leBytes 1 (s.power.position % 4 + 4 * s.power.side) ++ leBytes 2 0

/-- An OWNER frame on a data lane after `before`, followed by K28.5 (R331, R336, R338). -/
def sendClaim (before : List Symbol) (g : Nat) (s : State) : State :=
  sendSymbols g (before ++ frameSymbols (ownerFrame s (g / 3)) ++ [kComma])
    (modLane g (fun x => { x with ownerSent := some (claimWord s) }) s)

/-! ### The patterns (R641) -/

/-- The exponents of a pattern's generator polynomial: PRBS7, PRBS23, PRBS31. -/
def prbsTaps (pattern : Nat) : Nat × Nat := if pattern = 0 then (7, 6) else if pattern = 1 then (23, 18) else (31, 28)

/-- The register of the generator a bit later; its lowest bit is that bit of the pattern. -/
def prbsStep (t : Nat × Nat) (r : Nat) : Nat := (2 * r + b2n (r.testBit (t.1 - 1) != r.testBit (t.2 - 1))) % 2 ^ t.1

/-- Eight bits of the pattern as a byte, bit 0 the first, and the register after them. -/
def prbsByte (t : Nat × Nat) (r : Nat) : Nat × Nat :=
  (List.range 8).foldl (fun p i => (p.1 + 2 ^ i * (prbsStep t p.2 % 2), prbsStep t p.2)) (0, r)

/-- `n` bytes of the pattern after those given, newest first, and the register after them. -/
def prbsBytes (t : Nat × Nat) : Nat → List Byte → Nat → List Byte × Nat
  | 0, l, r => (l.reverse, r)
  | n + 1, l, r => prbsBytes t n (BitVec.ofNat 8 (prbsByte t r).1 :: l) (prbsByte t r).2

/-- A register to begin with: any but 0, which the pattern never leaves. -/
def prbsSeed (pattern n : Nat) : Nat := (Config.freeValue n).toNat % (2 ^ (prbsTaps pattern).1 - 1) + 1

/-! ### The checker of a serial lane (R641) -/

/-- A checker: bits received; how many in a row were right while it was not locked; whether it is locked, and the places
of the wrong bits among the last 1,024 since; where it locked first; and what it has counted. -/
structure Checker where
  pos    : Nat := 0
  good   : Nat := 0
  locked : Bool := false
  recent : List Nat := []
  lockAt : Option Nat := none
  units  : Nat := 0
  errors : Nat := 0
  losses : Nat := 0
  firstAt : Option Nat := none
  deriving DecidableEq, Repr, Inhabited

/-- `n` right bits: 64 in a row lock it. -/
def rightBits (n : Nat) (c : Checker) : Checker :=
  if c.locked then { c with pos := c.pos + n, units := c.units + n }
  else if c.good + n < 64 then { c with pos := c.pos + n, good := c.good + n }
  else { c with pos := c.pos + n, good := 0, locked := true, recent := [], units := c.units + (c.good + n - 64)
                lockAt := some (c.lockAt.getD (c.pos + (64 - c.good))) }

/-- A wrong bit: an error while locked; the 64th within 1,024 bits loses the lock. -/
def wrongBit (c : Checker) : Checker :=
  if !c.locked then { c with pos := c.pos + 1, good := 0 }
  else
    let l := c.pos :: c.recent.filter fun p => c.pos < p + 1024
    let c1 := { c with pos := c.pos + 1, units := c.units + 1, errors := c.errors + 1, recent := l
                       firstAt := some (c.firstAt.getD c.pos) }
    if l.length < 64 then c1 else { c1 with locked := false, good := 0, recent := [], losses := c1.losses + 1 }

/-- `n` wrong bits in a row: the first 64 lose any lock. -/
def wrongRun (n : Nat) (c : Checker) : Checker :=
  let c1 := (List.range (min n 64)).foldl (fun c _ => wrongBit c) c
  { c1 with pos := c1.pos + (n - 64) }

/-- A lane of `total` bits whose runs of wrong bits, as place and length, are given in order. -/
def checkLane (total : Nat) : List (Nat × Nat) → Checker → Checker
  | [], c => rightBits (total - c.pos) c
  | (a, n) :: l, c =>
    let c1 := rightBits (min a total - c.pos) c
    checkLane total l (wrongRun (min (a + n) total - c1.pos) c1)

/-! ### The interfaces (*Table: Loop-back depths*) -/

def reasonLoopbackBusy : Nat := 0x0020
def reasonDepth : Nat := 0x0021

/-- How many there are of each interface, by its code. -/
def loopCount : List Nat := [16, 1, 1, 2, 4, 1, 16, 12, 1]

/-- The depths of each interface (*Table: Loop-back depths*). -/
def loopDepths : List (List Nat) := [[0, 2], [0, 1], [0, 1], [0, 1], [0], [0, 1], [0, 1], [0, 1], [0]]

/-- The units of each interface and depth, as the result reports them. -/
def loopUnit (interface depth : Nat) : Nat :=
  if interface = 0 && depth = 2 then 1
  else [0, 0, 0, 0, 2, 0, 3, 4, 5].getD interface 0

/-- A FAR loop-back of a head link. -/
def isFar (l : Loop) : Bool := l.interface = 0 && l.depth = 2

/-- A loop-back with a checker that locks. -/
def isSerial (l : Loop) : Bool := l.interface < 4 && !isFar l

/-- The bits per second of each lane that a serial loop-back checks: L0 to L2 and UP, R0 and R1, P0 to P3, or the port's one
(R324, R473, R504, R53). -/
def loopRates (s : State) (l : Loop) : List Nat :=
  match l.interface with
  | 0 => [6250000000, 6250000000, 6250000000, 1562500000]
  | 1 => [6250000000, 6250000000]
  | 2 => [6250000000, 6250000000, 6250000000, 6250000000]
  | _ => [if activeMode (portMode s l.index) (portOf s l.index).trying = 3 then 10312500000 else 25781250000]

/-- How long a loop-back has run, to its end where its generator has stopped. -/
def loopTicks (s : State) (l : Loop) : Nat := l.endedAt.getD s.now - l.startedAt

/-- A running loop-back changes. -/
def modLoop (ticket : Nat) (f : Loop → Loop) (s : State) : State :=
  { s with loops := s.loops.map fun x => if x.ticket = ticket then f x else x }

/-! ### What a loop-back has counted (R641, R644, R648 to R652) -/

/-- The counts of a loop-back (*Table: LOOPBACK_REQ result body*); the first error is in ms from the start. -/
structure LoopCounts where
  units      : Nat := 0
  errors     : Nat := 0
  lockLosses : Nat := 0
  firstError : Nat := 0xFFFFFFFF
  detail     : Nat := 0
  deriving DecidableEq, Repr, Inhabited

/-- The checkers of a serial loop-back, each with its lane's rate; a lane without an entry in `wrong` came back right. -/
def loopCheckers (s : State) (l : Loop) (wrong : List (List (Nat × Nat))) : List (Nat × Checker) :=
  (loopRates s l).zipIdx.map fun p => (p.1, checkLane (loopTicks s l * p.1 / secT 1) (wrong.getD p.2 []) {})

/-- The runs of wrong bits that came back. -/
def wrongBitsOf : LoopReturn → List (List (Nat × Nat))
  | .bits wrong => wrong
  | _ => []

/-- Every checker has locked within 1 ms of the start (R642). -/
def loopLocked (s : State) (l : Loop) (r : LoopReturn) : Bool :=
  !isSerial l || (loopCheckers s l (wrongBitsOf r)).all fun p => p.2.lockAt.any fun n => 1000 * n ≤ p.1

/-- The counts of a serial loop-back: its lanes together. -/
def serialCounts (cs : List (Nat × Checker)) : LoopCounts :=
  { units := (cs.map fun p => p.2.units).sum, errors := (cs.map fun p => p.2.errors).sum
    lockLosses := (cs.map fun p => p.2.losses).sum
    firstError := (cs.filterMap fun p => p.2.firstAt.map fun n => 1000 * n / p.1).foldl min 0xFFFFFFFF }

/-- The counts of a FAR loop-back: whole repetitions of 4,130 symbols on three lanes, and what crc_errors has risen by (R644). -/
def farCounts (s : State) (l : Loop) : LoopCounts :=
  { units := 3 * (loopTicks s l / nsT 6608), errors := l.errors
    firstError := (l.firstAt.map fun t => (t - l.startedAt) / msT 1).getD 0xFFFFFFFF }

/-- The synthetic frame of a camera, after stage 2 (R648). -/
def syntheticFrame (s : State) (c : Nat) : Optics :=
  stage2 (camOf s c).flat
    { mosaic := mosaicOf s c, width := cfgN s Fld.camera_width c, binned := cfgN s Fld.camera_reconstruct c = 0
      rows := (Array.range (cfgN s Fld.camera_height c)).map fun y =>
        some ((Array.range (cfgN s Fld.camera_width c)).map fun x => (x + y) % 4096 * 16) }

/-- The statistics of the synthetic frame (R648). DESIGN CHOICE: the density block begins at the frame's first row, and
its bars are those with heads (log entry 29). -/
def syntheticStats (s : State) (c : Nat) : List Stat :=
  densityStats s ⟨c, camOffset s c, 0, syntheticFrame s c, false⟩ ((List.range 8).filter fun b => !(barLinks s.conf.cfg b).isEmpty)
    { slot := 0, block := default, point := 0, versions := [], files := (0, 0) }

/-- The statistics that came out otherwise than the supervisor computes them. -/
def statErrors (s : State) (c : Nat) (wrong : List (Nat × Nat × Nat × Nat)) : Nat :=
  let l := syntheticStats s c
  (wrong.filter fun w => l[w.1]?.any fun x => (x.count, x.sum, x.sq) ≠ w.2).length

/-- The level that a motion output is stepped to: high, low, high impedance (0 to 2) in turn (R652). -/
def motionLevel (step : Nat) : Nat := step % 3

/-- The read-backs listed. -/
def levelsOf : LoopReturn → List (Nat × Nat × Nat)
  | .levels l => l
  | _ => []

/-- The engine-vectors of codec self-verification: 48 compressors, 48 decompressors, 128 surface decode engines, four vectors. -/
def engineVectors : Nat := 4 * (48 + 48 + 128)

/-- The counts of a loop-back on what came back, done wholly or in part (R641, R644, R648 to R652). -/
def loopCounts (s : State) (l : Loop) (whole : Bool) (r : LoopReturn) : LoopCounts :=
  let part (n all : Nat) : Nat := if whole then all else min n all
  let from_ (errors first : Nat) : Nat := if errors = 0 then 0xFFFFFFFF else first
  if isFar l then farCounts s l
  else if isSerial l then serialCounts (loopCheckers s l (wrongBitsOf r))
  else if l.interface = 6 && l.depth = 1 then
    let x := inputOf s l.index
    let e := (max l.units l.paramB - min l.units l.paramB) + (x.illegal + 65536 - l.illegal) % 65536 +
      (x.wireDisagreements + 65536 - l.disagreements) % 65536
    { units := l.units, errors := e, firstError := from_ e ((l.firstAt.map fun t => (t - l.startedAt) / msT 1).getD
        (loopTicks s l / msT 1)) }
  else match l.interface, r with
    | 4, .stats n wrong first =>
      let e := statErrors s l.index wrong
      { units := part n (syntheticStats s l.index).length, errors := e, firstError := from_ e first }
    | 4, _ => { units := if whole then (syntheticStats s l.index).length else 0 }
    | 5, .scan n reads first =>
      let e := (reads.map (burstCorrections s)).sum
      { units := part n (8 * l.paramB), errors := e, firstError := from_ e first, detail := (reads.filter (burstBad s)).length }
    | 5, .march n failed addr first =>
      { units := part n (8 * l.paramB), errors := failed, firstError := from_ failed first
        detail := if failed = 0 then 0 else addr / 64 }
    | 5, _ => { units := if whole then 8 * l.paramB else 0 }
    | 6, .edges n illegal wires first =>
      let e := (max n l.paramB - min n l.paramB) + illegal + wires
      { units := n, errors := e, firstError := from_ e first }
    | 6, _ => { units := if whole then l.paramB else 0 }
    | 7, r =>
      let wrong := (levelsOf r).filter fun w => w.2.2 ≠ motionLevel w.2.1
      { units := 4 * (loopTicks s l / usT 100), errors := wrong.length
        firstError := (wrong.map fun w => w.2.1 / 10).foldl min 0xFFFFFFFF }
    | _, .vectors n results first =>
      let bad := results.filter fun x => !vectorMatches x
      { units := part n engineVectors, errors := bad.length, firstError := from_ bad.length first
        detail := (bad.head?.map fun x => x.kind * 65536 + x.engine * 256 + x.vector).getD 0 }
    | _, _ => { units := if whole then engineVectors else 0 }

/-! ### LOOP frames (R644) -/

/-- The FAR loop-back that sends on a link. -/
def farLoop (s : State) (k : Nat) : Option Loop := s.loops.find? fun l => isFar l && l.index = k && l.endedAt.isNone

/-- One repetition of a FAR loop-back on a data lane: a LOOP frame, K28.5, an OWNER frame, K28.5 (R644, *Table: LOOP frame*). -/
def sendLoop (l : Loop) (lane : Nat) (s : State) : State :=
  let g := l.generators.getD lane (0, 1)
  let d := prbsBytes (prbsTaps l.pattern) 4096 [] g.2
  sendClaim (frameSymbols (leBytes 1 0x11 ++ leBytes 1 lane ++ leBytes 2 0 ++ leBytes 4 g.1 ++ d.1) ++ [kComma]) (3 * l.index + lane)
    (modLoop l.ticket (fun x => { x with generators := x.generators.set lane ((g.1 + 1) % 2 ^ 32, d.2) }) s)

/-- An OWNER frame on a data lane, with the LOOP frame of a loop-back that runs over it (R338, R644). -/
def sendOwner (g : Nat) (s : State) : State :=
  match farLoop s (g / 3) with
  | some l => sendLoop l (g % 3) s
  | none => sendClaim [] g s

/-! ### Beginning (R635, R637 to R639, R643, R646, R650, R653) -/

/-- The request's fields are in range (R637, R650, R651). -/
def loopRange (p : List Byte) : Bool :=
  let i := fld p 5 1
  let a := fld p 16 8
  let b := fld p 24 8
  fld p 4 1 ≤ 1 && i ≤ 8 && fld p 6 1 < loopCount.getD i 0 && (3 < i || fld p 8 1 ≤ 2) && fld p 12 4 ≤ 3600000 &&
    (i ≠ 5 || (0 < b && a + b ≤ gib 128)) &&
    (!(i = 5 && fld p 7 1 = 1) || (a % 4096 = 0 && b % 4096 = 0 && a + b ≤ gib 124)) &&
    (!(i = 6 && fld p 7 1 = 0) || a ≤ 50000000)

/-- The depth and the pattern are ones that the interface has (R637): Ethernet has PRBS31 only. -/
def loopDepthOk (p : List Byte) : Bool :=
  let i := fld p 5 1
  (loopDepths.getD i []).contains (fld p 7 1) && !(i = 3 && fld p 8 1 ≠ 2)

/-- An input is in use (R653). -/
def inputInUse (s : State) (i : Nat) : Bool :=
  (runBars s).any (fun b => cfgN s Fld.position_bar_input b = i) ||
    (List.range 4).any (fun c => cfgN s Fld.camera_enable c = 1 && cfgN s Fld.camera_source c = i) ||
    (List.range 12).any (fun a => (axisOf s a).state ≠ .off && cfgN s Fld.motion_encoder_input a = i) ||
    (groupKing s && cfgN s Fld.ring_origin_input 0 = i)

/-- Every channel that a range of bytes touches is trained (R221, R650): seven bursts in a row touch all four. -/
def rangeTrained (s : State) (a b : Nat) : Bool :=
  let first := a / 64
  let n := ceilDiv (a + b) 64 - first
  if n < 7 then (List.range n).all fun i => s.mem.trained.getD (placeOf (64 * (first + i))).channel false else s.mem.trained.all id

/-- *Table: Loop-backs by module state*, R635, R646 and R650; `group`: the request was sent to the group address; `port`
is the one that it came in on; `a` and `b` are its param_a and param_b. -/
def loopAllowed (s : State) (group : Bool) (port interface index depth a b : Nat) : Bool :=
  let run := inRun s || s.mod.state = .halted
  let maint : Bool := s.mod.state = .maintenance
  let outside := !(run && (runBars s).contains (index / 2))
  !group && !follows s &&
    (match interface with
     | 0 => outside && (depth ≠ 2 || linkUp s index)
     | 1 => s.ring.state ≠ .king && s.ring.state ≠ .member && s.ring.state ≠ .joining
     | 2 => !(s.pair.state = .active && !s.pair.absent)
     | 3 => port ≠ index
     | 4 => if maint then domainOn s 8
            else !run || cfgN s Fld.camera_enable index = 0 || (s.jobs.armed.map fun a => a.run.inspection).getD 0 = 0
     | 5 => rangeTrained s a b && (depth = 0 || !run)
     | 6 => maint || depth = 0 || !inputInUse s index
     | 7 => if depth = 0 then maint || (axisOf s index).state = .off else cfgN s Fld.motion_enable index = 0 && !run
     | _ => if maint then domainOn s 5 && domainOn s 6 else !run)

/-- MARCH destroys what it tests: surfaces with stored bytes in the range become undefined, pages with streams in it return
to DEFINED (R650). -/
def marchOver (a b : Nat) (s : State) : State :=
  let hit (lo hi id : Nat) : Bool := a < hi && lo < a + b && ((a ≤ lo && hi ≤ a + b) || Config.inRange s.freeN id)
  let lo := pageStore s
  let hi := pageStore s + surfaceArea s
  let left := s.jobs.surfaces.filter fun f => f.tiles.isEmpty || !hit lo hi f.id
  let s1 := drawFree { s with jobs := { s.jobs with surfaces := left } }
  forEach ((s.jobs.pages.filter fun p => hit 0 lo p.id).map fun p => p.id) pageAgain s1

/-- What starting a loop-back does to the interface: a link under NEAR is DISABLED (R643), one under FAR carries LOOP
frames (R644), an Ethernet port is down (R646), the memory under MARCH is written over (R650); at PAD the module drives
the pads (R641, R652). -/
def loopStarts (l : Loop) (s : State) : State :=
  let s1 := if l.depth = 1 && l.interface ≠ 5 && l.interface ≠ 6 then
    emit (.pattern l.interface l.index l.pattern ((l.generators.head?.map (·.2)).getD 0)) s else s
  if isFar l then forEach [0, 1, 2] (fun j s => sendOwner (3 * l.index + j) s) s1
  else if l.interface = 0 then disableLink l.index s1
  else if l.interface = 3 && (portOf s1 l.index).linkUp then
    raise 0x0213 (leBytes 1 l.index) (modPort l.index (fun x =>
      { x with linkUp := false, modeActive := 0, linkDowns := wrapInc 16 x.linkDowns, trying := 1, tryingSince := s1.now }) s1)
  else if l.interface = 5 && l.depth = 1 then marchOver l.paramA l.paramB s1
  else s1

/-- LOOPBACK_REQ with action START (R635, R637 to R639, R653). -/
def msgLoopStart (i : Nat) (p : List Byte) (s : State) : Verdict :=
  let itf := fld p 5 1
  let idx := fld p 6 1
  let depth := fld p 7 1
  if !loopRange p then .error (0x0304, 0)
  else if !loopDepthOk p then .error (reasonDepth, 0)
  else if !loopAllowed s (sessionOf s i).toGroup (sessionOf s i).port itf idx depth (fld p 16 8) (fld p 24 8) then .error (reasonWrongState, 0)
  else if s.loops.any (fun l => l.interface = itf && l.index = idx) then .error (reasonLoopbackBusy, 0)
  else
    let x := inputOf s idx
    let l : Loop :=
      { ticket := fld p 0 4, interface := itf, index := idx, depth := depth, pattern := fld p 8 1, duration := fld p 12 4
        startedAt := s.now, paramA := fld p 16 8, paramB := fld p 24 8
        generators := [0, 1, 2].map fun j => (0, prbsSeed (fld p 8 1) (s.freeN + j))
        illegal := x.illegal, disagreements := x.wireDisagreements }
    .ok (loopStarts l (addPending l.ticket 0x0B (drawFrees 3 { s with loops := s.loops ++ [l] })))

/-! ### Ending (R640, R642, R643, R644, R654) -/

/-- *Table: LOOPBACK_REQ result body*. -/
def loopBody (s : State) (l : Loop) (outcome : Nat) (c : LoopCounts) : List Byte :=
  leBytes 1 outcome ++ leBytes 1 (b2n l.stopped) ++ leBytes 1 l.interface ++ leBytes 1 l.index ++ leBytes 1 l.depth ++
    leBytes 1 (loopUnit l.interface l.depth) ++ leBytes 2 0 ++ leBytes 8 c.units ++ leBytes 8 c.errors ++
    leBytes 4 c.lockLosses ++ leBytes 4 c.firstError ++ leBytes 4 c.detail ++ leBytes 4 (loopTicks s l / msT 1)

/-- What the end of a loop-back gives back: a link that was under NEAR trains again (R643). -/
def loopEnds (l : Loop) (s : State) : State :=
  if l.interface = 0 && l.depth = 0 then
    (if !s.conf.inForce then startLanes l.index (modLink l.index (fun x => { x with state := .idleOnly }) s)
     else if linkEnabled s l.index then startTraining l.index s else s)
  else s

/-- A loop-back ends: its result is ready, and LOOPBACK_DONE is raised (R642, R654). -/
def endLoop (l : Loop) (outcome : Nat) (c : LoopCounts) (s : State) : State :=
  let s1 := loopEnds l { s with loops := s.loops.filter fun x => x.ticket ≠ l.ticket }
  raise 0x0021 (leBytes 4 l.ticket ++ leBytes 1 outcome) (drawFree (finishResult l.ticket (loopBody s l outcome c) s1))

/-- PASS with units and neither error nor lock loss, FAIL otherwise (R642). -/
def loopOutcome (c : LoopCounts) : Nat := if 0 < c.units && c.errors = 0 && c.lockLosses = 0 then 0 else 1

/-- A loop-back has done its work, or its time is over: a FAR one waits for the closing STATUS frame (R644), any other ends, with
NO_LOCK where its checker has not locked in time (R642). -/
def closeLoop (l : Loop) (whole : Bool) (r : LoopReturn) (s : State) : State :=
  if isFar l then modLoop l.ticket (fun x => { x with endedAt := some (x.endedAt.getD s.now), stopped := x.stopped || l.stopped }) s
  else
    let c := loopCounts s l whole r
    endLoop l (if loopLocked s l r || s.now < l.startedAt + msT 1 then loopOutcome c else 2) c s

/-- A valid STATUS frame of a link under FAR: crc_errors from the first frame on, up to the first one 200 µs after the end
(R644). -/
def farStatus (k crcErrors : Nat) (s : State) : State :=
  match s.loops.find? fun l => isFar l && l.index = k with
  | none => s
  | some l =>
    let n := (crcErrors + 65536 - l.basis.getD crcErrors) % 65536
    let l1 := { l with basis := some crcErrors, errors := l.errors + n
                       firstAt := if n = 0 then l.firstAt else some (l.firstAt.getD s.now) }
    if l.endedAt.any fun e => e + usT 200 ≤ s.now then endLoop l1 (loopOutcome (farCounts s l1)) (farCounts s l1) s
    else modLoop l.ticket (fun _ => l1) s

/-- A link under FAR leaves UP: NO_LOCK (R642). -/
def farDown (k : Nat) (s : State) : State :=
  match s.loops.find? fun l => isFar l && l.index = k with
  | none => s
  | some l => endLoop l 2 (farCounts s l) s

/-- LOOPBACK_REQ with action STOP (R640). -/
def msgLoopStop (r : LoopReturn) (_i : Nat) (p : List Byte) (s : State) : Verdict :=
  match s.loops.find? fun l => l.ticket = fld p 0 4 with
  | none => .error (0x0301, 0)
  | some l => .ok (closeLoop { l with stopped := true } false r s)

/-- LOOPBACK_REQ by its action. -/
def msgLoopback (r : LoopReturn) (i : Nat) (p : List Byte) (s : State) : Verdict :=
  if fld p 4 1 = 1 then msgLoopStop r i p s else msgLoopStart i p s

/-- LOOPBACK_END (R642): the duration is over, or, at `lockDue`, the 1 ms within which a checker must lock. -/
def execLoopbackEnd (t ticket : Nat) (lockDue : Bool) (r : LoopReturn) (s : State) : Host.Outcome State Fault Refusal :=
  let s1 := beginAt t s
  match s1.loops.find? fun l => l.ticket = ticket with
  | none => .next s1
  | some l =>
    .next (
      if lockDue then
        if l.startedAt + msT 1 ≤ s1.now && !loopLocked s1 l r then endLoop l 2 (loopCounts s1 l false r) s1 else s1
      else if 0 < l.duration && l.startedAt + msT l.duration ≤ s1.now then closeLoop l false r s1
      else s1)

/-- LOOPBACK_PREEMPTED (R654). -/
def execLoopbackPreempted (t ticket : Nat) (r : LoopReturn) (s : State) : Host.Outcome State Fault Refusal :=
  let s1 := beginAt t s
  match s1.loops.find? fun l => l.ticket = ticket with
  | none => .next s1
  | some l => .next (endLoop l 3 (loopCounts s1 l false r) s1)

/-- LOOPBACK_DONE (R648 to R651): the work of a loop-back that has an end of its own is done. -/
def execLoopbackDone (t ticket : Nat) (r : LoopReturn) (s : State) : Host.Outcome State Fault Refusal :=
  let s1 := beginAt t s
  match s1.loops.find? fun l => l.ticket = ticket with
  | none => .next s1
  | some l => .next (if 4 ≤ l.interface && l.interface ≠ 7 then closeLoop l true r s1 else s1)

end Sys2Proof.Machine
end

