-- ==== Sys2Proof/Machine/Control.lean ====
section
/-! DEFINITION. RESTART_REQ, MAINTENANCE_REQ and the reading of results (19_power_and_start.md, R561; 16_satos_ring.md, R488;
03_host_transport.md, R86 to R91; 22_0824_compatibility.md, R619, R620). -/
namespace Sys2Proof.Machine
open Sys2Proof

/-! ### Leaving for BOOT or MAINTENANCE (R488, R561) -/

/-- The departure itself: out of IDLE, and for a restart out of MAINTENANCE (R20). A module that a run holds at that
moment departs later: log entry 65. -/
def depart (restart : Bool) (s : State) : State :=
  if restart && (s.mod.state = .idle || s.mod.state = .maintenance) then enterBoot 11 s
  else if !restart && s.mod.state = .idle then enterMaintenance 10 s
  else s

/-- Every other node of the roll reports that a bypass may change (R485). -/
def ringInGap (s : State) : Bool := (otherNodes s).all fun n => (nodeOf s n).gapOk

/-- A joined module asks to leave with LEAVE_REQ and waits; the king grants its own leave too under R485; any other module
departs at once (R488). -/
def leaveRing (restart : Bool) (s : State) : State :=
  let waiting (q : State) : State := { q with ring := { q.ring with leaving := some (restart, s.now) } }
  if !joined s then depart restart s
  else
    let s1 := ringSend 0x28 0xFF (leBytes 1 (if restart then 11 else 10)) s
    if s.ring.state = .king && ringInGap s then
      depart restart (ringSend 0x27 0xFF (leBytes 1 (nodeNumber s) ++ leBytes 1 2) s1)
    else waiting s1

/-- A restart: SESSION_CLOSE on every session, then the ring is left, then BOOT (R561). -/
def restart (mode : Nat) (s : State) : State :=
  let s1 := forEach (openSessions s) (fun i => closeSession i closeRestart) s
  leaveRing true { s1 with mod := { s1.mod with restartMode := some mode } }

/-- RESTART_REQ (R561). -/
def msgRestart (_i : Nat) (p : List Byte) (s : State) : Verdict := .ok (restart (fld p 0 1) s)

/-- MAINTENANCE_REQ (R20, R488). -/
def msgMaintenance (_i : Nat) (_p : List Byte) (s : State) : Verdict := .ok (leaveRing false s)

/-! ### Results (R86 to R91, R619, R620) -/

/-- *Table: RESULT payload*. -/
def resultPayload (ticket status flags reads kind : Nat) (time body : List Byte) : List Byte :=
  leBytes 4 ticket ++ leBytes 1 status ++ leBytes 1 flags ++ leBytes 2 reads ++ leBytes 2 kind ++ leBytes 2 0 ++ time ++
    leBytes 4 body.length ++ body

/-- The estimated ready time of a pending result, or zero when unknown: the spec leaves the estimate open (R86). -/
def estimate (s : State) : List Byte :=
  let e := (Config.freeEstimate s.freeN).toNat
  if e = 0 then List.replicate 12 0 else stampOf s (timeNow s + e * 65536)

/-- A result has been read once more; in compatibility mode it is discarded with that, at once or, read in the instant in which it
becomes ready, when it does (R87, R91, R619). The 16-bit count wraps to 0 past 65,535: DESIGN CHOICE, log entry 27. -/
def noteRead (r : Result) (s : State) : State :=
  let l := if s.mod.compat then (s.net.results.filter fun x => !(x.ticket = r.ticket && resultReady x)).map fun x =>
      if x.ticket = r.ticket then { x with dropWhenReady := true } else x
    else s.net.results.map fun x =>
      if x.ticket = r.ticket then { x with readCount := wrapInc 16 x.readCount, repeated := true } else x
  { s with net := { s.net with results := l } }

/-- The RESULT of a ready result with body `b` and time `t` (R87). -/
def readyReply (s : State) (r : Result) (b : List Byte) (t : Int) : List Byte :=
  resultPayload r.ticket 1 (b2n (r.repeated && !s.mod.compat)) (if s.mod.compat then 1 else wrapInc 16 r.readCount) r.kind
    (stampOf s t) b

/-- RESULT_READ (R86, R87, R90, R91, R619): `soon` gives a pending result as it becomes ready in this instant. -/
def readResult (soon : State → Nat → Option Result) (i : Nat) (p : List Byte) (s : State) : Verdict :=
  let k := fld p 0 4
  match s.net.results.find? fun r => r.ticket = k with
  | some r =>
    match r.body, r.time with
    | some b, some t => .ok (sendDpt i 0x41 (readyReply s r b t) (noteRead r s))
    | _, _ =>
      match soon s k with
      | some q => .ok (sendDpt i 0x41 (readyReply s r (q.body.getD []) (q.time.getD 0)) (noteRead r s))
      | none => .ok (sendDpt i 0x41 (resultPayload k 0 0 0 r.kind (estimate s) []) (drawFree s))
  | none => .ok (sendDpt i 0x41 (resultPayload k (if s.net.tickets.contains k then 2 else 3) 0 0 0 (List.replicate 12 0) []) s)

/-- RESULT_READ with nothing becoming ready in its instant. -/
def msgResultRead : Nat → List Byte → State → Verdict := readResult fun _ _ => none

/-- RESULT_RELEASE (R88, R89, R620): a ready result goes at once, a pending one when it becomes ready. -/
def msgResultRelease (_i : Nat) (p : List Byte) (s : State) : Verdict :=
  let k := fld p 0 4
  let l := (s.net.results.filter fun r => !(r.ticket = k && resultReady r)).map fun r =>
    if r.ticket = k then { r with dropWhenReady := true } else r
  .ok { s with net := { s.net with results := l } }

end Sys2Proof.Machine
end

