-- ==== Sys2Proof/Machine/Update.lean ====
section
/-! DEFINITION. Firmware bundles and configuration images: download, verification, activation, confirmation, and their relay
along the ring (21_firmware_update.md, R595 to R608; 18_configuration_image.md, R538 to R542), and the records of the flash
writer (R246, R418, R521, R599). -/
namespace Sys2Proof.Machine
open Sys2Proof

def reasonNotVerified : Nat := 0x0F01
def reasonNoDownload : Nat := 0x0F02
def reasonNotTrial : Nat := 0x0F03
def reasonBlockRange : Nat := 0x0F04
def reasonBlockCrc : Nat := 0x0F05

/-! ### The download areas (R595, R596) -/

/-- The slot into which a bundle is downloaded: the one that the boot-select record does not name as selected. -/
def targetSlot (s : State) : Nat := otherSlot (bootRec s).selected

/-- The number of area S among the configuration areas (*Table: Configuration areas*). -/
def areaS : Nat := 4

/-- The header and the blocks of a download: 0 bundle, 1 configuration image. -/
def downloadHeader (s : State) (kind : Nat) : List Byte :=
  if kind = 0 then (slotRec s (targetSlot s)).header else s.flash.stagingHeader
def downloadBlocks (s : State) (kind : Nat) : List (Nat × List Byte × Nat) :=
  if kind = 0 then (slotRec s (targetSlot s)).blocks else s.flash.staging

/-- The image that a download's blocks make. -/
def downloadBytes (s : State) (kind : Nat) : List Byte := blockBytes (downloadHeader s kind) (downloadBlocks s kind)

/-- A download of a kind exists. -/
def hasDownload (s : State) (kind : Nat) : Bool := s.update.current.getD kind false

/-- The current download of the kind that the latest IMAGE_BEGIN named (R595). -/
def actedOn (s : State) : Option Nat :=
  match s.update.lastKind with
  | some k => if hasDownload s k then some k else none
  | none => none

/-- The bytes of block n of an image. -/
def blockLength (header : List Byte) (n : Nat) : Nat :=
  if n + 1 = blockCount header then imgLength header - 65536 * n else 65536

/-! ### IMAGE_BEGIN (R596) -/

/-- *Table: Early header checks* 2 to 5: the outcome of the first to fail, 0 for none. -/
def earlyChecks (s : State) (kind : Nat) (h : List Byte) : Nat :=
  let key := s.conf.cfg.configKey
  let signed := if kind = 0 then bundleSigned s h
    else !(s.conf.inForce && !key.isEmpty) || (imgSigned h && signatureOk key h)
  if !imgHeaderOk (if kind = 0 then 0x10 else 1) h then 1
  else if !steppingOk (fld h 12 4) then 2
  else if !signed then 3
  else if imgLength h < 1024 || (if kind = 0 then maxBundle else maxConfigImage) < imgLength h then 4
  else 0

/-- The outcome of IMAGE_BEGIN; the boot ROM leaves out check 1 (R592). -/
def beginOutcome (s : State) (kind : Nat) (h : List Byte) : Nat :=
  if kind = 0 && !s.mod.romServed && !(bootRec s).confirmed then 6 else earlyChecks s kind h

/-- A slot state that R596 resumes: INCOMPLETE, DOWNLOADED, VERIFIED. -/
def resumable (state : Nat) : Bool := state = 1 || state = 2 || state = 3

/-- The slot's state follows its blocks: DOWNLOADED when every block is good, INCOMPLETE before (R598). -/
def blockState (header : List Byte) (l : List (Nat × List Byte × Nat)) : Nat := if (missingBlocks header l).isEmpty then 2 else 1

/-- A bundle download is opened: resumed where the header is the recorded one, begun afresh otherwise (R596, R598). -/
def openBundle (h : List Byte) (s : State) : State :=
  let n := targetSlot s
  let x := slotRec s n
  let st := slotState s n
  if x.header = h && resumable st then
    (let k := blockState h x.blocks
     if k = 2 && st ≠ 1 || k = st then s else markSlot n k s)
  else
    let u := { s.update with queue := s.update.queue.filter fun j => j.kind ≠ 0 }
    modSlotRec n (fun x => { x with header := h, blocks := [] }) (writeSlot n 1 [] { s with update := u })

/-- A configuration download is opened, likewise (R596). -/
def openConfig (h : List Byte) (s : State) : State :=
  if s.flash.stagingHeader = h then s
  else { s with
    flash := { s.flash with stagingHeader := h, staging := [] }
    update := { s.update with queue := s.update.queue.filter (fun j => j.kind ≠ 1), confValid := false } }

/-- IMAGE_BEGIN's effect on an accepted header. -/
def openDownload (kind : Nat) (h : List Byte) (s : State) : State :=
  let s1 := if kind = 0 then openBundle h s else openConfig h s
  { s1 with update := { s1.update with current := s1.update.current.set kind true } }

/-- *Table: IMAGE_BEGIN result body*. -/
def beginBody (s : State) (outcome kind : Nat) (h : List Byte) : List Byte :=
  leBytes 1 outcome ++ leBytes 1 (if kind = 0 then targetSlot s else areaS) ++ leBytes 2 0 ++
    leBytes 4 (if outcome = 0 then nextBlock h (downloadBlocks s kind) else 0) ++ leBytes 4 (blockCount h)

/-- IMAGE_BEGIN (R592, R596). -/
def msgImageBegin (_i : Nat) (p : List Byte) (s : State) : Verdict :=
  let kind := fld p 4 1
  let h := (p.drop 8).take 256
  if s.mod.romServed && kind ≠ 0 then .error (reasonWrongState, 0)
  else if 1 < kind then .error (reasonMalformed, 0)
  else
    let o := beginOutcome s kind h
    let s1 := addPending (fld p 0 4) 0x60 { s with update := { s.update with lastKind := some kind } }
    let s2 := if o = 0 then openDownload kind h s1 else s1
    .ok (finishResult (fld p 0 4) (beginBody s2 o kind h) s2)

/-! ### IMAGE_BLOCK and the flash writer (R597 to R599) -/

/-- IMAGE_BLOCK (R597). -/
def msgImageBlock (_i : Nat) (p : List Byte) (s : State) : Verdict :=
  let n := fld p 0 4
  let kind := fld p 4 1
  let d := p.drop 12
  if p.length < 12 then .error (reasonMalformed, 0)
  else if s.mod.romServed && kind ≠ 0 then .error (reasonWrongState, 0)
  else if 1 < kind then .error (reasonMalformed, 0)
  else if !hasDownload s kind then .error (reasonNoDownload, 0)
  else
    let h := downloadHeader s kind
    if blockCount h ≤ n || d.length ≠ blockLength h n then .error (reasonBlockRange, 0)
    else if crc32c d ≠ fld p 8 4 then .error (reasonBlockCrc, 0)
    else
      let j : FlashJob := { kind := kind, block := n, data := d, crc := fld p 8 4 }
      .ok { s with update := { s.update with queue := s.update.queue ++ [j] } }

/-- A block replaces the earlier one of its number (R598). -/
def putBlock (j : FlashJob) (l : List (Nat × List Byte × Nat)) : List (Nat × List Byte × Nat) :=
  (l.filter fun x => x.1 < j.block) ++ [(j.block, j.data, j.crc)] ++ l.filter fun x => j.block < x.1

/-- A member that has every block of a relayed bundle verifies it (R607). -/
def verifyRelay (s : State) : State :=
  if !s.update.relayDigest.isEmpty && s.update.relayStatus = 0 && !(s.update.verifying.any fun v => v.1 = 2) then
    { s with update := { s.update with verifying := s.update.verifying ++ [(2, 0, false)] } }
  else s

/-- A block of a bundle is in flash: the block table and the slot's state and digest follow (R598). -/
def writeBundleBlock (j : FlashJob) (s : State) : State :=
  let n := targetSlot s
  let s1 := modSlotRec n (fun x => { x with blocks := putBlock j x.blocks }) s
  let x := slotRec s1 n
  if blockState x.header x.blocks = 2 then verifyRelay (putSlot n 2 (bundleDigest (blockBytes x.header x.blocks)) s1)
  else putSlot n 1 [] s1

/-- A block of a configuration image is in area S. -/
def writeConfigBlock (j : FlashJob) (s : State) : State :=
  { s with flash := { s.flash with staging := putBlock j s.flash.staging }, update := { s.update with confValid := false } }

/-- The record may be written in this state: a training record in IDLE, no calibration store and no configuration area in
ARMED, PRINT or DRAIN (R246, R418, R521). -/
def mayWriteRecord (s : State) (r : FlashRecord) : Bool :=
  s.update.records.contains r && !inRun s && (r ≠ .training || s.mod.state = .idle)

/-- A record that may be written waits: the flash writer serves it before image blocks (R599). -/
def recordFirst (s : State) : Bool := s.update.records.any (mayWriteRecord s)

/-- FLASH_BLOCK_WRITTEN (R598, R599): the flash writer has written the oldest image block that waits. -/
def execFlashBlockWritten (t : Nat) (s : State) : Host.Outcome State Fault Refusal :=
  let s1 := beginAt t s
  match s1.update.queue with
  | [] => .next s1
  | j :: rest =>
    let s2 := emit (.flashWrite 0) { s1 with update := { s1.update with queue := rest } }
    .next (if recordFirst s1 then s1 else if j.kind = 0 then writeBundleBlock j s2 else writeConfigBlock j s2)

/-! ### Verification (R539, R540, R600) -/

/-- The outcome of R600 and the failing component. -/
def bundleOutcome (s : State) (n : Nat) : Nat × Nat :=
  let x := slotRec s n
  let b := slotBytes s n
  let bad (ok : Nat → Bool) : Option Nat := firstBad b ok
  if x.header.isEmpty || !(missingBlocks x.header x.blocks).isEmpty then (7, 0xFF)
  else if !manifestOk b then (2, 0xFF)
  else match bad (componentHeaderOk b), bad (fun k => steppingOk (fld (componentBytes b k) 12 4)), bad (componentDigestOk b) with
    | some k, _, _ => (2, k)
    | none, some k, _ => (6, k)
    | none, none, some k => (5, k)
    | none, none, none =>
      if !payloadDigestOk b then (5, 0xFF)
      else if !(imgHeaderOk 0x10 b && 1024 ≤ imgLength b && imgLength b ≤ maxBundle) then (1, 0xFF)
      else if !steppingOk (fld b 12 4) then (6, 0xFF)
      else if !bundleSigned s b then (3, 0xFF)
      else if rollbackIndex b < cfgN s Fld.security_rollback_floor 0 then (8, 0xFF)
      else (0, 0xFF)

/-- The result body of R600. -/
def bundleBody (s : State) (n : Nat) : List Byte :=
  let x := slotRec s n
  let o := bundleOutcome s n
  leBytes 1 o.1 ++ leBytes 1 o.2 ++ leBytes 2 0 ++ leBytes 4 (missingBlocks x.header x.blocks).length ++
    padTo 8 (if blockGood x.blocks 0 then bundleDigest (slotBytes s n) else [])

/-- The outcome of R539, the first field that fails the migration, and the entries of the clamp report. -/
def configOutcome (s : State) : Nat × Nat × Nat :=
  let b := downloadBytes s 1
  let key := s.conf.cfg.configKey
  if !configHeaderOk b then (1, 0, 0)
  else if !structureOk s b then (2, 0, 0)
  else if s.conf.inForce && !key.isEmpty && !(imgSigned b && signatureOk key b) then (3, 0, 0)
  else if olderFormat b then
    match migrateImage s b with
    | .error f => (4, f, 0)
    | .ok m => (0, 0, (readConfig s true m).report.length)
  else (0, 0, (readConfig s false b).report.length)

/-- The result body of R539. -/
def configBody (s : State) : List Byte :=
  let o := configOutcome s
  leBytes 1 o.1 ++ leBytes 1 (imgFormat (downloadBytes s 1)) ++ leBytes 2 0 ++ leBytes 4 o.2.2 ++ leBytes 2 o.2.1

/-- IMAGE_VERIFY (R595, R600). -/
def msgImageVerify (_i : Nat) (p : List Byte) (s : State) : Verdict :=
  match actedOn s with
  | none => .error (reasonNoDownload, 0)
  | some k =>
    let s1 := addPending (fld p 0 4) 0x62 s
    .ok { s1 with update := { s1.update with verifying := s1.update.verifying ++ [(k, fld p 0 4, false)] } }

/-! ### The relay (R606, R607) -/

/-- The relay block at an offset (*Table: Relay block*). -/
def relayBlock (digest b : List Byte) (o : Nat) : List Byte :=
  let d := (b.drop o).take 1000
  padTo 8 digest ++ leBytes 4 o ++ leBytes 2 d.length ++ leBytes 2 0 ++ d

/-- Image frames take at most half of the transmit time in any 100 µs: of 62,500 symbol times (R476). -/
def imageRoom (s : State) (f : RingFrame) : Bool :=
  ((s.ring.imageSent.filter fun x => s.now < x.1 + usT 100).map fun x => x.2).sum + frameTimes f ≤ 31250

/-- The relay blocks that wait are sent as far as there is room; `n` bounds them (R476, R606). -/
def pumpImages : Nat → State → State
  | 0, s => s
  | n + 1, s =>
    match s.ring.imageTx with
    | [] => s
    | o :: l =>
      let body := relayBlock s.update.relayDigest (slotBytes s (targetSlot s)) o
      let f : RingFrame := { type := 0x38, source := nodeNumber s, dest := 0xFF, hops := 0, seq := s.ring.seq, body := body }
      if !imageRoom s f then s
      else pumpImages n (ringSend 0x38 0xFF body { s with ring := { s.ring with
        imageTx := l, imageSent := (s.now, frameTimes f) :: s.ring.imageSent.filter fun x => s.now < x.1 + usT 100 } })

/-- The king sends the bundle's relay blocks from an offset on. -/
def sendRelay (first : Nat) (s : State) : State :=
  let b := slotBytes s (targetSlot s)
  let offs := (List.range (ceilDiv (b.length - first) 1000)).map fun i => first + 1000 * i
  pumpImages offs.length { s with ring := { s.ring with imageTx := offs } }

/-- The relay is over once every joined node has verified, failed or declined the bundle, or is lost (R607). -/
def relayOver (s : State) : Bool :=
  (otherNodes s).all fun n => (nodeOf s n).lost || ((nodeOf s n).relay.any fun r => r.2 ≠ 0)

/-- RELAY_DONE: nodes verified and nodes failed. -/
def settleRelay (s : State) : State :=
  if s.update.relaying && relayOver s then
    let count (k : Nat) : Nat := ((otherNodes s).filter fun n => (nodeOf s n).relay.any fun r => r.2 = k).length
    raise 0x0F35 (leBytes 1 (count 1) ++ leBytes 1 (count 2))
      { s with update := { s.update with relaying := false, relayDigest := [] }, ring := { s.ring with imageTx := [] } }
  else s

/-- A king whose bundle has become VERIFIED relays it (R606). -/
def startRelay (s : State) : State :=
  if s.ring.state = .king && cfgN s Fld.security_relay_bundles 0 = 1 then
    let d := padTo 8 (bundleDigest (slotBytes s (targetSlot s)))
    settleRelay (sendRelay 0 { s with
      update := { s.update with relaying := true, relayDigest := d }
      ring := { s.ring with nodes := s.ring.nodes.map fun n => { n with relay := none } } })
  else s

/-- The lowest byte of the relayed bundle that is not in flash. -/
def relayNext (s : State) : Nat :=
  let x := slotRec s (targetSlot s)
  if x.header.isEmpty then 0 else min (imgLength x.header) (65536 * nextBlock x.header x.blocks)

/-- The body of IMAGE_ACK (R607). -/
def ackBody (s : State) : List Byte :=
  padTo 8 s.update.relayDigest ++ leBytes 4 (if s.update.relayStatus = 3 then 0 else relayNext s) ++
    leBytes 1 s.update.relayStatus ++ leBytes 1 s.update.relayOutcome ++ leBytes 2 0

/-- A member sends IMAGE_ACK (R607). -/
def sendImageAck (s : State) : State :=
  ringSend 0x39 0xFF (ackBody s) { s with update := { s.update with lastAck := some s.now } }

/-! ### Activation (R541, R601) -/

/-- The bundle is promoted: the boot-select record, BUNDLE_PROMOTED, the result, the restart (R601). -/
def promote (ticket : Nat) (body : List Byte) (s : State) : State :=
  let n := targetSlot s
  let s1 := raise 0x0F32 (leBytes 1 n ++ leBytes 4 3) (writeBoot n (otherSlot n) 3 false s)
  restart 0 (finishResult ticket body s1)

/-- IMAGE_ACTIVATE (R538, R541, R592, R595, R601). -/
def msgImageActivate (_i : Nat) (p : List Byte) (s : State) : Verdict :=
  let ticket := fld p 0 4
  if s.mod.state ≠ .idle && s.mod.state ≠ .maintenance then .error (reasonWrongState, 0)
  else match actedOn s with
    | none => .error (reasonNoDownload, 0)
    | some 0 =>
      let k := slotState s (targetSlot s)
      if k ≠ 2 && k ≠ 3 then .error (reasonNotVerified, 0)
      else
        let s1 := addPending ticket 0x63 s
        .ok { s1 with update := { s1.update with verifying := s1.update.verifying ++ [(0, ticket, true)] } }
    | some _ =>
      if !s.update.confValid then .error (reasonNotVerified, 0)
      else
        let s1 := addPending ticket 0x63 s
        .ok { s1 with update := { s1.update with activating := s1.update.activating ++ [ticket] } }

/-- One verification of a bundle ends: the slot becomes VERIFIED where every check passes (R600). -/
def verifiedBundle (s : State) : Nat × List Byte × State :=
  let n := targetSlot s
  let o := (bundleOutcome s n).1
  let body := bundleBody s n
  (o, body, if o = 0 then putSlot n 3 (bundleDigest (slotBytes s n)) s else s)

/-- IMAGE_VERIFY_DONE (R539, R600, R601, R606, R607): the oldest verification asked for is complete. A promotion waits
while a run is armed. -/
def execImageVerifyDone (t : Nat) (s : State) : Host.Outcome State Fault Refusal :=
  let s1 := beginAt t s
  match s1.update.verifying with
  | [] => .next s1
  | (kind, ticket, go) :: rest =>
    let s2 := { s1 with update := { s1.update with verifying := rest } }
    if kind = 1 then
      .next (finishResult ticket (configBody s2) { s2 with update := { s2.update with confValid := (configOutcome s2).1 = 0 } })
    else if kind = 2 then
      let v := verifiedBundle s2
      .next (sendImageAck { v.2.2 with update := { v.2.2.update with
        relayStatus := if v.1 = 0 then 1 else 2, relayOutcome := v.1 } })
    else if go && s1.mod.state ≠ .idle && s1.mod.state ≠ .maintenance then .next s1
    else
      let v := verifiedBundle s2
      if go then .next (if v.1 = 0 then promote ticket v.2.1 v.2.2 else finishResult ticket v.2.1 v.2.2)
      else .next (let s3 := finishResult ticket v.2.1 v.2.2; if v.1 = 0 then startRelay s3 else s3)

/-- The sequence number of an area, 0 without one. -/
def areaSeq (s : State) (k : Nat) : Nat := ((areaOf18 s k).map fun a => a.seq).getD 0

/-- *Table: Activation writes*, all four steps (R541). -/
def activateConfig (s : State) : State :=
  let img := downloadBytes s 1
  let higher := if seqAfter (areaSeq s 1) (areaSeq s 0) then areaSeq s 1 else areaSeq s 0
  let n := wrapInc 32 higher
  let s1 := setArea 3 none (setArea 2 none s)
  let s2 := setArea 1 (some (sealed img n)) (setArea 0 (some (sealed img n)) s1)
  let s3 := if olderFormat img then
      match migrateImage s2 img with
      | .ok m => setArea 3 (some (sealed m n)) (setArea 2 (some (sealed m n)) s2)
      | .error _ => s2
    else s2
  emit (.flashWrite 2) { s3 with conf := { s3.conf with pending := true } }

/-- CONFIG_ACTIVATION_DONE (R521, R541, R542): the activation's writes are complete; they wait for a calibration store
write and for the end of a run. -/
def execConfigActivationDone (t : Nat) (s : State) : Host.Outcome State Fault Refusal :=
  let s1 := beginAt t s
  match s1.update.activating with
  | [] => .next s1
  | ticket :: rest =>
    if inRun s1 || s1.update.records.contains .calibration then .next s1
    else .next (finishResult ticket (configBody s1) (activateConfig { s1 with update := { s1.update with activating := rest } }))

/-! ### Confirmation and abort (R602 to R604) -/

/-- IMAGE_CONFIRM (R603). -/
def msgImageConfirm (_i : Nat) (_p : List Byte) (s : State) : Verdict :=
  if s.mod.romServed then .error (reasonWrongState, 0)
  else if !s.update.trial then .error (reasonNotTrial, 0)
  else .ok { s with update := { s.update with confirmReceived := true } }

/-- Every condition of R602 holds, and the trial has not been aborted. -/
def mayConfirm (s : State) : Bool :=
  s.update.trial && !(bootRec s).confirmed && (bootRec s).selected = s.update.runningSlot &&
    s.mod.idleSeen && (s.mod.state = .idle || inRun s) && !s.mod.watchdogStopped && memTrained s && s.conf.inForce &&
    (cfgN s Fld.ring_enable 0 ≠ 1 || joined s) &&
    (cfgN s Fld.security_require_confirm 0 ≠ 1 || s.update.confirmReceived)

/-- BUNDLE_CONFIRMED (R602). -/
def execBundleConfirmed (t : Nat) (s : State) : Host.Outcome State Fault Refusal :=
  let s1 := beginAt t s
  .next (if mayConfirm s1 then
    let n := s1.update.runningSlot
    let s2 := writeBoot n (bootRec s1).previous 0 true (markSlot n 4 s1)
    raise 0x0F31 (leBytes 1 n ++ padTo 8 s2.update.digest) (emit (.flashWrite 1) { s2 with update := { s2.update with trial := false } })
  else s1)

/-- The trial is given up: the previous slot is selected from the next start on (R604). -/
def abortTrial (s : State) : State :=
  let r := bootRec s
  let n := s.update.runningSlot
  if r.selected = n then
    atNextStart 0x0F33 (leBytes 1 r.previous) (writeBoot r.previous r.selected 0 true (markSlot n 5 s))
  else s

/-- The current download of a kind ends, and its slot or area S becomes EMPTY (R604). -/
def endDownload (kind : Nat) (s : State) : State :=
  let u := { s.update with current := s.update.current.set kind false, queue := s.update.queue.filter fun j => j.kind ≠ kind }
  if kind = 0 then
    modSlotRec (targetSlot s) (fun x => { x with header := [], blocks := [] })
      (writeSlot (targetSlot s) 0 [] { s with update := u })
  else { s with update := { u with confValid := false }, flash := { s.flash with stagingHeader := [], staging := [] } }

/-- IMAGE_ABORT (R592, R595, R604). -/
def msgImageAbort (_i : Nat) (_p : List Byte) (s : State) : Verdict :=
  if s.update.trial && !s.mod.romServed then .ok (abortTrial s)
  else match actedOn s with
    | none => .error (reasonNoDownload, 0)
    | some k => .ok (endDownload k s)

/-! ### The messages -/

/-! ### Records (R246, R418, R521, R599) -/

/-- The calibration store is written, or its write fails (R418). -/
def writeStore (ok : Bool) (s : State) : State :=
  let l := s.flash.calStore.map validStore
  let k := nextPlace (fun x => x.seq) l
  let n := nextSeq (fun x => x.seq) l
  if ok then
    raise 0x0A16 (leBytes 4 n) { s with
      flash := { s.flash with calStore := s.flash.calStore.set k (some ⟨n, s.cal.values, storeCrc n s.cal.values⟩) }
      cal := { s.cal with storeSeq := n, changed := false } }
  else raise 0x0A17 (leBytes 1 k) s

/-- A new training record is written over one of the two copies; a write that fails leaves that copy invalid, and the other one in
force (R246). -/
def writeTraining (ok : Bool) (s : State) : State :=
  let l := s.flash.training.map validCopy
  let r : TrainRecord :=
    { seq := nextSeq (fun x => x.seq) l, dieId := s.otp.dieId, devIds := s.mem.devIds, dts := s.mem.dtsRead, values := s.mem.values, crc := 0 }
  let copy := if ok then some { r with crc := recordCrc r } else none
  { s with flash := { s.flash with training := s.flash.training.set (nextPlace (fun x => x.seq) l) copy } }

/-- The configuration copy in use is written over the other one (R521). -/
def writeCopy (s : State) : State :=
  match installedCopy s with
  | some (k, a) => setArea (1 - k) (some a) s
  | none => s

/-- FLASH_RECORD_WRITTEN (R246, R418, R521, R599): a record write that waited is complete, well or not. -/
def execFlashRecordWritten (t : Nat) (rec : FlashRecord) (ok : Bool) (s : State) : Host.Outcome State Fault Refusal :=
  let s1 := beginAt t s
  if !mayWriteRecord s1 rec then .next s1
  else
    let s2 := { s1 with update := { s1.update with records := s1.update.records.filter fun r => r ≠ rec } }
    .next (match rec with
      | .calibration => writeStore ok (emit (.flashWrite 3) s2)
      | .training => writeTraining ok (emit (.flashWrite 4) s2)
      | .configCopy => if ok then writeCopy (emit (.flashWrite 2) s2) else s2)

end Sys2Proof.Machine
end

