-- ==== Sys2Proof/Machine/RingPort.lean ====
section
/-! DEFINITION. The ring port: frames forwarded and removed, the king's management of the ring, joining and leaving
(16_satos_ring.md, R471, R474 to R490, R499; 23_mode_combinations.md, R626, R636). -/
namespace Sys2Proof.Machine
open Sys2Proof

/-! ### Roles and revisions (R471, R482, R490) -/

/-- The ring may be heard and joined: ring.enable, IDLE or a later state, no MAINTENANCE (R479, R482, R483). -/
def ringOn (s : State) : Bool :=
  cfgN s Fld.ring_enable 0 = 1 && (s.mod.state = .idle || inRun s || s.mod.state = .halted) && s.ring.state ≠ .passThrough

/-- The module's bypass is open (*Table: Ring states*). -/
def ringOpen (s : State) : Bool := s.ring.state = .joining || joined s

/-- The king manages the ring while it is SOLO or ACTIVE (R471). -/
def isKing (s : State) : Bool := s.ring.state = .king && drives s

/-- A ring loop-back runs (R636). -/
def ringLoop (s : State) : Bool := s.loops.any fun l => l.interface = 1

/-- The lowest minor revision of the joined nodes (R490). -/
def lowestMinor (s : State) : Nat :=
  (s.ring.nodes.filter fun n => n.present).foldl (fun m n => min m n.minor) s.update.ringMinor

/-- The nodes of the roll as a mask. -/
def rollMask (s : State) : Nat := maskOf (s.ring.nodes.map fun n => n.present)

def noteRoll (s : State) : State := { s with ring := { s.ring with roll := rollMask s, commonMinor := lowestMinor s } }

/-! ### Gaps (R485) -/

/-- The leading bar of this module's run is in a gap, at least 1 ms from the next release point (R485). -/
def ownGap (s : State) : Bool :=
  if !inRun s then true
  else match s.jobs.armed with
    | none => true
    | some a =>
      let pos := leadPosition s
      let clear := (openSlots s).all fun x => pos < x.start || ((x.start + x.length : Int) : Rat) ≤ pos
      let rate := ((leadInput s).map fun i => lineRate s i).getD 0
      clear && (a.releasesEnded ||
        match releasePoint s a with
        | some rp => rate ≤ ((rp : Rat) - pos) * 1000
        | none => false)

/-- The whole ring is in a gap (R485). -/
def mayChange (s : State) : Bool := ownGap s && ringInGap s

/-! ### ROLL (R489, *Table: Object 0x0D02 ring_node*) -/

/-- A node's entry. -/
def nodeBytes (state : Nat) (n : Node) : List Byte :=
  leBytes 1 (state + 8 * b2n n.present + 16 * b2n n.pairActive + 32 * b2n n.gapOk) ++
    leBytes 1 (n.major % 16 + 16 * (n.minor % 16)) ++ leBytes 4 n.runId ++ leBytes 2 n.hopDelay

/-- This module's node as it reports itself. -/
def ownNode (s : State) : Node :=
  { nodeOf s (nodeNumber s) with
    state := ringCode s.ring.state, present := true, pairActive := drives s, gapOk := ownGap s, major := s.update.ringMajor
    minor := s.update.ringMinor, runId := (s.jobs.armed.map fun a => a.run.id).getD 0xFFFFFFFF }

/-- The run that a node armed in the group is over once two rolls in a row do not show it: the second was sent after
RUN_ARMED had come (R492). -/
def agedRun (shown : Nat) (g : Option (Nat × Nat)) : Option (Nat × Nat) :=
  g.bind fun x => if x.1 = shown then some (x.1, 0) else if x.2 = 0 then some (x.1, 1) else none

/-- An entry as a node reads it. -/
def readNode (e : List Byte) (old : Node) : Node :=
  let b := fld e 0 1
  { old with state := b % 8, pairActive := b.testBit 4, gapOk := b.testBit 5, major := fld e 1 1 % 16, minor := fld e 1 1 / 16
             runId := fld e 2 4, hopDelay := fld e 6 2, groupRun := agedRun (fld e 2 4) old.groupRun }

/-- The roll as the king sends it: its own entry, and the others without a state, for each node to fill (R489). -/
def rollBody (s : State) : List Byte :=
  (List.range 8).flatMap fun n =>
    if n = nodeNumber s then nodeBytes (ringCode s.ring.state) (ownNode s) else nodeBytes 0 (nodeOf s n)

/-- A roll that passes takes this node's entry. -/
def fillRoll (s : State) (body : List Byte) : List Byte :=
  body.take (8 * nodeNumber s) ++ nodeBytes (ringCode s.ring.state) (ownNode s) ++ body.drop (8 * nodeNumber s + 8)

def rollEntry (body : List Byte) (n : Nat) : List Byte := (body.drop (8 * n)).take 8

def sendRoll (s : State) : State := ringSend 0x24 0xFF (rollBody s) s

/-! ### Outages and lost nodes (R489) -/

/-- An outage that began at a date has ended: RING_OUTAGE. -/
def outageEnded (since : Nat) (s : State) : State :=
  let us := (s.now - since) / usT 1
  raise 0x0D14 (leBytes 4 us) { s with ring := { s.ring with
    outages := wrapInc 16 s.ring.outages, longestOutage := max s.ring.longestOutage (min 65535 us) } }

/-- ring.ring_loss_tolerance. -/
def lossTolerance (s : State) : Nat := usT (cfgN s Fld.ring_ring_loss_tolerance 0)

/-- A frame of the king's position has been heard (R489, R626). -/
def hearKing (f : RingFrame) (s : State) : State :=
  if 2 ≤ f.source || s.ring.state = .king then s
  else
    let s1 := { s with ring := { s.ring with kingHeard := true, kingSeen := some s.now, hops := f.hops + 1 } }
    match s.ring.kingSeen with
    | some t => if joined s && !s.ring.kingHeard then outageEnded t s1 else s1
    | none => s1

/-! ### The king: grants and leaves (R484, R485, R488) -/

/-- The next node to be granted: named by ring.expected, lacking in the roll, not tried in this round. -/
def nextGrant (s : State) : Option Nat :=
  (bitList 8 (cfgN s Fld.ring_expected 0)).find? fun n =>
    n ≠ nodeNumber s && !s.ring.roll.testBit n && !s.ring.tried.contains n

/-- JOIN_GRANT to one node at a time, in a gap, with an opening time 20 µs away; after the last node a round begins anew
(R484, R485). -/
def grantNext (s : State) : State :=
  if !isKing s || s.ring.granted.isSome then s
  else
    let s1 := if (nextGrant s).isNone then { s with ring := { s.ring with tried := [] } } else s
    match nextGrant s1 with
    | none => { s1 with ring := { s1.ring with attnLine := false } }
    | some n =>
      if !mayChange s1 then s1
      else ringSend 0x25 0xFF (leBytes 1 n ++ leBytes 3 0 ++ stampNative (timeNow s1 + 20000 * 65536))
        { s1 with ring := { s1.ring with granted := some (n, s1.now + usT 20), tried := n :: s1.ring.tried } }

/-- The king goes on granting while RING_ATTN_N is asserted; whether it still is when the king looks again is free (R484). -/
def tryGrant (s : State) : State :=
  if !isKing s || !s.ring.attnLine || s.ring.granted.isSome then s
  else if Config.freeAttn s.freeN then grantNext (drawFree s)
  else drawFree { s with ring := { s.ring with attnLine := false, tried := [] } }

/-- EJECT (*Table: Ring frame types*). -/
def sendEject (n reason : Nat) (s : State) : State := ringSend 0x27 0xFF (leBytes 1 n ++ leBytes 1 reason) s

/-- The leaves that wait are granted, and the king's own takes place, in a gap (R485, R488). -/
def serveLeaves (s : State) : State :=
  if !isKing s || !mayChange s then s
  else
    let s1 := forEach s.ring.leavers (fun n => sendEject n 2) { s with ring := { s.ring with leavers := [] } }
    match s1.ring.leaving with
    | some (r, _) => depart r (sendEject (nodeNumber s1) 2 s1)
    | none => s1

/-- The module is the king (R471, R482, R626). -/
def becomeKing (s : State) : State :=
  let s1 := setRingState .king { openBypass s with ring := { (openBypass s).ring with
    kingHeard := true, listenSince := none, attn := false, hops := 0 } }
  noteRoll (modNode (nodeNumber s1) (fun _ => ownNode s1) s1)

/-- DISCOVER (*Table: Ring frame types*). -/
def discoverBody (s : State) : List Byte :=
  leBytes 1 s.update.ringMajor ++ leBytes 1 s.update.ringMinor ++ leBytes 1 (cfgN s Fld.ring_expected 0) ++
    leBytes 1 (pairCode s.pair.state) ++ padTo 8 s.update.digest

/-- TIME: the king's module time at the first symbol (R434). -/
def sendTime (s : State) : State := ringSend 0x20 0xFF (stampNative (timeNow s)) s

/-- The king puts the decisions on the ring that the ring has not heard from its position (R626). -/
def sendOwed (s : State) : State :=
  forEach s.ring.owed (fun d => ringSend d.1 0xFF d.2) { s with ring := { s.ring with owed := [] } }

/-- Castling at position 0: the new ACTIVE module is king at once, with DISCOVER, TIME, its roll, and the decisions on
slots still to be sent; the loss tolerance of the nodes and of the roll counts from here (R489, R626). -/
def takeRing (s : State) : State :=
  if s.power.position = 0 && s.power.strapValid && ringOn s && !s.ring.ejected && s.ring.state ≠ .king then
    let s1 := becomeKing s
    sendOwed (sendRoll (sendTime (ringSend 0x23 0xFF (discoverBody s) { s1 with ring := { s1.ring with
      rollSeen := some s.now, nodes := s1.ring.nodes.map fun n => if n.present then { n with seen := some s.now } else n } })))
  else s

/-- A king that is no longer SOLO or ACTIVE is a member (R471). -/
def yieldRing (s : State) : State :=
  if s.ring.state = .king then
    setRingState .member { s with ring := { s.ring with
      granted := none, tried := [], attnLine := false, leavers := [], kingSeen := some s.now } }
  else s

end Sys2Proof.Machine
end

