-- ==== Sys2Proof/Machine/Links.lean ====
section
/-! DEFINITION. The commands of the head links (11_tollos_link.md, R324 to R347, R360, R362, R701; 17_castling.md, R503, R516;
24_loopback_and_test.md, R644). -/
namespace Sys2Proof.Machine
open Sys2Proof

/-! ### STATUS frames (R332, R342, *Table: STATUS frame*) -/

/-- A STATUS frame with the layout of its table: its type, its head count, its length (R332). -/
def statusValid (f : List Byte) : Bool := fld f 0 1 = 0x81 && fld f 11 1 ≤ 32 && f.length = 32 + 4 * fld f 11 1

/-- lanes_aligned and ck_locked. -/
def statusAligned (f : List Byte) : Bool := (fld f 1 1).testBit 0 && (fld f 1 1).testBit 1

/-- A frame that meets R342 for link k. -/
def statusMeets (s : State) (k : Nat) (f : List Byte) : Bool :=
  statusAligned f && fld f 8 1 = 4 * k && fld f 11 1 = (headsOf s.conf.cfg k).length

/-- A head's reading after a frame's entry for it (R362, R576). -/
def takeHead (now : Nat) (e : List Byte) (x : HeadReading) : HeadReading :=
  let n := fld e 2 1 % 16
  let same := x.sampledAt.isSome && x.sampleCount = n
  { x with temperature := sfld e 0 2, sampleCount := n, state := fld e 2 1 / 16
           sampledAt := if same then x.sampledAt else some now, sameCount := if same then x.sameCount + 1 else 1 }

/-- The head readings of a frame (*Table: Object 0x0413 head_temperature*). -/
def takeHeads (now : Nat) (f : List Byte) (l : List HeadReading) : List HeadReading :=
  l.zipIdx.map fun p => if p.2 < fld f 11 1 then takeHead now ((f.drop (32 + 4 * p.2)).take 4) p.1 else p.1

/-- What a valid STATUS frame reports, as objects 0x0412 and 0x0413 show it (R362, R701). -/
def takeStatus (now : Nat) (inverted : Bool) (f : List Byte) (x : Link) : Link :=
  { x with
    dualHomed := (fld f 1 1).testBit 3, upInverted := inverted, carrierId := fld f 4 4, laneMap := fld f 9 1 % 64
    laneInverted := fld f 10 1 % 8, headCount := fld f 11 1, ownerSeen := fld f 12 4, lastFired := fld f 16 4
    crcErrors := fld f 22 2, shortDiscards := fld f 24 2, syncWithoutLine := fld f 26 2, duplicatesDropped := fld f 28 2
    nonOwnerDropped := fld f 30 2, lastStatus := now, heads := takeHeads now f x.heads }

/-- LINK_CRC_ERRORS when the carrier's count has grown, at most once per second and link, with the increase since it was last
raised (*Table: Events of the link*, R669). -/
def crcEvent (k by_ : Nat) (s : State) : State :=
  if by_ = 0 then s
  else match s.log.limits.find? fun e => e.1 = 0x0412 && e.2.1 = k with
    | some (_, _, last, n) =>
      if s.now < last + secT 1 then
        suppress { s with log := { s.log with limits := setLimit 0x0412 k last (n + by_) s.log.limits } }
      else raise 0x0412 (leBytes 1 k ++ leBytes 4 (n + by_))
        { s with log := { s.log with limits := setLimit 0x0412 k s.now 0 s.log.limits } }
    | none => raise 0x0412 (leBytes 1 k ++ leBytes 4 by_)
        { s with log := { s.log with limits := setLimit 0x0412 k s.now 0 s.log.limits } }

/-- A carrier's counters and owner change what the module reports: CARRIER_OWNER_CHANGED, LINK_CRC_ERRORS (R701). -/
def statusReports (k : Nat) (inverted : Bool) (f : List Byte) (s : State) : State :=
  let x := linkOf s k
  let s1 := modLink k (takeStatus s.now inverted f) s
  let s2 := crcEvent k ((fld f 22 2 + 65536 - x.crcErrors) % 65536) s1
  if sameOwner (fld f 12 4) x.ownerSeen then s2 else raise 0x0415 (leBytes 1 k ++ leBytes 4 (fld f 12 4)) s2

/-! ### Up and down (R342, R344, R345, R346) -/

/-- A link leaves UP: its bar feels it, and a loop-back that runs over it ends without lock (R321, R345, R642, R644). -/
def downLink (k cause : Nat) (s : State) : State :=
  if linkUp s k then
    farDown k (dropLink k cause s)
  else s

/-- The bar of a link is in a slot that the link has missed the start of (R346). -/
def slotUnderWay (s : State) (k : Nat) : Bool :=
  inRun s && (slotsOn s (k / 2)).any fun x => x.latched.any fun q => q.1 = k / 2

/-- Link k is UP: its training ends, LINK_UP (R342). -/
def comeUp (k : Nat) (f : List Byte) (s : State) : State :=
  endTraining k <| raise 0x0410 (leBytes 1 k ++ leBytes 4 (fld f 4 4) ++ leBytes 1 (b2n ((fld f 1 1).testBit 3)))
    (modLink k (fun x => { x with state := .up, goodFrames := 0, joinNext := slotUnderWay s k }) s)

/-- LINK_MISCABLED and HEAD_COUNT_MISMATCH, once in an episode of training and again when the value changes (R344). -/
def trainingEvents (k : Nat) (f : List Byte) (s : State) : State :=
  let ident := fld f 8 1
  let n := fld f 11 1
  let x := linkOf s k
  let s1 := modLink k (fun x => { x with miscabled := some ident, countRaised := some n }) s
  let s2 := if ident = 4 * k || x.miscabled = some ident then s1 else raise 0x0413 (leBytes 1 k ++ leBytes 1 ident) s1
  if n = (headsOf s2.conf.cfg k).length || x.countRaised = some n then s2
  else raise 0x0416 (leBytes 1 k ++ leBytes 4 n ++ leBytes 4 (headsOf s2.conf.cfg k).length) s2

/-- A frame to a link in TRAINING: the third consecutive one that meets R342 brings it UP, while its PLL drives it. -/
def trainingFrame (k : Nat) (f : List Byte) (s : State) : State :=
  let s1 := trainingEvents k f s
  if statusMeets s1 k f && linkPll s1 k then
    (if 2 ≤ (linkOf s1 k).goodFrames then comeUp k f s1
     else modLink k (fun x => { x with goodFrames := x.goodFrames + 1 }) s1)
  else modLink k (fun x => { x with goodFrames := 0 }) s1

/-- The cause for which a frame takes link k out of UP, 0 for none (*Table: Link down causes*, 3 to 5). -/
def statusCause (s : State) (k : Nat) (f : List Byte) : Nat :=
  if !statusAligned f then 3 else if fld f 8 1 ≠ 4 * k then 4
  else if fld f 11 1 ≠ (headsOf s.conf.cfg k).length then 5 else 0

/-! ### The owner that a carrier reports (R503, R516) -/

/-- The link's lanes have carried the module's present claim. -/
def claimed (s : State) (k : Nat) : Bool :=
  ownerRole s = 1 && [3 * k, 3 * k + 1, 3 * k + 2].all fun g => (laneOf s g).ownerSent = some (claimWord s)

/-- The carrier reports an owner that is another module. -/
def otherOwner (s : State) (f : List Byte) : Bool := fld f 12 4 ≠ noOwner && !sameOwner (fld f 12 4) (ownerWord s)

/-- Another module holds the carrier of a module that drives alone: SEVERED, with cause 5 and event 0x0E17 PAIR_CONFLICT
(R503). A demoted module that sees another owner on a run bar stays SEVERED with cause 6 (R516). -/
def ownerCheck (k : Nat) (f : List Byte) (s : State) : State :=
  if !linkUp s k || !otherOwner s f then s
  else if (s.pair.state = .solo || (s.pair.state = .active && s.pair.absent)) && claimed s k then
    raise 0x0E17 (leBytes 1 k ++ leBytes 4 (fld f 12 4)) (yieldRing (stopOutputs (enterSevered 5 s)))
  else if s.pair.state = .severed && s.pair.reclaimSince.isSome && (runBars s).contains (k / 2) then
    raise 0x0E13 (leBytes 1 6) { s with pair := { s.pair with severCause := 6, reclaimSince := none, decisions := [] } }
  else s

/-! ### The commands -/

/-- LINK_STATUS_FRAME (R330 to R332, R342, R344, R345): a frame arrives on UP of link k, `between` it and the last one
other symbols, as the receiver decodes them, their polarity corrected (R341). -/
def execLinkStatusFrame (t link : Nat) (inverted : Bool) (between frame : List Symbol) (s : State) :
    Host.Outcome State Fault Refusal :=
  let s1 := beginAt t s
  if 16 ≤ link || (linkOf s1 link).state = .disabled then .next s1
  else
    let stray := (between.filter isStray).length
    let s2 := modLink link (fun x => { x with strays := (x.strays + stray) % 65536 }) s1
    match (readFrame frame).filter statusValid with
    | none => .next (if frame.isEmpty then s2 else modLink link (fun x => { x with statusBad := wrapInc 16 x.statusBad }) s2)
    | some f =>
      let s3 := statusReports link inverted f s2
      match (linkOf s1 link).state with
      | .up =>
        let cause := statusCause s3 link f
        .next (if cause = 0 then farStatus link (fld f 22 2) (ownerCheck link f s3)
          else trainingEvents link f (downLink link cause s3))
      | .training => .next (ownerCheck link f (trainingFrame link f s3))
      | .idleOnly => .next s3
      | .disabled => .next s3

/-- LINK_UP_LOST (R345): signal or alignment on UP has been lost since `since`, for 10 µs. -/
def execLinkUpLost (t link since : Nat) (s : State) : Host.Outcome State Fault Refusal :=
  let s1 := beginAt t s
  .next (if since + usT 10 ≤ s1.now then downLink link 1 s1 else s1)

/-- STATUS_TIMEOUT (R345): no valid STATUS frame for heads.status_timeout. -/
def execStatusTimeout (t link : Nat) (s : State) : Host.Outcome State Fault Refusal :=
  let s1 := beginAt t s
  .next (if (linkOf s1 link).lastStatus + usT (cfgN s1 Fld.heads_status_timeout 0) ≤ s1.now then downLink link 2 s1 else s1)

/-- LINK_TRAIN_TIMEOUT (R343): the link is not UP within heads.train_timeout; it goes on training. -/
def execLinkTrainTimeout (t link : Nat) (s : State) : Host.Outcome State Fault Refusal :=
  let s1 := beginAt t s
  let x := linkOf s1 link
  .next (if x.state = .training && !x.timeoutRaised && x.trainSince + msT (cfgN s1 Fld.heads_train_timeout 0) ≤ s1.now then
    raise 0x0414 (leBytes 1 link) (modLink link (fun y => { y with timeoutRaised := true }) s1)
  else s1)

/-- PLL_UNLOCK (R328): the four links of a transmit PLL are not driven any more, and leave UP with cause PLL. -/
def execPllUnlock (t pll : Nat) (s : State) : Host.Outcome State Fault Refusal :=
  let s1 := beginAt t s
  if s1.mod.state = .off || 4 ≤ pll then .next s1
  else
    let s2 := { s1 with links := { s1.links with pll := s1.links.pll.set pll false } }
    .next (forEach [4 * pll, 4 * pll + 1, 4 * pll + 2, 4 * pll + 3] (fun k => downLink k 6) s2)

/-- PLL_RELOCK (R328): the PLL locks again, and its links are brought up again. -/
def execPllRelock (t pll : Nat) (s : State) : Host.Outcome State Fault Refusal :=
  let s1 := beginAt t s
  if s1.links.pll.getD pll true then .next s1
  else
    let s2 := { s1 with links := { s1.links with pll := s1.links.pll.set pll true } }
    .next (forEach ([4 * pll, 4 * pll + 1, 4 * pll + 2, 4 * pll + 3].filter fun k => (linkOf s2 k).state = .training)
      startTraining s2)

/-- OWNER_FRAME_DUE (R337, R338): a data lane of an UP link carries an OWNER frame, never inside a line packet. -/
def execOwnerFrameDue (t lane : Nat) (s : State) : Host.Outcome State Fault Refusal :=
  let s1 := beginAt t s
  .next (if lane < 48 && linkUp s1 (lane / 3) && !packetOnLane s1 lane then
    sendOwner lane s1
  else s1)

end Sys2Proof.Machine
end

