-- ==== Sys2Proof/Machine/CalRequests.lean ====
section
/-! DEFINITION. CAL_REQUEST (13_calibration_loop.md, R411, R415 to R417). -/
namespace Sys2Proof.Machine
open Sys2Proof

/-- *Table: CAL_REQUEST body*: action, kinds, bars. -/
def calAction (p : List Byte) : Nat := fld p 4 1
def calKinds (p : List Byte) : Nat := fld p 5 1 % 64
def calBars (p : List Byte) : Nat := fld p 6 1

/-- The request is ready at once, with an empty body (R416). -/
def calDone (ticket : Nat) (s : State) : State := finishResult ticket [] s

/-- RUN_NOW: the selected kinds are due at the next slot; the result waits for the selected elements (R416). -/
def calRunNow (p : List Byte) (s : State) : State :=
  let r : RunNow := { ticket := fld p 0 4, kinds := calKinds p, bars := calBars p, accepted := List.replicate 6 0
                      disagreed := List.replicate 6 0, done := [] }
  settleRunNow { s with cal := { s.cal with due := s.cal.due ||| calKinds p, runNow := s.cal.runNow ++ [r] } }

/-- The elements of a kind and a bar, or a camera, that hold a value other than the start value (R417). -/
def presentElements (s : State) (kind b : Nat) : List Element :=
  let tw := max 1 (cfgN s Fld.calibration_tap_window 0)
  match kind with
  | 0 => (((s.cal.values.taps.getD b []).map fun p => p.1 / tw).eraseDups).map fun w => ⟨0, b, w⟩
  | 1 => [2 * b, 2 * b + 1].flatMap fun k => (s.cal.values.dead.getD k []).map fun n => (⟨1, k, n⟩ : Element)
  | 2 => [2 * b, 2 * b + 1].flatMap fun k =>
      ((s.cal.values.rank.getD k []).filter fun p => p.2 ≠ cfgI s Fld.firing_rank_tap (16 * k + p.1)).map fun p =>
        (⟨2, k, p.1⟩ : Element)
  | 3 => if (s.cal.values.tone.getD b none).isSome then [⟨3, b, 0⟩] else []
  | 4 => if s.cal.values.reg.getD b 0 = 0 then [] else [⟨4, b, 0⟩]
  | _ => if b < 4 && !(camOf s b).flat.isEmpty then [⟨5, b, 0⟩] else []

/-- The elements that a RESET changes: those too whose accepted value still waits for a changeover (R413, R417). -/
def changedElements (s : State) (kind b : Nat) : List Element :=
  let wait := (s.cal.waiting.map (·.1)).filter fun e => e.kind = kind && elemBar e = b
  (presentElements s kind b ++ wait).eraseDups

/-- The start value of an element (R417). -/
def startValue (s : State) (e : Element) : List Int :=
  let n := 8 * cfgN s Fld.camera_width e.unit
  if e.kind = 2 then [cfgI s Fld.firing_rank_tap (16 * e.unit + e.num)]
  else if e.kind = 3 then identityCurve.map fun (v : Nat) => (v : Int)
  else if e.kind = 5 then List.replicate n 0 ++ List.replicate n 4096
  else [0]

/-- RESET: the selected elements go back to their start values at their boundaries, and their versions rise (R417); a following
module takes them from the active module's tokens (R176, R410). -/
def calReset (p : List Byte) (s : State) : State :=
  if follows s then s
  else forEach ((bitList 6 (calKinds p)).flatMap fun k => (bitList 8 (calBars p)).flatMap (changedElements s k))
    (fun e s => sendTap e (startValue s e) s) s

/-- FREEZE and THAW (R411, R416). -/
def setFrozen (v : Bool) (s : State) : State := { s with cal := { s.cal with frozen := v } }

/-- CAL_REQUEST by its action (R415, R416): RUN_NOW in ARMED and PRINT, the others in every state of *Table: Message classes
by module state* for job messages. -/
def msgCalRequest (_i : Nat) (p : List Byte) (s : State) : Verdict :=
  let ticket := fld p 0 4
  let s1 := addPending ticket 0x2C s
  match calAction p with
  | 0 => if s.mod.state = .armed || s.mod.state = .print then .ok (calRunNow p s1) else .error (reasonWrongState, 0)
  | 1 => .ok (calDone ticket (setFrozen true s1))
  | 2 => .ok (calDone ticket (setFrozen false s1))
  | 3 => .ok (calDone ticket (calReset p s1))
  | _ => .error (0x0304, 0)

end Sys2Proof.Machine
end

