-- ==== Sys2Proof/Machine/Cascade.lean ====
section
/-! DEFINITION. Arming a run, and the cascade's agreement on it (04_jobs_pages_runs.md, R116, R117, R126; 09_web_position.md,
R278, R279; 10_firing.md, R289 to R293; 11_tollos_link.md, R355; 16_satos_ring.md, R493, R494; 22_0824_compatibility.md,
R618, R622). -/
namespace Sys2Proof.Machine
open Sys2Proof

/-- The spacing of a web master input at the run's resolution, with 32 fraction bits (R278, R618). -/
def spacingOf (s : State) (i lpi : Nat) : Nat :=
  if s.mod.compat then cfgN s Fld.compat_encoder_divider i * (1200 / max 1 lpi) * 4294967296
  else if cfgN s Fld.position_travel_per_rev i = 0 then 0
  else (roundRat ((cfgN s Fld.position_counts_per_rev i * 25400000 * 4294967296 : Nat) /
    ((cfgN s Fld.position_travel_per_rev i * lpi : Nat) : Rat))).toNat

/-- The number of the next compare point: the first one beyond the high-water mark (R280, R292). -/
def nextPoint (x : Input) (spacing : Nat) : Int :=
  if spacing = 0 then 0 else pointDiff (x.hwm * 4294967296) x.origin / spacing + 1

/-- The web master inputs of a bar mask, rising. -/
def maskInputs (s : State) (mask : Nat) : List Nat :=
  (List.range 16).filter fun i => (bitList 8 mask).any fun b => barInput s b = some i

/-- n_arm of each web master input, as an arming now would have it (R292). -/
def armNumbers (s : State) (r : RunDef) : List (Nat × Int) :=
  (maskInputs s r.barMask).map fun i => (i, nextPoint (inputOf s i) (spacingOf s i (lpiOf r.lpi)))

/-- An input as the run is armed (R278, R292). -/
def armInput (sp : Nat) (n : Int) (x : Input) : Input :=
  { x with spacing := sp, nextLine := n, nArm := n, scheduled := none, coast := none, stopped := false }

/-- The accepted taps are in force on a bar, without a slew (R297). -/
def armTaps (b : Nat) (s : State) : State :=
  let reg := s.cal.values.reg.getD b 0
  let taps := (List.range 2).map fun j => (List.range 16).map fun r => rankTapOf s (2 * b + j) r
  let s1 := modBar b (fun y => { clearBar y with
    regTap := reg, rankTaps := taps, offset := barOffsetOf s b reg, sequence := 0, maxDeferral := 0 }) s
  modBar b (fun y => { y with maxDelay := largestTotal s1 b }) s1

/-! ### The cascade (R493, R494) -/

/-- The cascade's leading offset is in force; the king's start rule counts from here (R290, R494). -/
def applyCascade (off : Nat) (s : State) : State :=
  let s1 := modArmed (fun a => { a with leadOffset := off, armedAt := s.now })
    { s with ring := { s.ring with cascade := some off } }
  let s2 := forEach (runBars s1) (fun b s =>
    let s' := modBar b (fun y => { y with offset := barOffsetOf s b y.regTap }) s
    modBar b (fun y => { y with maxDelay := largestTotal s' b }) s') s1
  if s2.ring.state = .king then fixStart s2 else sendSlotReady s2

/-- The king reports a node that has armed another run or digest (R495). -/
def noteMismatch (s : State) : State :=
  match s.jobs.armed with
  | none => s
  | some a =>
    let d := a.digest
    forEach ((List.range 8).filter fun n => (nodeOf s n).armed.any (fun x => !(x.1 = a.run.id && x.2.1 = d)) &&
        !s.ring.mismatchRaised.contains n) (fun n s =>
      raise 0x0D15 (leBytes 1 n ++ leBytes 4 a.run.id)
        { s with ring := { s.ring with mismatchRaised := n :: s.ring.mismatchRaised } }) s

/-- The king's CASCADE_ARMED takes effect: the frame, and the offset at the king (R494). -/
def sendCascade (run off : Nat) (s : State) : State :=
  applyCascade off (ringSendActive 0x31 0xFF (leBytes 4 run ++ leBytes 4 off) s)

/-- A ring decision of a type waits for the partner's acknowledgement (R508). -/
def ringPending (type : Nat) (s : State) : Bool :=
  s.pair.decisions.any fun d => match d.2 with
    | .ring f => f.type = type
    | _ => false

/-- The king sends CASCADE_ARMED once every group node of the roll has armed alike (R493, R494). -/
def checkCascade (s : State) : State :=
  match s.jobs.armed with
  | none => s
  | some a =>
    if groupKing s && drives s && s.mod.state = .armed && s.ring.cascade.isNone && !ringPending 0x31 s then
      let s1 := noteMismatch s
      let d := a.digest
      if (cascadePositions s1).all fun p => posArmed s1 a.run.id d p then
        let others := (cascadePositions s1).flatMap fun p => (posNodes s1 p).filterMap fun n => n.armed.map fun x => x.2.2
        let off := others.foldl min (cfgN s1 Fld.geometry_bar_offset a.leadBar)
        let body := leBytes 4 a.run.id ++ leBytes 4 off
        let f : RingFrame := { type := 0x31, source := nodeNumber s1, dest := 0xFF, hops := 0, seq := 0, body := body }
        onAck 0x07 (leBytes 1 0x31 ++ body) (.ring f) (sendCascade a.run.id off) s1
      else s1
    else s

/-! ### ARMED -/

/-- The run is armed with its run_tag and the n_arm of its inputs: the module enters ARMED (R126, R278, R292, R355, R373,
R493). `risk` is the first slot at risk and the µs by which it is predicted late. -/
def armRun (r : RunDef) (verdict tag : Nat) (nArm : List (Nat × Int)) (risk : Option (Nat × Nat)) (s : State) : State :=
  let lead := leadingBar s.conf.cfg r.barMask
  let a : Armed :=
    { run := r, queue := r.slots
      cyclesLeft := if r.form = 2 && r.repeatCount = 0 then none else some (r.repeatCount - 1)
      nextSlot := 0
      nextStart := if !s.mod.compat && r.startMode = 1 then some (r.startValue : Int) else none
      slots := [], armedAt := s.now, releasesEnded := false, hold := false
      riskRaised := (risk.map (·.1)).toList, runEnded := false, lost := false, barHalted := false, fired := 0, spoiled := 0
      quarantined := 0, leadOffset := cfgN s Fld.geometry_bar_offset lead, leadBar := lead, nGo := none, strips := []
      nextStrip := 0, ncOwed := [], removed := [], digest := runDigest s r }
  let s1 := forEach nArm (fun p => modInput p.1 (armInput (spacingOf s p.1 (lpiOf r.lpi)) p.2)) s
  let s2 := { s1 with jobs := { s1.jobs with
    armed := some a, arming := none, runId := r.id, runTag := tag, lastDepth := r.depth } }
  let s3 := setModState .armed 9 (forEach (bitList 8 r.barMask) armTaps s2)
  let s4 := raise 0x0310 (leBytes 4 r.id ++ leBytes 1 verdict) s3
  let s5 := match risk with
    | some (n, us) => if verdict = 1 then
        raise 0x0311 (leBytes 4 n ++ leBytes 4 (r.slots.getD n 0) ++ leBytes 4 us) s4 else s4
    | none => s4
  let s6 := programCams (if inGroup s5 then
      ringSendActive 0x30 0xFF (leBytes 4 r.id ++ leBytes 4 a.digest ++ leBytes 4 a.leadOffset) s5 else s5)
  let s7 := if groupKing s6 then checkCascade s6 else if groupMember s6 then s6 else fixStart s6
  faultsAtArm (updateOverspeed s7)

end Sys2Proof.Machine
end

