-- ==== Sys2Proof/Machine/Runs.lean ====
section
/-! DEFINITION. Runs as the host defines, arms, stops and ends them (04_jobs_pages_runs.md, R114, R124 to R126, R134, R135,
R138, R704; 10_firing.md, R313; 16_satos_ring.md, R491). -/
namespace Sys2Proof.Machine
open Sys2Proof

/-! ### RUN_DEFINE (R114) -/

/-- The fields of a RUN_DEFINE, its defaults in place (*Table: RUN_DEFINE body*). -/
def readRun (p : List Byte) : RunDef :=
  let lead := fld p 16 4
  let arm := fld p 20 4
  let speed := fld p 24 2
  let ahead := fld p 26 1
  { id := fld p 0 4, form := fld p 4 1, policy := fld p 5 1, flags := fld p 6 1 % 8, barMask := fld p 7 1, lpi := fld p 8 1
    depth := fld p 9 1, startMode := fld p 10 1, inspection := fld p 11 1, gap := fld p 12 4
    releaseLead := if lead = 0 then 2048 else lead
    armLead := if arm = 0xFFFFFFFF then 1000 else arm
    plannedSpeed := if speed = 0 then 2500 else speed
    renderAhead := if ahead = 0 then 4 else ahead
    startValue := fld p 28 4, repeatCount := fld p 32 4
    slots := (List.range (fld p 36 4)).map fun i => fld p (40 + 4 * i) 4 }

/-- A RUN_DEFINE out of range (R114). -/
def runRangeBad (n : Nat) (r : RunDef) : Bool :=
  r.id = 0xFFFFFFFF || 2 < r.form || 2 < r.policy || r.barMask = 0 || 2 < r.lpi || !([1, 2].contains r.depth) ||
    2 < r.startMode || 2 < r.inspection || (r.form = 0 && r.gap < 64) || (r.form = 1 && r.gap ≠ 0) || 65535 < r.gap ||
    r.releaseLead < 128 || 65535 < r.releaseLead || 600000 < r.armLead || 5000 < r.plannedSpeed || 16 < r.renderAhead ||
    (r.startMode = 2 && 23 < r.startValue % 32) || (r.form ≠ 2 && r.repeatCount ≠ 0) || n = 0 || 65536 < n

/-- RUN_DEFINE (R102, R114, R702). -/
def msgRunDefine (_i : Nat) (p : List Byte) (s : State) : Verdict :=
  let n := fld p 36 4
  if 65536 < n then .error (reasonRange, 0)
  else if p.length < 40 + 4 * n then .error (reasonMalformed, 0)
  else
    let r := readRun p
    match firstReason (runRangeBad n r) false ((usedRuns s).any fun x => x.id = r.id)
        (!(s.jobs.runs.any fun x => x.id = r.id) && 16 ≤ s.jobs.runs.length) with
    | some x => .error (x, 0)
    | none => .ok { s with jobs := { s.jobs with runs := (s.jobs.runs.filter fun x => x.id ≠ r.id) ++ [r] } }

/-! ### RUN_ARM (R124, R125) -/

/-- What admission finds: verdict, reason, first slot at risk and its lateness in µs, raw_need. -/
structure Admission where
  verdict : Nat
  reason  : Nat
  risk    : Option (Nat × Nat)
  rawNeed : Nat
  deriving DecidableEq, Repr, Inhabited

/-- The body of a RUN_ARM result (*Table: RUN_ARM result body*). -/
def armBody (a : Admission) (capacity : Nat) : List Byte :=
  leBytes 1 a.verdict ++ leBytes 1 a.reason ++ leBytes 2 0 ++ leBytes 4 ((a.risk.map (·.1)).getD 0xFFFFFFFF) ++
    leBytes 4 ((a.risk.map (·.2)).getD 0) ++ leBytes 8 a.rawNeed ++ leBytes 4 capacity

/-- The pages of a run, each once. -/
def runPages (s : State) (r : RunDef) : List Page := (r.slots.eraseDups).filterMap (pageOf s)

/-- What the prediction carries from slot to slot: t_rel and done in seconds, pages counted, marks due, the first slot
at risk. -/
structure Predict where
  tRel    : Rat
  done    : Rat
  counted : List Nat
  due     : Nat
  risk    : Option (Nat × Nat)

/-- One slot of the prediction (R125). -/
def predictSlot (s : State) (r : RunDef) (cap : Rat) (p : Predict) (x : Nat × Nat) : Predict :=
  match pageOf s x.1 with
  | none => p
  | some pg =>
    let due := if r.inspection = 0 then 0 else p.due ||| dueAt s x.2
    let plan := planStrip s r due 0
    let fresh := !p.counted.contains pg.id && pg.state ≠ .rendered
    let cost := chargedCost s pg (r.inspection = 2) + (stripCost s r.barMask plan.lines : Rat)
    let done := if fresh then p.done + cost / cap else p.done
    let risk := match p.risk with
      | some y => some y
      | none => if p.tRel < done then some (x.2, min 0xFFFFFFFF (roundRat ((done - p.tRel) * 1000000)).toNat) else none
    { tRel := p.tRel + (pitchOf s r pg.id : Rat) / plannedRate r, done := done
      counted := if fresh then pg.id :: p.counted else p.counted
      due := due &&& (63 ^^^ plan.placed)
      risk := risk }

/-- The prediction of a run: the first slot at risk (R125). -/
def predict (s : State) (r : RunDef) : Option (Nat × Nat) :=
  (r.slots.zipIdx.foldl (predictSlot s r (guaranteedCapacity s))
    { tRel := (r.armLead : Rat) / 1000, done := 0, counted := [], due := s.cal.due, risk := none }).risk

/-- The raw space that a run asks for (check 7). -/
def rawNeed (s : State) (r : RunDef) : Nat :=
  let sizes := (runPages s r).map rawPageSize
  if r.form = 2 then sizes.sum else 2 * sizes.foldl max 0

/-- Checks 4 to 8 of *Table: RUN_ARM checks*. -/
def admitRun (s : State) (r : RunDef) : Admission :=
  let bars := bitList 8 r.barMask
  let c := s.conf.cfg
  let refuse (reason : Nat) : Admission := { verdict := 2, reason := reason, risk := none, rawNeed := 0 }
  if bars.any fun b => (barInput s b).isNone then refuse 6
  else if !r.flags.testBit 2 && bars.any (fun b => (barLinks c b).any fun k => !linkUp s k) then refuse 1
  else if bars.any fun b => barCeiling c b r.depth < plannedRate r then refuse 2
  else if (runPages s r).any fun p => p.state ≠ .rendered && !surfacesSealed s p then refuse 3
  else
    let need := rawNeed s r
    let free := pageStore s - pageStoreUsed s + ((evictable s r).map fun p => p.reserved).sum
    if free < need then { verdict := 2, reason := 4, risk := none, rawNeed := need }
    else match predict s r with
      | none => { verdict := 0, reason := 0, risk := none, rawNeed := need }
      | some k =>
        if r.flags.testBit 1 then { verdict := 2, reason := 5, risk := some k, rawNeed := need }
        else { verdict := 1, reason := 0, risk := some k, rawNeed := need }

/-- Pages rendered under older render-side taps return to DEFINED (R117), and so do those whose margin does not carry what
this run prints there: a registration block in band form under MARKS and FULL, and nothing otherwise (R394, R400; DEDUCED,
log entry 88). -/
def dropStale (r : RunDef) (s : State) : State :=
  forEach ((runPages s r).filter fun p => p.state = .rendered &&
      (p.renderVersion ≠ renderStamp s p.barMask || p.margin ≠ pageMargin s r p)) (fun p => undoPage p.id) s

/-- A module that arms no run: SEVERED or of another version (*Table: Ring role by position, group and pair state*). -/
def armsNone (s : State) : Bool := s.pair.state = .severed || s.pair.state = .unpairedVersion

/-- RUN_ARM: the checks that reject, then admission, whose result is pending (R124, R125, R126, R491). -/
def msgRunArm (_i : Nat) (p : List Byte) (s : State) : Verdict :=
  if inGroup s && !joined s then .error (reasonNotJoined, 0)
  else if s.mod.state ≠ .idle || s.jobs.arming.isSome || armsNone s then .error (reasonWrongState, 0)
  else if s.mod.haltIn then .error (reasonHaltActive, 0)
  else match s.jobs.runs.find? fun r => r.id = fld p 4 4 with
    | none => .error (reasonUnknownId, 0)
    | some r =>
      if r.slots.any fun id => (pageOf s id).isNone then .error (reasonUnknownId, 0)
      else if (runPages s r).any fun g => g.lpi ≠ r.lpi || g.depth ≠ r.depth || g.barMask &&& r.barMask ≠ g.barMask then
        .error (reasonMismatch, 0)
      else
        let s1 := addPending (fld p 0 4) 0x28 (dropStale r s)
        let a := admitRun s1 r
        let q : PendingArm := { ticket := fld p 0 4, run := r.id, risk := a.risk
                                body := armBody a ((guaranteedCapacity s1 / 10000000).floor.toNat) }
        .ok { s1 with jobs := { s1.jobs with arming := some q } }

/-! ### The verdict (R126) -/

/-- The body of a verdict that came too late (R126). -/
def abandonedBody (b : List Byte) : List Byte := leBytes 1 2 ++ leBytes 1 7 ++ b.drop 2

/-- The run under admission may enter ARMED. -/
def mayArm (s : State) : Bool := s.mod.state = .idle && !s.mod.haltIn && !armsNone s

/-- The run under admission is armed, if the module still may and the memory has not lost its definition (R126, R250). -/
def armPending (verdict tag : Nat) (nArm : List (Nat × Int)) (s : State) : State :=
  match s.jobs.arming with
  | none => s
  | some q =>
    match (if mayArm s then s.jobs.runs.find? fun r => r.id = q.run else none) with
    | some r => armRun r verdict tag nArm q.risk s
    | none => { s with
        jobs := { s.jobs with arming := none }
        net := { s.net with results := s.net.results.map fun x =>
          if x.ticket = q.ticket && !resultReady x then { x with body := some (abandonedBody q.body) } else x } }

/-- The decision token ARM (*Table: Decision tokens*, 0x01). -/
def armToken (run verdict tag : Nat) (nArm : List (Nat × Int)) : List Byte :=
  leBytes 4 run ++ leBytes 1 verdict ++ leBytes 2 tag ++ nArm.flatMap fun p => sgBytes 8 p.2

/-- RUN_ARM_VERDICT: the prediction is complete; the result becomes ready and, when the run is accepted, the module enters
ARMED (R126, R355, R507). A following module enters ARMED with the active's token. -/
def execRunArmVerdict (t : Nat) (s : State) : Host.Outcome State Fault Refusal :=
  let s1 := beginAt t s
  match s1.jobs.arming with
  | none => .next s1
  | some q =>
    let verdict := fld q.body 0 1
    if follows s1 then
      .next (finishResult q.ticket q.body (if verdict = 2 then { s1 with jobs := { s1.jobs with arming := none } } else s1))
    else if verdict = 2 || !mayArm s1 then
      .next (finishResult q.ticket (if verdict = 2 then q.body else abandonedBody q.body)
        { s1 with jobs := { s1.jobs with arming := none } })
    else match s1.jobs.runs.find? fun r => r.id = q.run with
      | none => .next (finishResult q.ticket (abandonedBody q.body) { s1 with jobs := { s1.jobs with arming := none } })
      | some r =>
        let tag := (s1.jobs.runTag + 1) % 65536
        let n := armNumbers s1 r
        .next (finishResult q.ticket q.body
          (onAck 0x01 (armToken r.id verdict tag n) (.arm verdict) (armPending verdict tag n) s1))

/-! ### Stopping, cancelling, ending, halting (R134, R135, R138, R313, R704) -/

/-- The run named is the armed one (R704). -/
def namesRun (p : List Byte) (s : State) : Bool := s.jobs.armed.any fun a => a.run.id = fld p 0 4

/-- RUN_STOP takes effect: releases end, and a group module stops the cascade (R134, R497). -/
def stopRun (s : State) : State := settle (endReleases (sendCascadeStop 0 s))

/-- RUN_STOP (R134, R704). -/
def msgRunStop (_i : Nat) (p : List Byte) (s : State) : Verdict :=
  if s.mod.state ≠ .armed && s.mod.state ≠ .print then .error (reasonWrongState, 0)
  else if !namesRun p s then .error (reasonUnknownId, 0)
  else .ok (stopRun s)

/-- RUN_CANCEL (R135, R704). HALTED takes precedence over IDLE where a halt of the module comes at the same moment (R21). -/
def msgRunCancel (_i : Nat) (p : List Byte) (s : State) : Verdict :=
  if s.mod.state ≠ .armed then .error (reasonWrongState, 0)
  else if !namesRun p s then .error (reasonUnknownId, 0)
  else if haltComes s then .ok (endReleases (abandonRendering s))
  else .ok (beginSeal (enterIdle 13 (abandonRendering s)))

/-- RUN_END (R138, R704). -/
def msgRunEnd (_i : Nat) (p : List Byte) (s : State) : Verdict :=
  if s.mod.state ≠ .halted then .error (reasonWrongState, 0)
  else if !namesRun p s then .error (reasonUnknownId, 0)
  else
    let s1 := modArmed (fun a => { a with runEnded := true }) s
    .ok (if s1.mod.haltIn then s1 else enterIdle 19 s1)

/-- HALT_REQ: the named bars of the run halt; 0xFF names every bar (R313). A halt of every bar that is left goes before all roles;
of a single bar the module that follows hears by token (R310, R322, R624). -/
def msgHaltReq (_i : Nat) (p : List Byte) (s : State) : Verdict :=
  let bars := (bitList 8 (fld p 0 1)).filter (runBars s).contains
  .ok (
    if !inRun s then s
    else if (runBars s).all fun b => halted s b || bars.contains b then haltBars bars 2 17 [spoilHalt] (barsFirst bars s)
    else ownHalt bars 2 [spoilHalt] s)

end Sys2Proof.Machine
end

