-- ==== Sys2Proof/Machine/Governor.lean ====
section
/-! DEFINITION. Speed monitors and the governor (02_self_timed_engine.md, R33 to R51; 04_jobs_pages_runs.md, R123, R127). -/
namespace Sys2Proof.Machine
open Sys2Proof

/-! ### The indices (R33 to R37) -/

/-- The power domain of a monitor (*Table: Speed monitor placement*). -/
def monitorDomain (m : Nat) : Nat := if m < 14 then 5 else if m < 20 then 6 else if m < 22 then 8 else 0

/-- The lowest valid index of a group, or the floor index (R34, R37). -/
def groupIndex (s : State) (first n : Nat) : Nat :=
  match ((s.monitors.drop first).take n).filter fun m => m.valid with
  | [] => 3686
  | m :: l => l.foldl (fun a x => min a x.index) m.index

def renderIndex (s : State) : Nat := groupIndex s 0 14
def fireIndex (s : State) : Nat := groupIndex s 14 6

/-- A capacity for a render index, in cost units per second (R35, R214). -/
def capacityAt (s : State) (index : Nat) : Rat :=
  11200000000 * index / 4096 * s.gov.renderDuty / 8 * compressorFactor s

/-- The current render capacity (R35). -/
def currentCapacity (s : State) : Rat := capacityAt s (renderIndex s)

/-- The predicted capacity: at the lowest render index of the last 64 windows (R51). -/
def predictedCapacity (s : State) : Rat :=
  capacityAt s (match s.gov.window64 with
    | [] => renderIndex s
    | x :: l => l.foldl min x)

/-- A window of 4,096 ticks, in 1/256 tick. -/
def windowT : Nat := 4096 * 256

/-- The render index of the present window joins the last 64 (R51). -/
def noteWindow (s : State) : State :=
  let i := renderIndex s
  if s.gov.window64.isEmpty || s.gov.windowAt + windowT ≤ s.now + windowT / 2 then
    { s with gov := { s.gov with window64 := (i :: s.gov.window64).take 64, windowAt := s.now } }
  else { s with gov := { s.gov with window64 := i :: s.gov.window64.drop 1 } }

/-! ### Deadlines (R123) -/

/-- The line rate that deadlines go by: the measured one or the planned one, whichever is higher. -/
def deadlineRate (s : State) (a : Armed) : Rat :=
  max (((leadInput s).map fun i => lineRate s i).getD 0) (plannedRate a.run)

/-- The coming slots with their pages and the lines of the slots before each. -/
def slotPitches (s : State) (r : RunDef) : Nat → List (Nat × Nat) → List (Nat × Nat × Nat)
  | _, [] => []
  | before, (n, id) :: l => (n, id, before) :: slotPitches s r (before + pitchOf s r id) l

/-- The seconds from now to the release deadline of each coming slot (R123); the start of a held slot moves with the web
(R131). -/
def slotDeadlines (s : State) : List (Nat × Nat × Rat) :=
  match s.jobs.armed with
  | none => []
  | some a => (slotPitches s a.run 0 (comingSlots s)).map fun p =>
    (p.1, p.2.1, match releasePoint s a with
      | some rp => (((rp + p.2.2 : Int) : Rat) - leadPosition s) / deadlineRate s a
      | none => if a.hold then (p.2.2 : Rat) / deadlineRate s a else ((a.armedAt : Rat) - s.now) / 64000000000 + (a.run.armLead : Rat) / 1000 +
          (p.2.2 : Rat) / plannedRate a.run)

/-- The first slots of the pages not yet RENDERED, up to 4 pages: the pages that the governor tracks (R44). DESIGN CHOICE: a
QUARANTINED page, which will not be rendered again, is not one of them (log entry 37). -/
def trackedFrom (s : State) : Nat → List Nat → List (Nat × Nat × Rat) → List (Nat × Nat × Rat)
  | 0, _, _ => []
  | _, _, [] => []
  | k + 1, seen, x :: l =>
    if seen.contains x.2.1 || pageReady s x.2.1 || pageQuarantined s x.2.1 || (pageOf s x.2.1).isNone then
      trackedFrom s (k + 1) seen l
    else x :: trackedFrom s k (x.2.1 :: seen) l

/-- The tracked slots. DESIGN CHOICE: the pages of a run whose releases have ended are tracked as before (log entry 37). -/
def trackedSlots (s : State) : List (Nat × Nat × Rat) := if inRun s then trackedFrom s 4 [] (slotDeadlines s) else []

/-- The cost units that a page still has to render (R44, R234, R235). -/
def remainingCost (s : State) (a : Armed) (id : Nat) : Rat :=
  match pageOf s id with
  | none => 0
  | some pg =>
    let done : Rat := match s.render.now with
      | some r => if r.strip.isNone && r.page = id then (r.line : Rat) / max 1 pg.length else 0
      | none => 0
    chargedCost s pg (a.run.inspection = 2) * (1 - done)

/-- What the costs carry from slot to slot: cost units so far, mark kinds due, and the tracked slots passed. -/
structure Track where
  cum  : Rat
  due  : Nat
  out  : List (Nat × Nat × Rat × Rat)

/-- One coming slot: the kinds that its gap will carry are due no more at the next one (R396); a tracked page costs its own units
and those of its gap. -/
def trackStep (s : State) (a : Armed) (tracked : List (Nat × Nat × Rat)) (p : Track) (x : Nat × Nat) : Track :=
  let due := if a.run.inspection = 0 || x.1 < a.nextStrip then p.due else p.due ||| dueAt s x.1
  let plan := if x.1 < a.nextStrip then ⟨[], 0, 0, 0⟩ else planStrip s a.run due 0
  let p1 := { p with due := due &&& (63 ^^^ plan.placed) }
  match tracked.find? fun q => q.1 = x.1 with
  | none => p1
  | some q =>
    let cum := p.cum + remainingCost s a x.2 + (stripCost s a.run.barMask plan.lines : Nat)
    { p1 with cum := cum, out := p.out ++ [(q.1, q.2.1, q.2.2, cum)] }

/-- The tracked slots with what is to be rendered up to each: slot, page, seconds to the deadline, cost units. -/
def trackedCosts (s : State) : List (Nat × Nat × Rat × Rat) :=
  match s.jobs.armed with
  | none => []
  | some a => ((comingSlots s).foldl (trackStep s a (trackedSlots s))
      { cum := 0, due := s.cal.due, out := [] }).out

/-- The demand in cost units per second; none for infinity (R44). -/
def demandOf (l : List (Nat × Nat × Rat × Rat)) : Option Rat :=
  if l.any fun x => x.2.2.1 ≤ 0 then none else some ((l.map fun x => x.2.2.2 / x.2.2.1).foldl max 0)

/-- RENDER_AT_RISK for tracked slots that are predicted late, once each (R51, R127). -/
def checkRisk (s : State) : State :=
  let cap := predictedCapacity s
  forEach (trackedCosts s) (fun x s =>
    let late : Rat := if cap = 0 then 4295 else x.2.2.2 / cap - x.2.2.1
    if late ≤ 0 || (s.jobs.armed.any fun a => a.riskRaised.contains x.1) then s
    else
      raise 0x0311 (leBytes 4 x.1 ++ leBytes 4 x.2.1 ++ leBytes 4 (min 4294967295 (roundRat (late * 1000000)).toNat))
        (modArmed (fun a => { a with riskRaised := x.1 :: a.riskRaised }) s)) s

/-! ### Monitors (R33, R36 to R39) -/

/-- An index within R36. -/
def indexValid (i : Nat) : Bool := 2048 ≤ i && i ≤ 10240

/-- A monitor becomes broken or valid, with its event (R36, R39). -/
def setMonitor (m : Nat) (x : Monitor) (s : State) : State :=
  let old := (s.monitors.getD m {}).valid
  let s1 := { s with monitors := s.monitors.set m x }
  if old = x.valid then s1 else raise (if x.valid then 0x0131 else 0x0130) (leBytes 2 m) s1

/-- SHUTDOWN may be entered: any state but OFF, and not SHUTDOWN itself (R20). -/
def mayShutdown (s : State) : Bool := s.mod.state ≠ .off && s.mod.state ≠ .shutdown

/-- SPEED_MONITOR_WINDOW (R33): monitor `mon` has counted `count` tokens in a window; twice below the floor is SHUTDOWN
(R38). An index that does not fit the 16 bits of object 0x0110 is held at 65,535 (DESIGN CHOICE, log entry 90). -/
def execSpeedMonitorWindow (t mon count : Nat) (s : State) : Host.Outcome State Fault Refusal :=
  let s1 := beginAt t s
  if s1.mod.state = .off || !s1.power.domainsOn.contains (monitorDomain mon) then .next s1
  else
    let i := min 65535 (4096 * count / max 1 (s1.otp.slowCount.getD mon 4096))
    let old := s1.monitors.getD mon {}
    let low := indexValid i && i < 3686
    let x : Monitor := { index := i, doneAt := some s1.now, valid := indexValid i, belowFloor := if low then old.belowFloor + 1 else 0 }
    let s2 := setMonitor mon x s1
    let s3 := if mon < 14 then checkRisk (noteWindow s2) else s2
    .next (if 2 ≤ x.belowFloor && mayShutdown s3 then
      enterShutdown (shutdownRecord 0x20 (115 * 16) 0 (timeNow s3) s3) (barsFirst (runBars s3) s3)
    else s3)

/-- SPEED_MONITOR_BROKEN (R36, R37, R51): monitor `mon` has not completed a window for two window times; the render index
without it counts from here. -/
def execSpeedMonitorBroken (t mon : Nat) (s : State) : Host.Outcome State Fault Refusal :=
  let s1 := beginAt t s
  let x := s1.monitors.getD mon {}
  .next (if s1.mod.state ≠ .off && s1.power.domainsOn.contains (monitorDomain mon) &&
      (x.doneAt.getD s1.rawOrigin) + 2 * windowT ≤ s1.now then
    let s2 := setMonitor mon { x with valid := false, belowFloor := 0 } s1
    if mon < 14 then checkRisk (noteWindow s2) else s2
  else s1)

/-! ### The governor (R42 to R49) -/

/-- The step changes; the partner is told (R43, R48, R507). -/
def setStep (k : Nat) (s : State) : State :=
  if s.gov.step = k then s
  else
    let s1 := { s with gov := { s.gov with step := k, stepsTaken := wrapInc 16 s.gov.stepsTaken } }
    sendToken 0x04 (leBytes 1 k) s1

/-- A period under throttle: down to step 0, then render_duty down to 0 (Governor under throttle, R47). -/
def throttlePeriod (s : State) : State :=
  let s1 := { s with gov := { s.gov with hold := 0 } }
  if 0 < s1.gov.step then setStep (s1.gov.step - 1) s1
  else { s1 with gov := { s1.gov with renderDuty := s1.gov.renderDuty - 1 } }

/-- Whether need has fallen below capacity (R45). -/
def needMet (s : State) : Bool :=
  let head : Rat := (cfgN s Fld.render_governor_headroom 0 : Rat) / 100
  (demandOf (trackedCosts s)).any fun d => d * (1 + head) < currentCapacity s

/-- The control law (R44, R45). GOVERNOR_AT_LIMIT is raised in the period that finds need above the capacity measured
before it and leaves the governor at max_step, the one that reaches it included. DESIGN CHOICE: R45 does not say on which
window's capacity the step that reaches the limit is judged (log entry 37). -/
def controlLaw (s : State) : State :=
  let period := cfgN s Fld.render_governor_period 0
  let head : Rat := (cfgN s Fld.render_governor_headroom 0 : Rat) / 100
  let hyst : Rat := (cfgN s Fld.render_governor_hysteresis 0 : Rat) / 100
  let top := cfgN s Fld.render_governor_max_step 0
  let cap := currentCapacity s
  let d := demandOf (trackedCosts s)
  let short := match d with
    | none => true
    | some x => cap < x * (1 + head)
  let spare := match d with
    | none => false
    | some x => x * (1 + head + hyst) ≤ cap
  let s1 :=
    if short && s.gov.step < top then setStep (s.gov.step + 1) { s with gov := { s.gov with hold := 0 } }
    else if 0 < s.gov.step && spare then
      let h := s.gov.hold + period
      if 1000 * cfgN s Fld.render_governor_down_hold 0 ≤ h then
        setStep (s.gov.step - 1) { s with gov := { s.gov with hold := 0 } }
      else { s with gov := { s.gov with hold := h } }
    else { s with gov := { s.gov with hold := 0 } }
  if short && top ≤ s1.gov.step && !s1.gov.atLimit then raise 0x0132 [] { s1 with gov := { s1.gov with atLimit := true } } else s1

/-- GOVERNOR_PERIOD (R44): a governor period has passed. -/
def execGovernorPeriod (t : Nat) (s : State) : Host.Outcome State Fault Refusal :=
  let s1 := beginAt t s
  if !s1.gov.running then .next s1
  else
    let s0 := if needMet s1 then { s1 with gov := { s1.gov with atLimit := false } } else s1
    let s2 :=
      if s0.thermal.throttle then throttlePeriod s0
      else if s0.gov.renderDuty < 8 then { s0 with gov := { s0.gov with renderDuty := s0.gov.renderDuty + 1, hold := 0 } }
      else if cfgN s0 Fld.render_governor_enable 0 = 0 then { s0 with gov := { s0.gov with step := 0, hold := 0 } }
      else if follows s0 then s0
      else controlLaw s0
    .next (checkRisk s2)

/-- The governor has started and is enabled: the step may leave 0 (R42, R47). -/
def takesSteps (s : State) : Bool := s.gov.running && cfgN s Fld.render_governor_enable 0 ≠ 0

/-- TOKEN_GOVERNOR's effect: the active's step, unless this module's own throttle holds it down; a module whose governor
has not started, or is disabled, holds step 0 (R42, R47 to R49). A module whose step lags behind the token's takes it at
one token, be it by several steps: the spec does not say how such a module catches up (DESIGN CHOICE, log entry 89). -/
def applyGovernorToken (k : Nat) (s : State) : State :=
  if !takesSteps s then s
  else if s.thermal.throttle && s.gov.step < k then
    if s.gov.overridden then s else raise 0x0133 [] { s with gov := { s.gov with overridden := true } }
  else setStep (min 12 k) s

end Sys2Proof.Machine
end

