-- ==== Sys2Proof/Machine/Flags.lean ====
section
/-! DEFINITION. The levels and status bits that follow from the state: the press signals (01_module_in_the_press.md, R24;
10_firing.md, R309, R314; 16_satos_ring.md, R498; 17_castling.md, R519), and the bits of the status objects that no register
holds. -/
namespace Sys2Proof.Machine
open Sys2Proof

/-! ### Press signals -/

/-- READY is asserted: IDLE to DRAIN, and in a pair only while ACTIVE (R24, R519). -/
def readyOut (s : State) : Bool := (s.mod.state = .idle || inRun s) && drives s

/-- FAULT_N is asserted, and stays so while PD1 is held off (R24, *Table: Held domains*). -/
def faultOut (s : State) : Bool :=
  s.power.domainsHeld.contains 1 || match s.mod.state with
  | .off | .maintenance | .shutdown => true
  | .halted => s.mod.haltModuleDetected
  | _ => false

/-- OVERSPEED_N is asserted (R309, R519). -/
def overspeedOut (s : State) : Bool := s.fire.overspeedN && drives s

/-- A HOLD asserts STOP_REQ_N (R131, R314). -/
def stopHold (s : State) : Bool := drives s && inRun s && s.jobs.armed.any fun a => a.hold

/-- A pause asserts STOP_REQ_N (R314). -/
def stopPause (s : State) : Bool := drives s && inRun s && anyPaused s && cfgN s Fld.firing_head_pause_stop 0 = 1

/-- A member with policy HOLD whose king is lost asserts STOP_REQ_N (R498). -/
def stopKing (s : State) : Bool :=
  drives s && inRun s && groupMember s && s.ring.state = .member && kingLost s && s.jobs.armed.any fun a => a.run.policy = 2

/-- STOP_REQ_N is asserted. -/
def stopOut (s : State) : Bool := stopHold s || stopPause s || stopKing s

/-! ### The Tollos lanes (R24, R27, R326, R328, R336, *Table: Link states*) -/

/-- What a data lane of a link carries. -/
inductive LaneSignal where
  | none | idle | training | halt | packet
  deriving DecidableEq, Repr, Inhabited

/-- What global data lane g carries: nothing in DISABLED and while its PLL is unlocked; K28.5 in IDLE_ONLY; training
blocks in TRAINING; when UP, HALT while the module halts the bar and drives its links, the symbols of a line packet, and
K28.5 with OWNER frames as fill (R27). -/
def laneSignal (s : State) (g : Nat) : LaneSignal :=
  if !linkPll s (g / 3) then .none
  else match (linkOf s (g / 3)).state with
    | .disabled => .none
    | .idleOnly => .idle
    | .training => .training
    | .up =>
      if drives s && (halted s (g / 6) || s.mod.state = .halted) then .halt
      else if packetOnLane s g then .packet else .idle

/-- CK of a link is driven: with every data lane that is (R326). -/
def clockDriven (s : State) (k : Nat) : Bool := [3 * k, 3 * k + 1, 3 * k + 2].any fun g => laneSignal s g ≠ .none

/-! ### Bits of status objects -/

/-- A tracked slot is predicted late (object 0x0301 at_risk, R51). -/
def atRisk (s : State) : Bool :=
  let cap := predictedCapacity s
  (trackedCosts s).any fun x => cap = 0 || x.2.2.1 < x.2.2.2 / cap

/-- Governor steps come from decision tokens: a following module whose governor runs takes them (object 0x0111 token_mode,
R42, R47, R48). -/
def tokenMode (s : State) : Bool := follows s && takesSteps s

/-- What bar b does (object 0x0501 activity): 0 idle, 1 sending, 2 halted, 3 inhibited. -/
def activityOf (s : State) (b : Nat) : Nat :=
  let x := barOf s b
  if x.haltCause ≠ 0 then 2 else if x.inhibited then 3
  else if drives s && isFiring s && x.packet.isSome then 1 else 0

/-- takeover_ready (R505, *Table: HEARTBEAT body*). -/
def takeoverReady (s : State) : Bool := s.pair.state = .standby

/-- owner_is_self (object 0x0412). -/
def ownerIsSelf (s : State) (k : Nat) : Bool := sameOwner (linkOf s k).ownerSeen (ownerWord s)

/-- token_seq as the HEARTBEAT and object 0x0E01 report it: the last token sent or applied, 0 before the first (R505). -/
def lastToken (s : State) : Nat := if s.pair.tokenAny then (s.pair.tokenSeq + 2 ^ 32 - 1) % 2 ^ 32 else 0

/-- order_seq, likewise. -/
def lastOrder (s : State) : Nat := if s.pair.orderAny then (s.pair.orderSeq + 2 ^ 32 - 1) % 2 ^ 32 else 0

end Sys2Proof.Machine
end

