-- ==== Sys2Proof/Machine/Operands.lean ====
section
/-! DEFINITION. The operand forms of the partner link: HEARTBEAT, ORDER and the decision tokens as bytes
(17_castling.md, *Table: HEARTBEAT body*, *Table: Partner frame types*, *Table: Decision tokens*). -/
namespace Sys2Proof.Machine
open Sys2Proof

/-! ### HEARTBEAT (*Table: HEARTBEAT body*) -/

def beatPair (b : List Byte) : Nat := fld b 0 1
def beatModule (b : List Byte) : Nat := fld b 1 1
def beatFlags (b : List Byte) : Nat := fld b 2 1
def beatEpoch (b : List Byte) : Nat := fld b 4 3
def beatToken (b : List Byte) : Nat := fld b 8 4
def beatOrder (b : List Byte) : Nat := fld b 12 4
def beatDigest (b : List Byte) : List Byte := (b.drop 28).take 8
/-- The module time of the heartbeat's K27.7, in 2^-16 ns. -/
def beatTime (b : List Byte) : Int := readNative ((b.drop 16).take 12)
def beatSequence (b : List Byte) (bar : Nat) : Nat := fld b (36 + 4 * bar) 4

/-- The body of the module's own HEARTBEAT. -/
def beatBody (s : State) : List Byte :=
  leBytes 1 (pairCode s.pair.state) ++ leBytes 1 (stateCode s.mod.state) ++
    leBytes 1 (b2n (takeoverReady s) + 2 * b2n s.pair.absent) ++ leBytes 1 0 ++ leBytes 3 s.pair.epoch ++ leBytes 1 0 ++
    leBytes 4 (lastToken s) ++ leBytes 4 (lastOrder s) ++ stampNative (timeNow s) ++ padTo 8 s.update.digest ++
    (List.range 8).flatMap fun b => leBytes 4 (barOf s b).sequence

/-! ### ORDER and RESEND_REQ -/

/-- An ORDER entry as 16 bytes. -/
def orderBytes (e : OrderEntry) : List Byte :=
  leBytes 2 e.session ++ leBytes 2 0 ++ leBytes 4 e.msg ++ leBytes 1 e.type ++ leBytes 3 0 ++ leBytes 4 e.crc

/-- RESEND_REQ: 0 segments of a message, 1 order entries, 2 decisions. -/
def resendBytes (kind first count : Nat) : List Byte := leBytes 1 kind ++ leBytes 3 0 ++ leBytes 4 first ++ leBytes 4 count

/-- The bytes of a datagram that a SEGMENT frame holds: no frame exceeds 4,096 bytes from its type to its CRC, of which 8
come before the body and 4 after it (R474, R504). -/
def segmentRoom : Nat := 4084

/-- The SEGMENT bodies of a datagram. -/
def segmentPieces (u : List Byte) : List (List Byte) :=
  pieces segmentRoom u ++ (if u.length % segmentRoom = 0 then [[]] else [])

/-- A number lies among `count` from `first` on, in 32 bits. -/
def inSpan (first count n : Nat) : Bool := (n + 2 ^ 32 - first) % 2 ^ 32 < count

/-! ### Decision tokens (*Table: Decision tokens*) -/

/-- DECISION: a token as bytes. -/
def tokenBytes (x : Token) : List Byte := leBytes 4 x.seq ++ leBytes 1 x.kind ++ leBytes 3 0 ++ x.body

/-- ARM: run_id, verdict, run_tag, and n_arm of the web master inputs `l`. -/
def armRunId (b : List Byte) : Nat := fld b 0 4
def armVerdict (b : List Byte) : Nat := fld b 4 1
def armTag (b : List Byte) : Nat := fld b 5 2
def armPoints (l : List Nat) (b : List Byte) : List (Nat × Int) := l.zipIdx.map fun p => (p.1, sfld b (7 + 8 * p.2) 8)

/-- TAP: kind, bar, element, version and the value's place. -/
def tapKind (b : List Byte) : Nat := fld b 0 1
def tapBar (b : List Byte) : Nat := fld b 1 1
def tapElement (b : List Byte) : Nat := fld b 2 4

/-- A piece of a table: entries of 16 bits. -/
def tapEntries (b : List Byte) : List Int :=
  let d := b.drop 10
  (List.range (d.length / 2)).map fun i => (fld d (2 * i) 2 : Int)

/-- BAR: bar, action, sequence, cause. -/
def barNumber (b : List Byte) : Nat := fld b 0 1
def barAction (b : List Byte) : Nat := fld b 1 1
def barSequence (b : List Byte) : Nat := fld b 2 4
def barCause (b : List Byte) : Nat := fld b 6 1

end Sys2Proof.Machine
end

