-- ==== Sys2Proof/Machine/Ring.lean ====
section
/-! DEFINITION. The commands of the Satos ring (16_satos_ring.md, R473 to R499; 21_firmware_update.md, R606, R607;
14_timebase.md, R434; 23_mode_combinations.md, R624, R636). -/
namespace Sys2Proof.Machine
open Sys2Proof

/-! ### Discovery and joining -/

/-- DISCOVER is heard (R482, R483, R636). -/
def takeDiscover (f : RingFrame) (s : State) : State :=
  let major := fld f.body 0 1
  let s1 := modNode f.source (fun n => { n with major := major % 16, minor := fld f.body 1 1 % 16 }) s
  if s1.ring.state ≠ .bypassed || s1.ring.ejected then s1
  else if s1.power.position = 0 && drives s1 then
    (if s1.ring.listenSince.isSome then
      raise 0x0D16 (leBytes 1 f.source) { s1 with ring := { s1.ring with listenSince := none } } else s1)
  else if major = s1.update.ringMajor then
    { s1 with ring := { s1.ring with sameMajor := true, attn := s1.ring.attn || !ringLoop s1 } }
  else if s1.ring.versionRaised || s1.ring.sameMajor then s1
  else raise 0x0D13 (leBytes 1 s1.update.ringMajor ++ leBytes 1 major)
    { s1 with ring := { s1.ring with versionRaised := true } }

/-- JOIN_GRANT names this node, which has asked to join (R483, R484). -/
def takeGrant (f : RingFrame) (s : State) : State :=
  if fld f.body 0 1 = nodeNumber s && s.ring.attn && !joined s then
    { s with ring := { s.ring with openAt := some (readNative ((f.body.drop 4).take 12)) } }
  else s

/-- The king receives JOIN_HELLO: the node is admitted, or ejected (R484, R487). -/
def takeHello (f : RingFrame) (s : State) : State :=
  if !isKing s then s
  else
    let n := f.source
    let major := fld f.body 0 1
    let minor := fld f.body 1 1
    let s1 := if s.ring.granted.any fun g => g.1 = n then { s with ring := { s.ring with granted := none } } else s
    if s.ring.roll.testBit n then tryGrant (sendEject n 1 s1)
    else if major ≠ s.update.ringMajor then tryGrant (sendEject n 0 s1)
    else
      let s2 := modNode n (fun x => { x with
        present := true, lost := false, major := major % 16, minor := minor % 16, seen := some s1.now
        pairActive := fld f.body 2 1 ≤ 1, gapOk := true, armed := none, ready := [], groupRun := none }) s1
      tryGrant (sendRoll (noteRoll (raise 0x0D11 (leBytes 1 n ++ leBytes 1 major ++ leBytes 1 minor) s2)))

/-- EJECT names this node: a joining module closes its bypass and stays silent, a leaving one departs (R487, R488). -/
def takeEject (f : RingFrame) (s : State) : State :=
  let reason := fld f.body 1 1
  if fld f.body 0 1 ≠ nodeNumber s then s
  else if reason = 2 then
    match s.ring.leaving with
    | some (r, _) => depart r s
    | none => s
  else if s.ring.state = .joining then
    let s1 := closeBypass .bypassed { s with ring := { s.ring with ejected := true } }
    if reason = 1 then raise 0x0D16 (leBytes 1 (nodeNumber s)) s1
    else raise 0x0D13 (leBytes 1 s.update.ringMajor ++ leBytes 1 (nodeOf s f.source).major) s1
  else s

/-- The king receives LEAVE_REQ (R485, R488). -/
def takeLeave (f : RingFrame) (s : State) : State :=
  if isKing s then serveLeaves { s with ring := { s.ring with leavers := s.ring.leavers ++ [f.source] } } else s

/-! ### The roll (R489, R490) -/

/-- One node of the returned roll. -/
def returnedNode (s : State) (body : List Byte) (n : Nat) (x : Node) : Node :=
  let e := rollEntry body n
  if n = nodeNumber s then ownNode s
  else if fld e 0 1 % 8 = 0 then { x with present := false }
  else { readNode e x with present := true, seen := some s.now, lost := false }

/-- The king's roll has returned: the nodes' entries, the end of an outage, and what waited for a gap (R484, R488, R489). -/
def rollReturned (f : RingFrame) (s : State) : State :=
  let s1 := match s.ring.rollSeen with
    | some t => if t + lossTolerance s < s.now then outageEnded t s else s
    | none => s
  let nodes := s1.ring.nodes.zipIdx.map fun p => returnedNode s1 f.body p.2 p.1
  let s2 := noteRoll { s1 with ring := { s1.ring with nodes := nodes, rollSeen := some s1.now } }
  tryGrant (serveLeaves (checkCascade (settleRelay s2)))

/-- One node of a roll that passes a member. -/
def passedNode (s : State) (body : List Byte) (n : Nat) (x : Node) : Node :=
  if n = nodeNumber s then ownNode s
  else { readNode (rollEntry body n) x with present := (fld (rollEntry body n) 0 1).testBit 3 }

/-- The king's roll passes: a joining node that it shows is a member (R484, R490). -/
def takeRoll (f : RingFrame) (s : State) : State :=
  let shown := (fld (rollEntry f.body (nodeNumber s)) 0 1).testBit 3
  let s1 := if s.ring.state = .joining && shown then setRingState .member { s with ring := { s.ring with attn := false } } else s
  if joined s1 then
    noteRoll { s1 with ring := { s1.ring with nodes := s1.ring.nodes.zipIdx.map fun p => passedNode s1 f.body p.2 p.1 } }
  else s1

/-! ### The cascade (R492 to R497) -/

/-- An input's line position in lines of 1200 lpi at a date (R277). -/
def idleLine (s : State) (i date : Nat) : Rat :=
  let sp := spacingOf s i 1200
  if sp = 0 then 0 else (pointDiff (linePosValue s i date * 4294967296).floor (inputOf s i).origin : Rat) / sp

/-- The origins of the module's web master inputs are set so that their line positions at a time equal the king's (R492). -/
def applyOrigin (body : List Byte) (s : State) : State :=
  let date := dateOfTime s (readNative (body.take 12))
  let line : Rat := (sfld body 12 8 : Rat) / 4294967296
  let inputs := (List.range 16).filter fun i => (List.range 8).any fun b => barInput s b = some i
  forEach inputs (fun i s => modInput i (fun x => { x with
    origin := (linePosValue s i date * 4294967296 - line * spacingOf s i 1200).floor }) s) s

/-- A frame speaks of the armed run. -/
def ofRun (body : List Byte) (s : State) : Bool := inRun s && s.jobs.armed.any fun a => a.run.id = fld body 0 4

/-- The first line of a slot that starts at a line has come due on a bar (R290, R496). -/
def dueOnBar (s : State) (start : Int) (b : Nat) : Bool :=
  match barInput s b with
  | some i => start + ((barOf s b).offset / 256 : Nat) < (inputOf s i).nextLine
  | none => false

/-- How late a release is: the lines passed since the first line of the slot, at the present rate, in µs. -/
def lateBy (s : State) (start : Int) : Nat :=
  let l := (runBars s).map fun b => match barInput s b with
    | some i =>
      let lines : Rat := ((inputOf s i).nextLine - (start + ((barOf s b).offset / 256 : Nat)) : Int)
      if lineRate s i = 0 then (0 : Int) else (lines / lineRate s i * 1000000).floor
    | none => 0
  min 0xFFFFFFFF (l.foldl max 0).toNat

/-- The king's RELEASE at a member: its own release of the slot, or, too late, a slot passed BLANK (R115, R496). -/
def applyRingRelease (body : List Byte) (s0 : State) : State :=
  let s := if follows s0 then dropHeldPages (queueLength s0) s0 else s0
  let n := fld body 4 4
  let start := sfld body 8 8
  match s.jobs.armed, nextPage s with
  | some a, some id =>
    if n ≠ a.nextSlot || a.releasesEnded then s
    else if (runBars s).any (dueOnBar s start) then
      let s1 := raise 0x0D17 (leBytes 4 n ++ leBytes 4 (lateBy s start)) s
      sendSlotReady (endIfLast (passBlank n id (modArmed (fun a => { a with nextStart := some start }) s1)))
    else if anyHalted s then s
    else applyRelease n id start s
  | _, _ => s

/-- A stop by PRINT_GO that the active has decided: this module follows, decides no slot of a group by itself, and sees PRINT_GO
deasserted too (R623). -/
def stoppedByGo (body : List Byte) (s : State) : Bool :=
  s.mod.compat && follows s && !groupMember s && !s.mod.printGo && ofRun body s && fld body 4 1 = 0

/-- A ring decision takes effect: at once, on acknowledgement, or by token (R133, R496, R497, R499, R508, R623). -/
def applyRing (type : Nat) (body : List Byte) (s : State) : State :=
  if type = 0x35 && stoppedByGo body s then goStop s
  else if type = 0x29 then (if inGroup s && s.jobs.armed.isNone then applyOrigin body s else s)
  else if !inGroup s || !ofRun body s then s
  else if type = 0x31 then
    (if s.ring.state = .king then sendCascade (fld body 0 4) (fld body 4 4) s else applyCascade (fld body 4 4) s)
  else if type = 0x33 then applyRingRelease body s
  else if type = 0x34 then applyNotReady (fld body 4 4) (fld body 8 1) s
  else if type = 0x35 then stopRun { s with ring := { s.ring with stopped := true } }
  else s

/-- Before the king's RELEASE of its next slot a member changes over to a re-rendered cycle (R413, R633). -/
def changeoverFirst (f : RingFrame) (s : State) : State :=
  if f.type = 0x33 && ofRun f.body s && s.jobs.armed.any (fun a => a.nextSlot = fld f.body 4 4 && !a.releasesEnded) then
    doChangeover (fld f.body 4 4) s
  else s

/-- The king has put a decision on the ring: its partner need not (R626). -/
def heardDecision (f : RingFrame) (s : State) : State :=
  { s with ring := { s.ring with owed := s.ring.owed.filter fun d => !(f.source < 2 && d = (f.type, f.body)) } }

/-- A ring decision has arrived: a following module waits for the token, an ACTIVE one for its partner (R499, R508). -/
def decideRing (f : RingFrame) (s : State) : State :=
  if !drives s || !inGroup s || (s.ring.state = .king && f.type ≠ 0x35) then heardDecision f s
  else onAck 0x07 (leBytes 1 f.type ++ f.body) (.ring f) (applyRing f.type f.body) (changeoverFirst f s)

/-- RUN_ARMED at the king's position (R493). -/
def takeRunArmed (f : RingFrame) (s : State) : State :=
  checkCascade (modNode f.source (fun n => { n with
    armed := some (fld f.body 0 4, fld f.body 4 4, fld f.body 8 4), ready := [], groupRun := some (fld f.body 0 4, 0) }) s)

/-- SLOT_READY at the king's position, of the run that the node has armed, be the king's own not armed yet (R495). -/
def takeSlotReady (f : RingFrame) (s : State) : State :=
  if (nodeOf s f.source).armed.any fun x => x.1 = fld f.body 0 4 then
    let s1 := modNode f.source (fun n => { n with ready := fld f.body 4 4 :: n.ready }) s
    if ofRun f.body s1 then retryHold s1 else s1
  else s

/-! ### The relay (R606, R607) -/

/-- A member wants the relayed bundle (R606). -/
def wantsRelay (s : State) (digest : List Byte) : Bool :=
  cfgN s Fld.security_relay_bundles 0 = 1 && padTo 8 s.update.digest ≠ digest && (bootRec s).confirmed

/-- The relay of a bundle begins at a member. -/
def beginRelay (digest : List Byte) (s : State) : State :=
  { s with update := { s.update with
    relayDigest := digest, relayOffset := 0, relayBytes := [], relayStatus := if wantsRelay s digest then 0 else 3
    relayOutcome := 0, lastAck := none } }

/-- The relayed header is complete: *Table: Early header checks*, as of an IMAGE_BEGIN (R606). -/
def relayHeader (s : State) : State :=
  let h := s.update.relayBytes.take 256
  let o := beginOutcome s 0 h
  if o ≠ 0 then { s with update := { s.update with relayStatus := 2, relayOutcome := o } }
  else openDownload 0 h { s with update := { s.update with lastKind := some 0 } }

/-- Whole blocks of the bytes taken go to the flash writer; `fuel` bounds them. -/
def queueRelay : Nat → State → State
  | 0, s => s
  | fuel + 1, s =>
    let h := downloadHeader s 0
    let n := (s.update.relayOffset - s.update.relayBytes.length) / 65536
    let k := blockLength h n
    if blockCount h ≤ n || s.update.relayBytes.length < k then s
    else
      let d := s.update.relayBytes.take k
      let j : FlashJob := { kind := 0, block := n, data := d, crc := crc32c d }
      queueRelay fuel { s with update := { s.update with
        queue := s.update.queue ++ [j], relayBytes := s.update.relayBytes.drop k } }

/-- The next bytes of the relay are taken. -/
def takeRelayData (d : List Byte) (s : State) : State :=
  let old := s.update.relayOffset
  let s1 := { s with update := { s.update with relayBytes := s.update.relayBytes ++ d, relayOffset := old + d.length } }
  let s2 := if old < 256 && 256 ≤ old + d.length then relayHeader s1 else s1
  if s2.update.relayStatus = 0 && 256 ≤ old + d.length then queueRelay 2 s2 else s2

/-- RING_IMAGE_BLOCK at a member (R606); a member whose part is over repeats its IMAGE_ACK. -/
def takeRelayBlock (f : RingFrame) (s : State) : State :=
  if s.ring.state ≠ .member then s
  else
    let dg := f.body.take 8
    let s1 := if s.update.relayDigest = dg then s else beginRelay dg s
    if s1.update.relayStatus ≠ 0 then
      (if s1.update.lastAck.all fun t => t + msT 100 ≤ s1.now then sendImageAck s1 else s1)
    else if fld f.body 8 4 = s1.update.relayOffset then
      let s2 := takeRelayData ((f.body.drop 16).take (fld f.body 12 2)) s1
      if s2.update.relayStatus = 2 then sendImageAck s2 else s2
    else s1

/-- IMAGE_ACK at the king: the relay goes on from the lowest byte that a node lacks, or ends (R607). -/
def takeImageAck (f : RingFrame) (s : State) : State :=
  if s.ring.state ≠ .king || !s.update.relaying || padTo 8 f.body ≠ s.update.relayDigest then s
  else
    let s1 := settleRelay (modNode f.source (fun n => { n with relay := some (fld f.body 8 4, fld f.body 12 1) }) s)
    let lacking := (otherNodes s1).filterMap fun n => (nodeOf s1 n).relay.bind fun r => if r.2 = 0 then some r.1 else none
    match lacking with
    | o :: l => if s1.update.relaying then sendRelay (l.foldl min o) s1 else s1
    | [] => s1

/-! ### Delay (R434) -/

/-- DELAY_REQ at the king: its departure time goes back with the king's turnaround, which the spec leaves open. -/
def answerDelay (f : RingFrame) (s : State) : State :=
  if isKing s then
    drawFree (ringSend 0x22 f.source (f.body.take 12 ++ leBytes 4 (Config.freeValue s.freeN).toNat) s)
  else s

/-- DELAY_REQ of a member: its departure time, which the raw counter dates too (R422, R434). -/
def askDelay (s : State) : State :=
  ringSend 0x21 0xFF (stampNative (timeNow s)) { s with ring := { s.ring with delayReq := some (timeNow s, s.now) } }

/-- DELAY_RESP at a member: half the round trip, measured on the raw counter, less the king's turnaround, is its hop delay
(R422, R434). -/
def takeDelayResp (f : RingFrame) (s : State) : State :=
  match s.ring.delayReq with
  | some (stamp, left) =>
    if stampNative stamp ≠ f.body.take 12 then s
    else
      let delay : Int := ((s.now - left : Nat) * 1024 - (fld f.body 12 4 : Nat)) / 2
      let ns := roundDiv delay 65536
      modNode (nodeNumber s) (fun n => { n with hopDelay := (clampInt 0 65535 ns).toNat }) { s with
        ring := { s.ring with delayReq := none, hopDelay := delay }
        time := if timeSource s = 2 then { s.time with pathDelay := ns } else s.time }
  | none => s

/-- TIME of the king at a member: where RING is the source, its offset is its own time less the king's and the hop delay
(R434). -/
def takeTime (f : RingFrame) (s : State) : State :=
  if s.ring.state ≠ .member || 2 ≤ f.source then s
  else
    let s1 := { s with ring := { s.ring with timeSeen := some s.now } }
    if timeSource s1 = 2 then measureOffset (timeNow s1 - (readNative (f.body.take 12) + s1.ring.hopDelay)) s1 else s1

/-! ### Frames (R475, R478) -/

/-- A frame for this module takes its effect, by its type. -/
def applyFrame (f : RingFrame) (s : State) : State :=
  if f.type = 0x23 then takeDiscover f s
  else if f.type = 0x25 then takeGrant f s
  else if f.type = 0x24 then takeRoll f s
  else if f.type = 0x27 then takeEject f s
  else if !joined s then s
  else if f.type = 0x20 then takeTime f s
  else if f.type = 0x21 then answerDelay f s
  else if f.type = 0x22 then takeDelayResp f s
  else if f.type = 0x26 then takeHello f s
  else if f.type = 0x28 then takeLeave f s
  else if f.type = 0x30 then takeRunArmed f s
  else if f.type = 0x32 then takeSlotReady f s
  else if f.type = 0x38 then takeRelayBlock f s
  else if f.type = 0x39 then takeImageAck f s
  else if f.type = 0x29 || f.type = 0x31 || f.type = 0x33 || f.type = 0x34 || f.type = 0x35 then decideRing f s
  else s

/-- A joined node forwards a frame, with one hop more and, in a roll, its own entry (R475, R489). -/
def forward (f : RingFrame) (s : State) : State :=
  if !ringOpen s || f.source = nodeNumber s || f.dest = nodeNumber s || 8 ≤ f.hops then s
  else emit (ringOut { f with hops := f.hops + 1, body := if f.type = 0x24 then fillRoll s f.body else f.body }) s

/-- A frame of the module's own has returned: it is delivered (R478). -/
def returned (f : RingFrame) (s : State) : State :=
  let s1 := { s with ring := { s.ring with tx := s.ring.tx.filter fun x => x.frame.seq ≠ f.seq } }
  if f.type = 0x24 && isKing s1 then rollReturned f s1 else s1

/-- A control or management frame has been applied before (R478). -/
def repeated (f : RingFrame) (s : State) : Bool := resentType f.type && s.ring.applied.contains (f.source, f.seq)

def noteApplied (f : RingFrame) (s : State) : State :=
  if resentType f.type then { s with ring := { s.ring with applied := ((f.source, f.seq) :: s.ring.applied).take 256 } } else s

/-- A frame arrives on ring-in: forwarded, removed or applied (R475, R478). -/
def receiveFrame (crcOk : Bool) (f : RingFrame) (s : State) : State :=
  if !ringOn s then s
  else
    let s1 := forward f s
    if !crcOk then { s1 with ring := { s1.ring with crcDiscards := wrapInc 16 s1.ring.crcDiscards } }
    else if ringOpen s1 && f.source = nodeNumber s1 then returned f s1
    else if f.dest ≠ 0xFF && f.dest ≠ nodeNumber s1 then hearKing f s1
    else if repeated f s1 then hearKing f s1
    else applyFrame f (noteApplied f (hearKing f s1))

/-- A frame of one type arrives. -/
def typedFrame (type : Nat) (f : RingFrame) (s : State) : State := if f.type = type then receiveFrame true f s else s

/-! ### The commands -/

/-- RING_FRAME_RECEIVED (R475). -/
def execRingFrameReceived (t : Nat) (crcOk : Bool) (f : RingFrame) (s : State) : Host.Outcome State Fault Refusal :=
  .next (receiveFrame crcOk f (beginAt t s))

/-- RING_FRAME_RESEND (R478): a frame that has not returned within 20 µs is sent again, up to 25 times. -/
def execRingFrameResend (t seq : Nat) (s : State) : Host.Outcome State Fault Refusal :=
  let s1 := beginAt t s
  match s1.ring.tx.find? fun x => x.frame.seq = seq with
  | none => .next s1
  | some x =>
    if !ringOpen s1 || s1.now < x.sentAt + usT 20 then .next s1
    else if 25 ≤ x.resends then
      .next { s1 with ring := { s1.ring with tx := s1.ring.tx.filter fun y => y.frame.seq ≠ seq } }
    else .next (emit (ringOut x.frame) { s1 with ring := { s1.ring with
      resends := wrapInc 16 s1.ring.resends
      tx := s1.ring.tx.map fun y => if y.frame.seq = seq then { y with sentAt := s1.now, resends := y.resends + 1 } else y } })

/-- RING_TIME_SEND (R434): the king sends TIME, and with it the roll, whose period the spec does not give; relay blocks
that wait follow as far as there is room (R476). -/
def execRingTimeSend (t : Nat) (s : State) : Host.Outcome State Fault Refusal :=
  let s1 := beginAt t s
  .next (if isKing s1 then pumpImages s1.ring.imageTx.length (sendRoll (sendTime s1)) else s1)

/-- RING_DELAY_EXCHANGE (R434): a member sends DELAY_REQ, or takes the king's DELAY_RESP. -/
def execRingDelayExchange (t : Nat) (resp : Option RingFrame) (s : State) : Host.Outcome State Fault Refusal :=
  let s1 := beginAt t s
  match resp with
  | some f => .next (typedFrame 0x22 f s1)
  | none => .next (if s1.ring.state = .member then askDelay s1 else s1)

/-- A new king's roll begins with no node (R482). -/
def freshRoll (s : State) : State := { s with ring := { s.ring with roll := 0, nodes := List.replicate 8 {} } }

/-- KING_LISTEN_EXPIRY (R482). -/
def execKingListenExpiry (t : Nat) (s : State) : Host.Outcome State Fault Refusal :=
  let s1 := beginAt t s
  .next (if ringOn s1 && s1.power.position = 0 && s1.power.strapValid && drives s1 && s1.ring.state = .bypassed &&
      !s1.ring.ejected && !ringLoop s1 && s1.ring.listenSince.any (fun d => d + msT 20 ≤ s1.now) then becomeKing (freshRoll s1)
    else s1)

/-- DISCOVER_SEND (R482). -/
def execDiscoverSend (t : Nat) (s : State) : Host.Outcome State Fault Refusal :=
  let s1 := beginAt t s
  .next (if isKing s1 then ringSend 0x23 0xFF (discoverBody s1) s1 else s1)

/-- DISCOVER (R482, R483). -/
def execDiscover (t : Nat) (f : RingFrame) (s : State) : Host.Outcome State Fault Refusal := .next (typedFrame 0x23 f (beginAt t s))

/-- RING_ATTN_ASSERTED (R484). -/
def execRingAttnAsserted (t : Nat) (s : State) : Host.Outcome State Fault Refusal :=
  let s1 := beginAt t s
  .next (if isKing s1 then grantNext { s1 with ring := { s1.ring with attnLine := true } } else s1)

/-- JOIN_GRANT (R484). -/
def execJoinGrant (t : Nat) (f : RingFrame) (s : State) : Host.Outcome State Fault Refusal := .next (typedFrame 0x25 f (beginAt t s))

/-- BYPASS_OPEN_TIME (R484): the bypass opens at the granted time, and JOIN_HELLO goes out. -/
def execBypassOpenTime (t : Nat) (s : State) : Host.Outcome State Fault Refusal :=
  let s1 := beginAt t s
  .next (match s1.ring.openAt with
    | some at_ =>
      if ringOn s1 && at_ ≤ timeNow s1 && !joined s1 then
        let s2 := setRingState .joining (openBypass { s1 with ring := { s1.ring with openAt := none } })
        ringSend 0x26 0xFF (leBytes 1 s2.update.ringMajor ++ leBytes 1 s2.update.ringMinor ++
          leBytes 1 (pairCode s2.pair.state) ++ leBytes 1 0 ++ padTo 8 s2.update.digest) s2
      else s1
    | none => s1)

/-- JOIN_HELLO (R487). -/
def execJoinHello (t : Nat) (f : RingFrame) (s : State) : Host.Outcome State Fault Refusal := .next (typedFrame 0x26 f (beginAt t s))

/-- JOIN_HELLO_TIMEOUT (R484): the king goes on to the next node. -/
def execJoinHelloTimeout (t : Nat) (s : State) : Host.Outcome State Fault Refusal :=
  let s1 := beginAt t s
  .next (match s1.ring.granted with
    | some g => if g.2 + usT 200 ≤ s1.now then tryGrant { s1 with ring := { s1.ring with granted := none } } else s1
    | none => s1)

/-- EJECT (R487, R488). -/
def execEject (t : Nat) (f : RingFrame) (s : State) : Host.Outcome State Fault Refusal := .next (typedFrame 0x27 f (beginAt t s))

/-- LEAVE_REQ (R488). -/
def execLeaveReq (t : Nat) (f : RingFrame) (s : State) : Host.Outcome State Fault Refusal := .next (typedFrame 0x28 f (beginAt t s))

/-- LEAVE_WAIT_EXPIRY (R488): ring.leave_wait has passed without EJECT, and the module departs. -/
def execLeaveWaitExpiry (t : Nat) (s : State) : Host.Outcome State Fault Refusal :=
  let s1 := beginAt t s
  .next (match s1.ring.leaving with
    | some (r, since) => if since + msT (cfgN s1 Fld.ring_leave_wait 0) ≤ s1.now then depart r s1 else s1
    | none => s1)

/-- ROLL (R489). -/
def execRoll (t : Nat) (f : RingFrame) (s : State) : Host.Outcome State Fault Refusal := .next (typedFrame 0x24 f (beginAt t s))

/-- A date lies the loss tolerance back. -/
def silent (s : State) (d : Option Nat) : Bool := d.any fun t => t + lossTolerance s ≤ s.now

/-- RING_MEMBER_LOST (R489): the king loses a node of its roll, or a member loses the king. -/
def execRingMemberLost (t node : Nat) (s : State) : Host.Outcome State Fault Refusal :=
  let s1 := beginAt t s
  let x := nodeOf s1 node
  .next (
    if isKing s1 then
      (if node < 8 && node ≠ nodeNumber s1 && !x.lost && x.seen.isSome && (silent s1 x.seen || silent s1 s1.ring.rollSeen) then
        settleRelay (raise 0x0D12 (leBytes 1 node) (modNode node (fun n => { n with lost := true }) s1))
      else s1)
    else if s1.ring.state = .member && node < 2 && s1.ring.kingHeard && silent s1 s1.ring.kingSeen then
      { s1 with ring := { s1.ring with kingHeard := false } }
    else s1)

/-- No group module has a run armed, as the king knows (R492). -/
def groupIdle (s : State) : Bool :=
  s.jobs.armed.isNone && s.ring.nodes.all fun n => n.groupRun.isNone

/-- ORIGIN_SEND (R492). -/
def execOriginSend (t : Nat) (s : State) : Host.Outcome State Fault Refusal :=
  let s1 := beginAt t s
  .next (if isKing s1 && inGroup s1 && groupIdle s1 then
    ringSend 0x29 0xFF (stampNative (timeNow s1) ++
      sgBytes 8 (idleLine s1 (cfgN s1 Fld.ring_origin_input 0) s1.now * 4294967296).floor) s1
  else s1)

/-- ORIGIN (R492). -/
def execOrigin (t : Nat) (f : RingFrame) (s : State) : Host.Outcome State Fault Refusal := .next (typedFrame 0x29 f (beginAt t s))

/-- RUN_ARMED (R493). -/
def execRunArmedFrame (t : Nat) (f : RingFrame) (s : State) : Host.Outcome State Fault Refusal :=
  .next (typedFrame 0x30 f (beginAt t s))

/-- CASCADE_ARMED (R494). -/
def execCascadeArmed (t : Nat) (f : RingFrame) (s : State) : Host.Outcome State Fault Refusal :=
  .next (typedFrame 0x31 f (beginAt t s))

/-- SLOT_READY (R495). -/
def execSlotReady (t : Nat) (f : RingFrame) (s : State) : Host.Outcome State Fault Refusal := .next (typedFrame 0x32 f (beginAt t s))

/-- RELEASE of the ring (R496). -/
def execRingRelease (t : Nat) (f : RingFrame) (s : State) : Host.Outcome State Fault Refusal :=
  .next (typedFrame 0x33 f (beginAt t s))

/-- NOT_READY of the ring (R496). -/
def execRingNotReady (t : Nat) (f : RingFrame) (s : State) : Host.Outcome State Fault Refusal :=
  .next (typedFrame 0x34 f (beginAt t s))

/-- CASCADE_STOP (R497). -/
def execCascadeStop (t : Nat) (f : RingFrame) (s : State) : Host.Outcome State Fault Refusal :=
  .next (typedFrame 0x35 f (beginAt t s))

/-- RING_IMAGE_BLOCK (R606). -/
def execRingImageBlock (t : Nat) (f : RingFrame) (s : State) : Host.Outcome State Fault Refusal :=
  .next (typedFrame 0x38 f (beginAt t s))

/-- IMAGE_ACK (R607). -/
def execImageAck (t : Nat) (f : RingFrame) (s : State) : Host.Outcome State Fault Refusal := .next (typedFrame 0x39 f (beginAt t s))

/-- RELAY_ACK_DUE (R607): every 100 ms of a relay that it receives, a member sends IMAGE_ACK. -/
def execRelayAckDue (t : Nat) (s : State) : Host.Outcome State Fault Refusal :=
  let s1 := beginAt t s
  .next (if s1.ring.state = .member && !s1.update.relayDigest.isEmpty && s1.update.relayStatus = 0 &&
      (s1.update.lastAck.all fun d => d + msT 100 ≤ s1.now) then sendImageAck s1
    else s1)

end Sys2Proof.Machine
end

