-- ==== Sys2Proof/Machine/Thermal.lean ====
section
/-! DEFINITION. The thermal manager (20_thermal.md, R569 to R583, R700; 10_firing.md, R315 to R319, R322). -/
namespace Sys2Proof.Machine
open Sys2Proof

/-! ### Readings and thresholds (R569 to R571), in 1/16 °C -/

/-- Warning, throttle and shutdown thresholds of a module reading, in °C (*Table: Module temperature readings*). -/
def thresholdsOf (i : Nat) : Nat × Nat × Nat :=
  if i < 16 then (100, 105, 115) else if i = 16 then (85, 90, 100) else if i = 17 || i = 18 then (110, 115, 125)
  else if i = 19 then (95, 100, 110) else (87, 92, 95)

/-- The thresholds in force (R570). -/
def warnLimit (s : State) (i : Nat) : Int := 16 * (((thresholdsOf i).1 : Int) - cfgN s Fld.thermal_warn_lower 0)
def throttleLimit (s : State) (i : Nat) : Int := 16 * (((thresholdsOf i).2.1 : Int) - cfgN s Fld.thermal_throttle_lower 0)
def shutdownLimit (i : Nat) : Int := 16 * ((thresholdsOf i).2.2 : Int)

/-- A module reading takes part (R571). -/
def takesPart (s : State) (i : Nat) : Bool :=
  if i < 20 then true else s.power.domainsOn.contains 7 && s.mem.trained.getD ((i - 20) / 2) false

/-- The cause for which a TS or TB reading is broken, 0 for none; `same` is the number of samples with its raw code
(*Table: Broken module readings*). -/
def brokenConv (i same : Nat) (c : SensorConv) : Nat :=
  if c.high then 1 else if c.low then 2 else if 16 ≤ same then 3
  else if c.temp < -45 * 16 || shutdownLimit i + 30 * 16 < c.temp then 4
  else if 1000 ≤ c.ageUs then 5 else 0

/-- One sample of a module reading (R572, R574). -/
def sampleOne (s : State) (conv : List SensorConv) (i : Nat) (x : Sensor) : Sensor :=
  if !takesPart s i then { x with state := 6, warning := false, throttle := false, sameCode := 0 }
  else
    let c : SensorConv := conv.getD i { temp := 0, code := 0, high := false, low := false, ageUs := 1000 }
    let d := s.mem.sub.getD (i - 20) {}
    let same := if x.sameCode ≠ 0 && x.lastCode = c.code then x.sameCode + 1 else 1
    let cause := if i < 20 then brokenConv i same c else brokenDt s.now d
    let v : Int := if i < 20 then c.temp else 16 * d.dt.getD 0
    let eff : Int := if cause = 0 then v else shutdownLimit i
    { temperature := if cause = 0 then v else 0x7FFF, state := cause
      warning := warnLimit s i ≤ eff, throttle := throttleLimit s i ≤ eff
      peak := if cause = 0 then (if x.peak < v || x.state = 6 && x.peak = 0 then v else x.peak) else x.peak
      brokenCount := if cause = 0 then x.brokenCount else wrapInc 16 x.brokenCount
      lastCode := if i < 20 then c.code else 0, sameCode := if i < 20 then same else 0 }

/-- The value that counts of a sampled reading: a broken one stands at its shutdown threshold (R575). -/
def effective (i : Nat) (x : Sensor) : Int := if x.state = 0 then x.temperature else shutdownLimit i

/-- The module readings that take part: number and value that counts. -/
def readings (s : State) : List (Nat × Int) :=
  s.thermal.sensors.zipIdx.filterMap fun p => if p.1.state = 6 then none else some (p.2, effective p.2 p.1)

/-- The first of the entries that lie furthest beyond their level (R700). -/
def furthest {α : Type} (l : List (α × Int)) : Option α :=
  match l with
  | [] => none
  | x :: r => some (r.foldl (fun a y => if a.2 < y.2 then y else a) x).1

/-! ### Heads (R315, R347, R576) -/

/-- The links of a bar that are UP, with their heads. -/
def barHeads (s : State) (b : Nat) : List (Nat × Nat) :=
  ([2 * b, 2 * b + 1].filter (linkUp s)).flatMap fun k => (List.range (headsOf s.conf.cfg k).length).map fun h => (k, h)

def headOf (s : State) (p : Nat × Nat) : HeadReading := (linkOf s p.1).heads.getD p.2 {}

/-- A head reading is broken: not VALID, or STUCK (R576). -/
def headBroken (x : HeadReading) : Bool := x.state ≠ 0 || 16 ≤ x.sameCount

/-- A head reading in 1/16 °C for the thresholds: broken counts as at head_limit (R315, R700). -/
def headValue (s : State) (b : Nat) (p : Nat × Nat) : Int :=
  if headBroken (headOf s p) then 16 * (cfgN s Fld.firing_head_limit b : Int) else (headOf s p).temperature

/-- HEAD_SENSOR_BROKEN, once in an episode (R576). -/
def headEvents (s : State) : State :=
  forEach ((List.range 8).flatMap (barHeads s)) (fun p s =>
    let x := headOf s p
    let put (v : Bool) (s : State) : State :=
      modLink p.1 (fun l => { l with heads := l.heads.modify p.2 fun q => { q with brokenRaised := v } }) s
    if headBroken x then
      if x.brokenRaised then s
      else raise 0x0148 (leBytes 1 p.1 ++ leBytes 1 p.2 ++ leBytes 1 (if x.state ≠ 0 then x.state else 5)) (put true s)
    else if x.brokenRaised then put false s else s) s

/-- A head's temperature in an event: whole °C, 0x7F when broken. -/
def headTemp (s : State) (p : Nat × Nat) : List Byte :=
  sgBytes 1 (if headBroken (headOf s p) then 127 else clampInt (-128) 126 ((headOf s p).temperature / 16))

/-- A pause begins or ends on a bar (R316, R317); the partner is told. -/
def putPause (b : Nat) (on : Bool) (s : State) : State :=
  let s1 := modBar b (fun x => { x with paused := on }) (barToken b (if on then 1 else 2) (barOf s b).sequence 0 s)
  if on then s1 else retryHold s1

/-- A bar is inhibited at once, or still is: its slots are SPOILED with reason THERMAL (R318). -/
def applyInhibit (b : Nat) (s : State) : State :=
  settle (stopSlotsOn b [spoilThermal] (modBar b (fun x => { x with inhibited := true, inhibitCool := false })
    (if drives s then forEach (barLanes b) endPacket s else s)))

/-- The heads of bar b as now read (R316 to R319, R322): a module that follows raises its events only. -/
def headCheck (b : Nat) (s : State) : State :=
  let hs := barHeads s b
  let pause : Int := 16 * cfgN s Fld.firing_head_pause b
  let limit : Int := 16 * cfgN s Fld.firing_head_limit b
  let hyst : Int := 16 * cfgN s Fld.firing_head_hysteresis 0
  let hot := hs.find? fun p => headBroken (headOf s p) || pause ≤ headValue s b p
  let tooHot := hs.find? fun p => headBroken (headOf s p) || limit ≤ headValue s b p
  let cool := hs.all fun p => !headBroken (headOf s p) && headValue s b p < pause - hyst
  let below := hs.all fun p => !headBroken (headOf s p) && headValue s b p < limit - hyst
  let x := barOf s b
  let d (p : Nat × Nat) : List Byte := leBytes 1 b ++ leBytes 1 p.1 ++ leBytes 1 p.2 ++ headTemp s p
  let s1 := match hot with
    | some p => if x.ownPause then s else raise 0x0515 (d p) (modBar b (fun y => { y with ownPause := true }) s)
    | none => if x.ownPause && cool then raise 0x0516 (leBytes 1 b) (modBar b (fun y => { y with ownPause := false }) s) else s
  let s2 := if !follows s1 && (barOf s1 b).paused ≠ (barOf s1 b).ownPause then putPause b (barOf s1 b).ownPause s1 else s1
  match tooHot with
  | some p =>
    let s3 := if x.ownInhibit || (x.inhibited && !follows s2) then s2 else raise 0x0517 (d p) (modBar b (fun y => { y with ownInhibit := true }) s2)
    if follows s3 then s3
    else if (barOf s3 b).inhibited && (slotsOn s3 b).isEmpty then modBar b (fun y => { y with inhibitCool := false }) s3
    else applyInhibit b (barToken b 3 (barOf s3 b).sequence 0 s3)
  | none =>
    if below then modBar b (fun y => { y with ownInhibit := false, inhibitCool := y.inhibited && !follows s2 }) s2 else s2

/-! ### Warning, throttle, blitz (R573, R577, R578) -/

/-- Warning is declared or ends (R577). -/
def warningCheck (s : State) : State :=
  let hyst : Int := 16 * cfgN s Fld.thermal_hysteresis 0
  let rs := readings s
  let inW := rs.filterMap fun p => if warnLimit s p.1 ≤ p.2 then some (p, p.2 - warnLimit s p.1) else none
  match furthest inW with
  | some p => if s.thermal.warning then s
    else raise 0x0140 (leBytes 1 p.1 ++ sgBytes 2 p.2) { s with thermal := { s.thermal with warning := true } }
  | none =>
    if s.thermal.warning && rs.all fun p => p.2 < warnLimit s p.1 - hyst then
      raise 0x0141 [] { s with thermal := { s.thermal with warning := false } }
    else s

/-- Throttle is declared or ends, and its time is counted (R578). -/
def throttleCheck (s : State) : State :=
  let hyst : Int := 16 * cfgN s Fld.thermal_hysteresis 0
  let rs := readings s
  let spent := (s.thermal.throttleSince.map fun n => s.now - n).getD 0
  let s1 := { s with thermal := { s.thermal with
    throttleTime := s.thermal.throttleTime + spent
    throttleSince := if s.thermal.throttle then some s.now else none } }
  let inT := rs.filterMap fun p => if throttleLimit s p.1 ≤ p.2 then some (p, p.2 - throttleLimit s p.1) else none
  match furthest inT with
  | some p => if s1.thermal.throttle then s1
    else raise 0x0142 (leBytes 1 p.1 ++ sgBytes 2 p.2) { s1 with
      thermal := { s1.thermal with throttle := true, throttleSince := some s.now
                                   throttleEntries := wrapInc 16 s1.thermal.throttleEntries }
      gov := { s1.gov with overridden := false } }
  | none =>
    if s1.thermal.throttle && rs.all fun p => p.2 < throttleLimit s p.1 - hyst then
      raise 0x0143 [] { s1 with thermal := { s1.thermal with throttle := false, throttleSince := none } }
    else s1

/-- Every reading with its lowest threshold: its bytes in BLITZ_ON, its value, the threshold (R573, R700). -/
def blitzReadings (s : State) : List (List Byte × Int × Int) :=
  ((readings s).map fun p => (leBytes 1 p.1, p.2, warnLimit s p.1)) ++
    (List.range 8).flatMap fun b => (barHeads s b).map fun p =>
      (leBytes 1 0xFE ++ leBytes 1 p.1 ++ leBytes 1 p.2, headValue s b p, 16 * (cfgN s Fld.firing_head_pause b : Int))

/-- The module enters blitz, or a blitz cools (R573). -/
def blitzCheck (s : State) : State :=
  let l := blitzReadings s
  let near := l.filterMap fun x => if x.2.2 - 128 ≤ x.2.1 then some (x.1, x.2.1 - (x.2.2 - 128)) else none
  let cool := l.all fun x => x.2.1 < x.2.2 - 160
  let s1 := { s with thermal := { s.thermal with
    coolSince := if cool then some (s.thermal.coolSince.getD s.now) else none } }
  match furthest near with
  | some b => if s1.thermal.blitz then s1
    else raise 0x0145 b { s1 with thermal := { s1.thermal with
      blitz := true, blitzEntries := wrapInc 16 s1.thermal.blitzEntries } }
  | none => s1

/-! ### A sample (R572, R582) -/

/-- The shutdown record of a sample that finds readings at or above their shutdown thresholds (R583, R700). -/
def shutdownFinding (s : State) : Option ShutdownRecord :=
  let l := (readings s).filterMap fun p => if shutdownLimit p.1 ≤ p.2 then some (p.1, p.2 - shutdownLimit p.1) else none
  (furthest l).map fun i =>
    let x := s.thermal.sensors.getD i {}
    shutdownRecord i (if x.state = 0 then x.temperature else 0x7FFF) x.state (timeNow s) s

/-- SENSOR_BROKEN for the readings that a sample newly finds broken, before the module acts (R575); `old` holds the readings
before the sample. -/
def brokenEvents (old : List Sensor) (s : State) : State :=
  forEach (s.thermal.sensors.zipIdx.filter fun p =>
      p.1.state ≠ 0 && p.1.state ≠ 6 && ((old.getD p.2 {}).state = 0 || (old.getD p.2 {}).state = 6)) (fun p =>
    raise 0x0144 (leBytes 1 p.2 ++ leBytes 1 p.1.state)) s

/-- THERMAL_SAMPLE (R572): a sample of every reading, which may find a DTn broken (R239); `conv` holds the conversions of
TS0 to TS15 and TB0 to TB3. A sample that finds SHUTDOWN declares no warning and no throttle (R582); blitz it may enter
(R573). -/
def execThermalSample (t : Nat) (conv : List SensorConv) (s : State) : Host.Outcome State Fault Refusal :=
  let s1 := beginAt t s
  if s1.mod.state = .off then .next s1
  else
    let sampled (p : Sensor × Nat) : Sensor := sampleOne s1 conv p.2 p.1
    let s2 := forEach ((List.range 8).filter fun k => takesPart s1 (20 + k)) (fun k => refreshSub k id)
      { s1 with thermal := { s1.thermal with sensors := s1.thermal.sensors.zipIdx.map sampled } }
    match shutdownFinding s2 with
    | some r =>
      let s3 := blitzCheck (brokenEvents s1.thermal.sensors s2)
      .next (if mayShutdown s3 then enterShutdown r (barsFirst (runBars s3) s3) else s3)
    | none => .next (forEach (List.range 8) headCheck (blitzCheck (headEvents (throttleCheck (warningCheck s2)))))

/-- BLITZ_OFF (R573): every reading has stayed below its lowest threshold less 10 °C for 1 s. -/
def execBlitzOff (t : Nat) (s : State) : Host.Outcome State Fault Refusal :=
  let s1 := beginAt t s
  .next (if s1.thermal.blitz && s1.thermal.coolSince.any fun n => n + secT 1 ≤ s1.now then
    raise 0x0146 [] { s1 with thermal := { s1.thermal with blitz := false } } else s1)

/-- SHUTDOWN_RECORD_WRITTEN (R583): the record has gone to flash, over the older of its two copies; the next start raises
THERMAL_SHUTDOWN with it. -/
def execShutdownRecordWritten (t : Nat) (s : State) : Host.Outcome State Fault Refusal :=
  let s1 := beginAt t s
  match s1.thermal.recordPending with
  | none => .next s1
  | some r =>
    let k := nextPlace (fun x => x.seq) (s1.flash.shutdown.map validShutdown)
    .next (atNextStart 0x0147
        (leBytes 1 r.reading ++ sgBytes 2 r.value ++ leBytes 1 r.cause ++ stampNative r.time) (emit (.flashWrite 5) { s1 with
      flash := { s1.flash with shutdown := s1.flash.shutdown.set k (some r) }
      thermal := { s1.thermal with record := some r, recordPending := none } }))

end Sys2Proof.Machine
end

