-- ==== Sys2Proof/Machine/Timebase.lean ====
section
/-! DEFINITION. The commands of the timebase (14_timebase.md): PTP messages, the servo, changes of the anchor, timed outputs
and PPS. -/
namespace Sys2Proof.Machine
open Sys2Proof

/-! ### The servo (R428, R429) -/

/-- HOLDOVER: the rate is held at the last i (*Table: Time states*). -/
def holdOver (s : State) : State :=
  if s.time.state = .locked || s.time.state = .acquiring then
    setTimeState .holdover (writeChange 0 (rateOf s.time.integ) s)
  else s

/-- TIME_SERVO_MEASUREMENT (R428): an offset from the source in force is measured, in 2^-16 ns. -/
def execTimeServoMeasurement (t : Nat) (offset : Int) (s : State) : Host.Outcome State Fault Refusal :=
  let s1 := beginAt t s
  if timeSource s1 = 0 || (timeSource s1 = 1 && s1.time.ptpMaster) then .next s1
  else .next (measureOffset offset s1)

/-- TIME_CHANGE_APPLY (R425, R426): the pending change's raw count is reached. -/
def execTimeChangeApply (t : Nat) (s : State) : Host.Outcome State Fault Refusal := .next (settleChange (beginAt t s))

/-! ### PTP (R431 to R433) -/

/-- The announce interval, 2 s: the default of IEEE 1588-2019. -/
def announceInterval : Nat := secT 2

/-- The Announce data of a clock in the order in which the best master clock algorithm compares them. -/
def announceKey (a : PtpAnnounce) : List Nat :=
  [a.priority1, a.clockClass, a.clockAccuracy, a.variance, a.priority2, a.identity, a.stepsRemoved]

/-- A list of numbers that comes before another. -/
def keyLess : List Nat → List Nat → Bool
  | x :: l, y :: m => x < y || (x = y && keyLess l m)
  | _, _ => false

/-- The module's own clock identity: its PTP port's MAC address with FF-FE between its halves. -/
def clockIdentity (s : State) : Nat :=
  let m := s.otp.mac.getD (cfgN s Fld.ptp_port 0) 0
  m / 2 ^ 24 * 2 ^ 40 + 0xFFFE * 2 ^ 24 + m % 2 ^ 24

/-- What the module announces of itself (*Table: IEEE 1588-2019 support*). -/
def ownAnnounce (s : State) : PtpAnnounce :=
  { priority1 := cfgN s Fld.ptp_priority1 0, clockClass := 248, clockAccuracy := 0xFE, variance := 0xFFFF
    priority2 := cfgN s Fld.ptp_priority2 0, identity := clockIdentity s, stepsRemoved := 0 }

/-- PTP messages are the module's concern. -/
def ptpOn (s : State) : Bool := timeSource s = 1 && s.conf.inForce

/-- The foreign masters heard within the announce timeout. -/
def heardMasters (s : State) : List (Nat × PtpAnnounce × Nat) :=
  s.time.foreign.filter fun f => s.now ≤ f.2.2 + cfgN s Fld.ptp_announce_timeout 0 * announceInterval

/-- The best of the foreign masters. -/
def bestMaster (s : State) : Option (Nat × PtpAnnounce) :=
  (heardMasters s).foldl (fun b f => match b with
    | none => some (f.1, f.2.1)
    | some x => if keyLess (announceKey f.2.1) (announceKey x.2) then some (f.1, f.2.1) else b) none

/-- The module is the better clock, and may be master. -/
def isBest (s : State) : Bool :=
  cfgN s Fld.ptp_role 0 = 1 && match bestMaster s with
    | none => true
    | some b => keyLess (announceKey (ownAnnounce s)) (announceKey b.2)

/-- PTP_MASTER_CHANGED, with the grandmaster identity as stored and the steps removed. -/
def masterChanged (a : PtpAnnounce) (s : State) : State :=
  raise 0x0B11 (beBytes 8 a.identity ++ leBytes 2 a.stepsRemoved) s

/-- The module enters MASTER state: it measures no offset, and its time is HOLDOVER after a previous lock, FREE otherwise
(R433). -/
def becomeMaster (s : State) : State :=
  let s1 := { s with time := { s.time with ptpMaster := true, master := none } }
  let s2 := if !s.time.hasLocked then freeTime s1
    else if s.time.state = .holdover then s1
    else setTimeState .holdover (writeChange 0 (rateOf s.time.integ) s1)
  masterChanged (ownAnnounce s2) s2

/-- The best master clock algorithm decides anew (R433). -/
def decideMaster (s : State) : State :=
  let s1 := { s with time := { s.time with foreign := heardMasters s } }
  if isBest s1 then (if s1.time.ptpMaster then s1 else becomeMaster s1)
  else
    let b := bestMaster s1
    let s2 := if s1.time.ptpMaster then
        setTimeState .acquiring { s1 with time := { s1.time with ptpMaster := false } }
      else s1
    match b with
    | none => s2
    | some x =>
      let same := s2.time.master.any fun m => m.1 = x.1 && m.2.identity = x.2.identity
      let s3 := { s2 with time := { s2.time with master := some x } }
      if same then s3
      else masterChanged x.2 { s3 with time := { s3.time with syncHeld := none, syncDiff := none } }

/-- The UDP checksum of a message that the module writes into as it leaves: zero over IPv4, kept correct by two appended
bytes over IPv6 (R432). -/
def oneStepSum (s : State) : UdpSum :=
  if cfgN s Fld.ptp_transport 0 = 0 then .zero else if cfgN s Fld.ptp_transport 0 = 1 then .appended else .ordinary

/-- A PTP message of the module whose time-stamp field and correctionField give a time and a correction between them: the
field holds whole nanoseconds, the correction the fraction, taken off or put on as IEEE 1588 has it for the message
(R432). -/
def sendPtp (kind seq : Nat) (time correction : Int) (sum : UdpSum) (s : State) : State :=
  emit (.ptp (cfgN s Fld.ptp_port 0) kind seq (time - time % 65536)
    (if kind = 9 || kind = 3 then correction - time % 65536 else correction + time % 65536) sum) s

/-- Pdelay_Resp to a request: in one step the turnaround goes into its correctionField; in two, its Pdelay_Resp_Follow_Up
carries when it left. The turnaround is free (R432). -/
def answerPdelay (seq : Nat) (correction : Int) (s : State) : State :=
  let turn : Int := (Config.freeValue s.freeN).toNat
  drawFree (if cfgN s Fld.ptp_one_step 0 = 1 then sendPtp 3 seq 0 (correction + turn) (oneStepSum s) s
    else sendPtp 0xA seq (timeNow s + turn) correction .ordinary (sendPtp 3 seq (timeNow s) 0 .ordinary s))

/-- A Sync has been measured: its difference from master to module (R431). -/
def takeSync (diff : Int) (s : State) : State :=
  { s with time := { s.time with syncDiff := some diff, syncHeld := none, lastSync := some s.now } }

/-- A path delay in 2^-16 ns, less the asymmetry, kept in ns (R431). -/
def takeDelay (d : Int) (s : State) : State :=
  { s with time := { s.time with
    delayHeld := none, pathDelay := roundDiv (d - nsUnits (cfgI s Fld.ptp_asymmetry 0)) 65536 } }

/-- What a message of the configured domain does. -/
def takePtp (m : PtpMsg) (s : State) : State :=
  let now := timeNow s
  let fromMaster (src : Nat) : Bool := s.time.master.any fun x => x.1 = src
  match m with
  | .announce _ src a =>
    let l := s.time.foreign.filter fun f => f.1 ≠ src
    let s1 := { s with time := { s.time with
      foreign := l ++ [(src, a, s.now)], lastAnnounce := if fromMaster src then some s.now else s.time.lastAnnounce } }
    decideMaster s1
  | .sync _ src seq two origin corr =>
    if !fromMaster src then s
    else if two then { s with time := { s.time with syncHeld := some (seq, now, corr), lastSync := some s.now } }
    else takeSync (now - origin - corr) s
  | .followUp _ src seq origin corr =>
    match s.time.syncHeld with
    | some (q, ingress, c0) => if fromMaster src && q = seq then takeSync (ingress - origin - c0 - corr) s else s
    | none => s
  | .delayReq _ _ seq corr => if s.time.ptpMaster then sendPtp 9 seq now corr .ordinary s else s
  | .delayResp _ src seq receive corr =>
    match s.time.delayHeld, s.time.syncDiff with
    | some (q, t3, none), some d =>
      if fromMaster src && q = seq then takeDelay ((d + (receive - corr - t3)) / 2) s else s
    | _, _ => s
  | .pdelayReq _ _ seq corr => if cfgN s Fld.ptp_delay_mechanism 0 = 1 then answerPdelay seq corr s else s
  | .pdelayResp _ _ seq two receipt corr =>
    match s.time.delayHeld with
    | some (q, t1, none) =>
      if q ≠ seq then s
      else if two then { s with time := { s.time with delayHeld := some (q, t1, some (now, receipt - corr)) } }
      else takeDelay ((now - t1 - corr) / 2) s
    | _ => s
  | .pdelayRespFollowUp _ _ seq response corr =>
    match s.time.delayHeld with
    | some (q, t1, some (t4, t2)) => if q = seq then takeDelay ((t4 - t1 - (response - t2) - corr) / 2) s else s
    | _ => s
  | .unsupported => s

/-- The domain of a message. -/
def ptpDomain : PtpMsg → Option Nat
  | .announce d _ _ | .sync d _ _ _ _ _ | .followUp d _ _ _ _ | .delayReq d _ _ _ | .delayResp d _ _ _ _ | .pdelayReq d _ _ _
  | .pdelayResp d _ _ _ _ _ | .pdelayRespFollowUp d _ _ _ _ => some d
  | .unsupported => none

/-- PTP_MESSAGE_RECEIVED (R431 to R433): dated at its arrival; an unsupported one is discarded. -/
def execPtpMessageReceived (t port : Nat) (m : PtpMsg) (s : State) : Host.Outcome State Fault Refusal :=
  let s1 := beginAt t s
  match ptpDomain m with
  | none => .next (if (portOf s1 port).linkUp then modPort port (fun p => { p with discarded := wrapInc 16 p.discarded }) s1 else s1)
  | some d =>
    if ptpOn s1 && port = cfgN s1 Fld.ptp_port 0 && d = cfgN s1 Fld.ptp_domain 0 then .next (takePtp m s1) else .next s1

/-- PTP_MESSAGE_DUE (R432): a Sync, an Announce or a delay request falls due. -/
def execPtpMessageDue (t : Nat) (kind : PtpDue) (s : State) : Host.Outcome State Fault Refusal :=
  let s1 := beginAt t s
  if !ptpOn s1 then .next s1
  else
    let q := s1.time.ptpSeq
    let s2 := { s1 with time := { s1.time with ptpSeq := wrapInc 16 q } }
    match kind with
    | .sync =>
      if !s1.time.ptpMaster then .next s1
      else if cfgN s1 Fld.ptp_one_step 0 = 1 then .next (sendPtp 0 q (timeNow s1) 0 (oneStepSum s1) s2)
      else .next (sendPtp 8 q (timeNow s1) 0 .ordinary (sendPtp 0 q 0 0 .ordinary s2))
    | .announce =>
      .next (if s1.time.ptpMaster then
        emit (.ptpAnnounce (cfgN s1 Fld.ptp_port 0) q (ownAnnounce s1) 0xA0 s1.time.hasLocked) s2 else s1)
    | .delay =>
      if s1.time.ptpMaster || s1.time.master.isNone then .next s1
      else
        let s3 := { s2 with time := { s2.time with delayHeld := some (q, timeNow s1, none) } }
        .next (sendPtp (if cfgN s1 Fld.ptp_delay_mechanism 0 = 1 then 2 else 1) q 0 0 .ordinary s3)

/-- The source in force has been silent for as long as *Table: Time sources* gives. -/
def sourceSilent (s : State) : Bool :=
  let silent (l : Option Nat) (n : Nat) : Bool := match l with
    | some t => t + n < s.now
    | none => true
  if timeSource s = 3 then 3 ≤ s.pair.missRun
  else if timeSource s = 2 then silent s.ring.timeSeen (msT 1)
  else if timeSource s = 1 then
    let n := cfgN s Fld.ptp_announce_timeout 0 * announceInterval
    !s.time.ptpMaster && (silent s.time.lastSync n || silent s.time.lastAnnounce n)
  else false

/-- TIME_SOURCE_LOST (*Table: Time sources*, R433): HOLDOVER after at least one measurement; a module that may be master
and hears no better clock becomes master. -/
def execTimeSourceLost (t : Nat) (s : State) : Host.Outcome State Fault Refusal :=
  let s1 := beginAt t s
  if !sourceSilent s1 then .next s1
  else
    let s2 := holdOver s1
    if timeSource s2 = 1 then .next (decideMaster { s2 with time := { s2.time with master := none } }) else .next s2

/-! ### Timed outputs (R436 to R442) -/

/-- The reject reason TIME_PAST. -/
def reasonTimePast : Nat := 0x0B01

/-- A camera claims the output by its configuration (R373; object 0x0B02 action 3). -/
def claimedOut (s : State) (o : Nat) : Bool :=
  (List.range 4).any fun c => cfgN s Fld.camera_enable c = 1 &&
    ((cfgN s Fld.camera_trigger_mode c = 1 && cfgN s Fld.camera_trigger_output c = o) || cfgN s Fld.camera_strobe_output c = o)

/-- When edge k of a programme is due (R437). -/
def edgeDue (p : Programme) (k : Nat) : Int := p.start + k * p.period

/-- The first edge due at or after an instant. -/
def firstEdge (p : Programme) (from_ : Int) : Nat :=
  if from_ ≤ p.start || p.period = 0 then 0 else ((from_ - p.start + p.period - 1) / p.period).toNat

/-- TIMED_OUTPUT_SET (R436, R437, R439). -/
def msgTimedOutput (_i : Nat) (b : List Byte) (s : State) : Verdict :=
  let o := fld b 0 1
  let action := fld b 4 1
  let width := fld b 20 4
  let period := fld b 24 8
  let count := fld b 32 4
  let start := readStamp s ((b.drop 8).take 12)
  let stampBad := !s.mod.compat && 1000000000 ≤ fld b 14 4
  let range := 7 < o || 2 < action ||
    stampBad || width < 8 || 1000000000 < width ||
    (action = 2 && ((period : Int) < nsUnits (width + 8) || 1000 * secondUnits < period)) ||
    (action ≠ 2 && (period ≠ 0 || count ≠ 0))
  let soon := timeNow s + nsUnits 2000
  if range then .error (0x0304, 0)
  else if claimedOut s o then .error (0x0302, 0)
  else if action = 1 && start < soon then .error (reasonTimePast, 0)
  else if action = 0 then .ok (modOut o (fun x => { x with prog := none }) s)
  else
    let p : Programme := { periodic := action = 2, start := start, width := width, period := period
                           left := if action = 1 then some 1 else if count = 0 then none else some count, next := 0 }
    let p1 := { p with next := firstEdge p soon }
    .ok (modOut o (fun x => { x with prog := some p1 }) s)

/-- The latest edge due now, at or after a programme's next one. -/
def latestEdge (p : Programme) (now : Int) : Nat :=
  if p.period = 0 then p.next else max p.next ((now - p.start) / p.period).toNat

/-- The programme after edge m, `used` edges of its count used up (R439, R440). -/
def afterEdge (p : Programme) (m used : Nat) : Option Programme :=
  match p.left with
  | some n => if n ≤ used || !p.periodic then none else some { p with next := m + 1, left := some (n - used) }
  | none => some { p with next := m + 1 }

/-- TIMED_OUTPUT_EDGE (R437, R440): an edge falls due; of several that a step went past, the latest is issued at once, and
counted late. -/
def execTimedOutputEdge (t out : Nat) (s : State) : Host.Outcome State Fault Refusal :=
  let s1 := settleChange (beginAt t s)
  match (s1.time.outs.getD out {}).prog with
  | none => .next s1
  | some p =>
    if timeNow s1 < edgeDue p p.next then .next s1
    else
      let last := match p.left with
        | some n => p.next + n - 1
        | none => latestEdge p (timeNow s1)
      let m := min last (latestEdge p (timeNow s1))
      let s2 := pulseOut out p.width (modOut out (fun x => { x with prog := afterEdge p m (m + 1 - p.next) }) s1)
      .next (if isLate s1 (edgeDue p m) || p.next < m then countLate out (m - p.next) s2 else s2)

/-- TIMED_OUTPUT_PULSE_END (R437): a pulse has had its width. -/
def execTimedOutputPulseEnd (t out : Nat) (s : State) : Host.Outcome State Fault Refusal :=
  let s1 := beginAt t s
  .next (match (s1.time.outs.getD out {}).fallAt with
    | some d => if d ≤ s1.now then modOut out (fun x => { x with level := false, fallAt := none }) s1 else s1
    | none => s1)

/-- PPS pulses now (R441, R442). -/
def ppsOn (s : State) : Bool :=
  let m := cfgN s Fld.timebase_pps_mode 0
  motionOn s.mod.state && ((m = 1 && (s.time.state = .locked || s.time.state = .holdover)) || m = 2)

/-- PPS_EDGE (R441): a whole second of module time; steps act as R440 gives, each second one edge. -/
def execPpsEdge (t : Nat) (s : State) : Host.Outcome State Fault Refusal :=
  let s1 := settleChange (beginAt t s)
  let sec := timeNow s1 / secondUnits
  let late := isLate s1 (sec * secondUnits)
  let prev := (s1.time.outs.getD 8 {}).lastSecond
  if !ppsOn s1 then .next (modOut 8 (fun x => { x with lastSecond := none }) s1)
  else
    let due := match prev with
      | some k => k < sec
      | none => !late
    if !due then .next s1
    else
      let s2 := pulseOut 8 (1000 * cfgN s1 Fld.timebase_pps_width 0) (modOut 8 (fun x => { x with lastSecond := some sec }) s1)
      let dropped := match prev with
        | some k => (sec - k - 1).toNat
        | none => 0
      .next (if late || 0 < dropped then countLate 8 dropped s2 else s2)

end Sys2Proof.Machine
end

