-- ==== Sys2Proof/Machine/Status.lean ====
section
/-! DEFINITION. STATUS_READ and the status objects (25_status_objects.md, R656 to R663; the object tables of the chapters
02 to 24): every entry as its fields from bit 0 on. -/
namespace Sys2Proof.Machine
open Sys2Proof

/-! ### Entries -/

/-- The fields of an entry from bit 0 on: width and value. -/
abbrev Bits := List (Nat × Nat)

/-- The fields as one number. -/
def packBits : Bits → Nat
  | [] => 0
  | (w, v) :: r => v % 2 ^ w + 2 ^ w * packBits r

/-- The bytes of an entry (R9). -/
def bitsBytes (l : Bits) : List Byte := leBytes ((l.map fun p => p.1).sum / 8) (packBits l)

/-- A bit. -/
def flag (b : Bool) : Nat × Nat := (1, b2n b)

/-- A signed field of `w` bits. -/
def sgBits (w : Nat) (v : Int) : Nat × Nat := (w, ofSigned w v)

/-- A signed field that stays at its ends (R661). -/
def satBits (w : Nat) (v : Int) : Nat × Nat := sgBits w (clampInt (-(2 ^ (w - 1) : Nat)) ((2 ^ (w - 1) : Nat) - 1) v)

/-- A time of 96 bits (R423, R663). -/
def timeBits (s : State) (t : Int) : Nat × Nat := (96, leNat (stampOf s t))

/-- The first bytes of a digest, zeros where there is none. -/
def digestBits (n : Nat) (d : List Byte) : Nat × Nat := (8 * n, leNat (padTo n d))

/-- A configuration has been in force since power good: before it, what copies a field reads 0 (R660). -/
def confSeen (s : State) : Bool := !s.conf.digest.isEmpty

/-- A configuration field as a status object shows it. -/
def cfgS (s : State) (id i : Nat) : Nat := if confSeen s then cfgN s id i else 0

/-- An entry of a group, or its Reset values where the configuration in force has no such entry (R661). -/
def ifPresent {α : Type} (present : Bool) (dflt x : α) : α := if present then x else dflt

/-! ### Range 0x0000 -/

def moduleState (s : State) : Bits :=
  [(4, stateCode s.mod.state), (4, s.mod.previous), (8, s.mod.cause), flag s.mod.compat, flag s.mod.defaultAddress, (14, 0),
   (16, s.mod.transitions), (16, 0), timeBits s s.mod.since]

/-- The ASCII letter of the hardware stepping, C. -/
def stepping : Nat := 0x43

def identity (s : State) : Bits :=
  [(64, s.otp.dieId), (32, s.otp.serial), (8, stepping), (8, s.otp.keysRevoked % 8), (48, s.otp.mac.getD 0 0),
   (48, s.otp.mac.getD 1 0), (48, 0)]

def logStatus (s : State) : Bits :=
  [(32, s.log.nextSeq), (32, (s.log.events.head?.map fun e => e.seq).getD s.log.nextSeq), (32, s.log.suppressed),
   (32, s.log.unsent)]

def logEntry (s : State) (i : Nat) : Bits :=
  match s.log.events.find? fun e => e.seq % 256 = i with
  | some e => [(32, e.seq), (16, e.code), (16, 0), timeBits s e.time, (128, leNat (padTo 16 e.detail)), (32, 0)]
  | none => [(320, 0)]

def loopEntry (s : State) (i : Nat) : Bits :=
  match s.loops[i]? with
  | some l => [(32, l.ticket), (8, l.interface), (8, l.index), (8, l.depth), flag l.locked, (7, 0), (64, l.units),
      (32, min l.errors 0xFFFFFFFF), (32, (s.now - l.startedAt) / msT 1)]
  | none => [(192, 0)]

/-! ### Range 0x0100 -/

def powerStatus (s : State) : Bits :=
  [(4, s.power.lastOffCause), flag s.power.strapValid, (2, s.power.position), (1, s.power.side),
   (10, bitsOf s.power.domainsOn), (10, bitsOf s.power.domainsHeld), (4, s.power.faultDomain), (16, s.power.inputMv),
   (16, (Config.freePower s.freeN).toNat), (16, s.power.starts), (16, s.power.startMs), (16, s.power.watchdogResets), (16, 0)]

/-- The module reading nearest its throttle threshold, with its margin; of equal ones the first. -/
def hottest (s : State) : Nat × Int :=
  match furthest ((readings s).map fun p => ((p.1, throttleLimit s p.1 - p.2), p.2 - throttleLimit s p.1)) with
  | some x => x
  | none => (0, 0)

def thermalStatus (s : State) : Bits :=
  let h := hottest s
  let spent := s.thermal.throttleTime + (s.thermal.throttleSince.map fun d => s.now - d).getD 0
  let r := s.thermal.record
  [flag s.thermal.blitz, flag s.thermal.throttle, flag s.thermal.warning, flag r.isSome, (4, 0), (8, h.1), sgBits 16 h.2,
   (16, s.thermal.blitzEntries), (16, s.thermal.throttleEntries), (32, spent / msT 1),
   (8, (r.map fun x => x.reading).getD 0xFF), (8, (r.map fun x => x.cause).getD 0),
   sgBits 16 ((r.map fun x => x.value).getD 0)]

def thermalSensor (s : State) (i : Nat) : Bits :=
  let x := s.thermal.sensors.getD i {}
  [sgBits 16 x.temperature, (3, x.state), flag x.warning, flag x.throttle, (11, 0), sgBits 16 x.peak, (16, x.brokenCount)]

def speedMonitor (s : State) (i : Nat) : Bits :=
  let x := s.monitors.getD i {}
  let group := [flag (i < 14), flag (14 ≤ i && i < 20), (4, 0)]
  match x.doneAt with
  | some d => [(16, x.index), (8, min 255 ((s.now - d) / windowT)), flag x.valid, flag (x.index < 3686)] ++ group
  | none => [(16, 0), (8, 0), (1, 0), (1, 0)] ++ group

def governorStatus (s : State) : Bits :=
  [(4, s.gov.step), (1, cfgS s Fld.render_governor_enable 0), flag s.thermal.throttle, flag s.gov.atLimit, flag (tokenMode s),
   (4, s.gov.renderDuty), (4, 0), (16, s.gov.stepsTaken)]

def renderCapacity (s : State) : Bits :=
  [(16, (currentCapacity s / 10000000).floor.toNat), (16, (predictedCapacity s / 10000000).floor.toNat), (16, fireIndex s),
   (16, fireIndex s * 5 / 4)]

/-! ### Range 0x0200 -/

def dptPort (s : State) (i : Nat) : Bits :=
  let x := portOf s i
  [(4, x.modeActive), flag x.linkUp, (11, 0), (16, x.linkDowns), (32, x.framesRx), (16, x.discarded), (16, x.fcsErrors),
   (16, x.echoAnswered), (16, 0)]

def dptSession (s : State) (i : Nat) : Bits :=
  let x := sessionOf s i
  [(16, x.id), flag x.control, flag x.auth, flag x.group, (13, 0), (16, x.credit), (16, x.retransmits), (16, x.overCredit),
   (16, x.authFailures), (32, x.messagesApplied)]

/-! ### Range 0x0300 -/

def runStatus (s : State) : Bits :=
  match s.jobs.armed with
  | some a => [(32, s.jobs.runId), (2, a.run.form), (2, a.run.policy), flag (atRisk s), flag (stopHold s), flag a.barHalted,
      (25, 0), (32, a.nextSlot), (32, a.fired), (16, a.spoiled), (16, a.quarantined)]
  | none => [(32, s.jobs.runId), (2, s.jobs.lastForm), (2, s.jobs.lastPolicy), (1, 0), (1, 0), flag s.jobs.lastBarHalted,
      (25, 0), (32, s.jobs.lastNextSlot), (32, s.jobs.lastFired), (16, s.jobs.lastSpoiled), (16, s.jobs.lastQuarantined)]

def compositionStatus (s : State) : Bits :=
  let r := s.render.now.filter fun r => r.strip.isNone
  [(32, (r.map fun r => r.page).getD 0xFFFFFFFF), (32, (r.map fun r => r.line).getD 0), (32, s.render.pagesRendered),
   (16, s.render.regionsPassed), (16, s.render.regionsFailed), (16, s.render.decodeRetries), (16, s.render.surfacesCorrupt),
   (16, s.render.referencesReduced), (16, 0)]

def screeningStatus (s : State) : Bits :=
  [(32, s.render.epDrops), (32, s.render.epLost), (16, s.render.epUnresolved), (16, s.render.stitchForced),
   (16, s.render.deadFiles), (16, 0)]

/-- The dead map latched for the page in RENDERING, or the accepted one when none is. -/
def latchedDead (s : State) : List (List Nat) := (s.render.now.map fun r => r.dead).getD s.cal.values.dead

def nozzleMap (s : State) (k : Nat) : Bits :=
  if !confSeen s then [(64, 0)]
  else
    let c := s.conf.cfg
    [(16, linkSlots c k), (16, rangesCount (coveredRanges (headsOf c k))), (6, (headsOf c k).length),
     (6, (stitchZones (headsOf c k)).length), (4, 0), (16, (deadSlots c (latchedDead s) k).length)]

/-! ### Range 0x0400 -/

def linkStatus (s : State) (k : Nat) : Bits :=
  let on := linkEnabled s k || (linkOf s k).state ≠ .disabled
  let x := ifPresent on ({ linkDowns := (linkOf s k).linkDowns, statusBad := (linkOf s k).statusBad } : Link) (linkOf s k)
  [(2, linkCode x.state), flag x.dualHomed, flag (on && ownerIsSelf s k), flag x.upInverted, (3, 0), (4, x.downCause), (4, 0),
   (6, x.laneMap), (3, x.laneInverted), (7, 0), (32, x.carrierId), (32, x.ownerSeen), (16, x.linkDowns), (16, x.crcErrors),
   (16, x.shortDiscards), (16, x.syncWithoutLine), (16, x.duplicatesDropped), (16, x.nonOwnerDropped), (16, x.statusBad),
   (8, x.headCount), (8, 0), (32, x.lastFired)]

/-- A head's reading: ABSENT beyond head_count, and while the link is not UP. -/
def headTemperature (s : State) (i : Nat) : Bits :=
  let l := linkOf s (i / 32)
  let x := l.heads.getD (i % 32) {}
  let age := match x.sampledAt with
    | some d => min 255 ((s.now - d) / usT 100)
    | none => 255
  [sgBits 16 x.temperature, (4, x.sampleCount), (4, if i % 32 < l.headCount && l.state = .up then x.state else 4), (8, age)]

/-! ### Range 0x0500 -/

def fireBar (s : State) (b : Nat) : Bits :=
  let x := barOf s b
  let ceiling := if confSeen s then (barCeiling s.conf.cfg b (runDepth s) / 10).floor.toNat else 0
  [(2, activityOf s b), flag x.paused, flag x.overspeed, (3, x.haltCause), (1, 0), (8, x.maxDelay), (16, ceiling),
   (32, x.sequence), (32, x.offset / 256), (8, x.offset % 256), (24, x.castleSeq), (32, x.linesFired), (16, x.drops),
   (16, x.deferred), (16, x.maxDeferral), (16, x.inhibitedLines), (16, x.damagedLines), (16, 0)]

def fireLane (s : State) (g : Nat) : Bits := [(16, (laneOf s g).underruns), (16, (laneOf s g).packetsEnded)]

def pressSignals (s : State) : Bits :=
  [flag (readyOut s), flag (faultOut s), flag (overspeedOut s), flag (stopOut s), flag s.mod.haltIn, flag s.mod.printGo,
   flag (stopHold s), flag (stopPause s), (24, 0)]

/-! ### Range 0x0600 -/

def positionInput (s : State) (i : Nat) : Bits :=
  let x := inputOf s i
  let rev := cfgN s Fld.position_counts_per_rev i
  [(2, cfgS s Fld.position_mode i), flag x.fault, flag x.reversed, flag x.coast.isSome, flag x.indexSeen, (2, 0),
   (8, x.uncertainty), sgBits 48 x.count, sgBits 48 x.hwm, satBits 32 (reportedSpeed s i * 16).floor, (16, x.illegal),
   sgBits 32 x.indexSlip, (16, x.indexMismatches), (16, x.wireDisagreements), (16, x.ssiFrameErrors),
   sgBits 16 (if rev = 0 then 0 else x.count / rev)]

def lineTriggerStatus (s : State) (i : Nat) : Bits :=
  let x := inputOf s i
  [(64, x.spacing), sgBits 48 x.nextLine, (16, x.coastTriggers), (32, x.triggers),
   (32, min 0xFFFFFFFF (lineRate s i * 16).floor.toNat)]

def dinStatus (s : State) (i : Nat) : Bits :=
  let x := s.pos.dins.getD i {}
  [flag x.level, flag x.lastRising, (14, 0), (16, x.edges), timeBits s x.lastTime, sgBits 64 x.lastPosition]

/-! ### Ranges 0x0700 and 0x0800 -/

def memoryStatus (s : State) : Bits :=
  [(8, if confSeen s then pageStore s / gib 1 else 0), (8, cfgS s Fld.memory_surface_gib 0), (8, cfgS s Fld.memory_inspect_gib 0),
   flag (memTrained s), flag s.mem.reused, flag (s.mem.sub.any fun x => x.doubled), (5, 0), (16, s.mem.scrubPasses), (16, 0)]

def memSubchannel (s : State) (i : Nat) : Bits :=
  let x := s.mem.sub.getD i {}
  [sgBits 8 (x.dt.getD 0x7F), flag x.doubled, (7, 0), (16, x.corrected), (16, x.uncorrectable), (16, 0)]

def qosPort (s : State) (i : Nat) : Bits :=
  let x := s.mem.qos.getD i {}
  [(32, x.mib), (16, x.flagFalls), (16, x.maxAge), (16, if confSeen s then timeControl s i / 100 else 0), (48, 0)]

def codecStatus (s : State) : Bits :=
  let r := s.render
  [(6, compressorsIn s), flag r.selftestPassed, (9, 0), (16, r.encodeMismatches), (32, r.blocksWritten), (32, r.blocksRaw),
   (16, r.surfaceBlockFailures), (16, r.contextResumeFailures), (16, r.contexts.length), (16, r.contextsPeak), (32, 0)]

def decompressor (s : State) (g : Nat) : Bits :=
  let x := s.render.decompressors.getD g (0, 0)
  [(16, x.1), (16, x.2)]

/-! ### Ranges 0x0900 and 0x0A00 -/

/-- *Table: Camera port states*. -/
def camCode : CamState → Nat
  | .disabled => 0 | .discovery => 1 | .ready => 2 | .fault => 3

def cameraPort (s : State) (c : Nat) : Bits :=
  let on := cfgS s Fld.camera_enable c = 1
  let x := ifPresent on {} (camOf s c)
  [(3, camCode x.state), (3, x.rate), (2, x.connections - 1), (1, if on then cfgS s Fld.camera_reconstruct c else 0), (7, 0),
   (16, x.generation), (32, x.frames), (16, x.framesMarked), (16, x.unsure), (16, x.triggersSkipped), (16, x.writeFailures),
   (16, x.tapsSkipped), (16, x.bufferPeak), (96, 0)]

def cameraConnection (s : State) (i : Nat) : Bits :=
  let x := ifPresent (cfgS s Fld.camera_enable (i / 4) = 1) {} ((camOf s (i / 4)).conns.getD (i % 4) {})
  [flag x.locked, (15, 0), (16, x.streamCrc), (16, x.controlCrc), (16, x.lockLosses)]

def calibrationStatus (s : State) : Bits :=
  [flag s.cal.frozen, (1, cfgS s Fld.calibration_accept_mode 0), flag (!s.cal.slews.isEmpty), flag s.cal.rerendering,
   (6, s.cal.due), (6, 0), (16, s.cal.stripsSkipped), (32, s.cal.storeSeq)]

def calKindStatus (s : State) (n : Nat) : Bits :=
  let x := s.cal.kinds.getD n {}
  [(32, x.occurrences), (32, x.proposals), (16, x.stale), (16, x.disagreements), (32, x.accepted), (32, x.lastSlot),
   timeBits s x.lastTime]

/-! ### Ranges 0x0B00 and 0x0C00 -/

/-- raw and time are those of the capture count, a whole tick (R658). -/
def timebaseStatus (s : State) : Bits :=
  let x := s.time
  [(2, if follows s then 3 else cfgS s Fld.timebase_source 0), (2, timeCode x.state), flag x.ptpMaster, (11, 0), (16, x.steps),
   satBits 32 x.offset, sgBits 32 x.rate, (16, x.changesReplaced), (16, 0), (64, rawTicks s),
   timeBits s (timeAt s (s.rawOrigin + 256 * rawTicks s)), satBits 32 x.pathDelay]

def timedOutput (s : State) (o : Nat) : Bits :=
  let x := s.time.outs.getD o {}
  let action := match x.prog with
    | some p => if p.periodic then 2 else 1
    | none => if o < 8 && confSeen s && claimedOut s o then 3 else 0
  let next : Int := match x.prog with
    | some p => edgeDue p p.next
    | none => if o = 8 && ppsOn s then (timeNow s / secondUnits + 1) * secondUnits else 0
  [(2, action), flag x.level, (13, 0), (32, x.edges), (16, x.late), timeBits s next,
   (32, (x.prog.bind fun p => p.left).getD 0)]

def axisStatus (s : State) (a : Nat) : Bits :=
  let x := ifPresent (cfgS s Fld.motion_enable a = 1) ({ p := (axisOf s a).p, estops := (axisOf s a).estops, stalls := (axisOf s a).stalls, saturations := (axisOf s a).saturations } : Axis) (axisOf s a)
  [(3, axisCode x.state), flag x.homed, flag (x.shadow ≠ x.latched), flag x.latched.jerkLimited, (2, 0), (4, x.faultCause),
   (4, x.stopCause), sgBits 48 x.p.floor, sgBits 32 x.v.floor, satBits 16 x.deviation.floor, satBits 16 x.lag.floor,
   (16, x.stalls), (16, x.saturations), (16, x.vbus), (16, x.estops), (64, 0)]

/-! ### Ranges 0x0D00 to 0x0F00 -/

def ringStatus (s : State) : Bits :=
  let x := s.ring
  [(3, ringCode x.state), (1, cfgS s Fld.ring_group 0), flag x.bypassClosed, flag x.kingHeard, (2, 0), (8, x.hops),
   (4, s.update.ringMajor), (4, s.update.ringMinor), (4, x.commonMinor), (4, 0), (8, x.roll), (8, 0), (16, x.outages),
   (16, x.longestOutage), (16, x.crcDiscards), (16, x.resends), (16, 0)]

def ringNode (s : State) (n : Nat) : Bits :=
  let x := nodeOf s n
  [(3, x.state), flag x.present, flag x.pairActive, flag x.gapOk, (2, 0), (4, x.major), (4, x.minor), (32, x.runId),
   (16, x.hopDelay)]

def pairStatus (s : State) : Bits :=
  let x := s.pair
  [(3, if confSeen s && cfgN s Fld.redundancy_pair_enable 0 = 0 then 0 else pairCode x.state), flag x.linkUp,
   flag (takeoverReady s), flag x.absent, (1, s.power.side), (1, 0), (24, x.epoch), (32, lastToken s), (32, lastOrder s),
   (16, x.castlings), (16, x.demotions), (16, x.severances), (8, x.severCause), (8, 0), (16, x.missed), (16, x.progress),
   (16, x.signatures), (16, x.crcDiscards), (32, 0)]

def updateStatus (s : State) : Bits :=
  let u := s.update
  [(1, u.runningSlot), flag u.trial, (2, (bootRec s).trial), flag u.confirmReceived, flag u.relaying, (2, 0), (8, u.major),
   (8, u.minor), (16, u.patch), (8, u.ringMajor), (8, u.ringMinor), (8, 0), digestBits 8 u.digest]

def slotStatus (s : State) (n : Nat) : Bits :=
  let x := slotRec s n
  [(3, slotState s n), (5, 0), (10, blockCount x.header - (missingBlocks x.header x.blocks).length), (10, blockCount x.header), (4, 0),
   (32, if blockGood x.blocks 0 then rollbackIndex (slotBytes s n) else 0), digestBits 8 (slotDigest s n)]

def configStatus (s : State) : Bits :=
  let c := s.conf
  [(3, c.area), flag s.mod.compat, flag c.migrated, flag c.pending, flag (1024 < c.entries), (1, 0), (8, c.format),
   (16, min c.entries 65535), (32, c.sequence), (32, cfgS s Fld.identity_config_id 0), digestBits 36 c.digest]

def clampEntry (s : State) (i : Nat) : Bits :=
  match s.conf.report[i]? with
  | some e => [(16, e.field), (16, e.element), (8, e.action), (8, 0), (16, e.causedBy), (64, e.given), (64, e.used)]
  | none => [(192, 0)]

/-! ### The dictionary (*Table: Status object index*) -/

/-- The objects: ID, entries, and entry n as it stands. -/
def objects (s : State) : List (Nat × Nat × (Nat → Bits)) :=
  [(0x0000, 1, fun _ => moduleState s), (0x0001, 1, fun _ => identity s), (0x0002, 1, fun _ => logStatus s),
   (0x0003, 256, logEntry s), (0x0020, 16, loopEntry s),
   (0x0101, 1, fun _ => powerStatus s), (0x0102, 1, fun _ => thermalStatus s), (0x0103, 28, thermalSensor s),
   (0x0110, 24, speedMonitor s), (0x0111, 1, fun _ => governorStatus s), (0x0112, 1, fun _ => renderCapacity s),
   (0x0201, 2, dptPort s), (0x0202, 4, dptSession s),
   (0x0301, 1, fun _ => runStatus s), (0x0302, 1, fun _ => compositionStatus s), (0x0303, 1, fun _ => screeningStatus s),
   (0x0412, 16, linkStatus s), (0x0413, 512, headTemperature s), (0x0420, 16, nozzleMap s),
   (0x0501, 8, fireBar s), (0x0502, 48, fireLane s), (0x0503, 1, fun _ => pressSignals s),
   (0x0601, 16, positionInput s), (0x0602, 16, lineTriggerStatus s), (0x0603, 24, dinStatus s),
   (0x0701, 1, fun _ => memoryStatus s), (0x0702, 8, memSubchannel s), (0x0703, 8, qosPort s),
   (0x0801, 1, fun _ => codecStatus s), (0x0802, 48, decompressor s),
   (0x0901, 4, cameraPort s), (0x0902, 16, cameraConnection s),
   (0x0A01, 1, fun _ => calibrationStatus s), (0x0A02, 6, calKindStatus s),
   (0x0B01, 1, fun _ => timebaseStatus s), (0x0B02, 9, timedOutput s), (0x0C01, 12, axisStatus s),
   (0x0D01, 1, fun _ => ringStatus s), (0x0D02, 8, ringNode s), (0x0E01, 1, fun _ => pairStatus s),
   (0x0F01, 1, fun _ => updateStatus s), (0x0F02, 2, slotStatus s), (0x0F10, 1, fun _ => configStatus s),
   (0x0F11, 1024, clampEntry s)]

/-- The objects that the boot ROM serves (R592). -/
def romObjects : List Nat := [0x0000, 0x0001, 0x0002, 0x0003, 0x0101, 0x0102, 0x0F01, 0x0F02]

/-- The value of an object; empty for an ID that names none (R657, R592). -/
def objectValue (s : State) (id : Nat) : List Byte :=
  if s.mod.romServed && !romObjects.contains id then []
  else match (objects s).find? fun o => o.1 = id with
    | some o => (List.range o.2.1).flatMap fun n => bitsBytes (o.2.2 n)
    | none => []

/-! ### STATUS_READ (R656) -/

/-- How far a loop-back has come, as object 0x0020 shows it: a FAR one by its repetitions and STATUS frames, POSITION PAD
by its test counter; of another one the model does not follow it in between, and shows free values from draw `n` on (log
entry 28). -/
def loopSoFar (s : State) (n : Nat) (l : Loop) : Loop :=
  let f (k : Nat) : Nat := (Config.freeValue (n + k)).toNat
  if isFar l then { l with units := (farCounts s l).units }
  else if l.interface = 6 && l.depth = 1 then l
  else { l with locked := isSerial l && f 0 % 2 = 1, units := f 1, errors := f 2 }

/-- What the module counts at an interface without a command of its own is read as it stands: the traffic of each QoS port,
and how far each loop-back has come (objects 0x0703 and 0x0020), which the spec leaves open. -/
def sampleCounts (s : State) : State :=
  let n := s.freeN
  drawFrees (1 + 3 * s.loops.length) { s with
    mem := { s.mem with qos := s.mem.qos.zipIdx.map fun p => { p.1 with mib := (Config.freeTraffic n p.2).toNat } }
    loops := s.loops.zipIdx.map fun p => loopSoFar s (n + 1 + 3 * p.2) p.1 }

/-- The IDs that a STATUS_READ asks for. -/
def readIds (p : List Byte) : List Nat := (List.range (fld p 0 2)).map fun k => fld p (4 + 2 * k) 2

/-- The payload of STATUS. -/
def statusPayload (s : State) (ids : List Nat) : List Byte :=
  leBytes 2 ids.length ++ leBytes 2 0 ++ ids.flatMap fun id =>
    let v := objectValue s id
    leBytes 2 id ++ leBytes 2 v.length ++ v

/-- STATUS_READ (R656 to R658). -/
def msgStatus (i : Nat) (p : List Byte) (s : State) : Verdict :=
  let n := fld p 0 2
  if n = 0 || 64 < n || p.length < 4 + 2 * n then .error (reasonMalformed, 0)
  else
    let s1 := sampleCounts s
    .ok (drawFree (sendDpt i 0x44 (statusPayload s1 (readIds p)) s1))

end Sys2Proof.Machine
end

