-- ==== Sys2Proof/Machine/Messages.lean ====
section
/-! DEFINITION. What each type of host message does (03_host_transport.md, *Table: Message catalogue*), and the group messages
of a following module, which it applies in the order that the active's ORDER entries give (17_castling.md, R506;
03_host_transport.md, R98). -/
namespace Sys2Proof.Machine
open Sys2Proof

/-- The meaning of a message by its type. -/
def messageMeaning (type : Nat) : Nat → List Byte → State → Verdict :=
  match type with
  | 0x03 => msgSessionClose
  | 0x08 => msgHaltReq
  | 0x09 => msgRestart
  | 0x0A => msgMaintenance
  | 0x0B => msgLoopback .nothing
  | 0x20 => msgSurfaceDefine
  | 0x21 => msgSurfaceData
  | 0x22 => msgSurfaceSeal
  | 0x23 => msgSurfaceFree
  | 0x24 => msgLutDefine
  | 0x25 => msgPageDefine
  | 0x26 => msgPageFree
  | 0x27 => msgRunDefine
  | 0x28 => msgRunArm
  | 0x29 => msgRunStop
  | 0x2A => msgRunCancel
  | 0x2B => msgRunEnd
  | 0x2C => msgCalRequest
  | 0x2D => msgMove
  | 0x2E => msgTimedOutput
  | 0x40 => msgResultRead
  | 0x42 => msgResultRelease
  | 0x43 => msgStatus
  | 0x60 => msgImageBegin
  | 0x61 => msgImageBlock
  | 0x62 => msgImageVerify
  | 0x63 => msgImageActivate
  | 0x64 => msgImageConfirm
  | 0x65 => msgImageAbort
  | _ => msgUnknown

/-- A message held: session, message_id, type, bytes. -/
abbrev HeldMessage := Nat × Nat × Nat × List Byte

/-- A held message is the one that an ORDER entry names; SESSION_OPEN names the session it opens. -/
def orderNames (e : OrderEntry) (m : HeldMessage) : Bool :=
  m.2.2.1 = e.type && (e.type = 0x01 || (m.1 = e.session && m.2.1 = e.msg))

/-- The payload of a held message. -/
def heldPayload (m : HeldMessage) : List Byte := if m.2.2.1 = 0x01 then openPayload (m.2.2.2.drop 17) else m.2.2.2

/-- A held SESSION_OPEN is applied, under the session id told or a random one. -/
def applyHeldOpen (id : Option Nat) (m : HeldMessage) (s : State) : State :=
  let b := m.2.2.2
  match id with
  | some _ => if openRefused s (b.drop 17) || (openedBy s (heldPayload m)).isSome then s
      else openSession id (fld b 0 1) (fld b 1 16) true (openMac s (b.drop 17)) (heldPayload m) s
  | none => applyOpen (fld b 0 1) (fld b 1 16) true (b.drop 17) s

/-- A held message is applied on its open session. -/
def applyHeldMessage (m : HeldMessage) (s : State) : State :=
  match sessionIdx s m.1 with
  | none => s
  | some i => applyMessage i true m.2.1 m.2.2.1 m.2.2.2 (messageMeaning m.2.2.1) s

/-- The group message that an ORDER entry names, where R60 refuses it here (R60, R506). -/
def refusedHere (e : OrderEntry) (s : State) : Option (Nat × RxMsg) :=
  (sessionIdx s e.session).bind fun i =>
    ((sessionOf s i).rx.find? fun m => m.msg = e.msg && m.bad ≠ 0 && m.group).map fun m => (i, m)

/-- The partner asks the active for what it lacks (R506). -/
def askAgain (kind first count : Nat) (s : State) : State := sendPartner 4 (resendBytes kind first count) s

/-- The ORDER entries that have their message are applied, in their order; a message whose CRC-32C differs is asked for
once more, and then diverges; one that R60 refuses here is rejected; a SESSION_OPEN under session_id 0 was rejected (R506,
R509). `n` bounds them. -/
def runOrders : Nat → State → State
  | 0, s => s
  | n + 1, s =>
    match s.pair.orders with
    | [] => s
    | e :: rest =>
      let done (s : State) : State := { s with pair := { s.pair with
        orders := rest, orderSeq := wrapInc 32 s.pair.orderSeq, orderAny := true } }
      match s.pair.held.find? (fun m => orderNames e m && crc32c (heldPayload m) = e.crc) with
      | some m =>
        let s1 := done { s with pair := { s.pair with held := s.pair.held.erase m } }
        runOrders n (if e.type ≠ 0x01 then applyHeldMessage m s1
          else if e.session = 0 then s1 else applyHeldOpen (some e.session) m s1)
      | none => match refusedHere e s with
      | some (i, m) => runOrders n (rejectOne i m (done s))
      | none =>
        if s.pair.held.any (orderNames e) && e.type ≠ 0x01 then
          (if s.pair.resent.contains (e.session, e.msg) then diverge 3 s
           else askAgain 0 e.msg 1 { s with pair := { s.pair with
             resent := (e.session, e.msg) :: s.pair.resent, held := s.pair.held.filter fun m => !orderNames e m } })
        else s

/-- The complete messages that wait in sessions. -/
def waitingCount (s : State) : Nat := (s.net.sessions.map fun e => e.waiting.length).sum

/-- The waiting message that is applied next, with its session entry: of the session of the lowest id, one whose turn has come
(R76, R78). -/
def nextWaiting (s : State) : Option (Nat × Waiting) :=
  (inOrder (fun i j => (sessionOf s i).id ≤ (sessionOf s j).id) (openSessions s)).findSome? fun i =>
    ((sessionOf s i).waiting.find? fun m => isItsTurn (sessionOf s i) m.type m.msg && goesFirst s (sessionOf s i).id &&
      !(m.group && follows s)).map fun m => (i, m)

/-- The waiting messages whose turn has come are applied one after the other; `n` bounds them (R76). -/
def applyWaiting : Nat → State → State
  | 0, s => s
  | n + 1, s =>
    if isSilent s then s
    else match nextWaiting s with
      | none => s
      | some (i, m) =>
        applyWaiting n (applyMessage i m.group m.msg m.type m.payload (messageMeaning m.type)
          (modSession i (fun e => { e with waiting := e.waiting.filter fun x => x.msg ≠ m.msg }) s))

/-- The messages that no ORDER entry will name any more are applied in the order of arrival, as an active or solo module
does, each in its turn (R76, R98, R514). -/
def applyAllHeld (s : State) : State :=
  let s1 := runOrders s.pair.orders.length s
  let apply (m : HeldMessage) (s : State) : State :=
    if m.2.2.1 = 0x01 then applyHeldOpen none m s
    else match sessionIdx s m.1 with
      | none => s
      | some i => if isItsTurn (sessionOf s i) m.2.2.1 m.2.1 then applyHeldMessage m s
                  else keepWaiting i ⟨m.2.1, m.2.2.1, m.2.2.2, true⟩ s
  let s2 := forEach s1.pair.held apply { s1 with pair := { s1.pair with held := [], orders := [], resent := [] } }
  let s2 := forEach (openSessions s2) (fun i s => rejectBad (sessionOf s i).rx.length i s) s2
  applyWaiting (waitingCount s2) s2

end Sys2Proof.Machine
end

