-- ==== Sys2Proof/Machine/CatchUp.lean ====
section
/-! DEFINITION. Catch-up: what the active copies to its partner (17_castling.md, R511 to R513). The spec lists the objects,
and gives neither the codes of their kinds nor the form of their data: how a COPY frame's data changes the object that it
names is a free value (assumption 4). -/
namespace Sys2Proof

namespace Config
open Machine

/-- The object that a kind code names. -/
opaque copyKind : Nat → CopyKind
/-- What id, offset and data of a COPY frame make of the object. -/
opaque copySurface : Nat → Nat → List Byte → Option Surface → Option Surface
opaque copyLut : Nat → Nat → List Byte → Option Lut → Option Lut
opaque copyPage : Nat → Nat → List Byte → Option Page → Option Page
opaque copyRun : Nat → Nat → List Byte → Option RunDef → Option RunDef
/-- Streams and reference of a rendered page. -/
opaque copyStreams : Nat → Nat → List Byte → List LanePart × List (List Byte) → List LanePart × List (List Byte)
/-- Whether the page's streams and reference are complete with this frame. -/
opaque copyComplete : Nat → Nat → List Byte → Bool
opaque copyResult : Nat → Nat → List Byte → Option Result → Option Result
opaque copySession : Nat → Nat → List Byte → Session → Session
opaque copyCalibration : Nat → Nat → List Byte → CalValues → CalValues
/-- Slot states of the armed run, run_tag and epoch. -/
opaque copyArmed : Nat → Nat → List Byte → List Slot × Nat × Nat → List Slot × Nat × Nat

/-- The code of a kind in a COPY frame. -/
opaque copyCode : CopyKind → Nat
/-- The bytes that a COPY frame carries of an object from an offset on, and whether they are the last. -/
opaque copyBytes : Nat → CopyKind → Nat → Nat → List Byte × Bool

end Config

namespace Machine

/-- An entry of a list by its key is replaced, added or taken away. -/
def replaceBy {α : Type} (key : α → Nat) (id : Nat) (f : Option α → Option α) (l : List α) : List α :=
  match f (l.find? fun x => key x = id) with
  | some y => l.filter (fun x => key x ≠ id) ++ [y]
  | none => l.filter fun x => key x ≠ id

/-- The streams of a rendered page: once complete, the page is RENDERED here, its SIGNATURE goes out, and it is checked
(R509, R512). -/
def copyPageStreams (id offset : Nat) (d : List Byte) (s : State) : State :=
  let s1 := modPage id (fun p =>
    let r := Config.copyStreams id offset d (p.parts, p.reference)
    { p with parts := r.1, reference := r.2, state := if Config.copyComplete id offset d then .rendered else p.state }) s
  if Config.copyComplete id offset d then compareSignature id (sendSignature id s1) else s1

/-- The decompressors have read nothing yet of the slots that a COPY frame names (R296). -/
def clearReading (s : State) : State :=
  { s with fire := { s.fire with lanes := s.fire.lanes.map fun l => { l with reading := [] } } }

/-- The object that a COPY frame carries is stored (R512). -/
def copyObject (kind id offset : Nat) (d : List Byte) (s : State) : State :=
  match Config.copyKind kind with
  | .surface => { s with jobs := { s.jobs with
      surfaces := replaceBy (fun x => x.id) id (Config.copySurface id offset d) s.jobs.surfaces } }
  | .lut => { s with jobs := { s.jobs with luts := replaceBy (fun x => x.id) id (Config.copyLut id offset d) s.jobs.luts } }
  | .page => { s with jobs := { s.jobs with
      pages := replaceBy (fun x => x.id) id (Config.copyPage id offset d) s.jobs.pages } }
  | .run => { s with jobs := { s.jobs with runs := replaceBy (fun x => x.id) id (Config.copyRun id offset d) s.jobs.runs } }
  | .streams => copyPageStreams id offset d s
  | .result => noteTicket id { s with net := { s.net with
      results := replaceBy (fun x => x.ticket) id (Config.copyResult id offset d) s.net.results } }
  | .session => modSession (id % 4) (Config.copySession id offset d) s
  | .calibration => { s with cal := { s.cal with
      values := Config.copyCalibration id offset d s.cal.values, changed := true } }
  | .armed =>
    match s.jobs.armed with
    | some a =>
      let r := Config.copyArmed id offset d (a.slots, s.jobs.runTag, s.pair.epoch)
      forEach (r.1.filter fun x => !x.ended) beginReading <| clearReading <| modArmed (fun a => { a with slots := r.1 })
        { s with jobs := { s.jobs with runTag := r.2.1 % 2 ^ 16 }, pair := { s.pair with epoch := r.2.2 % 2 ^ 24 } }
    | none => s
  | .none => s

/-! ### The active's copying (R512) -/

/-- What there is to copy. -/
def copyBaseOf (s : State) : CopyBase :=
  { surfaces := s.jobs.surfaces, luts := s.jobs.luts, pages := s.jobs.pages, runs := s.jobs.runs, results := s.net.results
    sessions := s.net.sessions, values := s.cal.values, armed := s.jobs.armed }

/-- The pages whose streams are copied. -/
def renderedPages (b : CopyBase) : List Page := b.pages.filter fun p => p.state = .rendered

/-- The objects of *Table: Catch-up contents*, in its order. -/
def copyObjects (b : CopyBase) : List (CopyKind × Nat) :=
  b.surfaces.map (fun x => (.surface, x.id)) ++ b.luts.map (fun x => (.lut, x.id)) ++ b.pages.map (fun x => (.page, x.id)) ++
    b.runs.map (fun x => (.run, x.id)) ++ (renderedPages b).map (fun x => (.streams, x.id)) ++
    b.results.map (fun x => (.result, x.ticket)) ++ (List.range 4).map (fun i => (.session, i)) ++ [(.calibration, 0)] ++
    (b.armed.map fun a => (CopyKind.armed, a.run.id)).toList

/-- An object stands as it did. -/
def sameObject (o n : CopyBase) (x : CopyKind × Nat) : Bool :=
  match x.1 with
  | .surface => o.surfaces.find? (fun y => y.id = x.2) = n.surfaces.find? fun y => y.id = x.2
  | .lut => o.luts.find? (fun y => y.id = x.2) = n.luts.find? fun y => y.id = x.2
  | .page => o.pages.find? (fun y => y.id = x.2) = n.pages.find? fun y => y.id = x.2
  | .run => o.runs.find? (fun y => y.id = x.2) = n.runs.find? fun y => y.id = x.2
  | .streams => (renderedPages o).find? (fun y => y.id = x.2) = (renderedPages n).find? fun y => y.id = x.2
  | .result => o.results.find? (fun y => y.ticket = x.2) = n.results.find? fun y => y.ticket = x.2
  | .session => o.sessions.getD x.2 {} = n.sessions.getD x.2 {}
  | .calibration => o.values = n.values
  | .armed => o.armed = n.armed
  | .none => true

/-- The objects to copy: at first every one, later those left and those that have changed (R512). -/
def noteCopies (s : State) : State :=
  let n := copyBaseOf s
  let l := match s.pair.copyBase with
    | none => copyObjects n
    | some o => s.pair.toCopy ++ (copyObjects n).filter fun x => !sameObject o n x && !s.pair.toCopy.contains x
  { s with pair := { s.pair with copyBase := some n, toCopy := l } }

/-- The clock units that Q7 takes for some bytes at memory.q7_rate, in 0.1 GB/s (R512). -/
def q7Time (s : State) (bytes : Nat) : Nat := ceilDiv (bytes * 640) (max 1 (cfgN s Fld.memory_q7_rate 0))

/-- The next COPY frame of the active, as Q7 has room; what of the object it carries is free (R504, R512; log entry 72). -/
def sendCopy (s : State) : State :=
  match s.pair.toCopy with
  | [] => s
  | x :: l =>
    if s.now < s.pair.copyNext then s
    else
      let r := Config.copyBytes s.freeN x.1 x.2 s.pair.copyAt
      let d := r.1.take 4068
      sendPartner 6 (leBytes 1 (Config.copyCode x.1) ++ leBytes 3 0 ++ leBytes 4 x.2 ++ leBytes 8 s.pair.copyAt ++ d)
        (drawFree { s with pair := { s.pair with
          toCopy := if r.2 then l else x :: l, copyAt := if r.2 then 0 else s.pair.copyAt + d.length
          copyNext := s.now + q7Time s d.length } })

/-- The active copies to a partner that reports CATCHUP (R512). -/
def copyOut (s : State) : State :=
  if s.pair.state = .active && s.pair.peerState = 3 then sendCopy (noteCopies s)
  else { s with pair := { s.pair with copyBase := none, toCopy := [], copyAt := 0, copyNext := 0 } }

/-! ### The partner's copy -/

/-- A module that copies: in CATCHUP, its pair state decided. -/
def catchesUp (s : State) : Bool := s.pair.state = .catchup && s.pair.decided

/-- COPY (R512): the frame's object is stored; the fraction copied is left open. -/
def execCopy (t : Nat) (body : List Byte) (s : State) : Host.Outcome State Fault Refusal :=
  let s1 := beginAt t s
  let d := body.drop 16
  .next (
    if !catchesUp s1 then s1
    else
      let s2 := copyObject (fld body 0 1) (fld body 4 4) (fld body 8 8) d s1
      tryStandby (drawFree { s2 with pair := { s2.pair with
        copied := s2.pair.copied + d.length, progress := (Config.freeValue s2.freeN).toNat % 65536
        copies := (fld body 0 1, fld body 4 4, fld body 8 8, d) :: s2.pair.copies } }))

/-- CATCHUP_DONE (R513): the copy is complete. -/
def execCatchupDone (t : Nat) (s : State) : Host.Outcome State Fault Refusal :=
  let s1 := beginAt t s
  .next (if catchesUp s1 then tryStandby { s1 with pair := { s1.pair with copyDone := true } } else s1)

end Machine
end Sys2Proof
end

