-- ==== Sys2Proof/Machine/Fire.lean ====
section
/-! DEFINITION. The commands of the fire path (10_firing.md, 04_jobs_pages_runs.md): line triggers, deferred FIRE-SYNCs,
packets, underruns and decode failures, halts, overspeed, and release points. -/
namespace Sys2Proof.Machine
open Sys2Proof

/-- LINE_TRIGGER (R306): the bar handles its oldest trigger; DRAIN may end with it (R20). -/
def execLineTrigger (t bar : Nat) (s : State) : Host.Outcome State Fault Refusal := .next (settle (handleDue bar (beginAt t s)))

/-- DEFERRED_FIRE_SYNC (R306): the deferred FIRE-SYNC whose time has come is inserted; DRAIN may end with it (R20). -/
def execDeferredFireSync (t bar : Nat) (s : State) : Host.Outcome State Fault Refusal :=
  .next (settle (insertDue bar (beginAt t s)))

/-- LINE_PACKET_COMPLETE (R301, R335): the bar's packet in progress is complete on every lane, a packet time after its
start. -/
def execLinePacketComplete (t bar : Nat) (s : State) : Host.Outcome State Fault Refusal :=
  let s1 := beginAt t s
  .next (modBar bar (fun y => { y with packet := y.packet.map fun p =>
    { p with done := if p.done.isNone && p.start + packetTime s1 bar ≤ s1.now then some (p.start + packetTime s1 bar)
                     else p.done } }) s1)

/-- OVERSPEED_N has nothing left to hold it (R309). -/
def overspeedOver (s : State) : Bool :=
  s.fire.overspeedN && (s.fire.slowSince.any fun t => t + msT 10 ≤ s.now) &&
    !(s.fire.lastDrop.any fun t => s.now < t + msT 10)

/-- OVERSPEED_CLEAR (R309): OVERSPEED_N deasserts once every rate has stayed below the clear level for 10 ms. -/
def execOverspeedClear (t : Nat) (s : State) : Host.Outcome State Fault Refusal :=
  let s1 := updateOverspeed (beginAt t s)
  .next (if overspeedOver s1 then raise 0x0512 [] { s1 with fire := { s1.fire with overspeedN := false } } else s1)

/-- FIRE_UNDERRUN (R32, R320): a link data FIFO runs empty while the lane sends a line packet; K30.7 takes the place of
the next symbol, and the line is damaged. -/
def execFireUnderrun (t lane : Nat) (s : State) : Host.Outcome State Fault Refusal :=
  let s1 := beginAt t s
  let b := lane / 6
  match (barOf s1 b).packet with
  | some p =>
    if packetOnLane s1 lane then
      let s2 := putSymbols lane .idle (kError :: (laneRest s1 lane).drop 1) (modBar b (fun y => { y with damagedLines := wrapInc 16 y.damagedLines })
        (modLane lane (fun x => { x with underruns := wrapInc 16 x.underruns }) s1))
      .next (ownDamage b lane 0 (seqOf s2 b p.n) ((slotsAt s2 b p.n).map fun x => x.num) s2)
    else .next s1
  | none => .next s1

/-- The lane parts that a lane's decompressor has still to deliver of a slot: its page's, then its strip's; with what it
has delivered of each in lines, the compare points from the slot's first line to the part's first, and whether it is the
strip's. -/
def readingParts (s : State) (lane : Nat) (q : Nat × Nat) : List (Slot × LanePart × Nat × Nat × Bool) :=
  match slotOf s q.1 with
  | none => []
  | some x =>
    (((lanePart (slotParts s x) lane).map fun p => (x, p, q.2, 0, false)).toList) ++
      ((x.strip.bind fun st => (lanePart st.parts lane).map fun p =>
        (x, p, q.2 - x.length, x.length + cfgN s Fld.calibration_guard_lines 0, true)).toList)

/-- The slot and the lane part that a lane's decompressor reads as it reads block `block`: the first in which it has not
delivered all of that block, else the last one that has such a block (R296). -/
def readingSlot (s : State) (lane block : Nat) : Option (Slot × LanePart × Nat × Nat × Bool) :=
  let l := ((laneOf s lane).reading.flatMap (readingParts s lane)).filter fun q => block < q.2.1.blocks.length
  (l.find? fun q => q.2.2.1 * q.2.1.lineLen < min q.2.1.length (65536 * (block + 1))).orElse fun _ => l.getLast?

/-- FIRE_DECODE_ERROR (R217, R250, R320): a decompressor has read a block of a lane part, of a page or of its slot's
strip, and finds it MALFORMED or failing its CRC: what it delivers follows, the failure is counted and reported, and the
lines that hold any byte of the block are damaged. -/
def execFireDecodeError (t lane : Nat) (block : Nat × BlockRead) (s : State) : Host.Outcome State Fault Refusal :=
  let s1 := beginAt t s
  let b := lane / 6
  match readingSlot s1 lane block.1 with
  | none => .next s1
  | some (x, p, _, base, strip) =>
    match isFiring s1, (deliverBlock p block.1 block.2).2 with
    | true, some kind =>
      let size := min 65536 (p.length - 65536 * block.1)
      let y0 := 65536 * block.1 / max 1 p.lineLen
      let y1 := (65536 * block.1 + (size - 1)) / max 1 p.lineLen
      let first := ((x.latched.find? fun q => q.1 = b).map (·.2.1)).getD
        (x.start + (barOffsetOf s1 b (barOf s1 b).regTap / 256 : Nat))
      let s2 := modSlot x.num (fun y => if strip then { y with stripUpsets := (lane, block) :: y.stripUpsets }
          else { y with upsets := (lane, block) :: y.upsets }) { s1 with
        render := { s1.render with decompressors := s1.render.decompressors.modify lane fun d =>
          if kind = 0 then (wrapInc 16 d.1, d.2) else (d.1, wrapInc 16 d.2) } }
      let s3 := modBar b (fun y => { y with damagedLines := (y.damagedLines + (y1 + 1 - y0)) % 65536 }) <|
        raise 0x0813 (leBytes 1 lane ++ leBytes 4 x.page ++ leBytes 2 block.1 ++ leBytes 1 kind) s2
      .next (ownDamage b lane 1 (seqOf s3 b (first + (base + y0 : Nat))) [x.num] s3)
    | _, _ => .next s1

/-- HALT_REPEAT (R24, R311): a halted bar repeats HALT on every data lane, and in HALTED so does every bar. -/
def execHaltRepeat (t bar : Nat) (s : State) : Host.Outcome State Fault Refusal :=
  let s1 := beginAt t s
  .next (if halted s1 bar || (s1.mod.state = .halted && bar < 8) then sendHalt bar s1 else s1)

/-- SLOT_RELEASE_POINT (R122): the next slot is released at its release point, or the not-ready policy acts. -/
def execSlotReleasePoint (t : Nat) (s : State) : Host.Outcome State Fault Refusal :=
  .next (decideSlot (beginAt t s))

/-- HALT on every bar, which no token and no role holds back (R312, R624). -/
def haltAllBars (cause allCause : Nat) (s : State) : State :=
  enterHalted allCause (forEach (List.range 8) (fun b => haltBar b cause [spoilHalt]) s)

/-- HALT_IN_ASSERTED (R22, R312): HALT goes out on every lane, and a module in ARMED, PRINT or DRAIN enters HALTED. -/
def execHaltInAsserted (t : Nat) (s : State) : Host.Outcome State Fault Refusal :=
  let s1 := beginAt t s
  let s2 := { s1 with mod := { s1.mod with haltIn := true } }
  .next (if inRun s2 then haltAllBars 1 16 (barsFirst (runBars s2) s2) else s2)

/-- HALTED is over once the run has been ended and HALT_IN_N is deasserted (R138). -/
def leaveHalted (s : State) : State :=
  if s.mod.state = .halted && !s.mod.haltIn && s.jobs.armed.any fun a => a.runEnded then enterIdle 19 s else s

/-- HALT_IN_DEASSERTED (R138). -/
def execHaltInDeasserted (t : Nat) (s : State) : Host.Outcome State Fault Refusal :=
  let s1 := beginAt t s
  .next (leaveHalted { s1 with mod := { s1.mod with haltIn := false } })

end Sys2Proof.Machine
end

