-- ==== Sys2Proof/Machine/Press.lean ====
section
/-! DEFINITION. Discrete inputs and PRINT_GO (09_web_position.md, R286, R287; 04_jobs_pages_runs.md, R116; 15_motion.md, R451,
R459; 22_0824_compatibility.md, R614 to R617, R622). -/
namespace Sys2Proof.Machine
open Sys2Proof

/-- The line of an input that a date falls on, with fraction (R277, R287). -/
def lineAt (s : State) (i date : Nat) : Rat := lineOf (inputOf s i) (linePosValue s i date * 4294967296).floor

/-- This module places the start of the run itself: alone or as king once the cascade is armed (R116, R494, R622). -/
def placesStart (s : State) : Bool :=
  !groupMember s && (!groupKing s || s.ring.cascade.isSome)

/-- A rising edge of discrete input d dated `edgeT` starts a MARK run: page 0 begins `offset` lines after it (R116). A
position between two lines counts as the later one: DESIGN CHOICE, log entry 35. -/
def markStart (d edgeT : Nat) (s : State) : State :=
  match s.jobs.armed, leadInput s with
  | some a, some i =>
    if !s.mod.compat && s.mod.state = .armed && a.run.startMode = 2 && a.nextSlot = 0 && a.nextStart.isNone &&
        a.run.startValue % 32 = d && a.armedAt ≤ edgeT && placesStart s then
      modArmed (fun a => { a with nextStart := some ((lineAt s i edgeT).ceil + (a.run.startValue / 256 : Nat)) }) s
    else s
  | _, _ => s

/-- DIN_CHANGE (R286, R287): discrete input `din` has shown a new electrical level since the edge dated `edgeT`; it is
accepted once din.filter µs of samples agree. -/
def execDinChange (t din : Nat) (level : Bool) (edgeT : Nat) (s : State) : Host.Outcome State Fault Refusal :=
  let s1 := beginAt t s
  let acc := level != decide (cfgN s1 Fld.din_invert din = 1)
  let i := cfgN s1 Fld.din_latch_input din
  if (s1.pos.dins.getD din {}).level = acc || s1.now < edgeT + usT (cfgN s1 Fld.din_filter din) then .next s1
  else
    let upd (x : Din) : Din :=
      if positionOn s1 then
        { level := acc, lastRising := acc, edges := wrapInc 16 x.edges, lastTime := timeAt s1 edgeT
          lastPosition := (linePosValue s1 i edgeT * 4294967296).floor }
      else { x with level := acc }
    let s2 := { s1 with pos := { s1.pos with dins := s1.pos.dins.modify din upd } }
    if !acc then .next s2
    else
      .next (markStart din edgeT (forEach (List.range 12) (homeHit din edgeT) (forEach (List.range 12) (limitHit din) s2)))

/-- A command of the queue that stops the run at this instant (R617). -/
def stopsRun (t : Nat) (c : Instr) : Bool :=
  match c with
  | .runStop u _ _ => u ≤ t
  | .runCancel u _ _ => u ≤ t
  | .haltReq u _ _ => u ≤ t
  | .haltInAsserted u => u ≤ t
  | _ => false

/-- The first rising edge of PRINT_GO after the entry into ARMED places slot 0 (R614, R615). -/
def printGoStart (edgeT : Nat) (s : State) : State :=
  match s.jobs.armed, leadInput s with
  | some a, some i =>
    if s.mod.compat && s.mod.state = .armed && a.nGo.isNone && a.nextSlot = 0 && placesStart s then
      let n := (lineAt s i edgeT).ceil
      raise 0x031E (leBytes 4 a.run.id ++ leBytes 8 (ofSigned 64 n))
        (modArmed (fun a => { a with nGo := some n, nextStart := some (n + cfgN s Fld.compat_go_delay 0) }) s)
    else s
  | _, _ => s

/-- PRINT_GO_EDGE (R614, R615, R617): a change of PRINT_GO, dated `edgeT`, is accepted; in compatibility mode once
compat.go_filter µs of samples agree. -/
def execPrintGoEdge (t : Nat) (level : Bool) (edgeT : Nat) (s : State) : Host.Outcome State Fault Refusal :=
  let s1 := beginAt t s
  let rising := level && !s1.mod.printGo
  let s2 := { s1 with mod := { s1.mod with printGo := level } }
  .next (
    if s1.mod.compat && s1.now < edgeT + usT (cfgN s1 Fld.compat_go_filter 0) then s1
    else if rising && !s2.pending.any (stopsRun s2.now) then printGoStart edgeT s2 else s2)

end Sys2Proof.Machine
end

