-- ==== Sys2Proof/Machine/Tokens.lean ====
section
/-! DEFINITION. The decision tokens as a following module applies them, and as they take effect on the active
(17_castling.md, R506 to R508, R510, R511; 10_firing.md, R322; 15_motion.md, R464; 02_self_timed_engine.md, R48, R49;
12_inspection_cameras.md, R380; 13_calibration_loop.md, R410; 23_mode_combinations.md, R633). -/
namespace Sys2Proof.Machine
open Sys2Proof

/-! ### ARM -/

/-- The run of an ARM token is armed: the one under admission here, or, without one, the one that the token names. -/
def armByToken (body : List Byte) (s : State) : State :=
  match s.jobs.runs.find? fun r => r.id = armRunId body with
  | none => s
  | some r =>
    let n := armPoints (maskInputs s r.barMask) body
    if s.jobs.arming.any fun q => q.run = r.id then armPending (armVerdict body) (armTag body) n s
    else if mayArm s then armRun r (armVerdict body) (armTag body) n none s
    else s

/-- The active arms: a CATCHUP module whose copy is complete is in step from here (R513). -/
def noteArm (s : State) : State :=
  if s.pair.state = .catchup && s.pair.copyDone then tryStandby { s with pair := { s.pair with armSeen := true } } else s

/-! ### RELEASE -/

/-- A release by token; a module that lacks the page enters CATCHUP (R511). -/
def releaseByToken (body : List Byte) (s : State) : State :=
  let id := fld body 4 4
  let s1 := applyRelease (fld body 0 4) id (sfld body 8 8) s
  if pageReady s1 id then s1 else dropToCatchup s1

/-! ### TAP -/

/-- The entries that the table of an element has. -/
def tableLength (s : State) (kind unit : Nat) : Nat := if kind = 3 then 4097 else 16 * cfgN s Fld.camera_width unit

/-- A piece of a table joins those before it; the complete table takes effect. -/
def tableByToken (body : List Byte) (s : State) : State :=
  let kind := tapKind body
  let unit := tapBar body
  let old := (s.pair.tapIn.find? fun x => x.1 = kind && x.2.1 = unit).map fun x => x.2.2
  let l := (old.getD []).take (tapElement body) ++ tapEntries body
  let rest := s.pair.tapIn.filter fun x => !(x.1 = kind && x.2.1 = unit)
  if tableLength s kind unit ≤ l.length then
    let e : Element := ⟨kind, unit, 0⟩
    answerRunNow e true (applyTap e l { s with pair := { s.pair with tapIn := rest } })
  else { s with pair := { s.pair with tapIn := rest ++ [(kind, unit, l)] } }

/-- An accepted value, or the changeover to the re-rendered cycle (R410, R633). -/
def tapByToken (body : List Byte) (s : State) : State :=
  let kind := tapKind body
  if kind = 0xFF then changeover s
  else if kind = 3 || kind = 5 then tableByToken body s
  else if kind < 5 then
    let e := elemOf kind (tapBar body) (tapElement body)
    answerRunNow e true (applyTap e [sfld body 10 4] s)
  else s

/-! ### RESULT -/

/-- A RUN_NOW result that is ready on the active: what has not been accepted here has disagreed (R416). -/
def closeRunNow (ticket : Nat) (s : State) : State :=
  match s.cal.runNow.find? fun r => r.ticket = ticket with
  | none => s
  | some r =>
    let sel := selectedElements s r.kinds r.bars
    let n (k : Nat) : Nat := (sel.filter fun e => e.kind = k).length
    let r1 := { r with disagreed := (List.range 6).map fun k => n k - r.accepted.getD k 0 }
    finishResult ticket (runNowBody r1) { s with cal := { s.cal with runNow := s.cal.runNow.filter fun x => x.ticket ≠ ticket } }

/-- The time of a result; the numbers of unsolicited results keep in step (R508). -/
def resultByToken (body : List Byte) (s : State) : State :=
  let k := fld body 0 4
  let s1 := if 0x80000000 ≤ k && !(s.net.results.any fun r => r.ticket = k) then
      { s with net := { s.net with nextTicket := 0x80000000 + (k + 1) % 0x80000000 } } else s
  timeResult k (readNative ((body.drop 4).take 12)) (closeRunNow k s1)

/-! ### BAR -/

/-- A coast that the active has started on bar b: of the bar's input here, too (R269, R322). -/
def coastByToken (b : Nat) (s : State) : State :=
  match barInput s b with
  | none => s
  | some i =>
    let x := inputOf s i
    match x.coast with
    | some c => modInput i (fun x => { x with coast := some { c with bars := c.bars ||| 2 ^ b } }) s
    | none =>
      let v := max 0 (speedEstimate s i)
      let last := (x.latched.head?).getD (x.count, s.now)
      let c : Coast := { cL := last.1, tL := last.2, vNum := v.num, vDen := v.den, issued := 0, bars := 2 ^ b }
      modInput i (fun x => { x with coast := some c, scheduled := none })
        (raise 0x0614 (leBytes 1 i ++ sgBytes 4 (clampInt (-2147483648) 2147483647 v.floor) ++ leBytes 1 (2 ^ b)) s)

/-- The compare point of a bar's line sequence (R292). -/
def pointOfSeq (s : State) (b seq : Nat) : Int :=
  match barInput s b with
  | some i => (inputOf s i).nArm + toSigned 32 seq
  | none => 0

/-- A decision on a bar (*Table: Decision tokens*, 0x08; R322). -/
def barByToken (body : List Byte) (s : State) : State :=
  let b := barNumber body
  let n := pointOfSeq s b (barSequence body)
  match barAction body with
  | 0 => settle (applyDrop b n s)
  | 1 => putPause b true s
  | 2 => putPause b false s
  | 3 => applyInhibit b s
  | 4 => if (barOf s b).inhibited then
      raise 0x0518 (leBytes 1 b) (modBar b (fun y => { y with inhibited := false, inhibitCool := false }) s) else s
  | 5 => haltBars [b] (barCause body) 18 (if barCause body = 3 then [spoilHalt, spoilPosition] else [spoilHalt]) s
  | 6 => applyDamage b (6 * b) (barCause body) (barSequence body) ((allSlotsAt s b n).map fun x => x.num) s
  | 7 => coastByToken b s
  | _ => s

/-! ### AXIS -/

/-- A decision on an axis (*Table: Decision tokens*, 0x0A; R464). -/
def axisByToken (body : List Byte) (s : State) : State :=
  let a := fld body 0 1
  let v := sfld body 2 8
  match fld body 1 1 with
  | 0 => axisFault a v.toNat s
  | 1 => estopByToken a v.toNat s
  | 2 => modAxis a (fun x => { x with latchDue := some ((v : Rat) / 65536) }) s
  | 3 => startChange a v s
  | _ => s

/-! ### The tokens -/

/-- A decision token takes effect on a following module. -/
def applyToken (kind : Nat) (body : List Byte) (s : State) : State :=
  match kind with
  | 0x01 => noteArm (armByToken body s)
  | 0x02 => releaseByToken body s
  | 0x03 => applyNotReady (fld body 0 4) (fld body 4 1) s
  | 0x04 => applyGovernorToken (fld body 0 1) s
  | 0x05 => tapByToken body s
  | 0x06 => resultByToken body s
  | 0x07 => applyRing (fld body 0 1) (body.drop 1) s
  | 0x08 => barByToken body s
  | 0x09 => issueCommand (fld body 0 1) (fld body 1 2) (fld body 3 4) (fld body 7 2) s
  | 0x0A => axisByToken body s
  | _ => s

/-- The nearest of the tokens that came ahead. -/
def nearestAhead (s : State) : Nat :=
  (s.pair.tokensAhead.map fun x => (x.seq + 2 ^ 32 - s.pair.tokenSeq) % 2 ^ 32).foldl min (2 ^ 32)

/-- The gap before the nearest token that came ahead is asked for, once (R507). -/
def askGap (s : State) : State :=
  let d := nearestAhead s
  let stop := (s.pair.tokenSeq + d) % 2 ^ 32
  if s.pair.tokensAhead.isEmpty then { s with pair := { s.pair with gapSince := none } }
  else if s.pair.gapSince.isSome && s.pair.gapEnd = stop then s
  else askAgain 2 s.pair.tokenSeq d { s with pair := { s.pair with gapSince := some s.now, gapEnd := stop } }

/-- The tokens that came ahead are applied once those before them are; `n` bounds them. -/
def applyAhead : Nat → State → State
  | 0, s => s
  | n + 1, s =>
    match s.pair.tokensAhead.find? fun x => x.seq = s.pair.tokenSeq with
    | none => askGap s
    | some x => applyAhead n (applyToken x.kind x.body { s with pair := { s.pair with
        tokenSeq := wrapInc 32 s.pair.tokenSeq, tokenAny := true, tokensAhead := s.pair.tokensAhead.erase x } })

/-- A token arrives: applied in its turn, kept when it comes ahead of it; the gap is asked for (R507). -/
def takeToken (kind seq : Nat) (body : List Byte) (s : State) : State :=
  let d := (seq + 2 ^ 32 - s.pair.tokenSeq) % 2 ^ 32
  if !follows s || 2 ^ 31 ≤ d then s
  else if d = 0 then
    let s1 := applyToken kind body { s with pair := { s.pair with tokenSeq := wrapInc 32 s.pair.tokenSeq, tokenAny := true } }
    applyAhead (s1.pair.tokensAhead.length + 1) s1
  else if s.pair.tokensAhead.any fun x => x.seq = seq then s
  else
    let s1 := { s with pair := { s.pair with tokensAhead := s.pair.tokensAhead ++ [⟨seq, kind, body⟩] } }
    if s.pair.gapSince.isSome then s1 else askGap s1

/-! ### On acknowledgement (R508) -/

/-- A decision takes effect on the active. -/
def applyDecision (seq : Nat) (d : Decision) (s : State) : State :=
  match d with
  | .arm _ =>
    match s.pair.tokensSent.find? fun x => x.seq = seq with
    | some x => armByToken x.body s
    | none => s
  | .release n id start => applyRelease n id start s
  | .notReady n action => retryHold (applyNotReady n action s)
  | .result ticket time => timeResult ticket time s
  | .camera c g e k => issueCommand c g e k s
  | .tap e _ v => applyTap e v s
  | .ring f => applyRing f.type f.body s
  | .changeover => changeover s
  | .goStop => goStop s

/-- The decisions of some tokens take effect, in order. -/
def takeEffect (p : Nat × Decision → Bool) (s : State) : State :=
  forEach (s.pair.decisions.filter p) (fun x => applyDecision x.1 x.2)
    { s with pair := { s.pair with decisions := s.pair.decisions.filter fun x => !p x } }

/-- The partner has acknowledged the tokens up to `seq`. -/
def acknowledge (seq : Nat) (s : State) : State := takeEffect (fun x => (seq + 2 ^ 32 - x.1) % 2 ^ 32 < 2 ^ 31) s

/-- The partner takes no tokens any more: what waits takes effect at once. -/
def acknowledgeAll (s : State) : State := takeEffect (fun _ => true) s

/-! ### The commands -/

/-- TOKEN_ARM (R126, R507, R513). -/
def execTokenArm (t seq : Nat) (body : List Byte) (s : State) : Host.Outcome State Fault Refusal :=
  .next (takeToken 0x01 seq body (beginAt t s))
/-- TOKEN_RELEASE (R133, R511). -/
def execTokenRelease (t seq : Nat) (body : List Byte) (s : State) : Host.Outcome State Fault Refusal :=
  .next (takeToken 0x02 seq body (beginAt t s))
/-- TOKEN_NOT_READY (R133). -/
def execTokenNotReady (t seq : Nat) (body : List Byte) (s : State) : Host.Outcome State Fault Refusal :=
  .next (takeToken 0x03 seq body (beginAt t s))
/-- TOKEN_GOVERNOR (R48, R49). -/
def execTokenGovernor (t seq : Nat) (body : List Byte) (s : State) : Host.Outcome State Fault Refusal :=
  .next (takeToken 0x04 seq body (beginAt t s))
/-- TOKEN_TAP (R410). -/
def execTokenTap (t seq : Nat) (body : List Byte) (s : State) : Host.Outcome State Fault Refusal :=
  .next (takeToken 0x05 seq body (beginAt t s))
/-- TOKEN_CHANGEOVER (R633): a TAP token of kind 0xFF. -/
def execTokenChangeover (t seq : Nat) (body : List Byte) (s : State) : Host.Outcome State Fault Refusal :=
  let s1 := beginAt t s
  .next (if tapKind body = 0xFF then takeToken 0x05 seq body s1 else s1)
/-- TOKEN_RESULT (R508). -/
def execTokenResult (t seq : Nat) (body : List Byte) (s : State) : Host.Outcome State Fault Refusal :=
  .next (takeToken 0x06 seq body (beginAt t s))
/-- TOKEN_RING (R499). -/
def execTokenRing (t seq : Nat) (body : List Byte) (s : State) : Host.Outcome State Fault Refusal :=
  .next (takeToken 0x07 seq body (beginAt t s))
/-- TOKEN_BAR (R322). -/
def execTokenBar (t seq : Nat) (body : List Byte) (s : State) : Host.Outcome State Fault Refusal :=
  .next (takeToken 0x08 seq body (beginAt t s))
/-- TOKEN_CAMERA (R380). -/
def execTokenCamera (t seq : Nat) (body : List Byte) (s : State) : Host.Outcome State Fault Refusal :=
  .next (takeToken 0x09 seq body (beginAt t s))
/-- TOKEN_AXIS (R464). -/
def execTokenAxis (t seq : Nat) (body : List Byte) (s : State) : Host.Outcome State Fault Refusal :=
  .next (takeToken 0x0A seq body (beginAt t s))

/-- TOKEN_GAP_TIMEOUT (R510): a gap has stood for 1 ms. -/
def execTokenGapTimeout (t : Nat) (s : State) : Host.Outcome State Fault Refusal :=
  let s1 := beginAt t s
  .next (if s1.pair.gapSince.any fun d => d + msT 1 ≤ s1.now then diverge 4 s1 else s1)

end Sys2Proof.Machine
end

