-- ==== Sys2Proof/Machine/Pair.lean ====
section
/-! DEFINITION. The partner link and the pair state: heartbeats, the decision at the first entry into IDLE, castling, demotion,
reclaim, orders, resends, signatures and camera records (17_castling.md, R501 to R517; 03_host_transport.md, R98;
12_inspection_cameras.md, R380; 14_timebase.md, R430). -/
namespace Sys2Proof.Machine
open Sys2Proof

/-- The partner port is in use: redundancy.pair_enable 1 and a configuration in force (R501, R505). -/
def partnerOn (s : State) : Bool := s.conf.inForce && !isSilent s && cfgN s Fld.redundancy_pair_enable 0 = 1

/-! ### Entry into ACTIVE (R501, R514, R516) -/

/-- The module's own time source: ACQUIRING on it, the anchor kept (R430); FREE, at rate 0, without one (*Table: Time states*). -/
def ownTime (s : State) : State :=
  let s1 := { s with time := { s.time with within := 0 } }
  if cfgN s Fld.timebase_source 0 = 0 then freeTime s1 else setTimeState .acquiring s1

/-- A module becomes ACTIVE: its token and order numbers count from 0 (R507). -/
def becomeActive (absent : Bool) (s : State) : State :=
  let s1 := setPairState .active s
  ownTime { s1 with pair := { s1.pair with
    decided := true, waitSince := none, reclaimSince := none, absent := absent, tokenSeq := 0, orderSeq := 0, tokenAny := false, orderAny := false
    tokensAhead := [], gapSince := none, tokensSent := [], ordersSent := [], segments := [], tapIn := [], camRecords := [] } }

/-- OWNER frames on every lane of the UP links, with the new role and epoch (R338, R514). -/
def sendOwners (s : State) : State :=
  forEach ((List.range 48).filter fun g => linkUp s (g / 3)) (fun g s =>
    sendOwner g s) s

/-- The first compare point of a bar that lies at least one packet time ahead (R514). -/
def castlePoint (s : State) (b : Nat) : Int :=
  match barInput s b with
  | none => 0
  | some i =>
    let far : Rat := lineAt s i s.now + lineRate s i * packetTime s b / 64000000000
    max (inputOf s i).nextLine far.ceil

/-- The packet of that compare point starts at once; the points before it are skipped (R514). -/
def restartBar (b : Nat) (s : State) : State :=
  if barGoesOn s b then
    startPacket b (castlePoint s b) (modBar b (fun x => { x with packet := none, pendingSync := [], castleWait := true }) s)
  else modBar b (fun x => { x with castleWait := true }) s

/-- A result whose work is done becomes ready: no token will bring its time any more. -/
def readyNow (s : State) : State :=
  forEach ((s.net.results.filter fun r => r.body.isSome && r.time.isNone).map fun r => r.ticket)
    (fun k s => timeResult k (timeNow s) s) s

/-- A run whose admission is complete here is armed: no ARM token will come any more (R126). -/
def armNow (s : State) : State :=
  match s.jobs.arming with
  | none => s
  | some q =>
    match s.jobs.runs.find? fun r => r.id = q.run with
    | some r => if s.net.results.any (fun x => x.ticket = q.ticket && x.body.isSome) then
        armPending (fld q.body 0 1) ((s.jobs.runTag + 1) % 65536) (armNumbers s r) s else s
    | none => s

/-- The new ACTIVE module takes over: OWNER frames, the packets, the slots in FIRING, and the decisions that are its own
from here, SLOT_READY for its position among them (R499, R514, R516, R626). -/
def takeOver (s : State) : State :=
  let s0 := forEach ((List.range 12).filter fun a => (axisOf s a).estopReq.isSome) (fun a s => takeEstopReq a (ownEstop a 1 s)) s
  let s1 := spoilFiring spoilCastled (sendOwners s0)
  let s2 := if isFiring s1 then forEach (runBars s1) restartBar s1 else s1
  retryHold (takeRing (faultsAtArm (armNow (readyNow (applyAllHeld s2)))))

/-- The line sequence of the first FIRE-SYNC of the lowest-numbered run bar, 0 where none fires (R668). -/
def firstSequence (s : State) : Nat :=
  match (runBars s).head? with
  | some b => if isFiring s then seqOf s b (castlePoint s b) else 0
  | none => 0

/-- Castling (R514). -/
def castle (s : State) : State :=
  let e := (s.pair.peerEpoch + 1) % 2 ^ 24
  let s1 := becomeActive true { s with pair := { s.pair with epoch := e, castlings := wrapInc 16 s.pair.castlings } }
  takeOver (raise 0x0E10 (leBytes 4 e ++ leBytes 4 (firstSequence s1) ++ leBytes 1 (runMask s1)) s1)

/-- A demoted module reclaims (R516). -/
def reclaim (s : State) : State :=
  let e := (s.pair.epoch + 1) % 2 ^ 24
  let s1 := becomeActive true { s with pair := { s.pair with epoch := e } }
  acknowledgeAll (takeOver (raise 0x0E18 (leBytes 4 e) s1))

/-- Demotion (R515): 0 the link is lost, 1 a higher epoch is heard. Decisions that wait are kept for a reclaim. -/
def demote (reason : Nat) (s : State) : State :=
  let kept := s.pair.decisions
  let s1 := yieldRing (stopOutputs (enterSevered 8 s))
  raise 0x0E12 (leBytes 4 s.pair.epoch ++ leBytes 1 reason) { s1 with pair := { s1.pair with
    decisions := kept, demotions := wrapInc 16 s1.pair.demotions, reclaimSince := some s1.now } }

/-! ### The other pair states -/

/-- The bundle digests are equal, as far as the partner's is known (R502). -/
def digestsEqual (s : State) : Bool :=
  !s.pair.peerDigest.isEmpty && s.pair.peerDigest = s.update.digest.take s.pair.peerDigest.length

/-- UNPAIRED_VERSION (R502). -/
def enterUnpaired (s : State) : State :=
  let s1 := stopOutputs (setPairState .unpairedVersion s)
  raise 0x0E14 (padTo 8 s.update.digest ++ padTo 8 s.pair.peerDigest) { s1 with pair := { s1.pair with
    decided := true, waitSince := none, reclaimSince := none, decisions := [], tokensAhead := [], gapSince := none
    copyDone := false, armSeen := false } }

/-- CATCHUP behind an active module: its tokens and orders are taken from the next one on. -/
def beginCatchup (s : State) : State :=
  let next (n : Nat) : Nat := if n = 0 then 0 else wrapInc 32 n
  let s1 := setPairState .catchup s
  { s1 with pair := { s1.pair with
    decided := true, waitSince := none, reclaimSince := none, absent := false, decisions := [], tokensAhead := []
    gapSince := none, tokenSeq := next s1.pair.peerToken, orderSeq := next s1.pair.peerOrder, orders := [], resent := []
    tokenAny := s1.pair.peerToken ≠ 0, orderAny := s1.pair.peerOrder ≠ 0, segPart := []
    copied := 0, copies := [], progress := 0, copyDone := false, armSeen := false, diverged := List.replicate 8 0 } }

/-- The pair state at the first entry into IDLE, once the partner is heard (*Table: Pair state transitions*). -/
def decideHeard (s : State) : State :=
  let same := digestsEqual s
  let a : Bool := s.power.side = 0
  match s.pair.peerState with
  | 1 => if same then beginCatchup s else enterUnpaired s
  | 3 => if same then (if a then applyAllHeld (becomeActive false s) else beginCatchup s)
         else if a then applyAllHeld (becomeActive true s) else enterUnpaired s
  | 5 => if same then s else if a then applyAllHeld (becomeActive true s) else enterUnpaired s
  | _ => s

/-- PAIR_WAIT_EXPIRY (R501): no heartbeat has decided the pair state within pair_wait. -/
def execPairWaitExpiry (t : Nat) (s : State) : Host.Outcome State Fault Refusal :=
  let s1 := beginAt t s
  .next (
    if partnerOn s1 && !s1.pair.decided && s1.pair.waitSince.any fun d => d + msT (cfgN s1 Fld.redundancy_pair_wait 0) ≤ s1.now
    then applyAllHeld (becomeActive true s1)
    else s1)

/-- RECLAIM_WAIT_EXPIRY (R516): no carrier of the run bars has reported another owner. -/
def execReclaimWaitExpiry (t : Nat) (s : State) : Host.Outcome State Fault Refusal :=
  let s1 := beginAt t s
  .next (
    if s1.pair.state = .severed && s1.pair.reclaimSince.any fun d => d + usT (cfgN s1 Fld.redundancy_reclaim_wait 0) ≤ s1.now
    then reclaim s1
    else s1)

/-! ### Heartbeats (R505, R508, R509, R515) -/

/-- HEARTBEAT_DUE (R505): every 5 µs. -/
def execHeartbeatDue (t : Nat) (s : State) : Host.Outcome State Fault Refusal :=
  let s1 := beginAt t s
  .next (
    if partnerOn s1 && s1.pair.lastSent.all fun d => d + usT 5 ≤ s1.now then
      sendPartner 1 (beatBody s1) { s1 with pair := { s1.pair with lastSent := some s1.now } }
    else s1)

/-- What a heartbeat says of the partner. -/
def noteBeat (digest body : List Byte) (s : State) : State :=
  let known := s.pair.peerDigest
  let d := if !digest.isEmpty then digest else if known.take 8 = beatDigest body then known else beatDigest body
  { s with pair := { s.pair with
    linkUp := true, lastBeat := some s.now, missRun := 0, peerState := beatPair body, peerModule := beatModule body
    peerFlags := beatFlags body, peerEpoch := beatEpoch body, peerToken := beatToken body, peerOrder := beatOrder body
    peerDigest := d } }

/-- A following module measures its offset from the time that the heartbeat carries (R430). -/
def takeBeatTime (body : List Byte) (s : State) : State :=
  if timeSource s = 3 then measureOffset (timeNow s - beatTime body) s else s

/-- The distance of two line sequences. -/
def seqDistance (a b : Nat) : Nat := min ((a + 2 ^ 32 - b) % 2 ^ 32) ((b + 2 ^ 32 - a) % 2 ^ 32)

/-- The line counters are checked: three heartbeats in a row in which a bar's differs by more than 1 (R509). -/
def checkCounters (body : List Byte) (s : State) : State :=
  if !follows s || !inRun s then { s with pair := { s.pair with diverged := List.replicate 8 0 } }
  else
    let l := s.pair.diverged.zipIdx.map fun p =>
      if 1 < seqDistance (barOf s p.2).sequence (beatSequence body p.2) then p.1 + 1 else 0
    let s1 := { s with pair := { s.pair with diverged := l } }
    if l.any fun n => 3 ≤ n then diverge 2 s1 else s1

/-- The active hears its partner: acknowledged decisions take effect, and an ACTIVE partner of a later epoch demotes it
(R508, R515). -/
def activeHears (s : State) : State :=
  let later := (s.pair.peerEpoch + 2 ^ 24 - s.pair.epoch) % 2 ^ 24
  if s.pair.peerState = 1 && 0 < later && later < 2 ^ 23 then demote 1 s
  else
    let s1 := { s with pair := { s.pair with absent := s.pair.peerState = 5 } }
    copyOut (if partnerTakes s1 then acknowledge s1.pair.peerToken s1 else acknowledgeAll s1)

/-- A SEVERED module whose partner is ACTIVE in IDLE goes on to CATCHUP; what it had of a run is over. -/
def returnToCatchup (s : State) : State :=
  if s.pair.state = .severed && s.pair.peerState = 1 && s.pair.peerModule = 4 then
    beginCatchup (if inRun s then settle (endReleases (spoilAll spoilHalt s)) else s)
  else s

/-- HEARTBEAT (R501, R505, R508 to R511, R515). -/
def hearBeat (digest body : List Byte) (s : State) : State :=
  let s1 := takeBeatTime body (noteBeat digest body s)
  if s1.pair.state = .active then activeHears s1
  else if !s1.pair.decided then (if s1.pair.waitSince.isSome then decideHeard s1 else s1)
  else if (follows s1 || s1.pair.state = .severed) && !digestsEqual s1 then enterUnpaired s1
  else
    let s2 := returnToCatchup (checkCounters body s1)
    if follows s2 then tryStandby (runOrders s2.pair.orders.length s2) else s2

/-- The link has come up: the full bundle digest goes out, once (*Table: HEARTBEAT body*). -/
def digestOnce (s : State) : State := if s.pair.linkUp then s else emit (.partnerDigest s.update.digest) s

/-- A HEARTBEAT (R505); a body of any other length than its 68 bytes stands for a frame that fails its CRC check, which is
discarded and counted (DESIGN CHOICE, log entry 72). -/
def execHeartbeat (t : Nat) (digest body : List Byte) (s : State) : Host.Outcome State Fault Refusal :=
  let s1 := beginAt t s
  .next (
    if !partnerOn s1 then s1
    else if body.length ≠ 68 then { s1 with pair := { s1.pair with crcDiscards := wrapInc 16 s1.pair.crcDiscards } }
    else hearBeat digest body (digestOnce s1))

/-- The partner link is lost; its lanes train again (R504, R505, R510, R514, R515). -/
def linkIsLost (s : State) : State :=
  let s1 := emit (.portTraining 1 (portTraining 4 0xD0)) (raise 0x0E16 [] { s with pair := { s.pair with linkUp := false } })
  match s1.pair.state with
  | .standby => castle (raise 0x0E13 (leBytes 1 7) s1)
  | .catchup => if s1.pair.decided then diverge 7 s1 else raise 0x0E13 (leBytes 1 7) s1
  | .active =>
    if s1.pair.peerFlags.testBit 0 then demote 0 s1
    else acknowledgeAll { s1 with pair := { s1.pair with absent := true } }
  | _ => s1

/-- HEARTBEAT_MISSED (R505): the k-th heartbeat after the last one heard has not come by 5k µs. -/
def execHeartbeatMissed (t : Nat) (s : State) : Host.Outcome State Fault Refusal :=
  let s1 := beginAt t s
  let k := s1.pair.missRun + 1
  .next (
    if partnerOn s1 && s1.pair.linkUp && s1.pair.lastBeat.any fun d => d + usT (5 * k) ≤ s1.now then
      let s2 := { s1 with pair := { s1.pair with missRun := k, missed := wrapInc 16 s1.pair.missed } }
      if 3 ≤ k then linkIsLost s2 else s2
    else s1)

/-! ### Orders, segments, resends, signatures (R98, R506, R507, R509) -/

/-- ORDER (R506): the entries join those that wait; a message that is lacking is asked for, and so is a SESSION_OPEN where
only others are held. -/
def execOrder (t : Nat) (entries : List OrderEntry) (s : State) : Host.Outcome State Fault Refusal :=
  let s1 := beginAt t s
  .next (
    if !follows s1 then s1
    else
      let s2 := { s1 with pair := { s1.pair with orders := s1.pair.orders ++ entries } }
      let lacking := entries.filter fun e => (refusedHere e s2).isNone &&
        !s2.pair.held.any fun m => orderNames e m && (e.type ≠ 0x01 || crc32c (heldPayload m) = e.crc)
      runOrders s2.pair.orders.length (forEach lacking (fun e => askAgain 0 e.msg 1) s2))

/-- PARTNER_SEGMENT (R98): a datagram that the active received joins its session's segments; a SESSION_OPEN waits for its ORDER
entry, from an address that is not known here yet. -/
def takePartnerSegment (udp : List Byte) (s1 : State) : Host.Outcome State Fault Refusal :=
  if udp.length < 32 + fld udp 22 2 then .next s1
  else if fld udp 6 2 = 0 then
    let s2 := if isOpenDatagram udp && !openRefused s1 udp then holdMessage (0, 1, 0x01, heldOpen 0 0 udp) s1 else s1
    .next (runOrders s2.pair.orders.length s2)
  else match sessionIdx s1 (fld udp 6 2) with
    | none => .next s1
    | some i =>
      let s2 := sessionSegment i (sessionOf s1 i).port (sessionOf s1 i).addr true udp s1
      .next (runOrders s2.pair.orders.length s2)

/-- PARTNER_SEGMENT (R98, R504): a frame holds up to 4,084 bytes of a datagram; a longer datagram comes in several, of
which a shorter one is the last (DESIGN CHOICE, log entry 72). -/
def execPartnerSegment (t : Nat) (udp : List Byte) (s : State) : Host.Outcome State Fault Refusal :=
  let s1 := beginAt t s
  if !follows s1 || segmentRoom < udp.length then .next s1
  else if udp.length = segmentRoom then .next { s1 with pair := { s1.pair with segPart := s1.pair.segPart ++ udp } }
  else takePartnerSegment (s1.pair.segPart ++ udp) { s1 with pair := { s1.pair with segPart := [] } }

/-- RESEND_REQ (R506, R507): the active sends again what it still has. -/
def execResendReq (t kind first count : Nat) (s : State) : Host.Outcome State Fault Refusal :=
  let s1 := beginAt t s
  .next (
    if s1.pair.state ≠ .active then s1
    else if kind = 0 then
      forEach (s1.pair.segments.filter fun u => inSpan first count (fld u 24 4)) (fun u => forEach (segmentPieces u) fun p => sendPartner 5 p) s1
    else if kind = 1 then
      let l := (s1.pair.ordersSent.zipIdx.filter fun p => inSpan first count (p.2 % 2 ^ 32)).map fun p => p.1
      forEach (pieces 200 l) (fun q => sendPartner 2 (q.flatMap orderBytes)) s1
    else if kind = 2 then
      forEach (s1.pair.tokensSent.filter fun x => inSpan first count x.seq) (fun x => sendPartner 3 (tokenBytes x)) s1
    else s1)

/-- SIGNATURE (R509, R510). -/
def execSignature (t pageId sig : Nat) (s : State) : Host.Outcome State Fault Refusal :=
  let s1 := beginAt t s
  .next (if partnerOn s1 then compareSignature pageId (modPage pageId (fun p => { p with partnerSig := some sig }) s1) else s1)

/-! ### Cameras of the partner (R380, R389) -/

/-- The statistics in a piece of a CAMERA frame. -/
def pieceStats (b : List Byte) : List Stat := (pieces 32 (b.drop 32)).map readStat

/-- PARTNER_CAMERA (R380): the frame record with its statistics, which come in pieces of 126; a shorter piece is the last. -/
def execPartnerCamera (t : Nat) (body : List Byte) (s : State) : Host.Outcome State Fault Refusal :=
  let s1 := beginAt t s
  .next (
    if !partnerOn s1 || body.length < 32 then s1
    else
      let before := s1.pair.camRecords.filter fun b => b.take 32 = body.take 32
      let put (l : List (List Byte)) (s : State) : State := { s with pair := { s.pair with camRecords := l } }
      if 126 ≤ (pieceStats body).length then put (before ++ [body]) s1
      else
        let r := readRecord (body.take 32)
        useRecord { r with stats := (before ++ [body]).flatMap pieceStats } (noteRecord r (put [] s1)))

end Sys2Proof.Machine
end

