-- ==== Sys2Proof/Machine/HostMessages.lean ====
section
/-! DEFINITION. The commands that are complete messages of the host: each is applied in its turn, and after it those that waited
for theirs (03_host_transport.md, R76 to R78, R91), and the arrival of a segment. -/
namespace Sys2Proof.Machine
open Sys2Proof

/-- A message is applied in its turn, and then those that waited before it and whose turn has come with it (R76, R78). -/
def hostMessage (t : Nat) (src : Src) (type : Nat) (payload : List Byte) (f : Nat → List Byte → State → Verdict) (s : State) :
    State := applyWaiting (waitingCount s) (onMessage t src type payload f s)

/-- DPT_SEGMENT_RECEIVED (R54, R57, R60, R61, R63): a message that it rejects may have kept others waiting (R76). -/
def execDptSegmentReceived (t port addr : Nat) (dest : UdpDest) (udp : List Byte) (s : State) : Host.Outcome State Fault Refusal :=
  .next (applyWaiting (waitingCount s) (hearDatagram t port addr dest udp s))

/-- SESSION_CLOSE (R74). -/
def execSessionClose (t : Nat) (src : Src) (payload : List Byte) (s : State) : Host.Outcome State Fault Refusal :=
  .next (hostMessage t src 0x03 payload msgSessionClose s)

/-- UNKNOWN_TYPE (R84). A type that the catalogue gives the host is no unknown one. -/
def execUnknownType (t : Nat) (src : Src) (type : Nat) (s : State) : Host.Outcome State Fault Refusal :=
  .next (if hostTypes.contains type then beginAt t s else hostMessage t src type [] msgUnknown s)

/-- HALT_REQ (R77, R313): DRAIN, which it held up (R21), may end with it. -/
def execHaltReq (t : Nat) (src : Src) (payload : List Byte) (s : State) : Host.Outcome State Fault Refusal :=
  .next (settle (hostMessage t src 0x08 payload msgHaltReq s))

/-- RESTART_REQ (R561). -/
def execRestartReq (t : Nat) (src : Src) (payload : List Byte) (s : State) : Host.Outcome State Fault Refusal :=
  .next (hostMessage t src 0x09 payload msgRestart s)

/-- MAINTENANCE_REQ (R20, R488). -/
def execMaintenanceReq (t : Nat) (src : Src) (s : State) : Host.Outcome State Fault Refusal :=
  .next (hostMessage t src 0x0A [] msgMaintenance s)

/-- LOOPBACK_REQ with action START (R637 to R639). -/
def execLoopbackStart (t : Nat) (src : Src) (payload : List Byte) (s : State) : Host.Outcome State Fault Refusal :=
  .next (hostMessage t src 0x0B payload (msgLoopback .nothing) s)

/-- LOOPBACK_REQ with action STOP (R640). -/
def execLoopbackStop (t : Nat) (src : Src) (payload : List Byte) (r : LoopReturn) (s : State) :
    Host.Outcome State Fault Refusal :=
  .next (hostMessage t src 0x0B payload (msgLoopback r) s)

/-- SURFACE_DEFINE (R103). -/
def execSurfaceDefine (t : Nat) (src : Src) (payload : List Byte) (s : State) : Host.Outcome State Fault Refusal :=
  .next (hostMessage t src 0x20 payload msgSurfaceDefine s)

/-- SURFACE_DATA (R105). -/
def execSurfaceData (t : Nat) (src : Src) (payload : List Byte) (s : State) : Host.Outcome State Fault Refusal :=
  .next (hostMessage t src 0x21 payload msgSurfaceData s)

/-- SURFACE_SEAL (R106, R703). -/
def execSurfaceSeal (t : Nat) (src : Src) (payload : List Byte) (s : State) : Host.Outcome State Fault Refusal :=
  .next (hostMessage t src 0x22 payload msgSurfaceSeal s)

/-- SURFACE_FREE (R107). -/
def execSurfaceFree (t : Nat) (src : Src) (payload : List Byte) (s : State) : Host.Outcome State Fault Refusal :=
  .next (hostMessage t src 0x23 payload msgSurfaceFree s)

/-- LUT_DEFINE (R149). -/
def execLutDefine (t : Nat) (src : Src) (payload : List Byte) (s : State) : Host.Outcome State Fault Refusal :=
  .next (hostMessage t src 0x24 payload msgLutDefine s)

/-- PAGE_DEFINE (R109, R111). -/
def execPageDefine (t : Nat) (src : Src) (payload : List Byte) (s : State) : Host.Outcome State Fault Refusal :=
  .next (hostMessage t src 0x25 payload msgPageDefine s)

/-- PAGE_FREE (R112). -/
def execPageFree (t : Nat) (src : Src) (payload : List Byte) (s : State) : Host.Outcome State Fault Refusal :=
  .next (hostMessage t src 0x26 payload msgPageFree s)

/-- RUN_DEFINE (R114). -/
def execRunDefine (t : Nat) (src : Src) (payload : List Byte) (s : State) : Host.Outcome State Fault Refusal :=
  .next (hostMessage t src 0x27 payload msgRunDefine s)

/-- RUN_ARM (R124 to R126). -/
def execRunArm (t : Nat) (src : Src) (payload : List Byte) (s : State) : Host.Outcome State Fault Refusal :=
  .next (hostMessage t src 0x28 payload msgRunArm s)

/-- RUN_STOP (R137). -/
def execRunStop (t : Nat) (src : Src) (payload : List Byte) (s : State) : Host.Outcome State Fault Refusal :=
  .next (hostMessage t src 0x29 payload msgRunStop s)

/-- RUN_CANCEL (R137). -/
def execRunCancel (t : Nat) (src : Src) (payload : List Byte) (s : State) : Host.Outcome State Fault Refusal :=
  .next (hostMessage t src 0x2A payload msgRunCancel s)

/-- RUN_END (R138). -/
def execRunEnd (t : Nat) (src : Src) (payload : List Byte) (s : State) : Host.Outcome State Fault Refusal :=
  .next (hostMessage t src 0x2B payload msgRunEnd s)

/-- CAL_REQUEST RUN_NOW (R416). -/
def execCalRunNow (t : Nat) (src : Src) (payload : List Byte) (s : State) : Host.Outcome State Fault Refusal :=
  .next (hostMessage t src 0x2C payload msgCalRequest s)

/-- CAL_REQUEST FREEZE (R411). -/
def execCalFreeze (t : Nat) (src : Src) (payload : List Byte) (s : State) : Host.Outcome State Fault Refusal :=
  .next (hostMessage t src 0x2C payload msgCalRequest s)

/-- CAL_REQUEST THAW (R411). -/
def execCalThaw (t : Nat) (src : Src) (payload : List Byte) (s : State) : Host.Outcome State Fault Refusal :=
  .next (hostMessage t src 0x2C payload msgCalRequest s)

/-- CAL_REQUEST RESET (R417). -/
def execCalReset (t : Nat) (src : Src) (payload : List Byte) (s : State) : Host.Outcome State Fault Refusal :=
  .next (hostMessage t src 0x2C payload msgCalRequest s)

/-- MOVE_ABS (R447, R449): a move to an absolute target, or a retarget. -/
def execMoveAbs (t : Nat) (src : Src) (payload : List Byte) (s : State) : Host.Outcome State Fault Refusal :=
  .next (hostMessage t src 0x2D payload msgMove s)

/-- MOVE_REL (R447, R449): a move by a distance, or a retarget. -/
def execMoveRel (t : Nat) (src : Src) (payload : List Byte) (s : State) : Host.Outcome State Fault Refusal :=
  .next (hostMessage t src 0x2D payload msgMove s)

/-- JOG (R447): continuous motion at a velocity. -/
def execJog (t : Nat) (src : Src) (payload : List Byte) (s : State) : Host.Outcome State Fault Refusal :=
  .next (hostMessage t src 0x2D payload msgMove s)

/-- STOP (R447): the target becomes the rest position of the present profile. -/
def execStop (t : Nat) (src : Src) (payload : List Byte) (s : State) : Host.Outcome State Fault Refusal :=
  .next (hostMessage t src 0x2D payload msgMove s)

/-- ESTOP (R451): the axis brakes at estop_decel. -/
def execEstop (t : Nat) (src : Src) (payload : List Byte) (s : State) : Host.Outcome State Fault Refusal :=
  .next (hostMessage t src 0x2D payload msgMove s)

/-- HOME (R458): the homing phases start. -/
def execHome (t : Nat) (src : Src) (payload : List Byte) (s : State) : Host.Outcome State Fault Refusal :=
  .next (hostMessage t src 0x2D payload msgMove s)

/-- GEAR (R460): the axis follows a position input. -/
def execGear (t : Nat) (src : Src) (payload : List Byte) (s : State) : Host.Outcome State Fault Refusal :=
  .next (hostMessage t src 0x2D payload msgMove s)

/-- GEAR_CHANGE (R461): the ratio changes at a master count. -/
def execGearChange (t : Nat) (src : Src) (payload : List Byte) (s : State) : Host.Outcome State Fault Refusal :=
  .next (hostMessage t src 0x2D payload msgMove s)

/-- SET_PARAMS (R448): the shadow is written. -/
def execSetParams (t : Nat) (src : Src) (payload : List Byte) (s : State) : Host.Outcome State Fault Refusal :=
  .next (hostMessage t src 0x2D payload msgMove s)

/-- ENABLE (R445): OFF becomes HOLD. -/
def execEnable (t : Nat) (src : Src) (payload : List Byte) (s : State) : Host.Outcome State Fault Refusal :=
  .next (hostMessage t src 0x2D payload msgMove s)

/-- DISABLE (R445): the axis enters OFF. -/
def execDisable (t : Nat) (src : Src) (payload : List Byte) (s : State) : Host.Outcome State Fault Refusal :=
  .next (hostMessage t src 0x2D payload msgMove s)

/-- CLEAR_FAULT (R445): FAULT becomes OFF. -/
def execClearFault (t : Nat) (src : Src) (payload : List Byte) (s : State) : Host.Outcome State Fault Refusal :=
  .next (hostMessage t src 0x2D payload msgMove s)

/-- TIMED_OUTPUT_SET that cancels (R439). -/
def execTimedOutputCancel (t : Nat) (src : Src) (payload : List Byte) (s : State) : Host.Outcome State Fault Refusal :=
  .next (hostMessage t src 0x2E payload msgTimedOutput s)

/-- TIMED_OUTPUT_SET for one pulse (R436). -/
def execTimedOutputOnce (t : Nat) (src : Src) (payload : List Byte) (s : State) : Host.Outcome State Fault Refusal :=
  .next (hostMessage t src 0x2E payload msgTimedOutput s)

/-- TIMED_OUTPUT_SET for pulses with a period (R437). -/
def execTimedOutputPeriodic (t : Nat) (src : Src) (payload : List Byte) (s : State) : Host.Outcome State Fault Refusal :=
  .next (hostMessage t src 0x2E payload msgTimedOutput s)

/-! ### Results, status and images -/

/-- RESULT_RELEASE (R88, R89). -/
def execResultRelease (t : Nat) (src : Src) (payload : List Byte) (s : State) : Host.Outcome State Fault Refusal :=
  .next (hostMessage t src 0x42 payload msgResultRelease s)

/-- STATUS_READ (R100). -/
def execStatusRead (t : Nat) (src : Src) (payload : List Byte) (s : State) : Host.Outcome State Fault Refusal :=
  .next (hostMessage t src 0x43 payload msgStatus s)

/-- IMAGE_BEGIN (R595, R596). -/
def execImageBegin (t : Nat) (src : Src) (payload : List Byte) (s : State) : Host.Outcome State Fault Refusal :=
  .next (hostMessage t src 0x60 payload msgImageBegin s)

/-- IMAGE_BLOCK (R598). -/
def execImageBlock (t : Nat) (src : Src) (payload : List Byte) (s : State) : Host.Outcome State Fault Refusal :=
  .next (hostMessage t src 0x61 payload msgImageBlock s)

/-- IMAGE_VERIFY (R600). -/
def execImageVerify (t : Nat) (src : Src) (payload : List Byte) (s : State) : Host.Outcome State Fault Refusal :=
  .next (hostMessage t src 0x62 payload msgImageVerify s)

/-- IMAGE_ACTIVATE (R602). -/
def execImageActivate (t : Nat) (src : Src) (payload : List Byte) (s : State) : Host.Outcome State Fault Refusal :=
  .next (hostMessage t src 0x63 payload msgImageActivate s)

/-- IMAGE_CONFIRM (R603). -/
def execImageConfirm (t : Nat) (src : Src) (s : State) : Host.Outcome State Fault Refusal :=
  .next (hostMessage t src 0x64 [] msgImageConfirm s)

/-- IMAGE_ABORT (R595). -/
def execImageAbort (t : Nat) (src : Src) (s : State) : Host.Outcome State Fault Refusal :=
  .next (hostMessage t src 0x65 [] msgImageAbort s)

end Sys2Proof.Machine
end

