-- ==== Sys2Proof/Machine/Start.lean ====
section
/-! DEFINITION. Power good and its loss, the boot ROM, and the steps of TRAIN (19_power_and_start.md; 21_firmware_update.md,
R591 to R593; 08_memory.md, R243 to R246; 07_raron_codec.md, R215, R216). -/
namespace Sys2Proof.Machine
open Sys2Proof

/-! ### The input and power good (R547 to R560) -/

/-- The number of strap pins that read 1 is odd (R565). -/
def strapsOdd (straps : Nat) : Bool := (bitList 4 straps).length % 2 = 1

/-- What the module latches at power good: the straps, the raw counter's origin, the domains that three starts have failed
on, and a random run_tag (R355, R419, R470, R555, R565, R566). -/
def latchStart (straps mv : Nat) (s : State) : State :=
  let ok := strapsOdd straps
  let held := (List.range 10).filter fun d => s.power.domainsHeld.contains d || 3 ≤ s.power.faultCounts.getD d 0
  let new := held.filter fun d => !s.power.domainsHeld.contains d
  let s1 := { drawFree s with
    rawOrigin := s.now
    jobs := { s.jobs with runTag := (Config.freeRunTag s.freeN).toNat }
    power := { s.power with
      straps := straps % 16, strapValid := ok, position := if ok then straps % 4 else 3
      side := if ok then straps / 4 % 2 else 1
      domainsHeld := held, inputMv := mv, watchdogUntil := none } }
  let s2 := forEach new (fun d => atNextStart 0x0123 (leBytes 1 d)) s1
  if ok then s2 else atNextStart 0x0124 (leBytes 1 (straps % 16)) s2

/-- Whether the start conditions hold that the model keeps: the input (R547), the shutdown latch (R560), the 10 ms of the
watchdog (R559). -/
def mayStart (mv : Nat) (s : State) : Bool :=
  39000 ≤ mv && mv ≤ 60000 && !s.power.shutdownLatch &&
    (match s.power.watchdogUntil with
     | none => true
     | some w => w + msT 10 ≤ s.now)

/-- POWER_GOOD (R550): OFF becomes BOOT, with the straps latched and the raw counter at 0. -/
def execPowerGood (t straps inputMv : Nat) (s : State) : Host.Outcome State Fault Refusal :=
  let s1 := beginAt t s
  .next (if s1.mod.state = .off && mayStart inputMv s1 then enterBoot 0 (latchStart straps inputMv s1) else s1)

/-- The codes of object 0x0101 last_off_cause. -/
def offCode : OffCause → Nat
  | .inputLow => 1 | .inputHigh => 2 | .presence => 3 | .slotReset => 4 | .watchdog => 5
  | .coreVoltage => 6 | .reference => 7 | .pd0Rail => 8 | .domainFault => 9

/-- Consecutive starts ended by a fault of each domain, once one more start has ended (R555). -/
def nextFaults (cause domain : Nat) (l : List Nat) : List Nat :=
  (List.range 10).map fun d => if cause = 9 && d = domain then l.getD d 0 + 1 else 0

/-- The loss of power good: HALT, OFF, and the hot-swap controller's record (R20, R551, R552, R555, R559). -/
def losePower (cause domain : Nat) (s : State) : State :=
  let s1 := goOff (haltAllLanes s)
  let counts := nextFaults cause domain s.power.faultCounts
  let s2 := { s1 with power := { s1.power with
    lastOffCause := cause, faultCounts := counts
    faultDomain := if cause = 9 then domain else s.power.faultDomain
    watchdogResets := if cause = 5 then wrapInc 16 s.power.watchdogResets else s.power.watchdogResets
    watchdogUntil := if cause = 5 then some s.now else none } }
  if cause = 9 then atNextStart 0x0122 (leBytes 1 domain ++ leBytes 4 (counts.getD domain 0)) s2 else s2

/-- SLOT_RESET_N and the watchdog have no effect in SHUTDOWN (R560); a domain fault is one of PD1 to PD9 that is on (R555). -/
def losesPower (c : OffCause) (domain : Nat) (s : State) : Bool :=
  s.mod.state ≠ .off && !(s.mod.state = .shutdown && (c = .slotReset || c = .watchdog)) &&
    (c ≠ .domainFault || (1 ≤ domain && domainOn s domain))

/-- POWER_GOOD_LOST (R551, R555). -/
def execPowerGoodLost (t : Nat) (cause : OffCause) (domain : Nat) (s : State) : Host.Outcome State Fault Refusal :=
  let s1 := beginAt t s
  .next (if losesPower cause domain s1 then losePower (offCode cause) domain s1 else s1)

/-- WATCHDOG_EXPIRY (R559, R560). -/
def execWatchdogExpiry (t : Nat) (s : State) : Host.Outcome State Fault Refusal :=
  let s1 := beginAt t s
  .next (if losesPower .watchdog 0 s1 then losePower 5 0 s1 else s1)

/-- INPUT_LOW (R548): below 40.0 V for 1 ms, once until the input has returned above 41.0 V. -/
def execInputLow (t mv : Nat) (s : State) : Host.Outcome State Fault Refusal :=
  let s1 := beginAt t s
  let s2 := { s1 with power := { s1.power with inputMv := mv } }
  .next (
    if s1.mod.state = .off then s1
    else if 41000 < mv then { s2 with power := { s2.power with inputLowRaised := false } }
    else if mv < 40000 && !s1.power.inputLowRaised then
      raise 0x0121 (leBytes 4 mv) { s2 with power := { s2.power with inputLowRaised := true } }
    else s2)

/-- The events of the next start that are also recorded in flash: the shutdown record and the slots rejected. -/
def flashBacked (e : Nat × List Byte) : Bool := e.1 = 0x0147 || e.1 = 0x0F30 || e.1 = 0x0F33

/-- SHUTDOWN_LATCH_CLEAR (R560): a module in SHUTDOWN goes to OFF; the removal of the input takes the hot-swap controller's
record with it (R552, R555). -/
def execShutdownLatchClear (t : Nat) (inputRemoved : Bool) (s : State) : Host.Outcome State Fault Refusal :=
  let s1 := beginAt t s
  let s2 := if s1.mod.state = .shutdown then losePower (if inputRemoved then 1 else 3) 0 s1 else s1
  .next (
    if s2.mod.state ≠ .off then s2
    else if inputRemoved then { s2 with power := { atStart := s2.power.atStart.filter flashBacked } }
    else { s2 with power := { s2.power with shutdownLatch := false } })

/-! ### The boot ROM (R591 to R593) -/

/-- A slot is marked REJECTED, and the next entry into IDLE or MAINTENANCE reports it (R591, R593). -/
def rejectSlot (n check : Nat) (s : State) : State :=
  atNextStart 0x0F30 (leBytes 1 n ++ leBytes 1 check) (markSlot n 5 s)

/-- A trial start is counted; a trial used up goes back to the previous slot (R591). -/
def countTrial (s : State) : State :=
  let r := bootRec s
  if r.confirmed then s
  else if r.trial = 0 then
    atNextStart 0x0F33 (leBytes 1 r.previous) (writeBoot r.previous r.selected 0 true (rejectSlot r.selected 4 s))
  else writeBoot r.selected r.previous (r.trial - 1) false s

/-- Whether the boot ROM tries a slot (R591). -/
def bootable (s : State) (n : Nat) : Bool :=
  let r := bootRec s
  let st := slotState s n
  if n = r.selected then st = 4 || (st = 3 && !r.confirmed) else st = 4

/-- The supervisor of a slot starts: the manifest of its bundle is the running one, and the module enters CONFIG. -/
def startSupervisor (n : Nat) (s : State) : State :=
  let b := slotBytes s n
  let m := manifestOf b
  enterConfig 1 { s with update := { s.update with
    runningSlot := n, trial := !(bootRec s).confirmed, confirmReceived := false
    major := fld m 6 1, minor := fld m 7 1, patch := fld m 8 2, ringMajor := fld m 10 1, ringMinor := fld m 11 1
    formats := fld m 24 4, digest := bundleDigest b } }

/-- A slot that is not the selected one starts: the selected one is marked REJECTED, and the record names the new one. -/
def fallBack (n : Nat) (s : State) : State :=
  let r := bootRec s
  let s1 := if slotState s r.selected = 5 then s else rejectSlot r.selected 0 s
  let s2 := writeBoot n r.selected 0 true s1
  if r.confirmed then s2 else atNextStart 0x0F33 (leBytes 1 n) s2

/-- The boot ROM tries the slots of a list in turn; with none that runs it serves MAINTENANCE itself (R591, R592). -/
def trySlots : List Nat → State → State
  | [], s => enterMaintenance 2 { s with mod := { s.mod with romServed := true } }
  | n :: r, s =>
    if bootable s n then
      match bootCheck s (slotBytes s n) with
      | some c => trySlots r (rejectSlot n c s)
      | none => startSupervisor n (if n = (bootRec s).selected then s else fallBack n s)
    else trySlots r s

/-- BOOT_SELECT (R591). -/
def execBootSelect (t : Nat) (s : State) : Host.Outcome State Fault Refusal :=
  let s1 := beginAt t s
  .next (
    if s1.mod.state = .boot then
      let s2 := countTrial s1
      trySlots [(bootRec s2).selected, otherSlot (bootRec s2).selected] s2
    else s1)

/-! ### TRAIN (R215, R216, R243 to R246, R557) -/

/-- The valid training record with the higher sequence number (R246). -/
def trainRecord (s : State) : Option TrainRecord := copyInForce (fun x => x.seq) (s.flash.training.map validCopy)

/-- Two temperatures within 20 °C, each against each. -/
def within20 (a b : List Int) : Bool := a.length = b.length && (a.zip b).all fun p => (p.1 - p.2).natAbs ≤ 20

/-- The first condition of R243 that fails for a channel, by the reasons of TRAINING_FULL; none when all hold. -/
def reuseFailure (s : State) (ch : Nat) (ids : List Nat) (dts : List Int) : Option Nat :=
  if cfgN s Fld.memory_train_reuse 0 ≠ 1 then some 5
  else match trainRecord s with
    | none => some 0
    | some r =>
      if r.dieId ≠ s.otp.dieId || r.devIds.getD ch [] ≠ ids then some 1
      else if !within20 ((r.dts.drop (2 * ch)).take 2) dts then some 2
      else if s.mod.restartMode.getD 0 ≠ 0 then some 3
      else none

/-- The module trains fully, for a reason of TRAINING_FULL (R243, R246). -/
def trainFully (reason : Nat) (s : State) : State :=
  raise 0x0715 (leBytes 1 reason) { s with mem := { s.mem with
    mode := some (reason + 1), reused := false, trained := List.replicate 4 false, failures := List.replicate 4 0 } }

/-- How the module trains is decided, or decided anew, as a channel's identities and temperatures are read. -/
def decideTraining (ch : Nat) (ids : List Nat) (dts : List Int) (s : State) : State :=
  let s1 := { s with mem := { s.mem with
    devIds := s.mem.devIds.set ch ids
    dtsRead := (s.mem.dtsRead.set (2 * ch) (dts.getD 0 0)).set (2 * ch + 1) (dts.getD 1 0) } }
  if s1.mem.mode.getD 0 ≠ 0 then s1
  else match reuseFailure s1 ch ids dts with
    | some k => trainFully k s1
    | none => { s1 with mem := { s1.mem with mode := some 0 } }

/-- IDLE once every channel is trained, the memory is initialised and codec self-verification has passed (R20). -/
def leaveTrain (s : State) : State :=
  if s.mod.state = .train && memTrained s && s.mem.initialised && s.render.selftestPassed then enterIdle 6 s else s

/-- The values that a channel's training has come to: those of the record that it reuses, or new ones, which the spec
leaves open (R243, R246). -/
def trainedValue (s : State) (ch : Nat) : Nat :=
  if s.mem.mode = some 0 then ((trainRecord s).map fun r => r.values.getD ch 0).getD 0 else (Config.freeValue s.freeN).toNat

/-- A channel is trained. -/
def channelTrained (ch : Nat) (s : State) : State :=
  let tr := s.mem.trained.set ch true
  let s := drawFree { s with mem := { s.mem with values := s.mem.values.set ch (trainedValue s ch) } }
  leaveTrain { s with mem := { s.mem with trained := tr, reused := tr.all id && s.mem.mode = some 0 } }

/-- Training has failed: TRAINING_FAILED and MAINTENANCE (R245). -/
def failTraining (ch : Nat) (s : State) : State := enterMaintenance 7 (raise 0x0716 (leBytes 1 ch) s)

/-- What the end of training on a channel leads to, once it is decided how the module trains. -/
def trainOutcome (ch : Nat) (res : TrainResult) (s : State) : State :=
  let reuse : Bool := s.mem.mode = some 0
  match res with
  | .verified => if reuse then channelTrained ch s else s
  | .verifyFailed => if reuse then trainFully 4 s else s
  | .trained => if reuse then s else channelTrained ch s
  | .trainFailed =>
    if reuse then s
    else if s.mem.failures.getD ch 0 = 0 then { s with mem := { s.mem with failures := s.mem.failures.set ch 1 } }
    else failTraining ch s

/-- TRAINING_DONE (R243, R245); a memory controller held off fails (R555). -/
def execTrainingDone (t ch : Nat) (devIds : List Nat) (dts : List Int) (res : TrainResult) (s : State) :
    Host.Outcome State Fault Refusal :=
  let s1 := beginAt t s
  .next (
    if s1.mod.state ≠ .train || 4 ≤ ch || s1.mem.trained.getD ch true then s1
    else if !domainOn s1 7 then failTraining ch s1
    else trainOutcome ch res (decideTraining ch devIds dts s1))

/-- MEMORY_INITIALISED (R557). -/
def execMemoryInitialised (t : Nat) (s : State) : Host.Outcome State Fault Refusal :=
  let s1 := beginAt t s
  .next (
    if s1.mod.state = .train && memTrained s1 && !s1.mem.initialised then
      leaveTrain { s1 with mem := { s1.mem with initialised := true, scrubSince := s1.now } }
    else s1)

/-- CODEC_SELFTEST (R215, R216): what the engines have made of the vectors; one whose result is not listed matches. PD5 or
PD6 held off fails it (R555). -/
def execCodecSelftest (t : Nat) (results : List VectorResult) (s : State) : Host.Outcome State Fault Refusal :=
  let s1 := beginAt t s
  let fails := results.filter fun r => !vectorMatches r
  .next (
    if s1.mod.state ≠ .train || s1.render.selftestPassed then s1
    else if fails.isEmpty && domainOn s1 5 && domainOn s1 6 then
      leaveTrain { s1 with render := { s1.render with selftestPassed := true } }
    else enterMaintenance 8 (forEach fails
      (fun f => raise 0x0810 (leBytes 1 f.kind ++ leBytes 2 f.engine ++ leBytes 1 f.vector)) s1))

end Sys2Proof.Machine
end

