-- ==== Sys2Proof/Machine/Reads.lean ====
section
/-! DEFINITION. RESULT_READ (03_host_transport.md, R86 to R91). -/
namespace Sys2Proof.Machine
open Sys2Proof

/-- What a command that may make a result ready leads to, as a RESULT_READ that stands before it in the same instant must know. -/
def endsWork (c : Instr) (s : State) : State :=
  let o : Host.Outcome State Fault Refusal := match c with
    | .powerGood t straps inputMv => execPowerGood t straps inputMv s
    | .bootSelect t => execBootSelect t s
    | .configRead t => execConfigRead t s
    | .trainingDone t ch devIds dts res => execTrainingDone t ch devIds dts res s
    | .codecSelftest t results => execCodecSelftest t results s
    | .thermalSample t conv => execThermalSample t conv s
    | .speedMonitorWindow t mon count => execSpeedMonitorWindow t mon count s
    | .dptSegmentReceived t port addr dest udp => execDptSegmentReceived t port addr dest udp s
    | .sessionClose t src payload => execSessionClose t src payload s
    | .unknownType t src type => execUnknownType t src type s
    | .haltReq t src payload => execHaltReq t src payload s
    | .restartReq t src payload => execRestartReq t src payload s
    | .maintenanceReq t src => execMaintenanceReq t src s
    | .loopbackStart t src payload => execLoopbackStart t src payload s
    | .loopbackStop t src payload r => execLoopbackStop t src payload r s
    | .loopbackEnd t ticket lockDue r => execLoopbackEnd t ticket lockDue r s
    | .loopbackPreempted t ticket r => execLoopbackPreempted t ticket r s
    | .surfaceDefine t src payload => execSurfaceDefine t src payload s
    | .surfaceData t src payload => execSurfaceData t src payload s
    | .surfaceSeal t src payload => execSurfaceSeal t src payload s
    | .sealCheckDone t => execSealCheckDone t s
    | .surfaceFree t src payload => execSurfaceFree t src payload s
    | .lutDefine t src payload => execLutDefine t src payload s
    | .pageDefine t src payload => execPageDefine t src payload s
    | .pageFree t src payload => execPageFree t src payload s
    | .runDefine t src payload => execRunDefine t src payload s
    | .runArm t src payload => execRunArm t src payload s
    | .runArmVerdict t => execRunArmVerdict t s
    | .runStop t src payload => execRunStop t src payload s
    | .runCancel t src payload => execRunCancel t src payload s
    | .runEnd t src payload => execRunEnd t src payload s
    | .calRunNow t src payload => execCalRunNow t src payload s
    | .calFreeze t src payload => execCalFreeze t src payload s
    | .calThaw t src payload => execCalThaw t src payload s
    | .calReset t src payload => execCalReset t src payload s
    | .moveAbs t src payload => execMoveAbs t src payload s
    | .moveRel t src payload => execMoveRel t src payload s
    | .jog t src payload => execJog t src payload s
    | .stop t src payload => execStop t src payload s
    | .estop t src payload => execEstop t src payload s
    | .home t src payload => execHome t src payload s
    | .gear t src payload => execGear t src payload s
    | .gearChange t src payload => execGearChange t src payload s
    | .setParams t src payload => execSetParams t src payload s
    | .enable t src payload => execEnable t src payload s
    | .disable t src payload => execDisable t src payload s
    | .clearFault t src payload => execClearFault t src payload s
    | .timedOutputCancel t src payload => execTimedOutputCancel t src payload s
    | .timedOutputOnce t src payload => execTimedOutputOnce t src payload s
    | .timedOutputPeriodic t src payload => execTimedOutputPeriodic t src payload s
    | .resultRelease t src payload => execResultRelease t src payload s
    | .statusRead t src payload => execStatusRead t src payload s
    | .imageBegin t src payload => execImageBegin t src payload s
    | .imageBlock t src payload => execImageBlock t src payload s
    | .imageVerify t src payload => execImageVerify t src payload s
    | .imageActivate t src payload => execImageActivate t src payload s
    | .configActivationDone t => execConfigActivationDone t s
    | .imageConfirm t src => execImageConfirm t src s
    | .imageAbort t src => execImageAbort t src s
    | .quadratureEdge t input a b agreed => execQuadratureEdge t input a b agreed s
    | .wireFault t input pair samples => execWireFault t input pair samples s
    | .indexEvent t edge => execIndexEvent t edge s
    | .ssiFrame t input f => execSsiFrame t input f s
    | .coastTrigger t input => execCoastTrigger t input s
    | .auxCompareTrigger t chan => execAuxCompareTrigger t chan s
    | .dinChange t din level edgeT => execDinChange t din level edgeT s
    | .haltInAsserted t => execHaltInAsserted t s
    | .fireUnderrun t lane => execFireUnderrun t lane s
    | .fireDecodeError t lane block => execFireDecodeError t lane block s
    | .compositionLine t line => execCompositionLine t line s
    | .pageRendered t => execPageRendered t s
    | .eccUncorrectable t burst reader target copy => execEccUncorrectable t burst reader target copy s
    | .linkStatusFrame t link inverted between frame => execLinkStatusFrame t link inverted between frame s
    | .linkUpLost t link since => execLinkUpLost t link since s
    | .statusTimeout t link => execStatusTimeout t link s
    | .pllUnlock t pll => execPllUnlock t pll s
    | .cameraDown t port conn cause => execCameraDown t port conn cause s
    | .cameraFrameEnd t port why => execCameraFrameEnd t port why s
    | .cameraWriteAck t port gen ok => execCameraWriteAck t port gen ok s
    | .motionProfilePeriod t => execMotionProfilePeriod t s
    | .pwmPeriod t axis vbusMv fullScale => execPwmPeriod t axis vbusMv fullScale s
    | .ringFrameReceived t crcOk f => execRingFrameReceived t crcOk f s
    | .ringDelayExchange t resp => execRingDelayExchange t resp s
    | .discover t f => execDiscover t f s
    | .joinGrant t f => execJoinGrant t f s
    | .joinHello t f => execJoinHello t f s
    | .eject t f => execEject t f s
    | .leaveReq t f => execLeaveReq t f s
    | .leaveWaitExpiry t => execLeaveWaitExpiry t s
    | .roll t f => execRoll t f s
    | .origin t f => execOrigin t f s
    | .runArmedFrame t f => execRunArmedFrame t f s
    | .cascadeArmed t f => execCascadeArmed t f s
    | .slotReady t f => execSlotReady t f s
    | .ringRelease t f => execRingRelease t f s
    | .ringNotReady t f => execRingNotReady t f s
    | .cascadeStop t f => execCascadeStop t f s
    | .ringImageBlock t f => execRingImageBlock t f s
    | .imageAck t f => execImageAck t f s
    | .heartbeat t digest body => execHeartbeat t digest body s
    | .heartbeatMissed t => execHeartbeatMissed t s
    | .pairWaitExpiry t => execPairWaitExpiry t s
    | .reclaimWaitExpiry t => execReclaimWaitExpiry t s
    | .order t entries => execOrder t entries s
    | .tokenArm t seq body => execTokenArm t seq body s
    | .tokenRelease t seq body => execTokenRelease t seq body s
    | .tokenNotReady t seq body => execTokenNotReady t seq body s
    | .tokenGovernor t seq body => execTokenGovernor t seq body s
    | .tokenTap t seq body => execTokenTap t seq body s
    | .tokenChangeover t seq body => execTokenChangeover t seq body s
    | .tokenResult t seq body => execTokenResult t seq body s
    | .tokenRing t seq body => execTokenRing t seq body s
    | .tokenBar t seq body => execTokenBar t seq body s
    | .tokenCamera t seq body => execTokenCamera t seq body s
    | .tokenAxis t seq body => execTokenAxis t seq body s
    | .partnerSegment t udp => execPartnerSegment t udp s
    | .partnerCamera t body => execPartnerCamera t body s
    | .imageVerifyDone t => execImageVerifyDone t s
    | .loopbackDone t ticket r => execLoopbackDone t ticket r s
    | _ => .next s
  match o with
  | .next n => n
  | _ => s

/-- The result of a ticket as it becomes ready in this very instant, by a command that stands behind in the queue with a date
that has come (R91). -/
def readyAtOnce (s : State) (ticket : Nat) : Option Result :=
  let n := (s.pending.takeWhile fun c => dateOf c ≤ s.now).foldl (fun s c => endsWork c s) s
  n.net.results.find? fun r => r.ticket = ticket && resultReady r

/-- RESULT_READ (R86, R87, R90, R91). -/
def execResultRead (t : Nat) (src : Src) (payload : List Byte) (s : State) : Host.Outcome State Fault Refusal :=
  .next (hostMessage t src 0x40 payload (readResult readyAtOnce) s)

end Sys2Proof.Machine
end

