-- ==== Sys2Proof/Machine/Dispatch.lean ====
section
/-! DEFINITION. One arm for each command: a direct call of its meaning. -/
namespace Sys2Proof.Machine
open Sys2Proof

/-- The effect of a command on everything but the queue. -/
def exec (i : Instr) (s : State) : Host.Outcome State Fault Refusal :=
  match i with
  | .powerGood t straps inputMv => Sys2Proof.Machine.execPowerGood t straps inputMv s
  | .powerGoodLost t cause domain => Sys2Proof.Machine.execPowerGoodLost t cause domain s
  | .bootSelect t => Sys2Proof.Machine.execBootSelect t s
  | .configRead t => Sys2Proof.Machine.execConfigRead t s
  | .trainingDone t ch devIds dts res => Sys2Proof.Machine.execTrainingDone t ch devIds dts res s
  | .memoryInitialised t => Sys2Proof.Machine.execMemoryInitialised t s
  | .codecSelftest t results => Sys2Proof.Machine.execCodecSelftest t results s
  | .watchdogExpiry t => Sys2Proof.Machine.execWatchdogExpiry t s
  | .inputLow t mv => Sys2Proof.Machine.execInputLow t mv s
  | .shutdownLatchClear t inputRemoved => Sys2Proof.Machine.execShutdownLatchClear t inputRemoved s
  | .thermalSample t conv => Sys2Proof.Machine.execThermalSample t conv s
  | .blitzOff t => Sys2Proof.Machine.execBlitzOff t s
  | .shutdownRecordWritten t => Sys2Proof.Machine.execShutdownRecordWritten t s
  | .speedMonitorWindow t mon count => Sys2Proof.Machine.execSpeedMonitorWindow t mon count s
  | .speedMonitorBroken t mon => Sys2Proof.Machine.execSpeedMonitorBroken t mon s
  | .governorPeriod t => Sys2Proof.Machine.execGovernorPeriod t s
  | .dptSegmentReceived t port addr dest udp => Sys2Proof.Machine.execDptSegmentReceived t port addr dest udp s
  | .networkFrameDiscarded t port kind => Sys2Proof.Machine.execNetworkFrameDiscarded t port kind s
  | .arpNdpRequest t port ndp target sender => Sys2Proof.Machine.execArpNdpRequest t port ndp target sender s
  | .icmpEcho t port v6 sender data => Sys2Proof.Machine.execIcmpEcho t port v6 sender data s
  | .portLinkChange t port up => Sys2Proof.Machine.execPortLinkChange t port up s
  | .portSpeedAlternate t port => Sys2Proof.Machine.execPortSpeedAlternate t port s
  | .ackDelayExpiry t session => Sys2Proof.Machine.execAckDelayExpiry t session s
  | .creditReopened t session credit => Sys2Proof.Machine.execCreditReopened t session credit s
  | .dptRtoExpiry t session seq => Sys2Proof.Machine.execDptRtoExpiry t session seq s
  | .sessionTimeout t session => Sys2Proof.Machine.execSessionTimeout t session s
  | .keepaliveDue t session => Sys2Proof.Machine.execKeepaliveDue t session s
  | .sessionOpen t port addr group header body => Sys2Proof.Machine.execSessionOpen t port addr group header body s
  | .sessionClose t src payload => Sys2Proof.Machine.execSessionClose t src payload s
  | .keepalive t session => Sys2Proof.Machine.execKeepalive t session s
  | .ack t session ack sack credit => Sys2Proof.Machine.execAck t session ack sack credit s
  | .unknownType t src type => Sys2Proof.Machine.execUnknownType t src type s
  | .haltReq t src payload => Sys2Proof.Machine.execHaltReq t src payload s
  | .restartReq t src payload => Sys2Proof.Machine.execRestartReq t src payload s
  | .maintenanceReq t src => Sys2Proof.Machine.execMaintenanceReq t src s
  | .loopbackStart t src payload => Sys2Proof.Machine.execLoopbackStart t src payload s
  | .loopbackStop t src payload r => Sys2Proof.Machine.execLoopbackStop t src payload r s
  | .loopbackEnd t ticket lockDue r => Sys2Proof.Machine.execLoopbackEnd t ticket lockDue r s
  | .loopbackPreempted t ticket r => Sys2Proof.Machine.execLoopbackPreempted t ticket r s
  | .surfaceDefine t src payload => Sys2Proof.Machine.execSurfaceDefine t src payload s
  | .surfaceData t src payload => Sys2Proof.Machine.execSurfaceData t src payload s
  | .surfaceSeal t src payload => Sys2Proof.Machine.execSurfaceSeal t src payload s
  | .sealCheckDone t => Sys2Proof.Machine.execSealCheckDone t s
  | .surfaceFree t src payload => Sys2Proof.Machine.execSurfaceFree t src payload s
  | .lutDefine t src payload => Sys2Proof.Machine.execLutDefine t src payload s
  | .pageDefine t src payload => Sys2Proof.Machine.execPageDefine t src payload s
  | .pageFree t src payload => Sys2Proof.Machine.execPageFree t src payload s
  | .runDefine t src payload => Sys2Proof.Machine.execRunDefine t src payload s
  | .runArm t src payload => Sys2Proof.Machine.execRunArm t src payload s
  | .runArmVerdict t => Sys2Proof.Machine.execRunArmVerdict t s
  | .runStop t src payload => Sys2Proof.Machine.execRunStop t src payload s
  | .runCancel t src payload => Sys2Proof.Machine.execRunCancel t src payload s
  | .runEnd t src payload => Sys2Proof.Machine.execRunEnd t src payload s
  | .calRunNow t src payload => Sys2Proof.Machine.execCalRunNow t src payload s
  | .calFreeze t src payload => Sys2Proof.Machine.execCalFreeze t src payload s
  | .calThaw t src payload => Sys2Proof.Machine.execCalThaw t src payload s
  | .calReset t src payload => Sys2Proof.Machine.execCalReset t src payload s
  | .moveAbs t src payload => Sys2Proof.Machine.execMoveAbs t src payload s
  | .moveRel t src payload => Sys2Proof.Machine.execMoveRel t src payload s
  | .jog t src payload => Sys2Proof.Machine.execJog t src payload s
  | .stop t src payload => Sys2Proof.Machine.execStop t src payload s
  | .estop t src payload => Sys2Proof.Machine.execEstop t src payload s
  | .home t src payload => Sys2Proof.Machine.execHome t src payload s
  | .gear t src payload => Sys2Proof.Machine.execGear t src payload s
  | .gearChange t src payload => Sys2Proof.Machine.execGearChange t src payload s
  | .setParams t src payload => Sys2Proof.Machine.execSetParams t src payload s
  | .enable t src payload => Sys2Proof.Machine.execEnable t src payload s
  | .disable t src payload => Sys2Proof.Machine.execDisable t src payload s
  | .clearFault t src payload => Sys2Proof.Machine.execClearFault t src payload s
  | .timedOutputCancel t src payload => Sys2Proof.Machine.execTimedOutputCancel t src payload s
  | .timedOutputOnce t src payload => Sys2Proof.Machine.execTimedOutputOnce t src payload s
  | .timedOutputPeriodic t src payload => Sys2Proof.Machine.execTimedOutputPeriodic t src payload s
  | .resultRead t src payload => Sys2Proof.Machine.execResultRead t src payload s
  | .resultRelease t src payload => Sys2Proof.Machine.execResultRelease t src payload s
  | .statusRead t src payload => Sys2Proof.Machine.execStatusRead t src payload s
  | .imageBegin t src payload => Sys2Proof.Machine.execImageBegin t src payload s
  | .imageBlock t src payload => Sys2Proof.Machine.execImageBlock t src payload s
  | .flashBlockWritten t => Sys2Proof.Machine.execFlashBlockWritten t s
  | .imageVerify t src payload => Sys2Proof.Machine.execImageVerify t src payload s
  | .imageActivate t src payload => Sys2Proof.Machine.execImageActivate t src payload s
  | .configActivationDone t => Sys2Proof.Machine.execConfigActivationDone t s
  | .imageConfirm t src => Sys2Proof.Machine.execImageConfirm t src s
  | .imageAbort t src => Sys2Proof.Machine.execImageAbort t src s
  | .bundleConfirmed t => Sys2Proof.Machine.execBundleConfirmed t s
  | .ptpMessageReceived t port m => Sys2Proof.Machine.execPtpMessageReceived t port m s
  | .ptpMessageDue t kind => Sys2Proof.Machine.execPtpMessageDue t kind s
  | .timeServoMeasurement t offset => Sys2Proof.Machine.execTimeServoMeasurement t offset s
  | .timeSourceLost t => Sys2Proof.Machine.execTimeSourceLost t s
  | .timeChangeApply t => Sys2Proof.Machine.execTimeChangeApply t s
  | .timedOutputEdge t out => Sys2Proof.Machine.execTimedOutputEdge t out s
  | .timedOutputPulseEnd t out => Sys2Proof.Machine.execTimedOutputPulseEnd t out s
  | .ppsEdge t => Sys2Proof.Machine.execPpsEdge t s
  | .quadratureEdge t input a b agreed => Sys2Proof.Machine.execQuadratureEdge t input a b agreed s
  | .wireFault t input pair samples => Sys2Proof.Machine.execWireFault t input pair samples s
  | .indexEvent t edge => Sys2Proof.Machine.execIndexEvent t edge s
  | .ssiFrame t input f => Sys2Proof.Machine.execSsiFrame t input f s
  | .positionFaultCleared t input => Sys2Proof.Machine.execPositionFaultCleared t input s
  | .coastTrigger t input => Sys2Proof.Machine.execCoastTrigger t input s
  | .extrapolatedTrigger t input => Sys2Proof.Machine.execExtrapolatedTrigger t input s
  | .auxCompareTrigger t chan => Sys2Proof.Machine.execAuxCompareTrigger t chan s
  | .dinChange t din level edgeT => Sys2Proof.Machine.execDinChange t din level edgeT s
  | .haltInAsserted t => Sys2Proof.Machine.execHaltInAsserted t s
  | .haltInDeasserted t => Sys2Proof.Machine.execHaltInDeasserted t s
  | .printGoEdge t level edgeT => Sys2Proof.Machine.execPrintGoEdge t level edgeT s
  | .lineTrigger t bar => Sys2Proof.Machine.execLineTrigger t bar s
  | .deferredFireSync t bar => Sys2Proof.Machine.execDeferredFireSync t bar s
  | .linePacketComplete t bar => Sys2Proof.Machine.execLinePacketComplete t bar s
  | .overspeedClear t => Sys2Proof.Machine.execOverspeedClear t s
  | .fireUnderrun t lane => Sys2Proof.Machine.execFireUnderrun t lane s
  | .fireDecodeError t lane block => Sys2Proof.Machine.execFireDecodeError t lane block s
  | .haltRepeat t bar => Sys2Proof.Machine.execHaltRepeat t bar s
  | .slotReleasePoint t => Sys2Proof.Machine.execSlotReleasePoint t s
  | .pageRenderStart t => Sys2Proof.Machine.execPageRenderStart t s
  | .compositionLine t line => Sys2Proof.Machine.execCompositionLine t line s
  | .chunkCompressed t comp mismatch => Sys2Proof.Machine.execChunkCompressed t comp mismatch s
  | .pageRendered t => Sys2Proof.Machine.execPageRendered t s
  | .flagFall t port ageNs => Sys2Proof.Machine.execFlagFall t port ageNs s
  | .dtRead t temps => Sys2Proof.Machine.execDtRead t temps s
  | .scrubPass t => Sys2Proof.Machine.execScrubPass t s
  | .eccUncorrectable t burst reader target copy => Sys2Proof.Machine.execEccUncorrectable t burst reader target copy s
  | .eccCorrectedRate t sub reads => Sys2Proof.Machine.execEccCorrectedRate t sub reads s
  | .linkStatusFrame t link inverted between frame => Sys2Proof.Machine.execLinkStatusFrame t link inverted between frame s
  | .linkUpLost t link since => Sys2Proof.Machine.execLinkUpLost t link since s
  | .statusTimeout t link => Sys2Proof.Machine.execStatusTimeout t link s
  | .linkTrainTimeout t link => Sys2Proof.Machine.execLinkTrainTimeout t link s
  | .pllUnlock t pll => Sys2Proof.Machine.execPllUnlock t pll s
  | .ownerFrameDue t lane => Sys2Proof.Machine.execOwnerFrameDue t lane s
  | .cameraDiscovery t port d => Sys2Proof.Machine.execCameraDiscovery t port d s
  | .cameraDown t port conn cause => Sys2Proof.Machine.execCameraDown t port conn cause s
  | .cameraRetry t port => Sys2Proof.Machine.execCameraRetry t port s
  | .cameraPacket t port conn p => Sys2Proof.Machine.execCameraPacket t port conn p s
  | .cameraFrameEnd t port why => Sys2Proof.Machine.execCameraFrameEnd t port why s
  | .cameraWriteAck t port gen ok => Sys2Proof.Machine.execCameraWriteAck t port gen ok s
  | .motionProfilePeriod t => Sys2Proof.Machine.execMotionProfilePeriod t s
  | .pwmPeriod t axis vbusMv fullScale => Sys2Proof.Machine.execPwmPeriod t axis vbusMv fullScale s
  | .holdCurrentDelay t axis => Sys2Proof.Machine.execHoldCurrentDelay t axis s
  | .ringFrameReceived t crcOk f => Sys2Proof.Machine.execRingFrameReceived t crcOk f s
  | .ringFrameResend t seq => Sys2Proof.Machine.execRingFrameResend t seq s
  | .ringTimeSend t => Sys2Proof.Machine.execRingTimeSend t s
  | .ringDelayExchange t resp => Sys2Proof.Machine.execRingDelayExchange t resp s
  | .kingListenExpiry t => Sys2Proof.Machine.execKingListenExpiry t s
  | .discoverSend t => Sys2Proof.Machine.execDiscoverSend t s
  | .discover t f => Sys2Proof.Machine.execDiscover t f s
  | .ringAttnAsserted t => Sys2Proof.Machine.execRingAttnAsserted t s
  | .joinGrant t f => Sys2Proof.Machine.execJoinGrant t f s
  | .bypassOpenTime t => Sys2Proof.Machine.execBypassOpenTime t s
  | .joinHello t f => Sys2Proof.Machine.execJoinHello t f s
  | .joinHelloTimeout t => Sys2Proof.Machine.execJoinHelloTimeout t s
  | .eject t f => Sys2Proof.Machine.execEject t f s
  | .leaveReq t f => Sys2Proof.Machine.execLeaveReq t f s
  | .leaveWaitExpiry t => Sys2Proof.Machine.execLeaveWaitExpiry t s
  | .roll t f => Sys2Proof.Machine.execRoll t f s
  | .ringMemberLost t node => Sys2Proof.Machine.execRingMemberLost t node s
  | .originSend t => Sys2Proof.Machine.execOriginSend t s
  | .origin t f => Sys2Proof.Machine.execOrigin t f s
  | .runArmedFrame t f => Sys2Proof.Machine.execRunArmedFrame t f s
  | .cascadeArmed t f => Sys2Proof.Machine.execCascadeArmed t f s
  | .slotReady t f => Sys2Proof.Machine.execSlotReady t f s
  | .ringRelease t f => Sys2Proof.Machine.execRingRelease t f s
  | .ringNotReady t f => Sys2Proof.Machine.execRingNotReady t f s
  | .cascadeStop t f => Sys2Proof.Machine.execCascadeStop t f s
  | .ringImageBlock t f => Sys2Proof.Machine.execRingImageBlock t f s
  | .imageAck t f => Sys2Proof.Machine.execImageAck t f s
  | .relayAckDue t => Sys2Proof.Machine.execRelayAckDue t s
  | .heartbeatDue t => Sys2Proof.Machine.execHeartbeatDue t s
  | .heartbeat t digest body => Sys2Proof.Machine.execHeartbeat t digest body s
  | .heartbeatMissed t => Sys2Proof.Machine.execHeartbeatMissed t s
  | .pairWaitExpiry t => Sys2Proof.Machine.execPairWaitExpiry t s
  | .reclaimWaitExpiry t => Sys2Proof.Machine.execReclaimWaitExpiry t s
  | .order t entries => Sys2Proof.Machine.execOrder t entries s
  | .tokenArm t seq body => Sys2Proof.Machine.execTokenArm t seq body s
  | .tokenRelease t seq body => Sys2Proof.Machine.execTokenRelease t seq body s
  | .tokenNotReady t seq body => Sys2Proof.Machine.execTokenNotReady t seq body s
  | .tokenGovernor t seq body => Sys2Proof.Machine.execTokenGovernor t seq body s
  | .tokenTap t seq body => Sys2Proof.Machine.execTokenTap t seq body s
  | .tokenChangeover t seq body => Sys2Proof.Machine.execTokenChangeover t seq body s
  | .tokenResult t seq body => Sys2Proof.Machine.execTokenResult t seq body s
  | .tokenRing t seq body => Sys2Proof.Machine.execTokenRing t seq body s
  | .tokenBar t seq body => Sys2Proof.Machine.execTokenBar t seq body s
  | .tokenCamera t seq body => Sys2Proof.Machine.execTokenCamera t seq body s
  | .tokenAxis t seq body => Sys2Proof.Machine.execTokenAxis t seq body s
  | .tokenGapTimeout t => Sys2Proof.Machine.execTokenGapTimeout t s
  | .resendReq t kind first count => Sys2Proof.Machine.execResendReq t kind first count s
  | .partnerSegment t udp => Sys2Proof.Machine.execPartnerSegment t udp s
  | .copy t body => Sys2Proof.Machine.execCopy t body s
  | .catchupDone t => Sys2Proof.Machine.execCatchupDone t s
  | .signature t pageId sig => Sys2Proof.Machine.execSignature t pageId sig s
  | .partnerCamera t body => Sys2Proof.Machine.execPartnerCamera t body s
  | .flashRecordWritten t rec ok => Sys2Proof.Machine.execFlashRecordWritten t rec ok s
  | .imageVerifyDone t => Sys2Proof.Machine.execImageVerifyDone t s
  | .loopbackDone t ticket r => Sys2Proof.Machine.execLoopbackDone t ticket r s
  | .pllRelock t pll => Sys2Proof.Machine.execPllRelock t pll s
  | .igmpMldQuery t port v6 groupAddr => Sys2Proof.Machine.execIgmpMldQuery t port v6 groupAddr s

end Sys2Proof.Machine
end

