-- ==== Sys2Proof/Safety.lean ====
section
/-! DEFINITION. The terms in which the statements speak: a command that completes, the groups of the state that it leaves
alone, an event that it raises, something that it puts out, and a host message whose turn has come. -/
namespace Sys2Proof.Machine
open Sys2Proof

/-- The command answers a next state, and that state satisfies `P`. -/
def Completes (i : Instr) (s : State) (P : State → Prop) : Prop := ∃ n, exec i s = .next n ∧ P n

/-- The groups of registers of the block (25_status_objects.md), and what the model keeps beside them: the queue, the clock,
the counter of free values. -/
inductive Group where
  | queue | clock | free | raw | mod | power | otp | flash | conf | update | log | thermal | monitors | gov | net | jobs | render | mem | pos
  | fire | links | cams | cal | time | axes | ring | pair | loops
  deriving DecidableEq, Repr

/-- Every register of the group holds in `n` what it holds in `s`. -/
def Group.same (g : Group) (s n : State) : Prop :=
  match g with
  | .queue => n.pending = s.pending
  | .clock => n.now = s.now
  | .free => n.freeN = s.freeN
  | .raw => n.rawOrigin = s.rawOrigin
  | .mod => n.mod = s.mod
  | .power => n.power = s.power
  | .otp => n.otp = s.otp
  | .flash => n.flash = s.flash
  | .conf => n.conf = s.conf
  | .update => n.update = s.update
  | .log => n.log = s.log
  | .thermal => n.thermal = s.thermal
  | .monitors => n.monitors = s.monitors
  | .gov => n.gov = s.gov
  | .net => n.net = s.net
  | .jobs => n.jobs = s.jobs
  | .render => n.render = s.render
  | .mem => n.mem = s.mem
  | .pos => n.pos = s.pos
  | .fire => n.fire = s.fire
  | .links => n.links = s.links
  | .cams => n.cams = s.cams
  | .cal => n.cal = s.cal
  | .time => n.time = s.time
  | .axes => n.axes = s.axes
  | .ring => n.ring = s.ring
  | .pair => n.pair = s.pair
  | .loops => n.loops = s.loops

/-- Every group but those of `w` is unchanged; what a command puts out is no register. -/
structure Only (w : List Group) (s n : State) : Prop where
  same : ∀ g, g ∉ w → g.same s n

/-- What every command keeps. The raw counter started no later than now (R419); the log holds at most the 256 newest events,
each with 16 bytes of detail, numbered one after the other up to the number that is next (R664 to R666). -/
structure Inv (s : State) : Prop where
  raw : s.rawOrigin ≤ s.now
  size : s.log.events.length ≤ 256
  detail : ∀ e ∈ s.log.events, e.detail.length = 16
  chain : s.log.events.IsChain fun a b => b.seq = wrapInc 32 a.seq
  last : ∀ e, s.log.events.getLast? = some e → s.log.nextSeq = wrapInc 32 e.seq

/-- The log holds an event of this code with this detail (R665, R666). -/
def Raised (code : Nat) (detail : List Byte) (n : State) : Prop :=
  ∃ e ∈ n.log.events, e.code = code ∧ e.detail = padTo 16 detail

/-- The next event of the log: the sequence number that was next, this code and this detail (R664, R666). -/
def RaisedNext (s : State) (code : Nat) (detail : List Byte) (n : State) : Prop :=
  ∃ e ∈ n.log.events, e.code = code ∧ e.detail = padTo 16 detail ∧ e.seq = s.log.nextSeq

/-- The state in which a host message has its own effect: its turn is taken, and a group message of an active module has its ORDER
entry (R76, R506). -/
def atTurn (t : Nat) (src : Src) (type : Nat) (payload : List Byte) (i : Nat) (s : State) : State :=
  sendOrder src.group (sessionOf s i).id src.msg type payload (takeTurn i src.group src.msg (beginAt t s))

/-- A host message whose turn has come on entry `i` of the session table, and which no check before its own refuses: the
session is open, the module answers, it is no group message of a following module (R76 to R83, R96 to R100). -/
def Admitted (t : Nat) (src : Src) (type : Nat) (payload : List Byte) (s : State) (i : Nat) : Prop :=
  let s1 := beginAt t s
  sessionIdx s1 src.session = some i ∧ isSilent s1 = false ∧ (src.group && follows s1) = false ∧
    goesFirst s1 src.session = true ∧ isItsTurn (sessionOf s1 i) type src.msg = true ∧ waitingCount s = 0 ∧
    admissionError (atTurn t src type payload i s) (sessionOf s1 i) src.group type payload = none

/-- The module puts out a DPT message of this type with this payload on session entry `i`, to where its host was last heard
(R57, R73). -/
def Answers (s : State) (i type : Nat) (payload : List Byte) (n : State) : Prop :=
  ∃ d, Out.dpt (sessionOf s i).port (sessionOf s i).addr (sessionOf s i).id type payload d ∈ n.sent

/-- The module puts out one datagram on session entry `i`: a segment with the present ack and sack, and this credit (R57, R64). -/
def SendsSegment (s : State) (i credit : Nat) (x : TxSeg) (n : State) : Prop :=
  Out.datagram (sessionOf s i).port (sessionOf s i).addr (dptDatagram credit (sessionOf s i) x) ∈ n.sent

/-- The state record of slot `k` that is in force has been written over the older copy: the next sequence number, this state and this
digest (R589). -/
def SlotWritten (s : State) (k state : Nat) (digest : List Byte) (n : State) : Prop :=
  (slotInForce n k).seq = nextSeq (fun x => x.seq) ((slotRec s k).copies.map validSlot) ∧ slotState n k = state ∧
    slotDigest n k = digest

/-- Data lane `g` is given these symbols, with the running disparity at which it takes the first: they are what it sends from now on
(R302, R329, R331). -/
def LaneSends (s : State) (g : Nat) (l : List Symbol) (n : State) : Prop := Out.lane g (laneDisparity s g) l ∈ n.sent

/-- What a frame on the partner port carries: its type and its body (R504). -/
def partnerOut : Out → Option (Nat × List Byte)
  | .partner type body _ => some (type, body)
  | _ => none

/-- A flash that holds both slots, with two copies of each state record (R587, R589). -/
def TwoSlots (s : State) : Prop := s.flash.slots.length = 2 ∧ ∀ x ∈ s.flash.slots, x.copies.length = 2

/-- The result of ticket `k` is on its way: the ticket is held, with no body yet (R86). -/
def Pending (k : Nat) (n : State) : Prop := ∃ r ∈ n.net.results, r.ticket = k ∧ r.body = none

/-- The result of ticket `k` is ready: the ticket is held, with this body and with its time (R86, R87). -/
def Ready (k : Nat) (body : List Byte) (n : State) : Prop :=
  ∃ r ∈ n.net.results, r.ticket = k ∧ r.body = some body ∧ r.time.isSome = true

/-- The module decides by itself: it follows no partner, and no partner waits for its tokens (R507, R508). -/
def Settled (s : State) : Prop := follows s = false ∧ partnerTakes s = false

/-- Ticket `k` is held without a body, so that the module's answer makes its result ready. -/
def Answerable (k : Nat) (s : State) : Prop :=
  Settled s ∧ ∃ r ∈ s.net.results, r.ticket = k ∧ r.body = none ∧ r.dropWhenReady = false ∧ r.newer = 0

/-- A MOVE_REQUEST for axis `a`, enabled, with no latch outstanding and no ESTOP of this period, that asks for `action` (R466, R467). -/
def MoveAdmitted (t : Nat) (src : Src) (payload : List Byte) (s : State) (i a action : Nat) : Prop :=
  Admitted t src 0x2D payload s i ∧ 52 ≤ payload.length ∧ fld payload 4 1 = a ∧ a < 12 ∧
    cfgN s Fld.motion_enable a ≠ 0 ∧ s.axes.length = 12 ∧ (axisOf s a).latchDue = none ∧ (axisOf s a).stopDue = none ∧
    fld payload 8 1 = action

/-- A ring frame of this type that is for this node and that the node has not taken before (R475). -/
def Arrives (s : State) (type : Nat) (f : RingFrame) : Prop :=
  ringOn s = true ∧ f.type = type ∧ f.source ≠ nodeNumber s ∧ (f.dest = 0xFF ∨ f.dest = nodeNumber s) ∧ repeated f s = false

/-- Token `q` is the one that a following module applies next (R507). -/
def TokenTurn (s : State) (q : Nat) : Prop := follows s = true ∧ s.pair.tokenSeq = q ∧ s.pair.tokensAhead = []

/-- The groups that a command may write, where no complete message waits for its turn. -/
def mayWrite (c : Instr) : List Group :=
  match c with
  | .powerGood .. => [.clock, .raw, .free, .mod, .power, .conf, .update, .log, .thermal, .gov, .net, .jobs, .render,
    .mem, .pos, .fire, .links, .cams, .cal, .time, .axes, .ring, .pair, .loops]
  | .powerGoodLost .. | .watchdogExpiry .. | .shutdownLatchClear .. => [.clock, .raw, .mod, .power, .conf, .update,
    .log, .thermal, .monitors, .gov, .net, .jobs, .render, .mem, .pos, .fire, .links, .cams, .cal, .time, .axes,
    .ring, .pair, .loops]
  | .bootSelect .. => [.clock, .mod, .power, .flash, .update, .log, .thermal, .net, .pos, .fire, .links, .cams, .time,
    .axes, .ring, .pair]
  | .configRead .. | .imageVerifyDone .. => [.clock, .mod, .power, .flash, .conf, .update, .log, .thermal, .gov, .net,
    .jobs, .render, .mem, .pos, .fire, .links, .cams, .cal, .time, .axes, .ring, .pair, .loops]
  | .trainingDone .. => [.clock, .free, .mod, .power, .conf, .update, .log, .gov, .net, .jobs, .mem, .pos, .fire,
    .links, .cams, .cal, .time, .axes, .ring, .pair]
  | .memoryInitialised .. => [.clock, .mod, .power, .conf, .update, .log, .gov, .net, .jobs, .mem, .pos, .fire, .cams,
    .cal, .ring, .pair]
  | .codecSelftest .. => [.clock, .mod, .power, .conf, .update, .log, .gov, .net, .jobs, .render, .pos, .fire, .links,
    .cams, .cal, .time, .axes, .ring, .pair]
  | .inputLow .. => [.clock, .power, .log, .net]
  | .thermalSample .. | .restartReq .. | .maintenanceReq .. | .leaveWaitExpiry .. => [.clock, .mod, .power, .conf,
    .update, .log, .thermal, .gov, .net, .jobs, .render, .mem, .pos, .fire, .links, .cams, .cal, .time, .axes, .ring,
    .pair, .loops]
  | .blitzOff .. => [.clock, .log, .thermal, .net]
  | .shutdownRecordWritten .. => [.clock, .power, .flash, .thermal]
  | .speedMonitorWindow .. => [.clock, .mod, .power, .log, .thermal, .monitors, .gov, .net, .jobs, .render, .pos,
    .fire, .links, .cams, .cal, .time, .axes, .ring, .pair, .loops]
  | .speedMonitorBroken .. => [.clock, .log, .monitors, .gov, .net, .jobs]
  | .governorPeriod .. => [.clock, .log, .gov, .net, .jobs, .pair]
  | .dptSegmentReceived .. => [.clock, .log, .net, .pair]
  | .networkFrameDiscarded .. | .arpNdpRequest .. | .icmpEcho .. | .portSpeedAlternate .. | .ackDelayExpiry .. |
    .creditReopened .. | .sessionTimeout .. | .keepaliveDue .. | .keepalive .. | .ack .. | .igmpMldQuery .. =>
    [.clock, .net]
  | .portLinkChange .. | .dptRtoExpiry .. => [.clock, .log, .net]
  | .sessionOpen .. => [.clock, .free, .log, .net, .pair]
  | .sessionClose .. | .unknownType .. | .resultRelease .. => [.clock, .net, .pair]
  | .haltReq .. | .runArmVerdict .. | .wireFault .. | .ssiFrame .. | .coastTrigger .. | .fireUnderrun .. |
    .fireDecodeError .. | .tokenArm .. | .tokenRelease .. | .tokenNotReady .. | .tokenGovernor .. | .tokenTap .. |
    .tokenChangeover .. | .tokenResult .. | .tokenRing .. | .tokenBar .. | .tokenCamera .. | .tokenAxis .. => [.clock,
    .mod, .power, .conf, .update, .log, .gov, .net, .jobs, .render, .pos, .fire, .links, .cams, .cal, .axes, .ring,
    .pair]
  | .loopbackStart .. | .loopbackStop .. => [.clock, .free, .log, .net, .jobs, .render, .fire, .links, .pair, .loops]
  | .loopbackEnd .. | .loopbackPreempted .. | .loopbackDone .. => [.clock, .free, .log, .net, .fire, .links, .pair,
    .loops]
  | .surfaceDefine .. | .surfaceData .. | .surfaceSeal .. | .surfaceFree .. | .runDefine .. | .runArm .. => [.clock,
    .net, .jobs, .pair]
  | .sealCheckDone .. | .pageDefine .. | .pageFree .. => [.clock, .net, .jobs, .render, .pair]
  | .lutDefine .. => [.clock, .net, .jobs, .mem, .pair]
  | .runStop .. | .runEnd .. | .haltInDeasserted .. => [.clock, .mod, .power, .conf, .update, .log, .gov, .net, .jobs,
    .pos, .fire, .cams, .cal, .ring, .pair]
  | .runCancel .. | .slotReleasePoint .. | .compositionLine .. | .pageRendered .. => [.clock, .mod, .power, .conf,
    .update, .log, .gov, .net, .jobs, .render, .pos, .fire, .cams, .cal, .ring, .pair]
  | .calRunNow .. | .calFreeze .. | .calThaw .. | .calReset .. => [.clock, .log, .net, .jobs, .cams, .cal, .pair]
  | .moveAbs .. | .moveRel .. | .jog .. | .stop .. | .estop .. | .home .. | .gear .. | .gearChange .. | .setParams ..
    | .enable .. | .disable .. | .clearFault .. | .motionProfilePeriod .. | .pwmPeriod .. => [.clock, .log, .net,
    .pos, .axes, .pair]
  | .timedOutputCancel .. | .timedOutputOnce .. | .timedOutputPeriodic .. => [.clock, .net, .time, .pair]
  | .resultRead .. => [.clock, .free, .net, .pair]
  | .statusRead .. => [.clock, .free, .net, .mem, .pair, .loops]
  | .imageBegin .. => [.clock, .flash, .update, .net, .pair]
  | .imageBlock .. | .imageVerify .. | .imageActivate .. | .imageConfirm .. => [.clock, .update, .net, .pair]
  | .flashBlockWritten .. => [.clock, .flash, .update]
  | .configActivationDone .. => [.clock, .flash, .conf, .update, .net, .pair]
  | .imageAbort .. => [.clock, .power, .flash, .update, .net, .pair]
  | .bundleConfirmed .. => [.clock, .flash, .update, .log, .net]
  | .ptpMessageReceived .. => [.clock, .free, .log, .net, .time]
  | .ptpMessageDue .. | .timeChangeApply .. | .timedOutputPulseEnd .. => [.clock, .time]
  | .timeServoMeasurement .. | .timeSourceLost .. | .timedOutputEdge .. | .ppsEdge .. => [.clock, .log, .net, .time]
  | .quadratureEdge .. | .indexEvent .. => [.clock, .mod, .power, .conf, .update, .log, .gov, .net, .jobs, .render,
    .pos, .fire, .links, .cams, .cal, .axes, .ring, .pair, .loops]
  | .positionFaultCleared .. => [.clock, .log, .net, .pos]
  | .extrapolatedTrigger .. => [.clock, .pos, .fire]
  | .auxCompareTrigger .. => [.clock, .free, .mod, .power, .conf, .update, .log, .gov, .net, .jobs, .render, .pos,
    .fire, .links, .cams, .cal, .time, .axes, .ring, .pair]
  | .dinChange .. => [.clock, .jobs, .pos, .axes, .pair]
  | .haltInAsserted .. => [.clock, .mod, .log, .net, .jobs, .render, .pos, .fire, .links, .cams, .cal, .axes, .ring,
    .pair]
  | .printGoEdge .. => [.clock, .mod, .log, .net, .jobs]
  | .lineTrigger .. | .deferredFireSync .. => [.clock, .mod, .power, .conf, .update, .log, .gov, .net, .jobs, .pos,
    .fire, .links, .cams, .cal, .ring, .pair]
  | .linePacketComplete .. | .haltRepeat .. => [.clock, .fire]
  | .overspeedClear .. => [.clock, .log, .net, .fire]
  | .pageRenderStart .. => [.clock, .log, .net, .jobs, .render, .cams, .cal]
  | .chunkCompressed .. => [.clock, .free, .log, .net, .jobs, .render]
  | .flagFall .. | .dtRead .. => [.clock, .log, .net, .mem]
  | .scrubPass .. => [.clock, .mem]
  | .eccUncorrectable .. => [.clock, .free, .log, .net, .jobs, .render, .mem, .cal, .pair]
  | .eccCorrectedRate .. => [.clock, .free, .log, .net, .mem]
  | .linkStatusFrame .. | .linkUpLost .. | .statusTimeout .. | .pllUnlock .. => [.clock, .free, .mod, .power, .conf,
    .update, .log, .gov, .net, .jobs, .render, .pos, .fire, .links, .cams, .cal, .axes, .ring, .pair, .loops]
  | .linkTrainTimeout .. => [.clock, .log, .net, .links]
  | .ownerFrameDue .. => [.clock, .fire, .loops]
  | .cameraDiscovery .. => [.clock, .log, .net, .cams]
  | .cameraDown .. | .cameraFrameEnd .. | .cameraWriteAck .. | .partnerCamera .. => [.clock, .free, .log, .net, .jobs,
    .cams, .cal, .pair]
  | .cameraRetry .. | .cameraPacket .. => [.clock, .cams]
  | .holdCurrentDelay .. => [.clock, .axes]
  | .ringFrameReceived .. | .ringDelayExchange .. | .discover .. | .joinGrant .. | .joinHello .. | .eject .. |
    .leaveReq .. | .roll .. | .origin .. | .runArmedFrame .. | .cascadeArmed .. | .slotReady .. | .ringRelease .. |
    .ringNotReady .. | .cascadeStop .. | .ringImageBlock .. | .imageAck .. | .heartbeat .. | .heartbeatMissed .. |
    .pairWaitExpiry .. | .reclaimWaitExpiry .. | .order .. | .partnerSegment .. => [.clock, .free, .mod, .power,
    .flash, .conf, .update, .log, .thermal, .gov, .net, .jobs, .render, .mem, .pos, .fire, .links, .cams, .cal, .time,
    .axes, .ring, .pair, .loops]
  | .ringFrameResend .. | .ringTimeSend .. | .discoverSend .. | .ringAttnAsserted .. | .originSend .. => [.clock,
    .ring]
  | .kingListenExpiry .. | .bypassOpenTime .. => [.clock, .log, .net, .ring]
  | .joinHelloTimeout .. => [.clock, .free, .ring]
  | .ringMemberLost .. => [.clock, .update, .log, .net, .ring]
  | .relayAckDue .. => [.clock, .update, .ring]
  | .heartbeatDue .. | .resendReq .. => [.clock, .pair]
  | .tokenGapTimeout .. | .catchupDone .. => [.clock, .log, .net, .cal, .pair]
  | .copy .. => [.clock, .free, .log, .net, .jobs, .fire, .cal, .pair]
  | .signature .. => [.clock, .log, .net, .jobs, .cal, .pair]
  | .flashRecordWritten .. => [.clock, .flash, .update, .log, .net, .cal]
  | .pllRelock .. => [.clock, .fire, .links]

/-- The groups that the messages of the host may write, all together. -/
def messagesWrite : List Group :=
  [.clock, .free, .mod, .power, .flash, .conf, .update, .log, .thermal, .gov, .net, .jobs, .render, .mem, .pos, .fire, .links,
    .cams, .cal, .time, .axes, .ring, .pair, .loops]

/-- The command is a message of the host or a segment, after which messages that waited for their turn may be applied (R76). -/
def mayRelease (c : Instr) : Bool :=
  (messageOf c).isSome || match c with
    | .dptSegmentReceived .. => true
    | _ => false

/-- The groups that a command may write in a state. -/
def writesIn (c : Instr) (s : State) : List Group :=
  if mayRelease c && waitingCount s ≠ 0 then messagesWrite else mayWrite c

end Sys2Proof.Machine
end

