-- ==== Sys2Proof/Certificates/Slice0/Obligations.lean ====
section
/-! DEFINITION. The statements for the provers, family by family. Each completion statement names, for every command of its
title, a condition on the state and the operands under which the command answers a next state, and what that state holds. -/
open Sys2Proof Sys2Proof.Machine

/-! ### The block as a whole -/

/-- A step takes the command at the front of the queue and answers what `exec` answers with the queue's rest. -/
def Obligations.StepRunsTheFront : Prop :=
  ∀ (c : Instr) (rest : List Instr) (s : State), s.pending = c :: rest → step s = exec c { s with pending := rest }

/-- The invariant holds in the module as it is before any command. Before power good the module is OFF: no register of the
memory, the sessions or the run holds anything, nothing is driven (R19); the latch and the record of the hot-swap controller
are clear. -/
def Obligations.ResetInvariant : Prop :=
  Inv State.reset ∧
  State.reset.mod.state = .off ∧ State.reset.pending = [] ∧ State.reset.net.results = [] ∧ State.reset.jobs.surfaces = [] ∧
    State.reset.jobs.pages = [] ∧ State.reset.jobs.runs = [] ∧ State.reset.jobs.armed = none ∧ State.reset.log.events = [] ∧
    State.reset.log.nextSeq = 0 ∧ State.reset.power.shutdownLatch = false ∧ State.reset.conf.inForce = false ∧
    (∀ x ∈ State.reset.net.sessions, x.id = 0) ∧ (∀ x ∈ State.reset.time.outs, x.level = false ∧ x.prog = none)

/-- Every step keeps the invariant: the raw counter never runs backwards, and the event log holds at most 256 events, each of
16 bytes of detail, numbered one after the other up to the next number. -/
def Obligations.StepKeepsInvariant : Prop :=
  ∀ s n : State, Inv s → step s = .next n → Inv n

/-- Every command in every state answers a next state, with no fault and no refusal; the clock does not run backwards, and
every group of registers outside the list that `writesIn` gives the command is left as it was, the queue and
one-time-programmable memory among them. -/
def Obligations.FrameOfEveryCommand : Prop :=
  ∀ (c : Instr) (s : State), ∃ n, exec c s = .next n ∧ s.now ≤ n.now ∧ Only (writesIn c s) s n

/-! ### Power and start (19_power_and_start.md) -/

/-- POWER_GOOD in OFF, with the input between 39.0 V and 60.0 V, the shutdown latch clear and 10 ms past a watchdog reset:
BOOT, the raw counter at 0, the straps latched; straps whose parity fails give position 3, side 1 (R419, R547, R550, R559,
R560, R565, R566). One-time-programmable memory and flash stand. The 10 ms and the values of straps whose parity fails are the
model's readings (log entries 6 and 7). -/
def Obligations.PowerGoodStarts : Prop :=
  ∀ (t straps mv : Nat) (s : State), s.mod.state = .off → 39000 ≤ mv → mv ≤ 60000 → s.power.shutdownLatch = false →
    (∀ w, s.power.watchdogUntil = some w → w + msT 10 ≤ max s.now t) →
    Completes (.powerGood t straps mv) s fun n =>
      n.mod.state = .boot ∧ n.rawOrigin = n.now ∧ n.now = max s.now t ∧ n.power.strapValid = strapsOdd straps ∧
      n.power.position = (if strapsOdd straps then straps % 4 else 3) ∧
      n.power.side = (if strapsOdd straps then straps / 4 % 2 else 1) ∧ n.power.domainsOn = [0] ∧
      n.otp = s.otp ∧ n.flash = s.flash

/-- POWER_GOOD_LOST and WATCHDOG_EXPIRY: the module is OFF, and the hot-swap controller's record keeps the cause; a watchdog
reset is counted, and the end of a start by a domain's fault counts for that domain (R551, R552, R555, R559, R560). The flash
stands. SLOT_RESET_N and the watchdog have no effect in SHUTDOWN (R560): only the clock moves. -/
def Obligations.PowerGoodLostGoesOff : Prop :=
  (∀ (t domain : Nat) (cause : OffCause) (s : State), s.mod.state ≠ .off → cause ≠ .domainFault →
    (s.mod.state = .shutdown → cause ≠ .slotReset ∧ cause ≠ .watchdog) →
    Completes (.powerGoodLost t cause domain) s fun n =>
      n.mod.state = .off ∧ n.power.lastOffCause = offCode cause ∧ n.flash = s.flash ∧ n.otp = s.otp ∧
      n.power.watchdogResets =
        (if cause = .watchdog then wrapInc 16 s.power.watchdogResets else s.power.watchdogResets)) ∧
  (∀ (t domain : Nat) (s : State), s.mod.state ≠ .off → 1 ≤ domain → domain < 10 → domainOn s domain = true →
    Completes (.powerGoodLost t .domainFault domain) s fun n =>
      n.mod.state = .off ∧ n.power.lastOffCause = 9 ∧ n.power.faultDomain = domain ∧
      n.power.faultCounts.getD domain 0 = s.power.faultCounts.getD domain 0 + 1) ∧
  (∀ (t : Nat) (s : State), s.mod.state ≠ .off → s.mod.state ≠ .shutdown →
    Completes (.watchdogExpiry t) s fun n =>
      n.mod.state = .off ∧ n.power.lastOffCause = 5 ∧ n.power.watchdogResets = wrapInc 16 s.power.watchdogResets ∧
      n.power.watchdogUntil = some n.now) ∧
  (∀ (t domain : Nat) (s : State), s.mod.state = .shutdown →
    exec (.powerGoodLost t .slotReset domain) s = .next (beginAt t s) ∧
    exec (.powerGoodLost t .watchdog domain) s = .next (beginAt t s) ∧ exec (.watchdogExpiry t) s = .next (beginAt t s))

/-- INPUT_LOW below 40.0 V raises event 0x0121 with the input in mV, once; above 41.0 V it arms again (R548).
SHUTDOWN_LATCH_CLEAR ends SHUTDOWN in OFF with the latch clear (R560). -/
def Obligations.InputLowAndLatch : Prop :=
  (∀ (t mv : Nat) (s : State), s.mod.state ≠ .off → mv < 40000 → s.power.inputLowRaised = false →
    Completes (.inputLow t mv) s fun n =>
      RaisedNext s 0x0121 (leBytes 4 mv) n ∧ n.power.inputLowRaised = true ∧ n.power.inputMv = mv ∧
      Only [.clock, .power, .log, .net] s n) ∧
  (∀ (t mv : Nat) (s : State), s.mod.state ≠ .off → mv < 40000 → s.power.inputLowRaised = true →
    Completes (.inputLow t mv) s fun n => n.log = s.log ∧ Only [.clock, .power] s n) ∧
  (∀ (t mv : Nat) (s : State), s.mod.state ≠ .off → 41000 < mv →
    Completes (.inputLow t mv) s fun n => n.power.inputLowRaised = false ∧ Only [.clock, .power] s n) ∧
  (∀ (t : Nat) (removed : Bool) (s : State), s.mod.state = .shutdown →
    Completes (.shutdownLatchClear t removed) s fun n =>
      n.mod.state = .off ∧ n.power.shutdownLatch = false ∧ n.flash = s.flash)

/-- BOOT_SELECT with a confirmed record starts the selected slot where it is confirmed and passes every check, else the other
one where that does: CONFIG, on that slot, no trial; with neither slot bootable the boot ROM serves MAINTENANCE (R591, R592).
The order of the checks of a slot is the model's reading (log entry 11). -/
def Obligations.BootSelects : Prop :=
  ∀ (t : Nat) (s : State), s.mod.state = .boot → (bootRec s).confirmed = true →
    Completes (.bootSelect t) s fun n =>
      (slotState s (bootRec s).selected = 4 → bootCheck s (slotBytes s (bootRec s).selected) = none →
        n.mod.state = .config ∧ n.update.runningSlot = (bootRec s).selected ∧ n.update.trial = false ∧
        n.update.digest = bundleDigest (slotBytes s (bootRec s).selected) ∧ n.flash = s.flash) ∧
      (bootable s (bootRec s).selected = false → bootable s (otherSlot (bootRec s).selected) = true →
        bootCheck s (slotBytes s (otherSlot (bootRec s).selected)) = none →
        n.mod.state = .config ∧ n.update.runningSlot = otherSlot (bootRec s).selected ∧ n.update.trial = false) ∧
      (bootable s (bootRec s).selected = false → bootable s (otherSlot (bootRec s).selected) = false →
        n.mod.state = .maintenance ∧ n.mod.romServed = true)

/-- CONFIG_READ decides what CONFIG leads to (R20, R520, R522, R528). With no copy that passes its checks it is MAINTENANCE,
and each copy that fails raises event 0x0F21 with its area and cause. With a copy in a running format whose helpers are those
of the bundle, the reading of that copy comes in force and the module is in TRAIN; so it is with an older copy, of which the
migrated copy is in flash or is made now and written to both areas (R543, R544). A migration that fails rejects the running
slot and is BOOT (R545); a helper that does not match rejects it too, selects the other slot, and lets the watchdog run out
(R594). -/
def Obligations.ConfigReadDecides : Prop :=
  (∀ (t : Nat) (s : State), s.mod.state = .config → s.mod.watchdogStopped = false → installedCopy s = none →
    Completes (.configRead t) s fun n =>
      n.mod.state = .maintenance ∧ (s.conf.inForce = false → n.mod.defaultAddress = true ∧ n.conf.inForce = false) ∧
      n.flash = s.flash ∧ (s.power.atStart.length ≤ 200 →
        ∀ k, k < 2 → ∀ f, areaFault s k = some f → Raised 0x0F21 (leBytes 1 k ++ leBytes 1 f) n)) ∧
  (∀ (t : Nat) (c : Nat × Area) (s : State), s.mod.state = .config → s.mod.watchdogStopped = false →
    installedCopy s = some c → olderFormat c.2.image = false →
    badHelper s (fun d => (switchedOn s (readConfig s false c.2.image).cfg).contains d) = none →
    Completes (.configRead t) s fun n =>
      n.mod.state = .train ∧ n.conf.inForce = true ∧ n.conf.cfg = (readConfig s false c.2.image).cfg ∧
      n.conf.area = c.1 ∧ n.conf.migrated = false ∧ n.conf.sequence = c.2.seq ∧ n.conf.format = imgFormat c.2.image ∧
      n.flash = s.flash) ∧
  (∀ (t : Nat) (c : Nat × Area) (m : Nat × List Byte) (s : State), s.mod.state = .config → s.mod.watchdogStopped = false →
    installedCopy s = some c → olderFormat c.2.image = true → migratedCopy s c.2.image = some m →
    badHelper s (fun d => (switchedOn s (readConfig s true m.2).cfg).contains d) = none →
    Completes (.configRead t) s fun n =>
      n.mod.state = .train ∧ n.conf.inForce = true ∧ n.conf.cfg = (readConfig s true m.2).cfg ∧ n.conf.area = m.1 ∧
      n.conf.migrated = true ∧ n.flash = s.flash) ∧
  (∀ (t : Nat) (c : Nat × Area) (s : State), s.mod.state = .config → s.mod.watchdogStopped = false → TwoSlots s →
    s.update.runningSlot < 2 → installedCopy s = some c → olderFormat c.2.image = true → migratedCopy s c.2.image = none →
    Completes (.configRead t) s fun n =>
      (∀ img, migrateImage s c.2.image = .ok img →
        badHelper s (fun d => (switchedOn s (readConfig s true img).cfg).contains d) = none →
        n.mod.state = .train ∧ n.conf.inForce = true ∧ n.conf.cfg = (readConfig s true img).cfg ∧ n.conf.area = 2 ∧
        n.conf.migrated = true ∧ n.flash = { s.flash with areas :=
          (s.flash.areas.set 2 (some (sealed img c.2.seq))).set 3 (some (sealed img c.2.seq)) }) ∧
      (∀ f, migrateImage s c.2.image = .error f →
        n.mod.state = .boot ∧ slotState n s.update.runningSlot = 5 ∧
        (bootRec n).selected = otherSlot s.update.runningSlot ∧ (bootRec n).confirmed = true)) ∧
  (∀ (t k : Nat) (c : Nat × Area) (s : State), s.mod.state = .config → s.mod.watchdogStopped = false → TwoSlots s →
    s.update.runningSlot < 2 → installedCopy s = some c → olderFormat c.2.image = false →
    badHelper s (fun d => (switchedOn s (readConfig s false c.2.image).cfg).contains d) = some k →
    Completes (.configRead t) s fun n =>
      n.mod.state = .config ∧ n.mod.watchdogStopped = true ∧ slotState n s.update.runningSlot = 5 ∧
      (bootRec n).selected = otherSlot s.update.runningSlot ∧
      (0x0F34, leBytes 1 s.update.runningSlot ++ leBytes 1 k) ∈ n.power.atStart)

/-- TRAINING_DONE verifies or trains one channel; MEMORY_INITIALISED and CODEC_SELFTEST follow; the last of the three brings
IDLE. A codec that fails its self-verification is MAINTENANCE, with event 0x0810 for each failing vector (R20, R215, R216,
R243, R245, R246, R557); a channel that reuses its training takes the values of the valid record. -/
def Obligations.TrainingEnds : Prop :=
  (∀ (t ch : Nat) (ids : List Nat) (dts : List Int) (s : State), s.mod.state = .train → ch < 4 →
    s.mem.trained.getD ch true = false → domainOn s 7 = true → s.mem.mode = some 1 → s.mem.initialised = false →
    Completes (.trainingDone t ch ids dts .trained) s fun n =>
      n.mod.state = .train ∧ n.mem.trained = s.mem.trained.set ch true ∧ n.mem.devIds = s.mem.devIds.set ch ids ∧
      Only [.clock, .mem, .free] s n) ∧
  (∀ (t ch : Nat) (ids : List Nat) (dts : List Int) (r : TrainRecord) (s : State), s.mod.state = .train → ch < 4 →
    s.mem.trained.getD ch true = false → domainOn s 7 = true → s.mem.mode.getD 0 = 0 → reuseFailure s ch ids dts = none →
    trainRecord s = some r → s.mem.initialised = false →
    Completes (.trainingDone t ch ids dts .verified) s fun n =>
      n.mod.state = .train ∧ n.mem.mode = some 0 ∧ n.mem.trained = s.mem.trained.set ch true ∧
      n.mem.values = s.mem.values.set ch (r.values.getD ch 0) ∧ Only [.clock, .mem, .free] s n) ∧
  (∀ (t : Nat) (s : State), s.mod.state = .train → memTrained s = true → s.mem.initialised = false →
    s.render.selftestPassed = false →
    Completes (.memoryInitialised t) s fun n => n.mem.initialised = true ∧ n.mod = s.mod ∧ Only [.clock, .mem] s n) ∧
  (∀ (t : Nat) (results : List VectorResult) (s : State), s.mod.state = .train → memTrained s = true →
    s.mem.initialised = true → s.render.selftestPassed = false → domainOn s 5 = true → domainOn s 6 = true →
    (∀ x ∈ results, vectorMatches x = true) →
    Completes (.codecSelftest t results) s fun n => n.mod.state = .idle ∧ n.render.selftestPassed = true) ∧
  (∀ (t : Nat) (x : VectorResult) (s : State), s.mod.state = .train → s.render.selftestPassed = false →
    vectorMatches x = false → s.power.atStart.length ≤ 200 →
    Completes (.codecSelftest t [x]) s fun n =>
      n.mod.state = .maintenance ∧ RaisedNext s 0x0810 (leBytes 1 x.kind ++ leBytes 2 x.engine ++ leBytes 1 x.vector) n)

/-! ### Heat and speed (20_thermal.md, 02_self_timed_engine.md) -/

/-- THERMAL_SAMPLE takes a sample of every reading; one that finds a reading at its shutdown threshold is SHUTDOWN, with the
latch set and the record pending (R572, R582, R583). BLITZ_OFF ends a blitz that has been cool for 1 s (R573). The shutdown
record goes to flash over its older copy, and its event is kept for the next start (R583). What else a sample does around
SHUTDOWN is the model's reading (log entry 38). -/
def Obligations.ThermalActs : Prop :=
  (∀ (t : Nat) (conv : List SensorConv) (r : ShutdownRecord) (s : State), s.mod.state ≠ .off → s.mod.state ≠ .shutdown →
    shutdownFinding { beginAt t s with thermal := { s.thermal with
      sensors := s.thermal.sensors.zipIdx.map fun p => sampleOne (beginAt t s) conv p.2 p.1 } } = some r →
    Completes (.thermalSample t conv) s fun n =>
      n.mod.state = .shutdown ∧ n.power.shutdownLatch = true ∧ n.thermal.recordPending = some r ∧ n.power.domainsOn = [0] ∧
      n.flash = s.flash) ∧
  (∀ (t : Nat) (conv : List SensorConv) (s : State), s.mod.state ≠ .off →
    shutdownFinding { beginAt t s with thermal := { s.thermal with
      sensors := s.thermal.sensors.zipIdx.map fun p => sampleOne (beginAt t s) conv p.2 p.1 } } = none →
    Completes (.thermalSample t conv) s fun n =>
      n.thermal.sensors = (s.thermal.sensors.zipIdx.map fun p => sampleOne (beginAt t s) conv p.2 p.1) ∧
      n.thermal.recordPending = s.thermal.recordPending ∧ n.flash = s.flash ∧ n.mem.trained = s.mem.trained ∧
      n.monitors = s.monitors) ∧
  (∀ (t since : Nat) (s : State), s.thermal.blitz = true → s.thermal.coolSince = some since → since + secT 1 ≤ t →
    Completes (.blitzOff t) s fun n =>
      n.thermal = { s.thermal with blitz := false } ∧ RaisedNext s 0x0146 [] n ∧ Only [.clock, .thermal, .log, .net] s n) ∧
  (∀ (t : Nat) (r : ShutdownRecord) (s : State), s.thermal.recordPending = some r → s.flash.shutdown.length = 2 →
    Completes (.shutdownRecordWritten t) s fun n =>
      some r ∈ n.flash.shutdown ∧ n.thermal.record = some r ∧ n.thermal.recordPending = none ∧
      (0x0147, leBytes 1 r.reading ++ sgBytes 2 r.value ++ leBytes 1 r.cause ++ stampNative r.time) ∈ n.power.atStart ∧
      Only [.clock, .power, .flash, .thermal] s n)

/-- SPEED_MONITOR_WINDOW: the index is 4096 times the count over the count at the slow corner; two windows in a row below the
floor are SHUTDOWN (R33, R38). GOVERNOR_PERIOD under throttle: the step comes down by one each period, and at step 0 the render
duty does; with no throttle a reduced duty rises by one (R43, R47). AT_LIMIT ends in whichever period finds need below the
capacity (R45). A disabled governor stands at step 0 (R47); an infinite demand takes one step up (R44). -/
def Obligations.MonitorsAndGovernor : Prop :=
  (∀ (t mon count : Nat) (s : State), s.mod.state ≠ .off → s.power.domainsOn.contains (monitorDomain mon) = true → 14 ≤ mon →
    mon < s.monitors.length → 3686 ≤ min 65535 (4096 * count / max 1 (s.otp.slowCount.getD mon 4096)) →
    min 65535 (4096 * count / max 1 (s.otp.slowCount.getD mon 4096)) ≤ 10240 → (s.monitors.getD mon {}).valid = true →
    Completes (.speedMonitorWindow t mon count) s fun n =>
      n.monitors = s.monitors.set mon
        { index := min 65535 (4096 * count / max 1 (s.otp.slowCount.getD mon 4096)), doneAt := some n.now, valid := true
          belowFloor := 0 } ∧ Only [.clock, .monitors] s n) ∧
  (∀ (t mon count : Nat) (s : State), s.mod.state ≠ .off → s.mod.state ≠ .shutdown →
    s.power.domainsOn.contains (monitorDomain mon) = true → 14 ≤ mon → (s.monitors.getD mon {}).belowFloor = 1 →
    2048 ≤ 4096 * count / max 1 (s.otp.slowCount.getD mon 4096) → 4096 * count / max 1 (s.otp.slowCount.getD mon 4096) < 3686 →
    Completes (.speedMonitorWindow t mon count) s fun n =>
      n.mod.state = .shutdown ∧ n.power.shutdownLatch = true ∧ n.thermal.recordPending.isSome = true) ∧
  (∀ (t : Nat) (s : State), s.gov.running = true → s.thermal.throttle = true → 0 < s.gov.step →
    Completes (.governorPeriod t) s fun n =>
      n.gov.step = s.gov.step - 1 ∧ n.gov.renderDuty = s.gov.renderDuty ∧ n.gov.stepsTaken = wrapInc 16 s.gov.stepsTaken ∧
      Only [.clock, .gov, .jobs, .log, .net, .pair] s n) ∧
  (∀ (t : Nat) (s : State), s.gov.running = true → s.thermal.throttle = true → s.gov.step = 0 →
    Completes (.governorPeriod t) s fun n =>
      n.gov = { s.gov with
        hold := 0, renderDuty := s.gov.renderDuty - 1
        atLimit := !needMet (beginAt t s) && s.gov.atLimit } ∧ Only [.clock, .gov, .jobs, .log, .net] s n) ∧
  (∀ (t : Nat) (s : State), s.gov.running = true → s.thermal.throttle = false → s.gov.renderDuty < 8 →
    Completes (.governorPeriod t) s fun n =>
      n.gov = { s.gov with
        renderDuty := s.gov.renderDuty + 1, hold := 0
        atLimit := !needMet (beginAt t s) && s.gov.atLimit } ∧ Only [.clock, .gov, .jobs, .log, .net] s n) ∧
  (∀ (t : Nat) (s : State), s.gov.running = true → s.thermal.throttle = false → 8 ≤ s.gov.renderDuty →
    cfgN s Fld.render_governor_enable 0 = 0 →
    Completes (.governorPeriod t) s fun n =>
      n.gov.step = 0 ∧ n.gov.hold = 0 ∧ n.gov.renderDuty = s.gov.renderDuty ∧ Only [.clock, .gov, .jobs, .log, .net] s n) ∧
  (∀ (t : Nat) (s : State), s.gov.running = true → s.thermal.throttle = false → 8 ≤ s.gov.renderDuty →
    cfgN s Fld.render_governor_enable 0 ≠ 0 → follows s = false → demandOf (trackedCosts (beginAt t s)) = none →
    s.gov.step < cfgN s Fld.render_governor_max_step 0 →
    Completes (.governorPeriod t) s fun n =>
      n.gov.step = s.gov.step + 1 ∧ n.gov.hold = 0 ∧ n.gov.stepsTaken = wrapInc 16 s.gov.stepsTaken ∧
      Only [.clock, .gov, .jobs, .log, .net, .pair] s n)

/-- R39: a monitor that becomes broken, by the index of a window (below 2,048 or above 10,240) or by two window times without
one, raises event 0x0130 once, with the monitor number; one that becomes valid again raises 0x0131. Of a render monitor that
falls silent, the render index without it joins those that the prediction goes by (R51). A broken monitor has no window below
the floor to its count, which is what the clause of the return rests on. -/
def Obligations.MonitorsBreakAndReturn : Prop :=
  (∀ (t mon count i : Nat) (s : State), s.mod.state ≠ .off → s.power.domainsOn.contains (monitorDomain mon) = true →
    mon < s.monitors.length → i = min 65535 (4096 * count / max 1 (s.otp.slowCount.getD mon 4096)) →
    ((s.monitors.getD mon {}).valid = true → i < 2048 ∨ 10240 < i →
      Completes (.speedMonitorWindow t mon count) s fun n =>
        (n.monitors.getD mon {}).valid = false ∧ (n.monitors.getD mon {}).index = i ∧ (n.monitors.getD mon {}).belowFloor = 0 ∧
        RaisedNext s 0x0130 (leBytes 2 mon) n) ∧
    ((s.monitors.getD mon {}).valid = false → i < 2048 ∨ 10240 < i →
      Completes (.speedMonitorWindow t mon count) s fun n =>
        (n.monitors.getD mon {}).valid = false ∧ ∀ e ∈ n.log.events, e.code = 0x0130 → e ∈ s.log.events) ∧
    ((s.monitors.getD mon {}).valid = false → (s.monitors.getD mon {}).belowFloor = 0 → 2048 ≤ i → i ≤ 10240 →
      Completes (.speedMonitorWindow t mon count) s fun n =>
        (n.monitors.getD mon {}).valid = true ∧ RaisedNext s 0x0131 (leBytes 2 mon) n)) ∧
  (∀ (t mon : Nat) (s : State), s.mod.state ≠ .off → s.power.domainsOn.contains (monitorDomain mon) = true →
    mon < s.monitors.length → ((s.monitors.getD mon {}).doneAt.getD s.rawOrigin) + 2 * windowT ≤ t →
    ((s.monitors.getD mon {}).valid = true → Completes (.speedMonitorBroken t mon) s fun n =>
      (n.monitors.getD mon {}).valid = false ∧ (n.monitors.getD mon {}).belowFloor = 0 ∧
      (n.monitors.getD mon {}).index = (s.monitors.getD mon {}).index ∧
      RaisedNext s 0x0130 (leBytes 2 mon) n ∧ (mon < 14 → n.gov.window64.head? = some (renderIndex n)) ∧
      Only [.clock, .monitors, .log, .net, .gov, .jobs] s n) ∧
    ((s.monitors.getD mon {}).valid = false → Completes (.speedMonitorBroken t mon) s fun n =>
      (n.monitors.getD mon {}).valid = false ∧ (∀ e ∈ n.log.events, e.code = 0x0130 → e ∈ s.log.events) ∧
      Only [.clock, .monitors, .log, .net, .gov, .jobs] s n))

/-! ### Network and sessions (03_host_transport.md) -/

/-- On a port that hears frames: a frame with a bad FCS is counted in fcs_errors only, any other discard in frames_rx and
discarded (R54); a request for one of the port's own addresses, and an echo request that fits, are answered (R55); a membership
query for a joined group is answered (*Table: Supported and unsupported network functions*). A port that gains its link raises
0x0214, one that loses it 0x0213 and counts it (R52); a port in mode 4 without block lock for 1 s tries the other speed (R53). -/
def Obligations.PortsAndFrames : Prop :=
  (∀ (t port : Nat) (s : State), portHears s port = true → s.net.ports.length = 2 →
    Completes (.networkFrameDiscarded t port .badFcs) s fun n =>
      portOf n port = { portOf s port with fcsErrors := wrapInc 16 (portOf s port).fcsErrors } ∧
      portOf n (1 - port) = portOf s (1 - port) ∧ Only [.clock, .net] s n) ∧
  (∀ (t port : Nat) (kind : DiscardKind) (s : State), portHears s port = true → s.net.ports.length = 2 → kind ≠ .badFcs →
    Completes (.networkFrameDiscarded t port kind) s fun n =>
      portOf n port = { portOf s port with
        framesRx := wrapInc 32 (portOf s port).framesRx, discarded := wrapInc 16 (portOf s port).discarded } ∧
      portOf n (1 - port) = portOf s (1 - port) ∧ Only [.clock, .net] s n) ∧
  (∀ (t port target sender : Nat) (ndp : Bool) (s : State), portHears s port = true → isSilent s = false →
    target ∈ portAddresses s port → isV6 target = ndp →
    Completes (.arpNdpRequest t port ndp target sender) s fun n =>
      n.sent = [.arpReply port target sender] ∧ n.net.sessions = s.net.sessions ∧ Only [.clock, .net] s n) ∧
  (∀ (t port sender : Nat) (v6 : Bool) (data : List Byte) (s : State), portHears s port = true → isSilent s = false →
    data.length + 8 + (if v6 then 40 else 20) ≤ cfgN s Fld.network_mtu 0 → (portOf s port).echoInSecond < 1000 →
    (∃ a ∈ portAddresses s port, isV6 a = v6) →
    Completes (.icmpEcho t port v6 sender data) s fun n =>
      n.sent = [.echoReply port sender data] ∧ n.net.sessions = s.net.sessions ∧ Only [.clock, .net] s n) ∧
  (∀ (t port group : Nat) (s : State), portHears s port = true → isSilent s = false → group ∈ portGroups s port →
    Completes (.igmpMldQuery t port (isV6 group) group) s fun n =>
      Out.membership port group ∈ n.sent ∧ Only [.clock, .net] s n) ∧
  (∀ (t port : Nat) (s : State), port < 2 → s.net.ports.length = 2 → s.power.domainsOn.contains 1 = true → portMode s port ≠ 0 →
    (portOf s port).linkUp = false →
    Completes (.portLinkChange t port true) s fun n =>
      (portOf n port).linkUp = true ∧ (portOf n port).linkDowns = (portOf s port).linkDowns ∧
      RaisedNext s 0x0214 (leBytes 1 port) n ∧ Only [.clock, .net, .log] s n) ∧
  (∀ (t port : Nat) (s : State), port < 2 → s.net.ports.length = 2 → s.power.domainsOn.contains 1 = true → portMode s port ≠ 0 →
    (portOf s port).linkUp = true →
    Completes (.portLinkChange t port false) s fun n =>
      (portOf n port).linkUp = false ∧ (portOf n port).modeActive = 0 ∧
      (portOf n port).linkDowns = wrapInc 16 (portOf s port).linkDowns ∧ RaisedNext s 0x0213 (leBytes 1 port) n ∧
      Only [.clock, .net, .log] s n) ∧
  (∀ (t port : Nat) (s : State), port < 2 → s.net.ports.length = 2 → s.power.domainsOn.contains 1 = true → portMode s port = 4 →
    (portOf s port).linkUp = false → (portOf s port).tryingSince + secT 1 ≤ t →
    Completes (.portSpeedAlternate t port) s fun n =>
      portOf n port = { portOf s port with
        trying := if (portOf s port).trying = 1 then 3 else 1, tryingSince := n.now } ∧
      portOf n (1 - port) = portOf s (1 - port) ∧ n.net.sessions = s.net.sessions ∧ Only [.clock, .net] s n)

/-- A segment of an open session that is next in sequence and within the window last advertised, its MAC as security.dpt_auth
asks, is acknowledged up to its number, and the session has been heard, to whose port and address the module sends from now on
(R57, R63, R64, R73, R92). One that has arrived before is acknowledged again, and discarded (R65); one past the window is
discarded and counted (R63); one with a wrong MAC is counted for its session, and discarded (R95). A datagram shorter than the
DPT header, and one to another UDP port, is discarded and counted (R54, R56, R61). -/
def Obligations.SegmentsArrive : Prop :=
  (∀ (t port addr i : Nat) (group : Bool) (udp : List Byte) (s : State), portHears s port = true → isSilent s = false →
    waitingCount s = 0 → 32 ≤ udp.length → fld udp 0 2 = 0x5444 → fld udp 2 1 / 16 = 2 →
    udp.length = 32 + fld udp 22 2 + (if (fld udp 4 2).testBit 2 then 16 else 0) → sessionIdx s (fld udp 6 2) = some i →
    hostMay s i addr = true →
    macOk s (sessionOf s i).key (udp.take (32 + fld udp 22 2)) ((fld udp 4 2).testBit 2) (udp.drop (32 + fld udp 22 2)) = true →
    (fld udp 3 1 ≠ 0x04 → fld udp 3 1 ≠ 0x05 → (sessionOf s i).rxAhead = [] → (sessionOf s i).rxAck < 2 ^ 32 →
      fld udp 8 4 = ((sessionOf s i).rxAck + 1) % 2 ^ 32 → inWindow (sessionOf s i) (fld udp 8 4) = true →
      Completes (.dptSegmentReceived t port addr ⟨group, udpPort s⟩ udp) s fun n =>
        (sessionOf n i).rxAck = fld udp 8 4 ∧ (sessionOf n i).lastRx = n.now ∧ (sessionOf n i).port = port ∧
        (sessionOf n i).addr = addr ∧ (sessionOf n i).toGroup = group ∧ Only [.clock, .net, .pair, .log] s n) ∧
    (fld udp 3 1 ≠ 0x04 → fld udp 3 1 ≠ 0x05 → (sessionOf s i).rxAck < 2 ^ 32 → fld udp 8 4 = (sessionOf s i).rxAck →
      transmits s group = true →
      Completes (.dptSegmentReceived t port addr ⟨group, udpPort s⟩ udp) s fun n =>
        (∃ d, Out.datagram (sessionOf s i).port (sessionOf s i).addr d ∈ n.sent ∧ fld d 3 1 = 0x05 ∧
          fld d 12 4 = (sessionOf s i).rxAck) ∧
        (sessionOf n i).rxAck = (sessionOf s i).rxAck ∧ (sessionOf n i).rx = (sessionOf s i).rx ∧
        (sessionOf n i).lastRx = n.now ∧ Only [.clock, .net, .pair] s n) ∧
    (fld udp 3 1 ≠ 0x04 → fld udp 3 1 ≠ 0x05 → (sessionOf s i).rxAhead = [] → (sessionOf s i).rxAck < 2 ^ 32 →
      (fld udp 8 4 + 2 ^ 32 - (sessionOf s i).rxAck) % 2 ^ 32 < 2 ^ 31 → fld udp 8 4 ≠ (sessionOf s i).rxAck →
      inWindow (sessionOf s i) (fld udp 8 4) = false →
      Completes (.dptSegmentReceived t port addr ⟨group, udpPort s⟩ udp) s fun n =>
        (sessionOf n i).overCredit = wrapInc 16 (sessionOf s i).overCredit ∧ (sessionOf n i).rxAck = (sessionOf s i).rxAck ∧
        (sessionOf n i).rx = (sessionOf s i).rx ∧ (sessionOf n i).rxAhead = [] ∧ Only [.clock, .net, .pair] s n)) ∧
  (∀ (t port addr i : Nat) (group : Bool) (udp : List Byte) (s : State), portHears s port = true → isSilent s = false →
    waitingCount s = 0 → 32 ≤ udp.length → fld udp 0 2 = 0x5444 → fld udp 2 1 / 16 = 2 → (fld udp 4 2).testBit 2 = true →
    udp.length = 48 + fld udp 22 2 → sessionIdx s (fld udp 6 2) = some i → hostMay s i addr = true →
    macOk s (sessionOf s i).key (udp.take (32 + fld udp 22 2)) true (udp.drop (32 + fld udp 22 2)) = false →
    Completes (.dptSegmentReceived t port addr ⟨group, udpPort s⟩ udp) s fun n =>
      (sessionOf n i).authFailures = wrapInc 16 (sessionOf s i).authFailures ∧ (sessionOf n i).rxAck = (sessionOf s i).rxAck ∧
      (sessionOf n i).rx = (sessionOf s i).rx ∧ (sessionOf n i).lastRx = (sessionOf s i).lastRx ∧ Only [.clock, .net, .log] s n) ∧
  (∀ (t port addr dport : Nat) (group : Bool) (udp : List Byte) (s : State), portHears s port = true → isSilent s = false →
    waitingCount s = 0 → s.net.ports.length = 2 → udp.length < 32 ∨ dport ≠ udpPort s →
    Completes (.dptSegmentReceived t port addr ⟨group, dport⟩ udp) s fun n =>
      (portOf n port).discarded = wrapInc 16 (portOf s port).discarded ∧ n.net.sessions = s.net.sessions ∧ n.sent = [] ∧
      Only [.clock, .net] s n)

/-- The acknowledgement timers: an ACK after ack_delay (R64), an ACK when the credit reopens (R66), KEEPALIVE after a quarter
of the session's time (R72). Each concerns one session and sends one segment, which uses no sequence number (R62). A segment
unacknowledged for its interval goes out again, with the present acknowledgement, and is counted; after the last retry, and
after a silent session_timeout, the session closes (R64, R68, R72, R74). -/
def Obligations.SessionTimers : Prop :=
  (∀ (t i f : Nat) (s : State), sessionIdx s (sessionOf s i).id = some i → transmits s (sessionOf s i).toGroup = true →
    (sessionOf s i).firstUnacked = some f → f + usT (cfgN s Fld.network_ack_delay 0) ≤ t →
    Completes (.ackDelayExpiry t (sessionOf s i).id) s fun n =>
      SendsSegment s i (creditNow s (sessionOf s i)) (bareSegment 0x05 (sessionOf s i)) n ∧
      sessionOf n i = advertise n.now (creditNow s (sessionOf s i)) (sessionOf s i) ∧ Only [.clock, .net] s n) ∧
  (∀ (t i credit : Nat) (s : State), sessionIdx s (sessionOf s i).id = some i → speaks s (sessionOf s i) = true →
    (sessionOf s i).credit = 0 → 0 < credit → credit ≤ creditNow s (sessionOf s i) →
    Completes (.creditReopened t (sessionOf s i).id credit) s fun n =>
      SendsSegment s i credit (bareSegment 0x05 (sessionOf s i)) n ∧
      sessionOf n i = advertise n.now credit (sessionOf s i) ∧ Only [.clock, .net] s n) ∧
  (∀ (t i : Nat) (s : State), sessionIdx s (sessionOf s i).id = some i → speaks s (sessionOf s i) = true →
    (sessionOf s i).lastTx + msT (cfgN s Fld.network_session_timeout 0) / 4 ≤ t →
    Completes (.keepaliveDue t (sessionOf s i).id) s fun n =>
      SendsSegment s i (creditNow s (sessionOf s i)) (bareSegment 0x04 (sessionOf s i)) n ∧
      sessionOf n i = advertise n.now (creditNow s (sessionOf s i)) (sessionOf s i) ∧ Only [.clock, .net] s n) ∧
  (∀ (t i seq : Nat) (x : TxSeg) (s : State), sessionIdx s (sessionOf s i).id = some i → speaks s (sessionOf s i) = true →
    (sessionOf s i).tx.find? (fun y => y.seq = seq) = some x →
    x.sentAt + usT (cfgN s Fld.network_dpt_rto 0) * 2 ^ x.tries ≤ t → x.tries < cfgN s Fld.network_dpt_retries 0 →
    Completes (.dptRtoExpiry t (sessionOf s i).id seq) s fun n =>
      SendsSegment s i (creditNow s (sessionOf s i)) x n ∧
      (sessionOf n i).tx.find? (fun y => y.seq = seq) = some { x with tries := x.tries + 1, sentAt := n.now } ∧
      (sessionOf n i).retransmits = wrapInc 16 (sessionOf s i).retransmits ∧ Only [.clock, .net] s n) ∧
  (∀ (t i seq : Nat) (x : TxSeg) (s : State), sessionIdx s (sessionOf s i).id = some i → speaks s (sessionOf s i) = true →
    (sessionOf s i).tx.find? (fun y => y.seq = seq) = some x →
    x.sentAt + usT (cfgN s Fld.network_dpt_rto 0) * 2 ^ x.tries ≤ t → cfgN s Fld.network_dpt_retries 0 ≤ x.tries →
    Completes (.dptRtoExpiry t (sessionOf s i).id seq) s fun n =>
      (sessionOf n i).id = 0 ∧ RaisedNext s 0x0210 [] n ∧ Only [.clock, .net, .log] s n) ∧
  (∀ (t i : Nat) (s : State), sessionIdx s (sessionOf s i).id = some i → speaks s (sessionOf s i) = true →
    (sessionOf s i).lastRx + msT (cfgN s Fld.network_session_timeout 0) ≤ t →
    Completes (.sessionTimeout t (sessionOf s i).id) s fun n =>
      (sessionOf n i).id = 0 ∧ Answers s i 0x03 (leBytes 2 1 ++ leBytes 2 0) n ∧
      n.net.results = s.net.results ∧ Only [.clock, .net] s n)

/-- SESSION_OPEN that none of its checks refuses, as OBSERVER or as CONTROL where no session holds it, opens a session in a
free entry and answers SESSION_ACCEPT (R69 to R71); one with a wrong MAC is counted and opens none (R95). SESSION_CLOSE frees
the entry (R74); KEEPALIVE and ACK keep the session alive, and an ACK drops the segments that it covers (R57, R62, R72). The
order of the checks of SESSION_OPEN is the model's reading (log entry 23). -/
def Obligations.SessionMessages : Prop :=
  (∀ (t port addr : Nat) (group : Bool) (header body udp : List Byte) (s : State), udp = header ++ body → isOpenDatagram udp = true →
    isSilent s = false → openRefused s udp = false → (group && follows s) = false → openedBy s (openPayload udp) = none →
    openError s (openMac s udp) (openPayload udp) = none → (fld (openPayload udp) 0 1 = 1 → controlIdx s = none) →
    s.net.sessions.length = 4 →
    Completes (.sessionOpen t port addr group header body) s fun n =>
      (∃ i, i < 4 ∧ (sessionOf s i).id = 0 ∧ (sessionOf n i).id ≠ 0 ∧
        (sessionOf n i).control = decide (fld (openPayload udp) 0 1 = 1) ∧ (sessionOf n i).port = port ∧
        (sessionOf n i).addr = addr ∧ (sessionOf n i).rxAck = fld (openPayload udp) 4 4 ∧ (sessionOf n i).group = group ∧
        (sessionOf n i).auth = (!authOff s && openMac s udp = some true) ∧
        (transmits s group = true → ∃ body, Answers n i 0x02 body n) ∧ ∀ j, j ≠ i → sessionOf n j = sessionOf s j) ∧
      n.net.hosts.head? = some (addr, port) ∧ Only [.clock, .net, .free, .log, .pair] s n) ∧
  (∀ (t port addr : Nat) (group : Bool) (header body udp : List Byte) (s : State), udp = header ++ body →
    isOpenDatagram udp = true → isSilent s = false → openRefused s udp = true →
    Completes (.sessionOpen t port addr group header body) s fun n =>
      n.net.openFailures = wrapInc 16 s.net.openFailures ∧ openSessions n = openSessions s ∧ Only [.clock, .net, .log] s n) ∧
  (∀ (t i : Nat) (src : Src) (payload : List Byte) (s : State), Admitted t src 0x03 payload s i →
    Completes (.sessionClose t src payload) s fun n =>
      (sessionOf n i).id = 0 ∧ n.net.results = s.net.results ∧ Only [.clock, .net, .pair] s n) ∧
  (∀ (t i session : Nat) (s : State), sessionIdx s session = some i →
    exec (.keepalive t session) s =
      .next (modSession i (fun e => { e with lastRx := max s.now t }) { s with now := max s.now t, sent := [] })) ∧
  (∀ (t i session ack sack credit : Nat) (s : State), sessionIdx s session = some i →
    Completes (.ack t session ack sack credit) s fun n =>
      (sessionOf n i).tx = (sessionOf s i).tx.filter (fun x => !ackCovers ack sack x.seq) ∧ (sessionOf n i).lastRx = n.now ∧
      (∀ j, j ≠ i → sessionOf n j = sessionOf s j) ∧ Only [.clock, .net] s n)

/-- A message of a type that the host may not send is answered with REJECT UNKNOWN_TYPE, and has no other effect (R84). An
OBSERVER session may not define a surface: REJECT WRONG_ROLE, and nothing is defined (R79, R82). RESTART_REQ on a module
outside the ring is BOOT, with every session closed (R561); MAINTENANCE_REQ is MAINTENANCE (R20). A joined module waits for its
leave in the state that it has, each of RESTART_REQ's sessions closed (R488). -/
def Obligations.RejectsRestartsMaintenance : Prop :=
  (∀ (t i type : Nat) (src : Src) (s : State), hostTypes.contains type = false → Admitted t src type [] s i →
    transmits s src.group = true →
    Completes (.unknownType t src type) s fun n =>
      Answers s i 0x06 (leBytes 4 src.msg ++ leBytes 1 type ++ leBytes 1 0 ++ leBytes 2 0x0001 ++ leBytes 4 0) n ∧
      Only [.clock, .net, .pair] s n) ∧
  (∀ (t i : Nat) (src : Src) (payload : List Byte) (s : State), sessionIdx s src.session = some i → isSilent s = false →
    src.group = false → goesFirst (beginAt t s) src.session = true → isItsTurn (sessionOf s i) 0x20 src.msg = true →
    waitingCount s = 0 → (sessionOf s i).control = false →
    Completes (.surfaceDefine t src payload) s fun n =>
      Answers s i 0x06 (leBytes 4 src.msg ++ leBytes 1 0x20 ++ leBytes 1 0 ++ leBytes 2 0x0004 ++ leBytes 4 0) n ∧
      Only [.clock, .net] s n) ∧
  (∀ (t i : Nat) (src : Src) (payload : List Byte) (s : State), Admitted t src 0x09 payload s i → s.ring.state ≠ .king →
    s.ring.state ≠ .member →
    Completes (.restartReq t src payload) s fun n =>
      n.mod.state = .boot ∧ n.mod.restartMode = some (fld payload 0 1) ∧ openSessions n = [] ∧ n.rawOrigin = s.rawOrigin ∧
      n.flash = s.flash) ∧
  (∀ (t i : Nat) (src : Src) (s : State), Admitted t src 0x0A [] s i → s.ring.state ≠ .king → s.ring.state ≠ .member →
    Completes (.maintenanceReq t src) s fun n =>
      n.mod.state = .maintenance ∧ n.jobs.surfaces = s.jobs.surfaces ∧ n.net.results = s.net.results ∧ n.flash = s.flash) ∧
  (∀ (t i : Nat) (src : Src) (payload : List Byte) (s : State), Admitted t src 0x09 payload s i →
    s.ring.state = .member ∨ s.ring.state = .king → (s.ring.state = .king → ringInGap s = false) →
    Completes (.restartReq t src payload) s fun n =>
      n.mod = { s.mod with restartMode := some (fld payload 0 1) } ∧ openSessions n = [] ∧
      n.ring.leaving = some (true, n.now) ∧ n.ring.state = s.ring.state ∧ Only [.clock, .net, .pair, .mod, .ring] s n) ∧
  (∀ (t i : Nat) (src : Src) (s : State), Admitted t src 0x0A [] s i →
    s.ring.state = .member ∨ s.ring.state = .king → (s.ring.state = .king → ringInGap s = false) →
    Completes (.maintenanceReq t src) s fun n =>
      n.mod = s.mod ∧ n.ring.leaving = some (false, n.now) ∧ n.ring.state = s.ring.state ∧
      Only [.clock, .net, .pair, .ring] s n)

/-! ### Control, results, loop-backs -/

/-- RESULT_READ of a ready result sends RESULT READY with its body, and counts the read, a second one with REPEAT set; in
compatibility mode the result goes with its first read (R86, R87, R619). Of a pending one, with nothing queued that could end
it, it sends PENDING; of a ticket that is not held, RELEASED where it was issued, UNKNOWN otherwise (R86, R90). RESULT_RELEASE
takes a ready result away, and marks a pending one to go when it becomes ready; every other result stands (R88, R89, R620). -/
def Obligations.ResultsAreRead : Prop :=
  (∀ (t i : Nat) (src : Src) (payload : List Byte) (r : Result) (b : List Byte) (d : Int) (s : State),
    Admitted t src 0x40 payload s i → transmits s src.group = true →
    s.net.results.find? (fun x => x.ticket = fld payload 0 4) = some r → r.body = some b → r.time = some d →
    Completes (.resultRead t src payload) s fun n =>
      Only [.clock, .net, .pair] s n ∧
      (s.mod.compat = false →
        Answers s i 0x41 (resultPayload (fld payload 0 4) 1 (b2n r.repeated) (wrapInc 16 r.readCount) r.kind (stampNative d) b) n ∧
        n.net.results.find? (fun x => x.ticket = fld payload 0 4) =
          some { r with readCount := wrapInc 16 r.readCount, repeated := true }) ∧
      (s.mod.compat = true →
        Answers s i 0x41 (resultPayload (fld payload 0 4) 1 0 1 r.kind (stampLegacy d) b) n ∧
        ∀ x ∈ n.net.results, x.ticket = fld payload 0 4 → resultReady x = false)) ∧
  (∀ (t i : Nat) (src : Src) (payload : List Byte) (r : Result) (s : State),
    Admitted t src 0x40 payload s i → transmits s src.group = true → s.pending = [] →
    s.net.results.find? (fun x => x.ticket = fld payload 0 4) = some r →
    (∀ x ∈ s.net.results, x.ticket = fld payload 0 4 → resultReady x = false) →
    Completes (.resultRead t src payload) s fun n =>
      (∃ estimate, Answers s i 0x41 (resultPayload (fld payload 0 4) 0 0 0 r.kind estimate []) n) ∧
      n.net.results = s.net.results ∧ Only [.clock, .net, .pair, .free] s n) ∧
  (∀ (t i : Nat) (src : Src) (payload : List Byte) (s : State),
    Admitted t src 0x40 payload s i → transmits s src.group = true →
    s.net.results.find? (fun x => x.ticket = fld payload 0 4) = none →
    Completes (.resultRead t src payload) s fun n =>
      Answers s i 0x41 (resultPayload (fld payload 0 4) (if s.net.tickets.contains (fld payload 0 4) then 2 else 3) 0 0 0
        (List.replicate 12 0) []) n ∧
      n.net.results = s.net.results ∧ Only [.clock, .net, .pair] s n) ∧
  (∀ (t i : Nat) (src : Src) (payload : List Byte) (s : State), Admitted t src 0x42 payload s i →
    Completes (.resultRelease t src payload) s fun n =>
      (∀ r ∈ n.net.results, r.ticket = fld payload 0 4 → resultReady r = false ∧ r.dropWhenReady = true) ∧
      (∀ r, r.ticket ≠ fld payload 0 4 → (r ∈ n.net.results ↔ r ∈ s.net.results)) ∧
      (∀ r ∈ s.net.results, r.ticket = fld payload 0 4 → resultReady r = false →
        { r with dropWhenReady := true } ∈ n.net.results) ∧
      Only [.clock, .net, .pair] s n)

/-- STATUS_READ of 1 to 64 IDs is answered with STATUS: the count, and for each ID its length and the value of its object as it
stands at that moment, of no bytes for an ID that names no object; what the module counts at an interface by itself is sampled
for it (R656, R657). A count of 0, one above 64 and a payload too short for its count are REJECT MALFORMED. It changes no job,
no result and no register of the run. -/
def Obligations.StatusIsRead : Prop :=
  (∀ (t i : Nat) (src : Src) (payload : List Byte) (s : State), Admitted t src 0x43 payload s i →
    transmits s src.group = true → 1 ≤ fld payload 0 2 → fld payload 0 2 ≤ 64 → 4 + 2 * fld payload 0 2 ≤ payload.length →
    Completes (.statusRead t src payload) s fun n =>
      (∃ values : List (List Byte), values.length = fld payload 0 2 ∧
        (∀ k, k < fld payload 0 2 → values.getD k [] =
          objectValue (sampleCounts (atTurn t src 0x43 payload i s)) (fld payload (4 + 2 * k) 2) ∧
          ((∀ o ∈ objects s, o.1 ≠ fld payload (4 + 2 * k) 2) → values.getD k [] = [])) ∧
        Answers s i 0x44 (leBytes 2 (fld payload 0 2) ++ leBytes 2 0 ++ (List.range (fld payload 0 2)).flatMap fun k =>
          leBytes 2 (fld payload (4 + 2 * k) 2) ++ leBytes 2 (values.getD k []).length ++ values.getD k []) n) ∧
      n.net.results = s.net.results ∧ Only [.clock, .net, .pair, .mem, .loops, .free] s n) ∧
  (∀ (t i : Nat) (src : Src) (payload : List Byte) (s : State), Admitted t src 0x43 payload s i →
    transmits s src.group = true → fld payload 0 2 = 0 ∨ 64 < fld payload 0 2 ∨ payload.length < 4 + 2 * fld payload 0 2 →
    Completes (.statusRead t src payload) s fun n =>
      Answers s i 0x06 (leBytes 4 src.msg ++ leBytes 1 0x43 ++ leBytes 1 0 ++ leBytes 2 0x0002 ++ leBytes 4 0) n ∧
      Only [.clock, .net, .pair] s n)

/-- A loop-back starts, pending, on an interface that is free for it (R637 to R639). STOP ends it with the counts reached, and
its result is ready (R640, R642); so do its duration, a checker that has not locked within 1 ms, its preemption and the end of
its own work (R642, R648, R654). A FAR loop-back that is stopped waits for its closing STATUS frame (R644). -/
def Obligations.LoopBacks : Prop :=
  (∀ (t i : Nat) (src : Src) (payload : List Byte) (s : State), Admitted t src 0x0B payload s i → fld payload 4 1 = 0 →
    loopRange payload = true → loopDepthOk payload = true → fld payload 5 1 ≠ 5 →
    loopAllowed (atTurn t src 0x0B payload i s) (sessionOf (atTurn t src 0x0B payload i s) i).toGroup
      (sessionOf s i).port (fld payload 5 1) (fld payload 6 1)
      (fld payload 7 1) (fld payload 16 8) (fld payload 24 8) = true →
    (∀ l ∈ s.loops, l.interface = fld payload 5 1 → l.index ≠ fld payload 6 1) →
    Completes (.loopbackStart t src payload) s fun n =>
      (∃ l ∈ n.loops, l.ticket = fld payload 0 4 ∧ l.interface = fld payload 5 1 ∧ l.index = fld payload 6 1 ∧
        l.depth = fld payload 7 1 ∧ l.startedAt = n.now) ∧ Pending (fld payload 0 4) n ∧
      (fld payload 5 1 = 8 → Only [.clock, .net, .pair, .loops, .free] s n)) ∧
  (∀ (t i : Nat) (src : Src) (payload : List Byte) (r : LoopReturn) (l x : Loop) (c : LoopCounts) (o : Nat) (s : State),
    Admitted t src 0x0B payload s i → fld payload 4 1 = 1 → s.loops.find? (fun l => l.ticket = fld payload 0 4) = some l →
    isFar l = false → Answerable l.ticket s → x = { l with stopped := true } →
    c = loopCounts (atTurn t src 0x0B payload i s) x false r →
    o = (if loopLocked (atTurn t src 0x0B payload i s) x r || max s.now t < l.startedAt + msT 1 then loopOutcome c else 2) →
    Completes (.loopbackStop t src payload r) s fun n =>
      n.loops = s.loops.filter (fun x => x.ticket ≠ l.ticket) ∧
      Ready l.ticket (loopBody (atTurn t src 0x0B payload i s) x o c) n ∧ Raised 0x0021 (leBytes 4 l.ticket ++ leBytes 1 o) n) ∧
  (∀ (t i : Nat) (src : Src) (payload : List Byte) (r : LoopReturn) (l : Loop) (s : State),
    Admitted t src 0x0B payload s i → fld payload 4 1 = 1 → s.loops.find? (fun l => l.ticket = fld payload 0 4) = some l →
    isFar l = true →
    Completes (.loopbackStop t src payload r) s fun n =>
      { l with stopped := true, endedAt := some (l.endedAt.getD n.now) } ∈ n.loops ∧ n.net.results = s.net.results ∧
      Only [.clock, .net, .pair, .loops] s n) ∧
  (∀ (t : Nat) (r : LoopReturn) (l : Loop) (s : State), s.loops.find? (fun x => x.ticket = l.ticket) = some l →
    isFar l = false → Answerable l.ticket s →
    (0 < l.duration → l.startedAt + msT l.duration ≤ t → loopLocked (beginAt t s) l r = true →
      Completes (.loopbackEnd t l.ticket false r) s fun n =>
        n.loops = s.loops.filter (fun x => x.ticket ≠ l.ticket) ∧
        Ready l.ticket (loopBody (beginAt t s) l (loopOutcome (loopCounts (beginAt t s) l false r))
          (loopCounts (beginAt t s) l false r)) n) ∧
    (l.startedAt + msT 1 ≤ t → loopLocked (beginAt t s) l r = false → Completes (.loopbackEnd t l.ticket true r) s fun n =>
      n.loops = s.loops.filter (fun x => x.ticket ≠ l.ticket) ∧
      Ready l.ticket (loopBody (beginAt t s) l 2 (loopCounts (beginAt t s) l false r)) n) ∧
    (Completes (.loopbackPreempted t l.ticket r) s fun n =>
      n.loops = s.loops.filter (fun x => x.ticket ≠ l.ticket) ∧
      Ready l.ticket (loopBody (beginAt t s) l 3 (loopCounts (beginAt t s) l false r)) n) ∧
    (4 ≤ l.interface → l.interface ≠ 7 → Completes (.loopbackDone t l.ticket r) s fun n =>
      n.loops = s.loops.filter (fun x => x.ticket ≠ l.ticket) ∧
      Ready l.ticket (loopBody (beginAt t s) l (loopOutcome (loopCounts (beginAt t s) l true r))
        (loopCounts (beginAt t s) l true r)) n))

/-! ### Surfaces, LUTs, pages, runs (04_jobs_pages_runs.md) -/

/-- SURFACE_DEFINE in range, with an entry and space free, defines the surface with no tile, in place of one of its name not in
use, and of the pages only the costs may change (R102, R103, R108); SURFACE_DATA stores a tile of a raw surface that has the
right length, and one of a Raron surface that fits the surface area (R104); SURFACE_SEAL queues the check, its result pending,
and it starts where no run is armed (R105, R703); SURFACE_FREE of a surface not in use undefines it (R107). SEAL_CHECK_DONE of
a check that has started, or may start because no run is armed: a surface with every tile in place and, of Raron tiles, every
one decoding is sealed, and its result says so with the bytes that it takes; any other stays unsealed, and the result gives the
outcome, counts the missing tiles and names the first one (R105, R703). A surface that an unrendered page of the armed run
reads is not freed (R107). -/
def Obligations.SurfaceMessages : Prop :=
  (∀ (t i : Nat) (src : Src) (payload : List Byte) (s : State), Admitted t src 0x20 payload s i →
    surfaceRangeBad payload (readSurface payload) = false →
    ((surfaceOf s (fld payload 0 4)).isSome = true → surfaceInUse s (fld payload 0 4) = false) →
    ((surfaceOf s (fld payload 0 4)).isSome = true ∨ s.jobs.surfaces.length < 4096) →
    surfaceUsed s - ((surfaceOf s (fld payload 0 4)).map surfaceSpace).getD 0 +
      (if (readSurface payload).raron then 0 else surfaceSpace (readSurface payload)) ≤ surfaceArea s →
    Completes (.surfaceDefine t src payload) s fun n =>
      surfaceOf n (fld payload 0 4) = some (readSurface payload) ∧
      (∀ k, k ≠ fld payload 0 4 → surfaceOf n k = surfaceOf s k) ∧ n.jobs.runs = s.jobs.runs ∧
      (n.jobs.pages.map fun p => { p with cost := none }) = (s.jobs.pages.map fun p => { p with cost := none }) ∧
      Only [.clock, .net, .pair, .jobs] s n) ∧
  (∀ (t i : Nat) (src : Src) (payload : List Byte) (sf : Surface) (s : State), Admitted t src 0x21 payload s i →
    surfaceOf s (fld payload 0 4) = some sf → sf.sealed = false → fld payload 4 4 < tileCount sf →
    (sf.raron = false → (payload.drop 8).length = rawTileBytes sf (fld payload 4 4)) →
    (sf.raron = true →
      surfaceUsed s - ((tileData sf (fld payload 4 4)).getD []).length + (payload.drop 8).length ≤ surfaceArea s) →
    Completes (.surfaceData t src payload) s fun n =>
      surfaceOf n sf.id = some { sf with tiles := placeTile (fld payload 4 4) (payload.drop 8) sf.tiles } ∧
      (∀ k, k ≠ sf.id → surfaceOf n k = surfaceOf s k) ∧ n.jobs.pages = s.jobs.pages ∧ n.jobs.runs = s.jobs.runs ∧
      n.net.results = s.net.results ∧ Only [.clock, .net, .pair, .jobs] s n) ∧
  (∀ (t i : Nat) (src : Src) (payload : List Byte) (s : State), Admitted t src 0x22 payload s i →
    (surfaceOf s (fld payload 4 4)).isSome = true →
    Completes (.surfaceSeal t src payload) s fun n =>
      n.jobs = { s.jobs with
        seals := s.jobs.seals ++ [(fld payload 4 4, fld payload 0 4)], sealing := n.jobs.sealing } ∧
      (s.jobs.armed = none → n.jobs.sealing = true) ∧ Pending (fld payload 0 4) n ∧ Only [.clock, .net, .pair, .jobs] s n) ∧
  (∀ (t i : Nat) (src : Src) (payload : List Byte) (s : State), Admitted t src 0x23 payload s i →
    (surfaceOf s (fld payload 0 4)).isSome = true → surfaceInUse s (fld payload 0 4) = false →
    Completes (.surfaceFree t src payload) s fun n =>
      n.jobs = { s.jobs with
        surfaces := s.jobs.surfaces.filter (fun f => f.id ≠ fld payload 0 4)
        seals := s.jobs.seals.filter (fun q => q.1 ≠ fld payload 0 4), sealing := n.jobs.sealing } ∧ Only [.clock, .net, .pair, .jobs] s n) ∧
  (∀ (t id k : Nat) (rest : List (Nat × Nat)) (sf : Surface) (s : State), s.jobs.seals = (id, k) :: rest →
    s.jobs.sealing = true ∨ s.jobs.armed = none → surfaceOf s id = some sf → Answerable k s →
    Completes (.sealCheckDone t) s fun n =>
      ((checkSeal sf).1 = 0 → n.jobs = { s.jobs with
        seals := rest, sealing := n.jobs.sealing
        surfaces := s.jobs.surfaces.map fun f => if f.id = id then { f with sealed := true } else f }) ∧
      ((checkSeal sf).1 ≠ 0 → n.jobs = { s.jobs with seals := rest, sealing := n.jobs.sealing }) ∧
      Ready k (sealBody (checkSeal sf).1 (checkSeal sf).2.1 (checkSeal sf).2.2 (surfaceSpace sf)) n ∧
      (rest = [] → n.jobs.sealing = false) ∧
      (sf.raron = false → Only [.clock, .net, .pair, .jobs] s n) ∧ Only [.clock, .net, .pair, .jobs, .render] s n) ∧
  (∀ (t i : Nat) (src : Src) (payload : List Byte) (s : State), Admitted t src 0x23 payload s i →
    (surfaceOf s (fld payload 0 4)).isSome = true → surfaceInUse s (fld payload 0 4) = true →
    Completes (.surfaceFree t src payload) s fun n =>
      Only [.clock, .net, .pair] s n ∧ (transmits s src.group = true → Answers s i 0x06
        (leBytes 4 src.msg ++ leBytes 1 0x23 ++ leBytes 1 0 ++ leBytes 2 0x0302 ++ leBytes 4 0) n))

/-- LUT_DEFINE, PAGE_DEFINE and RUN_DEFINE, in range and naming nothing in use, define exactly the object that they name, in
place of the one of that name, and PAGE_FREE undefines exactly the page that it names (R109, R111, R112, R113, R114, R149); a
page defined may fix the costs of others whose surfaces are all defined, and changes nothing else of them (R167). A page of the
armed run is not freed (R112). -/
def Obligations.LutsPagesRuns : Prop :=
  (∀ (t i : Nat) (src : Src) (payload : List Byte) (s : State), Admitted t src 0x24 payload s i →
    (fld payload 4 1 = 0 ∧ 1 ≤ fld payload 5 1 ∧ fld payload 5 1 ≤ 8 ∧ fld payload 0 2 ≤ 0xFEFF) ∨
      (fld payload 4 1 = 1 ∧ fld payload 5 1 = 1 ∧ 0xFF00 ≤ fld payload 0 2 ∧ fld payload 0 2 ≤ 0xFF07) →
    payload.length = 8 + 8194 * fld payload 5 1 → lutInUse s (fld payload 0 2) = false →
    (lutOf s (fld payload 0 2)).isSome = true ∨ s.jobs.luts.length < 1024 →
    Completes (.lutDefine t src payload) s fun n =>
      n.jobs = { s.jobs with luts := (s.jobs.luts.filter fun x => x.id ≠ fld payload 0 2) ++
        [{ id := fld payload 0 2, output := fld payload 4 1 = 1, curves := (pieces 8194 (payload.drop 8)).map words16 }] } ∧
      n.mem = { s.mem with lostLuts := s.mem.lostLuts.filter fun x => x ≠ fld payload 0 2 } ∧
      Only [.clock, .net, .pair, .jobs, .mem] s n) ∧
  (∀ (t i : Nat) (src : Src) (payload : List Byte) (s : State), Admitted t src 0x25 payload s i →
    28 + 64 * fld payload 15 1 + 24 * fld payload 16 1 ≤ payload.length →
    pageRangeBad (fld payload 15 1) (fld payload 16 1) (readPage payload) = false →
    (∀ l ∈ (readPage payload).layers, layerLutMissing s l = false) → pageInUse s (fld payload 4 4) = false →
    (pageOf s (fld payload 4 4)).isSome = true ∨ s.jobs.pages.length < 16384 →
    Completes (.pageDefine t src payload) s fun n =>
      n.jobs = { s.jobs with pages := n.jobs.pages } ∧
      (n.jobs.pages.map fun p => { p with cost := none }) =
        ((s.jobs.pages.filter fun p => p.id ≠ fld payload 4 4) ++ [readPage payload]).map (fun p => { p with cost := none }) ∧
      Pending (fld payload 0 4) n ∧ Only [.clock, .net, .pair, .jobs, .render] s n) ∧
  (∀ (t i : Nat) (src : Src) (payload : List Byte) (s : State), Admitted t src 0x26 payload s i →
    (pageOf s (fld payload 0 4)).isSome = true → pageInUse s (fld payload 0 4) = false →
    Completes (.pageFree t src payload) s fun n =>
      n.jobs = { s.jobs with pages := s.jobs.pages.filter fun p => p.id ≠ fld payload 0 4 } ∧
      n.render.mismatchPages = s.render.mismatchPages.filter (fun x => x ≠ fld payload 0 4) ∧
      Only [.clock, .net, .pair, .jobs, .render] s n) ∧
  (∀ (t i : Nat) (src : Src) (payload : List Byte) (s : State), Admitted t src 0x27 payload s i →
    fld payload 36 4 ≤ 65536 → 40 + 4 * fld payload 36 4 ≤ payload.length →
    runRangeBad (fld payload 36 4) (readRun payload) = false →
    ((usedRuns s).any fun x => x.id = fld payload 0 4) = false →
    (s.jobs.runs.any fun x => x.id = fld payload 0 4) = true ∨ s.jobs.runs.length < 16 →
    Completes (.runDefine t src payload) s fun n =>
      n.jobs = { s.jobs with runs := (s.jobs.runs.filter fun x => x.id ≠ fld payload 0 4) ++ [readRun payload] } ∧
      Only [.clock, .net, .pair, .jobs] s n) ∧
  (∀ (t i : Nat) (src : Src) (payload : List Byte) (s : State), Admitted t src 0x26 payload s i →
    (pageOf s (fld payload 0 4)).isSome = true → pageInUse s (fld payload 0 4) = true →
    Completes (.pageFree t src payload) s fun n =>
      Only [.clock, .net, .pair] s n ∧ (transmits s src.group = true → Answers s i 0x06
        (leBytes 4 src.msg ++ leBytes 1 0x26 ++ leBytes 1 0 ++ leBytes 2 0x0302 ++ leBytes 4 0) n))

/-- RUN_ARM in IDLE, with nothing against it, puts the run under admission with its result pending (R124, R126); with HALT_IN_N
asserted it is rejected before the run is looked up (R124). RUN_ARM_VERDICT of an accepted run arms it, with the next run_tag
(R126, R355); a refused run, and one that comes too late for the module to arm it, leaves the module as it was, its result
ready (R126). -/
def Obligations.RunArming : Prop :=
  (∀ (t i : Nat) (src : Src) (payload : List Byte) (r : RunDef) (s : State), Admitted t src 0x28 payload s i →
    (inGroup s = true → joined s = true) → s.mod.state = .idle → s.jobs.arming = none → armsNone s = false →
    s.mod.haltIn = false →
    s.jobs.runs.find? (fun r => r.id = fld payload 4 4) = some r → (∀ id ∈ r.slots, (pageOf s id).isSome = true) →
    (∀ g ∈ runPages s r, g.lpi = r.lpi ∧ g.depth = r.depth ∧ g.barMask &&& r.barMask = g.barMask) →
    Completes (.runArm t src payload) s fun n =>
      (∃ q, n.jobs.arming = some q ∧ q.ticket = fld payload 0 4 ∧ q.run = r.id ∧ q.body.length = 24) ∧
      Pending (fld payload 0 4) n ∧ n.jobs.armed = s.jobs.armed ∧ n.jobs.runs = s.jobs.runs ∧
      Only [.clock, .net, .pair, .jobs] s n) ∧
  (∀ (t i : Nat) (src : Src) (payload : List Byte) (s : State), Admitted t src 0x28 payload s i →
    (inGroup s = true → joined s = true) → s.mod.state = .idle → s.jobs.arming = none → armsNone s = false →
    s.mod.haltIn = true →
    Completes (.runArm t src payload) s fun n =>
      Only [.clock, .net, .pair] s n ∧ (transmits s src.group = true → Answers s i 0x06
        (leBytes 4 src.msg ++ leBytes 1 0x28 ++ leBytes 1 0 ++ leBytes 2 0x0307 ++ leBytes 4 0) n)) ∧
  (∀ (t : Nat) (q : PendingArm) (r : RunDef) (s : State), s.jobs.arming = some q → follows s = false → partnerTakes s = false →
    fld q.body 0 1 ≠ 2 → mayArm s = true → s.jobs.runs.find? (fun r => r.id = q.run) = some r →
    (∀ i, i < 16 → (inputOf s i).fault = false) →
    Completes (.runArmVerdict t) s fun n =>
      n.mod.state = .armed ∧ n.jobs.armed.map (fun a => a.run) = some r ∧ n.jobs.arming = none ∧ n.jobs.runId = r.id ∧
      n.jobs.runTag = (s.jobs.runTag + 1) % 65536 ∧ n.jobs.surfaces = s.jobs.surfaces ∧ n.jobs.runs = s.jobs.runs) ∧
  (∀ (t : Nat) (q : PendingArm) (s : State), s.jobs.arming = some q → follows s = false → fld q.body 0 1 = 2 →
    Answerable q.ticket s →
    Completes (.runArmVerdict t) s fun n =>
      n.jobs = { s.jobs with arming := none } ∧ Ready q.ticket q.body n ∧ Only [.clock, .net, .pair, .jobs] s n) ∧
  (∀ (t : Nat) (q : PendingArm) (s : State), s.jobs.arming = some q → follows s = false → fld q.body 0 1 ≠ 2 →
    mayArm s = false → Answerable q.ticket s →
    Completes (.runArmVerdict t) s fun n =>
      n.jobs = { s.jobs with arming := none } ∧ Ready q.ticket (leBytes 1 2 ++ leBytes 1 7 ++ q.body.drop 2) n ∧
      Only [.clock, .net, .pair, .jobs] s n)

/-- RUN_STOP ends the releases: DRAIN while a released slot is open, IDLE where none is (R134); RUN_CANCEL in ARMED and RUN_END
in HALTED are IDLE with no run armed (R135, R138), but while HALT_IN_N is asserted RUN_END waits (R138). Where a halt of the
module waits behind RUN_STOP or RUN_CANCEL for the same moment, releases end and the state is left to the halt (R21). HALT_REQ
halts the bars of the run that it names, with HALT at once on their driven lanes; once every bar of the run is halted the
module is HALTED, with HALT on every driven lane, and not before (R24, R310, R313). Outside a run it halts nothing. -/
def Obligations.RunsStop : Prop :=
  (∀ (t i : Nat) (src : Src) (payload : List Byte) (a : Armed) (s : State), Admitted t src 0x29 payload s i →
    s.mod.state = .armed ∨ s.mod.state = .print → s.jobs.armed = some a → a.run.id = fld payload 0 4 →
    Completes (.runStop t src payload) s fun n =>
      (haltComes (atTurn t src 0x29 payload i s) = false → (openSlots s).isEmpty = false → n.mod.state = .drain ∧
        n.jobs.armed.map (fun a => (a.releasesEnded, a.hold)) = some (true, false)) ∧
      (haltComes (atTurn t src 0x29 payload i s) = false → (openSlots s).isEmpty = true →
        n.mod.state = .idle ∧ n.jobs.armed = none) ∧
      (haltComes (atTurn t src 0x29 payload i s) = true → n.mod.state = s.mod.state ∧
        n.jobs.armed.map (fun a => (a.run, a.releasesEnded, a.hold)) = some (a.run, true, false))) ∧
  (∀ (t i : Nat) (src : Src) (payload : List Byte) (a : Armed) (s : State), Admitted t src 0x2A payload s i →
    s.mod.state = .armed → s.jobs.armed = some a → a.run.id = fld payload 0 4 →
    Completes (.runCancel t src payload) s fun n =>
      (haltComes (atTurn t src 0x2A payload i s) = false → n.mod.state = .idle ∧ n.jobs.armed = none) ∧
      (haltComes (atTurn t src 0x2A payload i s) = true → n.mod.state = .armed ∧
        n.jobs.armed.map (fun a => (a.run, a.releasesEnded, a.hold)) = some (a.run, true, false)) ∧
      n.jobs.runs = s.jobs.runs ∧ n.jobs.surfaces = s.jobs.surfaces) ∧
  (∀ (t i : Nat) (src : Src) (payload : List Byte) (a : Armed) (s : State), Admitted t src 0x2B payload s i →
    s.mod.state = .halted → s.jobs.armed = some a → a.run.id = fld payload 0 4 →
    Completes (.runEnd t src payload) s fun n =>
      (s.mod.haltIn = false → n.mod.state = .idle ∧ n.jobs.armed = none) ∧
      (s.mod.haltIn = true → n.mod = s.mod ∧ n.jobs.armed = some { a with runEnded := true } ∧
        Only [.clock, .net, .pair, .jobs] s n)) ∧
  (∀ (t i : Nat) (src : Src) (payload : List Byte) (a : Armed) (s : State), Admitted t src 0x08 payload s i →
    inRun s = true → s.jobs.armed = some a → runBars s ≠ [] → s.fire.bars.length = 8 →
    Completes (.haltReq t src payload) s fun n =>
      n.jobs.runs = s.jobs.runs ∧ (∀ b ∈ runBars s, (fld payload 0 1).testBit b = true → halted n b = true) ∧
      (drives s = true → ∀ g, g < 48 → laneDriven s g = true → g / 6 ∈ runBars s → (fld payload 0 1).testBit (g / 6) = true →
        halted s (g / 6) = false → ∃ rd rest, Out.lane g rd (kHalt :: rest) ∈ n.sent) ∧
      ((∀ b ∈ runBars s, halted s b = true ∨ (fld payload 0 1).testBit b = true) → n.mod.state = .halted ∧
        (drives s = true → ∀ g, g < 48 → laneDriven s g = true → halted s (g / 6) = false →
          ∃ rd rest, Out.lane g rd (kHalt :: rest) ∈ n.sent)) ∧
      (inRun s = true → (∃ b ∈ runBars s, halted n b = false) → n.mod.state ≠ .halted)) ∧
  (∀ (t i : Nat) (src : Src) (payload : List Byte) (s : State), Admitted t src 0x08 payload s i → inRun s = false →
    Completes (.haltReq t src payload) s fun n => n.mod = s.mod ∧ n.fire.bars = s.fire.bars ∧ Only [.clock, .net, .pair, .jobs, .axes] s n)

/-- R704: RUN_STOP outside ARMED and PRINT, RUN_CANCEL outside ARMED and RUN_END outside HALTED are REJECT WRONG_STATE,
whatever their run_id; where the state accepts them, another run_id than the armed run's is REJECT UNKNOWN_ID. Neither has an
effect on the run. -/
def Obligations.RunCommandsByState : Prop :=
  (∀ (t i : Nat) (src : Src) (payload : List Byte) (s : State), Admitted t src 0x29 payload s i →
    transmits s src.group = true →
    (s.mod.state ≠ .armed → s.mod.state ≠ .print → Completes (.runStop t src payload) s fun n =>
      Answers s i 0x06 (leBytes 4 src.msg ++ leBytes 1 0x29 ++ leBytes 1 0 ++ leBytes 2 0x0005 ++ leBytes 4 0) n ∧
      Only [.clock, .net, .pair] s n) ∧
    (s.mod.state = .armed ∨ s.mod.state = .print → (∀ a, s.jobs.armed = some a → a.run.id ≠ fld payload 0 4) → Completes (.runStop t src payload) s fun n =>
      Answers s i 0x06 (leBytes 4 src.msg ++ leBytes 1 0x29 ++ leBytes 1 0 ++ leBytes 2 0x0301 ++ leBytes 4 0) n ∧
      Only [.clock, .net, .pair] s n)) ∧
  (∀ (t i : Nat) (src : Src) (payload : List Byte) (s : State), Admitted t src 0x2A payload s i →
    transmits s src.group = true →
    (s.mod.state ≠ .armed → Completes (.runCancel t src payload) s fun n =>
      Answers s i 0x06 (leBytes 4 src.msg ++ leBytes 1 0x2A ++ leBytes 1 0 ++ leBytes 2 0x0005 ++ leBytes 4 0) n ∧
      Only [.clock, .net, .pair] s n) ∧
    (s.mod.state = .armed → (∀ a, s.jobs.armed = some a → a.run.id ≠ fld payload 0 4) → Completes (.runCancel t src payload) s fun n =>
      Answers s i 0x06 (leBytes 4 src.msg ++ leBytes 1 0x2A ++ leBytes 1 0 ++ leBytes 2 0x0301 ++ leBytes 4 0) n ∧
      Only [.clock, .net, .pair] s n)) ∧
  (∀ (t i : Nat) (src : Src) (payload : List Byte) (s : State), Admitted t src 0x2B payload s i →
    transmits s src.group = true →
    (s.mod.state ≠ .halted → Completes (.runEnd t src payload) s fun n =>
      Answers s i 0x06 (leBytes 4 src.msg ++ leBytes 1 0x2B ++ leBytes 1 0 ++ leBytes 2 0x0005 ++ leBytes 4 0) n ∧
      Only [.clock, .net, .pair] s n) ∧
    (s.mod.state = .halted → (∀ a, s.jobs.armed = some a → a.run.id ≠ fld payload 0 4) → Completes (.runEnd t src payload) s fun n =>
      Answers s i 0x06 (leBytes 4 src.msg ++ leBytes 1 0x2B ++ leBytes 1 0 ++ leBytes 2 0x0301 ++ leBytes 4 0) n ∧
      Only [.clock, .net, .pair] s n))

/-! ### The calibration loop's requests (13_calibration_loop.md) -/

/-- CAL_REQUEST (R411, R415 to R417): RUN_NOW in ARMED and PRINT makes the selected kinds due, and its result waits; elsewhere
it is REJECT WRONG_STATE. FREEZE and THAW set and clear the freeze, their result ready at once. RESET of the registration taps
with no run armed puts those of the selected bars, and no others, back to 0. -/
def Obligations.CalibrationRequests : Prop :=
  (∀ (t i : Nat) (src : Src) (payload : List Byte) (s : State), Admitted t src 0x2C payload s i → fld payload 4 1 = 0 →
    s.mod.state = .armed ∨ s.mod.state = .print → s.cal.runNow = [] →
    (selectedElements s (fld payload 5 1 % 64) (fld payload 6 1)) ≠ [] →
    Completes (.calRunNow t src payload) s fun n =>
      n.cal.due = s.cal.due ||| (fld payload 5 1 % 64) ∧ n.cal.values = s.cal.values ∧ Pending (fld payload 0 4) n ∧
      n.cal.runNow.map (fun r => (r.ticket, r.kinds, r.bars)) = [(fld payload 0 4, fld payload 5 1 % 64, fld payload 6 1)] ∧
      Only [.clock, .net, .pair, .cal] s n) ∧
  (∀ (t i : Nat) (src : Src) (payload : List Byte) (s : State), Admitted t src 0x2C payload s i → fld payload 4 1 = 0 →
    s.mod.state ≠ .armed → s.mod.state ≠ .print → transmits s src.group = true →
    Completes (.calRunNow t src payload) s fun n =>
      Answers s i 0x06 (leBytes 4 src.msg ++ leBytes 1 0x2C ++ leBytes 1 0 ++ leBytes 2 0x0005 ++ leBytes 4 0) n ∧
      Only [.clock, .net, .pair] s n) ∧
  (∀ (t i : Nat) (src : Src) (payload : List Byte) (s : State), Admitted t src 0x2C payload s i → fld payload 4 1 = 1 → Settled s →
    Completes (.calFreeze t src payload) s fun n =>
      n.cal = { s.cal with frozen := true } ∧ Ready (fld payload 0 4) [] n ∧ Only [.clock, .net, .pair, .cal] s n) ∧
  (∀ (t i : Nat) (src : Src) (payload : List Byte) (s : State), Admitted t src 0x2C payload s i → fld payload 4 1 = 2 → Settled s →
    Completes (.calThaw t src payload) s fun n =>
      n.cal = { s.cal with frozen := false } ∧ Ready (fld payload 0 4) [] n ∧ Only [.clock, .net, .pair, .cal] s n) ∧
  (∀ (t i : Nat) (src : Src) (payload : List Byte) (s : State), Admitted t src 0x2C payload s i → fld payload 4 1 = 3 →
    fld payload 5 1 % 64 = 16 → s.jobs.armed = none → Settled s →
    Completes (.calReset t src payload) s fun n =>
      (∀ b, b < 8 → n.cal.values.reg.getD b 0 = if (fld payload 6 1).testBit b then 0 else s.cal.values.reg.getD b 0) ∧
      n.cal.values.taps = s.cal.values.taps ∧ n.cal.values.dead = s.cal.values.dead ∧ n.cal.values.tone = s.cal.values.tone ∧
      n.cal.values.rank = s.cal.values.rank ∧ Ready (fld payload 0 4) [] n ∧ Only [.clock, .net, .pair, .cal] s n)

/-! ### Motion requests (15_motion.md) -/

/-- MOVE_ABS, MOVE_REL and JOG of an axis in HOLD whose limit in that direction is inactive: MOVING, towards the target, or at
the velocity, of the request, on the parameters latched from the shadow, the result pending (R447 to R449). STOP of a moving
axis runs to the rest position of its profile; of an axis at rest it is done at once (R447). ESTOP brakes (R451). No other axis
changes. How a request ends is the model's reading (log entry 62). -/
def Obligations.MovesAndStops : Prop :=
  (∀ (t i a : Nat) (src : Src) (payload : List Byte) (s : State), MoveAdmitted t src payload s i a 0 → (axisOf s a).state = .hold →
    limitActive s a (signRat ((moveValue payload : Rat) - (axisOf s a).p)) = false →
    Completes (.moveAbs t src payload) s fun n =>
      (axisOf n a).state = .moving ∧ (axisOf n a).target = (moveValue payload : Rat) ∧ (axisOf n a).jog = none ∧
      (axisOf n a).latched = (axisOf s a).shadow ∧ (axisOf n a).p = (axisOf s a).p ∧ Pending (fld payload 0 4) n ∧
      (∀ b, b ≠ a → axisOf n b = axisOf s b) ∧ Only [.clock, .net, .pair, .axes] s n) ∧
  (∀ (t i a : Nat) (src : Src) (payload : List Byte) (s : State), MoveAdmitted t src payload s i a 1 → (axisOf s a).state = .hold →
    limitActive s a (signRat (moveValue payload : Rat)) = false →
    Completes (.moveRel t src payload) s fun n =>
      (axisOf n a).state = .moving ∧ (axisOf n a).target = (axisOf s a).p + (moveValue payload : Rat) ∧
      (axisOf n a).jog = none ∧ (axisOf n a).latched = (axisOf s a).shadow ∧ Pending (fld payload 0 4) n ∧
      (∀ b, b ≠ a → axisOf n b = axisOf s b) ∧ Only [.clock, .net, .pair, .axes] s n) ∧
  (∀ (t i a : Nat) (src : Src) (payload : List Byte) (s : State), MoveAdmitted t src payload s i a 2 → (axisOf s a).state = .hold →
    limitActive s a (signRat (moveValue payload : Rat)) = false →
    Completes (.jog t src payload) s fun n =>
      (axisOf n a).state = .moving ∧ (axisOf n a).jog = some (moveValue payload : Rat) ∧
      (axisOf n a).latched = (axisOf s a).shadow ∧ Pending (fld payload 0 4) n ∧
      (∀ b, b ≠ a → axisOf n b = axisOf s b) ∧ Only [.clock, .net, .pair, .axes] s n) ∧
  (∀ (t i a : Nat) (src : Src) (payload : List Byte) (s : State), MoveAdmitted t src payload s i a 3 →
    (axisOf s a).state = .moving →
    Completes (.stop t src payload) s fun n =>
      (axisOf n a).state = .stopping ∧ (axisOf n a).stopCause = 0 ∧ (axisOf n a).target = restPosition (axisOf s a) ∧
      (axisOf n a).jog = none ∧ (axisOf n a).v = (axisOf s a).v ∧ Pending (fld payload 0 4) n ∧
      (∀ b, b ≠ a → axisOf n b = axisOf s b) ∧ Only [.clock, .net, .pair, .axes, .pos] s n) ∧
  (∀ (t i a : Nat) (src : Src) (payload : List Byte) (s : State), MoveAdmitted t src payload s i a 3 →
    (axisOf s a).state = .hold → Settled s →
    Completes (.stop t src payload) s fun n =>
      Ready (fld payload 0 4) (plainBody (beginAt t s) a moveDone 0) n ∧ Only [.clock, .net, .pair] s n) ∧
  (∀ (t i a : Nat) (src : Src) (payload : List Byte) (s : State), MoveAdmitted t src payload s i a 4 →
    (axisOf s a).state ≠ .off → (axisOf s a).state ≠ .fault → follows s = false →
    Completes (.estop t src payload) s fun n =>
      (axisOf n a).state = .stopping ∧ (axisOf n a).stopCause = 1 ∧ (axisOf n a).estops = wrapInc 16 (axisOf s a).estops ∧
      (axisOf n a).v = (axisOf s a).v ∧ Pending (fld payload 0 4) n ∧ (∀ b, b ≠ a → axisOf n b = axisOf s b) ∧
      Only [.clock, .net, .pair, .axes, .pos] s n)

/-- HOME and GEAR of an axis in HOLD: HOMING, from the switch when it is already active, and GEARED from the present position
and count; GEAR_CHANGE of a geared axis waits for its count (R458, R460, R461). SET_PARAMS writes the shadow only (R448);
ENABLE, DISABLE and CLEAR_FAULT change the state and are done at once (R445). -/
def Obligations.HomingGearingAndStates : Prop :=
  (∀ (t i a : Nat) (src : Src) (payload : List Byte) (s : State), MoveAdmitted t src payload s i a 5 → (axisOf s a).state = .hold →
    cfgN s Fld.motion_home_input a < 24 →
    Completes (.home t src payload) s fun n =>
      (axisOf n a).state = .homing ∧
      (axisOf n a).home.map (·.1) =
        some (if dinActive s (cfgN s Fld.motion_home_input a) then HomePhase.backoff else HomePhase.seek) ∧
      (axisOf n a).latched = (axisOf s a).shadow ∧ Pending (fld payload 0 4) n ∧
      (∀ b, b ≠ a → axisOf n b = axisOf s b) ∧ Only [.clock, .net, .pair, .axes] s n) ∧
  (∀ (t i a : Nat) (src : Src) (payload : List Byte) (s : State), MoveAdmitted t src payload s i a 6 → (axisOf s a).state = .hold →
    fld payload 32 1 < 16 → limitActive s a (signRat (ratioOf (moveValue payload))) = false →
    Completes (.gear t src payload) s fun n =>
      (axisOf n a).state = .geared ∧
      (axisOf n a).gear = some (fld payload 32 1, (axisOf s a).p, linePosValue s (fld payload 32 1) n.now, moveValue payload) ∧
      (axisOf n a).latched = (axisOf s a).shadow ∧ Pending (fld payload 0 4) n ∧
      (∀ b, b ≠ a → axisOf n b = axisOf s b) ∧ Only [.clock, .net, .pair, .axes] s n) ∧
  (∀ (t i a k : Nat) (off anchor : Rat) (r : Int) (src : Src) (payload : List Byte) (s : State),
    MoveAdmitted t src payload s i a 7 → (axisOf s a).state = .geared → (axisOf s a).gear = some (k, off, anchor, r) →
    limitActive s a (signRat (ratioOf (moveValue payload))) = false → (axisOf s a).change = none → 0 < posDiff (sfld payload 20 8 : Rat) (linePosValue s k (max s.now t)) →
    Completes (.gearChange t src payload) s fun n =>
      (axisOf n a).state = .geared ∧ (axisOf n a).gear = (axisOf s a).gear ∧
      (axisOf n a).change = some { ticket := fld payload 0 4, at_ := (sfld payload 20 8 : Rat), ramp := fld payload 28 4
                                   ratio := moveValue payload, started := false, late := false } ∧
      Pending (fld payload 0 4) n ∧ (∀ b, b ≠ a → axisOf n b = axisOf s b) ∧ Only [.clock, .net, .pair, .axes, .pos] s n) ∧
  (∀ (t i a : Nat) (src : Src) (payload : List Byte) (s : State), MoveAdmitted t src payload s i a 8 → (axisOf s a).req = none →
    Settled s →
    Completes (.setParams t src payload) s fun n =>
      axisOf n a = { axisOf s a with shadow := readParams payload } ∧
      Ready (fld payload 0 4) (plainBody (beginAt t s) a moveApplied 0) n ∧
      (∀ b, b ≠ a → axisOf n b = axisOf s b) ∧ Only [.clock, .net, .pair, .axes] s n) ∧
  (∀ (t i a : Nat) (src : Src) (payload : List Byte) (s : State), MoveAdmitted t src payload s i a 9 → (axisOf s a).state = .off →
    Settled s →
    Completes (.enable t src payload) s fun n =>
      (axisOf n a).state = .hold ∧ (axisOf n a).v = 0 ∧ (axisOf n a).p = (axisOf s a).p ∧
      Ready (fld payload 0 4) (plainBody (beginAt t s) a moveApplied 0) n ∧
      (∀ b, b ≠ a → axisOf n b = axisOf s b) ∧ Only [.clock, .net, .pair, .axes] s n) ∧
  (∀ (t i a : Nat) (src : Src) (payload : List Byte) (s : State), MoveAdmitted t src payload s i a 10 → (axisOf s a).state = .hold →
    Settled s →
    Completes (.disable t src payload) s fun n =>
      (axisOf n a).state = .off ∧ Ready (fld payload 0 4) (plainBody (beginAt t s) a moveApplied 0) n ∧
      (∀ b, b ≠ a → axisOf n b = axisOf s b) ∧ Only [.clock, .net, .pair, .axes, .pos] s n) ∧
  (∀ (t i a : Nat) (src : Src) (payload : List Byte) (s : State), MoveAdmitted t src payload s i a 11 →
    (axisOf s a).state = .fault → Settled s →
    Completes (.clearFault t src payload) s fun n =>
      (axisOf n a).state = .off ∧ (axisOf n a).faultCause = 0 ∧
      Ready (fld payload 0 4) (plainBody (beginAt t s) a moveApplied 0) n ∧
      (∀ b, b ≠ a → axisOf n b = axisOf s b) ∧ Only [.clock, .net, .pair, .axes, .pos] s n)

/-! ### The timebase (14_timebase.md) -/

/-- TIMED_OUTPUT_SET of an output that no camera claims: CANCEL ends its programme and leaves a running pulse; ONCE, at least 2
µs ahead, gives it one edge; PERIODIC gives it its edges from the first one 2 µs ahead on (R436, R437, R439). No other output
changes. TIMED_OUTPUT_EDGE at the due time of a one-shot drives the output high for its width, or to the end of a pulse still
under way, and ends the programme; the pulse ends after its width (R437, R439). PPS_EDGE at the start of a second pulses output
8 once (R441). -/
def Obligations.TimedOutputs : Prop :=
  (∀ (t i : Nat) (src : Src) (payload : List Byte) (s : State), Admitted t src 0x2E payload s i → fld payload 0 1 < 8 →
    s.time.outs.length = 9 → claimedOut s (fld payload 0 1) = false → fld payload 4 1 = 0 → fld payload 24 8 = 0 →
    fld payload 32 4 = 0 → 8 ≤ fld payload 20 4 → fld payload 20 4 ≤ 1000000000 → fld payload 14 4 < 1000000000 →
    Completes (.timedOutputCancel t src payload) s fun n =>
      n.time.outs.getD (fld payload 0 1) {} = { s.time.outs.getD (fld payload 0 1) {} with prog := none } ∧
      (∀ o, o ≠ fld payload 0 1 → n.time.outs.getD o {} = s.time.outs.getD o {}) ∧ Only [.clock, .net, .pair, .time] s n) ∧
  (∀ (t i : Nat) (src : Src) (payload : List Byte) (s : State), Admitted t src 0x2E payload s i → fld payload 0 1 < 8 →
    s.time.outs.length = 9 → claimedOut s (fld payload 0 1) = false → fld payload 4 1 = 1 → fld payload 24 8 = 0 →
    fld payload 32 4 = 0 → 8 ≤ fld payload 20 4 → fld payload 20 4 ≤ 1000000000 → fld payload 14 4 < 1000000000 →
    timeNow (beginAt t s) + nsUnits 2000 ≤ readStamp s ((payload.drop 8).take 12) →
    Completes (.timedOutputOnce t src payload) s fun n =>
      ((n.time.outs.getD (fld payload 0 1) {}).prog.map fun p => (p.periodic, p.start, p.width, p.left, p.next)) =
        some (false, readStamp s ((payload.drop 8).take 12), fld payload 20 4, some 1, 0) ∧
      (∀ o, o ≠ fld payload 0 1 → n.time.outs.getD o {} = s.time.outs.getD o {}) ∧ Only [.clock, .net, .pair, .time] s n) ∧
  (∀ (t i : Nat) (src : Src) (payload : List Byte) (s : State), Admitted t src 0x2E payload s i → fld payload 0 1 < 8 →
    s.time.outs.length = 9 → claimedOut s (fld payload 0 1) = false → fld payload 4 1 = 2 → 8 ≤ fld payload 20 4 →
    fld payload 20 4 ≤ 1000000000 → fld payload 14 4 < 1000000000 → nsUnits (fld payload 20 4 + 8) ≤ (fld payload 24 8 : Int) →
    (fld payload 24 8 : Int) ≤ 1000 * secondUnits →
    Completes (.timedOutputPeriodic t src payload) s fun n =>
      (∃ p, (n.time.outs.getD (fld payload 0 1) {}).prog = some p ∧ p.periodic = true ∧ p.width = fld payload 20 4 ∧
        p.period = fld payload 24 8 ∧ p.left = (if fld payload 32 4 = 0 then none else some (fld payload 32 4)) ∧
        timeNow n + nsUnits 2000 ≤ edgeDue p p.next ∧
        (0 < p.next → edgeDue p (p.next - 1) < timeNow n + nsUnits 2000)) ∧
      (∀ o, o ≠ fld payload 0 1 → n.time.outs.getD o {} = s.time.outs.getD o {}) ∧ Only [.clock, .net, .pair, .time] s n) ∧
  (∀ (t out : Nat) (p : Programme) (s : State), out < 9 → s.time.outs.length = 9 → s.time.pending = none →
    (s.time.outs.getD out {}).prog = some p → p.periodic = false → p.left = some 1 → p.next = 0 → p.period = 0 →
    p.start ≤ timeNow (beginAt t s) → timeNow (beginAt t s) ≤ p.start + 1025 →
    Completes (.timedOutputEdge t out) s fun n =>
      n.time.outs.getD out {} = { s.time.outs.getD out {} with
        prog := none, level := true, fallAt := some (pulseEnd (s.time.outs.getD out {}) (n.now + nsT p.width)), edges := wrapInc 32 (s.time.outs.getD out {}).edges } ∧
      (∀ o, o ≠ out → n.time.outs.getD o {} = s.time.outs.getD o {}) ∧ Only [.clock, .time] s n) ∧
  (∀ (t out d : Nat) (s : State), out < 9 → s.time.outs.length = 9 → (s.time.outs.getD out {}).fallAt = some d → d ≤ t →
    Completes (.timedOutputPulseEnd t out) s fun n =>
      n.time.outs.getD out {} = { s.time.outs.getD out {} with level := false, fallAt := none } ∧
      (∀ o, o ≠ out → n.time.outs.getD o {} = s.time.outs.getD o {}) ∧ Only [.clock, .time] s n) ∧
  (∀ (t : Nat) (sec : Int) (s : State), s.time.outs.length = 9 → s.time.pending = none → ppsOn s = true →
    (s.time.outs.getD 8 {}).lastSecond = some (sec - 1) → timeNow (beginAt t s) = sec * secondUnits →
    Completes (.ppsEdge t) s fun n =>
      n.time.outs.getD 8 {} = { s.time.outs.getD 8 {} with
        lastSecond := some sec, level := true
        fallAt := some (pulseEnd (s.time.outs.getD 8 {}) (n.now + nsT (1000 * cfgN s Fld.timebase_pps_width 0))), edges := wrapInc 32 (s.time.outs.getD 8 {}).edges } ∧
      (∀ o, o ≠ 8 → n.time.outs.getD o {} = s.time.outs.getD o {}) ∧ Only [.clock, .time] s n)

/-- The servo (R427 to R429): an offset within the step threshold changes the rate only, one beyond it steps module time by its
negative and raises 0x0B12, both 16 ticks ahead; a source gone silent is HOLDOVER. -/
def Obligations.ServoDisciplinesTime : Prop :=
  (∀ (t : Nat) (offset : Int) (s : State), timeSource s = 2 → s.time.pending = none →
    absRat ((offset : Rat) / 65536) ≤ (cfgN s Fld.timebase_step_threshold 0 : Rat) →
    Completes (.timeServoMeasurement t offset) s fun n =>
      (∃ rate, n.time.pending = some (rawTicks n + 16, 0, rate)) ∧ n.time.lastMeasure = some n.now ∧
      n.time.offset = roundRat ((offset : Rat) / 65536) ∧ n.time.steps = s.time.steps ∧ n.time.raw0 = s.time.raw0 ∧
      n.time.t0 = s.time.t0 ∧ n.time.outs = s.time.outs ∧ Only [.clock, .time, .log, .net] s n) ∧
  (∀ (t : Nat) (offset : Int) (s : State), timeSource s = 2 → s.time.pending = none →
    (cfgN s Fld.timebase_step_threshold 0 : Rat) < absRat ((offset : Rat) / 65536) →
    Completes (.timeServoMeasurement t offset) s fun n =>
      (∃ rate, n.time.pending = some (rawTicks n + 16, -offset, rate)) ∧ n.time.steps = wrapInc 16 s.time.steps ∧
      RaisedNext s 0x0B12 (sgBytes 8 (roundRat (-((offset : Rat) / 65536)))) n ∧ n.time.outs = s.time.outs ∧
      Only [.clock, .time, .log, .net] s n) ∧
  (∀ (t : Nat) (s : State), s.time.state = .locked → timeSource s = 2 → s.time.pending = none →
    (∀ k, s.ring.timeSeen = some k → k + msT 1 < t) →
    Completes (.timeSourceLost t) s fun n => n.time.state = .holdover ∧ n.time.outs = s.time.outs ∧
      Only [.clock, .time, .log, .net] s n)

/-- R425 and R426: a change is a raw count, a step and a rate. Readings below its count, from the old anchor's count on, use
the old anchor, readings at or after it the new one: raw0 the count, t0 the time of the old anchor there plus the step, and the
new rate. From its count on the change is in force, and no reading at or after the old anchor's count changes by it for 1 s,
none at or after the new count ever; for how long the old anchor is kept is the model's choice (log entry 61). -/
def Obligations.AnchorChanges : Prop :=
  ∀ (rc : Nat) (step rate : Int) (s : State), s.time.pending = some (rc, step, rate) →
    (∀ d : Nat, s.time.raw0 * 256 ≤ rawOf s d → rawOf s d < rc * 256 →
      timeAt s d = anchorTime s.time.raw0 s.time.t0 s.time.rate (rawOf s d)) ∧
    (∀ d : Nat, rc * 256 ≤ rawOf s d →
      timeAt s d = anchorTime rc (anchorTime s.time.raw0 s.time.t0 s.time.rate (rc * 256) + step) rate (rawOf s d)) ∧
    (∀ t : Nat, rc * 256 ≤ rawOf s (max s.now t) →
      Completes (.timeChangeApply t) s fun n =>
        n.time = { s.time with
          raw0 := rc, t0 := anchorTime s.time.raw0 s.time.t0 s.time.rate (rc * 256) + step, rate := rate, pending := none
          old := n.time.old } ∧
        (∀ d : Nat, rc * 256 ≤ rawOf s d → timeAt n d = timeAt s d) ∧
        (rawTicks n ≤ rc + 250000000 → ∀ d : Nat, s.time.raw0 * 256 ≤ rawOf s d → timeAt n d = timeAt s d) ∧
        Only [.clock, .time] s n)

/-- PTP (R431 to R433): a one-step Sync of the master measures the difference from its origin; a delay request in MASTER state
is answered with its ingress time, whole nanoseconds in its time stamp and the fraction off its correctionField; a message
outside the supported set is discarded and counted (R54). A Sync falls due in MASTER state only: one goes out with its egress
time, and the sequence rises. What the spec takes from IEEE 1588 is presumed (log entry 61). -/
def Obligations.PtpMessages : Prop :=
  (∀ (t port dom src seq : Nat) (origin corr : Int) (a : PtpAnnounce) (s : State), ptpOn s = true →
    port = cfgN s Fld.ptp_port 0 → dom = cfgN s Fld.ptp_domain 0 → s.time.master = some (src, a) →
    Completes (.ptpMessageReceived t port (.sync dom src seq false origin corr)) s fun n =>
      n.time = { s.time with syncDiff := some (timeNow n - origin - corr), syncHeld := none, lastSync := some n.now } ∧
      Only [.clock, .time] s n) ∧
  (∀ (t port dom src seq : Nat) (corr : Int) (s : State), ptpOn s = true → port = cfgN s Fld.ptp_port 0 → dom = cfgN s Fld.ptp_domain 0 →
    s.time.ptpMaster = true →
    Completes (.ptpMessageReceived t port (.delayReq dom src seq corr)) s fun n =>
      n.sent = [.ptp port 9 seq (timeNow n - timeNow n % 65536) (corr - timeNow n % 65536) .ordinary] ∧ Only [.clock] s n) ∧
  (∀ (t port : Nat) (s : State), (portOf s port).linkUp = true →
    Completes (.ptpMessageReceived t port .unsupported) s fun n =>
      (portOf n port).discarded = wrapInc 16 (portOf s port).discarded ∧ n.time = s.time ∧ Only [.clock, .net] s n) ∧
  (∀ (t : Nat) (s : State), ptpOn s = true → s.time.ptpMaster = true → cfgN s Fld.ptp_one_step 0 = 1 →
    Completes (.ptpMessageDue t .sync) s fun n =>
      n.sent = [.ptp (cfgN s Fld.ptp_port 0) 0 s.time.ptpSeq (timeNow n - timeNow n % 65536) (timeNow n % 65536)
        (oneStepSum s)] ∧
      n.time = { s.time with ptpSeq := wrapInc 16 s.time.ptpSeq } ∧ Only [.clock, .time] s n) ∧
  (∀ (t : Nat) (s : State), s.time.ptpMaster = false → exec (.ptpMessageDue t .sync) s = .next (beginAt t s))

/-! ### Updates (21_firmware_update.md, 18_configuration_image.md) -/

/-- IMAGE_BEGIN of a configuration image or a bundle whose header passes the early checks opens a fresh download: no block, the
next block 0, a bundle's slot INCOMPLETE; a bundle header that fails opens nothing, and the result names the check (R596).
IMAGE_BLOCK with a good CRC queues its write, with a wrong one it is BLOCK_CRC and has no effect (R597). IMAGE_VERIFY,
IMAGE_ACTIVATE and IMAGE_CONFIRM ask for what they name (R600, R601, R603); IMAGE_ABORT ends the download and empties its slot,
or the staging area of a configuration (R604). -/
def Obligations.UpdateMessages : Prop :=
  (∀ (t i : Nat) (src : Src) (payload : List Byte) (s : State), Admitted t src 0x60 payload s i → Settled s → fld payload 4 1 = 1 →
    s.mod.romServed = false → s.update.current.length = 2 → beginOutcome s 1 ((payload.drop 8).take 256) = 0 →
    s.flash.stagingHeader ≠ (payload.drop 8).take 256 →
    Completes (.imageBegin t src payload) s fun n =>
      n.flash = { s.flash with staging := [], stagingHeader := (payload.drop 8).take 256 } ∧ hasDownload n 1 = true ∧
      actedOn n = some 1 ∧ Ready (fld payload 0 4) (leBytes 1 0 ++ leBytes 1 4 ++ leBytes 2 0 ++ leBytes 4 0 ++
        leBytes 4 (blockCount ((payload.drop 8).take 256))) n ∧ Only [.clock, .net, .pair, .flash, .update] s n) ∧
  (∀ (t i : Nat) (src : Src) (payload : List Byte) (s : State), Admitted t src 0x60 payload s i → Settled s → fld payload 4 1 = 0 →
    TwoSlots s → s.update.current.length = 2 →
    Completes (.imageBegin t src payload) s fun n =>
      (beginOutcome s 0 ((payload.drop 8).take 256) = 0 → (slotRec s (targetSlot s)).header ≠ (payload.drop 8).take 256 →
        (slotRec n (targetSlot s)).header = (payload.drop 8).take 256 ∧ (slotRec n (targetSlot s)).blocks = [] ∧
        SlotWritten s (targetSlot s) 1 [] n ∧
        slotRec n (otherSlot (targetSlot s)) = slotRec s (otherSlot (targetSlot s)) ∧ actedOn n = some 0 ∧
        Ready (fld payload 0 4) (leBytes 1 0 ++ leBytes 1 (targetSlot s) ++ leBytes 2 0 ++ leBytes 4 0 ++
          leBytes 4 (blockCount ((payload.drop 8).take 256))) n) ∧
      (beginOutcome s 0 ((payload.drop 8).take 256) ≠ 0 →
        n.flash = s.flash ∧ n.update = { s.update with lastKind := some 0 } ∧
        Ready (fld payload 0 4) (leBytes 1 (beginOutcome s 0 ((payload.drop 8).take 256)) ++ leBytes 1 (targetSlot s) ++
          leBytes 2 0 ++ leBytes 4 0 ++ leBytes 4 (blockCount ((payload.drop 8).take 256))) n) ∧
      Only [.clock, .net, .pair, .flash, .update] s n) ∧
  (∀ (t i : Nat) (src : Src) (payload : List Byte) (s : State), Admitted t src 0x61 payload s i → s.mod.romServed = false →
    fld payload 4 1 ≤ 1 → 12 ≤ payload.length → hasDownload s (fld payload 4 1) = true →
    fld payload 0 4 < blockCount (downloadHeader s (fld payload 4 1)) →
    (payload.drop 12).length = blockLength (downloadHeader s (fld payload 4 1)) (fld payload 0 4) →
    (crc32c (payload.drop 12) = fld payload 8 4 → Completes (.imageBlock t src payload) s fun n =>
      n.update = { s.update with queue := s.update.queue ++
        [{ kind := fld payload 4 1, block := fld payload 0 4, data := payload.drop 12, crc := fld payload 8 4 }] } ∧
      Only [.clock, .net, .pair, .update] s n) ∧
    (crc32c (payload.drop 12) ≠ fld payload 8 4 → Completes (.imageBlock t src payload) s fun n => Only [.clock, .net, .pair] s n)) ∧
  (∀ (t i k : Nat) (src : Src) (payload : List Byte) (s : State), Admitted t src 0x62 payload s i → actedOn s = some k →
    Completes (.imageVerify t src payload) s fun n =>
      n.update = { s.update with verifying := s.update.verifying ++ [(k, fld payload 0 4, false)] } ∧
      Pending (fld payload 0 4) n ∧ Only [.clock, .net, .pair, .update] s n) ∧
  (∀ (t i : Nat) (src : Src) (payload : List Byte) (s : State), Admitted t src 0x63 payload s i → s.mod.state = .idle →
    actedOn s = some 0 → slotState s (targetSlot s) = 3 →
    Completes (.imageActivate t src payload) s fun n =>
      n.update = { s.update with verifying := s.update.verifying ++ [(0, fld payload 0 4, true)] } ∧
      Pending (fld payload 0 4) n ∧ Only [.clock, .net, .pair, .update] s n) ∧
  (∀ (t i : Nat) (src : Src) (payload : List Byte) (s : State), Admitted t src 0x63 payload s i → s.mod.state = .idle →
    actedOn s = some 1 → s.update.confValid = true →
    Completes (.imageActivate t src payload) s fun n =>
      n.update = { s.update with activating := s.update.activating ++ [fld payload 0 4] } ∧
      Pending (fld payload 0 4) n ∧ Only [.clock, .net, .pair, .update] s n) ∧
  (∀ (t i : Nat) (src : Src) (s : State), Admitted t src 0x64 [] s i → s.mod.romServed = false → s.update.trial = true →
    Completes (.imageConfirm t src) s fun n =>
      n.update = { s.update with confirmReceived := true } ∧ Only [.clock, .net, .pair, .update] s n) ∧
  (∀ (t i : Nat) (src : Src) (s : State), Admitted t src 0x65 [] s i → s.update.trial = false → actedOn s = some 0 →
    TwoSlots s →
    Completes (.imageAbort t src) s fun n =>
      (slotRec n (targetSlot s)).header = [] ∧ (slotRec n (targetSlot s)).blocks = [] ∧ SlotWritten s (targetSlot s) 0 [] n ∧
      slotRec n (otherSlot (targetSlot s)) = slotRec s (otherSlot (targetSlot s)) ∧
      hasDownload n 0 = false ∧ n.update.queue = s.update.queue.filter (fun j => j.kind ≠ 0) ∧
      Only [.clock, .net, .pair, .flash, .update] s n) ∧
  (∀ (t i : Nat) (src : Src) (s : State), Admitted t src 0x65 [] s i → s.update.trial = false → actedOn s = some 1 →
    Completes (.imageAbort t src) s fun n =>
      n.flash = { s.flash with stagingHeader := [], staging := [] } ∧ hasDownload n 1 = false ∧ n.update.confValid = false ∧
      n.update.queue = s.update.queue.filter (fun j => j.kind ≠ 1) ∧ Only [.clock, .net, .pair, .flash, .update] s n)

/-- FLASH_BLOCK_WRITTEN puts the oldest waiting block in its place, and a bundle's slot is DOWNLOADED once no block is missing
(R598). IMAGE_VERIFY_DONE of a bundle that passes every check makes its slot VERIFIED, its result ready (R600); an activation
goes on to select it, on trial, and restarts (R601). -/
def Obligations.BlocksAndVerification : Prop :=
  (∀ (t : Nat) (j : FlashJob) (rest : List FlashJob) (s : State), s.update.queue = j :: rest → j.kind = 0 →
    TwoSlots s → recordFirst s = false →
    Completes (.flashBlockWritten t) s fun n =>
      (slotRec n (targetSlot s)).blocks = putBlock j (slotRec s (targetSlot s)).blocks ∧
      (slotRec n (targetSlot s)).header = (slotRec s (targetSlot s)).header ∧
      slotState n (targetSlot s) =
        blockState (slotRec s (targetSlot s)).header (putBlock j (slotRec s (targetSlot s)).blocks) ∧
      slotRec n (otherSlot (targetSlot s)) = slotRec s (otherSlot (targetSlot s)) ∧ n.update.queue = rest ∧
      n.sent = [.flashWrite 0] ∧ Only [.clock, .flash, .update] s n) ∧
  (∀ (t : Nat) (j : FlashJob) (rest : List FlashJob) (s : State), s.update.queue = j :: rest → j.kind = 1 →
    recordFirst s = false →
    Completes (.flashBlockWritten t) s fun n =>
      n.flash = { s.flash with staging := putBlock j s.flash.staging } ∧
      n.update = { s.update with queue := rest, confValid := false } ∧ Only [.clock, .flash, .update] s n) ∧
  (∀ (t : Nat) (s : State), recordFirst s = true → exec (.flashBlockWritten t) s = .next (beginAt t s)) ∧
  (∀ (t k : Nat) (rest : List (Nat × Nat × Bool)) (s : State), s.update.verifying = (0, k, false) :: rest → s.ring.state ≠ .king →
    Answerable k s →
    Completes (.imageVerifyDone t) s fun n =>
      Ready k (bundleBody s (targetSlot s)) n ∧ n.update = { s.update with verifying := rest } ∧
      ((bundleOutcome s (targetSlot s)).1 = 0 → TwoSlots s → slotState n (targetSlot s) = 3) ∧
      ((bundleOutcome s (targetSlot s)).1 ≠ 0 → n.flash = s.flash) ∧ Only [.clock, .net, .pair, .flash, .update] s n) ∧
  (∀ (t k : Nat) (rest : List (Nat × Nat × Bool)) (s : State), s.update.verifying = (1, k, false) :: rest → Answerable k s →
    Completes (.imageVerifyDone t) s fun n =>
      Ready k (configBody s) n ∧ n.update = { s.update with verifying := rest, confValid := (configOutcome s).1 = 0 } ∧
      Only [.clock, .net, .pair, .update] s n) ∧
  (∀ (t k : Nat) (rest : List (Nat × Nat × Bool)) (s : State), s.update.verifying = (0, k, true) :: rest → s.mod.state = .idle →
    s.ring.state ≠ .king → s.ring.state ≠ .member → Answerable k s →
    Completes (.imageVerifyDone t) s fun n =>
      ((bundleOutcome s (targetSlot s)).1 = 0 →
        n.mod.state = .boot ∧ (bootRec n).selected = targetSlot s ∧ (bootRec n).previous = otherSlot (targetSlot s) ∧
        (bootRec n).trial = 3 ∧ (bootRec n).confirmed = false) ∧
      ((bundleOutcome s (targetSlot s)).1 ≠ 0 →
        Ready k (bundleBody s (targetSlot s)) n ∧ n.mod = s.mod ∧ n.flash = s.flash ∧
        n.update = { s.update with verifying := rest }))

/-- CONFIG_ACTIVATION_DONE writes the image to both installed areas under the next sequence number, and leaves it pending until
the next start (R541, R542). BUNDLE_CONFIRMED marks the running slot CONFIRMED and ends the trial (R602). FLASH_RECORD_WRITTEN
writes the calibration store over the older copy, and reports the write or its failure (R418). -/
def Obligations.RecordsAreWritten : Prop :=
  (∀ (t k : Nat) (rest : List Nat) (s : State), s.update.activating = k :: rest → inRun s = false →
    s.update.records.contains .calibration = false → s.flash.areas.length = 5 → olderFormat (downloadBytes s 1) = false →
    Answerable k s →
    Completes (.configActivationDone t) s fun n =>
      (∃ q, q = wrapInc 32 (if seqAfter (areaSeq s 1) (areaSeq s 0) then areaSeq s 1 else areaSeq s 0) ∧
        areaOf18 n 0 = some (sealed (downloadBytes s 1) q) ∧ areaOf18 n 1 = some (sealed (downloadBytes s 1) q)) ∧
      areaOf18 n 2 = none ∧ areaOf18 n 3 = none ∧ areaOf18 n 4 = areaOf18 s 4 ∧ n.conf = { s.conf with pending := true } ∧
      Ready k (configBody s) n ∧ Only [.clock, .net, .pair, .flash, .conf, .update] s n) ∧
  (∀ (t : Nat) (s : State), mayConfirm s = true → TwoSlots s → s.update.runningSlot < 2 →
    Completes (.bundleConfirmed t) s fun n =>
      slotState n s.update.runningSlot = 4 ∧ (bootRec n).selected = s.update.runningSlot ∧ (bootRec n).confirmed = true ∧
      (bootRec n).trial = 0 ∧ n.update = { s.update with trial := false } ∧
      RaisedNext s 0x0F31 (leBytes 1 s.update.runningSlot ++ padTo 8 s.update.digest) n ∧
      Only [.clock, .flash, .update, .log, .net] s n) ∧
  (∀ (t : Nat) (s : State), mayWriteRecord s .calibration = true →
    (Completes (.flashRecordWritten t .calibration true) s fun n =>
      n.cal.values = s.cal.values ∧ n.cal.changed = false ∧ RaisedNext s 0x0A16 (leBytes 4 n.cal.storeSeq) n ∧
      (s.flash.calStore.length = 2 →
        some ⟨n.cal.storeSeq, s.cal.values, storeCrc n.cal.storeSeq s.cal.values⟩ ∈ n.flash.calStore) ∧
      Only [.clock, .flash, .update, .log, .net, .cal] s n) ∧
    (Completes (.flashRecordWritten t .calibration false) s fun n =>
      n.flash = s.flash ∧ n.cal = s.cal ∧ Raised 0x0A17 (leBytes 1 (nextPlace (fun x => x.seq) (s.flash.calStore.map validStore))) n)) ∧
  (∀ (t k : Nat) (a : Area) (s : State), mayWriteRecord s .configCopy = true → installedCopy s = some (k, a) →
    s.flash.areas.length = 5 →
    Completes (.flashRecordWritten t .configCopy true) s fun n =>
      areaOf18 n (1 - k) = some a ∧ Only [.clock, .flash, .update] s n)

/-! ### Position inputs and triggers (09_web_position.md) -/

/-- A quadrature step forward counts one up, a step backward one down; a change of both levels at once is illegal: counted, the
count as it was (R257, R258, R259). The test counter of a loop-back of the input counts a step too (R651). Levels that too few
samples show have no effect (R255). Wire disagreements are counted, and a run of wire_samples is POSITION_FAULT with events
0x0610 and 0x0613 (R253, R254); an index event within its window moves the count onto the reference (R262), where enough
samples show it (R255); an SSI frame that passes every check moves the count by its step (R263 to R265); a fault with no
trouble for fault_clear ends (R267). -/
def Obligations.PositionInputs : Prop :=
  (∀ (t i agreed : Nat) (a b : Bool) (s : State), isQuadrature s i = true → i < s.pos.inputs.length →
    cfgN s Fld.position_filter_samples i + 1 ≤ agreed → cfgN s Fld.position_invert i = 0 →
    ((quadraturePhase a b + 4 - quadraturePhase (inputOf s i).a (inputOf s i).b) % 4 = 1 →
      Completes (.quadratureEdge t i a b agreed) s fun n =>
        (inputOf n i).count = wrap48 ((inputOf s i).count + 1) ∧ (inputOf n i).direction = 1 ∧ (inputOf n i).a = a ∧
        (inputOf n i).b = b ∧ (∀ j, j ≠ i → inputOf n j = inputOf s j) ∧ n.loops = (countTest i s).loops ∧
        Only [.clock, .pos, .fire, .log, .net, .loops] s n) ∧
    ((quadraturePhase a b + 4 - quadraturePhase (inputOf s i).a (inputOf s i).b) % 4 = 3 →
      Completes (.quadratureEdge t i a b agreed) s fun n =>
        (inputOf n i).count = wrap48 ((inputOf s i).count - 1) ∧ (inputOf n i).direction = -1 ∧ (inputOf n i).a = a ∧
        (inputOf n i).b = b ∧ (∀ j, j ≠ i → inputOf n j = inputOf s j) ∧ n.loops = (countTest i s).loops ∧
        Only [.clock, .pos, .fire, .log, .net, .loops] s n) ∧
    ((quadraturePhase a b + 4 - quadraturePhase (inputOf s i).a (inputOf s i).b) % 4 = 2 → (inputOf s i).errors = [] →
      Completes (.quadratureEdge t i a b agreed) s fun n =>
        (inputOf n i).count = (inputOf s i).count ∧ (inputOf n i).illegal = wrapInc 16 (inputOf s i).illegal ∧
        (inputOf n i).fault = (inputOf s i).fault ∧ (∀ j, j ≠ i → inputOf n j = inputOf s j) ∧ Only [.clock, .pos] s n)) ∧
  (∀ (t i agreed : Nat) (a b : Bool) (s : State), agreed < cfgN s Fld.position_filter_samples i + 1 →
    exec (.quadratureEdge t i a b agreed) s = .next (beginAt t s)) ∧
  (∀ (t i pair samples : Nat) (s : State), isQuadrature s i = true → i < s.pos.inputs.length → pair < 3 → 0 < samples →
    (samples < cfgN s Fld.position_wire_samples i → Completes (.wireFault t i pair samples) s fun n =>
      inputOf n i = { inputOf s i with
        wireDisagreements := wrapAdd 16 (inputOf s i).wireDisagreements samples, lastTrouble := n.now } ∧
      (∀ j, j ≠ i → inputOf n j = inputOf s j) ∧ Only [.clock, .pos] s n) ∧
    (cfgN s Fld.position_wire_samples i ≤ samples → (inputOf s i).fault = false → inRun s = false →
      Completes (.wireFault t i pair samples) s fun n =>
        inputOf n i = { inputOf s i with
          wireDisagreements := wrapAdd 16 (inputOf s i).wireDisagreements samples, lastTrouble := n.now, fault := true } ∧
        RaisedNext s 0x0610 (leBytes 1 i ++ leBytes 1 1) n ∧ Raised 0x0613 (leBytes 1 i ++ leBytes 1 pair) n ∧
        (∀ j, j ≠ i → inputOf n j = inputOf s j) ∧ Only [.clock, .pos, .log, .net] s n)) ∧
  (∀ (t i agreed : Nat) (s : State), isQuadrature s i = true → i < s.pos.inputs.length → cfgN s Fld.position_index_use i = 1 →
    cfgN s Fld.position_filter_samples i + 1 ≤ agreed → (∀ u a b m, Instr.quadratureEdge u i a b m ∉ s.pending) →
    (indexSlipOf s i).natAbs ≤ cfgN s Fld.position_index_window i →
    Completes (.indexEvent t ⟨i, agreed⟩) s fun n =>
      (inputOf n i).count = wrap48 ((inputOf s i).count + indexSlipOf s i) ∧ (inputOf n i).uncertainty = 0 ∧
      (inputOf n i).mismatches = 0 ∧ (inputOf n i).indexSeen = true ∧
      (∀ j, j ≠ i → inputOf n j = inputOf s j) ∧ Only [.clock, .pos, .fire, .log, .net] s n) ∧
  (∀ (t i agreed : Nat) (s : State), agreed < cfgN s Fld.position_filter_samples i + 1 →
    exec (.indexEvent t ⟨i, agreed⟩) s = .next (beginAt t s)) ∧
  (∀ (t i p : Nat) (f : SsiBits) (s : State), isSsiOn s i = true → i < s.pos.inputs.length → f.idleHigh = true → f.startLow = true →
    f.endLow = true → ssiParityOk s i f = true → ones (cfgN s Fld.position_ssi_extra i) f.status = 0 →
    (inputOf s i).ssiPrev = some p →
    (ssiStepOf s i (ssiValue s i f) p).natAbs ≤ cfgN s Fld.position_ssi_max_step i →
    Completes (.ssiFrame t i f) s fun n =>
      (inputOf n i).count = wrap48 ((inputOf s i).count + ssiStepOf s i (ssiValue s i f) p) ∧
      (inputOf n i).ssiPrev = some (ssiValue s i f) ∧ (inputOf n i).ssiFrameErrors = (inputOf s i).ssiFrameErrors ∧
      (∀ j, j ≠ i → inputOf n j = inputOf s j) ∧ Only [.clock, .pos, .fire, .log, .net] s n) ∧
  (∀ (t i : Nat) (s : State), i < s.pos.inputs.length → (inputOf s i).fault = true →
    (inputOf s i).lastTrouble + msT (cfgN s Fld.position_fault_clear 0) ≤ t →
    Completes (.positionFaultCleared t i) s fun n =>
      inputOf n i = { inputOf s i with fault := false } ∧ RaisedNext s 0x0611 (leBytes 1 i) n ∧
      (∀ j, j ≠ i → inputOf n j = inputOf s j) ∧ Only [.clock, .pos, .log, .net] s n)

/-- The trigger that an extrapolated point or a coast issues goes to each bar that the input feeds, dated at the point, and the
next line is the next number (R280, R269). An auxiliary channel reached, where no line trigger is due before it (R285), goes on
to its next point and, for an output, drives the pulse (R284). -/
def Obligations.PointsTrigger : Prop :=
  (∀ (t i d : Nat) (s : State), i < s.pos.inputs.length → s.fire.bars.length = 8 → (inputOf s i).scheduled = some d → d ≤ t →
    triggersOn s i = true →
    Completes (.extrapolatedTrigger t i) s fun n =>
      (inputOf n i).nextLine = (inputOf s i).nextLine + 1 ∧ (inputOf n i).triggers = wrapInc 32 (inputOf s i).triggers ∧
      (∀ b ∈ fedBars s i, (barOf n b).trigs =
        (barOf s b).trigs ++ [{ n := (inputOf s i).nextLine, t := d, kind := .extrapolated }]) ∧
      (∀ b, b ∉ fedBars s i → barOf n b = barOf s b) ∧ (∀ j, j ≠ i → inputOf n j = inputOf s j) ∧ Only [.clock, .pos, .fire] s n) ∧
  (∀ (t i : Nat) (c : Coast) (s : State), i < s.pos.inputs.length → s.fire.bars.length = 8 → (inputOf s i).coast = some c →
    coastDate s i c ≤ t → c.issued + 1 < cfgN s Fld.position_coast_limit 0 →
    Completes (.coastTrigger t i) s fun n =>
      (inputOf n i).nextLine = (inputOf s i).nextLine + 1 ∧
      (inputOf n i).coastTriggers = wrapInc 16 (inputOf s i).coastTriggers ∧
      (inputOf n i).coast = some { c with issued := c.issued + 1 } ∧
      (∀ b ∈ fedBars s i, (barOf n b).trigs =
        (barOf s b).trigs ++ [{ n := (inputOf s i).nextLine, t := n.now, kind := .coast }]) ∧
      (∀ b, b ∉ fedBars s i → barOf n b = barOf s b) ∧ (∀ j, j ≠ i → inputOf n j = inputOf s j) ∧ Only [.clock, .pos, .fire] s n) ∧
  (∀ (t k o w : Nat) (x : Aux) (s : State), k < s.pos.aux.length → s.pos.aux.getD k none = some x →
    linesFirst (beginAt t s) = beginAt t s → auxReached (beginAt t s) x = true → x.action = .pulse o w → strobeCam s o = none → o < 9 → s.time.outs.length = 9 →
    Completes (.auxCompareTrigger t k) s fun n =>
      n.pos.aux.getD k none = some { x with point := x.point + x.spacing, count := x.count - 1 } ∧
      n.time.outs.getD o {} = { s.time.outs.getD o {} with
        level := true, fallAt := some (pulseEnd (s.time.outs.getD o {}) (n.now + nsT w)), edges := wrapInc 32 (s.time.outs.getD o {}).edges } ∧
      Only [.clock, .pos, .time] s n)

/-! ### Press inputs and firing (09_web_position.md, 10_firing.md, 22_0824_compatibility.md) -/

/-- An accepted change of a discrete input is dated, counted, and kept with the position it was at (R286, R287); a falling edge
has no other effect, nor has one within the filter's time any. HALT_IN_N asserted outside a run changes its level only (R312);
deasserted, it ends HALTED once RUN_END has come (R138). PRINT_GO's level is followed; outside compatibility mode its edge has
no other effect (R614). In compatibility mode it has none before compat.go_filter agrees; the first accepted rising edge in
ARMED fixes n_go and slot 0's page start compat.go_delay lines after it (R614, R615), unless a stop of the run applies in the
same instant (R617). -/
def Obligations.PressInputs : Prop :=
  (∀ (t d edgeT : Nat) (level : Bool) (s : State), d < s.pos.dins.length → positionOn s = true →
    (level != decide (cfgN s Fld.din_invert d = 1)) = false → (s.pos.dins.getD d {}).level = true →
    edgeT + usT (cfgN s Fld.din_filter d) ≤ t → Completes (.dinChange t d level edgeT) s fun n =>
      n.pos.dins.getD d {} = { level := false, lastRising := false, edges := wrapInc 16 (s.pos.dins.getD d {}).edges
                               lastTime := timeAt (beginAt t s) edgeT
                               lastPosition := (linePosValue s (cfgN s Fld.din_latch_input d) edgeT * 4294967296).floor } ∧
      (∀ j, j ≠ d → n.pos.dins.getD j {} = s.pos.dins.getD j {}) ∧ n.pos.inputs = s.pos.inputs ∧ Only [.clock, .pos] s n) ∧
  (∀ (t d edgeT : Nat) (level : Bool) (s : State), d < s.pos.dins.length → positionOn s = true →
    (level != decide (cfgN s Fld.din_invert d = 1)) = true → (s.pos.dins.getD d {}).level = false →
    edgeT + usT (cfgN s Fld.din_filter d) ≤ t → Completes (.dinChange t d level edgeT) s fun n =>
      (n.pos.dins.getD d {}).level = true ∧ (n.pos.dins.getD d {}).lastRising = true ∧
      (n.pos.dins.getD d {}).edges = wrapInc 16 (s.pos.dins.getD d {}).edges ∧
      (n.pos.dins.getD d {}).lastTime = timeAt (beginAt t s) edgeT ∧ n.pos.inputs = s.pos.inputs ∧
      Only [.clock, .pos, .net, .jobs, .axes, .pair] s n) ∧
  (∀ (t d edgeT : Nat) (level : Bool) (s : State), max s.now t < edgeT + usT (cfgN s Fld.din_filter d) →
    exec (.dinChange t d level edgeT) s = .next (beginAt t s)) ∧
  (∀ (t : Nat) (s : State), inRun s = false →
    Completes (.haltInAsserted t) s fun n => n.mod = { s.mod with haltIn := true } ∧ Only [.clock, .mod] s n) ∧
  (∀ (t : Nat) (s : State), inRun s = true → s.fire.bars.length = 8 →
    Completes (.haltInAsserted t) s fun n =>
      n.mod.state = .halted ∧ n.mod.haltIn = true ∧ ∀ b, b < 8 → halted n b = true) ∧
  (∀ (t : Nat) (a : Armed) (s : State), s.mod.state = .halted → s.jobs.armed = some a →
    (a.runEnded = true → Completes (.haltInDeasserted t) s fun n =>
      n.mod.state = .idle ∧ n.mod.haltIn = false ∧ n.jobs.armed = none) ∧
    (a.runEnded = false → Completes (.haltInDeasserted t) s fun n =>
      n.mod = { s.mod with haltIn := false } ∧ Only [.clock, .mod] s n)) ∧
  (∀ (t edgeT : Nat) (level : Bool) (s : State), s.mod.compat = false →
    Completes (.printGoEdge t level edgeT) s fun n => n.mod = { s.mod with printGo := level } ∧ Only [.clock, .mod] s n) ∧
  (∀ (t edgeT : Nat) (level : Bool) (s : State), s.mod.compat = true →
    max s.now t < edgeT + usT (cfgN s Fld.compat_go_filter 0) → exec (.printGoEdge t level edgeT) s = .next (beginAt t s)) ∧
  (∀ (t edgeT i : Nat) (a : Armed) (s : State), s.mod.compat = true → s.mod.state = .armed → s.mod.printGo = false →
    edgeT + usT (cfgN s Fld.compat_go_filter 0) ≤ max s.now t → s.pending.any (stopsRun (max s.now t)) = false →
    s.jobs.armed = some a → a.nGo = none → a.nextSlot = 0 → placesStart s = true → leadInput s = some i →
    Completes (.printGoEdge t true edgeT) s fun n =>
      n.mod = { s.mod with printGo := true } ∧
      n.jobs = { s.jobs with armed := some { a with
        nGo := some (lineAt (beginAt t s) i edgeT).ceil
        nextStart := some ((lineAt (beginAt t s) i edgeT).ceil + cfgN s Fld.compat_go_delay 0) } } ∧
      Only [.clock, .mod, .log, .net, .jobs] s n)

/-- LINE_TRIGGER with the packet complete: FIRE-SYNC goes out at once, with the line's sequence number, on every data lane of
the bar's links (R302, R306). In ARMED, and with no run, the point is only counted (R292, R300). A deferred FIRE-SYNC goes out
at its time (R306); before it, and with no trigger on its way, nothing happens. -/
def Obligations.LineTriggersFire : Prop :=
  (∀ (t b : Nat) (x : Trig) (rest : List Trig) (p : Packet) (s : State), b < s.fire.bars.length → (barOf s b).trigs = x :: rest →
    x.t ≤ t → isFiring s = true → drives s = true → halted s b = false → (barOf s b).packet = some p → p.n = x.n →
    (barOf s b).pendingSync = [] → (barOf s b).inhibited = false → 1 ≤ (barOf s b).pointsInPrint →
    p.start + packetTime s b ≤ t → (∀ u, (barOf s b).syncLast = some u → u + nsT (cfgN s Fld.firing_min_interval b) ≤ t) →
    Completes (.lineTrigger t b) s fun n =>
      ∀ g ∈ sendingLanes s b, LaneSends (beginAt t s) g (syncSymbols (seqOf s b x.n) ++ laneRest (beginAt t s) g) n) ∧
  (∀ (t b : Nat) (x : Trig) (rest : List Trig) (s : State), b < s.fire.bars.length → (barOf s b).trigs = x :: rest → x.t ≤ t →
    inRun s = false →
    Completes (.lineTrigger t b) s fun n =>
      barOf n b = { barOf s b with trigs := rest, sequence := seqOf s b x.n, lastPoint := some x.n } ∧
      (∀ c, c ≠ b → barOf n c = barOf s c) ∧ n.sent = [] ∧ Only [.clock, .fire] s n) ∧
  (∀ (t b : Nat) (x : Trig) (rest : List Trig) (s : State), b < s.fire.bars.length → (barOf s b).trigs = x :: rest → x.t ≤ t →
    s.mod.state = .armed → halted s b = false →
    Completes (.lineTrigger t b) s fun n =>
      (barOf n b).sequence = seqOf s b x.n ∧ (barOf n b).lastPoint = some x.n ∧ (barOf n b).trigs = rest ∧
      (barOf n b).packet = (barOf s b).packet ∧ (∀ g rd l, Out.lane g rd l ∉ n.sent) ∧
      Only [.clock, .fire, .log, .net] s n) ∧
  (∀ (t b : Nat) (s : State), (barOf s b).trigs = [] → s.mod.state ≠ .drain →
    exec (.lineTrigger t b) s = .next (beginAt t s)) ∧
  (∀ (t b d : Nat) (m : Int) (rest : List (Int × Nat)) (s : State), b < s.fire.bars.length →
    (barOf s b).pendingSync = (m, d) :: rest → d ≤ t → halted s b = false → drives s = true → (barOf s b).inhibited = false →
    Completes (.deferredFireSync t b) s fun n =>
      ∀ g ∈ sendingLanes s b, LaneSends (beginAt t s) g (syncSymbols (seqOf s b m) ++ laneRest (beginAt t s) g) n) ∧
  (∀ (t b d : Nat) (m : Int) (rest : List (Int × Nat)) (s : State), (barOf s b).pendingSync = (m, d) :: rest → max s.now t < d →
    s.mod.state ≠ .drain → exec (.deferredFireSync t b) s = .next (beginAt t s))

/-- A packet is complete a packet time after its start (R301, R335), and not before. OVERSPEED_N deasserts with event 0x0512
once nothing holds it (R309). A halted bar, and in HALTED every bar, repeats HALT on its data lanes (R24, R311); any other
sends nothing. -/
def Obligations.PacketsHaltsOverspeed : Prop :=
  (∀ (t b : Nat) (p : Packet) (s : State), b < s.fire.bars.length → (barOf s b).packet = some p → p.done = none →
    p.start + packetTime s b ≤ t →
    Completes (.linePacketComplete t b) s fun n =>
      barOf n b = { barOf s b with packet := some { p with done := some (p.start + packetTime s b) } } ∧
      (∀ c, c ≠ b → barOf n c = barOf s c) ∧ n.fire.lanes = s.fire.lanes ∧ n.sent = [] ∧ Only [.clock, .fire] s n) ∧
  (∀ (t b : Nat) (p : Packet) (s : State), (barOf s b).packet = some p → max s.now t < p.start + packetTime s b →
    Completes (.linePacketComplete t b) s fun n => barOf n b = barOf s b ∧ n.sent = [] ∧ Only [.clock, .fire] s n) ∧
  (∀ (t : Nat) (s : State), overspeedOver (updateOverspeed (beginAt t s)) = true →
    Completes (.overspeedClear t) s fun n =>
      n.fire = { (updateOverspeed (beginAt t s)).fire with overspeedN := false } ∧ Raised 0x0512 [] n ∧
      Only [.clock, .fire, .log, .net] s n) ∧
  (∀ (t : Nat) (s : State), overspeedOver (updateOverspeed (beginAt t s)) = false →
    exec (.overspeedClear t) s = .next (updateOverspeed (beginAt t s))) ∧
  (∀ (t b : Nat) (s : State), b < 8 → s.fire.lanes.length = 48 → halted s b = true ∨ s.mod.state = .halted → drives s = true →
    Completes (.haltRepeat t b) s fun n =>
      (∀ g ∈ (barLanes b).filter (laneDriven s), LaneSends (beginAt t s) g
        (kHalt :: if (barOf s b).packet.isSome then [] else laneRest (beginAt t s) g) n) ∧
      n.sent.length = ((barLanes b).filter (laneDriven s)).length ∧ n.fire.bars = s.fire.bars ∧
      (∀ g, g ∉ (barLanes b).filter (laneDriven s) → laneOf n g = laneOf s g) ∧ Only [.clock, .fire] s n) ∧
  (∀ (t b : Nat) (s : State), halted s b = false → s.mod.state ≠ .halted → exec (.haltRepeat t b) s = .next (beginAt t s))

/-- FIRE_UNDERRUN puts K30.7 in the place of the symbol that is lacking on its lane, is counted there, and the line of the bar
is damaged (R32, R320); FIRE_DECODE_ERROR, as the block read is MALFORMED or fails its CRC, is counted by kind, and raises
0x0813 for the page that the lane fires (R217). SLOT_RELEASE_POINT releases the next slot with its ready page, and the run is
in PRINT (R117, R122). -/
def Obligations.UnderrunsErrorsReleases : Prop :=
  (∀ (t g : Nat) (p : Packet) (s : State), g < s.fire.lanes.length → g / 6 < s.fire.bars.length →
    (barOf s (g / 6)).packet = some p → packetOnLane (beginAt t s) g = true → cfgN s Fld.firing_damage_policy 0 = 0 →
    Completes (.fireUnderrun t g) s fun n =>
      (laneOf n g).underruns = wrapInc 16 (laneOf s g).underruns ∧
      (laneOf n g).stream = kError :: (laneRest (beginAt t s) g).drop 1 ∧
      LaneSends (beginAt t s) g (kError :: (laneRest (beginAt t s) g).drop 1) n ∧
      (∀ h, h ≠ g → laneOf n h = laneOf s h) ∧
      barOf n (g / 6) = { barOf s (g / 6) with damagedLines := wrapInc 16 (barOf s (g / 6)).damagedLines } ∧
      n.mod = s.mod ∧ Only [.clock, .fire, .jobs, .log, .net, .pair] s n) ∧
  (∀ (t g block kind done base : Nat) (strip : Bool) (read : BlockRead) (x : Slot) (p : LanePart) (s : State), isFiring s = true →
    readingSlot s g block = some (x, p, done, base, strip) → (deliverBlock p block read).2 = some kind → cfgN s Fld.firing_damage_policy 0 = 0 →
    Completes (.fireDecodeError t g (block, read)) s fun n =>
      RaisedNext s 0x0813 (leBytes 1 g ++ leBytes 4 x.page ++ leBytes 2 block ++ leBytes 1 kind) n ∧
      n.render.decompressors = s.render.decompressors.modify g
        (fun d => if kind = 0 then (wrapInc 16 d.1, d.2) else (d.1, wrapInc 16 d.2)) ∧
      (∃ y, slotOf n x.num = some y ∧ (g, block, read) ∈ (if strip then y.stripUpsets else y.upsets)) ∧ n.mod = s.mod ∧
      n.jobs.pages = s.jobs.pages ∧ Only [.clock, .fire, .render, .jobs, .log, .net, .pair] s n) ∧
  (∀ (t id next : Nat) (rest : List Nat) (start rp : Int) (a : Armed) (s : State), decidesSlots s = true → s.mod.state = .armed →
    inGroup s = false → partnerTakes s = false → s.mod.compat = false → s.cal.rerendering = false → s.jobs.armed = some a →
    a.queue = id :: next :: rest → a.hold = false → a.releasesEnded = false → a.nextStart = some start →
    releasePoint s a = some rp → rp < leadNextLine s → slotReadyHere s = true →
    Completes (.slotReleasePoint t) s fun n =>
      n.mod.state = .print ∧
      (∃ a', n.jobs.armed = some a' ∧ a'.nextSlot = a.nextSlot + 1 ∧ a'.queue = next :: rest ∧
        ∃ x ∈ a'.slots, x.num = a.nextSlot ∧ x.page = id ∧ x.start = start ∧ x.state = .released ∧ x.ended = false) ∧
      Raised 0x0314 (leBytes 4 a.nextSlot ++ leBytes 4 id) n ∧ n.jobs.pages = s.jobs.pages ∧ n.jobs.runs = s.jobs.runs)

/-! ### Rendering and memory (05_composition.md, 07_raron_codec.md, 08_memory.md) -/

/-- PAGE_RENDER_START takes up the first page of the run that may start: RENDERING, its space reserved, at line 0 (R117, R120,
R121). COMPOSITION_LINE composes its next line (R140), reads a block that fails its check again, and with no retry left gives
the tile up (R146, R147); CHUNK_COMPRESSED stores a block of it (R189, R212); PAGE_RENDERED makes it RENDERED, its result ready
(R111, R117). -/
def Obligations.PagesRender : Prop :=
  (∀ (t k : Nat) (rest : List (Nat × Nat)) (a : Armed) (pg : Page) (s : State), s.render.now = none → s.jobs.sealing = false → rendersRun s = true →
    s.cal.waiting = [] → s.cal.rerenderPages = [] → s.jobs.armed = some a → comingSlots s = (k, pg.id) :: rest →
    pageOf s pg.id = some pg → pg.state = .defined → aheadCount s < a.run.renderAhead → surfacesSealed s pg = true →
    lutLost s pg = false → badLayer s pg = none → contextsExceeded s pg = none → 0 < s.gov.renderDuty →
    pageStoreUsed s + (pageReservation s.conf.cfg { pg with margin := pageMargin s a.run pg } - pg.reserved) ≤ pageStore s →
    Completes (.pageRenderStart t) s fun n =>
      (n.render.now.map fun r => (r.page, r.line, r.strip)) = some (pg.id, 0, none) ∧
      (∃ q, pageOf n pg.id = some q ∧ q.state = .rendering ∧
        q.reserved = max pg.reserved (pageReservation s.conf.cfg { pg with margin := pageMargin s a.run pg })) ∧
      (∀ j, j ≠ pg.id → pageOf n j = pageOf s j) ∧ n.jobs.surfaces = s.jobs.surfaces) ∧
  (∀ (t : Nat) (r : Rendering) (pg : Page) (s : State), s.render.now = some r → r.strip = none → r.failed = false →
    pageOf s r.page = some pg → r.line < pg.length → surfacesSealed s pg = true → lineFailure s pg r.line none = none →
    endingRegions pg r.line = [] →
    0 < s.gov.renderDuty →
    Completes (.compositionLine t ⟨none, []⟩) s fun n =>
      (n.render.now.map fun q => (q.page, q.line, q.failed)) = some (r.page, r.line + 1, false) ∧
      n.render.contexts = lineContexts s pg r.line ∧ n.jobs.surfaces = s.jobs.surfaces ∧
      (∀ j, j ≠ r.page → pageOf n j = pageOf s j) ∧ Only [.clock, .jobs, .render] s n) ∧
  (∀ (t : Nat) (b : Nat × Nat × Nat) (bad : Option (Nat × Nat × Nat)) (r : Rendering) (pg : Page) (s : State),
    s.render.now = some r → r.strip = none → pageOf s r.page = some pg → r.line < pg.length → surfacesSealed s pg = true →
    lineFailure s pg r.line bad = some (b, false) → 0 < s.gov.renderDuty →
    (retriesOf r b < cfgN s Fld.render_decode_retries 0 → Completes (.compositionLine t ⟨bad, []⟩) s fun n =>
      (n.render.now.map fun q => (q.page, q.line, retriesOf q b)) = some (r.page, r.line, retriesOf r b + 1) ∧
      n.render.decodeRetries = wrapAdd 16 s.render.decodeRetries 1 ∧
      n.render.surfaceBlockFailures = wrapAdd 16 s.render.surfaceBlockFailures 1 ∧ Only [.clock, .render] s n) ∧
    (cfgN s Fld.render_decode_retries 0 ≤ retriesOf r b → Completes (.compositionLine t ⟨bad, []⟩) s fun n =>
      n.render.now = none ∧ ((pageOf n r.page).map fun q => q.state) = some .defined ∧
      (∀ f ∈ n.jobs.surfaces, f.id = b.1 → f.sealed = false ∧ ∀ q ∈ f.tiles, q.1 ≠ b.2.1) ∧
      RaisedNext s 0x0319 (leBytes 4 b.1 ++ leBytes 4 b.2.1) n ∧ Only [.clock, .jobs, .render, .log, .net] s n)) ∧
  (∀ (t comp : Nat) (mismatch : Bool) (c : Compressor) (ch : Chunk) (r : Rendering) (pg : Page) (s : State),
    s.render.compressors[comp]? = some c →
    c.input = some ch → s.render.now = some r → r.waiting = [] → r.strip = none → pageOf s r.page = some pg → 0 < s.gov.renderDuty →
    Completes (.chunkCompressed t comp mismatch) s fun n =>
      pageOf n r.page = some { pg with
        parts := storeInPart ch.lane ch.num (blockAddress s)
          (if mismatch then rawBlock (ch.num % 65536) ch.bytes else encodeChunk (ch.num % 65536) ch.bytes) pg.parts } ∧
      (n.render.compressors[comp]?).map (fun c => c.input) = some none ∧
      n.render.blocksWritten = wrapInc 32 s.render.blocksWritten ∧ n.render.encodeMismatches = (if mismatch then wrapInc 16 s.render.encodeMismatches else s.render.encodeMismatches) ∧
      (mismatch = true → s.render.mismatchPages.contains ch.page = false → (c.mismatches < 2 ∨ c.retired = true) →
        RaisedNext s 0x0811 (leBytes 1 comp ++ leBytes 4 ch.page) n) ∧
      Only (if mismatch then [.clock, .jobs, .render, .free, .log, .net] else [.clock, .jobs, .render, .free]) s n) ∧
  (∀ (t : Nat) (r : Rendering) (pg : Page) (s : State), s.render.now = some r → r.strip = none → r.failed = false → r.waiting = [] →
    (∀ x ∈ r.open_, x.2.1 = []) → (∀ c ∈ s.render.compressors, c.input = none) → pageOf s r.page = some pg →
    pg.length ≤ r.line → pg.resultDue = true → pg.epUnresolved = none → s.pair.state = .solo → s.pair.linkUp = false →
    inGroup s = false → s.cal.rerendering = false → (∀ a, s.jobs.armed = some a → a.hold = false) → 0 < s.gov.renderDuty →
    Answerable pg.ticket s →
    Completes (.pageRendered t) s fun n =>
      ((pageOf n pg.id).map fun q => q.state) = some .rendered ∧ n.render.now = none ∧
      n.render.pagesRendered = wrapInc 32 s.render.pagesRendered ∧ Ready pg.ticket (pageResult pg 0) n)

/-- FLAG_FALL counts, and raises 0x0710 (R225, R233); a reading of 85 °C doubles a subchannel's refresh, once (R237 to R240); a
scrub period ends its pass (R249); too many corrections raise 0x0711 (R248); an uncorrectable error is counted and reported,
and what it spoils is lost (R250). The sizes of the details are the model's reading (log entries 41 and 76). -/
def Obligations.MemoryEvents : Prop :=
  (∀ (t age : Nat) (s : State), memTrained s = true → 1000 ≤ age → 0 < s.mem.qos.length →
    Completes (.flagFall t 0 age) s fun n =>
      n.mem = { s.mem with qos := s.mem.qos.modify 0 fun q => { q with
        flagFalls := wrapInc 16 q.flagFalls, maxAge := max q.maxAge (min 65535 (age / 100)) } } ∧
      RaisedNext s 0x0710 (leBytes 1 0 ++ leBytes 4 age) n ∧ Only [.clock, .mem, .log, .net] s n) ∧
  (∀ (t : Nat) (v : Int) (temps : List (Option Int)) (s : State), domainOn s 7 = true → 0 < s.mem.sub.length →
    (s.mem.sub.getD 0 {}).doubled = false → highestDt temps = some v → -45 ≤ v → v ≤ 125 →
    (85 ≤ v → Completes (.dtRead t [temps]) s fun n =>
      (n.mem.sub.getD 0 {}).doubled = true ∧ (n.mem.sub.getD 0 {}).dt = some v ∧
      RaisedNext s 0x0713 (leBytes 1 0 ++ sgBytes 2 (16 * v)) n ∧ Only [.clock, .mem, .log, .net] s n) ∧
    (v < 85 → Completes (.dtRead t [temps]) s fun n =>
      (n.mem.sub.getD 0 {}).doubled = false ∧ (n.mem.sub.getD 0 {}).dt = some v ∧ Only [.clock, .mem] s n)) ∧
  (∀ (t : Nat) (temps : List (Option Int)) (s : State), domainOn s 7 = true → 0 < s.mem.sub.length →
    (s.mem.sub.getD 0 {}).doubled = false → highestDt temps = none →
    Completes (.dtRead t [temps]) s fun n =>
      (n.mem.sub.getD 0 {}).doubled = true ∧ (n.mem.sub.getD 0 {}).dt = none ∧
      RaisedNext s 0x0713 (leBytes 1 0 ++ sgBytes 2 0x7FFF) n ∧ Only [.clock, .mem, .log, .net] s n) ∧
  (∀ (t : Nat) (s : State), s.mem.initialised = true → s.mem.scrubSince + secT (3600 * cfgN s Fld.memory_scrub_period 0) ≤ t →
    Completes (.scrubPass t) s fun n =>
      n.mem = { s.mem with scrubPasses := wrapInc 16 s.mem.scrubPasses, scrubSince := n.now } ∧ Only [.clock, .mem] s n) ∧
  (∀ (t d : Nat) (r : BurstRead) (s : State), memTrained s = true → 0 < burstCorrections s r →
    subchannelOf r.addr < s.mem.sub.length →
    Completes (.eccCorrectedRate t (subchannelOf r.addr) [(d, r)]) s fun n =>
      n.mem = { s.mem with sub := s.mem.sub.modify (subchannelOf r.addr) fun x => { x with
        corrected := wrapAdd 16 x.corrected (burstCorrections s r)
        hour := (x.hour.filter fun p => n.now < p.1 + secT 3600) ++ [(min d n.now, burstCorrections s r)] } } ∧
      (hourCorrections n (subchannelOf r.addr) ≤ cfgN s Fld.memory_ce_threshold 0 → n.log = s.log) ∧
      (cfgN s Fld.memory_ce_threshold 0 < hourCorrections n (subchannelOf r.addr) →
        (∀ e ∈ s.log.limits, e.1 = 0x0711 → e.2.1 ≠ subchannelOf r.addr) →
        RaisedNext s 0x0711 (leBytes 1 (subchannelOf r.addr) ++ leBytes 4 (hourCorrections n (subchannelOf r.addr))) n) ∧
      Only [.clock, .mem, .log, .net, .free] s n) ∧
  (∀ (t id : Nat) (burst : BurstRead) (reader : EccReader) (copy : Option BurstRead) (s : State), memTrained s = true →
    burstBad s burst = true → subchannelOf burst.addr < s.mem.sub.length →
    Completes (.eccUncorrectable t burst reader (.systemRun id) copy) s fun n =>
      (n.mem.sub.getD (subchannelOf burst.addr) {}).uncorrectable =
        wrapInc 16 (s.mem.sub.getD (subchannelOf burst.addr) {}).uncorrectable ∧
      RaisedNext s 0x0712 (leBytes 1 (subchannelOf burst.addr) ++ leBytes 8 burst.addr ++ leBytes 1 3 ++
        leBytes 1 (if copyGood s burst copy then 6 else 7)) n ∧
      (copyGood s burst copy = true → n.jobs = s.jobs) ∧
      (copyGood s burst copy = false → n.jobs.runs = (s.jobs.runs.filter fun r => r.id ≠ id) ∧
        (∀ a, s.jobs.armed = some a → n.jobs.armed = some { a with lost := a.lost || decide (a.run.id = id) })) ∧
      Only [.clock, .mem, .jobs, .log, .net, .free] s n) ∧
  (∀ (t : Nat) (burst : BurstRead) (reader : EccReader) (target : EccTarget) (copy : Option BurstRead) (s : State),
    burstBad s burst = false → exec (.eccUncorrectable t burst reader target copy) s = .next (beginAt t s))

/-! ### Head links (11_tollos_link.md) -/

/-- The third consecutive good STATUS frame brings a link UP, with event 0x0410 (R342); a frame that fails is counted and
changes nothing else but the count of stray symbols before it (R330 to R332). Loss of the signal for 10 µs and a silent carrier
take it out of UP, with event 0x0411 and their causes (R345). OWNER frames go out on the lanes of an UP link (R337, R338),
after a LOOP frame where a loop-back runs over it (R644). A link that leaves UP carries training blocks (R339). -/
def Obligations.LinksComeAndGo : Prop :=
  (∀ (t k : Nat) (inverted : Bool) (between frame : List Symbol) (f : List Byte) (s : State), k < 16 → s.links.links.length = 16 →
    (linkOf s k).state = .training → 2 ≤ (linkOf s k).goodFrames → readFrame frame = some f →
    statusValid f = true → statusMeets s k f = true → linkPll s k = true → fld f 22 2 = (linkOf s k).crcErrors →
    fld f 12 4 = noOwner → (linkOf s k).ownerSeen = noOwner →
    Completes (.linkStatusFrame t k inverted between frame) s fun n =>
      (linkOf n k).state = .up ∧ (linkOf n k).carrierId = fld f 4 4 ∧ (linkOf n k).lastStatus = n.now ∧
      (linkOf n k).upInverted = inverted ∧
      (linkOf n k).strays = ((linkOf s k).strays + (between.filter isStray).length) % 65536 ∧
      RaisedNext s 0x0410 (leBytes 1 k ++ leBytes 4 (fld f 4 4) ++ leBytes 1 (b2n ((fld f 1 1).testBit 3))) n ∧
      (∀ j, j ≠ k → linkOf n j = linkOf s j) ∧ Only [.clock, .links, .fire, .log, .net] s n) ∧
  (∀ (t k : Nat) (inverted : Bool) (between frame : List Symbol) (s : State), k < 16 → s.links.links.length = 16 →
    (linkOf s k).state ≠ .disabled → frame ≠ [] → (readFrame frame).filter statusValid = none →
    Completes (.linkStatusFrame t k inverted between frame) s fun n =>
      linkOf n k = { linkOf s k with
        strays := ((linkOf s k).strays + (between.filter isStray).length) % 65536
        statusBad := wrapInc 16 (linkOf s k).statusBad } ∧
      (∀ j, j ≠ k → linkOf n j = linkOf s j) ∧ n.sent = [] ∧ Only [.clock, .links] s n) ∧
  (∀ (t k since : Nat) (s : State), k < s.links.links.length → linkUp s k = true → since + usT 10 ≤ t → inRun s = false → s.loops = [] →
    Completes (.linkUpLost t k since) s fun n =>
      (linkOf n k).state = .training ∧ (linkOf n k).downCause = 1 ∧ (linkOf n k).linkDowns = wrapInc 16 (linkOf s k).linkDowns ∧
      (linkPll s k = true → ∀ l, l < 3 → LaneSends (beginAt t s) (3 * k + l) (trainingBlock k l) n) ∧
      RaisedNext s 0x0411 (leBytes 1 k ++ leBytes 1 1) n ∧ (∀ j, j ≠ k → linkOf n j = linkOf s j) ∧
      Only [.clock, .links, .fire, .log, .net] s n) ∧
  (∀ (t k : Nat) (s : State), k < s.links.links.length → linkUp s k = true →
    (linkOf s k).lastStatus + usT (cfgN s Fld.heads_status_timeout 0) ≤ t → inRun s = false → s.loops = [] →
    Completes (.statusTimeout t k) s fun n =>
      (linkOf n k).state = .training ∧ (linkOf n k).downCause = 2 ∧ RaisedNext s 0x0411 (leBytes 1 k ++ leBytes 1 2) n ∧
      (∀ j, j ≠ k → linkOf n j = linkOf s j) ∧ Only [.clock, .links, .fire, .log, .net] s n) ∧
  (∀ (t g : Nat) (s : State), g < 48 → g < s.fire.lanes.length → linkUp s (g / 3) = true → packetOnLane (beginAt t s) g = false →
    (farLoop s (g / 3) = none → Completes (.ownerFrameDue t g) s fun n =>
      n.sent = [.lane g (laneDisparity (beginAt t s) g)
        (laneRest (beginAt t s) g ++ (frameSymbols (ownerFrame s (g / 3)) ++ [kComma]))] ∧
      (laneOf n g).ownerSent = some (claimWord s) ∧ (laneOf n g).buffer = (laneOf s g).buffer ∧
      (∀ h, h ≠ g → laneOf n h = laneOf s h) ∧ Only [.clock, .fire] s n) ∧
    (∀ l, farLoop s (g / 3) = some l → Completes (.ownerFrameDue t g) s fun n =>
      ∃ loop, n.sent = [.lane g (laneDisparity (beginAt t s) g) (laneRest (beginAt t s) g ++
          (frameSymbols loop ++ [kComma] ++ frameSymbols (ownerFrame s (g / 3)) ++ [kComma]))] ∧
        loop.length = 4104 ∧ loop.take 4 = [0x11, BitVec.ofNat 8 (g % 3), 0, 0] ∧
        (laneOf n g).ownerSent = some (claimWord s) ∧ Only [.clock, .fire, .loops] s n))

/-- R343: a link still training heads.train_timeout after it started raises event 0x0414, once, and goes on training. -/
def Obligations.TrainTimeoutOnce : Prop :=
  ∀ (t k : Nat) (s : State), k < s.links.links.length → (linkOf s k).state = .training →
    (linkOf s k).trainSince + msT (cfgN s Fld.heads_train_timeout 0) ≤ t →
    ((linkOf s k).timeoutRaised = false → Completes (.linkTrainTimeout t k) s fun n =>
      linkOf n k = { linkOf s k with timeoutRaised := true } ∧ RaisedNext s 0x0414 (leBytes 1 k) n ∧
      (∀ j, j ≠ k → linkOf n j = linkOf s j) ∧ Only [.clock, .links, .log, .net] s n) ∧
    ((linkOf s k).timeoutRaised = true → exec (.linkTrainTimeout t k) s = .next (beginAt t s))

/-- PLL_UNLOCK takes every link of the PLL that was UP into TRAINING with cause 6; PLL_RELOCK starts those in TRAINING afresh
(R328, R345). No link of another PLL changes. -/
def Obligations.PllsDriveTheirLinks : Prop :=
  (∀ (t p : Nat) (s : State), s.mod.state ≠ .off → p < 4 → s.links.pll.length = 4 → s.links.links.length = 16 → inRun s = false →
    s.loops = [] →
    Completes (.pllUnlock t p) s fun n =>
      n.links.pll = s.links.pll.set p false ∧
      (∀ k, k / 4 = p → linkUp s k = true → (linkOf n k).state = .training ∧ (linkOf n k).downCause = 6) ∧
      (∀ k, k / 4 = p → linkUp s k = false → linkOf n k = linkOf s k) ∧ (∀ k, k / 4 ≠ p → linkOf n k = linkOf s k) ∧
      Only [.clock, .links, .fire, .log, .net] s n) ∧
  (∀ (t p : Nat) (s : State), p < 4 → s.links.pll.getD p true = false → s.links.links.length = 16 →
    Completes (.pllRelock t p) s fun n =>
      n.links.pll = s.links.pll.set p true ∧
      (∀ k, k / 4 = p → (linkOf s k).state = .training → linkOf n k = trained n.now (linkOf s k)) ∧
      (∀ k, k / 4 ≠ p → linkOf n k = linkOf s k) ∧ Only [.clock, .links, .fire] s n)

/-! ### Cameras and motion as they run (12_inspection_cameras.md, 15_motion.md) -/

/-- A discovery that succeeds makes a port READY, at the lower of the two rates, in generation 0, with event 0x0910; the third
failure in a row is FAULT, which ends after 10 s (R363, R374). A lost connection is DISCOVERY again, with event 0x0911 (R365).
The first image header of a frame is kept, and a control packet that fails its CRC is counted on its connection (R364);
frame_timeout after its trigger a frame ends, is counted, and leaves its record under its own trigger, once no register write
is without its answer (R377, R381, R389). An acknowledged write counts as acknowledged (R377). -/
def Obligations.CameraPortsAndFrames : Prop :=
  (∀ (t c : Nat) (d : CamDiscovery) (s : State), c < s.cams.length → (camOf s c).state = .discovery → camerasOn s = true →
    d.ok = true → cfgN s Fld.camera_connections c ≤ d.connections → d.readBack = true →
    Completes (.cameraDiscovery t c d) s fun n =>
      (camOf n c).state = .ready ∧ (camOf n c).rate = min d.offeredRate (cfgN s Fld.camera_cxp_rate c) ∧
      (camOf n c).generation = 0 ∧ (camOf n c).failures = 0 ∧ (camOf n c).triggers = 0 ∧
      RaisedNext s 0x0910 (leBytes 1 c ++ leBytes 2 (min d.offeredRate (cfgN s Fld.camera_cxp_rate c)) ++
        leBytes 2 (cfgN s Fld.camera_connections c)) n ∧
      (∀ k, k ≠ c → camOf n k = camOf s k) ∧ Only [.clock, .cams, .log, .net] s n) ∧
  (∀ (t c : Nat) (d : CamDiscovery) (s : State), c < s.cams.length → (camOf s c).state = .discovery → camerasOn s = true →
    d.ok = false → (camOf s c).failures = 2 →
    Completes (.cameraDiscovery t c d) s fun n =>
      camOf n c = { camOf s c with failures := 3, state := .fault, faultAt := n.now } ∧
      (∀ k, k ≠ c → camOf n k = camOf s k) ∧ Only [.clock, .cams] s n) ∧
  (∀ (t c : Nat) (s : State), c < s.cams.length → (camOf s c).state = .fault → camerasOn s = true →
    (camOf s c).faultAt + secT 10 ≤ t →
    Completes (.cameraRetry t c) s fun n =>
      camOf n c = { camOf s c with state := .discovery } ∧ (∀ k, k ≠ c → camOf n k = camOf s k) ∧ Only [.clock, .cams] s n) ∧
  (∀ (t c conn cause : Nat) (s : State), c < s.cams.length → (camOf s c).state = .ready → conn < (camOf s c).connections →
    (camOf s c).frame = none →
    Completes (.cameraDown t c conn cause) s fun n =>
      (camOf n c).state = .discovery ∧ (∀ k ∈ (camOf n c).conns, k.locked = false) ∧
      RaisedNext s 0x0911 (leBytes 1 c ++ leBytes 1 cause) n ∧ (∀ k, k ≠ c → camOf n k = camOf s k) ∧
      Only [.clock, .cams, .log, .net] s n) ∧
  (∀ (t c conn w bits tag : Nat) (fr : CamFrame) (s : State), c < s.cams.length → (camOf s c).state = .ready →
    (camOf s c).frame = some fr → fr.header = none →
    Completes (.cameraPacket t c conn (.header w bits tag)) s fun n =>
      camOf n c = { camOf s c with frame := some { fr with header := some (w, bits, tag % 65536) } } ∧
      (∀ k, k ≠ c → camOf n k = camOf s k) ∧ Only [.clock, .cams] s n) ∧
  (∀ (t c conn : Nat) (s : State), c < s.cams.length → (camOf s c).state ≠ .disabled →
    Completes (.cameraPacket t c conn (.control false)) s fun n =>
      camOf n c = { camOf s c with conns := (camOf s c).conns.modify conn fun k => { k with controlCrc := wrapInc 16 k.controlCrc } } ∧
      (∀ k, k ≠ c → camOf n k = camOf s k) ∧ Only [.clock, .cams] s n) ∧
  (∀ (t c : Nat) (fr : CamFrame) (s : State), c < s.cams.length → (camOf s c).frame = some fr →
    fr.trigAt + usT (cfgN s Fld.camera_frame_timeout c) ≤ t → inRun s = false → cfgN s Fld.camera_raw_tap_point c = 0 →
    s.pair.linkUp = false →
    Completes (.cameraFrameEnd t c .timeout) s fun n =>
      (camOf n c).frame = none ∧ (camOf n c).frames = wrapInc 32 (camOf s c).frames ∧
      (unanswered (camOf s c) = [] →
        ((camOf n c).record.map fun r => (r.camera, r.trigger, r.time)) = some (c, fr.trigger, fr.time)) ∧
      (unanswered (camOf s c) ≠ [] → (camOf n c).ended = some fr ∧ (camOf n c).record = (camOf s c).record) ∧
      (∀ k, k ≠ c → camOf n k = camOf s k) ∧ Only [.clock, .cams, .log, .net] s n) ∧
  (∀ (t c gen : Nat) (k : CamCommand) (s : State), c < s.cams.length →
    (unanswered (camOf s c)).find? (fun k => k.gen = gen) = some k →
    Completes (.cameraWriteAck t c gen true) s fun n =>
      (camOf n c).commands = (camOf s c).commands.map (fun q => if q.gen = gen then { q with acked := true } else q) ∧
      (camOf n c).writeFailures = (camOf s c).writeFailures ∧ (∀ j, j ≠ c → camOf n j = camOf s j) ∧
      Only [.clock, .cams] s n)

/-- A profile period carries a moving axis by one step of its profile, and to HOLD at its target, its request done; an axis in
HOLD or OFF stays (R447, R468). A PWM period with the bus in range keeps the axis in its state, and drives it only where the
module drives (R454 to R456, R464). hold_delay lowers the current (R445). -/
def Obligations.AxesRun : Prop :=
  (∀ (t a : Nat) (s : State), motionOn s.mod.state = true → a < 12 → s.axes.length = 12 → (axisOf s a).state = .moving →
    (axisOf s a).jog = none → (axisOf s a).latchDue = none → axisEncoder s a = none →
    ((profileTo (axisOf s a).latched.vMax (axisOf s a).latched (axisOf s a).target (motionOf (axisOf s a))).p ≠ (axisOf s a).target →
      Completes (.motionProfilePeriod t) s fun n =>
        (axisOf n a).state = .moving ∧ motionOf (axisOf n a) =
          profileTo (axisOf s a).latched.vMax (axisOf s a).latched (axisOf s a).target (motionOf (axisOf s a)) ∧
        (axisOf n a).target = (axisOf s a).target ∧ Only [.clock, .axes, .log, .net, .pos, .pair] s n) ∧
    (arrives (axisOf s a).target (axisOf s a).latched.decel (profileStep (axisOf s a).latched.vMax (axisOf s a).latched.accel
        (axisOf s a).latched.decel (jerkOf (axisOf s a).latched) (signRat ((axisOf s a).target - (axisOf s a).p))
        (some (absRat ((axisOf s a).target - (axisOf s a).p))) (motionOf (axisOf s a))) = true →
      Completes (.motionProfilePeriod t) s fun n =>
        (axisOf n a).state = .hold ∧ (axisOf n a).p = (axisOf s a).target ∧ (axisOf n a).v = 0 ∧ (axisOf n a).req = none)) ∧
  (∀ (t a : Nat) (s : State), motionOn s.mod.state = true → a < 12 → s.axes.length = 12 →
    (axisOf s a).state = .off ∨ ((axisOf s a).state = .hold ∧ (axisOf s a).latchDue = none ∧ axisEncoder s a = none) →
    Completes (.motionProfilePeriod t) s fun n => axisOf n a = axisOf s a) ∧
  (∀ (t a mv : Nat) (s : State), a < 12 → s.axes.length = 12 → (axisOf s a).state ≠ .off → (axisOf s a).state ≠ .fault →
    2000 ≤ mv → cfgN s Fld.motion_vbus_min a ≤ mv → mv ≤ cfgN s Fld.motion_vbus_max a →
    Completes (.pwmPeriod t a mv false) s fun n =>
      (axisOf n a).state = (axisOf s a).state ∧ (axisOf n a).vbus = min 65535 mv ∧ (axisOf n a).vbusBad = 0 ∧
      (axisOf n a).duty.isSome = drives s ∧ (∀ b, b ≠ a → axisOf n b = axisOf s b) ∧
      Only [.clock, .axes, .log, .net] s n) ∧
  (∀ (t a : Nat) (s : State), a < s.axes.length → (axisOf s a).state = .hold →
    (axisOf s a).holdSince + msT (cfgN s Fld.motion_hold_delay a) ≤ t →
    Completes (.holdCurrentDelay t a) s fun n =>
      axisOf n a = { axisOf s a with holdCurrent := true } ∧ (∀ b, b ≠ a → axisOf n b = axisOf s b) ∧ Only [.clock, .axes] s n)

/-! ### The ring (16_satos_ring.md) -/

/-- A frame for another node is forwarded with one hop more; one whose CRC fails is counted (R475). A frame of the module's own
that has not returned in 20 µs goes out again, 25 times at most (R478). TIME and the roll (R434, R489), DELAY_REQ and the delay
that its answer gives (R434). -/
def Obligations.RingFrames : Prop :=
  (∀ (t : Nat) (f : RingFrame) (s : State), ringOn s = true → ringOpen s = true → f.source ≠ nodeNumber s → f.dest ≠ nodeNumber s →
    f.dest ≠ 0xFF → f.hops < 8 →
    Completes (.ringFrameReceived t true f) s fun n =>
      ringOut { f with hops := f.hops + 1, body := if f.type = 0x24 then fillRoll (beginAt t s) f.body else f.body } ∈ n.sent ∧
      (2 ≤ f.source → Only [.clock] s n) ∧ Only [.clock, .ring, .log, .net] s n) ∧
  (∀ (t : Nat) (f : RingFrame) (s : State), ringOn s = true →
    Completes (.ringFrameReceived t false f) s fun n =>
      n.ring = { s.ring with crcDiscards := wrapInc 16 s.ring.crcDiscards } ∧ Only [.clock, .ring] s n) ∧
  (∀ (t q : Nat) (x : RingTx) (s : State), s.ring.tx.find? (fun x => x.frame.seq = q) = some x → ringOpen s = true →
    x.sentAt + usT 20 ≤ t →
    (x.resends < 25 → Completes (.ringFrameResend t q) s fun n =>
      n.sent = [ringOut x.frame] ∧ n.ring.resends = wrapInc 16 s.ring.resends ∧ n.ring.tx.length = s.ring.tx.length ∧
      Only [.clock, .ring] s n) ∧
    (25 ≤ x.resends → Completes (.ringFrameResend t q) s fun n =>
      n.sent = [] ∧ n.ring = { s.ring with tx := s.ring.tx.filter fun y => y.frame.seq ≠ q } ∧ Only [.clock, .ring] s n)) ∧
  (∀ (t : Nat) (s : State), isKing s = true →
    Completes (.ringTimeSend t) s fun n =>
      (∃ f g, n.sent.take 2 = [ringOut f, ringOut g] ∧ f.type = 0x20 ∧ f.source = nodeNumber s ∧
        f.body = stampNative (timeNow n) ∧ g.type = 0x24 ∧ g.source = nodeNumber s ∧ g.body.length = 64) ∧
      (s.ring.imageTx = [] → n.sent.length = 2) ∧ Only [.clock, .ring] s n) ∧
  (∀ (t : Nat) (s : State), s.ring.state = .member →
    Completes (.ringDelayExchange t none) s fun n =>
      (∃ f, n.sent = [ringOut f] ∧ f.type = 0x21 ∧ f.source = nodeNumber s ∧ f.body = stampNative (timeNow n)) ∧
      n.ring.delayReq = some (timeNow n, n.now) ∧
      Only [.clock, .ring] s n) ∧
  (∀ (t left : Nat) (stamp : Int) (f : RingFrame) (s : State), Arrives s 0x22 f → s.ring.state = .member → s.ring.kingHeard = true →
    nodeNumber s < s.ring.nodes.length → s.ring.delayReq = some (stamp, left) → stampNative stamp = f.body.take 12 →
    Completes (.ringDelayExchange t (some f)) s fun n =>
      n.ring.hopDelay = ((n.now - left : Nat) * 1024 - (fld f.body 12 4 : Nat)) / 2 ∧ n.ring.delayReq = none ∧
      (nodeOf n (nodeNumber s)).hopDelay = (clampInt 0 65535 (roundDiv n.ring.hopDelay 65536)).toNat ∧
      Only [.clock, .ring, .time] s n)

/-- After 20 ms of listening the module at position 0 is the king (R482); the king sends DISCOVER, and on RING_ATTN_N grants
one node an opening time 20 µs ahead (R482, R484, R485). A bypassed module of the same major revision asks to join, takes its
grant, and opens its bypass at the time granted with JOIN_HELLO (R483, R484). -/
def Obligations.CrownAndGrants : Prop :=
  (∀ (t d : Nat) (s : State), ringOn s = true → s.power.position = 0 → s.power.strapValid = true → drives s = true →
    s.ring.state = .bypassed → s.ring.ejected = false → ringLoop s = false → s.ring.listenSince = some d → d + msT 20 ≤ t →
    Completes (.kingListenExpiry t) s fun n =>
      n.ring.state = .king ∧ n.ring.bypassClosed = false ∧ n.ring.listenSince = none ∧
      RaisedNext s 0x0D10 (leBytes 1 0 ++ leBytes 1 2) n ∧ Only [.clock, .ring, .log, .net] s n) ∧
  (∀ (t : Nat) (s : State), isKing s = true →
    Completes (.discoverSend t) s fun n =>
      (∃ f, n.sent = [ringOut f] ∧ f.type = 0x23 ∧ f.source = nodeNumber s ∧ f.dest = 0xFF ∧ f.body = discoverBody s) ∧
      Only [.clock, .ring] s n) ∧
  (∀ (t : Nat) (f : RingFrame) (s : State), Arrives s 0x23 f → s.ring.state = .bypassed → s.ring.ejected = false →
    s.power.position ≠ 0 → fld f.body 0 1 = s.update.ringMajor → ringLoop s = false →
    Completes (.discover t f) s fun n => n.ring.attn = true ∧ n.ring.state = .bypassed ∧ Only [.clock, .ring] s n) ∧
  (∀ (t k : Nat) (s : State), isKing s = true → s.ring.granted = none → nextGrant s = some k → mayChange (beginAt t s) = true →
    Completes (.ringAttnAsserted t) s fun n =>
      n.ring.granted = some (k, n.now + usT 20) ∧
      (∃ f, n.sent = [ringOut f] ∧ f.type = 0x25 ∧
        f.body = leBytes 1 k ++ leBytes 3 0 ++ stampNative (timeNow n + 20000 * 65536)) ∧ Only [.clock, .ring] s n) ∧
  (∀ (t : Nat) (f : RingFrame) (s : State), Arrives s 0x25 f → s.ring.state = .bypassed → s.ring.attn = true →
    fld f.body 0 1 = nodeNumber s →
    Completes (.joinGrant t f) s fun n =>
      n.ring.openAt = some (readNative ((f.body.drop 4).take 12)) ∧ n.ring.state = .bypassed ∧ Only [.clock, .ring] s n) ∧
  (∀ (t : Nat) (u : Int) (s : State), ringOn s = true → s.ring.openAt = some u → u ≤ timeNow (beginAt t s) →
    s.ring.state = .bypassed →
    Completes (.bypassOpenTime t) s fun n =>
      n.ring.state = .joining ∧ n.ring.bypassClosed = false ∧ n.ring.openAt = none ∧
      (∃ f, ringOut f ∈ n.sent ∧ f.type = 0x26 ∧ f.source = nodeNumber s) ∧
      RaisedNext s 0x0D10 (leBytes 1 0 ++ leBytes 1 1) n ∧ Only [.clock, .ring, .log, .net] s n)

/-- JOIN_HELLO of the same major revision is admitted, with event 0x0D11; of another it is ejected (R484, R487). An ejected
joining module closes its bypass (R487); a joining module that the roll shows is a member (R489). The king keeps a leave for
the next gap (R485, R488); a module in IDLE that has waited leave_wait departs (R20, R488); a node silent beyond the tolerance
is lost, with event 0x0D12 (R489). -/
def Obligations.JoiningAndLeaving : Prop :=
  (∀ (t : Nat) (f : RingFrame) (s : State), Arrives s 0x26 f → isKing s = true → s.ring.roll.testBit f.source = false →
    f.source < s.ring.nodes.length → s.ring.attnLine = false →
    (fld f.body 0 1 = s.update.ringMajor → Completes (.joinHello t f) s fun n =>
      (nodeOf n f.source).present = true ∧ (nodeOf n f.source).major = fld f.body 0 1 % 16 ∧
      RaisedNext s 0x0D11 (leBytes 1 f.source ++ leBytes 1 (fld f.body 0 1) ++ leBytes 1 (fld f.body 1 1)) n ∧
      (∃ g, ringOut g ∈ n.sent ∧ g.type = 0x24 ∧ g.source = nodeNumber s) ∧ Only [.clock, .ring, .log, .net] s n) ∧
    (fld f.body 0 1 ≠ s.update.ringMajor → Completes (.joinHello t f) s fun n =>
      (∃ g, ringOut g ∈ n.sent ∧ g.type = 0x27 ∧ g.body = leBytes 1 f.source ++ leBytes 1 0) ∧ n.ring.nodes = s.ring.nodes ∧
      n.ring.roll = s.ring.roll ∧ Only [.clock, .ring] s n)) ∧
  (∀ (t k u : Nat) (s : State), s.ring.granted = some (k, u) → u + usT 200 ≤ max s.now t →
    s.ring.attnLine = false →
    Completes (.joinHelloTimeout t) s fun n => n.ring = { s.ring with granted := none } ∧ Only [.clock, .ring] s n) ∧
  (∀ (t : Nat) (f : RingFrame) (s : State), Arrives s 0x27 f → s.ring.state = .joining → fld f.body 0 1 = nodeNumber s →
    fld f.body 1 1 = 1 →
    Completes (.eject t f) s fun n =>
      n.ring.state = .bypassed ∧ n.ring.bypassClosed = true ∧ n.ring.ejected = true ∧
      Raised 0x0D16 (leBytes 1 (nodeNumber s)) n ∧ Only [.clock, .ring, .log, .net] s n) ∧
  (∀ (t : Nat) (f : RingFrame) (s : State), Arrives s 0x28 f → isKing s = true → mayChange (beginAt t s) = false →
    Completes (.leaveReq t f) s fun n =>
      n.ring.leavers = s.ring.leavers ++ [f.source] ∧ n.ring.state = .king ∧ Only [.clock, .ring] s n) ∧
  (∀ (t d : Nat) (restarts : Bool) (s : State), s.ring.leaving = some (restarts, d) →
    d + msT (cfgN s Fld.ring_leave_wait 0) ≤ t →
    (s.mod.state = .idle →
      Completes (.leaveWaitExpiry t) s fun n => n.mod.state = if restarts then .boot else .maintenance) ∧
    (s.mod.state ≠ .idle → s.mod.state ≠ .maintenance → exec (.leaveWaitExpiry t) s = .next (beginAt t s))) ∧
  (∀ (t : Nat) (f : RingFrame) (s : State), Arrives s 0x24 f → s.ring.state = .joining → nodeNumber s < 8 →
    (fld (rollEntry f.body (nodeNumber s)) 0 1).testBit 3 = true →
    Completes (.roll t f) s fun n =>
      n.ring.state = .member ∧ n.ring.attn = false ∧ RaisedNext s 0x0D10 (leBytes 1 1 ++ leBytes 1 3) n ∧
      Only [.clock, .ring, .log, .net] s n) ∧
  (∀ (t k d : Nat) (s : State), isKing s = true → k < 8 → k < s.ring.nodes.length → k ≠ nodeNumber s → (nodeOf s k).lost = false →
    (nodeOf s k).seen = some d → d + lossTolerance s ≤ t → s.update.relaying = false →
    Completes (.ringMemberLost t k) s fun n =>
      nodeOf n k = { nodeOf s k with lost := true } ∧ RaisedNext s 0x0D12 (leBytes 1 k) n ∧
      (∀ j, j ≠ k → nodeOf n j = nodeOf s j) ∧ Only [.clock, .ring, .log, .net] s n)

/-- ORIGIN_SEND gives the king's line position at its module time, and ORIGIN sets the origin of every web master input of a
member to it (R492). The king keeps what RUN_ARMED and SLOT_READY report of a node (R493, R495); CASCADE_ARMED puts the king's
offset in force at a member (R494). -/
def Obligations.CascadeAgrees : Prop :=
  (∀ (t : Nat) (s : State), isKing s = true → inGroup s = true → groupIdle s = true →
    Completes (.originSend t) s fun n =>
      (∃ f, n.sent = [ringOut f] ∧ f.type = 0x29 ∧ f.source = nodeNumber s ∧ f.body = stampNative (timeNow n) ++
        sgBytes 8 (idleLine s (cfgN s Fld.ring_origin_input 0) n.now * 4294967296).floor) ∧ Only [.clock, .ring] s n) ∧
  (∀ (t : Nat) (f : RingFrame) (s : State), Arrives s 0x29 f → s.ring.state = .member → s.ring.kingHeard = true → drives s = true →
    inGroup s = true → partnerTakes s = false → s.jobs.armed = none → s.pos.inputs.length = 16 →
    Completes (.origin t f) s fun n =>
      (∀ i, i < 16 → (∃ b, b < 8 ∧ barInput s b = some i) → (inputOf n i).origin =
        (linePosValue s i (dateOfTime (beginAt t s) (readNative (f.body.take 12))) * 4294967296 -
          (sfld f.body 12 8 : Rat) / 4294967296 * spacingOf s i 1200).floor) ∧
      (∀ i, (∀ b, b < 8 → barInput s b ≠ some i) → inputOf n i = inputOf s i) ∧ Only [.clock, .ring, .pos, .pair] s n) ∧
  (∀ (t : Nat) (f : RingFrame) (s : State), Arrives s 0x30 f → isKing s = true → f.source < s.ring.nodes.length →
    s.jobs.armed = none →
    Completes (.runArmedFrame t f) s fun n =>
      nodeOf n f.source = { nodeOf s f.source with
        armed := some (fld f.body 0 4, fld f.body 4 4, fld f.body 8 4), ready := [], groupRun := some (fld f.body 0 4, 0) } ∧
      (∀ j, j ≠ f.source → nodeOf n j = nodeOf s j) ∧ Only [.clock, .ring] s n) ∧
  (∀ (t : Nat) (f : RingFrame) (s : State), Arrives s 0x31 f → s.ring.state = .member → s.ring.kingHeard = true → drives s = true →
    inGroup s = true → partnerTakes s = false → ofRun f.body s = true →
    Completes (.cascadeArmed t f) s fun n =>
      n.ring.cascade = some (fld f.body 4 4) ∧ n.jobs.armed.map (fun a => a.leadOffset) = some (fld f.body 4 4) ∧
      n.mod = s.mod ∧ Only [.clock, .ring, .jobs, .fire, .pair] s n) ∧
  (∀ (t : Nat) (f : RingFrame) (s : State), Arrives s 0x32 f → isKing s = true →
    (nodeOf s f.source).armed.map (fun x => x.1) = some (fld f.body 0 4) → f.source < s.ring.nodes.length → (∀ a, s.jobs.armed = some a → a.hold = false) →
    Completes (.slotReady t f) s fun n =>
      nodeOf n f.source = { nodeOf s f.source with ready := fld f.body 4 4 :: (nodeOf s f.source).ready } ∧
      n.jobs = s.jobs ∧ Only [.clock, .ring] s n)

/-- A member takes the king's decisions: RELEASE releases its own slot at the king's line (R496), NOT_READY with BLANK passes
the slot unprinted (R496, R128), CASCADE_STOP ends the releases (R497). -/
def Obligations.CascadeDecides : Prop :=
  (∀ (t id : Nat) (f : RingFrame) (a : Armed) (s : State), Arrives s 0x33 f → s.ring.state = .member → s.ring.kingHeard = true →
    drives s = true → inGroup s = true → partnerTakes s = false → ofRun f.body s = true → s.jobs.armed = some a →
    fld f.body 4 4 = a.nextSlot → a.releasesEnded = false → a.queue.head? = some id →
    (runBars s).any (dueOnBar s (sfld f.body 8 8)) = false → anyHalted s = false →
    Completes (.ringRelease t f) s fun n =>
      (∃ a', n.jobs.armed = some a' ∧ a'.nextSlot = a.nextSlot + 1 ∧
        ∃ x ∈ a'.slots, x.num = a.nextSlot ∧ x.page = id ∧ x.start = sfld f.body 8 8 ∧ x.state = .released ∧ x.ended = false) ∧
      Raised 0x0314 (leBytes 4 a.nextSlot ++ leBytes 4 id) n) ∧
  (∀ (t id : Nat) (f : RingFrame) (a : Armed) (s : State), Arrives s 0x34 f → s.ring.state = .member → s.ring.kingHeard = true →
    drives s = true → inGroup s = true → partnerTakes s = false → ofRun f.body s = true → s.jobs.armed = some a →
    fld f.body 4 4 = a.nextSlot → fld f.body 8 1 = 0 → a.releasesEnded = false → a.queue.head? = some id →
    pageQuarantined s id = false →
    Completes (.ringNotReady t f) s fun n =>
      (∃ a', n.jobs.armed = some a' ∧ a'.nextSlot = a.nextSlot + 1 ∧ a'.spoiled = wrapInc 32 a.spoiled ∧ a'.queue = a.queue ∧
        ∃ x ∈ a'.slots, x.num = a.nextSlot ∧ x.page = id ∧ x.state = .spoiled ∧ x.ended = true) ∧
      Raised 0x0312 (leBytes 4 a.nextSlot ++ leBytes 4 id ++ leBytes 1 0) n ∧
      Raised 0x0316 (leBytes 4 a.nextSlot ++ leBytes 4 id ++ leBytes 1 1) n) ∧
  (∀ (t : Nat) (f : RingFrame) (s : State), Arrives s 0x35 f → s.ring.state = .member → s.ring.kingHeard = true → drives s = true →
    inGroup s = true → partnerTakes s = false → ofRun f.body s = true → (openSlots s).isEmpty = false → s.mod.state ≠ .drain →
    Completes (.cascadeStop t f) s fun n =>
      n.mod.state = .drain ∧ n.ring.stopped = true ∧
      n.jobs.armed.map (fun a => (a.releasesEnded, a.hold)) = some (true, false))

/-- RING_IMAGE_BLOCK in its turn extends the bytes that a member has of the relayed bundle (R606); IMAGE_ACK is kept at the
king for its node, and goes out every 100 ms at a member (R607). -/
def Obligations.RelayGoesOn : Prop :=
  (∀ (t : Nat) (f : RingFrame) (s : State), Arrives s 0x38 f → s.ring.state = .member → s.ring.kingHeard = true →
    s.update.relayDigest = f.body.take 8 → s.update.relayStatus = 0 → fld f.body 8 4 = s.update.relayOffset →
    s.update.relayOffset + ((f.body.drop 16).take (fld f.body 12 2)).length < 256 →
    Completes (.ringImageBlock t f) s fun n =>
      n.update = { s.update with
        relayBytes := s.update.relayBytes ++ (f.body.drop 16).take (fld f.body 12 2)
        relayOffset := s.update.relayOffset + ((f.body.drop 16).take (fld f.body 12 2)).length } ∧
      Only [.clock, .ring, .update] s n) ∧
  (∀ (t : Nat) (f : RingFrame) (s : State), Arrives s 0x39 f → s.ring.state = .king → s.update.relaying = true →
    padTo 8 f.body = s.update.relayDigest → f.source < s.ring.nodes.length →
    Completes (.imageAck t f) s fun n =>
      (nodeOf n f.source).relay = some (fld f.body 8 4, fld f.body 12 1) ∧ n.flash = s.flash ∧
      Only [.clock, .ring, .update, .log, .net] s n) ∧
  (∀ (t : Nat) (s : State), s.ring.state = .member → s.update.relayDigest ≠ [] → s.update.relayStatus = 0 →
    (∀ d, s.update.lastAck = some d → d + msT 100 ≤ t) →
    Completes (.relayAckDue t) s fun n =>
      (∃ f, n.sent = [ringOut f] ∧ f.type = 0x39 ∧ f.source = nodeNumber s ∧ f.body = ackBody s) ∧
      n.update = { s.update with lastAck := some n.now } ∧ Only [.clock, .ring, .update] s n)

/-! ### The pair (17_castling.md) -/

/-- HEARTBEAT goes out every 5 µs and is noted when heard; the active takes the partner's acknowledgement, and a result that
waited for it is ready (R505, R508). Two missed heartbeats are counted; the third one castles a STANDBY module: ACTIVE, under
the epoch after the partner's (R505, R514). Details of acknowledgement and castling are the model's readings (log entries 69
and 71). -/
def Obligations.Heartbeats : Prop :=
  (∀ (t : Nat) (s : State), partnerOn s = true → (∀ d, s.pair.lastSent = some d → d + usT 5 ≤ t) →
    Completes (.heartbeatDue t) s fun n =>
      n.sent.map partnerOut = [some (1, beatBody (beginAt t s))] ∧
      n.pair = { s.pair with lastSent := some n.now, frameSeq := wrapInc 16 s.pair.frameSeq } ∧ Only [.clock, .pair] s n) ∧
  (∀ (t : Nat) (digest body : List Byte) (s : State), partnerOn s = true → s.pair.state = .standby → s.pair.decided = true →
    inRun s = false → s.pair.orders = [] → body.length = 68 → digest = s.update.digest → digest ≠ [] →
    Completes (.heartbeat t digest body) s fun n =>
      n.pair.state = .standby ∧ n.pair.linkUp = true ∧ n.pair.lastBeat = some n.now ∧ n.pair.missRun = 0 ∧
      n.pair.peerState = beatPair body ∧ n.pair.peerModule = beatModule body ∧ n.pair.peerEpoch = beatEpoch body ∧
      n.pair.peerToken = beatToken body ∧ n.pair.peerOrder = beatOrder body ∧ Only [.clock, .pair, .time, .log, .net] s n) ∧
  (∀ (t : Nat) (digest body : List Byte) (s : State), partnerOn s = true → body.length ≠ 68 →
    Completes (.heartbeat t digest body) s fun n =>
      n.pair = { s.pair with crcDiscards := wrapInc 16 s.pair.crcDiscards } ∧ Only [.clock, .pair] s n) ∧
  (∀ (t q k : Nat) (d : Int) (digest body : List Byte) (s : State), partnerOn s = true → s.pair.state = .active →
    body.length = 68 → beatPair body = 2 → beatToken body = q → s.pair.decisions = [(q, .result k d)] →
    (∃ r ∈ s.net.results, r.ticket = k ∧ r.dropWhenReady = false ∧ r.newer = 0) →
    (∀ r ∈ s.net.results, r.ticket = k → r.body.isSome = true) →
    Completes (.heartbeat t digest body) s fun n =>
      n.pair.decisions = [] ∧ (∃ r ∈ n.net.results, r.ticket = k ∧ r.time = some d ∧ r.body.isSome = true) ∧
      Only [.clock, .pair, .net] s n) ∧
  (∀ (t d : Nat) (s : State), partnerOn s = true → s.pair.linkUp = true → s.pair.lastBeat = some d →
    d + usT (5 * (s.pair.missRun + 1)) ≤ t → s.pair.missRun < 2 →
    Completes (.heartbeatMissed t) s fun n =>
      n.pair = { s.pair with missRun := s.pair.missRun + 1, missed := wrapInc 16 s.pair.missed } ∧ Only [.clock, .pair] s n) ∧
  (∀ (t d : Nat) (s : State), partnerOn s = true → s.pair.linkUp = true → s.pair.lastBeat = some d →
    d + usT (5 * (s.pair.missRun + 1)) ≤ t → 2 ≤ s.pair.missRun → s.pair.state = .standby → s.mod.state = .idle →
    s.jobs.armed = none → s.jobs.arming = none → s.pair.held = [] → s.pair.orders = [] →
    Completes (.heartbeatMissed t) s fun n =>
      n.pair.state = .active ∧ n.pair.linkUp = false ∧ n.pair.epoch = (s.pair.peerEpoch + 1) % 2 ^ 24 ∧
      n.pair.castlings = wrapInc 16 s.pair.castlings ∧ RaisedNext s 0x0E16 [] n ∧ n.jobs = s.jobs)

/-- pair_wait without a partner is ACTIVE (R501); a demoted module with no other owner on its carriers for reclaim_wait is
ACTIVE again, under the next epoch (R516). Details of demotion and catch-up are the model's readings (log entries 71 and 72).
COPY stores the object that it carries, which frames carry which being left open, and adds its bytes to those copied (R512);
CATCHUP_DONE completes the copy, and with the active in IDLE and every released slot's page there the module is STANDBY, with
event 0x0E15 (R511, R513). -/
def Obligations.PairWaitsAndCatchUp : Prop :=
  (∀ (t d : Nat) (s : State), partnerOn s = true → s.pair.decided = false → s.pair.waitSince = some d →
    d + msT (cfgN s Fld.redundancy_pair_wait 0) ≤ t → s.pair.held = [] → s.pair.orders = [] →
    Completes (.pairWaitExpiry t) s fun n =>
      n.pair.state = .active ∧ n.pair.decided = true ∧ n.pair.absent = true ∧ n.pair.waitSince = none ∧
      n.pair.epoch = s.pair.epoch ∧ Only [.clock, .pair, .cal, .time, .log, .net] s n) ∧
  (∀ (t d : Nat) (s : State), s.pair.state = .severed → s.pair.reclaimSince = some d →
    d + usT (cfgN s Fld.redundancy_reclaim_wait 0) ≤ t → s.mod.state = .idle → s.jobs.armed = none → s.jobs.arming = none →
    s.pair.held = [] → s.pair.orders = [] → s.pair.decisions = [] →
    Completes (.reclaimWaitExpiry t) s fun n =>
      n.pair.state = .active ∧ n.pair.epoch = (s.pair.epoch + 1) % 2 ^ 24 ∧ n.pair.reclaimSince = none ∧ n.jobs = s.jobs) ∧
  (∀ (t : Nat) (body : List Byte) (s : State), catchesUp s = true →
    Completes (.copy t body) s fun n =>
      n.pair.copied = s.pair.copied + (body.drop 16).length ∧
      n.pair.copies.head? = some (fld body 0 1, fld body 4 4, fld body 8 8, body.drop 16) ∧
      (s.pair.copyDone = false →
        n.jobs = (copyObject (fld body 0 1) (fld body 4 4) (fld body 8 8) (body.drop 16) (beginAt t s)).jobs ∧
        n.cal.values = (copyObject (fld body 0 1) (fld body 4 4) (fld body 8 8) (body.drop 16) (beginAt t s)).cal.values ∧
        n.net = (copyObject (fld body 0 1) (fld body 4 4) (fld body 8 8) (body.drop 16) (beginAt t s)).net ∧
        n.mod = s.mod)) ∧
  (∀ (t : Nat) (s : State), catchesUp s = true →
    (slotsReady s = true → s.pair.peerModule = 4 → Completes (.catchupDone t) s fun n =>
      n.pair.state = .standby ∧ n.pair.copyDone = true ∧ n.pair.progress = 65535 ∧ Raised 0x0E15 (leBytes 8 s.pair.copied) n ∧
      n.jobs = s.jobs ∧ Only [.clock, .pair, .cal, .log, .net] s n) ∧
    (slotsReady s = false → Completes (.catchupDone t) s fun n =>
      n.pair = { s.pair with copyDone := true } ∧ Only [.clock, .pair] s n))

/-- An ORDER entry whose message is held applies that message, and one that is lacking is asked for (R98, R506). A segment that
the active passes on is taken into its session (R98). RESEND_REQ is answered with the tokens asked for (R507). A page signature
that agrees is counted; on a following module one that differs is SEVERED, with cause 1 (R509, R510). A piece of a CAMERA frame
that is not the last is kept (R380). -/
def Obligations.PartnerFrames : Prop :=
  (∀ (t : Nat) (e : OrderEntry) (m : HeldMessage) (s : State), follows s = true → s.pair.orders = [] → s.pair.held = [m] →
    orderNames e m = true → crc32c (heldPayload m) = e.crc → e.type ≠ 0x01 →
    Completes (.order t [e]) s fun n => n = applyHeldMessage m { beginAt t s with
      pair := { s.pair with orders := [], held := [], orderSeq := wrapInc 32 s.pair.orderSeq, orderAny := true } }) ∧
  (∀ (t : Nat) (e : OrderEntry) (s : State), follows s = true → s.pair.orders = [] → s.pair.held = [] → refusedHere e s = none →
    Completes (.order t [e]) s fun n =>
      n.sent.map partnerOut = [some (4, resendBytes 0 e.msg 1)] ∧
      n.pair = { s.pair with orders := [e], frameSeq := wrapInc 16 s.pair.frameSeq } ∧ Only [.clock, .pair] s n) ∧
  (∀ (t i : Nat) (udp d : List Byte) (s : State), follows s = true → s.pair.orders = [] → udp.length < segmentRoom →
    d = s.pair.segPart ++ udp → 32 + fld d 22 2 ≤ d.length →
    sessionIdx s (fld d 6 2) = some i → fld d 3 1 ≠ 0x04 → fld d 3 1 ≠ 0x05 → (sessionOf s i).rxAhead = [] →
    (sessionOf s i).rxAck < 2 ^ 32 → fld d 8 4 = ((sessionOf s i).rxAck + 1) % 2 ^ 32 → inWindow (sessionOf s i) (fld d 8 4) = true →
    Completes (.partnerSegment t udp) s fun n =>
      (sessionOf n i).rxAck = fld d 8 4 ∧ (sessionOf n i).lastRx = n.now ∧ n.pair = { s.pair with segPart := [] } ∧
      Only [.clock, .net, .pair] s n) ∧
  (∀ (t : Nat) (udp : List Byte) (s : State), follows s = true → udp.length = segmentRoom →
    Completes (.partnerSegment t udp) s fun n =>
      n.pair = { s.pair with segPart := s.pair.segPart ++ udp } ∧ Only [.clock, .pair] s n) ∧
  (∀ (t first count : Nat) (s : State), s.pair.state = .active →
    Completes (.resendReq t 2 first count) s fun n =>
      n.sent.map partnerOut = (s.pair.tokensSent.filter fun x => inSpan first count x.seq).map (fun x => some (3, tokenBytes x)) ∧
      Only [.clock, .pair] s n) ∧
  (∀ (t id sig : Nat) (pg : Page) (s : State), partnerOn s = true → pageOf s id = some pg → pg.state = .rendered →
    (sig = storeSignature pg.parts → Completes (.signature t id sig) s fun n =>
      pageOf n id = some { pg with partnerSig := some sig } ∧
      n.pair = { s.pair with signatures := wrapInc 16 s.pair.signatures } ∧ Only [.clock, .jobs, .pair] s n) ∧
    (sig ≠ storeSignature pg.parts → follows s = true → Completes (.signature t id sig) s fun n =>
      n.pair.state = .severed ∧ n.pair.severCause = 1 ∧ Raised 0x0E13 (leBytes 1 1) n)) ∧
  (∀ (t : Nat) (body : List Byte) (s : State), partnerOn s = true → 32 ≤ body.length → 126 ≤ (pieceStats body).length →
    Completes (.partnerCamera t body) s fun n =>
      n.pair = { s.pair with camRecords := (s.pair.camRecords.filter fun b => b.take 32 = body.take 32) ++ [body] } ∧
      Only [.clock, .pair] s n)

/-- The tokens of the active that decide runs take effect on a following module in their turn, and only there: ARM arms the run
with the active's tag (R126, R507), RELEASE and NOT_READY decide the slot (R133), RESULT makes a finished result ready (R508),
RING carries a ring decision (R499). -/
def Obligations.TokensDecideRuns : Prop :=
  (∀ (t q : Nat) (body : List Byte) (r : RunDef) (s : State), TokenTurn s q → s.jobs.runs.find? (fun r => r.id = armRunId body) = some r →
    s.jobs.arming = none → mayArm s = true →
    Completes (.tokenArm t q body) s fun n =>
      n.mod.state = .armed ∧ n.jobs.armed.map (fun a => a.run) = some r ∧ n.jobs.runTag = armTag body ∧ n.jobs.runId = r.id ∧
      n.pair.tokenSeq = wrapInc 32 q) ∧
  (∀ (t q id : Nat) (body : List Byte) (a : Armed) (s : State), TokenTurn s q → s.jobs.armed = some a → inRun s = true →
    fld body 0 4 = a.nextSlot → a.releasesEnded = false → fld body 4 4 = id →
    Completes (.tokenRelease t q body) s fun n =>
      (∃ a', n.jobs.armed = some a' ∧ a'.nextSlot = a.nextSlot + 1 ∧
        ∃ x ∈ a'.slots, x.num = a.nextSlot ∧ x.page = id ∧ x.start = sfld body 8 8 ∧ x.state = .released) ∧
      Raised 0x0314 (leBytes 4 a.nextSlot ++ leBytes 4 id) n ∧ n.pair.tokenSeq = wrapInc 32 q) ∧
  (∀ (t q id : Nat) (body : List Byte) (a : Armed) (s : State), TokenTurn s q → s.jobs.armed = some a → fld body 0 4 = a.nextSlot →
    fld body 4 1 = 0 → a.releasesEnded = false → a.queue.head? = some id → pageQuarantined s id = false →
    Completes (.tokenNotReady t q body) s fun n =>
      (∃ a', n.jobs.armed = some a' ∧ a'.nextSlot = a.nextSlot + 1 ∧
        ∃ x ∈ a'.slots, x.num = a.nextSlot ∧ x.page = id ∧ x.state = .spoiled ∧ x.ended = true) ∧
      Raised 0x0312 (leBytes 4 a.nextSlot ++ leBytes 4 id ++ leBytes 1 0) n ∧ n.pair.tokenSeq = wrapInc 32 q) ∧
  (∀ (t q : Nat) (body : List Byte) (s : State), TokenTurn s q → s.cal.runNow = [] → fld body 0 4 < 0x80000000 →
    (∃ r ∈ s.net.results, r.ticket = fld body 0 4 ∧ r.dropWhenReady = false ∧ r.newer = 0) →
    (∀ r ∈ s.net.results, r.ticket = fld body 0 4 → r.body.isSome = true) →
    Completes (.tokenResult t q body) s fun n =>
      (∃ r ∈ n.net.results, r.ticket = fld body 0 4 ∧ r.time = some (readNative ((body.drop 4).take 12)) ∧ r.body.isSome = true) ∧
      n.pair.tokenSeq = wrapInc 32 q ∧ Only [.clock, .pair, .net] s n) ∧
  (∀ (t q : Nat) (body : List Byte) (s : State), TokenTurn s q → fld body 0 1 = 0x31 → inGroup s = true → s.ring.state ≠ .king →
    ofRun (body.drop 1) s = true →
    Completes (.tokenRing t q body) s fun n =>
      n.ring.cascade = some (fld (body.drop 1) 4 4) ∧ n.pair.tokenSeq = wrapInc 32 q ∧ n.mod = s.mod)

/-- The tokens that carry values and states: GOVERNOR, which a module whose governor has not started or is disabled does not
take (R42, R47 to R49), TAP and its changeover (R410, R633), BAR (R322), CAMERA (R380), AXIS (R464). A token ahead of its turn
is kept, and what lacks is asked for (R507); a gap of 1 ms is SEVERED, with cause 4 (R510). -/
def Obligations.TokensCarryValues : Prop :=
  (∀ (t q : Nat) (body : List Byte) (s : State), TokenTurn s q → s.gov.running = true → cfgN s Fld.render_governor_enable 0 ≠ 0 →
    s.thermal.throttle = true → s.gov.step < fld body 0 1 →
    s.gov.overridden = false →
    Completes (.tokenGovernor t q body) s fun n =>
      n.gov = { s.gov with overridden := true } ∧ RaisedNext s 0x0133 [] n ∧ n.pair.tokenSeq = wrapInc 32 q ∧
      Only [.clock, .gov, .pair, .log, .net] s n) ∧
  (∀ (t q : Nat) (body : List Byte) (s : State), TokenTurn s q → s.gov.running = true → cfgN s Fld.render_governor_enable 0 ≠ 0 →
    s.thermal.throttle = false →
    Completes (.tokenGovernor t q body) s fun n => n.gov.step = min 12 (fld body 0 1) ∧ n.pair.tokenSeq = wrapInc 32 q) ∧
  (∀ (t q : Nat) (body : List Byte) (s : State), TokenTurn s q → s.gov.running = false ∨ cfgN s Fld.render_governor_enable 0 = 0 →
    Completes (.tokenGovernor t q body) s fun n =>
      n.gov = s.gov ∧ n.pair.tokenSeq = wrapInc 32 q ∧ Only [.clock, .pair] s n) ∧
  (∀ (t q : Nat) (body : List Byte) (s : State), TokenTurn s q → tapKind body = 4 → s.jobs.armed = none →
    tapBar body < s.cal.values.reg.length →
    Completes (.tokenTap t q body) s fun n =>
      n.cal.values.reg = s.cal.values.reg.set (tapBar body) (sfld body 10 4) ∧ n.cal.values.taps = s.cal.values.taps ∧
      n.pair.tokenSeq = wrapInc 32 q ∧ Only [.clock, .cal, .pair] s n) ∧
  (∀ (t q : Nat) (body : List Byte) (s : State), TokenTurn s q → tapKind body = 0xFF →
    Completes (.tokenChangeover t q body) s fun n =>
      n.cal.rerendering = false ∧ n.cal.values = s.cal.values ∧ n.pair.tokenSeq = wrapInc 32 q ∧ Only [.clock, .cal, .pair] s n) ∧
  (∀ (t q : Nat) (body : List Byte) (s : State), TokenTurn s q → barAction body = 1 → barNumber body < s.fire.bars.length →
    Completes (.tokenBar t q body) s fun n =>
      barOf n (barNumber body) = { barOf s (barNumber body) with paused := true } ∧
      (∀ b, b ≠ barNumber body → barOf n b = barOf s b) ∧ n.pair.tokenSeq = wrapInc 32 q ∧ Only [.clock, .fire, .pair] s n) ∧
  (∀ (t q : Nat) (body : List Byte) (s : State), TokenTurn s q → fld body 0 1 < s.cams.length → (camOf s (fld body 0 1)).state = .ready →
    Completes (.tokenCamera t q body) s fun n =>
      (camOf n (fld body 0 1)).commands = (camOf s (fld body 0 1)).commands ++
        [{ gen := fld body 1 2, exposure := fld body 3 4, gain := fld body 7 2, writtenAt := n.now, commit := none
           acked := false, failed := false }] ∧
      (camOf n (fld body 0 1)).nextGen = (fld body 1 2 + 1) % 65536 ∧ n.pair.tokenSeq = wrapInc 32 q ∧
      Only [.clock, .cams, .pair] s n) ∧
  (∀ (t q : Nat) (body : List Byte) (s : State), TokenTurn s q → fld body 0 1 < s.axes.length → fld body 1 1 = 1 →
    (axisOf s (fld body 0 1)).state ≠ .off → (axisOf s (fld body 0 1)).state ≠ .fault →
    Completes (.tokenAxis t q body) s fun n =>
      (axisOf n (fld body 0 1)).state = .stopping ∧ (axisOf n (fld body 0 1)).stopCause = (sfld body 2 8).toNat ∧
      (∀ a, a ≠ fld body 0 1 → axisOf n a = axisOf s a) ∧ n.pair.tokenSeq = wrapInc 32 q ∧
      Only [.clock, .axes, .pos, .net, .pair] s n) ∧
  (∀ (t q : Nat) (body : List Byte) (s : State), follows s = true → s.pair.tokenSeq < 2 ^ 32 → q < 2 ^ 32 →
    s.pair.tokenSeq < q → q < s.pair.tokenSeq + 2 ^ 31 → s.pair.tokensAhead = [] → s.pair.gapSince = none →
    Completes (.tokenBar t q body) s fun n =>
      n.pair = { s.pair with tokensAhead := [⟨q, 0x08, body⟩], gapSince := some n.now, gapEnd := q
                             frameSeq := wrapInc 16 s.pair.frameSeq } ∧
      n.sent.map partnerOut = [some (4, resendBytes 2 s.pair.tokenSeq (q - s.pair.tokenSeq))] ∧ Only [.clock, .pair] s n) ∧
  (∀ (t d : Nat) (s : State), follows s = true → s.pair.gapSince = some d → d + msT 1 ≤ t →
    Completes (.tokenGapTimeout t) s fun n =>
      n.pair.state = .severed ∧ n.pair.severCause = 4 ∧ Raised 0x0E13 (leBytes 1 4) n ∧
      Only [.clock, .pair, .cal, .log, .net] s n)
end

