-- ==== Sys2Proof/Laws/Frame.lean ====
section
/-! SUPPORT. What every operation leaves alone, and that it keeps the invariant: `Keeps w s n` says that only the groups of `w`
may differ, and that `Inv` goes from `s` to `n`. One lemma for each group of fields that a definition writes together. -/
namespace Sys2Proof.Machine
open Sys2Proof

/-- Only the groups of `w` may differ, and the invariant is kept. -/
structure Keeps (w : List Group) (s n : State) : Prop where
  only : Only w s n
  inv : Inv s → Inv n

theorem Group.same_refl (g : Group) (s : State) : g.same s s := by cases g <;> rfl

theorem Group.same_trans {g : Group} {a b c : State} (h1 : g.same a b) (h2 : g.same b c) : g.same a c := by
  cases g <;> exact Eq.trans h2 h1

theorem Only.refl (w : List Group) (s : State) : Only w s s := ⟨fun g _ => g.same_refl s⟩

theorem Only.trans {w : List Group} {a b c : State} (h1 : Only w a b) (h2 : Only w b c) : Only w a c :=
  ⟨fun g hg => Group.same_trans (h1.same g hg) (h2.same g hg)⟩

theorem Only.mono {w v : List Group} {a b : State} (h : Only v a b) (hv : v ⊆ w) : Only w a b :=
  ⟨fun g hg => h.same g fun x => hg (hv x)⟩

theorem Keeps.refl (w : List Group) (s : State) : Keeps w s s := ⟨Only.refl w s, id⟩

/-- One more operation after those that keep to `w`. -/
theorem Keeps.then {w v : List Group} {a b c : State} (h1 : Keeps w a b) (h2 : Keeps v b c) (hv : v ⊆ w) : Keeps w a c :=
  ⟨h1.only.trans (h2.only.mono hv), fun h => h2.inv (h1.inv h)⟩

theorem Keeps.mono {w v : List Group} {a b : State} (h : Keeps v a b) (hv : v ⊆ w) : Keeps w a b := ⟨h.only.mono hv, h.inv⟩

theorem Keeps.ite {w : List Group} {a b c : State} {p : Prop} [Decidable p] (h1 : p → Keeps w a b) (h2 : ¬p → Keeps w a c) :
    Keeps w a (if p then b else c) := by split <;> simp_all

theorem Keeps.foldl {α : Type} {w : List Group} {f : State → α → State} (l : List α) (h : ∀ s x, Keeps w s (f s x)) (s : State) :
    Keeps w s (l.foldl f s) := by
  induction l generalizing s with
  | nil => exact Keeps.refl _ _
  | cons x l ih => exact (h s x).then (ih _) fun _ h => h

theorem Keeps.foldl' {α : Type} {w : List Group} {l : List α} {f : State → α → State} {a s : State}
    (h : ∀ s x, Keeps w s (f s x)) (h0 : Keeps w a s) : Keeps w a (l.foldl f s) := h0.then (Keeps.foldl l h s) fun _ h => h

theorem Keeps.forEach {α : Type} {w : List Group} {l : List α} {f : α → State → State} {a s : State} (h : ∀ x s, Keeps w s (f x s))
    (h0 : Keeps w a s) : Keeps w a (forEach l f s) := Keeps.foldl' (fun s x => h x s) h0

/-- A verdict that, where it accepts, keeps to `w`. -/
def KeepsV (w : List Group) (s : State) (v : Verdict) : Prop := ∀ n, v = .ok n → Keeps w s n

theorem KeepsV.ok {w : List Group} {s n : State} (h : Keeps w s n) : KeepsV w s (.ok n) := by intro m hm; cases hm; exact h

theorem KeepsV.error {w : List Group} {s : State} {e : Nat × Nat} : KeepsV w s (.error e) := by intro m hm; cases hm

theorem KeepsV.mono {w v : List Group} {s : State} {x : Verdict} (h : KeepsV v s x) (hv : v ⊆ w) : KeepsV w s x :=
  fun n hn => (h n hn).mono hv

theorem KeepsV.then {w v : List Group} {a b : State} {x : Verdict} (h1 : Keeps w a b) (h2 : KeepsV v b x) (hv : v ⊆ w) :
    KeepsV w a x := fun n hn => h1.then (h2 n hn) hv

theorem KeepsV.ite {w : List Group} {a : State} {b c : Verdict} {p : Prop} [Decidable p] (h1 : p → KeepsV w a b)
    (h2 : ¬p → KeepsV w a c) : KeepsV w a (if p then b else c) := by split <;> simp_all

/-- An outcome that, where it is a next state, keeps to `w`. -/
def KeepsO (w : List Group) (s : State) (o : Host.Outcome State Fault Refusal) : Prop := ∀ n, o = .next n → Keeps w s n

theorem KeepsO.next {w : List Group} {s n : State} (h : Keeps w s n) : KeepsO w s (.next n) := by
  intro m hm; cases hm; exact h

theorem KeepsO.mono {w v : List Group} {s : State} {x : Host.Outcome State Fault Refusal} (h : KeepsO v s x) (hv : v ⊆ w) :
    KeepsO w s x := fun n hn => (h n hn).mono hv

theorem KeepsO.then {w v : List Group} {a b : State} {x : Host.Outcome State Fault Refusal} (h1 : Keeps w a b) (h2 : KeepsO v b x)
    (hv : v ⊆ w) : KeepsO w a x := fun n hn => h1.then (h2 n hn) hv

theorem KeepsO.ite {w : List Group} {a : State} {b c : Host.Outcome State Fault Refusal} {p : Prop} [Decidable p]
    (h1 : p → KeepsO w a b) (h2 : ¬p → KeepsO w a c) : KeepsO w a (if p then b else c) := by split <;> simp_all

/-- A command that is shown to keep to `w` from the moment at which it begins keeps to `w` and the clock from before it. -/
theorem beginAt_keeps (t : Nat) (s : State) : Keeps [.clock] s (beginAt t s) :=
  ⟨⟨by intro g hg; cases g <;> first | rfl | simp at hg⟩,
    fun h => ⟨Nat.le_trans h.raw (Nat.le_max_left _ _), h.size, h.detail, h.chain, h.last⟩⟩

/-! ### One lemma for each group of fields written together -/

theorem set_axes_keeps (s : State) (v0) : Keeps [.axes] s { s with axes := v0 } :=
  ⟨⟨by intro g hg; cases g <;> first | rfl | simp at hg⟩, fun h => ⟨h.raw, h.size, h.detail, h.chain, h.last⟩⟩

theorem set_cal_keeps (s : State) (v0) : Keeps [.cal] s { s with cal := v0 } :=
  ⟨⟨by intro g hg; cases g <;> first | rfl | simp at hg⟩, fun h => ⟨h.raw, h.size, h.detail, h.chain, h.last⟩⟩

theorem set_cams_keeps (s : State) (v0) : Keeps [.cams] s { s with cams := v0 } :=
  ⟨⟨by intro g hg; cases g <;> first | rfl | simp at hg⟩, fun h => ⟨h.raw, h.size, h.detail, h.chain, h.last⟩⟩

theorem set_conf_keeps (s : State) (v0) : Keeps [.conf] s { s with conf := v0 } :=
  ⟨⟨by intro g hg; cases g <;> first | rfl | simp at hg⟩, fun h => ⟨h.raw, h.size, h.detail, h.chain, h.last⟩⟩

theorem set_fire_keeps (s : State) (v0) : Keeps [.fire] s { s with fire := v0 } :=
  ⟨⟨by intro g hg; cases g <;> first | rfl | simp at hg⟩, fun h => ⟨h.raw, h.size, h.detail, h.chain, h.last⟩⟩

theorem set_flash_keeps (s : State) (v0) : Keeps [.flash] s { s with flash := v0 } :=
  ⟨⟨by intro g hg; cases g <;> first | rfl | simp at hg⟩, fun h => ⟨h.raw, h.size, h.detail, h.chain, h.last⟩⟩

theorem set_freeN_keeps (s : State) (v0) : Keeps [.free] s { s with freeN := v0 } :=
  ⟨⟨by intro g hg; cases g <;> first | rfl | simp at hg⟩, fun h => ⟨h.raw, h.size, h.detail, h.chain, h.last⟩⟩

theorem set_gov_keeps (s : State) (v0) : Keeps [.gov] s { s with gov := v0 } :=
  ⟨⟨by intro g hg; cases g <;> first | rfl | simp at hg⟩, fun h => ⟨h.raw, h.size, h.detail, h.chain, h.last⟩⟩

theorem set_jobs_keeps (s : State) (v0) : Keeps [.jobs] s { s with jobs := v0 } :=
  ⟨⟨by intro g hg; cases g <;> first | rfl | simp at hg⟩, fun h => ⟨h.raw, h.size, h.detail, h.chain, h.last⟩⟩

theorem set_links_keeps (s : State) (v0) : Keeps [.links] s { s with links := v0 } :=
  ⟨⟨by intro g hg; cases g <;> first | rfl | simp at hg⟩, fun h => ⟨h.raw, h.size, h.detail, h.chain, h.last⟩⟩

theorem set_loops_keeps (s : State) (v0) : Keeps [.loops] s { s with loops := v0 } :=
  ⟨⟨by intro g hg; cases g <;> first | rfl | simp at hg⟩, fun h => ⟨h.raw, h.size, h.detail, h.chain, h.last⟩⟩

theorem set_mem_keeps (s : State) (v0) : Keeps [.mem] s { s with mem := v0 } :=
  ⟨⟨by intro g hg; cases g <;> first | rfl | simp at hg⟩, fun h => ⟨h.raw, h.size, h.detail, h.chain, h.last⟩⟩

theorem set_mod_keeps (s : State) (v0) : Keeps [.mod] s { s with mod := v0 } :=
  ⟨⟨by intro g hg; cases g <;> first | rfl | simp at hg⟩, fun h => ⟨h.raw, h.size, h.detail, h.chain, h.last⟩⟩

theorem set_monitors_keeps (s : State) (v0) : Keeps [.monitors] s { s with monitors := v0 } :=
  ⟨⟨by intro g hg; cases g <;> first | rfl | simp at hg⟩, fun h => ⟨h.raw, h.size, h.detail, h.chain, h.last⟩⟩

theorem set_net_keeps (s : State) (v0) : Keeps [.net] s { s with net := v0 } :=
  ⟨⟨by intro g hg; cases g <;> first | rfl | simp at hg⟩, fun h => ⟨h.raw, h.size, h.detail, h.chain, h.last⟩⟩

theorem set_pair_keeps (s : State) (v0) : Keeps [.pair] s { s with pair := v0 } :=
  ⟨⟨by intro g hg; cases g <;> first | rfl | simp at hg⟩, fun h => ⟨h.raw, h.size, h.detail, h.chain, h.last⟩⟩

theorem set_pos_keeps (s : State) (v0) : Keeps [.pos] s { s with pos := v0 } :=
  ⟨⟨by intro g hg; cases g <;> first | rfl | simp at hg⟩, fun h => ⟨h.raw, h.size, h.detail, h.chain, h.last⟩⟩

theorem set_power_keeps (s : State) (v0) : Keeps [.power] s { s with power := v0 } :=
  ⟨⟨by intro g hg; cases g <;> first | rfl | simp at hg⟩, fun h => ⟨h.raw, h.size, h.detail, h.chain, h.last⟩⟩

theorem set_render_keeps (s : State) (v0) : Keeps [.render] s { s with render := v0 } :=
  ⟨⟨by intro g hg; cases g <;> first | rfl | simp at hg⟩, fun h => ⟨h.raw, h.size, h.detail, h.chain, h.last⟩⟩

theorem set_ring_keeps (s : State) (v0) : Keeps [.ring] s { s with ring := v0 } :=
  ⟨⟨by intro g hg; cases g <;> first | rfl | simp at hg⟩, fun h => ⟨h.raw, h.size, h.detail, h.chain, h.last⟩⟩

theorem set_sent_keeps (s : State) (v0) : Keeps [] s { s with sent := v0 } :=
  ⟨⟨by intro g hg; cases g <;> rfl⟩, fun h => ⟨h.raw, h.size, h.detail, h.chain, h.last⟩⟩

theorem set_thermal_keeps (s : State) (v0) : Keeps [.thermal] s { s with thermal := v0 } :=
  ⟨⟨by intro g hg; cases g <;> first | rfl | simp at hg⟩, fun h => ⟨h.raw, h.size, h.detail, h.chain, h.last⟩⟩

theorem set_time_keeps (s : State) (v0) : Keeps [.time] s { s with time := v0 } :=
  ⟨⟨by intro g hg; cases g <;> first | rfl | simp at hg⟩, fun h => ⟨h.raw, h.size, h.detail, h.chain, h.last⟩⟩

theorem set_update_keeps (s : State) (v0) : Keeps [.update] s { s with update := v0 } :=
  ⟨⟨by intro g hg; cases g <;> first | rfl | simp at hg⟩, fun h => ⟨h.raw, h.size, h.detail, h.chain, h.last⟩⟩

theorem set_cal_pair_keeps (s : State) (v0 v1) : Keeps [.cal, .pair] s { s with cal := v0, pair := v1 } :=
  ⟨⟨by intro g hg; cases g <;> first | rfl | simp at hg⟩, fun h => ⟨h.raw, h.size, h.detail, h.chain, h.last⟩⟩

theorem set_flash_cal_keeps (s : State) (v0 v1) : Keeps [.flash, .cal] s { s with flash := v0, cal := v1 } :=
  ⟨⟨by intro g hg; cases g <;> first | rfl | simp at hg⟩, fun h => ⟨h.raw, h.size, h.detail, h.chain, h.last⟩⟩

theorem set_flash_thermal_keeps (s : State) (v0 v1) : Keeps [.flash, .thermal] s { s with flash := v0, thermal := v1 } :=
  ⟨⟨by intro g hg; cases g <;> first | rfl | simp at hg⟩, fun h => ⟨h.raw, h.size, h.detail, h.chain, h.last⟩⟩

theorem set_flash_update_keeps (s : State) (v0 v1) : Keeps [.flash, .update] s { s with flash := v0, update := v1 } :=
  ⟨⟨by intro g hg; cases g <;> first | rfl | simp at hg⟩, fun h => ⟨h.raw, h.size, h.detail, h.chain, h.last⟩⟩

theorem set_jobs_mem_keeps (s : State) (v0 v1) : Keeps [.jobs, .mem] s { s with jobs := v0, mem := v1 } :=
  ⟨⟨by intro g hg; cases g <;> first | rfl | simp at hg⟩, fun h => ⟨h.raw, h.size, h.detail, h.chain, h.last⟩⟩

theorem set_jobs_pair_keeps (s : State) (v0 v1) : Keeps [.jobs, .pair] s { s with jobs := v0, pair := v1 } :=
  ⟨⟨by intro g hg; cases g <;> first | rfl | simp at hg⟩, fun h => ⟨h.raw, h.size, h.detail, h.chain, h.last⟩⟩

theorem set_jobs_render_keeps (s : State) (v0 v1) : Keeps [.jobs, .render] s { s with jobs := v0, render := v1 } :=
  ⟨⟨by intro g hg; cases g <;> first | rfl | simp at hg⟩, fun h => ⟨h.raw, h.size, h.detail, h.chain, h.last⟩⟩

theorem set_mem_loops_keeps (s : State) (v0 v1) : Keeps [.mem, .loops] s { s with mem := v0, loops := v1 } :=
  ⟨⟨by intro g hg; cases g <;> first | rfl | simp at hg⟩, fun h => ⟨h.raw, h.size, h.detail, h.chain, h.last⟩⟩

theorem set_mod_cal_keeps (s : State) (v0 v1) : Keeps [.mod, .cal] s { s with mod := v0, cal := v1 } :=
  ⟨⟨by intro g hg; cases g <;> first | rfl | simp at hg⟩, fun h => ⟨h.raw, h.size, h.detail, h.chain, h.last⟩⟩

theorem set_mod_pos_keeps (s : State) (v0 v1) : Keeps [.mod, .pos] s { s with mod := v0, pos := v1 } :=
  ⟨⟨by intro g hg; cases g <;> first | rfl | simp at hg⟩, fun h => ⟨h.raw, h.size, h.detail, h.chain, h.last⟩⟩

theorem set_mod_power_keeps (s : State) (v0 v1) : Keeps [.mod, .power] s { s with mod := v0, power := v1 } :=
  ⟨⟨by intro g hg; cases g <;> first | rfl | simp at hg⟩, fun h => ⟨h.raw, h.size, h.detail, h.chain, h.last⟩⟩

theorem set_net_jobs_keeps (s : State) (v0 v1) : Keeps [.net, .jobs] s { s with net := v0, jobs := v1 } :=
  ⟨⟨by intro g hg; cases g <;> first | rfl | simp at hg⟩, fun h => ⟨h.raw, h.size, h.detail, h.chain, h.last⟩⟩

theorem set_render_cal_keeps (s : State) (v0 v1) : Keeps [.render, .cal] s { s with render := v0, cal := v1 } :=
  ⟨⟨by intro g hg; cases g <;> first | rfl | simp at hg⟩, fun h => ⟨h.raw, h.size, h.detail, h.chain, h.last⟩⟩

theorem set_thermal_gov_keeps (s : State) (v0 v1) : Keeps [.thermal, .gov] s { s with thermal := v0, gov := v1 } :=
  ⟨⟨by intro g hg; cases g <;> first | rfl | simp at hg⟩, fun h => ⟨h.raw, h.size, h.detail, h.chain, h.last⟩⟩

theorem set_time_ring_keeps (s : State) (v0 v1) : Keeps [.time, .ring] s { s with time := v0, ring := v1 } :=
  ⟨⟨by intro g hg; cases g <;> first | rfl | simp at hg⟩, fun h => ⟨h.raw, h.size, h.detail, h.chain, h.last⟩⟩

theorem set_update_ring_keeps (s : State) (v0 v1) : Keeps [.update, .ring] s { s with update := v0, ring := v1 } :=
  ⟨⟨by intro g hg; cases g <;> first | rfl | simp at hg⟩, fun h => ⟨h.raw, h.size, h.detail, h.chain, h.last⟩⟩

theorem set_mod_power_pair_keeps (s : State) (v0 v1 v2) : Keeps [.mod, .power, .pair] s { s with mod := v0, power := v1, pair := v2 } :=
  ⟨⟨by intro g hg; cases g <;> first | rfl | simp at hg⟩, fun h => ⟨h.raw, h.size, h.detail, h.chain, h.last⟩⟩

theorem set_mod_update_ring_keeps (s : State) (v0 v1 v2) : Keeps [.mod, .update, .ring] s { s with mod := v0, update := v1, ring := v2 } :=
  ⟨⟨by intro g hg; cases g <;> first | rfl | simp at hg⟩, fun h => ⟨h.raw, h.size, h.detail, h.chain, h.last⟩⟩

theorem set_conf_update_gov_pair_keeps (s : State) (v0 v1 v2 v3) : Keeps [.conf, .update, .gov, .pair] s { s with conf := v0, update := v1, gov := v2, pair := v3 } :=
  ⟨⟨by intro g hg; cases g <;> first | rfl | simp at hg⟩, fun h => ⟨h.raw, h.size, h.detail, h.chain, h.last⟩⟩

theorem set_mod_thermal_net_links_time_keeps (s : State) (v0 v1 v2 v3 v4) : Keeps [.mod, .thermal, .net, .links, .time] s { s with mod := v0, thermal := v1, net := v2, links := v3, time := v4 } :=
  ⟨⟨by intro g hg; cases g <;> first | rfl | simp at hg⟩, fun h => ⟨h.raw, h.size, h.detail, h.chain, h.last⟩⟩

theorem set_power_thermal_gov_pair_loops_keeps (s : State) (v0 v1 v2 v3 v4) : Keeps [.power, .thermal, .gov, .pair, .loops] s { s with power := v0, thermal := v1, gov := v2, pair := v3, loops := v4 } :=
  ⟨⟨by intro g hg; cases g <;> first | rfl | simp at hg⟩, fun h => ⟨h.raw, h.size, h.detail, h.chain, h.last⟩⟩

theorem set_mod_power_conf_pos_axes_pair_keeps (s : State) (v0 v1 v2 v3 v4 v5) : Keeps [.mod, .power, .conf, .pos, .axes, .pair] s { s with mod := v0, power := v1, conf := v2, pos := v3, axes := v4, pair := v5 } :=
  ⟨⟨by intro g hg; cases g <;> first | rfl | simp at hg⟩, fun h => ⟨h.raw, h.size, h.detail, h.chain, h.last⟩⟩

theorem set_net_jobs_render_mem_fire_cal_keeps (s : State) (v0 v1 v2 v3 v4 v5) : Keeps [.net, .jobs, .render, .mem, .fire, .cal] s { s with net := v0, jobs := v1, render := v2, mem := v3, fire := v4, cal := v5 } :=
  ⟨⟨by intro g hg; cases g <;> first | rfl | simp at hg⟩, fun h => ⟨h.raw, h.size, h.detail, h.chain, h.last⟩⟩

theorem set12_mod_keeps (s : State) (v0 v1 v2 v3 v4 v5 v6 v7 v8 v9 v10 v11) : Keeps [.mod, .power, .conf, .update, .thermal, .gov, .net, .fire, .links, .ring, .pair, .loops] s { s with mod := v0, power := v1, conf := v2, update := v3, thermal := v4, gov := v5, net := v6, fire := v7, links := v8, ring := v9, pair := v10, loops := v11 } :=
  ⟨⟨by intro g hg; cases g <;> first | rfl | simp at hg⟩, fun h => ⟨h.raw, h.size, h.detail, h.chain, h.last⟩⟩

end Sys2Proof.Machine
end

