-- ==== Sys2Proof/Laws/KeepsOps.lean ====
section
/-! SUPPORT. What the operations of Ops, RingOps, Compose, RunOps, PosOps, MotionOps, SessionOps, LinkOps, Copies, Values leave alone, and that they keep the invariant. -/
namespace Sys2Proof.Machine
open Sys2Proof

theorem modBar_keeps (b) (f) (s) : Keeps [.fire] s (modBar b f s) := by
  unfold modBar
  refine Keeps.then ?_ (set_fire_keeps ..) (by decide)
  exact Keeps.refl _ _

theorem modLane_keeps (g) (f) (s) : Keeps [.fire] s (modLane g f s) := by
  unfold modLane
  refine Keeps.then ?_ (set_fire_keeps ..) (by decide)
  exact Keeps.refl _ _

theorem emit_keeps (o) (s) : Keeps [] s (emit o s) := by
  unfold emit
  refine Keeps.then ?_ (set_sent_keeps ..) (by decide)
  exact Keeps.refl _ _

theorem putSymbols_keeps (g) (fill) (l) (s) : Keeps [.fire] s (putSymbols g fill l s) := by
  unfold putSymbols
  refine Keeps.then ?_ (emit_keeps _ _) (by decide)
  refine Keeps.then ?_ (modLane_keeps _ _ _) (by decide)
  exact Keeps.refl _ _

theorem sendSymbols_keeps (g) (l) (s) : Keeps [.fire] s (sendSymbols g l s) := by
  unfold sendSymbols
  refine Keeps.then ?_ (putSymbols_keeps _ _ _ _) (by decide)
  exact Keeps.refl _ _

theorem sendPartner_keeps (type) (body) (s) : Keeps [.pair] s (sendPartner type body s) := by
  unfold sendPartner
  refine Keeps.then ?_ (emit_keeps _ _) (by decide)
  refine Keeps.then ?_ (set_pair_keeps ..) (by decide)
  exact Keeps.refl _ _

theorem sendToken_keeps (kind) (body) (s) : Keeps [.pair] s (sendToken kind body s) := by
  unfold sendToken
  refine Keeps.ite (fun _ => ?_) (fun _ => ?_)
  ·
    refine Keeps.then ?_ (sendPartner_keeps _ _ _) (by decide)
    refine Keeps.then ?_ (set_pair_keeps ..) (by decide)
    exact Keeps.refl _ _
  ·
    exact Keeps.refl _ _

theorem emitTo_keeps (port) (addr) (o) (s) : Keeps [.net] s (emitTo port addr o s) := by
  unfold emitTo
  refine Keeps.ite (fun _ => ?_) (fun _ => ?_)
  ·
    refine Keeps.then ?_ (emit_keeps _ _) (by decide)
    exact Keeps.refl _ _
  ·
    refine Keeps.then ?_ (emit_keeps _ _) (by decide)
    refine Keeps.then ?_ (emit_keeps _ _) (by decide)
    refine Keeps.then ?_ (set_net_keeps ..) (by decide)
    exact Keeps.refl _ _

theorem modSession_keeps (i) (f) (s) : Keeps [.net] s (modSession i f s) := by
  unfold modSession
  refine Keeps.then ?_ (set_net_keeps ..) (by decide)
  exact Keeps.refl _ _

theorem sendOn_keeps (grp) (i) (type) (payload) (s) : Keeps [.net] s (sendOn grp i type payload s) := by
  unfold sendOn
  refine Keeps.ite (fun _ => ?_) (fun _ => ?_)
  ·
    exact Keeps.refl _ _
  ·
    refine Keeps.ite (fun _ => ?_) (fun _ => ?_)
    ·
      refine Keeps.then ?_ (emitTo_keeps _ _ _ _) (by decide)
      refine Keeps.then ?_ (modSession_keeps _ _ _) (by decide)
      exact Keeps.refl _ _
    ·
      refine Keeps.then ?_ (modSession_keeps _ _ _) (by decide)
      exact Keeps.refl _ _

theorem sendOwn_keeps (i) (type) (payload) (s) : Keeps [.net] s (sendOwn i type payload s) := by
  unfold sendOwn
  refine Keeps.then ?_ (sendOn_keeps _ _ _ _ _) (by decide)
  exact Keeps.refl _ _

/-- The events that a log of at most 256 keeps once one more, the next in number, has joined them. -/
theorem newest_ok {l : List Event} {m : Nat} {e : Event} (hs : e.seq = m) (hd : e.detail.length = 16)
    (detail : ∀ x ∈ l, x.detail.length = 16) (chain : l.IsChain fun a b => b.seq = wrapInc 32 a.seq)
    (last : ∀ x, l.getLast? = some x → m = wrapInc 32 x.seq) (k : Nat) :
    (∀ x ∈ (l ++ [e]).drop k, x.detail.length = 16) ∧
      ((l ++ [e]).drop k).IsChain (fun a b => b.seq = wrapInc 32 a.seq) ∧
      ∀ x, ((l ++ [e]).drop k).getLast? = some x → x = e := by
  refine ⟨fun x hx => ?_, ?_, fun x hx => ?_⟩
  · have := List.mem_of_mem_drop hx
    simp only [List.mem_append, List.mem_singleton] at this
    rcases this with h | rfl
    · exact detail x h
    · exact hd
  · refine List.IsChain.drop ?_ k
    refine List.IsChain.append chain (List.isChain_singleton e) ?_
    intro x hx y hy
    simp only [List.head?_cons, Option.mem_def, Option.some.injEq] at hy
    subst hy
    rw [hs]
    exact last x hx
  · rw [List.getLast?_drop] at hx
    split at hx
    · simp at hx
    · simp at hx; exact hx.symm

theorem padTo_length (n : Nat) (l : List Byte) : (padTo n l).length = n := by
  simp only [padTo, List.length_append, List.length_take, List.length_replicate]; omega

/-- The log once an event, the next in number, has joined it. -/
theorem logged_inv (s : State) (l : Log) (e : Event) (k : Nat) (hs : e.seq = s.log.nextSeq) (hd : e.detail.length = 16)
    (hl : l.events = (s.log.events ++ [e]).drop k) (hk : l.events.length ≤ 256) (hn : l.nextSeq = wrapInc 32 s.log.nextSeq)
    (h : Inv s) : Inv { s with log := l } := by
  have ho := newest_ok hs hd h.detail h.chain h.last k
  rw [← hl] at ho
  exact ⟨h.raw, hk, ho.1, ho.2.1, fun x hx => by rw [ho.2.2 x hx, hs]; exact hn⟩

theorem raiseAt_keeps (code detail t s) : Keeps [.log, .net] s (raiseAt code detail t s) := by
  unfold raiseAt
  dsimp only
  refine Keeps.forEach (fun _ _ => ?_) ?_
  · exact (Keeps.refl _ _).then (sendOwn_keeps ..) (by decide)
  · refine ⟨⟨by intro g hg; cases g <;> first | exact absurd (by decide) hg | rfl⟩, fun h => ?_⟩
    have hd := padTo_length 16 detail
    generalize padTo 16 detail = d at hd ⊢
    generalize he : ({ seq := s.log.nextSeq, code := code, time := t, detail := d } : Event) = e
    have hk : ((s.log.events ++ [e]).drop ((s.log.events ++ [e]).length - 256)).length ≤ 256 := by
      rw [List.length_drop]; omega
    generalize (s.log.events ++ [e]).length - 256 = k at hk ⊢
    exact logged_inv s _ e k (by rw [← he]) (by rw [← he]; exact hd) rfl hk rfl h

theorem raise_keeps (code) (detail) (s) : Keeps [.log, .net] s (raise code detail s) := by
  unfold raise
  refine Keeps.then ?_ (raiseAt_keeps _ _ _ _) (by decide)
  exact Keeps.refl _ _

theorem modLink_keeps (k) (f) (s) : Keeps [.links] s (modLink k f s) := by
  unfold modLink
  refine Keeps.then ?_ (set_links_keeps ..) (by decide)
  exact Keeps.refl _ _

theorem suppress_keeps (s) : Keeps [.log] s (suppress s) :=
  ⟨⟨by intro g hg; cases g <;> first | rfl | simp [suppress] at hg⟩,
    fun h => ⟨h.raw, h.size, h.detail, h.chain, h.last⟩⟩

/-- The limits are no part of the invariant. -/
theorem limits_keeps (s : State) (v) : Keeps [.log] s { s with log := { s.log with limits := v } } :=
  ⟨⟨by intro g hg; cases g <;> first | rfl | simp at hg⟩,
    fun h => ⟨h.raw, h.size, h.detail, h.chain, h.last⟩⟩

theorem raiseLimited_keeps (code idx window detail s) : Keeps [.log, .net] s (raiseLimited code idx window detail s) := by
  unfold raiseLimited
  split
  · refine Keeps.ite (fun _ => ?_) (fun _ => ?_)
    · exact ((Keeps.refl _ _).then (limits_keeps ..) (by decide)).then (suppress_keeps ..) (by decide)
    · exact ((Keeps.refl _ _).then (limits_keeps ..) (by decide)).then (raise_keeps ..) (by decide)
  · exact ((Keeps.refl _ _).then (limits_keeps ..) (by decide)).then (raise_keeps ..) (by decide)

theorem settleResult_keeps (ticket) (s) : Keeps [.net] s (settleResult ticket s) := by
  unfold settleResult
  refine Keeps.then ?_ (set_net_keeps ..) (by decide)
  exact Keeps.refl _ _

theorem timeResult_keeps (ticket) (t) (s) : Keeps [.net] s (timeResult ticket t s) := by
  unfold timeResult
  split
  ·
    exact Keeps.refl _ _
  ·
    refine Keeps.ite (fun _ => ?_) (fun _ => ?_)
    ·
      refine Keeps.then ?_ (settleResult_keeps _ _) (by decide)
      refine Keeps.then ?_ (set_net_keeps ..) (by decide)
      exact Keeps.refl _ _
    ·
      refine Keeps.then ?_ (set_net_keeps ..) (by decide)
      exact Keeps.refl _ _

theorem onAck_then {w : List Group} {f : State → State} {a s : State} (kind body d) (hw : [Group.pair] ⊆ w)
    (hf : ∀ s, Keeps w s (f s)) (h : Keeps w a s) : Keeps w a (onAck kind body d f s) := by
  unfold onAck
  refine Keeps.ite (fun _ => ?_) (fun _ => ?_)
  · refine Keeps.then ?_ (set_pair_keeps ..) hw
    exact h.then (sendToken_keeps ..) hw
  · exact (h.then (sendToken_keeps ..) hw).then (hf _) fun _ h => h

theorem finishResult_keeps (ticket) (body) (s) : Keeps [.net, .pair] s (finishResult ticket body s) := by
  unfold finishResult
  split
  ·
    exact Keeps.refl _ _
  ·
    refine Keeps.ite (fun _ => ?_) (fun _ => ?_)
    ·
      refine Keeps.ite (fun _ => ?_) (fun _ => ?_)
      ·
        refine Keeps.then ?_ (settleResult_keeps _ _) (by decide)
        refine Keeps.then ?_ (set_net_keeps ..) (by decide)
        exact Keeps.refl _ _
      ·
        refine Keeps.then ?_ (set_net_keeps ..) (by decide)
        exact Keeps.refl _ _
    ·
      refine onAck_then _ _ _ (by decide) (fun _ => ?_) ?_
      ·
        refine Keeps.then ?_ (timeResult_keeps _ _ _) (by decide)
        exact Keeps.refl _ _
      ·
        refine Keeps.then ?_ (set_net_keeps ..) (by decide)
        exact Keeps.refl _ _

theorem modAxis_keeps (a) (f) (s) : Keeps [.axes] s (modAxis a f s) := by
  unfold modAxis
  refine Keeps.then ?_ (set_axes_keeps ..) (by decide)
  exact Keeps.refl _ _

theorem sendBare_keeps (type) (c) (i) (s) : Keeps [.net] s (sendBare type c i s) := by
  unfold sendBare
  refine Keeps.then ?_ (emitTo_keeps _ _ _ _) (by decide)
  refine Keeps.then ?_ (modSession_keeps _ _ _) (by decide)
  exact Keeps.refl _ _

theorem sendAckWith_keeps (c) (i) (s) : Keeps [.net] s (sendAckWith c i s) := by
  unfold sendAckWith
  refine Keeps.ite (fun _ => ?_) (fun _ => ?_)
  ·
    exact Keeps.refl _ _
  ·
    refine Keeps.ite (fun _ => ?_) (fun _ => ?_)
    ·
      refine Keeps.then ?_ (sendBare_keeps _ _ _ _) (by decide)
      exact Keeps.refl _ _
    ·
      refine Keeps.then ?_ (modSession_keeps _ _ _) (by decide)
      exact Keeps.refl _ _

theorem sendAck_keeps (i) (s) : Keeps [.net] s (sendAck i s) := by
  unfold sendAck
  refine Keeps.then ?_ (sendAckWith_keeps _ _ _) (by decide)
  exact Keeps.refl _ _

theorem takeTurn_keeps (i) (group) (msg) (s) : Keeps [.net] s (takeTurn i group msg s) := by
  unfold takeTurn
  refine Keeps.ite (fun _ => ?_) (fun _ => ?_)
  ·
    refine Keeps.then ?_ (sendAck_keeps _ _) (by decide)
    refine Keeps.then ?_ (modSession_keeps _ _ _) (by decide)
    exact Keeps.refl _ _
  ·
    refine Keeps.then ?_ (modSession_keeps _ _ _) (by decide)
    exact Keeps.refl _ _

theorem sendOrder_keeps (group) (session) (msg) (type) (payload) (s) : Keeps [.pair] s (sendOrder group session msg type payload s) := by
  unfold sendOrder
  refine Keeps.ite (fun _ => ?_) (fun _ => ?_)
  ·
    refine Keeps.then ?_ (sendPartner_keeps _ _ _) (by decide)
    refine Keeps.then ?_ (set_pair_keeps ..) (by decide)
    exact Keeps.refl _ _
  ·
    exact Keeps.refl _ _

theorem sendDpt_keeps (i) (type) (payload) (s) : Keeps [.net] s (sendDpt i type payload s) := by
  unfold sendDpt
  refine Keeps.then ?_ (sendOn_keeps _ _ _ _ _) (by decide)
  exact Keeps.refl _ _

theorem sendReject_keeps (i) (msg) (type) (reason) (detail) (s) : Keeps [.net] s (sendReject i msg type reason detail s) := by
  unfold sendReject
  refine Keeps.then ?_ (sendDpt_keeps _ _ _ _) (by decide)
  exact Keeps.refl _ _

theorem rejectOne_keeps (i) (m) (s) : Keeps [.net, .pair] s (rejectOne i m s) := by
  unfold rejectOne
  refine Keeps.then ?_ (sendReject_keeps _ _ _ _ _ _) (by decide)
  refine Keeps.then ?_ (sendOrder_keeps _ _ _ _ _ _) (by decide)
  refine Keeps.then ?_ (takeTurn_keeps _ _ _ _) (by decide)
  exact Keeps.refl _ _

theorem rejectBad_keeps (n i s) : Keeps [.net, .pair] s (rejectBad n i s) := by
  induction n generalizing s with
  | zero => exact Keeps.refl _ _
  | succ n ih =>
    unfold rejectBad
    split
    · exact Keeps.refl _ _
    · exact ((Keeps.refl _ _).then (rejectOne_keeps ..) (by decide)).then (ih _) (by decide)

theorem insertSymbols_keeps (g) (l) (s) : Keeps [.fire] s (insertSymbols g l s) := by
  unfold insertSymbols
  refine Keeps.then ?_ (putSymbols_keeps _ _ _ _) (by decide)
  exact Keeps.refl _ _

theorem emitOwn_keeps (f) (s) : Keeps [] s (emitOwn f s) := by
  unfold emitOwn
  refine Keeps.then ?_ (set_sent_keeps ..) (by decide)
  exact Keeps.refl _ _

theorem setModState_keeps (st) (cause) (s) : Keeps [.mod, .log, .net] s (setModState st cause s) := by
  unfold setModState
  refine Keeps.then ?_ (raise_keeps _ _ _) (by decide)
  refine Keeps.then ?_ (set_mod_keeps ..) (by decide)
  exact Keeps.refl _ _

theorem modCam_keeps (c) (f) (s) : Keeps [.cams] s (modCam c f s) := by
  unfold modCam
  refine Keeps.then ?_ (set_cams_keeps ..) (by decide)
  exact Keeps.refl _ _

theorem modInput_keeps (i) (f) (s) : Keeps [.pos] s (modInput i f s) := by
  unfold modInput
  refine Keeps.then ?_ (set_pos_keeps ..) (by decide)
  exact Keeps.refl _ _

theorem modNode_keeps (n) (f) (s) : Keeps [.ring] s (modNode n f s) := by
  unfold modNode
  refine Keeps.then ?_ (set_ring_keeps ..) (by decide)
  exact Keeps.refl _ _

theorem drawFree_keeps (s) : Keeps [.free] s (drawFree s) := by
  unfold drawFree
  refine Keeps.then ?_ (set_freeN_keeps ..) (by decide)
  exact Keeps.refl _ _

theorem noteTicket_keeps (ticket) (s) : Keeps [.net] s (noteTicket ticket s) := by
  unfold noteTicket
  refine Keeps.then ?_ (set_net_keeps ..) (by decide)
  exact Keeps.refl _ _

theorem addPending_keeps (ticket) (kind) (s) : Keeps [.net] s (addPending ticket kind s) := by
  unfold addPending
  refine Keeps.then ?_ (set_net_keeps ..) (by decide)
  refine Keeps.then ?_ (noteTicket_keeps _ _) (by decide)
  exact Keeps.refl _ _

theorem unsolicited_keeps (body) (s) : Keeps [.net, .pair] s (unsolicited body s) := by
  unfold unsolicited
  refine Keeps.then ?_ (finishResult_keeps _ _ _) (by decide)
  refine Keeps.then ?_ (addPending_keeps _ _ _) (by decide)
  refine Keeps.then ?_ (set_net_keeps ..) (by decide)
  exact Keeps.refl _ _

theorem keepWaiting_keeps (i) (m) (s) : Keeps [.net] s (keepWaiting i m s) := by
  unfold keepWaiting
  refine Keeps.ite (fun _ => ?_) (fun _ => ?_)
  ·
    exact Keeps.refl _ _
  ·
    refine Keeps.then ?_ (modSession_keeps _ _ _) (by decide)
    exact Keeps.refl _ _

theorem applyMessage_then {w : List Group} {f : Nat → List Byte → State → Verdict} {a s : State} (i group msg type payload)
    (hw : [Group.net, Group.pair] ⊆ w) (hf : ∀ i p s, KeepsV w s (f i p s)) (h : Keeps w a s) :
    Keeps w a (applyMessage i group msg type payload f s) := by
  have hn : [Group.net] ⊆ w := fun g hg => hw (by simp_all)
  have hp : [Group.pair] ⊆ w := fun g hg => hw (by simp_all)
  have h1 : Keeps w a (sendOrder group (sessionOf s i).id msg type payload (takeTurn i group msg s)) :=
    (h.then (takeTurn_keeps ..) hn).then (sendOrder_keeps ..) hp
  unfold applyMessage
  refine Keeps.then ?_ (rejectBad_keeps ..) hw
  split
  · exact h1.then (sendReject_keeps ..) hn
  · split
    · rename_i s2 heq
      exact (h1.then (hf _ _ _ _ heq) fun _ h => h).then (modSession_keeps ..) hn
    · exact h1.then (sendReject_keeps ..) hn

theorem holdMessage_keeps (m) (s) : Keeps [.pair] s (holdMessage m s) := by
  unfold holdMessage
  refine Keeps.ite (fun _ => ?_) (fun _ => ?_)
  ·
    exact Keeps.refl _ _
  ·
    refine Keeps.then ?_ (set_pair_keeps ..) (by decide)
    exact Keeps.refl _ _

theorem onMessage_then {w : List Group} {f : Nat → List Byte → State → Verdict} (t src type payload s)
    (hw : [Group.net, Group.pair] ⊆ w) (hf : ∀ i p s, KeepsV w s (f i p s)) :
    Keeps w (beginAt t s) (onMessage t src type payload f s) := by
  have hn : [Group.net] ⊆ w := fun g hg => hw (by simp_all)
  have hp : [Group.pair] ⊆ w := fun g hg => hw (by simp_all)
  have h0 : Keeps w (beginAt t s) (beginAt t s) := Keeps.refl _ _
  unfold onMessage
  dsimp only
  split
  · exact h0
  · refine Keeps.ite (fun _ => h0) (fun _ => ?_)
    refine Keeps.ite (fun _ => h0.then (holdMessage_keeps ..) hp) (fun _ => ?_)
    refine Keeps.ite (fun _ => ?_) (fun _ => h0.then (keepWaiting_keeps ..) hn)
    exact applyMessage_then _ _ _ _ _ hw hf h0

theorem drawFrees_keeps (k) (s) : Keeps [.free] s (drawFrees k s) := by
  unfold drawFrees
  refine Keeps.then ?_ (set_freeN_keeps ..) (by decide)
  exact Keeps.refl _ _

theorem modOut_keeps (n) (f) (s) : Keeps [.time] s (modOut n f s) := by
  unfold modOut
  refine Keeps.then ?_ (set_time_keeps ..) (by decide)
  exact Keeps.refl _ _

theorem modPort_keeps (p) (f) (s) : Keeps [.net] s (modPort p f s) := by
  unfold modPort
  refine Keeps.then ?_ (set_net_keeps ..) (by decide)
  exact Keeps.refl _ _

theorem raiseLimitedBy_keeps (k code idx window detail s) : Keeps [.log, .net] s (raiseLimitedBy k code idx window detail s) := by
  unfold raiseLimitedBy
  split
  · refine Keeps.ite (fun _ => ?_) (fun _ => ?_)
    · exact ((Keeps.refl _ _).then (limits_keeps ..) (by decide)).then (suppress_keeps ..) (by decide)
    · exact ((Keeps.refl _ _).then (limits_keeps ..) (by decide)).then (raise_keeps ..) (by decide)
  · exact ((Keeps.refl _ _).then (limits_keeps ..) (by decide)).then (raise_keeps ..) (by decide)

theorem forgetLimit_keeps (code idx s) : Keeps [.log] s (forgetLimit code idx s) := limits_keeps ..

theorem ringSend_keeps (type) (dest) (body) (s) : Keeps [.ring] s (ringSend type dest body s) := by
  unfold ringSend
  refine Keeps.then ?_ (emitOwn_keeps _ _) (by decide)
  refine Keeps.then ?_ (set_ring_keeps ..) (by decide)
  exact Keeps.refl _ _

theorem ringSendActive_keeps (type) (dest) (body) (s) : Keeps [.ring] s (ringSendActive type dest body s) := by
  unfold ringSendActive
  refine Keeps.ite (fun _ => ?_) (fun _ => ?_)
  ·
    refine Keeps.then ?_ (ringSend_keeps _ _ _ _) (by decide)
    exact Keeps.refl _ _
  ·
    exact Keeps.refl _ _

theorem ringDecision_keeps (type) (body) (s) : Keeps [.ring] s (ringDecision type body s) := by
  unfold ringDecision
  refine Keeps.ite (fun _ => ?_) (fun _ => ?_)
  ·
    refine Keeps.then ?_ (ringSendActive_keeps _ _ _ _) (by decide)
    exact Keeps.refl _ _
  ·
    refine Keeps.ite (fun _ => ?_) (fun _ => ?_)
    ·
      refine Keeps.then ?_ (set_ring_keeps ..) (by decide)
      exact Keeps.refl _ _
    ·
      exact Keeps.refl _ _

theorem setRingState_keeps (st) (s) : Keeps [.log, .net, .ring] s (setRingState st s) := by
  unfold setRingState
  refine Keeps.ite (fun _ => ?_) (fun _ => ?_)
  ·
    exact Keeps.refl _ _
  ·
    refine Keeps.then ?_ (raise_keeps _ _ _) (by decide)
    refine Keeps.then ?_ (set_ring_keeps ..) (by decide)
    exact Keeps.refl _ _

theorem closeBypass_keeps (st) (s) : Keeps [.log, .net, .ring] s (closeBypass st s) := by
  unfold closeBypass
  refine Keeps.then ?_ (setRingState_keeps _ _) (by decide)
  refine Keeps.then ?_ (set_ring_keeps ..) (by decide)
  exact Keeps.refl _ _

theorem openBypass_keeps (s) : Keeps [.ring] s (openBypass s) := by
  unfold openBypass
  refine Keeps.then ?_ (emit_keeps _ _) (by decide)
  refine Keeps.then ?_ (set_ring_keeps ..) (by decide)
  exact Keeps.refl _ _

theorem fixCosts_keeps (s) : Keeps [.jobs] s (fixCosts s) := by
  unfold fixCosts
  refine Keeps.then ?_ (set_jobs_keeps ..) (by decide)
  exact Keeps.refl _ _

theorem modArmed_keeps (f) (s) : Keeps [.jobs] s (modArmed f s) := by
  unfold modArmed
  refine Keeps.then ?_ (set_jobs_keeps ..) (by decide)
  exact Keeps.refl _ _

theorem modSlot_keeps (n) (f) (s) : Keeps [.jobs] s (modSlot n f s) := by
  unfold modSlot
  refine Keeps.then ?_ (modArmed_keeps _ _) (by decide)
  exact Keeps.refl _ _

theorem endReading_keeps (b) (n) (s) : Keeps [.fire] s (endReading b n s) := by
  unfold endReading
  refine Keeps.forEach (fun _ _ => ?_) ?_
  ·
    refine Keeps.then ?_ (modLane_keeps _ _ _) (by decide)
    exact Keeps.refl _ _
  ·
    exact Keeps.refl _ _

theorem modPage_keeps (id) (f) (s) : Keeps [.jobs] s (modPage id f s) := by
  unfold modPage
  refine Keeps.then ?_ (set_jobs_keeps ..) (by decide)
  exact Keeps.refl _ _

theorem endSlot_keeps (n) (s) : Keeps [.log, .net, .jobs] s (endSlot n s) := by
  unfold endSlot
  split
  ·
    exact Keeps.refl _ _
  ·
    refine Keeps.ite (fun _ => ?_) (fun _ => ?_)
    ·
      exact Keeps.refl _ _
    ·
      refine Keeps.ite (fun _ => ?_) (fun _ => ?_)
      ·
        refine Keeps.then ?_ (raise_keeps _ _ _) (by decide)
        refine Keeps.then ?_ (modSlot_keeps _ _ _) (by decide)
        exact Keeps.refl _ _
      ·
        refine Keeps.then ?_ (raise_keeps _ _ _) (by decide)
        refine Keeps.then ?_ (modPage_keeps _ _ _) (by decide)
        refine Keeps.then ?_ (modArmed_keeps _ _) (by decide)
        refine Keeps.then ?_ (modSlot_keeps _ _ _) (by decide)
        exact Keeps.refl _ _

theorem checkSlot_keeps (n) (s) : Keeps [.log, .net, .jobs] s (checkSlot n s) := by
  unfold checkSlot
  split
  ·
    exact Keeps.refl _ _
  ·
    refine Keeps.ite (fun _ => ?_) (fun _ => ?_)
    ·
      refine Keeps.then ?_ (endSlot_keeps _ _) (by decide)
      exact Keeps.refl _ _
    ·
      exact Keeps.refl _ _

theorem barDone_keeps (b) (n) (s) : Keeps [.log, .net, .jobs, .fire] s (barDone b n s) := by
  unfold barDone
  refine Keeps.then ?_ (checkSlot_keeps _ _) (by decide)
  refine Keeps.then ?_ (modSlot_keeps _ _ _) (by decide)
  refine Keeps.then ?_ (endReading_keeps _ _ _) (by decide)
  exact Keeps.refl _ _

theorem spoilSlot_keeps (n) (bit) (s) : Keeps [.jobs] s (spoilSlot n bit s) := by
  unfold spoilSlot
  split
  ·
    exact Keeps.refl _ _
  ·
    refine Keeps.ite (fun _ => ?_) (fun _ => ?_)
    ·
      exact Keeps.refl _ _
    ·
      refine Keeps.then ?_ (modArmed_keeps _ _) (by decide)
      refine Keeps.then ?_ (modSlot_keeps _ _ _) (by decide)
      exact Keeps.refl _ _

theorem abandonRendering_keeps (s) : Keeps [.jobs, .render] s (abandonRendering s) := by
  unfold abandonRendering
  split
  ·
    exact Keeps.refl _ _
  ·
    refine Keeps.ite (fun _ => ?_) (fun _ => ?_)
    ·
      refine Keeps.then ?_ (set_render_keeps ..) (by decide)
      exact Keeps.refl _ _
    ·
      refine Keeps.then ?_ (modPage_keeps _ _ _) (by decide)
      refine Keeps.then ?_ (set_render_keeps ..) (by decide)
      exact Keeps.refl _ _

theorem endHalt_keeps (g) (s) : Keeps [.fire] s (endHalt g s) := by
  unfold endHalt
  split
  ·
    refine Keeps.then ?_ (putSymbols_keeps _ _ _ _) (by decide)
    exact Keeps.refl _ _
  ·
    refine Keeps.then ?_ (putSymbols_keeps _ _ _ _) (by decide)
    exact Keeps.refl _ _
  ·
    exact Keeps.refl _ _

theorem dropReference_keeps (id) (s) : Keeps [.jobs] s (dropReference id s) := by
  unfold dropReference
  refine Keeps.then ?_ (modPage_keeps _ _ _) (by decide)
  exact Keeps.refl _ _

theorem endHalts_keeps (s) : Keeps [.fire] s (endHalts s) := by
  unfold endHalts
  refine Keeps.forEach (fun _ _ => ?_) ?_
  ·
    refine Keeps.then ?_ (endHalt_keeps _ _) (by decide)
    exact Keeps.refl _ _
  ·
    exact Keeps.refl _ _

theorem stopSlotsOn_keeps (b) (bits) (s) : Keeps [.log, .net, .jobs, .fire] s (stopSlotsOn b bits s) := by
  unfold stopSlotsOn
  refine Keeps.forEach (fun _ _ => ?_) ?_
  ·
    refine Keeps.then ?_ (barDone_keeps _ _ _) (by decide)
    exact Keeps.refl _ _
  ·
    refine Keeps.forEach (fun _ _ => ?_) ?_
    ·
      refine Keeps.forEach (fun _ _ => ?_) ?_
      ·
        refine Keeps.then ?_ (spoilSlot_keeps _ _ _) (by decide)
        exact Keeps.refl _ _
      ·
        exact Keeps.refl _ _
    ·
      exact Keeps.refl _ _

theorem haltLane_keeps (packet) (g) (s) : Keeps [.fire] s (haltLane packet g s) := by
  unfold haltLane
  refine Keeps.then ?_ (putSymbols_keeps _ _ _ _) (by decide)
  exact Keeps.refl _ _

theorem haltLanes_keeps (packet) (l) (s) : Keeps [.fire] s (haltLanes packet l s) := by
  unfold haltLanes
  refine Keeps.forEach (fun _ _ => ?_) ?_
  ·
    refine Keeps.then ?_ (haltLane_keeps _ _ _) (by decide)
    exact Keeps.refl _ _
  ·
    exact Keeps.refl _ _

theorem sendHalt_keeps (b) (s) : Keeps [.fire] s (sendHalt b s) := by
  unfold sendHalt
  refine Keeps.ite (fun _ => ?_) (fun _ => ?_)
  ·
    refine Keeps.then ?_ (haltLanes_keeps _ _ _) (by decide)
    exact Keeps.refl _ _
  ·
    exact Keeps.refl _ _

theorem haltBar_keeps (b) (cause) (bits) (s) : Keeps [.log, .net, .jobs, .fire] s (haltBar b cause bits s) := by
  unfold haltBar
  refine Keeps.ite (fun _ => ?_) (fun _ => ?_)
  ·
    exact Keeps.refl _ _
  ·
    refine Keeps.ite (fun _ => ?_) (fun _ => ?_)
    ·
      refine Keeps.then ?_ (stopSlotsOn_keeps _ _ _) (by decide)
      refine Keeps.then ?_ (raise_keeps _ _ _) (by decide)
      refine Keeps.then ?_ (modBar_keeps _ _ _) (by decide)
      refine Keeps.then ?_ (sendHalt_keeps _ _) (by decide)
      exact Keeps.refl _ _
    ·
      refine Keeps.then ?_ (modBar_keeps _ _ _) (by decide)
      refine Keeps.then ?_ (sendHalt_keeps _ _) (by decide)
      exact Keeps.refl _ _

theorem spoilAll_keeps (bit) (s) : Keeps [.log, .net, .jobs] s (spoilAll bit s) := by
  unfold spoilAll
  refine Keeps.forEach (fun _ _ => ?_) ?_
  ·
    refine Keeps.then ?_ (endSlot_keeps _ _) (by decide)
    exact Keeps.refl _ _
  ·
    refine Keeps.forEach (fun _ _ => ?_) ?_
    ·
      refine Keeps.then ?_ (spoilSlot_keeps _ _ _) (by decide)
      exact Keeps.refl _ _
    ·
      exact Keeps.refl _ _

theorem spoilFiring_keeps (bit) (s) : Keeps [.jobs] s (spoilFiring bit s) := by
  unfold spoilFiring
  refine Keeps.forEach (fun _ _ => ?_) ?_
  ·
    refine Keeps.then ?_ (spoilSlot_keeps _ _ _) (by decide)
    exact Keeps.refl _ _
  ·
    exact Keeps.refl _ _

theorem dropAux_keeps (f) (s) : Keeps [.pos] s (dropAux f s) := by
  unfold dropAux
  refine Keeps.then ?_ (set_pos_keeps ..) (by decide)
  exact Keeps.refl _ _

theorem addAux_keeps (x) (s) : Keeps [.pos] s (addAux x s) := by
  unfold addAux
  split
  ·
    refine Keeps.then ?_ (set_pos_keeps ..) (by decide)
    exact Keeps.refl _ _
  ·
    exact Keeps.refl _ _

theorem endReq_keeps (a) (outcome) (s) : Keeps [.net, .axes, .pair] s (endReq a outcome s) := by
  unfold endReq
  try dsimp only
  split
  ·
    exact Keeps.refl _ _
  ·
    refine Keeps.then ?_ (finishResult_keeps _ _ _) (by decide)
    refine Keeps.then ?_ (modAxis_keeps _ _ _) (by decide)
    exact Keeps.refl _ _

theorem endChange_keeps (a) (outcome) (s) : Keeps [.net, .pos, .axes, .pair] s (endChange a outcome s) := by
  unfold endChange
  split
  ·
    exact Keeps.refl _ _
  ·
    refine Keeps.then ?_ (finishResult_keeps _ _ _) (by decide)
    refine Keeps.then ?_ (dropAux_keeps _ _) (by decide)
    refine Keeps.then ?_ (modAxis_keeps _ _ _) (by decide)
    exact Keeps.refl _ _

theorem axisOff_keeps (a) (s) : Keeps [.net, .pos, .axes, .pair] s (axisOff a s) := by
  unfold axisOff
  refine Keeps.then ?_ (modAxis_keeps _ _ _) (by decide)
  refine Keeps.then ?_ (endChange_keeps _ _ _) (by decide)
  refine Keeps.then ?_ (endReq_keeps _ _ _) (by decide)
  exact Keeps.refl _ _

theorem axesOff_keeps (s) : Keeps [.net, .pos, .axes, .pair] s (axesOff s) := by
  unfold axesOff
  refine Keeps.forEach (fun _ _ => ?_) ?_
  ·
    refine Keeps.then ?_ (axisOff_keeps _ _) (by decide)
    exact Keeps.refl _ _
  ·
    exact Keeps.refl _ _

theorem axesLose_keeps (s) : Keeps [.axes] s (axesLose s) := by
  unfold axesLose
  refine Keeps.then ?_ (set_axes_keeps ..) (by decide)
  exact Keeps.refl _ _

theorem requestStop_keeps (a) (cause) (s) : Keeps [.axes] s (requestStop a cause s) := by
  unfold requestStop
  refine Keeps.ite (fun _ => ?_) (fun _ => ?_)
  ·
    exact Keeps.refl _ _
  ·
    refine Keeps.then ?_ (modAxis_keeps _ _ _) (by decide)
    exact Keeps.refl _ _

theorem axisToken_keeps (a) (event) (value) (s) : Keeps [.pair] s (axisToken a event value s) := by
  unfold axisToken
  refine Keeps.then ?_ (sendToken_keeps _ _ _) (by decide)
  exact Keeps.refl _ _

theorem axisFault_keeps (a) (cause) (s) : Keeps [.log, .net, .pos, .axes, .pair] s (axisFault a cause s) := by
  unfold axisFault
  refine Keeps.ite (fun _ => ?_) (fun _ => ?_)
  ·
    exact Keeps.refl _ _
  ·
    refine Keeps.then ?_ (raise_keeps _ _ _) (by decide)
    refine Keeps.then ?_ (endChange_keeps _ _ _) (by decide)
    refine Keeps.then ?_ (endReq_keeps _ _ _) (by decide)
    refine Keeps.then ?_ (modAxis_keeps _ _ _) (by decide)
    exact Keeps.refl _ _

theorem ownFault_keeps (a) (cause) (s) : Keeps [.log, .net, .pos, .axes, .pair] s (ownFault a cause s) := by
  unfold ownFault
  refine Keeps.ite (fun _ => ?_) (fun _ => ?_)
  ·
    exact Keeps.refl _ _
  ·
    refine Keeps.then ?_ (axisFault_keeps _ _ _) (by decide)
    refine Keeps.then ?_ (axisToken_keeps _ _ _ _) (by decide)
    exact Keeps.refl _ _

theorem encoderFault_keeps (i) (s) : Keeps [.log, .net, .pos, .axes, .pair] s (encoderFault i s) := by
  unfold encoderFault
  refine Keeps.forEach (fun _ _ => ?_) ?_
  ·
    refine Keeps.then ?_ (ownFault_keeps _ _ _) (by decide)
    exact Keeps.refl _ _
  ·
    exact Keeps.refl _ _

theorem axisEstop_keeps (a) (cause) (s) : Keeps [.net, .pos, .axes, .pair] s (axisEstop a cause s) := by
  unfold axisEstop
  refine Keeps.ite (fun _ => ?_) (fun _ => ?_)
  ·
    exact Keeps.refl _ _
  ·
    refine Keeps.then ?_ (endChange_keeps _ _ _) (by decide)
    refine Keeps.then ?_ (endReq_keeps _ _ _) (by decide)
    refine Keeps.then ?_ (modAxis_keeps _ _ _) (by decide)
    exact Keeps.refl _ _

theorem ownEstop_keeps (a) (cause) (s) : Keeps [.net, .pos, .axes, .pair] s (ownEstop a cause s) := by
  unfold ownEstop
  refine Keeps.ite (fun _ => ?_) (fun _ => ?_)
  ·
    exact Keeps.refl _ _
  ·
    refine Keeps.then ?_ (axisEstop_keeps _ _ _) (by decide)
    refine Keeps.then ?_ (axisToken_keeps _ _ _ _) (by decide)
    exact Keeps.refl _ _

theorem stopFirst_keeps (a) (s) : Keeps [.net, .pos, .axes, .pair] s (stopFirst a s) := by
  unfold stopFirst
  split
  ·
    refine Keeps.then ?_ (ownEstop_keeps _ _ _) (by decide)
    exact Keeps.refl _ _
  ·
    exact Keeps.refl _ _

theorem enterHold_keeps (a) (s) : Keeps [.axes] s (enterHold a s) := by
  unfold enterHold
  refine Keeps.then ?_ (modAxis_keeps _ _ _) (by decide)
  exact Keeps.refl _ _

theorem putReq_keeps (a) (ticket) (retargetAt) (s) : Keeps [.axes] s (putReq a ticket retargetAt s) := by
  unfold putReq
  refine Keeps.then ?_ (modAxis_keeps _ _ _) (by decide)
  exact Keeps.refl _ _

theorem beginReq_keeps (a) (ticket) (retargetAt) (s) : Keeps [.net, .axes] s (beginReq a ticket retargetAt s) := by
  unfold beginReq
  refine Keeps.then ?_ (putReq_keeps _ _ _ _) (by decide)
  refine Keeps.then ?_ (addPending_keeps _ _ _) (by decide)
  exact Keeps.refl _ _

theorem takeEstopReq_keeps (a) (s) : Keeps [.axes] s (takeEstopReq a s) := by
  unfold takeEstopReq
  split
  ·
    refine Keeps.then ?_ (putReq_keeps _ _ _ _) (by decide)
    refine Keeps.then ?_ (modAxis_keeps _ _ _) (by decide)
    exact Keeps.refl _ _
  ·
    exact Keeps.refl _ _

theorem estopByToken_keeps (a) (cause) (s) : Keeps [.net, .pos, .axes, .pair] s (estopByToken a cause s) := by
  unfold estopByToken
  refine Keeps.ite (fun _ => ?_) (fun _ => ?_)
  ·
    refine Keeps.then ?_ (takeEstopReq_keeps _ _) (by decide)
    refine Keeps.then ?_ (axisEstop_keeps _ _ _) (by decide)
    exact Keeps.refl _ _
  ·
    refine Keeps.then ?_ (axisEstop_keeps _ _ _) (by decide)
    exact Keeps.refl _ _

theorem closeSession_keeps (i) (reason) (s) : Keeps [.net] s (closeSession i reason s) := by
  unfold closeSession
  refine Keeps.then ?_ (modSession_keeps _ _ _) (by decide)
  refine Keeps.then ?_ (sendOwn_keeps _ _ _ _) (by decide)
  exact Keeps.refl _ _

theorem dropSessions_keeps (s) : Keeps [.net] s (dropSessions s) := by
  unfold dropSessions
  refine Keeps.then ?_ (set_net_keeps ..) (by decide)
  exact Keeps.refl _ _

theorem dropCamAux_keeps (s) : Keeps [.pos, .cams] s (dropCamAux s) := by
  unfold dropCamAux
  refine Keeps.then ?_ (dropAux_keeps _ _) (by decide)
  refine Keeps.then ?_ (set_cams_keeps ..) (by decide)
  exact Keeps.refl _ _

theorem startLanes_keeps (k) (s) : Keeps [.fire] s (startLanes k s) := by
  unfold startLanes
  refine Keeps.forEach (fun _ _ => ?_) ?_
  ·
    refine Keeps.then ?_ (modLane_keeps _ _ _) (by decide)
    exact Keeps.refl _ _
  ·
    exact Keeps.refl _ _

theorem idleOnlyLinks_keeps (s) : Keeps [.fire, .links] s (idleOnlyLinks s) := by
  unfold idleOnlyLinks
  refine Keeps.forEach (fun _ _ => ?_) ?_
  ·
    refine Keeps.then ?_ (startLanes_keeps _ _) (by decide)
    refine Keeps.then ?_ (modLink_keeps _ _ _) (by decide)
    exact Keeps.refl _ _
  ·
    exact Keeps.refl _ _

theorem disableCams_keeps (s) : Keeps [.cams] s (disableCams s) := by
  unfold disableCams
  refine Keeps.then ?_ (set_cams_keeps ..) (by decide)
  exact Keeps.refl _ _

theorem sendTraining_keeps (k) (s) : Keeps [.fire] s (sendTraining k s) := by
  unfold sendTraining
  refine Keeps.ite (fun _ => ?_) (fun _ => ?_)
  ·
    exact Keeps.refl _ _
  ·
    refine Keeps.forEach (fun _ _ => ?_) ?_
    ·
      refine Keeps.then ?_ (putSymbols_keeps _ _ _ _) (by decide)
      exact Keeps.refl _ _
    ·
      exact Keeps.refl _ _

theorem forgetOwner_keeps (k) (s) : Keeps [.fire] s (forgetOwner k s) := by
  unfold forgetOwner
  refine Keeps.forEach (fun _ _ => ?_) ?_
  ·
    refine Keeps.then ?_ (modLane_keeps _ _ _) (by decide)
    exact Keeps.refl _ _
  ·
    exact Keeps.refl _ _

theorem leaveUp_keeps (k) (cause) (s) : Keeps [.log, .net, .fire, .links] s (leaveUp k cause s) := by
  unfold leaveUp
  refine Keeps.ite (fun _ => ?_) (fun _ => ?_)
  ·
    refine Keeps.then ?_ (raise_keeps _ _ _) (by decide)
    refine Keeps.then ?_ (forgetOwner_keeps _ _) (by decide)
    refine Keeps.then ?_ (modLink_keeps _ _ _) (by decide)
    exact Keeps.refl _ _
  ·
    refine Keeps.then ?_ (sendTraining_keeps _ _) (by decide)
    refine Keeps.then ?_ (raise_keeps _ _ _) (by decide)
    refine Keeps.then ?_ (forgetOwner_keeps _ _) (by decide)
    refine Keeps.then ?_ (modLink_keeps _ _ _) (by decide)
    exact Keeps.refl _ _

theorem disableLink_keeps (k) (s) : Keeps [.log, .net, .fire, .links] s (disableLink k s) := by
  unfold disableLink
  refine Keeps.then ?_ (modLink_keeps _ _ _) (by decide)
  refine Keeps.ite (fun _ => ?_) (fun _ => ?_)
  ·
    refine Keeps.then ?_ (leaveUp_keeps _ _ _) (by decide)
    exact Keeps.refl _ _
  ·
    exact Keeps.refl _ _

theorem disableLinks_keeps (s) : Keeps [.log, .net, .fire, .links] s (disableLinks s) := by
  unfold disableLinks
  refine Keeps.forEach (fun _ _ => ?_) ?_
  ·
    refine Keeps.then ?_ (disableLink_keeps _ _) (by decide)
    exact Keeps.refl _ _
  ·
    exact Keeps.refl _ _

theorem startTraining_keeps (k) (s) : Keeps [.fire, .links] s (startTraining k s) := by
  unfold startTraining
  refine Keeps.then ?_ (sendTraining_keeps _ _) (by decide)
  refine Keeps.then ?_ (startLanes_keeps _ _) (by decide)
  refine Keeps.then ?_ (forgetOwner_keeps _ _) (by decide)
  refine Keeps.then ?_ (modLink_keeps _ _ _) (by decide)
  exact Keeps.refl _ _

theorem bringUpLinks_keeps (s) : Keeps [.fire, .links] s (bringUpLinks s) := by
  unfold bringUpLinks
  refine Keeps.forEach (fun _ _ => ?_) ?_
  ·
    refine Keeps.then ?_ (startTraining_keeps _ _) (by decide)
    exact Keeps.refl _ _
  ·
    exact Keeps.refl _ _

theorem endTraining_keeps (k) (s) : Keeps [.fire] s (endTraining k s) := by
  unfold endTraining
  refine Keeps.forEach (fun _ _ => ?_) ?_
  ·
    refine Keeps.then ?_ (putSymbols_keeps _ _ _ _) (by decide)
    exact Keeps.refl _ _
  ·
    exact Keeps.refl _ _

theorem modSlotRec_keeps (n) (f) (s) : Keeps [.flash] s (modSlotRec n f s) := by
  unfold modSlotRec
  refine Keeps.then ?_ (set_flash_keeps ..) (by decide)
  exact Keeps.refl _ _

theorem writeSlot_keeps (n) (state) (digest) (s) : Keeps [.flash] s (writeSlot n state digest s) := by
  unfold writeSlot
  refine Keeps.then ?_ (modSlotRec_keeps _ _ _) (by decide)
  exact Keeps.refl _ _

theorem markSlot_keeps (n) (state) (s) : Keeps [.flash] s (markSlot n state s) := by
  unfold markSlot
  refine Keeps.then ?_ (writeSlot_keeps _ _ _ _) (by decide)
  exact Keeps.refl _ _

theorem writeBoot_keeps (selected) (previous) (trial) (confirmed) (s) : Keeps [.flash] s (writeBoot selected previous trial confirmed s) := by
  unfold writeBoot
  refine Keeps.then ?_ (set_flash_keeps ..) (by decide)
  exact Keeps.refl _ _

theorem putSlot_keeps (n) (state) (digest) (s) : Keeps [.flash] s (putSlot n state digest s) := by
  unfold putSlot
  refine Keeps.ite (fun _ => ?_) (fun _ => ?_)
  ·
    exact Keeps.refl _ _
  ·
    refine Keeps.then ?_ (writeSlot_keeps _ _ _ _) (by decide)
    exact Keeps.refl _ _

theorem raiseVersion_keeps (e) (s) : Keeps [.cal] s (raiseVersion e s) := by
  unfold raiseVersion
  refine Keeps.then ?_ (set_cal_keeps ..) (by decide)
  exact Keeps.refl _ _

theorem nozzleEvent_keeps (e) (old) (new) (s) : Keeps [.log, .net] s (nozzleEvent e old new s) := by
  unfold nozzleEvent
  refine Keeps.ite (fun _ => ?_) (fun _ => ?_)
  ·
    exact Keeps.refl _ _
  ·
    refine Keeps.then ?_ (raise_keeps _ _ _) (by decide)
    exact Keeps.refl _ _

theorem modValues_keeps (f) (s) : Keeps [.cal] s (modValues f s) := by
  unfold modValues
  refine Keeps.then ?_ (set_cal_keeps ..) (by decide)
  exact Keeps.refl _ _

theorem putValue_keeps (e) (v) (s) : Keeps [.cams, .cal] s (putValue e v s) := by
  unfold putValue
  refine Keeps.ite (fun _ => ?_) (fun _ => ?_)
  ·
    refine Keeps.then ?_ (modValues_keeps _ _) (by decide)
    exact Keeps.refl _ _
  ·
    refine Keeps.ite (fun _ => ?_) (fun _ => ?_)
    ·
      refine Keeps.then ?_ (modValues_keeps _ _) (by decide)
      exact Keeps.refl _ _
    ·
      refine Keeps.ite (fun _ => ?_) (fun _ => ?_)
      ·
        refine Keeps.then ?_ (modValues_keeps _ _) (by decide)
        exact Keeps.refl _ _
      ·
        refine Keeps.ite (fun _ => ?_) (fun _ => ?_)
        ·
          refine Keeps.then ?_ (modValues_keeps _ _) (by decide)
          exact Keeps.refl _ _
        ·
          refine Keeps.ite (fun _ => ?_) (fun _ => ?_)
          ·
            refine Keeps.then ?_ (modValues_keeps _ _) (by decide)
            exact Keeps.refl _ _
          ·
            refine Keeps.then ?_ (modCam_keeps _ _ _) (by decide)
            exact Keeps.refl _ _

theorem dropHeld_keeps (e) (s) : Keeps [.cal] s (dropHeld e s) := by
  unfold dropHeld
  refine Keeps.then ?_ (set_cal_keeps ..) (by decide)
  exact Keeps.refl _ _

theorem installValue_keeps (e) (v) (s) : Keeps [.log, .net, .cams, .cal] s (installValue e v s) := by
  unfold installValue
  refine Keeps.then ?_ (nozzleEvent_keeps _ _ _ _) (by decide)
  refine Keeps.then ?_ (set_cal_keeps ..) (by decide)
  refine Keeps.then ?_ (dropHeld_keeps _ _) (by decide)
  refine Keeps.then ?_ (raiseVersion_keeps _ _) (by decide)
  refine Keeps.then ?_ (putValue_keeps _ _ _) (by decide)
  exact Keeps.refl _ _

end Sys2Proof.Machine
end

