-- ==== Sys2Proof/Laws/KeepsStates.lean ====
section
/-! SUPPORT. What the operations of States, Motion, Marks, CamOps leave alone, and that they keep the invariant. -/
namespace Sys2Proof.Machine
open Sys2Proof

theorem sendCascadeStop_keeps (cause) (s) : Keeps [.ring] s (sendCascadeStop cause s) := by
  unfold sendCascadeStop
  refine Keeps.ite (fun _ => ?_) (fun _ => ?_)
  ·
    refine Keeps.then ?_ (ringSendActive_keeps _ _ _ _) (by decide)
    refine Keeps.then ?_ (set_ring_keeps ..) (by decide)
    exact Keeps.refl _ _
  ·
    exact Keeps.refl _ _

theorem sealsGo_keeps (s) : Keeps [.jobs] s (sealsGo s) := by
  unfold sealsGo
  refine Keeps.ite (fun _ => ?_) (fun _ => ?_)
  ·
    exact Keeps.refl _ _
  ·
    refine Keeps.then ?_ (set_jobs_keeps ..) (by decide)
    exact Keeps.refl _ _

theorem endReleases_keeps (s) : Keeps [.mod, .log, .net, .jobs] s (endReleases s) := by
  unfold endReleases
  refine Keeps.ite (fun _ => ?_) (fun _ => ?_)
  ·
    refine Keeps.then ?_ (setModState_keeps _ _ _) (by decide)
    refine Keeps.then ?_ (sealsGo_keeps _) (by decide)
    refine Keeps.then ?_ (modArmed_keeps _ _) (by decide)
    exact Keeps.refl _ _
  ·
    refine Keeps.then ?_ (sealsGo_keeps _) (by decide)
    refine Keeps.then ?_ (modArmed_keeps _ _) (by decide)
    exact Keeps.refl _ _

theorem announceStart_keeps (s) : Keeps [.power, .log, .net] s (announceStart s) := by
  unfold announceStart
  refine Keeps.forEach (fun _ _ => ?_) ?_
  ·
    refine Keeps.then ?_ (raise_keeps _ _ _) (by decide)
    exact Keeps.refl _ _
  ·
    refine Keeps.then ?_ (set_power_keeps ..) (by decide)
    refine Keeps.then ?_ (raise_keeps _ _ _) (by decide)
    refine Keeps.then ?_ (set_power_keeps ..) (by decide)
    exact Keeps.refl _ _

theorem firstIdle_keeps (s) : Keeps [.mod, .power, .conf, .update, .log, .gov, .net, .pos, .pair] s (firstIdle s) := by
  unfold firstIdle
  refine Keeps.then ?_ (set_conf_update_gov_pair_keeps ..) (by decide)
  refine Keeps.ite (fun _ => ?_) (fun _ => ?_)
  ·
    refine Keeps.forEach (fun _ _ => ?_) ?_
    ·
      refine Keeps.then ?_ (raise_keeps _ _ _) (by decide)
      exact Keeps.refl _ _
    ·
      refine Keeps.then ?_ (announceStart_keeps _) (by decide)
      refine Keeps.then ?_ (set_mod_keeps ..) (by decide)
      exact Keeps.refl _ _
  ·
    refine Keeps.then ?_ (set_mod_pos_keeps ..) (by decide)
    refine Keeps.forEach (fun _ _ => ?_) ?_
    ·
      refine Keeps.then ?_ (raise_keeps _ _ _) (by decide)
      exact Keeps.refl _ _
    ·
      refine Keeps.then ?_ (announceStart_keeps _) (by decide)
      refine Keeps.then ?_ (set_mod_keeps ..) (by decide)
      exact Keeps.refl _ _

theorem endInspection_keeps (s) : Keeps [.jobs] s (endInspection s) := by
  unfold endInspection
  refine Keeps.forEach (fun _ _ => ?_) ?_
  ·
    refine Keeps.then ?_ (dropReference_keeps _ _) (by decide)
    exact Keeps.refl _ _
  ·
    exact Keeps.refl _ _

theorem keepRun_keeps (s) : Keeps [.jobs] s (keepRun s) := by
  unfold keepRun
  split
  ·
    exact Keeps.refl _ _
  ·
    refine Keeps.then ?_ (set_jobs_keeps ..) (by decide)
    exact Keeps.refl _ _

theorem clearBars_keeps (s) : Keeps [.fire] s (clearBars s) := by
  unfold clearBars
  refine Keeps.then ?_ (set_fire_keeps ..) (by decide)
  exact Keeps.refl _ _

theorem endRunInputs_keeps (s) : Keeps [.pos] s (endRunInputs s) := by
  unfold endRunInputs
  refine Keeps.then ?_ (set_pos_keeps ..) (by decide)
  exact Keeps.refl _ _

theorem endCalRun_keeps (s) : Keeps [.log, .net, .cams, .cal] s (endCalRun s) := by
  unfold endCalRun
  refine Keeps.then ?_ (set_cal_keeps ..) (by decide)
  refine Keeps.forEach (fun _ _ => ?_) ?_
  ·
    refine Keeps.then ?_ (raiseVersion_keeps _ _) (by decide)
    exact Keeps.refl _ _
  ·
    refine Keeps.forEach (fun _ _ => ?_) ?_
    ·
      refine Keeps.then ?_ (installValue_keeps _ _ _) (by decide)
      exact Keeps.refl _ _
    ·
      exact Keeps.refl _ _

theorem endCascade_keeps (s) : Keeps [.ring] s (endCascade s) := by
  unfold endCascade
  refine Keeps.then ?_ (set_ring_keeps ..) (by decide)
  exact Keeps.refl _ _

theorem clearOverspeed_keeps (s) : Keeps [.log, .net, .fire] s (clearOverspeed s) := by
  unfold clearOverspeed
  refine Keeps.ite (fun _ => ?_) (fun _ => ?_)
  ·
    refine Keeps.then ?_ (raise_keeps _ _ _) (by decide)
    refine Keeps.then ?_ (set_fire_keeps ..) (by decide)
    exact Keeps.refl _ _
  ·
    refine Keeps.then ?_ (set_fire_keeps ..) (by decide)
    exact Keeps.refl _ _

theorem enterIdle_keeps (cause) (s) : Keeps [.mod, .power, .conf, .update, .log, .gov, .net, .jobs, .pos, .fire, .cams, .cal, .ring, .pair] s (enterIdle cause s) := by
  unfold enterIdle
  refine Keeps.ite (fun _ => ?_) (fun _ => ?_)
  ·
    refine Keeps.then ?_ (set_mod_update_ring_keeps ..) (by decide)
    refine Keeps.then ?_ (clearOverspeed_keeps _) (by decide)
    refine Keeps.then ?_ (dropCamAux_keeps _) (by decide)
    refine Keeps.then ?_ (endCascade_keeps _) (by decide)
    refine Keeps.then ?_ (endCalRun_keeps _) (by decide)
    refine Keeps.then ?_ (endRunInputs_keeps _) (by decide)
    refine Keeps.then ?_ (clearBars_keeps _) (by decide)
    refine Keeps.then ?_ (endHalts_keeps _) (by decide)
    refine Keeps.then ?_ (keepRun_keeps _) (by decide)
    refine Keeps.then ?_ (endInspection_keeps _) (by decide)
    refine Keeps.ite (fun _ => ?_) (fun _ => ?_)
    ·
      split
      ·
        refine Keeps.then ?_ (raise_keeps _ _ _) (by decide)
        refine Keeps.then ?_ (setModState_keeps _ _ _) (by decide)
        exact Keeps.refl _ _
      ·
        refine Keeps.then ?_ (setModState_keeps _ _ _) (by decide)
        exact Keeps.refl _ _
    ·
      refine Keeps.then ?_ (setModState_keeps _ _ _) (by decide)
      exact Keeps.refl _ _
  ·
    refine Keeps.then ?_ (firstIdle_keeps _) (by decide)
    refine Keeps.then ?_ (set_mod_update_ring_keeps ..) (by decide)
    refine Keeps.then ?_ (clearOverspeed_keeps _) (by decide)
    refine Keeps.then ?_ (dropCamAux_keeps _) (by decide)
    refine Keeps.then ?_ (endCascade_keeps _) (by decide)
    refine Keeps.then ?_ (endCalRun_keeps _) (by decide)
    refine Keeps.then ?_ (endRunInputs_keeps _) (by decide)
    refine Keeps.then ?_ (clearBars_keeps _) (by decide)
    refine Keeps.then ?_ (endHalts_keeps _) (by decide)
    refine Keeps.then ?_ (keepRun_keeps _) (by decide)
    refine Keeps.then ?_ (endInspection_keeps _) (by decide)
    refine Keeps.ite (fun _ => ?_) (fun _ => ?_)
    ·
      split
      ·
        refine Keeps.then ?_ (raise_keeps _ _ _) (by decide)
        refine Keeps.then ?_ (setModState_keeps _ _ _) (by decide)
        exact Keeps.refl _ _
      ·
        refine Keeps.then ?_ (setModState_keeps _ _ _) (by decide)
        exact Keeps.refl _ _
    ·
      refine Keeps.then ?_ (setModState_keeps _ _ _) (by decide)
      exact Keeps.refl _ _

theorem settle_keeps (s) : Keeps [.mod, .power, .conf, .update, .log, .gov, .net, .jobs, .pos, .fire, .cams, .cal, .ring, .pair] s (settle s) := by
  unfold settle
  refine Keeps.ite (fun _ => ?_) (fun _ => ?_)
  ·
    refine Keeps.then ?_ (enterIdle_keeps _ _) (by decide)
    exact Keeps.refl _ _
  ·
    exact Keeps.refl _ _

theorem freshPorts_keeps (s) : Keeps [.net] s (freshPorts s) := by
  unfold freshPorts
  refine Keeps.then ?_ (set_net_keeps ..) (by decide)
  exact Keeps.refl _ _

theorem clearOutputs_keeps (s) : Keeps [.time] s (clearOutputs s) := by
  unfold clearOutputs
  refine Keeps.then ?_ (set_time_keeps ..) (by decide)
  exact Keeps.refl _ _

theorem enterMaintenance_keeps (cause) (s) : Keeps [.mod, .power, .log, .net, .pos, .fire, .links, .cams, .time, .axes, .ring, .pair] s (enterMaintenance cause s) := by
  unfold enterMaintenance
  refine Keeps.ite (fun _ => ?_) (fun _ => ?_)
  ·
    refine Keeps.ite (fun _ => ?_) (fun _ => ?_)
    ·
      refine Keeps.then ?_ (closeBypass_keeps _ _) (by decide)
      refine Keeps.then ?_ (dropCamAux_keeps _) (by decide)
      refine Keeps.then ?_ (disableCams_keeps _) (by decide)
      refine Keeps.then ?_ (clearOutputs_keeps _) (by decide)
      refine Keeps.then ?_ (axesOff_keeps _) (by decide)
      refine Keeps.then ?_ (setModState_keeps _ _ _) (by decide)
      exact Keeps.refl _ _
    ·
      refine Keeps.then ?_ (idleOnlyLinks_keeps _) (by decide)
      refine Keeps.ite (fun _ => ?_) (fun _ => ?_)
      ·
        refine Keeps.then ?_ (set_mod_power_pair_keeps ..) (by decide)
        refine Keeps.then ?_ (closeBypass_keeps _ _) (by decide)
        refine Keeps.then ?_ (dropCamAux_keeps _) (by decide)
        refine Keeps.then ?_ (disableCams_keeps _) (by decide)
        refine Keeps.then ?_ (clearOutputs_keeps _) (by decide)
        refine Keeps.then ?_ (axesOff_keeps _) (by decide)
        refine Keeps.then ?_ (setModState_keeps _ _ _) (by decide)
        exact Keeps.refl _ _
      ·
        refine Keeps.then ?_ (freshPorts_keeps _) (by decide)
        refine Keeps.then ?_ (set_mod_power_pair_keeps ..) (by decide)
        refine Keeps.then ?_ (closeBypass_keeps _ _) (by decide)
        refine Keeps.then ?_ (dropCamAux_keeps _) (by decide)
        refine Keeps.then ?_ (disableCams_keeps _) (by decide)
        refine Keeps.then ?_ (clearOutputs_keeps _) (by decide)
        refine Keeps.then ?_ (axesOff_keeps _) (by decide)
        refine Keeps.then ?_ (setModState_keeps _ _ _) (by decide)
        exact Keeps.refl _ _
  ·
    refine Keeps.then ?_ (announceStart_keeps _) (by decide)
    refine Keeps.ite (fun _ => ?_) (fun _ => ?_)
    ·
      refine Keeps.then ?_ (closeBypass_keeps _ _) (by decide)
      refine Keeps.then ?_ (dropCamAux_keeps _) (by decide)
      refine Keeps.then ?_ (disableCams_keeps _) (by decide)
      refine Keeps.then ?_ (clearOutputs_keeps _) (by decide)
      refine Keeps.then ?_ (axesOff_keeps _) (by decide)
      refine Keeps.then ?_ (setModState_keeps _ _ _) (by decide)
      exact Keeps.refl _ _
    ·
      refine Keeps.then ?_ (idleOnlyLinks_keeps _) (by decide)
      refine Keeps.ite (fun _ => ?_) (fun _ => ?_)
      ·
        refine Keeps.then ?_ (set_mod_power_pair_keeps ..) (by decide)
        refine Keeps.then ?_ (closeBypass_keeps _ _) (by decide)
        refine Keeps.then ?_ (dropCamAux_keeps _) (by decide)
        refine Keeps.then ?_ (disableCams_keeps _) (by decide)
        refine Keeps.then ?_ (clearOutputs_keeps _) (by decide)
        refine Keeps.then ?_ (axesOff_keeps _) (by decide)
        refine Keeps.then ?_ (setModState_keeps _ _ _) (by decide)
        exact Keeps.refl _ _
      ·
        refine Keeps.then ?_ (freshPorts_keeps _) (by decide)
        refine Keeps.then ?_ (set_mod_power_pair_keeps ..) (by decide)
        refine Keeps.then ?_ (closeBypass_keeps _ _) (by decide)
        refine Keeps.then ?_ (dropCamAux_keeps _) (by decide)
        refine Keeps.then ?_ (disableCams_keeps _) (by decide)
        refine Keeps.then ?_ (clearOutputs_keeps _) (by decide)
        refine Keeps.then ?_ (axesOff_keeps _) (by decide)
        refine Keeps.then ?_ (setModState_keeps _ _ _) (by decide)
        exact Keeps.refl _ _

theorem setTimeState_keeps (st) (s) : Keeps [.log, .net, .time] s (setTimeState st s) := by
  unfold setTimeState
  refine Keeps.ite (fun _ => ?_) (fun _ => ?_)
  ·
    exact Keeps.refl _ _
  ·
    refine Keeps.then ?_ (raise_keeps _ _ _) (by decide)
    refine Keeps.then ?_ (set_time_keeps ..) (by decide)
    exact Keeps.refl _ _

theorem loseTime_keeps (s) : Keeps [.log, .net, .time] s (loseTime s) := by
  unfold loseTime
  refine Keeps.ite (fun _ => ?_) (fun _ => ?_)
  ·
    refine Keeps.then ?_ (setTimeState_keeps _ _) (by decide)
    exact Keeps.refl _ _
  ·
    exact Keeps.refl _ _

theorem loseMemory_keeps (s) : Keeps [.net, .jobs, .render, .mem, .fire, .cal] s (loseMemory s) := by
  unfold loseMemory
  refine Keeps.then ?_ (set_net_jobs_render_mem_fire_cal_keeps ..) (by decide)
  exact Keeps.refl _ _

theorem enterBoot_keeps (cause) (s) : Keeps [.mod, .power, .conf, .update, .log, .thermal, .gov, .net, .jobs, .render, .mem, .pos, .fire, .links, .cams, .cal, .time, .axes, .ring, .pair, .loops] s (enterBoot cause s) := by
  unfold enterBoot
  refine Keeps.then ?_ (set12_mod_keeps ..) (by decide)
  refine Keeps.then ?_ (dropCamAux_keeps _) (by decide)
  refine Keeps.then ?_ (clearBars_keeps _) (by decide)
  refine Keeps.then ?_ (endRunInputs_keeps _) (by decide)
  refine Keeps.then ?_ (loseMemory_keeps _) (by decide)
  refine Keeps.then ?_ (loseTime_keeps _) (by decide)
  refine Keeps.then ?_ (endCascade_keeps _) (by decide)
  refine Keeps.then ?_ (closeBypass_keeps _ _) (by decide)
  refine Keeps.then ?_ (disableCams_keeps _) (by decide)
  refine Keeps.then ?_ (disableLinks_keeps _) (by decide)
  refine Keeps.then ?_ (clearOutputs_keeps _) (by decide)
  refine Keeps.then ?_ (axesLose_keeps _) (by decide)
  refine Keeps.then ?_ (axesOff_keeps _) (by decide)
  refine Keeps.then ?_ (setModState_keeps _ _ _) (by decide)
  exact Keeps.refl _ _

theorem enterHalted_keeps (cause) (s) : Keeps [.mod, .log, .net, .jobs, .render, .pos, .fire, .cams, .cal, .axes, .ring] s (enterHalted cause s) := by
  unfold enterHalted
  refine Keeps.then ?_ (clearOverspeed_keeps _) (by decide)
  refine Keeps.then ?_ (sendCascadeStop_keeps _ _) (by decide)
  refine Keeps.then ?_ (set_mod_cal_keeps ..) (by decide)
  refine Keeps.forEach (fun _ _ => ?_) ?_
  ·
    refine Keeps.then ?_ (sendHalt_keeps _ _) (by decide)
    exact Keeps.refl _ _
  ·
    refine Keeps.forEach (fun _ _ => ?_) ?_
    ·
      refine Keeps.then ?_ (requestStop_keeps _ _ _) (by decide)
      exact Keeps.refl _ _
    ·
      refine Keeps.then ?_ (sealsGo_keeps _) (by decide)
      refine Keeps.then ?_ (dropCamAux_keeps _) (by decide)
      refine Keeps.then ?_ (abandonRendering_keeps _) (by decide)
      refine Keeps.then ?_ (modArmed_keeps _ _) (by decide)
      refine Keeps.then ?_ (spoilAll_keeps _ _) (by decide)
      refine Keeps.then ?_ (setModState_keeps _ _ _) (by decide)
      exact Keeps.refl _ _

theorem afterHalt_keeps (allCause) (s) : Keeps [.mod, .power, .conf, .update, .log, .gov, .net, .jobs, .render, .pos, .fire, .cams, .cal, .axes, .ring, .pair] s (afterHalt allCause s) := by
  unfold afterHalt
  refine Keeps.ite (fun _ => ?_) (fun _ => ?_)
  ·
    exact Keeps.refl _ _
  ·
    refine Keeps.ite (fun _ => ?_) (fun _ => ?_)
    ·
      refine Keeps.then ?_ (enterHalted_keeps _ _) (by decide)
      refine Keeps.ite (fun _ => ?_) (fun _ => ?_)
      ·
        refine Keeps.then ?_ (modArmed_keeps _ _) (by decide)
        exact Keeps.refl _ _
      ·
        exact Keeps.refl _ _
    ·
      refine Keeps.ite (fun _ => ?_) (fun _ => ?_)
      ·
        refine Keeps.then ?_ (settle_keeps _) (by decide)
        refine Keeps.then ?_ (sendCascadeStop_keeps _ _) (by decide)
        refine Keeps.then ?_ (endReleases_keeps _) (by decide)
        refine Keeps.then ?_ (modArmed_keeps _ _) (by decide)
        exact Keeps.refl _ _
      ·
        exact Keeps.refl _ _

theorem haltBars_keeps (bars) (cause) (allCause) (bits) (s) : Keeps [.mod, .power, .conf, .update, .log, .gov, .net, .jobs, .render, .pos, .fire, .cams, .cal, .axes, .ring, .pair] s (haltBars bars cause allCause bits s) := by
  unfold haltBars
  refine Keeps.then ?_ (afterHalt_keeps _ _) (by decide)
  refine Keeps.forEach (fun _ _ => ?_) ?_
  ·
    refine Keeps.then ?_ (haltBar_keeps _ _ _ _) (by decide)
    exact Keeps.refl _ _
  ·
    exact Keeps.refl _ _

theorem atNextStart_keeps (code) (detail) (s) : Keeps [.power] s (atNextStart code detail s) := by
  unfold atNextStart
  refine Keeps.then ?_ (set_power_keeps ..) (by decide)
  exact Keeps.refl _ _

theorem haltAllLanes_keeps (s) : Keeps [.fire] s (haltAllLanes s) := by
  unfold haltAllLanes
  refine Keeps.forEach (fun _ _ => ?_) ?_
  ·
    refine Keeps.then ?_ (insertSymbols_keeps _ _ _) (by decide)
    exact Keeps.refl _ _
  ·
    exact Keeps.refl _ _

theorem goOff_keeps (s) : Keeps [.raw, .mod, .power, .conf, .update, .log, .thermal, .monitors, .gov, .net, .jobs, .render, .mem, .pos, .fire, .links, .cams, .cal, .time, .axes, .ring, .pair, .loops] s (goOff s) :=
  ⟨⟨by intro g hg; cases g <;> first | rfl | simp at hg⟩,
    fun _ => ⟨Nat.zero_le _, Nat.zero_le _, by simp [goOff], by simp [goOff], by simp [goOff]⟩⟩

theorem damageSlot_keeps (n) (b) (lane) (cause) (seq) (s) : Keeps [.log, .net, .jobs] s (damageSlot n b lane cause seq s) := by
  unfold damageSlot
  split
  ·
    exact Keeps.refl _ _
  ·
    refine Keeps.ite (fun _ => ?_) (fun _ => ?_)
    ·
      exact Keeps.refl _ _
    ·
      refine Keeps.then ?_ (raise_keeps _ _ _) (by decide)
      refine Keeps.then ?_ (modSlot_keeps _ _ _) (by decide)
      exact Keeps.refl _ _

theorem resetCounters_keeps (s) : Keeps [.mod, .log, .thermal, .net, .links, .time] s (resetCounters s) := by
  have h1 : Keeps [.log] s { s with log := { s.log with unsent := 0, suppressed := 0 } } :=
    ⟨⟨by intro g hg; cases g <;> first | rfl | simp at hg⟩, fun h => ⟨h.raw, h.size, h.detail, h.chain, h.last⟩⟩
  unfold resetCounters
  refine Keeps.then ?_ (set_mod_thermal_net_links_time_keeps ..) (by decide)
  exact (Keeps.refl _ _).then h1 (by decide)

theorem enterConfig_keeps (cause) (s) : Keeps [.mod, .power, .log, .thermal, .net, .links, .time] s (enterConfig cause s) := by
  unfold enterConfig
  refine Keeps.then ?_ (freshPorts_keeps _) (by decide)
  refine Keeps.then ?_ (set_mod_power_keeps ..) (by decide)
  refine Keeps.ite (fun _ => ?_) (fun _ => ?_)
  ·
    refine Keeps.then ?_ (setModState_keeps _ _ _) (by decide)
    exact Keeps.refl _ _
  ·
    refine Keeps.then ?_ (resetCounters_keeps _) (by decide)
    refine Keeps.then ?_ (setModState_keeps _ _ _) (by decide)
    exact Keeps.refl _ _

theorem enterShutdown_keeps (rec) (s) : Keeps [.mod, .power, .log, .thermal, .gov, .net, .jobs, .render, .pos, .fire, .links, .cams, .time, .axes, .ring, .pair, .loops] s (enterShutdown rec s) := by
  unfold enterShutdown
  refine Keeps.then ?_ (dropSessions_keeps _) (by decide)
  refine Keeps.then ?_ (set_power_thermal_gov_pair_loops_keeps ..) (by decide)
  refine Keeps.then ?_ (clearOverspeed_keeps _) (by decide)
  refine Keeps.then ?_ (closeBypass_keeps _ _) (by decide)
  refine Keeps.then ?_ (endRunInputs_keeps _) (by decide)
  refine Keeps.then ?_ (dropCamAux_keeps _) (by decide)
  refine Keeps.then ?_ (disableCams_keeps _) (by decide)
  refine Keeps.then ?_ (disableLinks_keeps _) (by decide)
  refine Keeps.then ?_ (clearOutputs_keeps _) (by decide)
  refine Keeps.then ?_ (axesOff_keeps _) (by decide)
  refine Keeps.then ?_ (abandonRendering_keeps _) (by decide)
  refine Keeps.then ?_ (spoilAll_keeps _ _) (by decide)
  refine Keeps.forEach (fun _ _ => ?_) ?_
  ·
    refine Keeps.ite (fun _ => ?_) (fun _ => ?_)
    ·
      exact Keeps.refl _ _
    ·
      refine Keeps.then ?_ (raise_keeps _ _ _) (by decide)
      refine Keeps.then ?_ (modBar_keeps _ _ _) (by decide)
      exact Keeps.refl _ _
  ·
    refine Keeps.then ?_ (haltAllLanes_keeps _) (by decide)
    refine Keeps.then ?_ (setModState_keeps _ _ _) (by decide)
    exact Keeps.refl _ _

theorem notAccepted_keeps (s) (a) : KeepsV [] s (notAccepted s a) := by
  unfold notAccepted
  exact KeepsV.error

theorem applyLatch_keeps (a) (s) : Keeps [.axes] s (applyLatch a s) := by
  unfold applyLatch
  try dsimp only
  split
  ·
    refine Keeps.then ?_ (modAxis_keeps _ _ _) (by decide)
    exact Keeps.refl _ _
  ·
    refine Keeps.then ?_ (modAxis_keeps _ _ _) (by decide)
    exact Keeps.refl _ _

theorem causesFirst_keeps (a) (s) : Keeps [.net, .pos, .axes, .pair] s (causesFirst a s) := by
  unfold causesFirst
  refine Keeps.ite (fun _ => ?_) (fun _ => ?_)
  ·
    refine Keeps.then ?_ (applyLatch_keeps _ _) (by decide)
    refine Keeps.then ?_ (stopFirst_keeps _ _) (by decide)
    exact Keeps.refl _ _
  ·
    refine Keeps.then ?_ (stopFirst_keeps _ _) (by decide)
    exact Keeps.refl _ _

theorem moveCommon_then {w : List Group} {f : Nat → Nat → State → Verdict} (p s) (hw : [.net, .pos, .axes, .pair] ⊆ w)
    (hf : ∀ a k s, KeepsV w s (f a k s)) : KeepsV w s (moveCommon p s f) := by
  unfold moveCommon
  refine KeepsV.ite (fun _ => KeepsV.error) (fun _ => ?_)
  refine KeepsV.ite (fun _ => KeepsV.error) (fun _ => ?_)
  refine KeepsV.then ?_ (hf _ _ _) fun _ h => h
  exact (Keeps.refl _ _).then (causesFirst_keeps ..) hw

theorem doneAtOnce_keeps (a) (ticket) (outcome) (flags) (s) : Keeps [.net, .pair] s (doneAtOnce a ticket outcome flags s) := by
  unfold doneAtOnce
  refine Keeps.then ?_ (finishResult_keeps _ _ _) (by decide)
  refine Keeps.then ?_ (addPending_keeps _ _ _) (by decide)
  exact Keeps.refl _ _

theorem msgClearFault_keeps (p) (s) : KeepsV [.net, .pos, .axes, .pair] s (msgClearFault p s) := by
  unfold msgClearFault
  refine moveCommon_then _ _ (by decide) (fun _ _ _ => ?_)
  ·
    refine KeepsV.ite (fun _ => ?_) (fun _ => ?_)
    ·
      refine KeepsV.then ?_ (notAccepted_keeps _ _) (by decide)
      exact Keeps.refl _ _
    ·
      refine KeepsV.ok ?_
      refine Keeps.then ?_ (doneAtOnce_keeps _ _ _ _ _) (by decide)
      refine Keeps.then ?_ (modAxis_keeps _ _ _) (by decide)
      refine Keeps.then ?_ (axisOff_keeps _ _) (by decide)
      exact Keeps.refl _ _

theorem msgDisable_keeps (p) (s) : KeepsV [.net, .pos, .axes, .pair] s (msgDisable p s) := by
  unfold msgDisable
  refine moveCommon_then _ _ (by decide) (fun _ _ _ => ?_)
  ·
    refine KeepsV.ite (fun _ => ?_) (fun _ => ?_)
    ·
      refine KeepsV.then ?_ (notAccepted_keeps _ _) (by decide)
      exact Keeps.refl _ _
    ·
      refine KeepsV.ok ?_
      refine Keeps.then ?_ (doneAtOnce_keeps _ _ _ _ _) (by decide)
      refine Keeps.then ?_ (axisOff_keeps _ _) (by decide)
      exact Keeps.refl _ _

theorem clearStop_keeps (a) (s) : Keeps [.axes] s (clearStop a s) := by
  unfold clearStop
  refine Keeps.then ?_ (modAxis_keeps _ _ _) (by decide)
  exact Keeps.refl _ _

theorem msgEnable_keeps (p) (s) : KeepsV [.net, .pos, .axes, .pair] s (msgEnable p s) := by
  unfold msgEnable
  refine moveCommon_then _ _ (by decide) (fun _ _ _ => ?_)
  ·
    refine KeepsV.ite (fun _ => ?_) (fun _ => ?_)
    ·
      refine KeepsV.then ?_ (notAccepted_keeps _ _) (by decide)
      exact Keeps.refl _ _
    ·
      refine KeepsV.ok ?_
      refine Keeps.then ?_ (doneAtOnce_keeps _ _ _ _ _) (by decide)
      refine Keeps.then ?_ (clearStop_keeps _ _) (by decide)
      refine Keeps.then ?_ (modAxis_keeps _ _ _) (by decide)
      refine Keeps.then ?_ (enterHold_keeps _ _) (by decide)
      exact Keeps.refl _ _

theorem msgSetParams_keeps (p) (s) : KeepsV [.log, .net, .pos, .axes, .pair] s (msgSetParams p s) := by
  unfold msgSetParams
  refine moveCommon_then _ _ (by decide) (fun _ _ _ => ?_)
  ·
    try dsimp only
    split
    ·
      refine KeepsV.ok ?_
      refine Keeps.then ?_ (doneAtOnce_keeps _ _ _ _ _) (by decide)
      refine Keeps.then ?_ (modAxis_keeps _ _ _) (by decide)
      exact Keeps.refl _ _
    ·
      refine KeepsV.ok ?_
      refine Keeps.then ?_ (doneAtOnce_keeps _ _ _ _ _) (by decide)
      refine Keeps.then ?_ (raise_keeps _ _ _) (by decide)
      refine Keeps.then ?_ (modAxis_keeps _ _ _) (by decide)
      refine Keeps.then ?_ (modAxis_keeps _ _ _) (by decide)
      exact Keeps.refl _ _

theorem freezeRamp_keeps (a) (s) : Keeps [.axes] s (freezeRamp a s) := by
  unfold freezeRamp
  try dsimp only
  split
  ·
    refine Keeps.ite (fun _ => ?_) (fun _ => ?_)
    ·
      refine Keeps.then ?_ (modAxis_keeps _ _ _) (by decide)
      exact Keeps.refl _ _
    ·
      exact Keeps.refl _ _
  ·
    exact Keeps.refl _ _

theorem msgGearChange_keeps (p) (s) : KeepsV [.net, .pos, .axes, .pair] s (msgGearChange p s) := by
  unfold msgGearChange
  refine moveCommon_then _ _ (by decide) (fun _ _ _ => ?_)
  ·
    split
    ·
      refine KeepsV.then ?_ (notAccepted_keeps _ _) (by decide)
      exact Keeps.refl _ _
    ·
      refine KeepsV.ite (fun _ => ?_) (fun _ => ?_)
      ·
        refine KeepsV.then ?_ (notAccepted_keeps _ _) (by decide)
        exact Keeps.refl _ _
      ·
        refine KeepsV.ite (fun _ => ?_) (fun _ => ?_)
        ·
          exact KeepsV.error
        ·
          refine KeepsV.ok ?_
          refine Keeps.ite (fun _ => ?_) (fun _ => ?_)
          ·
            refine Keeps.then ?_ (modAxis_keeps _ _ _) (by decide)
            refine Keeps.then ?_ (addPending_keeps _ _ _) (by decide)
            refine Keeps.then ?_ (endChange_keeps _ _ _) (by decide)
            refine Keeps.then ?_ (freezeRamp_keeps _ _) (by decide)
            exact Keeps.refl _ _
          ·
            refine Keeps.then ?_ (addAux_keeps _ _) (by decide)
            refine Keeps.then ?_ (modAxis_keeps _ _ _) (by decide)
            refine Keeps.then ?_ (addPending_keeps _ _ _) (by decide)
            refine Keeps.then ?_ (endChange_keeps _ _ _) (by decide)
            refine Keeps.then ?_ (freezeRamp_keeps _ _) (by decide)
            exact Keeps.refl _ _

theorem latchShadow_keeps (a) (s) : Keeps [.axes] s (latchShadow a s) := by
  unfold latchShadow
  refine Keeps.then ?_ (modAxis_keeps _ _ _) (by decide)
  exact Keeps.refl _ _

theorem msgGear_keeps (p) (s) : KeepsV [.net, .pos, .axes, .pair] s (msgGear p s) := by
  unfold msgGear
  refine moveCommon_then _ _ (by decide) (fun _ _ _ => ?_)
  ·
    refine KeepsV.ite (fun _ => ?_) (fun _ => ?_)
    ·
      refine KeepsV.then ?_ (notAccepted_keeps _ _) (by decide)
      exact Keeps.refl _ _
    ·
      refine KeepsV.ite (fun _ => ?_) (fun _ => ?_)
      ·
        exact KeepsV.error
      ·
        refine KeepsV.ok ?_
        refine Keeps.then ?_ (clearStop_keeps _ _) (by decide)
        refine Keeps.then ?_ (modAxis_keeps _ _ _) (by decide)
        refine Keeps.then ?_ (latchShadow_keeps _ _) (by decide)
        refine Keeps.then ?_ (beginReq_keeps _ _ _ _) (by decide)
        exact Keeps.refl _ _

theorem msgHome_keeps (p) (s) : KeepsV [.net, .pos, .axes, .pair] s (msgHome p s) := by
  unfold msgHome
  refine moveCommon_then _ _ (by decide) (fun _ _ _ => ?_)
  ·
    refine KeepsV.ite (fun _ => ?_) (fun _ => ?_)
    ·
      refine KeepsV.then ?_ (notAccepted_keeps _ _) (by decide)
      exact Keeps.refl _ _
    ·
      refine KeepsV.ok ?_
      refine Keeps.then ?_ (clearStop_keeps _ _) (by decide)
      refine Keeps.then ?_ (modAxis_keeps _ _ _) (by decide)
      refine Keeps.then ?_ (latchShadow_keeps _ _) (by decide)
      refine Keeps.then ?_ (beginReq_keeps _ _ _ _) (by decide)
      exact Keeps.refl _ _

theorem msgEstop_keeps (p) (s) : KeepsV [.net, .pos, .axes, .pair] s (msgEstop p s) := by
  unfold msgEstop
  refine moveCommon_then _ _ (by decide) (fun _ _ _ => ?_)
  ·
    refine KeepsV.ite (fun _ => ?_) (fun _ => ?_)
    ·
      refine KeepsV.ok ?_
      refine Keeps.then ?_ (doneAtOnce_keeps _ _ _ _ _) (by decide)
      exact Keeps.refl _ _
    ·
      refine KeepsV.ite (fun _ => ?_) (fun _ => ?_)
      ·
        refine KeepsV.ok ?_
        refine Keeps.then ?_ (modAxis_keeps _ _ _) (by decide)
        refine Keeps.then ?_ (addPending_keeps _ _ _) (by decide)
        exact Keeps.refl _ _
      ·
        refine KeepsV.ok ?_
        refine Keeps.then ?_ (beginReq_keeps _ _ _ _) (by decide)
        refine Keeps.then ?_ (ownEstop_keeps _ _ _) (by decide)
        exact Keeps.refl _ _

theorem msgStop_keeps (p) (s) : KeepsV [.net, .pos, .axes, .pair] s (msgStop p s) := by
  unfold msgStop
  refine moveCommon_then _ _ (by decide) (fun _ _ _ => ?_)
  ·
    refine KeepsV.ite (fun _ => ?_) (fun _ => ?_)
    ·
      refine KeepsV.ok ?_
      refine Keeps.then ?_ (modAxis_keeps _ _ _) (by decide)
      refine Keeps.then ?_ (beginReq_keeps _ _ _ _) (by decide)
      refine Keeps.then ?_ (endChange_keeps _ _ _) (by decide)
      refine Keeps.then ?_ (endReq_keeps _ _ _) (by decide)
      exact Keeps.refl _ _
    ·
      refine KeepsV.ok ?_
      refine Keeps.then ?_ (doneAtOnce_keeps _ _ _ _ _) (by decide)
      exact Keeps.refl _ _

theorem startMove_keeps (a) (ticket) (target) (jog) (s) : KeepsV [.net, .axes, .pair] s (startMove a ticket target jog s) := by
  unfold startMove
  refine KeepsV.ite (fun _ => ?_) (fun _ => ?_)
  ·
    refine KeepsV.then ?_ (notAccepted_keeps _ _) (by decide)
    exact Keeps.refl _ _
  ·
    refine KeepsV.ite (fun _ => ?_) (fun _ => ?_)
    ·
      exact KeepsV.error
    ·
      refine KeepsV.ok ?_
      refine Keeps.then ?_ (clearStop_keeps _ _) (by decide)
      refine Keeps.then ?_ (modAxis_keeps _ _ _) (by decide)
      refine Keeps.ite (fun _ => ?_) (fun _ => ?_)
      ·
        refine Keeps.then ?_ (beginReq_keeps _ _ _ _) (by decide)
        refine Keeps.then ?_ (endReq_keeps _ _ _) (by decide)
        exact Keeps.refl _ _
      ·
        refine Keeps.then ?_ (latchShadow_keeps _ _) (by decide)
        refine Keeps.then ?_ (beginReq_keeps _ _ _ _) (by decide)
        exact Keeps.refl _ _

theorem msgJog_keeps (p) (s) : KeepsV [.net, .pos, .axes, .pair] s (msgJog p s) := by
  unfold msgJog
  refine moveCommon_then _ _ (by decide) (fun _ _ _ => ?_)
  ·
    refine KeepsV.then ?_ (startMove_keeps _ _ _ _ _) (by decide)
    exact Keeps.refl _ _

theorem msgMoveRel_keeps (p) (s) : KeepsV [.net, .pos, .axes, .pair] s (msgMoveRel p s) := by
  unfold msgMoveRel
  refine moveCommon_then _ _ (by decide) (fun _ _ _ => ?_)
  ·
    refine KeepsV.then ?_ (startMove_keeps _ _ _ _ _) (by decide)
    exact Keeps.refl _ _

theorem msgMoveAbs_keeps (p) (s) : KeepsV [.net, .pos, .axes, .pair] s (msgMoveAbs p s) := by
  unfold msgMoveAbs
  refine moveCommon_then _ _ (by decide) (fun _ _ _ => ?_)
  ·
    refine KeepsV.then ?_ (startMove_keeps _ _ _ _ _) (by decide)
    exact Keeps.refl _ _

theorem msgMove_keeps (i) (p) (s) : KeepsV [.log, .net, .pos, .axes, .pair] s (msgMove i p s) := by
  unfold msgMove
  split
  ·
    refine KeepsV.then ?_ (msgMoveAbs_keeps _ _) (by decide)
    exact Keeps.refl _ _
  ·
    refine KeepsV.then ?_ (msgMoveRel_keeps _ _) (by decide)
    exact Keeps.refl _ _
  ·
    refine KeepsV.then ?_ (msgJog_keeps _ _) (by decide)
    exact Keeps.refl _ _
  ·
    refine KeepsV.then ?_ (msgStop_keeps _ _) (by decide)
    exact Keeps.refl _ _
  ·
    refine KeepsV.then ?_ (msgEstop_keeps _ _) (by decide)
    exact Keeps.refl _ _
  ·
    refine KeepsV.then ?_ (msgHome_keeps _ _) (by decide)
    exact Keeps.refl _ _
  ·
    refine KeepsV.then ?_ (msgGear_keeps _ _) (by decide)
    exact Keeps.refl _ _
  ·
    refine KeepsV.then ?_ (msgGearChange_keeps _ _) (by decide)
    exact Keeps.refl _ _
  ·
    refine KeepsV.then ?_ (msgSetParams_keeps _ _) (by decide)
    exact Keeps.refl _ _
  ·
    refine KeepsV.then ?_ (msgEnable_keeps _ _) (by decide)
    exact Keeps.refl _ _
  ·
    refine KeepsV.then ?_ (msgDisable_keeps _ _) (by decide)
    exact Keeps.refl _ _
  ·
    refine KeepsV.then ?_ (msgClearFault_keeps _ _) (by decide)
    exact Keeps.refl _ _
  ·
    refine moveCommon_then _ _ (by decide) (fun _ _ _ => ?_)
    ·
      refine KeepsV.then ?_ (notAccepted_keeps _ _) (by decide)
      exact Keeps.refl _ _

theorem passStrips_keeps (n) (s) : Keeps [.jobs, .cal] s (passStrips n s) := by
  unfold passStrips
  refine Keeps.then ?_ (modArmed_keeps _ _) (by decide)
  refine Keeps.then ?_ (set_cal_keeps ..) (by decide)
  exact Keeps.refl _ _

theorem dropStrip_keeps (x) (s) : Keeps [.jobs, .render, .cal] s (dropStrip x s) := by
  unfold dropStrip
  refine Keeps.then ?_ (modArmed_keeps _ _) (by decide)
  refine Keeps.then ?_ (set_cal_keeps ..) (by decide)
  refine Keeps.ite (fun _ => ?_) (fun _ => ?_)
  ·
    refine Keeps.then ?_ (abandonRendering_keeps _) (by decide)
    exact Keeps.refl _ _
  ·
    exact Keeps.refl _ _

theorem passStrip_keeps (n) (s) : Keeps [.jobs, .render, .cal] s (passStrip n s) := by
  unfold passStrip
  split
  ·
    refine Keeps.then ?_ (dropStrip_keeps _ _) (by decide)
    exact Keeps.refl _ _
  ·
    refine Keeps.then ?_ (passStrips_keeps _ _) (by decide)
    exact Keeps.refl _ _

theorem modKinds_keeps (kinds) (f) (s) : Keeps [.cal] s (modKinds kinds f s) := by
  unfold modKinds
  refine Keeps.then ?_ (set_cal_keeps ..) (by decide)
  exact Keeps.refl _ _

theorem countPlaced_keeps (kinds) (s) : Keeps [.cal] s (countPlaced kinds s) := by
  unfold countPlaced
  refine Keeps.then ?_ (modKinds_keeps _ _ _) (by decide)
  exact Keeps.refl _ _

theorem placeMargin_keeps (id) (s) : Keeps [.cal] s (placeMargin id s) := by
  unfold placeMargin
  refine Keeps.ite (fun _ => ?_) (fun _ => ?_)
  ·
    refine Keeps.then ?_ (countPlaced_keeps _ _) (by decide)
    refine Keeps.then ?_ (set_cal_keeps ..) (by decide)
    exact Keeps.refl _ _
  ·
    exact Keeps.refl _ _

theorem countSkipped_keeps (s) : Keeps [.cal] s (countSkipped s) := by
  unfold countSkipped
  refine Keeps.then ?_ (set_cal_keeps ..) (by decide)
  exact Keeps.refl _ _

theorem takeStrip_keeps (n s) : Keeps [.jobs, .render, .cal] s (takeStrip n s).2 := by
  unfold takeStrip
  split
  · exact Keeps.refl _ _
  · split
    · split
      · exact ((Keeps.refl _ _).then (modArmed_keeps ..) (by decide)).then (countPlaced_keeps ..) (by decide)
      · exact ((Keeps.refl _ _).then (dropStrip_keeps ..) (by decide)).then (countSkipped_keeps ..) (by decide)
    · split
      · exact Keeps.refl _ _
      · dsimp only
        have h1 := (Keeps.refl [.jobs, .render, .cal] s).then (passStrips_keeps n s) (by decide)
        exact Keeps.ite (fun _ => h1) (fun _ => h1.then (countSkipped_keeps ..) (by decide))

theorem loadCam_keeps (c) (s) : Keeps [.pos] s (loadCam c s) := by
  unfold loadCam
  refine Keeps.then ?_ (set_pos_keeps ..) (by decide)
  exact Keeps.refl _ _

theorem loadCams_keeps (s) : Keeps [.pos] s (loadCams s) := by
  unfold loadCams
  refine Keeps.forEach (fun _ _ => ?_) ?_
  ·
    refine Keeps.then ?_ (loadCam_keeps _ _) (by decide)
    exact Keeps.refl _ _
  ·
    exact Keeps.refl _ _

theorem programCams_keeps (s) : Keeps [.log, .net, .pos] s (programCams s) := by
  unfold programCams
  refine Keeps.forEach (fun _ _ => ?_) ?_
  ·
    refine Keeps.ite (fun _ => ?_) (fun _ => ?_)
    ·
      refine Keeps.then ?_ (raise_keeps _ _ _) (by decide)
      refine Keeps.ite (fun _ => ?_) (fun _ => ?_)
      ·
        refine Keeps.then ?_ (addAux_keeps _ _) (by decide)
        refine Keeps.then ?_ (addAux_keeps _ _) (by decide)
        exact Keeps.refl _ _
      ·
        refine Keeps.then ?_ (addAux_keeps _ _) (by decide)
        exact Keeps.refl _ _
    ·
      refine Keeps.ite (fun _ => ?_) (fun _ => ?_)
      ·
        refine Keeps.then ?_ (addAux_keeps _ _) (by decide)
        refine Keeps.then ?_ (addAux_keeps _ _) (by decide)
        exact Keeps.refl _ _
      ·
        refine Keeps.then ?_ (addAux_keeps _ _) (by decide)
        exact Keeps.refl _ _
  ·
    exact Keeps.refl _ _

end Sys2Proof.Machine
end

