-- ==== Sys2Proof/Laws/KeepsRelease.lean ====
section
/-! SUPPORT. What the operations of Release, BarOps leave alone, and that they keep the invariant. -/
namespace Sys2Proof.Machine
open Sys2Proof

theorem changeover_keeps (s) : Keeps [.cal] s (changeover s) := by
  unfold changeover
  refine Keeps.then ?_ (set_cal_keeps ..) (by decide)
  exact Keeps.refl _ _

theorem doChangeover_keeps (n) (s) : Keeps [.cal, .pair] s (doChangeover n s) := by
  unfold doChangeover
  refine Keeps.ite (fun _ => ?_) (fun _ => ?_)
  ·
    refine onAck_then _ _ _ (by decide) (fun _ => ?_) ?_
    ·
      refine Keeps.then ?_ (changeover_keeps _) (by decide)
      exact Keeps.refl _ _
    ·
      exact Keeps.refl _ _
  ·
    exact Keeps.refl _ _

theorem passBlank_keeps (n) (id) (s) : Keeps [.log, .net, .jobs, .render, .cal] s (passBlank n id s) := by
  unfold passBlank
  split
  ·
    exact Keeps.refl _ _
  ·
    refine Keeps.then ?_ (raise_keeps _ _ _) (by decide)
    refine Keeps.then ?_ (modArmed_keeps _ _) (by decide)
    refine Keeps.then ?_ (passStrip_keeps _ _) (by decide)
    exact Keeps.refl _ _

theorem sendSlotReady_keeps (s) : Keeps [.ring] s (sendSlotReady s) := by
  unfold sendSlotReady
  split
  ·
    exact Keeps.refl _ _
  ·
    refine Keeps.ite (fun _ => ?_) (fun _ => ?_)
    ·
      refine Keeps.then ?_ (ringSendActive_keeps _ _ _ _) (by decide)
      refine Keeps.then ?_ (set_ring_keeps ..) (by decide)
      exact Keeps.refl _ _
    ·
      exact Keeps.refl _ _

theorem endIfLast_keeps (s) : Keeps [.mod, .power, .conf, .update, .log, .gov, .net, .jobs, .pos, .fire, .cams, .cal, .ring, .pair] s (endIfLast s) := by
  unfold endIfLast
  split
  ·
    refine Keeps.ite (fun _ => ?_) (fun _ => ?_)
    ·
      refine Keeps.then ?_ (settle_keeps _) (by decide)
      refine Keeps.then ?_ (endReleases_keeps _) (by decide)
      exact Keeps.refl _ _
    ·
      exact Keeps.refl _ _
  ·
    exact Keeps.refl _ _

theorem enterPrint_keeps (s) : Keeps [.mod, .log, .net, .fire] s (enterPrint s) := by
  unfold enterPrint
  refine Keeps.then ?_ (setModState_keeps _ _ _) (by decide)
  refine Keeps.then ?_ (set_fire_keeps ..) (by decide)
  exact Keeps.refl _ _

theorem beginReading_keeps (x) (s) : Keeps [.fire] s (beginReading x s) := by
  unfold beginReading
  refine Keeps.forEach (fun _ _ => ?_) ?_
  ·
    refine Keeps.then ?_ (modLane_keeps _ _ _) (by decide)
    exact Keeps.refl _ _
  ·
    exact Keeps.refl _ _

theorem releaseSlot_keeps (turn) (n) (id) (start) (s) : Keeps [.mod, .power, .conf, .update, .log, .gov, .net, .jobs, .render, .pos, .fire, .cams, .cal, .ring, .pair] s (releaseSlot turn n id start s) := by
  unfold releaseSlot
  split
  ·
    exact Keeps.refl _ _
  ·
    refine Keeps.ite (fun _ => ?_) (fun _ => ?_)
    ·
      exact Keeps.refl _ _
    ·
      refine Keeps.then ?_ (sendSlotReady_keeps _) (by decide)
      refine Keeps.then ?_ (endIfLast_keeps _) (by decide)
      refine Keeps.then ?_ (loadCams_keeps _) (by decide)
      refine Keeps.ite (fun _ => ?_) (fun _ => ?_)
      ·
        refine Keeps.then ?_ (ringDecision_keeps _ _ _) (by decide)
        refine Keeps.ite (fun _ => ?_) (fun _ => ?_)
        ·
          refine Keeps.then ?_ (enterPrint_keeps _) (by decide)
          refine Keeps.then ?_ (raise_keeps _ _ _) (by decide)
          refine Keeps.then ?_ (beginReading_keeps _ _) (by decide)
          refine Keeps.then ?_ (modArmed_keeps _ _) (by decide)
          refine Keeps.then ?_ (placeMargin_keeps _ _) (by decide)
          refine Keeps.then ?_ (takeStrip_keeps _ _) (by decide)
          exact Keeps.refl _ _
        ·
          refine Keeps.then ?_ (raise_keeps _ _ _) (by decide)
          refine Keeps.then ?_ (beginReading_keeps _ _) (by decide)
          refine Keeps.then ?_ (modArmed_keeps _ _) (by decide)
          refine Keeps.then ?_ (placeMargin_keeps _ _) (by decide)
          refine Keeps.then ?_ (takeStrip_keeps _ _) (by decide)
          exact Keeps.refl _ _
      ·
        refine Keeps.ite (fun _ => ?_) (fun _ => ?_)
        ·
          refine Keeps.then ?_ (enterPrint_keeps _) (by decide)
          refine Keeps.then ?_ (raise_keeps _ _ _) (by decide)
          refine Keeps.then ?_ (beginReading_keeps _ _) (by decide)
          refine Keeps.then ?_ (modArmed_keeps _ _) (by decide)
          refine Keeps.then ?_ (placeMargin_keeps _ _) (by decide)
          refine Keeps.then ?_ (takeStrip_keeps _ _) (by decide)
          exact Keeps.refl _ _
        ·
          refine Keeps.then ?_ (raise_keeps _ _ _) (by decide)
          refine Keeps.then ?_ (beginReading_keeps _ _) (by decide)
          refine Keeps.then ?_ (modArmed_keeps _ _) (by decide)
          refine Keeps.then ?_ (placeMargin_keeps _ _) (by decide)
          refine Keeps.then ?_ (takeStrip_keeps _ _) (by decide)
          exact Keeps.refl _ _

theorem removePage_keeps (id) (s) : Keeps [.log, .net, .jobs] s (removePage id s) := by
  unfold removePage
  refine Keeps.then ?_ (raise_keeps _ _ _) (by decide)
  refine Keeps.then ?_ (modArmed_keeps _ _) (by decide)
  exact Keeps.refl _ _

theorem dropQuarantined_keeps (s) : Keeps [.log, .net, .jobs] s (dropQuarantined s) := by
  unfold dropQuarantined
  split
  ·
    refine Keeps.ite (fun _ => ?_) (fun _ => ?_)
    ·
      refine Keeps.then ?_ (removePage_keeps _ _) (by decide)
      exact Keeps.refl _ _
    ·
      exact Keeps.refl _ _
  ·
    exact Keeps.refl _ _

theorem dropHeldPages_keeps (n s) : Keeps [.log, .net, .jobs] s (dropHeldPages n s) := by
  induction n generalizing s with
  | zero => exact Keeps.refl _ _
  | succ n ih =>
    unfold dropHeldPages
    split
    · exact Keeps.ite (fun _ => ((Keeps.refl _ _).then (removePage_keeps ..) (by decide)).then (ih _) (by decide)) fun _ => Keeps.refl _ _
    · exact Keeps.refl _ _

theorem applyNotReady_keeps (n) (action) (s) : Keeps [.mod, .power, .conf, .update, .log, .gov, .net, .jobs, .render, .pos, .fire, .cams, .cal, .ring, .pair] s (applyNotReady n action s) := by
  unfold applyNotReady
  try dsimp only
  split
  ·
    refine Keeps.ite (fun _ => ?_) (fun _ => ?_)
    ·
      refine Keeps.ite (fun _ => ?_) (fun _ => ?_)
      ·
        refine Keeps.then ?_ (dropHeldPages_keeps _ _) (by decide)
        exact Keeps.refl _ _
      ·
        exact Keeps.refl _ _
    ·
      refine Keeps.ite (fun _ => ?_) (fun _ => ?_)
      ·
        refine Keeps.then ?_ (endIfLast_keeps _) (by decide)
        refine Keeps.then ?_ (modArmed_keeps _ _) (by decide)
        refine Keeps.then ?_ (ringDecision_keeps _ _ _) (by decide)
        refine Keeps.then ?_ (raise_keeps _ _ _) (by decide)
        refine Keeps.then ?_ (dropQuarantined_keeps _) (by decide)
        refine Keeps.ite (fun _ => ?_) (fun _ => ?_)
        ·
          refine Keeps.then ?_ (dropHeldPages_keeps _ _) (by decide)
          exact Keeps.refl _ _
        ·
          exact Keeps.refl _ _
      ·
        refine Keeps.ite (fun _ => ?_) (fun _ => ?_)
        ·
          split
          ·
            refine Keeps.then ?_ (releaseSlot_keeps _ _ _ _ _) (by decide)
            refine Keeps.then ?_ (ringDecision_keeps _ _ _) (by decide)
            refine Keeps.then ?_ (raise_keeps _ _ _) (by decide)
            refine Keeps.then ?_ (dropQuarantined_keeps _) (by decide)
            refine Keeps.ite (fun _ => ?_) (fun _ => ?_)
            ·
              refine Keeps.then ?_ (dropHeldPages_keeps _ _) (by decide)
              exact Keeps.refl _ _
            ·
              exact Keeps.refl _ _
          ·
            refine Keeps.then ?_ (sendSlotReady_keeps _) (by decide)
            refine Keeps.then ?_ (endIfLast_keeps _) (by decide)
            refine Keeps.then ?_ (loadCams_keeps _) (by decide)
            refine Keeps.then ?_ (passBlank_keeps _ _ _) (by decide)
            refine Keeps.then ?_ (ringDecision_keeps _ _ _) (by decide)
            refine Keeps.then ?_ (raise_keeps _ _ _) (by decide)
            refine Keeps.then ?_ (dropQuarantined_keeps _) (by decide)
            refine Keeps.ite (fun _ => ?_) (fun _ => ?_)
            ·
              refine Keeps.then ?_ (dropHeldPages_keeps _ _) (by decide)
              exact Keeps.refl _ _
            ·
              exact Keeps.refl _ _
        ·
          refine Keeps.then ?_ (sendSlotReady_keeps _) (by decide)
          refine Keeps.then ?_ (endIfLast_keeps _) (by decide)
          refine Keeps.then ?_ (loadCams_keeps _) (by decide)
          refine Keeps.then ?_ (passBlank_keeps _ _ _) (by decide)
          refine Keeps.then ?_ (ringDecision_keeps _ _ _) (by decide)
          refine Keeps.then ?_ (raise_keeps _ _ _) (by decide)
          refine Keeps.then ?_ (dropQuarantined_keeps _) (by decide)
          refine Keeps.ite (fun _ => ?_) (fun _ => ?_)
          ·
            refine Keeps.then ?_ (dropHeldPages_keeps _ _) (by decide)
            exact Keeps.refl _ _
          ·
            exact Keeps.refl _ _
  ·
    refine Keeps.ite (fun _ => ?_) (fun _ => ?_)
    ·
      refine Keeps.then ?_ (dropHeldPages_keeps _ _) (by decide)
      exact Keeps.refl _ _
    ·
      exact Keeps.refl _ _

theorem dropBefore_keeps (n id s) : Keeps [.log, .net, .jobs] s (dropBefore n id s) := by
  induction n generalizing s with
  | zero => exact Keeps.refl _ _
  | succ n ih =>
    unfold dropBefore
    split
    · exact Keeps.ite (fun _ => ((Keeps.refl _ _).then (removePage_keeps ..) (by decide)).then (ih _) (by decide)) fun _ => Keeps.refl _ _
    · exact Keeps.refl _ _

theorem applyRelease_keeps (n) (id) (start) (s) : Keeps [.mod, .power, .conf, .update, .log, .gov, .net, .jobs, .render, .pos, .fire, .cams, .cal, .ring, .pair] s (applyRelease n id start s) := by
  unfold applyRelease
  refine Keeps.then ?_ (releaseSlot_keeps _ _ _ _ _) (by decide)
  refine Keeps.then ?_ (dropBefore_keeps _ _ _) (by decide)
  exact Keeps.refl _ _

theorem fixStart_keeps (s) : Keeps [.jobs] s (fixStart s) := by
  unfold fixStart
  split
  ·
    exact Keeps.refl _ _
  ·
    refine Keeps.ite (fun _ => ?_) (fun _ => ?_)
    ·
      refine Keeps.then ?_ (modArmed_keeps _ _) (by decide)
      exact Keeps.refl _ _
    ·
      exact Keeps.refl _ _

theorem goStop_keeps (s) : Keeps [.mod, .power, .conf, .update, .log, .gov, .net, .jobs, .pos, .fire, .cams, .cal, .ring, .pair] s (goStop s) := by
  unfold goStop
  split
  ·
    refine Keeps.then ?_ (settle_keeps _) (by decide)
    refine Keeps.then ?_ (sendCascadeStop_keeps _ _) (by decide)
    refine Keeps.then ?_ (endReleases_keeps _) (by decide)
    refine Keeps.then ?_ (raise_keeps _ _ _) (by decide)
    exact Keeps.refl _ _
  ·
    exact Keeps.refl _ _

theorem decideGoStop_keeps (a) (s) : Keeps [.mod, .power, .conf, .update, .log, .gov, .net, .jobs, .pos, .fire, .cams, .cal, .ring, .pair] s (decideGoStop a s) := by
  unfold decideGoStop
  refine onAck_then _ _ _ (by decide) (fun _ => ?_) ?_
  ·
    refine Keeps.then ?_ (goStop_keeps _) (by decide)
    exact Keeps.refl _ _
  ·
    exact Keeps.refl _ _

theorem decideNotReady_keeps (action) (s) : Keeps [.mod, .power, .conf, .update, .log, .gov, .net, .jobs, .render, .pos, .fire, .cams, .cal, .ring, .pair] s (decideNotReady action s) := by
  unfold decideNotReady
  split
  ·
    exact Keeps.refl _ _
  ·
    refine onAck_then _ _ _ (by decide) (fun _ => ?_) ?_
    ·
      refine Keeps.then ?_ (applyNotReady_keeps _ _ _) (by decide)
      exact Keeps.refl _ _
    ·
      exact Keeps.refl _ _

theorem decideRelease_keeps (id) (start) (s) : Keeps [.mod, .power, .conf, .update, .log, .gov, .net, .jobs, .render, .pos, .fire, .cams, .cal, .ring, .pair] s (decideRelease id start s) := by
  unfold decideRelease
  split
  ·
    exact Keeps.refl _ _
  ·
    refine onAck_then _ _ _ (by decide) (fun _ => ?_) ?_
    ·
      refine Keeps.then ?_ (applyRelease_keeps _ _ _ _) (by decide)
      exact Keeps.refl _ _
    ·
      refine Keeps.then ?_ (doChangeover_keeps _ _) (by decide)
      exact Keeps.refl _ _

theorem decideOnce_keeps (s) : Keeps [.mod, .power, .conf, .update, .log, .gov, .net, .jobs, .render, .pos, .fire, .cams, .cal, .ring, .pair] s (decideOnce s) := by
  unfold decideOnce
  refine Keeps.ite (fun _ => ?_) (fun _ => ?_)
  ·
    exact Keeps.refl _ _
  ·
    try dsimp only
    split
    ·
      refine Keeps.ite (fun _ => ?_) (fun _ => ?_)
      ·
        refine Keeps.then ?_ (fixStart_keeps _) (by decide)
        exact Keeps.refl _ _
      ·
        refine Keeps.ite (fun _ => ?_) (fun _ => ?_)
        ·
          refine Keeps.ite (fun _ => ?_) (fun _ => ?_)
          ·
            refine Keeps.then ?_ (decideRelease_keeps _ _ _) (by decide)
            refine Keeps.then ?_ (fixStart_keeps _) (by decide)
            exact Keeps.refl _ _
          ·
            refine Keeps.ite (fun _ => ?_) (fun _ => ?_)
            ·
              refine Keeps.ite (fun _ => ?_) (fun _ => ?_)
              ·
                refine Keeps.then ?_ (dropQuarantined_keeps _) (by decide)
                refine Keeps.then ?_ (fixStart_keeps _) (by decide)
                exact Keeps.refl _ _
              ·
                refine Keeps.then ?_ (decideNotReady_keeps _ _) (by decide)
                refine Keeps.then ?_ (fixStart_keeps _) (by decide)
                exact Keeps.refl _ _
            ·
              refine Keeps.then ?_ (fixStart_keeps _) (by decide)
              exact Keeps.refl _ _
        ·
          split
          ·
            refine Keeps.ite (fun _ => ?_) (fun _ => ?_)
            ·
              refine Keeps.ite (fun _ => ?_) (fun _ => ?_)
              ·
                refine Keeps.then ?_ (decideGoStop_keeps _ _) (by decide)
                refine Keeps.then ?_ (fixStart_keeps _) (by decide)
                exact Keeps.refl _ _
              ·
                refine Keeps.ite (fun _ => ?_) (fun _ => ?_)
                ·
                  refine Keeps.then ?_ (decideRelease_keeps _ _ _) (by decide)
                  refine Keeps.then ?_ (fixStart_keeps _) (by decide)
                  exact Keeps.refl _ _
                ·
                  refine Keeps.then ?_ (decideNotReady_keeps _ _) (by decide)
                  refine Keeps.then ?_ (fixStart_keeps _) (by decide)
                  exact Keeps.refl _ _
            ·
              refine Keeps.then ?_ (fixStart_keeps _) (by decide)
              exact Keeps.refl _ _
          ·
            refine Keeps.then ?_ (fixStart_keeps _) (by decide)
            exact Keeps.refl _ _
    ·
      refine Keeps.then ?_ (fixStart_keeps _) (by decide)
      exact Keeps.refl _ _

theorem decideHeld_keeps (n s) : Keeps [.mod, .power, .conf, .update, .log, .gov, .net, .jobs, .render, .pos, .fire, .cams, .cal, .ring, .pair] s (decideHeld n s) := by
  induction n generalizing s with
  | zero => exact Keeps.refl _ _
  | succ n ih =>
    unfold decideHeld
    dsimp only
    have h1 := (Keeps.refl [.mod, .power, .conf, .update, .log, .gov, .net, .jobs, .render, .pos, .fire, .cams, .cal, .ring, .pair] s).then (decideOnce_keeps s) (by decide)
    exact Keeps.ite (fun _ => Keeps.ite (fun _ => h1) (fun _ => h1.then (ih _) (by decide))) (fun _ => Keeps.refl _ _)

theorem decideSlot_keeps (s) : Keeps [.mod, .power, .conf, .update, .log, .gov, .net, .jobs, .render, .pos, .fire, .cams, .cal, .ring, .pair] s (decideSlot s) := by
  unfold decideSlot
  refine Keeps.then ?_ (decideHeld_keeps _ _) (by decide)
  refine Keeps.then ?_ (decideOnce_keeps _) (by decide)
  exact Keeps.refl _ _

theorem retryHold_keeps (s) : Keeps [.mod, .power, .conf, .update, .log, .gov, .net, .jobs, .render, .pos, .fire, .cams, .cal, .ring, .pair] s (retryHold s) := by
  unfold retryHold
  refine Keeps.ite (fun _ => ?_) (fun _ => ?_)
  ·
    refine Keeps.then ?_ (decideSlot_keeps _) (by decide)
    refine Keeps.then ?_ (sendSlotReady_keeps _) (by decide)
    refine Keeps.ite (fun _ => ?_) (fun _ => ?_)
    ·
      refine Keeps.then ?_ (dropHeldPages_keeps _ _) (by decide)
      exact Keeps.refl _ _
    ·
      exact Keeps.refl _ _
  ·
    refine Keeps.then ?_ (sendSlotReady_keeps _) (by decide)
    refine Keeps.ite (fun _ => ?_) (fun _ => ?_)
    ·
      refine Keeps.then ?_ (dropHeldPages_keeps _ _) (by decide)
      exact Keeps.refl _ _
    ·
      exact Keeps.refl _ _

theorem sendPackets_keeps (b) (n) (s) : Keeps [.fire] s (sendPackets b n s) := by
  unfold sendPackets
  refine Keeps.ite (fun _ => ?_) (fun _ => ?_)
  ·
    refine Keeps.forEach (fun _ _ => ?_) ?_
    ·
      refine Keeps.forEach (fun _ _ => ?_) ?_
      ·
        refine Keeps.then ?_ (sendSymbols_keeps _ _ _) (by decide)
        exact Keeps.refl _ _
      ·
        exact Keeps.refl _ _
    ·
      exact Keeps.refl _ _
  ·
    exact Keeps.refl _ _

theorem noteMarks_keeps (b) (x) (s) : Keeps [.cal] s (noteMarks b x s) := by
  unfold noteMarks
  split
  ·
    exact Keeps.refl _ _
  ·
    refine Keeps.ite (fun _ => ?_) (fun _ => ?_)
    ·
      exact Keeps.refl _ _
    ·
      refine Keeps.then ?_ (set_cal_keeps ..) (by decide)
      exact Keeps.refl _ _

theorem latchTaps_keeps (b) (s) : Keeps [.fire] s (latchTaps b s) := by
  unfold latchTaps
  refine Keeps.then ?_ (modBar_keeps _ _ _) (by decide)
  refine Keeps.then ?_ (modBar_keeps _ _ _) (by decide)
  exact Keeps.refl _ _

theorem endSlews_keeps (b) (s) : Keeps [.cal] s (endSlews b s) := by
  unfold endSlews
  refine Keeps.forEach (fun _ _ => ?_) ?_
  ·
    refine Keeps.then ?_ (raiseVersion_keeps _ _) (by decide)
    refine Keeps.then ?_ (set_cal_keeps ..) (by decide)
    exact Keeps.refl _ _
  ·
    exact Keeps.refl _ _

theorem latchSlot_keeps (b) (n) (x) (s) : Keeps [.log, .net, .jobs, .fire, .links, .cal, .pair] s (latchSlot b n x s) := by
  unfold latchSlot
  refine Keeps.then ?_ (noteMarks_keeps _ _ _) (by decide)
  refine Keeps.ite (fun _ => ?_) (fun _ => ?_)
  ·
    refine Keeps.then ?_ (raise_keeps _ _ _) (by decide)
    refine Keeps.then ?_ (modBar_keeps _ _ _) (by decide)
    refine Keeps.then ?_ (sendToken_keeps _ _ _) (by decide)
    refine Keeps.then ?_ (modSlot_keeps _ _ _) (by decide)
    refine Keeps.forEach (fun _ _ => ?_) ?_
    ·
      refine Keeps.then ?_ (modLink_keeps _ _ _) (by decide)
      exact Keeps.refl _ _
    ·
      refine Keeps.then ?_ (endSlews_keeps _ _) (by decide)
      refine Keeps.then ?_ (latchTaps_keeps _ _) (by decide)
      exact Keeps.refl _ _
  ·
    refine Keeps.then ?_ (modSlot_keeps _ _ _) (by decide)
    refine Keeps.forEach (fun _ _ => ?_) ?_
    ·
      refine Keeps.then ?_ (modLink_keeps _ _ _) (by decide)
      exact Keeps.refl _ _
    ·
      refine Keeps.then ?_ (endSlews_keeps _ _) (by decide)
      refine Keeps.then ?_ (latchTaps_keeps _ _) (by decide)
      exact Keeps.refl _ _

theorem latchDueSlots_keeps (b n fuel s) : Keeps [.log, .net, .jobs, .fire, .links, .cal, .pair] s (latchDueSlots b n fuel s) := by
  induction fuel generalizing s with
  | zero => exact Keeps.refl _ _
  | succ k ih =>
    unfold latchDueSlots
    try dsimp only
    split
    · exact Keeps.refl _ _
    · refine Keeps.ite (fun _ => ?_) (fun _ => Keeps.refl _ _)
      exact ((Keeps.refl _ _).then (latchSlot_keeps ..) (by decide)).then (ih _) (by decide)

theorem fillLine_keeps (b) (n) (s) : Keeps [.fire] s (fillLine b n s) := by
  unfold fillLine
  refine Keeps.forEach (fun _ _ => ?_) ?_
  ·
    refine Keeps.then ?_ (modLane_keeps _ _ _) (by decide)
    exact Keeps.refl _ _
  ·
    exact Keeps.refl _ _

theorem fillUpTo_keeps (b) (n) (s) : Keeps [.fire] s (fillUpTo b n s) := by
  unfold fillUpTo
  refine Keeps.forEach (fun _ _ => ?_) ?_
  ·
    refine Keeps.then ?_ (fillLine_keeps _ _ _) (by decide)
    exact Keeps.refl _ _
  ·
    exact Keeps.refl _ _

theorem startPacket_keeps (b) (n) (s) : Keeps [.log, .net, .jobs, .fire, .links, .cal, .pair] s (startPacket b n s) := by
  unfold startPacket
  refine Keeps.then ?_ (sendPackets_keeps _ _ _) (by decide)
  refine Keeps.then ?_ (modBar_keeps _ _ _) (by decide)
  refine Keeps.then ?_ (fillUpTo_keeps _ _ _) (by decide)
  refine Keeps.then ?_ (latchDueSlots_keeps _ _ _ _) (by decide)
  exact Keeps.refl _ _

theorem nextPacket_keeps (b) (n) (s) : Keeps [.log, .net, .jobs, .fire, .links, .cal, .pair] s (nextPacket b n s) := by
  unfold nextPacket
  refine Keeps.ite (fun _ => ?_) (fun _ => ?_)
  ·
    refine Keeps.then ?_ (startPacket_keeps _ _ _) (by decide)
    exact Keeps.refl _ _
  ·
    refine Keeps.then ?_ (modBar_keeps _ _ _) (by decide)
    exact Keeps.refl _ _

theorem updateOverspeed_keeps (s) : Keeps [.log, .net, .fire] s (updateOverspeed s) := by
  unfold updateOverspeed
  refine Keeps.ite (fun _ => ?_) (fun _ => ?_)
  ·
    exact Keeps.refl _ _
  ·
    refine Keeps.ite (fun _ => ?_) (fun _ => ?_)
    ·
      refine Keeps.then ?_ (raise_keeps _ _ _) (by decide)
      refine Keeps.then ?_ (set_fire_keeps ..) (by decide)
      try (refine Keeps.then ?_ (set_fire_keeps ..) (by decide))
      refine Keeps.forEach (fun _ _ => ?_) ?_
      ·
        refine Keeps.then ?_ (modBar_keeps _ _ _) (by decide)
        exact Keeps.refl _ _
      ·
        exact Keeps.refl _ _
    ·
      refine Keeps.then ?_ (set_fire_keeps ..) (by decide)
      refine Keeps.forEach (fun _ _ => ?_) ?_
      ·
        refine Keeps.then ?_ (modBar_keeps _ _ _) (by decide)
        exact Keeps.refl _ _
      ·
        exact Keeps.refl _ _

theorem barToken_keeps (b) (action) (seq) (cause) (s) : Keeps [.pair] s (barToken b action seq cause s) := by
  unfold barToken
  refine Keeps.then ?_ (sendToken_keeps _ _ _) (by decide)
  exact Keeps.refl _ _

theorem finishSlots_keeps (b) (n) (s) : Keeps [.log, .net, .jobs, .fire] s (finishSlots b n s) := by
  unfold finishSlots
  refine Keeps.forEach (fun _ _ => ?_) ?_
  ·
    refine Keeps.then ?_ (barDone_keeps _ _ _) (by decide)
    exact Keeps.refl _ _
  ·
    exact Keeps.refl _ _

theorem respoil_keeps (n) (bit) (s) : Keeps [.log, .net, .jobs] s (respoil n bit s) := by
  unfold respoil
  split
  ·
    exact Keeps.refl _ _
  ·
    refine Keeps.ite (fun _ => ?_) (fun _ => ?_)
    ·
      refine Keeps.then ?_ (raise_keeps _ _ _) (by decide)
      refine Keeps.then ?_ (modArmed_keeps _ _) (by decide)
      refine Keeps.then ?_ (modSlot_keeps _ _ _) (by decide)
      exact Keeps.refl _ _
    ·
      exact Keeps.refl _ _

theorem applyDrop_keeps (b) (n) (s) : Keeps [.log, .net, .jobs, .fire] s (applyDrop b n s) := by
  unfold applyDrop
  refine Keeps.then ?_ (finishSlots_keeps _ _ _) (by decide)
  refine Keeps.then ?_ (modBar_keeps _ _ _) (by decide)
  refine Keeps.ite (fun _ => ?_) (fun _ => ?_)
  ·
    refine Keeps.forEach (fun _ _ => ?_) ?_
    ·
      refine Keeps.then ?_ (respoil_keeps _ _ _) (by decide)
      exact Keeps.refl _ _
    ·
      refine Keeps.forEach (fun _ _ => ?_) ?_
      ·
        refine Keeps.then ?_ (spoilSlot_keeps _ _ _) (by decide)
        exact Keeps.refl _ _
      ·
        exact Keeps.refl _ _
  ·
    refine Keeps.forEach (fun _ _ => ?_) ?_
    ·
      refine Keeps.then ?_ (spoilSlot_keeps _ _ _) (by decide)
      exact Keeps.refl _ _
    ·
      exact Keeps.refl _ _

theorem dropEvent_keeps (b) (n) (deltaNs) (s) : Keeps [.log, .net] s (dropEvent b n deltaNs s) := by
  unfold dropEvent
  refine Keeps.then ?_ (raiseLimited_keeps _ _ _ _ _) (by decide)
  exact Keeps.refl _ _

theorem dropLine_keeps (b) (n) (deltaNs) (s) : Keeps [.log, .net, .jobs, .fire, .links, .cal, .pair] s (dropLine b n deltaNs s) := by
  unfold dropLine
  refine Keeps.ite (fun _ => ?_) (fun _ => ?_)
  ·
    refine Keeps.then ?_ (nextPacket_keeps _ _ _) (by decide)
    refine Keeps.then ?_ (updateOverspeed_keeps _) (by decide)
    refine Keeps.then ?_ (set_fire_keeps ..) (by decide)
    refine Keeps.then ?_ (dropEvent_keeps _ _ _ _) (by decide)
    refine Keeps.then ?_ (applyDrop_keeps _ _ _) (by decide)
    refine Keeps.then ?_ (barToken_keeps _ _ _ _ _) (by decide)
    refine Keeps.ite (fun _ => ?_) (fun _ => ?_)
    ·
      refine Keeps.forEach (fun _ _ => ?_) ?_
      ·
        refine Keeps.then ?_ (putSymbols_keeps _ _ _ _) (by decide)
        refine Keeps.then ?_ (modLane_keeps _ _ _) (by decide)
        exact Keeps.refl _ _
      ·
        exact Keeps.refl _ _
    ·
      exact Keeps.refl _ _
  ·
    refine Keeps.then ?_ (updateOverspeed_keeps _) (by decide)
    refine Keeps.then ?_ (set_fire_keeps ..) (by decide)
    refine Keeps.then ?_ (dropEvent_keeps _ _ _ _) (by decide)
    refine Keeps.then ?_ (applyDrop_keeps _ _ _) (by decide)
    refine Keeps.then ?_ (barToken_keeps _ _ _ _ _) (by decide)
    refine Keeps.ite (fun _ => ?_) (fun _ => ?_)
    ·
      refine Keeps.forEach (fun _ _ => ?_) ?_
      ·
        refine Keeps.then ?_ (putSymbols_keeps _ _ _ _) (by decide)
        refine Keeps.then ?_ (modLane_keeps _ _ _) (by decide)
        exact Keeps.refl _ _
      ·
        exact Keeps.refl _ _
    ·
      exact Keeps.refl _ _

theorem markFiring_keeps (b) (n) (s) : Keeps [.jobs] s (markFiring b n s) := by
  unfold markFiring
  refine Keeps.forEach (fun _ _ => ?_) ?_
  ·
    refine Keeps.then ?_ (modSlot_keeps _ _ _) (by decide)
    exact Keeps.refl _ _
  ·
    exact Keeps.refl _ _

theorem countMissing_keeps (b) (n) (s) : Keeps [.fire] s (countMissing b n s) := by
  unfold countMissing
  refine Keeps.ite (fun _ => ?_) (fun _ => ?_)
  ·
    refine Keeps.then ?_ (modBar_keeps _ _ _) (by decide)
    exact Keeps.refl _ _
  ·
    exact Keeps.refl _ _

theorem insertSync_keeps (b) (n) (s) : Keeps [.log, .net, .jobs, .fire] s (insertSync b n s) := by
  unfold insertSync
  refine Keeps.then ?_ (finishSlots_keeps _ _ _) (by decide)
  refine Keeps.then ?_ (countMissing_keeps _ _ _) (by decide)
  refine Keeps.then ?_ (markFiring_keeps _ _ _) (by decide)
  refine Keeps.ite (fun _ => ?_) (fun _ => ?_)
  ·
    refine Keeps.forEach (fun _ _ => ?_) ?_
    ·
      refine Keeps.then ?_ (insertSymbols_keeps _ _ _) (by decide)
      exact Keeps.refl _ _
    ·
      refine Keeps.then ?_ (modBar_keeps _ _ _) (by decide)
      exact Keeps.refl _ _
  ·
    exact Keeps.refl _ _

theorem insertDue_keeps (b) (s) : Keeps [.log, .net, .jobs, .fire, .links, .cal, .pair] s (insertDue b s) := by
  unfold insertDue
  split
  ·
    exact Keeps.refl _ _
  ·
    refine Keeps.ite (fun _ => ?_) (fun _ => ?_)
    ·
      exact Keeps.refl _ _
    ·
      refine Keeps.then ?_ (nextPacket_keeps _ _ _) (by decide)
      refine Keeps.ite (fun _ => ?_) (fun _ => ?_)
      ·
        refine Keeps.then ?_ (finishSlots_keeps _ _ _) (by decide)
        refine Keeps.then ?_ (modBar_keeps _ _ _) (by decide)
        exact Keeps.refl _ _
      ·
        refine Keeps.then ?_ (insertSync_keeps _ _ _) (by decide)
        refine Keeps.then ?_ (modBar_keeps _ _ _) (by decide)
        exact Keeps.refl _ _

theorem noteDelta_keeps (b) (delta) (s) : Keeps [.fire] s (noteDelta b delta s) := by
  unfold noteDelta
  refine Keeps.then ?_ (modBar_keeps _ _ _) (by decide)
  exact Keeps.refl _ _

theorem handleLine_keeps (b) (n) (s) : Keeps [.log, .net, .jobs, .fire, .links, .cal, .pair] s (handleLine b n s) := by
  unfold handleLine
  refine Keeps.ite (fun _ => ?_) (fun _ => ?_)
  ·
    refine Keeps.ite (fun _ => ?_) (fun _ => ?_)
    ·
      refine Keeps.then ?_ (nextPacket_keeps _ _ _) (by decide)
      refine Keeps.then ?_ (insertSync_keeps _ _ _) (by decide)
      refine Keeps.then ?_ (dropEvent_keeps _ _ _ _) (by decide)
      refine Keeps.then ?_ (noteDelta_keeps _ _ _) (by decide)
      exact Keeps.refl _ _
    ·
      refine Keeps.then ?_ (dropLine_keeps _ _ _ _) (by decide)
      refine Keeps.then ?_ (noteDelta_keeps _ _ _) (by decide)
      exact Keeps.refl _ _
  ·
    refine Keeps.ite (fun _ => ?_) (fun _ => ?_)
    ·
      refine Keeps.then ?_ (nextPacket_keeps _ _ _) (by decide)
      refine Keeps.then ?_ (insertSync_keeps _ _ _) (by decide)
      refine Keeps.then ?_ (modBar_keeps _ _ _) (by decide)
      refine Keeps.then ?_ (noteDelta_keeps _ _ _) (by decide)
      exact Keeps.refl _ _
    ·
      refine Keeps.then ?_ (modBar_keeps _ _ _) (by decide)
      refine Keeps.then ?_ (modBar_keeps _ _ _) (by decide)
      refine Keeps.then ?_ (noteDelta_keeps _ _ _) (by decide)
      exact Keeps.refl _ _

theorem inhibitedLine_keeps (b) (n) (s) : Keeps [.log, .net, .jobs, .fire, .links, .cal, .pair] s (inhibitedLine b n s) := by
  unfold inhibitedLine
  refine Keeps.then ?_ (nextPacket_keeps _ _ _) (by decide)
  refine Keeps.then ?_ (finishSlots_keeps _ _ _) (by decide)
  exact Keeps.refl _ _

theorem countInhibited_keeps (b) (s) : Keeps [.fire] s (countInhibited b s) := by
  unfold countInhibited
  refine Keeps.ite (fun _ => ?_) (fun _ => ?_)
  ·
    refine Keeps.then ?_ (modBar_keeps _ _ _) (by decide)
    exact Keeps.refl _ _
  ·
    exact Keeps.refl _ _

theorem takePoint_keeps (b) (n) (s) : Keeps [.log, .net, .jobs, .fire, .links, .cal, .pair] s (takePoint b n s) := by
  unfold takePoint
  refine Keeps.ite (fun _ => ?_) (fun _ => ?_)
  ·
    refine Keeps.ite (fun _ => ?_) (fun _ => ?_)
    ·
      refine Keeps.then ?_ (countInhibited_keeps _ _) (by decide)
      refine Keeps.then ?_ (modBar_keeps _ _ _) (by decide)
      exact Keeps.refl _ _
    ·
      refine Keeps.then ?_ (modBar_keeps _ _ _) (by decide)
      exact Keeps.refl _ _
  ·
    refine Keeps.ite (fun _ => ?_) (fun _ => ?_)
    ·
      refine Keeps.then ?_ (updateOverspeed_keeps _) (by decide)
      refine Keeps.ite (fun _ => ?_) (fun _ => ?_)
      ·
        refine Keeps.then ?_ (countInhibited_keeps _ _) (by decide)
        refine Keeps.then ?_ (modBar_keeps _ _ _) (by decide)
        exact Keeps.refl _ _
      ·
        refine Keeps.then ?_ (modBar_keeps _ _ _) (by decide)
        exact Keeps.refl _ _
    ·
      refine Keeps.then ?_ (updateOverspeed_keeps _) (by decide)
      refine Keeps.ite (fun _ => ?_) (fun _ => ?_)
      ·
        refine Keeps.then ?_ (nextPacket_keeps _ _ _) (by decide)
        refine Keeps.then ?_ (modBar_keeps _ _ _) (by decide)
        refine Keeps.ite (fun _ => ?_) (fun _ => ?_)
        ·
          refine Keeps.then ?_ (countInhibited_keeps _ _) (by decide)
          refine Keeps.then ?_ (modBar_keeps _ _ _) (by decide)
          exact Keeps.refl _ _
        ·
          refine Keeps.then ?_ (modBar_keeps _ _ _) (by decide)
          exact Keeps.refl _ _
      ·
        split
        ·
          refine Keeps.then ?_ (modBar_keeps _ _ _) (by decide)
          refine Keeps.ite (fun _ => ?_) (fun _ => ?_)
          ·
            refine Keeps.then ?_ (countInhibited_keeps _ _) (by decide)
            refine Keeps.then ?_ (modBar_keeps _ _ _) (by decide)
            exact Keeps.refl _ _
          ·
            refine Keeps.then ?_ (modBar_keeps _ _ _) (by decide)
            exact Keeps.refl _ _
        ·
          refine Keeps.ite (fun _ => ?_) (fun _ => ?_)
          ·
            refine Keeps.then ?_ (modBar_keeps _ _ _) (by decide)
            refine Keeps.ite (fun _ => ?_) (fun _ => ?_)
            ·
              refine Keeps.then ?_ (countInhibited_keeps _ _) (by decide)
              refine Keeps.then ?_ (modBar_keeps _ _ _) (by decide)
              exact Keeps.refl _ _
            ·
              refine Keeps.then ?_ (modBar_keeps _ _ _) (by decide)
              exact Keeps.refl _ _
          ·
            refine Keeps.ite (fun _ => ?_) (fun _ => ?_)
            ·
              refine Keeps.then ?_ (inhibitedLine_keeps _ _ _) (by decide)
              refine Keeps.then ?_ (modBar_keeps _ _ _) (by decide)
              refine Keeps.ite (fun _ => ?_) (fun _ => ?_)
              ·
                refine Keeps.then ?_ (countInhibited_keeps _ _) (by decide)
                refine Keeps.then ?_ (modBar_keeps _ _ _) (by decide)
                exact Keeps.refl _ _
              ·
                refine Keeps.then ?_ (modBar_keeps _ _ _) (by decide)
                exact Keeps.refl _ _
            ·
              refine Keeps.then ?_ (handleLine_keeps _ _ _) (by decide)
              refine Keeps.then ?_ (modBar_keeps _ _ _) (by decide)
              refine Keeps.ite (fun _ => ?_) (fun _ => ?_)
              ·
                refine Keeps.then ?_ (countInhibited_keeps _ _) (by decide)
                refine Keeps.then ?_ (modBar_keeps _ _ _) (by decide)
                exact Keeps.refl _ _
              ·
                refine Keeps.then ?_ (modBar_keeps _ _ _) (by decide)
                exact Keeps.refl _ _

theorem handleDue_keeps (b) (s) : Keeps [.log, .net, .jobs, .fire, .links, .cal, .pair] s (handleDue b s) := by
  unfold handleDue
  split
  ·
    exact Keeps.refl _ _
  ·
    refine Keeps.then ?_ (takePoint_keeps _ _ _) (by decide)
    refine Keeps.then ?_ (modBar_keeps _ _ _) (by decide)
    exact Keeps.refl _ _

theorem syncsFirst_keeps (n b s) : Keeps [.log, .net, .jobs, .fire, .links, .cal, .pair] s (syncsFirst n b s) := by
  induction n generalizing s with
  | zero => exact Keeps.refl _ _
  | succ n ih =>
    unfold syncsFirst
    exact (((Keeps.refl _ _).then (insertDue_keeps ..) (by decide)).then (handleDue_keeps ..) (by decide)).then (ih _)
      (by decide)

theorem barsFirst_keeps (bars) (s) : Keeps [.log, .net, .jobs, .fire, .links, .cal, .pair] s (barsFirst bars s) := by
  unfold barsFirst
  refine Keeps.forEach (fun _ _ => ?_) ?_
  ·
    refine Keeps.then ?_ (syncsFirst_keeps _ _ _) (by decide)
    exact Keeps.refl _ _
  ·
    exact Keeps.refl _ _

theorem ownHalt_keeps (bars) (cause) (bits) (s) : Keeps [.mod, .power, .conf, .update, .log, .gov, .net, .jobs, .render, .pos, .fire, .links, .cams, .cal, .axes, .ring, .pair] s (ownHalt bars cause bits s) := by
  unfold ownHalt
  refine Keeps.ite (fun _ => ?_) (fun _ => ?_)
  ·
    exact Keeps.refl _ _
  ·
    refine Keeps.then ?_ (haltBars_keeps _ _ _ _ _) (by decide)
    refine Keeps.forEach (fun _ _ => ?_) ?_
    ·
      refine Keeps.then ?_ (barToken_keeps _ _ _ _ _) (by decide)
      exact Keeps.refl _ _
    ·
      refine Keeps.then ?_ (barsFirst_keeps _ _) (by decide)
      exact Keeps.refl _ _

theorem endPacket_keeps (g) (s) : Keeps [.fire] s (endPacket g s) := by
  unfold endPacket
  refine Keeps.ite (fun _ => ?_) (fun _ => ?_)
  ·
    refine Keeps.then ?_ (putSymbols_keeps _ _ _ _) (by decide)
    exact Keeps.refl _ _
  ·
    exact Keeps.refl _ _

theorem applyDamage_keeps (b) (lane) (cause) (seq) (slots) (s) : Keeps [.mod, .power, .conf, .update, .log, .gov, .net, .jobs, .render, .pos, .fire, .links, .cams, .cal, .axes, .ring, .pair] s (applyDamage b lane cause seq slots s) := by
  unfold applyDamage
  refine Keeps.ite (fun _ => ?_) (fun _ => ?_)
  ·
    refine Keeps.then ?_ (haltBars_keeps _ _ _ _ _) (by decide)
    refine Keeps.then ?_ (barsFirst_keeps _ _) (by decide)
    refine Keeps.forEach (fun _ _ => ?_) ?_
    ·
      refine Keeps.then ?_ (damageSlot_keeps _ _ _ _ _ _) (by decide)
      exact Keeps.refl _ _
    ·
      exact Keeps.refl _ _
  ·
    refine Keeps.forEach (fun _ _ => ?_) ?_
    ·
      refine Keeps.then ?_ (damageSlot_keeps _ _ _ _ _ _) (by decide)
      exact Keeps.refl _ _
    ·
      exact Keeps.refl _ _

theorem ownDamage_keeps (b) (lane) (cause) (seq) (slots) (s) : Keeps [.mod, .power, .conf, .update, .log, .gov, .net, .jobs, .render, .pos, .fire, .links, .cams, .cal, .axes, .ring, .pair] s (ownDamage b lane cause seq slots s) := by
  unfold ownDamage
  refine Keeps.ite (fun _ => ?_) (fun _ => ?_)
  ·
    exact Keeps.refl _ _
  ·
    refine Keeps.then ?_ (applyDamage_keeps _ _ _ _ _ _) (by decide)
    refine Keeps.then ?_ (barToken_keeps _ _ _ _ _) (by decide)
    exact Keeps.refl _ _

theorem linkLost_keeps (k) (s) : Keeps [.mod, .power, .conf, .update, .log, .gov, .net, .jobs, .render, .pos, .fire, .links, .cams, .cal, .axes, .ring, .pair] s (linkLost k s) := by
  unfold linkLost
  refine Keeps.ite (fun _ => ?_) (fun _ => ?_)
  ·
    exact Keeps.refl _ _
  ·
    refine Keeps.ite (fun _ => ?_) (fun _ => ?_)
    ·
      refine Keeps.then ?_ (ownDamage_keeps _ _ _ _ _ _) (by decide)
      exact Keeps.refl _ _
    ·
      refine Keeps.then ?_ (ownHalt_keeps _ _ _ _) (by decide)
      exact Keeps.refl _ _

theorem dropLink_keeps (k) (cause) (s) : Keeps [.mod, .power, .conf, .update, .log, .gov, .net, .jobs, .render, .pos, .fire, .links, .cams, .cal, .axes, .ring, .pair] s (dropLink k cause s) := by
  unfold dropLink
  refine Keeps.ite (fun _ => ?_) (fun _ => ?_)
  ·
    refine Keeps.then ?_ (linkLost_keeps _ _) (by decide)
    refine Keeps.then ?_ (leaveUp_keeps _ _ _) (by decide)
    exact Keeps.refl _ _
  ·
    exact Keeps.refl _ _

end Sys2Proof.Machine
end

