-- ==== Sys2Proof/Laws/KeepsRenderOps.lean ====
section
/-! SUPPORT. What the operations of RenderOps, CalOps, Measure, TimeOps, Cameras, Coast leave alone, and that they keep the invariant. -/
namespace Sys2Proof.Machine
open Sys2Proof

theorem pageEvent_keeps (id) (code) (detail) (s) : Keeps [.log, .net, .jobs] s (pageEvent id code detail s) := by
  unfold pageEvent
  refine Keeps.ite (fun _ => ?_) (fun _ => ?_)
  ·
    exact Keeps.refl _ _
  ·
    refine Keeps.then ?_ (raise_keeps _ _ _) (by decide)
    refine Keeps.then ?_ (modPage_keeps _ _ _) (by decide)
    exact Keeps.refl _ _

theorem startPage_keeps (pg) (s) : Keeps [.log, .net, .jobs, .render, .cal] s (startPage pg s) := by
  unfold startPage
  split
  ·
    exact Keeps.refl _ _
  ·
    refine Keeps.then ?_ (set_render_cal_keeps ..) (by decide)
    refine Keeps.ite (fun _ => ?_) (fun _ => ?_)
    ·
      refine Keeps.ite (fun _ => ?_) (fun _ => ?_)
      ·
        refine Keeps.then ?_ (raise_keeps _ _ _) (by decide)
        refine Keeps.then ?_ (set_render_keeps ..) (by decide)
        refine Keeps.then ?_ (modPage_keeps _ _ _) (by decide)
        exact Keeps.refl _ _
      ·
        refine Keeps.then ?_ (modPage_keeps _ _ _) (by decide)
        exact Keeps.refl _ _
    ·
      refine Keeps.then ?_ (pageEvent_keeps _ _ _ _) (by decide)
      refine Keeps.ite (fun _ => ?_) (fun _ => ?_)
      ·
        refine Keeps.then ?_ (raise_keeps _ _ _) (by decide)
        refine Keeps.then ?_ (set_render_keeps ..) (by decide)
        refine Keeps.then ?_ (modPage_keeps _ _ _) (by decide)
        exact Keeps.refl _ _
      ·
        refine Keeps.then ?_ (modPage_keeps _ _ _) (by decide)
        exact Keeps.refl _ _

theorem undoPage_keeps (id) (s) : Keeps [.jobs] s (undoPage id s) := by
  unfold undoPage
  refine Keeps.then ?_ (modPage_keeps _ _ _) (by decide)
  exact Keeps.refl _ _

theorem evictFor_keeps (need l s) : Keeps [.jobs] s (evictFor need l s) := by
  induction l generalizing s with
  | nil => exact Keeps.refl _ _
  | cons p r ih =>
    unfold evictFor
    refine Keeps.ite (fun _ => Keeps.refl _ _) (fun _ => ?_)
    exact ((Keeps.refl _ _).then (undoPage_keeps ..) (by decide)).then (ih _) (by decide)

theorem tryPage_keeps (pg) (s) : Keeps [.log, .net, .jobs, .render, .cal] s (tryPage pg s) := by
  unfold tryPage
  split
  ·
    exact Keeps.refl _ _
  ·
    refine Keeps.ite (fun _ => ?_) (fun _ => ?_)
    ·
      refine Keeps.then ?_ (startPage_keeps _ _) (by decide)
      refine Keeps.then ?_ (evictFor_keeps _ _ _) (by decide)
      exact Keeps.refl _ _
    ·
      refine Keeps.then ?_ (evictFor_keeps _ _ _) (by decide)
      exact Keeps.refl _ _

theorem checkStart_keeps (pg s) : Keeps [.log, .net, .jobs] s (checkStart pg s).2 := by
  unfold checkStart
  split
  · exact Keeps.refl _ _
  · split
    · exact (Keeps.refl _ _).then (pageEvent_keeps ..) (by decide)
    · split
      · exact (Keeps.refl _ _).then (pageEvent_keeps ..) (by decide)
      · exact Keeps.refl _ _

theorem renderAgain_keeps (l s) : Keeps [.log, .net, .jobs, .render, .cal] s (renderAgain l s) := by
  induction l generalizing s with
  | nil => exact Keeps.refl _ _
  | cons p r ih =>
    unfold renderAgain
    split
    · refine Keeps.ite (fun _ => ?_) (fun _ => ?_)
      · exact ((Keeps.refl _ _).then (checkStart_keeps ..) (by decide)).then (tryPage_keeps ..) (by decide)
      · exact ((Keeps.refl _ _).then (checkStart_keeps ..) (by decide)).then (ih _) (by decide)
    · exact ih _

theorem startStrip_keeps (n) (id) (p) (s) : Keeps [.jobs, .render, .cal] s (startStrip n id p s) := by
  unfold startStrip
  split
  ·
    exact Keeps.refl _ _
  ·
    refine Keeps.then ?_ (set_render_cal_keeps ..) (by decide)
    refine Keeps.then ?_ (modArmed_keeps _ _) (by decide)
    exact Keeps.refl _ _

theorem deferMarks_keeps (n) (left) (s) : Keeps [.log, .net] s (deferMarks n left s) := by
  unfold deferMarks
  refine Keeps.forEach (fun _ _ => ?_) ?_
  ·
    refine Keeps.then ?_ (raiseLimited_keeps _ _ _ _ _) (by decide)
    exact Keeps.refl _ _
  ·
    exact Keeps.refl _ _

theorem renderNext_keeps (l s) : Keeps [.log, .net, .jobs, .render, .cal] s (renderNext l s) := by
  induction l generalizing s with
  | nil => exact Keeps.refl _ _
  | cons p r ih =>
    unfold renderNext
    split
    · refine Keeps.ite (fun _ => ?_) (fun _ => ?_)
      · refine Keeps.ite (fun _ => Keeps.refl _ _) (fun _ => ?_)
        refine Keeps.ite (fun _ => ?_) (fun _ => ?_)
        · exact ((Keeps.refl _ _).then (checkStart_keeps ..) (by decide)).then (tryPage_keeps ..) (by decide)
        · exact ((Keeps.refl _ _).then (checkStart_keeps ..) (by decide)).then (ih _) (by decide)
      · refine Keeps.ite (fun _ => ?_) (fun _ => ih _)
        have h1 (n left) : Keeps [.log, .net, .jobs, .render, .cal] s (deferMarks n left s) :=
          (Keeps.refl _ _).then (deferMarks_keeps ..) (by decide)
        refine Keeps.ite (fun _ => ?_) (fun _ => ?_)
        · exact ((h1 _ _).then (passStrips_keeps ..) (by decide)).then (ih _) (by decide)
        · refine Keeps.ite (fun _ => ?_) (fun _ => h1 _ _)
          exact ((h1 _ _).then (passStrips_keeps ..) (by decide)).then (startStrip_keeps ..) (by decide)
    · exact ih _

theorem startNext_keeps (s) : Keeps [.log, .net, .jobs, .render, .cal] s (startNext s) := by
  unfold startNext
  refine Keeps.ite (fun _ => ?_) (fun _ => ?_)
  ·
    exact Keeps.refl _ _
  ·
    refine Keeps.ite (fun _ => ?_) (fun _ => ?_)
    ·
      refine Keeps.then ?_ (renderNext_keeps _ _) (by decide)
      exact Keeps.refl _ _
    ·
      refine Keeps.then ?_ (renderAgain_keeps _ _) (by decide)
      refine Keeps.then ?_ (renderNext_keeps _ _) (by decide)
      exact Keeps.refl _ _

theorem beginSeal_keeps (s) : Keeps [.jobs] s (beginSeal s) := by
  unfold beginSeal
  refine Keeps.ite (fun _ => ?_) (fun _ => ?_)
  ·
    refine Keeps.then ?_ (set_jobs_keeps ..) (by decide)
    exact Keeps.refl _ _
  ·
    exact Keeps.refl _ _

theorem takeUp_keeps (s) : Keeps [.log, .net, .jobs, .render, .cal] s (takeUp s) := by
  unfold takeUp
  refine Keeps.ite (fun _ => ?_) (fun _ => ?_)
  ·
    exact Keeps.refl _ _
  ·
    refine Keeps.ite (fun _ => ?_) (fun _ => ?_)
    ·
      refine Keeps.then ?_ (set_render_keeps ..) (by decide)
      refine Keeps.then ?_ (startNext_keeps _) (by decide)
      exact Keeps.refl _ _
    ·
      refine Keeps.then ?_ (startNext_keeps _) (by decide)
      exact Keeps.refl _ _

theorem beginRerender_keeps (s) : Keeps [.jobs, .cal] s (beginRerender s) := by
  unfold beginRerender
  split
  ·
    exact Keeps.refl _ _
  ·
    refine Keeps.ite (fun _ => ?_) (fun _ => ?_)
    ·
      exact Keeps.refl _ _
    ·
      refine Keeps.then ?_ (set_cal_keeps ..) (by decide)
      refine Keeps.forEach (fun _ _ => ?_) ?_
      ·
        refine Keeps.then ?_ (undoPage_keeps _ _) (by decide)
        exact Keeps.refl _ _
      ·
        refine Keeps.then ?_ (modArmed_keeps _ _) (by decide)
        exact Keeps.refl _ _

theorem applyTap_keeps (e) (v) (s) : Keeps [.log, .net, .jobs, .cams, .cal] s (applyTap e v s) := by
  unfold applyTap
  refine Keeps.ite (fun _ => ?_) (fun _ => ?_)
  ·
    refine Keeps.ite (fun _ => ?_) (fun _ => ?_)
    ·
      refine Keeps.then ?_ (set_cal_keeps ..) (by decide)
      exact Keeps.refl _ _
    ·
      refine Keeps.then ?_ (beginRerender_keeps _) (by decide)
      refine Keeps.then ?_ (installValue_keeps _ _ _) (by decide)
      exact Keeps.refl _ _
  ·
    refine Keeps.ite (fun _ => ?_) (fun _ => ?_)
    ·
      refine Keeps.then ?_ (set_cal_keeps ..) (by decide)
      refine Keeps.then ?_ (putValue_keeps _ _ _) (by decide)
      exact Keeps.refl _ _
    ·
      refine Keeps.then ?_ (installValue_keeps _ _ _) (by decide)
      exact Keeps.refl _ _

theorem answerRunNow_keeps (e) (accepted) (s) : Keeps [.cal] s (answerRunNow e accepted s) := by
  unfold answerRunNow
  refine Keeps.then ?_ (set_cal_keeps ..) (by decide)
  exact Keeps.refl _ _

theorem sendTap_keeps (e) (v) (s) : Keeps [.log, .net, .jobs, .cams, .cal, .pair] s (sendTap e v s) := by
  unfold sendTap
  refine onAck_then _ _ _ (by decide) (fun _ => ?_) ?_
  ·
    refine Keeps.then ?_ (applyTap_keeps _ _ _) (by decide)
    exact Keeps.refl _ _
  ·
    refine Keeps.forEach (fun _ _ => ?_) ?_
    ·
      refine Keeps.then ?_ (sendToken_keeps _ _ _) (by decide)
      exact Keeps.refl _ _
    ·
      exact Keeps.refl _ _

theorem settleRunNow_keeps (s) : Keeps [.net, .cal, .pair] s (settleRunNow s) := by
  unfold settleRunNow
  refine Keeps.forEach (fun _ _ => ?_) ?_
  ·
    refine Keeps.then ?_ (finishResult_keeps _ _ _) (by decide)
    exact Keeps.refl _ _
  ·
    refine Keeps.then ?_ (set_cal_keeps ..) (by decide)
    exact Keeps.refl _ _

theorem nextRerender_keeps (s) : Keeps [.log, .net, .jobs, .cams, .cal] s (nextRerender s) := by
  unfold nextRerender
  refine Keeps.ite (fun _ => ?_) (fun _ => ?_)
  ·
    exact Keeps.refl _ _
  ·
    refine Keeps.then ?_ (beginRerender_keeps _) (by decide)
    refine Keeps.forEach (fun _ _ => ?_) ?_
    ·
      refine Keeps.then ?_ (installValue_keeps _ _ _) (by decide)
      exact Keeps.refl _ _
    ·
      refine Keeps.then ?_ (set_cal_keeps ..) (by decide)
      exact Keeps.refl _ _

theorem keepOld_keeps (id) (s) : Keeps [.jobs, .cal] s (keepOld id s) := by
  unfold keepOld
  refine Keeps.ite (fun _ => ?_) (fun _ => ?_)
  ·
    refine Keeps.then ?_ (undoPage_keeps _ _) (by decide)
    refine Keeps.then ?_ (set_cal_keeps ..) (by decide)
    exact Keeps.refl _ _
  ·
    exact Keeps.refl _ _

theorem acceptValue_keeps (e) (p) (slot) (s) : Keeps [.log, .net, .jobs, .cams, .cal, .pair] s (acceptValue e p slot s) := by
  unfold acceptValue
  refine Keeps.then ?_ (sendTap_keeps _ _ _) (by decide)
  refine Keeps.then ?_ (dropHeld_keeps _ _) (by decide)
  refine Keeps.then ?_ (set_cal_keeps ..) (by decide)
  refine Keeps.then ?_ (modKinds_keeps _ _ _) (by decide)
  refine Keeps.ite (fun _ => ?_) (fun _ => ?_)
  ·
    exact Keeps.refl _ _
  ·
    refine Keeps.then ?_ (raise_keeps _ _ _) (by decide)
    exact Keeps.refl _ _

theorem holdProposal_keeps (e) (p) (gen) (marked) (s) : Keeps [.cal] s (holdProposal e p gen marked s) := by
  unfold holdProposal
  refine Keeps.then ?_ (set_cal_keeps ..) (by decide)
  exact Keeps.refl _ _

theorem noteDisagreement_keeps (e) (s) : Keeps [.log, .net, .cal] s (noteDisagreement e s) := by
  unfold noteDisagreement
  refine Keeps.ite (fun _ => ?_) (fun _ => ?_)
  ·
    refine Keeps.then ?_ (raise_keeps _ _ _) (by decide)
    refine Keeps.then ?_ (modKinds_keeps _ _ _) (by decide)
    refine Keeps.then ?_ (set_cal_keeps ..) (by decide)
    exact Keeps.refl _ _
  ·
    refine Keeps.then ?_ (modKinds_keeps _ _ _) (by decide)
    refine Keeps.then ?_ (set_cal_keeps ..) (by decide)
    exact Keeps.refl _ _

theorem takeProposal_keeps (e p gen slot marked s) : Keeps [.log, .net, .jobs, .cams, .cal, .pair] s (takeProposal e p gen slot marked s).2 := by
  have h0 (f) : Keeps [.log, .net, .jobs, .cams, .cal, .pair] s (modKinds (2 ^ e.kind) f s) := (Keeps.refl _ _).then (modKinds_keeps ..) (by decide)
  unfold takeProposal
  dsimp only
  split
  · split
    · dsimp only; exact (h0 _).then (acceptValue_keeps ..) (by decide)
    · dsimp only; exact h0 _
  · split
    · dsimp only; exact (h0 _).then (holdProposal_keeps ..) (by decide)
    · split
      · split
        · dsimp only; exact (h0 _).then (acceptValue_keeps ..) (by decide)
        · dsimp only; exact Keeps.ite (fun _ => (h0 _).then (holdProposal_keeps ..) (by decide)) (fun _ => h0 _)
      · dsimp only; exact ((h0 _).then (holdProposal_keeps ..) (by decide)).then (noteDisagreement_keeps ..) (by decide)

theorem tallyOne_keeps (r m a x) : Keeps [.log, .net, .jobs, .cams, .cal, .pair] a.state (tallyOne r m a x).state := by
  unfold tallyOne
  split
  · dsimp only; exact (Keeps.refl _ _).then (modKinds_keeps ..) (by decide)
  · have h := takeProposal_keeps x.1 x.2 r.generation m.slot (r.marks ≠ 0) a.state
    split <;> rename_i heq <;> rw [heq] at h
    · dsimp only; exact (Keeps.then (Keeps.refl _ _) h (by decide)).then (answerRunNow_keeps ..) (by decide)
    · dsimp only; exact (Keeps.then (Keeps.refl _ _) h (by decide)).then (answerRunNow_keeps ..) (by decide)
    · dsimp only; exact Keeps.then (Keeps.refl _ _) h (by decide)

theorem tallyEvents_keeps (slot a) : Keeps [.log, .net, .cal] a.state (tallyEvents slot a) := by
  unfold tallyEvents
  refine Keeps.forEach (fun _ _ => ?_) ?_
  · dsimp only
    refine Keeps.ite (fun _ => Keeps.refl _ _) (fun _ => ?_)
    exact ((Keeps.refl _ _).then (set_cal_keeps ..) (by decide)).then (raise_keeps ..) (by decide)
  · refine Keeps.forEach (fun _ _ => ?_) (Keeps.refl _ _)
    exact (Keeps.refl _ _).then (raise_keeps ..) (by decide)

theorem measureMark_keeps (r s m) : Keeps [.log, .net, .jobs, .cams, .cal, .pair] s (measureMark r s m) := by
  have h (l : List (Element × List Int)) (a : Tally) : Keeps [.log, .net, .jobs, .cams, .cal, .pair] a.state (l.foldl (tallyOne r m) a).state := by
    induction l generalizing a with
    | nil => exact Keeps.refl _ _
    | cons x l ih => exact Keeps.then ((Keeps.refl _ _).then (tallyOne_keeps r m a x) (by decide)) (ih _) (by decide)
  unfold measureMark
  have h' := h (markProposals s r m) { accepted := [], disagreed := [], state := s }
  exact Keeps.ite (fun _ => h') (fun _ => h'.then (tallyEvents_keeps ..) (by decide))

theorem measureFrame_keeps (r) (s) : Keeps [.free, .log, .net, .jobs, .cams, .cal, .pair] s (measureFrame r s) := by
  unfold measureFrame
  refine Keeps.ite (fun _ => ?_) (fun _ => ?_)
  ·
    exact Keeps.refl _ _
  ·
    refine Keeps.then ?_ (settleRunNow_keeps _) (by decide)
    refine Keeps.foldl' (fun _ _ => ?_) ?_
    ·
      refine Keeps.then ?_ (measureMark_keeps _ _ _) (by decide)
      exact Keeps.refl _ _
    ·
      refine Keeps.then ?_ (drawFree_keeps _) (by decide)
      exact Keeps.refl _ _

theorem settleChange_keeps (s) : Keeps [.time] s (settleChange s) := by
  unfold settleChange
  split
  ·
    exact Keeps.refl _ _
  ·
    refine Keeps.ite (fun _ => ?_) (fun _ => ?_)
    ·
      refine Keeps.then ?_ (set_time_keeps ..) (by decide)
      exact Keeps.refl _ _
    ·
      exact Keeps.refl _ _

theorem writeChange_keeps (step) (rate) (s) : Keeps [.time] s (writeChange step rate s) := by
  unfold writeChange
  refine Keeps.then ?_ (set_time_keeps ..) (by decide)
  refine Keeps.then ?_ (settleChange_keeps _) (by decide)
  exact Keeps.refl _ _

theorem servoStep_keeps (o) (s) : Keeps [.log, .net, .time] s (servoStep o s) := by
  unfold servoStep
  refine Keeps.ite (fun _ => ?_) (fun _ => ?_)
  ·
    refine Keeps.then ?_ (raise_keeps _ _ _) (by decide)
    refine Keeps.then ?_ (writeChange_keeps _ _ _) (by decide)
    refine Keeps.then ?_ (set_time_keeps ..) (by decide)
    refine Keeps.then ?_ (settleChange_keeps _) (by decide)
    refine Keeps.then ?_ (set_time_keeps ..) (by decide)
    exact Keeps.refl _ _
  ·
    refine Keeps.then ?_ (writeChange_keeps _ _ _) (by decide)
    refine Keeps.then ?_ (set_time_keeps ..) (by decide)
    refine Keeps.then ?_ (settleChange_keeps _) (by decide)
    refine Keeps.then ?_ (set_time_keeps ..) (by decide)
    exact Keeps.refl _ _

theorem stateAfter_keeps (o) (s) : Keeps [.log, .net, .time] s (stateAfter o s) := by
  unfold stateAfter
  try dsimp only
  split
  ·
    refine Keeps.then ?_ (set_time_keeps ..) (by decide)
    refine Keeps.then ?_ (setTimeState_keeps _ _) (by decide)
    exact Keeps.refl _ _
  ·
    refine Keeps.then ?_ (set_time_keeps ..) (by decide)
    refine Keeps.then ?_ (setTimeState_keeps _ _) (by decide)
    exact Keeps.refl _ _
  ·
    refine Keeps.ite (fun _ => ?_) (fun _ => ?_)
    ·
      refine Keeps.then ?_ (setTimeState_keeps _ _) (by decide)
      exact Keeps.refl _ _
    ·
      refine Keeps.then ?_ (set_time_keeps ..) (by decide)
      exact Keeps.refl _ _
  ·
    refine Keeps.ite (fun _ => ?_) (fun _ => ?_)
    ·
      refine Keeps.then ?_ (setTimeState_keeps _ _) (by decide)
      exact Keeps.refl _ _
    ·
      exact Keeps.refl _ _

theorem measureOffset_keeps (offset) (s) : Keeps [.log, .net, .time] s (measureOffset offset s) := by
  unfold measureOffset
  refine Keeps.then ?_ (stateAfter_keeps _ _) (by decide)
  refine Keeps.then ?_ (servoStep_keeps _ _) (by decide)
  exact Keeps.refl _ _

theorem countLate_keeps (o) (dropped) (s) : Keeps [.log, .net, .time] s (countLate o dropped s) := by
  unfold countLate
  refine Keeps.then ?_ (raiseLimited_keeps _ _ _ _ _) (by decide)
  refine Keeps.then ?_ (modOut_keeps _ _ _) (by decide)
  exact Keeps.refl _ _

theorem pulseOut_keeps (o) (widthNs) (s) : Keeps [.time] s (pulseOut o widthNs s) := by
  unfold pulseOut
  refine Keeps.then ?_ (modOut_keeps _ _ _) (by decide)
  exact Keeps.refl _ _

theorem freeTime_keeps (s) : Keeps [.log, .net, .time] s (freeTime s) := by
  unfold freeTime
  refine Keeps.then ?_ (setTimeState_keeps _ _) (by decide)
  refine Keeps.ite (fun _ => ?_) (fun _ => ?_)
  ·
    exact Keeps.refl _ _
  ·
    refine Keeps.then ?_ (writeChange_keeps _ _ _) (by decide)
    exact Keeps.refl _ _

theorem reportInspection_keeps (x) (s) : Keeps [.log, .net, .pair] s (reportInspection x s) := by
  unfold reportInspection
  refine Keeps.then ?_ (raise_keeps _ _ _) (by decide)
  refine Keeps.then ?_ (unsolicited_keeps _ _) (by decide)
  exact Keeps.refl _ _

theorem slotSeen_keeps (n) (s) : Keeps [.log, .net, .jobs, .pair] s (slotSeen n s) := by
  unfold slotSeen
  split
  ·
    refine Keeps.ite (fun _ => ?_) (fun _ => ?_)
    ·
      refine Keeps.ite (fun _ => ?_) (fun _ => ?_)
      ·
        refine Keeps.then ?_ (reportInspection_keeps _ _) (by decide)
        exact Keeps.refl _ _
      ·
        exact Keeps.refl _ _
    ·
      refine Keeps.then ?_ (dropReference_keeps _ _) (by decide)
      refine Keeps.ite (fun _ => ?_) (fun _ => ?_)
      ·
        refine Keeps.then ?_ (reportInspection_keeps _ _) (by decide)
        exact Keeps.refl _ _
      ·
        exact Keeps.refl _ _
  ·
    exact Keeps.refl _ _

theorem inspectFrame_keeps (r) (s) : Keeps [.log, .net, .jobs, .cal, .pair] s (inspectFrame r s) := by
  unfold inspectFrame
  split
  ·
    exact Keeps.refl _ _
  ·
    refine Keeps.ite (fun _ => ?_) (fun _ => ?_)
    ·
      exact Keeps.refl _ _
    ·
      refine Keeps.forEach (fun _ _ => ?_) ?_
      ·
        refine Keeps.then ?_ (slotSeen_keeps _ _) (by decide)
        exact Keeps.refl _ _
      ·
        refine Keeps.then ?_ (set_cal_keeps ..) (by decide)
        exact Keeps.refl _ _

theorem strobePulse_keeps (c) (out) (width) (line) (s) : Keeps [.cams, .time] s (strobePulse c out width line s) := by
  unfold strobePulse
  refine Keeps.ite (fun _ => ?_) (fun _ => ?_)
  ·
    refine Keeps.then ?_ (modCam_keeps _ _ _) (by decide)
    exact Keeps.refl _ _
  ·
    refine Keeps.then ?_ (pulseOut_keeps _ _ _) (by decide)
    refine Keeps.then ?_ (modCam_keeps _ _ _) (by decide)
    exact Keeps.refl _ _

theorem genTaken_keeps (c) (gen) (s) : Keeps [.cams] s (genTaken c gen s) := by
  unfold genTaken
  refine Keeps.then ?_ (modCam_keeps _ _ _) (by decide)
  exact Keeps.refl _ _

theorem issueCommand_keeps (c) (gen) (exposure) (gain) (s) : Keeps [.cams] s (issueCommand c gen exposure gain s) := by
  unfold issueCommand
  refine Keeps.ite (fun _ => ?_) (fun _ => ?_)
  ·
    refine Keeps.then ?_ (genTaken_keeps _ _ _) (by decide)
    exact Keeps.refl _ _
  ·
    refine Keeps.then ?_ (modCam_keeps _ _ _) (by decide)
    refine Keeps.then ?_ (genTaken_keeps _ _ _) (by decide)
    exact Keeps.refl _ _

theorem noteRecord_keeps (r) (s) : Keeps [.cams] s (noteRecord r s) := by
  unfold noteRecord
  refine Keeps.then ?_ (modCam_keeps _ _ _) (by decide)
  exact Keeps.refl _ _

theorem captureResult_keeps (body) (s) : Keeps [.net, .pair] s (captureResult body s) := by
  unfold captureResult
  refine Keeps.ite (fun _ => ?_) (fun _ => ?_)
  ·
    refine Keeps.then ?_ (settleResult_keeps _ _) (by decide)
    refine Keeps.then ?_ (set_net_keeps ..) (by decide)
    refine Keeps.then ?_ (addPending_keeps _ _ _) (by decide)
    refine Keeps.then ?_ (set_net_keeps ..) (by decide)
    exact Keeps.refl _ _
  ·
    refine Keeps.then ?_ (unsolicited_keeps _ _) (by decide)
    exact Keeps.refl _ _

theorem takeRawTap_keeps (c) (r) (raw) (o) (s) : Keeps [.free, .log, .net, .cams, .pair] s (takeRawTap c r raw o s) := by
  unfold takeRawTap
  refine Keeps.ite (fun _ => ?_) (fun _ => ?_)
  ·
    exact Keeps.refl _ _
  ·
    refine Keeps.ite (fun _ => ?_) (fun _ => ?_)
    ·
      refine Keeps.then ?_ (modCam_keeps _ _ _) (by decide)
      exact Keeps.refl _ _
    ·
      refine Keeps.then ?_ (raise_keeps _ _ _) (by decide)
      refine Keeps.then ?_ (captureResult_keeps _ _) (by decide)
      refine Keeps.then ?_ (drawFree_keeps _) (by decide)
      exact Keeps.refl _ _

theorem sendRecord_keeps (r) (s) : Keeps [.pair] s (sendRecord r s) := by
  unfold sendRecord
  refine Keeps.ite (fun _ => ?_) (fun _ => ?_)
  ·
    exact Keeps.refl _ _
  ·
    refine Keeps.forEach (fun _ _ => ?_) ?_
    ·
      refine Keeps.then ?_ (sendPartner_keeps _ _ _) (by decide)
      exact Keeps.refl _ _
    ·
      exact Keeps.refl _ _

theorem takeBlank_keeps (r) (s) : Keeps [.free, .log, .net, .jobs, .cams, .cal, .pair] s (takeBlank r s) := by
  unfold takeBlank
  try dsimp only
  split
  ·
    refine Keeps.then ?_ (modCam_keeps _ _ _) (by decide)
    exact Keeps.refl _ _
  ·
    refine Keeps.then ?_ (measureFrame_keeps _ _) (by decide)
    refine Keeps.then ?_ (modCam_keeps _ _ _) (by decide)
    exact Keeps.refl _ _

theorem startCommand_keeps (c) (gen) (exposure) (gain) (s) : Keeps [.cams, .pair] s (startCommand c gen exposure gain s) := by
  unfold startCommand
  refine Keeps.ite (fun _ => ?_) (fun _ => ?_)
  ·
    exact Keeps.refl _ _
  ·
    refine onAck_then _ _ _ (by decide) (fun _ => ?_) ?_
    ·
      refine Keeps.then ?_ (issueCommand_keeps _ _ _ _ _) (by decide)
      exact Keeps.refl _ _
    ·
      refine Keeps.then ?_ (genTaken_keeps _ _ _) (by decide)
      exact Keeps.refl _ _

theorem exposeFrame_keeps (r) (s) : Keeps [.cams, .pair] s (exposeFrame r s) := by
  unfold exposeFrame
  try dsimp only
  split
  ·
    exact Keeps.refl _ _
  ·
    split
    ·
      exact Keeps.refl _ _
    ·
      refine Keeps.ite (fun _ => ?_) (fun _ => ?_)
      ·
        exact Keeps.refl _ _
      ·
        refine Keeps.then ?_ (startCommand_keeps _ _ _ _ _) (by decide)
        refine Keeps.then ?_ (modCam_keeps _ _ _) (by decide)
        exact Keeps.refl _ _

theorem useRecord_keeps (r) (s) : Keeps [.free, .log, .net, .jobs, .cams, .cal, .pair] s (useRecord r s) := by
  unfold useRecord
  refine Keeps.ite (fun _ => ?_) (fun _ => ?_)
  ·
    exact Keeps.refl _ _
  ·
    refine Keeps.ite (fun _ => ?_) (fun _ => ?_)
    ·
      refine Keeps.then ?_ (inspectFrame_keeps _ _) (by decide)
      exact Keeps.refl _ _
    ·
      refine Keeps.then ?_ (inspectFrame_keeps _ _) (by decide)
      refine Keeps.then ?_ (exposeFrame_keeps _ _) (by decide)
      refine Keeps.then ?_ (takeBlank_keeps _ _) (by decide)
      refine Keeps.then ?_ (measureFrame_keeps _ _) (by decide)
      exact Keeps.refl _ _

theorem takeTag_keeps (c) (fr) (s) : Keeps [.log, .net, .cams] s (takeTag c fr s) := by
  unfold takeTag
  split
  ·
    exact Keeps.refl _ _
  ·
    try dsimp only
    split
    ·
      refine Keeps.ite (fun _ => ?_) (fun _ => ?_)
      ·
        refine Keeps.then ?_ (modCam_keeps _ _ _) (by decide)
        exact Keeps.refl _ _
      ·
        refine Keeps.then ?_ (raiseLimited_keeps _ _ _ _ _) (by decide)
        refine Keeps.then ?_ (modCam_keeps _ _ _) (by decide)
        exact Keeps.refl _ _
    ·
      refine Keeps.then ?_ (modCam_keeps _ _ _) (by decide)
      exact Keeps.refl _ _

theorem finishFrame_keeps (c) (fr) (s) : Keeps [.free, .log, .net, .jobs, .cams, .cal, .pair] s (finishFrame c fr s) := by
  unfold finishFrame
  refine Keeps.then ?_ (useRecord_keeps _ _) (by decide)
  refine Keeps.then ?_ (sendRecord_keeps _ _) (by decide)
  refine Keeps.then ?_ (takeRawTap_keeps _ _ _ _ _) (by decide)
  refine Keeps.then ?_ (modCam_keeps _ _ _) (by decide)
  refine Keeps.then ?_ (takeTag_keeps _ _ _) (by decide)
  exact Keeps.refl _ _

theorem finishEnded_keeps (c) (s) : Keeps [.free, .log, .net, .jobs, .cams, .cal, .pair] s (finishEnded c s) := by
  unfold finishEnded
  split
  ·
    exact Keeps.refl _ _
  ·
    refine Keeps.then ?_ (finishFrame_keeps _ _ _) (by decide)
    exact Keeps.refl _ _

theorem endFrame_keeps (c) (s) : Keeps [.free, .log, .net, .jobs, .cams, .cal, .pair] s (endFrame c s) := by
  unfold endFrame
  split
  ·
    exact Keeps.refl _ _
  ·
    refine Keeps.ite (fun _ => ?_) (fun _ => ?_)
    ·
      refine Keeps.then ?_ (finishEnded_keeps _ _) (by decide)
      refine Keeps.then ?_ (modCam_keeps _ _ _) (by decide)
      exact Keeps.refl _ _
    ·
      refine Keeps.then ?_ (modCam_keeps _ _ _) (by decide)
      exact Keeps.refl _ _

theorem execCameraFrameEnd_keeps (t) (port) (why) (s) : KeepsO [.free, .log, .net, .jobs, .cams, .cal, .pair] (beginAt t s) (execCameraFrameEnd t port why s) := by
  unfold execCameraFrameEnd
  try dsimp only
  split
  ·
    refine KeepsO.next ?_
    exact Keeps.refl _ _
  ·
    refine KeepsO.next ?_
    refine Keeps.ite (fun _ => ?_) (fun _ => ?_)
    ·
      refine Keeps.then ?_ (endFrame_keeps _ _) (by decide)
      exact Keeps.refl _ _
    ·
      exact Keeps.refl _ _

theorem discoveryFailed_keeps (c) (s) : Keeps [.cams] s (discoveryFailed c s) := by
  unfold discoveryFailed
  refine Keeps.then ?_ (modCam_keeps _ _ _) (by decide)
  exact Keeps.refl _ _

theorem writeFailed_keeps (c) (k) (s) : Keeps [.log, .net, .cams, .pair] s (writeFailed c k s) := by
  unfold writeFailed
  refine Keeps.then ?_ (startCommand_keeps _ _ _ _ _) (by decide)
  refine Keeps.then ?_ (raise_keeps _ _ _) (by decide)
  refine Keeps.then ?_ (modCam_keeps _ _ _) (by decide)
  exact Keeps.refl _ _

theorem writeSettings_keeps (c) (k) (s) : Keeps [] s (writeSettings c k s) := by
  unfold writeSettings
  refine Keeps.ite (fun _ => ?_) (fun _ => ?_)
  ·
    refine Keeps.ite (fun _ => ?_) (fun _ => ?_)
    ·
      exact Keeps.refl _ _
    ·
      refine Keeps.then ?_ (emit_keeps _ _) (by decide)
      exact Keeps.refl _ _
  ·
    refine Keeps.then ?_ (emit_keeps _ _) (by decide)
    refine Keeps.ite (fun _ => ?_) (fun _ => ?_)
    ·
      exact Keeps.refl _ _
    ·
      refine Keeps.then ?_ (emit_keeps _ _) (by decide)
      exact Keeps.refl _ _

theorem commitCommands_keeps (c) (j) (s) : Keeps [.cams] s (commitCommands c j s) := by
  unfold commitCommands
  try dsimp only
  split
  ·
    refine Keeps.forEach (fun _ _ => ?_) ?_
    ·
      refine Keeps.then ?_ (writeSettings_keeps _ _ _) (by decide)
      exact Keeps.refl _ _
    ·
      exact Keeps.refl _ _
  ·
    refine Keeps.then ?_ (modCam_keeps _ _ _) (by decide)
    refine Keeps.forEach (fun _ _ => ?_) ?_
    ·
      refine Keeps.then ?_ (writeSettings_keeps _ _ _) (by decide)
      exact Keeps.refl _ _
    ·
      exact Keeps.refl _ _

theorem execCameraRetry_keeps (t) (port) (s) : KeepsO [.cams] (beginAt t s) (execCameraRetry t port s) := by
  unfold execCameraRetry
  refine KeepsO.next ?_
  refine Keeps.ite (fun _ => ?_) (fun _ => ?_)
  ·
    refine Keeps.then ?_ (modCam_keeps _ _ _) (by decide)
    exact Keeps.refl _ _
  ·
    exact Keeps.refl _ _

theorem noteStrobe_keeps (c) (skipped) (s) : Keeps [.cams] s (noteStrobe c skipped s) := by
  unfold noteStrobe
  refine Keeps.ite (fun _ => ?_) (fun _ => ?_)
  ·
    refine Keeps.then ?_ (modCam_keeps _ _ _) (by decide)
    exact Keeps.refl _ _
  ·
    refine Keeps.then ?_ (modCam_keeps _ _ _) (by decide)
    exact Keeps.refl _ _

theorem execCameraPacket_keeps (t) (port) (conn) (p) (s) : KeepsO [.cams] (beginAt t s) (execCameraPacket t port conn p s) := by
  unfold execCameraPacket
  try dsimp only
  split
  ·
    refine KeepsO.next ?_
    refine Keeps.ite (fun _ => ?_) (fun _ => ?_)
    ·
      exact Keeps.refl _ _
    ·
      refine Keeps.then ?_ (modCam_keeps _ _ _) (by decide)
      exact Keeps.refl _ _
  ·
    refine KeepsO.next ?_
    refine Keeps.ite (fun _ => ?_) (fun _ => ?_)
    ·
      exact Keeps.refl _ _
    ·
      refine Keeps.then ?_ (modCam_keeps _ _ _) (by decide)
      exact Keeps.refl _ _
  ·
    refine KeepsO.next ?_
    refine Keeps.ite (fun _ => ?_) (fun _ => ?_)
    ·
      exact Keeps.refl _ _
    ·
      refine Keeps.ite (fun _ => ?_) (fun _ => ?_)
      ·
        refine Keeps.then ?_ (modCam_keeps _ _ _) (by decide)
        exact Keeps.refl _ _
      ·
        refine Keeps.then ?_ (modCam_keeps _ _ _) (by decide)
        exact Keeps.refl _ _

theorem execCameraDown_keeps (t) (port) (conn) (cause) (s) : KeepsO [.free, .log, .net, .jobs, .cams, .cal, .pair] (beginAt t s) (execCameraDown t port conn cause s) := by
  unfold execCameraDown
  refine KeepsO.ite (fun _ => ?_) (fun _ => ?_)
  ·
    refine KeepsO.next ?_
    exact Keeps.refl _ _
  ·
    refine KeepsO.next ?_
    refine Keeps.then ?_ (modCam_keeps _ _ _) (by decide)
    refine Keeps.then ?_ (raise_keeps _ _ _) (by decide)
    refine Keeps.then ?_ (finishEnded_keeps _ _) (by decide)
    refine Keeps.then ?_ (endFrame_keeps _ _) (by decide)
    exact Keeps.refl _ _

theorem sendTrigger_keeps (c) (s) : Keeps [.free, .time] s (sendTrigger c s) := by
  unfold sendTrigger
  refine Keeps.ite (fun _ => ?_) (fun _ => ?_)
  ·
    refine Keeps.then ?_ (pulseOut_keeps _ _ _) (by decide)
    exact Keeps.refl _ _
  ·
    refine Keeps.then ?_ (drawFree_keeps _) (by decide)
    refine Keeps.then ?_ (emit_keeps _ _) (by decide)
    exact Keeps.refl _ _

theorem enterReady_keeps (c) (rate) (s) : Keeps [.log, .net, .cams] s (enterReady c rate s) := by
  unfold enterReady
  refine Keeps.then ?_ (raise_keeps _ _ _) (by decide)
  refine Keeps.then ?_ (modCam_keeps _ _ _) (by decide)
  refine Keeps.then ?_ (writeSettings_keeps _ _ _) (by decide)
  exact Keeps.refl _ _

theorem execCameraDiscovery_keeps (t) (port) (d) (s) : KeepsO [.log, .net, .cams] (beginAt t s) (execCameraDiscovery t port d s) := by
  unfold execCameraDiscovery
  refine KeepsO.ite (fun _ => ?_) (fun _ => ?_)
  ·
    refine KeepsO.next ?_
    exact Keeps.refl _ _
  ·
    refine KeepsO.ite (fun _ => ?_) (fun _ => ?_)
    ·
      refine KeepsO.next ?_
      refine Keeps.then ?_ (discoveryFailed_keeps _ _) (by decide)
      refine Keeps.then ?_ (raise_keeps _ _ _) (by decide)
      exact Keeps.refl _ _
    ·
      refine KeepsO.ite (fun _ => ?_) (fun _ => ?_)
      ·
        refine KeepsO.next ?_
        refine Keeps.then ?_ (enterReady_keeps _ _ _) (by decide)
        exact Keeps.refl _ _
      ·
        refine KeepsO.next ?_
        refine Keeps.then ?_ (discoveryFailed_keeps _ _) (by decide)
        exact Keeps.refl _ _

theorem execCameraWriteAck_keeps (t) (port) (gen) (ok) (s) : KeepsO [.free, .log, .net, .jobs, .cams, .cal, .pair] (beginAt t s) (execCameraWriteAck t port gen ok s) := by
  unfold execCameraWriteAck
  try dsimp only
  split
  ·
    refine KeepsO.next ?_
    exact Keeps.refl _ _
  ·
    refine KeepsO.next ?_
    refine Keeps.ite (fun _ => ?_) (fun _ => ?_)
    ·
      refine Keeps.then ?_ (finishEnded_keeps _ _) (by decide)
      refine Keeps.ite (fun _ => ?_) (fun _ => ?_)
      ·
        refine Keeps.then ?_ (modCam_keeps _ _ _) (by decide)
        exact Keeps.refl _ _
      ·
        refine Keeps.then ?_ (writeFailed_keeps _ _ _) (by decide)
        exact Keeps.refl _ _
    ·
      refine Keeps.ite (fun _ => ?_) (fun _ => ?_)
      ·
        refine Keeps.then ?_ (modCam_keeps _ _ _) (by decide)
        exact Keeps.refl _ _
      ·
        refine Keeps.then ?_ (writeFailed_keeps _ _ _) (by decide)
        exact Keeps.refl _ _

theorem frameTrigger_keeps (c) (line) (s) : Keeps [.free, .log, .net, .jobs, .cams, .cal, .time, .pair] s (frameTrigger c line s) := by
  unfold frameTrigger
  refine Keeps.ite (fun _ => ?_) (fun _ => ?_)
  ·
    refine Keeps.then ?_ (noteStrobe_keeps _ _ _) (by decide)
    exact Keeps.refl _ _
  ·
    refine Keeps.ite (fun _ => ?_) (fun _ => ?_)
    ·
      refine Keeps.then ?_ (raiseLimited_keeps _ _ _ _ _) (by decide)
      refine Keeps.then ?_ (modCam_keeps _ _ _) (by decide)
      refine Keeps.then ?_ (noteStrobe_keeps _ _ _) (by decide)
      refine Keeps.then ?_ (finishEnded_keeps _ _) (by decide)
      refine Keeps.forEach (fun _ _ => ?_) ?_
      ·
        refine Keeps.then ?_ (writeFailed_keeps _ _ _) (by decide)
        exact Keeps.refl _ _
      ·
        refine Keeps.then ?_ (modCam_keeps _ _ _) (by decide)
        exact Keeps.refl _ _
    ·
      refine Keeps.then ?_ (commitCommands_keeps _ _ _) (by decide)
      refine Keeps.then ?_ (sendTrigger_keeps _ _) (by decide)
      refine Keeps.then ?_ (noteStrobe_keeps _ _ _) (by decide)
      refine Keeps.then ?_ (modCam_keeps _ _ _) (by decide)
      refine Keeps.then ?_ (finishEnded_keeps _ _) (by decide)
      refine Keeps.forEach (fun _ _ => ?_) ?_
      ·
        refine Keeps.then ?_ (writeFailed_keeps _ _ _) (by decide)
        exact Keeps.refl _ _
      ·
        refine Keeps.then ?_ (modCam_keeps _ _ _) (by decide)
        exact Keeps.refl _ _

theorem drainTriggers_keeps (i) (s) : Keeps [.log, .net, .jobs, .fire, .links, .cal, .pair] s (drainTriggers i s) := by
  unfold drainTriggers
  refine Keeps.forEach (fun _ _ => ?_) ?_
  ·
    refine Keeps.forEach (fun _ _ => ?_) ?_
    ·
      refine Keeps.then ?_ (takePoint_keeps _ _ _) (by decide)
      exact Keeps.refl _ _
    ·
      refine Keeps.then ?_ (modBar_keeps _ _ _) (by decide)
      exact Keeps.refl _ _
  ·
    exact Keeps.refl _ _

theorem endCoast_keeps (i) (c) (s) : Keeps [.mod, .power, .conf, .update, .log, .gov, .net, .jobs, .render, .pos, .fire, .links, .cams, .cal, .axes, .ring, .pair] s (endCoast i c s) := by
  unfold endCoast
  refine Keeps.then ?_ (ownHalt_keeps _ _ _ _) (by decide)
  refine Keeps.then ?_ (raise_keeps _ _ _) (by decide)
  refine Keeps.then ?_ (modInput_keeps _ _ _) (by decide)
  exact Keeps.refl _ _

theorem issueTrigger_keeps (i) (kind) (date) (s) : Keeps [.pos, .fire] s (issueTrigger i kind date s) := by
  unfold issueTrigger
  refine Keeps.then ?_ (modInput_keeps _ _ _) (by decide)
  refine Keeps.forEach (fun _ _ => ?_) ?_
  ·
    refine Keeps.then ?_ (modBar_keeps _ _ _) (by decide)
    exact Keeps.refl _ _
  ·
    exact Keeps.refl _ _

theorem coastStep_keeps (i) (c) (s) : Keeps [.mod, .power, .conf, .update, .log, .gov, .net, .jobs, .render, .pos, .fire, .links, .cams, .cal, .axes, .ring, .pair] s (coastStep i c s) := by
  unfold coastStep
  refine Keeps.ite (fun _ => ?_) (fun _ => ?_)
  ·
    refine Keeps.then ?_ (endCoast_keeps _ _ _) (by decide)
    refine Keeps.then ?_ (drainTriggers_keeps _ _) (by decide)
    refine Keeps.then ?_ (issueTrigger_keeps _ _ _ _) (by decide)
    refine Keeps.then ?_ (modInput_keeps _ _ _) (by decide)
    exact Keeps.refl _ _
  ·
    refine Keeps.then ?_ (issueTrigger_keeps _ _ _ _) (by decide)
    refine Keeps.then ?_ (modInput_keeps _ _ _) (by decide)
    exact Keeps.refl _ _

theorem coastDue_keeps (n i s) : Keeps [.mod, .power, .conf, .update, .log, .gov, .net, .jobs, .render, .pos, .fire, .links, .cams, .cal, .axes, .ring, .pair] s (coastDue n i s) := by
  induction n generalizing s with
  | zero => exact Keeps.refl _ _
  | succ n ih =>
    unfold coastDue
    split
    · exact Keeps.refl _ _
    · refine Keeps.ite (fun _ => ?_) (fun _ => Keeps.refl _ _)
      exact ((Keeps.refl _ _).then (coastStep_keeps ..) (by decide)).then (ih _) (by decide)

theorem applyFault_keeps (i) (s) : Keeps [.mod, .power, .conf, .update, .log, .gov, .net, .jobs, .render, .pos, .fire, .links, .cams, .cal, .axes, .ring, .pair] s (applyFault i s) := by
  unfold applyFault
  refine Keeps.ite (fun _ => ?_) (fun _ => ?_)
  ·
    exact Keeps.refl _ _
  ·
    refine Keeps.ite (fun _ => ?_) (fun _ => ?_)
    ·
      refine Keeps.then ?_ (ownHalt_keeps _ _ _ _) (by decide)
      exact Keeps.refl _ _
    ·
      refine Keeps.ite (fun _ => ?_) (fun _ => ?_)
      ·
        refine Keeps.then ?_ (endCoast_keeps _ _ _) (by decide)
        refine Keeps.then ?_ (modInput_keeps _ _ _) (by decide)
        refine Keeps.forEach (fun _ _ => ?_) ?_
        ·
          refine Keeps.then ?_ (barToken_keeps _ _ _ _ _) (by decide)
          exact Keeps.refl _ _
        ·
          refine Keeps.then ?_ (raise_keeps _ _ _) (by decide)
          exact Keeps.refl _ _
      ·
        refine Keeps.then ?_ (coastDue_keeps _ _ _) (by decide)
        refine Keeps.then ?_ (modInput_keeps _ _ _) (by decide)
        refine Keeps.forEach (fun _ _ => ?_) ?_
        ·
          refine Keeps.then ?_ (barToken_keeps _ _ _ _ _) (by decide)
          exact Keeps.refl _ _
        ·
          refine Keeps.then ?_ (raise_keeps _ _ _) (by decide)
          exact Keeps.refl _ _

theorem faultsAtArm_keeps (s) : Keeps [.mod, .power, .conf, .update, .log, .gov, .net, .jobs, .render, .pos, .fire, .links, .cams, .cal, .axes, .ring, .pair] s (faultsAtArm s) := by
  unfold faultsAtArm
  refine Keeps.forEach (fun _ _ => ?_) ?_
  ·
    refine Keeps.then ?_ (applyFault_keeps _ _) (by decide)
    exact Keeps.refl _ _
  ·
    exact Keeps.refl _ _

end Sys2Proof.Machine
end

