-- ==== Sys2Proof/Laws/KeepsPosition.lean ====
section
/-! SUPPORT. What the operations of Position, Axes, CalRequests, Cascade leave alone, and that they keep the invariant. -/
namespace Sys2Proof.Machine
open Sys2Proof

theorem directTriggers_keeps (date n i s) : Keeps [.pos, .fire] s (directTriggers date n i s) := by
  induction n generalizing s with
  | zero => exact Keeps.refl _ _
  | succ n ih =>
    unfold directTriggers
    refine Keeps.ite (fun _ => ?_) (fun _ => Keeps.refl _ _)
    exact ((Keeps.refl _ _).then (issueTrigger_keeps ..) (by decide)).then (ih _) (by decide)

theorem schedulePoint_keeps (i) (s) : Keeps [.pos] s (schedulePoint i s) := by
  unfold schedulePoint
  try dsimp only
  split
  ·
    refine Keeps.ite (fun _ => ?_) (fun _ => ?_)
    ·
      refine Keeps.then ?_ (modInput_keeps _ _ _) (by decide)
      exact Keeps.refl _ _
    ·
      exact Keeps.refl _ _
  ·
    exact Keeps.refl _ _

theorem hwmChanged_keeps (i) (date) (s) : Keeps [.pos, .fire] s (hwmChanged i date s) := by
  unfold hwmChanged
  refine Keeps.ite (fun _ => ?_) (fun _ => ?_)
  ·
    refine Keeps.then ?_ (schedulePoint_keeps _ _) (by decide)
    refine Keeps.then ?_ (directTriggers_keeps _ _ _ _) (by decide)
    refine Keeps.then ?_ (modInput_keeps _ _ _) (by decide)
    exact Keeps.refl _ _
  ·
    refine Keeps.then ?_ (modInput_keeps _ _ _) (by decide)
    exact Keeps.refl _ _

theorem countChanged_keeps (i) (date) (s) : Keeps [.log, .net, .pos, .fire] s (countChanged i date s) := by
  unfold countChanged
  refine Keeps.then ?_ (updateOverspeed_keeps _) (by decide)
  refine Keeps.ite (fun _ => ?_) (fun _ => ?_)
  ·
    refine Keeps.then ?_ (hwmChanged_keeps _ _ _) (by decide)
    refine Keeps.then ?_ (modInput_keeps _ _ _) (by decide)
    exact Keeps.refl _ _
  ·
    refine Keeps.then ?_ (modInput_keeps _ _ _) (by decide)
    refine Keeps.then ?_ (modInput_keeps _ _ _) (by decide)
    exact Keeps.refl _ _

theorem raiseFault_keeps (i) (cause) (s) : Keeps [.mod, .power, .conf, .update, .log, .gov, .net, .jobs, .render, .pos, .fire, .links, .cams, .cal, .axes, .ring, .pair] s (raiseFault i cause s) := by
  unfold raiseFault
  refine Keeps.ite (fun _ => ?_) (fun _ => ?_)
  ·
    refine Keeps.then ?_ (modInput_keeps _ _ _) (by decide)
    exact Keeps.refl _ _
  ·
    refine Keeps.then ?_ (encoderFault_keeps _ _) (by decide)
    refine Keeps.then ?_ (applyFault_keeps _ _) (by decide)
    refine Keeps.then ?_ (raise_keeps _ _ _) (by decide)
    refine Keeps.then ?_ (modInput_keeps _ _ _) (by decide)
    refine Keeps.then ?_ (modInput_keeps _ _ _) (by decide)
    exact Keeps.refl _ _

theorem positionError_keeps (i) (cause) (s) : Keeps [.mod, .power, .conf, .update, .log, .gov, .net, .jobs, .render, .pos, .fire, .links, .cams, .cal, .axes, .ring, .pair] s (positionError i cause s) := by
  unfold positionError
  refine Keeps.ite (fun _ => ?_) (fun _ => ?_)
  ·
    refine Keeps.then ?_ (raiseFault_keeps _ _ _) (by decide)
    refine Keeps.then ?_ (modInput_keeps _ _ _) (by decide)
    exact Keeps.refl _ _
  ·
    refine Keeps.then ?_ (modInput_keeps _ _ _) (by decide)
    exact Keeps.refl _ _

theorem execSsiFrame_keeps (t) (input) (f) (s) : KeepsO [.mod, .power, .conf, .update, .log, .gov, .net, .jobs, .render, .pos, .fire, .links, .cams, .cal, .axes, .ring, .pair] (beginAt t s) (execSsiFrame t input f s) := by
  unfold execSsiFrame
  refine KeepsO.ite (fun _ => ?_) (fun _ => ?_)
  ·
    refine KeepsO.next ?_
    exact Keeps.refl _ _
  ·
    refine KeepsO.ite (fun _ => ?_) (fun _ => ?_)
    ·
      refine KeepsO.next ?_
      refine Keeps.then ?_ (positionError_keeps _ _ _) (by decide)
      refine Keeps.then ?_ (raiseLimited_keeps _ _ _ _ _) (by decide)
      refine Keeps.then ?_ (modInput_keeps _ _ _) (by decide)
      exact Keeps.refl _ _
    ·
      refine KeepsO.next ?_
      refine Keeps.then ?_ (countChanged_keeps _ _ _) (by decide)
      refine Keeps.then ?_ (modInput_keeps _ _ _) (by decide)
      exact Keeps.refl _ _

theorem countTest_keeps (input) (s) : Keeps [.loops] s (countTest input s) := by
  unfold countTest
  refine Keeps.then ?_ (set_loops_keeps ..) (by decide)
  exact Keeps.refl _ _

theorem countStep_keeps (i) (date) (d) (s) : Keeps [.log, .net, .pos, .fire] s (countStep i date d s) := by
  unfold countStep
  refine Keeps.then ?_ (countChanged_keeps _ _ _) (by decide)
  refine Keeps.then ?_ (modInput_keeps _ _ _) (by decide)
  exact Keeps.refl _ _

theorem quadratureStep_keeps (input) (a) (b) (agreed) (s) : Keeps [.mod, .power, .conf, .update, .log, .gov, .net, .jobs, .render, .pos, .fire, .links, .cams, .cal, .axes, .ring, .pair, .loops] s (quadratureStep input a b agreed s) := by
  unfold quadratureStep
  refine Keeps.ite (fun _ => ?_) (fun _ => ?_)
  ·
    exact Keeps.refl _ _
  ·
    refine Keeps.ite (fun _ => ?_) (fun _ => ?_)
    ·
      refine Keeps.then ?_ (modInput_keeps _ _ _) (by decide)
      exact Keeps.refl _ _
    ·
      refine Keeps.ite (fun _ => ?_) (fun _ => ?_)
      ·
        refine Keeps.then ?_ (positionError_keeps _ _ _) (by decide)
        refine Keeps.then ?_ (modInput_keeps _ _ _) (by decide)
        refine Keeps.then ?_ (modInput_keeps _ _ _) (by decide)
        exact Keeps.refl _ _
      ·
        refine Keeps.then ?_ (countStep_keeps _ _ _ _) (by decide)
        refine Keeps.then ?_ (countTest_keeps _ _) (by decide)
        refine Keeps.then ?_ (modInput_keeps _ _ _) (by decide)
        exact Keeps.refl _ _

theorem execQuadratureEdge_keeps (t) (input) (a) (b) (agreed) (s) : KeepsO [.mod, .power, .conf, .update, .log, .gov, .net, .jobs, .render, .pos, .fire, .links, .cams, .cal, .axes, .ring, .pair, .loops] (beginAt t s) (execQuadratureEdge t input a b agreed s) := by
  unfold execQuadratureEdge
  refine KeepsO.next ?_
  refine Keeps.then ?_ (quadratureStep_keeps _ _ _ _ _) (by decide)
  exact Keeps.refl _ _

/-- What leaves the clock alone may begin later in the same sample, the clock then being what it was. -/
theorem Keeps.later {w : List Group} {s n : State} (u : Nat) (hw : Group.clock ∉ w) (hr : Group.raw ∉ w)
    (h : Keeps w { s with now := max s.now u } n) : Keeps w s { n with now := s.now } := by
  refine ⟨⟨fun g hg => ?_⟩, fun hi => ?_⟩
  · have := h.only.same g hg
    cases g <;> first | rfl | exact this
  · have hr := h.only.same .raw hr
    have h1 := h.inv ⟨Nat.le_trans hi.raw (Nat.le_max_left _ _), hi.size, hi.detail, hi.chain, hi.last⟩
    exact ⟨by have := hi.raw; simp only [Group.same] at hr; simp only [hr]; exact this, h1.size, h1.detail, h1.chain, h1.last⟩

theorem edgeFirst_keeps (t input s) : Keeps [.mod, .power, .conf, .update, .log, .gov, .net, .jobs, .render, .pos, .fire, .links, .cams, .cal, .axes, .ring, .pair, .loops] s (edgeFirst t input s) := by
  unfold edgeFirst
  dsimp only
  split
  · exact ((Keeps.refl _ _).then (quadratureStep_keeps ..) (by decide)).later _ (by decide) (by decide)
  · exact Keeps.refl _ _

theorem indexStep_keeps (input) (s) : Keeps [.mod, .power, .conf, .update, .log, .gov, .net, .jobs, .render, .pos, .fire, .links, .cams, .cal, .axes, .ring, .pair] s (indexStep input s) := by
  unfold indexStep
  refine Keeps.ite (fun _ => ?_) (fun _ => ?_)
  ·
    refine Keeps.ite (fun _ => ?_) (fun _ => ?_)
    ·
      refine Keeps.then ?_ (modInput_keeps _ _ _) (by decide)
      exact Keeps.refl _ _
    ·
      refine Keeps.then ?_ (updateOverspeed_keeps _) (by decide)
      refine Keeps.then ?_ (hwmChanged_keeps _ _ _) (by decide)
      refine Keeps.then ?_ (modInput_keeps _ _ _) (by decide)
      exact Keeps.refl _ _
  ·
    refine Keeps.ite (fun _ => ?_) (fun _ => ?_)
    ·
      refine Keeps.then ?_ (raiseFault_keeps _ _ _) (by decide)
      refine Keeps.then ?_ (modInput_keeps _ _ _) (by decide)
      refine Keeps.then ?_ (raise_keeps _ _ _) (by decide)
      exact Keeps.refl _ _
    ·
      refine Keeps.then ?_ (modInput_keeps _ _ _) (by decide)
      refine Keeps.then ?_ (raise_keeps _ _ _) (by decide)
      exact Keeps.refl _ _

theorem execIndexEvent_keeps (t) (edge) (s) : KeepsO [.mod, .power, .conf, .update, .log, .gov, .net, .jobs, .render, .pos, .fire, .links, .cams, .cal, .axes, .ring, .pair, .loops] (beginAt t s) (execIndexEvent t edge s) := by
  unfold execIndexEvent
  refine KeepsO.next ?_
  refine Keeps.ite (fun _ => ?_) (fun _ => ?_)
  ·
    exact Keeps.refl _ _
  ·
    refine Keeps.then ?_ (indexStep_keeps _ _) (by decide)
    refine Keeps.then ?_ (edgeFirst_keeps _ _ _) (by decide)
    exact Keeps.refl _ _

theorem execPositionFaultCleared_keeps (t) (input) (s) : KeepsO [.log, .net, .pos] (beginAt t s) (execPositionFaultCleared t input s) := by
  unfold execPositionFaultCleared
  refine KeepsO.ite (fun _ => ?_) (fun _ => ?_)
  ·
    refine KeepsO.next ?_
    refine Keeps.then ?_ (raise_keeps _ _ _) (by decide)
    refine Keeps.then ?_ (modInput_keeps _ _ _) (by decide)
    exact Keeps.refl _ _
  ·
    refine KeepsO.next ?_
    exact Keeps.refl _ _

theorem coastOn_keeps (input) (s) : Keeps [.mod, .power, .conf, .update, .log, .gov, .net, .jobs, .render, .pos, .fire, .links, .cams, .cal, .axes, .ring, .pair] s (coastOn input s) := by
  unfold coastOn
  refine Keeps.then ?_ (coastDue_keeps _ _ _) (by decide)
  exact Keeps.refl _ _

theorem execCoastTrigger_keeps (t) (input) (s) : KeepsO [.mod, .power, .conf, .update, .log, .gov, .net, .jobs, .render, .pos, .fire, .links, .cams, .cal, .axes, .ring, .pair] (beginAt t s) (execCoastTrigger t input s) := by
  unfold execCoastTrigger
  refine KeepsO.next ?_
  refine Keeps.then ?_ (coastOn_keeps _ _) (by decide)
  exact Keeps.refl _ _

theorem extrapolate_keeps (input) (s) : Keeps [.pos, .fire] s (extrapolate input s) := by
  unfold extrapolate
  split
  ·
    exact Keeps.refl _ _
  ·
    refine Keeps.ite (fun _ => ?_) (fun _ => ?_)
    ·
      exact Keeps.refl _ _
    ·
      refine Keeps.then ?_ (schedulePoint_keeps _ _) (by decide)
      refine Keeps.then ?_ (issueTrigger_keeps _ _ _ _) (by decide)
      refine Keeps.then ?_ (modInput_keeps _ _ _) (by decide)
      exact Keeps.refl _ _

theorem execExtrapolatedTrigger_keeps (t) (input) (s) : KeepsO [.pos, .fire] (beginAt t s) (execExtrapolatedTrigger t input s) := by
  unfold execExtrapolatedTrigger
  refine KeepsO.next ?_
  refine Keeps.then ?_ (extrapolate_keeps _ _) (by decide)
  exact Keeps.refl _ _

theorem linesFirst_keeps (s) : Keeps [.mod, .power, .conf, .update, .log, .gov, .net, .jobs, .render, .pos, .fire, .links, .cams, .cal, .axes, .ring, .pair] s (linesFirst s) := by
  unfold linesFirst
  refine Keeps.forEach (fun _ _ => ?_) ?_
  ·
    refine Keeps.then ?_ (coastOn_keeps _ _) (by decide)
    refine Keeps.then ?_ (extrapolate_keeps _ _) (by decide)
    exact Keeps.refl _ _
  ·
    exact Keeps.refl _ _

theorem execWireFault_keeps (t) (input) (pair) (samples) (s) : KeepsO [.mod, .power, .conf, .update, .log, .gov, .net, .jobs, .render, .pos, .fire, .links, .cams, .cal, .axes, .ring, .pair] (beginAt t s) (execWireFault t input pair samples s) := by
  unfold execWireFault
  refine KeepsO.ite (fun _ => ?_) (fun _ => ?_)
  ·
    refine KeepsO.next ?_
    exact Keeps.refl _ _
  ·
    refine KeepsO.ite (fun _ => ?_) (fun _ => ?_)
    ·
      refine KeepsO.next ?_
      refine Keeps.then ?_ (modInput_keeps _ _ _) (by decide)
      exact Keeps.refl _ _
    ·
      refine KeepsO.ite (fun _ => ?_) (fun _ => ?_)
      ·
        refine KeepsO.next ?_
        refine Keeps.then ?_ (raiseFault_keeps _ _ _) (by decide)
        refine Keeps.then ?_ (modInput_keeps _ _ _) (by decide)
        exact Keeps.refl _ _
      ·
        refine KeepsO.next ?_
        refine Keeps.then ?_ (raise_keeps _ _ _) (by decide)
        refine Keeps.then ?_ (raiseFault_keeps _ _ _) (by decide)
        refine Keeps.then ?_ (modInput_keeps _ _ _) (by decide)
        exact Keeps.refl _ _

theorem startChange_keeps (a) (x1) (s) : Keeps [.pos, .axes] s (startChange a x1 s) := by
  unfold startChange
  try dsimp only
  split
  ·
    refine Keeps.ite (fun _ => ?_) (fun _ => ?_)
    ·
      exact Keeps.refl _ _
    ·
      refine Keeps.then ?_ (dropAux_keeps _ _) (by decide)
      refine Keeps.then ?_ (modAxis_keeps _ _ _) (by decide)
      exact Keeps.refl _ _
  ·
    exact Keeps.refl _ _

theorem failHoming_keeps (a) (reason) (s) : Keeps [.axes] s (failHoming a reason s) := by
  unfold failHoming
  refine Keeps.then ?_ (modAxis_keeps _ _ _) (by decide)
  exact Keeps.refl _ _

theorem limitHit_keeps (d) (a) (s) : Keeps [.axes] s (limitHit d a s) := by
  unfold limitHit
  refine Keeps.ite (fun _ => ?_) (fun _ => ?_)
  ·
    exact Keeps.refl _ _
  ·
    refine Keeps.ite (fun _ => ?_) (fun _ => ?_)
    ·
      split
      ·
        exact Keeps.refl _ _
      ·
        refine Keeps.then ?_ (failHoming_keeps _ _ _) (by decide)
        exact Keeps.refl _ _
    ·
      refine Keeps.then ?_ (requestStop_keeps _ _ _) (by decide)
      exact Keeps.refl _ _

theorem homeHit_keeps (d) (date) (a) (s) : Keeps [.axes, .pair] s (homeHit d date a s) := by
  unfold homeHit
  refine Keeps.ite (fun _ => ?_) (fun _ => ?_)
  ·
    exact Keeps.refl _ _
  ·
    split
    ·
      refine Keeps.ite (fun _ => ?_) (fun _ => ?_)
      ·
        exact Keeps.refl _ _
      ·
        refine Keeps.then ?_ (modAxis_keeps _ _ _) (by decide)
        refine Keeps.then ?_ (axisToken_keeps _ _ _ _) (by decide)
        exact Keeps.refl _ _
    ·
      exact Keeps.refl _ _

theorem takeBus_keeps (a) (mv) (broken) (s) : Keeps [.log, .net, .pos, .axes, .pair] s (takeBus a mv broken s) := by
  unfold takeBus
  refine Keeps.ite (fun _ => ?_) (fun _ => ?_)
  ·
    refine Keeps.then ?_ (ownFault_keeps _ _ _) (by decide)
    refine Keeps.then ?_ (modAxis_keeps _ _ _) (by decide)
    exact Keeps.refl _ _
  ·
    refine Keeps.then ?_ (modAxis_keeps _ _ _) (by decide)
    exact Keeps.refl _ _

theorem execPwmPeriod_keeps (t) (axis) (vbusMv) (fullScale) (s) : KeepsO [.log, .net, .pos, .axes, .pair] (beginAt t s) (execPwmPeriod t axis vbusMv fullScale s) := by
  unfold execPwmPeriod
  refine KeepsO.ite (fun _ => ?_) (fun _ => ?_)
  ·
    refine KeepsO.next ?_
    refine Keeps.then ?_ (takeBus_keeps _ _ _ _) (by decide)
    exact Keeps.refl _ _
  ·
    refine KeepsO.next ?_
    refine Keeps.ite (fun _ => ?_) (fun _ => ?_)
    ·
      refine Keeps.then ?_ (modAxis_keeps _ _ _) (by decide)
      refine Keeps.then ?_ (takeBus_keeps _ _ _ _) (by decide)
      exact Keeps.refl _ _
    ·
      refine Keeps.then ?_ (raiseLimitedBy_keeps _ _ _ _ _ _) (by decide)
      refine Keeps.then ?_ (modAxis_keeps _ _ _) (by decide)
      refine Keeps.then ?_ (takeBus_keeps _ _ _ _) (by decide)
      exact Keeps.refl _ _

theorem comeToHold_keeps (a) (outcome) (s) : Keeps [.net, .axes, .pair] s (comeToHold a outcome s) := by
  unfold comeToHold
  refine Keeps.then ?_ (endReq_keeps _ _ _) (by decide)
  refine Keeps.then ?_ (enterHold_keeps _ _) (by decide)
  exact Keeps.refl _ _

theorem stopPeriod_keeps (a) (s) : Keeps [.log, .net, .axes, .pair] s (stopPeriod a s) := by
  unfold stopPeriod
  refine Keeps.ite (fun _ => ?_) (fun _ => ?_)
  ·
    refine Keeps.ite (fun _ => ?_) (fun _ => ?_)
    ·
      refine Keeps.then ?_ (comeToHold_keeps _ _ _) (by decide)
      refine Keeps.then ?_ (raise_keeps _ _ _) (by decide)
      refine Keeps.then ?_ (modAxis_keeps _ _ _) (by decide)
      exact Keeps.refl _ _
    ·
      refine Keeps.then ?_ (modAxis_keeps _ _ _) (by decide)
      exact Keeps.refl _ _
  ·
    refine Keeps.ite (fun _ => ?_) (fun _ => ?_)
    ·
      refine Keeps.then ?_ (comeToHold_keeps _ _ _) (by decide)
      refine Keeps.then ?_ (modAxis_keeps _ _ _) (by decide)
      exact Keeps.refl _ _
    ·
      refine Keeps.then ?_ (modAxis_keeps _ _ _) (by decide)
      exact Keeps.refl _ _

theorem ownChange_keeps (a) (s) : Keeps [.pos, .axes, .pair] s (ownChange a s) := by
  unfold ownChange
  refine Keeps.ite (fun _ => ?_) (fun _ => ?_)
  ·
    exact Keeps.refl _ _
  ·
    refine Keeps.then ?_ (startChange_keeps _ _ _) (by decide)
    refine Keeps.then ?_ (axisToken_keeps _ _ _ _) (by decide)
    exact Keeps.refl _ _

theorem gearTarget_keeps (a s) : Keeps [.net, .pos, .axes, .pair] s (gearTarget a s).2 := by
  unfold gearTarget
  dsimp only
  split
  · exact Keeps.refl _ _
  · split
    · split
      · exact Keeps.refl _ _
      · split
        · exact Keeps.refl _ _
        · exact ((Keeps.refl _ _).then (modAxis_keeps ..) (by decide)).then (endChange_keeps ..) (by decide)
    · exact Keeps.refl _ _

theorem gearPeriod_keeps (a) (s) : Keeps [.log, .net, .pos, .axes, .pair] s (gearPeriod a s) := by
  unfold gearPeriod
  refine Keeps.ite (fun _ => ?_) (fun _ => ?_)
  ·
    refine Keeps.then ?_ (raise_keeps _ _ _) (by decide)
    refine Keeps.then ?_ (modAxis_keeps _ _ _) (by decide)
    refine Keeps.then ?_ (gearTarget_keeps _ _) (by decide)
    refine Keeps.ite (fun _ => ?_) (fun _ => ?_)
    ·
      refine Keeps.then ?_ (ownChange_keeps _ _) (by decide)
      exact Keeps.refl _ _
    ·
      exact Keeps.refl _ _
  ·
    refine Keeps.then ?_ (modAxis_keeps _ _ _) (by decide)
    refine Keeps.then ?_ (gearTarget_keeps _ _) (by decide)
    refine Keeps.ite (fun _ => ?_) (fun _ => ?_)
    ·
      refine Keeps.then ?_ (ownChange_keeps _ _) (by decide)
      exact Keeps.refl _ _
    ·
      exact Keeps.refl _ _

theorem homePeriod_keeps (a) (s) : Keeps [.log, .net, .axes, .pair] s (homePeriod a s) := by
  unfold homePeriod
  try dsimp only
  split
  ·
    exact Keeps.refl _ _
  ·
    refine Keeps.ite (fun _ => ?_) (fun _ => ?_)
    ·
      refine Keeps.then ?_ (raise_keeps _ _ _) (by decide)
      refine Keeps.then ?_ (comeToHold_keeps _ _ _) (by decide)
      refine Keeps.then ?_ (modAxis_keeps _ _ _) (by decide)
      refine Keeps.then ?_ (modAxis_keeps _ _ _) (by decide)
      exact Keeps.refl _ _
    ·
      refine Keeps.ite (fun _ => ?_) (fun _ => ?_)
      ·
        refine Keeps.ite (fun _ => ?_) (fun _ => ?_)
        ·
          refine Keeps.then ?_ (raise_keeps _ _ _) (by decide)
          refine Keeps.then ?_ (comeToHold_keeps _ _ _) (by decide)
          refine Keeps.then ?_ (modAxis_keeps _ _ _) (by decide)
          exact Keeps.refl _ _
        ·
          refine Keeps.then ?_ (modAxis_keeps _ _ _) (by decide)
          exact Keeps.refl _ _
      ·
        refine Keeps.ite (fun _ => ?_) (fun _ => ?_)
        ·
          refine Keeps.then ?_ (failHoming_keeps _ _ _) (by decide)
          refine Keeps.then ?_ (modAxis_keeps _ _ _) (by decide)
          exact Keeps.refl _ _
        ·
          refine Keeps.then ?_ (modAxis_keeps _ _ _) (by decide)
          exact Keeps.refl _ _

theorem movePeriod_keeps (a) (s) : Keeps [.net, .axes, .pair] s (movePeriod a s) := by
  unfold movePeriod
  refine Keeps.ite (fun _ => ?_) (fun _ => ?_)
  ·
    refine Keeps.then ?_ (comeToHold_keeps _ _ _) (by decide)
    refine Keeps.ite (fun _ => ?_) (fun _ => ?_)
    ·
      refine Keeps.then ?_ (latchShadow_keeps _ _) (by decide)
      refine Keeps.then ?_ (modAxis_keeps _ _ _) (by decide)
      refine Keeps.then ?_ (modAxis_keeps _ _ _) (by decide)
      exact Keeps.refl _ _
    ·
      refine Keeps.then ?_ (modAxis_keeps _ _ _) (by decide)
      exact Keeps.refl _ _
  ·
    refine Keeps.ite (fun _ => ?_) (fun _ => ?_)
    ·
      refine Keeps.then ?_ (latchShadow_keeps _ _) (by decide)
      refine Keeps.then ?_ (modAxis_keeps _ _ _) (by decide)
      refine Keeps.then ?_ (modAxis_keeps _ _ _) (by decide)
      exact Keeps.refl _ _
    ·
      refine Keeps.then ?_ (modAxis_keeps _ _ _) (by decide)
      exact Keeps.refl _ _

theorem stallCheck_keeps (a) (s) : Keeps [.log, .net, .pos, .axes, .pair] s (stallCheck a s) := by
  unfold stallCheck
  split
  ·
    exact Keeps.refl _ _
  ·
    refine Keeps.ite (fun _ => ?_) (fun _ => ?_)
    ·
      exact Keeps.refl _ _
    ·
      refine Keeps.ite (fun _ => ?_) (fun _ => ?_)
      ·
        refine Keeps.then ?_ (ownFault_keeps _ _ _) (by decide)
        exact Keeps.refl _ _
      ·
        refine Keeps.ite (fun _ => ?_) (fun _ => ?_)
        ·
          exact Keeps.refl _ _
        ·
          refine Keeps.ite (fun _ => ?_) (fun _ => ?_)
          ·
            refine Keeps.then ?_ (ownFault_keeps _ _ _) (by decide)
            refine Keeps.then ?_ (modAxis_keeps _ _ _) (by decide)
            exact Keeps.refl _ _
          ·
            refine Keeps.then ?_ (modAxis_keeps _ _ _) (by decide)
            exact Keeps.refl _ _

theorem axisPeriod_keeps (a) (s) : Keeps [.log, .net, .pos, .axes, .pair] s (axisPeriod a s) := by
  unfold axisPeriod
  refine Keeps.ite (fun _ => ?_) (fun _ => ?_)
  ·
    refine Keeps.then ?_ (stallCheck_keeps _ _) (by decide)
    exact Keeps.refl _ _
  ·
    try dsimp only
    split
    ·
      refine Keeps.then ?_ (movePeriod_keeps _ _) (by decide)
      refine Keeps.then ?_ (causesFirst_keeps _ _) (by decide)
      refine Keeps.then ?_ (stallCheck_keeps _ _) (by decide)
      exact Keeps.refl _ _
    ·
      refine Keeps.then ?_ (homePeriod_keeps _ _) (by decide)
      refine Keeps.then ?_ (causesFirst_keeps _ _) (by decide)
      refine Keeps.then ?_ (stallCheck_keeps _ _) (by decide)
      exact Keeps.refl _ _
    ·
      refine Keeps.then ?_ (gearPeriod_keeps _ _) (by decide)
      refine Keeps.then ?_ (causesFirst_keeps _ _) (by decide)
      refine Keeps.then ?_ (stallCheck_keeps _ _) (by decide)
      exact Keeps.refl _ _
    ·
      refine Keeps.then ?_ (stopPeriod_keeps _ _) (by decide)
      refine Keeps.then ?_ (causesFirst_keeps _ _) (by decide)
      refine Keeps.then ?_ (stallCheck_keeps _ _) (by decide)
      exact Keeps.refl _ _
    ·
      refine Keeps.then ?_ (causesFirst_keeps _ _) (by decide)
      refine Keeps.then ?_ (stallCheck_keeps _ _) (by decide)
      exact Keeps.refl _ _

theorem execHoldCurrentDelay_keeps (t) (axis) (s) : KeepsO [.axes] (beginAt t s) (execHoldCurrentDelay t axis s) := by
  unfold execHoldCurrentDelay
  refine KeepsO.next ?_
  refine Keeps.ite (fun _ => ?_) (fun _ => ?_)
  ·
    refine Keeps.then ?_ (modAxis_keeps _ _ _) (by decide)
    exact Keeps.refl _ _
  ·
    exact Keeps.refl _ _

theorem execMotionProfilePeriod_keeps (t) (s) : KeepsO [.log, .net, .pos, .axes, .pair] (beginAt t s) (execMotionProfilePeriod t s) := by
  unfold execMotionProfilePeriod
  refine KeepsO.next ?_
  refine Keeps.ite (fun _ => ?_) (fun _ => ?_)
  ·
    refine Keeps.forEach (fun _ _ => ?_) ?_
    ·
      refine Keeps.then ?_ (axisPeriod_keeps _ _) (by decide)
      exact Keeps.refl _ _
    ·
      exact Keeps.refl _ _
  ·
    exact Keeps.refl _ _

theorem auxAct_keeps (x) (s) : Keeps [.free, .log, .net, .jobs, .pos, .cams, .cal, .time, .axes, .pair] s (auxAct x s) := by
  unfold auxAct
  split
  ·
    refine Keeps.then ?_ (loadCam_keeps _ _) (by decide)
    refine Keeps.then ?_ (frameTrigger_keeps _ _ _) (by decide)
    exact Keeps.refl _ _
  ·
    split
    ·
      refine Keeps.then ?_ (loadCam_keeps _ _) (by decide)
      refine Keeps.then ?_ (strobePulse_keeps _ _ _ _ _) (by decide)
      exact Keeps.refl _ _
    ·
      refine Keeps.then ?_ (pulseOut_keeps _ _ _) (by decide)
      exact Keeps.refl _ _
  ·
    refine Keeps.then ?_ (ownChange_keeps _ _) (by decide)
    exact Keeps.refl _ _

theorem execAuxCompareTrigger_keeps (t) (chan) (s) : KeepsO [.free, .mod, .power, .conf, .update, .log, .gov, .net, .jobs, .render, .pos, .fire, .links, .cams, .cal, .time, .axes, .ring, .pair] (beginAt t s) (execAuxCompareTrigger t chan s) := by
  unfold execAuxCompareTrigger
  try dsimp only
  split
  ·
    refine KeepsO.next ?_
    refine Keeps.then ?_ (linesFirst_keeps _) (by decide)
    exact Keeps.refl _ _
  ·
    refine KeepsO.ite (fun _ => ?_) (fun _ => ?_)
    ·
      refine KeepsO.next ?_
      refine Keeps.then ?_ (linesFirst_keeps _) (by decide)
      exact Keeps.refl _ _
    ·
      refine KeepsO.next ?_
      refine Keeps.then ?_ (auxAct_keeps _ _) (by decide)
      refine Keeps.then ?_ (set_pos_keeps ..) (by decide)
      refine Keeps.then ?_ (linesFirst_keeps _) (by decide)
      exact Keeps.refl _ _

theorem calReset_keeps (p) (s) : Keeps [.log, .net, .jobs, .cams, .cal, .pair] s (calReset p s) := by
  unfold calReset
  refine Keeps.ite (fun _ => ?_) (fun _ => ?_)
  ·
    exact Keeps.refl _ _
  ·
    refine Keeps.forEach (fun _ _ => ?_) ?_
    ·
      refine Keeps.then ?_ (sendTap_keeps _ _ _) (by decide)
      exact Keeps.refl _ _
    ·
      exact Keeps.refl _ _

theorem setFrozen_keeps (v) (s) : Keeps [.cal] s (setFrozen v s) := by
  unfold setFrozen
  refine Keeps.then ?_ (set_cal_keeps ..) (by decide)
  exact Keeps.refl _ _

theorem calDone_keeps (ticket) (s) : Keeps [.net, .pair] s (calDone ticket s) := by
  unfold calDone
  refine Keeps.then ?_ (finishResult_keeps _ _ _) (by decide)
  exact Keeps.refl _ _

theorem calRunNow_keeps (p) (s) : Keeps [.net, .cal, .pair] s (calRunNow p s) := by
  unfold calRunNow
  refine Keeps.then ?_ (settleRunNow_keeps _) (by decide)
  refine Keeps.then ?_ (set_cal_keeps ..) (by decide)
  exact Keeps.refl _ _

theorem msgCalRequest_keeps (i) (p) (s) : KeepsV [.log, .net, .jobs, .cams, .cal, .pair] s (msgCalRequest i p s) := by
  unfold msgCalRequest
  try dsimp only
  split
  ·
    refine KeepsV.ite (fun _ => ?_) (fun _ => ?_)
    ·
      refine KeepsV.ok ?_
      refine Keeps.then ?_ (calRunNow_keeps _ _) (by decide)
      refine Keeps.then ?_ (addPending_keeps _ _ _) (by decide)
      exact Keeps.refl _ _
    ·
      exact KeepsV.error
  ·
    refine KeepsV.ok ?_
    refine Keeps.then ?_ (calDone_keeps _ _) (by decide)
    refine Keeps.then ?_ (setFrozen_keeps _ _) (by decide)
    refine Keeps.then ?_ (addPending_keeps _ _ _) (by decide)
    exact Keeps.refl _ _
  ·
    refine KeepsV.ok ?_
    refine Keeps.then ?_ (calDone_keeps _ _) (by decide)
    refine Keeps.then ?_ (setFrozen_keeps _ _) (by decide)
    refine Keeps.then ?_ (addPending_keeps _ _ _) (by decide)
    exact Keeps.refl _ _
  ·
    refine KeepsV.ok ?_
    refine Keeps.then ?_ (calDone_keeps _ _) (by decide)
    refine Keeps.then ?_ (calReset_keeps _ _) (by decide)
    refine Keeps.then ?_ (addPending_keeps _ _ _) (by decide)
    exact Keeps.refl _ _
  ·
    exact KeepsV.error

theorem armTaps_keeps (b) (s) : Keeps [.fire] s (armTaps b s) := by
  unfold armTaps
  refine Keeps.then ?_ (modBar_keeps _ _ _) (by decide)
  refine Keeps.then ?_ (modBar_keeps _ _ _) (by decide)
  exact Keeps.refl _ _

theorem applyCascade_keeps (off) (s) : Keeps [.jobs, .fire, .ring] s (applyCascade off s) := by
  unfold applyCascade
  refine Keeps.ite (fun _ => ?_) (fun _ => ?_)
  ·
    refine Keeps.then ?_ (fixStart_keeps _) (by decide)
    refine Keeps.forEach (fun _ _ => ?_) ?_
    ·
      refine Keeps.then ?_ (modBar_keeps _ _ _) (by decide)
      refine Keeps.then ?_ (modBar_keeps _ _ _) (by decide)
      exact Keeps.refl _ _
    ·
      refine Keeps.then ?_ (modArmed_keeps _ _) (by decide)
      refine Keeps.then ?_ (set_ring_keeps ..) (by decide)
      exact Keeps.refl _ _
  ·
    refine Keeps.then ?_ (sendSlotReady_keeps _) (by decide)
    refine Keeps.forEach (fun _ _ => ?_) ?_
    ·
      refine Keeps.then ?_ (modBar_keeps _ _ _) (by decide)
      refine Keeps.then ?_ (modBar_keeps _ _ _) (by decide)
      exact Keeps.refl _ _
    ·
      refine Keeps.then ?_ (modArmed_keeps _ _) (by decide)
      refine Keeps.then ?_ (set_ring_keeps ..) (by decide)
      exact Keeps.refl _ _

theorem sendCascade_keeps (run) (off) (s) : Keeps [.jobs, .fire, .ring] s (sendCascade run off s) := by
  unfold sendCascade
  refine Keeps.then ?_ (applyCascade_keeps _ _) (by decide)
  refine Keeps.then ?_ (ringSendActive_keeps _ _ _ _) (by decide)
  exact Keeps.refl _ _

theorem noteMismatch_keeps (s) : Keeps [.log, .net, .ring] s (noteMismatch s) := by
  unfold noteMismatch
  split
  ·
    exact Keeps.refl _ _
  ·
    refine Keeps.forEach (fun _ _ => ?_) ?_
    ·
      refine Keeps.then ?_ (raise_keeps _ _ _) (by decide)
      refine Keeps.then ?_ (set_ring_keeps ..) (by decide)
      exact Keeps.refl _ _
    ·
      exact Keeps.refl _ _

theorem checkCascade_keeps (s) : Keeps [.log, .net, .jobs, .fire, .ring, .pair] s (checkCascade s) := by
  unfold checkCascade
  split
  ·
    exact Keeps.refl _ _
  ·
    refine Keeps.ite (fun _ => ?_) (fun _ => ?_)
    ·
      refine Keeps.ite (fun _ => ?_) (fun _ => ?_)
      ·
        refine onAck_then _ _ _ (by decide) (fun _ => ?_) ?_
        ·
          refine Keeps.then ?_ (sendCascade_keeps _ _ _) (by decide)
          exact Keeps.refl _ _
        ·
          refine Keeps.then ?_ (noteMismatch_keeps _) (by decide)
          exact Keeps.refl _ _
      ·
        refine Keeps.then ?_ (noteMismatch_keeps _) (by decide)
        exact Keeps.refl _ _
    ·
      exact Keeps.refl _ _

theorem armRun_keeps (r) (verdict) (tag) (nArm) (risk) (s) : Keeps [.mod, .power, .conf, .update, .log, .gov, .net, .jobs, .render, .pos, .fire, .links, .cams, .cal, .axes, .ring, .pair] s (armRun r verdict tag nArm risk s) := by
  unfold armRun
  refine Keeps.then ?_ (faultsAtArm_keeps _) (by decide)
  refine Keeps.then ?_ (updateOverspeed_keeps _) (by decide)
  refine Keeps.ite (fun _ => ?_) (fun _ => ?_)
  ·
    refine Keeps.then ?_ (checkCascade_keeps _) (by decide)
    refine Keeps.then ?_ (programCams_keeps _) (by decide)
    refine Keeps.ite (fun _ => ?_) (fun _ => ?_)
    ·
      refine Keeps.then ?_ (ringSendActive_keeps _ _ _ _) (by decide)
      split
      ·
        refine Keeps.ite (fun _ => ?_) (fun _ => ?_)
        ·
          refine Keeps.then ?_ (raise_keeps _ _ _) (by decide)
          refine Keeps.then ?_ (raise_keeps _ _ _) (by decide)
          refine Keeps.then ?_ (setModState_keeps _ _ _) (by decide)
          refine Keeps.forEach (fun _ _ => ?_) ?_
          ·
            refine Keeps.then ?_ (armTaps_keeps _ _) (by decide)
            exact Keeps.refl _ _
          ·
            refine Keeps.then ?_ (set_jobs_keeps ..) (by decide)
            refine Keeps.forEach (fun _ _ => ?_) ?_
            ·
              refine Keeps.then ?_ (modInput_keeps _ _ _) (by decide)
              exact Keeps.refl _ _
            ·
              exact Keeps.refl _ _
        ·
          refine Keeps.then ?_ (raise_keeps _ _ _) (by decide)
          refine Keeps.then ?_ (setModState_keeps _ _ _) (by decide)
          refine Keeps.forEach (fun _ _ => ?_) ?_
          ·
            refine Keeps.then ?_ (armTaps_keeps _ _) (by decide)
            exact Keeps.refl _ _
          ·
            refine Keeps.then ?_ (set_jobs_keeps ..) (by decide)
            refine Keeps.forEach (fun _ _ => ?_) ?_
            ·
              refine Keeps.then ?_ (modInput_keeps _ _ _) (by decide)
              exact Keeps.refl _ _
            ·
              exact Keeps.refl _ _
      ·
        refine Keeps.then ?_ (raise_keeps _ _ _) (by decide)
        refine Keeps.then ?_ (setModState_keeps _ _ _) (by decide)
        refine Keeps.forEach (fun _ _ => ?_) ?_
        ·
          refine Keeps.then ?_ (armTaps_keeps _ _) (by decide)
          exact Keeps.refl _ _
        ·
          refine Keeps.then ?_ (set_jobs_keeps ..) (by decide)
          refine Keeps.forEach (fun _ _ => ?_) ?_
          ·
            refine Keeps.then ?_ (modInput_keeps _ _ _) (by decide)
            exact Keeps.refl _ _
          ·
            exact Keeps.refl _ _
    ·
      split
      ·
        refine Keeps.ite (fun _ => ?_) (fun _ => ?_)
        ·
          refine Keeps.then ?_ (raise_keeps _ _ _) (by decide)
          refine Keeps.then ?_ (raise_keeps _ _ _) (by decide)
          refine Keeps.then ?_ (setModState_keeps _ _ _) (by decide)
          refine Keeps.forEach (fun _ _ => ?_) ?_
          ·
            refine Keeps.then ?_ (armTaps_keeps _ _) (by decide)
            exact Keeps.refl _ _
          ·
            refine Keeps.then ?_ (set_jobs_keeps ..) (by decide)
            refine Keeps.forEach (fun _ _ => ?_) ?_
            ·
              refine Keeps.then ?_ (modInput_keeps _ _ _) (by decide)
              exact Keeps.refl _ _
            ·
              exact Keeps.refl _ _
        ·
          refine Keeps.then ?_ (raise_keeps _ _ _) (by decide)
          refine Keeps.then ?_ (setModState_keeps _ _ _) (by decide)
          refine Keeps.forEach (fun _ _ => ?_) ?_
          ·
            refine Keeps.then ?_ (armTaps_keeps _ _) (by decide)
            exact Keeps.refl _ _
          ·
            refine Keeps.then ?_ (set_jobs_keeps ..) (by decide)
            refine Keeps.forEach (fun _ _ => ?_) ?_
            ·
              refine Keeps.then ?_ (modInput_keeps _ _ _) (by decide)
              exact Keeps.refl _ _
            ·
              exact Keeps.refl _ _
      ·
        refine Keeps.then ?_ (raise_keeps _ _ _) (by decide)
        refine Keeps.then ?_ (setModState_keeps _ _ _) (by decide)
        refine Keeps.forEach (fun _ _ => ?_) ?_
        ·
          refine Keeps.then ?_ (armTaps_keeps _ _) (by decide)
          exact Keeps.refl _ _
        ·
          refine Keeps.then ?_ (set_jobs_keeps ..) (by decide)
          refine Keeps.forEach (fun _ _ => ?_) ?_
          ·
            refine Keeps.then ?_ (modInput_keeps _ _ _) (by decide)
            exact Keeps.refl _ _
          ·
            exact Keeps.refl _ _
  ·
    refine Keeps.ite (fun _ => ?_) (fun _ => ?_)
    ·
      refine Keeps.then ?_ (programCams_keeps _) (by decide)
      refine Keeps.ite (fun _ => ?_) (fun _ => ?_)
      ·
        refine Keeps.then ?_ (ringSendActive_keeps _ _ _ _) (by decide)
        split
        ·
          refine Keeps.ite (fun _ => ?_) (fun _ => ?_)
          ·
            refine Keeps.then ?_ (raise_keeps _ _ _) (by decide)
            refine Keeps.then ?_ (raise_keeps _ _ _) (by decide)
            refine Keeps.then ?_ (setModState_keeps _ _ _) (by decide)
            refine Keeps.forEach (fun _ _ => ?_) ?_
            ·
              refine Keeps.then ?_ (armTaps_keeps _ _) (by decide)
              exact Keeps.refl _ _
            ·
              refine Keeps.then ?_ (set_jobs_keeps ..) (by decide)
              refine Keeps.forEach (fun _ _ => ?_) ?_
              ·
                refine Keeps.then ?_ (modInput_keeps _ _ _) (by decide)
                exact Keeps.refl _ _
              ·
                exact Keeps.refl _ _
          ·
            refine Keeps.then ?_ (raise_keeps _ _ _) (by decide)
            refine Keeps.then ?_ (setModState_keeps _ _ _) (by decide)
            refine Keeps.forEach (fun _ _ => ?_) ?_
            ·
              refine Keeps.then ?_ (armTaps_keeps _ _) (by decide)
              exact Keeps.refl _ _
            ·
              refine Keeps.then ?_ (set_jobs_keeps ..) (by decide)
              refine Keeps.forEach (fun _ _ => ?_) ?_
              ·
                refine Keeps.then ?_ (modInput_keeps _ _ _) (by decide)
                exact Keeps.refl _ _
              ·
                exact Keeps.refl _ _
        ·
          refine Keeps.then ?_ (raise_keeps _ _ _) (by decide)
          refine Keeps.then ?_ (setModState_keeps _ _ _) (by decide)
          refine Keeps.forEach (fun _ _ => ?_) ?_
          ·
            refine Keeps.then ?_ (armTaps_keeps _ _) (by decide)
            exact Keeps.refl _ _
          ·
            refine Keeps.then ?_ (set_jobs_keeps ..) (by decide)
            refine Keeps.forEach (fun _ _ => ?_) ?_
            ·
              refine Keeps.then ?_ (modInput_keeps _ _ _) (by decide)
              exact Keeps.refl _ _
            ·
              exact Keeps.refl _ _
      ·
        split
        ·
          refine Keeps.ite (fun _ => ?_) (fun _ => ?_)
          ·
            refine Keeps.then ?_ (raise_keeps _ _ _) (by decide)
            refine Keeps.then ?_ (raise_keeps _ _ _) (by decide)
            refine Keeps.then ?_ (setModState_keeps _ _ _) (by decide)
            refine Keeps.forEach (fun _ _ => ?_) ?_
            ·
              refine Keeps.then ?_ (armTaps_keeps _ _) (by decide)
              exact Keeps.refl _ _
            ·
              refine Keeps.then ?_ (set_jobs_keeps ..) (by decide)
              refine Keeps.forEach (fun _ _ => ?_) ?_
              ·
                refine Keeps.then ?_ (modInput_keeps _ _ _) (by decide)
                exact Keeps.refl _ _
              ·
                exact Keeps.refl _ _
          ·
            refine Keeps.then ?_ (raise_keeps _ _ _) (by decide)
            refine Keeps.then ?_ (setModState_keeps _ _ _) (by decide)
            refine Keeps.forEach (fun _ _ => ?_) ?_
            ·
              refine Keeps.then ?_ (armTaps_keeps _ _) (by decide)
              exact Keeps.refl _ _
            ·
              refine Keeps.then ?_ (set_jobs_keeps ..) (by decide)
              refine Keeps.forEach (fun _ _ => ?_) ?_
              ·
                refine Keeps.then ?_ (modInput_keeps _ _ _) (by decide)
                exact Keeps.refl _ _
              ·
                exact Keeps.refl _ _
        ·
          refine Keeps.then ?_ (raise_keeps _ _ _) (by decide)
          refine Keeps.then ?_ (setModState_keeps _ _ _) (by decide)
          refine Keeps.forEach (fun _ _ => ?_) ?_
          ·
            refine Keeps.then ?_ (armTaps_keeps _ _) (by decide)
            exact Keeps.refl _ _
          ·
            refine Keeps.then ?_ (set_jobs_keeps ..) (by decide)
            refine Keeps.forEach (fun _ _ => ?_) ?_
            ·
              refine Keeps.then ?_ (modInput_keeps _ _ _) (by decide)
              exact Keeps.refl _ _
            ·
              exact Keeps.refl _ _
    ·
      refine Keeps.then ?_ (fixStart_keeps _) (by decide)
      refine Keeps.then ?_ (programCams_keeps _) (by decide)
      refine Keeps.ite (fun _ => ?_) (fun _ => ?_)
      ·
        refine Keeps.then ?_ (ringSendActive_keeps _ _ _ _) (by decide)
        split
        ·
          refine Keeps.ite (fun _ => ?_) (fun _ => ?_)
          ·
            refine Keeps.then ?_ (raise_keeps _ _ _) (by decide)
            refine Keeps.then ?_ (raise_keeps _ _ _) (by decide)
            refine Keeps.then ?_ (setModState_keeps _ _ _) (by decide)
            refine Keeps.forEach (fun _ _ => ?_) ?_
            ·
              refine Keeps.then ?_ (armTaps_keeps _ _) (by decide)
              exact Keeps.refl _ _
            ·
              refine Keeps.then ?_ (set_jobs_keeps ..) (by decide)
              refine Keeps.forEach (fun _ _ => ?_) ?_
              ·
                refine Keeps.then ?_ (modInput_keeps _ _ _) (by decide)
                exact Keeps.refl _ _
              ·
                exact Keeps.refl _ _
          ·
            refine Keeps.then ?_ (raise_keeps _ _ _) (by decide)
            refine Keeps.then ?_ (setModState_keeps _ _ _) (by decide)
            refine Keeps.forEach (fun _ _ => ?_) ?_
            ·
              refine Keeps.then ?_ (armTaps_keeps _ _) (by decide)
              exact Keeps.refl _ _
            ·
              refine Keeps.then ?_ (set_jobs_keeps ..) (by decide)
              refine Keeps.forEach (fun _ _ => ?_) ?_
              ·
                refine Keeps.then ?_ (modInput_keeps _ _ _) (by decide)
                exact Keeps.refl _ _
              ·
                exact Keeps.refl _ _
        ·
          refine Keeps.then ?_ (raise_keeps _ _ _) (by decide)
          refine Keeps.then ?_ (setModState_keeps _ _ _) (by decide)
          refine Keeps.forEach (fun _ _ => ?_) ?_
          ·
            refine Keeps.then ?_ (armTaps_keeps _ _) (by decide)
            exact Keeps.refl _ _
          ·
            refine Keeps.then ?_ (set_jobs_keeps ..) (by decide)
            refine Keeps.forEach (fun _ _ => ?_) ?_
            ·
              refine Keeps.then ?_ (modInput_keeps _ _ _) (by decide)
              exact Keeps.refl _ _
            ·
              exact Keeps.refl _ _
      ·
        split
        ·
          refine Keeps.ite (fun _ => ?_) (fun _ => ?_)
          ·
            refine Keeps.then ?_ (raise_keeps _ _ _) (by decide)
            refine Keeps.then ?_ (raise_keeps _ _ _) (by decide)
            refine Keeps.then ?_ (setModState_keeps _ _ _) (by decide)
            refine Keeps.forEach (fun _ _ => ?_) ?_
            ·
              refine Keeps.then ?_ (armTaps_keeps _ _) (by decide)
              exact Keeps.refl _ _
            ·
              refine Keeps.then ?_ (set_jobs_keeps ..) (by decide)
              refine Keeps.forEach (fun _ _ => ?_) ?_
              ·
                refine Keeps.then ?_ (modInput_keeps _ _ _) (by decide)
                exact Keeps.refl _ _
              ·
                exact Keeps.refl _ _
          ·
            refine Keeps.then ?_ (raise_keeps _ _ _) (by decide)
            refine Keeps.then ?_ (setModState_keeps _ _ _) (by decide)
            refine Keeps.forEach (fun _ _ => ?_) ?_
            ·
              refine Keeps.then ?_ (armTaps_keeps _ _) (by decide)
              exact Keeps.refl _ _
            ·
              refine Keeps.then ?_ (set_jobs_keeps ..) (by decide)
              refine Keeps.forEach (fun _ _ => ?_) ?_
              ·
                refine Keeps.then ?_ (modInput_keeps _ _ _) (by decide)
                exact Keeps.refl _ _
              ·
                exact Keeps.refl _ _
        ·
          refine Keeps.then ?_ (raise_keeps _ _ _) (by decide)
          refine Keeps.then ?_ (setModState_keeps _ _ _) (by decide)
          refine Keeps.forEach (fun _ _ => ?_) ?_
          ·
            refine Keeps.then ?_ (armTaps_keeps _ _) (by decide)
            exact Keeps.refl _ _
          ·
            refine Keeps.then ?_ (set_jobs_keeps ..) (by decide)
            refine Keeps.forEach (fun _ _ => ?_) ?_
            ·
              refine Keeps.then ?_ (modInput_keeps _ _ _) (by decide)
              exact Keeps.refl _ _
            ·
              exact Keeps.refl _ _

end Sys2Proof.Machine
end

