-- ==== Sys2Proof/Laws/KeepsConfigRead.lean ====
section
/-! SUPPORT. What the operations of ConfigRead, PairOps, Render, Jobs, Memory leave alone, and that they keep the invariant. -/
namespace Sys2Proof.Machine
open Sys2Proof

theorem loadStore_keeps (s) : Keeps [.cal] s (loadStore s) := by
  unfold loadStore
  try dsimp only
  split
  ·
    refine Keeps.then ?_ (set_cal_keeps ..) (by decide)
    exact Keeps.refl _ _
  ·
    refine Keeps.then ?_ (set_cal_keeps ..) (by decide)
    exact Keeps.refl _ _

theorem trainPartner_keeps (c) (s) : Keeps [] s (trainPartner c s) := by
  unfold trainPartner
  refine Keeps.ite (fun _ => ?_) (fun _ => ?_)
  ·
    exact Keeps.refl _ _
  ·
    refine Keeps.then ?_ (emit_keeps _ _) (by decide)
    exact Keeps.refl _ _

theorem putInForce_keeps (area) (migrated) (src) (r) (s) : Keeps [.mod, .power, .conf, .log, .net, .pos, .cal, .time, .axes, .pair] s (putInForce area migrated src r s) := by
  unfold putInForce
  refine Keeps.ite (fun _ => ?_) (fun _ => ?_)
  ·
    refine Keeps.then ?_ (freeTime_keeps _) (by decide)
    refine Keeps.then ?_ (loadStore_keeps _) (by decide)
    refine Keeps.then ?_ (trainPartner_keeps _ _) (by decide)
    refine Keeps.then ?_ (set_mod_power_conf_pos_axes_pair_keeps ..) (by decide)
    exact Keeps.refl _ _
  ·
    refine Keeps.then ?_ (loadStore_keeps _) (by decide)
    refine Keeps.then ?_ (trainPartner_keeps _ _) (by decide)
    refine Keeps.then ?_ (set_mod_power_conf_pos_axes_pair_keeps ..) (by decide)
    exact Keeps.refl _ _

theorem setArea_keeps (k) (a) (s) : Keeps [.flash] s (setArea k a s) := by
  unfold setArea
  refine Keeps.then ?_ (set_flash_keeps ..) (by decide)
  exact Keeps.refl _ _

theorem enterTrain_keeps (s) : Keeps [.mod, .log, .net, .fire, .links, .cams] s (enterTrain s) := by
  unfold enterTrain
  refine Keeps.then ?_ (set_cams_keeps ..) (by decide)
  refine Keeps.then ?_ (bringUpLinks_keeps _) (by decide)
  refine Keeps.then ?_ (setModState_keeps _ _ _) (by decide)
  exact Keeps.refl _ _

theorem migrationFailed_keeps (format) (field) (s) : Keeps [.mod, .power, .flash, .conf, .update, .log, .thermal, .gov, .net, .jobs, .render, .mem, .pos, .fire, .links, .cams, .cal, .time, .axes, .ring, .pair, .loops] s (migrationFailed format field s) := by
  unfold migrationFailed
  refine Keeps.then ?_ (enterBoot_keeps _ _) (by decide)
  refine Keeps.ite (fun _ => ?_) (fun _ => ?_)
  ·
    refine Keeps.then ?_ (atNextStart_keeps _ _ _) (by decide)
    refine Keeps.then ?_ (writeBoot_keeps _ _ _ _ _) (by decide)
    refine Keeps.then ?_ (markSlot_keeps _ _ _) (by decide)
    refine Keeps.then ?_ (raise_keeps _ _ _) (by decide)
    exact Keeps.refl _ _
  ·
    refine Keeps.then ?_ (writeBoot_keeps _ _ _ _ _) (by decide)
    refine Keeps.then ?_ (markSlot_keeps _ _ _) (by decide)
    refine Keeps.then ?_ (raise_keeps _ _ _) (by decide)
    exact Keeps.refl _ _

theorem helperMismatch_keeps (kind) (s) : Keeps [.mod, .power, .flash] s (helperMismatch kind s) := by
  unfold helperMismatch
  refine Keeps.then ?_ (atNextStart_keeps _ _ _) (by decide)
  refine Keeps.then ?_ (set_mod_keeps ..) (by decide)
  refine Keeps.then ?_ (writeBoot_keeps _ _ _ _ _) (by decide)
  refine Keeps.then ?_ (markSlot_keeps _ _ _) (by decide)
  exact Keeps.refl _ _

theorem takeConfig_keeps (area) (migrated) (src) (img) (s) : Keeps [.mod, .power, .flash, .conf, .log, .net, .pos, .fire, .links, .cams, .cal, .time, .axes, .pair] s (takeConfig area migrated src img s) := by
  unfold takeConfig
  try dsimp only
  split
  ·
    refine Keeps.then ?_ (helperMismatch_keeps _ _) (by decide)
    exact Keeps.refl _ _
  ·
    refine Keeps.then ?_ (enterTrain_keeps _) (by decide)
    refine Keeps.then ?_ (putInForce_keeps _ _ _ _ _) (by decide)
    exact Keeps.refl _ _

theorem execConfigRead_keeps (t) (s) : KeepsO [.mod, .power, .flash, .conf, .update, .log, .thermal, .gov, .net, .jobs, .render, .mem, .pos, .fire, .links, .cams, .cal, .time, .axes, .ring, .pair, .loops] (beginAt t s) (execConfigRead t s) := by
  unfold execConfigRead
  refine KeepsO.next ?_
  refine Keeps.ite (fun _ => ?_) (fun _ => ?_)
  ·
    exact Keeps.refl _ _
  ·
    try dsimp only
    split
    ·
      refine Keeps.then ?_ (enterMaintenance_keeps _ _) (by decide)
      refine Keeps.forEach (fun _ _ => ?_) ?_
      ·
        split
        ·
          refine Keeps.then ?_ (raise_keeps _ _ _) (by decide)
          exact Keeps.refl _ _
        ·
          exact Keeps.refl _ _
      ·
        exact Keeps.refl _ _
    ·
      refine Keeps.ite (fun _ => ?_) (fun _ => ?_)
      ·
        refine Keeps.then ?_ (takeConfig_keeps _ _ _ _ _) (by decide)
        refine Keeps.forEach (fun _ _ => ?_) ?_
        ·
          split
          ·
            refine Keeps.then ?_ (raise_keeps _ _ _) (by decide)
            exact Keeps.refl _ _
          ·
            exact Keeps.refl _ _
        ·
          exact Keeps.refl _ _
      ·
        split
        ·
          refine Keeps.then ?_ (takeConfig_keeps _ _ _ _ _) (by decide)
          refine Keeps.forEach (fun _ _ => ?_) ?_
          ·
            split
            ·
              refine Keeps.then ?_ (raise_keeps _ _ _) (by decide)
              exact Keeps.refl _ _
            ·
              exact Keeps.refl _ _
          ·
            exact Keeps.refl _ _
        ·
          split
          ·
            refine Keeps.then ?_ (migrationFailed_keeps _ _ _) (by decide)
            refine Keeps.forEach (fun _ _ => ?_) ?_
            ·
              split
              ·
                refine Keeps.then ?_ (raise_keeps _ _ _) (by decide)
                exact Keeps.refl _ _
              ·
                exact Keeps.refl _ _
            ·
              exact Keeps.refl _ _
          ·
            refine Keeps.then ?_ (takeConfig_keeps _ _ _ _ _) (by decide)
            refine Keeps.then ?_ (raise_keeps _ _ _) (by decide)
            refine Keeps.then ?_ (setArea_keeps _ _ _) (by decide)
            refine Keeps.then ?_ (setArea_keeps _ _ _) (by decide)
            refine Keeps.forEach (fun _ _ => ?_) ?_
            ·
              split
              ·
                refine Keeps.then ?_ (raise_keeps _ _ _) (by decide)
                exact Keeps.refl _ _
              ·
                exact Keeps.refl _ _
            ·
              exact Keeps.refl _ _

theorem setPairState_keeps (st) (s) : Keeps [.log, .net, .cal, .pair] s (setPairState st s) := by
  unfold setPairState
  refine Keeps.ite (fun _ => ?_) (fun _ => ?_)
  ·
    exact Keeps.refl _ _
  ·
    refine Keeps.then ?_ (raise_keeps _ _ _) (by decide)
    refine Keeps.then ?_ (set_cal_pair_keeps ..) (by decide)
    exact Keeps.refl _ _

theorem tryStandby_keeps (s) : Keeps [.log, .net, .cal, .pair] s (tryStandby s) := by
  unfold tryStandby
  refine Keeps.ite (fun _ => ?_) (fun _ => ?_)
  ·
    refine Keeps.then ?_ (raise_keeps _ _ _) (by decide)
    refine Keeps.then ?_ (set_pair_keeps ..) (by decide)
    refine Keeps.then ?_ (setPairState_keeps _ _) (by decide)
    exact Keeps.refl _ _
  ·
    exact Keeps.refl _ _

theorem enterSevered_keeps (cause) (s) : Keeps [.log, .net, .cal, .pair] s (enterSevered cause s) := by
  unfold enterSevered
  refine Keeps.then ?_ (set_pair_keeps ..) (by decide)
  refine Keeps.then ?_ (raise_keeps _ _ _) (by decide)
  refine Keeps.then ?_ (setPairState_keeps _ _) (by decide)
  exact Keeps.refl _ _

theorem stopOutputs_keeps (s) : Keeps [.fire, .axes] s (stopOutputs s) := by
  unfold stopOutputs
  refine Keeps.then ?_ (endHalts_keeps _) (by decide)
  refine Keeps.forEach (fun _ _ => ?_) ?_
  ·
    refine Keeps.then ?_ (endPacket_keeps _ _) (by decide)
    exact Keeps.refl _ _
  ·
    refine Keeps.then ?_ (set_axes_keeps ..) (by decide)
    exact Keeps.refl _ _

theorem dropToCatchup_keeps (s) : Keeps [.log, .net, .cal, .pair] s (dropToCatchup s) := by
  unfold dropToCatchup
  refine Keeps.ite (fun _ => ?_) (fun _ => ?_)
  ·
    refine Keeps.then ?_ (set_pair_keeps ..) (by decide)
    refine Keeps.then ?_ (setPairState_keeps _ _) (by decide)
    exact Keeps.refl _ _
  ·
    exact Keeps.refl _ _

theorem diverge_keeps (cause) (s) : Keeps [.log, .net, .cal, .pair] s (diverge cause s) := by
  unfold diverge
  refine Keeps.ite (fun _ => ?_) (fun _ => ?_)
  ·
    refine Keeps.then ?_ (enterSevered_keeps _ _) (by decide)
    exact Keeps.refl _ _
  ·
    exact Keeps.refl _ _

theorem sendSignature_keeps (id) (s) : Keeps [.pair] s (sendSignature id s) := by
  unfold sendSignature
  refine Keeps.ite (fun _ => ?_) (fun _ => ?_)
  ·
    refine Keeps.then ?_ (sendPartner_keeps _ _ _) (by decide)
    exact Keeps.refl _ _
  ·
    exact Keeps.refl _ _

theorem compareSignature_keeps (id) (s) : Keeps [.log, .net, .jobs, .cal, .pair] s (compareSignature id s) := by
  unfold compareSignature
  split
  ·
    exact Keeps.refl _ _
  ·
    split
    ·
      refine Keeps.ite (fun _ => ?_) (fun _ => ?_)
      ·
        refine Keeps.ite (fun _ => ?_) (fun _ => ?_)
        ·
          refine Keeps.then ?_ (set_pair_keeps ..) (by decide)
          exact Keeps.refl _ _
        ·
          refine Keeps.ite (fun _ => ?_) (fun _ => ?_)
          ·
            refine Keeps.then ?_ (diverge_keeps _ _) (by decide)
            refine Keeps.then ?_ (set_pair_keeps ..) (by decide)
            exact Keeps.refl _ _
          ·
            refine Keeps.then ?_ (modPage_keeps _ _ _) (by decide)
            refine Keeps.then ?_ (set_pair_keeps ..) (by decide)
            exact Keeps.refl _ _
      ·
        exact Keeps.refl _ _
    ·
      exact Keeps.refl _ _

theorem finishPage_keeps (id) (outcome) (s) : Keeps [.net, .jobs, .pair] s (finishPage id outcome s) := by
  unfold finishPage
  split
  ·
    exact Keeps.refl _ _
  ·
    refine Keeps.ite (fun _ => ?_) (fun _ => ?_)
    ·
      refine Keeps.then ?_ (finishResult_keeps _ _ _) (by decide)
      refine Keeps.then ?_ (modPage_keeps _ _ _) (by decide)
      exact Keeps.refl _ _
    ·
      exact Keeps.refl _ _

theorem feedCompressors_keeps (n s) : Keeps [.render] s (feedCompressors n s) := by
  induction n generalizing s with
  | zero => exact Keeps.refl _ _
  | succ n ih =>
    unfold feedCompressors
    split
    · exact Keeps.refl _ _
    · split
      · exact ((Keeps.refl _ _).then (set_render_keeps ..) (by decide)).then (ih _) (by decide)
      · exact Keeps.refl _ _

theorem modNow_keeps (f) (s) : Keeps [.render] s (modNow f s) := by
  unfold modNow
  refine Keeps.then ?_ (set_render_keeps ..) (by decide)
  exact Keeps.refl _ _

theorem takeLines_keeps (last) (l) (s) : Keeps [.render] s (takeLines last l s) := by
  unfold takeLines
  refine Keeps.then ?_ (feedCompressors_keeps _ _) (by decide)
  refine Keeps.then ?_ (set_render_keeps ..) (by decide)
  refine Keeps.then ?_ (modNow_keeps _ _) (by decide)
  exact Keeps.refl _ _

theorem feedMarkRef_keeps (id) (f) (nb) (files) (last) (bars) (s) : Keeps [.jobs, .render] s (feedMarkRef id f nb files last bars s) := by
  unfold feedMarkRef
  split
  ·
    exact Keeps.refl _ _
  ·
    try dsimp only
    split
    ·
      refine Keeps.then ?_ (modPage_keeps _ _ _) (by decide)
      refine Keeps.then ?_ (modNow_keeps _ _) (by decide)
      exact Keeps.refl _ _
    ·
      refine Keeps.then ?_ (modNow_keeps _ _) (by decide)
      exact Keeps.refl _ _

theorem putPageRow_keeps (id) (row) (s) : Keeps [.jobs] s (putPageRow id row s) := by
  unfold putPageRow
  refine Keeps.then ?_ (modPage_keeps _ _ _) (by decide)
  exact Keeps.refl _ _

theorem feedReference_then {w : List Group} {put : List Byte → State → State} {a s : State} (f nb files last bars)
    (hw : [Group.render] ⊆ w) (hf : ∀ x s, Keeps w s (put x s)) (h : Keeps w a s) :
    Keeps w a (feedReference f nb files last bars put s) := by
  unfold feedReference
  split
  · exact h
  · dsimp only
    split
    · exact (h.then (modNow_keeps ..) hw).then (hf _ _) fun _ h => h
    · exact h.then (modNow_keeps ..) hw

theorem deliverLine_keeps (pg) (r) (values) (s) : Keeps [.jobs, .render] s (deliverLine pg r values s) := by
  unfold deliverLine
  refine Keeps.then ?_ (takeLines_keeps _ _ _) (by decide)
  refine Keeps.then ?_ (modNow_keeps _ _) (by decide)
  split
  ·
    refine Keeps.ite (fun _ => ?_) (fun _ => ?_)
    ·
      refine Keeps.then ?_ (feedMarkRef_keeps _ _ _ _ _ _ _) (by decide)
      refine Keeps.ite (fun _ => ?_) (fun _ => ?_)
      ·
        refine feedReference_then _ _ _ _ _ (by decide) (fun _ _ => ?_) ?_
        ·
          refine Keeps.then ?_ (putPageRow_keeps _ _ _) (by decide)
          exact Keeps.refl _ _
        ·
          refine Keeps.then ?_ (modPage_keeps _ _ _) (by decide)
          exact Keeps.refl _ _
      ·
        refine Keeps.then ?_ (modPage_keeps _ _ _) (by decide)
        exact Keeps.refl _ _
    ·
      refine Keeps.ite (fun _ => ?_) (fun _ => ?_)
      ·
        refine feedReference_then _ _ _ _ _ (by decide) (fun _ _ => ?_) ?_
        ·
          refine Keeps.then ?_ (putPageRow_keeps _ _ _) (by decide)
          exact Keeps.refl _ _
        ·
          refine Keeps.then ?_ (modPage_keeps _ _ _) (by decide)
          exact Keeps.refl _ _
      ·
        refine Keeps.then ?_ (modPage_keeps _ _ _) (by decide)
        exact Keeps.refl _ _
  ·
    refine Keeps.ite (fun _ => ?_) (fun _ => ?_)
    ·
      refine feedReference_then _ _ _ _ _ (by decide) (fun _ _ => ?_) ?_
      ·
        refine Keeps.then ?_ (putPageRow_keeps _ _ _) (by decide)
        exact Keeps.refl _ _
      ·
        refine Keeps.then ?_ (modPage_keeps _ _ _) (by decide)
        exact Keeps.refl _ _
    ·
      refine Keeps.then ?_ (modPage_keeps _ _ _) (by decide)
      exact Keeps.refl _ _

theorem noteUnresolved_keeps (id) (s) : Keeps [.log, .net, .jobs] s (noteUnresolved id s) := by
  unfold noteUnresolved
  split
  ·
    refine Keeps.then ?_ (pageEvent_keeps _ _ _ _) (by decide)
    exact Keeps.refl _ _
  ·
    exact Keeps.refl _ _

theorem freeEngine_keeps (s) : Keeps [.render] s (freeEngine s) := by
  unfold freeEngine
  refine Keeps.then ?_ (set_render_keeps ..) (by decide)
  exact Keeps.refl _ _

theorem quarantinePage_keeps (id) (s) : Keeps [.mod, .power, .conf, .update, .log, .gov, .net, .jobs, .render, .pos, .fire, .cams, .cal, .ring, .pair] s (quarantinePage id s) := by
  unfold quarantinePage
  refine Keeps.then ?_ (beginSeal_keeps _) (by decide)
  refine Keeps.then ?_ (retryHold_keeps _) (by decide)
  refine Keeps.then ?_ (noteUnresolved_keeps _ _) (by decide)
  refine Keeps.then ?_ (finishPage_keeps _ _ _) (by decide)
  refine Keeps.then ?_ (modPage_keeps _ _ _) (by decide)
  refine Keeps.then ?_ (freeEngine_keeps _) (by decide)
  exact Keeps.refl _ _

theorem failLine_keeps (pg) (y) (s) : Keeps [.mod, .power, .conf, .update, .log, .gov, .net, .jobs, .render, .pos, .fire, .cams, .cal, .ring, .pair] s (failLine pg y s) := by
  unfold failLine
  refine Keeps.ite (fun _ => ?_) (fun _ => ?_)
  ·
    refine Keeps.then ?_ (quarantinePage_keeps _ _) (by decide)
    refine Keeps.then ?_ (modPage_keeps _ _ _) (by decide)
    refine Keeps.then ?_ (modNow_keeps _ _) (by decide)
    refine Keeps.then ?_ (set_render_keeps ..) (by decide)
    exact Keeps.refl _ _
  ·
    refine Keeps.then ?_ (modPage_keeps _ _ _) (by decide)
    refine Keeps.then ?_ (modNow_keeps _ _) (by decide)
    refine Keeps.then ?_ (set_render_keeps ..) (by decide)
    exact Keeps.refl _ _

theorem judgeRegion_keeps (id) (i) (g) (s) : Keeps [.log, .net, .jobs, .render] s (judgeRegion id i g s) := by
  unfold judgeRegion
  refine Keeps.ite (fun _ => ?_) (fun _ => ?_)
  ·
    refine Keeps.then ?_ (set_render_keeps ..) (by decide)
    refine Keeps.then ?_ (modPage_keeps _ _ _) (by decide)
    exact Keeps.refl _ _
  ·
    refine Keeps.then ?_ (raise_keeps _ _ _) (by decide)
    refine Keeps.then ?_ (modNow_keeps _ _) (by decide)
    refine Keeps.then ?_ (set_render_keeps ..) (by decide)
    refine Keeps.then ?_ (modPage_keeps _ _ _) (by decide)
    exact Keeps.refl _ _

theorem pageLine_keeps (pg) (r) (s) : Keeps [.mod, .power, .conf, .update, .log, .gov, .net, .jobs, .render, .pos, .fire, .cams, .cal, .ring, .pair] s (pageLine pg r s) := by
  unfold pageLine
  refine Keeps.ite (fun _ => ?_) (fun _ => ?_)
  ·
    refine Keeps.then ?_ (failLine_keeps _ _ _) (by decide)
    refine Keeps.then ?_ (set_render_keeps ..) (by decide)
    refine Keeps.forEach (fun _ _ => ?_) ?_
    ·
      refine Keeps.then ?_ (judgeRegion_keeps _ _ _ _) (by decide)
      exact Keeps.refl _ _
    ·
      refine Keeps.then ?_ (modNow_keeps _ _) (by decide)
      exact Keeps.refl _ _
  ·
    refine Keeps.then ?_ (deliverLine_keeps _ _ _ _) (by decide)
    refine Keeps.then ?_ (set_render_keeps ..) (by decide)
    refine Keeps.forEach (fun _ _ => ?_) ?_
    ·
      refine Keeps.then ?_ (judgeRegion_keeps _ _ _ _) (by decide)
      exact Keeps.refl _ _
    ·
      refine Keeps.then ?_ (modNow_keeps _ _) (by decide)
      exact Keeps.refl _ _

theorem modStrip_keeps (n) (f) (s) : Keeps [.jobs] s (modStrip n f s) := by
  unfold modStrip
  refine Keeps.then ?_ (modArmed_keeps _ _) (by decide)
  exact Keeps.refl _ _

theorem putStripRow_keeps (n) (row) (s) : Keeps [.jobs] s (putStripRow n row s) := by
  unfold putStripRow
  refine Keeps.then ?_ (modStrip_keeps _ _ _) (by decide)
  exact Keeps.refl _ _

theorem stripLine_keeps (st) (r) (s) : Keeps [.jobs, .render] s (stripLine st r s) := by
  unfold stripLine
  split
  ·
    refine Keeps.then ?_ (takeLines_keeps _ _ _) (by decide)
    refine Keeps.then ?_ (modNow_keeps _ _) (by decide)
    refine feedReference_then _ _ _ _ _ (by decide) (fun _ _ => ?_) ?_
    ·
      refine Keeps.then ?_ (putStripRow_keeps _ _ _) (by decide)
      exact Keeps.refl _ _
    ·
      exact Keeps.refl _ _
  ·
    exact Keeps.refl _ _

theorem corruptTile_keeps (sf) (tile) (s) : Keeps [.log, .net, .jobs, .render] s (corruptTile sf tile s) := by
  unfold corruptTile
  refine Keeps.then ?_ (beginSeal_keeps _) (by decide)
  refine Keeps.then ?_ (raise_keeps _ _ _) (by decide)
  refine Keeps.then ?_ (abandonRendering_keeps _) (by decide)
  refine Keeps.then ?_ (set_jobs_render_keeps ..) (by decide)
  exact Keeps.refl _ _

theorem storeBlock_keeps (ch) (b) (s) : Keeps [.free, .jobs] s (storeBlock ch b s) := by
  unfold storeBlock
  split
  ·
    exact Keeps.refl _ _
  ·
    try dsimp only
    split
    ·
      refine Keeps.then ?_ (modStrip_keeps _ _ _) (by decide)
      refine Keeps.then ?_ (drawFree_keeps _) (by decide)
      exact Keeps.refl _ _
    ·
      refine Keeps.then ?_ (modPage_keeps _ _ _) (by decide)
      refine Keeps.then ?_ (drawFree_keeps _) (by decide)
      exact Keeps.refl _ _

theorem execChunkCompressed_keeps (t) (comp) (mismatch) (s) : KeepsO [.free, .log, .net, .jobs, .render] (beginAt t s) (execChunkCompressed t comp mismatch s) := by
  unfold execChunkCompressed
  try dsimp only
  split
  ·
    refine KeepsO.next ?_
    exact Keeps.refl _ _
  ·
    split
    ·
      refine KeepsO.next ?_
      exact Keeps.refl _ _
    ·
      refine KeepsO.next ?_
      refine Keeps.then ?_ (feedCompressors_keeps _ _) (by decide)
      refine Keeps.ite (fun _ => ?_) (fun _ => ?_)
      ·
        refine Keeps.then ?_ (raise_keeps _ _ _) (by decide)
        refine Keeps.ite (fun _ => ?_) (fun _ => ?_)
        ·
          refine Keeps.then ?_ (raise_keeps _ _ _) (by decide)
          refine Keeps.then ?_ (set_render_keeps ..) (by decide)
          refine Keeps.then ?_ (storeBlock_keeps _ _ _) (by decide)
          refine Keeps.then ?_ (set_render_keeps ..) (by decide)
          exact Keeps.refl _ _
        ·
          refine Keeps.then ?_ (storeBlock_keeps _ _ _) (by decide)
          refine Keeps.then ?_ (set_render_keeps ..) (by decide)
          exact Keeps.refl _ _
      ·
        refine Keeps.ite (fun _ => ?_) (fun _ => ?_)
        ·
          refine Keeps.then ?_ (raise_keeps _ _ _) (by decide)
          refine Keeps.then ?_ (set_render_keeps ..) (by decide)
          refine Keeps.then ?_ (storeBlock_keeps _ _ _) (by decide)
          refine Keeps.then ?_ (set_render_keeps ..) (by decide)
          exact Keeps.refl _ _
        ·
          refine Keeps.then ?_ (storeBlock_keeps _ _ _) (by decide)
          refine Keeps.then ?_ (set_render_keeps ..) (by decide)
          exact Keeps.refl _ _

theorem countRetries_keeps (n) (s) : Keeps [.render] s (countRetries n s) := by
  unfold countRetries
  refine Keeps.then ?_ (set_render_keeps ..) (by decide)
  exact Keeps.refl _ _

theorem countFailures_keeps (n) (s) : Keeps [.render] s (countFailures n s) := by
  unfold countFailures
  refine Keeps.then ?_ (set_render_keeps ..) (by decide)
  exact Keeps.refl _ _

theorem failBlock_keeps (limit) (n) (b) (s) : Keeps [.log, .net, .jobs, .render] s (failBlock limit n b s) := by
  unfold failBlock
  refine Keeps.ite (fun _ => ?_) (fun _ => ?_)
  ·
    refine Keeps.then ?_ (corruptTile_keeps _ _ _) (by decide)
    refine Keeps.then ?_ (countFailures_keeps _ _) (by decide)
    refine Keeps.then ?_ (countRetries_keeps _ _) (by decide)
    refine Keeps.then ?_ (modNow_keeps _ _) (by decide)
    exact Keeps.refl _ _
  ·
    refine Keeps.then ?_ (countFailures_keeps _ _) (by decide)
    refine Keeps.then ?_ (countRetries_keeps _ _) (by decide)
    refine Keeps.then ?_ (modNow_keeps _ _) (by decide)
    exact Keeps.refl _ _

theorem failContext_keeps (limit) (c) (s) : Keeps [.log, .net, .jobs, .render] s (failContext limit c s) := by
  unfold failContext
  split
  ·
    exact Keeps.refl _ _
  ·
    refine Keeps.ite (fun _ => ?_) (fun _ => ?_)
    ·
      exact Keeps.refl _ _
    ·
      refine Keeps.then ?_ (failBlock_keeps _ _ _ _) (by decide)
      refine Keeps.then ?_ (set_render_keeps ..) (by decide)
      exact Keeps.refl _ _

theorem pageDone_keeps (id) (s) : Keeps [.mod, .power, .conf, .update, .log, .gov, .net, .jobs, .render, .pos, .fire, .cams, .cal, .ring, .pair] s (pageDone id s) := by
  unfold pageDone
  refine Keeps.then ?_ (beginSeal_keeps _) (by decide)
  refine Keeps.then ?_ (retryHold_keeps _) (by decide)
  refine Keeps.then ?_ (tryStandby_keeps _) (by decide)
  refine Keeps.then ?_ (keepOld_keeps _ _) (by decide)
  refine Keeps.then ?_ (compareSignature_keeps _ _) (by decide)
  refine Keeps.then ?_ (sendSignature_keeps _ _) (by decide)
  refine Keeps.then ?_ (noteUnresolved_keeps _ _) (by decide)
  refine Keeps.then ?_ (finishPage_keeps _ _ _) (by decide)
  refine Keeps.then ?_ (modPage_keeps _ _ _) (by decide)
  refine Keeps.then ?_ (freeEngine_keeps _) (by decide)
  refine Keeps.then ?_ (set_render_keeps ..) (by decide)
  exact Keeps.refl _ _

theorem stripDone_keeps (n) (s) : Keeps [.jobs, .render] s (stripDone n s) := by
  unfold stripDone
  refine Keeps.then ?_ (beginSeal_keeps _) (by decide)
  refine Keeps.then ?_ (modStrip_keeps _ _ _) (by decide)
  refine Keeps.then ?_ (freeEngine_keeps _) (by decide)
  exact Keeps.refl _ _

theorem execPageRendered_keeps (t) (s) : KeepsO [.mod, .power, .conf, .update, .log, .gov, .net, .jobs, .render, .pos, .fire, .cams, .cal, .ring, .pair] (beginAt t s) (execPageRendered t s) := by
  unfold execPageRendered
  try dsimp only
  split
  ·
    refine KeepsO.next ?_
    exact Keeps.refl _ _
  ·
    refine KeepsO.ite (fun _ => ?_) (fun _ => ?_)
    ·
      refine KeepsO.next ?_
      exact Keeps.refl _ _
    ·
      split
      ·
        refine KeepsO.next ?_
        refine Keeps.ite (fun _ => ?_) (fun _ => ?_)
        ·
          refine Keeps.then ?_ (stripDone_keeps _ _) (by decide)
          exact Keeps.refl _ _
        ·
          exact Keeps.refl _ _
      ·
        split
        ·
          refine KeepsO.next ?_
          exact Keeps.refl _ _
        ·
          refine KeepsO.next ?_
          refine Keeps.ite (fun _ => ?_) (fun _ => ?_)
          ·
            refine Keeps.then ?_ (pageDone_keeps _ _) (by decide)
            exact Keeps.refl _ _
          ·
            exact Keeps.refl _ _

theorem execPageRenderStart_keeps (t) (s) : KeepsO [.log, .net, .jobs, .render, .cams, .cal] (beginAt t s) (execPageRenderStart t s) := by
  unfold execPageRenderStart
  refine KeepsO.next ?_
  refine Keeps.then ?_ (beginSeal_keeps _) (by decide)
  refine Keeps.then ?_ (takeUp_keeps _) (by decide)
  refine Keeps.then ?_ (nextRerender_keeps _) (by decide)
  exact Keeps.refl _ _

theorem execCompositionLine_keeps (t) (line) (s) : KeepsO [.mod, .power, .conf, .update, .log, .gov, .net, .jobs, .render, .pos, .fire, .cams, .cal, .ring, .pair] (beginAt t s) (execCompositionLine t line s) := by
  unfold execCompositionLine
  try dsimp only
  split
  ·
    refine KeepsO.next ?_
    exact Keeps.refl _ _
  ·
    split
    ·
      refine KeepsO.next ?_
      refine Keeps.ite (fun _ => ?_) (fun _ => ?_)
      ·
        refine Keeps.then ?_ (stripLine_keeps _ _ _) (by decide)
        exact Keeps.refl _ _
      ·
        exact Keeps.refl _ _
    ·
      split
      ·
        refine KeepsO.next ?_
        exact Keeps.refl _ _
      ·
        refine KeepsO.ite (fun _ => ?_) (fun _ => ?_)
        ·
          refine KeepsO.next ?_
          exact Keeps.refl _ _
        ·
          refine KeepsO.ite (fun _ => ?_) (fun _ => ?_)
          ·
            refine KeepsO.next ?_
            refine Keeps.then ?_ (beginSeal_keeps _) (by decide)
            refine Keeps.then ?_ (abandonRendering_keeps _) (by decide)
            exact Keeps.refl _ _
          ·
            try dsimp only
            split
            ·
              refine KeepsO.next ?_
              refine Keeps.forEach (fun _ _ => ?_) ?_
              ·
                refine Keeps.then ?_ (failContext_keeps _ _ _) (by decide)
                exact Keeps.refl _ _
              ·
                exact Keeps.refl _ _
            ·
              refine KeepsO.next ?_
              refine Keeps.then ?_ (failBlock_keeps _ _ _ _) (by decide)
              refine Keeps.forEach (fun _ _ => ?_) ?_
              ·
                refine Keeps.then ?_ (failContext_keeps _ _ _) (by decide)
                exact Keeps.refl _ _
              ·
                exact Keeps.refl _ _
            ·
              refine KeepsO.next ?_
              refine Keeps.then ?_ (failBlock_keeps _ _ _ _) (by decide)
              refine Keeps.forEach (fun _ _ => ?_) ?_
              ·
                refine Keeps.then ?_ (failContext_keeps _ _ _) (by decide)
                exact Keeps.refl _ _
              ·
                exact Keeps.refl _ _
            ·
              refine KeepsO.next ?_
              refine Keeps.then ?_ (pageLine_keeps _ _ _) (by decide)
              refine Keeps.forEach (fun _ _ => ?_) ?_
              ·
                refine Keeps.then ?_ (failContext_keeps _ _ _) (by decide)
                exact Keeps.refl _ _
              ·
                exact Keeps.refl _ _

theorem withdrawPage_keeps (id) (s) : Keeps [.net, .jobs, .render, .pair] s (withdrawPage id s) := by
  unfold withdrawPage
  refine Keeps.then ?_ (set_jobs_render_keeps ..) (by decide)
  refine Keeps.then ?_ (finishPage_keeps _ _ _) (by decide)
  refine Keeps.ite (fun _ => ?_) (fun _ => ?_)
  ·
    refine Keeps.then ?_ (abandonRendering_keeps _) (by decide)
    exact Keeps.refl _ _
  ·
    exact Keeps.refl _ _

theorem msgPageFree_keeps (i) (p) (s) : KeepsV [.net, .jobs, .render, .pair] s (msgPageFree i p s) := by
  unfold msgPageFree
  try dsimp only
  split
  ·
    exact KeepsV.error
  ·
    refine KeepsV.ok ?_
    refine Keeps.then ?_ (withdrawPage_keeps _ _) (by decide)
    exact Keeps.refl _ _

theorem abandonSeals_keeps (id) (s) : Keeps [.net, .jobs, .pair] s (abandonSeals id s) := by
  unfold abandonSeals
  refine Keeps.then ?_ (beginSeal_keeps _) (by decide)
  refine Keeps.forEach (fun _ _ => ?_) ?_
  ·
    refine Keeps.then ?_ (finishResult_keeps _ _ _) (by decide)
    exact Keeps.refl _ _
  ·
    refine Keeps.then ?_ (set_jobs_keeps ..) (by decide)
    exact Keeps.refl _ _

theorem msgSurfaceFree_keeps (i) (p) (s) : KeepsV [.net, .jobs, .pair] s (msgSurfaceFree i p s) := by
  unfold msgSurfaceFree
  try dsimp only
  split
  ·
    exact KeepsV.error
  ·
    refine KeepsV.ok ?_
    refine Keeps.then ?_ (set_jobs_keeps ..) (by decide)
    refine Keeps.then ?_ (abandonSeals_keeps _ _) (by decide)
    exact Keeps.refl _ _

theorem msgPageDefine_keeps (i) (p) (s) : KeepsV [.net, .jobs, .render, .pair] s (msgPageDefine i p s) := by
  unfold msgPageDefine
  refine KeepsV.ite (fun _ => ?_) (fun _ => ?_)
  ·
    exact KeepsV.error
  ·
    try dsimp only
    split
    ·
      exact KeepsV.error
    ·
      refine KeepsV.ok ?_
      refine Keeps.then ?_ (fixCosts_keeps _) (by decide)
      refine Keeps.then ?_ (set_jobs_keeps ..) (by decide)
      refine Keeps.then ?_ (addPending_keeps _ _ _) (by decide)
      refine Keeps.then ?_ (withdrawPage_keeps _ _) (by decide)
      exact Keeps.refl _ _

theorem msgLutDefine_keeps (i) (p) (s) : KeepsV [.jobs, .mem] s (msgLutDefine i p s) := by
  unfold msgLutDefine
  try dsimp only
  split
  ·
    exact KeepsV.error
  ·
    refine KeepsV.ok ?_
    refine Keeps.then ?_ (set_jobs_mem_keeps ..) (by decide)
    exact Keeps.refl _ _

theorem msgSurfaceSeal_keeps (i) (p) (s) : KeepsV [.net, .jobs] s (msgSurfaceSeal i p s) := by
  unfold msgSurfaceSeal
  refine KeepsV.ite (fun _ => ?_) (fun _ => ?_)
  ·
    exact KeepsV.error
  ·
    refine KeepsV.ok ?_
    refine Keeps.then ?_ (beginSeal_keeps _) (by decide)
    refine Keeps.then ?_ (set_jobs_keeps ..) (by decide)
    refine Keeps.then ?_ (addPending_keeps _ _ _) (by decide)
    exact Keeps.refl _ _

theorem msgSurfaceData_keeps (i) (p) (s) : KeepsV [.jobs] s (msgSurfaceData i p s) := by
  unfold msgSurfaceData
  try dsimp only
  split
  ·
    exact KeepsV.error
  ·
    refine KeepsV.ite (fun _ => ?_) (fun _ => ?_)
    ·
      exact KeepsV.error
    ·
      refine KeepsV.ite (fun _ => ?_) (fun _ => ?_)
      ·
        exact KeepsV.error
      ·
        refine KeepsV.ite (fun _ => ?_) (fun _ => ?_)
        ·
          exact KeepsV.error
        ·
          refine KeepsV.ite (fun _ => ?_) (fun _ => ?_)
          ·
            exact KeepsV.error
          ·
            refine KeepsV.ok ?_
            refine Keeps.then ?_ (set_jobs_keeps ..) (by decide)
            exact Keeps.refl _ _

theorem forgetCosts_keeps (id) (s) : Keeps [.jobs] s (forgetCosts id s) := by
  unfold forgetCosts
  refine Keeps.then ?_ (set_jobs_keeps ..) (by decide)
  exact Keeps.refl _ _

theorem msgSurfaceDefine_keeps (i) (p) (s) : KeepsV [.net, .jobs, .pair] s (msgSurfaceDefine i p s) := by
  unfold msgSurfaceDefine
  try dsimp only
  split
  ·
    exact KeepsV.error
  ·
    refine KeepsV.ok ?_
    refine Keeps.then ?_ (fixCosts_keeps _) (by decide)
    refine Keeps.then ?_ (forgetCosts_keeps _ _) (by decide)
    refine Keeps.then ?_ (set_jobs_keeps ..) (by decide)
    refine Keeps.then ?_ (abandonSeals_keeps _ _) (by decide)
    exact Keeps.refl _ _

theorem endSeal_keeps (s) : Keeps [.net, .jobs, .render, .pair] s (endSeal s) := by
  unfold endSeal
  split
  ·
    exact Keeps.refl _ _
  ·
    try dsimp only
    split
    ·
      refine Keeps.then ?_ (beginSeal_keeps _) (by decide)
      refine Keeps.then ?_ (finishResult_keeps _ _ _) (by decide)
      refine Keeps.then ?_ (set_jobs_keeps ..) (by decide)
      exact Keeps.refl _ _
    ·
      refine Keeps.then ?_ (beginSeal_keeps _) (by decide)
      refine Keeps.then ?_ (finishResult_keeps _ _ _) (by decide)
      refine Keeps.ite (fun _ => ?_) (fun _ => ?_)
      ·
        refine Keeps.then ?_ (countFailures_keeps _ _) (by decide)
        refine Keeps.ite (fun _ => ?_) (fun _ => ?_)
        ·
          refine Keeps.then ?_ (set_jobs_keeps ..) (by decide)
          try (refine Keeps.then ?_ (set_jobs_keeps ..) (by decide))
          exact Keeps.refl _ _
        ·
          refine Keeps.then ?_ (set_jobs_keeps ..) (by decide)
          exact Keeps.refl _ _
      ·
        refine Keeps.ite (fun _ => ?_) (fun _ => ?_)
        ·
          refine Keeps.then ?_ (set_jobs_keeps ..) (by decide)
          try (refine Keeps.then ?_ (set_jobs_keeps ..) (by decide))
          exact Keeps.refl _ _
        ·
          refine Keeps.then ?_ (set_jobs_keeps ..) (by decide)
          exact Keeps.refl _ _

theorem execSealCheckDone_keeps (t) (s) : KeepsO [.net, .jobs, .render, .pair] (beginAt t s) (execSealCheckDone t s) := by
  unfold execSealCheckDone
  refine KeepsO.next ?_
  refine Keeps.ite (fun _ => ?_) (fun _ => ?_)
  ·
    refine Keeps.then ?_ (endSeal_keeps _) (by decide)
    refine Keeps.then ?_ (beginSeal_keeps _) (by decide)
    exact Keeps.refl _ _
  ·
    refine Keeps.then ?_ (beginSeal_keeps _) (by decide)
    exact Keeps.refl _ _

theorem pageAgain_keeps (id) (s) : Keeps [.jobs, .render] s (pageAgain id s) := by
  unfold pageAgain
  refine Keeps.then ?_ (modPage_keeps _ _ _) (by decide)
  refine Keeps.ite (fun _ => ?_) (fun _ => ?_)
  ·
    refine Keeps.then ?_ (abandonRendering_keeps _) (by decide)
    exact Keeps.refl _ _
  ·
    exact Keeps.refl _ _

theorem refreshSub_keeps (k) (f) (s) : Keeps [.log, .net, .mem] s (refreshSub k f s) := by
  unfold refreshSub
  refine Keeps.ite (fun _ => ?_) (fun _ => ?_)
  ·
    refine Keeps.then ?_ (set_mem_keeps ..) (by decide)
    exact Keeps.refl _ _
  ·
    refine Keeps.then ?_ (raise_keeps _ _ _) (by decide)
    refine Keeps.then ?_ (set_mem_keeps ..) (by decide)
    exact Keeps.refl _ _

theorem execDtRead_keeps (t) (temps) (s) : KeepsO [.log, .net, .mem] (beginAt t s) (execDtRead t temps s) := by
  unfold execDtRead
  refine KeepsO.next ?_
  refine Keeps.ite (fun _ => ?_) (fun _ => ?_)
  ·
    refine Keeps.forEach (fun _ _ => ?_) ?_
    ·
      refine Keeps.then ?_ (refreshSub_keeps _ _ _) (by decide)
      exact Keeps.refl _ _
    ·
      exact Keeps.refl _ _
  ·
    exact Keeps.refl _ _

theorem excludeReference_keeps (id) (row) (col) (s) : Keeps [.jobs] s (excludeReference id row col s) := by
  unfold excludeReference
  refine Keeps.then ?_ (modPage_keeps _ _ _) (by decide)
  exact Keeps.refl _ _

theorem execScrubPass_keeps (t) (s) : KeepsO [.mem] (beginAt t s) (execScrubPass t s) := by
  unfold execScrubPass
  refine KeepsO.next ?_
  refine Keeps.ite (fun _ => ?_) (fun _ => ?_)
  ·
    refine Keeps.then ?_ (set_mem_keeps ..) (by decide)
    exact Keeps.refl _ _
  ·
    exact Keeps.refl _ _

theorem loseSurface_keeps (id) (s) : Keeps [.net, .jobs, .render, .pair] s (loseSurface id s) := by
  unfold loseSurface
  refine Keeps.then ?_ (set_jobs_keeps ..) (by decide)
  refine Keeps.then ?_ (abandonSeals_keeps _ _) (by decide)
  refine Keeps.ite (fun _ => ?_) (fun _ => ?_)
  ·
    refine Keeps.then ?_ (abandonRendering_keeps _) (by decide)
    exact Keeps.refl _ _
  ·
    exact Keeps.refl _ _

theorem loseObject_keeps (g) (s) : Keeps [.net, .jobs, .render, .mem, .pair] s (loseObject g s) := by
  unfold loseObject
  split
  ·
    refine Keeps.then ?_ (loseSurface_keeps _ _) (by decide)
    exact Keeps.refl _ _
  ·
    refine Keeps.then ?_ (beginSeal_keeps _) (by decide)
    refine Keeps.then ?_ (set_jobs_mem_keeps ..) (by decide)
    refine Keeps.ite (fun _ => ?_) (fun _ => ?_)
    ·
      refine Keeps.then ?_ (abandonRendering_keeps _) (by decide)
      exact Keeps.refl _ _
    ·
      exact Keeps.refl _ _
  ·
    refine Keeps.then ?_ (set_jobs_keeps ..) (by decide)
    refine Keeps.then ?_ (pageAgain_keeps _ _) (by decide)
    exact Keeps.refl _ _
  ·
    refine Keeps.then ?_ (modArmed_keeps _ _) (by decide)
    refine Keeps.then ?_ (set_jobs_keeps ..) (by decide)
    exact Keeps.refl _ _
  ·
    refine Keeps.then ?_ (set_net_keeps ..) (by decide)
    exact Keeps.refl _ _
  ·
    refine Keeps.ite (fun _ => ?_) (fun _ => ?_)
    ·
      refine Keeps.then ?_ (modArmed_keeps _ _) (by decide)
      exact Keeps.refl _ _
    ·
      exact Keeps.refl _ _
  ·
    exact Keeps.refl _ _

theorem loseTile_keeps (sf) (tile) (s) : Keeps [.log, .net, .jobs, .render] s (loseTile sf tile s) := by
  unfold loseTile
  refine Keeps.ite (fun _ => ?_) (fun _ => ?_)
  ·
    exact Keeps.refl _ _
  ·
    refine Keeps.ite (fun _ => ?_) (fun _ => ?_)
    ·
      refine Keeps.then ?_ (corruptTile_keeps _ _ _) (by decide)
      exact Keeps.refl _ _
    ·
      refine Keeps.then ?_ (raise_keeps _ _ _) (by decide)
      refine Keeps.then ?_ (set_jobs_render_keeps ..) (by decide)
      exact Keeps.refl _ _

theorem execEccUncorrectable_keeps (t) (burst) (reader) (target) (copy) (s) : KeepsO [.free, .log, .net, .jobs, .render, .mem, .cal, .pair] (beginAt t s) (execEccUncorrectable t burst reader target copy s) := by
  unfold execEccUncorrectable
  refine KeepsO.ite (fun _ => ?_) (fun _ => ?_)
  ·
    refine KeepsO.next ?_
    exact Keeps.refl _ _
  ·
    refine KeepsO.next ?_
    split
    ·
      refine Keeps.ite (fun _ => ?_) (fun _ => ?_)
      ·
        refine Keeps.then ?_ (takeUp_keeps _) (by decide)
        refine Keeps.then ?_ (pageAgain_keeps _ _) (by decide)
        refine Keeps.then ?_ (drawFree_keeps _) (by decide)
        refine Keeps.then ?_ (raise_keeps _ _ _) (by decide)
        refine Keeps.then ?_ (set_mem_keeps ..) (by decide)
        exact Keeps.refl _ _
      ·
        refine Keeps.then ?_ (drawFree_keeps _) (by decide)
        refine Keeps.then ?_ (raise_keeps _ _ _) (by decide)
        refine Keeps.then ?_ (set_mem_keeps ..) (by decide)
        exact Keeps.refl _ _
    ·
      refine Keeps.ite (fun _ => ?_) (fun _ => ?_)
      ·
        refine Keeps.then ?_ (loseTile_keeps _ _ _) (by decide)
        refine Keeps.then ?_ (drawFree_keeps _) (by decide)
        refine Keeps.then ?_ (raise_keeps _ _ _) (by decide)
        refine Keeps.then ?_ (set_mem_keeps ..) (by decide)
        exact Keeps.refl _ _
      ·
        refine Keeps.then ?_ (drawFree_keeps _) (by decide)
        refine Keeps.then ?_ (raise_keeps _ _ _) (by decide)
        refine Keeps.then ?_ (set_mem_keeps ..) (by decide)
        exact Keeps.refl _ _
    ·
      refine Keeps.ite (fun _ => ?_) (fun _ => ?_)
      ·
        refine Keeps.then ?_ (excludeReference_keeps _ _ _ _) (by decide)
        refine Keeps.then ?_ (drawFree_keeps _) (by decide)
        refine Keeps.then ?_ (raise_keeps _ _ _) (by decide)
        refine Keeps.then ?_ (set_mem_keeps ..) (by decide)
        exact Keeps.refl _ _
      ·
        refine Keeps.then ?_ (drawFree_keeps _) (by decide)
        refine Keeps.then ?_ (raise_keeps _ _ _) (by decide)
        refine Keeps.then ?_ (set_mem_keeps ..) (by decide)
        exact Keeps.refl _ _
    ·
      refine Keeps.ite (fun _ => ?_) (fun _ => ?_)
      ·
        refine Keeps.then ?_ (loseObject_keeps _ _) (by decide)
        refine Keeps.then ?_ (drawFree_keeps _) (by decide)
        refine Keeps.then ?_ (raise_keeps _ _ _) (by decide)
        refine Keeps.then ?_ (set_mem_keeps ..) (by decide)
        exact Keeps.refl _ _
      ·
        refine Keeps.then ?_ (drawFree_keeps _) (by decide)
        refine Keeps.then ?_ (raise_keeps _ _ _) (by decide)
        refine Keeps.then ?_ (set_mem_keeps ..) (by decide)
        exact Keeps.refl _ _

theorem countCorrections_keeps (x0) (r) (s) : Keeps [.free, .log, .net, .mem] s (countCorrections x0 r s) := by
  unfold countCorrections
  refine Keeps.then ?_ (drawFree_keeps _) (by decide)
  refine Keeps.ite (fun _ => ?_) (fun _ => ?_)
  ·
    refine Keeps.ite (fun _ => ?_) (fun _ => ?_)
    ·
      exact Keeps.refl _ _
    ·
      refine Keeps.then ?_ (set_mem_keeps ..) (by decide)
      exact Keeps.refl _ _
  ·
    refine Keeps.then ?_ (raiseLimited_keeps _ _ _ _ _) (by decide)
    refine Keeps.ite (fun _ => ?_) (fun _ => ?_)
    ·
      exact Keeps.refl _ _
    ·
      refine Keeps.then ?_ (set_mem_keeps ..) (by decide)
      exact Keeps.refl _ _

theorem execFlagFall_keeps (t) (port) (ageNs) (s) : KeepsO [.log, .net, .mem] (beginAt t s) (execFlagFall t port ageNs s) := by
  unfold execFlagFall
  refine KeepsO.ite (fun _ => ?_) (fun _ => ?_)
  ·
    refine KeepsO.next ?_
    exact Keeps.refl _ _
  ·
    refine KeepsO.next ?_
    refine Keeps.ite (fun _ => ?_) (fun _ => ?_)
    ·
      refine Keeps.then ?_ (raise_keeps _ _ _) (by decide)
      refine Keeps.then ?_ (set_mem_keeps ..) (by decide)
      exact Keeps.refl _ _
    ·
      refine Keeps.then ?_ (raiseLimited_keeps _ _ _ _ _) (by decide)
      refine Keeps.then ?_ (set_mem_keeps ..) (by decide)
      exact Keeps.refl _ _

theorem execEccCorrectedRate_keeps (t) (sub) (reads) (s) : KeepsO [.free, .log, .net, .mem] (beginAt t s) (execEccCorrectedRate t sub reads s) := by
  unfold execEccCorrectedRate
  refine KeepsO.next ?_
  refine Keeps.ite (fun _ => ?_) (fun _ => ?_)
  ·
    refine Keeps.forEach (fun _ _ => ?_) ?_
    ·
      refine Keeps.then ?_ (countCorrections_keeps _ _ _) (by decide)
      exact Keeps.refl _ _
    ·
      exact Keeps.refl _ _
  ·
    exact Keeps.refl _ _

end Sys2Proof.Machine
end

