-- ==== Sys2Proof/Laws/KeepsNetwork.lean ====
section
/-! SUPPORT. What the operations of Network, Sessions, Loops, Control leave alone, and that they keep the invariant. -/
namespace Sys2Proof.Machine
open Sys2Proof

theorem hearFrom_keeps (i) (port) (addr) (group) (s) : Keeps [.net] s (hearFrom i port addr group s) := by
  unfold hearFrom
  refine Keeps.then ?_ (modSession_keeps _ _ _) (by decide)
  refine Keeps.ite (fun _ => ?_) (fun _ => ?_)
  ·
    exact Keeps.refl _ _
  ·
    refine Keeps.then ?_ (set_net_keeps ..) (by decide)
    exact Keeps.refl _ _

theorem sessionSegment_keeps (i) (port) (addr) (group) (udp) (s) : Keeps [.net, .pair] s (sessionSegment i port addr group udp s) := by
  unfold sessionSegment
  refine Keeps.ite (fun _ => ?_) (fun _ => ?_)
  ·
    refine Keeps.then ?_ (hearFrom_keeps _ _ _ _ _) (by decide)
    refine Keeps.then ?_ (modSession_keeps _ _ _) (by decide)
    exact Keeps.refl _ _
  ·
    refine Keeps.ite (fun _ => ?_) (fun _ => ?_)
    ·
      refine Keeps.then ?_ (sendAck_keeps _ _) (by decide)
      refine Keeps.then ?_ (modSession_keeps _ _ _) (by decide)
      refine Keeps.then ?_ (modSession_keeps _ _ _) (by decide)
      exact Keeps.refl _ _
    ·
      refine Keeps.ite (fun _ => ?_) (fun _ => ?_)
      ·
        refine Keeps.then ?_ (modSession_keeps _ _ _) (by decide)
        refine Keeps.then ?_ (modSession_keeps _ _ _) (by decide)
        exact Keeps.refl _ _
      ·
        refine Keeps.then ?_ (rejectBad_keeps _ _ _) (by decide)
        refine Keeps.ite (fun _ => ?_) (fun _ => ?_)
        ·
          refine Keeps.then ?_ (sendAck_keeps _ _) (by decide)
          refine Keeps.then ?_ (modSession_keeps _ _ _) (by decide)
          refine Keeps.then ?_ (hearFrom_keeps _ _ _ _ _) (by decide)
          refine Keeps.then ?_ (modSession_keeps _ _ _) (by decide)
          exact Keeps.refl _ _
        ·
          refine Keeps.then ?_ (modSession_keeps _ _ _) (by decide)
          refine Keeps.then ?_ (hearFrom_keeps _ _ _ _ _) (by decide)
          refine Keeps.then ?_ (modSession_keeps _ _ _) (by decide)
          exact Keeps.refl _ _

theorem authFailed_keeps (i) (auth) (s) : Keeps [.log, .net] s (authFailed i auth s) := by
  unfold authFailed
  refine Keeps.ite (fun _ => ?_) (fun _ => ?_)
  ·
    refine Keeps.then ?_ (raiseLimited_keeps _ _ _ _ _) (by decide)
    refine Keeps.then ?_ (modSession_keeps _ _ _) (by decide)
    exact Keeps.refl _ _
  ·
    exact Keeps.refl _ _

theorem keepGroup_keeps (group) (udp) (s) : Keeps [.pair] s (keepGroup group udp s) := by
  unfold keepGroup
  refine Keeps.ite (fun _ => ?_) (fun _ => ?_)
  ·
    refine Keeps.then ?_ (set_pair_keeps ..) (by decide)
    exact Keeps.refl _ _
  ·
    exact Keeps.refl _ _

theorem rejectOutside_keeps (port) (addr) (session) (msg) (type) (reason) (s) : Keeps [.net] s (rejectOutside port addr session msg type reason s) := by
  unfold rejectOutside
  refine Keeps.then ?_ (emitTo_keeps _ _ _ _) (by decide)
  exact Keeps.refl _ _

theorem rejectVersion_keeps (port) (addr) (group) (udp) (s) : Keeps [.net] s (rejectVersion port addr group udp s) := by
  unfold rejectVersion
  refine Keeps.ite (fun _ => ?_) (fun _ => ?_)
  ·
    exact Keeps.refl _ _
  ·
    split
    ·
      refine Keeps.then ?_ (sendReject_keeps _ _ _ _ _ _) (by decide)
      exact Keeps.refl _ _
    ·
      refine Keeps.then ?_ (rejectOutside_keeps _ _ _ _ _ _ _) (by decide)
      exact Keeps.refl _ _

theorem countDiscard_keeps (p) (s) : Keeps [.net] s (countDiscard p s) := by
  unfold countDiscard
  refine Keeps.then ?_ (modPort_keeps _ _ _) (by decide)
  exact Keeps.refl _ _

theorem takeDatagram_keeps (port) (addr) (group) (udp) (s) : Keeps [.log, .net, .pair] s (takeDatagram port addr group udp s) := by
  unfold takeDatagram
  refine Keeps.ite (fun _ => ?_) (fun _ => ?_)
  ·
    refine Keeps.then ?_ (countDiscard_keeps _ _) (by decide)
    exact Keeps.refl _ _
  ·
    refine Keeps.ite (fun _ => ?_) (fun _ => ?_)
    ·
      refine Keeps.then ?_ (countDiscard_keeps _ _) (by decide)
      refine Keeps.then ?_ (rejectVersion_keeps _ _ _ _ _) (by decide)
      exact Keeps.refl _ _
    ·
      refine Keeps.ite (fun _ => ?_) (fun _ => ?_)
      ·
        refine Keeps.then ?_ (countDiscard_keeps _ _) (by decide)
        exact Keeps.refl _ _
      ·
        refine Keeps.ite (fun _ => ?_) (fun _ => ?_)
        ·
          refine Keeps.ite (fun _ => ?_) (fun _ => ?_)
          ·
            exact Keeps.refl _ _
          ·
            refine Keeps.then ?_ (keepGroup_keeps _ _ _) (by decide)
            exact Keeps.refl _ _
        ·
          split
          ·
            exact Keeps.refl _ _
          ·
            refine Keeps.ite (fun _ => ?_) (fun _ => ?_)
            ·
              exact Keeps.refl _ _
            ·
              refine Keeps.ite (fun _ => ?_) (fun _ => ?_)
              ·
                refine Keeps.then ?_ (authFailed_keeps _ _ _) (by decide)
                exact Keeps.refl _ _
              ·
                refine Keeps.then ?_ (sessionSegment_keeps _ _ _ _ _ _) (by decide)
                refine Keeps.then ?_ (keepGroup_keeps _ _ _) (by decide)
                exact Keeps.refl _ _

theorem countFrame_keeps (p) (s) : Keeps [.net] s (countFrame p s) := by
  unfold countFrame
  refine Keeps.then ?_ (modPort_keeps _ _ _) (by decide)
  exact Keeps.refl _ _

theorem hearDatagram_keeps (t) (port) (addr) (dest) (udp) (s) : Keeps [.log, .net, .pair] (beginAt t s) (hearDatagram t port addr dest udp s) := by
  unfold hearDatagram
  refine Keeps.ite (fun _ => ?_) (fun _ => ?_)
  ·
    exact Keeps.refl _ _
  ·
    refine Keeps.ite (fun _ => ?_) (fun _ => ?_)
    ·
      refine Keeps.then ?_ (countFrame_keeps _ _) (by decide)
      exact Keeps.refl _ _
    ·
      refine Keeps.ite (fun _ => ?_) (fun _ => ?_)
      ·
        refine Keeps.then ?_ (countDiscard_keeps _ _) (by decide)
        refine Keeps.then ?_ (countFrame_keeps _ _) (by decide)
        exact Keeps.refl _ _
      ·
        refine Keeps.then ?_ (takeDatagram_keeps _ _ _ _ _) (by decide)
        refine Keeps.then ?_ (countFrame_keeps _ _) (by decide)
        exact Keeps.refl _ _

theorem execSessionTimeout_keeps (t) (session) (s) : KeepsO [.net] (beginAt t s) (execSessionTimeout t session s) := by
  unfold execSessionTimeout
  try dsimp only
  split
  ·
    refine KeepsO.next ?_
    exact Keeps.refl _ _
  ·
    refine KeepsO.next ?_
    refine Keeps.ite (fun _ => ?_) (fun _ => ?_)
    ·
      refine Keeps.then ?_ (closeSession_keeps _ _ _) (by decide)
      exact Keeps.refl _ _
    ·
      exact Keeps.refl _ _

theorem execPortSpeedAlternate_keeps (t) (port) (s) : KeepsO [.net] (beginAt t s) (execPortSpeedAlternate t port s) := by
  unfold execPortSpeedAlternate
  refine KeepsO.next ?_
  refine Keeps.ite (fun _ => ?_) (fun _ => ?_)
  ·
    refine Keeps.then ?_ (modPort_keeps _ _ _) (by decide)
    exact Keeps.refl _ _
  ·
    exact Keeps.refl _ _

theorem execNetworkFrameDiscarded_keeps (t) (port) (kind) (s) : KeepsO [.net] (beginAt t s) (execNetworkFrameDiscarded t port kind s) := by
  unfold execNetworkFrameDiscarded
  refine KeepsO.next ?_
  refine Keeps.ite (fun _ => ?_) (fun _ => ?_)
  ·
    exact Keeps.refl _ _
  ·
    refine Keeps.ite (fun _ => ?_) (fun _ => ?_)
    ·
      refine Keeps.then ?_ (modPort_keeps _ _ _) (by decide)
      exact Keeps.refl _ _
    ·
      refine Keeps.then ?_ (countDiscard_keeps _ _) (by decide)
      refine Keeps.then ?_ (countFrame_keeps _ _) (by decide)
      exact Keeps.refl _ _

theorem detectDuplicates_keeps (p) (s) : Keeps [] s (detectDuplicates p s) := by
  unfold detectDuplicates
  refine Keeps.forEach (fun _ _ => ?_) ?_
  ·
    refine Keeps.then ?_ (emit_keeps _ _) (by decide)
    exact Keeps.refl _ _
  ·
    exact Keeps.refl _ _

theorem reportGroups_keeps (p) (l) (s) : Keeps [] s (reportGroups p l s) := by
  unfold reportGroups
  refine Keeps.forEach (fun _ _ => ?_) ?_
  ·
    refine Keeps.then ?_ (emit_keeps _ _) (by decide)
    exact Keeps.refl _ _
  ·
    exact Keeps.refl _ _

theorem execPortLinkChange_keeps (t) (port) (up) (s) : KeepsO [.log, .net] (beginAt t s) (execPortLinkChange t port up s) := by
  unfold execPortLinkChange
  refine KeepsO.next ?_
  refine Keeps.ite (fun _ => ?_) (fun _ => ?_)
  ·
    exact Keeps.refl _ _
  ·
    refine Keeps.ite (fun _ => ?_) (fun _ => ?_)
    ·
      refine Keeps.ite (fun _ => ?_) (fun _ => ?_)
      ·
        refine Keeps.then ?_ (raise_keeps _ _ _) (by decide)
        refine Keeps.then ?_ (modPort_keeps _ _ _) (by decide)
        exact Keeps.refl _ _
      ·
        refine Keeps.then ?_ (reportGroups_keeps _ _ _) (by decide)
        refine Keeps.then ?_ (detectDuplicates_keeps _ _) (by decide)
        refine Keeps.then ?_ (raise_keeps _ _ _) (by decide)
        refine Keeps.then ?_ (modPort_keeps _ _ _) (by decide)
        exact Keeps.refl _ _
    ·
      refine Keeps.then ?_ (raise_keeps _ _ _) (by decide)
      refine Keeps.then ?_ (modPort_keeps _ _ _) (by decide)
      exact Keeps.refl _ _

theorem execCreditReopened_keeps (t) (session) (credit) (s) : KeepsO [.net] (beginAt t s) (execCreditReopened t session credit s) := by
  unfold execCreditReopened
  try dsimp only
  split
  ·
    refine KeepsO.next ?_
    exact Keeps.refl _ _
  ·
    refine KeepsO.next ?_
    refine Keeps.ite (fun _ => ?_) (fun _ => ?_)
    ·
      refine Keeps.then ?_ (sendAckWith_keeps _ _ _) (by decide)
      refine Keeps.then ?_ (modSession_keeps _ _ _) (by decide)
      exact Keeps.refl _ _
    ·
      exact Keeps.refl _ _

theorem resendSegment_keeps (i) (x) (s) : Keeps [.net] s (resendSegment i x s) := by
  unfold resendSegment
  refine Keeps.then ?_ (emitTo_keeps _ _ _ _) (by decide)
  refine Keeps.then ?_ (modSession_keeps _ _ _) (by decide)
  exact Keeps.refl _ _

theorem execDptRtoExpiry_keeps (t) (session) (seq) (s) : KeepsO [.log, .net] (beginAt t s) (execDptRtoExpiry t session seq s) := by
  unfold execDptRtoExpiry
  try dsimp only
  split
  ·
    refine KeepsO.next ?_
    exact Keeps.refl _ _
  ·
    split
    ·
      refine KeepsO.next ?_
      exact Keeps.refl _ _
    ·
      refine KeepsO.next ?_
      refine Keeps.ite (fun _ => ?_) (fun _ => ?_)
      ·
        exact Keeps.refl _ _
      ·
        refine Keeps.ite (fun _ => ?_) (fun _ => ?_)
        ·
          refine Keeps.then ?_ (resendSegment_keeps _ _ _) (by decide)
          exact Keeps.refl _ _
        ·
          refine Keeps.then ?_ (raise_keeps _ _ _) (by decide)
          refine Keeps.then ?_ (closeSession_keeps _ _ _) (by decide)
          exact Keeps.refl _ _

theorem execArpNdpRequest_keeps (t) (port) (ndp) (target) (sender) (s) : KeepsO [.net] (beginAt t s) (execArpNdpRequest t port ndp target sender s) := by
  unfold execArpNdpRequest
  refine KeepsO.next ?_
  refine Keeps.ite (fun _ => ?_) (fun _ => ?_)
  ·
    exact Keeps.refl _ _
  ·
    refine Keeps.ite (fun _ => ?_) (fun _ => ?_)
    ·
      refine Keeps.then ?_ (emit_keeps _ _) (by decide)
      refine Keeps.then ?_ (countFrame_keeps _ _) (by decide)
      exact Keeps.refl _ _
    ·
      refine Keeps.then ?_ (countFrame_keeps _ _) (by decide)
      exact Keeps.refl _ _

theorem execIgmpMldQuery_keeps (t) (port) (v6) (groupAddr) (s) : KeepsO [.net] (beginAt t s) (execIgmpMldQuery t port v6 groupAddr s) := by
  unfold execIgmpMldQuery
  refine KeepsO.next ?_
  refine Keeps.ite (fun _ => ?_) (fun _ => ?_)
  ·
    exact Keeps.refl _ _
  ·
    refine Keeps.ite (fun _ => ?_) (fun _ => ?_)
    ·
      refine Keeps.then ?_ (countFrame_keeps _ _) (by decide)
      exact Keeps.refl _ _
    ·
      refine Keeps.then ?_ (reportGroups_keeps _ _ _) (by decide)
      refine Keeps.then ?_ (countFrame_keeps _ _) (by decide)
      exact Keeps.refl _ _

theorem execAckDelayExpiry_keeps (t) (session) (s) : KeepsO [.net] (beginAt t s) (execAckDelayExpiry t session s) := by
  unfold execAckDelayExpiry
  try dsimp only
  split
  ·
    refine KeepsO.next ?_
    exact Keeps.refl _ _
  ·
    split
    ·
      refine KeepsO.next ?_
      exact Keeps.refl _ _
    ·
      refine KeepsO.next ?_
      refine Keeps.ite (fun _ => ?_) (fun _ => ?_)
      ·
        refine Keeps.then ?_ (sendAck_keeps _ _) (by decide)
        exact Keeps.refl _ _
      ·
        exact Keeps.refl _ _

theorem execIcmpEcho_keeps (t) (port) (v6) (sender) (data) (s) : KeepsO [.net] (beginAt t s) (execIcmpEcho t port v6 sender data s) := by
  unfold execIcmpEcho
  refine KeepsO.next ?_
  refine Keeps.ite (fun _ => ?_) (fun _ => ?_)
  ·
    exact Keeps.refl _ _
  ·
    refine Keeps.ite (fun _ => ?_) (fun _ => ?_)
    ·
      refine Keeps.then ?_ (emit_keeps _ _) (by decide)
      refine Keeps.then ?_ (modPort_keeps _ _ _) (by decide)
      refine Keeps.then ?_ (countFrame_keeps _ _) (by decide)
      exact Keeps.refl _ _
    ·
      refine Keeps.then ?_ (countFrame_keeps _ _) (by decide)
      exact Keeps.refl _ _

theorem execKeepaliveDue_keeps (t) (session) (s) : KeepsO [.net] (beginAt t s) (execKeepaliveDue t session s) := by
  unfold execKeepaliveDue
  try dsimp only
  split
  ·
    refine KeepsO.next ?_
    exact Keeps.refl _ _
  ·
    refine KeepsO.next ?_
    refine Keeps.ite (fun _ => ?_) (fun _ => ?_)
    ·
      refine Keeps.then ?_ (sendBare_keeps _ _ _ _) (by decide)
      exact Keeps.refl _ _
    ·
      exact Keeps.refl _ _

theorem msgUnknown_keeps (i) (p) (s) : KeepsV [] s (msgUnknown i p s) := by
  unfold msgUnknown
  exact KeepsV.error

theorem msgSessionClose_keeps (i) (p) (s) : KeepsV [.net] s (msgSessionClose i p s) := by
  unfold msgSessionClose
  refine KeepsV.ok ?_
  refine Keeps.then ?_ (modSession_keeps _ _ _) (by decide)
  exact Keeps.refl _ _

theorem openSession_keeps (id?) (port) (addr) (group) (mac) (p) (s) : Keeps [.free, .log, .net] s (openSession id? port addr group mac p s) := by
  unfold openSession
  try dsimp only
  split
  ·
    split
    ·
      refine Keeps.ite (fun _ => ?_) (fun _ => ?_)
      ·
        refine Keeps.then ?_ (raise_keeps _ _ _) (by decide)
        refine Keeps.then ?_ (closeSession_keeps _ _ _) (by decide)
        exact Keeps.refl _ _
      ·
        exact Keeps.refl _ _
    ·
      exact Keeps.refl _ _
  ·
    refine Keeps.then ?_ (sendDpt_keeps _ _ _ _) (by decide)
    refine Keeps.then ?_ (forgetLimit_keeps _ _ _) (by decide)
    refine Keeps.then ?_ (set_net_keeps ..) (by decide)
    refine Keeps.then ?_ (drawFree_keeps _) (by decide)
    refine Keeps.then ?_ (modSession_keeps _ _ _) (by decide)
    split
    ·
      refine Keeps.ite (fun _ => ?_) (fun _ => ?_)
      ·
        refine Keeps.then ?_ (raise_keeps _ _ _) (by decide)
        refine Keeps.then ?_ (closeSession_keeps _ _ _) (by decide)
        exact Keeps.refl _ _
      ·
        exact Keeps.refl _ _
    ·
      exact Keeps.refl _ _

theorem orderOpen_keeps (group) (p) (s2) (s) : Keeps [.pair] s (orderOpen group p s2 s) := by
  unfold orderOpen
  split
  ·
    refine Keeps.then ?_ (sendOrder_keeps _ _ _ _ _ _) (by decide)
    exact Keeps.refl _ _
  ·
    refine Keeps.then ?_ (sendOrder_keeps _ _ _ _ _ _) (by decide)
    exact Keeps.refl _ _

theorem rejectOpen_keeps (reason) (port) (addr) (group) (s) : Keeps [.net] s (rejectOpen reason port addr group s) := by
  unfold rejectOpen
  refine Keeps.ite (fun _ => ?_) (fun _ => ?_)
  ·
    refine Keeps.then ?_ (rejectOutside_keeps _ _ _ _ _ _ _) (by decide)
    exact Keeps.refl _ _
  ·
    exact Keeps.refl _ _

theorem openAgain_keeps (i) (group) (s) : Keeps [.net] s (openAgain i group s) := by
  unfold openAgain
  refine Keeps.then ?_ (sendAck_keeps _ _) (by decide)
  refine Keeps.then ?_ (modSession_keeps _ _ _) (by decide)
  exact Keeps.refl _ _

theorem openFailed_keeps (s) : Keeps [.log, .net] s (openFailed s) := by
  unfold openFailed
  refine Keeps.then ?_ (raiseLimited_keeps _ _ _ _ _) (by decide)
  refine Keeps.then ?_ (set_net_keeps ..) (by decide)
  exact Keeps.refl _ _

theorem applyOpen_keeps (port) (addr) (group) (udp) (s) : Keeps [.free, .log, .net, .pair] s (applyOpen port addr group udp s) := by
  unfold applyOpen
  refine Keeps.ite (fun _ => ?_) (fun _ => ?_)
  ·
    refine Keeps.then ?_ (openFailed_keeps _) (by decide)
    exact Keeps.refl _ _
  ·
    split
    ·
      refine Keeps.then ?_ (openAgain_keeps _ _ _) (by decide)
      exact Keeps.refl _ _
    ·
      refine Keeps.then ?_ (sendOrder_keeps _ _ _ _ _ _) (by decide)
      refine Keeps.then ?_ (rejectOpen_keeps _ _ _ _ _) (by decide)
      exact Keeps.refl _ _
    ·
      refine Keeps.then ?_ (orderOpen_keeps _ _ _ _) (by decide)
      refine Keeps.then ?_ (openSession_keeps _ _ _ _ _ _ _) (by decide)
      exact Keeps.refl _ _

theorem execKeepalive_keeps (t) (session) (s) : KeepsO [.net] (beginAt t s) (execKeepalive t session s) := by
  unfold execKeepalive
  try dsimp only
  split
  ·
    refine KeepsO.next ?_
    exact Keeps.refl _ _
  ·
    refine KeepsO.next ?_
    refine Keeps.then ?_ (modSession_keeps _ _ _) (by decide)
    exact Keeps.refl _ _

theorem execAck_keeps (t) (session) (ack) (sack) (credit) (s) : KeepsO [.net] (beginAt t s) (execAck t session ack sack credit s) := by
  unfold execAck
  try dsimp only
  split
  ·
    refine KeepsO.next ?_
    exact Keeps.refl _ _
  ·
    refine KeepsO.next ?_
    refine Keeps.then ?_ (modSession_keeps _ _ _) (by decide)
    exact Keeps.refl _ _

theorem execSessionOpen_keeps (t) (port) (addr) (group) (header) (body) (s) : KeepsO [.free, .log, .net, .pair] (beginAt t s) (execSessionOpen t port addr group header body s) := by
  unfold execSessionOpen
  refine KeepsO.next ?_
  refine Keeps.ite (fun _ => ?_) (fun _ => ?_)
  ·
    exact Keeps.refl _ _
  ·
    refine Keeps.ite (fun _ => ?_) (fun _ => ?_)
    ·
      refine Keeps.then ?_ (openFailed_keeps _) (by decide)
      exact Keeps.refl _ _
    ·
      refine Keeps.ite (fun _ => ?_) (fun _ => ?_)
      ·
        refine Keeps.then ?_ (holdMessage_keeps _ _) (by decide)
        exact Keeps.refl _ _
      ·
        refine Keeps.then ?_ (applyOpen_keeps _ _ _ _ _) (by decide)
        exact Keeps.refl _ _

theorem sendClaim_keeps (before) (g) (s) : Keeps [.fire] s (sendClaim before g s) := by
  unfold sendClaim
  refine Keeps.then ?_ (sendSymbols_keeps _ _ _) (by decide)
  refine Keeps.then ?_ (modLane_keeps _ _ _) (by decide)
  exact Keeps.refl _ _

theorem modLoop_keeps (ticket) (f) (s) : Keeps [.loops] s (modLoop ticket f s) := by
  unfold modLoop
  refine Keeps.then ?_ (set_loops_keeps ..) (by decide)
  exact Keeps.refl _ _

theorem sendLoop_keeps (l) (lane) (s) : Keeps [.fire, .loops] s (sendLoop l lane s) := by
  unfold sendLoop
  refine Keeps.then ?_ (sendClaim_keeps _ _ _) (by decide)
  refine Keeps.then ?_ (modLoop_keeps _ _ _) (by decide)
  exact Keeps.refl _ _

theorem sendOwner_keeps (g) (s) : Keeps [.fire, .loops] s (sendOwner g s) := by
  unfold sendOwner
  split
  ·
    refine Keeps.then ?_ (sendLoop_keeps _ _ _) (by decide)
    exact Keeps.refl _ _
  ·
    refine Keeps.then ?_ (sendClaim_keeps _ _ _) (by decide)
    exact Keeps.refl _ _

theorem marchOver_keeps (a) (b) (s) : Keeps [.free, .jobs, .render] s (marchOver a b s) := by
  unfold marchOver
  refine Keeps.forEach (fun _ _ => ?_) ?_
  ·
    refine Keeps.then ?_ (pageAgain_keeps _ _) (by decide)
    exact Keeps.refl _ _
  ·
    refine Keeps.then ?_ (drawFree_keeps _) (by decide)
    refine Keeps.then ?_ (set_jobs_keeps ..) (by decide)
    exact Keeps.refl _ _

theorem loopStarts_keeps (l) (s) : Keeps [.free, .log, .net, .jobs, .render, .fire, .links, .loops] s (loopStarts l s) := by
  unfold loopStarts
  refine Keeps.ite (fun _ => ?_) (fun _ => ?_)
  ·
    refine Keeps.forEach (fun _ _ => ?_) ?_
    ·
      refine Keeps.then ?_ (sendOwner_keeps _ _) (by decide)
      exact Keeps.refl _ _
    ·
      refine Keeps.ite (fun _ => ?_) (fun _ => ?_)
      ·
        refine Keeps.then ?_ (emit_keeps _ _) (by decide)
        exact Keeps.refl _ _
      ·
        exact Keeps.refl _ _
  ·
    refine Keeps.ite (fun _ => ?_) (fun _ => ?_)
    ·
      refine Keeps.then ?_ (disableLink_keeps _ _) (by decide)
      refine Keeps.ite (fun _ => ?_) (fun _ => ?_)
      ·
        refine Keeps.then ?_ (emit_keeps _ _) (by decide)
        exact Keeps.refl _ _
      ·
        exact Keeps.refl _ _
    ·
      refine Keeps.ite (fun _ => ?_) (fun _ => ?_)
      ·
        refine Keeps.then ?_ (raise_keeps _ _ _) (by decide)
        refine Keeps.then ?_ (modPort_keeps _ _ _) (by decide)
        refine Keeps.ite (fun _ => ?_) (fun _ => ?_)
        ·
          refine Keeps.then ?_ (emit_keeps _ _) (by decide)
          exact Keeps.refl _ _
        ·
          exact Keeps.refl _ _
      ·
        refine Keeps.ite (fun _ => ?_) (fun _ => ?_)
        ·
          refine Keeps.then ?_ (marchOver_keeps _ _ _) (by decide)
          refine Keeps.ite (fun _ => ?_) (fun _ => ?_)
          ·
            refine Keeps.then ?_ (emit_keeps _ _) (by decide)
            exact Keeps.refl _ _
          ·
            exact Keeps.refl _ _
        ·
          refine Keeps.ite (fun _ => ?_) (fun _ => ?_)
          ·
            refine Keeps.then ?_ (emit_keeps _ _) (by decide)
            exact Keeps.refl _ _
          ·
            exact Keeps.refl _ _

theorem msgLoopStart_keeps (i) (p) (s) : KeepsV [.free, .log, .net, .jobs, .render, .fire, .links, .loops] s (msgLoopStart i p s) := by
  unfold msgLoopStart
  refine KeepsV.ite (fun _ => ?_) (fun _ => ?_)
  ·
    exact KeepsV.error
  ·
    refine KeepsV.ite (fun _ => ?_) (fun _ => ?_)
    ·
      exact KeepsV.error
    ·
      refine KeepsV.ite (fun _ => ?_) (fun _ => ?_)
      ·
        exact KeepsV.error
      ·
        refine KeepsV.ite (fun _ => ?_) (fun _ => ?_)
        ·
          exact KeepsV.error
        ·
          refine KeepsV.ok ?_
          refine Keeps.then ?_ (loopStarts_keeps _ _) (by decide)
          refine Keeps.then ?_ (addPending_keeps _ _ _) (by decide)
          refine Keeps.then ?_ (drawFrees_keeps _ _) (by decide)
          refine Keeps.then ?_ (set_loops_keeps ..) (by decide)
          exact Keeps.refl _ _

theorem loopEnds_keeps (l) (s) : Keeps [.fire, .links] s (loopEnds l s) := by
  unfold loopEnds
  refine Keeps.ite (fun _ => ?_) (fun _ => ?_)
  ·
    refine Keeps.ite (fun _ => ?_) (fun _ => ?_)
    ·
      refine Keeps.then ?_ (startLanes_keeps _ _) (by decide)
      refine Keeps.then ?_ (modLink_keeps _ _ _) (by decide)
      exact Keeps.refl _ _
    ·
      refine Keeps.ite (fun _ => ?_) (fun _ => ?_)
      ·
        refine Keeps.then ?_ (startTraining_keeps _ _) (by decide)
        exact Keeps.refl _ _
      ·
        exact Keeps.refl _ _
  ·
    exact Keeps.refl _ _

theorem endLoop_keeps (l) (outcome) (c) (s) : Keeps [.free, .log, .net, .fire, .links, .pair, .loops] s (endLoop l outcome c s) := by
  unfold endLoop
  refine Keeps.then ?_ (raise_keeps _ _ _) (by decide)
  refine Keeps.then ?_ (drawFree_keeps _) (by decide)
  refine Keeps.then ?_ (finishResult_keeps _ _ _) (by decide)
  refine Keeps.then ?_ (loopEnds_keeps _ _) (by decide)
  refine Keeps.then ?_ (set_loops_keeps ..) (by decide)
  exact Keeps.refl _ _

theorem closeLoop_keeps (l) (whole) (r) (s) : Keeps [.free, .log, .net, .fire, .links, .pair, .loops] s (closeLoop l whole r s) := by
  unfold closeLoop
  refine Keeps.ite (fun _ => ?_) (fun _ => ?_)
  ·
    refine Keeps.then ?_ (modLoop_keeps _ _ _) (by decide)
    exact Keeps.refl _ _
  ·
    refine Keeps.then ?_ (endLoop_keeps _ _ _ _) (by decide)
    exact Keeps.refl _ _

theorem msgLoopStop_keeps (r) (i) (p) (s) : KeepsV [.free, .log, .net, .fire, .links, .pair, .loops] s (msgLoopStop r i p s) := by
  unfold msgLoopStop
  split
  ·
    exact KeepsV.error
  ·
    refine KeepsV.ok ?_
    refine Keeps.then ?_ (closeLoop_keeps _ _ _ _) (by decide)
    exact Keeps.refl _ _

theorem msgLoopback_keeps (r) (i) (p) (s) : KeepsV [.free, .log, .net, .jobs, .render, .fire, .links, .pair, .loops] s (msgLoopback r i p s) := by
  unfold msgLoopback
  refine KeepsV.ite (fun _ => ?_) (fun _ => ?_)
  ·
    refine KeepsV.then ?_ (msgLoopStop_keeps _ _ _ _) (by decide)
    exact Keeps.refl _ _
  ·
    refine KeepsV.then ?_ (msgLoopStart_keeps _ _ _) (by decide)
    exact Keeps.refl _ _

theorem farDown_keeps (k) (s) : Keeps [.free, .log, .net, .fire, .links, .pair, .loops] s (farDown k s) := by
  unfold farDown
  split
  ·
    exact Keeps.refl _ _
  ·
    refine Keeps.then ?_ (endLoop_keeps _ _ _ _) (by decide)
    exact Keeps.refl _ _

theorem execLoopbackPreempted_keeps (t) (ticket) (r) (s) : KeepsO [.free, .log, .net, .fire, .links, .pair, .loops] (beginAt t s) (execLoopbackPreempted t ticket r s) := by
  unfold execLoopbackPreempted
  try dsimp only
  split
  ·
    refine KeepsO.next ?_
    exact Keeps.refl _ _
  ·
    refine KeepsO.next ?_
    refine Keeps.then ?_ (endLoop_keeps _ _ _ _) (by decide)
    exact Keeps.refl _ _

theorem execLoopbackEnd_keeps (t) (ticket) (lockDue) (r) (s) : KeepsO [.free, .log, .net, .fire, .links, .pair, .loops] (beginAt t s) (execLoopbackEnd t ticket lockDue r s) := by
  unfold execLoopbackEnd
  try dsimp only
  split
  ·
    refine KeepsO.next ?_
    exact Keeps.refl _ _
  ·
    refine KeepsO.next ?_
    refine Keeps.ite (fun _ => ?_) (fun _ => ?_)
    ·
      refine Keeps.ite (fun _ => ?_) (fun _ => ?_)
      ·
        refine Keeps.then ?_ (endLoop_keeps _ _ _ _) (by decide)
        exact Keeps.refl _ _
      ·
        exact Keeps.refl _ _
    ·
      refine Keeps.ite (fun _ => ?_) (fun _ => ?_)
      ·
        refine Keeps.then ?_ (closeLoop_keeps _ _ _ _) (by decide)
        exact Keeps.refl _ _
      ·
        exact Keeps.refl _ _

theorem execLoopbackDone_keeps (t) (ticket) (r) (s) : KeepsO [.free, .log, .net, .fire, .links, .pair, .loops] (beginAt t s) (execLoopbackDone t ticket r s) := by
  unfold execLoopbackDone
  try dsimp only
  split
  ·
    refine KeepsO.next ?_
    exact Keeps.refl _ _
  ·
    refine KeepsO.next ?_
    refine Keeps.ite (fun _ => ?_) (fun _ => ?_)
    ·
      refine Keeps.then ?_ (closeLoop_keeps _ _ _ _) (by decide)
      exact Keeps.refl _ _
    ·
      exact Keeps.refl _ _

theorem farStatus_keeps (k) (crcErrors) (s) : Keeps [.free, .log, .net, .fire, .links, .pair, .loops] s (farStatus k crcErrors s) := by
  unfold farStatus
  split
  ·
    exact Keeps.refl _ _
  ·
    refine Keeps.ite (fun _ => ?_) (fun _ => ?_)
    ·
      refine Keeps.then ?_ (endLoop_keeps _ _ _ _) (by decide)
      exact Keeps.refl _ _
    ·
      refine Keeps.then ?_ (modLoop_keeps _ _ _) (by decide)
      exact Keeps.refl _ _

theorem depart_keeps (restart) (s) : Keeps [.mod, .power, .conf, .update, .log, .thermal, .gov, .net, .jobs, .render, .mem, .pos, .fire, .links, .cams, .cal, .time, .axes, .ring, .pair, .loops] s (depart restart s) := by
  unfold depart
  refine Keeps.ite (fun _ => ?_) (fun _ => ?_)
  ·
    refine Keeps.then ?_ (enterBoot_keeps _ _) (by decide)
    exact Keeps.refl _ _
  ·
    refine Keeps.ite (fun _ => ?_) (fun _ => ?_)
    ·
      refine Keeps.then ?_ (enterMaintenance_keeps _ _) (by decide)
      exact Keeps.refl _ _
    ·
      exact Keeps.refl _ _

theorem msgResultRelease_keeps (i) (p) (s) : KeepsV [.net] s (msgResultRelease i p s) := by
  unfold msgResultRelease
  refine KeepsV.ok ?_
  refine Keeps.then ?_ (set_net_keeps ..) (by decide)
  exact Keeps.refl _ _

theorem noteRead_keeps (r) (s) : Keeps [.net] s (noteRead r s) := by
  unfold noteRead
  refine Keeps.then ?_ (set_net_keeps ..) (by decide)
  exact Keeps.refl _ _

theorem readResult_keeps (soon i p s) : KeepsV [.free, .net] s (readResult soon i p s) := by
  unfold readResult
  dsimp only
  split
  · split
    · exact KeepsV.ok (((Keeps.refl _ _).then (noteRead_keeps ..) (by decide)).then (sendDpt_keeps ..) (by decide))
    · split
      · exact KeepsV.ok (((Keeps.refl _ _).then (noteRead_keeps ..) (by decide)).then (sendDpt_keeps ..) (by decide))
      · exact KeepsV.ok (((Keeps.refl _ _).then (drawFree_keeps ..) (by decide)).then (sendDpt_keeps ..) (by decide))
  · exact KeepsV.ok ((Keeps.refl _ _).then (sendDpt_keeps ..) (by decide))

theorem msgResultRead_keeps (i p s) : KeepsV [.free, .net] s (msgResultRead i p s) := readResult_keeps _ _ _ _

theorem leaveRing_keeps (restart) (s) : Keeps [.mod, .power, .conf, .update, .log, .thermal, .gov, .net, .jobs, .render, .mem, .pos, .fire, .links, .cams, .cal, .time, .axes, .ring, .pair, .loops] s (leaveRing restart s) := by
  unfold leaveRing
  refine Keeps.ite (fun _ => ?_) (fun _ => ?_)
  ·
    refine Keeps.then ?_ (depart_keeps _ _) (by decide)
    exact Keeps.refl _ _
  ·
    refine Keeps.ite (fun _ => ?_) (fun _ => ?_)
    ·
      refine Keeps.then ?_ (depart_keeps _ _) (by decide)
      refine Keeps.then ?_ (ringSend_keeps _ _ _ _) (by decide)
      refine Keeps.then ?_ (ringSend_keeps _ _ _ _) (by decide)
      exact Keeps.refl _ _
    ·
      refine Keeps.then ?_ (set_ring_keeps ..) (by decide)
      refine Keeps.then ?_ (ringSend_keeps _ _ _ _) (by decide)
      exact Keeps.refl _ _

theorem msgMaintenance_keeps (i) (p) (s) : KeepsV [.mod, .power, .conf, .update, .log, .thermal, .gov, .net, .jobs, .render, .mem, .pos, .fire, .links, .cams, .cal, .time, .axes, .ring, .pair, .loops] s (msgMaintenance i p s) := by
  unfold msgMaintenance
  refine KeepsV.ok ?_
  refine Keeps.then ?_ (leaveRing_keeps _ _) (by decide)
  exact Keeps.refl _ _

theorem restart_keeps (mode) (s) : Keeps [.mod, .power, .conf, .update, .log, .thermal, .gov, .net, .jobs, .render, .mem, .pos, .fire, .links, .cams, .cal, .time, .axes, .ring, .pair, .loops] s (restart mode s) := by
  unfold restart
  refine Keeps.then ?_ (leaveRing_keeps _ _) (by decide)
  refine Keeps.then ?_ (set_mod_keeps ..) (by decide)
  refine Keeps.forEach (fun _ _ => ?_) ?_
  ·
    refine Keeps.then ?_ (closeSession_keeps _ _ _) (by decide)
    exact Keeps.refl _ _
  ·
    exact Keeps.refl _ _

theorem msgRestart_keeps (i) (p) (s) : KeepsV [.mod, .power, .conf, .update, .log, .thermal, .gov, .net, .jobs, .render, .mem, .pos, .fire, .links, .cams, .cal, .time, .axes, .ring, .pair, .loops] s (msgRestart i p s) := by
  unfold msgRestart
  refine KeepsV.ok ?_
  refine Keeps.then ?_ (restart_keeps _ _) (by decide)
  exact Keeps.refl _ _

end Sys2Proof.Machine
end

