-- ==== Sys2Proof/Laws/KeepsUpdate.lean ====
section
/-! SUPPORT. What the operations of Update, RingPort, Runs leave alone, and that they keep the invariant. -/
namespace Sys2Proof.Machine
open Sys2Proof

theorem pumpImages_keeps (n s) : Keeps [.ring] s (pumpImages n s) := by
  induction n generalizing s with
  | zero => exact Keeps.refl _ _
  | succ n ih =>
    unfold pumpImages
    split
    · exact Keeps.refl _ _
    · dsimp only
      refine Keeps.ite (fun _ => Keeps.refl _ _) (fun _ => ?_)
      exact (((Keeps.refl _ _).then (set_ring_keeps ..) (by decide)).then (ringSend_keeps ..) (by decide)).then (ih _) (by decide)

theorem sendRelay_keeps (first) (s) : Keeps [.ring] s (sendRelay first s) := by
  unfold sendRelay
  refine Keeps.then ?_ (pumpImages_keeps _ _) (by decide)
  refine Keeps.then ?_ (set_ring_keeps ..) (by decide)
  exact Keeps.refl _ _

theorem settleRelay_keeps (s) : Keeps [.update, .log, .net, .ring] s (settleRelay s) := by
  unfold settleRelay
  refine Keeps.ite (fun _ => ?_) (fun _ => ?_)
  ·
    refine Keeps.then ?_ (raise_keeps _ _ _) (by decide)
    refine Keeps.then ?_ (set_update_ring_keeps ..) (by decide)
    exact Keeps.refl _ _
  ·
    exact Keeps.refl _ _

theorem openConfig_keeps (h) (s) : Keeps [.flash, .update] s (openConfig h s) := by
  unfold openConfig
  refine Keeps.ite (fun _ => ?_) (fun _ => ?_)
  ·
    exact Keeps.refl _ _
  ·
    refine Keeps.then ?_ (set_flash_update_keeps ..) (by decide)
    exact Keeps.refl _ _

theorem openBundle_keeps (h) (s) : Keeps [.flash, .update] s (openBundle h s) := by
  unfold openBundle
  refine Keeps.ite (fun _ => ?_) (fun _ => ?_)
  ·
    refine Keeps.ite (fun _ => ?_) (fun _ => ?_)
    ·
      exact Keeps.refl _ _
    ·
      refine Keeps.then ?_ (markSlot_keeps _ _ _) (by decide)
      exact Keeps.refl _ _
  ·
    refine Keeps.then ?_ (modSlotRec_keeps _ _ _) (by decide)
    refine Keeps.then ?_ (writeSlot_keeps _ _ _ _) (by decide)
    refine Keeps.then ?_ (set_update_keeps ..) (by decide)
    exact Keeps.refl _ _

theorem openDownload_keeps (kind) (h) (s) : Keeps [.flash, .update] s (openDownload kind h s) := by
  unfold openDownload
  refine Keeps.then ?_ (set_update_keeps ..) (by decide)
  refine Keeps.ite (fun _ => ?_) (fun _ => ?_)
  ·
    refine Keeps.then ?_ (openBundle_keeps _ _) (by decide)
    exact Keeps.refl _ _
  ·
    refine Keeps.then ?_ (openConfig_keeps _ _) (by decide)
    exact Keeps.refl _ _

theorem sendImageAck_keeps (s) : Keeps [.update, .ring] s (sendImageAck s) := by
  unfold sendImageAck
  refine Keeps.then ?_ (ringSend_keeps _ _ _ _) (by decide)
  refine Keeps.then ?_ (set_update_keeps ..) (by decide)
  exact Keeps.refl _ _

theorem verifyRelay_keeps (s) : Keeps [.update] s (verifyRelay s) := by
  unfold verifyRelay
  refine Keeps.ite (fun _ => ?_) (fun _ => ?_)
  ·
    refine Keeps.then ?_ (set_update_keeps ..) (by decide)
    exact Keeps.refl _ _
  ·
    exact Keeps.refl _ _

theorem msgImageVerify_keeps (i) (p) (s) : KeepsV [.update, .net] s (msgImageVerify i p s) := by
  unfold msgImageVerify
  split
  ·
    exact KeepsV.error
  ·
    refine KeepsV.ok ?_
    refine Keeps.then ?_ (set_update_keeps ..) (by decide)
    refine Keeps.then ?_ (addPending_keeps _ _ _) (by decide)
    exact Keeps.refl _ _

theorem endDownload_keeps (kind) (s) : Keeps [.flash, .update] s (endDownload kind s) := by
  unfold endDownload
  refine Keeps.ite (fun _ => ?_) (fun _ => ?_)
  ·
    refine Keeps.then ?_ (modSlotRec_keeps _ _ _) (by decide)
    refine Keeps.then ?_ (writeSlot_keeps _ _ _ _) (by decide)
    refine Keeps.then ?_ (set_update_keeps ..) (by decide)
    exact Keeps.refl _ _
  ·
    refine Keeps.then ?_ (set_flash_update_keeps ..) (by decide)
    exact Keeps.refl _ _

theorem abortTrial_keeps (s) : Keeps [.power, .flash] s (abortTrial s) := by
  unfold abortTrial
  refine Keeps.ite (fun _ => ?_) (fun _ => ?_)
  ·
    refine Keeps.then ?_ (atNextStart_keeps _ _ _) (by decide)
    refine Keeps.then ?_ (writeBoot_keeps _ _ _ _ _) (by decide)
    refine Keeps.then ?_ (markSlot_keeps _ _ _) (by decide)
    exact Keeps.refl _ _
  ·
    exact Keeps.refl _ _

theorem msgImageAbort_keeps (i) (p) (s) : KeepsV [.power, .flash, .update] s (msgImageAbort i p s) := by
  unfold msgImageAbort
  refine KeepsV.ite (fun _ => ?_) (fun _ => ?_)
  ·
    refine KeepsV.ok ?_
    refine Keeps.then ?_ (abortTrial_keeps _) (by decide)
    exact Keeps.refl _ _
  ·
    split
    ·
      exact KeepsV.error
    ·
      refine KeepsV.ok ?_
      refine Keeps.then ?_ (endDownload_keeps _ _) (by decide)
      exact Keeps.refl _ _

theorem msgImageConfirm_keeps (i) (p) (s) : KeepsV [.update] s (msgImageConfirm i p s) := by
  unfold msgImageConfirm
  refine KeepsV.ite (fun _ => ?_) (fun _ => ?_)
  ·
    exact KeepsV.error
  ·
    refine KeepsV.ite (fun _ => ?_) (fun _ => ?_)
    ·
      exact KeepsV.error
    ·
      refine KeepsV.ok ?_
      refine Keeps.then ?_ (set_update_keeps ..) (by decide)
      exact Keeps.refl _ _

theorem msgImageActivate_keeps (i) (p) (s) : KeepsV [.update, .net] s (msgImageActivate i p s) := by
  unfold msgImageActivate
  refine KeepsV.ite (fun _ => ?_) (fun _ => ?_)
  ·
    exact KeepsV.error
  ·
    split
    ·
      exact KeepsV.error
    ·
      refine KeepsV.ite (fun _ => ?_) (fun _ => ?_)
      ·
        exact KeepsV.error
      ·
        refine KeepsV.ok ?_
        refine Keeps.then ?_ (set_update_keeps ..) (by decide)
        refine Keeps.then ?_ (addPending_keeps _ _ _) (by decide)
        exact Keeps.refl _ _
    ·
      refine KeepsV.ite (fun _ => ?_) (fun _ => ?_)
      ·
        exact KeepsV.error
      ·
        refine KeepsV.ok ?_
        refine Keeps.then ?_ (set_update_keeps ..) (by decide)
        refine Keeps.then ?_ (addPending_keeps _ _ _) (by decide)
        exact Keeps.refl _ _

theorem msgImageBlock_keeps (i) (p) (s) : KeepsV [.update] s (msgImageBlock i p s) := by
  unfold msgImageBlock
  refine KeepsV.ite (fun _ => ?_) (fun _ => ?_)
  ·
    exact KeepsV.error
  ·
    refine KeepsV.ite (fun _ => ?_) (fun _ => ?_)
    ·
      exact KeepsV.error
    ·
      refine KeepsV.ite (fun _ => ?_) (fun _ => ?_)
      ·
        exact KeepsV.error
      ·
        refine KeepsV.ite (fun _ => ?_) (fun _ => ?_)
        ·
          exact KeepsV.error
        ·
          refine KeepsV.ite (fun _ => ?_) (fun _ => ?_)
          ·
            exact KeepsV.error
          ·
            refine KeepsV.ite (fun _ => ?_) (fun _ => ?_)
            ·
              exact KeepsV.error
            ·
              refine KeepsV.ok ?_
              refine Keeps.then ?_ (set_update_keeps ..) (by decide)
              exact Keeps.refl _ _

theorem msgImageBegin_keeps (i) (p) (s) : KeepsV [.flash, .update, .net, .pair] s (msgImageBegin i p s) := by
  unfold msgImageBegin
  refine KeepsV.ite (fun _ => ?_) (fun _ => ?_)
  ·
    exact KeepsV.error
  ·
    refine KeepsV.ite (fun _ => ?_) (fun _ => ?_)
    ·
      exact KeepsV.error
    ·
      refine KeepsV.ok ?_
      refine Keeps.then ?_ (finishResult_keeps _ _ _) (by decide)
      refine Keeps.ite (fun _ => ?_) (fun _ => ?_)
      ·
        refine Keeps.then ?_ (openDownload_keeps _ _ _) (by decide)
        refine Keeps.then ?_ (addPending_keeps _ _ _) (by decide)
        refine Keeps.then ?_ (set_update_keeps ..) (by decide)
        exact Keeps.refl _ _
      ·
        refine Keeps.then ?_ (addPending_keeps _ _ _) (by decide)
        refine Keeps.then ?_ (set_update_keeps ..) (by decide)
        exact Keeps.refl _ _

theorem promote_keeps (ticket) (body) (s) : Keeps [.mod, .power, .flash, .conf, .update, .log, .thermal, .gov, .net, .jobs, .render, .mem, .pos, .fire, .links, .cams, .cal, .time, .axes, .ring, .pair, .loops] s (promote ticket body s) := by
  unfold promote
  refine Keeps.then ?_ (restart_keeps _ _) (by decide)
  refine Keeps.then ?_ (finishResult_keeps _ _ _) (by decide)
  refine Keeps.then ?_ (raise_keeps _ _ _) (by decide)
  refine Keeps.then ?_ (writeBoot_keeps _ _ _ _ _) (by decide)
  exact Keeps.refl _ _

theorem startRelay_keeps (s) : Keeps [.update, .log, .net, .ring] s (startRelay s) := by
  unfold startRelay
  refine Keeps.ite (fun _ => ?_) (fun _ => ?_)
  ·
    refine Keeps.then ?_ (settleRelay_keeps _) (by decide)
    refine Keeps.then ?_ (sendRelay_keeps _ _) (by decide)
    refine Keeps.then ?_ (set_update_ring_keeps ..) (by decide)
    exact Keeps.refl _ _
  ·
    exact Keeps.refl _ _

theorem verifiedBundle_keeps (s) : Keeps [.flash] s (verifiedBundle s).2.2 := by
  unfold verifiedBundle
  refine Keeps.ite (fun _ => ?_) (fun _ => Keeps.refl _ _)
  exact (Keeps.refl _ _).then (putSlot_keeps ..) (by decide)

theorem execImageVerifyDone_keeps (t) (s) : KeepsO [.mod, .power, .flash, .conf, .update, .log, .thermal, .gov, .net, .jobs, .render, .mem, .pos, .fire, .links, .cams, .cal, .time, .axes, .ring, .pair, .loops] (beginAt t s) (execImageVerifyDone t s) := by
  unfold execImageVerifyDone
  try dsimp only
  split
  ·
    refine KeepsO.next ?_
    exact Keeps.refl _ _
  ·
    refine KeepsO.ite (fun _ => ?_) (fun _ => ?_)
    ·
      refine KeepsO.next ?_
      refine Keeps.then ?_ (finishResult_keeps _ _ _) (by decide)
      refine Keeps.then ?_ (set_update_keeps ..) (by decide)
      try (refine Keeps.then ?_ (set_update_keeps ..) (by decide))
      exact Keeps.refl _ _
    ·
      refine KeepsO.ite (fun _ => ?_) (fun _ => ?_)
      ·
        refine KeepsO.next ?_
        refine Keeps.then ?_ (sendImageAck_keeps _) (by decide)
        refine Keeps.then ?_ (set_update_keeps ..) (by decide)
        refine Keeps.then ?_ (verifiedBundle_keeps _) (by decide)
        refine Keeps.then ?_ (set_update_keeps ..) (by decide)
        exact Keeps.refl _ _
      ·
        refine KeepsO.ite (fun _ => ?_) (fun _ => ?_)
        ·
          refine KeepsO.next ?_
          exact Keeps.refl _ _
        ·
          refine KeepsO.ite (fun _ => ?_) (fun _ => ?_)
          ·
            refine KeepsO.next ?_
            refine Keeps.ite (fun _ => ?_) (fun _ => ?_)
            ·
              refine Keeps.then ?_ (promote_keeps _ _ _) (by decide)
              refine Keeps.then ?_ (verifiedBundle_keeps _) (by decide)
              refine Keeps.then ?_ (set_update_keeps ..) (by decide)
              exact Keeps.refl _ _
            ·
              refine Keeps.then ?_ (finishResult_keeps _ _ _) (by decide)
              refine Keeps.then ?_ (verifiedBundle_keeps _) (by decide)
              refine Keeps.then ?_ (set_update_keeps ..) (by decide)
              exact Keeps.refl _ _
          ·
            refine KeepsO.next ?_
            refine Keeps.ite (fun _ => ?_) (fun _ => ?_)
            ·
              refine Keeps.then ?_ (startRelay_keeps _) (by decide)
              refine Keeps.then ?_ (finishResult_keeps _ _ _) (by decide)
              refine Keeps.then ?_ (verifiedBundle_keeps _) (by decide)
              refine Keeps.then ?_ (set_update_keeps ..) (by decide)
              exact Keeps.refl _ _
            ·
              refine Keeps.then ?_ (finishResult_keeps _ _ _) (by decide)
              refine Keeps.then ?_ (verifiedBundle_keeps _) (by decide)
              refine Keeps.then ?_ (set_update_keeps ..) (by decide)
              exact Keeps.refl _ _

theorem writeCopy_keeps (s) : Keeps [.flash] s (writeCopy s) := by
  unfold writeCopy
  split
  ·
    refine Keeps.then ?_ (setArea_keeps _ _ _) (by decide)
    exact Keeps.refl _ _
  ·
    exact Keeps.refl _ _

theorem writeTraining_keeps (ok) (s) : Keeps [.flash] s (writeTraining ok s) := by
  unfold writeTraining
  refine Keeps.then ?_ (set_flash_keeps ..) (by decide)
  exact Keeps.refl _ _

theorem writeStore_keeps (ok) (s) : Keeps [.flash, .log, .net, .cal] s (writeStore ok s) := by
  unfold writeStore
  refine Keeps.ite (fun _ => ?_) (fun _ => ?_)
  ·
    refine Keeps.then ?_ (raise_keeps _ _ _) (by decide)
    refine Keeps.then ?_ (set_flash_cal_keeps ..) (by decide)
    exact Keeps.refl _ _
  ·
    refine Keeps.then ?_ (raise_keeps _ _ _) (by decide)
    exact Keeps.refl _ _

theorem execFlashRecordWritten_keeps (t) (rec) (ok) (s) : KeepsO [.flash, .update, .log, .net, .cal] (beginAt t s) (execFlashRecordWritten t rec ok s) := by
  unfold execFlashRecordWritten
  refine KeepsO.ite (fun _ => ?_) (fun _ => ?_)
  ·
    refine KeepsO.next ?_
    exact Keeps.refl _ _
  ·
    refine KeepsO.next ?_
    split
    ·
      refine Keeps.then ?_ (writeStore_keeps _ _) (by decide)
      refine Keeps.then ?_ (emit_keeps _ _) (by decide)
      refine Keeps.then ?_ (set_update_keeps ..) (by decide)
      exact Keeps.refl _ _
    ·
      refine Keeps.then ?_ (writeTraining_keeps _ _) (by decide)
      refine Keeps.then ?_ (emit_keeps _ _) (by decide)
      refine Keeps.then ?_ (set_update_keeps ..) (by decide)
      exact Keeps.refl _ _
    ·
      refine Keeps.ite (fun _ => ?_) (fun _ => ?_)
      ·
        refine Keeps.then ?_ (writeCopy_keeps _) (by decide)
        refine Keeps.then ?_ (emit_keeps _ _) (by decide)
        refine Keeps.then ?_ (set_update_keeps ..) (by decide)
        exact Keeps.refl _ _
      ·
        refine Keeps.then ?_ (set_update_keeps ..) (by decide)
        exact Keeps.refl _ _

theorem execBundleConfirmed_keeps (t) (s) : KeepsO [.flash, .update, .log, .net] (beginAt t s) (execBundleConfirmed t s) := by
  unfold execBundleConfirmed
  refine KeepsO.next ?_
  refine Keeps.ite (fun _ => ?_) (fun _ => ?_)
  ·
    refine Keeps.then ?_ (raise_keeps _ _ _) (by decide)
    refine Keeps.then ?_ (emit_keeps _ _) (by decide)
    refine Keeps.then ?_ (set_update_keeps ..) (by decide)
    refine Keeps.then ?_ (writeBoot_keeps _ _ _ _ _) (by decide)
    refine Keeps.then ?_ (markSlot_keeps _ _ _) (by decide)
    exact Keeps.refl _ _
  ·
    exact Keeps.refl _ _

theorem writeConfigBlock_keeps (j) (s) : Keeps [.flash, .update] s (writeConfigBlock j s) := by
  unfold writeConfigBlock
  refine Keeps.then ?_ (set_flash_update_keeps ..) (by decide)
  exact Keeps.refl _ _

theorem writeBundleBlock_keeps (j) (s) : Keeps [.flash, .update] s (writeBundleBlock j s) := by
  unfold writeBundleBlock
  refine Keeps.ite (fun _ => ?_) (fun _ => ?_)
  ·
    refine Keeps.then ?_ (verifyRelay_keeps _) (by decide)
    refine Keeps.then ?_ (putSlot_keeps _ _ _ _) (by decide)
    refine Keeps.then ?_ (modSlotRec_keeps _ _ _) (by decide)
    exact Keeps.refl _ _
  ·
    refine Keeps.then ?_ (putSlot_keeps _ _ _ _) (by decide)
    refine Keeps.then ?_ (modSlotRec_keeps _ _ _) (by decide)
    exact Keeps.refl _ _

theorem execFlashBlockWritten_keeps (t) (s) : KeepsO [.flash, .update] (beginAt t s) (execFlashBlockWritten t s) := by
  unfold execFlashBlockWritten
  try dsimp only
  split
  ·
    refine KeepsO.next ?_
    exact Keeps.refl _ _
  ·
    refine KeepsO.next ?_
    refine Keeps.ite (fun _ => ?_) (fun _ => ?_)
    ·
      exact Keeps.refl _ _
    ·
      refine Keeps.ite (fun _ => ?_) (fun _ => ?_)
      ·
        refine Keeps.then ?_ (writeBundleBlock_keeps _ _) (by decide)
        refine Keeps.then ?_ (emit_keeps _ _) (by decide)
        refine Keeps.then ?_ (set_update_keeps ..) (by decide)
        exact Keeps.refl _ _
      ·
        refine Keeps.then ?_ (writeConfigBlock_keeps _ _) (by decide)
        refine Keeps.then ?_ (emit_keeps _ _) (by decide)
        refine Keeps.then ?_ (set_update_keeps ..) (by decide)
        exact Keeps.refl _ _

theorem activateConfig_keeps (s) : Keeps [.flash, .conf] s (activateConfig s) := by
  unfold activateConfig
  refine Keeps.then ?_ (emit_keeps _ _) (by decide)
  refine Keeps.then ?_ (set_conf_keeps ..) (by decide)
  refine Keeps.ite (fun _ => ?_) (fun _ => ?_)
  ·
    split
    ·
      refine Keeps.then ?_ (setArea_keeps _ _ _) (by decide)
      refine Keeps.then ?_ (setArea_keeps _ _ _) (by decide)
      refine Keeps.then ?_ (setArea_keeps _ _ _) (by decide)
      refine Keeps.then ?_ (setArea_keeps _ _ _) (by decide)
      refine Keeps.then ?_ (setArea_keeps _ _ _) (by decide)
      refine Keeps.then ?_ (setArea_keeps _ _ _) (by decide)
      exact Keeps.refl _ _
    ·
      refine Keeps.then ?_ (setArea_keeps _ _ _) (by decide)
      refine Keeps.then ?_ (setArea_keeps _ _ _) (by decide)
      refine Keeps.then ?_ (setArea_keeps _ _ _) (by decide)
      refine Keeps.then ?_ (setArea_keeps _ _ _) (by decide)
      exact Keeps.refl _ _
  ·
    refine Keeps.then ?_ (setArea_keeps _ _ _) (by decide)
    refine Keeps.then ?_ (setArea_keeps _ _ _) (by decide)
    refine Keeps.then ?_ (setArea_keeps _ _ _) (by decide)
    refine Keeps.then ?_ (setArea_keeps _ _ _) (by decide)
    exact Keeps.refl _ _

theorem execConfigActivationDone_keeps (t) (s) : KeepsO [.flash, .conf, .update, .net, .pair] (beginAt t s) (execConfigActivationDone t s) := by
  unfold execConfigActivationDone
  try dsimp only
  split
  ·
    refine KeepsO.next ?_
    exact Keeps.refl _ _
  ·
    refine KeepsO.ite (fun _ => ?_) (fun _ => ?_)
    ·
      refine KeepsO.next ?_
      exact Keeps.refl _ _
    ·
      refine KeepsO.next ?_
      refine Keeps.then ?_ (finishResult_keeps _ _ _) (by decide)
      refine Keeps.then ?_ (activateConfig_keeps _) (by decide)
      refine Keeps.then ?_ (set_update_keeps ..) (by decide)
      exact Keeps.refl _ _

theorem sendEject_keeps (n) (reason) (s) : Keeps [.ring] s (sendEject n reason s) := by
  unfold sendEject
  refine Keeps.then ?_ (ringSend_keeps _ _ _ _) (by decide)
  exact Keeps.refl _ _

theorem serveLeaves_keeps (s) : Keeps [.mod, .power, .conf, .update, .log, .thermal, .gov, .net, .jobs, .render, .mem, .pos, .fire, .links, .cams, .cal, .time, .axes, .ring, .pair, .loops] s (serveLeaves s) := by
  unfold serveLeaves
  refine Keeps.ite (fun _ => ?_) (fun _ => ?_)
  ·
    exact Keeps.refl _ _
  ·
    try dsimp only
    split
    ·
      refine Keeps.then ?_ (depart_keeps _ _) (by decide)
      refine Keeps.then ?_ (sendEject_keeps _ _ _) (by decide)
      refine Keeps.forEach (fun _ _ => ?_) ?_
      ·
        refine Keeps.then ?_ (sendEject_keeps _ _ _) (by decide)
        exact Keeps.refl _ _
      ·
        refine Keeps.then ?_ (set_ring_keeps ..) (by decide)
        exact Keeps.refl _ _
    ·
      refine Keeps.forEach (fun _ _ => ?_) ?_
      ·
        refine Keeps.then ?_ (sendEject_keeps _ _ _) (by decide)
        exact Keeps.refl _ _
      ·
        refine Keeps.then ?_ (set_ring_keeps ..) (by decide)
        exact Keeps.refl _ _

theorem noteRoll_keeps (s) : Keeps [.ring] s (noteRoll s) := by
  unfold noteRoll
  refine Keeps.then ?_ (set_ring_keeps ..) (by decide)
  exact Keeps.refl _ _

theorem sendRoll_keeps (s) : Keeps [.ring] s (sendRoll s) := by
  unfold sendRoll
  refine Keeps.then ?_ (ringSend_keeps _ _ _ _) (by decide)
  exact Keeps.refl _ _

theorem grantNext_keeps (s) : Keeps [.ring] s (grantNext s) := by
  unfold grantNext
  refine Keeps.ite (fun _ => ?_) (fun _ => ?_)
  ·
    exact Keeps.refl _ _
  ·
    try dsimp only
    split
    ·
      refine Keeps.then ?_ (set_ring_keeps ..) (by decide)
      refine Keeps.ite (fun _ => ?_) (fun _ => ?_)
      ·
        refine Keeps.then ?_ (set_ring_keeps ..) (by decide)
        exact Keeps.refl _ _
      ·
        exact Keeps.refl _ _
    ·
      refine Keeps.ite (fun _ => ?_) (fun _ => ?_)
      ·
        refine Keeps.ite (fun _ => ?_) (fun _ => ?_)
        ·
          refine Keeps.then ?_ (set_ring_keeps ..) (by decide)
          exact Keeps.refl _ _
        ·
          exact Keeps.refl _ _
      ·
        refine Keeps.then ?_ (ringSend_keeps _ _ _ _) (by decide)
        refine Keeps.then ?_ (set_ring_keeps ..) (by decide)
        refine Keeps.ite (fun _ => ?_) (fun _ => ?_)
        ·
          refine Keeps.then ?_ (set_ring_keeps ..) (by decide)
          exact Keeps.refl _ _
        ·
          exact Keeps.refl _ _

theorem tryGrant_keeps (s) : Keeps [.free, .ring] s (tryGrant s) := by
  unfold tryGrant
  refine Keeps.ite (fun _ => ?_) (fun _ => ?_)
  ·
    exact Keeps.refl _ _
  ·
    refine Keeps.ite (fun _ => ?_) (fun _ => ?_)
    ·
      refine Keeps.then ?_ (grantNext_keeps _) (by decide)
      refine Keeps.then ?_ (drawFree_keeps _) (by decide)
      exact Keeps.refl _ _
    ·
      refine Keeps.then ?_ (drawFree_keeps _) (by decide)
      refine Keeps.then ?_ (set_ring_keeps ..) (by decide)
      exact Keeps.refl _ _

theorem outageEnded_keeps (since) (s) : Keeps [.log, .net, .ring] s (outageEnded since s) := by
  unfold outageEnded
  refine Keeps.then ?_ (raise_keeps _ _ _) (by decide)
  refine Keeps.then ?_ (set_ring_keeps ..) (by decide)
  exact Keeps.refl _ _

theorem hearKing_keeps (f) (s) : Keeps [.log, .net, .ring] s (hearKing f s) := by
  unfold hearKing
  refine Keeps.ite (fun _ => ?_) (fun _ => ?_)
  ·
    exact Keeps.refl _ _
  ·
    try dsimp only
    split
    ·
      refine Keeps.ite (fun _ => ?_) (fun _ => ?_)
      ·
        refine Keeps.then ?_ (outageEnded_keeps _ _) (by decide)
        refine Keeps.then ?_ (set_ring_keeps ..) (by decide)
        exact Keeps.refl _ _
      ·
        refine Keeps.then ?_ (set_ring_keeps ..) (by decide)
        exact Keeps.refl _ _
    ·
      refine Keeps.then ?_ (set_ring_keeps ..) (by decide)
      exact Keeps.refl _ _

theorem sendTime_keeps (s) : Keeps [.ring] s (sendTime s) := by
  unfold sendTime
  refine Keeps.then ?_ (ringSend_keeps _ _ _ _) (by decide)
  exact Keeps.refl _ _

theorem sendOwed_keeps (s) : Keeps [.ring] s (sendOwed s) := by
  unfold sendOwed
  refine Keeps.forEach (fun _ _ => ?_) ?_
  ·
    refine Keeps.then ?_ (ringSend_keeps _ _ _ _) (by decide)
    exact Keeps.refl _ _
  ·
    refine Keeps.then ?_ (set_ring_keeps ..) (by decide)
    exact Keeps.refl _ _

theorem becomeKing_keeps (s) : Keeps [.log, .net, .ring] s (becomeKing s) := by
  unfold becomeKing
  refine Keeps.then ?_ (noteRoll_keeps _) (by decide)
  refine Keeps.then ?_ (modNode_keeps _ _ _) (by decide)
  refine Keeps.then ?_ (setRingState_keeps _ _) (by decide)
  refine Keeps.then ?_ (set_ring_keeps ..) (by decide)
  refine Keeps.then ?_ (openBypass_keeps _) (by decide)
  exact Keeps.refl _ _

theorem takeRing_keeps (s) : Keeps [.log, .net, .ring] s (takeRing s) := by
  unfold takeRing
  refine Keeps.ite (fun _ => ?_) (fun _ => ?_)
  ·
    refine Keeps.then ?_ (sendOwed_keeps _) (by decide)
    refine Keeps.then ?_ (sendRoll_keeps _) (by decide)
    refine Keeps.then ?_ (sendTime_keeps _) (by decide)
    refine Keeps.then ?_ (ringSend_keeps _ _ _ _) (by decide)
    refine Keeps.then ?_ (set_ring_keeps ..) (by decide)
    refine Keeps.then ?_ (becomeKing_keeps _) (by decide)
    exact Keeps.refl _ _
  ·
    exact Keeps.refl _ _

theorem yieldRing_keeps (s) : Keeps [.log, .net, .ring] s (yieldRing s) := by
  unfold yieldRing
  refine Keeps.ite (fun _ => ?_) (fun _ => ?_)
  ·
    refine Keeps.then ?_ (setRingState_keeps _ _) (by decide)
    refine Keeps.then ?_ (set_ring_keeps ..) (by decide)
    exact Keeps.refl _ _
  ·
    exact Keeps.refl _ _

theorem stopRun_keeps (s) : Keeps [.mod, .power, .conf, .update, .log, .gov, .net, .jobs, .pos, .fire, .cams, .cal, .ring, .pair] s (stopRun s) := by
  unfold stopRun
  refine Keeps.then ?_ (settle_keeps _) (by decide)
  refine Keeps.then ?_ (endReleases_keeps _) (by decide)
  refine Keeps.then ?_ (sendCascadeStop_keeps _ _) (by decide)
  exact Keeps.refl _ _

theorem msgRunEnd_keeps (i) (p) (s) : KeepsV [.mod, .power, .conf, .update, .log, .gov, .net, .jobs, .pos, .fire, .cams, .cal, .ring, .pair] s (msgRunEnd i p s) := by
  unfold msgRunEnd
  refine KeepsV.ite (fun _ => ?_) (fun _ => ?_)
  ·
    exact KeepsV.error
  ·
    refine KeepsV.ite (fun _ => ?_) (fun _ => ?_)
    ·
      exact KeepsV.error
    ·
      refine KeepsV.ok ?_
      refine Keeps.ite (fun _ => ?_) (fun _ => ?_)
      ·
        refine Keeps.then ?_ (modArmed_keeps _ _) (by decide)
        exact Keeps.refl _ _
      ·
        refine Keeps.then ?_ (enterIdle_keeps _ _) (by decide)
        refine Keeps.then ?_ (modArmed_keeps _ _) (by decide)
        exact Keeps.refl _ _

theorem msgRunCancel_keeps (i) (p) (s) : KeepsV [.mod, .power, .conf, .update, .log, .gov, .net, .jobs, .render, .pos, .fire, .cams, .cal, .ring, .pair] s (msgRunCancel i p s) := by
  unfold msgRunCancel
  refine KeepsV.ite (fun _ => ?_) (fun _ => ?_)
  ·
    exact KeepsV.error
  ·
    refine KeepsV.ite (fun _ => ?_) (fun _ => ?_)
    ·
      exact KeepsV.error
    ·
      refine KeepsV.ite (fun _ => ?_) (fun _ => ?_)
      ·
        refine KeepsV.ok ?_
        refine Keeps.then ?_ (endReleases_keeps _) (by decide)
        refine Keeps.then ?_ (abandonRendering_keeps _) (by decide)
        exact Keeps.refl _ _
      ·
        refine KeepsV.ok ?_
        refine Keeps.then ?_ (beginSeal_keeps _) (by decide)
        refine Keeps.then ?_ (enterIdle_keeps _ _) (by decide)
        refine Keeps.then ?_ (abandonRendering_keeps _) (by decide)
        exact Keeps.refl _ _

theorem msgRunStop_keeps (i) (p) (s) : KeepsV [.mod, .power, .conf, .update, .log, .gov, .net, .jobs, .pos, .fire, .cams, .cal, .ring, .pair] s (msgRunStop i p s) := by
  unfold msgRunStop
  refine KeepsV.ite (fun _ => ?_) (fun _ => ?_)
  ·
    exact KeepsV.error
  ·
    refine KeepsV.ite (fun _ => ?_) (fun _ => ?_)
    ·
      exact KeepsV.error
    ·
      refine KeepsV.ok ?_
      refine Keeps.then ?_ (stopRun_keeps _) (by decide)
      exact Keeps.refl _ _

theorem dropStale_keeps (r) (s) : Keeps [.jobs] s (dropStale r s) := by
  unfold dropStale
  refine Keeps.forEach (fun _ _ => ?_) ?_
  ·
    refine Keeps.then ?_ (undoPage_keeps _ _) (by decide)
    exact Keeps.refl _ _
  ·
    exact Keeps.refl _ _

theorem msgRunArm_keeps (i) (p) (s) : KeepsV [.net, .jobs] s (msgRunArm i p s) := by
  unfold msgRunArm
  refine KeepsV.ite (fun _ => ?_) (fun _ => ?_)
  ·
    exact KeepsV.error
  ·
    refine KeepsV.ite (fun _ => ?_) (fun _ => ?_)
    ·
      exact KeepsV.error
    ·
      refine KeepsV.ite (fun _ => ?_) (fun _ => ?_)
      ·
        exact KeepsV.error
      ·
        split
        ·
          exact KeepsV.error
        ·
          refine KeepsV.ite (fun _ => ?_) (fun _ => ?_)
          ·
            exact KeepsV.error
          ·
            refine KeepsV.ite (fun _ => ?_) (fun _ => ?_)
            ·
              exact KeepsV.error
            ·
              refine KeepsV.ok ?_
              refine Keeps.then ?_ (set_jobs_keeps ..) (by decide)
              refine Keeps.then ?_ (addPending_keeps _ _ _) (by decide)
              refine Keeps.then ?_ (dropStale_keeps _ _) (by decide)
              exact Keeps.refl _ _

theorem msgRunDefine_keeps (i) (p) (s) : KeepsV [.jobs] s (msgRunDefine i p s) := by
  unfold msgRunDefine
  refine KeepsV.ite (fun _ => ?_) (fun _ => ?_)
  ·
    exact KeepsV.error
  ·
    refine KeepsV.ite (fun _ => ?_) (fun _ => ?_)
    ·
      exact KeepsV.error
    ·
      try dsimp only
      split
      ·
        exact KeepsV.error
      ·
        refine KeepsV.ok ?_
        refine Keeps.then ?_ (set_jobs_keeps ..) (by decide)
        exact Keeps.refl _ _

theorem msgHaltReq_keeps (i) (p) (s) : KeepsV [.mod, .power, .conf, .update, .log, .gov, .net, .jobs, .render, .pos, .fire, .links, .cams, .cal, .axes, .ring, .pair] s (msgHaltReq i p s) := by
  unfold msgHaltReq
  refine KeepsV.ok ?_
  refine Keeps.ite (fun _ => ?_) (fun _ => ?_)
  ·
    exact Keeps.refl _ _
  ·
    refine Keeps.ite (fun _ => ?_) (fun _ => ?_)
    ·
      refine Keeps.then ?_ (haltBars_keeps _ _ _ _ _) (by decide)
      refine Keeps.then ?_ (barsFirst_keeps _ _) (by decide)
      exact Keeps.refl _ _
    ·
      refine Keeps.then ?_ (ownHalt_keeps _ _ _ _) (by decide)
      exact Keeps.refl _ _

theorem armPending_keeps (verdict) (tag) (nArm) (s) : Keeps [.mod, .power, .conf, .update, .log, .gov, .net, .jobs, .render, .pos, .fire, .links, .cams, .cal, .axes, .ring, .pair] s (armPending verdict tag nArm s) := by
  unfold armPending
  split
  ·
    exact Keeps.refl _ _
  ·
    split
    ·
      refine Keeps.then ?_ (armRun_keeps _ _ _ _ _ _) (by decide)
      exact Keeps.refl _ _
    ·
      refine Keeps.then ?_ (set_net_jobs_keeps ..) (by decide)
      exact Keeps.refl _ _

theorem execRunArmVerdict_keeps (t) (s) : KeepsO [.mod, .power, .conf, .update, .log, .gov, .net, .jobs, .render, .pos, .fire, .links, .cams, .cal, .axes, .ring, .pair] (beginAt t s) (execRunArmVerdict t s) := by
  unfold execRunArmVerdict
  try dsimp only
  split
  ·
    refine KeepsO.next ?_
    exact Keeps.refl _ _
  ·
    refine KeepsO.ite (fun _ => ?_) (fun _ => ?_)
    ·
      refine KeepsO.next ?_
      refine Keeps.then ?_ (finishResult_keeps _ _ _) (by decide)
      refine Keeps.ite (fun _ => ?_) (fun _ => ?_)
      ·
        refine Keeps.then ?_ (set_jobs_keeps ..) (by decide)
        exact Keeps.refl _ _
      ·
        exact Keeps.refl _ _
    ·
      refine KeepsO.ite (fun _ => ?_) (fun _ => ?_)
      ·
        refine KeepsO.next ?_
        refine Keeps.then ?_ (finishResult_keeps _ _ _) (by decide)
        refine Keeps.then ?_ (set_jobs_keeps ..) (by decide)
        exact Keeps.refl _ _
      ·
        split
        ·
          refine KeepsO.next ?_
          refine Keeps.then ?_ (finishResult_keeps _ _ _) (by decide)
          refine Keeps.then ?_ (set_jobs_keeps ..) (by decide)
          exact Keeps.refl _ _
        ·
          refine KeepsO.next ?_
          refine Keeps.then ?_ (finishResult_keeps _ _ _) (by decide)
          refine onAck_then _ _ _ (by decide) (fun _ => ?_) ?_
          ·
            refine Keeps.then ?_ (armPending_keeps _ _ _ _) (by decide)
            exact Keeps.refl _ _
          ·
            exact Keeps.refl _ _

end Sys2Proof.Machine
end

