-- ==== Sys2Proof/Laws/KeepsRing.lean ====
section
/-! SUPPORT. What the operations of Ring leave alone, and that they keep the invariant. -/
namespace Sys2Proof.Machine
open Sys2Proof

theorem noteApplied_keeps (f) (s) : Keeps [.ring] s (noteApplied f s) := by
  unfold noteApplied
  refine Keeps.ite (fun _ => ?_) (fun _ => ?_)
  ·
    refine Keeps.then ?_ (set_ring_keeps ..) (by decide)
    exact Keeps.refl _ _
  ·
    exact Keeps.refl _ _

theorem changeoverFirst_keeps (f) (s) : Keeps [.cal, .pair] s (changeoverFirst f s) := by
  unfold changeoverFirst
  refine Keeps.ite (fun _ => ?_) (fun _ => ?_)
  ·
    refine Keeps.then ?_ (doChangeover_keeps _ _) (by decide)
    exact Keeps.refl _ _
  ·
    exact Keeps.refl _ _

theorem applyRingRelease_keeps (body) (s) : Keeps [.mod, .power, .conf, .update, .log, .gov, .net, .jobs, .render, .pos, .fire, .cams, .cal, .ring, .pair] s (applyRingRelease body s) := by
  unfold applyRingRelease
  try dsimp only
  split
  ·
    refine Keeps.ite (fun _ => ?_) (fun _ => ?_)
    ·
      refine Keeps.ite (fun _ => ?_) (fun _ => ?_)
      ·
        refine Keeps.then ?_ (dropHeldPages_keeps _ _) (by decide)
        exact Keeps.refl _ _
      ·
        exact Keeps.refl _ _
    ·
      refine Keeps.ite (fun _ => ?_) (fun _ => ?_)
      ·
        refine Keeps.then ?_ (sendSlotReady_keeps _) (by decide)
        refine Keeps.then ?_ (endIfLast_keeps _) (by decide)
        refine Keeps.then ?_ (passBlank_keeps _ _ _) (by decide)
        refine Keeps.then ?_ (modArmed_keeps _ _) (by decide)
        refine Keeps.then ?_ (raise_keeps _ _ _) (by decide)
        refine Keeps.ite (fun _ => ?_) (fun _ => ?_)
        ·
          refine Keeps.then ?_ (dropHeldPages_keeps _ _) (by decide)
          exact Keeps.refl _ _
        ·
          exact Keeps.refl _ _
      ·
        refine Keeps.ite (fun _ => ?_) (fun _ => ?_)
        ·
          refine Keeps.ite (fun _ => ?_) (fun _ => ?_)
          ·
            refine Keeps.then ?_ (dropHeldPages_keeps _ _) (by decide)
            exact Keeps.refl _ _
          ·
            exact Keeps.refl _ _
        ·
          refine Keeps.then ?_ (applyRelease_keeps _ _ _ _) (by decide)
          refine Keeps.ite (fun _ => ?_) (fun _ => ?_)
          ·
            refine Keeps.then ?_ (dropHeldPages_keeps _ _) (by decide)
            exact Keeps.refl _ _
          ·
            exact Keeps.refl _ _
  ·
    refine Keeps.ite (fun _ => ?_) (fun _ => ?_)
    ·
      refine Keeps.then ?_ (dropHeldPages_keeps _ _) (by decide)
      exact Keeps.refl _ _
    ·
      exact Keeps.refl _ _

theorem applyOrigin_keeps (body) (s) : Keeps [.pos] s (applyOrigin body s) := by
  unfold applyOrigin
  refine Keeps.forEach (fun _ _ => ?_) ?_
  ·
    refine Keeps.then ?_ (modInput_keeps _ _ _) (by decide)
    exact Keeps.refl _ _
  ·
    exact Keeps.refl _ _

theorem applyRing_keeps (type) (body) (s) : Keeps [.mod, .power, .conf, .update, .log, .gov, .net, .jobs, .render, .pos, .fire, .cams, .cal, .ring, .pair] s (applyRing type body s) := by
  unfold applyRing
  refine Keeps.ite (fun _ => ?_) (fun _ => ?_)
  ·
    refine Keeps.then ?_ (goStop_keeps _) (by decide)
    exact Keeps.refl _ _
  ·
    refine Keeps.ite (fun _ => ?_) (fun _ => ?_)
    ·
      refine Keeps.ite (fun _ => ?_) (fun _ => ?_)
      ·
        refine Keeps.then ?_ (applyOrigin_keeps _ _) (by decide)
        exact Keeps.refl _ _
      ·
        exact Keeps.refl _ _
    ·
      refine Keeps.ite (fun _ => ?_) (fun _ => ?_)
      ·
        exact Keeps.refl _ _
      ·
        refine Keeps.ite (fun _ => ?_) (fun _ => ?_)
        ·
          refine Keeps.ite (fun _ => ?_) (fun _ => ?_)
          ·
            refine Keeps.then ?_ (sendCascade_keeps _ _ _) (by decide)
            exact Keeps.refl _ _
          ·
            refine Keeps.then ?_ (applyCascade_keeps _ _) (by decide)
            exact Keeps.refl _ _
        ·
          refine Keeps.ite (fun _ => ?_) (fun _ => ?_)
          ·
            refine Keeps.then ?_ (applyRingRelease_keeps _ _) (by decide)
            exact Keeps.refl _ _
          ·
            refine Keeps.ite (fun _ => ?_) (fun _ => ?_)
            ·
              refine Keeps.then ?_ (applyNotReady_keeps _ _ _) (by decide)
              exact Keeps.refl _ _
            ·
              refine Keeps.ite (fun _ => ?_) (fun _ => ?_)
              ·
                refine Keeps.then ?_ (stopRun_keeps _) (by decide)
                refine Keeps.then ?_ (set_ring_keeps ..) (by decide)
                exact Keeps.refl _ _
              ·
                exact Keeps.refl _ _

theorem heardDecision_keeps (f) (s) : Keeps [.ring] s (heardDecision f s) := by
  unfold heardDecision
  refine Keeps.then ?_ (set_ring_keeps ..) (by decide)
  exact Keeps.refl _ _

theorem decideRing_keeps (f) (s) : Keeps [.mod, .power, .conf, .update, .log, .gov, .net, .jobs, .render, .pos, .fire, .cams, .cal, .ring, .pair] s (decideRing f s) := by
  unfold decideRing
  refine Keeps.ite (fun _ => ?_) (fun _ => ?_)
  ·
    refine Keeps.then ?_ (heardDecision_keeps _ _) (by decide)
    exact Keeps.refl _ _
  ·
    refine onAck_then _ _ _ (by decide) (fun _ => ?_) ?_
    ·
      refine Keeps.then ?_ (applyRing_keeps _ _ _) (by decide)
      exact Keeps.refl _ _
    ·
      refine Keeps.then ?_ (changeoverFirst_keeps _ _) (by decide)
      exact Keeps.refl _ _

theorem takeImageAck_keeps (f) (s) : Keeps [.update, .log, .net, .ring] s (takeImageAck f s) := by
  unfold takeImageAck
  refine Keeps.ite (fun _ => ?_) (fun _ => ?_)
  ·
    exact Keeps.refl _ _
  ·
    try dsimp only
    split
    ·
      refine Keeps.ite (fun _ => ?_) (fun _ => ?_)
      ·
        refine Keeps.then ?_ (sendRelay_keeps _ _) (by decide)
        refine Keeps.then ?_ (settleRelay_keeps _) (by decide)
        refine Keeps.then ?_ (modNode_keeps _ _ _) (by decide)
        exact Keeps.refl _ _
      ·
        refine Keeps.then ?_ (settleRelay_keeps _) (by decide)
        refine Keeps.then ?_ (modNode_keeps _ _ _) (by decide)
        exact Keeps.refl _ _
    ·
      refine Keeps.then ?_ (settleRelay_keeps _) (by decide)
      refine Keeps.then ?_ (modNode_keeps _ _ _) (by decide)
      exact Keeps.refl _ _

theorem queueRelay_keeps (fuel s) : Keeps [.update] s (queueRelay fuel s) := by
  induction fuel generalizing s with
  | zero => exact Keeps.refl _ _
  | succ k ih =>
    unfold queueRelay
    refine Keeps.ite (fun _ => Keeps.refl _ _) (fun _ => ?_)
    exact ((Keeps.refl _ _).then (set_update_keeps ..) (by decide)).then (ih _) (by decide)

theorem relayHeader_keeps (s) : Keeps [.flash, .update] s (relayHeader s) := by
  unfold relayHeader
  refine Keeps.ite (fun _ => ?_) (fun _ => ?_)
  ·
    refine Keeps.then ?_ (set_update_keeps ..) (by decide)
    exact Keeps.refl _ _
  ·
    refine Keeps.then ?_ (openDownload_keeps _ _ _) (by decide)
    refine Keeps.then ?_ (set_update_keeps ..) (by decide)
    exact Keeps.refl _ _

theorem takeRelayData_keeps (d) (s) : Keeps [.flash, .update] s (takeRelayData d s) := by
  unfold takeRelayData
  refine Keeps.ite (fun _ => ?_) (fun _ => ?_)
  ·
    refine Keeps.then ?_ (queueRelay_keeps _ _) (by decide)
    refine Keeps.ite (fun _ => ?_) (fun _ => ?_)
    ·
      refine Keeps.then ?_ (relayHeader_keeps _) (by decide)
      refine Keeps.then ?_ (set_update_keeps ..) (by decide)
      exact Keeps.refl _ _
    ·
      refine Keeps.then ?_ (set_update_keeps ..) (by decide)
      exact Keeps.refl _ _
  ·
    refine Keeps.ite (fun _ => ?_) (fun _ => ?_)
    ·
      refine Keeps.then ?_ (relayHeader_keeps _) (by decide)
      refine Keeps.then ?_ (set_update_keeps ..) (by decide)
      exact Keeps.refl _ _
    ·
      refine Keeps.then ?_ (set_update_keeps ..) (by decide)
      exact Keeps.refl _ _

theorem beginRelay_keeps (digest) (s) : Keeps [.update] s (beginRelay digest s) := by
  unfold beginRelay
  refine Keeps.then ?_ (set_update_keeps ..) (by decide)
  exact Keeps.refl _ _

theorem takeRelayBlock_keeps (f) (s) : Keeps [.flash, .update, .ring] s (takeRelayBlock f s) := by
  unfold takeRelayBlock
  refine Keeps.ite (fun _ => ?_) (fun _ => ?_)
  ·
    exact Keeps.refl _ _
  ·
    refine Keeps.ite (fun _ => ?_) (fun _ => ?_)
    ·
      refine Keeps.ite (fun _ => ?_) (fun _ => ?_)
      ·
        refine Keeps.then ?_ (sendImageAck_keeps _) (by decide)
        refine Keeps.ite (fun _ => ?_) (fun _ => ?_)
        ·
          exact Keeps.refl _ _
        ·
          refine Keeps.then ?_ (beginRelay_keeps _ _) (by decide)
          exact Keeps.refl _ _
      ·
        refine Keeps.ite (fun _ => ?_) (fun _ => ?_)
        ·
          exact Keeps.refl _ _
        ·
          refine Keeps.then ?_ (beginRelay_keeps _ _) (by decide)
          exact Keeps.refl _ _
    ·
      refine Keeps.ite (fun _ => ?_) (fun _ => ?_)
      ·
        refine Keeps.ite (fun _ => ?_) (fun _ => ?_)
        ·
          refine Keeps.then ?_ (sendImageAck_keeps _) (by decide)
          refine Keeps.then ?_ (takeRelayData_keeps _ _) (by decide)
          refine Keeps.ite (fun _ => ?_) (fun _ => ?_)
          ·
            exact Keeps.refl _ _
          ·
            refine Keeps.then ?_ (beginRelay_keeps _ _) (by decide)
            exact Keeps.refl _ _
        ·
          refine Keeps.then ?_ (takeRelayData_keeps _ _) (by decide)
          refine Keeps.ite (fun _ => ?_) (fun _ => ?_)
          ·
            exact Keeps.refl _ _
          ·
            refine Keeps.then ?_ (beginRelay_keeps _ _) (by decide)
            exact Keeps.refl _ _
      ·
        refine Keeps.ite (fun _ => ?_) (fun _ => ?_)
        ·
          exact Keeps.refl _ _
        ·
          refine Keeps.then ?_ (beginRelay_keeps _ _) (by decide)
          exact Keeps.refl _ _

theorem takeSlotReady_keeps (f) (s) : Keeps [.mod, .power, .conf, .update, .log, .gov, .net, .jobs, .render, .pos, .fire, .cams, .cal, .ring, .pair] s (takeSlotReady f s) := by
  unfold takeSlotReady
  refine Keeps.ite (fun _ => ?_) (fun _ => ?_)
  ·
    refine Keeps.ite (fun _ => ?_) (fun _ => ?_)
    ·
      refine Keeps.then ?_ (retryHold_keeps _) (by decide)
      refine Keeps.then ?_ (modNode_keeps _ _ _) (by decide)
      exact Keeps.refl _ _
    ·
      refine Keeps.then ?_ (modNode_keeps _ _ _) (by decide)
      exact Keeps.refl _ _
  ·
    exact Keeps.refl _ _

theorem takeRunArmed_keeps (f) (s) : Keeps [.log, .net, .jobs, .fire, .ring, .pair] s (takeRunArmed f s) := by
  unfold takeRunArmed
  refine Keeps.then ?_ (checkCascade_keeps _) (by decide)
  refine Keeps.then ?_ (modNode_keeps _ _ _) (by decide)
  exact Keeps.refl _ _

theorem takeLeave_keeps (f) (s) : Keeps [.mod, .power, .conf, .update, .log, .thermal, .gov, .net, .jobs, .render, .mem, .pos, .fire, .links, .cams, .cal, .time, .axes, .ring, .pair, .loops] s (takeLeave f s) := by
  unfold takeLeave
  refine Keeps.ite (fun _ => ?_) (fun _ => ?_)
  ·
    refine Keeps.then ?_ (serveLeaves_keeps _) (by decide)
    refine Keeps.then ?_ (set_ring_keeps ..) (by decide)
    exact Keeps.refl _ _
  ·
    exact Keeps.refl _ _

theorem takeHello_keeps (f) (s) : Keeps [.free, .log, .net, .ring] s (takeHello f s) := by
  unfold takeHello
  refine Keeps.ite (fun _ => ?_) (fun _ => ?_)
  ·
    exact Keeps.refl _ _
  ·
    refine Keeps.ite (fun _ => ?_) (fun _ => ?_)
    ·
      refine Keeps.then ?_ (tryGrant_keeps _) (by decide)
      refine Keeps.then ?_ (sendEject_keeps _ _ _) (by decide)
      refine Keeps.ite (fun _ => ?_) (fun _ => ?_)
      ·
        refine Keeps.then ?_ (set_ring_keeps ..) (by decide)
        exact Keeps.refl _ _
      ·
        exact Keeps.refl _ _
    ·
      refine Keeps.ite (fun _ => ?_) (fun _ => ?_)
      ·
        refine Keeps.then ?_ (tryGrant_keeps _) (by decide)
        refine Keeps.then ?_ (sendEject_keeps _ _ _) (by decide)
        refine Keeps.ite (fun _ => ?_) (fun _ => ?_)
        ·
          refine Keeps.then ?_ (set_ring_keeps ..) (by decide)
          exact Keeps.refl _ _
        ·
          exact Keeps.refl _ _
      ·
        refine Keeps.then ?_ (tryGrant_keeps _) (by decide)
        refine Keeps.then ?_ (sendRoll_keeps _) (by decide)
        refine Keeps.then ?_ (noteRoll_keeps _) (by decide)
        refine Keeps.then ?_ (raise_keeps _ _ _) (by decide)
        refine Keeps.then ?_ (modNode_keeps _ _ _) (by decide)
        refine Keeps.ite (fun _ => ?_) (fun _ => ?_)
        ·
          refine Keeps.then ?_ (set_ring_keeps ..) (by decide)
          exact Keeps.refl _ _
        ·
          exact Keeps.refl _ _

theorem takeDelayResp_keeps (f) (s) : Keeps [.time, .ring] s (takeDelayResp f s) := by
  unfold takeDelayResp
  split
  ·
    refine Keeps.ite (fun _ => ?_) (fun _ => ?_)
    ·
      exact Keeps.refl _ _
    ·
      refine Keeps.then ?_ (modNode_keeps _ _ _) (by decide)
      refine Keeps.then ?_ (set_time_ring_keeps ..) (by decide)
      exact Keeps.refl _ _
  ·
    exact Keeps.refl _ _

theorem answerDelay_keeps (f) (s) : Keeps [.free, .ring] s (answerDelay f s) := by
  unfold answerDelay
  refine Keeps.ite (fun _ => ?_) (fun _ => ?_)
  ·
    refine Keeps.then ?_ (drawFree_keeps _) (by decide)
    refine Keeps.then ?_ (ringSend_keeps _ _ _ _) (by decide)
    exact Keeps.refl _ _
  ·
    exact Keeps.refl _ _

theorem takeTime_keeps (f) (s) : Keeps [.log, .net, .time, .ring] s (takeTime f s) := by
  unfold takeTime
  refine Keeps.ite (fun _ => ?_) (fun _ => ?_)
  ·
    exact Keeps.refl _ _
  ·
    refine Keeps.ite (fun _ => ?_) (fun _ => ?_)
    ·
      refine Keeps.then ?_ (measureOffset_keeps _ _) (by decide)
      refine Keeps.then ?_ (set_ring_keeps ..) (by decide)
      exact Keeps.refl _ _
    ·
      refine Keeps.then ?_ (set_ring_keeps ..) (by decide)
      exact Keeps.refl _ _

theorem takeEject_keeps (f) (s) : Keeps [.mod, .power, .conf, .update, .log, .thermal, .gov, .net, .jobs, .render, .mem, .pos, .fire, .links, .cams, .cal, .time, .axes, .ring, .pair, .loops] s (takeEject f s) := by
  unfold takeEject
  refine Keeps.ite (fun _ => ?_) (fun _ => ?_)
  ·
    exact Keeps.refl _ _
  ·
    refine Keeps.ite (fun _ => ?_) (fun _ => ?_)
    ·
      split
      ·
        refine Keeps.then ?_ (depart_keeps _ _) (by decide)
        exact Keeps.refl _ _
      ·
        exact Keeps.refl _ _
    ·
      refine Keeps.ite (fun _ => ?_) (fun _ => ?_)
      ·
        refine Keeps.ite (fun _ => ?_) (fun _ => ?_)
        ·
          refine Keeps.then ?_ (raise_keeps _ _ _) (by decide)
          refine Keeps.then ?_ (closeBypass_keeps _ _) (by decide)
          refine Keeps.then ?_ (set_ring_keeps ..) (by decide)
          exact Keeps.refl _ _
        ·
          refine Keeps.then ?_ (raise_keeps _ _ _) (by decide)
          refine Keeps.then ?_ (closeBypass_keeps _ _) (by decide)
          refine Keeps.then ?_ (set_ring_keeps ..) (by decide)
          exact Keeps.refl _ _
      ·
        exact Keeps.refl _ _

theorem takeRoll_keeps (f) (s) : Keeps [.log, .net, .ring] s (takeRoll f s) := by
  unfold takeRoll
  refine Keeps.ite (fun _ => ?_) (fun _ => ?_)
  ·
    refine Keeps.then ?_ (noteRoll_keeps _) (by decide)
    refine Keeps.then ?_ (set_ring_keeps ..) (by decide)
    refine Keeps.ite (fun _ => ?_) (fun _ => ?_)
    ·
      refine Keeps.then ?_ (setRingState_keeps _ _) (by decide)
      refine Keeps.then ?_ (set_ring_keeps ..) (by decide)
      exact Keeps.refl _ _
    ·
      exact Keeps.refl _ _
  ·
    refine Keeps.ite (fun _ => ?_) (fun _ => ?_)
    ·
      refine Keeps.then ?_ (setRingState_keeps _ _) (by decide)
      refine Keeps.then ?_ (set_ring_keeps ..) (by decide)
      exact Keeps.refl _ _
    ·
      exact Keeps.refl _ _

theorem takeGrant_keeps (f) (s) : Keeps [.ring] s (takeGrant f s) := by
  unfold takeGrant
  refine Keeps.ite (fun _ => ?_) (fun _ => ?_)
  ·
    refine Keeps.then ?_ (set_ring_keeps ..) (by decide)
    exact Keeps.refl _ _
  ·
    exact Keeps.refl _ _

theorem takeDiscover_keeps (f) (s) : Keeps [.log, .net, .ring] s (takeDiscover f s) := by
  unfold takeDiscover
  refine Keeps.ite (fun _ => ?_) (fun _ => ?_)
  ·
    refine Keeps.then ?_ (modNode_keeps _ _ _) (by decide)
    exact Keeps.refl _ _
  ·
    refine Keeps.ite (fun _ => ?_) (fun _ => ?_)
    ·
      refine Keeps.ite (fun _ => ?_) (fun _ => ?_)
      ·
        refine Keeps.then ?_ (raise_keeps _ _ _) (by decide)
        refine Keeps.then ?_ (set_ring_keeps ..) (by decide)
        refine Keeps.then ?_ (modNode_keeps _ _ _) (by decide)
        exact Keeps.refl _ _
      ·
        refine Keeps.then ?_ (modNode_keeps _ _ _) (by decide)
        exact Keeps.refl _ _
    ·
      refine Keeps.ite (fun _ => ?_) (fun _ => ?_)
      ·
        refine Keeps.then ?_ (set_ring_keeps ..) (by decide)
        refine Keeps.then ?_ (modNode_keeps _ _ _) (by decide)
        exact Keeps.refl _ _
      ·
        refine Keeps.ite (fun _ => ?_) (fun _ => ?_)
        ·
          refine Keeps.then ?_ (modNode_keeps _ _ _) (by decide)
          exact Keeps.refl _ _
        ·
          refine Keeps.then ?_ (raise_keeps _ _ _) (by decide)
          refine Keeps.then ?_ (set_ring_keeps ..) (by decide)
          refine Keeps.then ?_ (modNode_keeps _ _ _) (by decide)
          exact Keeps.refl _ _

theorem applyFrame_keeps (f) (s) : Keeps [.free, .mod, .power, .flash, .conf, .update, .log, .thermal, .gov, .net, .jobs, .render, .mem, .pos, .fire, .links, .cams, .cal, .time, .axes, .ring, .pair, .loops] s (applyFrame f s) := by
  unfold applyFrame
  refine Keeps.ite (fun _ => ?_) (fun _ => ?_)
  ·
    refine Keeps.then ?_ (takeDiscover_keeps _ _) (by decide)
    exact Keeps.refl _ _
  ·
    refine Keeps.ite (fun _ => ?_) (fun _ => ?_)
    ·
      refine Keeps.then ?_ (takeGrant_keeps _ _) (by decide)
      exact Keeps.refl _ _
    ·
      refine Keeps.ite (fun _ => ?_) (fun _ => ?_)
      ·
        refine Keeps.then ?_ (takeRoll_keeps _ _) (by decide)
        exact Keeps.refl _ _
      ·
        refine Keeps.ite (fun _ => ?_) (fun _ => ?_)
        ·
          refine Keeps.then ?_ (takeEject_keeps _ _) (by decide)
          exact Keeps.refl _ _
        ·
          refine Keeps.ite (fun _ => ?_) (fun _ => ?_)
          ·
            exact Keeps.refl _ _
          ·
            refine Keeps.ite (fun _ => ?_) (fun _ => ?_)
            ·
              refine Keeps.then ?_ (takeTime_keeps _ _) (by decide)
              exact Keeps.refl _ _
            ·
              refine Keeps.ite (fun _ => ?_) (fun _ => ?_)
              ·
                refine Keeps.then ?_ (answerDelay_keeps _ _) (by decide)
                exact Keeps.refl _ _
              ·
                refine Keeps.ite (fun _ => ?_) (fun _ => ?_)
                ·
                  refine Keeps.then ?_ (takeDelayResp_keeps _ _) (by decide)
                  exact Keeps.refl _ _
                ·
                  refine Keeps.ite (fun _ => ?_) (fun _ => ?_)
                  ·
                    refine Keeps.then ?_ (takeHello_keeps _ _) (by decide)
                    exact Keeps.refl _ _
                  ·
                    refine Keeps.ite (fun _ => ?_) (fun _ => ?_)
                    ·
                      refine Keeps.then ?_ (takeLeave_keeps _ _) (by decide)
                      exact Keeps.refl _ _
                    ·
                      refine Keeps.ite (fun _ => ?_) (fun _ => ?_)
                      ·
                        refine Keeps.then ?_ (takeRunArmed_keeps _ _) (by decide)
                        exact Keeps.refl _ _
                      ·
                        refine Keeps.ite (fun _ => ?_) (fun _ => ?_)
                        ·
                          refine Keeps.then ?_ (takeSlotReady_keeps _ _) (by decide)
                          exact Keeps.refl _ _
                        ·
                          refine Keeps.ite (fun _ => ?_) (fun _ => ?_)
                          ·
                            refine Keeps.then ?_ (takeRelayBlock_keeps _ _) (by decide)
                            exact Keeps.refl _ _
                          ·
                            refine Keeps.ite (fun _ => ?_) (fun _ => ?_)
                            ·
                              refine Keeps.then ?_ (takeImageAck_keeps _ _) (by decide)
                              exact Keeps.refl _ _
                            ·
                              refine Keeps.ite (fun _ => ?_) (fun _ => ?_)
                              ·
                                refine Keeps.then ?_ (decideRing_keeps _ _) (by decide)
                                exact Keeps.refl _ _
                              ·
                                exact Keeps.refl _ _

theorem rollReturned_keeps (f) (s) : Keeps [.free, .mod, .power, .conf, .update, .log, .thermal, .gov, .net, .jobs, .render, .mem, .pos, .fire, .links, .cams, .cal, .time, .axes, .ring, .pair, .loops] s (rollReturned f s) := by
  unfold rollReturned
  refine Keeps.then ?_ (tryGrant_keeps _) (by decide)
  refine Keeps.then ?_ (serveLeaves_keeps _) (by decide)
  refine Keeps.then ?_ (checkCascade_keeps _) (by decide)
  refine Keeps.then ?_ (settleRelay_keeps _) (by decide)
  refine Keeps.then ?_ (noteRoll_keeps _) (by decide)
  refine Keeps.then ?_ (set_ring_keeps ..) (by decide)
  split
  ·
    refine Keeps.ite (fun _ => ?_) (fun _ => ?_)
    ·
      refine Keeps.then ?_ (outageEnded_keeps _ _) (by decide)
      exact Keeps.refl _ _
    ·
      exact Keeps.refl _ _
  ·
    exact Keeps.refl _ _

theorem returned_keeps (f) (s) : Keeps [.free, .mod, .power, .conf, .update, .log, .thermal, .gov, .net, .jobs, .render, .mem, .pos, .fire, .links, .cams, .cal, .time, .axes, .ring, .pair, .loops] s (returned f s) := by
  unfold returned
  refine Keeps.ite (fun _ => ?_) (fun _ => ?_)
  ·
    refine Keeps.then ?_ (rollReturned_keeps _ _) (by decide)
    refine Keeps.then ?_ (set_ring_keeps ..) (by decide)
    exact Keeps.refl _ _
  ·
    refine Keeps.then ?_ (set_ring_keeps ..) (by decide)
    exact Keeps.refl _ _

theorem forward_keeps (f) (s) : Keeps [] s (forward f s) := by
  unfold forward
  refine Keeps.ite (fun _ => ?_) (fun _ => ?_)
  ·
    exact Keeps.refl _ _
  ·
    refine Keeps.then ?_ (emit_keeps _ _) (by decide)
    exact Keeps.refl _ _

theorem receiveFrame_keeps (crcOk) (f) (s) : Keeps [.free, .mod, .power, .flash, .conf, .update, .log, .thermal, .gov, .net, .jobs, .render, .mem, .pos, .fire, .links, .cams, .cal, .time, .axes, .ring, .pair, .loops] s (receiveFrame crcOk f s) := by
  unfold receiveFrame
  refine Keeps.ite (fun _ => ?_) (fun _ => ?_)
  ·
    exact Keeps.refl _ _
  ·
    refine Keeps.ite (fun _ => ?_) (fun _ => ?_)
    ·
      refine Keeps.then ?_ (set_ring_keeps ..) (by decide)
      refine Keeps.then ?_ (forward_keeps _ _) (by decide)
      exact Keeps.refl _ _
    ·
      refine Keeps.ite (fun _ => ?_) (fun _ => ?_)
      ·
        refine Keeps.then ?_ (returned_keeps _ _) (by decide)
        refine Keeps.then ?_ (forward_keeps _ _) (by decide)
        exact Keeps.refl _ _
      ·
        refine Keeps.ite (fun _ => ?_) (fun _ => ?_)
        ·
          refine Keeps.then ?_ (hearKing_keeps _ _) (by decide)
          refine Keeps.then ?_ (forward_keeps _ _) (by decide)
          exact Keeps.refl _ _
        ·
          refine Keeps.ite (fun _ => ?_) (fun _ => ?_)
          ·
            refine Keeps.then ?_ (hearKing_keeps _ _) (by decide)
            refine Keeps.then ?_ (forward_keeps _ _) (by decide)
            exact Keeps.refl _ _
          ·
            refine Keeps.then ?_ (applyFrame_keeps _ _) (by decide)
            refine Keeps.then ?_ (noteApplied_keeps _ _) (by decide)
            refine Keeps.then ?_ (hearKing_keeps _ _) (by decide)
            refine Keeps.then ?_ (forward_keeps _ _) (by decide)
            exact Keeps.refl _ _

theorem typedFrame_keeps (type) (f) (s) : Keeps [.free, .mod, .power, .flash, .conf, .update, .log, .thermal, .gov, .net, .jobs, .render, .mem, .pos, .fire, .links, .cams, .cal, .time, .axes, .ring, .pair, .loops] s (typedFrame type f s) := by
  unfold typedFrame
  refine Keeps.ite (fun _ => ?_) (fun _ => ?_)
  ·
    refine Keeps.then ?_ (receiveFrame_keeps _ _ _) (by decide)
    exact Keeps.refl _ _
  ·
    exact Keeps.refl _ _

theorem execRingImageBlock_keeps (t) (f) (s) : KeepsO [.free, .mod, .power, .flash, .conf, .update, .log, .thermal, .gov, .net, .jobs, .render, .mem, .pos, .fire, .links, .cams, .cal, .time, .axes, .ring, .pair, .loops] (beginAt t s) (execRingImageBlock t f s) := by
  unfold execRingImageBlock
  refine KeepsO.next ?_
  refine Keeps.then ?_ (typedFrame_keeps _ _ _) (by decide)
  exact Keeps.refl _ _

theorem execLeaveReq_keeps (t) (f) (s) : KeepsO [.free, .mod, .power, .flash, .conf, .update, .log, .thermal, .gov, .net, .jobs, .render, .mem, .pos, .fire, .links, .cams, .cal, .time, .axes, .ring, .pair, .loops] (beginAt t s) (execLeaveReq t f s) := by
  unfold execLeaveReq
  refine KeepsO.next ?_
  refine Keeps.then ?_ (typedFrame_keeps _ _ _) (by decide)
  exact Keeps.refl _ _

theorem execCascadeArmed_keeps (t) (f) (s) : KeepsO [.free, .mod, .power, .flash, .conf, .update, .log, .thermal, .gov, .net, .jobs, .render, .mem, .pos, .fire, .links, .cams, .cal, .time, .axes, .ring, .pair, .loops] (beginAt t s) (execCascadeArmed t f s) := by
  unfold execCascadeArmed
  refine KeepsO.next ?_
  refine Keeps.then ?_ (typedFrame_keeps _ _ _) (by decide)
  exact Keeps.refl _ _

theorem execEject_keeps (t) (f) (s) : KeepsO [.free, .mod, .power, .flash, .conf, .update, .log, .thermal, .gov, .net, .jobs, .render, .mem, .pos, .fire, .links, .cams, .cal, .time, .axes, .ring, .pair, .loops] (beginAt t s) (execEject t f s) := by
  unfold execEject
  refine KeepsO.next ?_
  refine Keeps.then ?_ (typedFrame_keeps _ _ _) (by decide)
  exact Keeps.refl _ _

theorem execRingMemberLost_keeps (t) (node) (s) : KeepsO [.update, .log, .net, .ring] (beginAt t s) (execRingMemberLost t node s) := by
  unfold execRingMemberLost
  refine KeepsO.next ?_
  refine Keeps.ite (fun _ => ?_) (fun _ => ?_)
  ·
    refine Keeps.ite (fun _ => ?_) (fun _ => ?_)
    ·
      refine Keeps.then ?_ (settleRelay_keeps _) (by decide)
      refine Keeps.then ?_ (raise_keeps _ _ _) (by decide)
      refine Keeps.then ?_ (modNode_keeps _ _ _) (by decide)
      exact Keeps.refl _ _
    ·
      exact Keeps.refl _ _
  ·
    refine Keeps.ite (fun _ => ?_) (fun _ => ?_)
    ·
      refine Keeps.then ?_ (set_ring_keeps ..) (by decide)
      exact Keeps.refl _ _
    ·
      exact Keeps.refl _ _

theorem execRingNotReady_keeps (t) (f) (s) : KeepsO [.free, .mod, .power, .flash, .conf, .update, .log, .thermal, .gov, .net, .jobs, .render, .mem, .pos, .fire, .links, .cams, .cal, .time, .axes, .ring, .pair, .loops] (beginAt t s) (execRingNotReady t f s) := by
  unfold execRingNotReady
  refine KeepsO.next ?_
  refine Keeps.then ?_ (typedFrame_keeps _ _ _) (by decide)
  exact Keeps.refl _ _

theorem askDelay_keeps (s) : Keeps [.ring] s (askDelay s) := by
  unfold askDelay
  refine Keeps.then ?_ (ringSend_keeps _ _ _ _) (by decide)
  refine Keeps.then ?_ (set_ring_keeps ..) (by decide)
  exact Keeps.refl _ _

theorem execOriginSend_keeps (t) (s) : KeepsO [.ring] (beginAt t s) (execOriginSend t s) := by
  unfold execOriginSend
  refine KeepsO.next ?_
  refine Keeps.ite (fun _ => ?_) (fun _ => ?_)
  ·
    refine Keeps.then ?_ (ringSend_keeps _ _ _ _) (by decide)
    exact Keeps.refl _ _
  ·
    exact Keeps.refl _ _

theorem freshRoll_keeps (s) : Keeps [.ring] s (freshRoll s) := by
  unfold freshRoll
  refine Keeps.then ?_ (set_ring_keeps ..) (by decide)
  exact Keeps.refl _ _

theorem execJoinHello_keeps (t) (f) (s) : KeepsO [.free, .mod, .power, .flash, .conf, .update, .log, .thermal, .gov, .net, .jobs, .render, .mem, .pos, .fire, .links, .cams, .cal, .time, .axes, .ring, .pair, .loops] (beginAt t s) (execJoinHello t f s) := by
  unfold execJoinHello
  refine KeepsO.next ?_
  refine Keeps.then ?_ (typedFrame_keeps _ _ _) (by decide)
  exact Keeps.refl _ _

theorem execRunArmedFrame_keeps (t) (f) (s) : KeepsO [.free, .mod, .power, .flash, .conf, .update, .log, .thermal, .gov, .net, .jobs, .render, .mem, .pos, .fire, .links, .cams, .cal, .time, .axes, .ring, .pair, .loops] (beginAt t s) (execRunArmedFrame t f s) := by
  unfold execRunArmedFrame
  refine KeepsO.next ?_
  refine Keeps.then ?_ (typedFrame_keeps _ _ _) (by decide)
  exact Keeps.refl _ _

theorem execRingDelayExchange_keeps (t) (resp) (s) : KeepsO [.free, .mod, .power, .flash, .conf, .update, .log, .thermal, .gov, .net, .jobs, .render, .mem, .pos, .fire, .links, .cams, .cal, .time, .axes, .ring, .pair, .loops] (beginAt t s) (execRingDelayExchange t resp s) := by
  unfold execRingDelayExchange
  try dsimp only
  split
  ·
    refine KeepsO.next ?_
    refine Keeps.then ?_ (typedFrame_keeps _ _ _) (by decide)
    exact Keeps.refl _ _
  ·
    refine KeepsO.next ?_
    refine Keeps.ite (fun _ => ?_) (fun _ => ?_)
    ·
      refine Keeps.then ?_ (askDelay_keeps _) (by decide)
      exact Keeps.refl _ _
    ·
      exact Keeps.refl _ _

theorem execDiscover_keeps (t) (f) (s) : KeepsO [.free, .mod, .power, .flash, .conf, .update, .log, .thermal, .gov, .net, .jobs, .render, .mem, .pos, .fire, .links, .cams, .cal, .time, .axes, .ring, .pair, .loops] (beginAt t s) (execDiscover t f s) := by
  unfold execDiscover
  refine KeepsO.next ?_
  refine Keeps.then ?_ (typedFrame_keeps _ _ _) (by decide)
  exact Keeps.refl _ _

theorem execKingListenExpiry_keeps (t) (s) : KeepsO [.log, .net, .ring] (beginAt t s) (execKingListenExpiry t s) := by
  unfold execKingListenExpiry
  refine KeepsO.next ?_
  refine Keeps.ite (fun _ => ?_) (fun _ => ?_)
  ·
    refine Keeps.then ?_ (becomeKing_keeps _) (by decide)
    refine Keeps.then ?_ (freshRoll_keeps _) (by decide)
    exact Keeps.refl _ _
  ·
    exact Keeps.refl _ _

theorem execBypassOpenTime_keeps (t) (s) : KeepsO [.log, .net, .ring] (beginAt t s) (execBypassOpenTime t s) := by
  unfold execBypassOpenTime
  refine KeepsO.next ?_
  split
  ·
    refine Keeps.ite (fun _ => ?_) (fun _ => ?_)
    ·
      refine Keeps.then ?_ (ringSend_keeps _ _ _ _) (by decide)
      refine Keeps.then ?_ (setRingState_keeps _ _) (by decide)
      refine Keeps.then ?_ (openBypass_keeps _) (by decide)
      refine Keeps.then ?_ (set_ring_keeps ..) (by decide)
      exact Keeps.refl _ _
    ·
      exact Keeps.refl _ _
  ·
    exact Keeps.refl _ _

theorem execRingAttnAsserted_keeps (t) (s) : KeepsO [.ring] (beginAt t s) (execRingAttnAsserted t s) := by
  unfold execRingAttnAsserted
  refine KeepsO.next ?_
  refine Keeps.ite (fun _ => ?_) (fun _ => ?_)
  ·
    refine Keeps.then ?_ (grantNext_keeps _) (by decide)
    refine Keeps.then ?_ (set_ring_keeps ..) (by decide)
    exact Keeps.refl _ _
  ·
    exact Keeps.refl _ _

theorem execJoinHelloTimeout_keeps (t) (s) : KeepsO [.free, .ring] (beginAt t s) (execJoinHelloTimeout t s) := by
  unfold execJoinHelloTimeout
  refine KeepsO.next ?_
  split
  ·
    refine Keeps.ite (fun _ => ?_) (fun _ => ?_)
    ·
      refine Keeps.then ?_ (tryGrant_keeps _) (by decide)
      refine Keeps.then ?_ (set_ring_keeps ..) (by decide)
      exact Keeps.refl _ _
    ·
      exact Keeps.refl _ _
  ·
    exact Keeps.refl _ _

theorem execDiscoverSend_keeps (t) (s) : KeepsO [.ring] (beginAt t s) (execDiscoverSend t s) := by
  unfold execDiscoverSend
  refine KeepsO.next ?_
  refine Keeps.ite (fun _ => ?_) (fun _ => ?_)
  ·
    refine Keeps.then ?_ (ringSend_keeps _ _ _ _) (by decide)
    exact Keeps.refl _ _
  ·
    exact Keeps.refl _ _

theorem execRingFrameResend_keeps (t) (seq) (s) : KeepsO [.ring] (beginAt t s) (execRingFrameResend t seq s) := by
  unfold execRingFrameResend
  try dsimp only
  split
  ·
    refine KeepsO.next ?_
    exact Keeps.refl _ _
  ·
    refine KeepsO.ite (fun _ => ?_) (fun _ => ?_)
    ·
      refine KeepsO.next ?_
      exact Keeps.refl _ _
    ·
      refine KeepsO.ite (fun _ => ?_) (fun _ => ?_)
      ·
        refine KeepsO.next ?_
        refine Keeps.then ?_ (set_ring_keeps ..) (by decide)
        exact Keeps.refl _ _
      ·
        refine KeepsO.next ?_
        refine Keeps.then ?_ (emit_keeps _ _) (by decide)
        refine Keeps.then ?_ (set_ring_keeps ..) (by decide)
        exact Keeps.refl _ _

theorem execCascadeStop_keeps (t) (f) (s) : KeepsO [.free, .mod, .power, .flash, .conf, .update, .log, .thermal, .gov, .net, .jobs, .render, .mem, .pos, .fire, .links, .cams, .cal, .time, .axes, .ring, .pair, .loops] (beginAt t s) (execCascadeStop t f s) := by
  unfold execCascadeStop
  refine KeepsO.next ?_
  refine Keeps.then ?_ (typedFrame_keeps _ _ _) (by decide)
  exact Keeps.refl _ _

theorem execLeaveWaitExpiry_keeps (t) (s) : KeepsO [.mod, .power, .conf, .update, .log, .thermal, .gov, .net, .jobs, .render, .mem, .pos, .fire, .links, .cams, .cal, .time, .axes, .ring, .pair, .loops] (beginAt t s) (execLeaveWaitExpiry t s) := by
  unfold execLeaveWaitExpiry
  refine KeepsO.next ?_
  split
  ·
    refine Keeps.ite (fun _ => ?_) (fun _ => ?_)
    ·
      refine Keeps.then ?_ (depart_keeps _ _) (by decide)
      exact Keeps.refl _ _
    ·
      exact Keeps.refl _ _
  ·
    exact Keeps.refl _ _

theorem execRelayAckDue_keeps (t) (s) : KeepsO [.update, .ring] (beginAt t s) (execRelayAckDue t s) := by
  unfold execRelayAckDue
  refine KeepsO.next ?_
  refine Keeps.ite (fun _ => ?_) (fun _ => ?_)
  ·
    refine Keeps.then ?_ (sendImageAck_keeps _) (by decide)
    exact Keeps.refl _ _
  ·
    exact Keeps.refl _ _

theorem execRingRelease_keeps (t) (f) (s) : KeepsO [.free, .mod, .power, .flash, .conf, .update, .log, .thermal, .gov, .net, .jobs, .render, .mem, .pos, .fire, .links, .cams, .cal, .time, .axes, .ring, .pair, .loops] (beginAt t s) (execRingRelease t f s) := by
  unfold execRingRelease
  refine KeepsO.next ?_
  refine Keeps.then ?_ (typedFrame_keeps _ _ _) (by decide)
  exact Keeps.refl _ _

theorem execSlotReady_keeps (t) (f) (s) : KeepsO [.free, .mod, .power, .flash, .conf, .update, .log, .thermal, .gov, .net, .jobs, .render, .mem, .pos, .fire, .links, .cams, .cal, .time, .axes, .ring, .pair, .loops] (beginAt t s) (execSlotReady t f s) := by
  unfold execSlotReady
  refine KeepsO.next ?_
  refine Keeps.then ?_ (typedFrame_keeps _ _ _) (by decide)
  exact Keeps.refl _ _

theorem execRoll_keeps (t) (f) (s) : KeepsO [.free, .mod, .power, .flash, .conf, .update, .log, .thermal, .gov, .net, .jobs, .render, .mem, .pos, .fire, .links, .cams, .cal, .time, .axes, .ring, .pair, .loops] (beginAt t s) (execRoll t f s) := by
  unfold execRoll
  refine KeepsO.next ?_
  refine Keeps.then ?_ (typedFrame_keeps _ _ _) (by decide)
  exact Keeps.refl _ _

theorem execJoinGrant_keeps (t) (f) (s) : KeepsO [.free, .mod, .power, .flash, .conf, .update, .log, .thermal, .gov, .net, .jobs, .render, .mem, .pos, .fire, .links, .cams, .cal, .time, .axes, .ring, .pair, .loops] (beginAt t s) (execJoinGrant t f s) := by
  unfold execJoinGrant
  refine KeepsO.next ?_
  refine Keeps.then ?_ (typedFrame_keeps _ _ _) (by decide)
  exact Keeps.refl _ _

theorem execOrigin_keeps (t) (f) (s) : KeepsO [.free, .mod, .power, .flash, .conf, .update, .log, .thermal, .gov, .net, .jobs, .render, .mem, .pos, .fire, .links, .cams, .cal, .time, .axes, .ring, .pair, .loops] (beginAt t s) (execOrigin t f s) := by
  unfold execOrigin
  refine KeepsO.next ?_
  refine Keeps.then ?_ (typedFrame_keeps _ _ _) (by decide)
  exact Keeps.refl _ _

theorem execRingFrameReceived_keeps (t) (crcOk) (f) (s) : KeepsO [.free, .mod, .power, .flash, .conf, .update, .log, .thermal, .gov, .net, .jobs, .render, .mem, .pos, .fire, .links, .cams, .cal, .time, .axes, .ring, .pair, .loops] (beginAt t s) (execRingFrameReceived t crcOk f s) := by
  unfold execRingFrameReceived
  refine KeepsO.next ?_
  refine Keeps.then ?_ (receiveFrame_keeps _ _ _) (by decide)
  exact Keeps.refl _ _

theorem execImageAck_keeps (t) (f) (s) : KeepsO [.free, .mod, .power, .flash, .conf, .update, .log, .thermal, .gov, .net, .jobs, .render, .mem, .pos, .fire, .links, .cams, .cal, .time, .axes, .ring, .pair, .loops] (beginAt t s) (execImageAck t f s) := by
  unfold execImageAck
  refine KeepsO.next ?_
  refine Keeps.then ?_ (typedFrame_keeps _ _ _) (by decide)
  exact Keeps.refl _ _

theorem execRingTimeSend_keeps (t) (s) : KeepsO [.ring] (beginAt t s) (execRingTimeSend t s) := by
  unfold execRingTimeSend
  refine KeepsO.next ?_
  refine Keeps.ite (fun _ => ?_) (fun _ => ?_)
  ·
    refine Keeps.then ?_ (pumpImages_keeps _ _) (by decide)
    refine Keeps.then ?_ (sendRoll_keeps _) (by decide)
    refine Keeps.then ?_ (sendTime_keeps _) (by decide)
    exact Keeps.refl _ _
  ·
    exact Keeps.refl _ _

end Sys2Proof.Machine
end

