-- ==== Sys2Proof/Laws/KeepsGovernor.lean ====
section
/-! SUPPORT. What the operations of Governor, Thermal, Timebase, Status leave alone, and that they keep the invariant. -/
namespace Sys2Proof.Machine
open Sys2Proof

theorem noteWindow_keeps (s) : Keeps [.gov] s (noteWindow s) := by
  unfold noteWindow
  refine Keeps.ite (fun _ => ?_) (fun _ => ?_)
  ·
    refine Keeps.then ?_ (set_gov_keeps ..) (by decide)
    exact Keeps.refl _ _
  ·
    refine Keeps.then ?_ (set_gov_keeps ..) (by decide)
    exact Keeps.refl _ _

theorem setMonitor_keeps (m) (x) (s) : Keeps [.log, .monitors, .net] s (setMonitor m x s) := by
  unfold setMonitor
  refine Keeps.ite (fun _ => ?_) (fun _ => ?_)
  ·
    refine Keeps.then ?_ (set_monitors_keeps ..) (by decide)
    exact Keeps.refl _ _
  ·
    refine Keeps.then ?_ (raise_keeps _ _ _) (by decide)
    refine Keeps.then ?_ (set_monitors_keeps ..) (by decide)
    exact Keeps.refl _ _

theorem setStep_keeps (k) (s) : Keeps [.gov, .pair] s (setStep k s) := by
  unfold setStep
  refine Keeps.ite (fun _ => ?_) (fun _ => ?_)
  ·
    exact Keeps.refl _ _
  ·
    refine Keeps.then ?_ (sendToken_keeps _ _ _) (by decide)
    refine Keeps.then ?_ (set_gov_keeps ..) (by decide)
    exact Keeps.refl _ _

theorem controlLaw_keeps (s) : Keeps [.log, .gov, .net, .pair] s (controlLaw s) := by
  unfold controlLaw
  refine Keeps.ite (fun _ => ?_) (fun _ => ?_)
  ·
    refine Keeps.then ?_ (raise_keeps _ _ _) (by decide)
    refine Keeps.then ?_ (set_gov_keeps ..) (by decide)
    refine Keeps.ite (fun _ => ?_) (fun _ => ?_)
    ·
      refine Keeps.then ?_ (setStep_keeps _ _) (by decide)
      refine Keeps.then ?_ (set_gov_keeps ..) (by decide)
      exact Keeps.refl _ _
    ·
      refine Keeps.ite (fun _ => ?_) (fun _ => ?_)
      ·
        refine Keeps.ite (fun _ => ?_) (fun _ => ?_)
        ·
          refine Keeps.then ?_ (setStep_keeps _ _) (by decide)
          refine Keeps.then ?_ (set_gov_keeps ..) (by decide)
          exact Keeps.refl _ _
        ·
          refine Keeps.then ?_ (set_gov_keeps ..) (by decide)
          exact Keeps.refl _ _
      ·
        refine Keeps.then ?_ (set_gov_keeps ..) (by decide)
        exact Keeps.refl _ _
  ·
    refine Keeps.ite (fun _ => ?_) (fun _ => ?_)
    ·
      refine Keeps.then ?_ (setStep_keeps _ _) (by decide)
      refine Keeps.then ?_ (set_gov_keeps ..) (by decide)
      exact Keeps.refl _ _
    ·
      refine Keeps.ite (fun _ => ?_) (fun _ => ?_)
      ·
        refine Keeps.ite (fun _ => ?_) (fun _ => ?_)
        ·
          refine Keeps.then ?_ (setStep_keeps _ _) (by decide)
          refine Keeps.then ?_ (set_gov_keeps ..) (by decide)
          exact Keeps.refl _ _
        ·
          refine Keeps.then ?_ (set_gov_keeps ..) (by decide)
          exact Keeps.refl _ _
      ·
        refine Keeps.then ?_ (set_gov_keeps ..) (by decide)
        exact Keeps.refl _ _

theorem applyGovernorToken_keeps (k) (s) : Keeps [.log, .gov, .net, .pair] s (applyGovernorToken k s) := by
  unfold applyGovernorToken
  refine Keeps.ite (fun _ => ?_) (fun _ => ?_)
  ·
    exact Keeps.refl _ _
  ·
    refine Keeps.ite (fun _ => ?_) (fun _ => ?_)
    ·
      refine Keeps.ite (fun _ => ?_) (fun _ => ?_)
      ·
        exact Keeps.refl _ _
      ·
        refine Keeps.then ?_ (raise_keeps _ _ _) (by decide)
        refine Keeps.then ?_ (set_gov_keeps ..) (by decide)
        exact Keeps.refl _ _
    ·
      refine Keeps.then ?_ (setStep_keeps _ _) (by decide)
      exact Keeps.refl _ _

theorem checkRisk_keeps (s) : Keeps [.log, .net, .jobs] s (checkRisk s) := by
  unfold checkRisk
  refine Keeps.forEach (fun _ _ => ?_) ?_
  ·
    refine Keeps.ite (fun _ => ?_) (fun _ => ?_)
    ·
      exact Keeps.refl _ _
    ·
      refine Keeps.then ?_ (raise_keeps _ _ _) (by decide)
      refine Keeps.then ?_ (modArmed_keeps _ _) (by decide)
      exact Keeps.refl _ _
  ·
    exact Keeps.refl _ _

theorem throttlePeriod_keeps (s) : Keeps [.gov, .pair] s (throttlePeriod s) := by
  unfold throttlePeriod
  refine Keeps.ite (fun _ => ?_) (fun _ => ?_)
  ·
    refine Keeps.then ?_ (setStep_keeps _ _) (by decide)
    refine Keeps.then ?_ (set_gov_keeps ..) (by decide)
    exact Keeps.refl _ _
  ·
    refine Keeps.then ?_ (set_gov_keeps ..) (by decide)
    try (refine Keeps.then ?_ (set_gov_keeps ..) (by decide))
    exact Keeps.refl _ _

theorem execSpeedMonitorBroken_keeps (t) (mon) (s) : KeepsO [.log, .monitors, .gov, .net, .jobs] (beginAt t s) (execSpeedMonitorBroken t mon s) := by
  unfold execSpeedMonitorBroken
  refine KeepsO.next ?_
  refine Keeps.ite (fun _ => ?_) (fun _ => ?_)
  ·
    refine Keeps.ite (fun _ => ?_) (fun _ => ?_)
    ·
      refine Keeps.then ?_ (checkRisk_keeps _) (by decide)
      refine Keeps.then ?_ (noteWindow_keeps _) (by decide)
      refine Keeps.then ?_ (setMonitor_keeps _ _ _) (by decide)
      exact Keeps.refl _ _
    ·
      refine Keeps.then ?_ (setMonitor_keeps _ _ _) (by decide)
      exact Keeps.refl _ _
  ·
    exact Keeps.refl _ _

theorem execGovernorPeriod_keeps (t) (s) : KeepsO [.log, .gov, .net, .jobs, .pair] (beginAt t s) (execGovernorPeriod t s) := by
  unfold execGovernorPeriod
  refine KeepsO.ite (fun _ => ?_) (fun _ => ?_)
  ·
    refine KeepsO.next ?_
    exact Keeps.refl _ _
  ·
    refine KeepsO.next ?_
    refine Keeps.then ?_ (checkRisk_keeps _) (by decide)
    refine Keeps.ite (fun _ => ?_) (fun _ => ?_)
    ·
      refine Keeps.then ?_ (throttlePeriod_keeps _) (by decide)
      refine Keeps.ite (fun _ => ?_) (fun _ => ?_)
      ·
        refine Keeps.then ?_ (set_gov_keeps ..) (by decide)
        exact Keeps.refl _ _
      ·
        exact Keeps.refl _ _
    ·
      refine Keeps.ite (fun _ => ?_) (fun _ => ?_)
      ·
        refine Keeps.then ?_ (set_gov_keeps ..) (by decide)
        refine Keeps.ite (fun _ => ?_) (fun _ => ?_)
        ·
          refine Keeps.then ?_ (set_gov_keeps ..) (by decide)
          exact Keeps.refl _ _
        ·
          exact Keeps.refl _ _
      ·
        refine Keeps.ite (fun _ => ?_) (fun _ => ?_)
        ·
          refine Keeps.then ?_ (set_gov_keeps ..) (by decide)
          refine Keeps.ite (fun _ => ?_) (fun _ => ?_)
          ·
            refine Keeps.then ?_ (set_gov_keeps ..) (by decide)
            exact Keeps.refl _ _
          ·
            exact Keeps.refl _ _
        ·
          refine Keeps.ite (fun _ => ?_) (fun _ => ?_)
          ·
            refine Keeps.ite (fun _ => ?_) (fun _ => ?_)
            ·
              refine Keeps.then ?_ (set_gov_keeps ..) (by decide)
              exact Keeps.refl _ _
            ·
              exact Keeps.refl _ _
          ·
            refine Keeps.then ?_ (controlLaw_keeps _) (by decide)
            refine Keeps.ite (fun _ => ?_) (fun _ => ?_)
            ·
              refine Keeps.then ?_ (set_gov_keeps ..) (by decide)
              exact Keeps.refl _ _
            ·
              exact Keeps.refl _ _

theorem execSpeedMonitorWindow_keeps (t) (mon) (count) (s) : KeepsO [.mod, .power, .log, .thermal, .monitors, .gov, .net, .jobs, .render, .pos, .fire, .links, .cams, .cal, .time, .axes, .ring, .pair, .loops] (beginAt t s) (execSpeedMonitorWindow t mon count s) := by
  unfold execSpeedMonitorWindow
  refine KeepsO.ite (fun _ => ?_) (fun _ => ?_)
  ·
    refine KeepsO.next ?_
    exact Keeps.refl _ _
  ·
    refine KeepsO.next ?_
    refine Keeps.ite (fun _ => ?_) (fun _ => ?_)
    ·
      refine Keeps.then ?_ (enterShutdown_keeps _ _) (by decide)
      refine Keeps.then ?_ (barsFirst_keeps _ _) (by decide)
      refine Keeps.ite (fun _ => ?_) (fun _ => ?_)
      ·
        refine Keeps.then ?_ (checkRisk_keeps _) (by decide)
        refine Keeps.then ?_ (noteWindow_keeps _) (by decide)
        refine Keeps.then ?_ (setMonitor_keeps _ _ _) (by decide)
        exact Keeps.refl _ _
      ·
        refine Keeps.then ?_ (setMonitor_keeps _ _ _) (by decide)
        exact Keeps.refl _ _
    ·
      refine Keeps.ite (fun _ => ?_) (fun _ => ?_)
      ·
        refine Keeps.then ?_ (checkRisk_keeps _) (by decide)
        refine Keeps.then ?_ (noteWindow_keeps _) (by decide)
        refine Keeps.then ?_ (setMonitor_keeps _ _ _) (by decide)
        exact Keeps.refl _ _
      ·
        refine Keeps.then ?_ (setMonitor_keeps _ _ _) (by decide)
        exact Keeps.refl _ _

theorem execBlitzOff_keeps (t) (s) : KeepsO [.log, .thermal, .net] (beginAt t s) (execBlitzOff t s) := by
  unfold execBlitzOff
  refine KeepsO.next ?_
  refine Keeps.ite (fun _ => ?_) (fun _ => ?_)
  ·
    refine Keeps.then ?_ (raise_keeps _ _ _) (by decide)
    refine Keeps.then ?_ (set_thermal_keeps ..) (by decide)
    exact Keeps.refl _ _
  ·
    exact Keeps.refl _ _

theorem applyInhibit_keeps (b) (s) : Keeps [.mod, .power, .conf, .update, .log, .gov, .net, .jobs, .pos, .fire, .cams, .cal, .ring, .pair] s (applyInhibit b s) := by
  unfold applyInhibit
  refine Keeps.then ?_ (settle_keeps _) (by decide)
  refine Keeps.then ?_ (stopSlotsOn_keeps _ _ _) (by decide)
  refine Keeps.then ?_ (modBar_keeps _ _ _) (by decide)
  refine Keeps.ite (fun _ => ?_) (fun _ => ?_)
  ·
    refine Keeps.forEach (fun _ _ => ?_) ?_
    ·
      refine Keeps.then ?_ (endPacket_keeps _ _) (by decide)
      exact Keeps.refl _ _
    ·
      exact Keeps.refl _ _
  ·
    exact Keeps.refl _ _

theorem putPause_keeps (b) (on) (s) : Keeps [.mod, .power, .conf, .update, .log, .gov, .net, .jobs, .render, .pos, .fire, .cams, .cal, .ring, .pair] s (putPause b on s) := by
  unfold putPause
  refine Keeps.ite (fun _ => ?_) (fun _ => ?_)
  ·
    refine Keeps.then ?_ (modBar_keeps _ _ _) (by decide)
    refine Keeps.then ?_ (barToken_keeps _ _ _ _ _) (by decide)
    exact Keeps.refl _ _
  ·
    refine Keeps.then ?_ (retryHold_keeps _) (by decide)
    refine Keeps.then ?_ (modBar_keeps _ _ _) (by decide)
    refine Keeps.then ?_ (barToken_keeps _ _ _ _ _) (by decide)
    exact Keeps.refl _ _

theorem headCheck_keeps (b) (s) : Keeps [.mod, .power, .conf, .update, .log, .gov, .net, .jobs, .render, .pos, .fire, .cams, .cal, .ring, .pair] s (headCheck b s) := by
  unfold headCheck
  try dsimp only
  split
  ·
    refine Keeps.ite (fun _ => ?_) (fun _ => ?_)
    ·
      refine Keeps.ite (fun _ => ?_) (fun _ => ?_)
      ·
        refine Keeps.ite (fun _ => ?_) (fun _ => ?_)
        ·
          refine Keeps.then ?_ (putPause_keeps _ _ _) (by decide)
          split
          ·
            refine Keeps.ite (fun _ => ?_) (fun _ => ?_)
            ·
              exact Keeps.refl _ _
            ·
              refine Keeps.then ?_ (raise_keeps _ _ _) (by decide)
              refine Keeps.then ?_ (modBar_keeps _ _ _) (by decide)
              exact Keeps.refl _ _
          ·
            refine Keeps.ite (fun _ => ?_) (fun _ => ?_)
            ·
              refine Keeps.then ?_ (raise_keeps _ _ _) (by decide)
              refine Keeps.then ?_ (modBar_keeps _ _ _) (by decide)
              exact Keeps.refl _ _
            ·
              exact Keeps.refl _ _
        ·
          split
          ·
            refine Keeps.ite (fun _ => ?_) (fun _ => ?_)
            ·
              exact Keeps.refl _ _
            ·
              refine Keeps.then ?_ (raise_keeps _ _ _) (by decide)
              refine Keeps.then ?_ (modBar_keeps _ _ _) (by decide)
              exact Keeps.refl _ _
          ·
            refine Keeps.ite (fun _ => ?_) (fun _ => ?_)
            ·
              refine Keeps.then ?_ (raise_keeps _ _ _) (by decide)
              refine Keeps.then ?_ (modBar_keeps _ _ _) (by decide)
              exact Keeps.refl _ _
            ·
              exact Keeps.refl _ _
      ·
        refine Keeps.then ?_ (raise_keeps _ _ _) (by decide)
        refine Keeps.then ?_ (modBar_keeps _ _ _) (by decide)
        refine Keeps.ite (fun _ => ?_) (fun _ => ?_)
        ·
          refine Keeps.then ?_ (putPause_keeps _ _ _) (by decide)
          split
          ·
            refine Keeps.ite (fun _ => ?_) (fun _ => ?_)
            ·
              exact Keeps.refl _ _
            ·
              refine Keeps.then ?_ (raise_keeps _ _ _) (by decide)
              refine Keeps.then ?_ (modBar_keeps _ _ _) (by decide)
              exact Keeps.refl _ _
          ·
            refine Keeps.ite (fun _ => ?_) (fun _ => ?_)
            ·
              refine Keeps.then ?_ (raise_keeps _ _ _) (by decide)
              refine Keeps.then ?_ (modBar_keeps _ _ _) (by decide)
              exact Keeps.refl _ _
            ·
              exact Keeps.refl _ _
        ·
          split
          ·
            refine Keeps.ite (fun _ => ?_) (fun _ => ?_)
            ·
              exact Keeps.refl _ _
            ·
              refine Keeps.then ?_ (raise_keeps _ _ _) (by decide)
              refine Keeps.then ?_ (modBar_keeps _ _ _) (by decide)
              exact Keeps.refl _ _
          ·
            refine Keeps.ite (fun _ => ?_) (fun _ => ?_)
            ·
              refine Keeps.then ?_ (raise_keeps _ _ _) (by decide)
              refine Keeps.then ?_ (modBar_keeps _ _ _) (by decide)
              exact Keeps.refl _ _
            ·
              exact Keeps.refl _ _
    ·
      refine Keeps.ite (fun _ => ?_) (fun _ => ?_)
      ·
        refine Keeps.then ?_ (modBar_keeps _ _ _) (by decide)
        refine Keeps.ite (fun _ => ?_) (fun _ => ?_)
        ·
          refine Keeps.ite (fun _ => ?_) (fun _ => ?_)
          ·
            refine Keeps.then ?_ (putPause_keeps _ _ _) (by decide)
            split
            ·
              refine Keeps.ite (fun _ => ?_) (fun _ => ?_)
              ·
                exact Keeps.refl _ _
              ·
                refine Keeps.then ?_ (raise_keeps _ _ _) (by decide)
                refine Keeps.then ?_ (modBar_keeps _ _ _) (by decide)
                exact Keeps.refl _ _
            ·
              refine Keeps.ite (fun _ => ?_) (fun _ => ?_)
              ·
                refine Keeps.then ?_ (raise_keeps _ _ _) (by decide)
                refine Keeps.then ?_ (modBar_keeps _ _ _) (by decide)
                exact Keeps.refl _ _
              ·
                exact Keeps.refl _ _
          ·
            split
            ·
              refine Keeps.ite (fun _ => ?_) (fun _ => ?_)
              ·
                exact Keeps.refl _ _
              ·
                refine Keeps.then ?_ (raise_keeps _ _ _) (by decide)
                refine Keeps.then ?_ (modBar_keeps _ _ _) (by decide)
                exact Keeps.refl _ _
            ·
              refine Keeps.ite (fun _ => ?_) (fun _ => ?_)
              ·
                refine Keeps.then ?_ (raise_keeps _ _ _) (by decide)
                refine Keeps.then ?_ (modBar_keeps _ _ _) (by decide)
                exact Keeps.refl _ _
              ·
                exact Keeps.refl _ _
        ·
          refine Keeps.then ?_ (raise_keeps _ _ _) (by decide)
          refine Keeps.then ?_ (modBar_keeps _ _ _) (by decide)
          refine Keeps.ite (fun _ => ?_) (fun _ => ?_)
          ·
            refine Keeps.then ?_ (putPause_keeps _ _ _) (by decide)
            split
            ·
              refine Keeps.ite (fun _ => ?_) (fun _ => ?_)
              ·
                exact Keeps.refl _ _
              ·
                refine Keeps.then ?_ (raise_keeps _ _ _) (by decide)
                refine Keeps.then ?_ (modBar_keeps _ _ _) (by decide)
                exact Keeps.refl _ _
            ·
              refine Keeps.ite (fun _ => ?_) (fun _ => ?_)
              ·
                refine Keeps.then ?_ (raise_keeps _ _ _) (by decide)
                refine Keeps.then ?_ (modBar_keeps _ _ _) (by decide)
                exact Keeps.refl _ _
              ·
                exact Keeps.refl _ _
          ·
            split
            ·
              refine Keeps.ite (fun _ => ?_) (fun _ => ?_)
              ·
                exact Keeps.refl _ _
              ·
                refine Keeps.then ?_ (raise_keeps _ _ _) (by decide)
                refine Keeps.then ?_ (modBar_keeps _ _ _) (by decide)
                exact Keeps.refl _ _
            ·
              refine Keeps.ite (fun _ => ?_) (fun _ => ?_)
              ·
                refine Keeps.then ?_ (raise_keeps _ _ _) (by decide)
                refine Keeps.then ?_ (modBar_keeps _ _ _) (by decide)
                exact Keeps.refl _ _
              ·
                exact Keeps.refl _ _
      ·
        refine Keeps.then ?_ (applyInhibit_keeps _ _) (by decide)
        refine Keeps.then ?_ (barToken_keeps _ _ _ _ _) (by decide)
        refine Keeps.ite (fun _ => ?_) (fun _ => ?_)
        ·
          refine Keeps.ite (fun _ => ?_) (fun _ => ?_)
          ·
            refine Keeps.then ?_ (putPause_keeps _ _ _) (by decide)
            split
            ·
              refine Keeps.ite (fun _ => ?_) (fun _ => ?_)
              ·
                exact Keeps.refl _ _
              ·
                refine Keeps.then ?_ (raise_keeps _ _ _) (by decide)
                refine Keeps.then ?_ (modBar_keeps _ _ _) (by decide)
                exact Keeps.refl _ _
            ·
              refine Keeps.ite (fun _ => ?_) (fun _ => ?_)
              ·
                refine Keeps.then ?_ (raise_keeps _ _ _) (by decide)
                refine Keeps.then ?_ (modBar_keeps _ _ _) (by decide)
                exact Keeps.refl _ _
              ·
                exact Keeps.refl _ _
          ·
            split
            ·
              refine Keeps.ite (fun _ => ?_) (fun _ => ?_)
              ·
                exact Keeps.refl _ _
              ·
                refine Keeps.then ?_ (raise_keeps _ _ _) (by decide)
                refine Keeps.then ?_ (modBar_keeps _ _ _) (by decide)
                exact Keeps.refl _ _
            ·
              refine Keeps.ite (fun _ => ?_) (fun _ => ?_)
              ·
                refine Keeps.then ?_ (raise_keeps _ _ _) (by decide)
                refine Keeps.then ?_ (modBar_keeps _ _ _) (by decide)
                exact Keeps.refl _ _
              ·
                exact Keeps.refl _ _
        ·
          refine Keeps.then ?_ (raise_keeps _ _ _) (by decide)
          refine Keeps.then ?_ (modBar_keeps _ _ _) (by decide)
          refine Keeps.ite (fun _ => ?_) (fun _ => ?_)
          ·
            refine Keeps.then ?_ (putPause_keeps _ _ _) (by decide)
            split
            ·
              refine Keeps.ite (fun _ => ?_) (fun _ => ?_)
              ·
                exact Keeps.refl _ _
              ·
                refine Keeps.then ?_ (raise_keeps _ _ _) (by decide)
                refine Keeps.then ?_ (modBar_keeps _ _ _) (by decide)
                exact Keeps.refl _ _
            ·
              refine Keeps.ite (fun _ => ?_) (fun _ => ?_)
              ·
                refine Keeps.then ?_ (raise_keeps _ _ _) (by decide)
                refine Keeps.then ?_ (modBar_keeps _ _ _) (by decide)
                exact Keeps.refl _ _
              ·
                exact Keeps.refl _ _
          ·
            split
            ·
              refine Keeps.ite (fun _ => ?_) (fun _ => ?_)
              ·
                exact Keeps.refl _ _
              ·
                refine Keeps.then ?_ (raise_keeps _ _ _) (by decide)
                refine Keeps.then ?_ (modBar_keeps _ _ _) (by decide)
                exact Keeps.refl _ _
            ·
              refine Keeps.ite (fun _ => ?_) (fun _ => ?_)
              ·
                refine Keeps.then ?_ (raise_keeps _ _ _) (by decide)
                refine Keeps.then ?_ (modBar_keeps _ _ _) (by decide)
                exact Keeps.refl _ _
              ·
                exact Keeps.refl _ _
  ·
    refine Keeps.ite (fun _ => ?_) (fun _ => ?_)
    ·
      refine Keeps.then ?_ (modBar_keeps _ _ _) (by decide)
      refine Keeps.ite (fun _ => ?_) (fun _ => ?_)
      ·
        refine Keeps.then ?_ (putPause_keeps _ _ _) (by decide)
        split
        ·
          refine Keeps.ite (fun _ => ?_) (fun _ => ?_)
          ·
            exact Keeps.refl _ _
          ·
            refine Keeps.then ?_ (raise_keeps _ _ _) (by decide)
            refine Keeps.then ?_ (modBar_keeps _ _ _) (by decide)
            exact Keeps.refl _ _
        ·
          refine Keeps.ite (fun _ => ?_) (fun _ => ?_)
          ·
            refine Keeps.then ?_ (raise_keeps _ _ _) (by decide)
            refine Keeps.then ?_ (modBar_keeps _ _ _) (by decide)
            exact Keeps.refl _ _
          ·
            exact Keeps.refl _ _
      ·
        split
        ·
          refine Keeps.ite (fun _ => ?_) (fun _ => ?_)
          ·
            exact Keeps.refl _ _
          ·
            refine Keeps.then ?_ (raise_keeps _ _ _) (by decide)
            refine Keeps.then ?_ (modBar_keeps _ _ _) (by decide)
            exact Keeps.refl _ _
        ·
          refine Keeps.ite (fun _ => ?_) (fun _ => ?_)
          ·
            refine Keeps.then ?_ (raise_keeps _ _ _) (by decide)
            refine Keeps.then ?_ (modBar_keeps _ _ _) (by decide)
            exact Keeps.refl _ _
          ·
            exact Keeps.refl _ _
    ·
      refine Keeps.ite (fun _ => ?_) (fun _ => ?_)
      ·
        refine Keeps.then ?_ (putPause_keeps _ _ _) (by decide)
        split
        ·
          refine Keeps.ite (fun _ => ?_) (fun _ => ?_)
          ·
            exact Keeps.refl _ _
          ·
            refine Keeps.then ?_ (raise_keeps _ _ _) (by decide)
            refine Keeps.then ?_ (modBar_keeps _ _ _) (by decide)
            exact Keeps.refl _ _
        ·
          refine Keeps.ite (fun _ => ?_) (fun _ => ?_)
          ·
            refine Keeps.then ?_ (raise_keeps _ _ _) (by decide)
            refine Keeps.then ?_ (modBar_keeps _ _ _) (by decide)
            exact Keeps.refl _ _
          ·
            exact Keeps.refl _ _
      ·
        split
        ·
          refine Keeps.ite (fun _ => ?_) (fun _ => ?_)
          ·
            exact Keeps.refl _ _
          ·
            refine Keeps.then ?_ (raise_keeps _ _ _) (by decide)
            refine Keeps.then ?_ (modBar_keeps _ _ _) (by decide)
            exact Keeps.refl _ _
        ·
          refine Keeps.ite (fun _ => ?_) (fun _ => ?_)
          ·
            refine Keeps.then ?_ (raise_keeps _ _ _) (by decide)
            refine Keeps.then ?_ (modBar_keeps _ _ _) (by decide)
            exact Keeps.refl _ _
          ·
            exact Keeps.refl _ _

theorem warningCheck_keeps (s) : Keeps [.log, .thermal, .net] s (warningCheck s) := by
  unfold warningCheck
  try dsimp only
  split
  ·
    refine Keeps.ite (fun _ => ?_) (fun _ => ?_)
    ·
      exact Keeps.refl _ _
    ·
      refine Keeps.then ?_ (raise_keeps _ _ _) (by decide)
      refine Keeps.then ?_ (set_thermal_keeps ..) (by decide)
      exact Keeps.refl _ _
  ·
    refine Keeps.ite (fun _ => ?_) (fun _ => ?_)
    ·
      refine Keeps.then ?_ (raise_keeps _ _ _) (by decide)
      refine Keeps.then ?_ (set_thermal_keeps ..) (by decide)
      exact Keeps.refl _ _
    ·
      exact Keeps.refl _ _

theorem throttleCheck_keeps (s) : Keeps [.log, .thermal, .gov, .net] s (throttleCheck s) := by
  unfold throttleCheck
  try dsimp only
  split
  ·
    refine Keeps.ite (fun _ => ?_) (fun _ => ?_)
    ·
      refine Keeps.then ?_ (set_thermal_keeps ..) (by decide)
      exact Keeps.refl _ _
    ·
      refine Keeps.then ?_ (raise_keeps _ _ _) (by decide)
      refine Keeps.then ?_ (set_thermal_gov_keeps ..) (by decide)
      refine Keeps.then ?_ (set_thermal_keeps ..) (by decide)
      exact Keeps.refl _ _
  ·
    refine Keeps.ite (fun _ => ?_) (fun _ => ?_)
    ·
      refine Keeps.then ?_ (raise_keeps _ _ _) (by decide)
      refine Keeps.then ?_ (set_thermal_keeps ..) (by decide)
      try (refine Keeps.then ?_ (set_thermal_keeps ..) (by decide))
      exact Keeps.refl _ _
    ·
      refine Keeps.then ?_ (set_thermal_keeps ..) (by decide)
      exact Keeps.refl _ _

theorem headEvents_keeps (s) : Keeps [.log, .net, .links] s (headEvents s) := by
  unfold headEvents
  refine Keeps.forEach (fun _ _ => ?_) ?_
  ·
    refine Keeps.ite (fun _ => ?_) (fun _ => ?_)
    ·
      refine Keeps.ite (fun _ => ?_) (fun _ => ?_)
      ·
        exact Keeps.refl _ _
      ·
        refine Keeps.then ?_ (raise_keeps _ _ _) (by decide)
        refine Keeps.then ?_ (modLink_keeps _ _ _) (by decide)
        exact Keeps.refl _ _
    ·
      refine Keeps.ite (fun _ => ?_) (fun _ => ?_)
      ·
        refine Keeps.then ?_ (modLink_keeps _ _ _) (by decide)
        exact Keeps.refl _ _
      ·
        exact Keeps.refl _ _
  ·
    exact Keeps.refl _ _

theorem execShutdownRecordWritten_keeps (t) (s) : KeepsO [.power, .flash, .thermal] (beginAt t s) (execShutdownRecordWritten t s) := by
  unfold execShutdownRecordWritten
  try dsimp only
  split
  ·
    refine KeepsO.next ?_
    exact Keeps.refl _ _
  ·
    refine KeepsO.next ?_
    refine Keeps.then ?_ (atNextStart_keeps _ _ _) (by decide)
    refine Keeps.then ?_ (emit_keeps _ _) (by decide)
    refine Keeps.then ?_ (set_flash_thermal_keeps ..) (by decide)
    exact Keeps.refl _ _

theorem brokenEvents_keeps (old) (s) : Keeps [.log, .net] s (brokenEvents old s) := by
  unfold brokenEvents
  refine Keeps.forEach (fun _ _ => ?_) ?_
  ·
    refine Keeps.then ?_ (raise_keeps _ _ _) (by decide)
    exact Keeps.refl _ _
  ·
    exact Keeps.refl _ _

theorem blitzCheck_keeps (s) : Keeps [.log, .thermal, .net] s (blitzCheck s) := by
  unfold blitzCheck
  try dsimp only
  split
  ·
    refine Keeps.ite (fun _ => ?_) (fun _ => ?_)
    ·
      refine Keeps.then ?_ (set_thermal_keeps ..) (by decide)
      exact Keeps.refl _ _
    ·
      refine Keeps.then ?_ (raise_keeps _ _ _) (by decide)
      refine Keeps.then ?_ (set_thermal_keeps ..) (by decide)
      try (refine Keeps.then ?_ (set_thermal_keeps ..) (by decide))
      exact Keeps.refl _ _
  ·
    refine Keeps.then ?_ (set_thermal_keeps ..) (by decide)
    exact Keeps.refl _ _

theorem execThermalSample_keeps (t) (conv) (s) : KeepsO [.mod, .power, .conf, .update, .log, .thermal, .gov, .net, .jobs, .render, .mem, .pos, .fire, .links, .cams, .cal, .time, .axes, .ring, .pair, .loops] (beginAt t s) (execThermalSample t conv s) := by
  unfold execThermalSample
  refine KeepsO.ite (fun _ => ?_) (fun _ => ?_)
  ·
    refine KeepsO.next ?_
    exact Keeps.refl _ _
  ·
    try dsimp only
    split
    ·
      refine KeepsO.next ?_
      refine Keeps.ite (fun _ => ?_) (fun _ => ?_)
      ·
        refine Keeps.then ?_ (enterShutdown_keeps _ _) (by decide)
        refine Keeps.then ?_ (barsFirst_keeps _ _) (by decide)
        refine Keeps.then ?_ (blitzCheck_keeps _) (by decide)
        refine Keeps.then ?_ (brokenEvents_keeps _ _) (by decide)
        refine Keeps.forEach (fun _ _ => ?_) ?_
        ·
          refine Keeps.then ?_ (refreshSub_keeps _ _ _) (by decide)
          exact Keeps.refl _ _
        ·
          refine Keeps.then ?_ (set_thermal_keeps ..) (by decide)
          exact Keeps.refl _ _
      ·
        refine Keeps.then ?_ (blitzCheck_keeps _) (by decide)
        refine Keeps.then ?_ (brokenEvents_keeps _ _) (by decide)
        refine Keeps.forEach (fun _ _ => ?_) ?_
        ·
          refine Keeps.then ?_ (refreshSub_keeps _ _ _) (by decide)
          exact Keeps.refl _ _
        ·
          refine Keeps.then ?_ (set_thermal_keeps ..) (by decide)
          exact Keeps.refl _ _
    ·
      refine KeepsO.next ?_
      refine Keeps.forEach (fun _ _ => ?_) ?_
      ·
        refine Keeps.then ?_ (headCheck_keeps _ _) (by decide)
        exact Keeps.refl _ _
      ·
        refine Keeps.then ?_ (blitzCheck_keeps _) (by decide)
        refine Keeps.then ?_ (headEvents_keeps _) (by decide)
        refine Keeps.then ?_ (throttleCheck_keeps _) (by decide)
        refine Keeps.then ?_ (warningCheck_keeps _) (by decide)
        refine Keeps.forEach (fun _ _ => ?_) ?_
        ·
          refine Keeps.then ?_ (refreshSub_keeps _ _ _) (by decide)
          exact Keeps.refl _ _
        ·
          refine Keeps.then ?_ (set_thermal_keeps ..) (by decide)
          exact Keeps.refl _ _

theorem msgTimedOutput_keeps (i) (b) (s) : KeepsV [.time] s (msgTimedOutput i b s) := by
  unfold msgTimedOutput
  refine KeepsV.ite (fun _ => ?_) (fun _ => ?_)
  ·
    exact KeepsV.error
  ·
    refine KeepsV.ite (fun _ => ?_) (fun _ => ?_)
    ·
      exact KeepsV.error
    ·
      refine KeepsV.ite (fun _ => ?_) (fun _ => ?_)
      ·
        exact KeepsV.error
      ·
        refine KeepsV.ite (fun _ => ?_) (fun _ => ?_)
        ·
          refine KeepsV.ok ?_
          refine Keeps.then ?_ (modOut_keeps _ _ _) (by decide)
          exact Keeps.refl _ _
        ·
          refine KeepsV.ok ?_
          refine Keeps.then ?_ (modOut_keeps _ _ _) (by decide)
          exact Keeps.refl _ _

theorem execPpsEdge_keeps (t) (s) : KeepsO [.log, .net, .time] (beginAt t s) (execPpsEdge t s) := by
  unfold execPpsEdge
  refine KeepsO.ite (fun _ => ?_) (fun _ => ?_)
  ·
    refine KeepsO.next ?_
    refine Keeps.then ?_ (modOut_keeps _ _ _) (by decide)
    refine Keeps.then ?_ (settleChange_keeps _) (by decide)
    exact Keeps.refl _ _
  ·
    refine KeepsO.ite (fun _ => ?_) (fun _ => ?_)
    ·
      refine KeepsO.next ?_
      refine Keeps.then ?_ (settleChange_keeps _) (by decide)
      exact Keeps.refl _ _
    ·
      refine KeepsO.next ?_
      refine Keeps.ite (fun _ => ?_) (fun _ => ?_)
      ·
        refine Keeps.then ?_ (countLate_keeps _ _ _) (by decide)
        refine Keeps.then ?_ (pulseOut_keeps _ _ _) (by decide)
        refine Keeps.then ?_ (modOut_keeps _ _ _) (by decide)
        refine Keeps.then ?_ (settleChange_keeps _) (by decide)
        exact Keeps.refl _ _
      ·
        refine Keeps.then ?_ (pulseOut_keeps _ _ _) (by decide)
        refine Keeps.then ?_ (modOut_keeps _ _ _) (by decide)
        refine Keeps.then ?_ (settleChange_keeps _) (by decide)
        exact Keeps.refl _ _

theorem execTimedOutputEdge_keeps (t) (out) (s) : KeepsO [.log, .net, .time] (beginAt t s) (execTimedOutputEdge t out s) := by
  unfold execTimedOutputEdge
  try dsimp only
  split
  ·
    refine KeepsO.next ?_
    refine Keeps.then ?_ (settleChange_keeps _) (by decide)
    exact Keeps.refl _ _
  ·
    refine KeepsO.ite (fun _ => ?_) (fun _ => ?_)
    ·
      refine KeepsO.next ?_
      refine Keeps.then ?_ (settleChange_keeps _) (by decide)
      exact Keeps.refl _ _
    ·
      refine KeepsO.next ?_
      refine Keeps.ite (fun _ => ?_) (fun _ => ?_)
      ·
        refine Keeps.then ?_ (countLate_keeps _ _ _) (by decide)
        refine Keeps.then ?_ (pulseOut_keeps _ _ _) (by decide)
        refine Keeps.then ?_ (modOut_keeps _ _ _) (by decide)
        refine Keeps.then ?_ (settleChange_keeps _) (by decide)
        exact Keeps.refl _ _
      ·
        refine Keeps.then ?_ (pulseOut_keeps _ _ _) (by decide)
        refine Keeps.then ?_ (modOut_keeps _ _ _) (by decide)
        refine Keeps.then ?_ (settleChange_keeps _) (by decide)
        exact Keeps.refl _ _

theorem sendPtp_keeps (kind) (seq) (time) (correction) (sum) (s) : Keeps [] s (sendPtp kind seq time correction sum s) := by
  unfold sendPtp
  refine Keeps.then ?_ (emit_keeps _ _) (by decide)
  exact Keeps.refl _ _

theorem answerPdelay_keeps (seq) (correction) (s) : Keeps [.free] s (answerPdelay seq correction s) := by
  unfold answerPdelay
  refine Keeps.then ?_ (drawFree_keeps _) (by decide)
  refine Keeps.ite (fun _ => ?_) (fun _ => ?_)
  ·
    refine Keeps.then ?_ (sendPtp_keeps _ _ _ _ _ _) (by decide)
    exact Keeps.refl _ _
  ·
    refine Keeps.then ?_ (sendPtp_keeps _ _ _ _ _ _) (by decide)
    refine Keeps.then ?_ (sendPtp_keeps _ _ _ _ _ _) (by decide)
    exact Keeps.refl _ _

theorem takeDelay_keeps (d) (s) : Keeps [.time] s (takeDelay d s) := by
  unfold takeDelay
  refine Keeps.then ?_ (set_time_keeps ..) (by decide)
  exact Keeps.refl _ _

theorem takeSync_keeps (diff) (s) : Keeps [.time] s (takeSync diff s) := by
  unfold takeSync
  refine Keeps.then ?_ (set_time_keeps ..) (by decide)
  exact Keeps.refl _ _

theorem masterChanged_keeps (a) (s) : Keeps [.log, .net] s (masterChanged a s) := by
  unfold masterChanged
  refine Keeps.then ?_ (raise_keeps _ _ _) (by decide)
  exact Keeps.refl _ _

theorem becomeMaster_keeps (s) : Keeps [.log, .net, .time] s (becomeMaster s) := by
  unfold becomeMaster
  refine Keeps.then ?_ (masterChanged_keeps _ _) (by decide)
  refine Keeps.ite (fun _ => ?_) (fun _ => ?_)
  ·
    refine Keeps.then ?_ (freeTime_keeps _) (by decide)
    refine Keeps.then ?_ (set_time_keeps ..) (by decide)
    exact Keeps.refl _ _
  ·
    refine Keeps.ite (fun _ => ?_) (fun _ => ?_)
    ·
      refine Keeps.then ?_ (set_time_keeps ..) (by decide)
      exact Keeps.refl _ _
    ·
      refine Keeps.then ?_ (setTimeState_keeps _ _) (by decide)
      refine Keeps.then ?_ (writeChange_keeps _ _ _) (by decide)
      refine Keeps.then ?_ (set_time_keeps ..) (by decide)
      exact Keeps.refl _ _

theorem decideMaster_keeps (s) : Keeps [.log, .net, .time] s (decideMaster s) := by
  unfold decideMaster
  refine Keeps.ite (fun _ => ?_) (fun _ => ?_)
  ·
    refine Keeps.ite (fun _ => ?_) (fun _ => ?_)
    ·
      refine Keeps.then ?_ (set_time_keeps ..) (by decide)
      exact Keeps.refl _ _
    ·
      refine Keeps.then ?_ (becomeMaster_keeps _) (by decide)
      refine Keeps.then ?_ (set_time_keeps ..) (by decide)
      exact Keeps.refl _ _
  ·
    try dsimp only
    split
    ·
      refine Keeps.ite (fun _ => ?_) (fun _ => ?_)
      ·
        refine Keeps.then ?_ (setTimeState_keeps _ _) (by decide)
        refine Keeps.then ?_ (set_time_keeps ..) (by decide)
        try (refine Keeps.then ?_ (set_time_keeps ..) (by decide))
        exact Keeps.refl _ _
      ·
        refine Keeps.then ?_ (set_time_keeps ..) (by decide)
        exact Keeps.refl _ _
    ·
      refine Keeps.ite (fun _ => ?_) (fun _ => ?_)
      ·
        refine Keeps.then ?_ (set_time_keeps ..) (by decide)
        refine Keeps.ite (fun _ => ?_) (fun _ => ?_)
        ·
          refine Keeps.then ?_ (setTimeState_keeps _ _) (by decide)
          refine Keeps.then ?_ (set_time_keeps ..) (by decide)
          try (refine Keeps.then ?_ (set_time_keeps ..) (by decide))
          exact Keeps.refl _ _
        ·
          refine Keeps.then ?_ (set_time_keeps ..) (by decide)
          exact Keeps.refl _ _
      ·
        refine Keeps.then ?_ (masterChanged_keeps _ _) (by decide)
        refine Keeps.then ?_ (set_time_keeps ..) (by decide)
        try (refine Keeps.then ?_ (set_time_keeps ..) (by decide))
        refine Keeps.ite (fun _ => ?_) (fun _ => ?_)
        ·
          refine Keeps.then ?_ (setTimeState_keeps _ _) (by decide)
          refine Keeps.then ?_ (set_time_keeps ..) (by decide)
          try (refine Keeps.then ?_ (set_time_keeps ..) (by decide))
          exact Keeps.refl _ _
        ·
          refine Keeps.then ?_ (set_time_keeps ..) (by decide)
          exact Keeps.refl _ _

theorem takePtp_keeps (m) (s) : Keeps [.free, .log, .net, .time] s (takePtp m s) := by
  unfold takePtp
  try dsimp only
  split
  ·
    refine Keeps.then ?_ (decideMaster_keeps _) (by decide)
    refine Keeps.then ?_ (set_time_keeps ..) (by decide)
    exact Keeps.refl _ _
  ·
    refine Keeps.ite (fun _ => ?_) (fun _ => ?_)
    ·
      exact Keeps.refl _ _
    ·
      refine Keeps.ite (fun _ => ?_) (fun _ => ?_)
      ·
        refine Keeps.then ?_ (set_time_keeps ..) (by decide)
        exact Keeps.refl _ _
      ·
        refine Keeps.then ?_ (takeSync_keeps _ _) (by decide)
        exact Keeps.refl _ _
  ·
    split
    ·
      refine Keeps.ite (fun _ => ?_) (fun _ => ?_)
      ·
        refine Keeps.then ?_ (takeSync_keeps _ _) (by decide)
        exact Keeps.refl _ _
      ·
        exact Keeps.refl _ _
    ·
      exact Keeps.refl _ _
  ·
    refine Keeps.ite (fun _ => ?_) (fun _ => ?_)
    ·
      refine Keeps.then ?_ (sendPtp_keeps _ _ _ _ _ _) (by decide)
      exact Keeps.refl _ _
    ·
      exact Keeps.refl _ _
  ·
    split
    ·
      refine Keeps.ite (fun _ => ?_) (fun _ => ?_)
      ·
        refine Keeps.then ?_ (takeDelay_keeps _ _) (by decide)
        exact Keeps.refl _ _
      ·
        exact Keeps.refl _ _
    ·
      exact Keeps.refl _ _
  ·
    refine Keeps.ite (fun _ => ?_) (fun _ => ?_)
    ·
      refine Keeps.then ?_ (answerPdelay_keeps _ _ _) (by decide)
      exact Keeps.refl _ _
    ·
      exact Keeps.refl _ _
  ·
    split
    ·
      refine Keeps.ite (fun _ => ?_) (fun _ => ?_)
      ·
        exact Keeps.refl _ _
      ·
        refine Keeps.ite (fun _ => ?_) (fun _ => ?_)
        ·
          refine Keeps.then ?_ (set_time_keeps ..) (by decide)
          exact Keeps.refl _ _
        ·
          refine Keeps.then ?_ (takeDelay_keeps _ _) (by decide)
          exact Keeps.refl _ _
    ·
      exact Keeps.refl _ _
  ·
    split
    ·
      refine Keeps.ite (fun _ => ?_) (fun _ => ?_)
      ·
        refine Keeps.then ?_ (takeDelay_keeps _ _) (by decide)
        exact Keeps.refl _ _
      ·
        exact Keeps.refl _ _
    ·
      exact Keeps.refl _ _
  ·
    exact Keeps.refl _ _

theorem execPtpMessageReceived_keeps (t) (port) (m) (s) : KeepsO [.free, .log, .net, .time] (beginAt t s) (execPtpMessageReceived t port m s) := by
  unfold execPtpMessageReceived
  try dsimp only
  split
  ·
    refine KeepsO.next ?_
    refine Keeps.ite (fun _ => ?_) (fun _ => ?_)
    ·
      refine Keeps.then ?_ (modPort_keeps _ _ _) (by decide)
      exact Keeps.refl _ _
    ·
      exact Keeps.refl _ _
  ·
    refine KeepsO.ite (fun _ => ?_) (fun _ => ?_)
    ·
      refine KeepsO.next ?_
      refine Keeps.then ?_ (takePtp_keeps _ _) (by decide)
      exact Keeps.refl _ _
    ·
      refine KeepsO.next ?_
      exact Keeps.refl _ _

theorem execTimeServoMeasurement_keeps (t) (offset) (s) : KeepsO [.log, .net, .time] (beginAt t s) (execTimeServoMeasurement t offset s) := by
  unfold execTimeServoMeasurement
  refine KeepsO.ite (fun _ => ?_) (fun _ => ?_)
  ·
    refine KeepsO.next ?_
    exact Keeps.refl _ _
  ·
    refine KeepsO.next ?_
    refine Keeps.then ?_ (measureOffset_keeps _ _) (by decide)
    exact Keeps.refl _ _

theorem holdOver_keeps (s) : Keeps [.log, .net, .time] s (holdOver s) := by
  unfold holdOver
  refine Keeps.ite (fun _ => ?_) (fun _ => ?_)
  ·
    refine Keeps.then ?_ (setTimeState_keeps _ _) (by decide)
    refine Keeps.then ?_ (writeChange_keeps _ _ _) (by decide)
    exact Keeps.refl _ _
  ·
    exact Keeps.refl _ _

theorem execTimeChangeApply_keeps (t) (s) : KeepsO [.time] (beginAt t s) (execTimeChangeApply t s) := by
  unfold execTimeChangeApply
  refine KeepsO.next ?_
  refine Keeps.then ?_ (settleChange_keeps _) (by decide)
  exact Keeps.refl _ _

theorem execTimedOutputPulseEnd_keeps (t) (out) (s) : KeepsO [.time] (beginAt t s) (execTimedOutputPulseEnd t out s) := by
  unfold execTimedOutputPulseEnd
  refine KeepsO.next ?_
  split
  ·
    refine Keeps.ite (fun _ => ?_) (fun _ => ?_)
    ·
      refine Keeps.then ?_ (modOut_keeps _ _ _) (by decide)
      exact Keeps.refl _ _
    ·
      exact Keeps.refl _ _
  ·
    exact Keeps.refl _ _

theorem execPtpMessageDue_keeps (t) (kind) (s) : KeepsO [.time] (beginAt t s) (execPtpMessageDue t kind s) := by
  unfold execPtpMessageDue
  refine KeepsO.ite (fun _ => ?_) (fun _ => ?_)
  ·
    refine KeepsO.next ?_
    exact Keeps.refl _ _
  ·
    try dsimp only
    split
    ·
      refine KeepsO.ite (fun _ => ?_) (fun _ => ?_)
      ·
        refine KeepsO.next ?_
        exact Keeps.refl _ _
      ·
        refine KeepsO.ite (fun _ => ?_) (fun _ => ?_)
        ·
          refine KeepsO.next ?_
          refine Keeps.then ?_ (sendPtp_keeps _ _ _ _ _ _) (by decide)
          refine Keeps.then ?_ (set_time_keeps ..) (by decide)
          exact Keeps.refl _ _
        ·
          refine KeepsO.next ?_
          refine Keeps.then ?_ (sendPtp_keeps _ _ _ _ _ _) (by decide)
          refine Keeps.then ?_ (sendPtp_keeps _ _ _ _ _ _) (by decide)
          refine Keeps.then ?_ (set_time_keeps ..) (by decide)
          exact Keeps.refl _ _
    ·
      refine KeepsO.next ?_
      refine Keeps.ite (fun _ => ?_) (fun _ => ?_)
      ·
        refine Keeps.then ?_ (emit_keeps _ _) (by decide)
        refine Keeps.then ?_ (set_time_keeps ..) (by decide)
        exact Keeps.refl _ _
      ·
        exact Keeps.refl _ _
    ·
      refine KeepsO.ite (fun _ => ?_) (fun _ => ?_)
      ·
        refine KeepsO.next ?_
        exact Keeps.refl _ _
      ·
        refine KeepsO.next ?_
        refine Keeps.then ?_ (sendPtp_keeps _ _ _ _ _ _) (by decide)
        refine Keeps.then ?_ (set_time_keeps ..) (by decide)
        try (refine Keeps.then ?_ (set_time_keeps ..) (by decide))
        exact Keeps.refl _ _

theorem execTimeSourceLost_keeps (t) (s) : KeepsO [.log, .net, .time] (beginAt t s) (execTimeSourceLost t s) := by
  unfold execTimeSourceLost
  refine KeepsO.ite (fun _ => ?_) (fun _ => ?_)
  ·
    refine KeepsO.next ?_
    exact Keeps.refl _ _
  ·
    refine KeepsO.ite (fun _ => ?_) (fun _ => ?_)
    ·
      refine KeepsO.next ?_
      refine Keeps.then ?_ (decideMaster_keeps _) (by decide)
      refine Keeps.then ?_ (set_time_keeps ..) (by decide)
      refine Keeps.then ?_ (holdOver_keeps _) (by decide)
      exact Keeps.refl _ _
    ·
      refine KeepsO.next ?_
      refine Keeps.then ?_ (holdOver_keeps _) (by decide)
      exact Keeps.refl _ _

theorem sampleCounts_keeps (s) : Keeps [.free, .mem, .loops] s (sampleCounts s) := by
  unfold sampleCounts
  refine Keeps.then ?_ (drawFrees_keeps _ _) (by decide)
  refine Keeps.then ?_ (set_mem_loops_keeps ..) (by decide)
  exact Keeps.refl _ _

theorem msgStatus_keeps (i) (p) (s) : KeepsV [.free, .net, .mem, .loops] s (msgStatus i p s) := by
  unfold msgStatus
  refine KeepsV.ite (fun _ => ?_) (fun _ => ?_)
  ·
    exact KeepsV.error
  ·
    refine KeepsV.ok ?_
    refine Keeps.then ?_ (drawFree_keeps _) (by decide)
    refine Keeps.then ?_ (sendDpt_keeps _ _ _ _) (by decide)
    refine Keeps.then ?_ (sampleCounts_keeps _) (by decide)
    exact Keeps.refl _ _

end Sys2Proof.Machine
end

