-- ==== Sys2Proof/Laws/KeepsMessages.lean ====
section
/-! SUPPORT. What the operations of Messages, Links, CatchUp, Fire, Tokens leave alone, and that they keep the invariant. -/
namespace Sys2Proof.Machine
open Sys2Proof

theorem messageMeaning_keeps (type i p s) : KeepsV [.free, .mod, .power, .flash, .conf, .update, .log, .thermal, .gov, .net, .jobs, .render, .mem, .pos, .fire, .links, .cams, .cal, .time, .axes, .ring, .pair, .loops] s (messageMeaning type i p s) := by
  unfold messageMeaning
  split
  · exact KeepsV.mono (msgSessionClose_keeps _ _ _) (by decide)
  · exact KeepsV.mono (msgHaltReq_keeps _ _ _) (by decide)
  · exact KeepsV.mono (msgRestart_keeps _ _ _) (by decide)
  · exact KeepsV.mono (msgMaintenance_keeps _ _ _) (by decide)
  · exact KeepsV.mono (msgLoopback_keeps _ _ _ _) (by decide)
  · exact KeepsV.mono (msgSurfaceDefine_keeps _ _ _) (by decide)
  · exact KeepsV.mono (msgSurfaceData_keeps _ _ _) (by decide)
  · exact KeepsV.mono (msgSurfaceSeal_keeps _ _ _) (by decide)
  · exact KeepsV.mono (msgSurfaceFree_keeps _ _ _) (by decide)
  · exact KeepsV.mono (msgLutDefine_keeps _ _ _) (by decide)
  · exact KeepsV.mono (msgPageDefine_keeps _ _ _) (by decide)
  · exact KeepsV.mono (msgPageFree_keeps _ _ _) (by decide)
  · exact KeepsV.mono (msgRunDefine_keeps _ _ _) (by decide)
  · exact KeepsV.mono (msgRunArm_keeps _ _ _) (by decide)
  · exact KeepsV.mono (msgRunStop_keeps _ _ _) (by decide)
  · exact KeepsV.mono (msgRunCancel_keeps _ _ _) (by decide)
  · exact KeepsV.mono (msgRunEnd_keeps _ _ _) (by decide)
  · exact KeepsV.mono (msgCalRequest_keeps _ _ _) (by decide)
  · exact KeepsV.mono (msgMove_keeps _ _ _) (by decide)
  · exact KeepsV.mono (msgTimedOutput_keeps _ _ _) (by decide)
  · exact KeepsV.mono (msgResultRead_keeps _ _ _) (by decide)
  · exact KeepsV.mono (msgResultRelease_keeps _ _ _) (by decide)
  · exact KeepsV.mono (msgStatus_keeps _ _ _) (by decide)
  · exact KeepsV.mono (msgImageBegin_keeps _ _ _) (by decide)
  · exact KeepsV.mono (msgImageBlock_keeps _ _ _) (by decide)
  · exact KeepsV.mono (msgImageVerify_keeps _ _ _) (by decide)
  · exact KeepsV.mono (msgImageActivate_keeps _ _ _) (by decide)
  · exact KeepsV.mono (msgImageConfirm_keeps _ _ _) (by decide)
  · exact KeepsV.mono (msgImageAbort_keeps _ _ _) (by decide)
  · exact KeepsV.mono (msgUnknown_keeps _ _ _) (by decide)

theorem applyWaiting_keeps (n s) : Keeps [.free, .mod, .power, .flash, .conf, .update, .log, .thermal, .gov, .net, .jobs, .render, .mem, .pos, .fire, .links, .cams, .cal, .time, .axes, .ring, .pair, .loops] s (applyWaiting n s) := by
  induction n generalizing s with
  | zero => exact Keeps.refl _ _
  | succ n ih =>
    unfold applyWaiting
    refine Keeps.ite (fun _ => Keeps.refl _ _) (fun _ => ?_)
    split
    · exact Keeps.refl _ _
    · refine Keeps.then ?_ (ih _) (by decide)
      exact applyMessage_then _ _ _ _ _ (by decide) (fun _ _ _ => KeepsV.mono (messageMeaning_keeps _ _ _ _) (by decide))
        ((Keeps.refl _ _).then (modSession_keeps ..) (by decide))

theorem askAgain_keeps (kind) (first) (count) (s) : Keeps [.pair] s (askAgain kind first count s) := by
  unfold askAgain
  refine Keeps.then ?_ (sendPartner_keeps _ _ _) (by decide)
  exact Keeps.refl _ _

theorem applyHeldMessage_keeps (m) (s) : Keeps [.free, .mod, .power, .flash, .conf, .update, .log, .thermal, .gov, .net, .jobs, .render, .mem, .pos, .fire, .links, .cams, .cal, .time, .axes, .ring, .pair, .loops] s (applyHeldMessage m s) := by
  unfold applyHeldMessage
  split
  ·
    exact Keeps.refl _ _
  ·
    refine applyMessage_then _ _ _ _ _ (by decide) (fun _ _ _ => ?_) ?_
    ·
      refine KeepsV.then ?_ (messageMeaning_keeps _ _ _ _) (by decide)
      exact Keeps.refl _ _
    ·
      exact Keeps.refl _ _

theorem applyHeldOpen_keeps (id) (m) (s) : Keeps [.free, .log, .net, .pair] s (applyHeldOpen id m s) := by
  unfold applyHeldOpen
  try dsimp only
  split
  ·
    refine Keeps.ite (fun _ => ?_) (fun _ => ?_)
    ·
      exact Keeps.refl _ _
    ·
      refine Keeps.then ?_ (openSession_keeps _ _ _ _ _ _ _) (by decide)
      exact Keeps.refl _ _
  ·
    refine Keeps.then ?_ (applyOpen_keeps _ _ _ _ _) (by decide)
    exact Keeps.refl _ _

theorem runOrders_keeps (n s) : Keeps [.free, .mod, .power, .flash, .conf, .update, .log, .thermal, .gov, .net, .jobs, .render, .mem, .pos, .fire, .links, .cams, .cal, .time, .axes, .ring, .pair, .loops] s (runOrders n s) := by
  induction n generalizing s with
  | zero => exact Keeps.refl _ _
  | succ n ih =>
    unfold runOrders
    split
    · exact Keeps.refl _ _
    · dsimp only
      have h1 (v w : Pair) : Keeps [.free, .mod, .power, .flash, .conf, .update, .log, .thermal, .gov, .net, .jobs, .render, .mem, .pos, .fire, .links, .cams, .cal, .time, .axes, .ring, .pair, .loops] s { { s with pair := v } with pair := w } :=
        ((Keeps.refl _ _).then (set_pair_keeps ..) (by decide)).then (set_pair_keeps ..) (by decide)
      split
      · refine Keeps.then ?_ (ih _) (by decide)
        refine Keeps.ite (fun _ => (h1 _ _).then (applyHeldMessage_keeps ..) (by decide)) (fun _ => ?_)
        exact Keeps.ite (fun _ => h1 _ _) (fun _ => (h1 _ _).then (applyHeldOpen_keeps ..) (by decide))
      · split
        · refine Keeps.then ?_ (ih _) (by decide)
          exact ((Keeps.refl _ _).then (set_pair_keeps ..) (by decide)).then (rejectOne_keeps ..) (by decide)
        · refine Keeps.ite (fun _ => ?_) (fun _ => Keeps.refl _ _)
          refine Keeps.ite (fun _ => (Keeps.refl _ _).then (diverge_keeps ..) (by decide)) (fun _ => ?_)
          exact ((Keeps.refl _ _).then (set_pair_keeps ..) (by decide)).then (askAgain_keeps ..) (by decide)

theorem applyAllHeld_keeps (s) : Keeps [.free, .mod, .power, .flash, .conf, .update, .log, .thermal, .gov, .net, .jobs, .render, .mem, .pos, .fire, .links, .cams, .cal, .time, .axes, .ring, .pair, .loops] s (applyAllHeld s) := by
  unfold applyAllHeld
  refine Keeps.then ?_ (applyWaiting_keeps ..) (by decide)
  refine Keeps.forEach (fun _ _ => (Keeps.refl _ _).then (rejectBad_keeps ..) (by decide)) ?_
  refine Keeps.forEach (fun _ _ => ?_) ?_
  · try dsimp only
    refine Keeps.ite (fun _ => (Keeps.refl _ _).then (applyHeldOpen_keeps ..) (by decide)) (fun _ => ?_)
    split
    · exact Keeps.refl _ _
    · exact Keeps.ite (fun _ => (Keeps.refl _ _).then (applyHeldMessage_keeps ..) (by decide))
        (fun _ => (Keeps.refl _ _).then (keepWaiting_keeps ..) (by decide))
  · exact ((Keeps.refl _ _).then (runOrders_keeps ..) (by decide)).then (set_pair_keeps ..) (by decide)

theorem execOwnerFrameDue_keeps (t) (lane) (s) : KeepsO [.fire, .loops] (beginAt t s) (execOwnerFrameDue t lane s) := by
  unfold execOwnerFrameDue
  refine KeepsO.next ?_
  refine Keeps.ite (fun _ => ?_) (fun _ => ?_)
  ·
    refine Keeps.then ?_ (sendOwner_keeps _ _) (by decide)
    exact Keeps.refl _ _
  ·
    exact Keeps.refl _ _

theorem ownerCheck_keeps (k) (f) (s) : Keeps [.log, .net, .fire, .cal, .axes, .ring, .pair] s (ownerCheck k f s) := by
  unfold ownerCheck
  refine Keeps.ite (fun _ => ?_) (fun _ => ?_)
  ·
    exact Keeps.refl _ _
  ·
    refine Keeps.ite (fun _ => ?_) (fun _ => ?_)
    ·
      refine Keeps.then ?_ (raise_keeps _ _ _) (by decide)
      refine Keeps.then ?_ (yieldRing_keeps _) (by decide)
      refine Keeps.then ?_ (stopOutputs_keeps _) (by decide)
      refine Keeps.then ?_ (enterSevered_keeps _ _) (by decide)
      exact Keeps.refl _ _
    ·
      refine Keeps.ite (fun _ => ?_) (fun _ => ?_)
      ·
        refine Keeps.then ?_ (raise_keeps _ _ _) (by decide)
        refine Keeps.then ?_ (set_pair_keeps ..) (by decide)
        exact Keeps.refl _ _
      ·
        exact Keeps.refl _ _

theorem execPllRelock_keeps (t) (pll) (s) : KeepsO [.fire, .links] (beginAt t s) (execPllRelock t pll s) := by
  unfold execPllRelock
  refine KeepsO.ite (fun _ => ?_) (fun _ => ?_)
  ·
    refine KeepsO.next ?_
    exact Keeps.refl _ _
  ·
    refine KeepsO.next ?_
    refine Keeps.forEach (fun _ _ => ?_) ?_
    ·
      refine Keeps.then ?_ (startTraining_keeps _ _) (by decide)
      exact Keeps.refl _ _
    ·
      refine Keeps.then ?_ (set_links_keeps ..) (by decide)
      exact Keeps.refl _ _

theorem downLink_keeps (k) (cause) (s) : Keeps [.free, .mod, .power, .conf, .update, .log, .gov, .net, .jobs, .render, .pos, .fire, .links, .cams, .cal, .axes, .ring, .pair, .loops] s (downLink k cause s) := by
  unfold downLink
  refine Keeps.ite (fun _ => ?_) (fun _ => ?_)
  ·
    refine Keeps.then ?_ (farDown_keeps _ _) (by decide)
    refine Keeps.then ?_ (dropLink_keeps _ _ _) (by decide)
    exact Keeps.refl _ _
  ·
    exact Keeps.refl _ _

theorem execStatusTimeout_keeps (t) (link) (s) : KeepsO [.free, .mod, .power, .conf, .update, .log, .gov, .net, .jobs, .render, .pos, .fire, .links, .cams, .cal, .axes, .ring, .pair, .loops] (beginAt t s) (execStatusTimeout t link s) := by
  unfold execStatusTimeout
  refine KeepsO.next ?_
  refine Keeps.ite (fun _ => ?_) (fun _ => ?_)
  ·
    refine Keeps.then ?_ (downLink_keeps _ _ _) (by decide)
    exact Keeps.refl _ _
  ·
    exact Keeps.refl _ _

theorem execLinkTrainTimeout_keeps (t) (link) (s) : KeepsO [.log, .net, .links] (beginAt t s) (execLinkTrainTimeout t link s) := by
  unfold execLinkTrainTimeout
  refine KeepsO.next ?_
  refine Keeps.ite (fun _ => ?_) (fun _ => ?_)
  ·
    refine Keeps.then ?_ (raise_keeps _ _ _) (by decide)
    refine Keeps.then ?_ (modLink_keeps _ _ _) (by decide)
    exact Keeps.refl _ _
  ·
    exact Keeps.refl _ _

theorem crcEvent_keeps (k n s) : Keeps [.log, .net] s (crcEvent k n s) := by
  unfold crcEvent
  refine Keeps.ite (fun _ => Keeps.refl _ _) (fun _ => ?_)
  split
  · refine Keeps.ite (fun _ => ?_) (fun _ => ?_)
    · exact ((Keeps.refl _ _).then (limits_keeps ..) (by decide)).then (suppress_keeps ..) (by decide)
    · exact ((Keeps.refl _ _).then (limits_keeps ..) (by decide)).then (raise_keeps ..) (by decide)
  · exact ((Keeps.refl _ _).then (limits_keeps ..) (by decide)).then (raise_keeps ..) (by decide)

theorem statusReports_keeps (k) (inverted) (f) (s) : Keeps [.log, .net, .links] s (statusReports k inverted f s) := by
  unfold statusReports
  refine Keeps.ite (fun _ => ?_) (fun _ => ?_)
  ·
    refine Keeps.then ?_ (crcEvent_keeps _ _ _) (by decide)
    refine Keeps.then ?_ (modLink_keeps _ _ _) (by decide)
    exact Keeps.refl _ _
  ·
    refine Keeps.then ?_ (raise_keeps _ _ _) (by decide)
    refine Keeps.then ?_ (crcEvent_keeps _ _ _) (by decide)
    refine Keeps.then ?_ (modLink_keeps _ _ _) (by decide)
    exact Keeps.refl _ _

theorem comeUp_keeps (k) (f) (s) : Keeps [.log, .net, .fire, .links] s (comeUp k f s) := by
  unfold comeUp
  refine Keeps.then ?_ (endTraining_keeps _ _) (by decide)
  refine Keeps.then ?_ (raise_keeps _ _ _) (by decide)
  refine Keeps.then ?_ (modLink_keeps _ _ _) (by decide)
  exact Keeps.refl _ _

theorem trainingEvents_keeps (k) (f) (s) : Keeps [.log, .net, .links] s (trainingEvents k f s) := by
  unfold trainingEvents
  refine Keeps.ite (fun _ => ?_) (fun _ => ?_)
  ·
    refine Keeps.ite (fun _ => ?_) (fun _ => ?_)
    ·
      refine Keeps.then ?_ (modLink_keeps _ _ _) (by decide)
      exact Keeps.refl _ _
    ·
      refine Keeps.then ?_ (raise_keeps _ _ _) (by decide)
      refine Keeps.then ?_ (modLink_keeps _ _ _) (by decide)
      exact Keeps.refl _ _
  ·
    refine Keeps.then ?_ (raise_keeps _ _ _) (by decide)
    refine Keeps.ite (fun _ => ?_) (fun _ => ?_)
    ·
      refine Keeps.then ?_ (modLink_keeps _ _ _) (by decide)
      exact Keeps.refl _ _
    ·
      refine Keeps.then ?_ (raise_keeps _ _ _) (by decide)
      refine Keeps.then ?_ (modLink_keeps _ _ _) (by decide)
      exact Keeps.refl _ _

theorem trainingFrame_keeps (k) (f) (s) : Keeps [.log, .net, .fire, .links] s (trainingFrame k f s) := by
  unfold trainingFrame
  refine Keeps.ite (fun _ => ?_) (fun _ => ?_)
  ·
    refine Keeps.ite (fun _ => ?_) (fun _ => ?_)
    ·
      refine Keeps.then ?_ (comeUp_keeps _ _ _) (by decide)
      refine Keeps.then ?_ (trainingEvents_keeps _ _ _) (by decide)
      exact Keeps.refl _ _
    ·
      refine Keeps.then ?_ (modLink_keeps _ _ _) (by decide)
      refine Keeps.then ?_ (trainingEvents_keeps _ _ _) (by decide)
      exact Keeps.refl _ _
  ·
    refine Keeps.then ?_ (modLink_keeps _ _ _) (by decide)
    refine Keeps.then ?_ (trainingEvents_keeps _ _ _) (by decide)
    exact Keeps.refl _ _

theorem execLinkUpLost_keeps (t) (link) (since) (s) : KeepsO [.free, .mod, .power, .conf, .update, .log, .gov, .net, .jobs, .render, .pos, .fire, .links, .cams, .cal, .axes, .ring, .pair, .loops] (beginAt t s) (execLinkUpLost t link since s) := by
  unfold execLinkUpLost
  refine KeepsO.next ?_
  refine Keeps.ite (fun _ => ?_) (fun _ => ?_)
  ·
    refine Keeps.then ?_ (downLink_keeps _ _ _) (by decide)
    exact Keeps.refl _ _
  ·
    exact Keeps.refl _ _

theorem execLinkStatusFrame_keeps (t) (link) (inverted) (between) (frame) (s) : KeepsO [.free, .mod, .power, .conf, .update, .log, .gov, .net, .jobs, .render, .pos, .fire, .links, .cams, .cal, .axes, .ring, .pair, .loops] (beginAt t s) (execLinkStatusFrame t link inverted between frame s) := by
  unfold execLinkStatusFrame
  refine KeepsO.ite (fun _ => ?_) (fun _ => ?_)
  ·
    refine KeepsO.next ?_
    exact Keeps.refl _ _
  ·
    try dsimp only
    split
    ·
      refine KeepsO.next ?_
      refine Keeps.ite (fun _ => ?_) (fun _ => ?_)
      ·
        refine Keeps.then ?_ (modLink_keeps _ _ _) (by decide)
        exact Keeps.refl _ _
      ·
        refine Keeps.then ?_ (modLink_keeps _ _ _) (by decide)
        refine Keeps.then ?_ (modLink_keeps _ _ _) (by decide)
        exact Keeps.refl _ _
    ·
      try dsimp only
      split
      ·
        refine KeepsO.next ?_
        refine Keeps.ite (fun _ => ?_) (fun _ => ?_)
        ·
          refine Keeps.then ?_ (farStatus_keeps _ _ _) (by decide)
          refine Keeps.then ?_ (ownerCheck_keeps _ _ _) (by decide)
          refine Keeps.then ?_ (statusReports_keeps _ _ _ _) (by decide)
          refine Keeps.then ?_ (modLink_keeps _ _ _) (by decide)
          exact Keeps.refl _ _
        ·
          refine Keeps.then ?_ (trainingEvents_keeps _ _ _) (by decide)
          refine Keeps.then ?_ (downLink_keeps _ _ _) (by decide)
          refine Keeps.then ?_ (statusReports_keeps _ _ _ _) (by decide)
          refine Keeps.then ?_ (modLink_keeps _ _ _) (by decide)
          exact Keeps.refl _ _
      ·
        refine KeepsO.next ?_
        refine Keeps.then ?_ (ownerCheck_keeps _ _ _) (by decide)
        refine Keeps.then ?_ (trainingFrame_keeps _ _ _) (by decide)
        refine Keeps.then ?_ (statusReports_keeps _ _ _ _) (by decide)
        refine Keeps.then ?_ (modLink_keeps _ _ _) (by decide)
        exact Keeps.refl _ _
      ·
        refine KeepsO.next ?_
        refine Keeps.then ?_ (statusReports_keeps _ _ _ _) (by decide)
        refine Keeps.then ?_ (modLink_keeps _ _ _) (by decide)
        exact Keeps.refl _ _
      ·
        refine KeepsO.next ?_
        refine Keeps.then ?_ (statusReports_keeps _ _ _ _) (by decide)
        refine Keeps.then ?_ (modLink_keeps _ _ _) (by decide)
        exact Keeps.refl _ _

theorem execPllUnlock_keeps (t) (pll) (s) : KeepsO [.free, .mod, .power, .conf, .update, .log, .gov, .net, .jobs, .render, .pos, .fire, .links, .cams, .cal, .axes, .ring, .pair, .loops] (beginAt t s) (execPllUnlock t pll s) := by
  unfold execPllUnlock
  refine KeepsO.ite (fun _ => ?_) (fun _ => ?_)
  ·
    refine KeepsO.next ?_
    exact Keeps.refl _ _
  ·
    refine KeepsO.next ?_
    refine Keeps.forEach (fun _ _ => ?_) ?_
    ·
      refine Keeps.then ?_ (downLink_keeps _ _ _) (by decide)
      exact Keeps.refl _ _
    ·
      refine Keeps.then ?_ (set_links_keeps ..) (by decide)
      exact Keeps.refl _ _

theorem copyPageStreams_keeps (id) (offset) (d) (s) : Keeps [.log, .net, .jobs, .cal, .pair] s (copyPageStreams id offset d s) := by
  unfold copyPageStreams
  refine Keeps.ite (fun _ => ?_) (fun _ => ?_)
  ·
    refine Keeps.then ?_ (compareSignature_keeps _ _) (by decide)
    refine Keeps.then ?_ (sendSignature_keeps _ _) (by decide)
    refine Keeps.then ?_ (modPage_keeps _ _ _) (by decide)
    exact Keeps.refl _ _
  ·
    refine Keeps.then ?_ (modPage_keeps _ _ _) (by decide)
    exact Keeps.refl _ _

theorem clearReading_keeps (s) : Keeps [.fire] s (clearReading s) := by
  unfold clearReading
  refine Keeps.then ?_ (set_fire_keeps ..) (by decide)
  exact Keeps.refl _ _

theorem execCatchupDone_keeps (t) (s) : KeepsO [.log, .net, .cal, .pair] (beginAt t s) (execCatchupDone t s) := by
  unfold execCatchupDone
  refine KeepsO.next ?_
  refine Keeps.ite (fun _ => ?_) (fun _ => ?_)
  ·
    refine Keeps.then ?_ (tryStandby_keeps _) (by decide)
    refine Keeps.then ?_ (set_pair_keeps ..) (by decide)
    exact Keeps.refl _ _
  ·
    exact Keeps.refl _ _

theorem noteCopies_keeps (s) : Keeps [.pair] s (noteCopies s) := by
  unfold noteCopies
  refine Keeps.then ?_ (set_pair_keeps ..) (by decide)
  exact Keeps.refl _ _

theorem sendCopy_keeps (s) : Keeps [.free, .pair] s (sendCopy s) := by
  unfold sendCopy
  split
  ·
    exact Keeps.refl _ _
  ·
    refine Keeps.ite (fun _ => ?_) (fun _ => ?_)
    ·
      exact Keeps.refl _ _
    ·
      refine Keeps.then ?_ (sendPartner_keeps _ _ _) (by decide)
      refine Keeps.then ?_ (drawFree_keeps _) (by decide)
      refine Keeps.then ?_ (set_pair_keeps ..) (by decide)
      exact Keeps.refl _ _

theorem copyOut_keeps (s) : Keeps [.free, .pair] s (copyOut s) := by
  unfold copyOut
  refine Keeps.ite (fun _ => ?_) (fun _ => ?_)
  ·
    refine Keeps.then ?_ (sendCopy_keeps _) (by decide)
    refine Keeps.then ?_ (noteCopies_keeps _) (by decide)
    exact Keeps.refl _ _
  ·
    refine Keeps.then ?_ (set_pair_keeps ..) (by decide)
    exact Keeps.refl _ _

theorem copyObject_keeps (kind) (id) (offset) (d) (s) : Keeps [.log, .net, .jobs, .fire, .cal, .pair] s (copyObject kind id offset d s) := by
  unfold copyObject
  split
  ·
    refine Keeps.then ?_ (set_jobs_keeps ..) (by decide)
    exact Keeps.refl _ _
  ·
    refine Keeps.then ?_ (set_jobs_keeps ..) (by decide)
    exact Keeps.refl _ _
  ·
    refine Keeps.then ?_ (set_jobs_keeps ..) (by decide)
    exact Keeps.refl _ _
  ·
    refine Keeps.then ?_ (set_jobs_keeps ..) (by decide)
    exact Keeps.refl _ _
  ·
    refine Keeps.then ?_ (copyPageStreams_keeps _ _ _ _) (by decide)
    exact Keeps.refl _ _
  ·
    refine Keeps.then ?_ (noteTicket_keeps _ _) (by decide)
    refine Keeps.then ?_ (set_net_keeps ..) (by decide)
    exact Keeps.refl _ _
  ·
    refine Keeps.then ?_ (modSession_keeps _ _ _) (by decide)
    exact Keeps.refl _ _
  ·
    refine Keeps.then ?_ (set_cal_keeps ..) (by decide)
    exact Keeps.refl _ _
  ·
    split
    ·
      refine Keeps.forEach (fun _ _ => ?_) ?_
      ·
        refine Keeps.then ?_ (beginReading_keeps _ _) (by decide)
        exact Keeps.refl _ _
      ·
        refine Keeps.then ?_ (clearReading_keeps _) (by decide)
        refine Keeps.then ?_ (modArmed_keeps _ _) (by decide)
        refine Keeps.then ?_ (set_jobs_pair_keeps ..) (by decide)
        exact Keeps.refl _ _
    ·
      exact Keeps.refl _ _
  ·
    exact Keeps.refl _ _

theorem execCopy_keeps (t) (body) (s) : KeepsO [.free, .log, .net, .jobs, .fire, .cal, .pair] (beginAt t s) (execCopy t body s) := by
  unfold execCopy
  refine KeepsO.next ?_
  refine Keeps.ite (fun _ => ?_) (fun _ => ?_)
  ·
    exact Keeps.refl _ _
  ·
    refine Keeps.then ?_ (tryStandby_keeps _) (by decide)
    refine Keeps.then ?_ (drawFree_keeps _) (by decide)
    refine Keeps.then ?_ (set_pair_keeps ..) (by decide)
    refine Keeps.then ?_ (copyObject_keeps _ _ _ _ _) (by decide)
    exact Keeps.refl _ _

theorem execSlotReleasePoint_keeps (t) (s) : KeepsO [.mod, .power, .conf, .update, .log, .gov, .net, .jobs, .render, .pos, .fire, .cams, .cal, .ring, .pair] (beginAt t s) (execSlotReleasePoint t s) := by
  unfold execSlotReleasePoint
  refine KeepsO.next ?_
  refine Keeps.then ?_ (decideSlot_keeps _) (by decide)
  exact Keeps.refl _ _

theorem leaveHalted_keeps (s) : Keeps [.mod, .power, .conf, .update, .log, .gov, .net, .jobs, .pos, .fire, .cams, .cal, .ring, .pair] s (leaveHalted s) := by
  unfold leaveHalted
  refine Keeps.ite (fun _ => ?_) (fun _ => ?_)
  ·
    refine Keeps.then ?_ (enterIdle_keeps _ _) (by decide)
    exact Keeps.refl _ _
  ·
    exact Keeps.refl _ _

theorem execHaltInDeasserted_keeps (t) (s) : KeepsO [.mod, .power, .conf, .update, .log, .gov, .net, .jobs, .pos, .fire, .cams, .cal, .ring, .pair] (beginAt t s) (execHaltInDeasserted t s) := by
  unfold execHaltInDeasserted
  refine KeepsO.next ?_
  refine Keeps.then ?_ (leaveHalted_keeps _) (by decide)
  refine Keeps.then ?_ (set_mod_keeps ..) (by decide)
  exact Keeps.refl _ _

theorem haltAllBars_keeps (cause) (allCause) (s) : Keeps [.mod, .log, .net, .jobs, .render, .pos, .fire, .cams, .cal, .axes, .ring] s (haltAllBars cause allCause s) := by
  unfold haltAllBars
  refine Keeps.then ?_ (enterHalted_keeps _ _) (by decide)
  refine Keeps.forEach (fun _ _ => ?_) ?_
  ·
    refine Keeps.then ?_ (haltBar_keeps _ _ _ _) (by decide)
    exact Keeps.refl _ _
  ·
    exact Keeps.refl _ _

theorem execHaltInAsserted_keeps (t) (s) : KeepsO [.mod, .log, .net, .jobs, .render, .pos, .fire, .links, .cams, .cal, .axes, .ring, .pair] (beginAt t s) (execHaltInAsserted t s) := by
  unfold execHaltInAsserted
  refine KeepsO.next ?_
  refine Keeps.ite (fun _ => ?_) (fun _ => ?_)
  ·
    refine Keeps.then ?_ (haltAllBars_keeps _ _ _) (by decide)
    refine Keeps.then ?_ (barsFirst_keeps _ _) (by decide)
    refine Keeps.then ?_ (set_mod_keeps ..) (by decide)
    exact Keeps.refl _ _
  ·
    refine Keeps.then ?_ (set_mod_keeps ..) (by decide)
    exact Keeps.refl _ _

theorem execFireUnderrun_keeps (t) (lane) (s) : KeepsO [.mod, .power, .conf, .update, .log, .gov, .net, .jobs, .render, .pos, .fire, .links, .cams, .cal, .axes, .ring, .pair] (beginAt t s) (execFireUnderrun t lane s) := by
  unfold execFireUnderrun
  try dsimp only
  split
  ·
    refine KeepsO.ite (fun _ => ?_) (fun _ => ?_)
    ·
      refine KeepsO.next ?_
      refine Keeps.then ?_ (ownDamage_keeps _ _ _ _ _ _) (by decide)
      refine Keeps.then ?_ (putSymbols_keeps _ _ _ _) (by decide)
      refine Keeps.then ?_ (modBar_keeps _ _ _) (by decide)
      refine Keeps.then ?_ (modLane_keeps _ _ _) (by decide)
      exact Keeps.refl _ _
    ·
      refine KeepsO.next ?_
      exact Keeps.refl _ _
  ·
    refine KeepsO.next ?_
    exact Keeps.refl _ _

theorem execLinePacketComplete_keeps (t) (bar) (s) : KeepsO [.fire] (beginAt t s) (execLinePacketComplete t bar s) := by
  unfold execLinePacketComplete
  refine KeepsO.next ?_
  refine Keeps.then ?_ (modBar_keeps _ _ _) (by decide)
  exact Keeps.refl _ _

theorem execOverspeedClear_keeps (t) (s) : KeepsO [.log, .net, .fire] (beginAt t s) (execOverspeedClear t s) := by
  unfold execOverspeedClear
  refine KeepsO.next ?_
  refine Keeps.ite (fun _ => ?_) (fun _ => ?_)
  ·
    refine Keeps.then ?_ (raise_keeps _ _ _) (by decide)
    refine Keeps.then ?_ (set_fire_keeps ..) (by decide)
    refine Keeps.then ?_ (updateOverspeed_keeps _) (by decide)
    exact Keeps.refl _ _
  ·
    refine Keeps.then ?_ (updateOverspeed_keeps _) (by decide)
    exact Keeps.refl _ _

theorem execLineTrigger_keeps (t) (bar) (s) : KeepsO [.mod, .power, .conf, .update, .log, .gov, .net, .jobs, .pos, .fire, .links, .cams, .cal, .ring, .pair] (beginAt t s) (execLineTrigger t bar s) := by
  unfold execLineTrigger
  refine KeepsO.next ?_
  refine Keeps.then ?_ (settle_keeps _) (by decide)
  refine Keeps.then ?_ (handleDue_keeps _ _) (by decide)
  exact Keeps.refl _ _

theorem execFireDecodeError_keeps (t) (lane) (block) (s) : KeepsO [.mod, .power, .conf, .update, .log, .gov, .net, .jobs, .render, .pos, .fire, .links, .cams, .cal, .axes, .ring, .pair] (beginAt t s) (execFireDecodeError t lane block s) := by
  unfold execFireDecodeError
  try dsimp only
  split
  ·
    refine KeepsO.next ?_
    exact Keeps.refl _ _
  ·
    split
    ·
      refine KeepsO.next ?_
      refine Keeps.then ?_ (ownDamage_keeps _ _ _ _ _ _) (by decide)
      refine Keeps.then ?_ (modBar_keeps _ _ _) (by decide)
      refine Keeps.then ?_ (raise_keeps _ _ _) (by decide)
      refine Keeps.then ?_ (modSlot_keeps _ _ _) (by decide)
      refine Keeps.then ?_ (set_render_keeps ..) (by decide)
      exact Keeps.refl _ _
    ·
      refine KeepsO.next ?_
      exact Keeps.refl _ _

theorem execHaltRepeat_keeps (t) (bar) (s) : KeepsO [.fire] (beginAt t s) (execHaltRepeat t bar s) := by
  unfold execHaltRepeat
  refine KeepsO.next ?_
  refine Keeps.ite (fun _ => ?_) (fun _ => ?_)
  ·
    refine Keeps.then ?_ (sendHalt_keeps _ _) (by decide)
    exact Keeps.refl _ _
  ·
    exact Keeps.refl _ _

theorem execDeferredFireSync_keeps (t) (bar) (s) : KeepsO [.mod, .power, .conf, .update, .log, .gov, .net, .jobs, .pos, .fire, .links, .cams, .cal, .ring, .pair] (beginAt t s) (execDeferredFireSync t bar s) := by
  unfold execDeferredFireSync
  refine KeepsO.next ?_
  refine Keeps.then ?_ (settle_keeps _) (by decide)
  refine Keeps.then ?_ (insertDue_keeps _ _) (by decide)
  exact Keeps.refl _ _

theorem tableByToken_keeps (body) (s) : Keeps [.log, .net, .jobs, .cams, .cal, .pair] s (tableByToken body s) := by
  unfold tableByToken
  refine Keeps.ite (fun _ => ?_) (fun _ => ?_)
  ·
    refine Keeps.then ?_ (answerRunNow_keeps _ _ _) (by decide)
    refine Keeps.then ?_ (applyTap_keeps _ _ _) (by decide)
    refine Keeps.then ?_ (set_pair_keeps ..) (by decide)
    exact Keeps.refl _ _
  ·
    refine Keeps.then ?_ (set_pair_keeps ..) (by decide)
    exact Keeps.refl _ _

theorem tapByToken_keeps (body) (s) : Keeps [.log, .net, .jobs, .cams, .cal, .pair] s (tapByToken body s) := by
  unfold tapByToken
  refine Keeps.ite (fun _ => ?_) (fun _ => ?_)
  ·
    refine Keeps.then ?_ (changeover_keeps _) (by decide)
    exact Keeps.refl _ _
  ·
    refine Keeps.ite (fun _ => ?_) (fun _ => ?_)
    ·
      refine Keeps.then ?_ (tableByToken_keeps _ _) (by decide)
      exact Keeps.refl _ _
    ·
      refine Keeps.ite (fun _ => ?_) (fun _ => ?_)
      ·
        refine Keeps.then ?_ (answerRunNow_keeps _ _ _) (by decide)
        refine Keeps.then ?_ (applyTap_keeps _ _ _) (by decide)
        exact Keeps.refl _ _
      ·
        exact Keeps.refl _ _

theorem noteArm_keeps (s) : Keeps [.log, .net, .cal, .pair] s (noteArm s) := by
  unfold noteArm
  refine Keeps.ite (fun _ => ?_) (fun _ => ?_)
  ·
    refine Keeps.then ?_ (tryStandby_keeps _) (by decide)
    refine Keeps.then ?_ (set_pair_keeps ..) (by decide)
    exact Keeps.refl _ _
  ·
    exact Keeps.refl _ _

theorem closeRunNow_keeps (ticket) (s) : Keeps [.net, .cal, .pair] s (closeRunNow ticket s) := by
  unfold closeRunNow
  split
  ·
    exact Keeps.refl _ _
  ·
    refine Keeps.then ?_ (finishResult_keeps _ _ _) (by decide)
    refine Keeps.then ?_ (set_cal_keeps ..) (by decide)
    exact Keeps.refl _ _

theorem axisByToken_keeps (body) (s) : Keeps [.log, .net, .pos, .axes, .pair] s (axisByToken body s) := by
  unfold axisByToken
  try dsimp only
  split
  ·
    refine Keeps.then ?_ (axisFault_keeps _ _ _) (by decide)
    exact Keeps.refl _ _
  ·
    refine Keeps.then ?_ (estopByToken_keeps _ _ _) (by decide)
    exact Keeps.refl _ _
  ·
    refine Keeps.then ?_ (modAxis_keeps _ _ _) (by decide)
    exact Keeps.refl _ _
  ·
    refine Keeps.then ?_ (startChange_keeps _ _ _) (by decide)
    exact Keeps.refl _ _
  ·
    exact Keeps.refl _ _

theorem coastByToken_keeps (b) (s) : Keeps [.log, .net, .pos] s (coastByToken b s) := by
  unfold coastByToken
  split
  ·
    exact Keeps.refl _ _
  ·
    try dsimp only
    split
    ·
      refine Keeps.then ?_ (modInput_keeps _ _ _) (by decide)
      exact Keeps.refl _ _
    ·
      refine Keeps.then ?_ (modInput_keeps _ _ _) (by decide)
      refine Keeps.then ?_ (raise_keeps _ _ _) (by decide)
      exact Keeps.refl _ _

theorem barByToken_keeps (body) (s) : Keeps [.mod, .power, .conf, .update, .log, .gov, .net, .jobs, .render, .pos, .fire, .links, .cams, .cal, .axes, .ring, .pair] s (barByToken body s) := by
  unfold barByToken
  try dsimp only
  split
  ·
    refine Keeps.then ?_ (settle_keeps _) (by decide)
    refine Keeps.then ?_ (applyDrop_keeps _ _ _) (by decide)
    exact Keeps.refl _ _
  ·
    refine Keeps.then ?_ (putPause_keeps _ _ _) (by decide)
    exact Keeps.refl _ _
  ·
    refine Keeps.then ?_ (putPause_keeps _ _ _) (by decide)
    exact Keeps.refl _ _
  ·
    refine Keeps.then ?_ (applyInhibit_keeps _ _) (by decide)
    exact Keeps.refl _ _
  ·
    refine Keeps.ite (fun _ => ?_) (fun _ => ?_)
    ·
      refine Keeps.then ?_ (raise_keeps _ _ _) (by decide)
      refine Keeps.then ?_ (modBar_keeps _ _ _) (by decide)
      exact Keeps.refl _ _
    ·
      exact Keeps.refl _ _
  ·
    refine Keeps.then ?_ (haltBars_keeps _ _ _ _ _) (by decide)
    exact Keeps.refl _ _
  ·
    refine Keeps.then ?_ (applyDamage_keeps _ _ _ _ _ _) (by decide)
    exact Keeps.refl _ _
  ·
    refine Keeps.then ?_ (coastByToken_keeps _ _) (by decide)
    exact Keeps.refl _ _
  ·
    exact Keeps.refl _ _

theorem resultByToken_keeps (body) (s) : Keeps [.net, .cal, .pair] s (resultByToken body s) := by
  unfold resultByToken
  refine Keeps.then ?_ (timeResult_keeps _ _ _) (by decide)
  refine Keeps.then ?_ (closeRunNow_keeps _ _) (by decide)
  refine Keeps.ite (fun _ => ?_) (fun _ => ?_)
  ·
    refine Keeps.then ?_ (set_net_keeps ..) (by decide)
    exact Keeps.refl _ _
  ·
    exact Keeps.refl _ _

theorem releaseByToken_keeps (body) (s) : Keeps [.mod, .power, .conf, .update, .log, .gov, .net, .jobs, .render, .pos, .fire, .cams, .cal, .ring, .pair] s (releaseByToken body s) := by
  unfold releaseByToken
  refine Keeps.ite (fun _ => ?_) (fun _ => ?_)
  ·
    refine Keeps.then ?_ (applyRelease_keeps _ _ _ _) (by decide)
    exact Keeps.refl _ _
  ·
    refine Keeps.then ?_ (dropToCatchup_keeps _) (by decide)
    refine Keeps.then ?_ (applyRelease_keeps _ _ _ _) (by decide)
    exact Keeps.refl _ _

theorem armByToken_keeps (body) (s) : Keeps [.mod, .power, .conf, .update, .log, .gov, .net, .jobs, .render, .pos, .fire, .links, .cams, .cal, .axes, .ring, .pair] s (armByToken body s) := by
  unfold armByToken
  split
  ·
    exact Keeps.refl _ _
  ·
    refine Keeps.ite (fun _ => ?_) (fun _ => ?_)
    ·
      refine Keeps.then ?_ (armPending_keeps _ _ _ _) (by decide)
      exact Keeps.refl _ _
    ·
      refine Keeps.ite (fun _ => ?_) (fun _ => ?_)
      ·
        refine Keeps.then ?_ (armRun_keeps _ _ _ _ _ _) (by decide)
        exact Keeps.refl _ _
      ·
        exact Keeps.refl _ _

theorem applyToken_keeps (kind) (body) (s) : Keeps [.mod, .power, .conf, .update, .log, .gov, .net, .jobs, .render, .pos, .fire, .links, .cams, .cal, .axes, .ring, .pair] s (applyToken kind body s) := by
  unfold applyToken
  split
  ·
    refine Keeps.then ?_ (noteArm_keeps _) (by decide)
    refine Keeps.then ?_ (armByToken_keeps _ _) (by decide)
    exact Keeps.refl _ _
  ·
    refine Keeps.then ?_ (releaseByToken_keeps _ _) (by decide)
    exact Keeps.refl _ _
  ·
    refine Keeps.then ?_ (applyNotReady_keeps _ _ _) (by decide)
    exact Keeps.refl _ _
  ·
    refine Keeps.then ?_ (applyGovernorToken_keeps _ _) (by decide)
    exact Keeps.refl _ _
  ·
    refine Keeps.then ?_ (tapByToken_keeps _ _) (by decide)
    exact Keeps.refl _ _
  ·
    refine Keeps.then ?_ (resultByToken_keeps _ _) (by decide)
    exact Keeps.refl _ _
  ·
    refine Keeps.then ?_ (applyRing_keeps _ _ _) (by decide)
    exact Keeps.refl _ _
  ·
    refine Keeps.then ?_ (barByToken_keeps _ _) (by decide)
    exact Keeps.refl _ _
  ·
    refine Keeps.then ?_ (issueCommand_keeps _ _ _ _ _) (by decide)
    exact Keeps.refl _ _
  ·
    refine Keeps.then ?_ (axisByToken_keeps _ _) (by decide)
    exact Keeps.refl _ _
  ·
    exact Keeps.refl _ _

theorem askGap_keeps (s) : Keeps [.pair] s (askGap s) := by
  unfold askGap
  refine Keeps.ite (fun _ => ?_) (fun _ => ?_)
  ·
    refine Keeps.then ?_ (set_pair_keeps ..) (by decide)
    exact Keeps.refl _ _
  ·
    refine Keeps.ite (fun _ => ?_) (fun _ => ?_)
    ·
      exact Keeps.refl _ _
    ·
      refine Keeps.then ?_ (askAgain_keeps _ _ _ _) (by decide)
      refine Keeps.then ?_ (set_pair_keeps ..) (by decide)
      exact Keeps.refl _ _

theorem applyAhead_keeps (n s) : Keeps [.mod, .power, .conf, .update, .log, .gov, .net, .jobs, .render, .pos, .fire, .links, .cams, .cal, .axes, .ring, .pair] s (applyAhead n s) := by
  induction n generalizing s with
  | zero => exact Keeps.refl _ _
  | succ n ih =>
    unfold applyAhead
    split
    · exact (Keeps.refl _ _).then (askGap_keeps ..) (by decide)
    · exact (((Keeps.refl _ _).then (set_pair_keeps ..) (by decide)).then (applyToken_keeps ..) (by decide)).then (ih _) (by decide)

theorem takeToken_keeps (kind) (seq) (body) (s) : Keeps [.mod, .power, .conf, .update, .log, .gov, .net, .jobs, .render, .pos, .fire, .links, .cams, .cal, .axes, .ring, .pair] s (takeToken kind seq body s) := by
  unfold takeToken
  refine Keeps.ite (fun _ => ?_) (fun _ => ?_)
  ·
    exact Keeps.refl _ _
  ·
    refine Keeps.ite (fun _ => ?_) (fun _ => ?_)
    ·
      refine Keeps.then ?_ (applyAhead_keeps _ _) (by decide)
      refine Keeps.then ?_ (applyToken_keeps _ _ _) (by decide)
      refine Keeps.then ?_ (set_pair_keeps ..) (by decide)
      exact Keeps.refl _ _
    ·
      refine Keeps.ite (fun _ => ?_) (fun _ => ?_)
      ·
        exact Keeps.refl _ _
      ·
        refine Keeps.ite (fun _ => ?_) (fun _ => ?_)
        ·
          refine Keeps.then ?_ (set_pair_keeps ..) (by decide)
          exact Keeps.refl _ _
        ·
          refine Keeps.then ?_ (askGap_keeps _) (by decide)
          refine Keeps.then ?_ (set_pair_keeps ..) (by decide)
          exact Keeps.refl _ _

theorem execTokenResult_keeps (t) (seq) (body) (s) : KeepsO [.mod, .power, .conf, .update, .log, .gov, .net, .jobs, .render, .pos, .fire, .links, .cams, .cal, .axes, .ring, .pair] (beginAt t s) (execTokenResult t seq body s) := by
  unfold execTokenResult
  refine KeepsO.next ?_
  refine Keeps.then ?_ (takeToken_keeps _ _ _ _) (by decide)
  exact Keeps.refl _ _

theorem applyDecision_keeps (seq) (d) (s) : Keeps [.mod, .power, .conf, .update, .log, .gov, .net, .jobs, .render, .pos, .fire, .links, .cams, .cal, .axes, .ring, .pair] s (applyDecision seq d s) := by
  unfold applyDecision
  split
  ·
    split
    ·
      refine Keeps.then ?_ (armByToken_keeps _ _) (by decide)
      exact Keeps.refl _ _
    ·
      exact Keeps.refl _ _
  ·
    refine Keeps.then ?_ (applyRelease_keeps _ _ _ _) (by decide)
    exact Keeps.refl _ _
  ·
    refine Keeps.then ?_ (retryHold_keeps _) (by decide)
    refine Keeps.then ?_ (applyNotReady_keeps _ _ _) (by decide)
    exact Keeps.refl _ _
  ·
    refine Keeps.then ?_ (timeResult_keeps _ _ _) (by decide)
    exact Keeps.refl _ _
  ·
    refine Keeps.then ?_ (issueCommand_keeps _ _ _ _ _) (by decide)
    exact Keeps.refl _ _
  ·
    refine Keeps.then ?_ (applyTap_keeps _ _ _) (by decide)
    exact Keeps.refl _ _
  ·
    refine Keeps.then ?_ (applyRing_keeps _ _ _) (by decide)
    exact Keeps.refl _ _
  ·
    refine Keeps.then ?_ (changeover_keeps _) (by decide)
    exact Keeps.refl _ _
  ·
    refine Keeps.then ?_ (goStop_keeps _) (by decide)
    exact Keeps.refl _ _

theorem takeEffect_keeps (p) (s) : Keeps [.mod, .power, .conf, .update, .log, .gov, .net, .jobs, .render, .pos, .fire, .links, .cams, .cal, .axes, .ring, .pair] s (takeEffect p s) := by
  unfold takeEffect
  refine Keeps.forEach (fun _ _ => ?_) ?_
  ·
    refine Keeps.then ?_ (applyDecision_keeps _ _ _) (by decide)
    exact Keeps.refl _ _
  ·
    refine Keeps.then ?_ (set_pair_keeps ..) (by decide)
    exact Keeps.refl _ _

theorem acknowledgeAll_keeps (s) : Keeps [.mod, .power, .conf, .update, .log, .gov, .net, .jobs, .render, .pos, .fire, .links, .cams, .cal, .axes, .ring, .pair] s (acknowledgeAll s) := by
  unfold acknowledgeAll
  refine Keeps.then ?_ (takeEffect_keeps _ _) (by decide)
  exact Keeps.refl _ _

theorem execTokenBar_keeps (t) (seq) (body) (s) : KeepsO [.mod, .power, .conf, .update, .log, .gov, .net, .jobs, .render, .pos, .fire, .links, .cams, .cal, .axes, .ring, .pair] (beginAt t s) (execTokenBar t seq body s) := by
  unfold execTokenBar
  refine KeepsO.next ?_
  refine Keeps.then ?_ (takeToken_keeps _ _ _ _) (by decide)
  exact Keeps.refl _ _

theorem execTokenArm_keeps (t) (seq) (body) (s) : KeepsO [.mod, .power, .conf, .update, .log, .gov, .net, .jobs, .render, .pos, .fire, .links, .cams, .cal, .axes, .ring, .pair] (beginAt t s) (execTokenArm t seq body s) := by
  unfold execTokenArm
  refine KeepsO.next ?_
  refine Keeps.then ?_ (takeToken_keeps _ _ _ _) (by decide)
  exact Keeps.refl _ _

theorem acknowledge_keeps (seq) (s) : Keeps [.mod, .power, .conf, .update, .log, .gov, .net, .jobs, .render, .pos, .fire, .links, .cams, .cal, .axes, .ring, .pair] s (acknowledge seq s) := by
  unfold acknowledge
  refine Keeps.then ?_ (takeEffect_keeps _ _) (by decide)
  exact Keeps.refl _ _

theorem execTokenCamera_keeps (t) (seq) (body) (s) : KeepsO [.mod, .power, .conf, .update, .log, .gov, .net, .jobs, .render, .pos, .fire, .links, .cams, .cal, .axes, .ring, .pair] (beginAt t s) (execTokenCamera t seq body s) := by
  unfold execTokenCamera
  refine KeepsO.next ?_
  refine Keeps.then ?_ (takeToken_keeps _ _ _ _) (by decide)
  exact Keeps.refl _ _

theorem execTokenRing_keeps (t) (seq) (body) (s) : KeepsO [.mod, .power, .conf, .update, .log, .gov, .net, .jobs, .render, .pos, .fire, .links, .cams, .cal, .axes, .ring, .pair] (beginAt t s) (execTokenRing t seq body s) := by
  unfold execTokenRing
  refine KeepsO.next ?_
  refine Keeps.then ?_ (takeToken_keeps _ _ _ _) (by decide)
  exact Keeps.refl _ _

theorem execTokenRelease_keeps (t) (seq) (body) (s) : KeepsO [.mod, .power, .conf, .update, .log, .gov, .net, .jobs, .render, .pos, .fire, .links, .cams, .cal, .axes, .ring, .pair] (beginAt t s) (execTokenRelease t seq body s) := by
  unfold execTokenRelease
  refine KeepsO.next ?_
  refine Keeps.then ?_ (takeToken_keeps _ _ _ _) (by decide)
  exact Keeps.refl _ _

theorem execTokenChangeover_keeps (t) (seq) (body) (s) : KeepsO [.mod, .power, .conf, .update, .log, .gov, .net, .jobs, .render, .pos, .fire, .links, .cams, .cal, .axes, .ring, .pair] (beginAt t s) (execTokenChangeover t seq body s) := by
  unfold execTokenChangeover
  refine KeepsO.next ?_
  refine Keeps.ite (fun _ => ?_) (fun _ => ?_)
  ·
    refine Keeps.then ?_ (takeToken_keeps _ _ _ _) (by decide)
    exact Keeps.refl _ _
  ·
    exact Keeps.refl _ _

theorem execTokenAxis_keeps (t) (seq) (body) (s) : KeepsO [.mod, .power, .conf, .update, .log, .gov, .net, .jobs, .render, .pos, .fire, .links, .cams, .cal, .axes, .ring, .pair] (beginAt t s) (execTokenAxis t seq body s) := by
  unfold execTokenAxis
  refine KeepsO.next ?_
  refine Keeps.then ?_ (takeToken_keeps _ _ _ _) (by decide)
  exact Keeps.refl _ _

theorem execTokenNotReady_keeps (t) (seq) (body) (s) : KeepsO [.mod, .power, .conf, .update, .log, .gov, .net, .jobs, .render, .pos, .fire, .links, .cams, .cal, .axes, .ring, .pair] (beginAt t s) (execTokenNotReady t seq body s) := by
  unfold execTokenNotReady
  refine KeepsO.next ?_
  refine Keeps.then ?_ (takeToken_keeps _ _ _ _) (by decide)
  exact Keeps.refl _ _

theorem execTokenGapTimeout_keeps (t) (s) : KeepsO [.log, .net, .cal, .pair] (beginAt t s) (execTokenGapTimeout t s) := by
  unfold execTokenGapTimeout
  refine KeepsO.next ?_
  refine Keeps.ite (fun _ => ?_) (fun _ => ?_)
  ·
    refine Keeps.then ?_ (diverge_keeps _ _) (by decide)
    exact Keeps.refl _ _
  ·
    exact Keeps.refl _ _

theorem execTokenTap_keeps (t) (seq) (body) (s) : KeepsO [.mod, .power, .conf, .update, .log, .gov, .net, .jobs, .render, .pos, .fire, .links, .cams, .cal, .axes, .ring, .pair] (beginAt t s) (execTokenTap t seq body s) := by
  unfold execTokenTap
  refine KeepsO.next ?_
  refine Keeps.then ?_ (takeToken_keeps _ _ _ _) (by decide)
  exact Keeps.refl _ _

theorem execTokenGovernor_keeps (t) (seq) (body) (s) : KeepsO [.mod, .power, .conf, .update, .log, .gov, .net, .jobs, .render, .pos, .fire, .links, .cams, .cal, .axes, .ring, .pair] (beginAt t s) (execTokenGovernor t seq body s) := by
  unfold execTokenGovernor
  refine KeepsO.next ?_
  refine Keeps.then ?_ (takeToken_keeps _ _ _ _) (by decide)
  exact Keeps.refl _ _

end Sys2Proof.Machine
end

