-- ==== Sys2Proof/Laws/KeepsPress.lean ====
section
/-! SUPPORT. What the operations of Press, Pair leave alone, and that they keep the invariant. -/
namespace Sys2Proof.Machine
open Sys2Proof

theorem markStart_keeps (d) (edgeT) (s) : Keeps [.jobs] s (markStart d edgeT s) := by
  unfold markStart
  split
  ·
    refine Keeps.ite (fun _ => ?_) (fun _ => ?_)
    ·
      refine Keeps.then ?_ (modArmed_keeps _ _) (by decide)
      exact Keeps.refl _ _
    ·
      exact Keeps.refl _ _
  ·
    exact Keeps.refl _ _

theorem execDinChange_keeps (t) (din) (level) (edgeT) (s) : KeepsO [.jobs, .pos, .axes, .pair] (beginAt t s) (execDinChange t din level edgeT s) := by
  unfold execDinChange
  refine KeepsO.ite (fun _ => ?_) (fun _ => ?_)
  ·
    refine KeepsO.next ?_
    exact Keeps.refl _ _
  ·
    refine KeepsO.ite (fun _ => ?_) (fun _ => ?_)
    ·
      refine KeepsO.next ?_
      refine Keeps.then ?_ (set_pos_keeps ..) (by decide)
      exact Keeps.refl _ _
    ·
      refine KeepsO.next ?_
      refine Keeps.then ?_ (markStart_keeps _ _ _) (by decide)
      refine Keeps.forEach (fun _ _ => ?_) ?_
      ·
        refine Keeps.then ?_ (homeHit_keeps _ _ _ _) (by decide)
        exact Keeps.refl _ _
      ·
        refine Keeps.forEach (fun _ _ => ?_) ?_
        ·
          refine Keeps.then ?_ (limitHit_keeps _ _ _) (by decide)
          exact Keeps.refl _ _
        ·
          refine Keeps.then ?_ (set_pos_keeps ..) (by decide)
          exact Keeps.refl _ _

theorem printGoStart_keeps (edgeT) (s) : Keeps [.log, .net, .jobs] s (printGoStart edgeT s) := by
  unfold printGoStart
  split
  ·
    refine Keeps.ite (fun _ => ?_) (fun _ => ?_)
    ·
      refine Keeps.then ?_ (raise_keeps _ _ _) (by decide)
      refine Keeps.then ?_ (modArmed_keeps _ _) (by decide)
      exact Keeps.refl _ _
    ·
      exact Keeps.refl _ _
  ·
    exact Keeps.refl _ _

theorem execPrintGoEdge_keeps (t) (level) (edgeT) (s) : KeepsO [.mod, .log, .net, .jobs] (beginAt t s) (execPrintGoEdge t level edgeT s) := by
  unfold execPrintGoEdge
  refine KeepsO.next ?_
  refine Keeps.ite (fun _ => ?_) (fun _ => ?_)
  ·
    exact Keeps.refl _ _
  ·
    refine Keeps.ite (fun _ => ?_) (fun _ => ?_)
    ·
      refine Keeps.then ?_ (printGoStart_keeps _ _) (by decide)
      refine Keeps.then ?_ (set_mod_keeps ..) (by decide)
      exact Keeps.refl _ _
    ·
      refine Keeps.then ?_ (set_mod_keeps ..) (by decide)
      exact Keeps.refl _ _

theorem armNow_keeps (s) : Keeps [.mod, .power, .conf, .update, .log, .gov, .net, .jobs, .render, .pos, .fire, .links, .cams, .cal, .axes, .ring, .pair] s (armNow s) := by
  unfold armNow
  split
  ·
    exact Keeps.refl _ _
  ·
    split
    ·
      refine Keeps.ite (fun _ => ?_) (fun _ => ?_)
      ·
        refine Keeps.then ?_ (armPending_keeps _ _ _ _) (by decide)
        exact Keeps.refl _ _
      ·
        exact Keeps.refl _ _
    ·
      exact Keeps.refl _ _

theorem execHeartbeatDue_keeps (t) (s) : KeepsO [.pair] (beginAt t s) (execHeartbeatDue t s) := by
  unfold execHeartbeatDue
  refine KeepsO.next ?_
  refine Keeps.ite (fun _ => ?_) (fun _ => ?_)
  ·
    refine Keeps.then ?_ (sendPartner_keeps _ _ _) (by decide)
    refine Keeps.then ?_ (set_pair_keeps ..) (by decide)
    exact Keeps.refl _ _
  ·
    exact Keeps.refl _ _

theorem restartBar_keeps (b) (s) : Keeps [.log, .net, .jobs, .fire, .links, .cal, .pair] s (restartBar b s) := by
  unfold restartBar
  refine Keeps.ite (fun _ => ?_) (fun _ => ?_)
  ·
    refine Keeps.then ?_ (startPacket_keeps _ _ _) (by decide)
    refine Keeps.then ?_ (modBar_keeps _ _ _) (by decide)
    exact Keeps.refl _ _
  ·
    refine Keeps.then ?_ (modBar_keeps _ _ _) (by decide)
    exact Keeps.refl _ _

theorem demote_keeps (reason) (s) : Keeps [.log, .net, .fire, .cal, .axes, .ring, .pair] s (demote reason s) := by
  unfold demote
  refine Keeps.then ?_ (raise_keeps _ _ _) (by decide)
  refine Keeps.then ?_ (set_pair_keeps ..) (by decide)
  refine Keeps.then ?_ (yieldRing_keeps _) (by decide)
  refine Keeps.then ?_ (stopOutputs_keeps _) (by decide)
  refine Keeps.then ?_ (enterSevered_keeps _ _) (by decide)
  exact Keeps.refl _ _

theorem readyNow_keeps (s) : Keeps [.net] s (readyNow s) := by
  unfold readyNow
  refine Keeps.forEach (fun _ _ => ?_) ?_
  ·
    refine Keeps.then ?_ (timeResult_keeps _ _ _) (by decide)
    exact Keeps.refl _ _
  ·
    exact Keeps.refl _ _

theorem sendOwners_keeps (s) : Keeps [.fire, .loops] s (sendOwners s) := by
  unfold sendOwners
  refine Keeps.forEach (fun _ _ => ?_) ?_
  ·
    refine Keeps.then ?_ (sendOwner_keeps _ _) (by decide)
    exact Keeps.refl _ _
  ·
    exact Keeps.refl _ _

theorem takeOver_keeps (s) : Keeps [.free, .mod, .power, .flash, .conf, .update, .log, .thermal, .gov, .net, .jobs, .render, .mem, .pos, .fire, .links, .cams, .cal, .time, .axes, .ring, .pair, .loops] s (takeOver s) := by
  unfold takeOver
  refine Keeps.then ?_ (retryHold_keeps _) (by decide)
  refine Keeps.then ?_ (takeRing_keeps _) (by decide)
  refine Keeps.then ?_ (faultsAtArm_keeps _) (by decide)
  refine Keeps.then ?_ (armNow_keeps _) (by decide)
  refine Keeps.then ?_ (readyNow_keeps _) (by decide)
  refine Keeps.then ?_ (applyAllHeld_keeps _) (by decide)
  refine Keeps.ite (fun _ => ?_) (fun _ => ?_)
  ·
    refine Keeps.forEach (fun _ _ => ?_) ?_
    ·
      refine Keeps.then ?_ (restartBar_keeps _ _) (by decide)
      exact Keeps.refl _ _
    ·
      refine Keeps.then ?_ (spoilFiring_keeps _ _) (by decide)
      refine Keeps.then ?_ (sendOwners_keeps _) (by decide)
      refine Keeps.forEach (fun _ _ => ?_) ?_
      ·
        refine Keeps.then ?_ (takeEstopReq_keeps _ _) (by decide)
        refine Keeps.then ?_ (ownEstop_keeps _ _ _) (by decide)
        exact Keeps.refl _ _
      ·
        exact Keeps.refl _ _
  ·
    refine Keeps.then ?_ (spoilFiring_keeps _ _) (by decide)
    refine Keeps.then ?_ (sendOwners_keeps _) (by decide)
    refine Keeps.forEach (fun _ _ => ?_) ?_
    ·
      refine Keeps.then ?_ (takeEstopReq_keeps _ _) (by decide)
      refine Keeps.then ?_ (ownEstop_keeps _ _ _) (by decide)
      exact Keeps.refl _ _
    ·
      exact Keeps.refl _ _

theorem ownTime_keeps (s) : Keeps [.log, .net, .time] s (ownTime s) := by
  unfold ownTime
  refine Keeps.ite (fun _ => ?_) (fun _ => ?_)
  ·
    refine Keeps.then ?_ (freeTime_keeps _) (by decide)
    refine Keeps.then ?_ (set_time_keeps ..) (by decide)
    exact Keeps.refl _ _
  ·
    refine Keeps.then ?_ (setTimeState_keeps _ _) (by decide)
    refine Keeps.then ?_ (set_time_keeps ..) (by decide)
    exact Keeps.refl _ _

theorem becomeActive_keeps (absent) (s) : Keeps [.log, .net, .cal, .time, .pair] s (becomeActive absent s) := by
  unfold becomeActive
  refine Keeps.then ?_ (ownTime_keeps _) (by decide)
  refine Keeps.then ?_ (set_pair_keeps ..) (by decide)
  refine Keeps.then ?_ (setPairState_keeps _ _) (by decide)
  exact Keeps.refl _ _

theorem castle_keeps (s) : Keeps [.free, .mod, .power, .flash, .conf, .update, .log, .thermal, .gov, .net, .jobs, .render, .mem, .pos, .fire, .links, .cams, .cal, .time, .axes, .ring, .pair, .loops] s (castle s) := by
  unfold castle
  refine Keeps.then ?_ (takeOver_keeps _) (by decide)
  refine Keeps.then ?_ (raise_keeps _ _ _) (by decide)
  refine Keeps.then ?_ (becomeActive_keeps _ _) (by decide)
  refine Keeps.then ?_ (set_pair_keeps ..) (by decide)
  exact Keeps.refl _ _

theorem linkIsLost_keeps (s) : Keeps [.free, .mod, .power, .flash, .conf, .update, .log, .thermal, .gov, .net, .jobs, .render, .mem, .pos, .fire, .links, .cams, .cal, .time, .axes, .ring, .pair, .loops] s (linkIsLost s) := by
  unfold linkIsLost
  try dsimp only
  split
  ·
    refine Keeps.then ?_ (castle_keeps _) (by decide)
    refine Keeps.then ?_ (raise_keeps _ _ _) (by decide)
    refine Keeps.then ?_ (emit_keeps _ _) (by decide)
    refine Keeps.then ?_ (raise_keeps _ _ _) (by decide)
    refine Keeps.then ?_ (set_pair_keeps ..) (by decide)
    exact Keeps.refl _ _
  ·
    refine Keeps.ite (fun _ => ?_) (fun _ => ?_)
    ·
      refine Keeps.then ?_ (diverge_keeps _ _) (by decide)
      refine Keeps.then ?_ (emit_keeps _ _) (by decide)
      refine Keeps.then ?_ (raise_keeps _ _ _) (by decide)
      refine Keeps.then ?_ (set_pair_keeps ..) (by decide)
      exact Keeps.refl _ _
    ·
      refine Keeps.then ?_ (raise_keeps _ _ _) (by decide)
      refine Keeps.then ?_ (emit_keeps _ _) (by decide)
      refine Keeps.then ?_ (raise_keeps _ _ _) (by decide)
      refine Keeps.then ?_ (set_pair_keeps ..) (by decide)
      exact Keeps.refl _ _
  ·
    refine Keeps.ite (fun _ => ?_) (fun _ => ?_)
    ·
      refine Keeps.then ?_ (demote_keeps _ _) (by decide)
      refine Keeps.then ?_ (emit_keeps _ _) (by decide)
      refine Keeps.then ?_ (raise_keeps _ _ _) (by decide)
      refine Keeps.then ?_ (set_pair_keeps ..) (by decide)
      exact Keeps.refl _ _
    ·
      refine Keeps.then ?_ (acknowledgeAll_keeps _) (by decide)
      refine Keeps.then ?_ (set_pair_keeps ..) (by decide)
      refine Keeps.then ?_ (emit_keeps _ _) (by decide)
      refine Keeps.then ?_ (raise_keeps _ _ _) (by decide)
      refine Keeps.then ?_ (set_pair_keeps ..) (by decide)
      exact Keeps.refl _ _
  ·
    refine Keeps.then ?_ (emit_keeps _ _) (by decide)
    refine Keeps.then ?_ (raise_keeps _ _ _) (by decide)
    refine Keeps.then ?_ (set_pair_keeps ..) (by decide)
    exact Keeps.refl _ _

theorem execHeartbeatMissed_keeps (t) (s) : KeepsO [.free, .mod, .power, .flash, .conf, .update, .log, .thermal, .gov, .net, .jobs, .render, .mem, .pos, .fire, .links, .cams, .cal, .time, .axes, .ring, .pair, .loops] (beginAt t s) (execHeartbeatMissed t s) := by
  unfold execHeartbeatMissed
  refine KeepsO.next ?_
  refine Keeps.ite (fun _ => ?_) (fun _ => ?_)
  ·
    refine Keeps.ite (fun _ => ?_) (fun _ => ?_)
    ·
      refine Keeps.then ?_ (linkIsLost_keeps _) (by decide)
      refine Keeps.then ?_ (set_pair_keeps ..) (by decide)
      exact Keeps.refl _ _
    ·
      refine Keeps.then ?_ (set_pair_keeps ..) (by decide)
      exact Keeps.refl _ _
  ·
    exact Keeps.refl _ _

theorem execOrder_keeps (t) (entries) (s) : KeepsO [.free, .mod, .power, .flash, .conf, .update, .log, .thermal, .gov, .net, .jobs, .render, .mem, .pos, .fire, .links, .cams, .cal, .time, .axes, .ring, .pair, .loops] (beginAt t s) (execOrder t entries s) := by
  unfold execOrder
  refine KeepsO.next ?_
  refine Keeps.ite (fun _ => ?_) (fun _ => ?_)
  ·
    exact Keeps.refl _ _
  ·
    refine Keeps.then ?_ (runOrders_keeps _ _) (by decide)
    refine Keeps.forEach (fun _ _ => ?_) ?_
    ·
      refine Keeps.then ?_ (askAgain_keeps _ _ _ _) (by decide)
      exact Keeps.refl _ _
    ·
      refine Keeps.then ?_ (set_pair_keeps ..) (by decide)
      exact Keeps.refl _ _

theorem execPairWaitExpiry_keeps (t) (s) : KeepsO [.free, .mod, .power, .flash, .conf, .update, .log, .thermal, .gov, .net, .jobs, .render, .mem, .pos, .fire, .links, .cams, .cal, .time, .axes, .ring, .pair, .loops] (beginAt t s) (execPairWaitExpiry t s) := by
  unfold execPairWaitExpiry
  refine KeepsO.next ?_
  refine Keeps.ite (fun _ => ?_) (fun _ => ?_)
  ·
    refine Keeps.then ?_ (applyAllHeld_keeps _) (by decide)
    refine Keeps.then ?_ (becomeActive_keeps _ _) (by decide)
    exact Keeps.refl _ _
  ·
    exact Keeps.refl _ _

theorem takeBeatTime_keeps (body) (s) : Keeps [.log, .net, .time] s (takeBeatTime body s) := by
  unfold takeBeatTime
  refine Keeps.ite (fun _ => ?_) (fun _ => ?_)
  ·
    refine Keeps.then ?_ (measureOffset_keeps _ _) (by decide)
    exact Keeps.refl _ _
  ·
    exact Keeps.refl _ _

theorem takePartnerSegment_keeps (udp) (s) : KeepsO [.free, .mod, .power, .flash, .conf, .update, .log, .thermal, .gov, .net, .jobs, .render, .mem, .pos, .fire, .links, .cams, .cal, .time, .axes, .ring, .pair, .loops] s (takePartnerSegment udp s) := by
  unfold takePartnerSegment
  refine KeepsO.ite (fun _ => ?_) (fun _ => ?_)
  ·
    refine KeepsO.next ?_
    exact Keeps.refl _ _
  ·
    refine KeepsO.ite (fun _ => ?_) (fun _ => ?_)
    ·
      refine KeepsO.next ?_
      refine Keeps.then ?_ (runOrders_keeps _ _) (by decide)
      refine Keeps.ite (fun _ => ?_) (fun _ => ?_)
      ·
        refine Keeps.then ?_ (holdMessage_keeps _ _) (by decide)
        exact Keeps.refl _ _
      ·
        exact Keeps.refl _ _
    ·
      split
      ·
        refine KeepsO.next ?_
        exact Keeps.refl _ _
      ·
        refine KeepsO.next ?_
        refine Keeps.then ?_ (runOrders_keeps _ _) (by decide)
        refine Keeps.then ?_ (sessionSegment_keeps _ _ _ _ _ _) (by decide)
        exact Keeps.refl _ _

theorem execPartnerCamera_keeps (t) (body) (s) : KeepsO [.free, .log, .net, .jobs, .cams, .cal, .pair] (beginAt t s) (execPartnerCamera t body s) := by
  unfold execPartnerCamera
  refine KeepsO.next ?_
  refine Keeps.ite (fun _ => ?_) (fun _ => ?_)
  ·
    exact Keeps.refl _ _
  ·
    refine Keeps.ite (fun _ => ?_) (fun _ => ?_)
    ·
      refine Keeps.then ?_ (set_pair_keeps ..) (by decide)
      exact Keeps.refl _ _
    ·
      refine Keeps.then ?_ (useRecord_keeps _ _) (by decide)
      refine Keeps.then ?_ (noteRecord_keeps _ _) (by decide)
      refine Keeps.then ?_ (set_pair_keeps ..) (by decide)
      exact Keeps.refl _ _

theorem checkCounters_keeps (body) (s) : Keeps [.log, .net, .cal, .pair] s (checkCounters body s) := by
  unfold checkCounters
  refine Keeps.ite (fun _ => ?_) (fun _ => ?_)
  ·
    refine Keeps.then ?_ (set_pair_keeps ..) (by decide)
    exact Keeps.refl _ _
  ·
    refine Keeps.ite (fun _ => ?_) (fun _ => ?_)
    ·
      refine Keeps.then ?_ (diverge_keeps _ _) (by decide)
      refine Keeps.then ?_ (set_pair_keeps ..) (by decide)
      exact Keeps.refl _ _
    ·
      refine Keeps.then ?_ (set_pair_keeps ..) (by decide)
      exact Keeps.refl _ _

theorem noteBeat_keeps (digest) (body) (s) : Keeps [.pair] s (noteBeat digest body s) := by
  unfold noteBeat
  refine Keeps.then ?_ (set_pair_keeps ..) (by decide)
  exact Keeps.refl _ _

theorem execSignature_keeps (t) (pageId) (sig) (s) : KeepsO [.log, .net, .jobs, .cal, .pair] (beginAt t s) (execSignature t pageId sig s) := by
  unfold execSignature
  refine KeepsO.next ?_
  refine Keeps.ite (fun _ => ?_) (fun _ => ?_)
  ·
    refine Keeps.then ?_ (compareSignature_keeps _ _) (by decide)
    refine Keeps.then ?_ (modPage_keeps _ _ _) (by decide)
    exact Keeps.refl _ _
  ·
    exact Keeps.refl _ _

theorem digestOnce_keeps (s) : Keeps [] s (digestOnce s) := by
  unfold digestOnce
  refine Keeps.ite (fun _ => ?_) (fun _ => ?_)
  ·
    exact Keeps.refl _ _
  ·
    refine Keeps.then ?_ (emit_keeps _ _) (by decide)
    exact Keeps.refl _ _

theorem enterUnpaired_keeps (s) : Keeps [.log, .net, .fire, .cal, .axes, .pair] s (enterUnpaired s) := by
  unfold enterUnpaired
  refine Keeps.then ?_ (raise_keeps _ _ _) (by decide)
  refine Keeps.then ?_ (set_pair_keeps ..) (by decide)
  refine Keeps.then ?_ (stopOutputs_keeps _) (by decide)
  refine Keeps.then ?_ (setPairState_keeps _ _) (by decide)
  exact Keeps.refl _ _

theorem execPartnerSegment_keeps (t) (udp) (s) : KeepsO [.free, .mod, .power, .flash, .conf, .update, .log, .thermal, .gov, .net, .jobs, .render, .mem, .pos, .fire, .links, .cams, .cal, .time, .axes, .ring, .pair, .loops] (beginAt t s) (execPartnerSegment t udp s) := by
  unfold execPartnerSegment
  refine KeepsO.ite (fun _ => ?_) (fun _ => ?_)
  ·
    refine KeepsO.next ?_
    exact Keeps.refl _ _
  ·
    refine KeepsO.ite (fun _ => ?_) (fun _ => ?_)
    ·
      refine KeepsO.next ?_
      refine Keeps.then ?_ (set_pair_keeps ..) (by decide)
      exact Keeps.refl _ _
    ·
      refine KeepsO.then ?_ (takePartnerSegment_keeps _ _) (by decide)
      refine Keeps.then ?_ (set_pair_keeps ..) (by decide)
      exact Keeps.refl _ _

theorem beginCatchup_keeps (s) : Keeps [.log, .net, .cal, .pair] s (beginCatchup s) := by
  unfold beginCatchup
  refine Keeps.then ?_ (set_pair_keeps ..) (by decide)
  refine Keeps.then ?_ (setPairState_keeps _ _) (by decide)
  exact Keeps.refl _ _

theorem returnToCatchup_keeps (s) : Keeps [.mod, .power, .conf, .update, .log, .gov, .net, .jobs, .pos, .fire, .cams, .cal, .ring, .pair] s (returnToCatchup s) := by
  unfold returnToCatchup
  refine Keeps.ite (fun _ => ?_) (fun _ => ?_)
  ·
    refine Keeps.then ?_ (beginCatchup_keeps _) (by decide)
    refine Keeps.ite (fun _ => ?_) (fun _ => ?_)
    ·
      refine Keeps.then ?_ (settle_keeps _) (by decide)
      refine Keeps.then ?_ (endReleases_keeps _) (by decide)
      refine Keeps.then ?_ (spoilAll_keeps _ _) (by decide)
      exact Keeps.refl _ _
    ·
      exact Keeps.refl _ _
  ·
    exact Keeps.refl _ _

theorem decideHeard_keeps (s) : Keeps [.free, .mod, .power, .flash, .conf, .update, .log, .thermal, .gov, .net, .jobs, .render, .mem, .pos, .fire, .links, .cams, .cal, .time, .axes, .ring, .pair, .loops] s (decideHeard s) := by
  unfold decideHeard
  try dsimp only
  split
  ·
    refine Keeps.ite (fun _ => ?_) (fun _ => ?_)
    ·
      refine Keeps.then ?_ (beginCatchup_keeps _) (by decide)
      exact Keeps.refl _ _
    ·
      refine Keeps.then ?_ (enterUnpaired_keeps _) (by decide)
      exact Keeps.refl _ _
  ·
    refine Keeps.ite (fun _ => ?_) (fun _ => ?_)
    ·
      refine Keeps.ite (fun _ => ?_) (fun _ => ?_)
      ·
        refine Keeps.then ?_ (applyAllHeld_keeps _) (by decide)
        refine Keeps.then ?_ (becomeActive_keeps _ _) (by decide)
        exact Keeps.refl _ _
      ·
        refine Keeps.then ?_ (beginCatchup_keeps _) (by decide)
        exact Keeps.refl _ _
    ·
      refine Keeps.ite (fun _ => ?_) (fun _ => ?_)
      ·
        refine Keeps.then ?_ (applyAllHeld_keeps _) (by decide)
        refine Keeps.then ?_ (becomeActive_keeps _ _) (by decide)
        exact Keeps.refl _ _
      ·
        refine Keeps.then ?_ (enterUnpaired_keeps _) (by decide)
        exact Keeps.refl _ _
  ·
    refine Keeps.ite (fun _ => ?_) (fun _ => ?_)
    ·
      exact Keeps.refl _ _
    ·
      refine Keeps.ite (fun _ => ?_) (fun _ => ?_)
      ·
        refine Keeps.then ?_ (applyAllHeld_keeps _) (by decide)
        refine Keeps.then ?_ (becomeActive_keeps _ _) (by decide)
        exact Keeps.refl _ _
      ·
        refine Keeps.then ?_ (enterUnpaired_keeps _) (by decide)
        exact Keeps.refl _ _
  ·
    exact Keeps.refl _ _

theorem activeHears_keeps (s) : Keeps [.free, .mod, .power, .conf, .update, .log, .gov, .net, .jobs, .render, .pos, .fire, .links, .cams, .cal, .axes, .ring, .pair] s (activeHears s) := by
  unfold activeHears
  refine Keeps.ite (fun _ => ?_) (fun _ => ?_)
  ·
    refine Keeps.then ?_ (demote_keeps _ _) (by decide)
    exact Keeps.refl _ _
  ·
    refine Keeps.then ?_ (copyOut_keeps _) (by decide)
    refine Keeps.ite (fun _ => ?_) (fun _ => ?_)
    ·
      refine Keeps.then ?_ (acknowledge_keeps _ _) (by decide)
      refine Keeps.then ?_ (set_pair_keeps ..) (by decide)
      exact Keeps.refl _ _
    ·
      refine Keeps.then ?_ (acknowledgeAll_keeps _) (by decide)
      refine Keeps.then ?_ (set_pair_keeps ..) (by decide)
      exact Keeps.refl _ _

theorem hearBeat_keeps (digest) (body) (s) : Keeps [.free, .mod, .power, .flash, .conf, .update, .log, .thermal, .gov, .net, .jobs, .render, .mem, .pos, .fire, .links, .cams, .cal, .time, .axes, .ring, .pair, .loops] s (hearBeat digest body s) := by
  unfold hearBeat
  refine Keeps.ite (fun _ => ?_) (fun _ => ?_)
  ·
    refine Keeps.then ?_ (activeHears_keeps _) (by decide)
    refine Keeps.then ?_ (takeBeatTime_keeps _ _) (by decide)
    refine Keeps.then ?_ (noteBeat_keeps _ _ _) (by decide)
    exact Keeps.refl _ _
  ·
    refine Keeps.ite (fun _ => ?_) (fun _ => ?_)
    ·
      refine Keeps.ite (fun _ => ?_) (fun _ => ?_)
      ·
        refine Keeps.then ?_ (decideHeard_keeps _) (by decide)
        refine Keeps.then ?_ (takeBeatTime_keeps _ _) (by decide)
        refine Keeps.then ?_ (noteBeat_keeps _ _ _) (by decide)
        exact Keeps.refl _ _
      ·
        refine Keeps.then ?_ (takeBeatTime_keeps _ _) (by decide)
        refine Keeps.then ?_ (noteBeat_keeps _ _ _) (by decide)
        exact Keeps.refl _ _
    ·
      refine Keeps.ite (fun _ => ?_) (fun _ => ?_)
      ·
        refine Keeps.then ?_ (enterUnpaired_keeps _) (by decide)
        refine Keeps.then ?_ (takeBeatTime_keeps _ _) (by decide)
        refine Keeps.then ?_ (noteBeat_keeps _ _ _) (by decide)
        exact Keeps.refl _ _
      ·
        refine Keeps.ite (fun _ => ?_) (fun _ => ?_)
        ·
          refine Keeps.then ?_ (tryStandby_keeps _) (by decide)
          refine Keeps.then ?_ (runOrders_keeps _ _) (by decide)
          refine Keeps.then ?_ (returnToCatchup_keeps _) (by decide)
          refine Keeps.then ?_ (checkCounters_keeps _ _) (by decide)
          refine Keeps.then ?_ (takeBeatTime_keeps _ _) (by decide)
          refine Keeps.then ?_ (noteBeat_keeps _ _ _) (by decide)
          exact Keeps.refl _ _
        ·
          refine Keeps.then ?_ (returnToCatchup_keeps _) (by decide)
          refine Keeps.then ?_ (checkCounters_keeps _ _) (by decide)
          refine Keeps.then ?_ (takeBeatTime_keeps _ _) (by decide)
          refine Keeps.then ?_ (noteBeat_keeps _ _ _) (by decide)
          exact Keeps.refl _ _

theorem execHeartbeat_keeps (t) (digest) (body) (s) : KeepsO [.free, .mod, .power, .flash, .conf, .update, .log, .thermal, .gov, .net, .jobs, .render, .mem, .pos, .fire, .links, .cams, .cal, .time, .axes, .ring, .pair, .loops] (beginAt t s) (execHeartbeat t digest body s) := by
  unfold execHeartbeat
  refine KeepsO.next ?_
  refine Keeps.ite (fun _ => ?_) (fun _ => ?_)
  ·
    exact Keeps.refl _ _
  ·
    refine Keeps.ite (fun _ => ?_) (fun _ => ?_)
    ·
      refine Keeps.then ?_ (set_pair_keeps ..) (by decide)
      exact Keeps.refl _ _
    ·
      refine Keeps.then ?_ (hearBeat_keeps _ _ _) (by decide)
      refine Keeps.then ?_ (digestOnce_keeps _) (by decide)
      exact Keeps.refl _ _

theorem reclaim_keeps (s) : Keeps [.free, .mod, .power, .flash, .conf, .update, .log, .thermal, .gov, .net, .jobs, .render, .mem, .pos, .fire, .links, .cams, .cal, .time, .axes, .ring, .pair, .loops] s (reclaim s) := by
  unfold reclaim
  refine Keeps.then ?_ (acknowledgeAll_keeps _) (by decide)
  refine Keeps.then ?_ (takeOver_keeps _) (by decide)
  refine Keeps.then ?_ (raise_keeps _ _ _) (by decide)
  refine Keeps.then ?_ (becomeActive_keeps _ _) (by decide)
  refine Keeps.then ?_ (set_pair_keeps ..) (by decide)
  exact Keeps.refl _ _

theorem execReclaimWaitExpiry_keeps (t) (s) : KeepsO [.free, .mod, .power, .flash, .conf, .update, .log, .thermal, .gov, .net, .jobs, .render, .mem, .pos, .fire, .links, .cams, .cal, .time, .axes, .ring, .pair, .loops] (beginAt t s) (execReclaimWaitExpiry t s) := by
  unfold execReclaimWaitExpiry
  refine KeepsO.next ?_
  refine Keeps.ite (fun _ => ?_) (fun _ => ?_)
  ·
    refine Keeps.then ?_ (reclaim_keeps _) (by decide)
    exact Keeps.refl _ _
  ·
    exact Keeps.refl _ _

theorem execResendReq_keeps (t) (kind) (first) (count) (s) : KeepsO [.pair] (beginAt t s) (execResendReq t kind first count s) := by
  unfold execResendReq
  refine KeepsO.next ?_
  refine Keeps.ite (fun _ => ?_) (fun _ => ?_)
  ·
    exact Keeps.refl _ _
  ·
    refine Keeps.ite (fun _ => ?_) (fun _ => ?_)
    ·
      refine Keeps.forEach (fun _ _ => ?_) ?_
      ·
        refine Keeps.forEach (fun _ _ => ?_) ?_
        ·
          refine Keeps.then ?_ (sendPartner_keeps _ _ _) (by decide)
          exact Keeps.refl _ _
        ·
          exact Keeps.refl _ _
      ·
        exact Keeps.refl _ _
    ·
      refine Keeps.ite (fun _ => ?_) (fun _ => ?_)
      ·
        refine Keeps.forEach (fun _ _ => ?_) ?_
        ·
          refine Keeps.then ?_ (sendPartner_keeps _ _ _) (by decide)
          exact Keeps.refl _ _
        ·
          exact Keeps.refl _ _
      ·
        refine Keeps.ite (fun _ => ?_) (fun _ => ?_)
        ·
          refine Keeps.forEach (fun _ _ => ?_) ?_
          ·
            refine Keeps.then ?_ (sendPartner_keeps _ _ _) (by decide)
            exact Keeps.refl _ _
          ·
            exact Keeps.refl _ _
        ·
          exact Keeps.refl _ _

end Sys2Proof.Machine
end

