-- ==== Sys2Proof/Laws/KeepsHostMessages.lean ====
section
/-! SUPPORT. What the operations of HostMessages, Start, Reads leave alone, and that they keep the invariant. -/
namespace Sys2Proof.Machine
open Sys2Proof

/-- With no message waiting, a host message keeps to what its own meaning keeps to. -/
theorem hostMessage_then {w : List Group} {f : Nat → List Byte → State → Verdict} (t src type payload s)
    (h0 : waitingCount s = 0) (hw : [Group.net, Group.pair] ⊆ w) (hf : ∀ i p s, KeepsV w s (f i p s)) :
    Keeps w (beginAt t s) (hostMessage t src type payload f s) := by
  unfold hostMessage
  rw [h0]
  exact onMessage_then _ _ _ _ _ hw hf

/-- Those that wait may be applied after a host message. -/
theorem hostMessage_any {w : List Group} {f : Nat → List Byte → State → Verdict} (t src type payload s)
    (hw : [.free, .mod, .power, .flash, .conf, .update, .log, .thermal, .gov, .net, .jobs, .render, .mem, .pos, .fire, .links, .cams, .cal, .time, .axes, .ring, .pair, .loops] ⊆ w)
    (hf : ∀ i p s, KeepsV w s (f i p s)) : Keeps w (beginAt t s) (hostMessage t src type payload f s) :=
  (onMessage_then t src type payload s (List.Subset.trans (by decide) hw) hf).then (applyWaiting_keeps ..) hw

theorem execImageVerify_keeps (t) (src) (payload) (s) (h0 : waitingCount s = 0) : KeepsO [.update, .net, .pair] (beginAt t s) (execImageVerify t src payload s) := by
  unfold execImageVerify
  refine KeepsO.next ?_
  refine hostMessage_then _ _ _ _ _ h0 (by decide) (fun _ _ _ => ?_)
  ·
    refine KeepsV.then ?_ (msgImageVerify_keeps _ _ _) (by decide)
    exact Keeps.refl _ _

theorem execCalReset_keeps (t) (src) (payload) (s) (h0 : waitingCount s = 0) : KeepsO [.log, .net, .jobs, .cams, .cal, .pair] (beginAt t s) (execCalReset t src payload s) := by
  unfold execCalReset
  refine KeepsO.next ?_
  refine hostMessage_then _ _ _ _ _ h0 (by decide) (fun _ _ _ => ?_)
  ·
    refine KeepsV.then ?_ (msgCalRequest_keeps _ _ _) (by decide)
    exact Keeps.refl _ _

theorem execLutDefine_keeps (t) (src) (payload) (s) (h0 : waitingCount s = 0) : KeepsO [.net, .jobs, .mem, .pair] (beginAt t s) (execLutDefine t src payload s) := by
  unfold execLutDefine
  refine KeepsO.next ?_
  refine hostMessage_then _ _ _ _ _ h0 (by decide) (fun _ _ _ => ?_)
  ·
    refine KeepsV.then ?_ (msgLutDefine_keeps _ _ _) (by decide)
    exact Keeps.refl _ _

theorem execSurfaceSeal_keeps (t) (src) (payload) (s) (h0 : waitingCount s = 0) : KeepsO [.net, .jobs, .pair] (beginAt t s) (execSurfaceSeal t src payload s) := by
  unfold execSurfaceSeal
  refine KeepsO.next ?_
  refine hostMessage_then _ _ _ _ _ h0 (by decide) (fun _ _ _ => ?_)
  ·
    refine KeepsV.then ?_ (msgSurfaceSeal_keeps _ _ _) (by decide)
    exact Keeps.refl _ _

theorem execRunCancel_keeps (t) (src) (payload) (s) (h0 : waitingCount s = 0) : KeepsO [.mod, .power, .conf, .update, .log, .gov, .net, .jobs, .render, .pos, .fire, .cams, .cal, .ring, .pair] (beginAt t s) (execRunCancel t src payload s) := by
  unfold execRunCancel
  refine KeepsO.next ?_
  refine hostMessage_then _ _ _ _ _ h0 (by decide) (fun _ _ _ => ?_)
  ·
    refine KeepsV.then ?_ (msgRunCancel_keeps _ _ _) (by decide)
    exact Keeps.refl _ _

theorem execRunStop_keeps (t) (src) (payload) (s) (h0 : waitingCount s = 0) : KeepsO [.mod, .power, .conf, .update, .log, .gov, .net, .jobs, .pos, .fire, .cams, .cal, .ring, .pair] (beginAt t s) (execRunStop t src payload s) := by
  unfold execRunStop
  refine KeepsO.next ?_
  refine hostMessage_then _ _ _ _ _ h0 (by decide) (fun _ _ _ => ?_)
  ·
    refine KeepsV.then ?_ (msgRunStop_keeps _ _ _) (by decide)
    exact Keeps.refl _ _

theorem execImageActivate_keeps (t) (src) (payload) (s) (h0 : waitingCount s = 0) : KeepsO [.update, .net, .pair] (beginAt t s) (execImageActivate t src payload s) := by
  unfold execImageActivate
  refine KeepsO.next ?_
  refine hostMessage_then _ _ _ _ _ h0 (by decide) (fun _ _ _ => ?_)
  ·
    refine KeepsV.then ?_ (msgImageActivate_keeps _ _ _) (by decide)
    exact Keeps.refl _ _

theorem execPageFree_keeps (t) (src) (payload) (s) (h0 : waitingCount s = 0) : KeepsO [.net, .jobs, .render, .pair] (beginAt t s) (execPageFree t src payload s) := by
  unfold execPageFree
  refine KeepsO.next ?_
  refine hostMessage_then _ _ _ _ _ h0 (by decide) (fun _ _ _ => ?_)
  ·
    refine KeepsV.then ?_ (msgPageFree_keeps _ _ _) (by decide)
    exact Keeps.refl _ _

theorem execImageAbort_keeps (t) (src) (s) (h0 : waitingCount s = 0) : KeepsO [.power, .flash, .update, .net, .pair] (beginAt t s) (execImageAbort t src s) := by
  unfold execImageAbort
  refine KeepsO.next ?_
  refine hostMessage_then _ _ _ _ _ h0 (by decide) (fun _ _ _ => ?_)
  ·
    refine KeepsV.then ?_ (msgImageAbort_keeps _ _ _) (by decide)
    exact Keeps.refl _ _

theorem execClearFault_keeps (t) (src) (payload) (s) (h0 : waitingCount s = 0) : KeepsO [.log, .net, .pos, .axes, .pair] (beginAt t s) (execClearFault t src payload s) := by
  unfold execClearFault
  refine KeepsO.next ?_
  refine hostMessage_then _ _ _ _ _ h0 (by decide) (fun _ _ _ => ?_)
  ·
    refine KeepsV.then ?_ (msgMove_keeps _ _ _) (by decide)
    exact Keeps.refl _ _

theorem execImageConfirm_keeps (t) (src) (s) (h0 : waitingCount s = 0) : KeepsO [.update, .net, .pair] (beginAt t s) (execImageConfirm t src s) := by
  unfold execImageConfirm
  refine KeepsO.next ?_
  refine hostMessage_then _ _ _ _ _ h0 (by decide) (fun _ _ _ => ?_)
  ·
    refine KeepsV.then ?_ (msgImageConfirm_keeps _ _ _) (by decide)
    exact Keeps.refl _ _

theorem execCalThaw_keeps (t) (src) (payload) (s) (h0 : waitingCount s = 0) : KeepsO [.log, .net, .jobs, .cams, .cal, .pair] (beginAt t s) (execCalThaw t src payload s) := by
  unfold execCalThaw
  refine KeepsO.next ?_
  refine hostMessage_then _ _ _ _ _ h0 (by decide) (fun _ _ _ => ?_)
  ·
    refine KeepsV.then ?_ (msgCalRequest_keeps _ _ _) (by decide)
    exact Keeps.refl _ _

theorem execStatusRead_keeps (t) (src) (payload) (s) (h0 : waitingCount s = 0) : KeepsO [.free, .net, .mem, .pair, .loops] (beginAt t s) (execStatusRead t src payload s) := by
  unfold execStatusRead
  refine KeepsO.next ?_
  refine hostMessage_then _ _ _ _ _ h0 (by decide) (fun _ _ _ => ?_)
  ·
    refine KeepsV.then ?_ (msgStatus_keeps _ _ _) (by decide)
    exact Keeps.refl _ _

theorem execSurfaceFree_keeps (t) (src) (payload) (s) (h0 : waitingCount s = 0) : KeepsO [.net, .jobs, .pair] (beginAt t s) (execSurfaceFree t src payload s) := by
  unfold execSurfaceFree
  refine KeepsO.next ?_
  refine hostMessage_then _ _ _ _ _ h0 (by decide) (fun _ _ _ => ?_)
  ·
    refine KeepsV.then ?_ (msgSurfaceFree_keeps _ _ _) (by decide)
    exact Keeps.refl _ _

theorem execEstop_keeps (t) (src) (payload) (s) (h0 : waitingCount s = 0) : KeepsO [.log, .net, .pos, .axes, .pair] (beginAt t s) (execEstop t src payload s) := by
  unfold execEstop
  refine KeepsO.next ?_
  refine hostMessage_then _ _ _ _ _ h0 (by decide) (fun _ _ _ => ?_)
  ·
    refine KeepsV.then ?_ (msgMove_keeps _ _ _) (by decide)
    exact Keeps.refl _ _

theorem execTimedOutputOnce_keeps (t) (src) (payload) (s) (h0 : waitingCount s = 0) : KeepsO [.net, .time, .pair] (beginAt t s) (execTimedOutputOnce t src payload s) := by
  unfold execTimedOutputOnce
  refine KeepsO.next ?_
  refine hostMessage_then _ _ _ _ _ h0 (by decide) (fun _ _ _ => ?_)
  ·
    refine KeepsV.then ?_ (msgTimedOutput_keeps _ _ _) (by decide)
    exact Keeps.refl _ _

theorem execRunArm_keeps (t) (src) (payload) (s) (h0 : waitingCount s = 0) : KeepsO [.net, .jobs, .pair] (beginAt t s) (execRunArm t src payload s) := by
  unfold execRunArm
  refine KeepsO.next ?_
  refine hostMessage_then _ _ _ _ _ h0 (by decide) (fun _ _ _ => ?_)
  ·
    refine KeepsV.then ?_ (msgRunArm_keeps _ _ _) (by decide)
    exact Keeps.refl _ _

theorem execSessionClose_keeps (t) (src) (payload) (s) (h0 : waitingCount s = 0) : KeepsO [.net, .pair] (beginAt t s) (execSessionClose t src payload s) := by
  unfold execSessionClose
  refine KeepsO.next ?_
  refine hostMessage_then _ _ _ _ _ h0 (by decide) (fun _ _ _ => ?_)
  ·
    refine KeepsV.then ?_ (msgSessionClose_keeps _ _ _) (by decide)
    exact Keeps.refl _ _

theorem execRunDefine_keeps (t) (src) (payload) (s) (h0 : waitingCount s = 0) : KeepsO [.net, .jobs, .pair] (beginAt t s) (execRunDefine t src payload s) := by
  unfold execRunDefine
  refine KeepsO.next ?_
  refine hostMessage_then _ _ _ _ _ h0 (by decide) (fun _ _ _ => ?_)
  ·
    refine KeepsV.then ?_ (msgRunDefine_keeps _ _ _) (by decide)
    exact Keeps.refl _ _

theorem execImageBegin_keeps (t) (src) (payload) (s) (h0 : waitingCount s = 0) : KeepsO [.flash, .update, .net, .pair] (beginAt t s) (execImageBegin t src payload s) := by
  unfold execImageBegin
  refine KeepsO.next ?_
  refine hostMessage_then _ _ _ _ _ h0 (by decide) (fun _ _ _ => ?_)
  ·
    refine KeepsV.then ?_ (msgImageBegin_keeps _ _ _) (by decide)
    exact Keeps.refl _ _

theorem execMoveRel_keeps (t) (src) (payload) (s) (h0 : waitingCount s = 0) : KeepsO [.log, .net, .pos, .axes, .pair] (beginAt t s) (execMoveRel t src payload s) := by
  unfold execMoveRel
  refine KeepsO.next ?_
  refine hostMessage_then _ _ _ _ _ h0 (by decide) (fun _ _ _ => ?_)
  ·
    refine KeepsV.then ?_ (msgMove_keeps _ _ _) (by decide)
    exact Keeps.refl _ _

theorem execLoopbackStart_keeps (t) (src) (payload) (s) (h0 : waitingCount s = 0) : KeepsO [.free, .log, .net, .jobs, .render, .fire, .links, .pair, .loops] (beginAt t s) (execLoopbackStart t src payload s) := by
  unfold execLoopbackStart
  refine KeepsO.next ?_
  refine hostMessage_then _ _ _ _ _ h0 (by decide) (fun _ _ _ => ?_)
  ·
    refine KeepsV.then ?_ (msgLoopback_keeps _ _ _ _) (by decide)
    exact Keeps.refl _ _

theorem execLoopbackStop_keeps (t) (src) (payload) (r) (s) (h0 : waitingCount s = 0) : KeepsO [.free, .log, .net, .jobs, .render, .fire, .links, .pair, .loops] (beginAt t s) (execLoopbackStop t src payload r s) := by
  unfold execLoopbackStop
  refine KeepsO.next ?_
  refine hostMessage_then _ _ _ _ _ h0 (by decide) (fun _ _ _ => ?_)
  ·
    refine KeepsV.then ?_ (msgLoopback_keeps _ _ _ _) (by decide)
    exact Keeps.refl _ _

theorem execGearChange_keeps (t) (src) (payload) (s) (h0 : waitingCount s = 0) : KeepsO [.log, .net, .pos, .axes, .pair] (beginAt t s) (execGearChange t src payload s) := by
  unfold execGearChange
  refine KeepsO.next ?_
  refine hostMessage_then _ _ _ _ _ h0 (by decide) (fun _ _ _ => ?_)
  ·
    refine KeepsV.then ?_ (msgMove_keeps _ _ _) (by decide)
    exact Keeps.refl _ _

theorem execMoveAbs_keeps (t) (src) (payload) (s) (h0 : waitingCount s = 0) : KeepsO [.log, .net, .pos, .axes, .pair] (beginAt t s) (execMoveAbs t src payload s) := by
  unfold execMoveAbs
  refine KeepsO.next ?_
  refine hostMessage_then _ _ _ _ _ h0 (by decide) (fun _ _ _ => ?_)
  ·
    refine KeepsV.then ?_ (msgMove_keeps _ _ _) (by decide)
    exact Keeps.refl _ _

theorem execHome_keeps (t) (src) (payload) (s) (h0 : waitingCount s = 0) : KeepsO [.log, .net, .pos, .axes, .pair] (beginAt t s) (execHome t src payload s) := by
  unfold execHome
  refine KeepsO.next ?_
  refine hostMessage_then _ _ _ _ _ h0 (by decide) (fun _ _ _ => ?_)
  ·
    refine KeepsV.then ?_ (msgMove_keeps _ _ _) (by decide)
    exact Keeps.refl _ _

theorem execResultRelease_keeps (t) (src) (payload) (s) (h0 : waitingCount s = 0) : KeepsO [.net, .pair] (beginAt t s) (execResultRelease t src payload s) := by
  unfold execResultRelease
  refine KeepsO.next ?_
  refine hostMessage_then _ _ _ _ _ h0 (by decide) (fun _ _ _ => ?_)
  ·
    refine KeepsV.then ?_ (msgResultRelease_keeps _ _ _) (by decide)
    exact Keeps.refl _ _

theorem execDptSegmentReceived_keeps (t port addr dest udp s) (h0 : waitingCount s = 0) :
    KeepsO [.log, .net, .pair] (beginAt t s) (execDptSegmentReceived t port addr dest udp s) := by
  unfold execDptSegmentReceived
  rw [h0]
  exact KeepsO.next (hearDatagram_keeps ..)

theorem execUnknownType_keeps (t) (src) (type) (s) (h0 : waitingCount s = 0) : KeepsO [.net, .pair] (beginAt t s) (execUnknownType t src type s) := by
  unfold execUnknownType
  refine KeepsO.next ?_
  refine Keeps.ite (fun _ => ?_) (fun _ => ?_)
  ·
    exact Keeps.refl _ _
  ·
    refine hostMessage_then _ _ _ _ _ h0 (by decide) (fun _ _ _ => ?_)
    ·
      refine KeepsV.then ?_ (msgUnknown_keeps _ _ _) (by decide)
      exact Keeps.refl _ _

theorem execTimedOutputPeriodic_keeps (t) (src) (payload) (s) (h0 : waitingCount s = 0) : KeepsO [.net, .time, .pair] (beginAt t s) (execTimedOutputPeriodic t src payload s) := by
  unfold execTimedOutputPeriodic
  refine KeepsO.next ?_
  refine hostMessage_then _ _ _ _ _ h0 (by decide) (fun _ _ _ => ?_)
  ·
    refine KeepsV.then ?_ (msgTimedOutput_keeps _ _ _) (by decide)
    exact Keeps.refl _ _

theorem execGear_keeps (t) (src) (payload) (s) (h0 : waitingCount s = 0) : KeepsO [.log, .net, .pos, .axes, .pair] (beginAt t s) (execGear t src payload s) := by
  unfold execGear
  refine KeepsO.next ?_
  refine hostMessage_then _ _ _ _ _ h0 (by decide) (fun _ _ _ => ?_)
  ·
    refine KeepsV.then ?_ (msgMove_keeps _ _ _) (by decide)
    exact Keeps.refl _ _

theorem execSurfaceData_keeps (t) (src) (payload) (s) (h0 : waitingCount s = 0) : KeepsO [.net, .jobs, .pair] (beginAt t s) (execSurfaceData t src payload s) := by
  unfold execSurfaceData
  refine KeepsO.next ?_
  refine hostMessage_then _ _ _ _ _ h0 (by decide) (fun _ _ _ => ?_)
  ·
    refine KeepsV.then ?_ (msgSurfaceData_keeps _ _ _) (by decide)
    exact Keeps.refl _ _

theorem execRestartReq_keeps (t) (src) (payload) (s) (h0 : waitingCount s = 0) : KeepsO [.mod, .power, .conf, .update, .log, .thermal, .gov, .net, .jobs, .render, .mem, .pos, .fire, .links, .cams, .cal, .time, .axes, .ring, .pair, .loops] (beginAt t s) (execRestartReq t src payload s) := by
  unfold execRestartReq
  refine KeepsO.next ?_
  refine hostMessage_then _ _ _ _ _ h0 (by decide) (fun _ _ _ => ?_)
  ·
    refine KeepsV.then ?_ (msgRestart_keeps _ _ _) (by decide)
    exact Keeps.refl _ _

theorem execMaintenanceReq_keeps (t) (src) (s) (h0 : waitingCount s = 0) : KeepsO [.mod, .power, .conf, .update, .log, .thermal, .gov, .net, .jobs, .render, .mem, .pos, .fire, .links, .cams, .cal, .time, .axes, .ring, .pair, .loops] (beginAt t s) (execMaintenanceReq t src s) := by
  unfold execMaintenanceReq
  refine KeepsO.next ?_
  refine hostMessage_then _ _ _ _ _ h0 (by decide) (fun _ _ _ => ?_)
  ·
    refine KeepsV.then ?_ (msgMaintenance_keeps _ _ _) (by decide)
    exact Keeps.refl _ _

theorem execImageBlock_keeps (t) (src) (payload) (s) (h0 : waitingCount s = 0) : KeepsO [.update, .net, .pair] (beginAt t s) (execImageBlock t src payload s) := by
  unfold execImageBlock
  refine KeepsO.next ?_
  refine hostMessage_then _ _ _ _ _ h0 (by decide) (fun _ _ _ => ?_)
  ·
    refine KeepsV.then ?_ (msgImageBlock_keeps _ _ _) (by decide)
    exact Keeps.refl _ _

theorem execJog_keeps (t) (src) (payload) (s) (h0 : waitingCount s = 0) : KeepsO [.log, .net, .pos, .axes, .pair] (beginAt t s) (execJog t src payload s) := by
  unfold execJog
  refine KeepsO.next ?_
  refine hostMessage_then _ _ _ _ _ h0 (by decide) (fun _ _ _ => ?_)
  ·
    refine KeepsV.then ?_ (msgMove_keeps _ _ _) (by decide)
    exact Keeps.refl _ _

theorem execDisable_keeps (t) (src) (payload) (s) (h0 : waitingCount s = 0) : KeepsO [.log, .net, .pos, .axes, .pair] (beginAt t s) (execDisable t src payload s) := by
  unfold execDisable
  refine KeepsO.next ?_
  refine hostMessage_then _ _ _ _ _ h0 (by decide) (fun _ _ _ => ?_)
  ·
    refine KeepsV.then ?_ (msgMove_keeps _ _ _) (by decide)
    exact Keeps.refl _ _

theorem execPageDefine_keeps (t) (src) (payload) (s) (h0 : waitingCount s = 0) : KeepsO [.net, .jobs, .render, .pair] (beginAt t s) (execPageDefine t src payload s) := by
  unfold execPageDefine
  refine KeepsO.next ?_
  refine hostMessage_then _ _ _ _ _ h0 (by decide) (fun _ _ _ => ?_)
  ·
    refine KeepsV.then ?_ (msgPageDefine_keeps _ _ _) (by decide)
    exact Keeps.refl _ _

theorem execHaltReq_keeps (t) (src) (payload) (s) (h0 : waitingCount s = 0) : KeepsO [.mod, .power, .conf, .update, .log, .gov, .net, .jobs, .render, .pos, .fire, .links, .cams, .cal, .axes, .ring, .pair] (beginAt t s) (execHaltReq t src payload s) := by
  unfold execHaltReq
  refine KeepsO.next ?_
  refine Keeps.then ?_ (settle_keeps _) (by decide)
  refine hostMessage_then _ _ _ _ _ h0 (by decide) (fun _ _ _ => ?_)
  ·
    refine KeepsV.then ?_ (msgHaltReq_keeps _ _ _) (by decide)
    exact Keeps.refl _ _

theorem execRunEnd_keeps (t) (src) (payload) (s) (h0 : waitingCount s = 0) : KeepsO [.mod, .power, .conf, .update, .log, .gov, .net, .jobs, .pos, .fire, .cams, .cal, .ring, .pair] (beginAt t s) (execRunEnd t src payload s) := by
  unfold execRunEnd
  refine KeepsO.next ?_
  refine hostMessage_then _ _ _ _ _ h0 (by decide) (fun _ _ _ => ?_)
  ·
    refine KeepsV.then ?_ (msgRunEnd_keeps _ _ _) (by decide)
    exact Keeps.refl _ _

theorem execSurfaceDefine_keeps (t) (src) (payload) (s) (h0 : waitingCount s = 0) : KeepsO [.net, .jobs, .pair] (beginAt t s) (execSurfaceDefine t src payload s) := by
  unfold execSurfaceDefine
  refine KeepsO.next ?_
  refine hostMessage_then _ _ _ _ _ h0 (by decide) (fun _ _ _ => ?_)
  ·
    refine KeepsV.then ?_ (msgSurfaceDefine_keeps _ _ _) (by decide)
    exact Keeps.refl _ _

theorem execTimedOutputCancel_keeps (t) (src) (payload) (s) (h0 : waitingCount s = 0) : KeepsO [.net, .time, .pair] (beginAt t s) (execTimedOutputCancel t src payload s) := by
  unfold execTimedOutputCancel
  refine KeepsO.next ?_
  refine hostMessage_then _ _ _ _ _ h0 (by decide) (fun _ _ _ => ?_)
  ·
    refine KeepsV.then ?_ (msgTimedOutput_keeps _ _ _) (by decide)
    exact Keeps.refl _ _

theorem execStop_keeps (t) (src) (payload) (s) (h0 : waitingCount s = 0) : KeepsO [.log, .net, .pos, .axes, .pair] (beginAt t s) (execStop t src payload s) := by
  unfold execStop
  refine KeepsO.next ?_
  refine hostMessage_then _ _ _ _ _ h0 (by decide) (fun _ _ _ => ?_)
  ·
    refine KeepsV.then ?_ (msgMove_keeps _ _ _) (by decide)
    exact Keeps.refl _ _

theorem execCalRunNow_keeps (t) (src) (payload) (s) (h0 : waitingCount s = 0) : KeepsO [.log, .net, .jobs, .cams, .cal, .pair] (beginAt t s) (execCalRunNow t src payload s) := by
  unfold execCalRunNow
  refine KeepsO.next ?_
  refine hostMessage_then _ _ _ _ _ h0 (by decide) (fun _ _ _ => ?_)
  ·
    refine KeepsV.then ?_ (msgCalRequest_keeps _ _ _) (by decide)
    exact Keeps.refl _ _

theorem execCalFreeze_keeps (t) (src) (payload) (s) (h0 : waitingCount s = 0) : KeepsO [.log, .net, .jobs, .cams, .cal, .pair] (beginAt t s) (execCalFreeze t src payload s) := by
  unfold execCalFreeze
  refine KeepsO.next ?_
  refine hostMessage_then _ _ _ _ _ h0 (by decide) (fun _ _ _ => ?_)
  ·
    refine KeepsV.then ?_ (msgCalRequest_keeps _ _ _) (by decide)
    exact Keeps.refl _ _

theorem execSetParams_keeps (t) (src) (payload) (s) (h0 : waitingCount s = 0) : KeepsO [.log, .net, .pos, .axes, .pair] (beginAt t s) (execSetParams t src payload s) := by
  unfold execSetParams
  refine KeepsO.next ?_
  refine hostMessage_then _ _ _ _ _ h0 (by decide) (fun _ _ _ => ?_)
  ·
    refine KeepsV.then ?_ (msgMove_keeps _ _ _) (by decide)
    exact Keeps.refl _ _

theorem execEnable_keeps (t) (src) (payload) (s) (h0 : waitingCount s = 0) : KeepsO [.log, .net, .pos, .axes, .pair] (beginAt t s) (execEnable t src payload s) := by
  unfold execEnable
  refine KeepsO.next ?_
  refine hostMessage_then _ _ _ _ _ h0 (by decide) (fun _ _ _ => ?_)
  ·
    refine KeepsV.then ?_ (msgMove_keeps _ _ _) (by decide)
    exact Keeps.refl _ _

theorem losePower_keeps (cause) (domain) (s) : Keeps [.raw, .mod, .power, .conf, .update, .log, .thermal, .monitors, .gov, .net, .jobs, .render, .mem, .pos, .fire, .links, .cams, .cal, .time, .axes, .ring, .pair, .loops] s (losePower cause domain s) := by
  unfold losePower
  refine Keeps.ite (fun _ => ?_) (fun _ => ?_)
  ·
    refine Keeps.then ?_ (atNextStart_keeps _ _ _) (by decide)
    refine Keeps.then ?_ (set_power_keeps ..) (by decide)
    refine Keeps.then ?_ (goOff_keeps _) (by decide)
    refine Keeps.then ?_ (haltAllLanes_keeps _) (by decide)
    exact Keeps.refl _ _
  ·
    refine Keeps.then ?_ (set_power_keeps ..) (by decide)
    refine Keeps.then ?_ (goOff_keeps _) (by decide)
    refine Keeps.then ?_ (haltAllLanes_keeps _) (by decide)
    exact Keeps.refl _ _

theorem execPowerGoodLost_keeps (t) (cause) (domain) (s) : KeepsO [.raw, .mod, .power, .conf, .update, .log, .thermal, .monitors, .gov, .net, .jobs, .render, .mem, .pos, .fire, .links, .cams, .cal, .time, .axes, .ring, .pair, .loops] (beginAt t s) (execPowerGoodLost t cause domain s) := by
  unfold execPowerGoodLost
  refine KeepsO.next ?_
  refine Keeps.ite (fun _ => ?_) (fun _ => ?_)
  ·
    refine Keeps.then ?_ (losePower_keeps _ _ _) (by decide)
    exact Keeps.refl _ _
  ·
    exact Keeps.refl _ _

theorem trainFully_keeps (reason) (s) : Keeps [.log, .net, .mem] s (trainFully reason s) := by
  unfold trainFully
  refine Keeps.then ?_ (raise_keeps _ _ _) (by decide)
  refine Keeps.then ?_ (set_mem_keeps ..) (by decide)
  exact Keeps.refl _ _

theorem decideTraining_keeps (ch) (ids) (dts) (s) : Keeps [.log, .net, .mem] s (decideTraining ch ids dts s) := by
  unfold decideTraining
  refine Keeps.ite (fun _ => ?_) (fun _ => ?_)
  ·
    refine Keeps.then ?_ (set_mem_keeps ..) (by decide)
    exact Keeps.refl _ _
  ·
    split
    ·
      refine Keeps.then ?_ (trainFully_keeps _ _) (by decide)
      refine Keeps.then ?_ (set_mem_keeps ..) (by decide)
      exact Keeps.refl _ _
    ·
      refine Keeps.then ?_ (set_mem_keeps ..) (by decide)
      try (refine Keeps.then ?_ (set_mem_keeps ..) (by decide))
      exact Keeps.refl _ _

theorem rejectSlot_keeps (n) (check) (s) : Keeps [.power, .flash] s (rejectSlot n check s) := by
  unfold rejectSlot
  refine Keeps.then ?_ (atNextStart_keeps _ _ _) (by decide)
  refine Keeps.then ?_ (markSlot_keeps _ _ _) (by decide)
  exact Keeps.refl _ _

theorem countTrial_keeps (s) : Keeps [.power, .flash] s (countTrial s) := by
  unfold countTrial
  refine Keeps.ite (fun _ => ?_) (fun _ => ?_)
  ·
    exact Keeps.refl _ _
  ·
    refine Keeps.ite (fun _ => ?_) (fun _ => ?_)
    ·
      refine Keeps.then ?_ (atNextStart_keeps _ _ _) (by decide)
      refine Keeps.then ?_ (writeBoot_keeps _ _ _ _ _) (by decide)
      refine Keeps.then ?_ (rejectSlot_keeps _ _ _) (by decide)
      exact Keeps.refl _ _
    ·
      refine Keeps.then ?_ (writeBoot_keeps _ _ _ _ _) (by decide)
      exact Keeps.refl _ _

theorem startSupervisor_keeps (n) (s) : Keeps [.mod, .power, .update, .log, .thermal, .net, .links, .time] s (startSupervisor n s) := by
  unfold startSupervisor
  refine Keeps.then ?_ (enterConfig_keeps _ _) (by decide)
  refine Keeps.then ?_ (set_update_keeps ..) (by decide)
  exact Keeps.refl _ _

theorem leaveTrain_keeps (s) : Keeps [.mod, .power, .conf, .update, .log, .gov, .net, .jobs, .pos, .fire, .cams, .cal, .ring, .pair] s (leaveTrain s) := by
  unfold leaveTrain
  refine Keeps.ite (fun _ => ?_) (fun _ => ?_)
  ·
    refine Keeps.then ?_ (enterIdle_keeps _ _) (by decide)
    exact Keeps.refl _ _
  ·
    exact Keeps.refl _ _

theorem execWatchdogExpiry_keeps (t) (s) : KeepsO [.raw, .mod, .power, .conf, .update, .log, .thermal, .monitors, .gov, .net, .jobs, .render, .mem, .pos, .fire, .links, .cams, .cal, .time, .axes, .ring, .pair, .loops] (beginAt t s) (execWatchdogExpiry t s) := by
  unfold execWatchdogExpiry
  refine KeepsO.next ?_
  refine Keeps.ite (fun _ => ?_) (fun _ => ?_)
  ·
    refine Keeps.then ?_ (losePower_keeps _ _ _) (by decide)
    exact Keeps.refl _ _
  ·
    exact Keeps.refl _ _

theorem failTraining_keeps (ch) (s) : Keeps [.mod, .power, .log, .net, .pos, .fire, .links, .cams, .time, .axes, .ring, .pair] s (failTraining ch s) := by
  unfold failTraining
  refine Keeps.then ?_ (enterMaintenance_keeps _ _) (by decide)
  refine Keeps.then ?_ (raise_keeps _ _ _) (by decide)
  exact Keeps.refl _ _

theorem channelTrained_keeps (ch) (s) : Keeps [.free, .mod, .power, .conf, .update, .log, .gov, .net, .jobs, .mem, .pos, .fire, .cams, .cal, .ring, .pair] s (channelTrained ch s) := by
  unfold channelTrained
  refine Keeps.then ?_ (leaveTrain_keeps _) (by decide)
  refine Keeps.then ?_ (set_mem_keeps ..) (by decide)
  refine Keeps.then ?_ (drawFree_keeps _) (by decide)
  refine Keeps.then ?_ (set_mem_keeps ..) (by decide)
  exact Keeps.refl _ _

theorem trainOutcome_keeps (ch) (res) (s) : Keeps [.free, .mod, .power, .conf, .update, .log, .gov, .net, .jobs, .mem, .pos, .fire, .links, .cams, .cal, .time, .axes, .ring, .pair] s (trainOutcome ch res s) := by
  unfold trainOutcome
  try dsimp only
  split
  ·
    refine Keeps.ite (fun _ => ?_) (fun _ => ?_)
    ·
      refine Keeps.then ?_ (channelTrained_keeps _ _) (by decide)
      exact Keeps.refl _ _
    ·
      exact Keeps.refl _ _
  ·
    refine Keeps.ite (fun _ => ?_) (fun _ => ?_)
    ·
      refine Keeps.then ?_ (trainFully_keeps _ _) (by decide)
      exact Keeps.refl _ _
    ·
      exact Keeps.refl _ _
  ·
    refine Keeps.ite (fun _ => ?_) (fun _ => ?_)
    ·
      exact Keeps.refl _ _
    ·
      refine Keeps.then ?_ (channelTrained_keeps _ _) (by decide)
      exact Keeps.refl _ _
  ·
    refine Keeps.ite (fun _ => ?_) (fun _ => ?_)
    ·
      exact Keeps.refl _ _
    ·
      refine Keeps.ite (fun _ => ?_) (fun _ => ?_)
      ·
        refine Keeps.then ?_ (set_mem_keeps ..) (by decide)
        exact Keeps.refl _ _
      ·
        refine Keeps.then ?_ (failTraining_keeps _ _) (by decide)
        exact Keeps.refl _ _

theorem execTrainingDone_keeps (t) (ch) (devIds) (dts) (res) (s) : KeepsO [.free, .mod, .power, .conf, .update, .log, .gov, .net, .jobs, .mem, .pos, .fire, .links, .cams, .cal, .time, .axes, .ring, .pair] (beginAt t s) (execTrainingDone t ch devIds dts res s) := by
  unfold execTrainingDone
  refine KeepsO.next ?_
  refine Keeps.ite (fun _ => ?_) (fun _ => ?_)
  ·
    exact Keeps.refl _ _
  ·
    refine Keeps.ite (fun _ => ?_) (fun _ => ?_)
    ·
      refine Keeps.then ?_ (failTraining_keeps _ _) (by decide)
      exact Keeps.refl _ _
    ·
      refine Keeps.then ?_ (trainOutcome_keeps _ _ _) (by decide)
      refine Keeps.then ?_ (decideTraining_keeps _ _ _ _) (by decide)
      exact Keeps.refl _ _

theorem latchStart_keeps (straps mv s) : Keeps [.raw, .free, .power, .jobs] s (latchStart straps mv s) := by
  have h1 (p j) : Keeps [.raw, .free, .power, .jobs] s { drawFree s with rawOrigin := s.now, power := p, jobs := j } :=
    ⟨⟨by intro g hg; cases g <;> first | rfl | simp at hg⟩,
      fun h => ⟨Nat.le_refl _, h.size, h.detail, h.chain, h.last⟩⟩
  unfold latchStart
  refine Keeps.ite (fun _ => ?_) (fun _ => ?_)
  · exact Keeps.forEach (fun _ _ => (Keeps.refl _ _).then (atNextStart_keeps ..) (by decide)) (h1 _ _)
  · exact (Keeps.forEach (fun _ _ => (Keeps.refl _ _).then (atNextStart_keeps ..) (by decide)) (h1 _ _)).then
      (atNextStart_keeps ..) (by decide)

theorem execPowerGood_keeps (t) (straps) (inputMv) (s) : KeepsO [.raw, .free, .mod, .power, .conf, .update, .log, .thermal, .gov, .net, .jobs, .render, .mem, .pos, .fire, .links, .cams, .cal, .time, .axes, .ring, .pair, .loops] (beginAt t s) (execPowerGood t straps inputMv s) := by
  unfold execPowerGood
  refine KeepsO.next ?_
  refine Keeps.ite (fun _ => ?_) (fun _ => ?_)
  ·
    refine Keeps.then ?_ (enterBoot_keeps _ _) (by decide)
    refine Keeps.then ?_ (latchStart_keeps _ _ _) (by decide)
    exact Keeps.refl _ _
  ·
    exact Keeps.refl _ _

theorem execInputLow_keeps (t) (mv) (s) : KeepsO [.power, .log, .net] (beginAt t s) (execInputLow t mv s) := by
  unfold execInputLow
  refine KeepsO.next ?_
  refine Keeps.ite (fun _ => ?_) (fun _ => ?_)
  ·
    exact Keeps.refl _ _
  ·
    refine Keeps.ite (fun _ => ?_) (fun _ => ?_)
    ·
      refine Keeps.then ?_ (set_power_keeps ..) (by decide)
      try (refine Keeps.then ?_ (set_power_keeps ..) (by decide))
      exact Keeps.refl _ _
    ·
      refine Keeps.ite (fun _ => ?_) (fun _ => ?_)
      ·
        refine Keeps.then ?_ (raise_keeps _ _ _) (by decide)
        refine Keeps.then ?_ (set_power_keeps ..) (by decide)
        try (refine Keeps.then ?_ (set_power_keeps ..) (by decide))
        exact Keeps.refl _ _
      ·
        refine Keeps.then ?_ (set_power_keeps ..) (by decide)
        exact Keeps.refl _ _

theorem execMemoryInitialised_keeps (t) (s) : KeepsO [.mod, .power, .conf, .update, .log, .gov, .net, .jobs, .mem, .pos, .fire, .cams, .cal, .ring, .pair] (beginAt t s) (execMemoryInitialised t s) := by
  unfold execMemoryInitialised
  refine KeepsO.next ?_
  refine Keeps.ite (fun _ => ?_) (fun _ => ?_)
  ·
    refine Keeps.then ?_ (leaveTrain_keeps _) (by decide)
    refine Keeps.then ?_ (set_mem_keeps ..) (by decide)
    exact Keeps.refl _ _
  ·
    exact Keeps.refl _ _

theorem fallBack_keeps (n) (s) : Keeps [.power, .flash] s (fallBack n s) := by
  unfold fallBack
  refine Keeps.ite (fun _ => ?_) (fun _ => ?_)
  ·
    refine Keeps.then ?_ (writeBoot_keeps _ _ _ _ _) (by decide)
    refine Keeps.ite (fun _ => ?_) (fun _ => ?_)
    ·
      exact Keeps.refl _ _
    ·
      refine Keeps.then ?_ (rejectSlot_keeps _ _ _) (by decide)
      exact Keeps.refl _ _
  ·
    refine Keeps.then ?_ (atNextStart_keeps _ _ _) (by decide)
    refine Keeps.then ?_ (writeBoot_keeps _ _ _ _ _) (by decide)
    refine Keeps.ite (fun _ => ?_) (fun _ => ?_)
    ·
      exact Keeps.refl _ _
    ·
      refine Keeps.then ?_ (rejectSlot_keeps _ _ _) (by decide)
      exact Keeps.refl _ _

theorem trySlots_keeps (l s) : Keeps [.mod, .power, .flash, .update, .log, .thermal, .net, .pos, .fire, .links, .cams, .time, .axes, .ring, .pair] s (trySlots l s) := by
  induction l generalizing s with
  | nil => exact ((Keeps.refl _ _).then (set_mod_keeps ..) (by decide)).then (enterMaintenance_keeps ..) (by decide)
  | cons n r ih =>
    unfold trySlots
    refine Keeps.ite (fun _ => ?_) (fun _ => ih _)
    split
    · exact ((Keeps.refl _ _).then (rejectSlot_keeps ..) (by decide)).then (ih _) (by decide)
    · refine Keeps.then ?_ (startSupervisor_keeps ..) (by decide)
      exact Keeps.ite (fun _ => Keeps.refl _ _) (fun _ => (Keeps.refl _ _).then (fallBack_keeps ..) (by decide))

theorem execShutdownLatchClear_keeps (t) (inputRemoved) (s) : KeepsO [.raw, .mod, .power, .conf, .update, .log, .thermal, .monitors, .gov, .net, .jobs, .render, .mem, .pos, .fire, .links, .cams, .cal, .time, .axes, .ring, .pair, .loops] (beginAt t s) (execShutdownLatchClear t inputRemoved s) := by
  unfold execShutdownLatchClear
  refine KeepsO.next ?_
  refine Keeps.ite (fun _ => ?_) (fun _ => ?_)
  ·
    refine Keeps.ite (fun _ => ?_) (fun _ => ?_)
    ·
      refine Keeps.then ?_ (losePower_keeps _ _ _) (by decide)
      exact Keeps.refl _ _
    ·
      exact Keeps.refl _ _
  ·
    refine Keeps.ite (fun _ => ?_) (fun _ => ?_)
    ·
      refine Keeps.then ?_ (set_power_keeps ..) (by decide)
      refine Keeps.ite (fun _ => ?_) (fun _ => ?_)
      ·
        refine Keeps.then ?_ (losePower_keeps _ _ _) (by decide)
        exact Keeps.refl _ _
      ·
        exact Keeps.refl _ _
    ·
      refine Keeps.then ?_ (set_power_keeps ..) (by decide)
      refine Keeps.ite (fun _ => ?_) (fun _ => ?_)
      ·
        refine Keeps.then ?_ (losePower_keeps _ _ _) (by decide)
        exact Keeps.refl _ _
      ·
        exact Keeps.refl _ _

theorem execBootSelect_keeps (t) (s) : KeepsO [.mod, .power, .flash, .update, .log, .thermal, .net, .pos, .fire, .links, .cams, .time, .axes, .ring, .pair] (beginAt t s) (execBootSelect t s) := by
  unfold execBootSelect
  refine KeepsO.next ?_
  refine Keeps.ite (fun _ => ?_) (fun _ => ?_)
  ·
    refine Keeps.then ?_ (trySlots_keeps _ _) (by decide)
    refine Keeps.then ?_ (countTrial_keeps _) (by decide)
    exact Keeps.refl _ _
  ·
    exact Keeps.refl _ _

theorem execCodecSelftest_keeps (t) (results) (s) : KeepsO [.mod, .power, .conf, .update, .log, .gov, .net, .jobs, .render, .pos, .fire, .links, .cams, .cal, .time, .axes, .ring, .pair] (beginAt t s) (execCodecSelftest t results s) := by
  unfold execCodecSelftest
  refine KeepsO.next ?_
  refine Keeps.ite (fun _ => ?_) (fun _ => ?_)
  ·
    exact Keeps.refl _ _
  ·
    refine Keeps.ite (fun _ => ?_) (fun _ => ?_)
    ·
      refine Keeps.then ?_ (leaveTrain_keeps _) (by decide)
      refine Keeps.then ?_ (set_render_keeps ..) (by decide)
      exact Keeps.refl _ _
    ·
      refine Keeps.then ?_ (enterMaintenance_keeps _ _) (by decide)
      refine Keeps.forEach (fun _ _ => ?_) ?_
      ·
        refine Keeps.then ?_ (raise_keeps _ _ _) (by decide)
        exact Keeps.refl _ _
      ·
        exact Keeps.refl _ _

theorem execResultRead_keeps (t) (src) (payload) (s) (h0 : waitingCount s = 0) : KeepsO [.free, .net, .pair] (beginAt t s) (execResultRead t src payload s) := by
  unfold execResultRead
  refine KeepsO.next ?_
  refine hostMessage_then _ _ _ _ _ h0 (by decide) (fun _ _ _ => ?_)
  ·
    refine KeepsV.then ?_ (readResult_keeps _ _ _ _) (by decide)
    exact Keeps.refl _ _

end Sys2Proof.Machine
end

