-- ==== Sys2Proof/Laws/State.lean ====
section
/-! SUPPORT. What each named update of the state changes and what it leaves: one lemma for each field, true by `rfl`, so that no
proof unfolds a record update. -/
namespace Sys2Proof.Machine
open Sys2Proof

/-! ### `beginAt` -/

@[simp] theorem beginAt_pending (t) (s) : (beginAt t s).pending = s.pending := rfl
@[simp] theorem beginAt_rawOrigin (t) (s) : (beginAt t s).rawOrigin = s.rawOrigin := rfl
@[simp] theorem beginAt_freeN (t) (s) : (beginAt t s).freeN = s.freeN := rfl
@[simp] theorem beginAt_mod (t) (s) : (beginAt t s).mod = s.mod := rfl
@[simp] theorem beginAt_power (t) (s) : (beginAt t s).power = s.power := rfl
@[simp] theorem beginAt_otp (t) (s) : (beginAt t s).otp = s.otp := rfl
@[simp] theorem beginAt_flash (t) (s) : (beginAt t s).flash = s.flash := rfl
@[simp] theorem beginAt_conf (t) (s) : (beginAt t s).conf = s.conf := rfl
@[simp] theorem beginAt_update (t) (s) : (beginAt t s).update = s.update := rfl
@[simp] theorem beginAt_log (t) (s) : (beginAt t s).log = s.log := rfl
@[simp] theorem beginAt_thermal (t) (s) : (beginAt t s).thermal = s.thermal := rfl
@[simp] theorem beginAt_monitors (t) (s) : (beginAt t s).monitors = s.monitors := rfl
@[simp] theorem beginAt_gov (t) (s) : (beginAt t s).gov = s.gov := rfl
@[simp] theorem beginAt_net (t) (s) : (beginAt t s).net = s.net := rfl
@[simp] theorem beginAt_jobs (t) (s) : (beginAt t s).jobs = s.jobs := rfl
@[simp] theorem beginAt_render (t) (s) : (beginAt t s).render = s.render := rfl
@[simp] theorem beginAt_mem (t) (s) : (beginAt t s).mem = s.mem := rfl
@[simp] theorem beginAt_pos (t) (s) : (beginAt t s).pos = s.pos := rfl
@[simp] theorem beginAt_fire (t) (s) : (beginAt t s).fire = s.fire := rfl
@[simp] theorem beginAt_links (t) (s) : (beginAt t s).links = s.links := rfl
@[simp] theorem beginAt_cams (t) (s) : (beginAt t s).cams = s.cams := rfl
@[simp] theorem beginAt_cal (t) (s) : (beginAt t s).cal = s.cal := rfl
@[simp] theorem beginAt_time (t) (s) : (beginAt t s).time = s.time := rfl
@[simp] theorem beginAt_axes (t) (s) : (beginAt t s).axes = s.axes := rfl
@[simp] theorem beginAt_ring (t) (s) : (beginAt t s).ring = s.ring := rfl
@[simp] theorem beginAt_pair (t) (s) : (beginAt t s).pair = s.pair := rfl
@[simp] theorem beginAt_loops (t) (s) : (beginAt t s).loops = s.loops := rfl
@[simp] theorem beginAt_now (t) (s) : (beginAt t s).now = max s.now t := rfl
@[simp] theorem beginAt_sent (t) (s) : (beginAt t s).sent = [] := rfl

/-! ### `emit` -/

@[simp] theorem emit_pending (o) (s) : (emit o s).pending = s.pending := rfl
@[simp] theorem emit_now (o) (s) : (emit o s).now = s.now := rfl
@[simp] theorem emit_rawOrigin (o) (s) : (emit o s).rawOrigin = s.rawOrigin := rfl
@[simp] theorem emit_freeN (o) (s) : (emit o s).freeN = s.freeN := rfl
@[simp] theorem emit_mod (o) (s) : (emit o s).mod = s.mod := rfl
@[simp] theorem emit_power (o) (s) : (emit o s).power = s.power := rfl
@[simp] theorem emit_otp (o) (s) : (emit o s).otp = s.otp := rfl
@[simp] theorem emit_flash (o) (s) : (emit o s).flash = s.flash := rfl
@[simp] theorem emit_conf (o) (s) : (emit o s).conf = s.conf := rfl
@[simp] theorem emit_update (o) (s) : (emit o s).update = s.update := rfl
@[simp] theorem emit_log (o) (s) : (emit o s).log = s.log := rfl
@[simp] theorem emit_thermal (o) (s) : (emit o s).thermal = s.thermal := rfl
@[simp] theorem emit_monitors (o) (s) : (emit o s).monitors = s.monitors := rfl
@[simp] theorem emit_gov (o) (s) : (emit o s).gov = s.gov := rfl
@[simp] theorem emit_net (o) (s) : (emit o s).net = s.net := rfl
@[simp] theorem emit_jobs (o) (s) : (emit o s).jobs = s.jobs := rfl
@[simp] theorem emit_render (o) (s) : (emit o s).render = s.render := rfl
@[simp] theorem emit_mem (o) (s) : (emit o s).mem = s.mem := rfl
@[simp] theorem emit_pos (o) (s) : (emit o s).pos = s.pos := rfl
@[simp] theorem emit_fire (o) (s) : (emit o s).fire = s.fire := rfl
@[simp] theorem emit_links (o) (s) : (emit o s).links = s.links := rfl
@[simp] theorem emit_cams (o) (s) : (emit o s).cams = s.cams := rfl
@[simp] theorem emit_cal (o) (s) : (emit o s).cal = s.cal := rfl
@[simp] theorem emit_time (o) (s) : (emit o s).time = s.time := rfl
@[simp] theorem emit_axes (o) (s) : (emit o s).axes = s.axes := rfl
@[simp] theorem emit_ring (o) (s) : (emit o s).ring = s.ring := rfl
@[simp] theorem emit_pair (o) (s) : (emit o s).pair = s.pair := rfl
@[simp] theorem emit_loops (o) (s) : (emit o s).loops = s.loops := rfl
@[simp] theorem emit_sent (o) (s) : (emit o s).sent = s.sent ++ [o] := rfl

/-! ### `drawFree` -/

@[simp] theorem drawFree_pending (s) : (drawFree s).pending = s.pending := rfl
@[simp] theorem drawFree_now (s) : (drawFree s).now = s.now := rfl
@[simp] theorem drawFree_rawOrigin (s) : (drawFree s).rawOrigin = s.rawOrigin := rfl
@[simp] theorem drawFree_sent (s) : (drawFree s).sent = s.sent := rfl
@[simp] theorem drawFree_mod (s) : (drawFree s).mod = s.mod := rfl
@[simp] theorem drawFree_power (s) : (drawFree s).power = s.power := rfl
@[simp] theorem drawFree_otp (s) : (drawFree s).otp = s.otp := rfl
@[simp] theorem drawFree_flash (s) : (drawFree s).flash = s.flash := rfl
@[simp] theorem drawFree_conf (s) : (drawFree s).conf = s.conf := rfl
@[simp] theorem drawFree_update (s) : (drawFree s).update = s.update := rfl
@[simp] theorem drawFree_log (s) : (drawFree s).log = s.log := rfl
@[simp] theorem drawFree_thermal (s) : (drawFree s).thermal = s.thermal := rfl
@[simp] theorem drawFree_monitors (s) : (drawFree s).monitors = s.monitors := rfl
@[simp] theorem drawFree_gov (s) : (drawFree s).gov = s.gov := rfl
@[simp] theorem drawFree_net (s) : (drawFree s).net = s.net := rfl
@[simp] theorem drawFree_jobs (s) : (drawFree s).jobs = s.jobs := rfl
@[simp] theorem drawFree_render (s) : (drawFree s).render = s.render := rfl
@[simp] theorem drawFree_mem (s) : (drawFree s).mem = s.mem := rfl
@[simp] theorem drawFree_pos (s) : (drawFree s).pos = s.pos := rfl
@[simp] theorem drawFree_fire (s) : (drawFree s).fire = s.fire := rfl
@[simp] theorem drawFree_links (s) : (drawFree s).links = s.links := rfl
@[simp] theorem drawFree_cams (s) : (drawFree s).cams = s.cams := rfl
@[simp] theorem drawFree_cal (s) : (drawFree s).cal = s.cal := rfl
@[simp] theorem drawFree_time (s) : (drawFree s).time = s.time := rfl
@[simp] theorem drawFree_axes (s) : (drawFree s).axes = s.axes := rfl
@[simp] theorem drawFree_ring (s) : (drawFree s).ring = s.ring := rfl
@[simp] theorem drawFree_pair (s) : (drawFree s).pair = s.pair := rfl
@[simp] theorem drawFree_loops (s) : (drawFree s).loops = s.loops := rfl
@[simp] theorem drawFree_freeN (s) : (drawFree s).freeN = s.freeN + 1 := rfl

/-! ### `drawFrees` -/

@[simp] theorem drawFrees_pending (k) (s) : (drawFrees k s).pending = s.pending := rfl
@[simp] theorem drawFrees_now (k) (s) : (drawFrees k s).now = s.now := rfl
@[simp] theorem drawFrees_rawOrigin (k) (s) : (drawFrees k s).rawOrigin = s.rawOrigin := rfl
@[simp] theorem drawFrees_sent (k) (s) : (drawFrees k s).sent = s.sent := rfl
@[simp] theorem drawFrees_mod (k) (s) : (drawFrees k s).mod = s.mod := rfl
@[simp] theorem drawFrees_power (k) (s) : (drawFrees k s).power = s.power := rfl
@[simp] theorem drawFrees_otp (k) (s) : (drawFrees k s).otp = s.otp := rfl
@[simp] theorem drawFrees_flash (k) (s) : (drawFrees k s).flash = s.flash := rfl
@[simp] theorem drawFrees_conf (k) (s) : (drawFrees k s).conf = s.conf := rfl
@[simp] theorem drawFrees_update (k) (s) : (drawFrees k s).update = s.update := rfl
@[simp] theorem drawFrees_log (k) (s) : (drawFrees k s).log = s.log := rfl
@[simp] theorem drawFrees_thermal (k) (s) : (drawFrees k s).thermal = s.thermal := rfl
@[simp] theorem drawFrees_monitors (k) (s) : (drawFrees k s).monitors = s.monitors := rfl
@[simp] theorem drawFrees_gov (k) (s) : (drawFrees k s).gov = s.gov := rfl
@[simp] theorem drawFrees_net (k) (s) : (drawFrees k s).net = s.net := rfl
@[simp] theorem drawFrees_jobs (k) (s) : (drawFrees k s).jobs = s.jobs := rfl
@[simp] theorem drawFrees_render (k) (s) : (drawFrees k s).render = s.render := rfl
@[simp] theorem drawFrees_mem (k) (s) : (drawFrees k s).mem = s.mem := rfl
@[simp] theorem drawFrees_pos (k) (s) : (drawFrees k s).pos = s.pos := rfl
@[simp] theorem drawFrees_fire (k) (s) : (drawFrees k s).fire = s.fire := rfl
@[simp] theorem drawFrees_links (k) (s) : (drawFrees k s).links = s.links := rfl
@[simp] theorem drawFrees_cams (k) (s) : (drawFrees k s).cams = s.cams := rfl
@[simp] theorem drawFrees_cal (k) (s) : (drawFrees k s).cal = s.cal := rfl
@[simp] theorem drawFrees_time (k) (s) : (drawFrees k s).time = s.time := rfl
@[simp] theorem drawFrees_axes (k) (s) : (drawFrees k s).axes = s.axes := rfl
@[simp] theorem drawFrees_ring (k) (s) : (drawFrees k s).ring = s.ring := rfl
@[simp] theorem drawFrees_pair (k) (s) : (drawFrees k s).pair = s.pair := rfl
@[simp] theorem drawFrees_loops (k) (s) : (drawFrees k s).loops = s.loops := rfl
@[simp] theorem drawFrees_freeN (k) (s) : (drawFrees k s).freeN = s.freeN + k := rfl

/-! ### `modCam` -/

@[simp] theorem modCam_pending (c f) (s) : (modCam c f s).pending = s.pending := rfl
@[simp] theorem modCam_now (c f) (s) : (modCam c f s).now = s.now := rfl
@[simp] theorem modCam_rawOrigin (c f) (s) : (modCam c f s).rawOrigin = s.rawOrigin := rfl
@[simp] theorem modCam_sent (c f) (s) : (modCam c f s).sent = s.sent := rfl
@[simp] theorem modCam_freeN (c f) (s) : (modCam c f s).freeN = s.freeN := rfl
@[simp] theorem modCam_mod (c f) (s) : (modCam c f s).mod = s.mod := rfl
@[simp] theorem modCam_power (c f) (s) : (modCam c f s).power = s.power := rfl
@[simp] theorem modCam_otp (c f) (s) : (modCam c f s).otp = s.otp := rfl
@[simp] theorem modCam_flash (c f) (s) : (modCam c f s).flash = s.flash := rfl
@[simp] theorem modCam_conf (c f) (s) : (modCam c f s).conf = s.conf := rfl
@[simp] theorem modCam_update (c f) (s) : (modCam c f s).update = s.update := rfl
@[simp] theorem modCam_log (c f) (s) : (modCam c f s).log = s.log := rfl
@[simp] theorem modCam_thermal (c f) (s) : (modCam c f s).thermal = s.thermal := rfl
@[simp] theorem modCam_monitors (c f) (s) : (modCam c f s).monitors = s.monitors := rfl
@[simp] theorem modCam_gov (c f) (s) : (modCam c f s).gov = s.gov := rfl
@[simp] theorem modCam_net (c f) (s) : (modCam c f s).net = s.net := rfl
@[simp] theorem modCam_jobs (c f) (s) : (modCam c f s).jobs = s.jobs := rfl
@[simp] theorem modCam_render (c f) (s) : (modCam c f s).render = s.render := rfl
@[simp] theorem modCam_mem (c f) (s) : (modCam c f s).mem = s.mem := rfl
@[simp] theorem modCam_pos (c f) (s) : (modCam c f s).pos = s.pos := rfl
@[simp] theorem modCam_fire (c f) (s) : (modCam c f s).fire = s.fire := rfl
@[simp] theorem modCam_links (c f) (s) : (modCam c f s).links = s.links := rfl
@[simp] theorem modCam_cal (c f) (s) : (modCam c f s).cal = s.cal := rfl
@[simp] theorem modCam_time (c f) (s) : (modCam c f s).time = s.time := rfl
@[simp] theorem modCam_axes (c f) (s) : (modCam c f s).axes = s.axes := rfl
@[simp] theorem modCam_ring (c f) (s) : (modCam c f s).ring = s.ring := rfl
@[simp] theorem modCam_pair (c f) (s) : (modCam c f s).pair = s.pair := rfl
@[simp] theorem modCam_loops (c f) (s) : (modCam c f s).loops = s.loops := rfl
@[simp] theorem modCam_cams (c f) (s) : (modCam c f s).cams = s.cams.modify c f := rfl

/-! ### `modAxis` -/

@[simp] theorem modAxis_pending (a f) (s) : (modAxis a f s).pending = s.pending := rfl
@[simp] theorem modAxis_now (a f) (s) : (modAxis a f s).now = s.now := rfl
@[simp] theorem modAxis_rawOrigin (a f) (s) : (modAxis a f s).rawOrigin = s.rawOrigin := rfl
@[simp] theorem modAxis_sent (a f) (s) : (modAxis a f s).sent = s.sent := rfl
@[simp] theorem modAxis_freeN (a f) (s) : (modAxis a f s).freeN = s.freeN := rfl
@[simp] theorem modAxis_mod (a f) (s) : (modAxis a f s).mod = s.mod := rfl
@[simp] theorem modAxis_power (a f) (s) : (modAxis a f s).power = s.power := rfl
@[simp] theorem modAxis_otp (a f) (s) : (modAxis a f s).otp = s.otp := rfl
@[simp] theorem modAxis_flash (a f) (s) : (modAxis a f s).flash = s.flash := rfl
@[simp] theorem modAxis_conf (a f) (s) : (modAxis a f s).conf = s.conf := rfl
@[simp] theorem modAxis_update (a f) (s) : (modAxis a f s).update = s.update := rfl
@[simp] theorem modAxis_log (a f) (s) : (modAxis a f s).log = s.log := rfl
@[simp] theorem modAxis_thermal (a f) (s) : (modAxis a f s).thermal = s.thermal := rfl
@[simp] theorem modAxis_monitors (a f) (s) : (modAxis a f s).monitors = s.monitors := rfl
@[simp] theorem modAxis_gov (a f) (s) : (modAxis a f s).gov = s.gov := rfl
@[simp] theorem modAxis_net (a f) (s) : (modAxis a f s).net = s.net := rfl
@[simp] theorem modAxis_jobs (a f) (s) : (modAxis a f s).jobs = s.jobs := rfl
@[simp] theorem modAxis_render (a f) (s) : (modAxis a f s).render = s.render := rfl
@[simp] theorem modAxis_mem (a f) (s) : (modAxis a f s).mem = s.mem := rfl
@[simp] theorem modAxis_pos (a f) (s) : (modAxis a f s).pos = s.pos := rfl
@[simp] theorem modAxis_fire (a f) (s) : (modAxis a f s).fire = s.fire := rfl
@[simp] theorem modAxis_links (a f) (s) : (modAxis a f s).links = s.links := rfl
@[simp] theorem modAxis_cams (a f) (s) : (modAxis a f s).cams = s.cams := rfl
@[simp] theorem modAxis_cal (a f) (s) : (modAxis a f s).cal = s.cal := rfl
@[simp] theorem modAxis_time (a f) (s) : (modAxis a f s).time = s.time := rfl
@[simp] theorem modAxis_ring (a f) (s) : (modAxis a f s).ring = s.ring := rfl
@[simp] theorem modAxis_pair (a f) (s) : (modAxis a f s).pair = s.pair := rfl
@[simp] theorem modAxis_loops (a f) (s) : (modAxis a f s).loops = s.loops := rfl
@[simp] theorem modAxis_axes (a f) (s) : (modAxis a f s).axes = s.axes.modify a f := rfl

/-! ### `modBar` -/

@[simp] theorem modBar_pending (b f) (s) : (modBar b f s).pending = s.pending := rfl
@[simp] theorem modBar_now (b f) (s) : (modBar b f s).now = s.now := rfl
@[simp] theorem modBar_rawOrigin (b f) (s) : (modBar b f s).rawOrigin = s.rawOrigin := rfl
@[simp] theorem modBar_sent (b f) (s) : (modBar b f s).sent = s.sent := rfl
@[simp] theorem modBar_freeN (b f) (s) : (modBar b f s).freeN = s.freeN := rfl
@[simp] theorem modBar_mod (b f) (s) : (modBar b f s).mod = s.mod := rfl
@[simp] theorem modBar_power (b f) (s) : (modBar b f s).power = s.power := rfl
@[simp] theorem modBar_otp (b f) (s) : (modBar b f s).otp = s.otp := rfl
@[simp] theorem modBar_flash (b f) (s) : (modBar b f s).flash = s.flash := rfl
@[simp] theorem modBar_conf (b f) (s) : (modBar b f s).conf = s.conf := rfl
@[simp] theorem modBar_update (b f) (s) : (modBar b f s).update = s.update := rfl
@[simp] theorem modBar_log (b f) (s) : (modBar b f s).log = s.log := rfl
@[simp] theorem modBar_thermal (b f) (s) : (modBar b f s).thermal = s.thermal := rfl
@[simp] theorem modBar_monitors (b f) (s) : (modBar b f s).monitors = s.monitors := rfl
@[simp] theorem modBar_gov (b f) (s) : (modBar b f s).gov = s.gov := rfl
@[simp] theorem modBar_net (b f) (s) : (modBar b f s).net = s.net := rfl
@[simp] theorem modBar_jobs (b f) (s) : (modBar b f s).jobs = s.jobs := rfl
@[simp] theorem modBar_render (b f) (s) : (modBar b f s).render = s.render := rfl
@[simp] theorem modBar_mem (b f) (s) : (modBar b f s).mem = s.mem := rfl
@[simp] theorem modBar_pos (b f) (s) : (modBar b f s).pos = s.pos := rfl
@[simp] theorem modBar_links (b f) (s) : (modBar b f s).links = s.links := rfl
@[simp] theorem modBar_cams (b f) (s) : (modBar b f s).cams = s.cams := rfl
@[simp] theorem modBar_cal (b f) (s) : (modBar b f s).cal = s.cal := rfl
@[simp] theorem modBar_time (b f) (s) : (modBar b f s).time = s.time := rfl
@[simp] theorem modBar_axes (b f) (s) : (modBar b f s).axes = s.axes := rfl
@[simp] theorem modBar_ring (b f) (s) : (modBar b f s).ring = s.ring := rfl
@[simp] theorem modBar_pair (b f) (s) : (modBar b f s).pair = s.pair := rfl
@[simp] theorem modBar_loops (b f) (s) : (modBar b f s).loops = s.loops := rfl
@[simp] theorem modBar_fire_bars (b f) (s) : (modBar b f s).fire.bars = s.fire.bars.modify b f := rfl
@[simp] theorem modBar_fire_lanes (b f) (s) : (modBar b f s).fire.lanes = s.fire.lanes := rfl
@[simp] theorem modBar_fire_overspeedN (b f) (s) : (modBar b f s).fire.overspeedN = s.fire.overspeedN := rfl
@[simp] theorem modBar_fire_lastDrop (b f) (s) : (modBar b f s).fire.lastDrop = s.fire.lastDrop := rfl
@[simp] theorem modBar_fire_slowSince (b f) (s) : (modBar b f s).fire.slowSince = s.fire.slowSince := rfl

/-! ### `modLane` -/

@[simp] theorem modLane_pending (g f) (s) : (modLane g f s).pending = s.pending := rfl
@[simp] theorem modLane_now (g f) (s) : (modLane g f s).now = s.now := rfl
@[simp] theorem modLane_rawOrigin (g f) (s) : (modLane g f s).rawOrigin = s.rawOrigin := rfl
@[simp] theorem modLane_sent (g f) (s) : (modLane g f s).sent = s.sent := rfl
@[simp] theorem modLane_freeN (g f) (s) : (modLane g f s).freeN = s.freeN := rfl
@[simp] theorem modLane_mod (g f) (s) : (modLane g f s).mod = s.mod := rfl
@[simp] theorem modLane_power (g f) (s) : (modLane g f s).power = s.power := rfl
@[simp] theorem modLane_otp (g f) (s) : (modLane g f s).otp = s.otp := rfl
@[simp] theorem modLane_flash (g f) (s) : (modLane g f s).flash = s.flash := rfl
@[simp] theorem modLane_conf (g f) (s) : (modLane g f s).conf = s.conf := rfl
@[simp] theorem modLane_update (g f) (s) : (modLane g f s).update = s.update := rfl
@[simp] theorem modLane_log (g f) (s) : (modLane g f s).log = s.log := rfl
@[simp] theorem modLane_thermal (g f) (s) : (modLane g f s).thermal = s.thermal := rfl
@[simp] theorem modLane_monitors (g f) (s) : (modLane g f s).monitors = s.monitors := rfl
@[simp] theorem modLane_gov (g f) (s) : (modLane g f s).gov = s.gov := rfl
@[simp] theorem modLane_net (g f) (s) : (modLane g f s).net = s.net := rfl
@[simp] theorem modLane_jobs (g f) (s) : (modLane g f s).jobs = s.jobs := rfl
@[simp] theorem modLane_render (g f) (s) : (modLane g f s).render = s.render := rfl
@[simp] theorem modLane_mem (g f) (s) : (modLane g f s).mem = s.mem := rfl
@[simp] theorem modLane_pos (g f) (s) : (modLane g f s).pos = s.pos := rfl
@[simp] theorem modLane_links (g f) (s) : (modLane g f s).links = s.links := rfl
@[simp] theorem modLane_cams (g f) (s) : (modLane g f s).cams = s.cams := rfl
@[simp] theorem modLane_cal (g f) (s) : (modLane g f s).cal = s.cal := rfl
@[simp] theorem modLane_time (g f) (s) : (modLane g f s).time = s.time := rfl
@[simp] theorem modLane_axes (g f) (s) : (modLane g f s).axes = s.axes := rfl
@[simp] theorem modLane_ring (g f) (s) : (modLane g f s).ring = s.ring := rfl
@[simp] theorem modLane_pair (g f) (s) : (modLane g f s).pair = s.pair := rfl
@[simp] theorem modLane_loops (g f) (s) : (modLane g f s).loops = s.loops := rfl
@[simp] theorem modLane_fire_bars (g f) (s) : (modLane g f s).fire.bars = s.fire.bars := rfl
@[simp] theorem modLane_fire_lanes (g f) (s) : (modLane g f s).fire.lanes = s.fire.lanes.modify g f := rfl
@[simp] theorem modLane_fire_overspeedN (g f) (s) : (modLane g f s).fire.overspeedN = s.fire.overspeedN := rfl
@[simp] theorem modLane_fire_lastDrop (g f) (s) : (modLane g f s).fire.lastDrop = s.fire.lastDrop := rfl
@[simp] theorem modLane_fire_slowSince (g f) (s) : (modLane g f s).fire.slowSince = s.fire.slowSince := rfl

/-! ### `modLink` -/

@[simp] theorem modLink_pending (k f) (s) : (modLink k f s).pending = s.pending := rfl
@[simp] theorem modLink_now (k f) (s) : (modLink k f s).now = s.now := rfl
@[simp] theorem modLink_rawOrigin (k f) (s) : (modLink k f s).rawOrigin = s.rawOrigin := rfl
@[simp] theorem modLink_sent (k f) (s) : (modLink k f s).sent = s.sent := rfl
@[simp] theorem modLink_freeN (k f) (s) : (modLink k f s).freeN = s.freeN := rfl
@[simp] theorem modLink_mod (k f) (s) : (modLink k f s).mod = s.mod := rfl
@[simp] theorem modLink_power (k f) (s) : (modLink k f s).power = s.power := rfl
@[simp] theorem modLink_otp (k f) (s) : (modLink k f s).otp = s.otp := rfl
@[simp] theorem modLink_flash (k f) (s) : (modLink k f s).flash = s.flash := rfl
@[simp] theorem modLink_conf (k f) (s) : (modLink k f s).conf = s.conf := rfl
@[simp] theorem modLink_update (k f) (s) : (modLink k f s).update = s.update := rfl
@[simp] theorem modLink_log (k f) (s) : (modLink k f s).log = s.log := rfl
@[simp] theorem modLink_thermal (k f) (s) : (modLink k f s).thermal = s.thermal := rfl
@[simp] theorem modLink_monitors (k f) (s) : (modLink k f s).monitors = s.monitors := rfl
@[simp] theorem modLink_gov (k f) (s) : (modLink k f s).gov = s.gov := rfl
@[simp] theorem modLink_net (k f) (s) : (modLink k f s).net = s.net := rfl
@[simp] theorem modLink_jobs (k f) (s) : (modLink k f s).jobs = s.jobs := rfl
@[simp] theorem modLink_render (k f) (s) : (modLink k f s).render = s.render := rfl
@[simp] theorem modLink_mem (k f) (s) : (modLink k f s).mem = s.mem := rfl
@[simp] theorem modLink_pos (k f) (s) : (modLink k f s).pos = s.pos := rfl
@[simp] theorem modLink_fire (k f) (s) : (modLink k f s).fire = s.fire := rfl
@[simp] theorem modLink_cams (k f) (s) : (modLink k f s).cams = s.cams := rfl
@[simp] theorem modLink_cal (k f) (s) : (modLink k f s).cal = s.cal := rfl
@[simp] theorem modLink_time (k f) (s) : (modLink k f s).time = s.time := rfl
@[simp] theorem modLink_axes (k f) (s) : (modLink k f s).axes = s.axes := rfl
@[simp] theorem modLink_ring (k f) (s) : (modLink k f s).ring = s.ring := rfl
@[simp] theorem modLink_pair (k f) (s) : (modLink k f s).pair = s.pair := rfl
@[simp] theorem modLink_loops (k f) (s) : (modLink k f s).loops = s.loops := rfl
@[simp] theorem modLink_links_links (k f) (s) : (modLink k f s).links.links = s.links.links.modify k f := rfl
@[simp] theorem modLink_links_pll (k f) (s) : (modLink k f s).links.pll = s.links.pll := rfl

/-! ### `modInput` -/

@[simp] theorem modInput_pending (i f) (s) : (modInput i f s).pending = s.pending := rfl
@[simp] theorem modInput_now (i f) (s) : (modInput i f s).now = s.now := rfl
@[simp] theorem modInput_rawOrigin (i f) (s) : (modInput i f s).rawOrigin = s.rawOrigin := rfl
@[simp] theorem modInput_sent (i f) (s) : (modInput i f s).sent = s.sent := rfl
@[simp] theorem modInput_freeN (i f) (s) : (modInput i f s).freeN = s.freeN := rfl
@[simp] theorem modInput_mod (i f) (s) : (modInput i f s).mod = s.mod := rfl
@[simp] theorem modInput_power (i f) (s) : (modInput i f s).power = s.power := rfl
@[simp] theorem modInput_otp (i f) (s) : (modInput i f s).otp = s.otp := rfl
@[simp] theorem modInput_flash (i f) (s) : (modInput i f s).flash = s.flash := rfl
@[simp] theorem modInput_conf (i f) (s) : (modInput i f s).conf = s.conf := rfl
@[simp] theorem modInput_update (i f) (s) : (modInput i f s).update = s.update := rfl
@[simp] theorem modInput_log (i f) (s) : (modInput i f s).log = s.log := rfl
@[simp] theorem modInput_thermal (i f) (s) : (modInput i f s).thermal = s.thermal := rfl
@[simp] theorem modInput_monitors (i f) (s) : (modInput i f s).monitors = s.monitors := rfl
@[simp] theorem modInput_gov (i f) (s) : (modInput i f s).gov = s.gov := rfl
@[simp] theorem modInput_net (i f) (s) : (modInput i f s).net = s.net := rfl
@[simp] theorem modInput_jobs (i f) (s) : (modInput i f s).jobs = s.jobs := rfl
@[simp] theorem modInput_render (i f) (s) : (modInput i f s).render = s.render := rfl
@[simp] theorem modInput_mem (i f) (s) : (modInput i f s).mem = s.mem := rfl
@[simp] theorem modInput_fire (i f) (s) : (modInput i f s).fire = s.fire := rfl
@[simp] theorem modInput_links (i f) (s) : (modInput i f s).links = s.links := rfl
@[simp] theorem modInput_cams (i f) (s) : (modInput i f s).cams = s.cams := rfl
@[simp] theorem modInput_cal (i f) (s) : (modInput i f s).cal = s.cal := rfl
@[simp] theorem modInput_time (i f) (s) : (modInput i f s).time = s.time := rfl
@[simp] theorem modInput_axes (i f) (s) : (modInput i f s).axes = s.axes := rfl
@[simp] theorem modInput_ring (i f) (s) : (modInput i f s).ring = s.ring := rfl
@[simp] theorem modInput_pair (i f) (s) : (modInput i f s).pair = s.pair := rfl
@[simp] theorem modInput_loops (i f) (s) : (modInput i f s).loops = s.loops := rfl
@[simp] theorem modInput_pos_inputs (i f) (s) : (modInput i f s).pos.inputs = s.pos.inputs.modify i f := rfl
@[simp] theorem modInput_pos_aux (i f) (s) : (modInput i f s).pos.aux = s.pos.aux := rfl
@[simp] theorem modInput_pos_dins (i f) (s) : (modInput i f s).pos.dins = s.pos.dins := rfl

/-! ### `modSession` -/

@[simp] theorem modSession_pending (i f) (s) : (modSession i f s).pending = s.pending := rfl
@[simp] theorem modSession_now (i f) (s) : (modSession i f s).now = s.now := rfl
@[simp] theorem modSession_rawOrigin (i f) (s) : (modSession i f s).rawOrigin = s.rawOrigin := rfl
@[simp] theorem modSession_sent (i f) (s) : (modSession i f s).sent = s.sent := rfl
@[simp] theorem modSession_freeN (i f) (s) : (modSession i f s).freeN = s.freeN := rfl
@[simp] theorem modSession_mod (i f) (s) : (modSession i f s).mod = s.mod := rfl
@[simp] theorem modSession_power (i f) (s) : (modSession i f s).power = s.power := rfl
@[simp] theorem modSession_otp (i f) (s) : (modSession i f s).otp = s.otp := rfl
@[simp] theorem modSession_flash (i f) (s) : (modSession i f s).flash = s.flash := rfl
@[simp] theorem modSession_conf (i f) (s) : (modSession i f s).conf = s.conf := rfl
@[simp] theorem modSession_update (i f) (s) : (modSession i f s).update = s.update := rfl
@[simp] theorem modSession_log (i f) (s) : (modSession i f s).log = s.log := rfl
@[simp] theorem modSession_thermal (i f) (s) : (modSession i f s).thermal = s.thermal := rfl
@[simp] theorem modSession_monitors (i f) (s) : (modSession i f s).monitors = s.monitors := rfl
@[simp] theorem modSession_gov (i f) (s) : (modSession i f s).gov = s.gov := rfl
@[simp] theorem modSession_jobs (i f) (s) : (modSession i f s).jobs = s.jobs := rfl
@[simp] theorem modSession_render (i f) (s) : (modSession i f s).render = s.render := rfl
@[simp] theorem modSession_mem (i f) (s) : (modSession i f s).mem = s.mem := rfl
@[simp] theorem modSession_pos (i f) (s) : (modSession i f s).pos = s.pos := rfl
@[simp] theorem modSession_fire (i f) (s) : (modSession i f s).fire = s.fire := rfl
@[simp] theorem modSession_links (i f) (s) : (modSession i f s).links = s.links := rfl
@[simp] theorem modSession_cams (i f) (s) : (modSession i f s).cams = s.cams := rfl
@[simp] theorem modSession_cal (i f) (s) : (modSession i f s).cal = s.cal := rfl
@[simp] theorem modSession_time (i f) (s) : (modSession i f s).time = s.time := rfl
@[simp] theorem modSession_axes (i f) (s) : (modSession i f s).axes = s.axes := rfl
@[simp] theorem modSession_ring (i f) (s) : (modSession i f s).ring = s.ring := rfl
@[simp] theorem modSession_pair (i f) (s) : (modSession i f s).pair = s.pair := rfl
@[simp] theorem modSession_loops (i f) (s) : (modSession i f s).loops = s.loops := rfl
@[simp] theorem modSession_net_ports (i f) (s) : (modSession i f s).net.ports = s.net.ports := rfl
@[simp] theorem modSession_net_sessions (i f) (s) : (modSession i f s).net.sessions = s.net.sessions.modify i f := rfl
@[simp] theorem modSession_net_hosts (i f) (s) : (modSession i f s).net.hosts = s.net.hosts := rfl
@[simp] theorem modSession_net_neighbours (i f) (s) : (modSession i f s).net.neighbours = s.net.neighbours := rfl
@[simp] theorem modSession_net_openFailures (i f) (s) : (modSession i f s).net.openFailures = s.net.openFailures := rfl
@[simp] theorem modSession_net_results (i f) (s) : (modSession i f s).net.results = s.net.results := rfl
@[simp] theorem modSession_net_tickets (i f) (s) : (modSession i f s).net.tickets = s.net.tickets := rfl
@[simp] theorem modSession_net_nextTicket (i f) (s) : (modSession i f s).net.nextTicket = s.net.nextTicket := rfl

/-! ### `modPort` -/

@[simp] theorem modPort_pending (p f) (s) : (modPort p f s).pending = s.pending := rfl
@[simp] theorem modPort_now (p f) (s) : (modPort p f s).now = s.now := rfl
@[simp] theorem modPort_rawOrigin (p f) (s) : (modPort p f s).rawOrigin = s.rawOrigin := rfl
@[simp] theorem modPort_sent (p f) (s) : (modPort p f s).sent = s.sent := rfl
@[simp] theorem modPort_freeN (p f) (s) : (modPort p f s).freeN = s.freeN := rfl
@[simp] theorem modPort_mod (p f) (s) : (modPort p f s).mod = s.mod := rfl
@[simp] theorem modPort_power (p f) (s) : (modPort p f s).power = s.power := rfl
@[simp] theorem modPort_otp (p f) (s) : (modPort p f s).otp = s.otp := rfl
@[simp] theorem modPort_flash (p f) (s) : (modPort p f s).flash = s.flash := rfl
@[simp] theorem modPort_conf (p f) (s) : (modPort p f s).conf = s.conf := rfl
@[simp] theorem modPort_update (p f) (s) : (modPort p f s).update = s.update := rfl
@[simp] theorem modPort_log (p f) (s) : (modPort p f s).log = s.log := rfl
@[simp] theorem modPort_thermal (p f) (s) : (modPort p f s).thermal = s.thermal := rfl
@[simp] theorem modPort_monitors (p f) (s) : (modPort p f s).monitors = s.monitors := rfl
@[simp] theorem modPort_gov (p f) (s) : (modPort p f s).gov = s.gov := rfl
@[simp] theorem modPort_jobs (p f) (s) : (modPort p f s).jobs = s.jobs := rfl
@[simp] theorem modPort_render (p f) (s) : (modPort p f s).render = s.render := rfl
@[simp] theorem modPort_mem (p f) (s) : (modPort p f s).mem = s.mem := rfl
@[simp] theorem modPort_pos (p f) (s) : (modPort p f s).pos = s.pos := rfl
@[simp] theorem modPort_fire (p f) (s) : (modPort p f s).fire = s.fire := rfl
@[simp] theorem modPort_links (p f) (s) : (modPort p f s).links = s.links := rfl
@[simp] theorem modPort_cams (p f) (s) : (modPort p f s).cams = s.cams := rfl
@[simp] theorem modPort_cal (p f) (s) : (modPort p f s).cal = s.cal := rfl
@[simp] theorem modPort_time (p f) (s) : (modPort p f s).time = s.time := rfl
@[simp] theorem modPort_axes (p f) (s) : (modPort p f s).axes = s.axes := rfl
@[simp] theorem modPort_ring (p f) (s) : (modPort p f s).ring = s.ring := rfl
@[simp] theorem modPort_pair (p f) (s) : (modPort p f s).pair = s.pair := rfl
@[simp] theorem modPort_loops (p f) (s) : (modPort p f s).loops = s.loops := rfl
@[simp] theorem modPort_net_ports (p f) (s) : (modPort p f s).net.ports = s.net.ports.modify p f := rfl
@[simp] theorem modPort_net_sessions (p f) (s) : (modPort p f s).net.sessions = s.net.sessions := rfl
@[simp] theorem modPort_net_hosts (p f) (s) : (modPort p f s).net.hosts = s.net.hosts := rfl
@[simp] theorem modPort_net_neighbours (p f) (s) : (modPort p f s).net.neighbours = s.net.neighbours := rfl
@[simp] theorem modPort_net_openFailures (p f) (s) : (modPort p f s).net.openFailures = s.net.openFailures := rfl
@[simp] theorem modPort_net_results (p f) (s) : (modPort p f s).net.results = s.net.results := rfl
@[simp] theorem modPort_net_tickets (p f) (s) : (modPort p f s).net.tickets = s.net.tickets := rfl
@[simp] theorem modPort_net_nextTicket (p f) (s) : (modPort p f s).net.nextTicket = s.net.nextTicket := rfl

/-! ### `modNode` -/

@[simp] theorem modNode_pending (n f) (s) : (modNode n f s).pending = s.pending := rfl
@[simp] theorem modNode_now (n f) (s) : (modNode n f s).now = s.now := rfl
@[simp] theorem modNode_rawOrigin (n f) (s) : (modNode n f s).rawOrigin = s.rawOrigin := rfl
@[simp] theorem modNode_sent (n f) (s) : (modNode n f s).sent = s.sent := rfl
@[simp] theorem modNode_freeN (n f) (s) : (modNode n f s).freeN = s.freeN := rfl
@[simp] theorem modNode_mod (n f) (s) : (modNode n f s).mod = s.mod := rfl
@[simp] theorem modNode_power (n f) (s) : (modNode n f s).power = s.power := rfl
@[simp] theorem modNode_otp (n f) (s) : (modNode n f s).otp = s.otp := rfl
@[simp] theorem modNode_flash (n f) (s) : (modNode n f s).flash = s.flash := rfl
@[simp] theorem modNode_conf (n f) (s) : (modNode n f s).conf = s.conf := rfl
@[simp] theorem modNode_update (n f) (s) : (modNode n f s).update = s.update := rfl
@[simp] theorem modNode_log (n f) (s) : (modNode n f s).log = s.log := rfl
@[simp] theorem modNode_thermal (n f) (s) : (modNode n f s).thermal = s.thermal := rfl
@[simp] theorem modNode_monitors (n f) (s) : (modNode n f s).monitors = s.monitors := rfl
@[simp] theorem modNode_gov (n f) (s) : (modNode n f s).gov = s.gov := rfl
@[simp] theorem modNode_net (n f) (s) : (modNode n f s).net = s.net := rfl
@[simp] theorem modNode_jobs (n f) (s) : (modNode n f s).jobs = s.jobs := rfl
@[simp] theorem modNode_render (n f) (s) : (modNode n f s).render = s.render := rfl
@[simp] theorem modNode_mem (n f) (s) : (modNode n f s).mem = s.mem := rfl
@[simp] theorem modNode_pos (n f) (s) : (modNode n f s).pos = s.pos := rfl
@[simp] theorem modNode_fire (n f) (s) : (modNode n f s).fire = s.fire := rfl
@[simp] theorem modNode_links (n f) (s) : (modNode n f s).links = s.links := rfl
@[simp] theorem modNode_cams (n f) (s) : (modNode n f s).cams = s.cams := rfl
@[simp] theorem modNode_cal (n f) (s) : (modNode n f s).cal = s.cal := rfl
@[simp] theorem modNode_time (n f) (s) : (modNode n f s).time = s.time := rfl
@[simp] theorem modNode_axes (n f) (s) : (modNode n f s).axes = s.axes := rfl
@[simp] theorem modNode_pair (n f) (s) : (modNode n f s).pair = s.pair := rfl
@[simp] theorem modNode_loops (n f) (s) : (modNode n f s).loops = s.loops := rfl
@[simp] theorem modNode_ring_state (n f) (s) : (modNode n f s).ring.state = s.ring.state := rfl
@[simp] theorem modNode_ring_bypassClosed (n f) (s) : (modNode n f s).ring.bypassClosed = s.ring.bypassClosed := rfl
@[simp] theorem modNode_ring_kingHeard (n f) (s) : (modNode n f s).ring.kingHeard = s.ring.kingHeard := rfl
@[simp] theorem modNode_ring_hops (n f) (s) : (modNode n f s).ring.hops = s.ring.hops := rfl
@[simp] theorem modNode_ring_commonMinor (n f) (s) : (modNode n f s).ring.commonMinor = s.ring.commonMinor := rfl
@[simp] theorem modNode_ring_roll (n f) (s) : (modNode n f s).ring.roll = s.ring.roll := rfl
@[simp] theorem modNode_ring_outages (n f) (s) : (modNode n f s).ring.outages = s.ring.outages := rfl
@[simp] theorem modNode_ring_longestOutage (n f) (s) : (modNode n f s).ring.longestOutage = s.ring.longestOutage := rfl
@[simp] theorem modNode_ring_imageTx (n f) (s) : (modNode n f s).ring.imageTx = s.ring.imageTx := rfl
@[simp] theorem modNode_ring_imageSent (n f) (s) : (modNode n f s).ring.imageSent = s.ring.imageSent := rfl
@[simp] theorem modNode_ring_sameMajor (n f) (s) : (modNode n f s).ring.sameMajor = s.ring.sameMajor := rfl
@[simp] theorem modNode_ring_crcDiscards (n f) (s) : (modNode n f s).ring.crcDiscards = s.ring.crcDiscards := rfl
@[simp] theorem modNode_ring_resends (n f) (s) : (modNode n f s).ring.resends = s.ring.resends := rfl
@[simp] theorem modNode_ring_nodes (n f) (s) : (modNode n f s).ring.nodes = s.ring.nodes.modify n f := rfl
@[simp] theorem modNode_ring_seq (n f) (s) : (modNode n f s).ring.seq = s.ring.seq := rfl
@[simp] theorem modNode_ring_tx (n f) (s) : (modNode n f s).ring.tx = s.ring.tx := rfl
@[simp] theorem modNode_ring_applied (n f) (s) : (modNode n f s).ring.applied = s.ring.applied := rfl
@[simp] theorem modNode_ring_attn (n f) (s) : (modNode n f s).ring.attn = s.ring.attn := rfl
@[simp] theorem modNode_ring_ejected (n f) (s) : (modNode n f s).ring.ejected = s.ring.ejected := rfl
@[simp] theorem modNode_ring_versionRaised (n f) (s) : (modNode n f s).ring.versionRaised = s.ring.versionRaised := rfl
@[simp] theorem modNode_ring_listenSince (n f) (s) : (modNode n f s).ring.listenSince = s.ring.listenSince := rfl
@[simp] theorem modNode_ring_openAt (n f) (s) : (modNode n f s).ring.openAt = s.ring.openAt := rfl
@[simp] theorem modNode_ring_granted (n f) (s) : (modNode n f s).ring.granted = s.ring.granted := rfl
@[simp] theorem modNode_ring_tried (n f) (s) : (modNode n f s).ring.tried = s.ring.tried := rfl
@[simp] theorem modNode_ring_attnLine (n f) (s) : (modNode n f s).ring.attnLine = s.ring.attnLine := rfl
@[simp] theorem modNode_ring_leavers (n f) (s) : (modNode n f s).ring.leavers = s.ring.leavers := rfl
@[simp] theorem modNode_ring_kingSeen (n f) (s) : (modNode n f s).ring.kingSeen = s.ring.kingSeen := rfl
@[simp] theorem modNode_ring_timeSeen (n f) (s) : (modNode n f s).ring.timeSeen = s.ring.timeSeen := rfl
@[simp] theorem modNode_ring_delayReq (n f) (s) : (modNode n f s).ring.delayReq = s.ring.delayReq := rfl
@[simp] theorem modNode_ring_hopDelay (n f) (s) : (modNode n f s).ring.hopDelay = s.ring.hopDelay := rfl
@[simp] theorem modNode_ring_rollSeen (n f) (s) : (modNode n f s).ring.rollSeen = s.ring.rollSeen := rfl
@[simp] theorem modNode_ring_leaving (n f) (s) : (modNode n f s).ring.leaving = s.ring.leaving := rfl
@[simp] theorem modNode_ring_cascade (n f) (s) : (modNode n f s).ring.cascade = s.ring.cascade := rfl
@[simp] theorem modNode_ring_owed (n f) (s) : (modNode n f s).ring.owed = s.ring.owed := rfl
@[simp] theorem modNode_ring_readySent (n f) (s) : (modNode n f s).ring.readySent = s.ring.readySent := rfl
@[simp] theorem modNode_ring_stopped (n f) (s) : (modNode n f s).ring.stopped = s.ring.stopped := rfl
@[simp] theorem modNode_ring_mismatchRaised (n f) (s) : (modNode n f s).ring.mismatchRaised = s.ring.mismatchRaised := rfl

/-! ### `modOut` -/

@[simp] theorem modOut_pending (n f) (s) : (modOut n f s).pending = s.pending := rfl
@[simp] theorem modOut_now (n f) (s) : (modOut n f s).now = s.now := rfl
@[simp] theorem modOut_rawOrigin (n f) (s) : (modOut n f s).rawOrigin = s.rawOrigin := rfl
@[simp] theorem modOut_sent (n f) (s) : (modOut n f s).sent = s.sent := rfl
@[simp] theorem modOut_freeN (n f) (s) : (modOut n f s).freeN = s.freeN := rfl
@[simp] theorem modOut_mod (n f) (s) : (modOut n f s).mod = s.mod := rfl
@[simp] theorem modOut_power (n f) (s) : (modOut n f s).power = s.power := rfl
@[simp] theorem modOut_otp (n f) (s) : (modOut n f s).otp = s.otp := rfl
@[simp] theorem modOut_flash (n f) (s) : (modOut n f s).flash = s.flash := rfl
@[simp] theorem modOut_conf (n f) (s) : (modOut n f s).conf = s.conf := rfl
@[simp] theorem modOut_update (n f) (s) : (modOut n f s).update = s.update := rfl
@[simp] theorem modOut_log (n f) (s) : (modOut n f s).log = s.log := rfl
@[simp] theorem modOut_thermal (n f) (s) : (modOut n f s).thermal = s.thermal := rfl
@[simp] theorem modOut_monitors (n f) (s) : (modOut n f s).monitors = s.monitors := rfl
@[simp] theorem modOut_gov (n f) (s) : (modOut n f s).gov = s.gov := rfl
@[simp] theorem modOut_net (n f) (s) : (modOut n f s).net = s.net := rfl
@[simp] theorem modOut_jobs (n f) (s) : (modOut n f s).jobs = s.jobs := rfl
@[simp] theorem modOut_render (n f) (s) : (modOut n f s).render = s.render := rfl
@[simp] theorem modOut_mem (n f) (s) : (modOut n f s).mem = s.mem := rfl
@[simp] theorem modOut_pos (n f) (s) : (modOut n f s).pos = s.pos := rfl
@[simp] theorem modOut_fire (n f) (s) : (modOut n f s).fire = s.fire := rfl
@[simp] theorem modOut_links (n f) (s) : (modOut n f s).links = s.links := rfl
@[simp] theorem modOut_cams (n f) (s) : (modOut n f s).cams = s.cams := rfl
@[simp] theorem modOut_cal (n f) (s) : (modOut n f s).cal = s.cal := rfl
@[simp] theorem modOut_axes (n f) (s) : (modOut n f s).axes = s.axes := rfl
@[simp] theorem modOut_ring (n f) (s) : (modOut n f s).ring = s.ring := rfl
@[simp] theorem modOut_pair (n f) (s) : (modOut n f s).pair = s.pair := rfl
@[simp] theorem modOut_loops (n f) (s) : (modOut n f s).loops = s.loops := rfl
@[simp] theorem modOut_time_raw0 (n f) (s) : (modOut n f s).time.raw0 = s.time.raw0 := rfl
@[simp] theorem modOut_time_t0 (n f) (s) : (modOut n f s).time.t0 = s.time.t0 := rfl
@[simp] theorem modOut_time_rate (n f) (s) : (modOut n f s).time.rate = s.time.rate := rfl
@[simp] theorem modOut_time_pending (n f) (s) : (modOut n f s).time.pending = s.time.pending := rfl
@[simp] theorem modOut_time_old (n f) (s) : (modOut n f s).time.old = s.time.old := rfl
@[simp] theorem modOut_time_hasLocked (n f) (s) : (modOut n f s).time.hasLocked = s.time.hasLocked := rfl
@[simp] theorem modOut_time_changesReplaced (n f) (s) : (modOut n f s).time.changesReplaced = s.time.changesReplaced := rfl
@[simp] theorem modOut_time_state (n f) (s) : (modOut n f s).time.state = s.time.state := rfl
@[simp] theorem modOut_time_ptpMaster (n f) (s) : (modOut n f s).time.ptpMaster = s.time.ptpMaster := rfl
@[simp] theorem modOut_time_steps (n f) (s) : (modOut n f s).time.steps = s.time.steps := rfl
@[simp] theorem modOut_time_offset (n f) (s) : (modOut n f s).time.offset = s.time.offset := rfl
@[simp] theorem modOut_time_integ (n f) (s) : (modOut n f s).time.integ = s.time.integ := rfl
@[simp] theorem modOut_time_within (n f) (s) : (modOut n f s).time.within = s.time.within := rfl
@[simp] theorem modOut_time_lastMeasure (n f) (s) : (modOut n f s).time.lastMeasure = s.time.lastMeasure := rfl
@[simp] theorem modOut_time_pathDelay (n f) (s) : (modOut n f s).time.pathDelay = s.time.pathDelay := rfl
@[simp] theorem modOut_time_master (n f) (s) : (modOut n f s).time.master = s.time.master := rfl
@[simp] theorem modOut_time_foreign (n f) (s) : (modOut n f s).time.foreign = s.time.foreign := rfl
@[simp] theorem modOut_time_syncHeld (n f) (s) : (modOut n f s).time.syncHeld = s.time.syncHeld := rfl
@[simp] theorem modOut_time_delayHeld (n f) (s) : (modOut n f s).time.delayHeld = s.time.delayHeld := rfl
@[simp] theorem modOut_time_syncDiff (n f) (s) : (modOut n f s).time.syncDiff = s.time.syncDiff := rfl
@[simp] theorem modOut_time_ptpSeq (n f) (s) : (modOut n f s).time.ptpSeq = s.time.ptpSeq := rfl
@[simp] theorem modOut_time_lastSync (n f) (s) : (modOut n f s).time.lastSync = s.time.lastSync := rfl
@[simp] theorem modOut_time_lastAnnounce (n f) (s) : (modOut n f s).time.lastAnnounce = s.time.lastAnnounce := rfl
@[simp] theorem modOut_time_outs (n f) (s) : (modOut n f s).time.outs = s.time.outs.modify n f := rfl

/-! ### `modArmed` -/

@[simp] theorem modArmed_pending (f) (s) : (modArmed f s).pending = s.pending := rfl
@[simp] theorem modArmed_now (f) (s) : (modArmed f s).now = s.now := rfl
@[simp] theorem modArmed_rawOrigin (f) (s) : (modArmed f s).rawOrigin = s.rawOrigin := rfl
@[simp] theorem modArmed_sent (f) (s) : (modArmed f s).sent = s.sent := rfl
@[simp] theorem modArmed_freeN (f) (s) : (modArmed f s).freeN = s.freeN := rfl
@[simp] theorem modArmed_mod (f) (s) : (modArmed f s).mod = s.mod := rfl
@[simp] theorem modArmed_power (f) (s) : (modArmed f s).power = s.power := rfl
@[simp] theorem modArmed_otp (f) (s) : (modArmed f s).otp = s.otp := rfl
@[simp] theorem modArmed_flash (f) (s) : (modArmed f s).flash = s.flash := rfl
@[simp] theorem modArmed_conf (f) (s) : (modArmed f s).conf = s.conf := rfl
@[simp] theorem modArmed_update (f) (s) : (modArmed f s).update = s.update := rfl
@[simp] theorem modArmed_log (f) (s) : (modArmed f s).log = s.log := rfl
@[simp] theorem modArmed_thermal (f) (s) : (modArmed f s).thermal = s.thermal := rfl
@[simp] theorem modArmed_monitors (f) (s) : (modArmed f s).monitors = s.monitors := rfl
@[simp] theorem modArmed_gov (f) (s) : (modArmed f s).gov = s.gov := rfl
@[simp] theorem modArmed_net (f) (s) : (modArmed f s).net = s.net := rfl
@[simp] theorem modArmed_render (f) (s) : (modArmed f s).render = s.render := rfl
@[simp] theorem modArmed_mem (f) (s) : (modArmed f s).mem = s.mem := rfl
@[simp] theorem modArmed_pos (f) (s) : (modArmed f s).pos = s.pos := rfl
@[simp] theorem modArmed_fire (f) (s) : (modArmed f s).fire = s.fire := rfl
@[simp] theorem modArmed_links (f) (s) : (modArmed f s).links = s.links := rfl
@[simp] theorem modArmed_cams (f) (s) : (modArmed f s).cams = s.cams := rfl
@[simp] theorem modArmed_cal (f) (s) : (modArmed f s).cal = s.cal := rfl
@[simp] theorem modArmed_time (f) (s) : (modArmed f s).time = s.time := rfl
@[simp] theorem modArmed_axes (f) (s) : (modArmed f s).axes = s.axes := rfl
@[simp] theorem modArmed_ring (f) (s) : (modArmed f s).ring = s.ring := rfl
@[simp] theorem modArmed_pair (f) (s) : (modArmed f s).pair = s.pair := rfl
@[simp] theorem modArmed_loops (f) (s) : (modArmed f s).loops = s.loops := rfl
@[simp] theorem modArmed_jobs_surfaces (f) (s) : (modArmed f s).jobs.surfaces = s.jobs.surfaces := rfl
@[simp] theorem modArmed_jobs_luts (f) (s) : (modArmed f s).jobs.luts = s.jobs.luts := rfl
@[simp] theorem modArmed_jobs_pages (f) (s) : (modArmed f s).jobs.pages = s.jobs.pages := rfl
@[simp] theorem modArmed_jobs_runs (f) (s) : (modArmed f s).jobs.runs = s.jobs.runs := rfl
@[simp] theorem modArmed_jobs_seals (f) (s) : (modArmed f s).jobs.seals = s.jobs.seals := rfl
@[simp] theorem modArmed_jobs_sealing (f) (s) : (modArmed f s).jobs.sealing = s.jobs.sealing := rfl
@[simp] theorem modArmed_jobs_arming (f) (s) : (modArmed f s).jobs.arming = s.jobs.arming := rfl
@[simp] theorem modArmed_jobs_armed (f) (s) : (modArmed f s).jobs.armed = s.jobs.armed.map f := rfl
@[simp] theorem modArmed_jobs_runId (f) (s) : (modArmed f s).jobs.runId = s.jobs.runId := rfl
@[simp] theorem modArmed_jobs_lastForm (f) (s) : (modArmed f s).jobs.lastForm = s.jobs.lastForm := rfl
@[simp] theorem modArmed_jobs_lastPolicy (f) (s) : (modArmed f s).jobs.lastPolicy = s.jobs.lastPolicy := rfl
@[simp] theorem modArmed_jobs_lastBarHalted (f) (s) : (modArmed f s).jobs.lastBarHalted = s.jobs.lastBarHalted := rfl
@[simp] theorem modArmed_jobs_lastNextSlot (f) (s) : (modArmed f s).jobs.lastNextSlot = s.jobs.lastNextSlot := rfl
@[simp] theorem modArmed_jobs_lastFired (f) (s) : (modArmed f s).jobs.lastFired = s.jobs.lastFired := rfl
@[simp] theorem modArmed_jobs_lastSpoiled (f) (s) : (modArmed f s).jobs.lastSpoiled = s.jobs.lastSpoiled := rfl
@[simp] theorem modArmed_jobs_lastQuarantined (f) (s) : (modArmed f s).jobs.lastQuarantined = s.jobs.lastQuarantined := rfl
@[simp] theorem modArmed_jobs_runTag (f) (s) : (modArmed f s).jobs.runTag = s.jobs.runTag := rfl
@[simp] theorem modArmed_jobs_lastDepth (f) (s) : (modArmed f s).jobs.lastDepth = s.jobs.lastDepth := rfl

/-! ### `modSlot` -/

@[simp] theorem modSlot_pending (n f) (s) : (modSlot n f s).pending = s.pending := rfl
@[simp] theorem modSlot_now (n f) (s) : (modSlot n f s).now = s.now := rfl
@[simp] theorem modSlot_rawOrigin (n f) (s) : (modSlot n f s).rawOrigin = s.rawOrigin := rfl
@[simp] theorem modSlot_sent (n f) (s) : (modSlot n f s).sent = s.sent := rfl
@[simp] theorem modSlot_freeN (n f) (s) : (modSlot n f s).freeN = s.freeN := rfl
@[simp] theorem modSlot_mod (n f) (s) : (modSlot n f s).mod = s.mod := rfl
@[simp] theorem modSlot_power (n f) (s) : (modSlot n f s).power = s.power := rfl
@[simp] theorem modSlot_otp (n f) (s) : (modSlot n f s).otp = s.otp := rfl
@[simp] theorem modSlot_flash (n f) (s) : (modSlot n f s).flash = s.flash := rfl
@[simp] theorem modSlot_conf (n f) (s) : (modSlot n f s).conf = s.conf := rfl
@[simp] theorem modSlot_update (n f) (s) : (modSlot n f s).update = s.update := rfl
@[simp] theorem modSlot_log (n f) (s) : (modSlot n f s).log = s.log := rfl
@[simp] theorem modSlot_thermal (n f) (s) : (modSlot n f s).thermal = s.thermal := rfl
@[simp] theorem modSlot_monitors (n f) (s) : (modSlot n f s).monitors = s.monitors := rfl
@[simp] theorem modSlot_gov (n f) (s) : (modSlot n f s).gov = s.gov := rfl
@[simp] theorem modSlot_net (n f) (s) : (modSlot n f s).net = s.net := rfl
@[simp] theorem modSlot_render (n f) (s) : (modSlot n f s).render = s.render := rfl
@[simp] theorem modSlot_mem (n f) (s) : (modSlot n f s).mem = s.mem := rfl
@[simp] theorem modSlot_pos (n f) (s) : (modSlot n f s).pos = s.pos := rfl
@[simp] theorem modSlot_fire (n f) (s) : (modSlot n f s).fire = s.fire := rfl
@[simp] theorem modSlot_links (n f) (s) : (modSlot n f s).links = s.links := rfl
@[simp] theorem modSlot_cams (n f) (s) : (modSlot n f s).cams = s.cams := rfl
@[simp] theorem modSlot_cal (n f) (s) : (modSlot n f s).cal = s.cal := rfl
@[simp] theorem modSlot_time (n f) (s) : (modSlot n f s).time = s.time := rfl
@[simp] theorem modSlot_axes (n f) (s) : (modSlot n f s).axes = s.axes := rfl
@[simp] theorem modSlot_ring (n f) (s) : (modSlot n f s).ring = s.ring := rfl
@[simp] theorem modSlot_pair (n f) (s) : (modSlot n f s).pair = s.pair := rfl
@[simp] theorem modSlot_loops (n f) (s) : (modSlot n f s).loops = s.loops := rfl
@[simp] theorem modSlot_jobs_surfaces (n f) (s) : (modSlot n f s).jobs.surfaces = s.jobs.surfaces := rfl
@[simp] theorem modSlot_jobs_luts (n f) (s) : (modSlot n f s).jobs.luts = s.jobs.luts := rfl
@[simp] theorem modSlot_jobs_pages (n f) (s) : (modSlot n f s).jobs.pages = s.jobs.pages := rfl
@[simp] theorem modSlot_jobs_runs (n f) (s) : (modSlot n f s).jobs.runs = s.jobs.runs := rfl
@[simp] theorem modSlot_jobs_seals (n f) (s) : (modSlot n f s).jobs.seals = s.jobs.seals := rfl
@[simp] theorem modSlot_jobs_sealing (n f) (s) : (modSlot n f s).jobs.sealing = s.jobs.sealing := rfl
@[simp] theorem modSlot_jobs_arming (n f) (s) : (modSlot n f s).jobs.arming = s.jobs.arming := rfl
@[simp] theorem modSlot_jobs_armed (n f) (s) : (modSlot n f s).jobs.armed = s.jobs.armed.map fun a => { a with slots := a.slots.map fun x => if x.num = n then f x else x } := rfl
@[simp] theorem modSlot_jobs_runId (n f) (s) : (modSlot n f s).jobs.runId = s.jobs.runId := rfl
@[simp] theorem modSlot_jobs_lastForm (n f) (s) : (modSlot n f s).jobs.lastForm = s.jobs.lastForm := rfl
@[simp] theorem modSlot_jobs_lastPolicy (n f) (s) : (modSlot n f s).jobs.lastPolicy = s.jobs.lastPolicy := rfl
@[simp] theorem modSlot_jobs_lastBarHalted (n f) (s) : (modSlot n f s).jobs.lastBarHalted = s.jobs.lastBarHalted := rfl
@[simp] theorem modSlot_jobs_lastNextSlot (n f) (s) : (modSlot n f s).jobs.lastNextSlot = s.jobs.lastNextSlot := rfl
@[simp] theorem modSlot_jobs_lastFired (n f) (s) : (modSlot n f s).jobs.lastFired = s.jobs.lastFired := rfl
@[simp] theorem modSlot_jobs_lastSpoiled (n f) (s) : (modSlot n f s).jobs.lastSpoiled = s.jobs.lastSpoiled := rfl
@[simp] theorem modSlot_jobs_lastQuarantined (n f) (s) : (modSlot n f s).jobs.lastQuarantined = s.jobs.lastQuarantined := rfl
@[simp] theorem modSlot_jobs_runTag (n f) (s) : (modSlot n f s).jobs.runTag = s.jobs.runTag := rfl
@[simp] theorem modSlot_jobs_lastDepth (n f) (s) : (modSlot n f s).jobs.lastDepth = s.jobs.lastDepth := rfl

/-! ### `modStrip` -/

@[simp] theorem modStrip_pending (n f) (s) : (modStrip n f s).pending = s.pending := rfl
@[simp] theorem modStrip_now (n f) (s) : (modStrip n f s).now = s.now := rfl
@[simp] theorem modStrip_rawOrigin (n f) (s) : (modStrip n f s).rawOrigin = s.rawOrigin := rfl
@[simp] theorem modStrip_sent (n f) (s) : (modStrip n f s).sent = s.sent := rfl
@[simp] theorem modStrip_freeN (n f) (s) : (modStrip n f s).freeN = s.freeN := rfl
@[simp] theorem modStrip_mod (n f) (s) : (modStrip n f s).mod = s.mod := rfl
@[simp] theorem modStrip_power (n f) (s) : (modStrip n f s).power = s.power := rfl
@[simp] theorem modStrip_otp (n f) (s) : (modStrip n f s).otp = s.otp := rfl
@[simp] theorem modStrip_flash (n f) (s) : (modStrip n f s).flash = s.flash := rfl
@[simp] theorem modStrip_conf (n f) (s) : (modStrip n f s).conf = s.conf := rfl
@[simp] theorem modStrip_update (n f) (s) : (modStrip n f s).update = s.update := rfl
@[simp] theorem modStrip_log (n f) (s) : (modStrip n f s).log = s.log := rfl
@[simp] theorem modStrip_thermal (n f) (s) : (modStrip n f s).thermal = s.thermal := rfl
@[simp] theorem modStrip_monitors (n f) (s) : (modStrip n f s).monitors = s.monitors := rfl
@[simp] theorem modStrip_gov (n f) (s) : (modStrip n f s).gov = s.gov := rfl
@[simp] theorem modStrip_net (n f) (s) : (modStrip n f s).net = s.net := rfl
@[simp] theorem modStrip_render (n f) (s) : (modStrip n f s).render = s.render := rfl
@[simp] theorem modStrip_mem (n f) (s) : (modStrip n f s).mem = s.mem := rfl
@[simp] theorem modStrip_pos (n f) (s) : (modStrip n f s).pos = s.pos := rfl
@[simp] theorem modStrip_fire (n f) (s) : (modStrip n f s).fire = s.fire := rfl
@[simp] theorem modStrip_links (n f) (s) : (modStrip n f s).links = s.links := rfl
@[simp] theorem modStrip_cams (n f) (s) : (modStrip n f s).cams = s.cams := rfl
@[simp] theorem modStrip_cal (n f) (s) : (modStrip n f s).cal = s.cal := rfl
@[simp] theorem modStrip_time (n f) (s) : (modStrip n f s).time = s.time := rfl
@[simp] theorem modStrip_axes (n f) (s) : (modStrip n f s).axes = s.axes := rfl
@[simp] theorem modStrip_ring (n f) (s) : (modStrip n f s).ring = s.ring := rfl
@[simp] theorem modStrip_pair (n f) (s) : (modStrip n f s).pair = s.pair := rfl
@[simp] theorem modStrip_loops (n f) (s) : (modStrip n f s).loops = s.loops := rfl
@[simp] theorem modStrip_jobs_surfaces (n f) (s) : (modStrip n f s).jobs.surfaces = s.jobs.surfaces := rfl
@[simp] theorem modStrip_jobs_luts (n f) (s) : (modStrip n f s).jobs.luts = s.jobs.luts := rfl
@[simp] theorem modStrip_jobs_pages (n f) (s) : (modStrip n f s).jobs.pages = s.jobs.pages := rfl
@[simp] theorem modStrip_jobs_runs (n f) (s) : (modStrip n f s).jobs.runs = s.jobs.runs := rfl
@[simp] theorem modStrip_jobs_seals (n f) (s) : (modStrip n f s).jobs.seals = s.jobs.seals := rfl
@[simp] theorem modStrip_jobs_sealing (n f) (s) : (modStrip n f s).jobs.sealing = s.jobs.sealing := rfl
@[simp] theorem modStrip_jobs_arming (n f) (s) : (modStrip n f s).jobs.arming = s.jobs.arming := rfl
@[simp] theorem modStrip_jobs_armed (n f) (s) : (modStrip n f s).jobs.armed = s.jobs.armed.map fun a => { a with strips := a.strips.map fun x => if x.slot = n then f x else x } := rfl
@[simp] theorem modStrip_jobs_runId (n f) (s) : (modStrip n f s).jobs.runId = s.jobs.runId := rfl
@[simp] theorem modStrip_jobs_lastForm (n f) (s) : (modStrip n f s).jobs.lastForm = s.jobs.lastForm := rfl
@[simp] theorem modStrip_jobs_lastPolicy (n f) (s) : (modStrip n f s).jobs.lastPolicy = s.jobs.lastPolicy := rfl
@[simp] theorem modStrip_jobs_lastBarHalted (n f) (s) : (modStrip n f s).jobs.lastBarHalted = s.jobs.lastBarHalted := rfl
@[simp] theorem modStrip_jobs_lastNextSlot (n f) (s) : (modStrip n f s).jobs.lastNextSlot = s.jobs.lastNextSlot := rfl
@[simp] theorem modStrip_jobs_lastFired (n f) (s) : (modStrip n f s).jobs.lastFired = s.jobs.lastFired := rfl
@[simp] theorem modStrip_jobs_lastSpoiled (n f) (s) : (modStrip n f s).jobs.lastSpoiled = s.jobs.lastSpoiled := rfl
@[simp] theorem modStrip_jobs_lastQuarantined (n f) (s) : (modStrip n f s).jobs.lastQuarantined = s.jobs.lastQuarantined := rfl
@[simp] theorem modStrip_jobs_runTag (n f) (s) : (modStrip n f s).jobs.runTag = s.jobs.runTag := rfl
@[simp] theorem modStrip_jobs_lastDepth (n f) (s) : (modStrip n f s).jobs.lastDepth = s.jobs.lastDepth := rfl

/-! ### `modPage` -/

@[simp] theorem modPage_pending (id f) (s) : (modPage id f s).pending = s.pending := rfl
@[simp] theorem modPage_now (id f) (s) : (modPage id f s).now = s.now := rfl
@[simp] theorem modPage_rawOrigin (id f) (s) : (modPage id f s).rawOrigin = s.rawOrigin := rfl
@[simp] theorem modPage_sent (id f) (s) : (modPage id f s).sent = s.sent := rfl
@[simp] theorem modPage_freeN (id f) (s) : (modPage id f s).freeN = s.freeN := rfl
@[simp] theorem modPage_mod (id f) (s) : (modPage id f s).mod = s.mod := rfl
@[simp] theorem modPage_power (id f) (s) : (modPage id f s).power = s.power := rfl
@[simp] theorem modPage_otp (id f) (s) : (modPage id f s).otp = s.otp := rfl
@[simp] theorem modPage_flash (id f) (s) : (modPage id f s).flash = s.flash := rfl
@[simp] theorem modPage_conf (id f) (s) : (modPage id f s).conf = s.conf := rfl
@[simp] theorem modPage_update (id f) (s) : (modPage id f s).update = s.update := rfl
@[simp] theorem modPage_log (id f) (s) : (modPage id f s).log = s.log := rfl
@[simp] theorem modPage_thermal (id f) (s) : (modPage id f s).thermal = s.thermal := rfl
@[simp] theorem modPage_monitors (id f) (s) : (modPage id f s).monitors = s.monitors := rfl
@[simp] theorem modPage_gov (id f) (s) : (modPage id f s).gov = s.gov := rfl
@[simp] theorem modPage_net (id f) (s) : (modPage id f s).net = s.net := rfl
@[simp] theorem modPage_render (id f) (s) : (modPage id f s).render = s.render := rfl
@[simp] theorem modPage_mem (id f) (s) : (modPage id f s).mem = s.mem := rfl
@[simp] theorem modPage_pos (id f) (s) : (modPage id f s).pos = s.pos := rfl
@[simp] theorem modPage_fire (id f) (s) : (modPage id f s).fire = s.fire := rfl
@[simp] theorem modPage_links (id f) (s) : (modPage id f s).links = s.links := rfl
@[simp] theorem modPage_cams (id f) (s) : (modPage id f s).cams = s.cams := rfl
@[simp] theorem modPage_cal (id f) (s) : (modPage id f s).cal = s.cal := rfl
@[simp] theorem modPage_time (id f) (s) : (modPage id f s).time = s.time := rfl
@[simp] theorem modPage_axes (id f) (s) : (modPage id f s).axes = s.axes := rfl
@[simp] theorem modPage_ring (id f) (s) : (modPage id f s).ring = s.ring := rfl
@[simp] theorem modPage_pair (id f) (s) : (modPage id f s).pair = s.pair := rfl
@[simp] theorem modPage_loops (id f) (s) : (modPage id f s).loops = s.loops := rfl
@[simp] theorem modPage_jobs_surfaces (id f) (s) : (modPage id f s).jobs.surfaces = s.jobs.surfaces := rfl
@[simp] theorem modPage_jobs_luts (id f) (s) : (modPage id f s).jobs.luts = s.jobs.luts := rfl
@[simp] theorem modPage_jobs_pages (id f) (s) : (modPage id f s).jobs.pages = s.jobs.pages.map fun p => if p.id = id then f p else p := rfl
@[simp] theorem modPage_jobs_runs (id f) (s) : (modPage id f s).jobs.runs = s.jobs.runs := rfl
@[simp] theorem modPage_jobs_seals (id f) (s) : (modPage id f s).jobs.seals = s.jobs.seals := rfl
@[simp] theorem modPage_jobs_sealing (id f) (s) : (modPage id f s).jobs.sealing = s.jobs.sealing := rfl
@[simp] theorem modPage_jobs_arming (id f) (s) : (modPage id f s).jobs.arming = s.jobs.arming := rfl
@[simp] theorem modPage_jobs_armed (id f) (s) : (modPage id f s).jobs.armed = s.jobs.armed := rfl
@[simp] theorem modPage_jobs_runId (id f) (s) : (modPage id f s).jobs.runId = s.jobs.runId := rfl
@[simp] theorem modPage_jobs_lastForm (id f) (s) : (modPage id f s).jobs.lastForm = s.jobs.lastForm := rfl
@[simp] theorem modPage_jobs_lastPolicy (id f) (s) : (modPage id f s).jobs.lastPolicy = s.jobs.lastPolicy := rfl
@[simp] theorem modPage_jobs_lastBarHalted (id f) (s) : (modPage id f s).jobs.lastBarHalted = s.jobs.lastBarHalted := rfl
@[simp] theorem modPage_jobs_lastNextSlot (id f) (s) : (modPage id f s).jobs.lastNextSlot = s.jobs.lastNextSlot := rfl
@[simp] theorem modPage_jobs_lastFired (id f) (s) : (modPage id f s).jobs.lastFired = s.jobs.lastFired := rfl
@[simp] theorem modPage_jobs_lastSpoiled (id f) (s) : (modPage id f s).jobs.lastSpoiled = s.jobs.lastSpoiled := rfl
@[simp] theorem modPage_jobs_lastQuarantined (id f) (s) : (modPage id f s).jobs.lastQuarantined = s.jobs.lastQuarantined := rfl
@[simp] theorem modPage_jobs_runTag (id f) (s) : (modPage id f s).jobs.runTag = s.jobs.runTag := rfl
@[simp] theorem modPage_jobs_lastDepth (id f) (s) : (modPage id f s).jobs.lastDepth = s.jobs.lastDepth := rfl

/-! ### `modNow` -/

@[simp] theorem modNow_pending (f) (s) : (modNow f s).pending = s.pending := rfl
@[simp] theorem modNow_now (f) (s) : (modNow f s).now = s.now := rfl
@[simp] theorem modNow_rawOrigin (f) (s) : (modNow f s).rawOrigin = s.rawOrigin := rfl
@[simp] theorem modNow_sent (f) (s) : (modNow f s).sent = s.sent := rfl
@[simp] theorem modNow_freeN (f) (s) : (modNow f s).freeN = s.freeN := rfl
@[simp] theorem modNow_mod (f) (s) : (modNow f s).mod = s.mod := rfl
@[simp] theorem modNow_power (f) (s) : (modNow f s).power = s.power := rfl
@[simp] theorem modNow_otp (f) (s) : (modNow f s).otp = s.otp := rfl
@[simp] theorem modNow_flash (f) (s) : (modNow f s).flash = s.flash := rfl
@[simp] theorem modNow_conf (f) (s) : (modNow f s).conf = s.conf := rfl
@[simp] theorem modNow_update (f) (s) : (modNow f s).update = s.update := rfl
@[simp] theorem modNow_log (f) (s) : (modNow f s).log = s.log := rfl
@[simp] theorem modNow_thermal (f) (s) : (modNow f s).thermal = s.thermal := rfl
@[simp] theorem modNow_monitors (f) (s) : (modNow f s).monitors = s.monitors := rfl
@[simp] theorem modNow_gov (f) (s) : (modNow f s).gov = s.gov := rfl
@[simp] theorem modNow_net (f) (s) : (modNow f s).net = s.net := rfl
@[simp] theorem modNow_jobs (f) (s) : (modNow f s).jobs = s.jobs := rfl
@[simp] theorem modNow_mem (f) (s) : (modNow f s).mem = s.mem := rfl
@[simp] theorem modNow_pos (f) (s) : (modNow f s).pos = s.pos := rfl
@[simp] theorem modNow_fire (f) (s) : (modNow f s).fire = s.fire := rfl
@[simp] theorem modNow_links (f) (s) : (modNow f s).links = s.links := rfl
@[simp] theorem modNow_cams (f) (s) : (modNow f s).cams = s.cams := rfl
@[simp] theorem modNow_cal (f) (s) : (modNow f s).cal = s.cal := rfl
@[simp] theorem modNow_time (f) (s) : (modNow f s).time = s.time := rfl
@[simp] theorem modNow_axes (f) (s) : (modNow f s).axes = s.axes := rfl
@[simp] theorem modNow_ring (f) (s) : (modNow f s).ring = s.ring := rfl
@[simp] theorem modNow_pair (f) (s) : (modNow f s).pair = s.pair := rfl
@[simp] theorem modNow_loops (f) (s) : (modNow f s).loops = s.loops := rfl
@[simp] theorem modNow_render_now (f) (s) : (modNow f s).render.now = s.render.now.map f := rfl
@[simp] theorem modNow_render_pagesRendered (f) (s) : (modNow f s).render.pagesRendered = s.render.pagesRendered := rfl
@[simp] theorem modNow_render_regionsPassed (f) (s) : (modNow f s).render.regionsPassed = s.render.regionsPassed := rfl
@[simp] theorem modNow_render_regionsFailed (f) (s) : (modNow f s).render.regionsFailed = s.render.regionsFailed := rfl
@[simp] theorem modNow_render_decodeRetries (f) (s) : (modNow f s).render.decodeRetries = s.render.decodeRetries := rfl
@[simp] theorem modNow_render_surfacesCorrupt (f) (s) : (modNow f s).render.surfacesCorrupt = s.render.surfacesCorrupt := rfl
@[simp] theorem modNow_render_referencesReduced (f) (s) : (modNow f s).render.referencesReduced = s.render.referencesReduced := rfl
@[simp] theorem modNow_render_epDrops (f) (s) : (modNow f s).render.epDrops = s.render.epDrops := rfl
@[simp] theorem modNow_render_epLost (f) (s) : (modNow f s).render.epLost = s.render.epLost := rfl
@[simp] theorem modNow_render_epUnresolved (f) (s) : (modNow f s).render.epUnresolved = s.render.epUnresolved := rfl
@[simp] theorem modNow_render_stitchForced (f) (s) : (modNow f s).render.stitchForced = s.render.stitchForced := rfl
@[simp] theorem modNow_render_deadFiles (f) (s) : (modNow f s).render.deadFiles = s.render.deadFiles := rfl
@[simp] theorem modNow_render_compressors (f) (s) : (modNow f s).render.compressors = s.render.compressors := rfl
@[simp] theorem modNow_render_selftestPassed (f) (s) : (modNow f s).render.selftestPassed = s.render.selftestPassed := rfl
@[simp] theorem modNow_render_encodeMismatches (f) (s) : (modNow f s).render.encodeMismatches = s.render.encodeMismatches := rfl
@[simp] theorem modNow_render_blocksWritten (f) (s) : (modNow f s).render.blocksWritten = s.render.blocksWritten := rfl
@[simp] theorem modNow_render_blocksRaw (f) (s) : (modNow f s).render.blocksRaw = s.render.blocksRaw := rfl
@[simp] theorem modNow_render_surfaceBlockFailures (f) (s) : (modNow f s).render.surfaceBlockFailures = s.render.surfaceBlockFailures := rfl
@[simp] theorem modNow_render_contextResumeFailures (f) (s) : (modNow f s).render.contextResumeFailures = s.render.contextResumeFailures := rfl
@[simp] theorem modNow_render_contexts (f) (s) : (modNow f s).render.contexts = s.render.contexts := rfl
@[simp] theorem modNow_render_contextsPeak (f) (s) : (modNow f s).render.contextsPeak = s.render.contextsPeak := rfl
@[simp] theorem modNow_render_mismatchPages (f) (s) : (modNow f s).render.mismatchPages = s.render.mismatchPages := rfl
@[simp] theorem modNow_render_decompressors (f) (s) : (modNow f s).render.decompressors = s.render.decompressors := rfl

/-! ### `modValues` -/

@[simp] theorem modValues_pending (f) (s) : (modValues f s).pending = s.pending := rfl
@[simp] theorem modValues_now (f) (s) : (modValues f s).now = s.now := rfl
@[simp] theorem modValues_rawOrigin (f) (s) : (modValues f s).rawOrigin = s.rawOrigin := rfl
@[simp] theorem modValues_sent (f) (s) : (modValues f s).sent = s.sent := rfl
@[simp] theorem modValues_freeN (f) (s) : (modValues f s).freeN = s.freeN := rfl
@[simp] theorem modValues_mod (f) (s) : (modValues f s).mod = s.mod := rfl
@[simp] theorem modValues_power (f) (s) : (modValues f s).power = s.power := rfl
@[simp] theorem modValues_otp (f) (s) : (modValues f s).otp = s.otp := rfl
@[simp] theorem modValues_flash (f) (s) : (modValues f s).flash = s.flash := rfl
@[simp] theorem modValues_conf (f) (s) : (modValues f s).conf = s.conf := rfl
@[simp] theorem modValues_update (f) (s) : (modValues f s).update = s.update := rfl
@[simp] theorem modValues_log (f) (s) : (modValues f s).log = s.log := rfl
@[simp] theorem modValues_thermal (f) (s) : (modValues f s).thermal = s.thermal := rfl
@[simp] theorem modValues_monitors (f) (s) : (modValues f s).monitors = s.monitors := rfl
@[simp] theorem modValues_gov (f) (s) : (modValues f s).gov = s.gov := rfl
@[simp] theorem modValues_net (f) (s) : (modValues f s).net = s.net := rfl
@[simp] theorem modValues_jobs (f) (s) : (modValues f s).jobs = s.jobs := rfl
@[simp] theorem modValues_render (f) (s) : (modValues f s).render = s.render := rfl
@[simp] theorem modValues_mem (f) (s) : (modValues f s).mem = s.mem := rfl
@[simp] theorem modValues_pos (f) (s) : (modValues f s).pos = s.pos := rfl
@[simp] theorem modValues_fire (f) (s) : (modValues f s).fire = s.fire := rfl
@[simp] theorem modValues_links (f) (s) : (modValues f s).links = s.links := rfl
@[simp] theorem modValues_cams (f) (s) : (modValues f s).cams = s.cams := rfl
@[simp] theorem modValues_time (f) (s) : (modValues f s).time = s.time := rfl
@[simp] theorem modValues_axes (f) (s) : (modValues f s).axes = s.axes := rfl
@[simp] theorem modValues_ring (f) (s) : (modValues f s).ring = s.ring := rfl
@[simp] theorem modValues_pair (f) (s) : (modValues f s).pair = s.pair := rfl
@[simp] theorem modValues_loops (f) (s) : (modValues f s).loops = s.loops := rfl
@[simp] theorem modValues_cal_values (f) (s) : (modValues f s).cal.values = f s.cal.values := rfl
@[simp] theorem modValues_cal_held (f) (s) : (modValues f s).cal.held = s.cal.held := rfl
@[simp] theorem modValues_cal_disagree (f) (s) : (modValues f s).cal.disagree = s.cal.disagree := rfl
@[simp] theorem modValues_cal_frozen (f) (s) : (modValues f s).cal.frozen = s.cal.frozen := rfl
@[simp] theorem modValues_cal_slews (f) (s) : (modValues f s).cal.slews = s.cal.slews := rfl
@[simp] theorem modValues_cal_rerendering (f) (s) : (modValues f s).cal.rerendering = s.cal.rerendering := rfl
@[simp] theorem modValues_cal_waiting (f) (s) : (modValues f s).cal.waiting = s.cal.waiting := rfl
@[simp] theorem modValues_cal_rerenderPages (f) (s) : (modValues f s).cal.rerenderPages = s.cal.rerenderPages := rfl
@[simp] theorem modValues_cal_oldParts (f) (s) : (modValues f s).cal.oldParts = s.cal.oldParts := rfl
@[simp] theorem modValues_cal_due (f) (s) : (modValues f s).cal.due = s.cal.due := rfl
@[simp] theorem modValues_cal_ncTurn (f) (s) : (modValues f s).cal.ncTurn = s.cal.ncTurn := rfl
@[simp] theorem modValues_cal_stripsSkipped (f) (s) : (modValues f s).cal.stripsSkipped = s.cal.stripsSkipped := rfl
@[simp] theorem modValues_cal_storeSeq (f) (s) : (modValues f s).cal.storeSeq = s.cal.storeSeq := rfl
@[simp] theorem modValues_cal_changed (f) (s) : (modValues f s).cal.changed = s.cal.changed := rfl
@[simp] theorem modValues_cal_kinds (f) (s) : (modValues f s).cal.kinds = s.cal.kinds := rfl
@[simp] theorem modValues_cal_runNow (f) (s) : (modValues f s).cal.runNow = s.cal.runNow := rfl
@[simp] theorem modValues_cal_marks (f) (s) : (modValues f s).cal.marks = s.cal.marks := rfl
@[simp] theorem modValues_cal_inspected (f) (s) : (modValues f s).cal.inspected = s.cal.inspected := rfl
@[simp] theorem modValues_cal_disagreedStrips (f) (s) : (modValues f s).cal.disagreedStrips = s.cal.disagreedStrips := rfl

/-! ### `suppress` -/

@[simp] theorem suppress_pending (s) : (suppress s).pending = s.pending := rfl
@[simp] theorem suppress_now (s) : (suppress s).now = s.now := rfl
@[simp] theorem suppress_rawOrigin (s) : (suppress s).rawOrigin = s.rawOrigin := rfl
@[simp] theorem suppress_sent (s) : (suppress s).sent = s.sent := rfl
@[simp] theorem suppress_freeN (s) : (suppress s).freeN = s.freeN := rfl
@[simp] theorem suppress_mod (s) : (suppress s).mod = s.mod := rfl
@[simp] theorem suppress_power (s) : (suppress s).power = s.power := rfl
@[simp] theorem suppress_otp (s) : (suppress s).otp = s.otp := rfl
@[simp] theorem suppress_flash (s) : (suppress s).flash = s.flash := rfl
@[simp] theorem suppress_conf (s) : (suppress s).conf = s.conf := rfl
@[simp] theorem suppress_update (s) : (suppress s).update = s.update := rfl
@[simp] theorem suppress_thermal (s) : (suppress s).thermal = s.thermal := rfl
@[simp] theorem suppress_monitors (s) : (suppress s).monitors = s.monitors := rfl
@[simp] theorem suppress_gov (s) : (suppress s).gov = s.gov := rfl
@[simp] theorem suppress_net (s) : (suppress s).net = s.net := rfl
@[simp] theorem suppress_jobs (s) : (suppress s).jobs = s.jobs := rfl
@[simp] theorem suppress_render (s) : (suppress s).render = s.render := rfl
@[simp] theorem suppress_mem (s) : (suppress s).mem = s.mem := rfl
@[simp] theorem suppress_pos (s) : (suppress s).pos = s.pos := rfl
@[simp] theorem suppress_fire (s) : (suppress s).fire = s.fire := rfl
@[simp] theorem suppress_links (s) : (suppress s).links = s.links := rfl
@[simp] theorem suppress_cams (s) : (suppress s).cams = s.cams := rfl
@[simp] theorem suppress_cal (s) : (suppress s).cal = s.cal := rfl
@[simp] theorem suppress_time (s) : (suppress s).time = s.time := rfl
@[simp] theorem suppress_axes (s) : (suppress s).axes = s.axes := rfl
@[simp] theorem suppress_ring (s) : (suppress s).ring = s.ring := rfl
@[simp] theorem suppress_pair (s) : (suppress s).pair = s.pair := rfl
@[simp] theorem suppress_loops (s) : (suppress s).loops = s.loops := rfl
@[simp] theorem suppress_log_events (s) : (suppress s).log.events = s.log.events := rfl
@[simp] theorem suppress_log_nextSeq (s) : (suppress s).log.nextSeq = s.log.nextSeq := rfl
@[simp] theorem suppress_log_suppressed (s) : (suppress s).log.suppressed = wrapInc 32 s.log.suppressed := rfl
@[simp] theorem suppress_log_unsent (s) : (suppress s).log.unsent = s.log.unsent := rfl
@[simp] theorem suppress_log_limits (s) : (suppress s).log.limits = s.log.limits := rfl

end Sys2Proof.Machine
end

