-- ==== Sys2Proof/WellFormed.lean ====
section
/-! DEFINITION. When a command's operands are within the module: ports, bars, links, lanes, axes and so on that exist,
session and message numbers within their fields, and payloads no longer than a message may be (R58). -/
namespace Sys2Proof

/-- Session and message numbers lie within their header fields (*Table: DPT header*). -/
def srcOk (src : Src) : Bool := decide (src.session < 2 ^ 16) && decide (src.msg < 2 ^ 32)

/-- A ring frame's fields lie within theirs, and it does not exceed 1,056 bytes with its header of 8 and its CRC of 4 (R474). -/
def frameOk (f : RingFrame) : Bool :=
  decide (f.type < 256) && decide (f.source < 256) && decide (f.dest < 256) && decide (f.hops < 256) &&
    decide (f.seq < 65536) && decide (f.body.length ≤ 1044)

/-- An engine and a vector of codec self-verification (*Table: Raron engines*, *Table: Codec self-verification vectors*). -/
def vectorOk (r : VectorResult) : Bool :=
  decide (r.kind < 3) && decide (r.engine < if r.kind = 2 then 128 else 48) && decide (r.vector < 4)

/-- A burst lies in the memory, and has 16 beats (R221, R247). -/
def burstOk (r : BurstRead) : Bool := decide (r.addr < 2 ^ 37) && decide (r.addr % 64 = 0) && decide (r.beats.length = 16)

/-- The bursts and vectors of what came back in a loop-back are such. -/
def returnOk (r : LoopReturn) : Bool :=
  match r with
  | .scan _ reads _ => reads.all burstOk
  | .vectors _ results _ => results.all vectorOk
  | .nothing => true
  | .bits _ => true
  | .stats _ _ _ => true
  | .march _ _ _ _ => true
  | .edges _ _ _ _ => true
  | .levels _ => true

/-- A well-formed command. -/
def wellFormed (i : Instr) : Bool :=
  match i with
  | .powerGood _ straps _ => decide (straps < 16)
  | .powerGoodLost _ _ domain => decide (domain < 10)
  | .bootSelect _ => true
  | .configRead _ => true
  | .trainingDone _ ch _ _ _ => decide (ch < 4)
  | .memoryInitialised _ => true
  | .codecSelftest _ results => results.all vectorOk
  | .watchdogExpiry _ => true
  | .inputLow _ _ => true
  | .shutdownLatchClear _ _ => true
  | .thermalSample _ _ => true
  | .blitzOff _ => true
  | .shutdownRecordWritten _ => true
  | .speedMonitorWindow _ mon _ => decide (mon < 24)
  | .speedMonitorBroken _ mon => decide (mon < 24)
  | .governorPeriod _ => true
  | .dptSegmentReceived _ port _ _ _ => decide (port < 2)
  | .networkFrameDiscarded _ port _ => decide (port < 2)
  | .arpNdpRequest _ port _ _ _ => decide (port < 2)
  | .icmpEcho _ port _ _ _ => decide (port < 2)
  | .portLinkChange _ port _ => decide (port < 2)
  | .portSpeedAlternate _ port => decide (port < 2)
  | .ackDelayExpiry _ _ => true
  | .creditReopened _ _ _ => true
  | .dptRtoExpiry _ _ _ => true
  | .sessionTimeout _ _ => true
  | .keepaliveDue _ _ => true
  | .sessionOpen _ port _ _ header _ => decide (port < 2) && decide (header.length = 32)
  | .sessionClose _ src payload => srcOk src && decide (payload.length ≤ 16777216)
  | .keepalive _ _ => true
  | .ack _ _ _ _ _ => true
  | .unknownType _ src _ => srcOk src
  | .haltReq _ src payload => srcOk src && decide (payload.length ≤ 16777216)
  | .restartReq _ src payload => srcOk src && decide (payload.length ≤ 16777216)
  | .maintenanceReq _ src => srcOk src
  | .loopbackStart _ src payload => srcOk src && decide (payload.length ≤ 16777216)
  | .loopbackStop _ src payload r => srcOk src && decide (payload.length ≤ 16777216) && returnOk r
  | .loopbackEnd _ _ _ r => returnOk r
  | .loopbackPreempted _ _ r => returnOk r
  | .surfaceDefine _ src payload => srcOk src && decide (payload.length ≤ 16777216)
  | .surfaceData _ src payload => srcOk src && decide (payload.length ≤ 16777216)
  | .surfaceSeal _ src payload => srcOk src && decide (payload.length ≤ 16777216)
  | .sealCheckDone _ => true
  | .surfaceFree _ src payload => srcOk src && decide (payload.length ≤ 16777216)
  | .lutDefine _ src payload => srcOk src && decide (payload.length ≤ 16777216)
  | .pageDefine _ src payload => srcOk src && decide (payload.length ≤ 16777216)
  | .pageFree _ src payload => srcOk src && decide (payload.length ≤ 16777216)
  | .runDefine _ src payload => srcOk src && decide (payload.length ≤ 16777216)
  | .runArm _ src payload => srcOk src && decide (payload.length ≤ 16777216)
  | .runArmVerdict _ => true
  | .runStop _ src payload => srcOk src && decide (payload.length ≤ 16777216)
  | .runCancel _ src payload => srcOk src && decide (payload.length ≤ 16777216)
  | .runEnd _ src payload => srcOk src && decide (payload.length ≤ 16777216)
  | .calRunNow _ src payload => srcOk src && decide (payload.length ≤ 16777216)
  | .calFreeze _ src payload => srcOk src && decide (payload.length ≤ 16777216)
  | .calThaw _ src payload => srcOk src && decide (payload.length ≤ 16777216)
  | .calReset _ src payload => srcOk src && decide (payload.length ≤ 16777216)
  | .moveAbs _ src payload => srcOk src && decide (payload.length ≤ 16777216)
  | .moveRel _ src payload => srcOk src && decide (payload.length ≤ 16777216)
  | .jog _ src payload => srcOk src && decide (payload.length ≤ 16777216)
  | .stop _ src payload => srcOk src && decide (payload.length ≤ 16777216)
  | .estop _ src payload => srcOk src && decide (payload.length ≤ 16777216)
  | .home _ src payload => srcOk src && decide (payload.length ≤ 16777216)
  | .gear _ src payload => srcOk src && decide (payload.length ≤ 16777216)
  | .gearChange _ src payload => srcOk src && decide (payload.length ≤ 16777216)
  | .setParams _ src payload => srcOk src && decide (payload.length ≤ 16777216)
  | .enable _ src payload => srcOk src && decide (payload.length ≤ 16777216)
  | .disable _ src payload => srcOk src && decide (payload.length ≤ 16777216)
  | .clearFault _ src payload => srcOk src && decide (payload.length ≤ 16777216)
  | .timedOutputCancel _ src payload => srcOk src && decide (payload.length ≤ 16777216)
  | .timedOutputOnce _ src payload => srcOk src && decide (payload.length ≤ 16777216)
  | .timedOutputPeriodic _ src payload => srcOk src && decide (payload.length ≤ 16777216)
  | .resultRead _ src payload => srcOk src && decide (payload.length ≤ 16777216)
  | .resultRelease _ src payload => srcOk src && decide (payload.length ≤ 16777216)
  | .statusRead _ src payload => srcOk src && decide (payload.length ≤ 16777216)
  | .imageBegin _ src payload => srcOk src && decide (payload.length ≤ 16777216)
  | .imageBlock _ src payload => srcOk src && decide (payload.length ≤ 16777216)
  | .flashBlockWritten _ => true
  | .imageVerify _ src payload => srcOk src && decide (payload.length ≤ 16777216)
  | .imageActivate _ src payload => srcOk src && decide (payload.length ≤ 16777216)
  | .configActivationDone _ => true
  | .imageConfirm _ src => srcOk src
  | .imageAbort _ src => srcOk src
  | .bundleConfirmed _ => true
  | .ptpMessageReceived _ port _ => decide (port < 2)
  | .ptpMessageDue _ _ => true
  | .timeServoMeasurement _ _ => true
  | .timeSourceLost _ => true
  | .timeChangeApply _ => true
  | .timedOutputEdge _ out => decide (out < 9)
  | .timedOutputPulseEnd _ out => decide (out < 9)
  | .ppsEdge _ => true
  | .quadratureEdge _ input _ _ _ => decide (input < 16)
  | .wireFault _ input pair _ => decide (input < 16) && decide (pair < 4)
  | .indexEvent _ edge => decide (edge.input < 16)
  | .ssiFrame _ input _ => decide (input < 16)
  | .positionFaultCleared _ input => decide (input < 16)
  | .coastTrigger _ input => decide (input < 16)
  | .extrapolatedTrigger _ input => decide (input < 16)
  | .auxCompareTrigger _ chan => decide (chan < 32)
  | .dinChange _ din _ _ => decide (din < 24)
  | .haltInAsserted _ => true
  | .haltInDeasserted _ => true
  | .printGoEdge _ _ _ => true
  | .lineTrigger _ bar => decide (bar < 8)
  | .deferredFireSync _ bar => decide (bar < 8)
  | .linePacketComplete _ bar => decide (bar < 8)
  | .overspeedClear _ => true
  | .fireUnderrun _ lane => decide (lane < 48)
  | .fireDecodeError _ lane _ => decide (lane < 48)
  | .haltRepeat _ bar => decide (bar < 8)
  | .slotReleasePoint _ => true
  | .pageRenderStart _ => true
  | .compositionLine _ _ => true
  | .chunkCompressed _ comp _ => decide (comp < 48)
  | .pageRendered _ => true
  | .flagFall _ port _ => decide (port < 8)
  | .dtRead _ temps => (temps.length = 8) && temps.all fun l => l.length = 5
  | .scrubPass _ => true
  | .eccUncorrectable _ burst _ _ copy => burstOk burst && copy.all burstOk
  | .eccCorrectedRate _ sub reads => decide (sub < 8) && reads.all fun r => burstOk r.2
  | .linkStatusFrame _ link _ between frame => decide (link < 16) && !between.contains (.k 0xFB) && frame.head?.all (· = .k 0xFB)
  | .linkUpLost _ link _ => decide (link < 16)
  | .statusTimeout _ link => decide (link < 16)
  | .linkTrainTimeout _ link => decide (link < 16)
  | .pllUnlock _ pll => decide (pll < 4)
  | .ownerFrameDue _ lane => decide (lane < 48)
  | .cameraDiscovery _ port _ => decide (port < 4)
  | .cameraDown _ port conn cause => decide (port < 4) && decide (conn < 4) && decide (cause < 2)
  | .cameraRetry _ port => decide (port < 4)
  | .cameraPacket _ port conn _ => decide (port < 4) && decide (conn < 4)
  | .cameraFrameEnd _ port _ => decide (port < 4)
  | .cameraWriteAck _ port _ _ => decide (port < 4)
  | .motionProfilePeriod _ => true
  | .pwmPeriod _ axis _ _ => decide (axis < 12)
  | .holdCurrentDelay _ axis => decide (axis < 12)
  | .ringFrameReceived _ _ f => frameOk f
  | .ringFrameResend _ _ => true
  | .ringTimeSend _ => true
  | .ringDelayExchange _ _ => true
  | .kingListenExpiry _ => true
  | .discoverSend _ => true
  | .discover _ f => frameOk f
  | .ringAttnAsserted _ => true
  | .joinGrant _ f => frameOk f
  | .bypassOpenTime _ => true
  | .joinHello _ f => frameOk f
  | .joinHelloTimeout _ => true
  | .eject _ f => frameOk f
  | .leaveReq _ f => frameOk f
  | .leaveWaitExpiry _ => true
  | .roll _ f => frameOk f
  | .ringMemberLost _ node => decide (node < 8)
  | .originSend _ => true
  | .origin _ f => frameOk f
  | .runArmedFrame _ f => frameOk f
  | .cascadeArmed _ f => frameOk f
  | .slotReady _ f => frameOk f
  | .ringRelease _ f => frameOk f
  | .ringNotReady _ f => frameOk f
  | .cascadeStop _ f => frameOk f
  | .ringImageBlock _ f => frameOk f
  | .imageAck _ f => frameOk f
  | .relayAckDue _ => true
  | .heartbeatDue _ => true
  | .heartbeat _ _ _ => true
  | .heartbeatMissed _ => true
  | .pairWaitExpiry _ => true
  | .reclaimWaitExpiry _ => true
  | .order _ _ => true
  | .tokenArm _ _ _ => true
  | .tokenRelease _ _ _ => true
  | .tokenNotReady _ _ _ => true
  | .tokenGovernor _ _ _ => true
  | .tokenTap _ _ _ => true
  | .tokenChangeover _ _ _ => true
  | .tokenResult _ _ _ => true
  | .tokenRing _ _ _ => true
  | .tokenBar _ _ _ => true
  | .tokenCamera _ _ _ => true
  | .tokenAxis _ _ _ => true
  | .tokenGapTimeout _ => true
  | .resendReq _ _ _ _ => true
  | .partnerSegment _ _ => true
  | .copy _ _ => true
  | .catchupDone _ => true
  | .signature _ _ _ => true
  | .partnerCamera _ _ => true
  | .flashRecordWritten _ _ _ => true
  | .imageVerifyDone _ => true
  | .loopbackDone _ _ r => returnOk r
  | .pllRelock _ pll => decide (pll < 4)
  | .igmpMldQuery _ port _ _ => decide (port < 2)

end Sys2Proof
end

