-- ==== Sys2Proof/Tests/Slice0.lean ====
section
/-! SUPPORT. Tests of the model and, for every statement with hypotheses, a state and operands that meet them: one witness for each
clause. -/
namespace Sys2Proof.Tests
open Sys2Proof Sys2Proof.Machine

/-! ### States that the witnesses start from -/

/-- The configuration in force with these fields set. -/
def wCfg (l : List (Nat × List Int)) (s : State) : State :=
  { s with conf := { s.conf with inForce := true, cfg := { s.conf.cfg with num := l ++ s.conf.cfg.num } } }

/-- A module in IDLE, alone, with its memory trained, its ports up and one session open: id 7, CONTROL. -/
def wIdle : State := wCfg [] { State.reset with
  now := 1000
  mod := { state := .idle, idleSeen := true, idleSincePower := true }
  power := { domainsOn := [0, 1, 2, 3, 4, 5, 6, 7, 8, 9], strapValid := true, position := 1 }
  net := {
    ports := [{ linkUp := true, modeActive := 1 }, { linkUp := true, modeActive := 1 }]
    sessions := [{ id := 7, control := true, credit := 64, advAck := 4, txSeq := 9, rxAck := 4, addr := 0x0A000002 }, {}, {}, {}]
    hosts := [(0x0A000002, 0)] }
  mem := { trained := [true, true, true, true], mode := some 1, initialised := true }
  render := { selftestPassed := true }
  gov := { running := true }
  pair := { state := .solo, decided := true } }

/-- The module in a state. -/
def wIn (st : ModState) (s : State) : State := { s with mod := { s.mod with state := st } }
/-- The host's next message on the session, to the module's own address. -/
def wSrc : Src := ⟨7, 2, false⟩
/-- With a result pending. -/
def wRes (k kind : Nat) (body : Option (List Byte)) (s : State) : State :=
  { s with net := { s.net with results := [⟨k, kind, body, none, 0, false, false, 0⟩] } }
/-- Zero bytes. -/
def wZero (n : Nat) : List Byte := List.replicate n 0
/-- A run of one slot, page 3, on bar 0. -/
def wRun : RunDef := ⟨5, 0, 0, 0, 1, 0, 1, 0, 0, 100, 200, 300, 1000000, 1, 0, 1, [3, 4]⟩
/-- That run as armed. -/
def wArmed : Armed :=
  { run := wRun, queue := [3, 4], cyclesLeft := some 0, nextSlot := 0, nextStart := some 1000, slots := [], armedAt := 0
    releasesEnded := false, hold := false, riskRaised := [], runEnded := false, lost := false, barHalted := false, fired := 0, spoiled := 0
    quarantined := 0, leadOffset := 0, leadBar := 0, nGo := none, strips := [], nextStrip := 0, ncOwed := []
    removed := [], digest := 0 }
/-- A page of 10 lines on bar 0 with no layer. -/
def wPage (id : Nat) (st : PageState) : Page := 
  { id := id, ticket := 33, length := 10, lpi := 0, depth := 1, barMask := 1, refFactor := 0, fileStart := 0, fileCount := 64
    layers := [], regions := [], state := st, resultDue := false, reserved := 0, parts := [], margin := none, verdicts := []
    reference := [], markRef := [], refBad := [], refKind := 0, firedAt := none, renderedAt := 0, cost := none, renderVersion := 0, raised := []
    epUnresolved := none, partnerSig := none }
/-- A released slot of page 3. -/
def wSlot : Slot := 
  { num := 0, page := 3, state := .released, reasons := 0, start := 1000, length := 10, barsDone := 0, barsFired := 0
    linksOut := 0, damaged := [], ended := false, strip := none, versions := [], upsets := [], stripUpsets := [], streams := none, latched := [] }
/-- The run armed. -/
def wArm (st : ModState) (a : Armed) (s : State) : State :=
  { s with mod := { s.mod with state := st }, jobs := { s.jobs with
    runs := [wRun], armed := some a, runId := 5, pages := [wPage 3 .rendered, wPage 4 .rendered] } }
/-- An axis with these settings. -/
def wAxis (x : Axis) (s : State) : State := { s with axes := s.axes.set 2 x }
/-- The following module of a pair, with the tokens and orders counted from 9. -/
def wFollow (s : State) : State := wCfg [(Fld.redundancy_pair_enable, [1])]
  { s with pair := { s.pair with state := .standby, decided := true, tokenSeq := 9, orderSeq := 9 } }
/-- A joined module. -/
def wRing (st : RingState) (s : State) : State := { s with ring := { s.ring with state := st, bypassClosed := false, kingHeard := true } }
/-- A ring frame from node 0. -/
def wFrame (type : Nat) (body : List Byte) : RingFrame := ⟨type, 0, 0xFF, 0, 6, body⟩
/-- A MOVE_REQUEST for axis 2. -/
def wMove (action : Nat) (v : Nat) (input : Nat) : List Byte :=
  leBytes 4 77 ++ leBytes 1 2 ++ leBytes 3 0 ++ leBytes 1 action ++ leBytes 3 0 ++ leBytes 8 v ++ leBytes 8 1000 ++ leBytes 4 100 ++
    leBytes 1 input ++ wZero 19
/-- Motion of axis 2 enabled, the axis in a state. -/
def wMotion (st : AxisState) : State := wCfg [(Fld.motion_enable, List.replicate 12 1)] (wAxis { state := st } wIdle)
/-- With these job objects. -/
def wJobs (j : Jobs) (s : State) : State := { s with jobs := j }
/-- With one result held or pending. -/
def wResult (r : Result) (s : State) : State := { s with net := { s.net with results := [r] } }
/-- With the session's entry changed. -/
def wSes (f : Session → Session) (s : State) : State := modSession 0 f s
/-- A segment of session 7, whole message 2. -/
def wSeg (type seq : Nat) (b : List Byte) : List Byte :=
  leBytes 2 0x5444 ++ leBytes 1 0x20 ++ leBytes 1 type ++ leBytes 2 3 ++ leBytes 2 7 ++ leBytes 4 seq ++ wZero 8 ++ leBytes 2 64 ++
    leBytes 2 b.length ++ leBytes 4 2 ++ wZero 4 ++ b
/-- A loop-back on the codec self-test's interface. -/
def wLoop : Loop := ⟨77, 8, 0, 0, 0, 1000, 0, 0, 0, none, false, true, 0, 0, none, [], none, 0, 0⟩
/-- A raw surface of 4 by 4 pixels, not sealed. -/
def wSurface : Surface := ⟨40, 4, 4, 1, 8, 600, 128, false, [], false⟩
/-- A layer of a page in its wire form: surface 40 over 4 by 4 lines. -/
def wLayerBytes : List Byte := leBytes 4 40 ++ wZero 24 ++ leBytes 4 0xFFFFFFFF ++ leBytes 2 0 ++ leBytes 4 0xFF ++ leBytes 2 0xFFFF ++ wZero 24
/-- A TIMED_OUTPUT_SET: output, mode, start second, width, period, count. -/
def wTpo (out mode sec width period count : Nat) : List Byte :=
  leBytes 4 out ++ leBytes 4 mode ++ leBytes 6 sec ++ leBytes 4 0 ++ leBytes 2 0 ++ leBytes 4 width ++ leBytes 8 period ++ leBytes 4 count
/-- With a download of a kind open: one block of 16 bytes. -/
def wDown (kind : Nat) (s : State) : State :=
  { s with update := { current := [kind = 0, kind = 1], lastKind := some kind }
           flash := { slots := [{}, { copies := [some ⟨0, 1, [], slotCrc 0 1 []⟩, none], header := wZero 8 ++ leBytes 4 16 ++ wZero 244 }], stagingHeader := wZero 8 ++ leBytes 4 16 ++ wZero 244 } }
/-- Every bar fed by input 0. -/
def wFed (s : State) : State := wCfg [(Fld.position_bar_input, List.replicate 8 0), (Fld.position_coast_limit, [100])] s
/-- With bar 0 changed. -/
def wFire (f : Bar → Bar) (s : State) : State := modBar 0 f s
/-- With link k changed. -/
def wLink (k : Nat) (f : Link → Link) (s : State) : State := modLink k f s
/-- With link k UP. -/
def wUp (k : Nat) (s : State) : State := wLink k (fun x => { x with state := .up }) s
/-- With a head on link 0. -/
def wHead (s : State) : State := { s with conf := { s.conf with cfg := { s.conf.cfg with heads := [⟨0, 64, 1, 0, false⟩] :: List.replicate 15 [] } } }
/-- A page in RENDERING from line 0. -/
def wRendering : Rendering := ⟨3, 0, [], [], [], [], [], false, [], [], [], 0, [], 0, [], none, []⟩
/-- A good STATUS frame of link 2's carrier. -/
def wStatus : List Symbol :=
  frameSymbols (leBytes 1 0x81 ++ leBytes 1 3 ++ wZero 2 ++ leBytes 4 99 ++ leBytes 1 8 ++ wZero 3 ++ leBytes 4 noOwner ++ wZero 16)
/-- A frame in progress. -/
def wCamFrame : CamFrame := ⟨0, 0, 0, 0, 0, 0, [], none, [], [], true, 0⟩
/-- A member with one frame of its own on the ring. -/
def wRingTx (x : RingTx) : State := { wRing .member wIdle with ring := { (wRing .member wIdle).ring with tx := [x] } }
/-- In a coordinated cascade. -/
def wGroup (s : State) : State := wCfg [(Fld.ring_group, [1])] s
/-- The active module of a pair. -/
def wActive (s : State) : State := wCfg [(Fld.redundancy_pair_enable, [1])]
  { s with pair := { s.pair with state := .active, decided := true, tokenSeq := 9, orderSeq := 9 } }
/-- A configuration image's header: 1,024 bytes, signed by no key. -/
def wHeader : List Byte :=
  let h := [0x4F#8, 0x4C#8, 0x44#8, 0x4E#8, 1, 5] ++ leBytes 2 1 ++ leBytes 4 1024 ++ wZero 144
  h ++ leBytes 4 (crc32c h) ++ wZero 96
/-- A configuration image of this format with no field in it. -/
def wImage (f : Nat) : List Byte :=
  let h := [0x4F#8, 0x4C#8, 0x44#8, 0x4E#8, 1] ++ leBytes 1 f ++ leBytes 2 1 ++ leBytes 4 1024 ++ wZero 52 ++ sha384 (wZero 768) ++ wZero 44
  h ++ leBytes 4 (crc32c h) ++ wZero 864
/-- With this image installed in area C0. -/
def wInstalled (f : Nat) (s : State) : State :=
  { s with flash := { s.flash with areas := [some (sealed (wImage f) 1), none, none, none, none] } }
/-- A good training record of channel 1. -/
def wTrained : TrainRecord :=
  let r : TrainRecord := ⟨4, 0, [[], [7], [], []], [0, 0, 20, 20, 0, 0, 0, 0], [1, 2, 3, 4], 0⟩
  { r with crc := recordCrc r }
/-- A segment of the module's own that waits for its acknowledgement, sent so many times again. -/
def wTx (tries : Nat) : TxSeg := ⟨9, 0x41, 3, 5, 0, [1], 0, tries, false⟩
/-- A SESSION_OPEN for control with these header flags. -/
def wOpen (flags : Nat) : List Byte :=
  leBytes 2 0x5444 ++ leBytes 1 0x20 ++ leBytes 1 1 ++ leBytes 2 flags ++ wZero 16 ++ leBytes 2 56 ++ wZero 8 ++ wZero 56
/-- A result that is ready and has never been read. -/
def wDone : Result := ⟨33, 0x22, some [1], some 5, 0, false, false, 0⟩
/-- A FAR loop-back over link 0. -/
def wFar : Loop := { wLoop with interface := 0, depth := 2 }
/-- A part of a stream whose one block is no block at all. -/
def wPart : LanePart := ⟨0, 4, 4, [wZero 20], [0]⟩
/-- With lane 0 reading block 0 of slot 0. -/
def wReads (s : State) : State := { s with fire := { s.fire with lanes := s.fire.lanes.set 0 { reading := [(0, 0)] } } }
/-- One layer of surface 40 from line 4 on, and that surface, compressed. -/
def wLayer : Layer := ⟨40, 0, 4, 4, 4, 0, 0, 0xFFFFFFFF, 0, 0, 0xFF, 0xFFFF, 0, 0⟩
def wRaron : Surface := ⟨40, 4, 4, 1, 8, 600, 128, true, [], true⟩

/-- The copy of the older image that migration left: its header names the image. -/
def wMigrated : List Byte :=
  let h := [0x4F#8, 0x4C#8, 0x44#8, 0x4E#8, 1, 5] ++ leBytes 2 1 ++ leBytes 4 1024 ++ wZero 52 ++ sha384 (wZero 768) ++ wZero 4 ++
    (sha384 (wImage 3)).take 32 ++ wZero 8
  h ++ leBytes 4 (crc32c h) ++ wZero 864
/-- With an image of format 3 in C0 and its migrated copy. -/
def wBoth (s : State) : State :=
  { s with flash := { s.flash with areas := [some (sealed (wImage 3) 1), none, some (sealed wMigrated 1), none, none] } }
/-- A bundle in slot 0 whose one component, of kind 0x12, does not match its manifest. -/
def wHelper (s : State) : State :=
  { s with flash := { s.flash with slots := [{ header := wZero 8 ++ leBytes 4 352 ++ wZero 244
                                               blocks := [(0, wZero 269 ++ [1] ++ wZero 18 ++ [0x12] ++ wZero 63, 0)] }, {}] } }
/-- A slot whose record is in this state. -/
def wSlotIn (state : Nat) : BundleSlot := { copies := [some ⟨0, state, [], slotCrc 0 state []⟩, none] }
/-- A valid boot-select record. -/
def wBootRec (r : BootRec) : BootRec := { r with crc := bootCrc r }
/-- A segment of session 7 with a MAC, or what stands in its place. -/
def wAuth (good : Bool) (type seq : Nat) (b : List Byte) : List Byte :=
  let h := leBytes 2 0x5444 ++ leBytes 1 0x20 ++ leBytes 1 type ++ leBytes 2 7 ++ leBytes 2 7 ++ leBytes 4 seq ++ wZero 8 ++ leBytes 2 64 ++
    leBytes 2 b.length ++ leBytes 4 2 ++ wZero 4 ++ b
  h ++ if good then dptMac [] h else wZero 16

/-- What holds of the value of an option, where there is one. -/
theorem forall_some {α : Type} {o : Option α} {p : α → Prop} [DecidablePred p] (h : (o.all fun a => decide (p a)) = true) :
    ∀ a, o = some a → p a := by
  rintro a rfl
  simpa using h

/-! ### Witnesses of the statements -/

set_option maxRecDepth 100000
set_option Elab.async false

theorem witness_PowerGoodStarts :
    (∃ (t mv : Nat) (s : State), (∀ w, s.power.watchdogUntil = some w → w + msT 10 ≤ max s.now t) ∧ s.mod.state = .off ∧
      39000 ≤ mv ∧ mv ≤ 60000 ∧ s.power.shutdownLatch = false) ∧
    (∃ (t mv : Nat) (s : State), (∀ w, s.power.watchdogUntil = some w → w + msT 10 ≤ max s.now t) ∧ s.mod.state = .off ∧
      39000 ≤ mv ∧ mv ≤ 60000 ∧ s.power.shutdownLatch = false) :=
  ⟨⟨5000, 48000, State.reset, forall_some (by decide +kernel), by decide +kernel⟩,
   ⟨5000, 39000, State.reset, forall_some (by decide +kernel), by decide +kernel⟩⟩

theorem witness_PowerGoodLostGoesOff :
    (∃ (cause : OffCause) (s : State), s.mod.state ≠ .off ∧ cause ≠ .domainFault ∧
      (s.mod.state = .shutdown → cause ≠ .slotReset ∧ cause ≠ .watchdog)) ∧
    (∃ (cause : OffCause) (s : State), s.mod.state ≠ .off ∧ cause ≠ .domainFault ∧
      (s.mod.state = .shutdown → cause ≠ .slotReset ∧ cause ≠ .watchdog)) ∧
    (∃ (domain : Nat) (s : State), s.mod.state ≠ .off ∧ 1 ≤ domain ∧ domain < 10 ∧ domainOn s domain = true) ∧
    (∃ (s : State), s.mod.state ≠ .off ∧ s.mod.state ≠ .shutdown) ∧
    (∃ (s : State), s.mod.state = .shutdown) :=
  ⟨⟨.watchdog, wIdle, by decide +kernel⟩,
   ⟨.inputLow, wIdle, by decide +kernel⟩,
   ⟨5, wIdle, by decide +kernel⟩,
   ⟨wIdle, by decide +kernel⟩,
   ⟨(wIn .shutdown wIdle), by decide +kernel⟩⟩

theorem witness_InputLowAndLatch :
    (∃ (mv : Nat) (s : State), s.mod.state ≠ .off ∧ mv < 40000 ∧ s.power.inputLowRaised = false) ∧
    (∃ (mv : Nat) (s : State), s.mod.state ≠ .off ∧ mv < 40000 ∧ s.power.inputLowRaised = true) ∧
    (∃ (mv : Nat) (s : State), s.mod.state ≠ .off ∧ 41000 < mv) ∧
    (∃ (s : State), s.mod.state = .shutdown) :=
  ⟨⟨39500, wIdle, by decide +kernel⟩,
   ⟨39500, { wIdle with power := { wIdle.power with inputLowRaised := true } }, by decide +kernel⟩,
   ⟨42000, { wIdle with power := { wIdle.power with inputLowRaised := true } }, by decide +kernel⟩,
   ⟨{ wIn .shutdown wIdle with power := { wIdle.power with shutdownLatch := true } }, by decide +kernel⟩⟩

theorem witness_BootSelects :
    (∃ (s : State), s.mod.state = .boot ∧ (bootRec s).confirmed = true) :=
  ⟨(wIn .boot { wIdle with flash := { boot := [some (wBootRec ⟨1, 0, 1, 0, true, 0⟩), none] } }), by decide +kernel⟩

theorem witness_ConfigReadDecides_1 :
    (∃ (s : State), s.mod.state = .config ∧ s.mod.watchdogStopped = false ∧ installedCopy s = none) :=
  ⟨{ wIn .config wIdle with conf := {} }, by decide +kernel⟩

theorem witness_ConfigReadDecides_2 :
    (∃ (c : Nat × Area) (s : State), s.mod.state = .config ∧ s.mod.watchdogStopped = false ∧ installedCopy s = some c ∧
      olderFormat c.2.image = false ∧
      badHelper s (fun d => (switchedOn s (readConfig s false c.2.image).cfg).contains d) = none) :=
  ⟨(0, sealed (wImage 5) 1), (wInstalled 5 { wIn .config wIdle with conf := {} }), by decide +kernel⟩

theorem witness_ConfigReadDecides_3 :
    (∃ (c : Nat × Area) (m : Nat × List Byte) (s : State), s.mod.state = .config ∧ s.mod.watchdogStopped = false ∧
      installedCopy s = some c ∧ olderFormat c.2.image = true ∧ migratedCopy s c.2.image = some m ∧
      badHelper s (fun d => (switchedOn s (readConfig s true m.2).cfg).contains d) = none) :=
  ⟨(0, sealed (wImage 3) 1), (2, wMigrated), (wBoth { wIn .config wIdle with conf := {} }), by decide +kernel⟩

theorem witness_ConfigReadDecides_4 :
    (∃ (c : Nat × Area) (s : State), s.mod.state = .config ∧ s.mod.watchdogStopped = false ∧ TwoSlots s ∧
      s.update.runningSlot < 2 ∧ installedCopy s = some c ∧ olderFormat c.2.image = true ∧ migratedCopy s c.2.image = none) :=
  ⟨(0, sealed (wImage 3) 1),
    { wInstalled 3 { wIn .config wIdle with conf := {} } with flash := { (wInstalled 3 wIdle).flash with slots := [wSlotIn 4, wSlotIn 4] } },
    by unfold TwoSlots; decide +kernel⟩

theorem witness_ConfigReadDecides_5 :
    (∃ (k : Nat) (c : Nat × Area) (s : State), s.mod.state = .config ∧ s.mod.watchdogStopped = false ∧ TwoSlots s ∧
      s.update.runningSlot < 2 ∧ installedCopy s = some c ∧ olderFormat c.2.image = false ∧
      badHelper s (fun d => (switchedOn s (readConfig s false c.2.image).cfg).contains d) = some k) :=
  ⟨0x12, (0, sealed (wImage 5) 1), (wHelper (wInstalled 5 { wIn .config wIdle with conf := {} })),
    by unfold TwoSlots; decide +kernel⟩

theorem witness_TrainingEnds :
    (∃ (ch : Nat) (s : State), s.mod.state = .train ∧ ch < 4 ∧ s.mem.trained.getD ch true = false ∧ domainOn s 7 = true ∧
      s.mem.mode = some 1 ∧ s.mem.initialised = false) ∧
    (∃ (ch : Nat) (ids : List Nat) (dts : List Int) (r : TrainRecord) (s : State), s.mod.state = .train ∧ ch < 4 ∧
      s.mem.trained.getD ch true = false ∧ domainOn s 7 = true ∧ s.mem.mode.getD 0 = 0 ∧ reuseFailure s ch ids dts = none ∧
      trainRecord s = some r ∧ s.mem.initialised = false) ∧
    (∃ (s : State), s.mod.state = .train ∧ memTrained s = true ∧ s.mem.initialised = false ∧ s.render.selftestPassed = false) ∧
    (∃ (results : List VectorResult) (s : State), (∀ x ∈ results, vectorMatches x = true) ∧ s.mod.state = .train ∧
      memTrained s = true ∧ s.mem.initialised = true ∧ s.render.selftestPassed = false ∧ domainOn s 5 = true ∧
      domainOn s 6 = true) ∧
    (∃ (x : VectorResult) (s : State), s.mod.state = .train ∧ s.render.selftestPassed = false ∧ vectorMatches x = false ∧
      s.power.atStart.length ≤ 200) :=
  ⟨⟨1, { wIn .train wIdle with mem := { mode := some 1 } }, by decide +kernel⟩,
   ⟨1, [7], ([20, 20]), wTrained,
     (wCfg [(Fld.memory_train_reuse, [1])] { wIn .train wIdle with mem := {}, flash := { training := [some wTrained, none] } }),
     by decide +kernel⟩,
   ⟨{ wIn .train wIdle with mem := { trained := [true, true, true, true] }, render := {} }, by decide +kernel⟩,
   ⟨([⟨0, 1, 0, vectorStored 0, vectorDecoded 0⟩]),
     { wIn .train wIdle with power := { wIdle.power with domainsOn := [5, 6] }, render := {} }, by decide +kernel,
     by decide +kernel⟩,
   ⟨(⟨0, 1, 0, 5, 6⟩), { wIn .train wIdle with render := {} }, by decide +kernel⟩⟩

theorem witness_ThermalActs :
    (∃ (t : Nat) (conv : List SensorConv) (r : ShutdownRecord) (s : State), s.mod.state ≠ .off ∧ s.mod.state ≠ .shutdown ∧
      shutdownFinding { beginAt t s with thermal := { s.thermal with sensors := s.thermal.sensors.zipIdx.map fun p => sampleOne (beginAt t s) conv p.2 p.1 } } = some r) ∧
    (∃ (t : Nat) (conv : List SensorConv) (s : State), s.mod.state ≠ .off ∧
      shutdownFinding { beginAt t s with thermal := { s.thermal with sensors := s.thermal.sensors.zipIdx.map fun p => sampleOne (beginAt t s) conv p.2 p.1 } } = none) ∧
    (∃ (t since : Nat) (s : State), s.thermal.blitz = true ∧ s.thermal.coolSince = some since ∧ since + secT 1 ≤ t) ∧
    (∃ (r : ShutdownRecord) (s : State), s.thermal.recordPending = some r ∧ s.flash.shutdown.length = 2) :=
  ⟨⟨2000, (List.replicate 28 ⟨3200, 5, false, false, 0⟩),
     (((shutdownFinding { beginAt 2000 wIdle with thermal := { wIdle.thermal with sensors := wIdle.thermal.sensors.zipIdx.map fun p => sampleOne (beginAt 2000 wIdle) (List.replicate 28 ⟨3200, 5, false, false, 0⟩) p.2 p.1 } }).getD default)),
     wIdle, by decide +kernel⟩,
   ⟨2000, (List.replicate 28 ⟨400, 5, false, false, 0⟩), (wIn .shutdown wIdle), by decide +kernel⟩,
   ⟨(secT 2), 5, { wIdle with thermal := { blitz := true, coolSince := some 5 } }, by decide +kernel⟩,
   ⟨(⟨1, 2, 0, 5, 1, 0⟩), { wIdle with thermal := { recordPending := some ⟨1, 2, 0, 5, 1, 0⟩ } }, by decide +kernel⟩⟩

theorem witness_MonitorsAndGovernor :
    (∃ (mon count : Nat) (s : State), s.mod.state ≠ .off ∧ s.power.domainsOn.contains (monitorDomain mon) = true ∧ 14 ≤ mon ∧
      mon < s.monitors.length ∧ 3686 ≤ min 65535 (4096 * count / max 1 (s.otp.slowCount.getD mon 4096)) ∧
      min 65535 (4096 * count / max 1 (s.otp.slowCount.getD mon 4096)) ≤ 10240 ∧ (s.monitors.getD mon {}).valid = true) ∧
    (∃ (mon count : Nat) (s : State), s.mod.state ≠ .off ∧ s.mod.state ≠ .shutdown ∧
      s.power.domainsOn.contains (monitorDomain mon) = true ∧ 14 ≤ mon ∧ (s.monitors.getD mon {}).belowFloor = 1 ∧
      2048 ≤ 4096 * count / max 1 (s.otp.slowCount.getD mon 4096) ∧
      4096 * count / max 1 (s.otp.slowCount.getD mon 4096) < 3686) ∧
    (∃ (s : State), s.gov.running = true ∧ s.thermal.throttle = true ∧ 0 < s.gov.step) ∧
    (∃ (s : State), s.gov.running = true ∧ s.thermal.throttle = true ∧ s.gov.step = 0) ∧
    (∃ (s : State), s.gov.running = true ∧ s.thermal.throttle = false ∧ s.gov.renderDuty < 8) ∧
    (∃ (s : State), s.gov.running = true ∧ s.thermal.throttle = false ∧ 8 ≤ s.gov.renderDuty ∧
      cfgN s Fld.render_governor_enable 0 = 0) ∧
    (∃ (t : Nat) (s : State), s.gov.running = true ∧ s.thermal.throttle = false ∧ 8 ≤ s.gov.renderDuty ∧
      cfgN s Fld.render_governor_enable 0 ≠ 0 ∧ follows s = false ∧ demandOf (trackedCosts (beginAt t s)) = none ∧
      s.gov.step < cfgN s Fld.render_governor_max_step 0) :=
  ⟨⟨15, 4096, wIdle, by decide +kernel⟩,
   ⟨15, 3000, { wIdle with monitors := List.replicate 24 { belowFloor := 1 } }, by decide +kernel⟩,
   ⟨{ wIdle with thermal := { throttle := true }, gov := { running := true, step := 3 } }, by decide +kernel⟩,
   ⟨{ wIdle with thermal := { throttle := true }, gov := { running := true, step := 0 } }, by decide +kernel⟩,
   ⟨{ wIdle with gov := { running := true, renderDuty := 3 } }, by decide +kernel⟩,
   ⟨(wCfg [(Fld.render_governor_enable, [0])] { wIdle with gov := { running := true, step := 3, renderDuty := 8 } }),
     by decide +kernel⟩,
   ⟨(secT 10),
     (wCfg [(Fld.render_governor_enable, [1]), (Fld.render_governor_max_step, [4])] (wJobs { runs := [wRun], armed := some { wArmed with nextStart := none }, pages := [wPage 3 .defined, wPage 4 .defined] } (wIn .armed { wIdle with gov := { running := true, step := 3, renderDuty := 8 } }))),
     by decide +kernel⟩⟩

theorem witness_MonitorsBreakAndReturn :
    (∃ (mon count i : Nat) (s : State), s.mod.state ≠ .off ∧ s.power.domainsOn.contains (monitorDomain mon) = true ∧
      mon < s.monitors.length ∧ i = min 65535 (4096 * count / max 1 (s.otp.slowCount.getD mon 4096)) ∧
      (s.monitors.getD mon {}).valid = true ∧ (i < 2048 ∨ 10240 < i)) ∧
    (∃ (mon count i : Nat) (s : State), s.mod.state ≠ .off ∧ s.power.domainsOn.contains (monitorDomain mon) = true ∧
      mon < s.monitors.length ∧ i = min 65535 (4096 * count / max 1 (s.otp.slowCount.getD mon 4096)) ∧
      (s.monitors.getD mon {}).valid = true ∧ (i < 2048 ∨ 10240 < i)) ∧
    (∃ (mon count i : Nat) (s : State), s.mod.state ≠ .off ∧ s.power.domainsOn.contains (monitorDomain mon) = true ∧
      mon < s.monitors.length ∧ i = min 65535 (4096 * count / max 1 (s.otp.slowCount.getD mon 4096)) ∧
      (s.monitors.getD mon {}).valid = true ∧ (i < 2048 ∨ 10240 < i)) ∧
    (∃ (mon count i : Nat) (s : State), s.mod.state ≠ .off ∧ s.power.domainsOn.contains (monitorDomain mon) = true ∧
      mon < s.monitors.length ∧ i = min 65535 (4096 * count / max 1 (s.otp.slowCount.getD mon 4096)) ∧
      (s.monitors.getD mon {}).valid = false ∧ (i < 2048 ∨ 10240 < i)) ∧
    (∃ (mon count i : Nat) (s : State), s.mod.state ≠ .off ∧ s.power.domainsOn.contains (monitorDomain mon) = true ∧
      mon < s.monitors.length ∧ i = min 65535 (4096 * count / max 1 (s.otp.slowCount.getD mon 4096)) ∧
      (s.monitors.getD mon {}).valid = false ∧ (i < 2048 ∨ 10240 < i)) ∧
    (∃ (mon count i : Nat) (s : State), s.mod.state ≠ .off ∧ s.power.domainsOn.contains (monitorDomain mon) = true ∧
      mon < s.monitors.length ∧ i = min 65535 (4096 * count / max 1 (s.otp.slowCount.getD mon 4096)) ∧
      (s.monitors.getD mon {}).valid = false ∧ (s.monitors.getD mon {}).belowFloor = 0 ∧ 2048 ≤ i ∧ i ≤ 10240) ∧
    (∃ (mon count i : Nat) (s : State), s.mod.state ≠ .off ∧ s.power.domainsOn.contains (monitorDomain mon) = true ∧
      mon < s.monitors.length ∧ i = min 65535 (4096 * count / max 1 (s.otp.slowCount.getD mon 4096)) ∧
      (s.monitors.getD mon {}).valid = false ∧ (s.monitors.getD mon {}).belowFloor = 0 ∧ 2048 ≤ i ∧ i ≤ 10240) ∧
    (∃ (t mon : Nat) (s : State), s.mod.state ≠ .off ∧ s.power.domainsOn.contains (monitorDomain mon) = true ∧
      mon < s.monitors.length ∧ ((s.monitors.getD mon {}).doneAt.getD s.rawOrigin) + 2 * windowT ≤ t ∧
      (s.monitors.getD mon {}).valid = true) ∧
    (∃ (t mon : Nat) (s : State), s.mod.state ≠ .off ∧ s.power.domainsOn.contains (monitorDomain mon) = true ∧
      mon < s.monitors.length ∧ ((s.monitors.getD mon {}).doneAt.getD s.rawOrigin) + 2 * windowT ≤ t ∧
      (s.monitors.getD mon {}).valid = false) :=
  ⟨⟨15, 1000, 1000, { wIdle with monitors := List.replicate 24 { valid := true, belowFloor := 1 } }, by decide +kernel⟩,
   ⟨3, 10241, 10241, { wIdle with monitors := List.replicate 24 { valid := true, belowFloor := 1 } }, by decide +kernel⟩,
   ⟨3, 1000, 1000, (wArm .print wArmed ({ wIdle with monitors := List.replicate 24 { valid := true, belowFloor := 1 } })),
     by decide +kernel⟩,
   ⟨15, 2047, 2047, { wIdle with monitors := List.replicate 24 { valid := false, belowFloor := 0 } }, by decide +kernel⟩,
   ⟨2, 2047, 2047, (wArm .print wArmed ({ wIdle with monitors := List.replicate 24 { valid := false, belowFloor := 0 } })),
     by decide +kernel⟩,
   ⟨15, 2048, 2048, { wIdle with monitors := List.replicate 24 { valid := false, belowFloor := 0 } }, by decide +kernel⟩,
   ⟨2, 10240, 10240, (wArm .print wArmed ({ wIdle with monitors := List.replicate 24 { valid := false, belowFloor := 0 } })),
     by decide +kernel⟩,
   ⟨(secT 1), 3, { wIdle with monitors := List.replicate 24 { valid := true, belowFloor := 1 } }, by decide +kernel⟩,
   ⟨(secT 1), 3, { wIdle with monitors := List.replicate 24 { valid := false, belowFloor := 0 } }, by decide +kernel⟩⟩

theorem witness_PortsAndFrames :
    (∃ (port : Nat) (s : State), portHears s port = true ∧ s.net.ports.length = 2) ∧
    (∃ (port : Nat) (kind : DiscardKind) (s : State), portHears s port = true ∧ s.net.ports.length = 2 ∧ kind ≠ .badFcs) ∧
    (∃ (port target : Nat) (ndp : Bool) (s : State), portHears s port = true ∧ isSilent s = false ∧
      target ∈ portAddresses s port ∧ isV6 target = ndp) ∧
    (∃ (port : Nat) (v6 : Bool) (data : List Byte) (s : State), portHears s port = true ∧ isSilent s = false ∧
      data.length + 8 + (if v6 then 40 else 20) ≤ cfgN s Fld.network_mtu 0 ∧ (portOf s port).echoInSecond < 1000 ∧
      (∃ a ∈ portAddresses s port, isV6 a = v6)) ∧
    (∃ (port group : Nat) (s : State), portHears s port = true ∧ isSilent s = false ∧ group ∈ portGroups s port) ∧
    (∃ (port : Nat) (s : State), port < 2 ∧ s.net.ports.length = 2 ∧ s.power.domainsOn.contains 1 = true ∧
      portMode s port ≠ 0 ∧ (portOf s port).linkUp = false) ∧
    (∃ (port : Nat) (s : State), port < 2 ∧ s.net.ports.length = 2 ∧ s.power.domainsOn.contains 1 = true ∧
      portMode s port ≠ 0 ∧ (portOf s port).linkUp = true) ∧
    (∃ (t port : Nat) (s : State), port < 2 ∧ s.net.ports.length = 2 ∧ s.power.domainsOn.contains 1 = true ∧
      portMode s port = 4 ∧ (portOf s port).linkUp = false ∧ (portOf s port).tryingSince + secT 1 ≤ t) :=
  ⟨⟨0, wIdle, by decide +kernel⟩,
   ⟨1, .tcp, wIdle, by decide +kernel⟩,
   ⟨0, 0x0A000001, false, (wCfg [(Fld.network_p0_ipv4, [0x0A000001])] wIdle), by decide +kernel⟩,
   ⟨0, false, ([1, 2, 3]), (wCfg [(Fld.network_p0_ipv4, [0x0A000001])] wIdle), by decide +kernel⟩,
   ⟨0, 0xEF000001, (wCfg [(Fld.network_pair_group_v4, [0xEF000001])] wIdle), by decide +kernel⟩,
   ⟨0, { wIdle with net := { wIdle.net with ports := [{}, {}] } }, by decide +kernel⟩,
   ⟨0, wIdle, by decide +kernel⟩,
   ⟨(secT 2), 0, { wIdle with net := { wIdle.net with ports := [{}, {}] } }, by decide +kernel⟩⟩

theorem witness_SegmentsArrive :
    (∃ (port addr i : Nat) (udp : List Byte) (s : State), portHears s port = true ∧ isSilent s = false ∧ waitingCount s = 0 ∧
      32 ≤ udp.length ∧ fld udp 0 2 = 0x5444 ∧ fld udp 2 1 / 16 = 2 ∧
      udp.length = 32 + fld udp 22 2 + (if (fld udp 4 2).testBit 2 then 16 else 0) ∧ sessionIdx s (fld udp 6 2) = some i ∧
      hostMay s i addr = true ∧
      macOk s (sessionOf s i).key (udp.take (32 + fld udp 22 2)) ((fld udp 4 2).testBit 2) (udp.drop (32 + fld udp 22 2)) = true ∧
      fld udp 3 1 ≠ 0x04 ∧ fld udp 3 1 ≠ 0x05 ∧ (sessionOf s i).rxAhead = [] ∧ (sessionOf s i).rxAck < 2 ^ 32 ∧
      fld udp 8 4 = ((sessionOf s i).rxAck + 1) % 2 ^ 32 ∧ inWindow (sessionOf s i) (fld udp 8 4) = true) ∧
    (∃ (port addr i : Nat) (udp : List Byte) (s : State), portHears s port = true ∧ isSilent s = false ∧ waitingCount s = 0 ∧
      32 ≤ udp.length ∧ fld udp 0 2 = 0x5444 ∧ fld udp 2 1 / 16 = 2 ∧
      udp.length = 32 + fld udp 22 2 + (if (fld udp 4 2).testBit 2 then 16 else 0) ∧ sessionIdx s (fld udp 6 2) = some i ∧
      hostMay s i addr = true ∧
      macOk s (sessionOf s i).key (udp.take (32 + fld udp 22 2)) ((fld udp 4 2).testBit 2) (udp.drop (32 + fld udp 22 2)) = true ∧
      fld udp 3 1 ≠ 0x04 ∧ fld udp 3 1 ≠ 0x05 ∧ (sessionOf s i).rxAhead = [] ∧ (sessionOf s i).rxAck < 2 ^ 32 ∧
      fld udp 8 4 = ((sessionOf s i).rxAck + 1) % 2 ^ 32 ∧ inWindow (sessionOf s i) (fld udp 8 4) = true) ∧
    (∃ (port addr i : Nat) (group : Bool) (udp : List Byte) (s : State), portHears s port = true ∧ isSilent s = false ∧
      waitingCount s = 0 ∧ 32 ≤ udp.length ∧ fld udp 0 2 = 0x5444 ∧ fld udp 2 1 / 16 = 2 ∧
      udp.length = 32 + fld udp 22 2 + (if (fld udp 4 2).testBit 2 then 16 else 0) ∧ sessionIdx s (fld udp 6 2) = some i ∧
      hostMay s i addr = true ∧
      macOk s (sessionOf s i).key (udp.take (32 + fld udp 22 2)) ((fld udp 4 2).testBit 2) (udp.drop (32 + fld udp 22 2)) = true ∧
      fld udp 3 1 ≠ 0x04 ∧ fld udp 3 1 ≠ 0x05 ∧ (sessionOf s i).rxAck < 2 ^ 32 ∧ fld udp 8 4 = (sessionOf s i).rxAck ∧
      transmits s group = true) ∧
    (∃ (port addr i : Nat) (udp : List Byte) (s : State), portHears s port = true ∧ isSilent s = false ∧ waitingCount s = 0 ∧
      32 ≤ udp.length ∧ fld udp 0 2 = 0x5444 ∧ fld udp 2 1 / 16 = 2 ∧
      udp.length = 32 + fld udp 22 2 + (if (fld udp 4 2).testBit 2 then 16 else 0) ∧ sessionIdx s (fld udp 6 2) = some i ∧
      hostMay s i addr = true ∧
      macOk s (sessionOf s i).key (udp.take (32 + fld udp 22 2)) ((fld udp 4 2).testBit 2) (udp.drop (32 + fld udp 22 2)) = true ∧
      fld udp 3 1 ≠ 0x04 ∧ fld udp 3 1 ≠ 0x05 ∧ (sessionOf s i).rxAhead = [] ∧ (sessionOf s i).rxAck < 2 ^ 32 ∧
      (fld udp 8 4 + 2 ^ 32 - (sessionOf s i).rxAck) % 2 ^ 32 < 2 ^ 31 ∧ fld udp 8 4 ≠ (sessionOf s i).rxAck ∧
      inWindow (sessionOf s i) (fld udp 8 4) = false) ∧
    (∃ (port addr i : Nat) (udp : List Byte) (s : State), portHears s port = true ∧ isSilent s = false ∧ waitingCount s = 0 ∧
      32 ≤ udp.length ∧ fld udp 0 2 = 0x5444 ∧ fld udp 2 1 / 16 = 2 ∧ (fld udp 4 2).testBit 2 = true ∧
      udp.length = 48 + fld udp 22 2 ∧ sessionIdx s (fld udp 6 2) = some i ∧ hostMay s i addr = true ∧
      macOk s (sessionOf s i).key (udp.take (32 + fld udp 22 2)) true (udp.drop (32 + fld udp 22 2)) = false) ∧
    (∃ (port dport : Nat) (udp : List Byte) (s : State), portHears s port = true ∧ isSilent s = false ∧ waitingCount s = 0 ∧
      s.net.ports.length = 2 ∧ (udp.length < 32 ∨ dport ≠ udpPort s)) ∧
    (∃ (port dport : Nat) (udp : List Byte) (s : State), portHears s port = true ∧ isSilent s = false ∧ waitingCount s = 0 ∧
      s.net.ports.length = 2 ∧ (udp.length < 32 ∨ dport ≠ udpPort s)) :=
  ⟨⟨0, 0x0A000002, 0, (wSeg 0x43 5 (leBytes 4 1)), wIdle, by decide +kernel⟩,
   ⟨0, 0x0A000002, 0, (wAuth true 0x43 5 (leBytes 4 1)), (wCfg [(Fld.security_dpt_auth, [1])] wIdle), by decide +kernel⟩,
   ⟨0, 0x0A000002, 0, false, (wSeg 0x43 4 (leBytes 4 1)), wIdle, by decide +kernel⟩,
   ⟨0, 0x0A000002, 0, (wSeg 0x43 100 (leBytes 4 1)), wIdle, by decide +kernel⟩,
   ⟨0, 0x0A000002, 0, (wAuth false 0x43 5 (leBytes 4 1)), (wCfg [(Fld.security_dpt_auth, [1])] wIdle), by decide +kernel⟩,
   ⟨0, 49300, [1], wIdle, by decide +kernel⟩,
   ⟨0, 5, (wSeg 0x43 5 (leBytes 4 1)), (wCfg [(Fld.network_dpt_port, [49300])] wIdle), by decide +kernel⟩⟩

theorem witness_SessionTimers :
    (∃ (t i f : Nat) (s : State), sessionIdx s (sessionOf s i).id = some i ∧ transmits s (sessionOf s i).toGroup = true ∧
      (sessionOf s i).firstUnacked = some f ∧ f + usT (cfgN s Fld.network_ack_delay 0) ≤ t) ∧
    (∃ (i credit : Nat) (s : State), sessionIdx s (sessionOf s i).id = some i ∧ speaks s (sessionOf s i) = true ∧
      (sessionOf s i).credit = 0 ∧ 0 < credit ∧ credit ≤ creditNow s (sessionOf s i)) ∧
    (∃ (t i : Nat) (s : State), sessionIdx s (sessionOf s i).id = some i ∧ speaks s (sessionOf s i) = true ∧
      (sessionOf s i).lastTx + msT (cfgN s Fld.network_session_timeout 0) / 4 ≤ t) ∧
    (∃ (t i seq : Nat) (x : TxSeg) (s : State), sessionIdx s (sessionOf s i).id = some i ∧ speaks s (sessionOf s i) = true ∧
      (sessionOf s i).tx.find? (fun y => y.seq = seq) = some x ∧
      x.sentAt + usT (cfgN s Fld.network_dpt_rto 0) * 2 ^ x.tries ≤ t ∧ x.tries < cfgN s Fld.network_dpt_retries 0) ∧
    (∃ (t i seq : Nat) (x : TxSeg) (s : State), sessionIdx s (sessionOf s i).id = some i ∧ speaks s (sessionOf s i) = true ∧
      (sessionOf s i).tx.find? (fun y => y.seq = seq) = some x ∧
      x.sentAt + usT (cfgN s Fld.network_dpt_rto 0) * 2 ^ x.tries ≤ t ∧ cfgN s Fld.network_dpt_retries 0 ≤ x.tries) ∧
    (∃ (t i : Nat) (s : State), sessionIdx s (sessionOf s i).id = some i ∧ speaks s (sessionOf s i) = true ∧
      (sessionOf s i).lastRx + msT (cfgN s Fld.network_session_timeout 0) ≤ t) :=
  ⟨⟨(secT 1), 0, 5, (wSes (fun e => { e with firstUnacked := some 5 }) wIdle), by decide +kernel⟩,
   ⟨0, 10, (wSes (fun e => { e with credit := 0 }) wIdle), by decide +kernel⟩,
   ⟨(secT 1), 0, wIdle, by decide +kernel⟩,
   ⟨(secT 1), 0, 9, (wTx 0), (wSes (fun e => { e with tx := [wTx 0] }) wIdle), by decide +kernel⟩,
   ⟨(secT 1), 0, 9, (wTx 8), (wSes (fun e => { e with tx := [wTx 8] }) wIdle), by decide +kernel⟩,
   ⟨(secT 2), 0, wIdle, by decide +kernel⟩⟩

theorem witness_SessionMessages :
    (∃ (group : Bool) (header body udp : List Byte) (s : State), udp = header ++ body ∧ isOpenDatagram udp = true ∧
      isSilent s = false ∧ openRefused s udp = false ∧ (group && follows s) = false ∧ openedBy s (openPayload udp) = none ∧
      openError s (openMac s udp) (openPayload udp) = none ∧ (fld (openPayload udp) 0 1 = 1 → controlIdx s = none) ∧
      s.net.sessions.length = 4) ∧
    (∃ (header body udp : List Byte) (s : State), udp = header ++ body ∧ isOpenDatagram udp = true ∧ isSilent s = false ∧
      openRefused s udp = true) ∧
    (∃ (t i : Nat) (src : Src) (payload : List Byte) (s : State), Admitted t src 0x03 payload s i) ∧
    (∃ (i session : Nat) (s : State), sessionIdx s session = some i) ∧
    (∃ (i session : Nat) (s : State), sessionIdx s session = some i) :=
  ⟨⟨false, (wOpen 0).take 32, (wOpen 0).drop 32, (wOpen 0), wIdle, by decide +kernel⟩,
   ⟨(wOpen 4).take 32, (wOpen 4).drop 32 ++ wZero 16, (wOpen 4 ++ wZero 16), (wCfg [(Fld.security_dpt_auth, [1])] wIdle),
     by decide +kernel⟩,
   ⟨2000, 0, wSrc, (wZero 4), wIdle, by unfold Admitted; decide +kernel⟩,
   ⟨0, 7, wIdle, by decide +kernel⟩,
   ⟨0, 7, (wSes (fun e => { e with tx := [wTx 0, { wTx 0 with seq := 10 }] }) wIdle), by decide +kernel⟩⟩

theorem witness_RejectsRestartsMaintenance :
    (∃ (t i type : Nat) (src : Src) (s : State), hostTypes.contains type = false ∧ Admitted t src type [] s i ∧
      transmits s src.group = true) ∧
    (∃ (t i : Nat) (src : Src) (s : State), sessionIdx s src.session = some i ∧ isSilent s = false ∧ src.group = false ∧
      goesFirst (beginAt t s) src.session = true ∧ isItsTurn (sessionOf s i) 0x20 src.msg = true ∧ waitingCount s = 0 ∧
      (sessionOf s i).control = false) ∧
    (∃ (t i : Nat) (src : Src) (payload : List Byte) (s : State), Admitted t src 0x09 payload s i ∧ s.ring.state ≠ .king ∧
      s.ring.state ≠ .member) ∧
    (∃ (t i : Nat) (src : Src) (s : State), Admitted t src 0x0A [] s i ∧ s.ring.state ≠ .king ∧ s.ring.state ≠ .member) ∧
    (∃ (t i : Nat) (src : Src) (payload : List Byte) (s : State), Admitted t src 0x09 payload s i ∧
      (s.ring.state = .member ∨ s.ring.state = .king) ∧ (s.ring.state = .king → ringInGap s = false)) ∧
    (∃ (t i : Nat) (src : Src) (s : State), Admitted t src 0x0A [] s i ∧ (s.ring.state = .member ∨ s.ring.state = .king) ∧
      (s.ring.state = .king → ringInGap s = false)) :=
  ⟨⟨2000, 0, 0x77, wSrc, wIdle, by unfold Admitted; decide +kernel⟩,
   ⟨2000, 0, wSrc, (wSes (fun e => { e with control := false }) wIdle), by decide +kernel⟩,
   ⟨2000, 0, wSrc, (wZero 4), wIdle, by unfold Admitted; decide +kernel⟩,
   ⟨2000, 0, wSrc, wIdle, by unfold Admitted; decide +kernel⟩,
   ⟨2000, 0, wSrc, (wZero 4), (wRing .member wIdle), by unfold Admitted; decide +kernel⟩,
   ⟨2000, 0, wSrc, (wRing .member wIdle), by unfold Admitted; decide +kernel⟩⟩

theorem witness_ResultsAreRead :
    (∃ (t i : Nat) (src : Src) (payload : List Byte) (r : Result) (b : List Byte) (d : Int) (s : State),
      Admitted t src 0x40 payload s i ∧ transmits s src.group = true ∧
      s.net.results.find? (fun x => x.ticket = fld payload 0 4) = some r ∧ r.body = some b ∧ r.time = some d) ∧
    (∃ (t i : Nat) (src : Src) (payload : List Byte) (r : Result) (b : List Byte) (d : Int) (s : State),
      Admitted t src 0x40 payload s i ∧ transmits s src.group = true ∧
      s.net.results.find? (fun x => x.ticket = fld payload 0 4) = some r ∧ r.body = some b ∧ r.time = some d) ∧
    (∃ (t i : Nat) (src : Src) (payload : List Byte) (r : Result) (s : State), (∀ x ∈ s.net.results,
      x.ticket = fld payload 0 4 → resultReady x = false) ∧ Admitted t src 0x40 payload s i ∧ transmits s src.group = true ∧
      s.pending = [] ∧ s.net.results.find? (fun x => x.ticket = fld payload 0 4) = some r) ∧
    (∃ (t i : Nat) (src : Src) (payload : List Byte) (s : State), Admitted t src 0x40 payload s i ∧
      transmits s src.group = true ∧ s.net.results.find? (fun x => x.ticket = fld payload 0 4) = none) ∧
    (∃ (t i : Nat) (src : Src) (payload : List Byte) (s : State), Admitted t src 0x42 payload s i) ∧
    (∃ (t i : Nat) (src : Src) (payload : List Byte) (s : State), Admitted t src 0x42 payload s i) :=
  ⟨⟨2000, 0, wSrc, (leBytes 4 33), wDone, [1], 5, (wResult wDone wIdle), by unfold Admitted; decide +kernel⟩,
   ⟨2000, 0, wSrc, (leBytes 4 33), { wDone with readCount := 65535, repeated := true }, [1], 5,
     (wResult { wDone with readCount := 65535, repeated := true } wIdle), by unfold Admitted; decide +kernel⟩,
   ⟨2000, 0, wSrc, (leBytes 4 33), { wDone with body := none, time := none }, (wRes 33 0x22 none wIdle), by decide +kernel,
     by unfold Admitted; decide +kernel⟩,
   ⟨2000, 0, wSrc, (leBytes 4 33), wIdle, by unfold Admitted; decide +kernel⟩,
   ⟨2000, 0, wSrc, (leBytes 4 33), (wResult wDone wIdle), by unfold Admitted; decide +kernel⟩,
   ⟨2000, 0, wSrc, (leBytes 4 33), (wRes 33 0x22 none wIdle), by unfold Admitted; decide +kernel⟩⟩

theorem witness_StatusIsRead :
    (∃ (t i : Nat) (src : Src) (payload : List Byte) (s : State), Admitted t src 0x43 payload s i ∧
      transmits s src.group = true ∧ 1 ≤ fld payload 0 2 ∧ fld payload 0 2 ≤ 64 ∧ 4 + 2 * fld payload 0 2 ≤ payload.length) ∧
    (∃ (t i : Nat) (src : Src) (payload : List Byte) (s : State), Admitted t src 0x43 payload s i ∧
      transmits s src.group = true ∧ 1 ≤ fld payload 0 2 ∧ fld payload 0 2 ≤ 64 ∧ 4 + 2 * fld payload 0 2 ≤ payload.length) ∧
    (∃ (t i : Nat) (src : Src) (payload : List Byte) (s : State), Admitted t src 0x43 payload s i ∧
      transmits s src.group = true ∧ (fld payload 0 2 = 0 ∨ 64 < fld payload 0 2 ∨ payload.length < 4 + 2 * fld payload 0 2)) :=
  ⟨⟨2000, 0, wSrc, (leBytes 4 1 ++ leBytes 2 0x0002), wIdle, by unfold Admitted; decide +kernel⟩,
   ⟨2000, 0, wSrc, (leBytes 4 2 ++ leBytes 2 0x0000 ++ leBytes 2 0x7777), wIdle, by unfold Admitted; decide +kernel⟩,
   ⟨2000, 0, wSrc, (wZero 4), wIdle, by unfold Admitted; decide +kernel⟩⟩

theorem witness_LoopBacks :
    (∃ (t i : Nat) (src : Src) (payload : List Byte) (s : State), (∀ l ∈ s.loops,
      l.interface = fld payload 5 1 → l.index ≠ fld payload 6 1) ∧ Admitted t src 0x0B payload s i ∧ fld payload 4 1 = 0 ∧
      loopRange payload = true ∧ loopDepthOk payload = true ∧ fld payload 5 1 ≠ 5 ∧
      loopAllowed (atTurn t src 0x0B payload i s) (sessionOf (atTurn t src 0x0B payload i s) i).toGroup (sessionOf s i).port (fld payload 5 1) (fld payload 6 1) (fld payload 7 1) (fld payload 16 8) (fld payload 24 8) = true) ∧
    (∃ (t i : Nat) (src : Src) (payload : List Byte) (r : LoopReturn) (l x : Loop) (c : LoopCounts) (o : Nat) (s : State),
      Admitted t src 0x0B payload s i ∧ fld payload 4 1 = 1 ∧ s.loops.find? (fun l => l.ticket = fld payload 0 4) = some l ∧
      isFar l = false ∧ Answerable l.ticket s ∧ x = { l with stopped := true } ∧
      c = loopCounts (atTurn t src 0x0B payload i s) x false r ∧
      o = (if loopLocked (atTurn t src 0x0B payload i s) x r || max s.now t < l.startedAt + msT 1 then loopOutcome c else 2)) ∧
    (∃ (t i : Nat) (src : Src) (payload : List Byte) (l : Loop) (s : State), Admitted t src 0x0B payload s i ∧
      fld payload 4 1 = 1 ∧ s.loops.find? (fun l => l.ticket = fld payload 0 4) = some l ∧ isFar l = true) ∧
    (∃ (t : Nat) (r : LoopReturn) (l : Loop) (s : State), s.loops.find? (fun x => x.ticket = l.ticket) = some l ∧
      isFar l = false ∧ Answerable l.ticket s ∧ 0 < l.duration ∧ l.startedAt + msT l.duration ≤ t ∧
      loopLocked (beginAt t s) l r = true) ∧
    (∃ (t : Nat) (r : LoopReturn) (l : Loop) (s : State), s.loops.find? (fun x => x.ticket = l.ticket) = some l ∧
      isFar l = false ∧ Answerable l.ticket s ∧ l.startedAt + msT 1 ≤ t ∧ loopLocked (beginAt t s) l r = false) ∧
    (∃ (l : Loop) (s : State), s.loops.find? (fun x => x.ticket = l.ticket) = some l ∧ isFar l = false ∧
      Answerable l.ticket s) ∧
    (∃ (l : Loop) (s : State), s.loops.find? (fun x => x.ticket = l.ticket) = some l ∧ isFar l = false ∧
      Answerable l.ticket s ∧ 4 ≤ l.interface ∧ l.interface ≠ 7) :=
  ⟨⟨2000, 0, wSrc, (leBytes 4 77 ++ leBytes 4 0x0800 ++ leBytes 4 0 ++ leBytes 4 1000 ++ wZero 16), wIdle, by decide +kernel,
     by unfold Admitted; decide +kernel⟩,
   ⟨2000, 0, wSrc, (leBytes 4 77 ++ leBytes 4 1 ++ wZero 24), .nothing, wLoop, { wLoop with stopped := true }, {}, 1,
     (wRes 77 0x0B none { wIdle with loops := [wLoop] }), by unfold Admitted Answerable Settled; decide +kernel⟩,
   ⟨2000, 0, wSrc, (leBytes 4 77 ++ leBytes 4 1 ++ wZero 24), wFar, (wRes 77 0x0B none { wIdle with loops := [wFar] }),
     by unfold Admitted; decide +kernel⟩,
   ⟨(secT 5), .nothing, wLoop, (wRes 77 0x0B none { wIdle with loops := [wLoop] }),
     by unfold Answerable Settled; decide +kernel⟩,
   ⟨(secT 5), (.bits [[(0, 10 ^ 12)], [], [], []]), { wLoop with interface := 0 },
     (wRes 77 0x0B none { wIdle with loops := [{ wLoop with interface := 0 }] }),
     by unfold Answerable Settled; decide +kernel⟩,
   ⟨wLoop, (wRes 77 0x0B none { wIdle with loops := [wLoop] }), by unfold Answerable Settled; decide +kernel⟩,
   ⟨wLoop, (wRes 77 0x0B none { wIdle with loops := [wLoop] }), by unfold Answerable Settled; decide +kernel⟩⟩

theorem witness_SurfaceMessages :
    (∃ (t i : Nat) (src : Src) (payload : List Byte) (s : State), Admitted t src 0x20 payload s i ∧
      surfaceRangeBad payload (readSurface payload) = false ∧
      ((surfaceOf s (fld payload 0 4)).isSome = true → surfaceInUse s (fld payload 0 4) = false) ∧
      ((surfaceOf s (fld payload 0 4)).isSome = true ∨ s.jobs.surfaces.length < 4096) ∧
      surfaceUsed s - ((surfaceOf s (fld payload 0 4)).map surfaceSpace).getD 0 + (if (readSurface payload).raron then 0 else surfaceSpace (readSurface payload)) ≤ surfaceArea s) ∧
    (∃ (t i : Nat) (src : Src) (payload : List Byte) (sf : Surface) (s : State), Admitted t src 0x21 payload s i ∧
      surfaceOf s (fld payload 0 4) = some sf ∧ sf.sealed = false ∧ fld payload 4 4 < tileCount sf ∧
      (sf.raron = false → (payload.drop 8).length = rawTileBytes sf (fld payload 4 4)) ∧
      (sf.raron = true → surfaceUsed s - ((tileData sf (fld payload 4 4)).getD []).length + (payload.drop 8).length ≤ surfaceArea s)) ∧
    (∃ (t i : Nat) (src : Src) (payload : List Byte) (s : State), Admitted t src 0x22 payload s i ∧
      (surfaceOf s (fld payload 4 4)).isSome = true) ∧
    (∃ (t i : Nat) (src : Src) (payload : List Byte) (s : State), Admitted t src 0x23 payload s i ∧
      (surfaceOf s (fld payload 0 4)).isSome = true ∧ surfaceInUse s (fld payload 0 4) = false) ∧
    (∃ (id k : Nat) (rest : List (Nat × Nat)) (sf : Surface) (s : State), s.jobs.seals = (id, k) :: rest ∧
      (s.jobs.sealing = true ∨ s.jobs.armed = none) ∧ surfaceOf s id = some sf ∧ Answerable k s) ∧
    (∃ (t i : Nat) (src : Src) (payload : List Byte) (s : State), Admitted t src 0x23 payload s i ∧
      (surfaceOf s (fld payload 0 4)).isSome = true ∧ surfaceInUse s (fld payload 0 4) = true) :=
  ⟨⟨2000, 0, wSrc,
     (leBytes 4 40 ++ leBytes 4 16 ++ leBytes 4 16 ++ leBytes 1 1 ++ leBytes 1 8 ++ leBytes 2 600 ++ leBytes 2 128 ++ wZero 2),
     wIdle, by unfold Admitted; decide +kernel⟩,
   ⟨2000, 0, wSrc, (leBytes 4 40 ++ leBytes 4 0 ++ wZero 16), wSurface, (wJobs { surfaces := [wSurface] } wIdle),
     by unfold Admitted; decide +kernel⟩,
   ⟨2000, 0, wSrc, (leBytes 4 33 ++ leBytes 4 40), (wJobs { surfaces := [wSurface] } wIdle),
     by unfold Admitted; decide +kernel⟩,
   ⟨2000, 0, wSrc, (leBytes 4 40), (wJobs { surfaces := [wSurface] } wIdle), by unfold Admitted; decide +kernel⟩,
   ⟨40, 33, [], { wSurface with tiles := [(0, wZero 16)] },
     (wRes 33 0x22 none (wJobs { surfaces := [{ wSurface with tiles := [(0, wZero 16)] }], seals := [(40, 33)] } wIdle)),
     by unfold Answerable Settled; decide +kernel⟩,
   ⟨2000, 0, wSrc, (leBytes 4 40),
     (wIn .armed (wJobs { surfaces := [wSurface], pages := [{ wPage 3 .defined with layers := [{ (default : Layer) with surface := 40 }] }], armed := some wArmed, runs := [wRun] } wIdle)),
     by unfold Admitted; decide +kernel⟩⟩

theorem witness_LutsPagesRuns :
    (∃ (t i : Nat) (src : Src) (payload : List Byte) (s : State), Admitted t src 0x24 payload s i ∧ ((fld payload 4 1 = 0 ∧
      1 ≤ fld payload 5 1 ∧ fld payload 5 1 ≤ 8 ∧ fld payload 0 2 ≤ 0xFEFF) ∨ (fld payload 4 1 = 1 ∧ fld payload 5 1 = 1 ∧
      0xFF00 ≤ fld payload 0 2 ∧ fld payload 0 2 ≤ 0xFF07)) ∧ payload.length = 8 + 8194 * fld payload 5 1 ∧
      lutInUse s (fld payload 0 2) = false ∧ ((lutOf s (fld payload 0 2)).isSome = true ∨ s.jobs.luts.length < 1024)) ∧
    (∃ (t i : Nat) (src : Src) (payload : List Byte) (s : State), (∀ l ∈ (readPage payload).layers,
      layerLutMissing s l = false) ∧ Admitted t src 0x25 payload s i ∧
      28 + 64 * fld payload 15 1 + 24 * fld payload 16 1 ≤ payload.length ∧
      pageRangeBad (fld payload 15 1) (fld payload 16 1) (readPage payload) = false ∧ pageInUse s (fld payload 4 4) = false ∧
      ((pageOf s (fld payload 4 4)).isSome = true ∨ s.jobs.pages.length < 16384)) ∧
    (∃ (t i : Nat) (src : Src) (payload : List Byte) (s : State), Admitted t src 0x26 payload s i ∧
      (pageOf s (fld payload 0 4)).isSome = true ∧ pageInUse s (fld payload 0 4) = false) ∧
    (∃ (t i : Nat) (src : Src) (payload : List Byte) (s : State), Admitted t src 0x27 payload s i ∧ fld payload 36 4 ≤ 65536 ∧
      40 + 4 * fld payload 36 4 ≤ payload.length ∧ runRangeBad (fld payload 36 4) (readRun payload) = false ∧
      ((usedRuns s).any fun x => x.id = fld payload 0 4) = false ∧
      ((s.jobs.runs.any fun x => x.id = fld payload 0 4) = true ∨ s.jobs.runs.length < 16)) ∧
    (∃ (t i : Nat) (src : Src) (payload : List Byte) (s : State), Admitted t src 0x26 payload s i ∧
      (pageOf s (fld payload 0 4)).isSome = true ∧ pageInUse s (fld payload 0 4) = true) :=
  ⟨⟨2000, 0, wSrc, (leBytes 4 9 ++ leBytes 1 0 ++ leBytes 1 1 ++ wZero 2 ++ wZero 8194), wIdle,
     by unfold Admitted; decide +kernel⟩,
   ⟨2000, 0, wSrc,
     (leBytes 4 33 ++ leBytes 4 3 ++ leBytes 4 10 ++ [0, 1, 1, 1, 0, 2, 0, 0] ++ leBytes 4 0 ++ leBytes 4 64 ++ wLayerBytes),
     wIdle, by decide +kernel, by unfold Admitted; decide +kernel⟩,
   ⟨2000, 0, wSrc, (leBytes 4 3), (wJobs { pages := [wPage 3 .rendered] } wIdle), by unfold Admitted; decide +kernel⟩,
   ⟨2000, 0, wSrc, (leBytes 4 5 ++ [0, 0, 0, 1, 0, 1, 0, 0] ++ leBytes 4 100 ++ wZero 20 ++ leBytes 4 1 ++ leBytes 4 3),
     wIdle, by unfold Admitted; decide +kernel⟩,
   ⟨2000, 0, wSrc, (leBytes 4 3), (wArm .armed wArmed wIdle), by unfold Admitted; decide +kernel⟩⟩

theorem witness_RunArming :
    (∃ (t i : Nat) (src : Src) (payload : List Byte) (r : RunDef) (s : State), (∀ id ∈ r.slots, (pageOf s id).isSome = true) ∧
      (∀ g ∈ runPages s r, g.lpi = r.lpi ∧ g.depth = r.depth ∧ g.barMask &&& r.barMask = g.barMask) ∧
      Admitted t src 0x28 payload s i ∧ (inGroup s = true → joined s = true) ∧ s.mod.state = .idle ∧ s.jobs.arming = none ∧
      armsNone s = false ∧ s.mod.haltIn = false ∧ s.jobs.runs.find? (fun r => r.id = fld payload 4 4) = some r) ∧
    (∃ (t i : Nat) (src : Src) (payload : List Byte) (s : State), Admitted t src 0x28 payload s i ∧
      (inGroup s = true → joined s = true) ∧ s.mod.state = .idle ∧ s.jobs.arming = none ∧ armsNone s = false ∧
      s.mod.haltIn = true) ∧
    (∃ (q : PendingArm) (r : RunDef) (s : State), (∀ i, i < 16 → (inputOf s i).fault = false) ∧ s.jobs.arming = some q ∧
      follows s = false ∧ partnerTakes s = false ∧ fld q.body 0 1 ≠ 2 ∧ mayArm s = true ∧
      s.jobs.runs.find? (fun r => r.id = q.run) = some r) ∧
    (∃ (q : PendingArm) (s : State), s.jobs.arming = some q ∧ follows s = false ∧ fld q.body 0 1 = 2 ∧ Answerable q.ticket s) ∧
    (∃ (q : PendingArm) (s : State), s.jobs.arming = some q ∧ follows s = false ∧ fld q.body 0 1 ≠ 2 ∧ mayArm s = false ∧
      Answerable q.ticket s) :=
  ⟨⟨2000, 0, wSrc, (leBytes 4 33 ++ leBytes 4 5), wRun,
     (wJobs { runs := [wRun], pages := [wPage 3 .rendered, wPage 4 .rendered] } wIdle), by decide +kernel, by decide +kernel,
     by unfold Admitted; decide +kernel⟩,
   ⟨2000, 0, wSrc, (leBytes 4 33 ++ leBytes 4 5), { wIdle with mod := { wIdle.mod with haltIn := true } },
     by unfold Admitted; decide +kernel⟩,
   ⟨(⟨33, 5, wZero 24, none⟩), wRun,
     (wRes 33 0x28 none (wJobs { runs := [wRun], pages := [wPage 3 .rendered, wPage 4 .rendered], arming := some ⟨33, 5, wZero 24, none⟩ } wIdle)),
     by decide +kernel, by decide +kernel⟩,
   ⟨(⟨33, 5, leBytes 1 2 ++ wZero 23, none⟩),
     (wRes 33 0x28 none (wJobs { runs := [wRun], arming := some ⟨33, 5, leBytes 1 2 ++ wZero 23, none⟩ } wIdle)),
     by unfold Answerable Settled; decide +kernel⟩,
   ⟨(⟨33, 5, wZero 24, none⟩),
     (wRes 33 0x28 none (wJobs { runs := [wRun], arming := some ⟨33, 5, wZero 24, none⟩ } (wIn .halted wIdle))),
     by unfold Answerable Settled; decide +kernel⟩⟩

theorem witness_RunsStop :
    (∃ (t i : Nat) (src : Src) (payload : List Byte) (a : Armed) (s : State), Admitted t src 0x29 payload s i ∧
      (s.mod.state = .armed ∨ s.mod.state = .print) ∧ s.jobs.armed = some a ∧ a.run.id = fld payload 0 4) ∧
    (∃ (t i : Nat) (src : Src) (payload : List Byte) (a : Armed) (s : State), Admitted t src 0x29 payload s i ∧
      (s.mod.state = .armed ∨ s.mod.state = .print) ∧ s.jobs.armed = some a ∧ a.run.id = fld payload 0 4) ∧
    (∃ (t i : Nat) (src : Src) (payload : List Byte) (a : Armed) (s : State), Admitted t src 0x2A payload s i ∧
      s.mod.state = .armed ∧ s.jobs.armed = some a ∧ a.run.id = fld payload 0 4) ∧
    (∃ (t i : Nat) (src : Src) (payload : List Byte) (a : Armed) (s : State), Admitted t src 0x2B payload s i ∧
      s.mod.state = .halted ∧ s.jobs.armed = some a ∧ a.run.id = fld payload 0 4) ∧
    (∃ (t i : Nat) (src : Src) (payload : List Byte) (a : Armed) (s : State), Admitted t src 0x08 payload s i ∧
      inRun s = true ∧ s.jobs.armed = some a ∧ runBars s ≠ [] ∧ s.fire.bars.length = 8) ∧
    (∃ (t i : Nat) (src : Src) (payload : List Byte) (a : Armed) (s : State), Admitted t src 0x08 payload s i ∧
      inRun s = true ∧ s.jobs.armed = some a ∧ runBars s ≠ [] ∧ s.fire.bars.length = 8) ∧
    (∃ (t i : Nat) (src : Src) (payload : List Byte) (s : State), Admitted t src 0x08 payload s i ∧ inRun s = false) :=
  ⟨⟨2000, 0, wSrc, (leBytes 4 5), wArmed, (wArm .armed wArmed wIdle), by unfold Admitted; decide +kernel⟩,
   ⟨2000, 0, wSrc, (leBytes 4 5), { wArmed with slots := [wSlot] }, (wArm .print { wArmed with slots := [wSlot] } wIdle),
     by unfold Admitted; decide +kernel⟩,
   ⟨2000, 0, wSrc, (leBytes 4 5), wArmed, (wArm .armed wArmed wIdle), by unfold Admitted; decide +kernel⟩,
   ⟨2000, 0, wSrc, (leBytes 4 5), wArmed, (wArm .halted wArmed wIdle), by unfold Admitted; decide +kernel⟩,
   ⟨2000, 0, wSrc, (leBytes 1 0xFF ++ wZero 3), wArmed, (wArm .print wArmed wIdle), by unfold Admitted; decide +kernel⟩,
   ⟨2000, 0, wSrc, (leBytes 1 1 ++ wZero 3), wArmed, (wArm .print wArmed wIdle), by unfold Admitted; decide +kernel⟩,
   ⟨2000, 0, wSrc, (leBytes 1 0xFF ++ wZero 3), wIdle, by unfold Admitted; decide +kernel⟩⟩

theorem witness_RunCommandsByState :
    (∃ (t i : Nat) (src : Src) (payload : List Byte) (s : State), Admitted t src 0x29 payload s i ∧
      transmits s src.group = true ∧ s.mod.state ≠ .armed ∧ s.mod.state ≠ .print) ∧
    (∃ (t i : Nat) (src : Src) (payload : List Byte) (s : State), (∀ a, s.jobs.armed = some a → a.run.id ≠ fld payload 0 4) ∧
      Admitted t src 0x29 payload s i ∧ transmits s src.group = true ∧ (s.mod.state = .armed ∨ s.mod.state = .print)) ∧
    (∃ (t i : Nat) (src : Src) (payload : List Byte) (s : State), Admitted t src 0x2A payload s i ∧
      transmits s src.group = true ∧ s.mod.state ≠ .armed) ∧
    (∃ (t i : Nat) (src : Src) (payload : List Byte) (s : State), (∀ a, s.jobs.armed = some a → a.run.id ≠ fld payload 0 4) ∧
      Admitted t src 0x2A payload s i ∧ transmits s src.group = true ∧ s.mod.state = .armed) ∧
    (∃ (t i : Nat) (src : Src) (payload : List Byte) (s : State), Admitted t src 0x2B payload s i ∧
      transmits s src.group = true ∧ s.mod.state ≠ .halted) ∧
    (∃ (t i : Nat) (src : Src) (payload : List Byte) (s : State), (∀ a, s.jobs.armed = some a → a.run.id ≠ fld payload 0 4) ∧
      Admitted t src 0x2B payload s i ∧ transmits s src.group = true ∧ s.mod.state = .halted) :=
  ⟨⟨2000, 0, wSrc, (leBytes 4 5), wIdle, by unfold Admitted; decide +kernel⟩,
   ⟨2000, 0, wSrc, (leBytes 4 6), (wArm .print wArmed wIdle), forall_some (by decide +kernel),
     by unfold Admitted; decide +kernel⟩,
   ⟨2000, 0, wSrc, (leBytes 4 5), wIdle, by unfold Admitted; decide +kernel⟩,
   ⟨2000, 0, wSrc, (leBytes 4 6), (wArm .armed wArmed wIdle), forall_some (by decide +kernel),
     by unfold Admitted; decide +kernel⟩,
   ⟨2000, 0, wSrc, (leBytes 4 5), wIdle, by unfold Admitted; decide +kernel⟩,
   ⟨2000, 0, wSrc, (leBytes 4 6), (wArm .halted wArmed wIdle), forall_some (by decide +kernel),
     by unfold Admitted; decide +kernel⟩⟩

theorem witness_CalibrationRequests :
    (∃ (t i : Nat) (src : Src) (payload : List Byte) (s : State), Admitted t src 0x2C payload s i ∧ fld payload 4 1 = 0 ∧
      (s.mod.state = .armed ∨ s.mod.state = .print) ∧ s.cal.runNow = [] ∧
      (selectedElements s (fld payload 5 1 % 64) (fld payload 6 1)) ≠ []) ∧
    (∃ (t i : Nat) (src : Src) (payload : List Byte) (s : State), Admitted t src 0x2C payload s i ∧ fld payload 4 1 = 0 ∧
      s.mod.state ≠ .armed ∧ s.mod.state ≠ .print ∧ transmits s src.group = true) ∧
    (∃ (t i : Nat) (src : Src) (payload : List Byte) (s : State), Admitted t src 0x2C payload s i ∧ fld payload 4 1 = 1 ∧
      Settled s) ∧
    (∃ (t i : Nat) (src : Src) (payload : List Byte) (s : State), Admitted t src 0x2C payload s i ∧ fld payload 4 1 = 2 ∧
      Settled s) ∧
    (∃ (t i : Nat) (src : Src) (payload : List Byte) (s : State), Admitted t src 0x2C payload s i ∧ fld payload 4 1 = 3 ∧
      fld payload 5 1 % 64 = 16 ∧ s.jobs.armed = none ∧ Settled s) :=
  ⟨⟨2000, 0, wSrc, (leBytes 4 33 ++ [0, 16, 3, 0]), (wArm .armed { wArmed with run := { wRun with barMask := 3 } } wIdle),
     by unfold Admitted; decide +kernel⟩,
   ⟨2000, 0, wSrc, (leBytes 4 33 ++ [0, 16, 1, 0]), wIdle, by unfold Admitted; decide +kernel⟩,
   ⟨2000, 0, wSrc, (leBytes 4 33 ++ [1, 0, 0, 0]), wIdle, by unfold Admitted Settled; decide +kernel⟩,
   ⟨2000, 0, wSrc, (leBytes 4 33 ++ [2, 0, 0, 0]), wIdle, by unfold Admitted Settled; decide +kernel⟩,
   ⟨2000, 0, wSrc, (leBytes 4 33 ++ [3, 16, 5, 0]), { wIdle with cal := { values := { reg := [1, 2, 3, 4, 5, 6, 7, 8] } } },
     by unfold Admitted Settled; decide +kernel⟩⟩

theorem witness_MovesAndStops :
    (∃ (t i a : Nat) (src : Src) (payload : List Byte) (s : State), MoveAdmitted t src payload s i a 0 ∧
      (axisOf s a).state = .hold ∧ limitActive s a (signRat ((moveValue payload : Rat) - (axisOf s a).p)) = false) ∧
    (∃ (t i a : Nat) (src : Src) (payload : List Byte) (s : State), MoveAdmitted t src payload s i a 1 ∧
      (axisOf s a).state = .hold ∧ limitActive s a (signRat (moveValue payload : Rat)) = false) ∧
    (∃ (t i a : Nat) (src : Src) (payload : List Byte) (s : State), MoveAdmitted t src payload s i a 2 ∧
      (axisOf s a).state = .hold ∧ limitActive s a (signRat (moveValue payload : Rat)) = false) ∧
    (∃ (t i a : Nat) (src : Src) (payload : List Byte) (s : State), MoveAdmitted t src payload s i a 3 ∧
      (axisOf s a).state = .moving) ∧
    (∃ (t i a : Nat) (src : Src) (payload : List Byte) (s : State), MoveAdmitted t src payload s i a 3 ∧
      (axisOf s a).state = .hold ∧ Settled s) ∧
    (∃ (t i a : Nat) (src : Src) (payload : List Byte) (s : State), MoveAdmitted t src payload s i a 4 ∧
      (axisOf s a).state ≠ .off ∧ (axisOf s a).state ≠ .fault ∧ follows s = false) :=
  ⟨⟨2000, 0, 2, wSrc, (wMove 0 5000 0), (wMotion .hold), by unfold MoveAdmitted Admitted; decide +kernel⟩,
   ⟨2000, 0, 2, wSrc, (wMove 1 5000 0), (wMotion .hold), by unfold MoveAdmitted Admitted; decide +kernel⟩,
   ⟨2000, 0, 2, wSrc, (wMove 2 5000 0), (wMotion .hold), by unfold MoveAdmitted Admitted; decide +kernel⟩,
   ⟨2000, 0, 2, wSrc, (wMove 3 0 0), (wMotion .moving), by unfold MoveAdmitted Admitted; decide +kernel⟩,
   ⟨2000, 0, 2, wSrc, (wMove 3 0 0), (wMotion .hold), by unfold MoveAdmitted Admitted Settled; decide +kernel⟩,
   ⟨2000, 0, 2, wSrc, (wMove 4 0 0), (wMotion .geared), by unfold MoveAdmitted Admitted; decide +kernel⟩⟩

theorem witness_HomingGearingAndStates :
    (∃ (t i a : Nat) (src : Src) (payload : List Byte) (s : State), MoveAdmitted t src payload s i a 5 ∧
      (axisOf s a).state = .hold ∧ cfgN s Fld.motion_home_input a < 24) ∧
    (∃ (t i a : Nat) (src : Src) (payload : List Byte) (s : State), MoveAdmitted t src payload s i a 6 ∧
      (axisOf s a).state = .hold ∧ fld payload 32 1 < 16 ∧ limitActive s a (signRat (ratioOf (moveValue payload))) = false) ∧
    (∃ (t i a k : Nat) (off anchor : Rat) (r : Int) (src : Src) (payload : List Byte) (s : State),
      MoveAdmitted t src payload s i a 7 ∧ (axisOf s a).state = .geared ∧ (axisOf s a).gear = some (k, off, anchor, r) ∧
      limitActive s a (signRat (ratioOf (moveValue payload))) = false ∧ (axisOf s a).change = none ∧
      0 < posDiff (sfld payload 20 8 : Rat) (linePosValue s k (max s.now t))) ∧
    (∃ (t i a : Nat) (src : Src) (payload : List Byte) (s : State), MoveAdmitted t src payload s i a 8 ∧
      (axisOf s a).req = none ∧ Settled s) ∧
    (∃ (t i a : Nat) (src : Src) (payload : List Byte) (s : State), MoveAdmitted t src payload s i a 9 ∧
      (axisOf s a).state = .off ∧ Settled s) ∧
    (∃ (t i a : Nat) (src : Src) (payload : List Byte) (s : State), MoveAdmitted t src payload s i a 10 ∧
      (axisOf s a).state = .hold ∧ Settled s) ∧
    (∃ (t i a : Nat) (src : Src) (payload : List Byte) (s : State), MoveAdmitted t src payload s i a 11 ∧
      (axisOf s a).state = .fault ∧ Settled s) :=
  ⟨⟨2000, 0, 2, wSrc, (wMove 5 0 0), (wCfg [(Fld.motion_home_input, List.replicate 12 3)] (wMotion .hold)),
     by unfold MoveAdmitted Admitted; decide +kernel⟩,
   ⟨2000, 0, 2, wSrc, (wMove 6 (2 ^ 32) 4), (wMotion .hold), by unfold MoveAdmitted Admitted; decide +kernel⟩,
   ⟨2000, 0, 2, 4, 0, 0, (2 ^ 32), wSrc, (wMove 7 (2 ^ 31) 0),
     (wCfg [(Fld.motion_enable, List.replicate 12 1)] (wAxis { state := .geared, gear := some (4, 0, 0, 2 ^ 32) } wIdle)),
     by unfold MoveAdmitted Admitted; decide +kernel⟩,
   ⟨2000, 0, 2, wSrc, (wMove 8 0 0), (wMotion .hold), by unfold MoveAdmitted Admitted Settled; decide +kernel⟩,
   ⟨2000, 0, 2, wSrc, (wMove 9 0 0), (wMotion .off), by unfold MoveAdmitted Admitted Settled; decide +kernel⟩,
   ⟨2000, 0, 2, wSrc, (wMove 10 0 0), (wMotion .hold), by unfold MoveAdmitted Admitted Settled; decide +kernel⟩,
   ⟨2000, 0, 2, wSrc, (wMove 11 0 0), (wMotion .fault), by unfold MoveAdmitted Admitted Settled; decide +kernel⟩⟩

theorem witness_TimedOutputs :
    (∃ (t i : Nat) (src : Src) (payload : List Byte) (s : State), Admitted t src 0x2E payload s i ∧ fld payload 0 1 < 8 ∧
      s.time.outs.length = 9 ∧ claimedOut s (fld payload 0 1) = false ∧ fld payload 4 1 = 0 ∧ fld payload 24 8 = 0 ∧
      fld payload 32 4 = 0 ∧ 8 ≤ fld payload 20 4 ∧ fld payload 20 4 ≤ 1000000000 ∧ fld payload 14 4 < 1000000000) ∧
    (∃ (t i : Nat) (src : Src) (payload : List Byte) (s : State), Admitted t src 0x2E payload s i ∧ fld payload 0 1 < 8 ∧
      s.time.outs.length = 9 ∧ claimedOut s (fld payload 0 1) = false ∧ fld payload 4 1 = 1 ∧ fld payload 24 8 = 0 ∧
      fld payload 32 4 = 0 ∧ 8 ≤ fld payload 20 4 ∧ fld payload 20 4 ≤ 1000000000 ∧ fld payload 14 4 < 1000000000 ∧
      timeNow (beginAt t s) + nsUnits 2000 ≤ readStamp s ((payload.drop 8).take 12)) ∧
    (∃ (t i : Nat) (src : Src) (payload : List Byte) (s : State), Admitted t src 0x2E payload s i ∧ fld payload 0 1 < 8 ∧
      s.time.outs.length = 9 ∧ claimedOut s (fld payload 0 1) = false ∧ fld payload 4 1 = 2 ∧ 8 ≤ fld payload 20 4 ∧
      fld payload 20 4 ≤ 1000000000 ∧ fld payload 14 4 < 1000000000 ∧
      nsUnits (fld payload 20 4 + 8) ≤ (fld payload 24 8 : Int) ∧ (fld payload 24 8 : Int) ≤ 1000 * secondUnits) ∧
    (∃ (t i : Nat) (src : Src) (payload : List Byte) (s : State), Admitted t src 0x2E payload s i ∧ fld payload 0 1 < 8 ∧
      s.time.outs.length = 9 ∧ claimedOut s (fld payload 0 1) = false ∧ fld payload 4 1 = 2 ∧ 8 ≤ fld payload 20 4 ∧
      fld payload 20 4 ≤ 1000000000 ∧ fld payload 14 4 < 1000000000 ∧
      nsUnits (fld payload 20 4 + 8) ≤ (fld payload 24 8 : Int) ∧ (fld payload 24 8 : Int) ≤ 1000 * secondUnits) ∧
    (∃ (t out : Nat) (p : Programme) (s : State), out < 9 ∧ s.time.outs.length = 9 ∧ s.time.pending = none ∧
      (s.time.outs.getD out {}).prog = some p ∧ p.periodic = false ∧ p.left = some 1 ∧ p.next = 0 ∧ p.period = 0 ∧
      p.start ≤ timeNow (beginAt t s) ∧ timeNow (beginAt t s) ≤ p.start + 1025) ∧
    (∃ (t out d : Nat) (s : State), out < 9 ∧ s.time.outs.length = 9 ∧ (s.time.outs.getD out {}).fallAt = some d ∧ d ≤ t) ∧
    (∃ (t : Nat) (sec : Int) (s : State), s.time.outs.length = 9 ∧ s.time.pending = none ∧ ppsOn s = true ∧
      (s.time.outs.getD 8 {}).lastSecond = some (sec - 1) ∧ timeNow (beginAt t s) = sec * secondUnits) :=
  ⟨⟨2000, 0, wSrc, (wTpo 3 0 0 1000 0 0), wIdle, by unfold Admitted; decide +kernel⟩,
   ⟨2000, 0, wSrc, (wTpo 3 1 5 1000 0 0), wIdle, by unfold Admitted; decide +kernel⟩,
   ⟨2000, 0, wSrc, (wTpo 3 2 5 1000 (2000 * 65536) 0), wIdle, by unfold Admitted; decide +kernel⟩,
   ⟨(secT 10), 0, wSrc, (wTpo 3 2 5 1000 (2000 * 65536) 7), wIdle, by unfold Admitted; decide +kernel⟩,
   ⟨64000, 3, (⟨false, 1000 * 65536, 500, 0, some 1, 0⟩),
     { wIdle with time := { outs := (List.replicate 9 {}).set 3 { prog := some ⟨false, 1000 * 65536, 500, 0, some 1, 0⟩ } } },
     by decide +kernel⟩,
   ⟨64000, 3, 2000, { wIdle with time := { outs := (List.replicate 9 {}).set 3 { level := true, fallAt := some 2000 } } },
     by decide +kernel⟩,
   ⟨(secT 5), 5,
     (wCfg [(Fld.timebase_pps_mode, [2])] { wIdle with time := { outs := (List.replicate 9 {}).set 8 { lastSecond := some 4 } } }),
     by decide +kernel⟩⟩

theorem witness_ServoDisciplinesTime :
    (∃ (offset : Int) (s : State), timeSource s = 2 ∧ s.time.pending = none ∧
      absRat ((offset : Rat) / 65536) ≤ (cfgN s Fld.timebase_step_threshold 0 : Rat)) ∧
    (∃ (offset : Int) (s : State), timeSource s = 2 ∧ s.time.pending = none ∧
      (cfgN s Fld.timebase_step_threshold 0 : Rat) < absRat ((offset : Rat) / 65536)) ∧
    (∃ (t : Nat) (s : State), (∀ k, s.ring.timeSeen = some k → k + msT 1 < t) ∧ s.time.state = .locked ∧ timeSource s = 2 ∧
      s.time.pending = none) :=
  ⟨⟨65536, (wCfg [(Fld.timebase_source, [2])] { wIdle with time := { state := .acquiring } }), by decide +kernel⟩,
   ⟨(65536 * 2000000), (wCfg [(Fld.timebase_source, [2])] { wIdle with time := { state := .acquiring } }), by decide +kernel⟩,
   ⟨(secT 1), (wCfg [(Fld.timebase_source, [2])] { wIdle with time := { state := .locked }, ring := { kingSeen := some 5 } }),
     forall_some (by decide +kernel), by decide +kernel⟩⟩

theorem witness_AnchorChanges :
    (∃ (rc : Nat) (step rate : Int) (d : Nat) (s : State), s.time.pending = some (rc, step, rate) ∧
      s.time.raw0 * 256 ≤ rawOf s d ∧ rawOf s d < rc * 256) ∧
    (∃ (rc : Nat) (step rate : Int) (d : Nat) (s : State), s.time.pending = some (rc, step, rate) ∧ rc * 256 ≤ rawOf s d) ∧
    (∃ (rc : Nat) (step rate : Int) (t : Nat) (s : State), s.time.pending = some (rc, step, rate) ∧
      rc * 256 ≤ rawOf s (max s.now t)) :=
  ⟨⟨200, 65536, 1000, 3000, { wIdle with time := { pending := some (200, 65536, 1000) } }, by decide +kernel⟩,
   ⟨200, 65536, 1000, 64000, { wIdle with time := { pending := some (200, 65536, 1000) } }, by decide +kernel⟩,
   ⟨200, 65536, 1000, 64000, { wIdle with time := { pending := some (200, 65536, 1000) } }, by decide +kernel⟩⟩

theorem witness_PtpMessages :
    (∃ (port dom src : Nat) (a : PtpAnnounce) (s : State), ptpOn s = true ∧ port = cfgN s Fld.ptp_port 0 ∧
      dom = cfgN s Fld.ptp_domain 0 ∧ s.time.master = some (src, a)) ∧
    (∃ (port dom : Nat) (s : State), ptpOn s = true ∧ port = cfgN s Fld.ptp_port 0 ∧ dom = cfgN s Fld.ptp_domain 0 ∧
      s.time.ptpMaster = true) ∧
    (∃ (port : Nat) (s : State), (portOf s port).linkUp = true) ∧
    (∃ (s : State), ptpOn s = true ∧ s.time.ptpMaster = true ∧ cfgN s Fld.ptp_one_step 0 = 1) ∧
    (∃ (s : State), s.time.ptpMaster = false) :=
  ⟨⟨0, 0, 99, default, (wCfg [(Fld.timebase_source, [1])] { wIdle with time := { master := some (99, default) } }),
     by decide +kernel⟩,
   ⟨0, 0, (wCfg [(Fld.timebase_source, [1])] { wIdle with time := { ptpMaster := true } }), by decide +kernel⟩,
   ⟨0, wIdle, by decide +kernel⟩,
   ⟨(wCfg [(Fld.timebase_source, [1])] { wIdle with time := { ptpMaster := true } }), by decide +kernel⟩,
   ⟨wIdle, by decide +kernel⟩⟩

theorem witness_UpdateMessages :
    (∃ (t i : Nat) (src : Src) (payload : List Byte) (s : State), Admitted t src 0x60 payload s i ∧ Settled s ∧
      fld payload 4 1 = 1 ∧ s.mod.romServed = false ∧ s.update.current.length = 2 ∧
      beginOutcome s 1 ((payload.drop 8).take 256) = 0 ∧ s.flash.stagingHeader ≠ (payload.drop 8).take 256) ∧
    (∃ (t i : Nat) (src : Src) (payload : List Byte) (s : State), Admitted t src 0x60 payload s i ∧ Settled s ∧
      fld payload 4 1 = 0 ∧ TwoSlots s ∧ s.update.current.length = 2) ∧
    (∃ (t i : Nat) (src : Src) (payload : List Byte) (s : State), Admitted t src 0x61 payload s i ∧ s.mod.romServed = false ∧
      fld payload 4 1 ≤ 1 ∧ 12 ≤ payload.length ∧ hasDownload s (fld payload 4 1) = true ∧
      fld payload 0 4 < blockCount (downloadHeader s (fld payload 4 1)) ∧
      (payload.drop 12).length = blockLength (downloadHeader s (fld payload 4 1)) (fld payload 0 4) ∧
      crc32c (payload.drop 12) = fld payload 8 4) ∧
    (∃ (t i : Nat) (src : Src) (payload : List Byte) (s : State), Admitted t src 0x61 payload s i ∧ s.mod.romServed = false ∧
      fld payload 4 1 ≤ 1 ∧ 12 ≤ payload.length ∧ hasDownload s (fld payload 4 1) = true ∧
      fld payload 0 4 < blockCount (downloadHeader s (fld payload 4 1)) ∧
      (payload.drop 12).length = blockLength (downloadHeader s (fld payload 4 1)) (fld payload 0 4) ∧
      crc32c (payload.drop 12) ≠ fld payload 8 4) ∧
    (∃ (t i k : Nat) (src : Src) (payload : List Byte) (s : State), Admitted t src 0x62 payload s i ∧ actedOn s = some k) ∧
    (∃ (t i : Nat) (src : Src) (payload : List Byte) (s : State), Admitted t src 0x63 payload s i ∧ s.mod.state = .idle ∧
      actedOn s = some 0 ∧ slotState s (targetSlot s) = 3) ∧
    (∃ (t i : Nat) (src : Src) (payload : List Byte) (s : State), Admitted t src 0x63 payload s i ∧ s.mod.state = .idle ∧
      actedOn s = some 1 ∧ s.update.confValid = true) ∧
    (∃ (t i : Nat) (src : Src) (s : State), Admitted t src 0x64 [] s i ∧ s.mod.romServed = false ∧ s.update.trial = true) ∧
    (∃ (t i : Nat) (src : Src) (s : State), Admitted t src 0x65 [] s i ∧ s.update.trial = false ∧ actedOn s = some 0 ∧
      TwoSlots s) ∧
    (∃ (t i : Nat) (src : Src) (s : State), Admitted t src 0x65 [] s i ∧ s.update.trial = false ∧ actedOn s = some 1) :=
  ⟨⟨2000, 0, wSrc, (leBytes 4 33 ++ leBytes 4 1 ++ wHeader), wIdle, by unfold Admitted Settled; decide +kernel⟩,
   ⟨2000, 0, wSrc, (leBytes 4 33 ++ wZero 260), wIdle, by unfold Admitted Settled TwoSlots; decide +kernel⟩,
   ⟨2000, 0, wSrc, (leBytes 4 0 ++ leBytes 4 0 ++ leBytes 4 (crc32c (wZero 16)) ++ wZero 16), (wDown 0 wIdle),
     by unfold Admitted; decide +kernel⟩,
   ⟨2000, 0, wSrc, (leBytes 4 0 ++ leBytes 4 0 ++ leBytes 4 1 ++ wZero 16), (wDown 0 wIdle),
     by unfold Admitted; decide +kernel⟩,
   ⟨2000, 0, 0, wSrc, (leBytes 4 33), (wDown 0 wIdle), by unfold Admitted; decide +kernel⟩,
   ⟨2000, 0, wSrc, (leBytes 4 33 ++ wZero 4), { wDown 0 wIdle with flash := { slots := [wSlotIn 3, wSlotIn 3] } },
     by unfold Admitted; decide +kernel⟩,
   ⟨2000, 0, wSrc, (leBytes 4 33 ++ wZero 4),
     { wDown 1 wIdle with update := { (wDown 1 wIdle).update with confValid := true } }, by unfold Admitted; decide +kernel⟩,
   ⟨2000, 0, wSrc, { wIdle with update := { trial := true } }, by unfold Admitted; decide +kernel⟩,
   ⟨2000, 0, wSrc, (wDown 0 wIdle), by unfold Admitted TwoSlots; decide +kernel⟩,
   ⟨2000, 0, wSrc, (wDown 1 wIdle), by unfold Admitted; decide +kernel⟩⟩

theorem witness_BlocksAndVerification :
    (∃ (j : FlashJob) (rest : List FlashJob) (s : State), s.update.queue = j :: rest ∧ j.kind = 0 ∧ TwoSlots s ∧
      recordFirst s = false) ∧
    (∃ (j : FlashJob) (rest : List FlashJob) (s : State), s.update.queue = j :: rest ∧ j.kind = 1 ∧ recordFirst s = false) ∧
    (∃ (s : State), recordFirst s = true) ∧
    (∃ (k : Nat) (rest : List (Nat × Nat × Bool)) (s : State), s.update.verifying = (0, k, false) :: rest ∧
      s.ring.state ≠ .king ∧ Answerable k s) ∧
    (∃ (k : Nat) (rest : List (Nat × Nat × Bool)) (s : State), s.update.verifying = (1, k, false) :: rest ∧ Answerable k s) ∧
    (∃ (k : Nat) (rest : List (Nat × Nat × Bool)) (s : State), s.update.verifying = (0, k, true) :: rest ∧
      s.mod.state = .idle ∧ s.ring.state ≠ .king ∧ s.ring.state ≠ .member ∧ Answerable k s) :=
  ⟨⟨(⟨0, 0, wZero 16, crc32c (wZero 16)⟩), [],
     { wDown 0 wIdle with update := { (wDown 0 wIdle).update with queue := [⟨0, 0, wZero 16, crc32c (wZero 16)⟩] } },
     by unfold TwoSlots; decide +kernel⟩,
   ⟨(⟨1, 0, wZero 16, 5⟩), [],
     { wDown 1 wIdle with update := { (wDown 1 wIdle).update with queue := [⟨1, 0, wZero 16, 5⟩] } }, by decide +kernel⟩,
   ⟨{ wIdle with update := { records := [.configCopy] } }, by decide +kernel⟩,
   ⟨33, [],
     (wRes 33 0x62 none { wDown 0 wIdle with update := { (wDown 0 wIdle).update with verifying := [(0, 33, false)] } }),
     by unfold Answerable Settled; decide +kernel⟩,
   ⟨33, [],
     (wRes 33 0x62 none { wDown 1 wIdle with update := { (wDown 1 wIdle).update with verifying := [(1, 33, false)] } }),
     by unfold Answerable Settled; decide +kernel⟩,
   ⟨33, [], (wRes 33 0x63 none { wDown 0 wIdle with update := { (wDown 0 wIdle).update with verifying := [(0, 33, true)] } }),
     by unfold Answerable Settled; decide +kernel⟩⟩

theorem witness_RecordsAreWritten :
    (∃ (k : Nat) (rest : List Nat) (s : State), s.update.activating = k :: rest ∧ inRun s = false ∧
      s.update.records.contains .calibration = false ∧ s.flash.areas.length = 5 ∧ olderFormat (downloadBytes s 1) = false ∧
      Answerable k s) ∧
    (∃ (s : State), mayConfirm s = true ∧ TwoSlots s ∧ s.update.runningSlot < 2) ∧
    (∃ (s : State), mayWriteRecord s .calibration = true) ∧
    (∃ (s : State), mayWriteRecord s .calibration = true) ∧
    (∃ (k : Nat) (a : Area) (s : State), mayWriteRecord s .configCopy = true ∧ installedCopy s = some (k, a) ∧
      s.flash.areas.length = 5) :=
  ⟨⟨33, [], (wRes 33 0x63 none { wDown 1 wIdle with update := { (wDown 1 wIdle).update with activating := [33] } }),
     by unfold Answerable Settled; decide +kernel⟩,
   ⟨(wCfg [(Fld.ring_enable, [0])] { wIdle with update := { trial := true }, flash := { boot := [some (wBootRec ⟨1, 0, 1, 2, false, 0⟩), none] } }),
     by unfold TwoSlots; decide +kernel⟩,
   ⟨{ wIdle with update := { records := [.calibration] } }, by decide +kernel⟩,
   ⟨{ wIdle with update := { records := [.calibration] } }, by decide +kernel⟩,
   ⟨0, (sealed (wImage 3) 1), (wInstalled 3 { wIdle with update := { records := [.configCopy] } }), by decide +kernel⟩⟩

theorem witness_PositionInputs :
    (∃ (i agreed : Nat) (a b : Bool) (s : State), isQuadrature s i = true ∧ i < s.pos.inputs.length ∧
      cfgN s Fld.position_filter_samples i + 1 ≤ agreed ∧ cfgN s Fld.position_invert i = 0 ∧
      (quadraturePhase a b + 4 - quadraturePhase (inputOf s i).a (inputOf s i).b) % 4 = 1) ∧
    (∃ (i agreed : Nat) (a b : Bool) (s : State), isQuadrature s i = true ∧ i < s.pos.inputs.length ∧
      cfgN s Fld.position_filter_samples i + 1 ≤ agreed ∧ cfgN s Fld.position_invert i = 0 ∧
      (quadraturePhase a b + 4 - quadraturePhase (inputOf s i).a (inputOf s i).b) % 4 = 3) ∧
    (∃ (i agreed : Nat) (a b : Bool) (s : State), isQuadrature s i = true ∧ i < s.pos.inputs.length ∧
      cfgN s Fld.position_filter_samples i + 1 ≤ agreed ∧ cfgN s Fld.position_invert i = 0 ∧
      (quadraturePhase a b + 4 - quadraturePhase (inputOf s i).a (inputOf s i).b) % 4 = 2 ∧ (inputOf s i).errors = []) ∧
    (∃ (i agreed : Nat) (s : State), agreed < cfgN s Fld.position_filter_samples i + 1) ∧
    (∃ (i pair samples : Nat) (s : State), isQuadrature s i = true ∧ i < s.pos.inputs.length ∧ pair < 3 ∧ 0 < samples ∧
      samples < cfgN s Fld.position_wire_samples i) ∧
    (∃ (i pair samples : Nat) (s : State), isQuadrature s i = true ∧ i < s.pos.inputs.length ∧ pair < 3 ∧ 0 < samples ∧
      cfgN s Fld.position_wire_samples i ≤ samples ∧ (inputOf s i).fault = false ∧ inRun s = false) ∧
    (∃ (i agreed : Nat) (s : State), (∀ u a b m, Instr.quadratureEdge u i a b m ∉ s.pending) ∧ isQuadrature s i = true ∧
      i < s.pos.inputs.length ∧ cfgN s Fld.position_index_use i = 1 ∧ cfgN s Fld.position_filter_samples i + 1 ≤ agreed ∧
      (indexSlipOf s i).natAbs ≤ cfgN s Fld.position_index_window i) ∧
    (∃ (i agreed : Nat) (s : State), agreed < cfgN s Fld.position_filter_samples i + 1) ∧
    (∃ (i p : Nat) (f : SsiBits) (s : State), isSsiOn s i = true ∧ i < s.pos.inputs.length ∧ f.idleHigh = true ∧
      f.startLow = true ∧ f.endLow = true ∧ ssiParityOk s i f = true ∧ ones (cfgN s Fld.position_ssi_extra i) f.status = 0 ∧
      (inputOf s i).ssiPrev = some p ∧ (ssiStepOf s i (ssiValue s i f) p).natAbs ≤ cfgN s Fld.position_ssi_max_step i) ∧
    (∃ (t i : Nat) (s : State), i < s.pos.inputs.length ∧ (inputOf s i).fault = true ∧
      (inputOf s i).lastTrouble + msT (cfgN s Fld.position_fault_clear 0) ≤ t) :=
  ⟨⟨3, 1, true, false, (wCfg [(Fld.position_mode, List.replicate 16 1)] wIdle), by decide +kernel⟩,
   ⟨3, 1, false, true, (wCfg [(Fld.position_mode, List.replicate 16 1)] wIdle), by decide +kernel⟩,
   ⟨3, 1, true, true, (wCfg [(Fld.position_mode, List.replicate 16 1)] wIdle), by decide +kernel⟩,
   ⟨3, 0, (wCfg [(Fld.position_mode, List.replicate 16 1)] wIdle), by decide +kernel⟩,
   ⟨3, 1, 2, (wCfg [(Fld.position_mode, List.replicate 16 1)] wIdle), by decide +kernel⟩,
   ⟨3, 1, 3, (wCfg [(Fld.position_mode, List.replicate 16 1)] wIdle), by decide +kernel⟩,
   ⟨3, 9,
     (wCfg [(Fld.position_mode, List.replicate 16 1), (Fld.position_index_use, List.replicate 16 1)] { wIdle with pos := { inputs := List.replicate 16 { count := 3, direction := 1, indexSeen := true } } }),
     fun _ _ _ _ h => List.not_mem_nil h, by decide +kernel⟩,
   ⟨3, 0, wIdle, by decide +kernel⟩,
   ⟨3, 100, (⟨true, true, 102, 0, false, true⟩),
     (wCfg [(Fld.position_mode, List.replicate 16 2)] { wIdle with pos := { inputs := List.replicate 16 { ssiPrev := some 100 } } }),
     by decide +kernel⟩,
   ⟨(secT 10), 3, { wIdle with pos := { inputs := List.replicate 16 { fault := true } } }, by decide +kernel⟩⟩

theorem witness_PointsTrigger :
    (∃ (t i d : Nat) (s : State), i < s.pos.inputs.length ∧ s.fire.bars.length = 8 ∧ (inputOf s i).scheduled = some d ∧
      d ≤ t ∧ triggersOn s i = true) ∧
    (∃ (t i : Nat) (c : Coast) (s : State), i < s.pos.inputs.length ∧ s.fire.bars.length = 8 ∧ (inputOf s i).coast = some c ∧
      coastDate s i c ≤ t ∧ c.issued + 1 < cfgN s Fld.position_coast_limit 0) ∧
    (∃ (t k o w : Nat) (x : Aux) (s : State), k < s.pos.aux.length ∧ s.pos.aux.getD k none = some x ∧
      linesFirst (beginAt t s) = beginAt t s ∧ auxReached (beginAt t s) x = true ∧ x.action = .pulse o w ∧
      strobeCam s o = none ∧ o < 9 ∧ s.time.outs.length = 9) :=
  ⟨⟨2000, 0, 1500,
     (wArm .armed wArmed { wFed wIdle with pos := { inputs := List.replicate 16 { spacing := 2 ^ 32, scheduled := some 1500 } } }),
     by decide +kernel⟩,
   ⟨2000, 0, (⟨0, 0, 1000000, 1, 0, 1⟩),
     (wArm .print wArmed { wFed wIdle with pos := { inputs := List.replicate 16 { spacing := 2 ^ 32, coast := some ⟨0, 0, 1000000, 1, 0, 1⟩ } } }),
     by decide +kernel⟩,
   ⟨2000, 1, 4, 100, (⟨0, 0, 2 ^ 32, 3, .pulse 4 100⟩),
     { wIdle with pos := { aux := (List.replicate 32 none).set 1 (some ⟨0, 0, 2 ^ 32, 3, .pulse 4 100⟩) } },
     by decide +kernel⟩⟩

theorem witness_PressInputs :
    (∃ (t d edgeT : Nat) (level : Bool) (s : State), d < s.pos.dins.length ∧ positionOn s = true ∧
      (level != decide (cfgN s Fld.din_invert d = 1)) = false ∧ (s.pos.dins.getD d {}).level = true ∧
      edgeT + usT (cfgN s Fld.din_filter d) ≤ t) ∧
    (∃ (t d edgeT : Nat) (level : Bool) (s : State), d < s.pos.dins.length ∧ positionOn s = true ∧
      (level != decide (cfgN s Fld.din_invert d = 1)) = true ∧ (s.pos.dins.getD d {}).level = false ∧
      edgeT + usT (cfgN s Fld.din_filter d) ≤ t) ∧
    (∃ (t d edgeT : Nat) (s : State), max s.now t < edgeT + usT (cfgN s Fld.din_filter d)) ∧
    (∃ (s : State), inRun s = false) ∧
    (∃ (s : State), inRun s = true ∧ s.fire.bars.length = 8) ∧
    (∃ (a : Armed) (s : State), s.mod.state = .halted ∧ s.jobs.armed = some a ∧ a.runEnded = true) ∧
    (∃ (a : Armed) (s : State), s.mod.state = .halted ∧ s.jobs.armed = some a ∧ a.runEnded = false) ∧
    (∃ (s : State), s.mod.compat = false) ∧
    (∃ (t edgeT : Nat) (s : State), s.mod.compat = true ∧ max s.now t < edgeT + usT (cfgN s Fld.compat_go_filter 0)) ∧
    (∃ (t edgeT i : Nat) (a : Armed) (s : State), s.mod.compat = true ∧ s.mod.state = .armed ∧ s.mod.printGo = false ∧
      edgeT + usT (cfgN s Fld.compat_go_filter 0) ≤ max s.now t ∧ s.pending.any (stopsRun (max s.now t)) = false ∧
      s.jobs.armed = some a ∧ a.nGo = none ∧ a.nextSlot = 0 ∧ placesStart s = true ∧ leadInput s = some i) :=
  ⟨⟨(secT 1), 3, 1500, false, { wIdle with pos := { dins := List.replicate 24 { level := true } } }, by decide +kernel⟩,
   ⟨(secT 1), 3, 1500, true, wIdle, by decide +kernel⟩,
   ⟨2000, 3, 1999, (wCfg [(Fld.din_filter, List.replicate 24 1)] wIdle), by decide +kernel⟩,
   ⟨wIdle, by decide +kernel⟩,
   ⟨(wArm .print wArmed wIdle), by decide +kernel⟩,
   ⟨{ wArmed with runEnded := true },
     (wArm .halted { wArmed with runEnded := true } { wIdle with mod := { wIdle.mod with haltIn := true } }),
     by decide +kernel⟩,
   ⟨wArmed, (wArm .halted wArmed { wIdle with mod := { wIdle.mod with haltIn := true } }), by decide +kernel⟩,
   ⟨wIdle, by decide +kernel⟩,
   ⟨2000, 1999, { wCfg [(Fld.compat_go_filter, [5])] wIdle with mod := { wIdle.mod with compat := true } }, by decide +kernel⟩,
   ⟨(secT 1), 1500, 0, { wArmed with nextStart := none },
     (let s := wArm .armed { wArmed with nextStart := none } (wCfg [(Fld.compat_go_delay, [7])] wIdle); { s with mod := { s.mod with compat := true } }),
     by decide +kernel⟩⟩

theorem witness_LineTriggersFire :
    (∃ (t b : Nat) (x : Trig) (rest : List Trig) (p : Packet) (s : State), (∀ u,
      (barOf s b).syncLast = some u → u + nsT (cfgN s Fld.firing_min_interval b) ≤ t) ∧ b < s.fire.bars.length ∧
      (barOf s b).trigs = x :: rest ∧ x.t ≤ t ∧ isFiring s = true ∧ drives s = true ∧ halted s b = false ∧
      (barOf s b).packet = some p ∧ p.n = x.n ∧ (barOf s b).pendingSync = [] ∧ (barOf s b).inhibited = false ∧
      1 ≤ (barOf s b).pointsInPrint ∧ p.start + packetTime s b ≤ t) ∧
    (∃ (t b : Nat) (x : Trig) (rest : List Trig) (s : State), b < s.fire.bars.length ∧ (barOf s b).trigs = x :: rest ∧
      x.t ≤ t ∧ inRun s = false) ∧
    (∃ (t b : Nat) (x : Trig) (rest : List Trig) (s : State), b < s.fire.bars.length ∧ (barOf s b).trigs = x :: rest ∧
      x.t ≤ t ∧ s.mod.state = .armed ∧ halted s b = false) ∧
    (∃ (b : Nat) (s : State), (barOf s b).trigs = [] ∧ s.mod.state ≠ .drain) ∧
    (∃ (t b d : Nat) (m : Int) (rest : List (Int × Nat)) (s : State), b < s.fire.bars.length ∧ (barOf s b).pendingSync = (m,
      d) :: rest ∧ d ≤ t ∧ halted s b = false ∧ drives s = true ∧ (barOf s b).inhibited = false) ∧
    (∃ (t b d : Nat) (m : Int) (rest : List (Int × Nat)) (s : State), (barOf s b).pendingSync = (m, d) :: rest ∧
      max s.now t < d ∧ s.mod.state ≠ .drain) :=
  ⟨⟨(secT 1), 0, (⟨1005, 1500, .direct⟩), [], (⟨1005, 0, none, [0]⟩),
     (wHead (wUp 0 (wFire (fun x => { x with trigs := [⟨1005, 1500, .direct⟩], packet := some ⟨1005, 0, none, [0]⟩, pointsInPrint := 2 }) (wArm .print { wArmed with slots := [wSlot] } wIdle)))),
     forall_some (by decide +kernel), by decide +kernel⟩,
   ⟨2000, 0, (⟨7, 1500, .direct⟩), [], (wFire (fun x => { x with trigs := [⟨7, 1500, .direct⟩] }) wIdle), by decide +kernel⟩,
   ⟨2000, 0, (⟨7, 1500, .direct⟩), [], (wFire (fun x => { x with trigs := [⟨7, 1500, .direct⟩] }) (wArm .armed wArmed wIdle)),
     by decide +kernel⟩,
   ⟨0, wIdle, by decide +kernel⟩,
   ⟨2000, 0, 1500, 7, [], (wHead (wUp 0 (wFire (fun x => { x with pendingSync := [(7, 1500)] }) (wArm .print wArmed wIdle)))),
     by decide +kernel⟩,
   ⟨2000, 0, 2500, 7, [], (wFire (fun x => { x with pendingSync := [(7, 2500)] }) (wArm .print wArmed wIdle)),
     by decide +kernel⟩⟩

theorem witness_PacketsHaltsOverspeed :
    (∃ (t b : Nat) (p : Packet) (s : State), b < s.fire.bars.length ∧ (barOf s b).packet = some p ∧ p.done = none ∧
      p.start + packetTime s b ≤ t) ∧
    (∃ (t b : Nat) (p : Packet) (s : State), (barOf s b).packet = some p ∧ max s.now t < p.start + packetTime s b) ∧
    (∃ (t : Nat) (s : State), overspeedOver (updateOverspeed (beginAt t s)) = true) ∧
    (∃ (t : Nat) (s : State), overspeedOver (updateOverspeed (beginAt t s)) = false) ∧
    (∃ (b : Nat) (s : State), b < 8 ∧ s.fire.lanes.length = 48 ∧ (halted s b = true ∨ s.mod.state = .halted) ∧
      drives s = true) ∧
    (∃ (b : Nat) (s : State), halted s b = false ∧ s.mod.state ≠ .halted) :=
  ⟨⟨(secT 1), 0, (⟨7, 0, none, []⟩), (wFire (fun x => { x with packet := some ⟨7, 0, none, []⟩ }) wIdle), by decide +kernel⟩,
   ⟨2000, 0, (⟨7, 2000, none, []⟩), (wHead (wFire (fun x => { x with packet := some ⟨7, 2000, none, []⟩ }) wIdle)),
     by decide +kernel⟩,
   ⟨(secT 1), { wIdle with fire := { overspeedN := true, slowSince := some 5 } }, by decide +kernel⟩,
   ⟨(secT 1), wIdle, by decide +kernel⟩,
   ⟨0, (wUp 0 (wFire (fun x => { x with haltCause := 3 }) wIdle)), by decide +kernel⟩,
   ⟨0, wIdle, by decide +kernel⟩⟩

theorem witness_UnderrunsErrorsReleases :
    (∃ (t g : Nat) (p : Packet) (s : State), g < s.fire.lanes.length ∧ g / 6 < s.fire.bars.length ∧
      (barOf s (g / 6)).packet = some p ∧ packetOnLane (beginAt t s) g = true ∧ cfgN s Fld.firing_damage_policy 0 = 0) ∧
    (∃ (g block kind done base : Nat) (strip : Bool) (read : BlockRead) (x : Slot) (p : LanePart) (s : State),
      isFiring s = true ∧ readingSlot s g block = some (x, p, done, base, strip) ∧ (deliverBlock p block read).2 = some kind ∧
      cfgN s Fld.firing_damage_policy 0 = 0) ∧
    (∃ (id next : Nat) (rest : List Nat) (start rp : Int) (a : Armed) (s : State), decidesSlots s = true ∧
      s.mod.state = .armed ∧ inGroup s = false ∧ partnerTakes s = false ∧ s.mod.compat = false ∧ s.cal.rerendering = false ∧
      s.jobs.armed = some a ∧ a.queue = id :: next :: rest ∧ a.hold = false ∧ a.releasesEnded = false ∧
      a.nextStart = some start ∧ releasePoint s a = some rp ∧ rp < leadNextLine s ∧ slotReadyHere s = true) :=
  ⟨⟨2000, 0, (⟨1005, 0, none, [0]⟩),
     (wHead (wUp 0 (wFire (fun x => { x with packet := some ⟨1005, 0, none, [0]⟩ }) (wArm .print { wArmed with slots := [wSlot] } wIdle)))),
     by decide +kernel⟩,
   ⟨0, 0, 0, 0, 0, false, (⟨wZero 20, none⟩), { wSlot with streams := some [wPart] }, wPart,
     (wReads (wJobs { armed := some { wArmed with slots := [{ wSlot with streams := some [wPart] }] }, runs := [wRun], pages := [wPage 3 .rendered] } (wIn .print wIdle))),
     by decide +kernel⟩,
   ⟨3, 4, [], 1000, 800, wArmed,
     (wArm .armed wArmed { wFed wIdle with pos := { inputs := List.replicate 16 { spacing := 2 ^ 32, nextLine := 900 } } }),
     by decide +kernel⟩⟩

theorem witness_PagesRender :
    (∃ (k : Nat) (rest : List (Nat × Nat)) (a : Armed) (pg : Page) (s : State), s.render.now = none ∧ s.jobs.sealing = false ∧
      rendersRun s = true ∧ s.cal.waiting = [] ∧ s.cal.rerenderPages = [] ∧ s.jobs.armed = some a ∧ comingSlots s = (k,
      pg.id) :: rest ∧ pageOf s pg.id = some pg ∧ pg.state = .defined ∧ aheadCount s < a.run.renderAhead ∧
      surfacesSealed s pg = true ∧ lutLost s pg = false ∧ badLayer s pg = none ∧ contextsExceeded s pg = none ∧
      0 < s.gov.renderDuty ∧
      pageStoreUsed s + (pageReservation s.conf.cfg { pg with margin := pageMargin s a.run pg } - pg.reserved) ≤ pageStore s) ∧
    (∃ (r : Rendering) (pg : Page) (s : State), s.render.now = some r ∧ r.strip = none ∧ r.failed = false ∧
      pageOf s r.page = some pg ∧ r.line < pg.length ∧ surfacesSealed s pg = true ∧ lineFailure s pg r.line none = none ∧
      endingRegions pg r.line = [] ∧ 0 < s.gov.renderDuty) ∧
    (∃ (b : Nat × Nat × Nat) (bad : Option (Nat × Nat × Nat)) (r : Rendering) (pg : Page) (s : State), s.render.now = some r ∧
      r.strip = none ∧ pageOf s r.page = some pg ∧ r.line < pg.length ∧ surfacesSealed s pg = true ∧
      lineFailure s pg r.line bad = some (b, false) ∧ 0 < s.gov.renderDuty ∧
      retriesOf r b < cfgN s Fld.render_decode_retries 0) ∧
    (∃ (b : Nat × Nat × Nat) (bad : Option (Nat × Nat × Nat)) (r : Rendering) (pg : Page) (s : State), s.render.now = some r ∧
      r.strip = none ∧ pageOf s r.page = some pg ∧ r.line < pg.length ∧ surfacesSealed s pg = true ∧
      lineFailure s pg r.line bad = some (b, false) ∧ 0 < s.gov.renderDuty ∧
      cfgN s Fld.render_decode_retries 0 ≤ retriesOf r b) ∧
    (∃ (comp : Nat) (c : Compressor) (ch : Chunk) (r : Rendering) (pg : Page) (s : State),
      s.render.compressors[comp]? = some c ∧ c.input = some ch ∧ s.render.now = some r ∧ r.waiting = [] ∧ r.strip = none ∧
      pageOf s r.page = some pg ∧ 0 < s.gov.renderDuty) ∧
    (∃ (comp : Nat) (c : Compressor) (ch : Chunk) (r : Rendering) (pg : Page) (s : State),
      s.render.compressors[comp]? = some c ∧ c.input = some ch ∧ s.render.now = some r ∧ r.waiting = [] ∧ r.strip = none ∧
      pageOf s r.page = some pg ∧ 0 < s.gov.renderDuty) ∧
    (∃ (r : Rendering) (pg : Page) (s : State), (∀ x ∈ r.open_, x.2.1 = []) ∧ (∀ c ∈ s.render.compressors, c.input = none) ∧
      (∀ a, s.jobs.armed = some a → a.hold = false) ∧ s.render.now = some r ∧ r.strip = none ∧ r.failed = false ∧
      r.waiting = [] ∧ pageOf s r.page = some pg ∧ pg.length ≤ r.line ∧ pg.resultDue = true ∧ pg.epUnresolved = none ∧
      s.pair.state = .solo ∧ s.pair.linkUp = false ∧ inGroup s = false ∧ s.cal.rerendering = false ∧ 0 < s.gov.renderDuty ∧
      Answerable pg.ticket s) :=
  ⟨⟨0, ([(1, 4)]), wArmed, (wPage 3 .defined),
     (wJobs { runs := [wRun], armed := some wArmed, pages := [wPage 3 .defined, wPage 4 .defined] } (wIn .armed wIdle)),
     by decide +kernel⟩,
   ⟨wRendering, (wPage 3 .rendering),
     (wJobs { runs := [wRun], armed := some wArmed, pages := [wPage 3 .rendering, wPage 4 .defined] } { wIn .armed wIdle with render := { now := some wRendering } }),
     by decide +kernel⟩,
   ⟨(40, 0, 1), (some (40, 0, 1)), wRendering, { wPage 3 .rendering with layers := [wLayer] },
     (wCfg [(Fld.render_decode_retries, [1])] (wJobs { surfaces := [wRaron], pages := [{ wPage 3 .rendering with layers := [wLayer] }] } { wIn .armed wIdle with render := { now := some wRendering } })),
     by decide +kernel⟩,
   ⟨(40, 0, 1), (some (40, 0, 1)), wRendering, { wPage 3 .rendering with layers := [wLayer] },
     (wCfg [(Fld.render_decode_retries, [0])] (wJobs { surfaces := [wRaron], pages := [{ wPage 3 .rendering with layers := [wLayer] }] } { wIn .armed wIdle with render := { now := some wRendering } })),
     by decide +kernel⟩,
   ⟨2, { input := some ⟨3, 0, 0, wZero 8⟩ }, (⟨3, 0, 0, wZero 8⟩), wRendering, (wPage 3 .rendering),
     (wJobs { pages := [wPage 3 .rendering] } { wIn .armed wIdle with render := { now := some wRendering, compressors := (List.replicate 48 {}).set 2 { input := some ⟨3, 0, 0, wZero 8⟩ } } }),
     by decide +kernel⟩,
   ⟨2, { input := some ⟨3, 0, 0, wZero 8⟩ }, (⟨3, 0, 0, wZero 8⟩), wRendering, (wPage 3 .rendering),
     (wJobs { pages := [wPage 3 .rendering] } { wIn .armed wIdle with render := { now := some wRendering, compressors := (List.replicate 48 {}).set 2 { input := some ⟨3, 0, 0, wZero 8⟩ } } }),
     by decide +kernel⟩,
   ⟨{ wRendering with line := 10 }, { wPage 3 .rendering with resultDue := true },
     (wRes 33 0x25 none (wJobs { pages := [{ wPage 3 .rendering with resultDue := true }] } { wIdle with render := { now := some { wRendering with line := 10 } } })),
     by decide +kernel, by decide +kernel, forall_some (by decide +kernel), by unfold Answerable Settled; decide +kernel⟩⟩

theorem witness_MemoryEvents :
    (∃ (age : Nat) (s : State), memTrained s = true ∧ 1000 ≤ age ∧ 0 < s.mem.qos.length) ∧
    (∃ (v : Int) (temps : List (Option Int)) (s : State), domainOn s 7 = true ∧ 0 < s.mem.sub.length ∧
      (s.mem.sub.getD 0 {}).doubled = false ∧ highestDt temps = some v ∧ -45 ≤ v ∧ v ≤ 125 ∧ 85 ≤ v) ∧
    (∃ (v : Int) (temps : List (Option Int)) (s : State), domainOn s 7 = true ∧ 0 < s.mem.sub.length ∧
      (s.mem.sub.getD 0 {}).doubled = false ∧ highestDt temps = some v ∧ -45 ≤ v ∧ v ≤ 125 ∧ v < 85) ∧
    (∃ (temps : List (Option Int)) (s : State), domainOn s 7 = true ∧ 0 < s.mem.sub.length ∧
      (s.mem.sub.getD 0 {}).doubled = false ∧ highestDt temps = none) ∧
    (∃ (t : Nat) (s : State), s.mem.initialised = true ∧
      s.mem.scrubSince + secT (3600 * cfgN s Fld.memory_scrub_period 0) ≤ t) ∧
    (∃ (r : BurstRead) (s : State), memTrained s = true ∧ 0 < burstCorrections s r ∧ subchannelOf r.addr < s.mem.sub.length) ∧
    (∃ (burst : BurstRead) (s : State), memTrained s = true ∧ burstBad s burst = true ∧
      subchannelOf burst.addr < s.mem.sub.length) ∧
    (∃ (burst : BurstRead) (s : State), burstBad s burst = false) :=
  ⟨⟨1500, wIdle, by decide +kernel⟩,
   ⟨85, ([some 84, some 85, some 20, some 20, some 20]), wIdle, by decide +kernel⟩,
   ⟨84, ([some 84, some 20, some 20, some 20, some 20]), wIdle, by decide +kernel⟩,
   ⟨([some 84, none, some 20, some 20, some 20]), wIdle, by decide +kernel⟩,
   ⟨(secT 1000000), wIdle, by decide +kernel⟩,
   ⟨(⟨4096, [4#40, 0#40, 8#40] ++ List.replicate 13 0⟩), wIdle, by decide +kernel⟩,
   ⟨(⟨4096, 6#40 :: List.replicate 15 0⟩), (wJobs { runs := [wRun] } wIdle), by decide +kernel⟩,
   ⟨(⟨4096, 4#40 :: List.replicate 15 0⟩), wIdle, by decide +kernel⟩⟩

theorem witness_LinksComeAndGo :
    (∃ (k : Nat) (frame : List Symbol) (f : List Byte) (s : State), k < 16 ∧ s.links.links.length = 16 ∧
      (linkOf s k).state = .training ∧ 2 ≤ (linkOf s k).goodFrames ∧ readFrame frame = some f ∧ statusValid f = true ∧
      statusMeets s k f = true ∧ linkPll s k = true ∧ fld f 22 2 = (linkOf s k).crcErrors ∧ fld f 12 4 = noOwner ∧
      (linkOf s k).ownerSeen = noOwner) ∧
    (∃ (k : Nat) (frame : List Symbol) (s : State), k < 16 ∧ s.links.links.length = 16 ∧ (linkOf s k).state ≠ .disabled ∧
      frame ≠ [] ∧ (readFrame frame).filter statusValid = none) ∧
    (∃ (t k since : Nat) (s : State), k < s.links.links.length ∧ linkUp s k = true ∧ since + usT 10 ≤ t ∧ inRun s = false ∧
      s.loops = []) ∧
    (∃ (t k : Nat) (s : State), k < s.links.links.length ∧ linkUp s k = true ∧
      (linkOf s k).lastStatus + usT (cfgN s Fld.heads_status_timeout 0) ≤ t ∧ inRun s = false ∧ s.loops = []) ∧
    (∃ (t g : Nat) (s : State), g < 48 ∧ g < s.fire.lanes.length ∧ linkUp s (g / 3) = true ∧
      packetOnLane (beginAt t s) g = false ∧ farLoop s (g / 3) = none) ∧
    (∃ (t g : Nat) (l : Loop) (s : State), g < 48 ∧ g < s.fire.lanes.length ∧ linkUp s (g / 3) = true ∧
      packetOnLane (beginAt t s) g = false ∧ farLoop s (g / 3) = some l) :=
  ⟨⟨2, wStatus,
     (leBytes 1 0x81 ++ leBytes 1 3 ++ wZero 2 ++ leBytes 4 99 ++ leBytes 1 8 ++ wZero 3 ++ leBytes 4 noOwner ++ wZero 16),
     (wLink 2 (fun x => { x with state := .training, goodFrames := 2 }) wIdle), by decide +kernel⟩,
   ⟨2, ([kStart, .d 5]), (wLink 2 (fun x => { x with state := .training }) wIdle), by decide +kernel⟩,
   ⟨(secT 1), 2, 5, (wUp 2 wIdle), by decide +kernel⟩,
   ⟨(secT 1), 2, (wUp 2 wIdle), by decide +kernel⟩,
   ⟨(secT 1), 7, (wUp 2 wIdle), by decide +kernel⟩,
   ⟨(secT 1), 7, { wFar with index := 2 }, (wUp 2 { wIdle with loops := [{ wFar with index := 2 }] }), by decide +kernel⟩⟩

theorem witness_TrainTimeoutOnce :
    (∃ (t k : Nat) (s : State), k < s.links.links.length ∧ (linkOf s k).state = .training ∧
      (linkOf s k).trainSince + msT (cfgN s Fld.heads_train_timeout 0) ≤ t ∧ (linkOf s k).timeoutRaised = false) ∧
    (∃ (t k : Nat) (s : State), k < s.links.links.length ∧ (linkOf s k).state = .training ∧
      (linkOf s k).trainSince + msT (cfgN s Fld.heads_train_timeout 0) ≤ t ∧ (linkOf s k).timeoutRaised = true) :=
  ⟨⟨(secT 1), 2, (wLink 2 (fun x => { x with state := .training }) wIdle), by decide +kernel⟩,
   ⟨(secT 1), 2, (wLink 2 (fun x => { x with state := .training, timeoutRaised := true }) wIdle), by decide +kernel⟩⟩

theorem witness_PllsDriveTheirLinks :
    (∃ (p : Nat) (s : State), s.mod.state ≠ .off ∧ p < 4 ∧ s.links.pll.length = 4 ∧ s.links.links.length = 16 ∧
      inRun s = false ∧ s.loops = []) ∧
    (∃ (p : Nat) (s : State), p < 4 ∧ s.links.pll.getD p true = false ∧ s.links.links.length = 16) :=
  ⟨⟨0, (wUp 2 wIdle), by decide +kernel⟩,
   ⟨0,
     { wUp 2 wIdle with links := { links := (List.replicate 16 {}).set 2 { state := .training }, pll := [false, true, true, true] } },
     by decide +kernel⟩⟩

theorem witness_CameraPortsAndFrames :
    (∃ (c : Nat) (d : CamDiscovery) (s : State), c < s.cams.length ∧ (camOf s c).state = .discovery ∧ camerasOn s = true ∧
      d.ok = true ∧ cfgN s Fld.camera_connections c ≤ d.connections ∧ d.readBack = true) ∧
    (∃ (c : Nat) (d : CamDiscovery) (s : State), c < s.cams.length ∧ (camOf s c).state = .discovery ∧ camerasOn s = true ∧
      d.ok = false ∧ (camOf s c).failures = 2) ∧
    (∃ (t c : Nat) (s : State), c < s.cams.length ∧ (camOf s c).state = .fault ∧ camerasOn s = true ∧
      (camOf s c).faultAt + secT 10 ≤ t) ∧
    (∃ (c conn : Nat) (s : State), c < s.cams.length ∧ (camOf s c).state = .ready ∧ conn < (camOf s c).connections ∧
      (camOf s c).frame = none) ∧
    (∃ (c : Nat) (fr : CamFrame) (s : State), c < s.cams.length ∧ (camOf s c).state = .ready ∧ (camOf s c).frame = some fr ∧
      fr.header = none) ∧
    (∃ (c : Nat) (s : State), c < s.cams.length ∧ (camOf s c).state ≠ .disabled) ∧
    (∃ (t c : Nat) (fr : CamFrame) (s : State), c < s.cams.length ∧ (camOf s c).frame = some fr ∧
      fr.trigAt + usT (cfgN s Fld.camera_frame_timeout c) ≤ t ∧ inRun s = false ∧ cfgN s Fld.camera_raw_tap_point c = 0 ∧
      s.pair.linkUp = false) ∧
    (∃ (c gen : Nat) (k : CamCommand) (s : State), c < s.cams.length ∧
      (unanswered (camOf s c)).find? (fun k => k.gen = gen) = some k) :=
  ⟨⟨1, (⟨true, 5, 2, true⟩), { wIdle with cams := List.replicate 4 { state := .discovery } }, by decide +kernel⟩,
   ⟨1, (⟨false, 0, 0, false⟩), { wIdle with cams := List.replicate 4 { state := .discovery, failures := 2 } },
     by decide +kernel⟩,
   ⟨(secT 11), 1, { wIdle with cams := List.replicate 4 { state := .fault } }, by decide +kernel⟩,
   ⟨1, 0, { wIdle with cams := List.replicate 4 { state := .ready, connections := 1 } }, by decide +kernel⟩,
   ⟨1, wCamFrame, { wIdle with cams := List.replicate 4 { state := .ready, frame := some wCamFrame } }, by decide +kernel⟩,
   ⟨1, { wIdle with cams := List.replicate 4 { state := .ready } }, by decide +kernel⟩,
   ⟨(secT 1), 1, wCamFrame, { wIdle with cams := List.replicate 4 { state := .ready, frame := some wCamFrame } },
     by decide +kernel⟩,
   ⟨1, 3, (⟨3, 10, 10, 0, some 0, false, false⟩),
     { wIdle with cams := List.replicate 4 { state := .ready, commands := [⟨3, 10, 10, 0, some 0, false, false⟩] } },
     by decide +kernel⟩⟩

theorem witness_AxesRun :
    (∃ (a : Nat) (s : State), motionOn s.mod.state = true ∧ a < 12 ∧ s.axes.length = 12 ∧ (axisOf s a).state = .moving ∧
      (axisOf s a).jog = none ∧ (axisOf s a).latchDue = none ∧ axisEncoder s a = none ∧
      (profileTo (axisOf s a).latched.vMax (axisOf s a).latched (axisOf s a).target (motionOf (axisOf s a))).p ≠ (axisOf s a).target) ∧
    (∃ (a : Nat) (s : State), motionOn s.mod.state = true ∧ a < 12 ∧ s.axes.length = 12 ∧ (axisOf s a).state = .moving ∧
      (axisOf s a).jog = none ∧ (axisOf s a).latchDue = none ∧ axisEncoder s a = none ∧
      arrives (axisOf s a).target (axisOf s a).latched.decel (profileStep (axisOf s a).latched.vMax (axisOf s a).latched.accel (axisOf s a).latched.decel (jerkOf (axisOf s a).latched) (signRat ((axisOf s a).target - (axisOf s a).p)) (some (absRat ((axisOf s a).target - (axisOf s a).p))) (motionOf (axisOf s a))) = true) ∧
    (∃ (a : Nat) (s : State), motionOn s.mod.state = true ∧ a < 12 ∧ s.axes.length = 12 ∧
      ((axisOf s a).state = .off ∨ ((axisOf s a).state = .hold ∧ (axisOf s a).latchDue = none ∧ axisEncoder s a = none))) ∧
    (∃ (a mv : Nat) (s : State), a < 12 ∧ s.axes.length = 12 ∧ (axisOf s a).state ≠ .off ∧ (axisOf s a).state ≠ .fault ∧
      2000 ≤ mv ∧ cfgN s Fld.motion_vbus_min a ≤ mv ∧ mv ≤ cfgN s Fld.motion_vbus_max a) ∧
    (∃ (t a : Nat) (s : State), a < s.axes.length ∧ (axisOf s a).state = .hold ∧
      (axisOf s a).holdSince + msT (cfgN s Fld.motion_hold_delay a) ≤ t) :=
  ⟨⟨2, (wAxis { state := .moving, target := 100000 } wIdle), by decide +kernel⟩,
   ⟨2, (wAxis { state := .moving, target := 0 } wIdle), by decide +kernel⟩,
   ⟨2, (wAxis { state := .hold } wIdle), by decide +kernel⟩,
   ⟨2, 24000, (wAxis { state := .hold } wIdle), by decide +kernel⟩,
   ⟨(secT 1), 2, (wAxis { state := .hold } wIdle), by decide +kernel⟩⟩

theorem witness_RingFrames :
    (∃ (f : RingFrame) (s : State), ringOn s = true ∧ ringOpen s = true ∧ f.source ≠ nodeNumber s ∧ f.dest ≠ nodeNumber s ∧
      f.dest ≠ 0xFF ∧ f.hops < 8) ∧
    (∃ (s : State), ringOn s = true) ∧
    (∃ (t q : Nat) (x : RingTx) (s : State), s.ring.tx.find? (fun x => x.frame.seq = q) = some x ∧ ringOpen s = true ∧
      x.sentAt + usT 20 ≤ t ∧ x.resends < 25) ∧
    (∃ (t q : Nat) (x : RingTx) (s : State), s.ring.tx.find? (fun x => x.frame.seq = q) = some x ∧ ringOpen s = true ∧
      x.sentAt + usT 20 ≤ t ∧ 25 ≤ x.resends) ∧
    (∃ (s : State), isKing s = true) ∧
    (∃ (s : State), s.ring.state = .member) ∧
    (∃ (left : Nat) (stamp : Int) (f : RingFrame) (s : State), Arrives s 0x22 f ∧ s.ring.state = .member ∧
      s.ring.kingHeard = true ∧ nodeNumber s < s.ring.nodes.length ∧ s.ring.delayReq = some (stamp, left) ∧
      stampNative stamp = f.body.take 12) :=
  ⟨⟨(⟨0x33, 1, 5, 2, 6, []⟩), (wRing .member wIdle), by decide +kernel⟩,
   ⟨(wRing .member wIdle), by decide +kernel⟩,
   ⟨(secT 1), 6, (⟨⟨0x33, 2, 5, 2, 6, []⟩, 0, 3⟩), (wRingTx ⟨⟨0x33, 2, 5, 2, 6, []⟩, 0, 3⟩), by decide +kernel⟩,
   ⟨(secT 1), 6, (⟨⟨0x33, 2, 5, 2, 6, []⟩, 0, 25⟩), (wRingTx ⟨⟨0x33, 2, 5, 2, 6, []⟩, 0, 25⟩), by decide +kernel⟩,
   ⟨(wRing .king wIdle), by decide +kernel⟩,
   ⟨(wRing .member wIdle), by decide +kernel⟩,
   ⟨1500, 77, (wFrame 0x22 (stampNative 77 ++ leBytes 4 100)),
     { wRing .member wIdle with ring := { (wRing .member wIdle).ring with delayReq := some (77, 1500) } },
     by unfold Arrives; decide +kernel⟩⟩

theorem witness_CrownAndGrants :
    (∃ (t d : Nat) (s : State), ringOn s = true ∧ s.power.position = 0 ∧ s.power.strapValid = true ∧ drives s = true ∧
      s.ring.state = .bypassed ∧ s.ring.ejected = false ∧ ringLoop s = false ∧ s.ring.listenSince = some d ∧ d + msT 20 ≤ t) ∧
    (∃ (s : State), isKing s = true) ∧
    (∃ (f : RingFrame) (s : State), Arrives s 0x23 f ∧ s.ring.state = .bypassed ∧ s.ring.ejected = false ∧
      s.power.position ≠ 0 ∧ fld f.body 0 1 = s.update.ringMajor ∧ ringLoop s = false) ∧
    (∃ (t k : Nat) (s : State), isKing s = true ∧ s.ring.granted = none ∧ nextGrant s = some k ∧
      mayChange (beginAt t s) = true) ∧
    (∃ (f : RingFrame) (s : State), Arrives s 0x25 f ∧ s.ring.state = .bypassed ∧ s.ring.attn = true ∧
      fld f.body 0 1 = nodeNumber s) ∧
    (∃ (t : Nat) (u : Int) (s : State), ringOn s = true ∧ s.ring.openAt = some u ∧ u ≤ timeNow (beginAt t s) ∧
      s.ring.state = .bypassed) :=
  ⟨⟨(secT 1), 5, { wIdle with power := { wIdle.power with position := 0 }, ring := { listenSince := some 5 } },
     by decide +kernel⟩,
   ⟨(wRing .king wIdle), by decide +kernel⟩,
   ⟨(wFrame 0x23 [0, 0, 1, 0]), wIdle, by unfold Arrives; decide +kernel⟩,
   ⟨2000, 1, (wCfg [(Fld.ring_expected, [6])] (wRing .king wIdle)), by decide +kernel⟩,
   ⟨(wFrame 0x25 (leBytes 1 2 ++ wZero 15)), { wIdle with ring := { attn := true } }, by unfold Arrives; decide +kernel⟩,
   ⟨(secT 1), 65536, { wIdle with ring := { attn := true, openAt := some 65536 } }, by decide +kernel⟩⟩

theorem witness_JoiningAndLeaving :
    (∃ (f : RingFrame) (s : State), Arrives s 0x26 f ∧ isKing s = true ∧ s.ring.roll.testBit f.source = false ∧
      f.source < s.ring.nodes.length ∧ s.ring.attnLine = false ∧ fld f.body 0 1 = s.update.ringMajor) ∧
    (∃ (f : RingFrame) (s : State), Arrives s 0x26 f ∧ isKing s = true ∧ s.ring.roll.testBit f.source = false ∧
      f.source < s.ring.nodes.length ∧ s.ring.attnLine = false ∧ fld f.body 0 1 ≠ s.update.ringMajor) ∧
    (∃ (t k u : Nat) (s : State), s.ring.granted = some (k, u) ∧ u + usT 200 ≤ max s.now t ∧ s.ring.attnLine = false) ∧
    (∃ (f : RingFrame) (s : State), Arrives s 0x27 f ∧ s.ring.state = .joining ∧ fld f.body 0 1 = nodeNumber s ∧
      fld f.body 1 1 = 1) ∧
    (∃ (t : Nat) (f : RingFrame) (s : State), Arrives s 0x28 f ∧ isKing s = true ∧ mayChange (beginAt t s) = false) ∧
    (∃ (t d : Nat) (restarts : Bool) (s : State), s.ring.leaving = some (restarts, d) ∧
      d + msT (cfgN s Fld.ring_leave_wait 0) ≤ t ∧ s.mod.state = .idle) ∧
    (∃ (t d : Nat) (restarts : Bool) (s : State), s.ring.leaving = some (restarts, d) ∧
      d + msT (cfgN s Fld.ring_leave_wait 0) ≤ t ∧ s.mod.state = .idle) ∧
    (∃ (t d : Nat) (restarts : Bool) (s : State), s.ring.leaving = some (restarts, d) ∧
      d + msT (cfgN s Fld.ring_leave_wait 0) ≤ t ∧ s.mod.state ≠ .idle ∧ s.mod.state ≠ .maintenance) ∧
    (∃ (f : RingFrame) (s : State), Arrives s 0x24 f ∧ s.ring.state = .joining ∧ nodeNumber s < 8 ∧
      (fld (rollEntry f.body (nodeNumber s)) 0 1).testBit 3 = true) ∧
    (∃ (t k d : Nat) (s : State), isKing s = true ∧ k < 8 ∧ k < s.ring.nodes.length ∧ k ≠ nodeNumber s ∧
      (nodeOf s k).lost = false ∧ (nodeOf s k).seen = some d ∧ d + lossTolerance s ≤ t ∧ s.update.relaying = false) :=
  ⟨⟨(wFrame 0x26 [0, 3]), (wRing .king wIdle), by unfold Arrives; decide +kernel⟩,
   ⟨(wFrame 0x26 [1, 3]), (wRing .king wIdle), by unfold Arrives; decide +kernel⟩,
   ⟨(secT 1), 3, 65536, { wRing .king wIdle with ring := { (wRing .king wIdle).ring with granted := some (3, 65536) } },
     by decide +kernel⟩,
   ⟨(wFrame 0x27 [2, 1]), (wRing .joining wIdle), by unfold Arrives; decide +kernel⟩,
   ⟨2000, (wFrame 0x28 [0]), (wArm .print { wArmed with slots := [{ wSlot with start := -5 }] } (wRing .king wIdle)),
     by unfold Arrives; decide +kernel⟩,
   ⟨(secT 10), 5, true, { wRing .member wIdle with ring := { (wRing .member wIdle).ring with leaving := some (true, 5) } },
     by decide +kernel⟩,
   ⟨(secT 10), 5, false, { wRing .member wIdle with ring := { (wRing .member wIdle).ring with leaving := some (false, 5) } },
     by decide +kernel⟩,
   ⟨(secT 10), 5, true,
     (wArm .print wArmed { wRing .member wIdle with ring := { (wRing .member wIdle).ring with leaving := some (true, 5) } }),
     by decide +kernel⟩,
   ⟨(wFrame 0x24 (wZero 16 ++ [8] ++ wZero 47)), (wRing .joining wIdle), by unfold Arrives; decide +kernel⟩,
   ⟨(secT 1), 5, 3,
     { wRing .king wIdle with ring := { (wRing .king wIdle).ring with nodes := (List.replicate 8 {}).set 5 { seen := some 3 } } },
     by decide +kernel⟩⟩

theorem witness_CascadeAgrees :
    (∃ (s : State), isKing s = true ∧ inGroup s = true ∧ groupIdle s = true) ∧
    (∃ (f : RingFrame) (s : State), Arrives s 0x29 f ∧ s.ring.state = .member ∧ s.ring.kingHeard = true ∧ drives s = true ∧
      inGroup s = true ∧ partnerTakes s = false ∧ s.jobs.armed = none ∧ s.pos.inputs.length = 16) ∧
    (∃ (f : RingFrame) (s : State), Arrives s 0x30 f ∧ isKing s = true ∧ f.source < s.ring.nodes.length ∧ s.jobs.armed = none) ∧
    (∃ (f : RingFrame) (s : State), Arrives s 0x31 f ∧ s.ring.state = .member ∧ s.ring.kingHeard = true ∧ drives s = true ∧
      inGroup s = true ∧ partnerTakes s = false ∧ ofRun f.body s = true) ∧
    (∃ (f : RingFrame) (s : State), (∀ a, s.jobs.armed = some a → a.hold = false) ∧ Arrives s 0x32 f ∧ isKing s = true ∧
      (nodeOf s f.source).armed.map (fun x => x.1) = some (fld f.body 0 4) ∧ f.source < s.ring.nodes.length) :=
  ⟨⟨(wGroup (wRing .king wIdle)), by decide +kernel⟩,
   ⟨(wFrame 0x29 (wZero 20)), (wGroup (wFed (wRing .member wIdle))), by unfold Arrives; decide +kernel⟩,
   ⟨(wFrame 0x30 (wZero 12)), (wRing .king wIdle), by unfold Arrives; decide +kernel⟩,
   ⟨(wFrame 0x31 (leBytes 4 5 ++ leBytes 4 700)), (wGroup (wArm .armed wArmed (wRing .member wIdle))),
     by unfold Arrives; decide +kernel⟩,
   ⟨(wFrame 0x32 (leBytes 4 5 ++ leBytes 4 1)),
     (wGroup (wArm .armed wArmed { wRing .king wIdle with ring := { (wRing .king wIdle).ring with nodes := [{ armed := some (5, 1, 100) }] ++ List.replicate 7 {} } })),
     forall_some (by decide +kernel), by unfold Arrives; decide +kernel⟩⟩

theorem witness_CascadeDecides :
    (∃ (id : Nat) (f : RingFrame) (a : Armed) (s : State), Arrives s 0x33 f ∧ s.ring.state = .member ∧
      s.ring.kingHeard = true ∧ drives s = true ∧ inGroup s = true ∧ partnerTakes s = false ∧ ofRun f.body s = true ∧
      s.jobs.armed = some a ∧ fld f.body 4 4 = a.nextSlot ∧ a.releasesEnded = false ∧ a.queue.head? = some id ∧
      (runBars s).any (dueOnBar s (sfld f.body 8 8)) = false ∧ anyHalted s = false) ∧
    (∃ (id : Nat) (f : RingFrame) (a : Armed) (s : State), Arrives s 0x34 f ∧ s.ring.state = .member ∧
      s.ring.kingHeard = true ∧ drives s = true ∧ inGroup s = true ∧ partnerTakes s = false ∧ ofRun f.body s = true ∧
      s.jobs.armed = some a ∧ fld f.body 4 4 = a.nextSlot ∧ fld f.body 8 1 = 0 ∧ a.releasesEnded = false ∧
      a.queue.head? = some id ∧ pageQuarantined s id = false) ∧
    (∃ (f : RingFrame) (s : State), Arrives s 0x35 f ∧ s.ring.state = .member ∧ s.ring.kingHeard = true ∧ drives s = true ∧
      inGroup s = true ∧ partnerTakes s = false ∧ ofRun f.body s = true ∧ (openSlots s).isEmpty = false ∧
      s.mod.state ≠ .drain) :=
  ⟨⟨3, (wFrame 0x33 (leBytes 4 5 ++ leBytes 4 0 ++ leBytes 8 1000)), wArmed,
     (wGroup (wArm .armed wArmed (wRing .member wIdle))), by unfold Arrives; decide +kernel⟩,
   ⟨3, (wFrame 0x34 (leBytes 4 5 ++ leBytes 4 0 ++ wZero 4)), wArmed, (wGroup (wArm .armed wArmed (wRing .member wIdle))),
     by unfold Arrives; decide +kernel⟩,
   ⟨(wFrame 0x35 (leBytes 4 5)), (wGroup (wArm .print { wArmed with slots := [wSlot] } (wRing .member wIdle))),
     by unfold Arrives; decide +kernel⟩⟩

theorem witness_RelayGoesOn :
    (∃ (f : RingFrame) (s : State), Arrives s 0x38 f ∧ s.ring.state = .member ∧ s.ring.kingHeard = true ∧
      s.update.relayDigest = f.body.take 8 ∧ s.update.relayStatus = 0 ∧ fld f.body 8 4 = s.update.relayOffset ∧
      s.update.relayOffset + ((f.body.drop 16).take (fld f.body 12 2)).length < 256) ∧
    (∃ (f : RingFrame) (s : State), Arrives s 0x39 f ∧ s.ring.state = .king ∧ s.update.relaying = true ∧
      padTo 8 f.body = s.update.relayDigest ∧ f.source < s.ring.nodes.length) ∧
    (∃ (t : Nat) (s : State), (∀ d, s.update.lastAck = some d → d + msT 100 ≤ t) ∧ s.ring.state = .member ∧
      s.update.relayDigest ≠ [] ∧ s.update.relayStatus = 0) :=
  ⟨⟨(wFrame 0x38 (wZero 12 ++ leBytes 2 4 ++ wZero 6)),
     { wRing .member wIdle with update := { relayDigest := wZero 8, relayStatus := 0 } }, by unfold Arrives; decide +kernel⟩,
   ⟨(wFrame 0x39 (wZero 16)),
     { wRing .king wIdle with update := { relaying := true, relayDigest := wZero 8, relayStatus := 0 } },
     by unfold Arrives; decide +kernel⟩,
   ⟨2000, { wRing .member wIdle with update := { relayDigest := wZero 8, relayStatus := 0 } },
     forall_some (by decide +kernel), by decide +kernel⟩⟩

theorem witness_Heartbeats :
    (∃ (t : Nat) (s : State), (∀ d, s.pair.lastSent = some d → d + usT 5 ≤ t) ∧ partnerOn s = true) ∧
    (∃ (digest body : List Byte) (s : State), partnerOn s = true ∧ s.pair.state = .standby ∧ s.pair.decided = true ∧
      inRun s = false ∧ s.pair.orders = [] ∧ body.length = 68 ∧ digest = s.update.digest ∧ digest ≠ []) ∧
    (∃ (body : List Byte) (s : State), partnerOn s = true ∧ body.length ≠ 68) ∧
    (∃ (q k : Nat) (d : Int) (body : List Byte) (s : State), (∀ r ∈ s.net.results, r.ticket = k → r.body.isSome = true) ∧
      partnerOn s = true ∧ s.pair.state = .active ∧ body.length = 68 ∧ beatPair body = 2 ∧ beatToken body = q ∧
      s.pair.decisions = [(q, .result k d)] ∧ (∃ r ∈ s.net.results, r.ticket = k ∧ r.dropWhenReady = false ∧ r.newer = 0)) ∧
    (∃ (t d : Nat) (s : State), partnerOn s = true ∧ s.pair.linkUp = true ∧ s.pair.lastBeat = some d ∧
      d + usT (5 * (s.pair.missRun + 1)) ≤ t ∧ s.pair.missRun < 2) ∧
    (∃ (t d : Nat) (s : State), partnerOn s = true ∧ s.pair.linkUp = true ∧ s.pair.lastBeat = some d ∧
      d + usT (5 * (s.pair.missRun + 1)) ≤ t ∧ 2 ≤ s.pair.missRun ∧ s.pair.state = .standby ∧ s.mod.state = .idle ∧
      s.jobs.armed = none ∧ s.jobs.arming = none ∧ s.pair.held = [] ∧ s.pair.orders = []) :=
  ⟨⟨2000, (wFollow wIdle), forall_some (by decide +kernel), by decide +kernel⟩,
   ⟨[1], (wZero 68), { wFollow wIdle with update := { digest := [1] } }, by decide +kernel⟩,
   ⟨(wZero 60), (wFollow wIdle), by decide +kernel⟩,
   ⟨4, 33, 77, ([2, 4] ++ wZero 6 ++ leBytes 4 4 ++ wZero 56), (wResult ⟨33, 0x22, some [1], none, 0, false, false,
     0⟩ { wActive wIdle with pair := { (wActive wIdle).pair with decisions := [(4, .result 33 77)] } }), by decide +kernel,
     by decide +kernel⟩,
   ⟨(secT 1), 5, { wFollow wIdle with pair := { (wFollow wIdle).pair with linkUp := true, lastBeat := some 5 } },
     by decide +kernel⟩,
   ⟨(secT 1), 5,
     { wFollow wIdle with pair := { (wFollow wIdle).pair with linkUp := true, lastBeat := some 5, missRun := 2 } },
     by decide +kernel⟩⟩

theorem witness_PairWaitsAndCatchUp :
    (∃ (t d : Nat) (s : State), partnerOn s = true ∧ s.pair.decided = false ∧ s.pair.waitSince = some d ∧
      d + msT (cfgN s Fld.redundancy_pair_wait 0) ≤ t ∧ s.pair.held = [] ∧ s.pair.orders = []) ∧
    (∃ (t d : Nat) (s : State), s.pair.state = .severed ∧ s.pair.reclaimSince = some d ∧
      d + usT (cfgN s Fld.redundancy_reclaim_wait 0) ≤ t ∧ s.mod.state = .idle ∧ s.jobs.armed = none ∧ s.jobs.arming = none ∧
      s.pair.held = [] ∧ s.pair.orders = [] ∧ s.pair.decisions = []) ∧
    (∃ (s : State), catchesUp s = true) ∧
    (∃ (s : State), catchesUp s = true ∧ slotsReady s = true ∧ s.pair.peerModule = 4) ∧
    (∃ (s : State), catchesUp s = true ∧ slotsReady s = false) :=
  ⟨⟨(secT 10), 5,
     { wFollow wIdle with pair := { (wFollow wIdle).pair with state := .catchup, decided := false, waitSince := some 5 } },
     by decide +kernel⟩,
   ⟨(secT 1), 5, { wFollow wIdle with pair := { (wFollow wIdle).pair with state := .severed, reclaimSince := some 5 } },
     by decide +kernel⟩,
   ⟨{ wFollow wIdle with pair := { (wFollow wIdle).pair with state := .catchup } }, by decide +kernel⟩,
   ⟨{ wFollow wIdle with pair := { (wFollow wIdle).pair with state := .catchup, peerModule := 4 } }, by decide +kernel⟩,
   ⟨(wJobs { armed := some { wArmed with slots := [wSlot] }, runs := [wRun] } { wFollow wIdle with pair := { (wFollow wIdle).pair with state := .catchup } }),
     by decide +kernel⟩⟩

theorem witness_PartnerFrames :
    (∃ (e : OrderEntry) (m : HeldMessage) (s : State), follows s = true ∧ s.pair.orders = [] ∧ s.pair.held = [m] ∧
      orderNames e m = true ∧ crc32c (heldPayload m) = e.crc ∧ e.type ≠ 0x01) ∧
    (∃ (e : OrderEntry) (s : State), follows s = true ∧ s.pair.orders = [] ∧ s.pair.held = [] ∧ refusedHere e s = none) ∧
    (∃ (i : Nat) (udp d : List Byte) (s : State), follows s = true ∧ s.pair.orders = [] ∧ udp.length < segmentRoom ∧
      d = s.pair.segPart ++ udp ∧ 32 + fld d 22 2 ≤ d.length ∧ sessionIdx s (fld d 6 2) = some i ∧ fld d 3 1 ≠ 0x04 ∧
      fld d 3 1 ≠ 0x05 ∧ (sessionOf s i).rxAhead = [] ∧ (sessionOf s i).rxAck < 2 ^ 32 ∧
      fld d 8 4 = ((sessionOf s i).rxAck + 1) % 2 ^ 32 ∧ inWindow (sessionOf s i) (fld d 8 4) = true) ∧
    (∃ (udp : List Byte) (s : State), follows s = true ∧ udp.length = segmentRoom) ∧
    (∃ (s : State), s.pair.state = .active) ∧
    (∃ (id sig : Nat) (pg : Page) (s : State), partnerOn s = true ∧ pageOf s id = some pg ∧ pg.state = .rendered ∧
      sig = storeSignature pg.parts) ∧
    (∃ (id sig : Nat) (pg : Page) (s : State), partnerOn s = true ∧ pageOf s id = some pg ∧ pg.state = .rendered ∧
      sig ≠ storeSignature pg.parts ∧ follows s = true) ∧
    (∃ (body : List Byte) (s : State), partnerOn s = true ∧ 32 ≤ body.length ∧ 126 ≤ (pieceStats body).length) :=
  ⟨⟨(⟨7, 2, 0x42, crc32c (leBytes 4 33)⟩), (7, 2, 0x42, leBytes 4 33),
     { wFollow wIdle with pair := { (wFollow wIdle).pair with held := [(7, 2, 0x42, leBytes 4 33)] } }, by decide +kernel⟩,
   ⟨(⟨7, 2, 0x42, 1⟩), (wFollow wIdle), by decide +kernel⟩,
   ⟨0, (wSeg 0x43 5 (leBytes 4 1)), (wSeg 0x43 5 (leBytes 4 1)), (wFollow wIdle), by decide +kernel⟩,
   ⟨(wZero 4084), (wFollow wIdle), by decide +kernel⟩,
   ⟨{ wActive wIdle with pair := { (wActive wIdle).pair with tokensSent := [⟨1, 8, []⟩, ⟨2, 8, [1]⟩, ⟨3, 8, [2]⟩] } },
     by decide +kernel⟩,
   ⟨3, (storeSignature []), (wPage 3 .rendered), (wJobs { pages := [wPage 3 .rendered] } (wFollow wIdle)), by decide +kernel⟩,
   ⟨3, (storeSignature [] + 1), (wPage 3 .rendered), (wJobs { pages := [wPage 3 .rendered] } (wFollow wIdle)),
     by decide +kernel⟩,
   ⟨(wZero (32 + 126 * 32)), (wFollow wIdle), by decide +kernel⟩⟩

theorem witness_TokensDecideRuns :
    (∃ (q : Nat) (body : List Byte) (r : RunDef) (s : State), TokenTurn s q ∧
      s.jobs.runs.find? (fun r => r.id = armRunId body) = some r ∧ s.jobs.arming = none ∧ mayArm s = true) ∧
    (∃ (q id : Nat) (body : List Byte) (a : Armed) (s : State), TokenTurn s q ∧ s.jobs.armed = some a ∧ inRun s = true ∧
      fld body 0 4 = a.nextSlot ∧ a.releasesEnded = false ∧ fld body 4 4 = id) ∧
    (∃ (q id : Nat) (body : List Byte) (a : Armed) (s : State), TokenTurn s q ∧ s.jobs.armed = some a ∧
      fld body 0 4 = a.nextSlot ∧ fld body 4 1 = 0 ∧ a.releasesEnded = false ∧ a.queue.head? = some id ∧
      pageQuarantined s id = false) ∧
    (∃ (q : Nat) (body : List Byte) (s : State), (∀ r ∈ s.net.results, r.ticket = fld body 0 4 → r.body.isSome = true) ∧
      TokenTurn s q ∧ s.cal.runNow = [] ∧ fld body 0 4 < 0x80000000 ∧ (∃ r ∈ s.net.results, r.ticket = fld body 0 4 ∧
      r.dropWhenReady = false ∧ r.newer = 0)) ∧
    (∃ (q : Nat) (body : List Byte) (s : State), TokenTurn s q ∧ fld body 0 1 = 0x31 ∧ inGroup s = true ∧
      s.ring.state ≠ .king ∧ ofRun (body.drop 1) s = true) :=
  ⟨⟨9, (leBytes 4 5 ++ wZero 80), wRun,
     (wJobs { runs := [wRun], pages := [wPage 3 .rendered, wPage 4 .rendered] } (wFollow wIdle)),
     by unfold TokenTurn; decide +kernel⟩,
   ⟨9, 3, (leBytes 4 0 ++ leBytes 4 3 ++ leBytes 8 1000), wArmed, (wArm .armed wArmed (wFollow wIdle)),
     by unfold TokenTurn; decide +kernel⟩,
   ⟨9, 3, (leBytes 4 0 ++ wZero 8), wArmed, (wArm .armed wArmed (wFollow wIdle)), by unfold TokenTurn; decide +kernel⟩,
   ⟨9, (leBytes 4 33 ++ wZero 12), (wResult ⟨33, 0x22, some [1], none, 0, false, false, 0⟩ (wFollow wIdle)),
     by decide +kernel, by unfold TokenTurn; decide +kernel⟩,
   ⟨9, ([0x31] ++ leBytes 4 5 ++ leBytes 4 700), (wGroup (wArm .armed wArmed (wFollow (wRing .member wIdle)))),
     by unfold TokenTurn; decide +kernel⟩⟩

theorem witness_TokensCarryValues :
    (∃ (q : Nat) (body : List Byte) (s : State), TokenTurn s q ∧ s.gov.running = true ∧
      cfgN s Fld.render_governor_enable 0 ≠ 0 ∧ s.thermal.throttle = true ∧ s.gov.step < fld body 0 1 ∧
      s.gov.overridden = false) ∧
    (∃ (q : Nat) (s : State), TokenTurn s q ∧ s.gov.running = true ∧ cfgN s Fld.render_governor_enable 0 ≠ 0 ∧
      s.thermal.throttle = false) ∧
    (∃ (q : Nat) (s : State), TokenTurn s q ∧ (s.gov.running = false ∨ cfgN s Fld.render_governor_enable 0 = 0)) ∧
    (∃ (q : Nat) (body : List Byte) (s : State), TokenTurn s q ∧ tapKind body = 4 ∧ s.jobs.armed = none ∧
      tapBar body < s.cal.values.reg.length) ∧
    (∃ (q : Nat) (body : List Byte) (s : State), TokenTurn s q ∧ tapKind body = 0xFF) ∧
    (∃ (q : Nat) (body : List Byte) (s : State), TokenTurn s q ∧ barAction body = 1 ∧ barNumber body < s.fire.bars.length) ∧
    (∃ (q : Nat) (body : List Byte) (s : State), TokenTurn s q ∧ fld body 0 1 < s.cams.length ∧
      (camOf s (fld body 0 1)).state = .ready) ∧
    (∃ (q : Nat) (body : List Byte) (s : State), TokenTurn s q ∧ fld body 0 1 < s.axes.length ∧ fld body 1 1 = 1 ∧
      (axisOf s (fld body 0 1)).state ≠ .off ∧ (axisOf s (fld body 0 1)).state ≠ .fault) ∧
    (∃ (q : Nat) (s : State), follows s = true ∧ s.pair.tokenSeq < 2 ^ 32 ∧ q < 2 ^ 32 ∧ s.pair.tokenSeq < q ∧
      q < s.pair.tokenSeq + 2 ^ 31 ∧ s.pair.tokensAhead = [] ∧ s.pair.gapSince = none) ∧
    (∃ (t d : Nat) (s : State), follows s = true ∧ s.pair.gapSince = some d ∧ d + msT 1 ≤ t) :=
  ⟨⟨9, [5], (wCfg [(Fld.render_governor_enable, [1])] { wFollow wIdle with thermal := { throttle := true } }),
     by unfold TokenTurn; decide +kernel⟩,
   ⟨9, (wCfg [(Fld.render_governor_enable, [1])] (wFollow wIdle)), by unfold TokenTurn; decide +kernel⟩,
   ⟨9, (wCfg [(Fld.render_governor_enable, [0])] (wFollow wIdle)), by unfold TokenTurn; decide +kernel⟩,
   ⟨9, ([4, 1] ++ wZero 8 ++ leBytes 4 25), (wFollow wIdle), by unfold TokenTurn; decide +kernel⟩,
   ⟨9, ([0xFF] ++ wZero 13), (wFollow wIdle), by unfold TokenTurn; decide +kernel⟩,
   ⟨9, ([2, 1] ++ wZero 8), (wFollow wIdle), by unfold TokenTurn; decide +kernel⟩,
   ⟨9, ([2] ++ leBytes 2 3 ++ leBytes 4 1000 ++ leBytes 2 5),
     { wFollow wIdle with cams := List.replicate 4 { state := .ready } }, by unfold TokenTurn; decide +kernel⟩,
   ⟨9, ([2, 1] ++ leBytes 8 2), (wAxis { state := .moving } (wFollow wIdle)), by unfold TokenTurn; decide +kernel⟩,
   ⟨12, (wFollow wIdle), by decide +kernel⟩,
   ⟨(secT 1), 5, { wFollow wIdle with pair := { (wFollow wIdle).pair with gapSince := some 5 } }, by decide +kernel⟩⟩

/-- The invariant's premise of the step statement is met with a step that does something: INPUT_LOW waits in IDLE, and its event enters
the log. -/
theorem witness_StepKeepsInvariant :
    ∃ s n : State, Inv s ∧ step s = .next n ∧ n.power.inputLowRaised = true ∧ n.log.events.length = 1 := by
  refine ⟨{ wIdle with pending := [.inputLow 2000 30000] }, _, ⟨by decide +kernel, by decide +kernel, ?_, .nil, ?_⟩, rfl, ?_, ?_⟩
  · intro e h; cases h
  · intro e h; cases h
  · decide +kernel
  · decide +kernel

/-! ### Well-formed commands: one that is, and an ill-formed one for each check -/

theorem test_wf_accepts : wellFormed (.dptSegmentReceived 1 1 0 ⟨false, 0⟩ []) = true := by decide
theorem test_wf_straps : wellFormed (.powerGood 1 16 48000) = false := by decide
theorem test_wf_domain : wellFormed (.powerGoodLost 1 .slotReset 10) = false := by decide
theorem test_wf_channel : wellFormed (.trainingDone 1 4 [] [] .verified) = false := by decide
theorem test_wf_monitor : wellFormed (.speedMonitorWindow 1 24 0) = false := by decide
theorem test_wf_port : wellFormed (.portLinkChange 1 2 true) = false := by decide
theorem test_wf_source : wellFormed (.maintenanceReq 1 ⟨65536, 0, false⟩) = false := by decide
theorem test_wf_message : wellFormed (.maintenanceReq 1 ⟨1, 4294967296, false⟩) = false := by decide
theorem test_wf_payload (p : List Byte) (h : p.length = 16777217) : wellFormed (.haltReq 1 ⟨1, 1, false⟩ p) = false := by
  simp [wellFormed, h]
theorem test_wf_output : wellFormed (.timedOutputEdge 1 9) = false := by decide
theorem test_wf_input : wellFormed (.quadratureEdge 1 16 true true 4) = false := by decide
theorem test_wf_pair : wellFormed (.wireFault 1 0 4 100) = false := by decide
theorem test_wf_aux : wellFormed (.auxCompareTrigger 1 32) = false := by decide
theorem test_wf_din : wellFormed (.dinChange 1 24 true 0) = false := by decide
theorem test_wf_bar : wellFormed (.lineTrigger 1 8) = false := by decide
theorem test_wf_lane : wellFormed (.fireUnderrun 1 48) = false := by decide
theorem test_wf_link : wellFormed (.statusTimeout 1 16) = false := by decide
theorem test_wf_pll : wellFormed (.pllUnlock 1 4) = false := by decide
theorem test_wf_camera : wellFormed (.cameraRetry 1 4) = false := by decide
theorem test_wf_frame : wellFormed (.roll 1 (wFrame 0x124 [])) = false := by decide
theorem test_wf_axis : wellFormed (.holdCurrentDelay 1 12) = false := by decide

theorem test_wf_vector : wellFormed (.codecSelftest 1 [⟨0, 48, 0, 0, 0⟩]) = false := by decide
theorem test_wf_burst : wellFormed (.eccCorrectedRate 1 0 [(1, ⟨32, List.replicate 16 0⟩)]) = false := by decide
theorem test_wf_return : wellFormed (.loopbackEnd 1 77 false (.scan 0 [⟨64, []⟩] 0)) = false := by decide
theorem test_wf_temperatures : wellFormed (.dtRead 1 [[some 20]]) = false := by decide

/-! ### The spec's worked examples -/

/-- Vector V0: 32 zero bytes (07_raron_codec.md, Worked example: one block from 32 zero bytes). -/
theorem test_raron_v0 : (encodeChunk 0 (wZero 32)).drop 16 = [0x00, 0x02, 0x0A, 0x1C, 0x48, 0xB0, 0xA0, 0xC1, 0x81] ∧
    leNat (((encodeChunk 0 (wZero 32)).drop 12).take 4) = 0x8A9136AA := by decide +kernel
theorem test_raron_v0_back : decodeLaneBlock #[] 0 32 ⟨encodeChunk 0 (wZero 32), none⟩ = (wZero 32, none) := by decide +kernel

/-- SHA-384 of "abc" (FIPS 180-4, which the spec names). -/
theorem test_sha384 : (sha384 [0x61, 0x62, 0x63]).take 8 = [0xCB, 0x00, 0x75, 0x3F, 0x45, 0xA3, 0x5E, 0x8B] := by decide +kernel

/-- Link 7 of the worked example of 06_screening_and_nozzle_map.md: 13 heads, adjacent ones overlapping by 32 files. -/
def wMap : Cfg := { State.reset.conf.cfg with heads := List.replicate 7 [] ++
  [(List.range 13).map fun h => ⟨53248 + 4064 * h, 4096, 4, 4 * (h % 2), false⟩] }

/-- File 80,000 is slot 26,944 of link 7, rank 0; file 81,697 lies in a stitch zone (Worked example: from contone to bytes). -/
theorem test_locate_file : fileSlots wMap 7 80000 = [26944] ∧ slotRank wMap 7 26944 = 0 ∧
    fileSlots wMap 7 81697 = [28641, 28673] ∧ slotRank wMap 7 28673 = 5 := by decide +kernel

/-- The ramp chooses the lower head for files 81,696 and 81,699; dead nozzle 4,065 forces 81,697 to the upper one. -/
theorem test_stitch_ramp : stitchChoice false 81696 32 81696 1000 false false = (false, false) ∧
    stitchChoice false 81696 32 81697 1000 true false = (true, true) ∧
    stitchChoice false 81696 32 81699 1000 false false = (false, false) := by decide +kernel

/-- Bilinear places of file 60,001 and line 40,000 (05_composition.md, Worked example). -/
theorem test_bilinear : bilinearPos 60001 2 = (30000, 64) ∧ bilinearPos 40000 2 = (19999, 192) := by decide +kernel

/-- The anchor of 14_timebase.md, Worked example: at raw 250,000,000 module time is 101 s + 7,629 ns + 25,856 units. -/
theorem test_anchor : anchorTime 0 (100 * 1000000000 * 65536) 8388608 (250000000 * 256) =
    (101 * 1000000000 + 7629) * 65536 + 25856 := by decide +kernel

/-- Ack 1,002 with 1,003 and 1,006 missing up to 1,009 is sack 0x3B (03_host_transport.md, Worked example). -/
theorem test_sack : sackOf { rxAck := 1002, rxAhead := [1004, 1005, 1007, 1008, 1009] } = 0x3B := by decide +kernel

/-- The EVENT payload of the dropped line (25_status_objects.md, Worked example). -/
theorem test_event_payload :
    eventPayload State.reset ⟨1027, 0x0510, (250 * 1000000000 + 100000) * 65536,
      padTo 16 (leBytes 1 0 ++ leBytes 4 14 ++ leBytes 4 3786 ++ leBytes 4 1)⟩ =
    [0x10, 0x05, 0, 0, 0x03, 0x04, 0, 0, 0xFA, 0, 0, 0, 0, 0, 0xA0, 0x86, 0x01, 0, 0, 0, 0, 0x0E, 0, 0, 0, 0xCA, 0x0E, 0, 0,
      0x01, 0, 0, 0, 0, 0, 0] := by decide +kernel

/-- The time-stamp of 250.000000123 s in the layout of the 0824 (22_0824_compatibility.md, Worked example). -/
theorem test_stamp_legacy : stampLegacy ((250 * 1000000000 + 123) * 65536) =
    [0x0C, 0xBA, 0x1D, 0xD2, 0x05, 0, 0, 0, 0, 0, 0, 0] := by decide +kernel

/-- o_7 of the example of 10_firing.md: O_7 = 28,346 and phi_7 = 117. -/
theorem test_bar_offset : barOffsetOf (wCfg [(Fld.geometry_bar_offset, [0, 0, 0, 0, 0, 0, 0, 600000000])] wIdle) 7 0 = 28346 * 256 + 117 := by
  decide +kernel

/-- A record of a configuration image (18_configuration_image.md, Worked example: 0x060A, count 1, value 100). -/
theorem test_record : (recordsIn 1 [0x0A, 0x06, 0, 0, 0x02, 0, 0x01, 0, 0x64, 0, 0, 0]).map (fun l => l.map fun q => (q.id, q.size, q.count, q.bytes)) =
    some [(0x060A, 2, 1, [0x64, 0])] := by
  decide +kernel

/-! ### Single steps -/

/-- After reset nothing waits, and the block idles. -/
theorem test_idle : step State.reset = .next State.reset := rfl

/-- Power good takes the module from OFF to BOOT. -/
theorem test_power_good : ∃ n, step { State.reset with pending := [.powerGood (msT 10) 0 48000] } = .next n ∧ n.mod.state = .boot ∧
    n.pending = [] := ⟨_, rfl, by decide +kernel, by decide +kernel⟩

/-- Input voltage below 40 V raises event 0x0121, once. -/
theorem test_input_low : ∃ n, exec (.inputLow 2000 30000) wIdle = .next n ∧ (n.log.events.map fun e => e.code) = [0x0121] :=
  ⟨_, rfl, by decide +kernel⟩

/-- A quadrature step forward counts one up on a wheel input. -/
theorem test_quadrature : ∃ n, exec (.quadratureEdge 2000 0 true false 100) (wCfg [(Fld.position_mode, [1])] wIdle) = .next n ∧
    (inputOf n 0).count = 1 := ⟨_, rfl, by decide +kernel⟩

end Sys2Proof.Tests
end

section
/-! Proofs of the statements on the module in the press (01_module_in_the_press.md). First what entering a module state leaves
alone and raises, then the end of training (O10), then what the reading of the configuration depends on, the records kept as
two copies, and the end of CONFIG (O9). -/
namespace Sys2Proof.Machine
open Sys2Proof

-- As in the tests: checked in parallel, the whole text takes more threads than the memory limit leaves room for.
set_option Elab.async false

/-! ### A group outside a `Keeps` list is as it was -/

section KeepsGroups
variable {w : List Group} {s n : State} (h : Keeps w s n)
include h

theorem Keeps.mod_eq (hw : Group.mod ∉ w := by decide) : n.mod = s.mod := h.only.same .mod hw
theorem Keeps.power_eq (hw : Group.power ∉ w := by decide) : n.power = s.power := h.only.same .power hw
theorem Keeps.flash_eq (hw : Group.flash ∉ w := by decide) : n.flash = s.flash := h.only.same .flash hw
theorem Keeps.conf_eq (hw : Group.conf ∉ w := by decide) : n.conf = s.conf := h.only.same .conf hw
theorem Keeps.update_eq (hw : Group.update ∉ w := by decide) : n.update = s.update := h.only.same .update hw
theorem Keeps.log_eq (hw : Group.log ∉ w := by decide) : n.log = s.log := h.only.same .log hw
theorem Keeps.render_eq (hw : Group.render ∉ w := by decide) : n.render = s.render := h.only.same .render hw

end KeepsGroups

/-! ### The module state and the record of a transition -/

@[simp] theorem raise_mod (code detail s) : (raise code detail s).mod = s.mod := (raise_keeps ..).mod_eq
@[simp] theorem raise_power (code detail s) : (raise code detail s).power = s.power := (raise_keeps ..).power_eq
@[simp] theorem raise_flash (code detail s) : (raise code detail s).flash = s.flash := (raise_keeps ..).flash_eq
@[simp] theorem raise_update (code detail s) : (raise code detail s).update = s.update := (raise_keeps ..).update_eq

@[simp] theorem setModState_state (st cause s) : (setModState st cause s).mod.state = st := by
  simp [setModState]

@[simp] theorem clearOverspeed_mod (s) : (clearOverspeed s).mod = s.mod := (clearOverspeed_keeps s).mod_eq
@[simp] theorem dropCamAux_mod (s) : (dropCamAux s).mod = s.mod := (dropCamAux_keeps s).mod_eq
@[simp] theorem disableCams_mod (s) : (disableCams s).mod = s.mod := (disableCams_keeps s).mod_eq
@[simp] theorem disableLinks_mod (s) : (disableLinks s).mod = s.mod := (disableLinks_keeps s).mod_eq
@[simp] theorem clearOutputs_mod (s) : (clearOutputs s).mod = s.mod := (clearOutputs_keeps s).mod_eq
@[simp] theorem axesOff_mod (s) : (axesOff s).mod = s.mod := (axesOff_keeps s).mod_eq
@[simp] theorem axesLose_mod (s) : (axesLose s).mod = s.mod := (axesLose_keeps s).mod_eq
@[simp] theorem closeBypass_mod (st s) : (closeBypass st s).mod = s.mod := (closeBypass_keeps st s).mod_eq
@[simp] theorem endCascade_mod (s) : (endCascade s).mod = s.mod := (endCascade_keeps s).mod_eq
@[simp] theorem endCalRun_mod (s) : (endCalRun s).mod = s.mod := (endCalRun_keeps s).mod_eq
@[simp] theorem endRunInputs_mod (s) : (endRunInputs s).mod = s.mod := (endRunInputs_keeps s).mod_eq
@[simp] theorem clearBars_mod (s) : (clearBars s).mod = s.mod := (clearBars_keeps s).mod_eq
@[simp] theorem endHalts_mod (s) : (endHalts s).mod = s.mod := (endHalts_keeps s).mod_eq
@[simp] theorem keepRun_mod (s) : (keepRun s).mod = s.mod := (keepRun_keeps s).mod_eq
@[simp] theorem endInspection_mod (s) : (endInspection s).mod = s.mod := (endInspection_keeps s).mod_eq
@[simp] theorem loseMemory_mod (s) : (loseMemory s).mod = s.mod := (loseMemory_keeps s).mod_eq
@[simp] theorem loseTime_mod (s) : (loseTime s).mod = s.mod := (loseTime_keeps s).mod_eq
@[simp] theorem idleOnlyLinks_mod (s) : (idleOnlyLinks s).mod = s.mod := (idleOnlyLinks_keeps s).mod_eq
@[simp] theorem freshPorts_mod (s) : (freshPorts s).mod = s.mod := (freshPorts_keeps s).mod_eq
@[simp] theorem announceStart_mod (s) : (announceStart s).mod = s.mod := (announceStart_keeps s).mod_eq
@[simp] theorem bringUpLinks_mod (s) : (bringUpLinks s).mod = s.mod := (bringUpLinks_keeps s).mod_eq

/-- Raising a list of events, one after the other, leaves alone what `raise` leaves alone. -/
theorem forEach_raise_keeps {α : Type} (l : List α) (code : α → Nat) (detail : α → List Byte) (s : State) :
    Keeps [.log, .net] s (forEach l (fun x => raise (code x) (detail x)) s) :=
  Keeps.forEach (fun x s => raise_keeps (code x) (detail x) s) (Keeps.refl _ _)

theorem firstIdle_state (s : State) : (firstIdle s).mod.state = s.mod.state := by
  have hm : (forEach s.conf.atIdle (fun e => raise e.1 e.2)
      (announceStart { s with mod := { s.mod with idleSeen := true } })).mod = { s.mod with idleSeen := true } := by
    rw [(forEach_raise_keeps ..).mod_eq, announceStart_mod]
  unfold firstIdle
  dsimp only
  split <;> simp [hm]

theorem firstIdle_unlessSeen_state (s : State) : (if s.mod.idleSeen then s else firstIdle s).mod.state = s.mod.state := by
  split
  · rfl
  · exact firstIdle_state s

theorem enterIdle_state (cause : Nat) (s : State) : (enterIdle cause s).mod.state = .idle := by
  unfold enterIdle
  extract_lets done s1 s2 s3 m u r s4
  have hs1 : s1.mod.state = .idle := setModState_state ..
  have hs2 : s2.mod.state = .idle := by
    unfold s2
    split
    · cases hd : done with
      | none => exact hs1
      | some run => exact (congrArg Mod.state (raise_mod ..)).trans hs1
    · exact hs1
  have hs3 : s3.mod.state = s2.mod.state := by
    simp only [s3, clearOverspeed_mod, dropCamAux_mod, endCascade_mod, endCalRun_mod, endRunInputs_mod, clearBars_mod,
      endHalts_mod, keepRun_mod, endInspection_mod]
  rw [firstIdle_unlessSeen_state s4]
  simp only [s4, m, hs3, hs2]

theorem enterMaintenance_state (cause : Nat) (s : State) : (enterMaintenance cause s).mod.state = .maintenance := by
  unfold enterMaintenance
  dsimp only
  split_ifs <;> simp

theorem enterBoot_state (cause : Nat) (s : State) : (enterBoot cause s).mod.state = .boot := by
  simp [enterBoot]

theorem enterTrain_state (s : State) : (enterTrain s).mod.state = .train := by
  simp [enterTrain]

/-- What MAINTENANCE switches off first touches neither the configuration nor what is kept for the start. -/
theorem maintenanceOff_keeps (cause : Nat) (s : State) : Keeps [.mod, .log, .net, .pos, .cams, .time, .axes, .ring, .pair] s
    (closeBypass .passThrough (dropCamAux (disableCams (clearOutputs (axesOff (setModState .maintenance cause s)))))) := by
  refine Keeps.then ?_ (closeBypass_keeps ..) (by decide)
  refine Keeps.then ?_ (dropCamAux_keeps _) (by decide)
  refine Keeps.then ?_ (disableCams_keeps _) (by decide)
  refine Keeps.then ?_ (clearOutputs_keeps _) (by decide)
  refine Keeps.then ?_ (axesOff_keeps _) (by decide)
  exact (setModState_keeps ..).mono (by decide)

/-- Without a configuration in force the address in MAINTENANCE is the default one (R56, R568). -/
theorem enterMaintenance_defaultAddress (cause : Nat) (s : State) (h : s.conf.inForce = false) :
    (enterMaintenance cause s).mod.defaultAddress = true := by
  have hconf := (maintenanceOff_keeps cause s).conf_eq
  unfold enterMaintenance
  dsimp only
  generalize closeBypass .passThrough _ = s2 at hconf ⊢
  rw [hconf, h, if_neg Bool.false_ne_true]
  split_ifs <;> simp

/-! ### The newest events of the log (R664) -/

/-- The `k` newest events, the newest first. -/
def newestEvents (k : Nat) (s : State) : List Event := s.log.events.reverse.take k

/-- `n` is reached from `s` with at most `k` events raised: none of the newest events of `s` is pushed further down the log. -/
structure AddsAtMost (k : Nat) (s n : State) : Prop where
  newest : ∀ m, m + k ≤ 256 → newestEvents m s ⊆ newestEvents (m + k) n

theorem mem_events_of_newest {e : Event} {k : Nat} {s : State} (h : e ∈ newestEvents k s) : e ∈ s.log.events :=
  List.mem_reverse.mp (List.mem_of_mem_take h)

theorem newestEvents_mono {j k : Nat} (h : j ≤ k) (s : State) : newestEvents j s ⊆ newestEvents k s :=
  (List.take_prefix_take_left h).subset

theorem AddsAtMost.of_log_eq {s n : State} (h : n.log = s.log) : AddsAtMost 0 s n :=
  ⟨fun m _ => by simp [newestEvents, h]⟩

theorem AddsAtMost.mono {j k : Nat} {s n : State} (h : AddsAtMost j s n) (hk : j ≤ k) : AddsAtMost k s n :=
  ⟨fun m hm => List.Subset.trans (h.newest m (by omega)) (newestEvents_mono (by omega) n)⟩

theorem AddsAtMost.trans {j k : Nat} {a b c : State} (h1 : AddsAtMost j a b) (h2 : AddsAtMost k b c) :
    AddsAtMost (j + k) a c := by
  refine ⟨fun m hm => ?_⟩
  have h := h2.newest (m + j) (by omega)
  rw [Nat.add_assoc] at h
  exact List.Subset.trans (h1.newest m (by omega)) h

theorem Keeps.addsNone {w : List Group} {s n : State} (h : Keeps w s n) (hw : Group.log ∉ w := by decide) :
    AddsAtMost 0 s n := .of_log_eq (h.log_eq hw)

/-- The event that `raise` puts into the log. -/
def eventNow (code : Nat) (detail : List Byte) (s : State) : Event :=
  { seq := s.log.nextSeq, code := code, time := timeNow s, detail := padTo 16 detail }

theorem raise_events (code : Nat) (detail : List Byte) (s : State) : (raise code detail s).log.events =
    (s.log.events ++ [eventNow code detail s]).drop ((s.log.events ++ [eventNow code detail s]).length - 256) := by
  unfold raise raiseAt eventNow
  dsimp only
  rw [Keeps.log_eq (Keeps.forEach (fun i s => sendOwn_keeps i _ _ s) (Keeps.refl [.net] _))]

theorem newestEvents_raise {k : Nat} (hk : k < 256) (code : Nat) (detail : List Byte) (s : State) :
    newestEvents (k + 1) (raise code detail s) = eventNow code detail s :: newestEvents k s := by
  unfold newestEvents
  rw [raise_events, List.reverse_drop, List.take_take, List.reverse_concat, ← List.take_succ_cons, List.take_eq_take_iff]
  simp only [List.length_append, List.length_cons, List.length_reverse, List.length_nil]
  omega

theorem eventNow_mem_newest (code : Nat) (detail : List Byte) (s : State) :
    eventNow code detail s ∈ newestEvents 1 (raise code detail s) := by
  rw [newestEvents_raise (by decide)]
  exact List.mem_cons_self

theorem raise_addsAtMost (code : Nat) (detail : List Byte) (s : State) : AddsAtMost 1 s (raise code detail s) := by
  refine ⟨fun m hm => ?_⟩
  rw [newestEvents_raise (by omega)]
  exact List.subset_cons_self _ _

theorem AddsAtMost.raise {k : Nat} {a s : State} (h : AddsAtMost k a s) (code : Nat) (detail : List Byte) :
    AddsAtMost (k + 1) a (raise code detail s) := h.trans (raise_addsAtMost code detail s)

theorem forEach_raise_addsAtMost {α : Type} (l : List α) (code : α → Nat) (detail : α → List Byte) (s : State) :
    AddsAtMost l.length s (forEach l (fun x => raise (code x) (detail x)) s) := by
  induction l generalizing s with
  | nil => exact .of_log_eq rfl
  | cons x l ih =>
    rw [List.length_cons, Nat.add_comm]
    exact (raise_addsAtMost (code x) (detail x) s).trans (ih _)

theorem setModState_addsAtMost (st : ModState) (cause : Nat) (s : State) : AddsAtMost 1 s (setModState st cause s) :=
  ((set_mod_keeps ..).addsNone).raise ..

theorem setRingState_addsAtMost (st : RingState) (s : State) : AddsAtMost 1 s (setRingState st s) := by
  unfold setRingState
  split
  · exact (Keeps.refl [] s).addsNone.mono (Nat.zero_le 1)
  · exact (set_ring_keeps ..).addsNone.raise ..

theorem closeBypass_addsAtMost (st : RingState) (s : State) : AddsAtMost 1 s (closeBypass st s) :=
  (set_ring_keeps ..).addsNone.trans (setRingState_addsAtMost st _)

theorem announceStart_addsAtMost (s : State) : AddsAtMost (1 + s.power.atStart.length) s (announceStart s) := by
  unfold announceStart
  dsimp only
  rw [raise_power]
  have hstarted := ((set_power_keeps s { s.power with startMs := min 65535 (sinceStart s) }).addsNone).raise 0x0120
    (leBytes 1 s.power.lastOffCause ++ leBytes 4 (min 65535 (sinceStart s)) ++ leBytes 1 (b2n s.mem.reused))
  exact (hstarted.trans (set_power_keeps ..).addsNone).trans (forEach_raise_addsAtMost s.power.atStart ..)

/-- What MAINTENANCE switches off first raises MODULE_STATE and at most RING_STATE. -/
theorem maintenanceOff_addsAtMost (cause : Nat) (s : State) : AddsAtMost 2 s
    (closeBypass .passThrough (dropCamAux (disableCams (clearOutputs (axesOff (setModState .maintenance cause s)))))) := by
  have h1 := (setModState_addsAtMost .maintenance cause s).trans (axesOff_keeps _).addsNone
  have h2 := (h1.trans (clearOutputs_keeps _).addsNone).trans (disableCams_keeps _).addsNone
  exact (h2.trans (dropCamAux_keeps _).addsNone).trans (closeBypass_addsAtMost .passThrough _)

/-- Entry into MAINTENANCE raises at most MODULE_STATE, RING_STATE, MODULE_STARTED and the events kept for this start. -/
theorem enterMaintenance_addsAtMost (cause : Nat) (s : State) :
    AddsAtMost (3 + s.power.atStart.length) s (enterMaintenance cause s) := by
  have hoff := maintenanceOff_addsAtMost cause s
  have hpower := (maintenanceOff_keeps cause s).power_eq
  unfold enterMaintenance
  dsimp only
  generalize closeBypass .passThrough _ = s2 at hoff hpower ⊢
  generalize hs3 : ite (s2.conf.inForce = true) s2 _ = s3
  obtain ⟨hlog, hstart⟩ : s3.log = s2.log ∧ s3.power.atStart = s.power.atStart := by
    subst hs3
    split_ifs <;> simp [hpower, (idleOnlyLinks_keeps _).log_eq, (idleOnlyLinks_keeps _).power_eq,
      (freshPorts_keeps _).log_eq, (freshPorts_keeps _).power_eq]
  have h3 : AddsAtMost 2 s s3 := hoff.trans (.of_log_eq hlog)
  split
  · exact h3.mono (by omega)
  · rw [← hstart, show 3 = 2 + 1 from rfl, Nat.add_assoc]
    exact h3.trans (announceStart_addsAtMost s3)

/-! ### Training (R20, R215, R216, R243 to R246) -/

/-- A channel trained while the memory is not yet initialised: the module stays in TRAIN. -/
theorem channelTrained_uninitialised (ch : Nat) (s : State) (h : s.mem.initialised = false) :
    channelTrained ch s = { s with
      freeN := s.freeN + 1
      mem := { s.mem with
        values := s.mem.values.set ch (trainedValue s ch), trained := s.mem.trained.set ch true
        reused := (s.mem.trained.set ch true).all id && s.mem.mode = some 0 } } := by
  simp [channelTrained, leaveTrain, drawFree, h]

theorem channelTrained_only_uninitialised (ch : Nat) (s : State) (h : s.mem.initialised = false) :
    Only [.free, .mem] s (channelTrained ch s) := by
  rw [channelTrained_uninitialised ch s h]
  have hfree := (set_freeN_keeps s (s.freeN + 1)).only
  exact (hfree.mono (w := [.free, .mem]) (by decide)).trans ((set_mem_keeps ..).only.mono (by decide))

theorem leaveTrain_of_unfinished (s : State) (h : s.render.selftestPassed = false) : leaveTrain s = s := by
  simp [leaveTrain, h]

theorem leaveTrain_of_finished (s : State) (h : s.mod.state = .train) (ht : memTrained s = true)
    (hi : s.mem.initialised = true) (hp : s.render.selftestPassed = true) : leaveTrain s = enterIdle 6 s := by
  simp [leaveTrain, h, ht, hi, hp]

/-- What TRAINING_DONE reads of a channel before it is decided how the module trains. -/
def channelRead (ch : Nat) (ids : List Nat) (dts : List Int) (s : State) : State :=
  { s with mem := { s.mem with
    devIds := s.mem.devIds.set ch ids
    dtsRead := (s.mem.dtsRead.set (2 * ch) (dts.getD 0 0)).set (2 * ch + 1) (dts.getD 1 0) } }

/-- The channel is read, and the module reuses its training record. -/
def channelReused (ch : Nat) (ids : List Nat) (dts : List Int) (s : State) : State :=
  { channelRead ch ids dts s with mem := { (channelRead ch ids dts s).mem with mode := some 0 } }

theorem channelRead_keeps (ch ids dts s) : Keeps [.mem] s (channelRead ch ids dts s) := set_mem_keeps ..

theorem channelReused_keeps (ch ids dts s) : Keeps [.mem] s (channelReused ch ids dts s) := set_mem_keeps ..

theorem decideTraining_of_decided (ch : Nat) (ids : List Nat) (dts : List Int) (s : State) (h : s.mem.mode.getD 0 ≠ 0) :
    decideTraining ch ids dts s = channelRead ch ids dts s := if_pos h

theorem decideTraining_of_reuse (ch : Nat) (ids : List Nat) (dts : List Int) (s : State) (h : s.mem.mode.getD 0 = 0)
    (hr : reuseFailure s ch ids dts = none) : decideTraining ch ids dts s = channelReused ch ids dts s := by
  have hr' : reuseFailure (channelRead ch ids dts s) ch ids dts = none := hr
  unfold channelRead at hr'
  simp only [decideTraining, h, ne_eq, not_true_eq_false, if_false, hr']
  rfl

section TrainingDone
variable (t ch : Nat) (ids : List Nat) (dts : List Int) (s : State) (h : s.mod.state = .train) (hch : ch < 4)
  (hu : s.mem.trained.getD ch true = false) (hd : domainOn s 7 = true)
include h hch hu hd

theorem exec_trainingDone_of_untrained (res : TrainResult) : exec (.trainingDone t ch ids dts res) s =
    .next (trainOutcome ch res (decideTraining ch ids dts (beginAt t s))) := by
  have hgo : ¬ ((beginAt t s).mod.state ≠ .train || 4 ≤ ch || (beginAt t s).mem.trained.getD ch true) = true := by
    simp only [beginAt_mod, h, beginAt_mem, hu]
    simp [hch]
  have hon : ¬ (!domainOn (beginAt t s) 7) = true := by simp [show domainOn (beginAt t s) 7 = true from hd]
  exact congrArg _ ((if_neg hgo).trans (if_neg hon))

/-- The decision leads to state `d`, from which the outcome trains the channel. -/
theorem exec_trainingDone_channelTrained {res : TrainResult} {d : State} (hdec : decideTraining ch ids dts (beginAt t s) = d)
    (hout : trainOutcome ch res d = channelTrained ch d) (hk : Keeps [.mem] (beginAt t s) d)
    (hi : d.mem.initialised = false) :
    exec (.trainingDone t ch ids dts res) s = .next (channelTrained ch d) ∧
      Only [.clock, .mem, .free] s (channelTrained ch d) := by
  refine ⟨by rw [exec_trainingDone_of_untrained t ch ids dts s h hch hu hd, hdec, hout], ?_⟩
  exact ((beginAt_keeps t s).only.mono (by decide)).trans
    ((hk.only.mono (by decide)).trans ((channelTrained_only_uninitialised ch d hi).mono (by decide)))

/-- TRAINING_DONE of a channel that the module trains fully (R243, R245). -/
theorem trainingDone_trained (hm : s.mem.mode = some 1) (hi : s.mem.initialised = false) :
    Completes (.trainingDone t ch ids dts .trained) s fun n =>
      n.mod.state = .train ∧ n.mem.trained = s.mem.trained.set ch true ∧ n.mem.devIds = s.mem.devIds.set ch ids ∧
      Only [.clock, .mem, .free] s n := by
  let d := channelRead ch ids dts (beginAt t s)
  have hdec : decideTraining ch ids dts (beginAt t s) = d := decideTraining_of_decided ch ids dts _ (by simp [hm])
  have hout : trainOutcome ch .trained d = channelTrained ch d := by simp [trainOutcome, d, channelRead, hm]
  obtain ⟨hexec, honly⟩ := exec_trainingDone_channelTrained t ch ids dts s h hch hu hd hdec hout (channelRead_keeps ..) hi
  have hn := channelTrained_uninitialised ch d hi
  exact ⟨_, hexec, (congrArg (·.mod.state) hn).trans h, congrArg (·.mem.trained) hn, congrArg (·.mem.devIds) hn, honly⟩

/-- TRAINING_DONE of a channel that reuses its training: its values are those of the record (R243, R246). -/
theorem trainingDone_verified {r : TrainRecord} (hm : s.mem.mode.getD 0 = 0) (hreuse : reuseFailure s ch ids dts = none)
    (hr : trainRecord s = some r) (hi : s.mem.initialised = false) :
    Completes (.trainingDone t ch ids dts .verified) s fun n =>
      n.mod.state = .train ∧ n.mem.mode = some 0 ∧ n.mem.trained = s.mem.trained.set ch true ∧
      n.mem.values = s.mem.values.set ch (r.values.getD ch 0) ∧ Only [.clock, .mem, .free] s n := by
  let d := channelReused ch ids dts (beginAt t s)
  have hdec : decideTraining ch ids dts (beginAt t s) = d := decideTraining_of_reuse ch ids dts _ hm hreuse
  have hmode : d.mem.mode = some 0 := rfl
  have hout : trainOutcome ch .verified d = channelTrained ch d := by simp [trainOutcome, hmode]
  have hrecord : trainRecord d = some r := hr
  have hvalue : trainedValue d ch = r.values.getD ch 0 := by simp [trainedValue, hmode, hrecord]
  obtain ⟨hexec, honly⟩ := exec_trainingDone_channelTrained t ch ids dts s h hch hu hd hdec hout (channelReused_keeps ..) hi
  have hn := channelTrained_uninitialised ch d hi
  rw [hvalue] at hn
  exact ⟨_, hexec, (congrArg (·.mod.state) hn).trans h, congrArg (·.mem.mode) hn, congrArg (·.mem.trained) hn,
    congrArg (·.mem.values) hn, honly⟩

end TrainingDone

/-- MEMORY_INITIALISED before codec self-verification has passed (R557). -/
theorem memoryInitialised_first (t : Nat) (s : State) (h : s.mod.state = .train) (ht : memTrained s = true)
    (hi : s.mem.initialised = false) (hp : s.render.selftestPassed = false) :
    Completes (.memoryInitialised t) s fun n => n.mem.initialised = true ∧ n.mod = s.mod ∧ Only [.clock, .mem] s n := by
  let s1 := beginAt t s
  let n : State := { s1 with mem := { s1.mem with initialised := true, scrubSince := s1.now } }
  have hgo : (s1.mod.state = .train && memTrained s1 && !s1.mem.initialised) = true := by
    simp [s1, h, hi, show memTrained (beginAt t s) = true from ht]
  have hexec : exec (.memoryInitialised t) s = .next n :=
    congrArg _ ((if_pos hgo).trans (leaveTrain_of_unfinished n hp))
  exact ⟨n, hexec, rfl, rfl, ((beginAt_keeps t s).only.mono (by decide)).trans ((set_mem_keeps s1 _).only.mono (by decide))⟩

/-- CODEC_SELFTEST in TRAIN, not yet passed: the vectors that fail decide (R215, R216). -/
theorem exec_codecSelftest (t : Nat) (results : List VectorResult) (s : State) (h : s.mod.state = .train)
    (hp : s.render.selftestPassed = false) : exec (.codecSelftest t results) s = .next (
      if (results.filter fun r => !vectorMatches r).isEmpty && domainOn s 5 && domainOn s 6 then
        leaveTrain { beginAt t s with render := { s.render with selftestPassed := true } }
      else enterMaintenance 8 (forEach (results.filter fun r => !vectorMatches r)
        (fun f => raise 0x0810 (leBytes 1 f.kind ++ leBytes 2 f.engine ++ leBytes 1 f.vector)) (beginAt t s))) := by
  have hgo : ¬ ((beginAt t s).mod.state ≠ .train || (beginAt t s).render.selftestPassed) = true := by simp [h, hp]
  exact congrArg _ (if_neg hgo)

/-- Every vector matches, as the last of the three: IDLE (R20, R216). -/
theorem codecSelftest_passed (t : Nat) (results : List VectorResult) (s : State) (h : s.mod.state = .train)
    (ht : memTrained s = true) (hi : s.mem.initialised = true) (hp : s.render.selftestPassed = false)
    (h5 : domainOn s 5 = true) (h6 : domainOn s 6 = true) (hall : ∀ x ∈ results, vectorMatches x = true) :
    Completes (.codecSelftest t results) s fun n => n.mod.state = .idle ∧ n.render.selftestPassed = true := by
  have hpass : ((results.filter fun r => !vectorMatches r).isEmpty && domainOn s 5 && domainOn s 6) = true := by
    rw [h5, h6]
    simpa using hall
  let s2 : State := { beginAt t s with render := { s.render with selftestPassed := true } }
  have hidle : leaveTrain s2 = enterIdle 6 s2 := leaveTrain_of_finished s2 h ht hi rfl
  exact ⟨_, (exec_codecSelftest t results s h hp).trans (congrArg _ ((if_pos hpass).trans hidle)), enterIdle_state ..,
    congrArg Render.selftestPassed (enterIdle_keeps 6 s2).render_eq⟩

/-- A vector fails: its event is raised, and the module goes to MAINTENANCE (R216). -/
theorem codecSelftest_failed (t : Nat) (x : VectorResult) (s : State) (h : s.mod.state = .train)
    (hp : s.render.selftestPassed = false) (hx : vectorMatches x = false) (hstart : s.power.atStart.length ≤ 200) :
    Completes (.codecSelftest t [x]) s fun n => n.mod.state = .maintenance ∧
      RaisedNext s 0x0810 (leBytes 1 x.kind ++ leBytes 2 x.engine ++ leBytes 1 x.vector) n := by
  have hfail : ([x].filter fun r => !vectorMatches r) = [x] := by simp [hx]
  have hexec := exec_codecSelftest t [x] s h hp
  rw [hfail, if_neg (by simp)] at hexec
  let detail := leBytes 1 x.kind ++ leBytes 2 x.engine ++ leBytes 1 x.vector
  let s2 := raise 0x0810 detail (beginAt t s)
  have hnew : eventNow 0x0810 detail (beginAt t s) ∈ newestEvents 1 s2 := eventNow_mem_newest ..
  have hstart2 : s2.power.atStart.length ≤ 200 := by rwa [raise_power]
  have hin := (enterMaintenance_addsAtMost 8 s2).newest 1 (by omega) hnew
  exact ⟨_, hexec, enterMaintenance_state .., _, mem_events_of_newest hin, rfl, rfl, rfl⟩

/-- Settles O10: each clause is the lemma on its command. -/
theorem trainingEnds : Obligations.TrainingEnds :=
  ⟨trainingDone_trained, fun t ch ids dts _ s h hch hu hd hm hreuse hr hi =>
     trainingDone_verified t ch ids dts s h hch hu hd hm hreuse hr hi,
   memoryInitialised_first, codecSelftest_passed, codecSelftest_failed⟩

/-! ### What the configuration's reading depends on -/

section Reading
variable {s n : State}

theorem clampMore_congr (h : n.power = s.power) (r id i v) : clampMore n r id i v = clampMore s r id i v := by
  unfold clampMore
  rw [h]

theorem clampedField_congr (h : n.power = s.power) (f r) : clampedField n f r = clampedField s f r := by
  simp only [clampedField, clampMore_congr h]

theorem domainMask_congr (h : n.power = s.power) (r) : domainMask n r = domainMask s r := by
  unfold domainMask
  rw [h]

theorem fieldEffects_congr (h : n.power = s.power) (id r) : fieldEffects n id r = fieldEffects s id r := by
  unfold fieldEffects domainEffects
  rw [domainMask_congr h]

theorem nodeNumber_congr (h : n.power = s.power) : nodeNumber n = nodeNumber s := by
  unfold nodeNumber
  rw [h]

theorem noteNode_congr (h : n.power = s.power) (r) : noteNode n r = noteNode s r := by
  unfold noteNode
  rw [nodeNumber_congr h]

theorem clampNumeric_congr (h : n.power = s.power) (f r) : clampNumeric n f r = clampNumeric s f r := by
  unfold clampNumeric
  simp only [clampedField_congr h, noteNode_congr h, fieldEffects_congr h]

theorem clampSection_congr (h : n.power = s.power) (l r) : clampSection n l r = clampSection s l r := by
  simp only [clampSection, clampNumeric_congr h]

theorem clampAll_congr (h : n.power = s.power) (r) : clampAll n r = clampAll s r := by
  simp only [clampAll, clampSection_congr h]

theorem finishReading_congr (h : n.power = s.power) (compat r) : finishReading n compat r = finishReading s compat r := by
  unfold finishReading groupTime strapEffects
  rw [clampAll_congr h, h]

/-- Phases 2 to 4 read of the state the straps and the domains held, and nothing else (R528, R553, R566). -/
theorem readConfig_congr (h : n.power = s.power) (migrated img) : readConfig n migrated img = readConfig s migrated img := by
  unfold readConfig
  simp only [finishReading_congr h]

theorem switchedOn_congr (h : n.power = s.power) (c) : switchedOn n c = switchedOn s c := by
  unfold switchedOn
  rw [h]

theorem structureOk_congr (h : n.update = s.update) (img) : structureOk n img = structureOk s img := by
  unfold structureOk
  rw [h]

theorem areaOf18_congr (h : n.flash = s.flash) (k) : areaOf18 n k = areaOf18 s k := by
  unfold areaOf18
  rw [h]

theorem areaFault_congr (hf : n.flash = s.flash) (hu : n.update = s.update) (k) : areaFault n k = areaFault s k := by
  unfold areaFault
  simp only [areaOf18_congr hf, structureOk_congr hu]

theorem installedCopy_congr (hf : n.flash = s.flash) (hu : n.update = s.update) : installedCopy n = installedCopy s := by
  unfold installedCopy
  rw [areaFault_congr hf hu, areaFault_congr hf hu, areaOf18_congr hf, areaOf18_congr hf]

theorem migratedCopy_congr (hf : n.flash = s.flash) (hu : n.update = s.update) (img) :
    migratedCopy n img = migratedCopy s img := by
  unfold migratedCopy
  simp only [areaFault_congr hf hu, areaOf18_congr hf]

theorem migrateImage_congr (h : n.update = s.update) (img) : migrateImage n img = migrateImage s img := by
  unfold migrateImage
  rw [h]

theorem badHelper_congr (hf : n.flash.slots = s.flash.slots) (hu : n.update = s.update) (on) :
    badHelper n on = badHelper s on := by
  unfold badHelper slotBytes slotRec
  rw [hf, hu]

end Reading

/-! ### Two copies in flash: what the next write leaves in force (R584, R589 to R591) -/

theorem seqAfter_iff (a b : Nat) :
    seqAfter a b = true ↔ 0 < (a % 2 ^ 32 + 2 ^ 32 - b % 2 ^ 32) % 2 ^ 32 ∧
      (a % 2 ^ 32 + 2 ^ 32 - b % 2 ^ 32) % 2 ^ 32 < 2 ^ 31 := by
  unfold seqAfter
  rw [Bool.and_eq_true, decide_eq_true_iff, decide_eq_true_iff]

/-- The next sequence number comes after the one before it, and not the other way round. -/
theorem seqAfter_wrapInc (q : Nat) : seqAfter (wrapInc 32 q) q = true := by
  rw [seqAfter_iff, wrapInc]
  omega

theorem not_seqAfter_wrapInc (q : Nat) : ¬ seqAfter q (wrapInc 32 q) = true := by
  rw [seqAfter_iff, wrapInc]
  omega

theorem not_seqAfter_self (q : Nat) : ¬ seqAfter q q = true := by
  rw [seqAfter_iff]
  omega

theorem laterCopy_both_of_after {α : Type} {seq : α → Nat} {a b : α} (h : seqAfter (seq b) (seq a) = true) :
    laterCopy seq [some a, some b] = some 1 := congrArg some (if_pos h)

theorem laterCopy_both_of_not_after {α : Type} {seq : α → Nat} {a b : α} (h : ¬ seqAfter (seq b) (seq a) = true) :
    laterCopy seq [some a, some b] = some 0 := congrArg some (if_neg h)

@[simp] theorem laterCopy_first {α : Type} (seq : α → Nat) (a : α) : laterCopy seq [some a, none] = some 0 := rfl

@[simp] theorem laterCopy_second {α : Type} (seq : α → Nat) (b : α) : laterCopy seq [none, some b] = some 1 := rfl

/-- A copy written at the next place, whose number comes after that of the copy in force, is in force itself. -/
theorem copyInForce_set_of_after {α : Type} (seq : α → Nat) (a b : Option α) (x : α)
    (h : ∀ c, copyInForce seq [a, b] = some c → seqAfter (seq x) (seq c) = true ∧ ¬ seqAfter (seq c) (seq x) = true) :
    copyInForce seq ([a, b].set (nextPlace seq [a, b]) (some x)) = some x := by
  cases a with
  | none => cases b with
    | none => rfl
    | some b =>
      obtain ⟨-, hb⟩ := h b (by simp [copyInForce])
      simp [copyInForce, nextPlace, laterCopy_both_of_not_after hb]
  | some a => cases b with
    | none =>
      obtain ⟨ha, -⟩ := h a (by simp [copyInForce])
      simp [copyInForce, nextPlace, laterCopy_both_of_after ha]
    | some b =>
      by_cases hab : seqAfter (seq b) (seq a) = true
      · obtain ⟨-, hb⟩ := h b (by simp [copyInForce, laterCopy_both_of_after hab])
        simp [copyInForce, nextPlace, laterCopy_both_of_after hab, laterCopy_both_of_not_after hb]
      · obtain ⟨ha, -⟩ := h a (by simp [copyInForce, laterCopy_both_of_not_after hab])
        simp [copyInForce, nextPlace, laterCopy_both_of_not_after hab, laterCopy_both_of_after ha]

/-- A copy written at the next place with the next sequence number is the one in force. -/
theorem copyInForce_set_next {α : Type} (seq : α → Nat) (a b : Option α) (x : α) (hx : seq x = nextSeq seq [a, b]) :
    copyInForce seq ([a, b].set (nextPlace seq [a, b]) (some x)) = some x := by
  refine copyInForce_set_of_after seq a b x fun c hc => ?_
  rw [hx, nextSeq, hc]
  exact ⟨seqAfter_wrapInc (seq c), not_seqAfter_wrapInc (seq c)⟩

/-- The record that `writeSlot` puts into flash. -/
def slotCopyNext (k state : Nat) (digest : List Byte) (s : State) : SlotCopy :=
  let q := nextSeq (fun x => x.seq) ((slotRec s k).copies.map validSlot)
  { seq := q, state := state, digest := digest, crc := slotCrc q state digest }

theorem slotRec_modSlotRec (s : State) (k : Nat) (f : BundleSlot → BundleSlot) (hk : k < s.flash.slots.length) :
    slotRec (modSlotRec k f s) k = f (slotRec s k) := by
  simp [slotRec, modSlotRec, List.getD_eq_getElem?_getD, hk]

theorem slotInForce_writeSlot (s : State) (k state : Nat) (digest : List Byte) (hs : TwoSlots s) (hk : k < 2) :
    slotInForce (writeSlot k state digest s) k = slotCopyNext k state digest s := by
  obtain ⟨hslots, hcopies⟩ := hs
  have hk' : k < s.flash.slots.length := by omega
  have hmem : slotRec s k ∈ s.flash.slots := by simp [slotRec, List.getD_eq_getElem?_getD, hk']
  obtain ⟨a, b, hab⟩ := List.length_eq_two.mp (hcopies _ hmem)
  have hvalid : validSlot (some (slotCopyNext k state digest s)) = some (slotCopyNext k state digest s) := by
    simp [validSlot, slotCopyNext]
  have hcopies : ((slotRec (writeSlot k state digest s) k).copies.map validSlot) =
      [validSlot a, validSlot b].set (nextPlace (fun x => x.seq) [validSlot a, validSlot b])
        (some (slotCopyNext k state digest s)) := by
    unfold writeSlot
    rw [slotRec_modSlotRec s k _ hk', ← hvalid]
    simp [hab, slotCopyNext]
  rw [slotInForce, hcopies, copyInForce_set_next _ _ _ _ (by simp [slotCopyNext, hab])]
  rfl

theorem slotState_congr {s n : State} (h : n.flash.slots = s.flash.slots) (k : Nat) : slotState n k = slotState s k := by
  simp only [slotState, slotInForce, slotRec, h]

theorem bootRec_congr {s n : State} (h : n.flash.boot = s.flash.boot) : bootRec n = bootRec s := by
  simp only [bootRec, h]

/-- The boot-select record that `writeBoot` puts into both places. -/
def bootRecNext (selected previous trial : Nat) (confirmed : Bool) (s : State) : BootRec :=
  let r : BootRec := { seq := wrapInc 32 (bootRec s).seq, selected := selected, previous := previous, trial := trial
                       confirmed := confirmed, crc := 0 }
  { r with crc := bootCrc r }

theorem bootRec_writeBoot (selected previous trial : Nat) (confirmed : Bool) (s : State) :
    bootRec (writeBoot selected previous trial confirmed s) = bootRecNext selected previous trial confirmed s := by
  have hvalid : validBoot (some (bootRecNext selected previous trial confirmed s)) =
      some (bootRecNext selected previous trial confirmed s) := by
    simp [validBoot, bootRecNext, bootCrc]
  have hboot : (writeBoot selected previous trial confirmed s).flash.boot =
      [some (bootRecNext selected previous trial confirmed s), some (bootRecNext selected previous trial confirmed s)] := rfl
  simp [bootRec, hboot, hvalid, copyInForce, laterCopy_both_of_not_after (not_seqAfter_self _)]

/-! ### CONFIG: the copies that fail are reported (R520) -/

/-- An area that fails its checks is reported with its cause. -/
def reportArea (k : Nat) (s : State) : State :=
  match areaFault s k with
  | some f => raise 0x0F21 (leBytes 1 k ++ leBytes 1 f) s
  | none => s

/-- Both areas of the configuration, one after the other. -/
def reportAreas (s : State) : State := forEach [0, 1] reportArea s

theorem reportArea_keeps (k : Nat) (s : State) : Keeps [.log, .net] s (reportArea k s) := by
  unfold reportArea
  split
  · exact raise_keeps ..
  · exact Keeps.refl ..

theorem reportArea_addsAtMost (k : Nat) (s : State) : AddsAtMost 1 s (reportArea k s) := by
  unfold reportArea
  split
  · exact raise_addsAtMost ..
  · exact (Keeps.refl [] s).addsNone.mono (Nat.zero_le 1)

/-- The report of a failing area is the newest event. -/
theorem reportArea_newest {k f : Nat} {s : State} (h : areaFault s k = some f) :
    ∃ e ∈ newestEvents 1 (reportArea k s), e.code = 0x0F21 ∧ e.detail = padTo 16 (leBytes 1 k ++ leBytes 1 f) := by
  rw [reportArea, h]
  exact ⟨_, eventNow_mem_newest .., rfl, rfl⟩

theorem reportAreas_keeps (s : State) : Keeps [.log, .net] s (reportAreas s) :=
  Keeps.forEach reportArea_keeps (Keeps.refl _ s)

theorem reportAreas_newest {k f : Nat} {s : State} (hk : k < 2) (h : areaFault s k = some f) :
    ∃ e ∈ newestEvents 2 (reportAreas s), e.code = 0x0F21 ∧ e.detail = padTo 16 (leBytes 1 k ++ leBytes 1 f) := by
  have h0 := reportArea_keeps 0 s
  match k, hk with
  | 0, _ =>
    obtain ⟨e, he, hcode, hdetail⟩ := reportArea_newest h
    exact ⟨e, (reportArea_addsAtMost 1 (reportArea 0 s)).newest 1 (by decide) he, hcode, hdetail⟩
  | 1, _ =>
    rw [← areaFault_congr h0.flash_eq h0.update_eq] at h
    obtain ⟨e, he, hcode, hdetail⟩ := reportArea_newest h
    exact ⟨e, newestEvents_mono (by decide) _ he, hcode, hdetail⟩

/-- CONFIG_READ up to its decision: the clock, and the reports of the areas. -/
theorem reportAreas_beginAt_keeps (t : Nat) (s : State) : Keeps [.clock, .log, .net] s (reportAreas (beginAt t s)) :=
  ((beginAt_keeps t s).mono (by decide)).then (reportAreas_keeps _) (by decide)

/-! ### CONFIG: what it leads to (R20, R528) -/

/-- The migrated copy written to both of its areas, with its event (R543, R544). -/
def migrationWritten (src : Area) (img : List Byte) (s : State) : State :=
  let s1 := setArea 3 (some (sealed img src.seq)) (setArea 2 (some (sealed img src.seq)) s)
  raise 0x0F22 (leBytes 1 0 ++ leBytes 1 (imgFormat src.image) ++
    leBytes 4 ((readConfig s1 true img).report.filter fun e => e.action = 6).length) s1

/-- What CONFIG_READ decides once the failing copies are reported. -/
def configDecision (s : State) : State :=
  match installedCopy s with
  | none => enterMaintenance 5 s
  | some (k, a) =>
    if !olderFormat a.image then takeConfig k false a a.image s
    else match migratedCopy s a.image with
      | some (m, img) => takeConfig m true a img s
      | none => match migrateImage s a.image with
        | .error f => migrationFailed (imgFormat a.image) f s
        | .ok img => takeConfig 2 true a img (migrationWritten a img s)

theorem exec_configRead (t : Nat) (s : State) (h : s.mod.state = .config) (hw : s.mod.watchdogStopped = false) :
    exec (.configRead t) s = .next (configDecision (reportAreas (beginAt t s))) := by
  have hgo : ¬ ((beginAt t s).mod.state ≠ .config || (beginAt t s).mod.watchdogStopped) = true := by simp [h, hw]
  exact congrArg _ (if_neg hgo)

section Decision
variable {s n : State} (hkeeps : Keeps [.clock, .log, .net] s n)
include hkeeps

theorem configDecision_of_none (hc : installedCopy s = none) : configDecision n = enterMaintenance 5 n := by
  rw [configDecision, installedCopy_congr hkeeps.flash_eq hkeeps.update_eq, hc]

variable {c : Nat × Area} (hc : installedCopy s = some c)
include hc

theorem configDecision_of_current (ho : olderFormat c.2.image = false) :
    configDecision n = takeConfig c.1 false c.2 c.2.image n := by
  rw [configDecision, installedCopy_congr hkeeps.flash_eq hkeeps.update_eq, hc]
  exact if_pos (by rw [ho]; rfl)

variable (ho : olderFormat c.2.image = true)
include ho

theorem configDecision_of_migrated {m : Nat × List Byte} (hm : migratedCopy s c.2.image = some m) :
    configDecision n = takeConfig m.1 true c.2 m.2 n := by
  rw [← migratedCopy_congr hkeeps.flash_eq hkeeps.update_eq] at hm
  rw [configDecision, installedCopy_congr hkeeps.flash_eq hkeeps.update_eq, hc]
  simp [ho, hm]

variable (hm : migratedCopy s c.2.image = none)
include hm

theorem configDecision_of_migrates {img : List Byte} (hi : migrateImage s c.2.image = .ok img) :
    configDecision n = takeConfig 2 true c.2 img (migrationWritten c.2 img n) := by
  rw [← migratedCopy_congr hkeeps.flash_eq hkeeps.update_eq] at hm
  rw [← migrateImage_congr hkeeps.update_eq] at hi
  rw [configDecision, installedCopy_congr hkeeps.flash_eq hkeeps.update_eq, hc]
  simp [ho, hm, hi]

theorem configDecision_of_failed {f : Nat} (hi : migrateImage s c.2.image = .error f) :
    configDecision n = migrationFailed (imgFormat c.2.image) f n := by
  rw [← migratedCopy_congr hkeeps.flash_eq hkeeps.update_eq] at hm
  rw [← migrateImage_congr hkeeps.update_eq] at hi
  rw [configDecision, installedCopy_congr hkeeps.flash_eq hkeeps.update_eq, hc]
  simp [ho, hm, hi]

end Decision

/-! ### A configuration taken (R522, R553, R594) -/

/-- The record of the configuration in force, once a reading of a copy is put in force. -/
def confInForce (area : Nat) (migrated : Bool) (src : Area) (r : Reading) (s : State) : Conf :=
  { s.conf with
    cfg := r.cfg, inForce := true, area := area, migrated := migrated, pending := false, format := imgFormat src.image
    sequence := src.seq, digest := sha384 src.image, report := r.report.take 1024, entries := min 65535 r.report.length
    atIdle := loadEvents s area (imgFormat src.image) src.seq r, copyDue := copiesDiffer s }

theorem putInForce_conf (area : Nat) (migrated : Bool) (src : Area) (r : Reading) (s : State) :
    (putInForce area migrated src r s).conf = confInForce area migrated src r s := by
  unfold putInForce
  extract_lets cfg fmt cf md pw ps pa s1
  have hs1 : s1.conf = confInForce area migrated src r s := (loadStore_keeps _).conf_eq.trans (trainPartner_keeps ..).conf_eq
  split
  · exact (freeTime_keeps s1).conf_eq.trans hs1
  · exact hs1

theorem enterTrain_conf (s : State) : (enterTrain s).conf = s.conf := (enterTrain_keeps s).conf_eq

theorem enterTrain_putInForce_flash (area : Nat) (migrated : Bool) (src : Area) (r : Reading) (s : State) :
    (enterTrain (putInForce area migrated src r s)).flash = s.flash :=
  (enterTrain_keeps _).flash_eq.trans (putInForce_keeps ..).flash_eq

/-- The first helper that does not match its manifest, among those whose domain a reading of the image switches on (R594). -/
def helperFault (s : State) (migrated : Bool) (img : List Byte) : Option Nat :=
  badHelper s fun d => (switchedOn s (readConfig s migrated img).cfg).contains d

/-- Taking a configuration turns on the check of the helpers alone (R522, R594). -/
theorem takeConfig_eq (area : Nat) (migrated : Bool) (src : Area) (img : List Byte) (s : State) :
    takeConfig area migrated src img s = (helperFault s migrated img).elim
      (enterTrain (putInForce area migrated src (readConfig s migrated img) s)) (fun k => helperMismatch k s) := by
  unfold takeConfig helperFault
  dsimp only
  generalize badHelper s _ = bad, enterTrain _ = trained, helperMismatch = reject
  cases bad <;> rfl

section Taken
variable {s n : State} {area : Nat} {migrated : Bool} {src : Area} {img : List Byte}
  (hslots : n.flash.slots = s.flash.slots) (hupdate : n.update = s.update) (hpower : n.power = s.power)
include hslots hupdate hpower

/-- The check of the helpers reads the slots, the running slot and the straps (R553, R594). -/
theorem helperFault_congr : helperFault n migrated img = helperFault s migrated img := by
  rw [helperFault, helperFault, readConfig_congr hpower, switchedOn_congr hpower, badHelper_congr hslots hupdate]

/-- Where the helpers match, the reading comes in force and the module trains (R20, R522). -/
theorem takeConfig_of_match (hb : helperFault s migrated img = none) :
    takeConfig area migrated src img n = enterTrain (putInForce area migrated src (readConfig s migrated img) n) := by
  rw [takeConfig_eq, helperFault_congr hslots hupdate hpower, hb, Option.elim_none, readConfig_congr hpower]

/-- Where a helper does not match, the slot is rejected (R594). -/
theorem takeConfig_of_mismatch {k : Nat} (hb : helperFault s migrated img = some k) :
    takeConfig area migrated src img n = helperMismatch k n := by
  rw [takeConfig_eq, helperFault_congr hslots hupdate hpower, hb, Option.elim_some]

end Taken

/-! ### A slot rejected (R545, R594) -/

/-- The running slot is REJECTED, the other one selected and confirmed. -/
def rejectRunning (s : State) : State :=
  writeBoot (otherSlot s.update.runningSlot) s.update.runningSlot 0 true (markSlot s.update.runningSlot 5 s)

theorem slotState_markSlot (s : State) (k state : Nat) (hs : TwoSlots s) (hk : k < 2) :
    slotState (markSlot k state s) k = state := by
  rw [slotState, markSlot, slotInForce_writeSlot s k state _ hs hk]
  rfl

theorem rejectRunning_slotState (s : State) (hs : TwoSlots s) (hk : s.update.runningSlot < 2) :
    slotState (rejectRunning s) s.update.runningSlot = 5 :=
  (slotState_congr (s := markSlot s.update.runningSlot 5 s) rfl _).trans (slotState_markSlot s _ 5 hs hk)

theorem rejectRunning_bootRec (s : State) :
    (bootRec (rejectRunning s)).selected = otherSlot s.update.runningSlot ∧ (bootRec (rejectRunning s)).confirmed = true := by
  rw [rejectRunning, bootRec_writeBoot]
  exact ⟨rfl, rfl⟩

/-- A state whose flash is that after the rejection says of the slots and the boot-select record what that one says. -/
theorem slotRejected_of_flash {s n : State} (h : n.flash = (rejectRunning s).flash) (hs : TwoSlots s)
    (hk : s.update.runningSlot < 2) :
    slotState n s.update.runningSlot = 5 ∧ (bootRec n).selected = otherSlot s.update.runningSlot ∧
      (bootRec n).confirmed = true := by
  rw [slotState_congr (congrArg Flash.slots h), bootRec_congr (congrArg Flash.boot h)]
  exact ⟨rejectRunning_slotState s hs hk, rejectRunning_bootRec s⟩

theorem rejectRunning_flash_congr {s n : State} (hf : n.flash = s.flash) (hu : n.update = s.update) :
    (rejectRunning n).flash = (rejectRunning s).flash := by
  simp only [rejectRunning, writeBoot, bootRec, markSlot, writeSlot, modSlotRec, slotDigest, slotInForce, slotRec, hf, hu]

theorem helperMismatch_flash (kind : Nat) (s : State) : (helperMismatch kind s).flash = (rejectRunning s).flash := rfl

theorem migrationFailed_state (format field : Nat) (s : State) : (migrationFailed format field s).mod.state = .boot :=
  enterBoot_state ..

theorem migrationFailed_flash (format field : Nat) (s : State) :
    (migrationFailed format field s).flash = (rejectRunning s).flash := by
  unfold migrationFailed
  extract_lets k s1 s2
  have hs2 : s2.flash = (rejectRunning s).flash := by
    have hupdate : s1.update = s.update := raise_update ..
    rw [← rejectRunning_flash_congr (n := s1) (raise_flash ..) hupdate, rejectRunning, hupdate]
  rw [(enterBoot_keeps ..).flash_eq]
  split
  · exact (atNextStart_keeps ..).flash_eq.trans hs2
  · exact hs2

/-! ### Migration (R543 to R545) -/

/-- The flash with the migrated copy in both of its areas, sealed with the sequence number of the installed image. -/
def migratedFlash (src : Area) (img : List Byte) (s : State) : Flash :=
  { s.flash with areas := (s.flash.areas.set 2 (some (sealed img src.seq))).set 3 (some (sealed img src.seq)) }

theorem migrationWritten_flash (src : Area) (img : List Byte) (s : State) :
    (migrationWritten src img s).flash = migratedFlash src img s := raise_flash ..

section Migration
variable {s n : State} (hkeeps : Keeps [.clock, .log, .net] s n) {c : Nat × Area} (hc : installedCopy s = some c)
  (ho : olderFormat c.2.image = true) (hm : migratedCopy s c.2.image = none)
include hkeeps hc ho hm

/-- An older copy that migrates: the migrated copy is written to both areas and comes in force (R543, R544). -/
theorem configDecision_migrates {img : List Byte} (hi : migrateImage s c.2.image = .ok img)
    (hb : helperFault s true img = none) :
    (configDecision n).mod.state = .train ∧ (configDecision n).conf.inForce = true ∧
    (configDecision n).conf.cfg = (readConfig s true img).cfg ∧ (configDecision n).conf.area = 2 ∧
    (configDecision n).conf.migrated = true ∧ (configDecision n).flash = migratedFlash c.2 img s := by
  have hflash : (migrationWritten c.2 img n).flash = migratedFlash c.2 img s := by
    rw [migrationWritten_flash, migratedFlash, migratedFlash, hkeeps.flash_eq]
  have hslots : (migrationWritten c.2 img n).flash.slots = s.flash.slots := (congrArg Flash.slots hflash).trans rfl
  have hupdate : (migrationWritten c.2 img n).update = s.update := (raise_update ..).trans hkeeps.update_eq
  have hpower : (migrationWritten c.2 img n).power = s.power := (raise_power ..).trans hkeeps.power_eq
  rw [configDecision_of_migrates hkeeps hc ho hm hi, takeConfig_of_match hslots hupdate hpower hb]
  refine ⟨enterTrain_state _, ?_⟩
  rw [enterTrain_conf, putInForce_conf, enterTrain_putInForce_flash]
  exact ⟨rfl, rfl, rfl, rfl, hflash⟩

/-- A migration that fails rejects the running slot, and the module goes back to BOOT (R545). -/
theorem configDecision_failed {f : Nat} (hi : migrateImage s c.2.image = .error f) (hs : TwoSlots s)
    (hrun : s.update.runningSlot < 2) :
    (configDecision n).mod.state = .boot ∧ slotState (configDecision n) s.update.runningSlot = 5 ∧
    (bootRec (configDecision n)).selected = otherSlot s.update.runningSlot ∧
    (bootRec (configDecision n)).confirmed = true := by
  rw [configDecision_of_failed hkeeps hc ho hm hi]
  have hflash := (migrationFailed_flash (imgFormat c.2.image) f n).trans
    (rejectRunning_flash_congr hkeeps.flash_eq hkeeps.update_eq)
  exact ⟨migrationFailed_state .., slotRejected_of_flash hflash hs hrun⟩

end Migration

/-! ### The clauses of CONFIG_READ -/

section Clauses
variable (t : Nat) {s : State} (h : s.mod.state = .config) (hw : s.mod.watchdogStopped = false)
include h hw

/-- No copy passes: MAINTENANCE, with the failing areas in the log (R20, R520). -/
theorem configRead_none (hc : installedCopy s = none) : Completes (.configRead t) s fun n =>
    n.mod.state = .maintenance ∧ (s.conf.inForce = false → n.mod.defaultAddress = true ∧ n.conf.inForce = false) ∧
    n.flash = s.flash ∧ (s.power.atStart.length ≤ 200 →
      ∀ k, k < 2 → ∀ f, areaFault s k = some f → Raised 0x0F21 (leBytes 1 k ++ leBytes 1 f) n) := by
  have hexec := exec_configRead t s h hw
  have hkeeps := reportAreas_beginAt_keeps t s
  rw [configDecision_of_none hkeeps hc] at hexec
  refine ⟨_, hexec, enterMaintenance_state .., fun hconf => ?_, ?_, fun hstart k hk f hf => ?_⟩
  · have hconf' := (congrArg Conf.inForce hkeeps.conf_eq).trans hconf
    exact ⟨enterMaintenance_defaultAddress 5 _ hconf',
      (congrArg Conf.inForce (enterMaintenance_keeps ..).conf_eq).trans hconf'⟩
  · exact (enterMaintenance_keeps ..).flash_eq.trans hkeeps.flash_eq
  · obtain ⟨e, he, hcode, hdetail⟩ := reportAreas_newest (s := beginAt t s) hk hf
    have hadds := enterMaintenance_addsAtMost 5 (reportAreas (beginAt t s))
    rw [hkeeps.power_eq] at hadds
    exact ⟨e, mem_events_of_newest (hadds.newest 2 (by omega) he), hcode, hdetail⟩

variable {c : Nat × Area} (hc : installedCopy s = some c)
include hc

theorem exec_configRead_current (ho : olderFormat c.2.image = false) : exec (.configRead t) s =
    .next (takeConfig c.1 false c.2 c.2.image (reportAreas (beginAt t s))) := by
  rw [exec_configRead t s h hw, configDecision_of_current (reportAreas_beginAt_keeps t s) hc ho]

/-- A copy in a running format comes in force (R20, R522). -/
theorem configRead_current (ho : olderFormat c.2.image = false)
    (hb : helperFault s false c.2.image = none) :
    Completes (.configRead t) s fun n =>
      n.mod.state = .train ∧ n.conf.inForce = true ∧ n.conf.cfg = (readConfig s false c.2.image).cfg ∧
      n.conf.area = c.1 ∧ n.conf.migrated = false ∧ n.conf.sequence = c.2.seq ∧ n.conf.format = imgFormat c.2.image ∧
      n.flash = s.flash := by
  have hkeeps := reportAreas_beginAt_keeps t s
  have hexec := exec_configRead_current t h hw hc ho
  rw [takeConfig_of_match (congrArg Flash.slots hkeeps.flash_eq) hkeeps.update_eq hkeeps.power_eq hb] at hexec
  refine ⟨_, hexec, enterTrain_state _, ?_⟩
  rw [enterTrain_conf, putInForce_conf, enterTrain_putInForce_flash, hkeeps.flash_eq]
  exact ⟨rfl, rfl, rfl, rfl, rfl, rfl, rfl⟩

/-- A helper that does not match rejects the running slot (R594). -/
theorem configRead_mismatch (ho : olderFormat c.2.image = false) {k : Nat} (hs : TwoSlots s) (hrun : s.update.runningSlot < 2)
    (hb : helperFault s false c.2.image = some k) :
    Completes (.configRead t) s fun n =>
      n.mod.state = .config ∧ n.mod.watchdogStopped = true ∧ slotState n s.update.runningSlot = 5 ∧
      (bootRec n).selected = otherSlot s.update.runningSlot ∧
      (0x0F34, leBytes 1 s.update.runningSlot ++ leBytes 1 k) ∈ n.power.atStart := by
  have hkeeps := reportAreas_beginAt_keeps t s
  have hexec := exec_configRead_current t h hw hc ho
  rw [takeConfig_of_mismatch (congrArg Flash.slots hkeeps.flash_eq) hkeeps.update_eq hkeeps.power_eq hb] at hexec
  have hflash := (helperMismatch_flash k _).trans (rejectRunning_flash_congr hkeeps.flash_eq hkeeps.update_eq)
  obtain ⟨hslot, hselected, -⟩ := slotRejected_of_flash hflash hs hrun
  refine ⟨_, hexec, ?_, rfl, hslot, hselected, ?_⟩
  · exact (congrArg Mod.state hkeeps.mod_eq).trans h
  · rw [← hkeeps.update_eq]
    exact List.mem_append_right _ List.mem_cons_self

variable (ho : olderFormat c.2.image = true)
include ho

/-- An older copy whose migrated copy is in flash: that one comes in force (R543). -/
theorem configRead_migrated {m : Nat × List Byte} (hm : migratedCopy s c.2.image = some m)
    (hb : helperFault s true m.2 = none) :
    Completes (.configRead t) s fun n =>
      n.mod.state = .train ∧ n.conf.inForce = true ∧ n.conf.cfg = (readConfig s true m.2).cfg ∧ n.conf.area = m.1 ∧
      n.conf.migrated = true ∧ n.flash = s.flash := by
  have hkeeps := reportAreas_beginAt_keeps t s
  have hexec := exec_configRead t s h hw
  rw [configDecision_of_migrated hkeeps hc ho hm,
    takeConfig_of_match (congrArg Flash.slots hkeeps.flash_eq) hkeeps.update_eq hkeeps.power_eq hb] at hexec
  refine ⟨_, hexec, enterTrain_state _, ?_⟩
  rw [enterTrain_conf, putInForce_conf, enterTrain_putInForce_flash, hkeeps.flash_eq]
  exact ⟨rfl, rfl, rfl, rfl, rfl⟩

end Clauses

/-- Settles O9: each clause is the lemma on what the installed copy leads to; a copy without a migrated one migrates or fails. -/
theorem configReadDecides : Obligations.ConfigReadDecides :=
  ⟨fun t _ h hw hc => configRead_none t h hw hc,
   fun t _ _ h hw hc ho hb => configRead_current t h hw hc ho hb,
   fun t _ _ _ h hw hc ho hm hb => configRead_migrated t h hw hc ho hm hb,
   fun t _ s h hw hs hrun hc ho hm =>
     have hkeeps := reportAreas_beginAt_keeps t s
     ⟨_, exec_configRead t s h hw, fun _ hi hb => configDecision_migrates hkeeps hc ho hm hi hb,
       fun _ hi => configDecision_failed hkeeps hc ho hm hi hs hrun⟩,
   fun t _ _ _ h hw hs hrun hc ho hb => configRead_mismatch t h hw hc ho hs hrun hb⟩

end Sys2Proof.Machine
end

section
/-! Proofs of the statements on the self-timed engine and what its pair shares (02_self_timed_engine.md): the governor's periods and
the speed monitors (O12, O13), underruns, decode errors and releases (O42), and the tokens that carry values (O60). -/
namespace Sys2Proof.Machine
open Sys2Proof

-- As in the sections before: checked in parallel, the whole text takes more threads than the memory limit leaves room for.
set_option Elab.async false

section KeepsGroups
variable {w : List Group} {s n : State} (h : Keeps w s n)
include h

theorem Keeps.monitors_eq (hw : Group.monitors ∉ w := by decide) : n.monitors = s.monitors := h.only.same .monitors hw
theorem Keeps.gov_eq (hw : Group.gov ∉ w := by decide) : n.gov = s.gov := h.only.same .gov hw
theorem Keeps.jobs_eq (hw : Group.jobs ∉ w := by decide) : n.jobs = s.jobs := h.only.same .jobs hw
theorem Keeps.fire_eq (hw : Group.fire ∉ w := by decide) : n.fire = s.fire := h.only.same .fire hw
theorem Keeps.axes_eq (hw : Group.axes ∉ w := by decide) : n.axes = s.axes := h.only.same .axes hw
theorem Keeps.pair_eq (hw : Group.pair ∉ w := by decide) : n.pair = s.pair := h.only.same .pair hw

end KeepsGroups

/-- What keeps to `v` from the moment at which a command begins leaves all but `v` and the clock as it was before. -/
theorem Keeps.onlySince {t : Nat} {w v : List Group} {s n : State} (h : Keeps v (beginAt t s) n)
    (hw : Group.clock :: v ⊆ w := by decide) : Only w s n :=
  ((beginAt_keeps t s).mono (List.Subset.trans (by simp) hw)).only.trans (h.only.mono fun _ hx => hw (.tail _ hx))

/-! ### A period of the governor (R44 to R47) -/

/-- AT_LIMIT ends where need has fallen below the capacity (R45). -/
def limitChecked (s : State) : State := { s with gov := { s.gov with atLimit := !needMet s && s.gov.atLimit } }

/-- What a period does to the governor once AT_LIMIT has been looked at (R43, R44, R47). -/
def governorAct (s : State) : State :=
  if s.thermal.throttle then throttlePeriod s
  else if s.gov.renderDuty < 8 then { s with gov := { s.gov with renderDuty := s.gov.renderDuty + 1, hold := 0 } }
  else if cfgN s Fld.render_governor_enable 0 = 0 then { s with gov := { s.gov with step := 0, hold := 0 } }
  else if follows s then s
  else controlLaw s

theorem limitChecked_keeps (s : State) : Keeps [.gov] s (limitChecked s) := set_gov_keeps ..

theorem limitChecked_of_unmet {s : State} (h : needMet s = false) : limitChecked s = s := by
  simp [limitChecked, h]

theorem exec_governorPeriod (t : Nat) {s : State} (h : s.gov.running = true) :
    exec (.governorPeriod t) s = .next (checkRisk (governorAct (limitChecked (beginAt t s)))) := by
  have hstart : (if needMet (beginAt t s) then { beginAt t s with gov := { s.gov with atLimit := false } } else beginAt t s)
      = limitChecked (beginAt t s) := by
    unfold limitChecked
    cases needMet (beginAt t s) <;> rfl
  rw [← hstart]
  exact if_neg (by simp [h])

/-- The governor stands after the period as `governorAct` has left it. -/
theorem governorPeriod_of_act {t : Nat} {v : List Group} {s d : State} (h : s.gov.running = true)
    (hact : governorAct (limitChecked (beginAt t s)) = d) (hv : Keeps v (limitChecked (beginAt t s)) d)
    {w : List Group} (hw : [.clock, .gov, .jobs, .log, .net] ++ v ⊆ w := by decide) :
    Completes (.governorPeriod t) s fun n => n.gov = d.gov ∧ Only w s n := by
  subst hact
  refine ⟨_, exec_governorPeriod t h, (checkRisk_keeps _).gov_eq, ?_⟩
  have hd : Keeps ([.gov, .jobs, .log, .net] ++ v) (beginAt t s) (governorAct (limitChecked (beginAt t s))) :=
    ((limitChecked_keeps _).mono (by simp)).then hv (List.subset_append_right _ _)
  exact (hd.then (checkRisk_keeps _) (by simp)).onlySince hw

theorem setStep_gov {k : Nat} {s : State} (h : s.gov.step ≠ k) :
    (setStep k s).gov = { s.gov with step := k, stepsTaken := wrapInc 16 s.gov.stepsTaken } := by
  unfold setStep
  rw [if_neg h]
  exact (sendToken_keeps ..).gov_eq

theorem setStep_step (k : Nat) (s : State) : (setStep k s).gov.step = k := by
  by_cases h : s.gov.step = k
  · rw [setStep, if_pos h, h]
  · rw [setStep_gov h]

theorem governorAct_throttled {s : State} (h : s.thermal.throttle = true) : governorAct s = throttlePeriod s := if_pos h

theorem throttlePeriod_of_step {s : State} (h : 0 < s.gov.step) : (throttlePeriod s).gov =
    { s.gov with hold := 0, step := s.gov.step - 1, stepsTaken := wrapInc 16 s.gov.stepsTaken } :=
  (congrArg State.gov (if_pos h)).trans (setStep_gov (show s.gov.step ≠ s.gov.step - 1 by omega))

theorem throttlePeriod_of_no_step {s : State} (h : s.gov.step = 0) :
    throttlePeriod s = { s with gov := { s.gov with hold := 0, renderDuty := s.gov.renderDuty - 1 } } :=
  if_neg (by simp [h])

/-- Under throttle above step 0 the step comes down by one (R47). -/
theorem governorPeriod_throttle_step (t : Nat) {s : State} (h : s.gov.running = true) (hthr : s.thermal.throttle = true)
    (hstep : 0 < s.gov.step) : Completes (.governorPeriod t) s fun n =>
      n.gov.step = s.gov.step - 1 ∧ n.gov.renderDuty = s.gov.renderDuty ∧ n.gov.stepsTaken = wrapInc 16 s.gov.stepsTaken ∧
      Only [.clock, .gov, .jobs, .log, .net, .pair] s n := by
  obtain ⟨n, hexec, hgov, honly⟩ := governorPeriod_of_act (w := [.clock, .gov, .jobs, .log, .net, .pair]) h
    (governorAct_throttled (s := limitChecked (beginAt t s)) hthr) (throttlePeriod_keeps _)
  have hgov' := hgov.trans (throttlePeriod_of_step (s := limitChecked (beginAt t s)) hstep)
  exact ⟨n, hexec, congrArg Gov.step hgov', (congrArg Gov.renderDuty hgov').trans rfl, congrArg Gov.stepsTaken hgov', honly⟩

/-- Under throttle at step 0 the render duty comes down by one (R47). -/
theorem governorPeriod_throttle_duty (t : Nat) {s : State} (h : s.gov.running = true) (hthr : s.thermal.throttle = true)
    (hstep : s.gov.step = 0) : Completes (.governorPeriod t) s fun n =>
      n.gov = { s.gov with
        hold := 0, renderDuty := s.gov.renderDuty - 1
        atLimit := !needMet (beginAt t s) && s.gov.atLimit } ∧ Only [.clock, .gov, .jobs, .log, .net] s n :=
  governorPeriod_of_act h ((governorAct_throttled (s := limitChecked (beginAt t s)) hthr).trans (throttlePeriod_of_no_step hstep))
    (set_gov_keeps ..)

/-- A reduced duty comes up by one where there is no throttle (R47). -/
theorem governorPeriod_duty (t : Nat) {s : State} (h : s.gov.running = true) (hthr : s.thermal.throttle = false)
    (hduty : s.gov.renderDuty < 8) : Completes (.governorPeriod t) s fun n =>
      n.gov = { s.gov with
        renderDuty := s.gov.renderDuty + 1, hold := 0
        atLimit := !needMet (beginAt t s) && s.gov.atLimit } ∧ Only [.clock, .gov, .jobs, .log, .net] s n :=
  governorPeriod_of_act h ((if_neg (by simp [limitChecked, hthr])).trans (if_pos hduty)) (set_gov_keeps ..)

/-- A disabled governor stands at step 0 (R47). -/
theorem governorPeriod_disabled (t : Nat) {s : State} (h : s.gov.running = true) (hthr : s.thermal.throttle = false)
    (hduty : 8 ≤ s.gov.renderDuty) (hen : cfgN s Fld.render_governor_enable 0 = 0) :
    Completes (.governorPeriod t) s fun n =>
      n.gov.step = 0 ∧ n.gov.hold = 0 ∧ n.gov.renderDuty = s.gov.renderDuty ∧ Only [.clock, .gov, .jobs, .log, .net] s n := by
  let s1 := limitChecked (beginAt t s)
  have hact : governorAct s1 = { s1 with gov := { s1.gov with step := 0, hold := 0 } } :=
    (if_neg (by simp [s1, limitChecked, hthr])).trans ((if_neg (Nat.not_lt.mpr hduty)).trans (if_pos hen))
  obtain ⟨n, hexec, hgov, honly⟩ := governorPeriod_of_act (w := [.clock, .gov, .jobs, .log, .net]) h hact (set_gov_keeps ..)
  exact ⟨n, hexec, congrArg Gov.step hgov, congrArg Gov.hold hgov, (congrArg Gov.renderDuty hgov).trans rfl, honly⟩

/-- An infinite demand is short of any capacity: one step up (R44). -/
theorem controlLaw_of_infinite {s : State} (hd : demandOf (trackedCosts s) = none)
    (htop : s.gov.step < cfgN s Fld.render_governor_max_step 0) :
    (controlLaw s).gov.step = s.gov.step + 1 ∧ (controlLaw s).gov.hold = 0 ∧
      (controlLaw s).gov.stepsTaken = wrapInc 16 s.gov.stepsTaken := by
  have hstep : (setStep (s.gov.step + 1) { s with gov := { s.gov with hold := 0 } }).gov =
      { s.gov with hold := 0, step := s.gov.step + 1, stepsTaken := wrapInc 16 s.gov.stepsTaken } :=
    setStep_gov (show s.gov.step ≠ s.gov.step + 1 by omega)
  unfold controlLaw
  simp only [hd, htop, decide_true, Bool.and_self, if_true, Bool.true_and]
  split <;> simp [(raise_keeps ..).gov_eq, hstep]

/-- With no throttle and the duty in full an enabled governor that decides for itself follows the control law (R44). -/
theorem governorPeriod_infinite (t : Nat) {s : State} (h : s.gov.running = true) (hthr : s.thermal.throttle = false)
    (hduty : 8 ≤ s.gov.renderDuty) (hen : cfgN s Fld.render_governor_enable 0 ≠ 0) (hf : follows s = false)
    (hd : demandOf (trackedCosts (beginAt t s)) = none) (htop : s.gov.step < cfgN s Fld.render_governor_max_step 0) :
    Completes (.governorPeriod t) s fun n =>
      n.gov.step = s.gov.step + 1 ∧ n.gov.hold = 0 ∧ n.gov.stepsTaken = wrapInc 16 s.gov.stepsTaken ∧
      Only [.clock, .gov, .jobs, .log, .net, .pair] s n := by
  have hstart : limitChecked (beginAt t s) = beginAt t s := limitChecked_of_unmet (by simp [needMet, hd])
  have hact : governorAct (limitChecked (beginAt t s)) = controlLaw (beginAt t s) := by
    rw [hstart]
    exact (if_neg (by simp [hthr])).trans ((if_neg (Nat.not_lt.mpr hduty)).trans
      ((if_neg hen).trans (if_neg (Bool.eq_false_iff.mp hf))))
  have hkeeps : Keeps [.log, .gov, .net, .pair] (limitChecked (beginAt t s)) (controlLaw (beginAt t s)) := by
    rw [hstart]
    exact controlLaw_keeps _
  obtain ⟨n, hexec, hgov, honly⟩ := governorPeriod_of_act (w := [.clock, .gov, .jobs, .log, .net, .pair]) h hact hkeeps
  obtain ⟨hstep, hhold, htaken⟩ := controlLaw_of_infinite hd htop
  exact ⟨n, hexec, hgov ▸ hstep, hgov ▸ hhold, hgov ▸ htaken, honly⟩

/-! ### An event that stays among the newest (R664, R666) -/

/-- An event is still in the log once at most 255 more have been raised. -/
theorem raisedNext_of_raise {k code : Nat} {detail : List Byte} {s0 s n : State} (hlog : s.log = s0.log)
    (h : AddsAtMost k (raise code detail s) n) (hk : k ≤ 255 := by decide) : RaisedNext s0 code detail n :=
  ⟨_, mem_events_of_newest (h.newest 1 (by omega) (eventNow_mem_newest code detail s)), rfl, rfl,
    congrArg Log.nextSeq hlog⟩

theorem raised_of_raise {k code : Nat} {detail : List Byte} {s n : State}
    (h : AddsAtMost k (raise code detail s) n) (hk : k ≤ 255 := by decide) : Raised code detail n :=
  ⟨_, mem_events_of_newest (h.newest 1 (by omega) (eventNow_mem_newest code detail s)), rfl, rfl⟩

theorem forEach_addsAtMost {α : Type} {f : α → State → State} (hf : ∀ x s, AddsAtMost 1 s (f x s)) (l : List α) (s : State) :
    AddsAtMost l.length s (forEach l f s) := by
  induction l generalizing s with
  | nil => exact .of_log_eq rfl
  | cons x l ih =>
    rw [List.length_cons, Nat.add_comm]
    exact (hf x s).trans (ih _)

/-- Every event of this code in the log of `n` was there in that of `s`. -/
structure AddsNone (code : Nat) (s n : State) : Prop where
  old : ∀ e ∈ n.log.events, e.code = code → e ∈ s.log.events

theorem AddsNone.trans {code : Nat} {a b c : State} (h1 : AddsNone code a b) (h2 : AddsNone code b c) : AddsNone code a c :=
  ⟨fun e he hc => h1.old e (h2.old e he hc) hc⟩

theorem AddsNone.of_log_eq {code : Nat} {s n : State} (h : n.log = s.log) : AddsNone code s n :=
  ⟨fun e he _ => by rwa [h] at he⟩

theorem raise_addsNone {code other : Nat} (h : other ≠ code) (detail : List Byte) (s : State) :
    AddsNone code s (raise other detail s) := by
  refine ⟨fun e he hc => ?_⟩
  rw [raise_events] at he
  rcases List.mem_append.mp (List.mem_of_mem_drop he) with hold | hnew
  · exact hold
  · rw [List.mem_singleton.mp hnew] at hc
    exact absurd hc h

theorem forEach_addsNone {α : Type} {code : Nat} {f : α → State → State} (hf : ∀ x s, AddsNone code s (f x s)) (l : List α)
    (s : State) : AddsNone code s (forEach l f s) := by
  induction l generalizing s with
  | nil => exact .of_log_eq rfl
  | cons x l ih => exact (hf x s).trans (ih _)

/-! ### The tracked slots are at most four (R44) -/

theorem trackedFrom_length (s : State) (k : Nat) (seen : List Nat) (l : List (Nat × Nat × Rat)) :
    (trackedFrom s k seen l).length ≤ k := by
  induction l generalizing k seen with
  | nil => cases k <;> simp [trackedFrom]
  | cons x l ih =>
    cases k with
    | zero => simp [trackedFrom]
    | succ k =>
      rw [trackedFrom]
      split
      · exact ih (k + 1) seen
      · simpa using ih k _

theorem trackedSlots_length (s : State) : (trackedSlots s).length ≤ 4 := by
  unfold trackedSlots
  split
  · exact trackedFrom_length ..
  · simp

/-- Each slot that is passed joins the costs at most once: where it is tracked. -/
theorem trackStep_slots (s : State) (a : Armed) (tracked : List (Nat × Nat × Rat)) (p : Track) (x : Nat × Nat) :
    (trackStep s a tracked p x).out.map (·.1) =
      p.out.map (·.1) ++ if x.1 ∈ tracked.map (·.1) then [x.1] else [] := by
  unfold trackStep
  dsimp only
  cases hfind : tracked.find? fun q => q.1 = x.1 with
  | none =>
    have hx : x.1 ∉ tracked.map (·.1) := by
      rintro hx
      obtain ⟨q, hq, heq⟩ := List.mem_map.mp hx
      exact List.find?_eq_none.mp hfind q hq (decide_eq_true heq)
    simp [hx]
  | some q =>
    have hq : q.1 = x.1 := by simpa using List.find?_some hfind
    have hx : x.1 ∈ tracked.map (·.1) := List.mem_map.mpr ⟨q, List.mem_of_find?_eq_some hfind, hq⟩
    simp [hx, hq]

theorem foldl_trackStep_slots (s : State) (a : Armed) (tracked : List (Nat × Nat × Rat)) (l : List (Nat × Nat)) (p : Track) :
    (l.foldl (trackStep s a tracked) p).out.map (·.1) =
      p.out.map (·.1) ++ (l.map (·.1)).filter (· ∈ tracked.map (·.1)) := by
  induction l generalizing p with
  | nil => simp
  | cons x l ih =>
    rw [List.foldl_cons, ih, trackStep_slots, List.map_cons, List.filter_cons]
    split <;> simp_all

/-- The coming slots have numbers of their own. -/
theorem comingSlots_nodup (s : State) : ((comingSlots s).map (·.1)).Nodup := by
  unfold comingSlots
  cases s.jobs.armed with
  | none => simp
  | some a =>
    have hmap : (a.queue.zipIdx.map fun p => (a.nextSlot + p.2, p.1)).map (·.1) = a.queue.zipIdx.map (a.nextSlot + ·.2) :=
      List.map_map ..
    have hidx : a.queue.zipIdx.map (a.nextSlot + ·.2) = (List.range' 0 a.queue.length).map (a.nextSlot + ·) := by
      rw [← List.zipIdx_map_snd, List.map_map]
      rfl
    rw [hmap, hidx]
    exact List.Nodup.map (fun _ _ h => Nat.add_left_cancel h) List.nodup_range'

theorem trackedCosts_length (s : State) : (trackedCosts s).length ≤ 4 := by
  unfold trackedCosts
  cases s.jobs.armed with
  | none => simp
  | some a =>
    have hslots := foldl_trackStep_slots s a (trackedSlots s) (comingSlots s) { cum := 0, due := s.cal.due, out := [] }
    refine Nat.le_trans ?_ (trackedSlots_length s)
    rw [← List.length_map (f := (·.1)), hslots, ← List.length_map (as := trackedSlots s) (f := (·.1))]
    refine ((List.subperm_of_subset ((comingSlots_nodup s).filter _) ?_)).length_le
    intro x hx
    simpa using (List.mem_filter.mp hx).2

/-! ### RENDER_AT_RISK (R51, R127) -/

/-- Of each tracked slot the check does nothing, or raises RENDER_AT_RISK. -/
theorem checkRisk_eq (s : State) : ∃ f : Nat × Nat × Rat × Rat → State → State,
    checkRisk s = forEach (trackedCosts s) f s ∧
      ∀ x s, f x s = s ∨ ∃ detail s', s'.log = s.log ∧ f x s = raise 0x0311 detail s' := by
  refine ⟨_, rfl, fun x s => ?_⟩
  dsimp only
  exact (ite_eq_or_eq _ _ _).imp_right fun h => ⟨_, modArmed _ s, rfl, h⟩

theorem checkRisk_addsAtMost (s : State) : AddsAtMost 4 s (checkRisk s) := by
  obtain ⟨f, heq, hf⟩ := checkRisk_eq s
  rw [heq]
  refine (forEach_addsAtMost (fun x s => ?_) (trackedCosts s) s).mono (trackedCosts_length s)
  rcases hf x s with hsame | ⟨detail, s', hlog, hraise⟩
  · rw [hsame]
    exact (AddsAtMost.of_log_eq rfl).mono (Nat.zero_le 1)
  · rw [hraise]
    exact (AddsAtMost.of_log_eq hlog).raise ..

theorem checkRisk_addsNone {code : Nat} (h : 0x0311 ≠ code) (s : State) : AddsNone code s (checkRisk s) := by
  obtain ⟨f, heq, hf⟩ := checkRisk_eq s
  rw [heq]
  refine forEach_addsNone (fun x s => ?_) (trackedCosts s) s
  rcases hf x s with hsame | ⟨detail, s', hlog, hraise⟩
  · rw [hsame]
    exact .of_log_eq rfl
  · rw [hraise]
    exact .trans (.of_log_eq hlog) (raise_addsNone h ..)

/-! ### A window and a silence of a speed monitor (R33, R36 to R39, R51) -/

/-- The index of a window with this count (R33). -/
def windowIndex (mon count : Nat) (s : State) : Nat := min 65535 (4096 * count / max 1 (s.otp.slowCount.getD mon 4096))

/-- What a monitor shows after a window with this count. -/
def windowReading (t mon count : Nat) (s : State) : Monitor :=
  { index := windowIndex mon count s, doneAt := some (max s.now t), valid := indexValid (windowIndex mon count s)
    belowFloor := if indexValid (windowIndex mon count s) && windowIndex mon count s < 3686 then
      (s.monitors.getD mon {}).belowFloor + 1 else 0 }

/-- What a monitor shows once it has been silent for two window times (R36). -/
def silentReading (mon : Nat) (s : State) : Monitor := { s.monitors.getD mon {} with valid := false, belowFloor := 0 }

/-- A monitor shows `x`, and the prediction is made again where it measures the render domain. -/
def monitorShows (mon : Nat) (x : Monitor) (s : State) : State :=
  if mon < 14 then checkRisk (noteWindow (setMonitor mon x s)) else setMonitor mon x s

theorem exec_speedMonitorWindow (t count : Nat) {mon : Nat} {s : State} (hoff : s.mod.state ≠ .off)
    (hdom : s.power.domainsOn.contains (monitorDomain mon) = true) :
    exec (.speedMonitorWindow t mon count) s = .next (
      let s3 := monitorShows mon (windowReading t mon count s) (beginAt t s)
      if 2 ≤ (windowReading t mon count s).belowFloor && mayShutdown s3 then
        enterShutdown (shutdownRecord 0x20 (115 * 16) 0 (timeNow s3) s3) (barsFirst (runBars s3) s3)
      else s3) := by
  have hgo : ¬ ((beginAt t s).mod.state = .off || !(beginAt t s).power.domainsOn.contains (monitorDomain mon)) = true := by
    simp only [beginAt_mod, beginAt_power, hdom]
    simp [hoff]
  exact if_neg hgo

/-- A window that is not the second in a row below the floor is no SHUTDOWN. -/
theorem exec_speedMonitorWindow_of_no_shutdown (t : Nat) {mon count : Nat} {s : State} (hoff : s.mod.state ≠ .off)
    (hdom : s.power.domainsOn.contains (monitorDomain mon) = true) (hlow : (windowReading t mon count s).belowFloor < 2) :
    exec (.speedMonitorWindow t mon count) s =
      .next (monitorShows mon (windowReading t mon count s) (beginAt t s)) := by
  rw [exec_speedMonitorWindow t count hoff hdom]
  exact congrArg _ (if_neg (by simp only [Bool.and_eq_true, decide_eq_true_eq]; omega))

theorem exec_speedMonitorBroken (t : Nat) {mon : Nat} {s : State} (hoff : s.mod.state ≠ .off)
    (hdom : s.power.domainsOn.contains (monitorDomain mon) = true)
    (ht : ((s.monitors.getD mon {}).doneAt.getD s.rawOrigin) + 2 * windowT ≤ t) :
    exec (.speedMonitorBroken t mon) s =
      .next (monitorShows mon (silentReading mon s) (beginAt t s)) := by
  have hdue : ((s.monitors.getD mon {}).doneAt.getD s.rawOrigin) + 2 * windowT ≤ max s.now t :=
    Nat.le_trans ht (Nat.le_max_right ..)
  refine congrArg _ (if_pos ?_)
  simp only [beginAt_mod, beginAt_power, beginAt_monitors, beginAt_rawOrigin, beginAt_now, hdom, hdue]
  simp [hoff]

theorem setMonitor_monitors (mon : Nat) (x : Monitor) (s : State) :
    (setMonitor mon x s).monitors = s.monitors.set mon x := by
  unfold setMonitor
  dsimp only
  split
  · rfl
  · exact (raise_keeps ..).monitors_eq

theorem setMonitor_of_same {mon : Nat} {x : Monitor} {s : State} (h : (s.monitors.getD mon {}).valid = x.valid) :
    setMonitor mon x s = { s with monitors := s.monitors.set mon x } := if_pos h

theorem setMonitor_of_change {mon : Nat} {x : Monitor} {s : State} (h : (s.monitors.getD mon {}).valid ≠ x.valid) :
    setMonitor mon x s = raise (if x.valid then 0x0131 else 0x0130) (leBytes 2 mon)
      { s with monitors := s.monitors.set mon x } := if_neg h

theorem monitorShows_of_not_render (x : Monitor) {mon : Nat} (s : State) (h : 14 ≤ mon) :
    monitorShows mon x s = setMonitor mon x s := if_neg (by omega)

/-- Once the monitor shows what it shows, at most four RENDER_AT_RISK follow. -/
theorem setMonitor_monitorShows_adds (mon : Nat) (x : Monitor) (s : State) :
    AddsAtMost 4 (setMonitor mon x s) (monitorShows mon x s) ∧ AddsNone 0x0130 (setMonitor mon x s) (monitorShows mon x s) := by
  have hnote := noteWindow_keeps (setMonitor mon x s)
  unfold monitorShows
  split
  · exact ⟨hnote.addsNone.trans (checkRisk_addsAtMost _),
      (AddsNone.of_log_eq hnote.log_eq).trans (checkRisk_addsNone (by decide) _)⟩
  · exact ⟨(AddsAtMost.of_log_eq rfl).mono (by decide), .of_log_eq rfl⟩

theorem monitorShows_keeps (mon : Nat) (x : Monitor) (s : State) :
    Keeps [.monitors, .log, .net, .gov, .jobs] s (monitorShows mon x s) := by
  have hset := (setMonitor_keeps mon x s).mono (w := [.monitors, .log, .net, .gov, .jobs]) (by decide)
  unfold monitorShows
  split
  · exact (hset.then (noteWindow_keeps _) (by decide)).then (checkRisk_keeps _) (by decide)
  · exact hset

theorem monitorShows_monitors (mon : Nat) (x : Monitor) (s : State) :
    (monitorShows mon x s).monitors = s.monitors.set mon x := by
  rw [← setMonitor_monitors mon x s]
  unfold monitorShows
  split
  · exact (checkRisk_keeps _).monitors_eq.trans (noteWindow_keeps _).monitors_eq
  · rfl

theorem monitorShows_getD {mon : Nat} (x : Monitor) {s : State} (h : mon < s.monitors.length) :
    (monitorShows mon x s).monitors.getD mon {} = x := by
  rw [monitorShows_monitors]
  simp [List.getD_eq_getElem?_getD, h]

/-- A monitor that becomes broken or valid raises its event, once (R39). -/
theorem monitorShows_raisedNext {mon : Nat} {x : Monitor} {s s0 : State} (h : (s.monitors.getD mon {}).valid ≠ x.valid)
    (hlog : s.log = s0.log) :
    RaisedNext s0 (if x.valid then 0x0131 else 0x0130) (leBytes 2 mon) (monitorShows mon x s) := by
  have hshows := (setMonitor_monitorShows_adds mon x s).1
  rw [setMonitor_of_change h] at hshows
  exact raisedNext_of_raise (s := { s with monitors := s.monitors.set mon x }) hlog hshows

/-- A monitor that stays broken raises nothing for it (R39). -/
theorem monitorShows_addsNone {mon : Nat} {x : Monitor} {s : State} (h : (s.monitors.getD mon {}).valid = x.valid) :
    AddsNone 0x0130 s (monitorShows mon x s) := by
  have hshows := (setMonitor_monitorShows_adds mon x s).2
  rw [setMonitor_of_same h] at hshows
  exact AddsNone.trans (b := { s with monitors := s.monitors.set mon x }) (.of_log_eq rfl) hshows

/-- The render index with what a render monitor shows is the newest of those that the prediction goes by (R51). -/
theorem monitorShows_window64 {mon : Nat} (x : Monitor) (s : State) (h : mon < 14) :
    (monitorShows mon x s).gov.window64.head? = some (renderIndex (monitorShows mon x s)) := by
  have hnote : (noteWindow (setMonitor mon x s)).gov.window64.head? = some (renderIndex (setMonitor mon x s)) := by
    unfold noteWindow
    dsimp only
    split <;> simp
  have hindex : renderIndex (monitorShows mon x s) = renderIndex (setMonitor mon x s) :=
    congrArg (fun l => renderIndex { s with monitors := l })
      ((monitorShows_monitors mon x s).trans (setMonitor_monitors mon x s).symm)
  rw [hindex, ← hnote, monitorShows, if_pos h, (checkRisk_keeps _).gov_eq]

/-! ### Entry into SHUTDOWN (R25, R583) -/

@[simp] theorem dropSessions_mod (s) : (dropSessions s).mod = s.mod := rfl
@[simp] theorem abandonRendering_mod (s) : (abandonRendering s).mod = s.mod := (abandonRendering_keeps s).mod_eq
@[simp] theorem spoilAll_mod (bit s) : (spoilAll bit s).mod = s.mod := (spoilAll_keeps bit s).mod_eq
@[simp] theorem haltAllLanes_mod (s) : (haltAllLanes s).mod = s.mod := (haltAllLanes_keeps s).mod_eq

/-- The bars of the run that are not halted yet halt with cause 6; the module state stands. -/
theorem forEach_haltBar_mod (l : List Nat) (s : State) : (forEach l (fun b s => if halted s b then s else
    raise 0x0514 (leBytes 1 b ++ leBytes 1 6)
      (modBar b (fun x => { x with haltCause := 6, pendingSync := [], packet := none }) s)) s).mod = s.mod :=
  (Keeps.forEach (w := [.log, .net, .fire]) (fun b s => Keeps.ite (fun _ => Keeps.refl _ _) fun _ =>
    ((modBar_keeps b _ s).mono (by decide)).then (raise_keeps ..) (by decide)) (Keeps.refl _ s)).mod_eq

theorem enterShutdown_state (rec : ShutdownRecord) (s : State) : (enterShutdown rec s).mod.state = .shutdown := by
  simp [enterShutdown, forEach_haltBar_mod]

theorem enterShutdown_latch (rec : ShutdownRecord) (s : State) : (enterShutdown rec s).power.shutdownLatch = true := rfl

theorem enterShutdown_record (rec : ShutdownRecord) (s : State) : (enterShutdown rec s).thermal.recordPending = some rec := rfl

/-! ### The clauses of a window (R33, R36 to R39) -/

section Window
variable (t : Nat) {mon count : Nat} {s : State} (hoff : s.mod.state ≠ .off)
  (hdom : s.power.domainsOn.contains (monitorDomain mon) = true)

theorem indexValid_of_bounds {i : Nat} (h1 : 2048 ≤ i) (h2 : i ≤ 10240) : indexValid i = true := by
  simp [indexValid, h1, h2]

theorem indexValid_of_outside {i : Nat} (h : i < 2048 ∨ 10240 < i) : indexValid i = false := by
  simp only [indexValid, Bool.and_eq_false_iff, decide_eq_false_iff_not]
  omega

theorem windowReading_index : (windowReading t mon count s).index = windowIndex mon count s := rfl

/-- A broken index is no window below the floor (R38). -/
theorem windowReading_of_outside (h : windowIndex mon count s < 2048 ∨ 10240 < windowIndex mon count s) :
    (windowReading t mon count s).valid = false ∧ (windowReading t mon count s).belowFloor = 0 := by
  simp [windowReading, indexValid_of_outside h]

theorem windowReading_of_floor (h : indexValid (windowIndex mon count s) = true) (hfloor : 3686 ≤ windowIndex mon count s) :
    windowReading t mon count s =
      { index := windowIndex mon count s, doneAt := some (max s.now t), valid := true, belowFloor := 0 } := by
  simp [windowReading, h, Nat.not_lt.mpr hfloor]

theorem windowReading_below (h : indexValid (windowIndex mon count s) = true) (hfloor : windowIndex mon count s < 3686) :
    (windowReading t mon count s).belowFloor = (s.monitors.getD mon {}).belowFloor + 1 :=
  if_pos (by simp [h, hfloor])

theorem windowReading_belowFloor_le :
    (windowReading t mon count s).belowFloor ≤ (s.monitors.getD mon {}).belowFloor + 1 := by
  unfold windowReading
  dsimp only
  split <;> omega

include hoff hdom

/-- A window at or above the floor, of a valid monitor outside the render domain, is recorded and nothing else (R33). -/
theorem speedMonitorWindow_recorded (hmon : 14 ≤ mon) (hfloor : 3686 ≤ windowIndex mon count s)
    (htop : windowIndex mon count s ≤ 10240) (hvalid : (s.monitors.getD mon {}).valid = true) :
    Completes (.speedMonitorWindow t mon count) s fun n =>
      n.monitors = s.monitors.set mon
        { index := windowIndex mon count s, doneAt := some n.now, valid := true, belowFloor := 0 } ∧
      Only [.clock, .monitors] s n := by
  have hread := windowReading_of_floor t (indexValid_of_bounds (by omega) htop) hfloor
  have hexec := exec_speedMonitorWindow_of_no_shutdown t hoff hdom (count := count) (by simp [hread])
  have hvalid' : ((beginAt t s).monitors.getD mon {}).valid = (windowReading t mon count s).valid := by rw [hread]; exact hvalid
  rw [monitorShows_of_not_render _ _ hmon, setMonitor_of_same hvalid', hread] at hexec
  exact ⟨_, hexec, rfl, (set_monitors_keeps ..).onlySince⟩

/-- The second valid window in a row below the floor is SHUTDOWN (R38). -/
theorem speedMonitorWindow_shutdown (hsd : s.mod.state ≠ .shutdown) (hlow : (s.monitors.getD mon {}).belowFloor = 1)
    (hvalid : indexValid (windowIndex mon count s) = true) (hfloor : windowIndex mon count s < 3686) :
    Completes (.speedMonitorWindow t mon count) s fun n =>
      n.mod.state = .shutdown ∧ n.power.shutdownLatch = true ∧ n.thermal.recordPending.isSome = true := by
  have hcount : (windowReading t mon count s).belowFloor = 2 := by rw [windowReading_below t hvalid hfloor, hlow]
  have hmay : mayShutdown (monitorShows mon (windowReading t mon count s) (beginAt t s)) = true := by
    simp [mayShutdown, (monitorShows_keeps ..).mod_eq, hoff, hsd]
  have hexec := (exec_speedMonitorWindow t count hoff hdom).trans (congrArg _ (if_pos (by rw [hcount, hmay]; decide)))
  exact ⟨_, hexec, enterShutdown_state .., enterShutdown_latch .., congrArg Option.isSome (enterShutdown_record ..)⟩

variable (hlen : mon < s.monitors.length)
include hlen

/-- A valid monitor whose index lies outside R36 becomes broken (R39). -/
theorem speedMonitorWindow_breaks (hvalid : (s.monitors.getD mon {}).valid = true)
    (hout : windowIndex mon count s < 2048 ∨ 10240 < windowIndex mon count s) :
    Completes (.speedMonitorWindow t mon count) s fun n =>
      (n.monitors.getD mon {}).valid = false ∧ (n.monitors.getD mon {}).index = windowIndex mon count s ∧
      (n.monitors.getD mon {}).belowFloor = 0 ∧ RaisedNext s 0x0130 (leBytes 2 mon) n := by
  obtain ⟨hbroken, hzero⟩ := windowReading_of_outside t hout
  have hexec := exec_speedMonitorWindow_of_no_shutdown t hoff hdom (count := count) (by omega)
  have hshown := monitorShows_getD (windowReading t mon count s) (s := beginAt t s) hlen
  have hraised := monitorShows_raisedNext (s0 := s) (s := beginAt t s) (x := windowReading t mon count s)
    (by rw [beginAt_monitors, hvalid, hbroken]; decide) rfl
  rw [hbroken] at hraised
  exact ⟨_, hexec, by rw [hshown, hbroken], by rw [hshown, windowReading_index], by rw [hshown, hzero], hraised⟩

/-- A monitor that stays broken raises nothing for it (R39). -/
theorem speedMonitorWindow_stays_broken (hvalid : (s.monitors.getD mon {}).valid = false)
    (hout : windowIndex mon count s < 2048 ∨ 10240 < windowIndex mon count s) :
    Completes (.speedMonitorWindow t mon count) s fun n =>
      (n.monitors.getD mon {}).valid = false ∧ ∀ e ∈ n.log.events, e.code = 0x0130 → e ∈ s.log.events := by
  obtain ⟨hbroken, hzero⟩ := windowReading_of_outside t hout
  have hexec := exec_speedMonitorWindow_of_no_shutdown t hoff hdom (count := count) (by omega)
  have hshown := monitorShows_getD (windowReading t mon count s) (s := beginAt t s) hlen
  exact ⟨_, hexec, by rw [hshown, hbroken], (monitorShows_addsNone (s := beginAt t s) (hvalid.trans hbroken.symm)).old⟩

/-- A broken monitor whose index lies within R36 becomes valid again (R39). -/
theorem speedMonitorWindow_returns (hvalid : (s.monitors.getD mon {}).valid = false)
    (hlow : (s.monitors.getD mon {}).belowFloor = 0) (h1 : 2048 ≤ windowIndex mon count s)
    (h2 : windowIndex mon count s ≤ 10240) :
    Completes (.speedMonitorWindow t mon count) s fun n =>
      (n.monitors.getD mon {}).valid = true ∧ RaisedNext s 0x0131 (leBytes 2 mon) n := by
  have hin : (windowReading t mon count s).valid = true := indexValid_of_bounds h1 h2
  have hle := windowReading_belowFloor_le t (mon := mon) (count := count) (s := s)
  have hexec := exec_speedMonitorWindow_of_no_shutdown t hoff hdom (count := count) (by omega)
  have hshown := monitorShows_getD (windowReading t mon count s) (s := beginAt t s) hlen
  have hraised := monitorShows_raisedNext (s0 := s) (s := beginAt t s) (x := windowReading t mon count s)
    (by rw [beginAt_monitors, hvalid, hin]; decide) rfl
  rw [hin] at hraised
  exact ⟨_, hexec, by rw [hshown, hin], hraised⟩

variable (ht : ((s.monitors.getD mon {}).doneAt.getD s.rawOrigin) + 2 * windowT ≤ t)
include ht

/-- A valid monitor that falls silent becomes broken (R36, R39, R51). -/
theorem speedMonitorBroken_breaks (hvalid : (s.monitors.getD mon {}).valid = true) :
    Completes (.speedMonitorBroken t mon) s fun n =>
      (n.monitors.getD mon {}).valid = false ∧ (n.monitors.getD mon {}).belowFloor = 0 ∧
      (n.monitors.getD mon {}).index = (s.monitors.getD mon {}).index ∧
      RaisedNext s 0x0130 (leBytes 2 mon) n ∧ (mon < 14 → n.gov.window64.head? = some (renderIndex n)) ∧
      Only [.clock, .monitors, .log, .net, .gov, .jobs] s n := by
  have hshown := monitorShows_getD (silentReading mon s) (s := beginAt t s) hlen
  have hraised := monitorShows_raisedNext (s0 := s) (s := beginAt t s) (x := silentReading mon s)
    (by rw [beginAt_monitors, hvalid]; exact Bool.true_eq_false.mp) rfl
  exact ⟨_, exec_speedMonitorBroken t hoff hdom ht, congrArg Monitor.valid hshown, congrArg Monitor.belowFloor hshown,
    (congrArg Monitor.index hshown).trans rfl, hraised, monitorShows_window64 _ _, (monitorShows_keeps ..).onlySince⟩

/-- A broken monitor that stays silent raises nothing for it (R39). -/
theorem speedMonitorBroken_stays_broken (hvalid : (s.monitors.getD mon {}).valid = false) :
    Completes (.speedMonitorBroken t mon) s fun n =>
      (n.monitors.getD mon {}).valid = false ∧ (∀ e ∈ n.log.events, e.code = 0x0130 → e ∈ s.log.events) ∧
      Only [.clock, .monitors, .log, .net, .gov, .jobs] s n := by
  have hshown := monitorShows_getD (silentReading mon s) (s := beginAt t s) hlen
  exact ⟨_, exec_speedMonitorBroken t hoff hdom ht, congrArg Monitor.valid hshown,
    (monitorShows_addsNone (s := beginAt t s) (x := silentReading mon s) hvalid).old, (monitorShows_keeps ..).onlySince⟩

end Window

/-- Settles O12: each clause is the lemma on its window or its period. -/
theorem monitorsAndGovernor : Obligations.MonitorsAndGovernor := by
  refine ⟨fun t mon count s hoff hdom hmon _ hfloor htop hvalid =>
      speedMonitorWindow_recorded t hoff hdom hmon hfloor htop hvalid,
    fun t mon count s hoff hsd hdom _ hlow h1 h2 => ?_,
    fun t s => governorPeriod_throttle_step t, fun t s => governorPeriod_throttle_duty t, fun t s => governorPeriod_duty t,
    fun t s => governorPeriod_disabled t, fun t s => governorPeriod_infinite t⟩
  have hindex : windowIndex mon count s = 4096 * count / max 1 (s.otp.slowCount.getD mon 4096) :=
    Nat.min_eq_right (by omega)
  exact speedMonitorWindow_shutdown t hoff hdom hsd hlow (hindex ▸ indexValid_of_bounds h1 (by omega)) (hindex ▸ h2)

/-- Settles O13: by the index of a window, and by silence. -/
theorem monitorsBreakAndReturn : Obligations.MonitorsBreakAndReturn := by
  refine ⟨fun t mon count i s hoff hdom hlen hi => ?_, fun t mon s hoff hdom hlen ht =>
    ⟨speedMonitorBroken_breaks t hoff hdom hlen ht, speedMonitorBroken_stays_broken t hoff hdom hlen ht⟩⟩
  subst hi
  exact ⟨speedMonitorWindow_breaks t hoff hdom hlen, speedMonitorWindow_stays_broken t hoff hdom hlen,
    speedMonitorWindow_returns t hoff hdom hlen⟩

/-! ### One entry of a group after it is modified -/

theorem getD_modify {α : Type} (l : List α) (i j : Nat) (f : α → α) (d : α) :
    (l.modify i f).getD j d = if i = j ∧ i < l.length then f (l.getD j d) else l.getD j d := by
  simp only [List.getD_eq_getElem?_getD, List.getElem?_modify]
  by_cases hij : i = j
  · subst hij
    by_cases hi : i < l.length <;> simp [hi]
  · simp [hij]

theorem barOf_modBar {b : Nat} (f : Bar → Bar) {s : State} (h : b < s.fire.bars.length) :
    barOf (modBar b f s) b = f (barOf s b) := by
  simp only [barOf, modBar_fire_bars, getD_modify, h, and_self, if_true]

theorem barOf_modBar_other {b c : Nat} (f : Bar → Bar) (s : State) (h : c ≠ b) : barOf (modBar b f s) c = barOf s c := by
  simp only [barOf, modBar_fire_bars, getD_modify, h.symm, false_and, if_false]

theorem laneOf_modLane {g : Nat} (f : FireLane → FireLane) {s : State} (h : g < s.fire.lanes.length) :
    laneOf (modLane g f s) g = f (laneOf s g) := by
  simp only [laneOf, modLane_fire_lanes, getD_modify, h, and_self, if_true]

theorem laneOf_modLane_other {g h : Nat} (f : FireLane → FireLane) (s : State) (hg : h ≠ g) :
    laneOf (modLane g f s) h = laneOf s h := by
  simp only [laneOf, modLane_fire_lanes, getD_modify, hg.symm, false_and, if_false]

theorem camOf_modCam {c : Nat} (f : Cam → Cam) {s : State} (h : c < s.cams.length) :
    camOf (modCam c f s) c = f (camOf s c) := by
  simp only [camOf, modCam_cams, getD_modify, h, and_self, if_true]

theorem axisOf_modAxis {a : Nat} (f : Axis → Axis) {s : State} (h : a < s.axes.length) :
    axisOf (modAxis a f s) a = f (axisOf s a) := by
  simp only [axisOf, modAxis_axes, getD_modify, h, and_self, if_true]

theorem axisOf_modAxis_other {a b : Nat} (f : Axis → Axis) (s : State) (h : b ≠ a) :
    axisOf (modAxis a f s) b = axisOf s b := by
  simp only [axisOf, modAxis_axes, getD_modify, h.symm, false_and, if_false]

/-! ### A token in its turn, ahead of it, and a gap that stands (R507, R510) -/

/-- The state in which a token of this moment takes effect: its number is passed. -/
def atToken (t : Nat) (s : State) : State :=
  { beginAt t s with pair := { s.pair with tokenSeq := wrapInc 32 s.pair.tokenSeq, tokenAny := true } }

/-- No token has come ahead of its turn: no gap stands. -/
def gapClosed (s : State) : State := { s with pair := { s.pair with gapSince := none } }

theorem atToken_keeps (t : Nat) (s : State) : Keeps [.pair] (beginAt t s) (atToken t s) := set_pair_keeps (beginAt t s) _

/-- Where a token's effect leaves the pair alone, nothing that came ahead follows it. -/
theorem takeToken_of_turn {t q kind : Nat} {body : List Byte} {s : State} (h : TokenTurn s q)
    (hpair : (applyToken kind body (atToken t s)).pair = (atToken t s).pair) :
    takeToken kind q body (beginAt t s) = gapClosed (applyToken kind body (atToken t s)) := by
  obtain ⟨hf, rfl, hahead⟩ := h
  have hd : (s.pair.tokenSeq + 2 ^ 32 - s.pair.tokenSeq) % 2 ^ 32 = 0 := by simp
  have hnone : (applyToken kind body (atToken t s)).pair.tokensAhead = [] := by rw [hpair]; exact hahead
  have hstart : takeToken kind s.pair.tokenSeq body (beginAt t s) = applyAhead
      ((applyToken kind body (atToken t s)).pair.tokensAhead.length + 1) (applyToken kind body (atToken t s)) := by
    have hgo : ¬ (!follows (beginAt t s) ||
        2 ^ 31 ≤ (s.pair.tokenSeq + 2 ^ 32 - (beginAt t s).pair.tokenSeq) % 2 ^ 32) = true := by
      rw [beginAt_pair, hd, show follows (beginAt t s) = true from hf]
      decide
    exact (if_neg hgo).trans (if_pos hd)
  rw [hstart, applyAhead, hnone]
  exact if_pos (by rw [hnone]; rfl)

/-- A token whose turn has come takes effect, and its number is passed. -/
theorem token_completes {t q kind : Nat} {body : List Byte} {c : Instr} {s : State} {v w : List Group} (h : TokenTurn s q)
    (hexec : exec c s = .next (takeToken kind q body (beginAt t s)))
    (hv : Keeps v (atToken t s) (applyToken kind body (atToken t s))) (hpair : Group.pair ∉ v := by decide)
    (hw : [.clock, .pair] ++ v ⊆ w := by decide) :
    Completes c s fun n => n = gapClosed (applyToken kind body (atToken t s)) ∧ n.pair.tokenSeq = wrapInc 32 q ∧ Only w s n := by
  have hsame := hv.pair_eq hpair
  rw [takeToken_of_turn h hsame] at hexec
  refine ⟨_, hexec, rfl, ?_, ?_⟩
  · rw [← h.2.1]
    exact congrArg Pair.tokenSeq hsame
  · have heffect : Keeps ([.pair] ++ v) (beginAt t s) (applyToken kind body (atToken t s)) :=
      ((atToken_keeps t s).mono (by simp)).then hv (List.subset_append_right _ _)
    exact (heffect.then (set_pair_keeps ..) (by simp)).onlySince hw

/-- A following module sends no token. -/
theorem sendToken_of_follows {s : State} (h : follows s = true) (kind : Nat) (body : List Byte) : sendToken kind body s = s := by
  refine if_neg fun hactive => ?_
  simp [follows, hactive] at h

/-! ### GOVERNOR (R42, R47 to R49) -/

theorem applyGovernorToken_of_held {k : Nat} {s : State} (h : takesSteps s = false) : applyGovernorToken k s = s :=
  if_pos (by simp [h])

theorem applyGovernorToken_of_throttle {k : Nat} {s : State} (h : takesSteps s = true) (hthr : s.thermal.throttle = true)
    (hk : s.gov.step < k) (ho : s.gov.overridden = false) :
    applyGovernorToken k s = raise 0x0133 [] { s with gov := { s.gov with overridden := true } } := by
  unfold applyGovernorToken
  rw [if_neg (by simp [h]), if_pos (by simp [hthr, hk]), if_neg (by simp [ho])]

theorem applyGovernorToken_of_step {k : Nat} {s : State} (h : takesSteps s = true) (hthr : s.thermal.throttle = false) :
    applyGovernorToken k s = setStep (min 12 k) s := by
  unfold applyGovernorToken
  rw [if_neg (by simp [h]), if_neg (by simp [hthr])]

theorem setStep_keeps_of_follows {s : State} (h : follows s = true) (k : Nat) : Keeps [.gov] s (setStep k s) := by
  refine Keeps.ite (fun _ => Keeps.refl _ _) (fun _ => ?_)
  dsimp only
  rw [sendToken_of_follows (by exact h)]
  exact set_gov_keeps ..

theorem takesSteps_atToken (t : Nat) {s : State} (hrun : s.gov.running = true)
    (hen : cfgN s Fld.render_governor_enable 0 ≠ 0) : takesSteps (atToken t s) = true :=
  show takesSteps s = true by simp [takesSteps, hrun, hen]

section Governor
variable (t q : Nat) (body : List Byte) {s : State} (h : TokenTurn s q)
include h

/-- The module's own throttle holds its step below the token's: the event once (R49). -/
theorem tokenGovernor_overridden (hrun : s.gov.running = true) (hen : cfgN s Fld.render_governor_enable 0 ≠ 0)
    (hthr : s.thermal.throttle = true) (hk : s.gov.step < fld body 0 1) (ho : s.gov.overridden = false) :
    Completes (.tokenGovernor t q body) s fun n =>
      n.gov = { s.gov with overridden := true } ∧ RaisedNext s 0x0133 [] n ∧ n.pair.tokenSeq = wrapInc 32 q ∧
      Only [.clock, .gov, .pair, .log, .net] s n := by
  let s1 := atToken t s
  have happly : applyToken 4 body s1 = raise 0x0133 [] { s1 with gov := { s1.gov with overridden := true } } :=
    applyGovernorToken_of_throttle (takesSteps_atToken t hrun hen) hthr hk ho
  have hkeeps : Keeps [.gov, .log, .net] s1 (applyToken 4 body s1) := by
    rw [happly]
    exact ((set_gov_keeps ..).mono (by decide)).then (raise_keeps ..) (by decide)
  obtain ⟨n, hexec, hn, hseq, honly⟩ := token_completes (w := [.clock, .gov, .pair, .log, .net]) h
    (c := .tokenGovernor t q body) rfl hkeeps
  rw [happly] at hn
  subst hn
  exact ⟨_, hexec, (raise_keeps ..).gov_eq,
    raisedNext_of_raise (s := { s1 with gov := { s1.gov with overridden := true } }) rfl (AddsAtMost.of_log_eq rfl), hseq, honly⟩

/-- Without a throttle the step is the token's (R48). -/
theorem tokenGovernor_step (hrun : s.gov.running = true) (hen : cfgN s Fld.render_governor_enable 0 ≠ 0)
    (hthr : s.thermal.throttle = false) : Completes (.tokenGovernor t q body) s fun n =>
      n.gov.step = min 12 (fld body 0 1) ∧ n.pair.tokenSeq = wrapInc 32 q := by
  have happly : applyToken 4 body (atToken t s) = setStep (min 12 (fld body 0 1)) (atToken t s) :=
    applyGovernorToken_of_step (takesSteps_atToken t hrun hen) hthr
  have hkeeps := setStep_keeps_of_follows (s := atToken t s) h.1 (min 12 (fld body 0 1))
  rw [← happly] at hkeeps
  obtain ⟨n, hexec, hn, hseq, -⟩ := token_completes (w := [.clock, .gov, .pair]) h (c := .tokenGovernor t q body) rfl hkeeps
  rw [happly] at hn
  exact ⟨n, hexec, hn ▸ setStep_step .., hseq⟩

/-- A governor that has not started or is disabled does not take the token (R42, R47). -/
theorem tokenGovernor_held (hheld : s.gov.running = false ∨ cfgN s Fld.render_governor_enable 0 = 0) :
    Completes (.tokenGovernor t q body) s fun n =>
      n.gov = s.gov ∧ n.pair.tokenSeq = wrapInc 32 q ∧ Only [.clock, .pair] s n := by
  have hsteps : takesSteps (atToken t s) = false := show takesSteps s = false by
    rcases hheld with hrun | hen
    · simp [takesSteps, hrun]
    · simp [takesSteps, hen]
  have happly : applyToken 4 body (atToken t s) = atToken t s := applyGovernorToken_of_held hsteps
  obtain ⟨n, hexec, hn, hseq, honly⟩ := token_completes (v := []) (w := [.clock, .pair]) h (c := .tokenGovernor t q body) rfl
    (happly.symm ▸ Keeps.refl [] _)
  rw [happly] at hn
  exact ⟨n, hexec, hn ▸ rfl, hseq, honly⟩

end Governor

/-! ### TAP, BAR and CAMERA (R322, R380, R410, R633) -/

theorem putValue_reg (b n : Nat) (v : List Int) (s : State) :
    putValue ⟨4, b, n⟩ v s = modValues (fun q => { q with reg := q.reg.set b (v.headD 0) }) s := by
  simp [putValue]

/-- A registration value in force: it stands in its place, and no other correction value has changed (R410). -/
theorem installValue_reg (b n : Nat) (v : List Int) (s : State) :
    Keeps [.cal] s (installValue ⟨4, b, n⟩ v s) ∧
    (installValue ⟨4, b, n⟩ v s).cal.values.reg = s.cal.values.reg.set b (v.headD 0) ∧
    (installValue ⟨4, b, n⟩ v s).cal.values.taps = s.cal.values.taps := by
  let e : Element := ⟨4, b, n⟩
  let s1 := dropHeld e (raiseVersion e (modValues (fun q => { q with reg := q.reg.set b (v.headD 0) }) s))
  have hinstall : installValue e v s = { s1 with cal := { s1.cal with changed := true } } := by
    unfold installValue
    rw [putValue_reg]
    exact if_pos (by simp [e])
  rw [hinstall]
  have hkeeps : Keeps [.cal] s s1 := ((modValues_keeps ..).then (raiseVersion_keeps ..) (by decide)).then (dropHeld_keeps ..) (by decide)
  exact ⟨hkeeps.then (set_cal_keeps ..) (by decide), rfl, rfl⟩

/-- Outside a run no slew is needed: an accepted registration value is in force at once (R412). -/
theorem applyTap_reg_of_unarmed (b n : Nat) (v : List Int) {s : State} (h : s.jobs.armed = none) :
    applyTap ⟨4, b, n⟩ v s = installValue ⟨4, b, n⟩ v s := by
  simp [applyTap, slewsValues, h]

/-- A bar as a pause leaves it (R316). -/
def pausedBar (x : Bar) : Bar := { x with paused := true }

/-- On a following module a pause changes its bar only (R322). -/
theorem putPause_of_follows {s : State} (h : follows s = true) (b : Nat) : putPause b true s = modBar b pausedBar s :=
  congrArg (modBar b pausedBar) (sendToken_of_follows h _ _)

/-- The command that a CAMERA token brings (*Table: Decision tokens*, R380). -/
def tokenCommand (body : List Byte) (now : Nat) : CamCommand :=
  { gen := fld body 1 2, exposure := fld body 3 4, gain := fld body 7 2, writtenAt := now, commit := none
    acked := false, failed := false }

section TapBarCamera
variable (t q : Nat) (body : List Byte) {s : State} (h : TokenTurn s q)
include h

/-- TAP with a registration value, no run armed (R410). -/
theorem tokenTap_reg (hkind : tapKind body = 4) (hrun : s.jobs.armed = none) :
    Completes (.tokenTap t q body) s fun n =>
      n.cal.values.reg = s.cal.values.reg.set (tapBar body) (sfld body 10 4) ∧ n.cal.values.taps = s.cal.values.taps ∧
      n.pair.tokenSeq = wrapInc 32 q ∧ Only [.clock, .cal, .pair] s n := by
  let e : Element := ⟨4, tapBar body, tapElement body⟩
  let v := installValue e [sfld body 10 4] (atToken t s)
  have happly : applyToken 5 body (atToken t s) = answerRunNow e true v := by
    show tapByToken body (atToken t s) = _
    simp only [tapByToken, hkind]
    exact congrArg (answerRunNow e true) (applyTap_reg_of_unarmed _ _ _ hrun)
  obtain ⟨hv, hreg, htaps⟩ := installValue_reg (tapBar body) (tapElement body) [sfld body 10 4] (atToken t s)
  have hkeeps : Keeps [.cal] (atToken t s) (applyToken 5 body (atToken t s)) := by
    rw [happly]
    exact hv.then (answerRunNow_keeps ..) (List.Subset.refl _)
  obtain ⟨n, hexec, hn, hseq, honly⟩ := token_completes (w := [.clock, .cal, .pair]) h (c := .tokenTap t q body) rfl hkeeps
  rw [happly] at hn
  exact ⟨n, hexec, hn ▸ hreg, hn ▸ htaps, hseq, honly⟩

/-- The changeover to the re-rendered cycle (R633). -/
theorem tokenChangeover_done (hkind : tapKind body = 0xFF) :
    Completes (.tokenChangeover t q body) s fun n =>
      n.cal.rerendering = false ∧ n.cal.values = s.cal.values ∧ n.pair.tokenSeq = wrapInc 32 q ∧ Only [.clock, .cal, .pair] s n := by
  have happly : applyToken 5 body (atToken t s) = changeover (atToken t s) := if_pos hkind
  have hkeeps := changeover_keeps (atToken t s)
  rw [← happly] at hkeeps
  obtain ⟨n, hexec, hn, hseq, honly⟩ := token_completes (w := [.clock, .cal, .pair]) h (c := .tokenChangeover t q body)
    (congrArg Host.Outcome.next (if_pos hkind)) hkeeps
  rw [happly] at hn
  exact ⟨n, hexec, hn ▸ rfl, hn ▸ rfl, hseq, honly⟩

/-- BAR with a pause (R322). -/
theorem tokenBar_pause (hact : barAction body = 1) (hbar : barNumber body < s.fire.bars.length) :
    Completes (.tokenBar t q body) s fun n =>
      barOf n (barNumber body) = { barOf s (barNumber body) with paused := true } ∧
      (∀ b, b ≠ barNumber body → barOf n b = barOf s b) ∧ n.pair.tokenSeq = wrapInc 32 q ∧ Only [.clock, .fire, .pair] s n := by
  have happly : applyToken 8 body (atToken t s) = modBar (barNumber body) pausedBar (atToken t s) := by
    show barByToken body (atToken t s) = _
    simp only [barByToken, hact]
    exact putPause_of_follows (s := atToken t s) h.1 _
  have hkeeps := modBar_keeps (barNumber body) pausedBar (atToken t s)
  rw [← happly] at hkeeps
  obtain ⟨n, hexec, hn, hseq, honly⟩ := token_completes (w := [.clock, .fire, .pair]) h (c := .tokenBar t q body) rfl hkeeps
  rw [happly] at hn
  exact ⟨n, hexec, hn ▸ barOf_modBar pausedBar (s := atToken t s) hbar,
    fun b hb => hn ▸ barOf_modBar_other pausedBar (atToken t s) hb, hseq, honly⟩

/-- CAMERA with a command for a camera that is cabled here and READY (R380). -/
theorem tokenCamera_issued (hcam : fld body 0 1 < s.cams.length) (hready : (camOf s (fld body 0 1)).state = .ready) :
    Completes (.tokenCamera t q body) s fun n =>
      (camOf n (fld body 0 1)).commands = (camOf s (fld body 0 1)).commands ++
        [{ gen := fld body 1 2, exposure := fld body 3 4, gain := fld body 7 2, writtenAt := n.now, commit := none
           acked := false, failed := false }] ∧
      (camOf n (fld body 0 1)).nextGen = (fld body 1 2 + 1) % 65536 ∧ n.pair.tokenSeq = wrapInc 32 q ∧
      Only [.clock, .cams, .pair] s n := by
  let s1 := atToken t s
  let taken := genTaken (fld body 0 1) (fld body 1 2) s1
  let k := tokenCommand body s1.now
  have happly : applyToken 9 body s1 = modCam (fld body 0 1) (fun x => { x with commands := x.commands ++ [k] }) taken :=
    if_neg (not_not.mpr hready)
  have hlen : fld body 0 1 < taken.cams.length := by simpa [taken, genTaken, s1, atToken] using hcam
  have hcam1 : camOf taken (fld body 0 1) = { camOf s (fld body 0 1) with nextGen := (fld body 1 2 + 1) % 65536 } :=
    camOf_modCam _ (s := s1) hcam
  obtain ⟨n, hexec, hn, hseq, honly⟩ := token_completes (w := [.clock, .cams, .pair]) h (c := .tokenCamera t q body) rfl
    (issueCommand_keeps ..)
  have hcam2 : camOf n (fld body 0 1) = { camOf taken (fld body 0 1) with
      commands := (camOf taken (fld body 0 1)).commands ++ [k] } := by
    rw [hn, happly]
    exact camOf_modCam _ hlen
  have hnow : n.now = s1.now := by rw [hn, happly]; rfl
  rw [hcam1] at hcam2
  exact ⟨n, hexec, hnow ▸ congrArg Cam.commands hcam2, congrArg Cam.nextGen hcam2, hseq, honly⟩

end TapBarCamera

/-! ### AXIS (R464) -/

/-- On a following module a result waits for the RESULT token: no token is sent (R508). -/
theorem finishResult_keeps_of_follows {s : State} (h : follows s = true) (ticket : Nat) (body : List Byte) :
    Keeps [.net] s (finishResult ticket body s) := by
  unfold finishResult
  split
  · exact Keeps.refl _ _
  · dsimp only
    rw [if_pos (show follows _ = true from h)]
    exact Keeps.ite (fun _ => (set_net_keeps ..).then (settleResult_keeps ..) (by decide)) fun _ => set_net_keeps ..

/-- The motion of axis `a` is in `n` in the state and with the stop cause of `s`, and every other axis is as it was. -/
structure AxisStands (a : Nat) (s n : State) : Prop where
  state : (axisOf n a).state = (axisOf s a).state
  stopCause : (axisOf n a).stopCause = (axisOf s a).stopCause
  others : ∀ b, b ≠ a → axisOf n b = axisOf s b

theorem AxisStands.of_axes_eq {a : Nat} {s n : State} (h : n.axes = s.axes) : AxisStands a s n := by
  have haxis (b : Nat) : axisOf n b = axisOf s b := by rw [axisOf, axisOf, h]
  exact ⟨by rw [haxis], by rw [haxis], fun b _ => haxis b⟩

theorem AxisStands.trans {a : Nat} {s m n : State} (h1 : AxisStands a s m) (h2 : AxisStands a m n) : AxisStands a s n :=
  ⟨h2.state.trans h1.state, h2.stopCause.trans h1.stopCause, fun b hb => (h2.others b hb).trans (h1.others b hb)⟩

theorem modAxis_stands {a : Nat} {f : Axis → Axis} (hstate : ∀ x, (f x).state = x.state)
    (hcause : ∀ x, (f x).stopCause = x.stopCause) (s : State) : AxisStands a s (modAxis a f s) := by
  by_cases ha : a < s.axes.length
  · exact ⟨by rw [axisOf_modAxis f ha, hstate], by rw [axisOf_modAxis f ha, hcause],
      fun b hb => axisOf_modAxis_other f s hb⟩
  · exact .of_axes_eq (List.modify_eq_self (Nat.le_of_not_lt ha))

/-- A request ends on a following module: its axis and the results change. -/
theorem endReq_of_follows {s : State} (h : follows s = true) (a outcome : Nat) :
    Keeps [.net, .axes] s (endReq a outcome s) ∧ AxisStands a s (endReq a outcome s) := by
  unfold endReq
  dsimp only
  split
  · exact ⟨Keeps.refl _ _, .of_axes_eq rfl⟩
  · rename_i r _
    let s1 := modAxis a (fun y => { y with req := none }) s
    have hmod : AxisStands a s s1 := modAxis_stands (by intro; rfl) (by intro; rfl) s
    have hfinish := finishResult_keeps_of_follows (s := s1) h r.ticket
    exact ⟨((modAxis_keeps ..).mono (by decide)).then (hfinish _) (by decide), hmod.trans (.of_axes_eq (hfinish _).axes_eq)⟩

/-- A gear change ends on a following module: its axis, its auxiliary channel and the results change. -/
theorem endChange_of_follows {s : State} (h : follows s = true) (a outcome : Nat) :
    Keeps [.net, .pos, .axes] s (endChange a outcome s) ∧ AxisStands a s (endChange a outcome s) := by
  unfold endChange
  split
  · exact ⟨Keeps.refl _ _, .of_axes_eq rfl⟩
  · rename_i c _
    let s1 := modAxis a (fun y => { y with change := none }) s
    have hmod : AxisStands a s s1 := modAxis_stands (by intro; rfl) (by intro; rfl) s
    have hdrop := dropAux_keeps (auxOfAxis a) s1
    have hfinish := finishResult_keeps_of_follows (s := dropAux (auxOfAxis a) s1) h c.ticket
    exact ⟨(((modAxis_keeps ..).mono (by decide)).then hdrop (by decide)).then (hfinish _) (by decide),
      (hmod.trans (.of_axes_eq hdrop.axes_eq)).trans (.of_axes_eq (hfinish _).axes_eq)⟩

/-- What an emergency stop makes of an axis (R451). -/
def stopping (cause : Nat) (x : Axis) : Axis :=
  { x with
    state := .stopping, stopCause := cause, jog := none, home := none, gear := none, latchDue := none
    stopDue := none, track := [], estops := wrapInc 16 x.estops }

/-- An emergency stop on a following module: the axis brakes for this cause, no other axis changes (R451, R464). -/
theorem axisEstop_of_follows {s : State} (h : follows s = true) {a cause : Nat} (hoff : (axisOf s a).state ≠ .off)
    (hfault : (axisOf s a).state ≠ .fault) :
    Keeps [.net, .pos, .axes] s (axisEstop a cause s) ∧ AxisStands a (modAxis a (stopping cause) s) (axisEstop a cause s) := by
  let s1 := modAxis a (stopping cause) s
  have hestop : axisEstop a cause s = endChange a moveEstopped (endReq a moveEstopped s1) := if_neg (by simp [hoff, hfault])
  obtain ⟨hreq, hreqStands⟩ := endReq_of_follows (s := s1) h a moveEstopped
  have hf : follows (endReq a moveEstopped s1) = true := by
    rw [follows, hreq.pair_eq]
    exact h
  obtain ⟨hchange, hchangeStands⟩ := endChange_of_follows hf a moveEstopped
  rw [hestop]
  exact ⟨(((modAxis_keeps ..).mono (by decide)).then hreq (by decide)).then hchange (by decide),
    hreqStands.trans hchangeStands⟩

/-- An ESTOP's request, where it waited for the token, is in progress: the axis goes on as it did. -/
theorem takeEstopReq_stands (a : Nat) (s : State) : AxisStands a s (takeEstopReq a s) := by
  unfold takeEstopReq
  split
  · have hmod : AxisStands a s (modAxis a (fun x => { x with estopReq := none }) s) :=
      modAxis_stands (by intro; rfl) (by intro; rfl) s
    exact hmod.trans (modAxis_stands (by intro; rfl) (by intro; rfl) _)
  · exact .of_axes_eq rfl

theorem estopByToken_of_follows {s : State} (h : follows s = true) {a cause : Nat} (hoff : (axisOf s a).state ≠ .off)
    (hfault : (axisOf s a).state ≠ .fault) :
    Keeps [.net, .pos, .axes] s (estopByToken a cause s) ∧ AxisStands a (modAxis a (stopping cause) s) (estopByToken a cause s) := by
  obtain ⟨hkeeps, hstands⟩ := axisEstop_of_follows (cause := cause) h hoff hfault
  unfold estopByToken
  split
  · exact ⟨hkeeps.then (takeEstopReq_keeps ..) (by decide), hstands.trans (takeEstopReq_stands ..)⟩
  · exact ⟨hkeeps, hstands⟩

/-- AXIS with an emergency stop (R464). -/
theorem tokenAxis_estop (t q : Nat) (body : List Byte) {s : State} (h : TokenTurn s q) (ha : fld body 0 1 < s.axes.length)
    (hkind : fld body 1 1 = 1) (hoff : (axisOf s (fld body 0 1)).state ≠ .off) (hfault : (axisOf s (fld body 0 1)).state ≠ .fault) :
    Completes (.tokenAxis t q body) s fun n =>
      (axisOf n (fld body 0 1)).state = .stopping ∧ (axisOf n (fld body 0 1)).stopCause = (sfld body 2 8).toNat ∧
      (∀ a, a ≠ fld body 0 1 → axisOf n a = axisOf s a) ∧ n.pair.tokenSeq = wrapInc 32 q ∧
      Only [.clock, .axes, .pos, .net, .pair] s n := by
  let cause := (sfld body 2 8).toNat
  have happly : applyToken 0x0A body (atToken t s) = estopByToken (fld body 0 1) cause (atToken t s) := by
    show axisByToken body (atToken t s) = _
    simp only [axisByToken, hkind]
    rfl
  obtain ⟨hkeeps, hstands⟩ := estopByToken_of_follows (s := atToken t s) (cause := cause) h.1 hoff hfault
  rw [← happly] at hkeeps hstands
  obtain ⟨n, hexec, hn, hseq, honly⟩ := token_completes (w := [.clock, .axes, .pos, .net, .pair]) h
    (c := .tokenAxis t q body) rfl hkeeps
  have hbrakes := axisOf_modAxis (stopping cause) (s := atToken t s) ha
  have hall : AxisStands (fld body 0 1) (modAxis (fld body 0 1) (stopping cause) (atToken t s)) n :=
    hn ▸ hstands.trans (.of_axes_eq rfl)
  exact ⟨n, hexec, hall.state.trans (congrArg Axis.state hbrakes), hall.stopCause.trans (congrArg Axis.stopCause hbrakes),
    fun b hb => (hall.others b hb).trans (axisOf_modAxis_other _ (atToken t s) hb), hseq, honly⟩

/-! ### A token ahead of its turn, and a gap that stands (R507, R510) -/

/-- A gap that is new is asked for (R507). -/
theorem askGap_of_new {d : Nat} {s : State} (hd : nearestAhead s = d) (hahead : s.pair.tokensAhead ≠ [])
    (hgap : s.pair.gapSince = none) : askGap s = askAgain 2 s.pair.tokenSeq d { s with pair := { s.pair with
      gapSince := some s.now, gapEnd := (s.pair.tokenSeq + d) % 2 ^ 32 } } := by
  subst hd
  exact (if_neg (by simpa using hahead)).trans (if_neg (by simp [hgap]))

/-- A token that comes ahead is kept, and the tokens before it are asked for (R507). -/
theorem tokenBar_ahead (t q : Nat) (body : List Byte) {s : State} (hf : follows s = true) (hq : q < 2 ^ 32)
    (hlow : s.pair.tokenSeq < q) (hhigh : q < s.pair.tokenSeq + 2 ^ 31) (hahead : s.pair.tokensAhead = [])
    (hgap : s.pair.gapSince = none) : Completes (.tokenBar t q body) s fun n =>
      n.pair = { s.pair with tokensAhead := [⟨q, 0x08, body⟩], gapSince := some n.now, gapEnd := q
                             frameSeq := wrapInc 16 s.pair.frameSeq } ∧
      n.sent.map partnerOut = [some (4, resendBytes 2 s.pair.tokenSeq (q - s.pair.tokenSeq))] ∧ Only [.clock, .pair] s n := by
  let s1 := beginAt t s
  let kept : State := { s1 with pair := { s.pair with tokensAhead := [⟨q, 0x08, body⟩] } }
  let asked : State := { kept with pair := { kept.pair with gapSince := some kept.now, gapEnd := q } }
  have hd : (q + 2 ^ 32 - s.pair.tokenSeq) % 2 ^ 32 = q - s.pair.tokenSeq := by omega
  have hnear : nearestAhead kept = q - s.pair.tokenSeq := by
    simp only [nearestAhead, kept, List.map_cons, List.map_nil, List.foldl_cons, List.foldl_nil, hd]
    omega
  have hstop : (s.pair.tokenSeq + (q - s.pair.tokenSeq)) % 2 ^ 32 = q := by omega
  have hask : askGap kept = askAgain 2 s.pair.tokenSeq (q - s.pair.tokenSeq) asked := by
    rw [askGap_of_new hnear (by simp [kept]) hgap, show kept.pair.tokenSeq = s.pair.tokenSeq from rfl, hstop]
  have htake : takeToken 0x08 q body s1 = askGap kept := by
    unfold takeToken
    rw [beginAt_pair, hd, hahead, hgap, show follows s1 = true from hf, if_neg (by simp; omega), if_neg (by omega)]
    exact (if_neg (by simp)).trans (if_neg (by simp))
  have hexec : exec (.tokenBar t q body) s = .next (askGap kept) := congrArg Host.Outcome.next htake
  rw [hask] at hexec
  refine ⟨_, hexec, rfl, rfl, ?_⟩
  have hkept : Keeps [.pair] s1 kept := set_pair_keeps s1 _
  exact ((hkept.then (set_pair_keeps ..) (by decide)).then (askAgain_keeps ..) (by decide)).onlySince

theorem setPairState_state (st : PairState) (s : State) : (setPairState st s).pair.state = st := by
  unfold setPairState
  split
  · assumption
  · exact congrArg Pair.state (raise_keeps ..).pair_eq

theorem enterSevered_raised (cause : Nat) (s : State) : Raised 0x0E13 (leBytes 1 cause) (enterSevered cause s) :=
  raised_of_raise (s := setPairState .severed s) (k := 0) (.of_log_eq rfl)

theorem enterSevered_pair (cause : Nat) (s : State) :
    (enterSevered cause s).pair.state = .severed ∧ (enterSevered cause s).pair.severCause = cause :=
  ⟨(congrArg Pair.state (raise_keeps ..).pair_eq).trans (setPairState_state .severed s), rfl⟩

/-- A gap that has stood for 1 ms severs a following module (R510). -/
theorem tokenGapTimeout_severs (t d : Nat) {s : State} (hf : follows s = true) (hgap : s.pair.gapSince = some d)
    (ht : d + msT 1 ≤ t) : Completes (.tokenGapTimeout t) s fun n =>
      n.pair.state = .severed ∧ n.pair.severCause = 4 ∧ Raised 0x0E13 (leBytes 1 4) n ∧
      Only [.clock, .pair, .cal, .log, .net] s n := by
  have hdue : ((beginAt t s).pair.gapSince.any fun d => d + msT 1 ≤ (beginAt t s).now) = true := by
    rw [beginAt_pair, hgap, beginAt_now, Option.any_some]
    exact decide_eq_true (Nat.le_trans ht (Nat.le_max_right ..))
  have hexec : exec (.tokenGapTimeout t) s = .next (enterSevered 4 (beginAt t s)) :=
    congrArg Host.Outcome.next ((if_pos hdue).trans (if_pos hf))
  obtain ⟨hstate, hcause⟩ := enterSevered_pair 4 (beginAt t s)
  exact ⟨_, hexec, hstate, hcause, enterSevered_raised .., (enterSevered_keeps ..).onlySince⟩

/-- Settles O60: each clause is the lemma on its token. -/
theorem tokensCarryValues : Obligations.TokensCarryValues :=
  ⟨fun t q body _ h => tokenGovernor_overridden t q body h, fun t q body _ h => tokenGovernor_step t q body h,
   fun t q body _ h => tokenGovernor_held t q body h, fun t q body _ h hkind hrun _ => tokenTap_reg t q body h hkind hrun,
   fun t q body _ h => tokenChangeover_done t q body h, fun t q body _ h => tokenBar_pause t q body h,
   fun t q body _ h => tokenCamera_issued t q body h, fun t q body _ h => tokenAxis_estop t q body h,
   fun t q body _ hf _ hq => tokenBar_ahead t q body hf hq, fun t d _ => tokenGapTimeout_severs t d⟩

/-! ### What is put out stays put out (assumption 3) -/

theorem emit_sends (o : Out) (s : State) : s.sent ⊆ (emit o s).sent := List.subset_append_left _ _

theorem forEach_sends {α : Type} {f : α → State → State} (hf : ∀ x s, s.sent ⊆ (f x s).sent) (l : List α) (s : State) :
    s.sent ⊆ (forEach l f s).sent := by
  induction l generalizing s with
  | nil => exact List.Subset.refl _
  | cons x l ih => exact List.Subset.trans (hf x s) (ih _)

theorem emitTo_sends (port addr : Nat) (o : Out) (s : State) : s.sent ⊆ (emitTo port addr o s).sent := by
  unfold emitTo
  split
  · exact emit_sends ..
  · exact List.Subset.trans (emit_sends (.resolve port addr) s) (List.subset_append_left _ _)

theorem sendOwn_sends (i type : Nat) (payload : List Byte) (s : State) : s.sent ⊆ (sendOwn i type payload s).sent := by
  unfold sendOwn sendOn
  dsimp only
  split
  · exact List.Subset.refl _
  · split
    · exact emitTo_sends _ _ _ (modSession i _ s)
    · exact List.Subset.refl _

theorem raise_sends (code : Nat) (detail : List Byte) (s : State) : s.sent ⊆ (raise code detail s).sent := by
  unfold raise raiseAt
  exact fun _ ho => forEach_sends (fun i s => sendOwn_sends i 0x45 _ s) _ _ ho

theorem sendToken_sends (kind : Nat) (body : List Byte) (s : State) : s.sent ⊆ (sendToken kind body s).sent := by
  unfold sendToken
  split
  · exact List.subset_append_left _ _
  · exact List.Subset.refl _

/-! ### Slots by number -/

theorem slotOf_num {n : Nat} {s : State} {x : Slot} (h : slotOf s n = some x) : x.num = n := by
  obtain ⟨a, -, hfind⟩ := Option.bind_eq_some_iff.mp h
  simpa using List.find?_some hfind

theorem slotOf_modSlot {n : Nat} {f : Slot → Slot} (hf : ∀ x, (f x).num = x.num) (s : State) :
    slotOf (modSlot n f s) n = (slotOf s n).map f := by
  unfold slotOf
  rw [modSlot_jobs_armed]
  cases s.jobs.armed with
  | none => rfl
  | some a =>
    let g (x : Slot) : Slot := if x.num = n then f x else x
    have hg (x : Slot) : ((g x).num = n) = (x.num = n) := by
      by_cases hx : x.num = n <;> simp [g, hx, hf]
    show (a.slots.map g).find? (fun x => x.num = n) = (a.slots.find? fun x => x.num = n).map f
    rw [List.find?_map]
    simp only [Function.comp_def, hg]
    cases hfind : a.slots.find? fun x => x.num = n with
    | none => rfl
    | some x =>
      have hx : x.num = n := by simpa using List.find?_some hfind
      exact congrArg some (if_pos hx)

theorem slotOf_of_jobs_eq {s m : State} (h : m.jobs = s.jobs) (n : Nat) : slotOf m n = slotOf s n := by
  rw [slotOf, slotOf, h]

/-! ### Damage under the policy that only counts it (R320) -/

/-- The slot keeps that LINE_DAMAGED was raised for this bar and cause (R320). -/
def damageNoted (b cause : Nat) (x : Slot) : Slot := { x with damaged := (b, cause) :: x.damaged }

/-- LINE_DAMAGED of a slot: nothing, or the slot keeps that it was raised, and the event. -/
theorem damageSlot_eq (n b lane cause seq : Nat) (s : State) : damageSlot n b lane cause seq s = s ∨
    ∃ detail, damageSlot n b lane cause seq s =
      raise 0x0513 detail (modSlot n (damageNoted b cause) s) := by
  unfold damageSlot
  split
  · exact .inl rfl
  · exact (ite_eq_or_eq _ _ _).imp_right fun h => ⟨_, h⟩

theorem damageSlot_addsAtMost (n b lane cause seq : Nat) (s : State) : AddsAtMost 1 s (damageSlot n b lane cause seq s) := by
  rcases damageSlot_eq n b lane cause seq s with h | ⟨detail, h⟩ <;> rw [h]
  · exact (AddsAtMost.of_log_eq rfl).mono (Nat.zero_le 1)
  · exact (modSlot_keeps ..).addsNone.raise ..

theorem damageSlot_sends (n b lane cause seq : Nat) (s : State) : s.sent ⊆ (damageSlot n b lane cause seq s).sent := by
  rcases damageSlot_eq n b lane cause seq s with h | ⟨detail, h⟩ <;> rw [h]
  · exact List.Subset.refl _
  · exact raise_sends 0x0513 detail (modSlot n (damageNoted b cause) s)

theorem damageSlot_pages (n b lane cause seq : Nat) (s : State) :
    (damageSlot n b lane cause seq s).jobs.pages = s.jobs.pages := by
  rcases damageSlot_eq n b lane cause seq s with h | ⟨detail, h⟩ <;> rw [h]
  exact (congrArg Jobs.pages (raise_keeps 0x0513 detail (modSlot n (damageNoted b cause) s)).jobs_eq).trans rfl

theorem damageSlot_slot (b lane cause seq : Nat) {n : Nat} {s : State} {x : Slot} (h : slotOf s n = some x) :
    ∃ d, slotOf (damageSlot n b lane cause seq s) n = some { x with damaged := d } := by
  rcases damageSlot_eq n b lane cause seq s with heq | ⟨detail, heq⟩ <;> rw [heq]
  · exact ⟨x.damaged, h⟩
  · refine ⟨(b, cause) :: x.damaged, ?_⟩
    rw [slotOf_of_jobs_eq (raise_keeps ..).jobs_eq, slotOf_modSlot (f := damageNoted b cause) (fun _ => rfl), h]
    rfl

section OwnDamage
variable (b lane cause seq : Nat) (slots : List Nat) {s : State} (h : cfgN s Fld.firing_damage_policy 0 = 0)
include h

/-- Without HALT_BAR damage that this module finds is told to the partner and raised, and nothing else. -/
theorem ownDamage_of_policy : ownDamage b lane cause seq slots s = s ∨ ownDamage b lane cause seq slots s =
    forEach slots (fun n => damageSlot n b lane cause seq) (barToken b 6 seq cause s) := by
  refine (ite_eq_or_eq _ _ _).imp_right fun heq => heq.trans (if_neg ?_)
  rw [cfgN, (barToken_keeps ..).conf_eq, ← cfgN, h]
  decide

theorem ownDamage_keeps_of_policy : Keeps [.jobs, .log, .net, .pair] s (ownDamage b lane cause seq slots s) := by
  rcases ownDamage_of_policy b lane cause seq slots h with heq | heq <;> rw [heq]
  · exact Keeps.refl _ _
  · exact Keeps.forEach (fun n s => (damageSlot_keeps ..).mono (by decide)) ((barToken_keeps ..).mono (by decide))

theorem ownDamage_addsAtMost : AddsAtMost slots.length s (ownDamage b lane cause seq slots s) := by
  rcases ownDamage_of_policy b lane cause seq slots h with heq | heq <;> rw [heq]
  · exact (AddsAtMost.of_log_eq rfl).mono (Nat.zero_le _)
  · have hslots := forEach_addsAtMost (fun n s => damageSlot_addsAtMost n b lane cause seq s) slots (barToken b 6 seq cause s)
    simpa using (barToken_keeps ..).addsNone.trans hslots

theorem ownDamage_sends : s.sent ⊆ (ownDamage b lane cause seq slots s).sent := by
  rcases ownDamage_of_policy b lane cause seq slots h with heq | heq <;> rw [heq]
  · exact List.Subset.refl _
  · exact List.Subset.trans (sendToken_sends ..) (forEach_sends (fun n s => damageSlot_sends n b lane cause seq s) _ _)

/-- The damage of one slot leaves the pages alone, and changes of the slot what has been raised for it. -/
theorem ownDamage_slot {n : Nat} {x : Slot} (hx : slotOf s n = some x) :
    (ownDamage b lane cause seq [n] s).jobs.pages = s.jobs.pages ∧
    ∃ d, slotOf (ownDamage b lane cause seq [n] s) n = some { x with damaged := d } := by
  rcases ownDamage_of_policy b lane cause seq [n] h with heq | heq <;> rw [heq]
  · exact ⟨rfl, x.damaged, hx⟩
  · have hjobs : (barToken b 6 seq cause s).jobs = s.jobs := (barToken_keeps ..).jobs_eq
    exact ⟨(damageSlot_pages n b lane cause seq _).trans (congrArg Jobs.pages hjobs),
      damageSlot_slot b lane cause seq ((slotOf_of_jobs_eq hjobs n).trans hx)⟩

end OwnDamage

/-! ### FIRE_UNDERRUN (R32, R320) -/

/-- The running disparity of a lane is that of its symbols alone (R329). -/
theorem laneDisparity_congr {s m : State} {g u : Nat} (hnow : m.now = s.now)
    (hlane : laneOf m g = { laneOf s g with underruns := u }) : laneDisparity m g = laneDisparity s g := by
  unfold laneDisparity laneSent
  rw [hlane, hnow]

theorem laneOf_putSymbols {g : Nat} (fill : LaneFill) (l : List Symbol) {s : State} (h : g < s.fire.lanes.length) :
    (laneOf (putSymbols g fill l s) g).stream = l ∧
    (laneOf (putSymbols g fill l s) g).underruns = (laneOf s g).underruns := by
  have hlane : laneOf (putSymbols g fill l s) g = _ := laneOf_modLane _ h
  rw [hlane]
  exact ⟨rfl, rfl⟩

theorem laneOf_putSymbols_other {g k : Nat} (fill : LaneFill) (l : List Symbol) (s : State) (h : k ≠ g) :
    laneOf (putSymbols g fill l s) k = laneOf s k := laneOf_modLane_other _ s h

theorem putSymbols_sends (g : Nat) (fill : LaneFill) (l : List Symbol) (s : State) :
    Out.lane g (laneDisparity s g) l ∈ (putSymbols g fill l s).sent := List.mem_append_right _ (List.mem_singleton.mpr rfl)

/-- The underrun of lane `g` and the damaged line of its bar are counted. -/
def underrunCounted (g : Nat) (s : State) : State :=
  modBar (g / 6) (fun y => { y with damagedLines := wrapInc 16 y.damagedLines })
    (modLane g (fun x => { x with underruns := wrapInc 16 x.underruns }) s)

/-- K30.7 takes the place of the symbol that is lacking. -/
def underrunSent (g : Nat) (s : State) : State :=
  putSymbols g .idle (kError :: (laneRest s g).drop 1) (underrunCounted g s)

theorem exec_fireUnderrun {t g : Nat} {p : Packet} {s : State} (hp : (barOf s (g / 6)).packet = some p)
    (hon : packetOnLane (beginAt t s) g = true) :
    exec (.fireUnderrun t g) s = .next (ownDamage (g / 6) g 0 (seqOf (underrunSent g (beginAt t s)) (g / 6) p.n)
      ((slotsAt (underrunSent g (beginAt t s)) (g / 6) p.n).map fun x => x.num) (underrunSent g (beginAt t s))) := by
  have hp' : (barOf (beginAt t s) (g / 6)).packet = some p := hp
  show execFireUnderrun t g s = _
  simp only [execFireUnderrun, hp', hon, if_true]
  rfl

theorem underrunSent_keeps (g : Nat) (s : State) : Keeps [.fire] s (underrunSent g s) :=
  ((modLane_keeps ..).then (modBar_keeps ..) (by decide)).then (putSymbols_keeps ..) (by decide)

theorem laneOf_underrunCounted {g : Nat} {s : State} (h : g < s.fire.lanes.length) :
    laneOf (underrunCounted g s) g = { laneOf s g with underruns := wrapInc 16 (laneOf s g).underruns } := laneOf_modLane _ h

theorem underrunSent_lane {g : Nat} {s : State} (h : g < s.fire.lanes.length) :
    (laneOf (underrunSent g s) g).underruns = wrapInc 16 (laneOf s g).underruns ∧
    (laneOf (underrunSent g s) g).stream = kError :: (laneRest s g).drop 1 := by
  have hlen : g < (underrunCounted g s).fire.lanes.length := by simpa [underrunCounted] using h
  obtain ⟨hstream, hunder⟩ := laneOf_putSymbols .idle (kError :: (laneRest s g).drop 1) hlen
  rw [laneOf_underrunCounted h] at hunder
  exact ⟨hunder, hstream⟩

theorem underrunSent_sends {g : Nat} {s : State} (h : g < s.fire.lanes.length) :
    LaneSends s g (kError :: (laneRest s g).drop 1) (underrunSent g s) := by
  have hrd : laneDisparity (underrunCounted g s) g = laneDisparity s g :=
    laneDisparity_congr rfl (laneOf_underrunCounted h)
  unfold LaneSends
  rw [← hrd]
  exact putSymbols_sends ..

theorem underrunSent_others {g k : Nat} (s : State) (h : k ≠ g) : laneOf (underrunSent g s) k = laneOf s k :=
  (laneOf_putSymbols_other _ _ _ h).trans (laneOf_modLane_other _ s h)

theorem underrunSent_bar {g : Nat} {s : State} (h : g / 6 < s.fire.bars.length) : barOf (underrunSent g s) (g / 6) =
    { barOf s (g / 6) with damagedLines := wrapInc 16 (barOf s (g / 6)).damagedLines } :=
  barOf_modBar _ (s := modLane g _ s) h

/-- A lane runs out of symbols while it sends a line packet (R32, R320). -/
theorem fireUnderrun_damages {t g : Nat} {p : Packet} {s : State} (hlane : g < s.fire.lanes.length)
    (hbar : g / 6 < s.fire.bars.length) (hp : (barOf s (g / 6)).packet = some p)
    (hon : packetOnLane (beginAt t s) g = true) (hpol : cfgN s Fld.firing_damage_policy 0 = 0) :
    Completes (.fireUnderrun t g) s fun n =>
      (laneOf n g).underruns = wrapInc 16 (laneOf s g).underruns ∧
      (laneOf n g).stream = kError :: (laneRest (beginAt t s) g).drop 1 ∧
      LaneSends (beginAt t s) g (kError :: (laneRest (beginAt t s) g).drop 1) n ∧
      (∀ h, h ≠ g → laneOf n h = laneOf s h) ∧
      barOf n (g / 6) = { barOf s (g / 6) with damagedLines := wrapInc 16 (barOf s (g / 6)).damagedLines } ∧
      n.mod = s.mod ∧ Only [.clock, .fire, .jobs, .log, .net, .pair] s n := by
  let s1 := beginAt t s
  let m := underrunSent g s1
  have hm := underrunSent_keeps g s1
  have hpolm : cfgN m Fld.firing_damage_policy 0 = 0 := by rw [cfgN, hm.conf_eq]; exact hpol
  let slots := (slotsAt m (g / 6) p.n).map fun x => x.num
  have hdamage := ownDamage_keeps_of_policy (g / 6) g 0 (seqOf m (g / 6) p.n) slots hpolm
  have hlanes (k : Nat) : laneOf (ownDamage (g / 6) g 0 (seqOf m (g / 6) p.n) slots m) k = laneOf m k := by
    rw [laneOf, laneOf, hdamage.fire_eq]
  obtain ⟨hunder, hstream⟩ := underrunSent_lane (s := s1) hlane
  refine ⟨_, exec_fireUnderrun hp hon, ?_, ?_, ?_, fun k hk => ?_, ?_, ?_, ?_⟩
  · rw [hlanes]; exact hunder
  · rw [hlanes]; exact hstream
  · exact ownDamage_sends _ _ _ _ _ hpolm (underrunSent_sends (s := s1) hlane)
  · rw [hlanes]; exact underrunSent_others s1 hk
  · rw [barOf, hdamage.fire_eq]; exact underrunSent_bar (s := s1) hbar
  · exact hdamage.mod_eq.trans hm.mod_eq
  · exact ((hm.mono (w := [.fire, .jobs, .log, .net, .pair]) (by decide)).then hdamage (by decide)).onlySince

/-! ### FIRE_DECODE_ERROR (R217, R320) -/

theorem mem_of_find?_orElse_getLast? {α : Type} {l : List α} {p : α → Bool} {y : α}
    (h : ((l.find? p).orElse fun _ => l.getLast?) = some y) : y ∈ l := by
  cases hfind : l.find? p with
  | none =>
    rw [hfind] at h
    exact List.mem_of_getLast? h
  | some z =>
    rw [hfind] at h
    exact Option.some.inj h ▸ List.mem_of_find?_eq_some hfind

/-- The slot whose lane part is read is a slot of the run, by its number. -/
theorem slotOf_of_readingSlot {s : State} {g block : Nat} {r : LanePart × Nat × Nat × Bool} {x : Slot}
    (h : readingSlot s g block = some (x, r)) : slotOf s x.num = some x := by
  obtain ⟨q, -, hq⟩ := List.mem_flatMap.mp (List.mem_of_mem_filter (mem_of_find?_orElse_getLast? h))
  unfold readingParts at hq
  split at hq
  · simp at hq
  · rename_i y hy
    have hxy : x = y := by
      rcases List.mem_append.mp hq with hpage | hstrip
      · obtain ⟨p, -, hp⟩ := Option.map_eq_some_iff.mp (Option.mem_toList.mp hpage)
        exact (congrArg Prod.fst hp).symm
      · obtain ⟨st, -, hst⟩ := Option.bind_eq_some_iff.mp (Option.mem_toList.mp hstrip)
        obtain ⟨p, -, hp⟩ := Option.map_eq_some_iff.mp hst
        exact (congrArg Prod.fst hp).symm
    rw [hxy, slotOf_num hy]
    exact hy

/-- The slot keeps what its decompressor delivered of a block that failed. -/
def upsetNoted (g : Nat) (block : Nat × BlockRead) (strip : Bool) (y : Slot) : Slot :=
  if strip then { y with stripUpsets := (g, block) :: y.stripUpsets } else { y with upsets := (g, block) :: y.upsets }

theorem upsetNoted_num (g : Nat) (block : Nat × BlockRead) (strip : Bool) (y : Slot) :
    (upsetNoted g block strip y).num = y.num := by cases strip <;> rfl

theorem mem_upsetNoted (g : Nat) (block : Nat × BlockRead) (strip : Bool) (y : Slot) :
    (g, block) ∈ if strip then (upsetNoted g block strip y).stripUpsets else (upsetNoted g block strip y).upsets := by
  cases strip <;> exact List.mem_cons_self

/-- A decompressor has counted a block that failed: MALFORMED (kind 0), or its CRC. -/
def failureCounted (g kind : Nat) (s : State) : State :=
  { s with render := { s.render with decompressors := s.render.decompressors.modify g fun d =>
    if kind = 0 then (wrapInc 16 d.1, d.2) else (d.1, wrapInc 16 d.2) } }

/-- The failure is counted, kept with its slot, and raised. -/
def failureRaised (g kind : Nat) (block : Nat × BlockRead) (strip : Bool) (x : Slot) (s : State) : State :=
  raise 0x0813 (leBytes 1 g ++ leBytes 4 x.page ++ leBytes 2 block.1 ++ leBytes 1 kind)
    (modSlot x.num (upsetNoted g block strip) (failureCounted g kind s))

theorem exec_fireDecodeError {t g block kind done base : Nat} {strip : Bool} {read : BlockRead} {x : Slot} {p : LanePart}
    {s : State} (hfiring : isFiring s = true) (hslot : readingSlot s g block = some (x, p, done, base, strip))
    (hkind : (deliverBlock p block read).2 = some kind) :
    ∃ lines seq, exec (.fireDecodeError t g (block, read)) s = .next (ownDamage (g / 6) g 1 seq [x.num]
      (modBar (g / 6) lines (failureRaised g kind (block, read) strip x (beginAt t s)))) := by
  have hslot' : readingSlot (beginAt t s) g block = some (x, p, done, base, strip) := hslot
  have hfiring' : isFiring (beginAt t s) = true := hfiring
  have hexec : exec (.fireDecodeError t g (block, read)) s = execFireDecodeError t g (block, read) s := rfl
  simp only [hexec, execFireDecodeError, hslot', hfiring', hkind]
  exact ⟨_, _, rfl⟩

/-- A block of a lane part that is MALFORMED or fails its CRC (R217, R320). -/
theorem fireDecodeError_raised {t g block kind done base : Nat} {strip : Bool} {read : BlockRead} {x : Slot} {p : LanePart}
    {s : State} (hfiring : isFiring s = true) (hslot : readingSlot s g block = some (x, p, done, base, strip))
    (hkind : (deliverBlock p block read).2 = some kind) (hpol : cfgN s Fld.firing_damage_policy 0 = 0) :
    Completes (.fireDecodeError t g (block, read)) s fun n =>
      RaisedNext s 0x0813 (leBytes 1 g ++ leBytes 4 x.page ++ leBytes 2 block ++ leBytes 1 kind) n ∧
      n.render.decompressors = s.render.decompressors.modify g
        (fun d => if kind = 0 then (wrapInc 16 d.1, d.2) else (d.1, wrapInc 16 d.2)) ∧
      (∃ y, slotOf n x.num = some y ∧ (g, block, read) ∈ (if strip then y.stripUpsets else y.upsets)) ∧ n.mod = s.mod ∧
      n.jobs.pages = s.jobs.pages ∧ Only [.clock, .fire, .render, .jobs, .log, .net, .pair] s n := by
  obtain ⟨lines, seq, hexec⟩ := exec_fireDecodeError (t := t) hfiring hslot hkind
  let s1 := beginAt t s
  let s2 := modSlot x.num (upsetNoted g (block, read) strip) (failureCounted g kind s1)
  let s3 := failureRaised g kind (block, read) strip x s1
  let s4 := modBar (g / 6) lines s3
  have h2 : Keeps [.render, .jobs] s1 s2 :=
    Keeps.then (v := [.jobs]) ((set_render_keeps ..).mono (by decide)) (modSlot_keeps ..) (by decide)
  have h3 : Keeps [.log, .net] s2 s3 := raise_keeps ..
  have h4 : Keeps [.log, .net, .fire] s2 s4 := (h3.mono (by decide)).then (modBar_keeps ..) (by decide)
  have hpol4 : cfgN s4 Fld.firing_damage_policy 0 = 0 := by rw [cfgN, h4.conf_eq, h2.conf_eq]; exact hpol
  have h5 := ownDamage_keeps_of_policy (g / 6) g 1 seq [x.num] hpol4
  have hslot2 : slotOf s4 x.num = some (upsetNoted g (block, read) strip x) := by
    rw [slotOf_of_jobs_eq h4.jobs_eq, slotOf_modSlot (upsetNoted_num g (block, read) strip)]
    exact congrArg (Option.map _) (slotOf_of_readingSlot hslot)
  obtain ⟨hpages, d, hslot5⟩ := ownDamage_slot (g / 6) g 1 seq hpol4 hslot2
  have hnew : AddsAtMost 1 s3 (ownDamage (g / 6) g 1 seq [x.num] s4) := by
    simpa using (modBar_keeps (g / 6) lines s3).addsNone.trans (ownDamage_addsAtMost (g / 6) g 1 seq [x.num] hpol4)
  refine ⟨_, hexec, raisedNext_of_raise (s := s2) rfl hnew, ?_, ⟨_, hslot5, mem_upsetNoted g (block, read) strip x⟩, ?_, ?_, ?_⟩
  · rw [h5.render_eq, h4.render_eq]
    rfl
  · exact h5.mod_eq.trans (h4.mod_eq.trans h2.mod_eq)
  · exact hpages.trans ((congrArg Jobs.pages h4.jobs_eq).trans rfl)
  · have hall : Keeps [.fire, .render, .jobs, .log, .net, .pair] s1 s4 :=
      (h2.mono (by decide)).then h4 (by decide)
    exact (hall.then h5 (by decide)).onlySince

/-! ### SLOT_RELEASE_POINT (R117, R122) -/

/-- What a release reads of the pages and of the armed run. -/
def releaseView (s : State) : List Page × List RunDef × Option (List Nat × Nat × List Slot) :=
  (s.jobs.pages, s.jobs.runs, s.jobs.armed.map fun a => (a.queue, a.nextSlot, a.slots))

theorem releaseView_of_jobs_eq {s m : State} (h : m.jobs = s.jobs) : releaseView m = releaseView s := by
  rw [releaseView, releaseView, h]

theorem releaseView_modArmed {f : Armed → Armed}
    (hf : ∀ a, ((f a).queue, (f a).nextSlot, (f a).slots) = (a.queue, a.nextSlot, a.slots)) (s : State) :
    releaseView (modArmed f s) = releaseView s := by
  unfold releaseView
  rw [modArmed_jobs_pages, modArmed_jobs_runs, modArmed_jobs_armed, Option.map_map]
  simp only [Function.comp_def, hf]

theorem abandonRendering_strip_jobs {s : State} {y : Strip → Bool}
    (h : (s.render.now.any fun r => r.strip.any y) = true) : (abandonRendering s).jobs = s.jobs := by
  unfold abandonRendering
  split
  · rfl
  · rename_i r hr
    have hstrip : r.strip.isSome = true := by
      cases hs : r.strip with
      | none => simp [hr, hs] at h
      | some z => rfl
    dsimp only
    rw [if_pos hstrip]

theorem releaseView_dropStrip (x : Strip) (s : State) : releaseView (dropStrip x s) = releaseView s := by
  unfold dropStrip
  dsimp only
  refine (releaseView_modArmed (by intro; rfl) _).trans (releaseView_of_jobs_eq ?_)
  show State.jobs (ite _ _ _) = _
  split
  · rename_i h
    exact abandonRendering_strip_jobs h
  · rfl

theorem releaseView_passStrips (n : Nat) (s : State) : releaseView (passStrips n s) = releaseView s :=
  releaseView_modArmed (by intro; rfl) _

/-- The strip that goes with a slot, or does not, changes neither the pages nor the slots (R399). -/
theorem releaseView_takeStrip (n : Nat) (s : State) : releaseView (takeStrip n s).2 = releaseView s := by
  unfold takeStrip
  split
  · rfl
  · split
    · split
      · exact (releaseView_of_jobs_eq (countPlaced_keeps ..).jobs_eq).trans (releaseView_modArmed (by intro; rfl) s)
      · exact (releaseView_of_jobs_eq (countSkipped_keeps _).jobs_eq).trans (releaseView_dropStrip ..)
    · split
      · rfl
      · show releaseView (ite _ _ _) = _
        split
        · exact releaseView_passStrips n s
        · exact (releaseView_of_jobs_eq (countSkipped_keeps _).jobs_eq).trans (releaseView_passStrips n s)

theorem enterPrint_state (s : State) : (enterPrint s).mod.state = .print := setModState_state ..

theorem refill_of_queue {a : Armed} (h : a.queue.isEmpty = false) : refill a = a := if_neg (by simp [h])

theorem endIfLast_of_queue {a : Armed} {s : State} (h : s.jobs.armed = some a) (hq : a.queue.isEmpty = false) :
    endIfLast s = s := by
  unfold endIfLast
  rw [h]
  exact if_neg (by simp [hq])

/-- A slot as it is released in its turn. -/
def releasedSlot (id : Nat) (start : Int) (a : Armed) (s : State) : Slot :=
  { num := a.nextSlot, page := id, state := .released, reasons := 0, start := start, length := pageLength s id
    barsDone := 0, barsFired := 0, linksOut := 0, damaged := [], ended := false, strip := (takeStrip a.nextSlot s).1
    versions := [], streams := if pageQuarantined s id then none else oldStreams s id, latched := [], upsets := [], stripUpsets := [] }

/-- The run once the slot is released: the page has left the queue, and the next slot follows. -/
def afterRelease (id : Nat) (start : Int) (a : Armed) (s : State) (b : Armed) : Armed :=
  refill { b with
    queue := if true && b.queue.head? = some id then b.queue.drop 1 else b.queue
    nextSlot := a.nextSlot + 1, nextStart := some (start + pitchOf s b.run id), hold := false
    slots := b.slots ++ [releasedSlot id start a s] }

/-- The run has the slot, and its decompressors begin to read; the event is raised (R117, R122, R296). -/
def releaseNoted (id : Nat) (start : Int) (a : Armed) (s : State) : State :=
  raise 0x0314 (leBytes 4 a.nextSlot ++ leBytes 4 id) (beginReading (releasedSlot id start a s)
    (modArmed (afterRelease id start a s) (placeMargin id (takeStrip a.nextSlot s).2)))

theorem releaseNoted_mod (id : Nat) (start : Int) (a : Armed) (s : State) : (releaseNoted id start a s).mod = s.mod := by
  rw [releaseNoted, raise_mod, (beginReading_keeps ..).mod_eq, modArmed_mod, (placeMargin_keeps ..).mod_eq,
    (takeStrip_keeps ..).mod_eq]

/-- What follows a release: the ring hears of it, and the run goes on (R134, R373, R495, R625). -/
def afterPrint (start : Int) (a : Armed) (m : State) : State :=
  sendSlotReady (endIfLast (loadCams (ringDecision 0x33
    (leBytes 4 a.run.id ++ leBytes 4 a.nextSlot ++ sgBytes 8 start) m)))

/-- While pages are still to be printed, what follows touches the ring and the cameras' channels only. -/
theorem afterPrint_keeps (start : Int) (a : Armed) {b : Armed} {m : State} (hb : m.jobs.armed = some b)
    (hq : b.queue.isEmpty = false) : Keeps [.ring, .pos] m (afterPrint start a m) := by
  have hload := Keeps.then (w := [.ring, .pos]) ((ringDecision_keeps 0x33
    (leBytes 4 a.run.id ++ leBytes 4 a.nextSlot ++ sgBytes 8 start) m).mono (by decide)) (loadCams_keeps _) (by decide)
  unfold afterPrint
  rw [endIfLast_of_queue (by rw [hload.jobs_eq]; exact hb) hq]
  exact hload.then (sendSlotReady_keeps _) (by decide)

theorem releaseSlot_of_turn {id : Nat} {start : Int} {a : Armed} {s : State} (ha : s.jobs.armed = some a)
    (hend : a.releasesEnded = false) (hstate : s.mod.state = .armed) :
    releaseSlot true a.nextSlot id start s = afterPrint start a (enterPrint (releaseNoted id start a s)) := by
  have hmod : (releaseNoted id start a s).mod.state = .armed := by rw [releaseNoted_mod, hstate]
  have hslot : releaseSlot true a.nextSlot id start s = afterPrint start a
      (if (releaseNoted id start a s).mod.state = .armed then enterPrint (releaseNoted id start a s)
        else releaseNoted id start a s) := by
    unfold releaseSlot
    rw [ha]
    have hgo : ¬ (decide (a.nextSlot ≠ a.nextSlot) || a.releasesEnded) = true := by simp [hend]
    dsimp only
    rw [if_neg hgo, if_pos (rfl : true = true)]
    rfl
  rw [hslot, if_pos hmod]

section Release
variable {id next : Nat} {rest : List Nat} {start : Int} {a : Armed} {s : State} (ha : s.jobs.armed = some a)
  (hq : a.queue = id :: next :: rest)
include ha hq

/-- What the release leaves of the jobs: the pages, the runs, and the run with one slot more. -/
theorem releaseNoted_jobs : (enterPrint (releaseNoted id start a s)).jobs.pages = s.jobs.pages ∧
    (enterPrint (releaseNoted id start a s)).jobs.runs = s.jobs.runs ∧
    ∃ b, (enterPrint (releaseNoted id start a s)).jobs.armed = some b ∧ b.queue = next :: rest ∧ b.nextSlot = a.nextSlot + 1 ∧
      b.hold = false ∧ b.slots = a.slots ++ [releasedSlot id start a s] := by
  let s0 := placeMargin id (takeStrip a.nextSlot s).2
  have hview : releaseView s0 = releaseView s :=
    (releaseView_of_jobs_eq (placeMargin_keeps ..).jobs_eq).trans (releaseView_takeStrip ..)
  have hjobs : (enterPrint (releaseNoted id start a s)).jobs = (modArmed (afterRelease id start a s) s0).jobs :=
    (enterPrint_keeps _).jobs_eq.trans ((raise_keeps ..).jobs_eq.trans (beginReading_keeps ..).jobs_eq)
  obtain ⟨hpages, hrun⟩ := Prod.mk.inj hview
  obtain ⟨hruns, harmed⟩ := Prod.mk.inj hrun
  rw [ha] at harmed
  obtain ⟨b, hb, heq⟩ := Option.map_eq_some_iff.mp harmed
  obtain ⟨hqueue, hslot⟩ := Prod.mk.inj heq
  obtain ⟨-, hslots⟩ := Prod.mk.inj hslot
  have hafter : afterRelease id start a s b = { b with
      queue := next :: rest, nextSlot := a.nextSlot + 1, nextStart := some (start + pitchOf s b.run id), hold := false
      slots := a.slots ++ [releasedSlot id start a s] } := by
    unfold afterRelease
    rw [hqueue, hslots, hq]
    exact (congrArg refill (by simp)).trans (refill_of_queue rfl)
  rw [hjobs, modArmed_jobs_pages, modArmed_jobs_runs, modArmed_jobs_armed, hb]
  exact ⟨hpages, hruns, _, congrArg some hafter, rfl, rfl, rfl, rfl⟩

theorem nextPage_of_queue : nextPage s = some id := by
  rw [nextPage, ha]
  exact congrArg List.head? hq

/-- A release in its turn, in ARMED: PRINT begins (R117, R122). -/
theorem releaseSlot_releases (hend : a.releasesEnded = false) (hstate : s.mod.state = .armed) :
    (releaseSlot true a.nextSlot id start s).mod.state = .print ∧
    Raised 0x0314 (leBytes 4 a.nextSlot ++ leBytes 4 id) (releaseSlot true a.nextSlot id start s) ∧
    (releaseSlot true a.nextSlot id start s).jobs = (enterPrint (releaseNoted id start a s)).jobs := by
  obtain ⟨-, -, b, hb, hqueue, -⟩ := releaseNoted_jobs (start := start) ha hq
  have hn := afterPrint_keeps start a hb (by rw [hqueue]; rfl)
  rw [releaseSlot_of_turn ha hend hstate]
  have hprint : AddsAtMost 1 (releaseNoted id start a s) (enterPrint (releaseNoted id start a s)) :=
    (set_fire_keeps ..).addsNone.trans (setModState_addsAtMost ..)
  exact ⟨(congrArg Mod.state hn.mod_eq).trans (enterPrint_state _),
    raised_of_raise (k := 1) (hprint.trans hn.addsNone), hn.jobs_eq⟩

end Release

theorem dropBefore_of_head {id : Nat} {s : State} (h : nextPage s = some id) (n : Nat) : dropBefore n id s = s := by
  cases n with
  | zero => rfl
  | succ n =>
    unfold dropBefore
    rw [h]
    cases s.jobs.armed with
    | none => rfl
    | some a => exact if_neg (by simp)

theorem decideHeld_of_unheld {s : State} (h : (s.jobs.armed.any fun a => a.hold) = false) (n : Nat) : decideHeld n s = s := by
  cases n with
  | zero => rfl
  | succ n =>
    unfold decideHeld
    exact if_neg (by simp [h])

/-- The start of the next slot is fixed already (R116). -/
theorem fixStart_of_fixed {a : Armed} {start : Int} {s : State} (ha : s.jobs.armed = some a) (hs : a.nextStart = some start) :
    fixStart s = s := by
  unfold fixStart
  rw [ha]
  exact if_neg (by simp [hs])

theorem doChangeover_of_settled {s : State} (h : s.cal.rerendering = false) (n : Nat) : doChangeover n s = s :=
  if_neg (by simp [changeoverDue, h])

/-- Without a partner that takes decisions a release takes effect at once (R508). -/
theorem decideRelease_of_alone {id : Nat} {start : Int} {a : Armed} {s : State} (ha : s.jobs.armed = some a)
    (hp : partnerTakes s = false) (hr : s.cal.rerendering = false) (hhead : nextPage s = some id) :
    ∃ m, Keeps [.pair] s m ∧ decideRelease id start s = releaseSlot true a.nextSlot id start m := by
  refine ⟨sendToken 0x02 (leBytes 4 a.nextSlot ++ leBytes 4 id ++ sgBytes 8 start) s, sendToken_keeps .., ?_⟩
  generalize hm : sendToken 0x02 (leBytes 4 a.nextSlot ++ leBytes 4 id ++ sgBytes 8 start) s = m
  have hkeeps : Keeps [.pair] s m := hm ▸ sendToken_keeps ..
  have hhead' : nextPage m = some id := by
    rw [nextPage, hkeeps.jobs_eq]
    exact hhead
  unfold decideRelease
  rw [ha]
  dsimp only
  rw [doChangeover_of_settled hr, onAck, if_neg (by simp [hp]), hm, applyRelease, dropBefore_of_head hhead']

/-- A slot that is ready at its release point is released (R122). -/
theorem decideOnce_releases {id : Nat} {start rp : Int} {a : Armed} {s : State} (hdec : decidesSlots s = true)
    (hgroup : inGroup s = false) (hcompat : s.mod.compat = false) (ha : s.jobs.armed = some a) (hhead : nextPage s = some id)
    (hhold : a.hold = false) (hend : a.releasesEnded = false) (hstart : a.nextStart = some start)
    (hrp : releasePoint s a = some rp) (hpast : rp < leadNextLine s) (hready : slotReadyHere s = true) :
    decideOnce s = decideRelease id start s := by
  unfold decideOnce
  rw [if_neg (by simp [hdec]), fixStart_of_fixed ha hstart]
  simp only [ha, hhead, hend, hhold, hrp, hstart, hpast, hcompat, hready, hgroup, Bool.false_eq_true, if_false, if_true,
    Bool.false_and, Bool.not_false, Bool.true_or, Bool.and_self]

/-- SLOT_RELEASE_POINT in ARMED, with a ready page (R117, R122). -/
theorem slotReleasePoint_releases (t : Nat) {id next : Nat} {rest : List Nat} {start rp : Int} {a : Armed} {s : State}
    (hdec : decidesSlots s = true) (hstate : s.mod.state = .armed) (hgroup : inGroup s = false) (hp : partnerTakes s = false)
    (hcompat : s.mod.compat = false) (hr : s.cal.rerendering = false) (ha : s.jobs.armed = some a)
    (hq : a.queue = id :: next :: rest) (hhold : a.hold = false) (hend : a.releasesEnded = false)
    (hstart : a.nextStart = some start) (hrp : releasePoint s a = some rp) (hpast : rp < leadNextLine s)
    (hready : slotReadyHere s = true) :
    Completes (.slotReleasePoint t) s fun n =>
      n.mod.state = .print ∧
      (∃ a', n.jobs.armed = some a' ∧ a'.nextSlot = a.nextSlot + 1 ∧ a'.queue = next :: rest ∧
        ∃ x ∈ a'.slots, x.num = a.nextSlot ∧ x.page = id ∧ x.start = start ∧ x.state = .released ∧ x.ended = false) ∧
      Raised 0x0314 (leBytes 4 a.nextSlot ++ leBytes 4 id) n ∧ n.jobs.pages = s.jobs.pages ∧ n.jobs.runs = s.jobs.runs := by
  let s1 := beginAt t s
  have hhead : nextPage s1 = some id := nextPage_of_queue (s := s1) ha hq
  obtain ⟨m, hm, hrelease⟩ := decideRelease_of_alone (start := start) (s := s1) ha hp hr hhead
  have ham : m.jobs.armed = some a := by rw [hm.jobs_eq]; exact ha
  have hstatem : m.mod.state = .armed := by rw [hm.mod_eq]; exact hstate
  obtain ⟨hpages, hruns, b, hb, hqueue, hslot, hunheld, hslots⟩ := releaseNoted_jobs (start := start) ham hq
  obtain ⟨hprint, hraised, hjobs⟩ := releaseSlot_releases (start := start) ham hq hend hstatem
  have hb' : (releaseSlot true a.nextSlot id start m).jobs.armed = some b := (congrArg Jobs.armed hjobs).trans hb
  have hexec : exec (.slotReleasePoint t) s = .next (releaseSlot true a.nextSlot id start m) := by
    have honce : decideOnce s1 = releaseSlot true a.nextSlot id start m :=
      (decideOnce_releases (s := s1) hdec hgroup hcompat ha hhead hhold hend hstart hrp hpast hready).trans hrelease
    show Host.Outcome.next (decideHeld (queueLength s1) (decideOnce s1)) = _
    rw [honce, decideHeld_of_unheld (by simp [hb', hunheld])]
  refine ⟨_, hexec, hprint, ⟨b, hb', hslot, hqueue, releasedSlot id start a m, ?_, rfl, rfl, rfl, rfl, rfl⟩, hraised, ?_, ?_⟩
  · rw [hslots]
    exact List.mem_append_right _ (List.mem_singleton.mpr rfl)
  · exact (congrArg Jobs.pages hjobs).trans (hpages.trans (congrArg Jobs.pages hm.jobs_eq))
  · exact (congrArg Jobs.runs hjobs).trans (hruns.trans (congrArg Jobs.runs hm.jobs_eq))

/-- Settles O42: each clause is the lemma on its command. -/
theorem underrunsErrorsReleases : Obligations.UnderrunsErrorsReleases :=
  ⟨fun _ _ _ _ => fireUnderrun_damages, fun _ _ _ _ _ _ _ _ _ _ _ => fireDecodeError_raised,
   fun t _ _ _ _ _ _ _ => slotReleasePoint_releases t⟩

end Sys2Proof.Machine
end

section
/-! Proofs of the statements on the host transport (03_host_transport.md) and the partner's frames (17_castling.md): the results
that the host reads (O19), its session messages (O17), the partner's orders, segments and signatures (O58), and three statements
that fail, on ports (O14), timers (O16) and rejects (O18). First what a change of one session entry shows, then what the module's
own sending leaves alone, and what an admitted message of the host leads to. -/
namespace Sys2Proof.Machine
open Sys2Proof

-- As in the sections before: checked in parallel, the whole text takes more threads than the memory limit leaves room for.
set_option Elab.async false

section KeepsGroups
variable {w : List Group} {s n : State} (h : Keeps w s n)
include h

theorem Keeps.pending_eq (hw : Group.queue ∉ w := by decide) : n.pending = s.pending := h.only.same .queue hw
theorem Keeps.now_eq (hw : Group.clock ∉ w := by decide) : n.now = s.now := h.only.same .clock hw
theorem Keeps.net_eq (hw : Group.net ∉ w := by decide) : n.net = s.net := h.only.same .net hw

end KeepsGroups

/-! ### One entry of the session table (R69, R74) -/

theorem sessionOf_modSession {i : Nat} (f : Session → Session) {s : State} (h : i < s.net.sessions.length) :
    sessionOf (modSession i f s) i = f (sessionOf s i) := by
  simp only [sessionOf, modSession_net_sessions, getD_modify, h, and_self, if_true]

theorem sessionOf_modSession_other {i j : Nat} (f : Session → Session) (s : State) (h : j ≠ i) :
    sessionOf (modSession i f s) j = sessionOf s j := by
  simp only [sessionOf, modSession_net_sessions, getD_modify, h.symm, false_and, if_false]

theorem sessionOf_of_net_eq {s n : State} (h : n.net = s.net) (j : Nat) : sessionOf n j = sessionOf s j := by
  unfold sessionOf; rw [h]

/-- An entry outside the table is a free one. -/
theorem lt_sessions_of_open {s : State} {i : Nat} (h : (sessionOf s i).id ≠ 0) : i < s.net.sessions.length := by
  by_contra hlen
  refine h ?_
  rw [sessionOf, List.getD_eq_default _ _ (Nat.le_of_not_lt hlen)]

theorem mem_openSessions {s : State} {i : Nat} : i ∈ openSessions s ↔ i < 4 ∧ (sessionOf s i).id ≠ 0 := by
  simp [openSessions]

/-- The entry of a session id is an open one with that id. -/
theorem sessionIdx_open {s : State} {id i : Nat} (h : sessionIdx s id = some i) : (sessionOf s i).id ≠ 0 ∧ (sessionOf s i).id = id :=
  ⟨(mem_openSessions.mp (List.mem_of_find?_eq_some h)).2, by simpa using List.find?_some h⟩

/-! ### What sending leaves alone (R57, R62, R64, R74) -/

/-- What of a session entry neither a sending of the module nor a turn of the session changes. -/
def lasting (e : Session) : Session :=
  { id := e.id, control := e.control, auth := e.auth, group := e.group, rxAck := e.rxAck, lastRx := e.lastRx, port := e.port
    addr := e.addr, key := e.key, opening := e.opening }

theorem lasting_eq_iff {a b : Session} : lasting a = lasting b ↔ a.id = b.id ∧ a.control = b.control ∧ a.auth = b.auth ∧
    a.group = b.group ∧ a.rxAck = b.rxAck ∧ a.opening = b.opening ∧ a.lastRx = b.lastRx ∧ a.port = b.port ∧ a.addr = b.addr ∧
    a.key = b.key := by
  simp [lasting]

/-- From `s` to `n` the module may have sent, and taken turns of its sessions: what was put out stays put out, and the sessions
are open as they were, with the results, the tickets and the hosts. -/
structure Talks (s n : State) : Prop where
  sent : s.sent ⊆ n.sent
  now : n.now = s.now
  table : ∀ j, lasting (sessionOf n j) = lasting (sessionOf s j)
  results : n.net.results = s.net.results
  tickets : n.net.tickets = s.net.tickets
  hosts : n.net.hosts = s.net.hosts
  openFailures : n.net.openFailures = s.net.openFailures
  pairState : n.pair.state = s.pair.state

theorem Talks.refl (s : State) : Talks s s := ⟨List.Subset.refl _, rfl, fun _ => rfl, rfl, rfl, rfl, rfl, rfl⟩

theorem Talks.trans {a b c : State} (h1 : Talks a b) (h2 : Talks b c) : Talks a c :=
  ⟨List.Subset.trans h1.sent h2.sent, h2.now.trans h1.now, fun j => (h2.table j).trans (h1.table j), h2.results.trans h1.results,
    h2.tickets.trans h1.tickets, h2.hosts.trans h1.hosts, h2.openFailures.trans h1.openFailures, h2.pairState.trans h1.pairState⟩

theorem Talks.id_eq {s n : State} (h : Talks s n) (j : Nat) : (sessionOf n j).id = (sessionOf s j).id :=
  (lasting_eq_iff.mp (h.table j)).1

theorem Talks.openSessions_eq {s n : State} (h : Talks s n) : openSessions n = openSessions s := by
  unfold openSessions
  simp only [h.id_eq]

/-- What changes neither the network block nor what is put out, nor the clock and the pair state. -/
theorem Talks.of_net_eq {s n : State} (hnet : n.net = s.net) (hsent : s.sent ⊆ n.sent) (hnow : n.now = s.now)
    (hpair : n.pair.state = s.pair.state) : Talks s n :=
  ⟨hsent, hnow, fun j => by rw [sessionOf_of_net_eq hnet], by rw [hnet], by rw [hnet], by rw [hnet], by rw [hnet], hpair⟩

theorem Talks.forEach {α : Type} {f : α → State → State} (hf : ∀ x s, Talks s (f x s)) (l : List α) (s : State) :
    Talks s (forEach l f s) := by
  induction l generalizing s with
  | nil => exact .refl s
  | cons x l ih => exact (hf x s).trans (ih _)

theorem emitTo_net (port addr : Nat) (o : Out) (s : State) : ∃ l, (emitTo port addr o s).net = { s.net with neighbours := l } := by
  unfold emitTo
  split
  · exact ⟨s.net.neighbours, rfl⟩
  · exact ⟨_, rfl⟩

theorem emitTo_sessionOf (port addr : Nat) (o : Out) (s : State) (j : Nat) : sessionOf (emitTo port addr o s) j = sessionOf s j := by
  obtain ⟨l, hl⟩ := emitTo_net port addr o s
  unfold sessionOf
  rw [hl]

theorem emitTo_talks (port addr : Nat) (o : Out) (s : State) : Talks s (emitTo port addr o s) := by
  obtain ⟨l, hl⟩ := emitTo_net port addr o s
  have hk := emitTo_keeps port addr o s
  exact ⟨emitTo_sends port addr o s, hk.now_eq, fun j => by rw [emitTo_sessionOf], by rw [hl], by rw [hl], by rw [hl], by rw [hl],
    by rw [hk.pair_eq]⟩

theorem modSession_talks (i : Nat) {f : Session → Session} (s : State)
    (hf : ∀ e, lasting (f e) = lasting e := by exact fun _ => rfl) : Talks s (modSession i f s) := by
  refine ⟨List.Subset.refl _, rfl, fun j => ?_, rfl, rfl, rfl, rfl, rfl⟩
  simp only [sessionOf, modSession_net_sessions, getD_modify]
  split
  · exact hf _
  · rfl

theorem sendOn_talks (grp : Bool) (i type : Nat) (payload : List Byte) (s : State) : Talks s (sendOn grp i type payload s) := by
  unfold sendOn
  dsimp only
  split
  · exact .refl s
  · split
    · exact Talks.trans (modSession_talks i s) (emitTo_talks ..)
    · exact modSession_talks i s

theorem sendAckWith_talks (c i : Nat) (s : State) : Talks s (sendAckWith c i s) := by
  unfold sendAckWith
  dsimp only
  split
  · exact .refl s
  · split
    · exact Talks.trans (modSession_talks i s) (emitTo_talks ..)
    · exact modSession_talks i s

theorem takeTurn_talks (i : Nat) (group : Bool) (msg : Nat) (s : State) : Talks s (takeTurn i group msg s) := by
  unfold takeTurn
  dsimp only
  split
  · exact Talks.trans (modSession_talks i s) (sendAckWith_talks ..)
  · exact modSession_talks i s

theorem sendOrder_talks (group : Bool) (session msg type : Nat) (payload : List Byte) (s : State) :
    Talks s (sendOrder group session msg type payload s) := by
  unfold sendOrder
  split
  · exact .of_net_eq rfl (List.subset_append_left _ _) rfl rfl
  · exact .refl s

theorem rejectOne_talks (i : Nat) (m : RxMsg) (s : State) : Talks s (rejectOne i m s) :=
  ((takeTurn_talks ..).trans (sendOrder_talks ..)).trans (sendOn_talks ..)

/-- The messages that R60 refuses are rejected in their turns. -/
theorem rejectBad_talks (n i : Nat) (s : State) : Talks s (rejectBad n i s) := by
  induction n generalizing s with
  | zero => exact .refl s
  | succ n ih =>
    unfold rejectBad
    split
    · exact .refl s
    · exact (rejectOne_talks ..).trans (ih _)

theorem setLog_talks (s : State) (l : Log) : Talks s { s with log := l } := .of_net_eq rfl (List.Subset.refl _) rfl rfl

theorem raise_talks (code : Nat) (detail : List Byte) (s : State) : Talks s (raise code detail s) := by
  unfold raise raiseAt
  exact (setLog_talks s _).trans (.forEach (fun i s => sendOn_talks _ i 0x45 _ s) _ _)

theorem raiseLimited_talks (code idx window : Nat) (detail : Nat → List Byte) (s : State) :
    Talks s (raiseLimited code idx window detail s) := by
  unfold raiseLimited
  split
  · split
    · exact .of_net_eq rfl (List.Subset.refl _) rfl rfl
    · exact (setLog_talks s _).trans (raise_talks ..)
  · exact (setLog_talks s _).trans (raise_talks ..)

/-- A sending on one session leaves every other entry alone. -/
theorem sendOn_others {grp : Bool} {i type j : Nat} {payload : List Byte} {s : State} (h : j ≠ i) :
    sessionOf (sendOn grp i type payload s) j = sessionOf s j := by
  unfold sendOn
  dsimp only
  split
  · rfl
  · split
    · exact (emitTo_sessionOf ..).trans (sessionOf_modSession_other _ s h)
    · exact sessionOf_modSession_other _ s h

/-- An acknowledgement leaves it where it was to whom the module answers (R97). -/
theorem sendAckWith_toGroup (c i : Nat) (s : State) : (sessionOf (sendAckWith c i s) i).toGroup = (sessionOf s i).toGroup := by
  unfold sendAckWith
  dsimp only
  split
  · rfl
  · next hid =>
    have hset : (sessionOf (modSession i (advertise s.now c) s) i).toGroup = (sessionOf s i).toGroup := by
      rw [sessionOf_modSession _ (lt_sessions_of_open hid)]; rfl
    split
    · exact (congrArg Session.toGroup (emitTo_sessionOf ..)).trans hset
    · exact hset

/-! ### A message of the module in answer to one of the host (R57, R73, R97) -/

theorem emitTo_emits (port addr : Nat) (o : Out) (s : State) : o ∈ (emitTo port addr o s).sent := by
  unfold emitTo
  split
  · exact List.mem_append_right _ (List.mem_singleton.mpr rfl)
  · exact List.mem_append_right _ (List.mem_singleton.mpr rfl)

/-- An answer stays put out. -/
theorem Answers.mono {s m n : State} {i type : Nat} {payload : List Byte} (h : Answers s i type payload m) (hn : m.sent ⊆ n.sent) :
    Answers s i type payload n := h.imp fun _ hd => hn hd

/-- An answer goes to where the entry's host was last heard, which the module's own sending does not change. -/
theorem Answers.of_lasting {a s n : State} {i type : Nat} {payload : List Byte} (h : Answers s i type payload n)
    (he : lasting (sessionOf s i) = lasting (sessionOf a i)) : Answers a i type payload n := by
  obtain ⟨d, hd⟩ := h
  obtain ⟨hid, -, -, -, -, -, -, hport, haddr, -⟩ := lasting_eq_iff.mp he
  rw [hport, haddr, hid] at hd
  exact ⟨d, hd⟩

/-- The module answers on an open session where it transmits to the address of that session's latest message. -/
theorem sendDpt_answers {i : Nat} {s : State} (type : Nat) (payload : List Byte) (h : (sessionOf s i).id ≠ 0)
    (ht : transmits s (sessionOf s i).toGroup = true) : Answers s i type payload (sendDpt i type payload s) := by
  unfold sendDpt sendOn
  dsimp only
  rw [if_neg h, if_pos ht]
  exact ⟨_, emitTo_emits ..⟩

/-! ### A message whose turn has come (R76 to R83) -/

/-- The session of this id has had one more message applied. -/
def countApplied (id : Nat) (e : Session) : Session :=
  if e.id = id then { e with messagesApplied := wrapInc 32 e.messagesApplied } else e

theorem lasting_countApplied (id : Nat) (e : Session) : lasting (countApplied id e) = lasting e := by
  unfold countApplied
  split <;> rfl

section Admitted
variable {t i type : Nat} {src : Src} {payload : List Byte} {s : State}

theorem atTurn_talks : Talks (beginAt t s) (atTurn t src type payload i s) := (takeTurn_talks ..).trans (sendOrder_talks ..)

theorem atTurn_keeps : Keeps [.net, .pair] (beginAt t s) (atTurn t src type payload i s) :=
  ((takeTurn_keeps ..).mono (by decide)).then (sendOrder_keeps ..) (by decide)

/-- What the module answers now goes by where the message came from (R97). -/
theorem takeTurn_toGroup {group : Bool} {msg : Nat} (hi : i < s.net.sessions.length) :
    (sessionOf (takeTurn i group msg s) i).toGroup = group := by
  have hset : (sessionOf (modSession i (fun e => { consume msg e with toGroup := group }) s) i).toGroup = group := by
    rw [sessionOf_modSession _ hi]
  unfold takeTurn
  dsimp only
  split
  · exact (sendAckWith_toGroup ..).trans hset
  · exact hset

variable (h : Admitted t src type payload s i)
include h

theorem Admitted.entry_open : (sessionOf s i).id ≠ 0 := (sessionIdx_open (s := beginAt t s) h.1).1

theorem Admitted.transmits_atTurn (ht : transmits s src.group = true) :
    transmits (atTurn t src type payload i s) (sessionOf (atTurn t src type payload i s) i).toGroup = true := by
  have hgroup : (sessionOf (atTurn t src type payload i s) i).toGroup = src.group :=
    (congrArg Session.toGroup (sessionOf_of_net_eq (sendOrder_keeps ..).net_eq i)).trans
      (takeTurn_toGroup (lt_sessions_of_open h.entry_open))
  rw [hgroup, transmits, drives, atTurn_talks.pairState]
  exact ht

/-- A message that is admitted, and that its own meaning accepts, has its effect; then messages that R60 refuses are rejected in
their turns. -/
theorem hostMessage_accepts {f : Nat → List Byte → State → Verdict} {m : State}
    (hf : f i payload (atTurn t src type payload i s) = .ok m) :
    hostMessage t src type payload f s =
      rejectBad (sessionOf s i).rx.length i (modSession i (countApplied (sessionOf s i).id) m) := by
  obtain ⟨hidx, hsilent, hfollow, hfirst, hturn, hwait, hadm⟩ := h
  have happly : applyMessage i src.group src.msg type payload f (beginAt t s) =
      rejectBad (sessionOf s i).rx.length i (modSession i (countApplied (sessionOf s i).id) m) := by
    have hadm' : admissionError (sendOrder src.group (sessionOf (beginAt t s) i).id src.msg type payload
      (takeTurn i src.group src.msg (beginAt t s))) (sessionOf (beginAt t s) i) src.group type payload = none := hadm
    have hf' : f i payload (sendOrder src.group (sessionOf (beginAt t s) i).id src.msg type payload
      (takeTurn i src.group src.msg (beginAt t s))) = .ok m := hf
    unfold applyMessage
    simp only [hadm', hf']
    rfl
  rw [hostMessage, hwait, applyWaiting, onMessage, hidx, ← happly]
  simp only [hsilent, hfollow, hfirst, hturn, Bool.and_self, Bool.false_eq_true, if_false, if_true]

theorem hostMessage_talks {f : Nat → List Byte → State → Verdict} {m : State}
    (hf : f i payload (atTurn t src type payload i s) = .ok m) :
    Talks m (hostMessage t src type payload f s) := by
  rw [hostMessage_accepts h hf]
  exact (modSession_talks i m (lasting_countApplied _)).trans (rejectBad_talks ..)

theorem hostMessage_only {f : Nat → List Byte → State → Verdict} {m : State} {v w : List Group}
    (hf : f i payload (atTurn t src type payload i s) = .ok m) (hv : Keeps v (atTurn t src type payload i s) m)
    (hnet : [.net, .pair] ⊆ v := by decide) (hw : Group.clock :: v ⊆ w := by decide) :
    Only w s (hostMessage t src type payload f s) := by
  rw [hostMessage_accepts h hf]
  have hmsg : Keeps v (beginAt t s) m := (atTurn_keeps.mono hnet).then hv fun _ hg => hg
  exact ((hmsg.then (modSession_keeps ..) fun _ hg => hnet (by simp_all)).then (rejectBad_keeps ..) hnet).onlySince hw

/-- What the meaning of an admitted message sends on its session is an answer to the host. -/
theorem Admitted.sendDpt_answers (ht : transmits s src.group = true) {m : State} {answer : Nat} {body : List Byte}
    (hsessions : m.net.sessions = (atTurn t src type payload i s).net.sessions)
    (hpair : m.pair = (atTurn t src type payload i s).pair) : Answers s i answer body (sendDpt i answer body m) := by
  have hentry : sessionOf m i = sessionOf (atTurn t src type payload i s) i := by unfold sessionOf; rw [hsessions]
  have hlasting : lasting (sessionOf m i) = lasting (sessionOf s i) := by rw [hentry]; exact atTurn_talks.table i
  have hopen : (sessionOf m i).id ≠ 0 := by rw [hentry, atTurn_talks.id_eq]; exact h.entry_open
  refine (Machine.sendDpt_answers answer body hopen ?_).of_lasting hlasting
  rw [hentry, transmits, drives, hpair]
  exact h.transmits_atTurn ht

end Admitted

/-! ### RESULT_READ and RESULT_RELEASE (R86 to R91, R619, R620) -/

theorem ticket_of_find? {l : List Result} {k : Nat} {r : Result} (h : l.find? (fun x => x.ticket = k) = some r) : r.ticket = k := by
  simpa using List.find?_some h

/-- A change that leaves the tickets alone changes the result of a ticket where it stands. -/
theorem find?_map_ticket {l : List Result} {k : Nat} {r : Result} {f : Result → Result} (hf : ∀ x, (f x).ticket = x.ticket)
    (h : l.find? (fun x => x.ticket = k) = some r) : (l.map f).find? (fun x => x.ticket = k) = some (f r) := by
  rw [List.find?_map, show ((fun x : Result => decide (x.ticket = k)) ∘ f) = fun x => decide (x.ticket = k) from
    funext fun x => by simp [hf], h]
  rfl

theorem sendDpt_talks (i type : Nat) (payload : List Byte) (s : State) : Talks s (sendDpt i type payload s) := sendOn_talks ..

theorem noteRead_native {r : Result} {k : Nat} {s : State} (hr : s.net.results.find? (fun x => x.ticket = k) = some r)
    (hc : s.mod.compat = false) : (noteRead r s).net.results.find? (fun x => x.ticket = k) =
      some { r with readCount := wrapInc 16 r.readCount, repeated := true } := by
  have hread := find?_map_ticket (f := fun x => if x.ticket = r.ticket then
    { x with readCount := wrapInc 16 x.readCount, repeated := true } else x) (fun x => by split <;> rfl) hr
  simpa [noteRead, hc] using hread

/-- In compatibility mode no ready result of the ticket is held any longer (R619). -/
theorem noteRead_compat {r x : Result} {s : State} (hc : s.mod.compat = true) (hx : x ∈ (noteRead r s).net.results)
    (hk : x.ticket = r.ticket) : resultReady x = false := by
  simp only [noteRead, hc, if_true, List.mem_map, List.mem_filter] at hx
  obtain ⟨y, ⟨-, hy⟩, rfl⟩ := hx
  by_cases hyk : y.ticket = r.ticket
  · rw [if_pos hyk]
    simp only [hyk, decide_true, Bool.true_and, Bool.not_eq_true'] at hy
    exact hy
  · rw [if_neg hyk] at hk
    exact absurd hk hyk

/-- With nothing queued, no result becomes ready in this instant (R91). -/
theorem readyAtOnce_none {k : Nat} {s : State} (hq : s.pending = [])
    (hr : ∀ x ∈ s.net.results, x.ticket = k → resultReady x = false) : readyAtOnce s k = none := by
  unfold readyAtOnce
  rw [hq, List.takeWhile_nil, List.foldl_nil, List.find?_eq_none]
  intro x hx hready
  simp only [Bool.and_eq_true, decide_eq_true_eq] at hready
  rw [hr x hx hready.1] at hready
  exact absurd hready.2 (by decide)

theorem readResult_pending {soon : State → Nat → Option Result} {i : Nat} {p : List Byte} {s : State} {r : Result}
    (hr : s.net.results.find? (fun x => x.ticket = fld p 0 4) = some r) (hready : resultReady r = false)
    (hsoon : soon s (fld p 0 4) = none) :
    readResult soon i p s = .ok (sendDpt i 0x41 (resultPayload (fld p 0 4) 0 0 0 r.kind (estimate s) []) (drawFree s)) := by
  unfold readResult
  simp only [hr, hsoon]
  cases hb : r.body with
  | none => rfl
  | some b =>
    cases hd : r.time with
    | none => rfl
    | some d => simp [resultReady, hb, hd] at hready

section Read
variable {t i : Nat} {src : Src} {payload : List Byte} {s : State} (h : Admitted t src 0x40 payload s i)
include h

theorem resultRead_ready (ht : transmits s src.group = true) {r : Result} {b : List Byte} {d : Int}
    (hr : s.net.results.find? (fun x => x.ticket = fld payload 0 4) = some r) (hb : r.body = some b) (hd : r.time = some d) :
    Completes (.resultRead t src payload) s fun n =>
      Only [.clock, .net, .pair] s n ∧
      (s.mod.compat = false →
        Answers s i 0x41 (resultPayload (fld payload 0 4) 1 (b2n r.repeated) (wrapInc 16 r.readCount) r.kind (stampNative d) b) n ∧
        n.net.results.find? (fun x => x.ticket = fld payload 0 4) =
          some { r with readCount := wrapInc 16 r.readCount, repeated := true }) ∧
      (s.mod.compat = true →
        Answers s i 0x41 (resultPayload (fld payload 0 4) 1 0 1 r.kind (stampLegacy d) b) n ∧
        ∀ x ∈ n.net.results, x.ticket = fld payload 0 4 → resultReady x = false) := by
  let s1 := atTurn t src 0x40 payload i s
  have hk : r.ticket = fld payload 0 4 := ticket_of_find? hr
  have hmod : s1.mod = s.mod := (atTurn_keeps (s := s)).mod_eq
  have hr1 : s1.net.results.find? (fun x => x.ticket = fld payload 0 4) = some r := by rw [atTurn_talks.results]; exact hr
  have hread : readResult readyAtOnce i payload s1 = .ok (sendDpt i 0x41 (readyReply s1 r b d) (noteRead r s1)) := by
    unfold readResult
    simp only [hr1, hb, hd]
  have htalks := hostMessage_talks h hread
  have hresults := htalks.results.trans (sendDpt_talks ..).results
  have hanswer := (h.sendDpt_answers ht (m := noteRead r s1) (answer := 0x41) (body := readyReply s1 r b d) rfl rfl).mono htalks.sent
  refine ⟨_, rfl, hostMessage_only (v := [.net, .pair]) h hread
      (((noteRead_keeps ..).mono (by decide)).then (sendDpt_keeps ..) (by decide)),
    fun hc => ⟨?_, ?_⟩, fun hc => ⟨?_, ?_⟩⟩
  · simpa [readyReply, stampOf, hmod, hc, hk] using hanswer
  · rw [hresults]
    exact noteRead_native hr1 (by rw [hmod]; exact hc)
  · simpa [readyReply, stampOf, hmod, hc, hk, b2n] using hanswer
  · rw [hresults]
    exact fun x hx hxk => noteRead_compat (by rw [hmod]; exact hc) hx (hxk.trans hk.symm)

theorem resultRead_pending (ht : transmits s src.group = true) (hq : s.pending = []) {r : Result}
    (hr : s.net.results.find? (fun x => x.ticket = fld payload 0 4) = some r)
    (hready : ∀ x ∈ s.net.results, x.ticket = fld payload 0 4 → resultReady x = false) :
    Completes (.resultRead t src payload) s fun n =>
      (∃ estimate, Answers s i 0x41 (resultPayload (fld payload 0 4) 0 0 0 r.kind estimate []) n) ∧
      n.net.results = s.net.results ∧ Only [.clock, .net, .pair, .free] s n := by
  let s1 := atTurn t src 0x40 payload i s
  have hresults : s1.net.results = s.net.results := atTurn_talks.results
  have hread := readResult_pending (soon := readyAtOnce) (i := i) (p := payload) (s := s1) (by rw [hresults]; exact hr)
    (hready r (List.mem_of_find?_eq_some hr) (ticket_of_find? hr))
    (readyAtOnce_none ((atTurn_keeps (s := s)).pending_eq.trans hq) (by rw [hresults]; exact hready))
  have htalks := hostMessage_talks h hread
  exact ⟨_, rfl, ⟨_, (h.sendDpt_answers ht (m := drawFree s1) rfl rfl).mono htalks.sent⟩,
    (htalks.results.trans (sendDpt_talks ..).results).trans hresults,
    hostMessage_only (v := [.net, .pair, .free]) h hread
      (((drawFree_keeps ..).mono (by decide)).then (sendDpt_keeps ..) (by decide))⟩

theorem resultRead_unheld (ht : transmits s src.group = true)
    (hr : s.net.results.find? (fun x => x.ticket = fld payload 0 4) = none) :
    Completes (.resultRead t src payload) s fun n =>
      Answers s i 0x41 (resultPayload (fld payload 0 4) (if s.net.tickets.contains (fld payload 0 4) then 2 else 3) 0 0 0
        (List.replicate 12 0) []) n ∧
      n.net.results = s.net.results ∧ Only [.clock, .net, .pair] s n := by
  let s1 := atTurn t src 0x40 payload i s
  have hresults : s1.net.results = s.net.results := atTurn_talks.results
  have htickets : s1.net.tickets = s.net.tickets := atTurn_talks.tickets
  have hread : readResult readyAtOnce i payload s1 = .ok (sendDpt i 0x41 (resultPayload (fld payload 0 4)
      (if s.net.tickets.contains (fld payload 0 4) then 2 else 3) 0 0 0 (List.replicate 12 0) []) s1) := by
    unfold readResult
    simp only [hresults, hr, htickets]
  have htalks := hostMessage_talks h hread
  exact ⟨_, rfl, (h.sendDpt_answers ht (m := s1) rfl rfl).mono htalks.sent,
    (htalks.results.trans (sendDpt_talks ..).results).trans hresults,
    hostMessage_only (v := [.net, .pair]) h hread ((sendDpt_keeps ..).mono (by decide))⟩

end Read

/-- What a release leaves of the results: a ready one of the ticket goes, one on its way is marked to go (R88, R89, R620). -/
def released (k : Nat) (l : List Result) : List Result :=
  (l.filter fun r => !(r.ticket = k && resultReady r)).map fun r => if r.ticket = k then { r with dropWhenReady := true } else r

theorem mem_released {k : Nat} {l : List Result} {r : Result} : r ∈ released k l ↔
    (r.ticket ≠ k ∧ r ∈ l) ∨ (∃ x ∈ l, x.ticket = k ∧ resultReady x = false ∧ r = { x with dropWhenReady := true }) := by
  simp only [released, List.mem_map, List.mem_filter]
  constructor
  · rintro ⟨x, ⟨hx, hkeep⟩, rfl⟩
    by_cases hk : x.ticket = k
    · exact .inr ⟨x, hx, hk, by simpa [hk] using hkeep, if_pos hk⟩
    · exact .inl ⟨by rw [if_neg hk]; exact hk, by rw [if_neg hk]; exact hx⟩
  · rintro (⟨hk, hr⟩ | ⟨x, hx, hk, hready, rfl⟩)
    · exact ⟨r, ⟨hr, by simp [hk]⟩, if_neg hk⟩
    · exact ⟨x, ⟨hx, by simp [hready]⟩, if_pos hk⟩

theorem resultRelease_releases {t i : Nat} {src : Src} {payload : List Byte} {s : State} (h : Admitted t src 0x42 payload s i) :
    Completes (.resultRelease t src payload) s fun n =>
      (∀ r ∈ n.net.results, r.ticket = fld payload 0 4 → resultReady r = false ∧ r.dropWhenReady = true) ∧
      (∀ r, r.ticket ≠ fld payload 0 4 → (r ∈ n.net.results ↔ r ∈ s.net.results)) ∧
      (∀ r ∈ s.net.results, r.ticket = fld payload 0 4 → resultReady r = false →
        { r with dropWhenReady := true } ∈ n.net.results) ∧
      Only [.clock, .net, .pair] s n := by
  let s1 := atTurn t src 0x42 payload i s
  have hrelease : msgResultRelease i payload s1 =
      .ok { s1 with net := { s1.net with results := released (fld payload 0 4) s1.net.results } } := rfl
  have hresults : (hostMessage t src 0x42 payload msgResultRelease s).net.results = released (fld payload 0 4) s.net.results :=
    (hostMessage_talks h hrelease).results.trans (congrArg (released _) atTurn_talks.results)
  refine ⟨_, rfl, ?_, ?_, ?_, hostMessage_only (v := [.net, .pair]) h hrelease ((set_net_keeps ..).mono (by decide))⟩
  all_goals rw [hresults]
  · intro r hr hk
    rcases mem_released.mp hr with ⟨hne, -⟩ | ⟨x, -, -, hready, rfl⟩
    · exact absurd hk hne
    · exact ⟨hready, rfl⟩
  · intro r hne
    refine ⟨fun hr => ?_, fun hr => mem_released.mpr (.inl ⟨hne, hr⟩)⟩
    rcases mem_released.mp hr with ⟨-, hin⟩ | ⟨x, -, hk, -, rfl⟩
    · exact hin
    · exact absurd hk hne
  · exact fun r hr hk hready => mem_released.mpr (.inr ⟨r, hr, hk, hready, rfl⟩)

/-- Settles O19: a read of a ready result, of one on its way and of none, and a release. -/
theorem resultsAreRead : Obligations.ResultsAreRead :=
  ⟨fun _ _ _ _ _ _ _ _ h ht hr hb hd => resultRead_ready h ht hr hb hd,
   fun _ _ _ _ _ _ h ht hq hr hready => resultRead_pending h ht hq hr hready,
   fun _ _ _ _ _ h ht hr => resultRead_unheld h ht hr, fun _ _ _ _ _ h => resultRelease_releases h⟩

/-! ### SESSION_OPEN (R65, R69 to R71, R92, R95) -/

theorem freshId_ne_zero (v : Nat) (used : List Nat) : freshId v used ≠ 0 := by
  unfold freshId
  cases h : ((List.range 6).map fun k => (v + k) % 65536).find? fun x => x ≠ 0 && !used.contains x with
  | none => decide
  | some x =>
    have hx := List.find?_some h
    simp only [Bool.and_eq_true, decide_eq_true_eq] at hx
    exact hx.1

/-- Where not every entry is open, one of the four is free (R69). -/
theorem free_entry_of_length {s : State} (h : (openSessions s).length ≠ 4) :
    ∃ i, (List.range 4).find? (fun i => (sessionOf s i).id = 0) = some i := by
  by_contra hnone
  refine h ?_
  have hall : (List.range 4).find? (fun i => (sessionOf s i).id = 0) = none := by
    cases hf : (List.range 4).find? (fun i => (sessionOf s i).id = 0) with
    | none => rfl
    | some i => exact absurd ⟨i, hf⟩ hnone
  rw [openSessions, List.filter_eq_self.mpr fun i hi => by simpa using List.find?_eq_none.mp hall i hi, List.length_range]

/-- A SESSION_OPEN that no check refuses, and that takes over no CONTROL session, finds an entry free (R70, R71). -/
theorem openSessions_of_openError {s : State} {mac : Option Bool} {p : List Byte} (h : openError s mac p = none)
    (hc : fld p 0 1 = 1 → controlIdx s = none) : (openSessions s).length ≠ 4 := by
  intro hlen
  unfold openError at h
  dsimp only at h
  split_ifs at h with _ _ _ hheld _
  simp only [Bool.and_eq_true, decide_eq_true_eq] at hheld
  rw [hc hheld.1] at hheld
  exact absurd hheld.2 (by decide)

/-- The entry of a session as it opens (R71, R93, R98). -/
def openedEntry (i port addr : Nat) (group : Bool) (mac : Option Bool) (p : List Byte) (s : State) : Session :=
  let id := freshId (Config.freeSessionId s.freeN).toNat ((openSessions s).map fun i => (sessionOf s i).id)
  { freedSession (sessionOf s i) with
    id := id, control := fld p 0 1 = 1, auth := !authOff s && mac = some true, group := group, toGroup := group
    txSeq := (Config.freeInitialSeq p).toNat, rxAck := fld p 4 4, advAck := fld p 4 4, credit := creditMax s
    lastRx := s.now, port := port, addr := addr
    key := sessionKey s ((p.drop 8).take 16) (leBytes 16 (Config.freeNonce p).toNat) id
    messagesApplied := wrapInc 32 (sessionOf s i).messagesApplied, opening := openingOf p }

/-- The module with entry `i` taken by a session, and its host known. -/
def sessionOpened (i port addr : Nat) (se : Session) (s : State) : State :=
  let s1 := drawFree (modSession i (fun _ => se) s)
  forgetLimit 0x0212 se.id { s1 with net := { s1.net with hosts := (addr, port) :: s1.net.hosts.filter fun h => h.1 ≠ addr } }

theorem openSession_of_free {i port addr : Nat} {group : Bool} {mac : Option Bool} {p : List Byte} {s : State}
    (hc : fld p 0 1 = 1 → controlIdx s = none) (hi : (List.range 4).find? (fun i => (sessionOf s i).id = 0) = some i) :
    ∃ body, openSession none port addr group mac p s =
      sendDpt i 0x02 body (sessionOpened i port addr (openedEntry i port addr group mac p s) s) := by
  cases hcontrol : controlIdx s with
  | none =>
    simp only [openSession, hcontrol, hi]
    exact ⟨_, rfl⟩
  | some k =>
    have hrole : ¬ fld p 0 1 = 1 := fun hrole => by simp [hc hrole] at hcontrol
    simp only [openSession, hcontrol, if_neg hrole, hi]
    exact ⟨_, rfl⟩

theorem orderOpen_talks (group : Bool) (p : List Byte) (before s : State) : Talks s (orderOpen group p before s) := by
  unfold orderOpen
  split
  · exact sendOrder_talks ..
  · exact sendOrder_talks ..

theorem sessionOpened_entry {i port addr : Nat} (se : Session) {s : State} (h : i < s.net.sessions.length) :
    sessionOf (sessionOpened i port addr se s) i = se := sessionOf_modSession (fun _ => se) h

theorem sessionOpened_other {i j port addr : Nat} (se : Session) (s : State) (h : j ≠ i) :
    sessionOf (sessionOpened i port addr se s) j = sessionOf s j := sessionOf_modSession_other (fun _ => se) s h

/-- A SESSION_OPEN that no check refuses takes a free entry, and is answered there (R69 to R71). -/
theorem applyOpen_opens {port addr : Nat} {group : Bool} {udp : List Byte} {s n : State} (hn : applyOpen port addr group udp s = n)
    (hmac : openRefused s udp = false) (hnew : openedBy s (openPayload udp) = none)
    (herror : openError s (openMac s udp) (openPayload udp) = none)
    (hcontrol : fld (openPayload udp) 0 1 = 1 → controlIdx s = none) (hlen : s.net.sessions.length = 4) :
    ∃ i, i < 4 ∧ (sessionOf s i).id = 0 ∧
      lasting (sessionOf n i) = lasting (openedEntry i port addr group (openMac s udp) (openPayload udp) s) ∧
      (transmits s group = true → ∃ body, Answers n i 0x02 body n) ∧ (∀ j, j ≠ i → sessionOf n j = sessionOf s j) ∧
      n.net.hosts.head? = some (addr, port) := by
  obtain ⟨i, hi⟩ := free_entry_of_length (openSessions_of_openError herror hcontrol)
  have hi4 : i < 4 := List.mem_range.mp (List.mem_of_find?_eq_some hi)
  obtain ⟨answer, hopened⟩ := openSession_of_free (port := port) (addr := addr) (group := group) (mac := openMac s udp) hcontrol hi
  generalize hse : openedEntry i port addr group (openMac s udp) (openPayload udp) s = se at hopened
  generalize hm : sessionOpened i port addr se s = m at hopened
  have hentry : sessionOf m i = se := hm ▸ sessionOpened_entry se (by omega)
  have happly : n = orderOpen group (openPayload udp) s (sendDpt i 0x02 answer m) := by
    rw [← hn, applyOpen, if_neg (by simp [hmac])]
    simp only [hnew, herror, hopened]
  have htalks : Talks (sendDpt i 0x02 answer m) n := happly ▸ orderOpen_talks ..
  have hsent : Talks m n := (sendDpt_talks ..).trans htalks
  refine ⟨i, hi4, by simpa using List.find?_some hi, ?_, fun ht => ⟨answer, ?_⟩, fun j hj => ?_, ?_⟩
  · rw [hse, ← hentry]
    exact hsent.table i
  · have hid : (sessionOf m i).id ≠ 0 := by rw [hentry, ← hse]; exact freshId_ne_zero _ _
    have hgroup : transmits m (sessionOf m i).toGroup = true := by rw [hentry, ← hse, ← hm]; exact ht
    exact ((sendDpt_answers 0x02 answer hid hgroup).mono htalks.sent).of_lasting (hsent.table i).symm
  · rw [happly, sessionOf_of_net_eq (orderOpen_keeps ..).net_eq, sendDpt, sendOn_others hj, ← hm, sessionOpened_other se s hj]
  · rw [hsent.hosts, ← hm]
    rfl

theorem exec_sessionOpen (t port addr : Nat) (group : Bool) (header body : List Byte) {s : State}
    (hopen : isOpenDatagram (header ++ body) = true) (hsilent : isSilent s = false) :
    exec (.sessionOpen t port addr group header body) s = .next (if openRefused s (header ++ body) then openFailed (beginAt t s)
      else if group && follows s then holdMessage (0, 1, 0x01, heldOpen port addr (header ++ body)) (beginAt t s)
      else applyOpen port addr group (header ++ body) (beginAt t s)) := by
  have hsilent' : isSilent (beginAt t s) = false := hsilent
  exact congrArg Host.Outcome.next (if_neg (by simp [hsilent', hopen]))

theorem sessionOpen_opens (t port addr : Nat) (group : Bool) (header body udp : List Byte) (s : State)
    (hudp : udp = header ++ body) (hopen : isOpenDatagram udp = true) (hsilent : isSilent s = false)
    (hmac : openRefused s udp = false) (hfollow : (group && follows s) = false) (hnew : openedBy s (openPayload udp) = none)
    (herror : openError s (openMac s udp) (openPayload udp) = none)
    (hcontrol : fld (openPayload udp) 0 1 = 1 → controlIdx s = none) (hlen : s.net.sessions.length = 4) :
    Completes (.sessionOpen t port addr group header body) s fun n =>
      (∃ i, i < 4 ∧ (sessionOf s i).id = 0 ∧ (sessionOf n i).id ≠ 0 ∧
        (sessionOf n i).control = decide (fld (openPayload udp) 0 1 = 1) ∧ (sessionOf n i).port = port ∧
        (sessionOf n i).addr = addr ∧ (sessionOf n i).rxAck = fld (openPayload udp) 4 4 ∧ (sessionOf n i).group = group ∧
        (sessionOf n i).auth = (!authOff s && openMac s udp = some true) ∧
        (transmits s group = true → ∃ body, Answers n i 0x02 body n) ∧ ∀ j, j ≠ i → sessionOf n j = sessionOf s j) ∧
      n.net.hosts.head? = some (addr, port) ∧ Only [.clock, .net, .free, .log, .pair] s n := by
  subst hudp
  have hexec := exec_sessionOpen t port addr group header body hopen hsilent
  rw [if_neg (by simp [hmac]), if_neg (by simp [hfollow])] at hexec
  obtain ⟨i, hi, hfree, hentry, hanswers, hothers, hhost⟩ := applyOpen_opens (s := beginAt t s) rfl hmac hnew herror hcontrol hlen
  obtain ⟨hid, hrole, hauth, hgroup, hack, -, -, hport, haddr, -⟩ := lasting_eq_iff.mp hentry
  exact ⟨_, hexec, ⟨i, hi, hfree, fun h0 => freshId_ne_zero _ _ (hid.symm.trans h0), hrole, hport, haddr, hack, hgroup, hauth,
      hanswers, hothers⟩, hhost,
    (execSessionOpen_keeps t port addr group header body s _ hexec).onlySince⟩

/-- A SESSION_OPEN with a wrong MAC is counted, and opens nothing (R92, R95). -/
theorem sessionOpen_refused (t port addr : Nat) (group : Bool) (header body udp : List Byte) (s : State)
    (hudp : udp = header ++ body) (hopen : isOpenDatagram udp = true) (hsilent : isSilent s = false)
    (hmac : openRefused s udp = true) :
    Completes (.sessionOpen t port addr group header body) s fun n =>
      n.net.openFailures = wrapInc 16 s.net.openFailures ∧ openSessions n = openSessions s ∧ Only [.clock, .net, .log] s n := by
  subst hudp
  have hexec := exec_sessionOpen t port addr group header body hopen hsilent
  rw [if_pos hmac] at hexec
  have htalks := raiseLimited_talks 0x0212 0 (secT 1) (fun _ => []) { beginAt t s with
    net := { s.net with openFailures := wrapInc 16 s.net.openFailures } }
  exact ⟨_, hexec, htalks.openFailures, htalks.openSessions_eq, (openFailed_keeps ..).onlySince⟩

/-! ### SESSION_CLOSE, KEEPALIVE and ACK (R57, R62, R72, R74) -/

theorem sessionClose_frees (t i : Nat) (src : Src) (payload : List Byte) (s : State) (h : Admitted t src 0x03 payload s i) :
    Completes (.sessionClose t src payload) s fun n =>
      (sessionOf n i).id = 0 ∧ n.net.results = s.net.results ∧ Only [.clock, .net, .pair] s n := by
  let s1 := atTurn t src 0x03 payload i s
  have hclose : msgSessionClose i payload s1 = .ok (modSession i freedSession s1) := rfl
  have htalks := hostMessage_talks h hclose
  have hopen : (sessionOf s1 i).id ≠ 0 := by rw [atTurn_talks.id_eq]; exact h.entry_open
  refine ⟨_, rfl, ?_, htalks.results.trans atTurn_talks.results, hostMessage_only (v := [.net, .pair]) h hclose
    ((modSession_keeps ..).mono (by decide))⟩
  rw [htalks.id_eq, sessionOf_modSession _ (lt_sessions_of_open hopen)]
  rfl

theorem exec_keepalive (t : Nat) {i session : Nat} {s : State} (h : sessionIdx s session = some i) :
    exec (.keepalive t session) s =
      .next (modSession i (fun e => { e with lastRx := max s.now t }) { s with now := max s.now t, sent := [] }) := by
  have hidx : sessionIdx (beginAt t s) session = some i := h
  show execKeepalive t session s = _
  simp only [execKeepalive, hidx]
  rfl

/-- The session has been heard, and what it acknowledges is done with (R57, R72). -/
def ackHeard (now ack sack credit : Nat) (e : Session) : Session := applyAck ack sack credit { e with lastRx := now }

theorem exec_ack (t ack sack credit : Nat) {i session : Nat} {s : State} (h : sessionIdx s session = some i) :
    exec (.ack t session ack sack credit) s =
      .next (modSession i (ackHeard (beginAt t s).now ack sack credit) (beginAt t s)) := by
  have hidx : sessionIdx (beginAt t s) session = some i := h
  show execAck t session ack sack credit s = _
  simp only [execAck, hidx]
  rfl

theorem ack_drops (t i session ack sack credit : Nat) (s : State) (h : sessionIdx s session = some i) :
    Completes (.ack t session ack sack credit) s fun n =>
      (sessionOf n i).tx = (sessionOf s i).tx.filter (fun x => !ackCovers ack sack x.seq) ∧ (sessionOf n i).lastRx = n.now ∧
      (∀ j, j ≠ i → sessionOf n j = sessionOf s j) ∧ Only [.clock, .net] s n := by
  have hentry := sessionOf_modSession (ackHeard (beginAt t s).now ack sack credit) (s := beginAt t s)
    (lt_sessions_of_open (sessionIdx_open h).1)
  exact ⟨_, exec_ack t ack sack credit h, congrArg Session.tx hentry, congrArg Session.lastRx hentry,
    fun j hj => sessionOf_modSession_other _ (beginAt t s) hj, (modSession_keeps ..).onlySince⟩

/-- Settles O17: each clause is the lemma on its message. -/
theorem sessionMessages : Obligations.SessionMessages :=
  ⟨sessionOpen_opens, sessionOpen_refused, sessionClose_frees, fun t _ _ _ => exec_keepalive t, ack_drops⟩

/-! ### ORDER and RESEND_REQ (R98, R506, R507) -/

/-- A module that follows, with its pair registers changed in other than the state, follows. -/
theorem follows_of_pairState {s n : State} (h : n.pair.state = s.pair.state) : follows n = follows s := by
  unfold follows; rw [h]

/-- The message of an ORDER entry is lacking: it is neither held nor refused here (R506). -/
def lacksMessage (e : OrderEntry) (s : State) : Bool :=
  (refusedHere e s).isNone && !s.pair.held.any fun m => orderNames e m && (e.type ≠ 0x01 || crc32c (heldPayload m) = e.crc)

theorem lacksMessage_of_none {e : OrderEntry} {s : State} (hh : s.pair.held = []) (hr : refusedHere e s = none) :
    lacksMessage e s = true := by
  simp [lacksMessage, hh, hr]

/-- One ORDER entry has joined none that waited. -/
def orderNoted (t : Nat) (e : OrderEntry) (s : State) : State := { beginAt t s with pair := { s.pair with orders := [e] } }

theorem exec_order (t : Nat) (e : OrderEntry) {s : State} (hf : follows s = true) (ho : s.pair.orders = []) :
    exec (.order t [e]) s =
      .next (runOrders 1 (forEach ([e].filter fun x => lacksMessage x (orderNoted t e s)) (fun x => askAgain 0 x.msg 1)
        (orderNoted t e s))) := by
  have hnoted : { beginAt t s with pair := { s.pair with orders := s.pair.orders ++ [e] } } = orderNoted t e s := by rw [ho]; rfl
  have hf' : follows (beginAt t s) = true := hf
  show Host.Outcome.next _ = _
  rw [hf', beginAt_pair, hnoted]
  rfl

theorem runOrders_waits {n : Nat} {e : OrderEntry} {s : State} (ho : s.pair.orders = [e]) (hh : s.pair.held = [])
    (hr : refusedHere e s = none) : runOrders (n + 1) s = s := by
  unfold runOrders
  simp only [ho, hh, hr, List.find?_nil, List.any_nil, Bool.false_and, Bool.false_eq_true, if_false]

theorem runOrders_applies {e : OrderEntry} {m : HeldMessage} {s : State} (ho : s.pair.orders = [e]) (hh : s.pair.held = [m])
    (hnames : orderNames e m = true) (hcrc : crc32c (heldPayload m) = e.crc) (htype : e.type ≠ 0x01) :
    runOrders 1 s = applyHeldMessage m { s with
      pair := { s.pair with orders := [], held := [], orderSeq := wrapInc 32 s.pair.orderSeq, orderAny := true } } := by
  have hfind : [m].find? (fun m => orderNames e m && crc32c (heldPayload m) = e.crc) = some m := by simp [hnames, hcrc]
  unfold runOrders
  simp only [ho, hh, hfind, if_pos htype, List.erase_cons_head]
  rfl

theorem order_applies (t : Nat) (e : OrderEntry) (m : HeldMessage) (s : State) (hf : follows s = true) (ho : s.pair.orders = [])
    (hh : s.pair.held = [m]) (hnames : orderNames e m = true) (hcrc : crc32c (heldPayload m) = e.crc) (htype : e.type ≠ 0x01) :
    Completes (.order t [e]) s fun n => n = applyHeldMessage m { beginAt t s with
      pair := { s.pair with orders := [], held := [], orderSeq := wrapInc 32 s.pair.orderSeq, orderAny := true } } := by
  have hlacks : lacksMessage e (orderNoted t e s) = false := by simp [lacksMessage, orderNoted, hh, hnames, htype]
  have hexec := exec_order t e hf ho
  rw [List.filter_cons_of_neg (by simp [hlacks])] at hexec
  exact ⟨_, hexec, runOrders_applies (s := orderNoted t e s) rfl hh hnames hcrc htype⟩

theorem order_asks (t : Nat) (e : OrderEntry) (s : State) (hf : follows s = true) (ho : s.pair.orders = []) (hh : s.pair.held = [])
    (hr : refusedHere e s = none) : Completes (.order t [e]) s fun n =>
      n.sent.map partnerOut = [some (4, resendBytes 0 e.msg 1)] ∧
      n.pair = { s.pair with orders := [e], frameSeq := wrapInc 16 s.pair.frameSeq } ∧ Only [.clock, .pair] s n := by
  have hlacks : lacksMessage e (orderNoted t e s) = true := lacksMessage_of_none (s := orderNoted t e s) hh hr
  have hexec := exec_order t e hf ho
  rw [List.filter_cons_of_pos (p := fun x => lacksMessage x (orderNoted t e s)) hlacks, List.filter_nil] at hexec
  have hnext : exec (.order t [e]) s = .next (askAgain 0 e.msg 1 (orderNoted t e s)) :=
    hexec.trans (congrArg Host.Outcome.next (runOrders_waits (s := askAgain 0 e.msg 1 (orderNoted t e s)) rfl hh hr))
  have hnoted : Keeps [.pair] (beginAt t s) (orderNoted t e s) := set_pair_keeps ..
  exact ⟨_, hnext, rfl, rfl, (hnoted.then (askAgain_keeps ..) (by decide)).onlySince⟩

theorem forEach_sendPartner_sent {α : Type} (type : Nat) (body : α → List Byte) (l : List α) (s : State) :
    (forEach l (fun x => sendPartner type (body x)) s).sent.map partnerOut =
      s.sent.map partnerOut ++ l.map fun x => some (type, body x) := by
  induction l generalizing s with
  | nil => exact (List.append_nil _).symm
  | cons x l ih =>
    refine (ih _).trans ?_
    simp [sendPartner, partnerOut]

theorem resendReq_tokens (t first count : Nat) (s : State) (h : s.pair.state = .active) :
    Completes (.resendReq t 2 first count) s fun n =>
      n.sent.map partnerOut = (s.pair.tokensSent.filter fun x => inSpan first count x.seq).map (fun x => some (3, tokenBytes x)) ∧
      Only [.clock, .pair] s n := by
  have hexec : exec (.resendReq t 2 first count) s = .next (forEach (s.pair.tokensSent.filter fun x => inSpan first count x.seq)
      (fun x => sendPartner 3 (tokenBytes x)) (beginAt t s)) :=
    congrArg Host.Outcome.next (if_neg (by simp [h]))
  exact ⟨_, hexec, forEach_sendPartner_sent 3 tokenBytes _ (beginAt t s),
    (Keeps.forEach (fun x s => sendPartner_keeps 3 (tokenBytes x) s) (Keeps.refl _ _)).onlySince⟩

/-! ### SIGNATURE and the pieces of a CAMERA frame (R380, R509, R510) -/

theorem pageOf_modPage {id : Nat} {f : Page → Page} (hf : ∀ p, (f p).id = p.id) {s : State} {pg : Page}
    (h : pageOf s id = some pg) : pageOf (modPage id f s) id = some (f pg) := by
  have hid : pg.id = id := by simpa using List.find?_some h
  let g (p : Page) : Page := if p.id = id then f p else p
  have hg (p : Page) : ((g p).id = id) = (p.id = id) := by
    by_cases hp : p.id = id <;> simp [g, hp, hf]
  show (s.jobs.pages.map g).find? (fun p => p.id = id) = _
  rw [List.find?_map]
  simp only [Function.comp_def, hg]
  rw [show s.jobs.pages.find? (fun p => p.id = id) = some pg from h]
  exact congrArg some (if_pos hid)

/-- The partner's signature of a page that is here (R509). -/
theorem exec_signature (t : Nat) {id sig : Nat} {pg : Page} {s : State} (hp : partnerOn s = true) (hpage : pageOf s id = some pg)
    (hstate : pg.state = .rendered) : ∃ m, Keeps [.jobs, .pair] (beginAt t s) m ∧
      pageOf m id = some { pg with partnerSig := some sig } ∧ m.pair = { s.pair with signatures := wrapInc 16 s.pair.signatures } ∧
      exec (.signature t id sig) s = .next (if sig = storeSignature pg.parts then m
        else if follows m then diverge 1 m else modPage id (fun p => { p with partnerSig := none }) m) := by
  let s1 := modPage id (fun p => { p with partnerSig := some sig }) (beginAt t s)
  have hpage1 : pageOf s1 id = some { pg with partnerSig := some sig } :=
    pageOf_modPage (f := fun p => { p with partnerSig := some sig }) (s := beginAt t s) (fun _ => rfl) hpage
  have hon : partnerOn (beginAt t s) = true := hp
  refine ⟨{ s1 with pair := { s.pair with signatures := wrapInc 16 s.pair.signatures } }, ?_, hpage1, rfl, ?_⟩
  · exact ((modPage_keeps ..).mono (by decide)).then (set_pair_keeps s1 _) (by decide)
  · refine congrArg Host.Outcome.next ((if_pos hon).trans ?_)
    show compareSignature id s1 = _
    unfold compareSignature
    simp only [hpage1, if_pos hstate]
    rfl

theorem signature_agrees (t : Nat) {id sig : Nat} {pg : Page} {s : State} (hp : partnerOn s = true) (hpage : pageOf s id = some pg)
    (hstate : pg.state = .rendered) (hsig : sig = storeSignature pg.parts) : Completes (.signature t id sig) s fun n =>
      pageOf n id = some { pg with partnerSig := some sig } ∧
      n.pair = { s.pair with signatures := wrapInc 16 s.pair.signatures } ∧ Only [.clock, .jobs, .pair] s n := by
  obtain ⟨m, hkeeps, hpagem, hpair, hexec⟩ := exec_signature t (sig := sig) hp hpage hstate
  exact ⟨m, hexec.trans (congrArg Host.Outcome.next (if_pos hsig)), hpagem, hpair, hkeeps.onlySince⟩

/-- A page that differs severs a following module (R510). -/
theorem signature_severs (t : Nat) {id sig : Nat} {pg : Page} {s : State} (hp : partnerOn s = true) (hpage : pageOf s id = some pg)
    (hstate : pg.state = .rendered) (hsig : sig ≠ storeSignature pg.parts) (hf : follows s = true) :
    Completes (.signature t id sig) s fun n =>
      n.pair.state = .severed ∧ n.pair.severCause = 1 ∧ Raised 0x0E13 (leBytes 1 1) n := by
  obtain ⟨m, -, -, hpair, hexec⟩ := exec_signature t (sig := sig) hp hpage hstate
  have hfm : follows m = true := (follows_of_pairState (by rw [hpair])).trans hf
  rw [if_neg hsig, if_pos hfm, diverge, if_pos hfm] at hexec
  obtain ⟨hsevered, hcause⟩ := enterSevered_pair 1 m
  exact ⟨_, hexec, hsevered, hcause, enterSevered_raised ..⟩

theorem partnerCamera_kept (t : Nat) (body : List Byte) (s : State) (hp : partnerOn s = true) (hlen : 32 ≤ body.length)
    (hpiece : 126 ≤ (pieceStats body).length) : Completes (.partnerCamera t body) s fun n =>
      n.pair = { s.pair with camRecords := (s.pair.camRecords.filter fun b => b.take 32 = body.take 32) ++ [body] } ∧
      Only [.clock, .pair] s n := by
  have hon : partnerOn (beginAt t s) = true := hp
  have hexec : exec (.partnerCamera t body) s = .next { beginAt t s with pair := { s.pair with
      camRecords := (s.pair.camRecords.filter fun b => b.take 32 = body.take 32) ++ [body] } } :=
    congrArg Host.Outcome.next ((if_neg (by simp [hon, hlen])).trans (if_pos hpiece))
  exact ⟨_, hexec, rfl, (set_pair_keeps (beginAt t s) _).onlySince⟩

/-! ### A segment that the active passes on (R57, R58, R63, R64, R98) -/

/-- A following module sends no ORDER entry. -/
theorem sendOrder_of_follows {s : State} (h : follows s = true) (group : Bool) (session msg type : Nat) (payload : List Byte) :
    sendOrder group session msg type payload s = s := by
  refine if_neg fun hactive => ?_
  simp only [Bool.and_eq_true, decide_eq_true_eq] at hactive
  simp [follows, hactive.2] at h

theorem rejectOne_keeps_of_follows {s : State} (h : follows s = true) (i : Nat) (m : RxMsg) : Keeps [.net] s (rejectOne i m s) := by
  have hturn : follows (takeTurn i (sessionOf s i).toGroup m.msg s) = true :=
    (follows_of_pairState (takeTurn_talks ..).pairState).trans h
  rw [rejectOne, sendOrder_of_follows hturn]
  exact (takeTurn_keeps ..).then (sendReject_keeps ..) (by decide)

theorem rejectBad_keeps_of_follows (n i : Nat) {s : State} (h : follows s = true) : Keeps [.net] s (rejectBad n i s) := by
  induction n generalizing s with
  | zero => exact Keeps.refl _ _
  | succ n ih =>
    unfold rejectBad
    split
    · exact Keeps.refl _ _
    · exact (rejectOne_keeps_of_follows h ..).then (ih ((follows_of_pairState (rejectOne_talks ..).pairState).trans h)) (by decide)

/-- Session entry `i` has heard a segment, and what that acknowledges is done with (R57, R72). -/
def segmentHeard (i : Nat) (udp : List Byte) (s : State) : State :=
  modSession i (ackHeard s.now (fld udp 12 4) (fld udp 16 4) (fld udp 20 2)) s

theorem segmentHeard_entry {i : Nat} (udp : List Byte) {s : State} (h : (sessionOf s i).id ≠ 0) :
    sessionOf (segmentHeard i udp s) i = ackHeard s.now (fld udp 12 4) (fld udp 16 4) (fld udp 20 2) (sessionOf s i) :=
  sessionOf_modSession _ (lt_sessions_of_open h)

/-- Session entry `i` has heard a segment, and takes it: the fields of its header, and its payload (R57, R64, R73). -/
def segmentTaken (i port addr : Nat) (group : Bool) (udp : List Byte) (s : State) : State :=
  modSession i (takeSegment group s.now (fld udp 3 1) (fld udp 4 2) (fld udp 8 4) (fld udp 24 4) (fld udp 28 4)
      ((udp.drop 32).take (fld udp 22 2)))
    (hearFrom i port addr group (segmentHeard i udp s))

theorem segmentTaken_keeps (i port addr : Nat) (group : Bool) (udp : List Byte) (s : State) :
    Keeps [.net] s (segmentTaken i port addr group udp s) :=
  ((modSession_keeps ..).then (hearFrom_keeps ..) (by decide)).then (modSession_keeps ..) (by decide)

theorem advanceAck_next (a : Nat) : advanceAck 1 a [(a + 1) % 2 ^ 32] = ((a + 1) % 2 ^ 32, []) := by
  simp [advanceAck]

theorem hearFrom_entry {i : Nat} (port addr : Nat) (group : Bool) {s : State} (h : i < s.net.sessions.length) :
    sessionOf (hearFrom i port addr group s) i = { sessionOf s i with port := port, addr := addr, toGroup := group } := by
  unfold hearFrom
  dsimp only
  split
  · exact sessionOf_modSession _ h
  · exact sessionOf_modSession _ h

/-- The next sequence number is no repeated one (R63, R65). -/
theorem next_not_taken {e : Session} {seq : Nat} (hahead : e.rxAhead = []) (hack : e.rxAck < 2 ^ 32)
    (hnext : seq = (e.rxAck + 1) % 2 ^ 32) : ¬ (decide ((seq + 2 ^ 32 - e.rxAck) % 2 ^ 32 = 0) ||
      decide (2 ^ 31 ≤ (seq + 2 ^ 32 - e.rxAck) % 2 ^ 32) || e.rxAhead.contains seq) = true := by
  have hdist : (seq + 2 ^ 32 - e.rxAck) % 2 ^ 32 = 1 := by omega
  rw [hdist, hahead]
  simp

section Segment
variable {i port addr : Nat} {group : Bool} {udp : List Byte} {s : State} (hopen : (sessionOf s i).id ≠ 0)
  (hahead : (sessionOf s i).rxAhead = []) (hnext : fld udp 8 4 = ((sessionOf s i).rxAck + 1) % 2 ^ 32)
include hopen hahead hnext

theorem segmentTaken_entry : (sessionOf (segmentTaken i port addr group udp s) i).rxAck = fld udp 8 4 ∧
    (sessionOf (segmentTaken i port addr group udp s) i).lastRx = s.now := by
  have hheard := segmentHeard_entry udp hopen
  have hfrom := hearFrom_entry port addr group (s := segmentHeard i udp s) (lt_sessions_of_open (by rw [hheard]; exact hopen))
  rw [hheard] at hfrom
  have htaken := sessionOf_modSession (takeSegment group s.now (fld udp 3 1) (fld udp 4 2) (fld udp 8 4) (fld udp 24 4)
    (fld udp 28 4) ((udp.drop 32).take (fld udp 22 2))) (s := hearFrom i port addr group (segmentHeard i udp s))
    (lt_sessions_of_open (by rw [hfrom]; exact hopen))
  rw [hfrom] at htaken
  refine ⟨(congrArg Session.rxAck htaken).trans ?_, congrArg Session.lastRx htaken⟩
  show (advanceAck ((sessionOf s i).rxAhead.length + 1) (sessionOf s i).rxAck (fld udp 8 4 :: (sessionOf s i).rxAhead)).1 = _
  rw [hahead, hnext, List.length_nil, advanceAck_next]

/-- A segment next in sequence is taken, and may be acknowledged; then messages that R60 refuses are rejected in their turns. -/
theorem sessionSegment_next (htype : fld udp 3 1 ≠ 0x04) (htype' : fld udp 3 1 ≠ 0x05) (hack : (sessionOf s i).rxAck < 2 ^ 32)
    (hwindow : inWindow (sessionOf s i) (fld udp 8 4) = true) : ∃ m n,
      (m = segmentTaken i port addr group udp s ∨ m = sendAck i (segmentTaken i port addr group udp s)) ∧
      sessionSegment i port addr group udp s = rejectBad n i m := by
  have hheard := segmentHeard_entry udp hopen
  have hnew := next_not_taken (e := sessionOf (segmentHeard i udp s) i) (seq := fld udp 8 4)
    (by rw [hheard]; exact hahead) (by rw [hheard]; exact hack) (by rw [hheard]; exact hnext)
  have hin : ¬ (!inWindow (sessionOf (segmentHeard i udp s) i) (fld udp 8 4)) = true := by
    rw [hheard, Bool.not_eq_true, Bool.not_eq_false']
    exact hwindow
  have hbare : ¬ (decide (fld udp 3 1 = 0x04) || decide (fld udp 3 1 = 0x05)) = true := by simp [htype, htype']
  obtain ⟨due, htaken⟩ : ∃ due : Bool, sessionSegment i port addr group udp s =
      let told := if due then sendAck i (segmentTaken i port addr group udp s) else segmentTaken i port addr group udp s
      rejectBad (sessionOf told i).rx.length i told := ⟨_, (if_neg hbare).trans ((if_neg hnew).trans (if_neg hin))⟩
  cases due with
  | true => exact ⟨_, _, .inr rfl, htaken⟩
  | false => exact ⟨_, _, .inl rfl, htaken⟩


/-- A following module that takes the next segment changes its network block only, and acknowledges that segment. -/
theorem sessionSegment_takes (htype : fld udp 3 1 ≠ 0x04) (htype' : fld udp 3 1 ≠ 0x05) (hack : (sessionOf s i).rxAck < 2 ^ 32)
    (hwindow : inWindow (sessionOf s i) (fld udp 8 4) = true) (hf : follows s = true) :
    Keeps [.net] s (sessionSegment i port addr group udp s) ∧
      (sessionOf (sessionSegment i port addr group udp s) i).rxAck = fld udp 8 4 ∧
      (sessionOf (sessionSegment i port addr group udp s) i).lastRx = s.now := by
  have htaken := segmentTaken_keeps i port addr group udp s
  obtain ⟨hrxAck, hlastRx⟩ := segmentTaken_entry (port := port) (addr := addr) (group := group) hopen hahead hnext
  obtain ⟨m, n, hm, hsegment⟩ := sessionSegment_next (port := port) (addr := addr) (group := group) hopen hahead hnext
    htype htype' hack hwindow
  have htold : Keeps [.net] (segmentTaken i port addr group udp s) m ∧ Talks (segmentTaken i port addr group udp s) m := by
    obtain rfl | rfl := hm
    · exact ⟨.refl _ _, .refl _⟩
    · exact ⟨sendAck_keeps .., sendAckWith_talks ..⟩
  have hkeeps : Keeps [.net] s m := htaken.then htold.1 (by decide)
  obtain ⟨-, -, -, -, hrxAck', -, hlastRx', -⟩ := lasting_eq_iff.mp ((htold.2.trans (rejectBad_talks n i m)).table i)
  rw [hsegment]
  exact ⟨hkeeps.then (rejectBad_keeps_of_follows n i ((follows_of_pairState (by rw [hkeeps.pair_eq])).trans hf)) (by decide),
    hrxAck'.trans hrxAck, hlastRx'.trans hlastRx⟩

end Segment

/-- The last frame of a datagram that the active passes on, of a session that is open here. -/
theorem exec_partnerSegment (t : Nat) {i : Nat} {udp d : List Byte} {s : State} (hf : follows s = true)
    (hroom : udp.length < segmentRoom) (hd : d = s.pair.segPart ++ udp) (hlen : 32 + fld d 22 2 ≤ d.length)
    (hidx : sessionIdx s (fld d 6 2) = some i) {m : State} (hm : m = { beginAt t s with pair := { s.pair with segPart := [] } }) :
    exec (.partnerSegment t udp) s = .next (let n := sessionSegment i (sessionOf m i).port (sessionOf m i).addr true d m
      runOrders n.pair.orders.length n) := by
  have hf' : follows (beginAt t s) = true := hf
  have hid : fld d 6 2 ≠ 0 := by
    obtain ⟨hopen, hid⟩ := sessionIdx_open hidx
    rwa [← hid]
  have hidx' : sessionIdx m (fld d 6 2) = some i := by rw [hm]; exact hidx
  refine ((if_neg (by simp [hf', hroom.le])).trans (if_neg hroom.ne)).trans ?_
  rw [beginAt_pair, ← hd, ← hm, takePartnerSegment, if_neg (by omega), if_neg hid, hidx']

theorem partnerSegment_taken (t i : Nat) (udp d : List Byte) (s : State) (hf : follows s = true) (horders : s.pair.orders = [])
    (hroom : udp.length < segmentRoom) (hd : d = s.pair.segPart ++ udp) (hlen : 32 + fld d 22 2 ≤ d.length)
    (hidx : sessionIdx s (fld d 6 2) = some i) (htype : fld d 3 1 ≠ 0x04) (htype' : fld d 3 1 ≠ 0x05)
    (hahead : (sessionOf s i).rxAhead = []) (hack : (sessionOf s i).rxAck < 2 ^ 32)
    (hnext : fld d 8 4 = ((sessionOf s i).rxAck + 1) % 2 ^ 32) (hwindow : inWindow (sessionOf s i) (fld d 8 4) = true) :
    Completes (.partnerSegment t udp) s fun n =>
      (sessionOf n i).rxAck = fld d 8 4 ∧ (sessionOf n i).lastRx = n.now ∧ n.pair = { s.pair with segPart := [] } ∧
      Only [.clock, .net, .pair] s n := by
  obtain ⟨m, hm⟩ : ∃ m : State, m = { beginAt t s with pair := { s.pair with segPart := [] } } := ⟨_, rfl⟩
  have hentry : sessionOf m i = sessionOf s i := by rw [hm]; rfl
  have hpair : m.pair = { s.pair with segPart := [] } := by rw [hm]
  obtain ⟨hopen, -⟩ := sessionIdx_open hidx
  obtain ⟨hkeeps, hrxAck, hlastRx⟩ := sessionSegment_takes (i := i) (port := (sessionOf m i).port) (addr := (sessionOf m i).addr)
    (group := true) (udp := d) (s := m) (by rwa [hentry]) (by rwa [hentry]) (by rwa [hentry]) htype htype' (by rwa [hentry])
    (by rwa [hentry]) ((follows_of_pairState (by rw [hpair])).trans hf)
  have hexec := exec_partnerSegment t hf hroom hd hlen hidx hm
  dsimp only at hexec
  rw [hkeeps.pair_eq, hpair, horders] at hexec
  have honly : Keeps [.net, .pair] (beginAt t s) m := by
    rw [hm]
    exact (set_pair_keeps (beginAt t s) _).mono (by decide)
  exact ⟨_, hexec, hrxAck, hlastRx.trans hkeeps.now_eq.symm, hkeeps.pair_eq.trans hpair, (honly.then hkeeps (by decide)).onlySince⟩

theorem partnerSegment_kept (t : Nat) (udp : List Byte) (s : State) (hf : follows s = true) (hroom : udp.length = segmentRoom) :
    Completes (.partnerSegment t udp) s fun n =>
      n.pair = { s.pair with segPart := s.pair.segPart ++ udp } ∧ Only [.clock, .pair] s n := by
  have hf' : follows (beginAt t s) = true := hf
  have hexec : exec (.partnerSegment t udp) s =
      .next { beginAt t s with pair := { s.pair with segPart := s.pair.segPart ++ udp } } :=
    (if_neg (by simp [hf', hroom])).trans (if_pos hroom)
  exact ⟨_, hexec, rfl, (set_pair_keeps (beginAt t s) _).onlySince⟩

/-- Settles O58: each clause is the lemma on its frame. -/
theorem partnerFrames : Obligations.PartnerFrames :=
  ⟨order_applies, order_asks, partnerSegment_taken, partnerSegment_kept, resendReq_tokens,
    fun t _ _ _ _ hp hpage hstate =>
      ⟨fun hsig => signature_agrees t hp hpage hstate hsig, fun hsig hf => signature_severs t hp hpage hstate hsig hf⟩,
    partnerCamera_kept⟩

/-! ### Three statements that leave a case out -/

/-- A module in IDLE with an Ethernet loop-back on port 0, which is down while that runs (R646). -/
def testedPort : State := { State.reset with
  mod := { state := .idle }, power := { domainsOn := [0, 1] }
  loops := [{ ticket := 1, interface := 3, index := 0, depth := 0, pattern := 0, duration := 0, startedAt := 0, paramA := 0
              paramB := 0 }] }

/-- A port under an Ethernet loop-back neither gains nor loses its link (R646). -/
theorem exec_portLinkChange_of_tested (t : Nat) {port : Nat} (up : Bool) {s : State} (h : portTested s port = true) :
    exec (.portLinkChange t port up) s = .next (beginAt t s) :=
  congrArg Host.Outcome.next (if_pos (by simp [show portTested (beginAt t s) port = true from h]))

/-- Refutes O14: PORT_LINK_CHANGE of a port without a link does not give it one while an Ethernet loop-back runs there (R646),
and no premise leaves that case out. -/
theorem not_portsAndFrames : ¬ Obligations.PortsAndFrames := by
  rintro ⟨-, -, -, -, -, hgains, -⟩
  obtain ⟨n, hn, hlink, -⟩ := hgains 0 0 testedPort (by decide) rfl rfl (by decide) rfl
  rw [exec_portLinkChange_of_tested 0 true (s := testedPort) (by decide)] at hn
  cases hn
  exact absurd hlink (by decide)

/-- A module in STANDBY with a session that was opened at its own address, and whose latest message came to the group address. -/
def groupAnswered : State := { State.reset with
  mod := { state := .idle }, pair := { state := .standby }
  net := { sessions := [{ id := 1, group := false, toGroup := true }, {}, {}, {}] } }

/-- What answers the group address a following module does not send (R97). -/
theorem creditReopened_unsent : ∃ n, exec (.creditReopened 0 1 1) groupAnswered = .next n ∧ n.sent = [] := ⟨_, rfl, by decide⟩

/-- Refutes O16: on such a session a following module sends no ACK when the credit reopens (R97), although the session is none of
the group. -/
theorem not_sessionTimers : ¬ Obligations.SessionTimers := by
  rintro ⟨-, hreopens, -⟩
  obtain ⟨n, hn, hsends, -⟩ := hreopens 0 0 1 groupAnswered (by decide) (by decide) rfl (by decide) (by decide)
  obtain ⟨m, hm, hnone⟩ := creditReopened_unsent
  cases hn.symm.trans hm
  rw [SendsSegment, hnone] at hsends
  exact absurd hsends List.not_mem_nil

/-- An active module with an OBSERVER session, on which a group message that R60 refuses waits for its place, which is the next but
one. -/
def refusedNext : State := { State.reset with
  mod := { state := .idle }, pair := { state := .active }
  net := { sessions := [
    { id := 1, credit := 64, rx := [{ msg := 3, type := 0x21, parts := [], last := none, bad := 2, group := true }] }, {}, {}, {}] } }

/-- The REJECT of one message brings on that of the next, with its ORDER entry (R60, R506). -/
theorem surfaceDefine_orders : ∃ n, exec (.surfaceDefine 0 ⟨1, 2, false⟩ []) refusedNext = .next n ∧ n.pair.orderSeq = 1 :=
  ⟨_, rfl, by decide⟩

/-- Refutes O18: the refusal of an OBSERVER's SURFACE_DEFINE at the module's own address can change the pair group, by the ORDER
entry of the message that is rejected right after it (R60, R506). -/
theorem not_rejectsRestartsMaintenance : ¬ Obligations.RejectsRestartsMaintenance := by
  rintro ⟨-, hdefine, -⟩
  obtain ⟨n, hn, -, honly⟩ := hdefine 0 0 ⟨1, 2, false⟩ [] refusedNext (by decide) (by decide) rfl (by decide) (by decide)
    (by decide) rfl
  obtain ⟨m, hm, hseq⟩ := surfaceDefine_orders
  cases hn.symm.trans hm
  have hpair : n.pair = refusedNext.pair := honly.same .pair (by decide)
  rw [hpair] at hseq
  exact absurd hseq (by decide)

end Sys2Proof.Machine
end

section
/-! Proofs of the statements on jobs, pages and runs (04_jobs_pages_runs.md), which the sections after this one go on with: what a
message leaves that its own meaning accepts or refuses, the run commands by state and run_id (O26), a statement on the end of runs
that fails (O25), and how a pending result becomes ready. -/
namespace Sys2Proof.Machine
open Sys2Proof

-- As in the sections before: checked in parallel, the whole text takes more threads than the memory limit leaves room for.
set_option Elab.async false

/-! ### A message that its own meaning refuses (R82) -/

section Refused
variable {t i type : Nat} {src : Src} {payload : List Byte} {s : State} (h : Admitted t src type payload s i)
include h

/-- A message that is admitted, and that its own meaning refuses, is rejected. -/
theorem hostMessage_rejects {f : Nat → List Byte → State → Verdict} {reason detail : Nat}
    (hf : f i payload (atTurn t src type payload i s) = .error (reason, detail)) :
    hostMessage t src type payload f s = rejectBad (sessionOf s i).rx.length i
      (sendReject i src.msg type reason detail (atTurn t src type payload i s)) := by
  obtain ⟨hidx, hsilent, hfollow, hfirst, hturn, hwait, hadm⟩ := h
  have hadm' : admissionError (sendOrder src.group (sessionOf (beginAt t s) i).id src.msg type payload
    (takeTurn i src.group src.msg (beginAt t s))) (sessionOf (beginAt t s) i) src.group type payload = none := hadm
  have hf' : f i payload (sendOrder src.group (sessionOf (beginAt t s) i).id src.msg type payload
    (takeTurn i src.group src.msg (beginAt t s))) = .error (reason, detail) := hf
  rw [hostMessage, hwait, applyWaiting, onMessage, hidx]
  simp only [hsilent, hfollow, hfirst, hturn, Bool.and_self, Bool.false_eq_true, if_false, if_true]
  unfold applyMessage
  simp only [hadm', hf']
  rfl

/-- A refused message changes nothing but the sessions and what the pair keeps, and the host hears why (R82). -/
theorem Admitted.refused {c : Instr} {f : Nat → List Byte → State → Verdict} {reason detail : Nat}
    (hexec : exec c s = .next (hostMessage t src type payload f s))
    (hf : f i payload (atTurn t src type payload i s) = .error (reason, detail)) :
    Completes c s fun n => Only [.clock, .net, .pair] s n ∧
      (transmits s src.group = true → Answers s i 0x06 (rejectPayload src.msg type reason detail) n) := by
  rw [hostMessage_rejects h hf] at hexec
  have hkeeps : Keeps [.net, .pair] (beginAt t s) (rejectBad (sessionOf s i).rx.length i
      (sendReject i src.msg type reason detail (atTurn t src type payload i s))) :=
    (atTurn_keeps.then (sendReject_keeps ..) (by decide)).then (rejectBad_keeps ..) (by decide)
  exact ⟨_, hexec, hkeeps.onlySince, fun ht => (h.sendDpt_answers ht rfl rfl).mono (rejectBad_talks ..).sent⟩

/-- The same, of a message whose session hears the module. -/
theorem Admitted.refused_answers {c : Instr} {f : Nat → List Byte → State → Verdict} {reason detail : Nat}
    (ht : transmits s src.group = true) (hexec : exec c s = .next (hostMessage t src type payload f s))
    (hf : f i payload (atTurn t src type payload i s) = .error (reason, detail)) :
    Completes c s fun n => Answers s i 0x06 (rejectPayload src.msg type reason detail) n ∧ Only [.clock, .net, .pair] s n := by
  obtain ⟨n, hn, honly, hanswers⟩ := h.refused hexec hf
  exact ⟨n, hn, hanswers ht, honly⟩

end Refused

theorem atTurn_mod {t i type : Nat} {src : Src} {payload : List Byte} {s : State} :
    (atTurn t src type payload i s).mod = s.mod := (atTurn_keeps (s := s)).mod_eq

theorem atTurn_jobs {t i type : Nat} {src : Src} {payload : List Byte} {s : State} :
    (atTurn t src type payload i s).jobs = s.jobs := (atTurn_keeps (s := s)).jobs_eq

/-! ### RUN_STOP, RUN_CANCEL and RUN_END by state and run_id (R704) -/

theorem namesRun_of_other {p : List Byte} {s : State} (h : ∀ a, s.jobs.armed = some a → a.run.id ≠ fld p 0 4) :
    namesRun p s = false := by
  unfold namesRun
  cases ha : s.jobs.armed with
  | none => rfl
  | some a => simpa using h a ha

theorem msgRunStop_wrongState {i : Nat} {p : List Byte} {s : State} (ha : s.mod.state ≠ .armed) (hp : s.mod.state ≠ .print) :
    msgRunStop i p s = .error (reasonWrongState, 0) := if_pos (by simp [ha, hp])

theorem msgRunStop_unknown {i : Nat} {p : List Byte} {s : State} (hst : s.mod.state = .armed ∨ s.mod.state = .print)
    (hname : namesRun p s = false) : msgRunStop i p s = .error (reasonUnknownId, 0) :=
  (if_neg (by rcases hst with h | h <;> simp [h])).trans (if_pos (by simp [hname]))

theorem msgRunCancel_wrongState {i : Nat} {p : List Byte} {s : State} (h : s.mod.state ≠ .armed) :
    msgRunCancel i p s = .error (reasonWrongState, 0) := if_pos h

theorem msgRunCancel_unknown {i : Nat} {p : List Byte} {s : State} (hst : s.mod.state = .armed)
    (hname : namesRun p s = false) : msgRunCancel i p s = .error (reasonUnknownId, 0) :=
  (if_neg (by simp [hst])).trans (if_pos (by simp [hname]))

theorem msgRunEnd_wrongState {i : Nat} {p : List Byte} {s : State} (h : s.mod.state ≠ .halted) :
    msgRunEnd i p s = .error (reasonWrongState, 0) := if_pos h

theorem msgRunEnd_unknown {i : Nat} {p : List Byte} {s : State} (hst : s.mod.state = .halted)
    (hname : namesRun p s = false) : msgRunEnd i p s = .error (reasonUnknownId, 0) :=
  (if_neg (by simp [hst])).trans (if_pos (by simp [hname]))

/-- A message that names another run than the armed one names it in its turn, too. -/
theorem namesRun_atTurn {t i type : Nat} {src : Src} {payload : List Byte} {s : State}
    (h : ∀ a, s.jobs.armed = some a → a.run.id ≠ fld payload 0 4) :
    namesRun payload (atTurn t src type payload i s) = false := namesRun_of_other (by rwa [atTurn_jobs])

/-- Settles O26: the state is looked at first, then the run_id. -/
theorem runCommandsByState : Obligations.RunCommandsByState := by
  refine ⟨fun t i src payload s h ht => ⟨fun ha hp => ?_, fun hst hid => ?_⟩,
    fun t i src payload s h ht => ⟨fun hst => ?_, fun hst hid => ?_⟩,
    fun t i src payload s h ht => ⟨fun hst => ?_, fun hst hid => ?_⟩⟩
  · exact h.refused_answers ht rfl (msgRunStop_wrongState (by rwa [atTurn_mod]) (by rwa [atTurn_mod]))
  · exact h.refused_answers ht rfl (msgRunStop_unknown (by rwa [atTurn_mod]) (namesRun_atTurn hid))
  · exact h.refused_answers ht rfl (msgRunCancel_wrongState (by rwa [atTurn_mod]))
  · exact h.refused_answers ht rfl (msgRunCancel_unknown (by rwa [atTurn_mod]) (namesRun_atTurn hid))
  · exact h.refused_answers ht rfl (msgRunEnd_wrongState (by rwa [atTurn_mod]))
  · exact h.refused_answers ht rfl (msgRunEnd_unknown (by rwa [atTurn_mod]) (namesRun_atTurn hid))

/-! ### HALT_REQ of one bar of a run with no slot open (R20, R134, R311) -/

/-- A module in ARMED with a run of bars 0 and 1, no slot of which is released, and a CONTROL session. -/
def twoBarsArmed : State := { State.reset with
  mod := { state := .armed }
  pair := { state := .solo }
  net := { sessions := [{ id := 1, control := true, credit := 64 }, {}, {}, {}] }
  jobs := { armed := some { (default : Armed) with run := { (default : RunDef) with barMask := 3 } } } }

/-- HALT_REQ of bar 0 ends the releases; with no slot open DRAIN is over at once, and IDLE ends the halt. -/
theorem haltReq_one_idle : ∃ n, exec (.haltReq 0 ⟨1, 2, false⟩ [1, 0, 0, 0]) twoBarsArmed = .next n ∧
    n.mod.state = .idle ∧ halted n 0 = false := ⟨_, rfl, by decide +kernel⟩

/-- Refutes O25: where no slot of the run is open, the halt of one of its bars makes the module IDLE, in which no bar is halted
(R20, R134, R311), and no premise leaves that case out. -/
theorem not_runsStop : ¬ Obligations.RunsStop := by
  rintro ⟨-, -, -, hhalts, -⟩
  obtain ⟨n, hn, -, hbars, -⟩ := hhalts 0 0 ⟨1, 2, false⟩ [1, 0, 0, 0] _ twoBarsArmed
    (by unfold Admitted; decide +kernel) rfl rfl (by decide +kernel) rfl
  obtain ⟨m, hm, -, hclear⟩ := haltReq_one_idle
  cases hn.symm.trans hm
  rw [hbars 0 (by decide +kernel) (by decide +kernel)] at hclear
  exact absurd hclear (by decide)

section KeepsGroups
variable {w : List Group} {s n : State} (h : Keeps w s n)
include h

theorem Keeps.mem_eq (hw : Group.mem ∉ w := by decide) : n.mem = s.mem := h.only.same .mem hw
theorem Keeps.cal_eq (hw : Group.cal ∉ w := by decide) : n.cal = s.cal := h.only.same .cal hw
theorem Keeps.pos_eq (hw : Group.pos ∉ w := by decide) : n.pos = s.pos := h.only.same .pos hw
theorem Keeps.ring_eq (hw : Group.ring ∉ w := by decide) : n.ring = s.ring := h.only.same .ring hw
theorem Keeps.freeN_eq (hw : Group.free ∉ w := by decide) : n.freeN = s.freeN := h.only.same .free hw

end KeepsGroups

/-! ### A message that its own meaning accepts (R76 to R83) -/

/-- Where only the clock, the sessions and the pair may differ, every other group stands as it was. -/
theorem Only.eq_update {s n : State} (h : Only [.clock, .net, .pair] s n) :
    n = { s with now := n.now, sent := n.sent, net := n.net, pair := n.pair } := by
  have hs : ∀ g, g ∉ [Group.clock, .net, .pair] → g.same s n := h.same
  cases n
  exact (State.mk.injEq ..).mpr ⟨hs .queue (by decide), rfl, hs .raw (by decide), rfl, hs .free (by decide), hs .mod (by decide),
    hs .power (by decide), hs .otp (by decide),
    hs .flash (by decide), hs .conf (by decide), hs .update (by decide), hs .log (by decide),
    hs .thermal (by decide), hs .monitors (by decide), hs .gov (by decide), rfl, hs .jobs (by decide),
    hs .render (by decide), hs .mem (by decide), hs .pos (by decide), hs .fire (by decide), hs .links (by decide),
    hs .cams (by decide), hs .cal (by decide), hs .time (by decide), hs .axes (by decide), hs .ring (by decide), rfl,
    hs .loops (by decide)⟩

section Accepted
variable {t i type : Nat} {src : Src} {payload : List Byte} {s : State}

/-- In its turn a message finds the module as it was, but for the clock, the sessions and what the pair keeps. -/
theorem atTurn_eq : atTurn t src type payload i s = { s with
    now := (atTurn t src type payload i s).now, sent := (atTurn t src type payload i s).sent
    net := (atTurn t src type payload i s).net, pair := (atTurn t src type payload i s).pair } :=
  Only.eq_update (atTurn_keeps.onlySince)

variable (h : Admitted t src type payload s i)
include h

/-- What an admitted message leaves once its own meaning has accepted it: of the rest, only sessions and pair go on from there. -/
theorem Admitted.accepted {c : Instr} {f : Nat → List Byte → State → Verdict} {m : State} {v w : List Group}
    (hexec : exec c s = .next (hostMessage t src type payload f s))
    (hf : f i payload (atTurn t src type payload i s) = .ok m)
    (hv : KeepsV v (atTurn t src type payload i s) (f i payload (atTurn t src type payload i s)))
    (hw : [.clock, .net, .pair] ++ v ⊆ w := by decide) :
    Completes c s fun n => Keeps [.net, .pair] m n ∧ Talks m n ∧ Only w s n := by
  refine ⟨_, hexec, ?_, hostMessage_talks h hf, hostMessage_only (v := [Group.net, Group.pair] ++ v) h hf
    ((hv m hf).mono (List.subset_append_right [Group.net, Group.pair] v)) (List.subset_append_left ..) hw⟩
  rw [hostMessage_accepts h hf]
  exact ((modSession_keeps ..).mono (by decide)).then (rejectBad_keeps ..) (by decide)

end Accepted

/-! ### A pending result becomes ready (R86 to R91, R508) -/

/-- The result of a ticket stays held as it settles, where it is not to be dropped and no result is newer (R88, R89). -/
theorem mem_settleResult {k : Nat} {r : Result} {s : State} (hr : r ∈ s.net.results) (hk : r.ticket = k)
    (hdrop : r.dropWhenReady = false) (hnew : r.newer = 0) : r ∈ (settleResult k s).net.results := by
  have hdepth : 0 < resultDepth s := by unfold resultDepth; split <;> decide
  unfold settleResult
  refine List.mem_filter.mpr ⟨List.mem_map.mpr ⟨r, hr, if_neg (by simp [hk])⟩, ?_⟩
  simp [hdrop, hnew, hdepth.ne']

/-- A result whose body is there becomes ready with its time (R86, R87). -/
theorem mem_timeResult {k : Nat} {time : Int} {r : Result} {s : State} (hr : r ∈ s.net.results) (hk : r.ticket = k)
    (hdrop : r.dropWhenReady = false) (hnew : r.newer = 0)
    (hbody : ∀ x ∈ s.net.results, x.ticket = k → x.body.isSome = true) :
    { r with time := some time } ∈ (timeResult k time s).net.results := by
  unfold timeResult
  cases hfind : s.net.results.find? fun r => r.ticket = k with
  | none => exact absurd (by simpa using List.find?_eq_none.mp hfind r hr) (not_not.mpr hk)
  | some x =>
    dsimp only
    rw [if_pos (hbody x (List.mem_of_find?_eq_some hfind) (ticket_of_find? hfind))]
    exact mem_settleResult (List.mem_map.mpr ⟨r, hr, if_pos hk⟩) hk hdrop hnew

/-- The body of a ticket's result is known. -/
def bodyKnown (k : Nat) (body : List Byte) (s : State) : State :=
  { s with net := { s.net with results := s.net.results.map fun r => if r.ticket = k then { r with body := some body } else r } }

theorem bodyKnown_isSome {k : Nat} {body : List Byte} {s : State} {x : Result} (hx : x ∈ (bodyKnown k body s).net.results)
    (hk : x.ticket = k) : x.body.isSome = true := by
  obtain ⟨y, -, rfl⟩ := List.mem_map.mp hx
  by_cases hy : y.ticket = k
  · rw [if_pos hy]; rfl
  · rw [if_neg hy] at hk; exact absurd hk hy

/-- A module that decides by itself makes a finished result ready at once (R508). -/
theorem finishResult_of_settled {k : Nat} {body : List Byte} {s : State} (h : Answerable k s) :
    finishResult k body s = timeResult k (timeNow s)
      (sendToken 0x06 (leBytes 4 k ++ stampNative (timeNow s)) (bodyKnown k body s)) := by
  obtain ⟨⟨hfollows, hpartner⟩, r, hr, hk, hnone, -⟩ := h
  unfold finishResult
  cases hfind : s.net.results.find? fun r => r.ticket = k && r.body.isNone with
  | none => exact absurd (List.find?_eq_none.mp hfind r hr) (by simp [hk, hnone])
  | some x => exact (if_neg (ne_true_of_eq_false hfollows)).trans (if_neg (ne_true_of_eq_false hpartner))

theorem finishResult_ready {k : Nat} {body : List Byte} {s : State} (h : Answerable k s) :
    Ready k body (finishResult k body s) := by
  rw [finishResult_of_settled h]
  obtain ⟨-, r, hr, hk, -, hdrop, hnew⟩ := h
  have hnet : (sendToken 0x06 (leBytes 4 k ++ stampNative (timeNow s)) (bodyKnown k body s)).net = (bodyKnown k body s).net :=
    (sendToken_keeps ..).net_eq
  refine ⟨_, mem_timeResult (r := { r with body := some body }) ?_ hk hdrop hnew ?_, hk, rfl, rfl⟩
  · rw [hnet]
    exact List.mem_map.mpr ⟨r, hr, if_pos hk⟩
  · rw [hnet]
    exact fun x hx => bodyKnown_isSome hx

/-- Only the sessions' results tell whether a result is ready. -/
theorem Ready.of_results_eq {k : Nat} {body : List Byte} {s n : State} (h : Ready k body s) (hn : n.net.results = s.net.results) :
    Ready k body n := by
  unfold Ready
  rw [hn]
  exact h

/-- A result is answerable as long as the results and the pair's state stand. -/
theorem Answerable.of_net_pair_eq {k : Nat} {s n : State} (h : Answerable k s) (hnet : n.net = s.net) (hpair : n.pair = s.pair) :
    Answerable k n := by
  unfold Answerable Settled follows partnerTakes
  rw [hnet, hpair]
  exact h

theorem addPending_pending (k kind : Nat) (s : State) : Pending k (addPending k kind s) :=
  ⟨_, List.mem_append_right _ (List.mem_singleton.mpr rfl), rfl, rfl⟩

theorem Pending.of_results_eq {k : Nat} {s n : State} (h : Pending k s) (hn : n.net.results = s.net.results) : Pending k n := by
  unfold Pending
  rw [hn]
  exact h

end Sys2Proof.Machine
end

section
/-! Proofs of the statements on the objects of a job (04_jobs_pages_runs.md): surfaces are defined, filled, sealed and freed (O22),
and LUTs, pages and runs are defined, replaced and freed (O23). -/
namespace Sys2Proof.Machine
open Sys2Proof

-- As in the sections before: checked in parallel, the whole text takes more threads than the memory limit leaves room for.
set_option Elab.async false

/-! ### Objects by their names -/

/-- A change that leaves the names alone changes the object of a name where it stands. -/
theorem find?_map_name {α : Type} {name : α → Nat} {f : α → α} (hf : ∀ x, name (f x) = name x) (l : List α) (k : Nat) :
    (l.map f).find? (fun x => name x = k) = (l.find? fun x => name x = k).map f := by
  rw [List.find?_map]
  simp only [Function.comp_def, hf]

/-- An object put in place of the one of its name is found under its name. -/
theorem find?_replaced {α β : Type} [DecidableEq β] {name : α → β} {x : α} {k : β} (l : List α) (hx : name x = k) :
    ((l.filter fun y => name y ≠ k) ++ [x]).find? (fun y => name y = k) = some x := by
  have hnone : (l.filter fun y => name y ≠ k).find? (fun y => name y = k) = none := by
    rw [List.find?_eq_none]
    intro y hy
    simpa using (List.mem_filter.mp hy).2
  rw [List.find?_append, hnone, Option.none_or, List.find?_singleton, if_pos (by simpa using hx)]

/-- An object put in place of the one of its name leaves those of other names. -/
theorem find?_replaced_other {α β : Type} [DecidableEq β] {name : α → β} {x : α} {j k : β} (l : List α) (hx : name x = k)
    (hj : j ≠ k) : ((l.filter fun y => name y ≠ k) ++ [x]).find? (fun y => name y = j) = l.find? fun y => name y = j := by
  have hother : (l.filter fun y => name y ≠ k).find? (fun y => name y = j) = l.find? fun y => name y = j := by
    rw [List.find?_filter]
    refine congrArg (List.find? · l) (funext fun y => ?_)
    by_cases hy : name y = j
    · simp [hy, hj]
    · simp [hy]
  rw [List.find?_append, hother, List.find?_singleton, if_neg (by simpa [hx] using hj.symm), Option.or_none]

theorem surfaceOf_id {s : State} {k : Nat} {sf : Surface} (h : surfaceOf s k = some sf) : sf.id = k := by
  simpa using List.find?_some h

theorem pageOf_id {s : State} {k : Nat} {pg : Page} (h : pageOf s k = some pg) : pg.id = k := by
  simpa using List.find?_some h

theorem surfaceOf_of_jobs_eq {s n : State} (h : n.jobs = s.jobs) (k : Nat) : surfaceOf n k = surfaceOf s k := by
  rw [surfaceOf, surfaceOf, h]

theorem pageOf_of_jobs_eq {s n : State} (h : n.jobs = s.jobs) (k : Nat) : pageOf n k = pageOf s k := by
  rw [pageOf, pageOf, h]

/-! ### Seal checks that begin or are abandoned (R105, R703) -/

/-- A seal check that begins changes nothing else of the jobs. -/
theorem beginSeal_jobs (s : State) : (beginSeal s).jobs = { s.jobs with sealing := (beginSeal s).jobs.sealing } := by
  unfold beginSeal
  split <;> rfl

/-- With no run armed the check at the head of the queue begins (R703). -/
theorem beginSeal_of_unarmed {s : State} (harmed : s.jobs.armed = none) (hseals : s.jobs.seals ≠ []) :
    beginSeal s = { s with jobs := { s.jobs with sealing := true } } :=
  if_pos (by simp [harmed, hseals])

theorem beginSeal_of_none {s : State} (hseals : s.jobs.seals = []) : beginSeal s = s := if_neg (by simp [hseals])

/-- Finishing results leaves the jobs alone. -/
theorem forEach_finishResult_keeps {α : Type} (l : List α) (ticket : α → Nat) (body : List Byte) (s : State) :
    Keeps [.net, .pair] s (forEach l (fun q => finishResult (ticket q) body) s) :=
  Keeps.forEach (fun q s => finishResult_keeps (ticket q) body s) (Keeps.refl _ _)

/-- Abandoned checks leave the queue, and of the jobs nothing else but what is being checked. -/
theorem abandonSeals_jobs (id : Nat) (s : State) : (abandonSeals id s).jobs = { s.jobs with
    seals := s.jobs.seals.filter (fun q => q.1 ≠ id), sealing := (abandonSeals id s).jobs.sealing } := by
  refine (beginSeal_jobs _).trans ?_
  rw [(forEach_finishResult_keeps ..).jobs_eq]
  rfl

/-! ### Costs (R108, R167) -/

/-- A page without its cost. -/
def uncosted (p : Page) : Page := { p with cost := none }

theorem fixCosts_uncosted (s : State) : (fixCosts s).jobs.pages.map uncosted = s.jobs.pages.map uncosted := by
  refine (List.map_map ..).trans (List.map_congr_left fun p _ => ?_)
  dsimp only [Function.comp_apply]
  split <;> rfl

theorem forgetCosts_uncosted (id : Nat) (s : State) : (forgetCosts id s).jobs.pages.map uncosted = s.jobs.pages.map uncosted := by
  refine (List.map_map ..).trans (List.map_congr_left fun p _ => ?_)
  dsimp only [Function.comp_apply]
  split <;> rfl

/-! ### SURFACE_DEFINE, SURFACE_DATA, SURFACE_SEAL and SURFACE_FREE (R102 to R108) -/

/-- The module with a surface defined in place of the one of its name. -/
def surfaceDefined (sf : Surface) (s : State) : State :=
  let s1 := abandonSeals sf.id s
  fixCosts (forgetCosts sf.id
    { s1 with jobs := { s1.jobs with surfaces := (s1.jobs.surfaces.filter fun f => f.id ≠ sf.id) ++ [sf] } })

theorem msgSurfaceDefine_ok {i : Nat} {p : List Byte} {s : State} (hrange : surfaceRangeBad p (readSurface p) = false)
    (huse : (surfaceOf s (fld p 0 4)).isSome = true → surfaceInUse s (fld p 0 4) = false)
    (hroom : (surfaceOf s (fld p 0 4)).isSome = true ∨ s.jobs.surfaces.length < 4096)
    (hspace : surfaceUsed s - ((surfaceOf s (fld p 0 4)).map surfaceSpace).getD 0 +
      (if (readSurface p).raron then 0 else surfaceSpace (readSurface p)) ≤ surfaceArea s) :
    msgSurfaceDefine i p s = .ok (surfaceDefined (readSurface p) s) := by
  have hfree : ((surfaceOf s (readSurface p).id).isSome && surfaceInUse s (readSurface p).id) = false := by
    rw [Bool.and_eq_false_iff]
    exact (Bool.eq_false_or_eq_true _).elim (fun h => .inr (huse h)) .inl
  have hfits : ((surfaceOf s (readSurface p).id).isNone && decide (4096 ≤ s.jobs.surfaces.length) ||
      decide (surfaceArea s < surfaceUsed s - ((surfaceOf s (readSurface p).id).map surfaceSpace).getD 0 +
        (if (readSurface p).raron then 0 else surfaceSpace (readSurface p)))) = false := by
    rw [Bool.or_eq_false_iff, decide_eq_false_iff_not, Bool.and_eq_false_iff]
    refine ⟨hroom.imp (fun h => ?_) (fun h => ?_), Nat.not_lt.mpr hspace⟩
    · rw [Option.isNone_eq_false_iff]; exact h
    · simpa using h
  unfold msgSurfaceDefine
  simp only [hrange, hfree, hfits]
  rfl

theorem surfaceDefined_jobs (sf : Surface) (s : State) :
    (surfaceDefined sf s).jobs.surfaces = (s.jobs.surfaces.filter fun f => f.id ≠ sf.id) ++ [sf] ∧
    (surfaceDefined sf s).jobs.runs = s.jobs.runs ∧
    (surfaceDefined sf s).jobs.pages.map uncosted = s.jobs.pages.map uncosted := by
  have hjobs := abandonSeals_jobs sf.id s
  refine ⟨?_, ?_, ?_⟩
  · show ((abandonSeals sf.id s).jobs.surfaces.filter fun f => f.id ≠ sf.id) ++ [sf] = _
    rw [hjobs]
  · show (abandonSeals sf.id s).jobs.runs = _
    rw [hjobs]
  · refine (fixCosts_uncosted _).trans ((forgetCosts_uncosted ..).trans ?_)
    show (abandonSeals sf.id s).jobs.pages.map uncosted = _
    rw [hjobs]

/-- The module with a tile of a surface stored. -/
def tileStored (id tile : Nat) (d : List Byte) (s : State) : State :=
  { s with jobs := { s.jobs with surfaces := s.jobs.surfaces.map fun f =>
    if f.id = id then { f with tiles := placeTile tile d f.tiles } else f } }

theorem msgSurfaceData_ok {i : Nat} {p : List Byte} {s : State} {sf : Surface} (hsf : surfaceOf s (fld p 0 4) = some sf)
    (hopen : sf.sealed = false) (htile : fld p 4 4 < tileCount sf)
    (hraw : sf.raron = false → (p.drop 8).length = rawTileBytes sf (fld p 4 4))
    (hraron : sf.raron = true →
      surfaceUsed s - ((tileData sf (fld p 4 4)).getD []).length + (p.drop 8).length ≤ surfaceArea s) :
    msgSurfaceData i p s = .ok (tileStored (fld p 0 4) (fld p 4 4) (p.drop 8) s) := by
  unfold msgSurfaceData
  simp only [hsf]
  rw [if_neg (by simp [hopen]), if_neg (Nat.not_le.mpr htile)]
  cases hkind : sf.raron with
  | false => rw [if_neg (by simp [hraw hkind])]; rfl
  | true => exact (if_neg (by simp)).trans (if_neg (by simpa using hraron hkind))

theorem surfaceOf_tileStored {id tile : Nat} {d : List Byte} {s : State} {sf : Surface} (h : surfaceOf s id = some sf) :
    surfaceOf (tileStored id tile d s) id = some { sf with tiles := placeTile tile d sf.tiles } := by
  have hid := surfaceOf_id h
  refine (find?_map_name (name := Surface.id) (fun x => by split <;> rfl) _ _).trans ?_
  show (surfaceOf s id).map _ = _
  rw [h, Option.map_some, if_pos hid]

theorem surfaceOf_tileStored_other {id tile k : Nat} (d : List Byte) (s : State) (hk : k ≠ id) :
    surfaceOf (tileStored id tile d s) k = surfaceOf s k := by
  refine (find?_map_name (name := Surface.id) (fun x => by split <;> rfl) _ _).trans ?_
  show (surfaceOf s k).map _ = _
  cases h : surfaceOf s k with
  | none => rfl
  | some x => rw [Option.map_some, if_neg (by rw [surfaceOf_id h]; exact hk)]

theorem msgSurfaceSeal_ok {i : Nat} {p : List Byte} {s : State} (h : (surfaceOf s (fld p 4 4)).isSome = true) :
    msgSurfaceSeal i p s = .ok (beginSeal { addPending (fld p 0 4) 0x22 s with
      jobs := { s.jobs with seals := s.jobs.seals ++ [(fld p 4 4, fld p 0 4)] } }) :=
  if_neg (by rw [Option.isNone_eq_false_iff.mpr h]; decide)

/-- The module with a surface undefined. -/
def surfaceGone (id : Nat) (s : State) : State :=
  { abandonSeals id s with jobs := { (abandonSeals id s).jobs with
    surfaces := (abandonSeals id s).jobs.surfaces.filter fun f => f.id ≠ id } }

theorem msgSurfaceFree_ok {i : Nat} {p : List Byte} {s : State} (hdef : (surfaceOf s (fld p 0 4)).isSome = true)
    (huse : surfaceInUse s (fld p 0 4) = false) : msgSurfaceFree i p s = .ok (surfaceGone (fld p 0 4) s) := by
  unfold msgSurfaceFree
  simp only [Option.isNone_eq_false_iff.mpr hdef, huse]
  rfl

theorem msgSurfaceFree_inUse {i : Nat} {p : List Byte} {s : State} (hdef : (surfaceOf s (fld p 0 4)).isSome = true)
    (huse : surfaceInUse s (fld p 0 4) = true) : msgSurfaceFree i p s = .error (reasonInUse, 0) := by
  unfold msgSurfaceFree
  simp only [Option.isNone_eq_false_iff.mpr hdef, huse]
  rfl

theorem surfaceGone_jobs (id : Nat) (s : State) : (surfaceGone id s).jobs = { s.jobs with
    surfaces := s.jobs.surfaces.filter (fun f => f.id ≠ id), seals := s.jobs.seals.filter (fun q => q.1 ≠ id)
    sealing := (surfaceGone id s).jobs.sealing } := by
  show ({ (abandonSeals id s).jobs with surfaces := (abandonSeals id s).jobs.surfaces.filter fun f => f.id ≠ id } : Jobs) = _
  rw [abandonSeals_jobs id s]
  rfl

/-! ### SEAL_CHECK_DONE (R105, R703) -/

/-- A check that has started, or that may start because no run is armed, is going on once the queue has been looked at (R703). -/
theorem beginSeal_started {s : State} (h : s.jobs.sealing = true ∨ s.jobs.armed = none) (hseals : s.jobs.seals ≠ []) :
    (beginSeal s).jobs.sealing = true := by
  rcases h with hgoing | hfree
  · unfold beginSeal
    split
    · rfl
    · exact hgoing
  · rw [beginSeal_of_unarmed hfree hseals]

/-- A surface that passes its check is sealed. -/
def sealWhere (passed : Bool) (id : Nat) (l : List Surface) : List Surface :=
  if passed then l.map fun f => if f.id = id then { f with sealed := true } else f else l

/-- The module with the check at the head of the queue over, its result not yet finished. -/
def sealDecided (sf : Surface) (id : Nat) (rest : List (Nat × Nat)) (s : State) : State :=
  let s1 := { s with jobs := { s.jobs with
    seals := rest, sealing := false, surfaces := sealWhere (decide ((checkSeal sf).1 = 0)) id s.jobs.surfaces } }
  if sf.raron then countFailures (badTiles sf).length s1 else s1

theorem endSeal_of_surface {s : State} {id k : Nat} {rest : List (Nat × Nat)} {sf : Surface}
    (hseals : s.jobs.seals = (id, k) :: rest) (hsf : surfaceOf s id = some sf) :
    endSeal s = beginSeal (finishResult k
      (sealBody (checkSeal sf).1 (checkSeal sf).2.1 (checkSeal sf).2.2 (surfaceSpace sf)) (sealDecided sf id rest s)) := by
  have hsf' : surfaceOf { s with jobs := { s.jobs with seals := rest, sealing := false } } id = some sf := hsf
  unfold endSeal
  rw [hseals]
  simp only [hsf']
  unfold sealDecided sealWhere
  by_cases hpass : (checkSeal sf).1 = 0
  · simp only [hpass, if_true, decide_true]
  · simp only [hpass, if_false, decide_false, Bool.false_eq_true]

section SealDecided
variable (sf : Surface) (id : Nat) (rest : List (Nat × Nat)) (s : State)

theorem sealDecided_jobs : (sealDecided sf id rest s).jobs = { s.jobs with
    seals := rest, sealing := false, surfaces := sealWhere (decide ((checkSeal sf).1 = 0)) id s.jobs.surfaces } := by
  unfold sealDecided
  dsimp only
  split <;> rfl

theorem sealDecided_net_pair : (sealDecided sf id rest s).net = s.net ∧ (sealDecided sf id rest s).pair = s.pair := by
  unfold sealDecided
  dsimp only
  split <;> exact ⟨rfl, rfl⟩

/-- Only a Raron surface counts tiles that do not decode. -/
theorem sealDecided_keeps_of_raw {sf : Surface} (hraw : sf.raron = false) : Keeps [.jobs] s (sealDecided sf id rest s) := by
  unfold sealDecided
  rw [if_neg (ne_true_of_eq_false hraw)]
  exact set_jobs_keeps ..

end SealDecided

/-- What is left of the jobs once a seal check is over. -/
theorem endSeal_jobs {s : State} {id k : Nat} {rest : List (Nat × Nat)} {sf : Surface} (hseals : s.jobs.seals = (id, k) :: rest)
    (hsf : surfaceOf s id = some sf) : (endSeal s).jobs = { s.jobs with
      seals := rest, sealing := (endSeal s).jobs.sealing
      surfaces := sealWhere (decide ((checkSeal sf).1 = 0)) id s.jobs.surfaces } := by
  rw [endSeal_of_surface hseals hsf]
  refine (beginSeal_jobs _).trans ?_
  rw [(finishResult_keeps ..).jobs_eq, sealDecided_jobs]

/-- Where no other check waits, none is going on. -/
theorem endSeal_sealing {s : State} {id k : Nat} {sf : Surface} (hseals : s.jobs.seals = [(id, k)])
    (hsf : surfaceOf s id = some sf) : (endSeal s).jobs.sealing = false := by
  rw [endSeal_of_surface hseals hsf, beginSeal_of_none]
  · rw [(finishResult_keeps ..).jobs_eq, sealDecided_jobs]
  · rw [(finishResult_keeps ..).jobs_eq, sealDecided_jobs]

theorem endSeal_ready {s : State} {id k : Nat} {rest : List (Nat × Nat)} {sf : Surface} (hseals : s.jobs.seals = (id, k) :: rest)
    (hsf : surfaceOf s id = some sf) (hanswer : Answerable k s) :
    Ready k (sealBody (checkSeal sf).1 (checkSeal sf).2.1 (checkSeal sf).2.2 (surfaceSpace sf)) (endSeal s) := by
  obtain ⟨hnet, hpair⟩ := sealDecided_net_pair sf id rest s
  rw [endSeal_of_surface hseals hsf]
  exact (finishResult_ready (hanswer.of_net_pair_eq hnet hpair)).of_results_eq (congrArg Net.results (beginSeal_keeps _).net_eq)

/-- The check of a raw surface counts no failure. -/
theorem endSeal_keeps_of_raw {s : State} {id k : Nat} {rest : List (Nat × Nat)} {sf : Surface}
    (hseals : s.jobs.seals = (id, k) :: rest) (hsf : surfaceOf s id = some sf) (hraw : sf.raron = false) :
    Keeps [.net, .jobs, .pair] s (endSeal s) := by
  rw [endSeal_of_surface hseals hsf]
  exact (((sealDecided_keeps_of_raw id rest s hraw).mono (by decide)).then (finishResult_keeps ..) (by decide)).then
    (beginSeal_keeps _) (by decide)

theorem sealCheckDone_decides {t id k : Nat} {rest : List (Nat × Nat)} {sf : Surface} {s : State}
    (hseals : s.jobs.seals = (id, k) :: rest) (hgoing : s.jobs.sealing = true ∨ s.jobs.armed = none)
    (hsf : surfaceOf s id = some sf) (hanswer : Answerable k s) :
    Completes (.sealCheckDone t) s fun n =>
      ((checkSeal sf).1 = 0 → n.jobs = { s.jobs with
        seals := rest, sealing := n.jobs.sealing
        surfaces := s.jobs.surfaces.map fun f => if f.id = id then { f with sealed := true } else f }) ∧
      ((checkSeal sf).1 ≠ 0 → n.jobs = { s.jobs with seals := rest, sealing := n.jobs.sealing }) ∧
      Ready k (sealBody (checkSeal sf).1 (checkSeal sf).2.1 (checkSeal sf).2.2 (surfaceSpace sf)) n ∧
      (rest = [] → n.jobs.sealing = false) ∧
      (sf.raron = false → Only [.clock, .net, .pair, .jobs] s n) ∧ Only [.clock, .net, .pair, .jobs, .render] s n := by
  let begun := beginSeal (beginAt t s)
  have hkeeps : Keeps [.jobs] (beginAt t s) begun := beginSeal_keeps _
  have hjobs : begun.jobs = { s.jobs with sealing := begun.jobs.sealing } := beginSeal_jobs (beginAt t s)
  have hstarted : begun.jobs.sealing = true := beginSeal_started (s := beginAt t s) hgoing (by simp [hseals])
  have hseals' : begun.jobs.seals = (id, k) :: rest := by rw [hjobs]; exact hseals
  have hsf' : surfaceOf begun id = some sf := by unfold surfaceOf; rw [hjobs]; exact hsf
  have hend := endSeal_jobs hseals' hsf'
  have hexec : exec (.sealCheckDone t) s = .next (endSeal begun) := by
    show Host.Outcome.next (if begun.jobs.sealing then endSeal begun else begun) = _
    rw [if_pos hstarted]
  refine ⟨_, hexec, fun hpass => ?_, fun hfail => ?_, ?_, fun hrest => ?_, fun hraw => ?_, ?_⟩
  · rw [hend, hjobs, hpass]; rfl
  · rw [hend, hjobs, decide_eq_false hfail]; rfl
  · exact endSeal_ready hseals' hsf' (hanswer.of_net_pair_eq hkeeps.net_eq hkeeps.pair_eq)
  · exact endSeal_sealing (by rw [hseals', hrest]) hsf'
  · exact ((hkeeps.mono (by decide)).then (endSeal_keeps_of_raw hseals' hsf' hraw) (by decide)).onlySince
      (v := [.net, .pair, .jobs])
  · exact ((hkeeps.mono (by decide)).then (endSeal_keeps _) (by decide)).onlySince (v := [.net, .pair, .jobs, .render])

section Surfaces
variable {t i : Nat} {src : Src} {payload : List Byte} {s : State}

theorem surfaceDefine_defines (h : Admitted t src 0x20 payload s i)
    (hrange : surfaceRangeBad payload (readSurface payload) = false)
    (huse : (surfaceOf s (fld payload 0 4)).isSome = true → surfaceInUse s (fld payload 0 4) = false)
    (hroom : (surfaceOf s (fld payload 0 4)).isSome = true ∨ s.jobs.surfaces.length < 4096)
    (hspace : surfaceUsed s - ((surfaceOf s (fld payload 0 4)).map surfaceSpace).getD 0 +
      (if (readSurface payload).raron then 0 else surfaceSpace (readSurface payload)) ≤ surfaceArea s) :
    Completes (.surfaceDefine t src payload) s fun n =>
      surfaceOf n (fld payload 0 4) = some (readSurface payload) ∧
      (∀ k, k ≠ fld payload 0 4 → surfaceOf n k = surfaceOf s k) ∧ n.jobs.runs = s.jobs.runs ∧
      (n.jobs.pages.map fun p => { p with cost := none }) = (s.jobs.pages.map fun p => { p with cost := none }) ∧
      Only [.clock, .net, .pair, .jobs] s n := by
  have hok : msgSurfaceDefine i payload (atTurn t src 0x20 payload i s) =
      .ok (surfaceDefined (readSurface payload) (atTurn t src 0x20 payload i s)) := by
    rw [atTurn_eq]
    exact msgSurfaceDefine_ok hrange huse hroom hspace
  obtain ⟨n, hexec, hafter, -, honly⟩ :=
    h.accepted (c := .surfaceDefine t src payload) (w := [.clock, .net, .pair, .jobs]) rfl hok (msgSurfaceDefine_keeps _ _ _)
  obtain ⟨hsurfaces, hruns, hpages⟩ := surfaceDefined_jobs (readSurface payload) (atTurn t src 0x20 payload i s)
  rw [← hafter.jobs_eq, atTurn_jobs] at hsurfaces hruns hpages
  refine ⟨n, hexec, ?_, fun k hk => ?_, hruns, hpages, honly⟩
  · rw [surfaceOf, hsurfaces]
    exact find?_replaced (name := Surface.id) _ rfl
  · rw [surfaceOf, hsurfaces]
    exact find?_replaced_other (name := Surface.id) _ rfl hk

theorem surfaceData_stores {sf : Surface} (h : Admitted t src 0x21 payload s i) (hsf : surfaceOf s (fld payload 0 4) = some sf)
    (hopen : sf.sealed = false) (htile : fld payload 4 4 < tileCount sf)
    (hraw : sf.raron = false → (payload.drop 8).length = rawTileBytes sf (fld payload 4 4))
    (hraron : sf.raron = true →
      surfaceUsed s - ((tileData sf (fld payload 4 4)).getD []).length + (payload.drop 8).length ≤ surfaceArea s) :
    Completes (.surfaceData t src payload) s fun n =>
      surfaceOf n sf.id = some { sf with tiles := placeTile (fld payload 4 4) (payload.drop 8) sf.tiles } ∧
      (∀ k, k ≠ sf.id → surfaceOf n k = surfaceOf s k) ∧ n.jobs.pages = s.jobs.pages ∧ n.jobs.runs = s.jobs.runs ∧
      n.net.results = s.net.results ∧ Only [.clock, .net, .pair, .jobs] s n := by
  have hok : msgSurfaceData i payload (atTurn t src 0x21 payload i s) =
      .ok (tileStored (fld payload 0 4) (fld payload 4 4) (payload.drop 8) (atTurn t src 0x21 payload i s)) := by
    rw [atTurn_eq]
    exact msgSurfaceData_ok hsf hopen htile hraw hraron
  obtain ⟨n, hexec, hafter, htalks, honly⟩ :=
    h.accepted (c := .surfaceData t src payload) (w := [.clock, .net, .pair, .jobs]) rfl hok (msgSurfaceData_keeps _ _ _)
  have hat (k : Nat) : surfaceOf (atTurn t src 0x21 payload i s) k = surfaceOf s k := surfaceOf_of_jobs_eq atTurn_jobs k
  have hid := surfaceOf_id hsf
  refine ⟨n, hexec, ?_, fun k hk => ?_, ?_, ?_, htalks.results.trans atTurn_talks.results, honly⟩
  · rw [surfaceOf_of_jobs_eq hafter.jobs_eq]
    refine (congrArg (surfaceOf _) hid).trans ?_
    exact surfaceOf_tileStored ((hat _).trans hsf)
  · rw [surfaceOf_of_jobs_eq hafter.jobs_eq, surfaceOf_tileStored_other _ _ (hid ▸ hk), hat]
  · rw [hafter.jobs_eq]
    show (atTurn t src 0x21 payload i s).jobs.pages = s.jobs.pages
    rw [atTurn_jobs]
  · rw [hafter.jobs_eq]
    show (atTurn t src 0x21 payload i s).jobs.runs = s.jobs.runs
    rw [atTurn_jobs]

theorem surfaceSeal_queues (h : Admitted t src 0x22 payload s i) (hdef : (surfaceOf s (fld payload 4 4)).isSome = true) :
    Completes (.surfaceSeal t src payload) s fun n =>
      n.jobs = { s.jobs with
        seals := s.jobs.seals ++ [(fld payload 4 4, fld payload 0 4)], sealing := n.jobs.sealing } ∧
      (s.jobs.armed = none → n.jobs.sealing = true) ∧ Pending (fld payload 0 4) n ∧
      Only [.clock, .net, .pair, .jobs] s n := by
  let queued : State := { addPending (fld payload 0 4) 0x22 (atTurn t src 0x22 payload i s) with
    jobs := { s.jobs with seals := s.jobs.seals ++ [(fld payload 4 4, fld payload 0 4)] } }
  have hok : msgSurfaceSeal i payload (atTurn t src 0x22 payload i s) = .ok (beginSeal queued) := by
    rw [msgSurfaceSeal_ok (by rw [surfaceOf_of_jobs_eq atTurn_jobs]; exact hdef), atTurn_jobs]
  obtain ⟨n, hexec, hafter, htalks, honly⟩ :=
    h.accepted (c := .surfaceSeal t src payload) (w := [.clock, .net, .pair, .jobs]) rfl hok (msgSurfaceSeal_keeps _ _ _)
  refine ⟨n, hexec, ?_, fun harmed => ?_, ?_, honly⟩
  · rw [hafter.jobs_eq]
    exact beginSeal_jobs queued
  · rw [hafter.jobs_eq, beginSeal_of_unarmed (s := queued) harmed (by simp [queued])]
  · refine Pending.of_results_eq ?_ (htalks.results.trans (congrArg Net.results (beginSeal_keeps queued).net_eq))
    exact addPending_pending (fld payload 0 4) 0x22 (atTurn t src 0x22 payload i s)

theorem surfaceFree_frees (h : Admitted t src 0x23 payload s i) (hdef : (surfaceOf s (fld payload 0 4)).isSome = true)
    (huse : surfaceInUse s (fld payload 0 4) = false) :
    Completes (.surfaceFree t src payload) s fun n =>
      n.jobs = { s.jobs with
        surfaces := s.jobs.surfaces.filter (fun f => f.id ≠ fld payload 0 4)
        seals := s.jobs.seals.filter (fun q => q.1 ≠ fld payload 0 4), sealing := n.jobs.sealing } ∧
      Only [.clock, .net, .pair, .jobs] s n := by
  have hok : msgSurfaceFree i payload (atTurn t src 0x23 payload i s) =
      .ok (surfaceGone (fld payload 0 4) (atTurn t src 0x23 payload i s)) := by
    rw [atTurn_eq]
    exact msgSurfaceFree_ok hdef huse
  obtain ⟨n, hexec, hafter, -, honly⟩ :=
    h.accepted (c := .surfaceFree t src payload) (w := [.clock, .net, .pair, .jobs]) rfl hok (msgSurfaceFree_keeps _ _ _)
  have hjobs := surfaceGone_jobs (fld payload 0 4) (atTurn t src 0x23 payload i s)
  rw [← hafter.jobs_eq, atTurn_jobs] at hjobs
  exact ⟨n, hexec, hjobs, honly⟩

theorem surfaceFree_refused (h : Admitted t src 0x23 payload s i) (hdef : (surfaceOf s (fld payload 0 4)).isSome = true)
    (huse : surfaceInUse s (fld payload 0 4) = true) :
    Completes (.surfaceFree t src payload) s fun n =>
      Only [.clock, .net, .pair] s n ∧ (transmits s src.group = true → Answers s i 0x06
        (leBytes 4 src.msg ++ leBytes 1 0x23 ++ leBytes 1 0 ++ leBytes 2 0x0302 ++ leBytes 4 0) n) := by
  refine h.refused rfl ?_
  rw [atTurn_eq]
  exact msgSurfaceFree_inUse hdef huse

end Surfaces

/-- Settles O22: a message whose own meaning accepts it leaves what that meaning makes of the surfaces; the check at the head
of the queue ends by itself. -/
theorem surfaceMessages : Obligations.SurfaceMessages := by
  unfold Obligations.SurfaceMessages
  refine ⟨?define, ?data, ?queue, ?free, ?check, ?inUse⟩
  case define => exact fun _ _ _ _ _ h hrange huse hroom hspace => surfaceDefine_defines h hrange huse hroom hspace
  case data => exact fun _ _ _ _ _ _ h hsf hopen htile hraw hraron => surfaceData_stores h hsf hopen htile hraw hraron
  case queue => exact fun _ _ _ _ _ h hdef => surfaceSeal_queues h hdef
  case free => exact fun _ _ _ _ _ h hdef huse => surfaceFree_frees h hdef huse
  case check => exact fun _ _ _ _ _ _ hseals hgoing hsf hanswer => sealCheckDone_decides hseals hgoing hsf hanswer
  case inUse => exact fun _ _ _ _ _ h hdef huse => surfaceFree_refused h hdef huse

/-! ### The first reason that refuses an object (R102) -/

theorem firstReason_none_iff {range unknown inUse noSpace : Bool} :
    firstReason range unknown inUse noSpace = none ↔ range = false ∧ unknown = false ∧ inUse = false ∧ noSpace = false := by
  cases range <;> cases unknown <;> cases inUse <;> cases noSpace <;> decide

/-- An entry is free for an object that is defined already, or while the table is not full. -/
theorem entry_free {known : Bool} {used size : Nat} (h : known = true ∨ used < size) :
    (!known && decide (size ≤ used)) = false := by
  rw [Bool.and_eq_false_iff, decide_eq_false_iff_not, Nat.not_le]
  exact h.imp (by rintro rfl; rfl) id

theorem entry_free_option {α : Type} {old : Option α} {used size : Nat} (h : old.isSome = true ∨ used < size) :
    (old.isNone && decide (size ≤ used)) = false := by
  rw [← Option.not_isSome]
  exact entry_free h

/-! ### LUT_DEFINE (R102, R113, R149) -/

/-- The module with a LUT defined in place of the one of its name. -/
def lutDefined (p : List Byte) (s : State) : State :=
  { s with
    jobs := { s.jobs with luts := (s.jobs.luts.filter fun x => x.id ≠ fld p 0 2) ++
      [{ id := fld p 0 2, output := fld p 4 1 = 1, curves := (pieces 8194 (p.drop 8)).map words16 }] }
    mem := { s.mem with lostLuts := s.mem.lostLuts.filter fun x => x ≠ fld p 0 2 } }

theorem msgLutDefine_ok {i : Nat} {p : List Byte} {s : State}
    (hkind : (fld p 4 1 = 0 ∧ 1 ≤ fld p 5 1 ∧ fld p 5 1 ≤ 8 ∧ fld p 0 2 ≤ 0xFEFF) ∨
      (fld p 4 1 = 1 ∧ fld p 5 1 = 1 ∧ 0xFF00 ≤ fld p 0 2 ∧ fld p 0 2 ≤ 0xFF07))
    (hlength : p.length = 8 + 8194 * fld p 5 1) (huse : lutInUse s (fld p 0 2) = false)
    (hroom : (lutOf s (fld p 0 2)).isSome = true ∨ s.jobs.luts.length < 1024) :
    msgLutDefine i p s = .ok (lutDefined p s) := by
  unfold msgLutDefine
  dsimp only
  rw [firstReason_none_iff.mpr ⟨?range, rfl, huse, entry_free_option hroom⟩]
  · rfl
  case range =>
    rcases hkind with ⟨hinput, hsome, height, hid⟩ | ⟨houtput, hone, hlow, hhigh⟩
    · simp [hinput, hlength]; omega
    · simp [houtput, hlength, hone]; omega

/-! ### PAGE_DEFINE and PAGE_FREE (R109, R111, R112) -/

/-- Of the jobs, nothing differs but the pages of name `id`. -/
def OnlyPage (id : Nat) (s n : State) : Prop :=
  n.jobs = { s.jobs with pages := n.jobs.pages } ∧
    (n.jobs.pages.filter fun p => p.id ≠ id) = s.jobs.pages.filter fun p => p.id ≠ id

theorem OnlyPage.of_jobs_eq {id : Nat} {s n : State} (h : n.jobs = s.jobs) : OnlyPage id s n := by
  unfold OnlyPage
  rw [h]
  exact ⟨rfl, rfl⟩

theorem OnlyPage.trans {id : Nat} {s m n : State} (h : OnlyPage id s m) (h' : OnlyPage id m n) : OnlyPage id s n := by
  obtain ⟨hjobs, hpages⟩ := h
  obtain ⟨hjobs', hpages'⟩ := h'
  refine ⟨?_, hpages'.trans hpages⟩
  rw [hjobs'.trans (by rw [hjobs])]

theorem modPage_id {id : Nat} {f : Page → Page} (hf : ∀ p, p.id = id → (f p).id = id) (p : Page) :
    (if p.id = id then f p else p).id = p.id := by
  by_cases hp : p.id = id
  · rw [if_pos hp, hf p hp, hp]
  · rw [if_neg hp]

theorem modPage_onlyPage {id : Nat} {f : Page → Page} {s m : State} (hf : ∀ p, p.id = id → (f p).id = id)
    (hm : m.jobs = s.jobs) : OnlyPage id s (modPage id f m) := by
  refine .trans (.of_jobs_eq hm) ⟨rfl, ?_⟩
  show (m.jobs.pages.map fun p => if p.id = id then f p else p).filter (fun p => p.id ≠ id) = _
  rw [List.filter_map]
  simp only [Function.comp_def, modPage_id hf]
  refine (List.map_congr_left fun p hp => ?_).trans (List.map_id _)
  exact if_neg (by simpa using (List.mem_filter.mp hp).2)

theorem pageOf_modPage_of_id {id : Nat} {f : Page → Page} (hf : ∀ p, p.id = id → (f p).id = id) {s : State} {pg : Page}
    (h : pageOf s id = some pg) : pageOf (modPage id f s) id = some (f pg) := by
  refine (find?_map_name (name := Page.id) (modPage_id hf) _ _).trans ?_
  show (pageOf s id).map _ = _
  rw [h, Option.map_some, if_pos (pageOf_id h)]

/-- The pages of other names stand as they were. -/
theorem OnlyPage.pageOf_other {id : Nat} {s n : State} (h : OnlyPage id s n) {j : Nat} (hj : j ≠ id) :
    pageOf n j = pageOf s j := by
  have hthrough (m : State) : pageOf m j = (m.jobs.pages.filter fun p => p.id ≠ id).find? fun p => p.id = j := by
    rw [List.find?_filter]
    refine congrArg (List.find? · m.jobs.pages) (funext fun p => ?_)
    by_cases hp : p.id = j
    · simp [hp, hj]
    · simp [hp]
  rw [hthrough, hthrough, h.2]

theorem OnlyPage.surfaces {id : Nat} {s n : State} (h : OnlyPage id s n) : n.jobs.surfaces = s.jobs.surfaces := by
  rw [h.1]

theorem abandonRendering_onlyPage {id : Nat} {s : State} (h : ∀ r, s.render.now = some r → r.page = id) :
    OnlyPage id s (abandonRendering s) := by
  unfold abandonRendering
  cases hnow : s.render.now with
  | none => exact .of_jobs_eq rfl
  | some r =>
    obtain rfl := h r hnow
    exact iteInduction (fun _ => .of_jobs_eq rfl)
      fun _ => modPage_onlyPage (fun _ h => h) rfl

theorem abandonRendering_mismatchPages (s : State) : (abandonRendering s).render.mismatchPages = s.render.mismatchPages := by
  unfold abandonRendering
  split
  · rfl
  · split <;> rfl

theorem finishPage_onlyPage (id outcome : Nat) (s : State) : OnlyPage id s (finishPage id outcome s) := by
  unfold finishPage
  split
  · exact .of_jobs_eq rfl
  · exact iteInduction
      (fun _ => (modPage_onlyPage (f := fun p => { p with resultDue := false }) (fun _ h => h) rfl).trans
        (.of_jobs_eq (finishResult_keeps ..).jobs_eq))
      fun _ => .of_jobs_eq rfl

/-- The page's own rendering is given up (R112). -/
def ownRenderingEnded (id : Nat) (s : State) : State :=
  if s.render.now.any fun r => r.page = id && r.strip.isNone then abandonRendering s else s

theorem ownRenderingEnded_onlyPage (id : Nat) (s : State) : OnlyPage id s (ownRenderingEnded id s) := by
  refine iteInduction (fun hown => abandonRendering_onlyPage fun r hr => ?_) fun _ => .of_jobs_eq rfl
  rw [hr, Option.any_some, Bool.and_eq_true] at hown
  simpa using hown.1

theorem ownRenderingEnded_mismatchPages (id : Nat) (s : State) :
    (ownRenderingEnded id s).render.mismatchPages = s.render.mismatchPages := by
  unfold ownRenderingEnded
  split
  · exact abandonRendering_mismatchPages s
  · rfl

/-- A page withdrawn takes nothing with it but itself (R112). -/
theorem withdrawPage_jobs (id : Nat) (s : State) :
    (withdrawPage id s).jobs = { s.jobs with pages := s.jobs.pages.filter fun p => p.id ≠ id } := by
  obtain ⟨hjobs, hpages⟩ := (ownRenderingEnded_onlyPage id s).trans (finishPage_onlyPage id 2 _)
  show ({ (finishPage id 2 (ownRenderingEnded id s)).jobs with
    pages := (finishPage id 2 (ownRenderingEnded id s)).jobs.pages.filter fun p => p.id ≠ id } : Jobs) = _
  rw [hpages, hjobs]

theorem withdrawPage_mismatchPages (id : Nat) (s : State) :
    (withdrawPage id s).render.mismatchPages = s.render.mismatchPages.filter fun x => x ≠ id := by
  show (finishPage id 2 (ownRenderingEnded id s)).render.mismatchPages.filter _ = _
  rw [(finishPage_keeps ..).render_eq, ownRenderingEnded_mismatchPages]

/-- The module with a page defined in place of the one of its name. -/
def pageDefined (pg : Page) (s : State) : State :=
  let s1 := addPending pg.ticket 0x25 (withdrawPage pg.id s)
  fixCosts { s1 with jobs := { s1.jobs with pages := s1.jobs.pages ++ [pg] } }

theorem msgPageDefine_ok {i : Nat} {p : List Byte} {s : State} (hlength : 28 + 64 * fld p 15 1 + 24 * fld p 16 1 ≤ p.length)
    (hrange : pageRangeBad (fld p 15 1) (fld p 16 1) (readPage p) = false)
    (hluts : ∀ l ∈ (readPage p).layers, layerLutMissing s l = false) (huse : pageInUse s (readPage p).id = false)
    (hroom : (pageOf s (readPage p).id).isSome = true ∨ s.jobs.pages.length < 16384) :
    msgPageDefine i p s = .ok (pageDefined (readPage p) s) := by
  have hknown : (readPage p).layers.any (layerLutMissing s) = false := by
    rw [List.any_eq_false]
    exact fun l hl => ne_true_of_eq_false (hluts l hl)
  unfold msgPageDefine
  dsimp only
  rw [if_neg (Nat.not_lt.mpr hlength), firstReason_none_iff.mpr ⟨hrange, hknown, huse, entry_free_option hroom⟩]
  rfl

theorem pageDefined_jobs (pg : Page) (s : State) :
    (pageDefined pg s).jobs = { s.jobs with pages := (pageDefined pg s).jobs.pages } ∧
    (pageDefined pg s).jobs.pages.map uncosted = ((s.jobs.pages.filter fun p => p.id ≠ pg.id) ++ [pg]).map uncosted := by
  have hjobs := withdrawPage_jobs pg.id s
  refine ⟨?_, (fixCosts_uncosted _).trans ?_⟩
  · show ({ (withdrawPage pg.id s).jobs with pages := (pageDefined pg s).jobs.pages } : Jobs) = _
    rw [hjobs]
  · show ((withdrawPage pg.id s).jobs.pages ++ [pg]).map uncosted = _
    rw [hjobs]

theorem msgPageFree_ok {i : Nat} {p : List Byte} {s : State} (hdef : (pageOf s (fld p 0 4)).isSome = true)
    (huse : pageInUse s (fld p 0 4) = false) : msgPageFree i p s = .ok (withdrawPage (fld p 0 4) s) := by
  unfold msgPageFree
  simp only [Option.isNone_eq_false_iff.mpr hdef, huse]
  rfl

theorem msgPageFree_inUse {i : Nat} {p : List Byte} {s : State} (hdef : (pageOf s (fld p 0 4)).isSome = true)
    (huse : pageInUse s (fld p 0 4) = true) : msgPageFree i p s = .error (reasonInUse, 0) := by
  unfold msgPageFree
  simp only [Option.isNone_eq_false_iff.mpr hdef, huse]
  rfl

/-! ### RUN_DEFINE (R102, R114) -/

/-- The module with a run defined in place of the one of its name. -/
def runDefined (r : RunDef) (s : State) : State :=
  { s with jobs := { s.jobs with runs := (s.jobs.runs.filter fun x => x.id ≠ r.id) ++ [r] } }

theorem msgRunDefine_ok {i : Nat} {p : List Byte} {s : State} (hslots : fld p 36 4 ≤ 65536)
    (hlength : 40 + 4 * fld p 36 4 ≤ p.length) (hrange : runRangeBad (fld p 36 4) (readRun p) = false)
    (huse : ((usedRuns s).any fun x => x.id = (readRun p).id) = false)
    (hroom : (s.jobs.runs.any fun x => x.id = (readRun p).id) = true ∨ s.jobs.runs.length < 16) :
    msgRunDefine i p s = .ok (runDefined (readRun p) s) := by
  unfold msgRunDefine
  dsimp only
  rw [if_neg (Nat.not_lt.mpr hslots), if_neg (Nat.not_lt.mpr hlength),
    firstReason_none_iff.mpr ⟨hrange, rfl, huse, entry_free hroom⟩]
  rfl

section Objects
variable {t i : Nat} {src : Src} {payload : List Byte} {s : State}

theorem lutDefine_defines (h : Admitted t src 0x24 payload s i)
    (hkind : (fld payload 4 1 = 0 ∧ 1 ≤ fld payload 5 1 ∧ fld payload 5 1 ≤ 8 ∧ fld payload 0 2 ≤ 0xFEFF) ∨
      (fld payload 4 1 = 1 ∧ fld payload 5 1 = 1 ∧ 0xFF00 ≤ fld payload 0 2 ∧ fld payload 0 2 ≤ 0xFF07))
    (hlength : payload.length = 8 + 8194 * fld payload 5 1) (huse : lutInUse s (fld payload 0 2) = false)
    (hroom : (lutOf s (fld payload 0 2)).isSome = true ∨ s.jobs.luts.length < 1024) :
    Completes (.lutDefine t src payload) s fun n =>
      n.jobs = { s.jobs with luts := (s.jobs.luts.filter fun x => x.id ≠ fld payload 0 2) ++
        [{ id := fld payload 0 2, output := fld payload 4 1 = 1, curves := (pieces 8194 (payload.drop 8)).map words16 }] } ∧
      n.mem = { s.mem with lostLuts := s.mem.lostLuts.filter fun x => x ≠ fld payload 0 2 } ∧
      Only [.clock, .net, .pair, .jobs, .mem] s n := by
  have hok : msgLutDefine i payload (atTurn t src 0x24 payload i s) = .ok (lutDefined payload (atTurn t src 0x24 payload i s)) := by
    rw [atTurn_eq]
    exact msgLutDefine_ok hkind hlength huse hroom
  obtain ⟨n, hexec, hafter, -, honly⟩ :=
    h.accepted (c := .lutDefine t src payload) (w := [.clock, .net, .pair, .jobs, .mem]) rfl hok (msgLutDefine_keeps _ _ _)
  rw [atTurn_eq] at hafter
  exact ⟨n, hexec, hafter.jobs_eq, hafter.mem_eq, honly⟩

theorem pageDefine_defines (h : Admitted t src 0x25 payload s i)
    (hlength : 28 + 64 * fld payload 15 1 + 24 * fld payload 16 1 ≤ payload.length)
    (hrange : pageRangeBad (fld payload 15 1) (fld payload 16 1) (readPage payload) = false)
    (hluts : ∀ l ∈ (readPage payload).layers, layerLutMissing s l = false) (huse : pageInUse s (fld payload 4 4) = false)
    (hroom : (pageOf s (fld payload 4 4)).isSome = true ∨ s.jobs.pages.length < 16384) :
    Completes (.pageDefine t src payload) s fun n =>
      n.jobs = { s.jobs with pages := n.jobs.pages } ∧
      (n.jobs.pages.map fun p => { p with cost := none }) =
        ((s.jobs.pages.filter fun p => p.id ≠ fld payload 4 4) ++ [readPage payload]).map (fun p => { p with cost := none }) ∧
      Pending (fld payload 0 4) n ∧ Only [.clock, .net, .pair, .jobs, .render] s n := by
  have hok : msgPageDefine i payload (atTurn t src 0x25 payload i s) =
      .ok (pageDefined (readPage payload) (atTurn t src 0x25 payload i s)) := by
    rw [atTurn_eq]
    exact msgPageDefine_ok hlength hrange hluts huse hroom
  obtain ⟨n, hexec, hafter, htalks, honly⟩ :=
    h.accepted (c := .pageDefine t src payload) (w := [.clock, .net, .pair, .jobs, .render]) rfl hok (msgPageDefine_keeps _ _ _)
  obtain ⟨hjobs, hpages⟩ := pageDefined_jobs (readPage payload) (atTurn t src 0x25 payload i s)
  rw [← hafter.jobs_eq, atTurn_jobs] at hjobs hpages
  exact ⟨n, hexec, hjobs, hpages, (addPending_pending (readPage payload).ticket 0x25 _).of_results_eq htalks.results, honly⟩

theorem pageFree_frees (h : Admitted t src 0x26 payload s i) (hdef : (pageOf s (fld payload 0 4)).isSome = true)
    (huse : pageInUse s (fld payload 0 4) = false) :
    Completes (.pageFree t src payload) s fun n =>
      n.jobs = { s.jobs with pages := s.jobs.pages.filter fun p => p.id ≠ fld payload 0 4 } ∧
      n.render.mismatchPages = s.render.mismatchPages.filter (fun x => x ≠ fld payload 0 4) ∧
      Only [.clock, .net, .pair, .jobs, .render] s n := by
  have hok : msgPageFree i payload (atTurn t src 0x26 payload i s) =
      .ok (withdrawPage (fld payload 0 4) (atTurn t src 0x26 payload i s)) := by
    rw [atTurn_eq]
    exact msgPageFree_ok hdef huse
  obtain ⟨n, hexec, hafter, -, honly⟩ :=
    h.accepted (c := .pageFree t src payload) (w := [.clock, .net, .pair, .jobs, .render]) rfl hok (msgPageFree_keeps _ _ _)
  refine ⟨n, hexec, ?_, ?_, honly⟩
  · rw [hafter.jobs_eq, withdrawPage_jobs, atTurn_jobs]
  · rw [hafter.render_eq, withdrawPage_mismatchPages, atTurn_keeps.render_eq]; rfl

theorem runDefine_defines (h : Admitted t src 0x27 payload s i) (hslots : fld payload 36 4 ≤ 65536)
    (hlength : 40 + 4 * fld payload 36 4 ≤ payload.length) (hrange : runRangeBad (fld payload 36 4) (readRun payload) = false)
    (huse : ((usedRuns s).any fun x => x.id = fld payload 0 4) = false)
    (hroom : (s.jobs.runs.any fun x => x.id = fld payload 0 4) = true ∨ s.jobs.runs.length < 16) :
    Completes (.runDefine t src payload) s fun n =>
      n.jobs = { s.jobs with runs := (s.jobs.runs.filter fun x => x.id ≠ fld payload 0 4) ++ [readRun payload] } ∧
      Only [.clock, .net, .pair, .jobs] s n := by
  have hok : msgRunDefine i payload (atTurn t src 0x27 payload i s) =
      .ok (runDefined (readRun payload) (atTurn t src 0x27 payload i s)) := by
    rw [atTurn_eq]
    exact msgRunDefine_ok hslots hlength hrange huse hroom
  obtain ⟨n, hexec, hafter, -, honly⟩ :=
    h.accepted (c := .runDefine t src payload) (w := [.clock, .net, .pair, .jobs]) rfl hok (msgRunDefine_keeps _ _ _)
  rw [atTurn_eq] at hafter
  exact ⟨n, hexec, hafter.jobs_eq, honly⟩

theorem pageFree_refused (h : Admitted t src 0x26 payload s i) (hdef : (pageOf s (fld payload 0 4)).isSome = true)
    (huse : pageInUse s (fld payload 0 4) = true) :
    Completes (.pageFree t src payload) s fun n =>
      Only [.clock, .net, .pair] s n ∧ (transmits s src.group = true → Answers s i 0x06
        (leBytes 4 src.msg ++ leBytes 1 0x26 ++ leBytes 1 0 ++ leBytes 2 0x0302 ++ leBytes 4 0) n) := by
  refine h.refused rfl ?_
  rw [atTurn_eq]
  exact msgPageFree_inUse hdef huse

end Objects

/-- Settles O23: each of the messages puts its object in place of the one of its name, and of a page withdrawn nothing else is
touched but what was being rendered of it. -/
theorem lutsPagesRuns : Obligations.LutsPagesRuns := by
  unfold Obligations.LutsPagesRuns
  refine ⟨?lut, ?page, ?free, ?run, ?inUse⟩
  case lut => exact fun _ _ _ _ _ h hkind hlength huse hroom => lutDefine_defines h hkind hlength huse hroom
  case page => exact fun _ _ _ _ _ h hlength hrange hluts huse hroom => pageDefine_defines h hlength hrange hluts huse hroom
  case free => exact fun _ _ _ _ _ h hdef huse => pageFree_frees h hdef huse
  case run => exact fun _ _ _ _ _ h hslots hlength hrange huse hroom => runDefine_defines h hslots hlength hrange huse hroom
  case inUse => exact fun _ _ _ _ _ h hdef huse => pageFree_refused h hdef huse

end Sys2Proof.Machine
end

section
/-! Proofs of the statement on the arming of runs (04_jobs_pages_runs.md, O24). -/
namespace Sys2Proof.Machine
open Sys2Proof

-- As in the sections before: checked in parallel, the whole text takes more threads than the memory limit leaves room for.
set_option Elab.async false

/-! ### RUN_ARM (R124, R126) -/

/-- What each step of a walk leaves alone, the whole walk leaves alone. -/
theorem forEach_eq {α β : Type} {f : α → State → State} {v : State → β} (hf : ∀ x s, v (f x s) = v s) (l : List α)
    (s : State) : v (forEach l f s) = v s := by
  induction l generalizing s with
  | nil => rfl
  | cons x xs ih => exact (ih (f x s)).trans (hf x s)

/-- Of the jobs, all but the pages. -/
def pageless (s : State) : Jobs := { s.jobs with pages := [] }

theorem dropStale_pageless (r : RunDef) (s : State) : pageless (dropStale r s) = pageless s :=
  forEach_eq (v := pageless) (f := fun p : Page => undoPage p.id) (fun _ _ => rfl) _ s

theorem armBody_length (a : Admission) (capacity : Nat) : (armBody a capacity).length = 24 := by
  simp [armBody, leBytes]

/-- The run's admission goes on: its result is pending (R126). -/
def underAdmission (r : RunDef) (ticket : Nat) (s : State) : State :=
  let s1 := addPending ticket 0x28 (dropStale r s)
  let q : PendingArm :=
    { ticket := ticket, run := r.id, risk := (admitRun s1 r).risk
      body := armBody (admitRun s1 r) ((guaranteedCapacity s1 / 10000000).floor.toNat) }
  { s1 with jobs := { s1.jobs with arming := some q } }

section RunArm
variable {i : Nat} {p : List Byte} {s : State} (hgroup : inGroup s = true → joined s = true) (hidle : s.mod.state = .idle)
  (harming : s.jobs.arming = none) (hnone : armsNone s = false)
include hgroup hidle harming hnone

theorem msgRunArm_ok {r : RunDef} (hhalt : s.mod.haltIn = false)
    (hrun : s.jobs.runs.find? (fun r => r.id = fld p 4 4) = some r)
    (hpages : ∀ id ∈ r.slots, (pageOf s id).isSome = true)
    (hmatch : ∀ g ∈ runPages s r, g.lpi = r.lpi ∧ g.depth = r.depth ∧ g.barMask &&& r.barMask = g.barMask) :
    msgRunArm i p s = .ok (underAdmission r (fld p 0 4) s) := by
  have hgroup' : (inGroup s && !joined s) = false := by
    cases hin : inGroup s with
    | false => rfl
    | true => rw [hgroup hin]; rfl
  have hknown : (r.slots.any fun id => (pageOf s id).isNone) = false := by
    rw [List.any_eq_false]
    exact fun id hid => by rw [Option.isNone_eq_false_iff.mpr (hpages id hid)]; decide
  have hfits : ((runPages s r).any fun g =>
      g.lpi ≠ r.lpi || g.depth ≠ r.depth || g.barMask &&& r.barMask ≠ g.barMask) = false := by
    rw [List.any_eq_false]
    intro g hg
    obtain ⟨hlpi, hdepth, hmask⟩ := hmatch g hg
    simp [hlpi, hdepth, hmask]
  unfold msgRunArm
  rw [hgroup', hidle, harming, hnone, hhalt, hrun]
  dsimp only
  rw [hknown, hfits]
  rfl

theorem msgRunArm_halted (hhalt : s.mod.haltIn = true) : msgRunArm i p s = .error (reasonHaltActive, 0) := by
  have hgroup' : (inGroup s && !joined s) = false := by
    cases hin : inGroup s with
    | false => rfl
    | true => rw [hgroup hin]; rfl
  unfold msgRunArm
  rw [hgroup', hidle, harming, hnone, hhalt]
  rfl

end RunArm

theorem armsNone_of_pairState {s n : State} (h : n.pair.state = s.pair.state) : armsNone n = armsNone s := by
  rw [armsNone, armsNone, h]

section Arming
variable {t i : Nat} {src : Src} {payload : List Byte} {s : State} (h : Admitted t src 0x28 payload s i)
  (hgroup : inGroup s = true → joined s = true) (hidle : s.mod.state = .idle) (harming : s.jobs.arming = none)
  (hnone : armsNone s = false)
include h hgroup hidle harming hnone

theorem runArm_admits {r : RunDef} (hhalt : s.mod.haltIn = false)
    (hrun : s.jobs.runs.find? (fun r => r.id = fld payload 4 4) = some r) (hpages : ∀ id ∈ r.slots, (pageOf s id).isSome = true)
    (hmatch : ∀ g ∈ runPages s r, g.lpi = r.lpi ∧ g.depth = r.depth ∧ g.barMask &&& r.barMask = g.barMask) :
    Completes (.runArm t src payload) s fun n =>
      (∃ q, n.jobs.arming = some q ∧ q.ticket = fld payload 0 4 ∧ q.run = r.id ∧ q.body.length = 24) ∧
      Pending (fld payload 0 4) n ∧ n.jobs.armed = s.jobs.armed ∧ n.jobs.runs = s.jobs.runs ∧
      Only [.clock, .net, .pair, .jobs] s n := by
  have hnone' : armsNone (atTurn t src 0x28 payload i s) = false :=
    (armsNone_of_pairState atTurn_talks.pairState).trans hnone
  rw [atTurn_eq] at hnone'
  have hok : msgRunArm i payload (atTurn t src 0x28 payload i s) =
      .ok (underAdmission r (fld payload 0 4) (atTurn t src 0x28 payload i s)) := by
    rw [atTurn_eq]
    refine msgRunArm_ok ?_ ?_ ?_ ?_ ?_ ?_ ?_ ?_
    exacts [hgroup, hidle, harming, hnone', hhalt, hrun, hpages, hmatch]
  obtain ⟨n, hexec, hafter, htalks, honly⟩ :=
    h.accepted (c := .runArm t src payload) (w := [.clock, .net, .pair, .jobs]) rfl hok (msgRunArm_keeps _ _ _)
  have hjobs : pageless (dropStale r (atTurn t src 0x28 payload i s)) = pageless s := by
    rw [dropStale_pageless, pageless, atTurn_jobs, pageless]
  refine ⟨n, hexec, ?_, (addPending_pending (fld payload 0 4) 0x28 _).of_results_eq htalks.results, ?_, ?_, honly⟩
  · rw [hafter.jobs_eq]
    exact ⟨_, rfl, rfl, rfl, armBody_length ..⟩
  · rw [hafter.jobs_eq]
    show (pageless (dropStale r (atTurn t src 0x28 payload i s))).armed = s.jobs.armed
    rw [hjobs]; rfl
  · rw [hafter.jobs_eq]
    show (pageless (dropStale r (atTurn t src 0x28 payload i s))).runs = s.jobs.runs
    rw [hjobs]; rfl

theorem runArm_refused (hhalt : s.mod.haltIn = true) :
    Completes (.runArm t src payload) s fun n =>
      Only [.clock, .net, .pair] s n ∧ (transmits s src.group = true → Answers s i 0x06
        (leBytes 4 src.msg ++ leBytes 1 0x28 ++ leBytes 1 0 ++ leBytes 2 0x0307 ++ leBytes 4 0) n) := by
  have hnone' : armsNone (atTurn t src 0x28 payload i s) = false :=
    (armsNone_of_pairState atTurn_talks.pairState).trans hnone
  rw [atTurn_eq] at hnone'
  refine h.refused rfl ?_
  rw [atTurn_eq]
  refine msgRunArm_halted ?_ ?_ ?_ ?_ ?_
  exacts [hgroup, hidle, harming, hnone', hhalt]

end Arming

/-! ### The entry into ARMED (R126, R355)

What an arming fixes is read off one view of the state, which each of its later steps leaves alone. -/

/-- What an arming fixes, and the faults of the inputs, which act at the entry into ARMED. -/
def armView (s : State) :
    ModState × Option RunDef × Option PendingArm × Nat × Nat × List Surface × List RunDef × List Bool :=
  (s.mod.state, s.jobs.armed.map (fun a => a.run), s.jobs.arming, s.jobs.runId, s.jobs.runTag, s.jobs.surfaces, s.jobs.runs,
    s.pos.inputs.map Input.fault)

theorem armView_of_keeps {w : List Group} {s n : State} (h : Keeps w s n) (hmod : Group.mod ∉ w := by decide)
    (hjobs : Group.jobs ∉ w := by decide) (hpos : Group.pos ∉ w := by decide) : armView n = armView s := by
  rw [armView, armView, h.mod_eq hmod, h.jobs_eq hjobs, h.pos_eq hpos]

theorem armView_modArmed {f : Armed → Armed} (hf : ∀ a, (f a).run = a.run) (s : State) :
    armView (modArmed f s) = armView s := by
  unfold armView
  rw [modArmed_jobs_armed, Option.map_map]
  simp only [Function.comp_def, hf]
  rfl

theorem armView_fixStart (s : State) : armView (fixStart s) = armView s := by
  unfold fixStart
  split
  · rfl
  · split
    · exact armView_modArmed (by intro; rfl) s
    · rfl

/-- A walk over the bars moves their registers only (R290). -/
theorem armView_forEach_keeps {α : Type} {f : α → State → State} {w : List Group} (hf : ∀ x s, Keeps w s (f x s))
    (l : List α) (s : State) (hmod : Group.mod ∉ w := by decide) (hjobs : Group.jobs ∉ w := by decide)
    (hpos : Group.pos ∉ w := by decide) : armView (forEach l f s) = armView s :=
  armView_of_keeps (Keeps.forEach hf (Keeps.refl w s)) hmod hjobs hpos

/-- A bar's offset and delay by the leading offset in force (R290). -/
def cascadeBar (b : Nat) (s : State) : State :=
  let s' := modBar b (fun y => { y with offset := barOffsetOf s b y.regTap }) s
  modBar b (fun y => { y with maxDelay := largestTotal s' b }) s'

theorem cascadeBar_keeps (b : Nat) (s : State) : Keeps [.fire] s (cascadeBar b s) :=
  (modBar_keeps ..).then (modBar_keeps ..) (by decide)

/-- The king's leading offset changes where the run's lines lie, and not the run (R494). -/
theorem armView_applyCascade (off : Nat) (s : State) : armView (applyCascade off s) = armView s := by
  have hbars := fun (l : List Nat) (s : State) => armView_forEach_keeps (f := cascadeBar) cascadeBar_keeps l s
  have hoff : armView (modArmed (fun a => { a with leadOffset := off, armedAt := s.now })
      { s with ring := { s.ring with cascade := some off } }) = armView s := armView_modArmed (by intro; rfl) _
  unfold applyCascade
  dsimp only
  split
  · exact (armView_fixStart _).trans ((hbars ..).trans hoff)
  · exact (armView_of_keeps (sendSlotReady_keeps _)).trans ((hbars ..).trans hoff)

theorem armView_sendCascade (run off : Nat) (s : State) : armView (sendCascade run off s) = armView s :=
  (armView_applyCascade ..).trans (armView_of_keeps (ringSendActive_keeps ..))

/-- A decision that waits for the partner changes nothing yet; one that does not, changes what it stands for (R508). -/
theorem onAck_eq {β : Type} {v : State → β} {kind : Nat} {body : List Byte} {d : Decision} {f : State → State}
    (hpair : ∀ s n : State, Keeps [.pair] s n → v n = v s) (hf : ∀ s, v (f s) = v s) (s : State) :
    v (onAck kind body d f s) = v s := by
  unfold onAck
  split
  · exact hpair s _ ((sendToken_keeps ..).then (set_pair_keeps ..) (by decide))
  · exact (hf _).trans (hpair s _ (sendToken_keeps ..))

theorem armView_checkCascade (s : State) : armView (checkCascade s) = armView s := by
  unfold checkCascade
  split
  · rfl
  · split
    · dsimp only
      split
      · exact (onAck_eq (fun _ _ h => armView_of_keeps h) (fun _ => armView_sendCascade ..) _).trans
          (armView_of_keeps (noteMismatch_keeps s))
      · exact armView_of_keeps (noteMismatch_keeps s)
    · rfl

theorem armView_raise (code : Nat) (detail : List Byte) (s : State) : armView (raise code detail s) = armView s :=
  armView_of_keeps (raise_keeps ..)

theorem armView_addAux (x : Aux) (s : State) : armView (addAux x s) = armView s := by
  unfold addAux
  split <;> rfl

theorem armView_programCams (s : State) : armView (programCams s) = armView s := by
  refine forEach_eq (fun c s => ?_) _ s
  simp only [apply_ite armView, armView_raise, armView_addAux, ite_self]

/-- With no input at fault nothing counts as raised at the entry into ARMED (R269). -/
theorem faultsAtArm_of_faultless {s : State} (h : ∀ i, i < 16 → (inputOf s i).fault = false) : faultsAtArm s = s := by
  have hnone : ((runInputs s).filter fun i => (inputOf s i).fault) = [] := by
    rw [List.filter_eq_nil_iff]
    exact fun i hi => ne_true_of_eq_false (h i (List.mem_range.mp (List.mem_filter.mp hi).1))
  rw [faultsAtArm, hnone]
  rfl

/-- A module that follows leaves the faults to its partner (R269). -/
theorem faultsAtArm_of_follows {s : State} (h : follows s = true) : faultsAtArm s = s := by
  unfold faultsAtArm
  generalize (runInputs s).filter (fun i => (inputOf s i).fault) = l
  induction l with
  | nil => rfl
  | cons i l ih => 
    have hi : applyFault i s = s := if_pos (by simp [h])
    show forEach l applyFault (applyFault i s) = s
    rw [hi, ih]

theorem inputFault_of_armView {s n : State} (h : n.pos.inputs.map Input.fault = s.pos.inputs.map Input.fault) (i : Nat) :
    (inputOf n i).fault = (inputOf s i).fault := by
  have hat (m : State) : (inputOf m i).fault = (m.pos.inputs.map Input.fault).getD i false := by
    rw [inputOf, List.getD_eq_getElem?_getD, List.getD_eq_getElem?_getD, List.getElem?_map]
    cases m.pos.inputs[i]? <;> rfl
  rw [hat, hat, h]

/-- A module that follows drives nothing itself (R27). -/
theorem drives_of_follows {s : State} (h : follows s = true) : drives s = false := by
  unfold follows at h
  unfold drives
  cases hp : s.pair.state <;> simp_all

/-- A module that follows does not decide on the cascade (R494, R507). -/
theorem checkCascade_of_follows {s : State} (h : follows s = true) : checkCascade s = s := by
  unfold checkCascade
  cases s.jobs.armed with
  | none => rfl
  | some a => exact if_neg (by simp [drives_of_follows h])

theorem ringSendActive_of_follows {s : State} (h : follows s = true) (type dest : Nat) (body : List Byte) :
    ringSendActive type dest body s = s := if_neg (by simp [drives_of_follows h])

theorem armView_updateOverspeed (s : State) : armView (updateOverspeed s) = armView s := armView_of_keeps (updateOverspeed_keeps s)

theorem armView_ringSendActive (type dest : Nat) (body : List Byte) (s : State) :
    armView (ringSendActive type dest body s) = armView s := armView_of_keeps (ringSendActive_keeps ..)

theorem armView_setModState (st : ModState) (cause : Nat) (s : State) :
    armView (setModState st cause s) = (st, (armView s).2) := by
  have hkeeps := setModState_keeps st cause s
  rw [armView, armView, setModState_state, hkeeps.jobs_eq, hkeeps.pos_eq]

/-- The inputs of a run are set to its spacing and numbers; what else an arming fixes is not touched (R278, R292). -/
theorem inputsArmed_faults (l : List (Nat × Int)) (sp : Nat → Nat) (s : State) :
    (forEach l (fun p => modInput p.1 (armInput (sp p.1) p.2)) s).pos.inputs.map Input.fault =
      s.pos.inputs.map Input.fault := by
  refine forEach_eq (v := fun s => s.pos.inputs.map Input.fault) (fun p s => List.ext_getElem? fun k => ?_) l s
  rw [modInput_pos_inputs, List.getElem?_map, List.getElem?_map, List.getElem?_modify]
  cases s.pos.inputs[k]? with
  | none => rfl
  | some x => exact congrArg some (apply_ite Input.fault (p.1 = k) _ x |>.trans (ite_self _))

/-- The module enters ARMED with a run, its tag and the numbers of its inputs (R126, R278, R355). -/
def runEntered (r : RunDef) (a : Armed) (tag : Nat) (nArm : List (Nat × Int)) (s : State) : State :=
  let s1 := forEach nArm (fun p => modInput p.1 (armInput (spacingOf s p.1 (lpiOf r.lpi)) p.2)) s
  setModState .armed 9 (forEach (bitList 8 r.barMask) armTaps { s1 with jobs := { s1.jobs with
    armed := some a, arming := none, runId := r.id, runTag := tag, lastDepth := r.depth } })

/-- What the entry into ARMED tells the host (R126, R127). -/
def runTold (r : RunDef) (verdict : Nat) (risk : Option (Nat × Nat)) (s : State) : State :=
  let s4 := raise 0x0310 (leBytes 4 r.id ++ leBytes 1 verdict) s
  match risk with
  | some (n, us) => if verdict = 1 then
      raise 0x0311 (leBytes 4 n ++ leBytes 4 (r.slots.getD n 0) ++ leBytes 4 us) s4 else s4
  | none => s4

/-- What the entry into ARMED tells the ring, and what it sets going (R373, R493, R494). -/
def runStarted (r : RunDef) (a : Armed) (s : State) : State :=
  let s6 := programCams (if inGroup s then
      ringSendActive 0x30 0xFF (leBytes 4 r.id ++ leBytes 4 a.digest ++ leBytes 4 a.leadOffset) s else s)
  updateOverspeed (if groupKing s6 then checkCascade s6 else if groupMember s6 then s6 else fixStart s6)

theorem armRun_eq (r : RunDef) (verdict tag : Nat) (nArm : List (Nat × Int)) (risk : Option (Nat × Nat)) (s : State) :
    ∃ a : Armed, armRun r verdict tag nArm risk s =
      faultsAtArm (runStarted r a (runTold r verdict risk (runEntered r a tag nArm s))) ∧ a.run = r := ⟨_, rfl, rfl⟩

theorem inputsArmed_keeps (l : List (Nat × Int)) (sp : Nat → Nat) (s : State) :
    Keeps [.pos] s (forEach l (fun p => modInput p.1 (armInput (sp p.1) p.2)) s) :=
  Keeps.forEach (fun _ _ => modInput_keeps ..) (Keeps.refl _ _)

section Entered
variable (r : RunDef) (a : Armed)

theorem armView_runEntered (tag : Nat) (nArm : List (Nat × Int)) (s : State) : armView (runEntered r a tag nArm s) =
    (.armed, some a.run, none, r.id, tag, s.jobs.surfaces, s.jobs.runs, s.pos.inputs.map Input.fault) := by
  have hjobs := (inputsArmed_keeps nArm (fun i => spacingOf s i (lpiOf r.lpi)) s).jobs_eq
  have hfaults := inputsArmed_faults nArm (fun i => spacingOf s i (lpiOf r.lpi)) s
  unfold runEntered
  rw [armView_setModState, armView_forEach_keeps armTaps_keeps]
  unfold armView
  dsimp only
  rw [hjobs, hfaults]
  rfl

/-- Entering ARMED is not told to the partner otherwise than by the decision itself (R507). -/
theorem runEntered_pair (tag : Nat) (nArm : List (Nat × Int)) (s : State) : (runEntered r a tag nArm s).pair = s.pair := by
  have hinputs := (inputsArmed_keeps nArm (fun i => spacingOf s i (lpiOf r.lpi)) s).pair_eq
  unfold runEntered
  rw [(setModState_keeps ..).pair_eq, (Keeps.forEach armTaps_keeps (Keeps.refl [.fire] _)).pair_eq]
  exact hinputs

theorem runTold_keeps (verdict : Nat) (risk : Option (Nat × Nat)) (s : State) :
    Keeps [.log, .net] s (runTold r verdict risk s) := by
  unfold runTold
  split
  · exact Keeps.ite (fun _ => (raise_keeps ..).then (raise_keeps ..) (by decide)) fun _ => raise_keeps ..
  · exact raise_keeps ..

theorem armView_runStarted (s : State) : armView (runStarted r a s) = armView s := by
  unfold runStarted
  simp only [apply_ite armView, armView_updateOverspeed, armView_checkCascade, armView_fixStart, ite_self, armView_programCams,
    armView_ringSendActive]

/-- What a following module sets going does not touch the pair: the active decides on the cascade (R494, R507). -/
theorem runStarted_pair_of_follows {s : State} (h : follows s = true) : (runStarted r a s).pair = s.pair := by
  unfold runStarted
  rw [ringSendActive_of_follows h, ite_self]
  dsimp only
  have hcams : (programCams s).pair = s.pair := (programCams_keeps s).pair_eq
  rw [(updateOverspeed_keeps _).pair_eq,
    checkCascade_of_follows ((follows_of_pairState (congrArg Pair.state hcams)).trans h)]
  split
  · exact hcams
  · split
    · exact hcams
    · exact (fixStart_keeps _).pair_eq.trans hcams

end Entered

/-- Up to the faults of its inputs, an arming leaves the run armed with its tag (R126, R355); where the module follows, it does
not touch the pair. -/
theorem armRun_armed (r : RunDef) (verdict tag : Nat) (nArm : List (Nat × Int)) (risk : Option (Nat × Nat)) (s : State) :
    ∃ m, armRun r verdict tag nArm risk s = faultsAtArm m ∧
      armView m = (.armed, some r, none, r.id, tag, s.jobs.surfaces, s.jobs.runs, s.pos.inputs.map Input.fault) ∧
      (follows s = true → m.pair = s.pair) := by
  obtain ⟨a, harm, rfl⟩ := armRun_eq r verdict tag nArm risk s
  have htold := runTold_keeps a.run verdict risk (runEntered a.run a tag nArm s)
  have hpair := htold.pair_eq.trans (runEntered_pair ..)
  refine ⟨_, harm, ?_, fun hfollows => ?_⟩
  · rw [armView_runStarted, armView_of_keeps htold, armView_runEntered]
  · exact (runStarted_pair_of_follows _ _ ((follows_of_pairState (congrArg Pair.state hpair)).trans hfollows)).trans hpair

/-- Without a fault of an input, a run armed is armed (R126, R355). -/
theorem armRun_of_faultless {r : RunDef} {s : State} (h : ∀ i, i < 16 → (inputOf s i).fault = false) (verdict tag : Nat)
    (nArm : List (Nat × Int)) (risk : Option (Nat × Nat)) : armView (armRun r verdict tag nArm risk s) =
      (.armed, some r, none, r.id, tag, s.jobs.surfaces, s.jobs.runs, s.pos.inputs.map Input.fault) := by
  obtain ⟨m, harm, hview, -⟩ := armRun_armed r verdict tag nArm risk s
  have hfaults : m.pos.inputs.map Input.fault = s.pos.inputs.map Input.fault := by
    exact congrArg (fun v => v.2.2.2.2.2.2.2) hview
  rw [harm, faultsAtArm_of_faultless fun i hi => (inputFault_of_armView hfaults i).trans (h i hi), hview]

/-- A following module's arming leaves the pair alone, and the faults of its inputs to the partner (R126, R269, R507). -/
theorem armRun_of_follows {r : RunDef} {s : State} (h : follows s = true) (verdict tag : Nat) (nArm : List (Nat × Int))
    (risk : Option (Nat × Nat)) : armView (armRun r verdict tag nArm risk s) =
      (.armed, some r, none, r.id, tag, s.jobs.surfaces, s.jobs.runs, s.pos.inputs.map Input.fault) ∧
      (armRun r verdict tag nArm risk s).pair = s.pair := by
  obtain ⟨m, harm, hview, hpair⟩ := armRun_armed r verdict tag nArm risk s
  rw [harm, faultsAtArm_of_follows ((follows_of_pairState (congrArg Pair.state (hpair h))).trans h)]
  exact ⟨hview, hpair h⟩

theorem sendToken_pairState (kind : Nat) (body : List Byte) (s : State) :
    (sendToken kind body s).pair.state = s.pair.state := by
  unfold sendToken
  split <;> rfl

/-! ### RUN_ARM_VERDICT (R126, R508) -/

theorem armPending_of_mayArm {q : PendingArm} {r : RunDef} {s : State} (harming : s.jobs.arming = some q)
    (hmay : mayArm s = true) (hrun : s.jobs.runs.find? (fun r => r.id = q.run) = some r) (verdict tag : Nat)
    (nArm : List (Nat × Int)) : armPending verdict tag nArm s = armRun r verdict tag nArm q.risk s := by
  unfold armPending
  rw [harming]
  dsimp only
  rw [if_pos hmay, hrun]

theorem mayArm_of_keeps {s n : State} (h : Keeps [.pair] s n) (hpair : n.pair.state = s.pair.state) : mayArm n = mayArm s := by
  rw [mayArm, mayArm, h.mod_eq, armsNone_of_pairState hpair]

section Verdict
variable {t : Nat} {q : PendingArm} {s : State} (harming : s.jobs.arming = some q) (hfollows : follows s = false)
include harming hfollows

theorem runArmVerdict_arms {r : RunDef} (hpartner : partnerTakes s = false) (hverdict : fld q.body 0 1 ≠ 2)
    (hmay : mayArm s = true) (hrun : s.jobs.runs.find? (fun r => r.id = q.run) = some r)
    (hfaults : ∀ i, i < 16 → (inputOf s i).fault = false) :
    Completes (.runArmVerdict t) s fun n =>
      n.mod.state = .armed ∧ n.jobs.armed.map (fun a => a.run) = some r ∧ n.jobs.arming = none ∧ n.jobs.runId = r.id ∧
      n.jobs.runTag = (s.jobs.runTag + 1) % 65536 ∧ n.jobs.surfaces = s.jobs.surfaces ∧ n.jobs.runs = s.jobs.runs := by
  let nArm := armNumbers (beginAt t s) r
  let tag := (s.jobs.runTag + 1) % 65536
  let told := sendToken 0x01 (armToken r.id (fld q.body 0 1) tag nArm) (beginAt t s)
  have htold : Keeps [.pair] (beginAt t s) told := sendToken_keeps ..
  have hmay' : mayArm told = true := (mayArm_of_keeps htold (sendToken_pairState ..)).trans hmay
  have hjobs : told.jobs = s.jobs := htold.jobs_eq
  have hpos : told.pos = s.pos := htold.pos_eq
  have hexec : exec (.runArmVerdict t) s =
      .next (finishResult q.ticket q.body (armRun r (fld q.body 0 1) tag nArm q.risk told)) := by
    rw [← armPending_of_mayArm (by rw [hjobs]; exact harming) hmay' (by rw [hjobs]; exact hrun)]
    show execRunArmVerdict t s = _
    unfold execRunArmVerdict
    dsimp only
    rw [beginAt_jobs, harming]
    dsimp only
    rw [if_neg (ne_true_of_eq_false (show follows (beginAt t s) = false from hfollows)),
      if_neg (by simp [hverdict, show mayArm (beginAt t s) = true from hmay]),
      hrun]
    dsimp only
    unfold onAck
    rw [if_neg (ne_true_of_eq_false (show partnerTakes (beginAt t s) = false from hpartner))]
  have hview := armRun_of_faultless (r := r) (s := told) (fun i hi => by rw [inputOf, hpos]; exact hfaults i hi)
    (fld q.body 0 1) tag nArm q.risk
  rw [hjobs] at hview
  have hview' := (armView_of_keeps (finishResult_keeps q.ticket q.body _)).trans hview
  simp only [armView, Prod.mk.injEq] at hview'
  obtain ⟨hstate, harmed, hnone, hid, htag, hsurfaces, hruns, -⟩ := hview'
  exact ⟨_, hexec, hstate, harmed, hnone, hid, htag, hsurfaces, hruns⟩

/-- A run that is not armed leaves the module as it was but for its result: the verdict's, or that it came too late (R126). -/
theorem runArmVerdict_unarmed (hnot : fld q.body 0 1 = 2 ∨ mayArm s = false) (hanswer : Answerable q.ticket s) :
    Completes (.runArmVerdict t) s fun n =>
      n.jobs = { s.jobs with arming := none } ∧
      Ready q.ticket (if fld q.body 0 1 = 2 then q.body else abandonedBody q.body) n ∧
      Only [.clock, .net, .pair, .jobs] s n := by
  let body := if fld q.body 0 1 = 2 then q.body else abandonedBody q.body
  let ended : State := { beginAt t s with jobs := { s.jobs with arming := none } }
  have hnot' : (decide (fld q.body 0 1 = 2) || !mayArm (beginAt t s)) = true := by
    rcases hnot with hverdict | hmay
    · simp [hverdict]
    · simp [show mayArm (beginAt t s) = false from hmay]
  have hexec : exec (.runArmVerdict t) s = .next (finishResult q.ticket body ended) := by
    show execRunArmVerdict t s = _
    unfold execRunArmVerdict
    dsimp only
    rw [beginAt_jobs, harming]
    dsimp only
    rw [if_neg (ne_true_of_eq_false (show follows (beginAt t s) = false from hfollows)), if_pos hnot']
  have hended : Keeps [.jobs] (beginAt t s) ended := set_jobs_keeps ..
  have hkeeps : Keeps [.net, .pair] ended (finishResult q.ticket body ended) := finishResult_keeps ..
  exact ⟨_, hexec, hkeeps.jobs_eq, finishResult_ready (hanswer.of_net_pair_eq rfl rfl),
    ((hended.mono (by decide)).then hkeeps (by decide)).onlySince (v := [.net, .pair, .jobs])⟩

theorem runArmVerdict_refused (hverdict : fld q.body 0 1 = 2) (hanswer : Answerable q.ticket s) :
    Completes (.runArmVerdict t) s fun n =>
      n.jobs = { s.jobs with arming := none } ∧ Ready q.ticket q.body n ∧ Only [.clock, .net, .pair, .jobs] s n := by
  simpa only [if_pos hverdict] using runArmVerdict_unarmed (t := t) harming hfollows (.inl hverdict) hanswer

theorem runArmVerdict_late (hverdict : fld q.body 0 1 ≠ 2) (hmay : mayArm s = false) (hanswer : Answerable q.ticket s) :
    Completes (.runArmVerdict t) s fun n =>
      n.jobs = { s.jobs with arming := none } ∧ Ready q.ticket (leBytes 1 2 ++ leBytes 1 7 ++ q.body.drop 2) n ∧
      Only [.clock, .net, .pair, .jobs] s n := by
  simpa only [if_neg hverdict, abandonedBody] using runArmVerdict_unarmed (t := t) harming hfollows (.inr hmay) hanswer

end Verdict

/-- Settles O24: RUN_ARM by its checks, the verdict by what the arming leaves of its view. -/
theorem runArming : Obligations.RunArming := by
  unfold Obligations.RunArming
  refine ⟨?admits, ?halted, ?arms, ?refused, ?late⟩
  case admits =>
    exact fun _ _ _ _ _ _ h hgroup hidle harming hnone hhalt hrun hpages hmatch =>
      runArm_admits h hgroup hidle harming hnone hhalt hrun hpages hmatch
  case halted => exact fun _ _ _ _ _ h hgroup hidle harming hnone hhalt => runArm_refused h hgroup hidle harming hnone hhalt
  case arms =>
    exact fun _ _ _ _ harming hfollows hpartner hverdict hmay hrun hfaults =>
      runArmVerdict_arms harming hfollows hpartner hverdict hmay hrun hfaults
  case refused => exact fun _ _ _ harming hfollows hverdict hanswer => runArmVerdict_refused harming hfollows hverdict hanswer
  case late => exact fun _ _ _ harming hfollows hverdict hmay hanswer => runArmVerdict_late harming hfollows hverdict hmay hanswer

end Sys2Proof.Machine
end

section
/-! Proofs of the statement on the rendering of pages (05_composition.md, 07_raron.md, O43): a page is taken up, its lines are composed,
its chunks are stored, and it is RENDERED. -/
namespace Sys2Proof.Machine
open Sys2Proof

-- As in the sections before: checked in parallel, the whole text takes more threads than the memory limit leaves room for.
set_option Elab.async false

/-! ### PAGE_RENDER_START (R117, R120, R121) -/

theorem pageEvent_onlyPage (id code : Nat) (detail : List Byte) (s : State) : OnlyPage id s (pageEvent id code detail s) := by
  unfold pageEvent
  split
  · exact .of_jobs_eq rfl
  · exact (modPage_onlyPage (f := fun p => { p with raised := code :: p.raised }) (fun _ h => h) rfl).trans
      (.of_jobs_eq (raise_keeps ..).jobs_eq)

/-- An event of a page tells only itself in the page. -/
theorem pageEvent_pageOf {id : Nat} {s : State} {pg : Page} (h : pageOf s id = some pg) (code : Nat) (detail : List Byte) :
    ∃ l, pageOf (pageEvent id code detail s) id = some { pg with raised := l } := by
  unfold pageEvent
  split
  · exact ⟨pg.raised, h⟩
  · exact ⟨code :: pg.raised, (pageOf_of_jobs_eq (raise_keeps ..).jobs_eq id).trans
      (pageOf_modPage_of_id (f := fun p => { p with raised := code :: p.raised }) (fun _ h => h) h)⟩

/-- Nothing is evicted for what fits already (R121, R132). -/
theorem evictFor_of_fits {need : Nat} {s : State} (h : pageStoreUsed s + need ≤ pageStore s) (l : List Page) :
    evictFor need l s = s := by
  cases l with
  | nil => rfl
  | cons p l => exact if_pos h

/-- A page changed, with or without an event of its own after that. -/
theorem modPage_pageEvent {f : Page → Page} {P : Page → Prop} {pg : Page} {s m n : State} {c : Prop} [Decidable c] {code : Nat}
    {detail : List Byte} (hpg : pageOf s pg.id = some pg) (hf : ∀ p, p.id = pg.id → (f p).id = pg.id)
    (hP : ∀ l, P { f pg with raised := l }) (hm : m.jobs = (modPage pg.id f s).jobs)
    (hn : n.jobs = (if c then m else pageEvent pg.id code detail m).jobs) :
    (∃ q, pageOf n pg.id = some q ∧ P q) ∧ OnlyPage pg.id s n := by
  have hmod : pageOf m pg.id = some (f pg) := (pageOf_of_jobs_eq hm pg.id).trans (pageOf_modPage_of_id hf hpg)
  have hkept : OnlyPage pg.id s m := (modPage_onlyPage hf rfl).trans (.of_jobs_eq hm)
  rw [pageOf_of_jobs_eq hn]
  split at hn
  · rename_i hc
    rw [if_pos hc]
    exact ⟨⟨_, hmod, hP (f pg).raised⟩, hkept.trans (.of_jobs_eq hn)⟩
  · rename_i hc
    rw [if_neg hc]
    obtain ⟨l, hl⟩ := pageEvent_pageOf hmod code detail
    exact ⟨⟨_, hl, hP l⟩, (hkept.trans (pageEvent_onlyPage ..)).trans (.of_jobs_eq hn)⟩

theorem checkStart_of_ready {pg : Page} {s : State} (hsealed : surfacesSealed s pg = true) (hluts : lutLost s pg = false)
    (hlayers : badLayer s pg = none) (hcontexts : contextsExceeded s pg = none) : checkStart pg s = (true, s) := by
  unfold checkStart
  rw [hsealed, hluts, hlayers, hcontexts]
  rfl

section RenderNext
variable {a : Armed} {pg : Page} {s : State} (harmed : s.jobs.armed = some a) (hpg : pageOf s pg.id = some pg)
include harmed hpg

/-- A page that is taken up is in RENDERING, its space reserved, at its first line (R117, R121). -/
theorem startPage_renders :
    ((startPage pg s).render.now.map fun r => (r.page, r.line, r.strip)) = some (pg.id, 0, none) ∧
    (∃ q, pageOf (startPage pg s) pg.id = some q ∧ q.state = .rendering ∧
      q.reserved = max pg.reserved (pageReservation s.conf.cfg { pg with margin := pageMargin s a.run pg })) ∧
    OnlyPage pg.id s (startPage pg s) := by
  unfold startPage
  rw [harmed]
  refine ⟨rfl, ?_⟩
  apply modPage_pageEvent hpg (hn := rfl)
  case hm => exact iteInduction (motive := fun m : State => m.jobs = _) (fun _ => (raise_keeps ..).jobs_eq) fun _ => rfl
  case hf => exact fun _ _ => rfl
  case hP => exact fun _ => ⟨rfl, rfl⟩

/-- The page of the next slot is taken up where it may start and its space fits (R120, R121). -/
theorem renderNext_starts {k : Nat} {rest : List (Nat × Nat)} (hstate : pg.state = .defined) (hagain : s.cal.rerenderPages = [])
    (hahead : aheadCount s < a.run.renderAhead) (hstart : checkStart pg s = (true, s))
    (hfits : pageStoreUsed s + (pageReservation s.conf.cfg { pg with margin := pageMargin s a.run pg } - pg.reserved) ≤
      pageStore s) : renderNext ((k, pg.id) :: rest) s = startPage pg s := by
  have htry : tryPage pg s = startPage pg s := by
    unfold tryPage
    rw [harmed]
    dsimp only
    rw [evictFor_of_fits hfits, if_pos hfits]
  unfold renderNext
  rw [hpg, harmed]
  dsimp only
  rw [if_pos (by simp [hstate, hagain]), if_neg (Nat.not_le.mpr hahead), hstart]
  exact htry

end RenderNext

theorem nextRerender_of_none {s : State} (h : s.cal.waiting = []) : nextRerender s = s := if_pos (by simp [h])

/-- The engine takes up what starts, and counts the dead files of its map. -/
theorem takeUp_of_starts {s : State} (hduty : 0 < s.gov.renderDuty) (hnow : s.render.now = none) (hseal : s.jobs.sealing = false)
    (hrun : rendersRun s = true) (hstarts : (renderNext (comingSlots s) s).render.now.isSome = true) :
    (takeUp s).render.now = (renderNext (comingSlots s) s).render.now ∧
    (takeUp s).jobs = (renderNext (comingSlots s) s).jobs := by
  have hstart : startNext s = renderNext (comingSlots s) s := by
    unfold startNext
    rw [if_neg (by simp [hnow, hseal, hrun])]
    exact if_pos hstarts
  unfold takeUp
  rw [if_neg (by simp [hnow, hduty.ne']), hstart]
  dsimp only
  rw [if_pos hstarts]
  exact ⟨rfl, rfl⟩

theorem pageRenderStart_takesUp {t k : Nat} {rest : List (Nat × Nat)} {a : Armed} {pg : Page} {s : State}
    (hnow : s.render.now = none) (hseal : s.jobs.sealing = false) (hrun : rendersRun s = true) (hwait : s.cal.waiting = [])
    (hagain : s.cal.rerenderPages = []) (harmed : s.jobs.armed = some a) (hcoming : comingSlots s = (k, pg.id) :: rest)
    (hpg : pageOf s pg.id = some pg) (hstate : pg.state = .defined) (hahead : aheadCount s < a.run.renderAhead)
    (hstart : checkStart pg (beginAt t s) = (true, beginAt t s)) (hduty : 0 < s.gov.renderDuty)
    (hfits : pageStoreUsed s + (pageReservation s.conf.cfg { pg with margin := pageMargin s a.run pg } - pg.reserved) ≤
      pageStore s) :
    Completes (.pageRenderStart t) s fun n =>
      (n.render.now.map fun r => (r.page, r.line, r.strip)) = some (pg.id, 0, none) ∧
      (∃ q, pageOf n pg.id = some q ∧ q.state = .rendering ∧
        q.reserved = max pg.reserved (pageReservation s.conf.cfg { pg with margin := pageMargin s a.run pg })) ∧
      (∀ j, j ≠ pg.id → pageOf n j = pageOf s j) ∧ n.jobs.surfaces = s.jobs.surfaces := by
  have hnext : renderNext (comingSlots (beginAt t s)) (beginAt t s) = startPage pg (beginAt t s) := by
    rw [show comingSlots (beginAt t s) = (k, pg.id) :: rest from hcoming]
    exact renderNext_starts (s := beginAt t s) harmed hpg hstate hagain hahead hstart hfits
  obtain ⟨hrender, hpage, honly⟩ := startPage_renders (s := beginAt t s) harmed hpg
  have hsome : (startPage pg (beginAt t s)).render.now.isSome = true := by
    cases hn : (startPage pg (beginAt t s)).render.now with
    | none => rw [hn] at hrender; cases hrender
    | some r => rfl
  obtain ⟨htaken, hjobs⟩ := takeUp_of_starts (s := beginAt t s) hduty hnow hseal hrun (by rw [hnext]; exact hsome)
  rw [hnext] at htaken hjobs
  have hfinal := beginSeal_jobs (takeUp (beginAt t s))
  have hpages (j : Nat) : pageOf (beginSeal (takeUp (beginAt t s))) j = pageOf (startPage pg (beginAt t s)) j := by
    unfold pageOf
    rw [hfinal, hjobs]
  refine ⟨beginSeal (takeUp (beginAt t s)), ?_, ?_, ?_, fun j hj => ?_, ?_⟩
  · show Host.Outcome.next (beginSeal (takeUp (nextRerender (beginAt t s)))) = _
    rw [nextRerender_of_none (s := beginAt t s) hwait]
  · rw [(beginSeal_keeps _).render_eq, htaken]
    exact hrender
  · rw [hpages]
    exact hpage
  · exact (hpages j).trans (honly.pageOf_other hj)
  · rw [hfinal, hjobs]
    exact honly.surfaces

/-! ### A line composed (R140, R189)

What a line brings to screening, to the compressors and to the references leaves the rendering at its place: the page, the line,
whether it has failed, and the decoder contexts. -/

/-- Where a rendering stands. -/
def renderingPlace (r : Rendering) : Nat × Nat × Bool := (r.page, r.line, r.failed)

/-- The rendering stands where it stood, and of the jobs only the page `id` may differ. -/
structure LineKept (id : Nat) (s n : State) : Prop where
  place : n.render.now.map renderingPlace = s.render.now.map renderingPlace
  contexts : n.render.contexts = s.render.contexts
  pages : OnlyPage id s n

theorem LineKept.refl (id : Nat) (s : State) : LineKept id s s := ⟨rfl, rfl, .of_jobs_eq rfl⟩

theorem LineKept.trans {id : Nat} {s m n : State} (h : LineKept id s m) (h' : LineKept id m n) : LineKept id s n :=
  ⟨h'.place.trans h.place, h'.contexts.trans h.contexts, h.pages.trans h'.pages⟩

theorem LineKept.ite {id : Nat} {s m n : State} {c : Prop} [Decidable c] (h : LineKept id s m) (h' : LineKept id s n) :
    LineKept id s (if c then m else n) := by
  split
  · exact h
  · exact h'

theorem modNow_lineKept {f : Rendering → Rendering} (hf : ∀ r, renderingPlace (f r) = renderingPlace r) (id : Nat) (s : State) :
    LineKept id s (modNow f s) := by
  refine ⟨?_, rfl, .of_jobs_eq rfl⟩
  show (s.render.now.map f).map renderingPlace = _
  rw [Option.map_map]
  exact congrArg (Option.map · s.render.now) (funext hf)

theorem modPage_lineKept {f : Page → Page} {id : Nat} (hf : ∀ p, p.id = id → (f p).id = id) (s : State) :
    LineKept id s (modPage id f s) := ⟨rfl, rfl, modPage_onlyPage hf rfl⟩

theorem feedReference_lineKept {id : Nat} {put : List Byte → State → State} (hput : ∀ row s, LineKept id s (put row s))
    (f nb files : Nat) (last : Bool) (bars : List (List Nat)) (s : State) :
    LineKept id s (feedReference f nb files last bars put s) := by
  unfold feedReference
  split
  · exact .refl id s
  · dsimp only
    split
    · exact (modNow_lineKept (by intro; rfl) id s).trans (hput ..)
    · exact modNow_lineKept (by intro; rfl) id s

theorem feedMarkRef_lineKept (id f nb files : Nat) (last : Bool) (bars : List (List Nat)) (s : State) :
    LineKept id s (feedMarkRef id f nb files last bars s) := by
  unfold feedMarkRef
  split
  · exact .refl id s
  · dsimp only
    split
    · exact (modNow_lineKept (by intro; rfl) id s).trans (modPage_lineKept (by exact fun _ h => h) _)
    · exact modNow_lineKept (by intro; rfl) id s

theorem feedCompressors_lineKept (id k : Nat) (s : State) : LineKept id s (feedCompressors k s) := by
  induction k generalizing s with
  | zero => exact .refl id s
  | succ k ih =>
    unfold feedCompressors
    cases hnow : s.render.now with
    | none => exact .refl id s
    | some r =>
      dsimp only
      split
      · refine LineKept.trans ?_ (ih _)
        exact ⟨by rw [hnow]; rfl, rfl, .of_jobs_eq rfl⟩
      · exact .refl id s

theorem addLaneBytes_place (last : Bool) (l : List (Nat × List Byte)) (r : Rendering) :
    renderingPlace (l.foldl (fun r p => addLaneBytes last p r) r) = renderingPlace r := by
  induction l generalizing r with
  | nil => rfl
  | cons p l ih => exact ih (addLaneBytes last p r)

theorem takeLines_lineKept (id : Nat) (last : Bool) (l : List LineOut) (s : State) : LineKept id s (takeLines last l s) := by
  have hadded := modNow_lineKept (fun r => addLaneBytes_place last (l.flatMap fun o => o.bytes) r) id s
  refine LineKept.trans ?_ (feedCompressors_lineKept id 48 _)
  exact hadded.trans ⟨rfl, rfl, .of_jobs_eq rfl⟩

/-- A line delivered takes the rendering on by one line, and no further. -/
theorem deliverLine_advances (pg : Page) (r : Rendering) (values : List (Nat × List Nat)) (s : State) :
    ∃ m, LineKept pg.id s m ∧
      LineKept pg.id (modNow (fun q => { q with line := r.line + 1 }) m) (deliverLine pg r values s) := by
  refine ⟨_, ?_, takeLines_lineKept ..⟩
  have hrow (row : List Byte) (s : State) : LineKept pg.id s (putPageRow pg.id row s) :=
    modPage_lineKept (f := fun p => { p with reference := p.reference ++ [row] }) (fun _ h => h) s
  have hfirst (f : Page → Page) (hf : ∀ p, p.id = pg.id → (f p).id = pg.id) (c : Prop) [Decidable c] (g nb files : Nat)
      (last : Bool) (bars : List (List Nat)) : LineKept pg.id s (if c then
        feedReference g nb files last bars (putPageRow pg.id) (modPage pg.id f s) else modPage pg.id f s) :=
    .ite ((modPage_lineKept hf s).trans (feedReference_lineKept hrow ..)) (modPage_lineKept hf s)
  split
  · split
    · refine LineKept.trans ?_ (feedMarkRef_lineKept ..)
      exact hfirst _ (by exact fun _ h => h) _ _ _ _ _ _
    · exact hfirst _ (by exact fun _ h => h) _ _ _ _ _ _
  · exact hfirst _ (by exact fun _ h => h) _ _ _ _ _ _

/-! ### COMPOSITION_LINE (R140, R146, R147) -/

/-- What a reading of a line leads to: a block that fails, or the line composed. -/
def lineRead (pg : Page) (r : Rendering) (limit : Nat) (failure : Option ((Nat × Nat × Nat) × Bool)) (s : State) : State :=
  match failure with
  | some (b, true) => failBlock limit (limit + 1) b s
  | some (b, false) => failBlock limit 1 b s
  | none => pageLine pg r s

section Line
variable {t : Nat} {bad : Option (Nat × Nat × Nat)} {r : Rendering} {pg : Page} {s : State} (hnow : s.render.now = some r)
  (hstrip : r.strip = none) (hpg : pageOf s r.page = some pg) (hline : r.line < pg.length) (hseal : surfacesSealed s pg = true)
  (hduty : 0 < s.gov.renderDuty)
include hnow hstrip hpg hline hseal hduty

theorem compositionLine_reads : exec (.compositionLine t ⟨bad, []⟩) s =
    .next (lineRead pg r (cfgN s Fld.render_decode_retries 0) (lineFailure s pg r.line bad) (beginAt t s)) := by
  have hnow' : (if (beginAt t s).gov.renderDuty = 0 then none else (beginAt t s).render.now) = some r :=
    (if_neg hduty.ne').trans hnow
  have hpg' : pageOf (beginAt t s) r.page = some pg := hpg
  have hseal' : surfacesSealed (beginAt t s) pg = true := hseal
  show execCompositionLine t ⟨bad, []⟩ s = _
  unfold execCompositionLine
  dsimp only
  rw [hnow']
  dsimp only
  rw [hstrip]
  dsimp only
  rw [hpg']
  dsimp only
  rw [if_neg (Nat.not_le.mpr hline), if_neg (by simp [hseal']), forEach, List.foldl_nil,
    show (beginAt t s).render.now = some r from hnow]
  unfold lineRead
  rcases hfailure : lineFailure s pg r.line bad with _ | ⟨b, _ | _⟩ <;>
    rw [show lineFailure (beginAt t s) pg r.line bad = _ from hfailure] <;> rfl

end Line

/-- What composing a line leaves of the rendering before the line is delivered: its place, and the contexts of the line (R155,
R208). -/
theorem pageLine_composes {pg : Page} {r : Rendering} {s : State} (hnow : s.render.now = some r) (hfailed : r.failed = false)
    (hregions : endingRegions pg r.line = []) :
    ∃ values m, pageLine pg r s = deliverLine pg r values m ∧ Keeps [.render] s m ∧
      m.render.now.map renderingPlace = s.render.now.map renderingPlace ∧ m.render.contexts = lineContexts s pg r.line := by
  let values := (bitList 8 pg.barMask).map fun b => (b, blendLine (layerViews s pg r.line) pg b r.line)
  let fed := modNow (fun q => { q with crcs := feedRegions pg r.line values q.crcs, retries := [] }) s
  let composed : State := { fed with render := { fed.render with
    contexts := lineContexts s pg r.line, contextsPeak := max fed.render.contextsPeak (lineContexts s pg r.line).length } }
  have hcomposed : composed.render.now = some { r with crcs := feedRegions pg r.line values r.crcs, retries := [] } := by
    show s.render.now.map _ = _
    rw [hnow]; rfl
  refine ⟨values, composed, ?_, (modNow_keeps ..).then (set_render_keeps ..) (by decide), ?_, rfl⟩
  · unfold pageLine
    dsimp only
    rw [hregions]
    show (if (composed.render.now.any fun r => r.failed) then failLine pg r.line composed else
      deliverLine pg r values composed) = _
    rw [hcomposed]
    exact if_neg (ne_true_of_eq_false hfailed)
  · rw [hcomposed, hnow]; rfl

theorem compositionLine_composes {t : Nat} {r : Rendering} {pg : Page} {s : State} (hnow : s.render.now = some r)
    (hstrip : r.strip = none) (hfailed : r.failed = false) (hpg : pageOf s r.page = some pg) (hline : r.line < pg.length)
    (hseal : surfacesSealed s pg = true) (hgood : lineFailure s pg r.line none = none) (hregions : endingRegions pg r.line = [])
    (hduty : 0 < s.gov.renderDuty) :
    Completes (.compositionLine t ⟨none, []⟩) s fun n =>
      (n.render.now.map fun q => (q.page, q.line, q.failed)) = some (r.page, r.line + 1, false) ∧
      n.render.contexts = lineContexts s pg r.line ∧ n.jobs.surfaces = s.jobs.surfaces ∧
      (∀ j, j ≠ r.page → pageOf n j = pageOf s j) ∧ Only [.clock, .jobs, .render] s n := by
  obtain ⟨values, m, hpage, hkeeps, hplace, hcontexts⟩ := pageLine_composes (s := beginAt t s) hnow hfailed hregions
  obtain ⟨fed, hfed, htaken⟩ := deliverLine_advances pg r values m
  have hid := pageOf_id hpg
  have hexec : exec (.compositionLine t ⟨none, []⟩) s = .next (deliverLine pg r values m) := by
    rw [compositionLine_reads hnow hstrip hpg hline hseal hduty, hgood]
    exact congrArg Host.Outcome.next hpage
  have honly : OnlyPage pg.id (beginAt t s) (deliverLine pg r values m) :=
    .trans (.of_jobs_eq hkeeps.jobs_eq) (hfed.pages.trans ((OnlyPage.of_jobs_eq rfl).trans htaken.pages))
  refine ⟨_, hexec, ?_, ?_, honly.surfaces, fun j hj => honly.pageOf_other (hid ▸ hj), ?_⟩
  · have hat : fed.render.now.map renderingPlace = some (r.page, r.line, false) := by
      rw [hfed.place, hplace, beginAt_render, hnow, ← hfailed]; rfl
    obtain ⟨q, hq, hqat⟩ := Option.map_eq_some_iff.mp hat
    refine htaken.place.trans ?_
    show (fed.render.now.map _).map renderingPlace = _
    obtain ⟨hqpage, hqline⟩ := Prod.mk.inj hqat
    obtain ⟨-, hqfailed⟩ := Prod.mk.inj hqline
    rw [hq, ← hqpage, ← hqfailed]
    rfl
  · exact htaken.contexts.trans (hfed.contexts.trans hcontexts)
  · exact ((hkeeps.mono (by decide)).then (deliverLine_keeps ..) (by decide)).onlySince (v := [.jobs, .render])

/-! ### A block that fails its check (R146, R147) -/

/-- One more read again of a block is recorded. -/
def retryNoted (m : Nat) (b : Nat × Nat × Nat) (r : Rendering) : Rendering :=
  { r with retries := (r.retries.filter fun p => p.1 ≠ b) ++ [(b, retriesOf r b + m)] }

theorem retriesOf_retryNoted (m : Nat) (b : Nat × Nat × Nat) (r : Rendering) :
    retriesOf (retryNoted m b r) b = retriesOf r b + m := by
  have hfound : (retryNoted m b r).retries.find? (fun p => p.1 = b) = some (b, retriesOf r b + m) :=
    find?_replaced (name := Prod.fst) r.retries rfl
  rw [retriesOf, hfound]
  rfl

section FailBlock
variable {limit : Nat} {b : Nat × Nat × Nat} {r : Rendering} {s : State} (hnow : s.render.now = some r)
include hnow

/-- The rendering with the reads again of a block recorded. -/
theorem modNow_retryNoted (m : Nat) : modNow (fun q =>
    { q with retries := (q.retries.filter fun p => p.1 ≠ b) ++ [(b, retriesOf r b + m)] }) s =
      { s with render := { s.render with now := some (retryNoted m b r) } } := by
  unfold modNow
  rw [hnow]
  rfl

theorem failBlock_of_left (h : retriesOf r b < limit) : failBlock limit 1 b s =
    countFailures 1 (countRetries 1 { s with render := { s.render with now := some (retryNoted 1 b r) } }) := by
  have hone : min 1 (limit - retriesOf r b) = 1 := Nat.min_eq_left (by omega)
  unfold failBlock
  rw [← modNow_retryNoted hnow, hnow]
  simp only [Option.map_some, Option.getD_some, hone]
  exact if_neg (Nat.lt_irrefl 1)

theorem failBlock_of_none_left (h : limit ≤ retriesOf r b) : failBlock limit 1 b s = corruptTile b.1 b.2.1
    (countFailures 1 (countRetries 0 { s with render := { s.render with now := some (retryNoted 0 b r) } })) := by
  have hzero : min 1 (limit - retriesOf r b) = 0 := by omega
  unfold failBlock
  rw [← modNow_retryNoted hnow, hnow]
  simp only [Option.map_some, Option.getD_some, hzero]
  exact if_pos Nat.one_pos

end FailBlock

/-- The tile of a surface is missing, and the surface is unsealed (R147). -/
def tileLost (sf tile : Nat) (f : Surface) : Surface :=
  if f.id = sf then { f with tiles := f.tiles.filter fun t => t.1 ≠ tile, sealed := false } else f

/-- The tile of the block is missing, before the page is given up. -/
def tileCorrupt (sf tile : Nat) (s : State) : State :=
  { s with
    jobs := { s.jobs with surfaces := s.jobs.surfaces.map (tileLost sf tile) }
    render := { s.render with surfacesCorrupt := wrapInc 16 s.render.surfacesCorrupt, contexts := [] } }

theorem corruptTile_eq (sf tile : Nat) (s : State) : corruptTile sf tile s =
    beginSeal (raise 0x0319 (leBytes 4 sf ++ leBytes 4 tile) (abandonRendering (tileCorrupt sf tile s))) := rfl

theorem abandonRendering_now (s : State) : (abandonRendering s).render.now = none := by
  unfold abandonRendering
  split
  · assumption
  · split <;> rfl

/-- The page of a rendering given up is DEFINED again (R160). -/
theorem abandonRendering_page {r : Rendering} {pg : Page} {s : State} (hnow : s.render.now = some r) (hstrip : r.strip = none)
    (hpg : pageOf s r.page = some pg) : ((pageOf (abandonRendering s) r.page).map fun q => q.state) = some .defined := by
  unfold abandonRendering
  rw [hnow]
  dsimp only
  rw [if_neg (by simp [hstrip])]
  refine (congrArg (Option.map _) (pageOf_modPage_of_id (pg := pg) ?_ hpg)).trans rfl
  exact fun _ h => h

theorem abandonRendering_surfaces (s : State) : (abandonRendering s).jobs.surfaces = s.jobs.surfaces := by
  unfold abandonRendering
  split
  · rfl
  · split <;> rfl

section Corrupt
variable {sf tile : Nat} {r : Rendering} {pg : Page} {s : State}

theorem corruptTile_now : (corruptTile sf tile s).render.now = none := by
  rw [corruptTile_eq, (beginSeal_keeps _).render_eq, (raise_keeps ..).render_eq, abandonRendering_now]

theorem corruptTile_jobs : (corruptTile sf tile s).jobs = { (abandonRendering (tileCorrupt sf tile s)).jobs with
    sealing := (corruptTile sf tile s).jobs.sealing } := by
  rw [corruptTile_eq]
  refine (beginSeal_jobs _).trans ?_
  rw [(raise_keeps ..).jobs_eq]

theorem corruptTile_page (hnow : s.render.now = some r) (hstrip : r.strip = none) (hpg : pageOf s r.page = some pg) :
    ((pageOf (corruptTile sf tile s) r.page).map fun q => q.state) = some .defined := by
  rw [pageOf, corruptTile_jobs]
  exact abandonRendering_page (s := tileCorrupt sf tile s) hnow hstrip hpg

/-- The surface of a corrupt tile is unsealed, and the tile missing from it (R147). -/
theorem corruptTile_surface {f : Surface} (hf : f ∈ (corruptTile sf tile s).jobs.surfaces) (hid : f.id = sf) :
    f.sealed = false ∧ ∀ q ∈ f.tiles, q.1 ≠ tile := by
  rw [corruptTile_jobs] at hf
  obtain ⟨g, -, rfl⟩ := List.mem_map.mp ((abandonRendering_surfaces (tileCorrupt sf tile s)) ▸ hf)
  have hg : g.id = sf := by
    unfold tileLost at hid
    split at hid
    · assumption
    · exact hid
  rw [tileLost, if_pos hg]
  exact ⟨rfl, fun q hq => by simpa using (List.mem_filter.mp hq).2⟩

theorem corruptTile_raises {s0 : State} (hlog : s.log = s0.log) :
    RaisedNext s0 0x0319 (leBytes 4 sf ++ leBytes 4 tile) (corruptTile sf tile s) := by
  rw [corruptTile_eq]
  exact raisedNext_of_raise (k := 0) ((abandonRendering_keeps (tileCorrupt sf tile s)).log_eq.trans hlog)
    (.of_log_eq (beginSeal_keeps _).log_eq)

end Corrupt

section Line
variable {t : Nat} {b : Nat × Nat × Nat} {bad : Option (Nat × Nat × Nat)} {r : Rendering} {pg : Page} {s : State}
  (hnow : s.render.now = some r) (hstrip : r.strip = none) (hpg : pageOf s r.page = some pg) (hline : r.line < pg.length)
  (hseal : surfacesSealed s pg = true) (hbad : lineFailure s pg r.line bad = some (b, false)) (hduty : 0 < s.gov.renderDuty)
include hnow hstrip hpg hline hseal hbad hduty

theorem compositionLine_fails : exec (.compositionLine t ⟨bad, []⟩) s =
    .next (failBlock (cfgN s Fld.render_decode_retries 0) 1 b (beginAt t s)) := by
  rw [compositionLine_reads hnow hstrip hpg hline hseal hduty, hbad]
  rfl

theorem compositionLine_retries (hleft : retriesOf r b < cfgN s Fld.render_decode_retries 0) :
    Completes (.compositionLine t ⟨bad, []⟩) s fun n =>
      (n.render.now.map fun q => (q.page, q.line, retriesOf q b)) = some (r.page, r.line, retriesOf r b + 1) ∧
      n.render.decodeRetries = wrapAdd 16 s.render.decodeRetries 1 ∧
      n.render.surfaceBlockFailures = wrapAdd 16 s.render.surfaceBlockFailures 1 ∧ Only [.clock, .render] s n := by
  refine ⟨_, compositionLine_fails hnow hstrip hpg hline hseal hbad hduty, ?_⟩
  rw [failBlock_of_left (s := beginAt t s) hnow hleft]
  refine ⟨?_, rfl, rfl, ?_⟩
  · show some (r.page, r.line, retriesOf (retryNoted 1 b r) b) = _
    rw [retriesOf_retryNoted]
  · exact (((set_render_keeps (beginAt t s) _).then (countRetries_keeps 1 _) (by decide)).then (countFailures_keeps 1 _)
      (by decide)).onlySince (v := [.render])

theorem compositionLine_corrupts (hleft : cfgN s Fld.render_decode_retries 0 ≤ retriesOf r b) :
    Completes (.compositionLine t ⟨bad, []⟩) s fun n =>
      n.render.now = none ∧ ((pageOf n r.page).map fun q => q.state) = some .defined ∧
      (∀ f ∈ n.jobs.surfaces, f.id = b.1 → f.sealed = false ∧ ∀ q ∈ f.tiles, q.1 ≠ b.2.1) ∧
      RaisedNext s 0x0319 (leBytes 4 b.1 ++ leBytes 4 b.2.1) n ∧ Only [.clock, .jobs, .render, .log, .net] s n := by
  have hkeeps := failBlock_keeps (cfgN s Fld.render_decode_retries 0) 1 b (beginAt t s)
  refine ⟨_, compositionLine_fails hnow hstrip hpg hline hseal hbad hduty, ?_⟩
  rw [failBlock_of_none_left (s := beginAt t s) hnow hleft] at hkeeps ⊢
  refine ⟨corruptTile_now, corruptTile_page (r := retryNoted 0 b r) rfl hstrip hpg, fun f hf => corruptTile_surface hf,
    corruptTile_raises rfl, ?_⟩
  exact (hkeeps.mono (by decide)).onlySince (v := [.jobs, .render, .log, .net])

end Line

/-! ### CHUNK_COMPRESSED (R189, R212, R213) -/

/-- The block of a chunk: raw where the check decoder has found a mismatch (R212). -/
def chunkBlock (mismatch : Bool) (ch : Chunk) : Block :=
  if mismatch then rawBlock (ch.num % 65536) ch.bytes else encodeChunk (ch.num % 65536) ch.bytes

/-- A compressor has coded its chunk, with so many mismatches of it so far; the block is counted. -/
def chunkCoded (comp n : Nat) (mismatch gone : Bool) (b : Block) (s : State) : State :=
  { s with render := { s.render with
    compressors := s.render.compressors.modify comp fun x =>
      { x with input := none, mismatches := n, retired := x.retired || gone }
    blocksWritten := wrapInc 32 s.render.blocksWritten
    blocksRaw := if (b.headD 0).getLsbD 0 then wrapInc 32 s.render.blocksRaw else s.render.blocksRaw
    encodeMismatches := if mismatch then wrapInc 16 s.render.encodeMismatches else s.render.encodeMismatches } }

/-- The first mismatch of a page is reported (R213). -/
def mismatchTold (comp page : Nat) (mismatch : Bool) (s : State) : State :=
  if mismatch && !s.render.mismatchPages.contains page then
    raise 0x0811 (leBytes 1 comp ++ leBytes 4 page)
      { s with render := { s.render with mismatchPages := page :: s.render.mismatchPages } }
  else s

/-- A compressor that retires is reported (R213). -/
def retirementTold (comp : Nat) (gone : Bool) (s : State) : State := if gone then raise 0x0812 (leBytes 1 comp) s else s

/-- Of the rendering, all but the pages whose mismatch has been reported. -/
def withoutMismatches (s : State) : Render := { s.render with mismatchPages := [] }

theorem mismatchTold_render (comp page : Nat) (mismatch : Bool) (s : State) :
    withoutMismatches (mismatchTold comp page mismatch s) = withoutMismatches s := by
  unfold mismatchTold
  split
  · rw [withoutMismatches, (raise_keeps ..).render_eq]; rfl
  · rfl

theorem mismatchTold_keeps (comp page : Nat) (mismatch : Bool) (s : State) :
    Keeps [.render, .log, .net] s (mismatchTold comp page mismatch s) :=
  Keeps.ite (fun _ => ((set_render_keeps s _).mono (by decide)).then (raise_keeps ..) (by decide)) fun _ => .refl _ _

theorem retirementTold_keeps (comp : Nat) (gone : Bool) (s : State) : Keeps [.log, .net] s (retirementTold comp gone s) :=
  Keeps.ite (fun _ => raise_keeps ..) fun _ => .refl _ _

/-- With nothing waiting the compressors are not fed (R189). -/
theorem feedCompressors_of_none {s : State} {r : Rendering} (hnow : s.render.now = some r) (hwait : r.waiting = []) (k : Nat) :
    feedCompressors k s = s := by
  cases k with
  | zero => rfl
  | succ k =>
    unfold feedCompressors
    rw [hnow]
    dsimp only
    rw [hwait]

theorem storeBlock_of_page {ch : Chunk} {b : Block} {r : Rendering} {s : State} (hnow : s.render.now = some r)
    (hstrip : r.strip = none) : storeBlock ch b s =
      modPage r.page (fun p => { p with parts := storeInPart ch.lane ch.num (blockAddress s) b p.parts }) (drawFree s) := by
  unfold storeBlock
  rw [hnow]
  dsimp only
  rw [hstrip]

/-- The mismatches of a compressor, this chunk's among them. -/
def mismatchCount (mismatch : Bool) (c : Compressor) : Nat := if mismatch then c.mismatches + 1 else c.mismatches

/-- The chunk is the one by which the compressor retires (R213). -/
def retires (mismatch : Bool) (c : Compressor) : Bool := mismatch && 3 ≤ mismatchCount mismatch c && !c.retired

/-- The module with the block of a chunk coded and stored, and what it tells of it. -/
def chunkStored (comp n : Nat) (mismatch gone : Bool) (ch : Chunk) (s : State) : State :=
  retirementTold comp gone (mismatchTold comp ch.page mismatch
    (storeBlock ch (chunkBlock mismatch ch) (chunkCoded comp n mismatch gone (chunkBlock mismatch ch) s)))

theorem chunkCompressed_stores {t comp : Nat} {mismatch : Bool} {c : Compressor} {ch : Chunk} {s : State}
    (hc : s.render.compressors[comp]? = some c) (hinput : c.input = some ch) (hduty : 0 < s.gov.renderDuty) :
    exec (.chunkCompressed t comp mismatch) s = .next (feedCompressors 48
      (chunkStored comp (mismatchCount mismatch c) mismatch (retires mismatch c) ch (beginAt t s))) := by
  have hc' : (if (beginAt t s).gov.renderDuty = 0 then none else (beginAt t s).render.compressors[comp]?) = some c :=
    (if_neg hduty.ne').trans hc
  show execChunkCompressed t comp mismatch s = _
  unfold execChunkCompressed
  dsimp only
  rw [hc']
  dsimp only
  rw [hinput]
  rfl

section Stored
variable {comp n : Nat} {mismatch gone : Bool} {ch : Chunk} {r : Rendering} {s : State}

theorem chunkStored_keeps : Keeps [.jobs, .render, .free, .log, .net] s (chunkStored comp n mismatch gone ch s) := by
  have hcoded : Keeps [.render] s (chunkCoded comp n mismatch gone (chunkBlock mismatch ch) s) := set_render_keeps ..
  exact (((hcoded.mono (by decide)).then (storeBlock_keeps ..) (by decide)).then (mismatchTold_keeps ..) (by decide)).then
    (retirementTold_keeps ..) (by decide)

/-- A chunk without a mismatch is not told of (R213). -/
theorem chunkStored_keeps_of_match : Keeps [.jobs, .render, .free] s (chunkStored comp n false false ch s) := by
  have hcoded : Keeps [.render] s (chunkCoded comp n false false (chunkBlock false ch) s) := set_render_keeps ..
  exact (hcoded.mono (by decide)).then (storeBlock_keeps ..) (by decide)

variable (hnow : s.render.now = some r) (hstrip : r.strip = none)
include hnow hstrip

/-- A chunk stored leaves of the rendering what its coding left, but for the mismatches reported. -/
theorem chunkStored_render : withoutMismatches (chunkStored comp n mismatch gone ch s) =
    withoutMismatches (chunkCoded comp n mismatch gone (chunkBlock mismatch ch) s) := by
  unfold chunkStored
  rw [withoutMismatches, (retirementTold_keeps ..).render_eq]
  refine (mismatchTold_render ..).trans ?_
  rw [storeBlock_of_page (by exact hnow) hstrip]
  rfl

theorem chunkStored_page {pg : Page} (hpg : pageOf s r.page = some pg) :
    pageOf (chunkStored comp n mismatch gone ch s) r.page = some { pg with
      parts := storeInPart ch.lane ch.num (blockAddress s) (chunkBlock mismatch ch) pg.parts } := by
  unfold chunkStored
  rw [pageOf_of_jobs_eq (retirementTold_keeps ..).jobs_eq, pageOf_of_jobs_eq (mismatchTold_keeps ..).jobs_eq,
    storeBlock_of_page (by exact hnow) hstrip]
  exact pageOf_modPage_of_id (by exact fun _ h => h) hpg

/-- The first mismatch of a page is reported, where the compressor does not retire with it (R213). -/
theorem chunkStored_raises {s0 : State} (hlog : s.log = s0.log) (hnew : s.render.mismatchPages.contains ch.page = false) :
    RaisedNext s0 0x0811 (leBytes 1 comp ++ leBytes 4 ch.page) (chunkStored comp n true false ch s) := by
  let stored := storeBlock ch (chunkBlock true ch) (chunkCoded comp n true false (chunkBlock true ch) s)
  have hstored : stored.render.mismatchPages = s.render.mismatchPages := by
    simp only [stored]
    rw [storeBlock_of_page (by exact hnow) hstrip]
    rfl
  have hlog' : stored.log = s.log := (storeBlock_keeps ..).log_eq
  let noted : State :=
    { stored with render := { stored.render with mismatchPages := ch.page :: stored.render.mismatchPages } }
  have htold : chunkStored comp n true false ch s = raise 0x0811 (leBytes 1 comp ++ leBytes 4 ch.page) noted :=
    if_pos (by rw [hstored, hnew]; rfl)
  rw [htold]
  exact raisedNext_of_raise (k := 0) (s := noted) (hlog'.trans hlog) (.of_log_eq rfl)

end Stored

/-- The compressor that has coded its chunk is free. -/
theorem chunkCoded_input {comp n : Nat} {mismatch gone : Bool} {b : Block} {c : Compressor} {s : State}
    (hc : s.render.compressors[comp]? = some c) :
    ((chunkCoded comp n mismatch gone b s).render.compressors[comp]?).map (fun c => c.input) = some none := by
  show ((s.render.compressors.modify comp _)[comp]?).map _ = _
  rw [List.getElem?_modify_eq, hc]
  rfl

theorem not_retires {mismatch : Bool} {c : Compressor} (h : mismatch = true → c.mismatches < 2 ∨ c.retired = true) :
    retires mismatch c = false := by
  unfold retires mismatchCount
  cases mismatch with
  | false => rfl
  | true =>
    rcases h rfl with hfew | hretired
    · simp; omega
    · simp [hretired]

theorem chunkCompressed_codes {t comp : Nat} {mismatch : Bool} {c : Compressor} {ch : Chunk} {r : Rendering} {pg : Page}
    {s : State} (hc : s.render.compressors[comp]? = some c) (hinput : c.input = some ch) (hnow : s.render.now = some r)
    (hwait : r.waiting = []) (hstrip : r.strip = none) (hpg : pageOf s r.page = some pg) (hduty : 0 < s.gov.renderDuty) :
    Completes (.chunkCompressed t comp mismatch) s fun n =>
      pageOf n r.page = some { pg with
        parts := storeInPart ch.lane ch.num (blockAddress s)
          (if mismatch then rawBlock (ch.num % 65536) ch.bytes else encodeChunk (ch.num % 65536) ch.bytes) pg.parts } ∧
      (n.render.compressors[comp]?).map (fun c => c.input) = some none ∧
      n.render.blocksWritten = wrapInc 32 s.render.blocksWritten ∧
      n.render.encodeMismatches = (if mismatch then wrapInc 16 s.render.encodeMismatches else s.render.encodeMismatches) ∧
      (mismatch = true → s.render.mismatchPages.contains ch.page = false → (c.mismatches < 2 ∨ c.retired = true) →
        RaisedNext s 0x0811 (leBytes 1 comp ++ leBytes 4 ch.page) n) ∧
      Only (if mismatch then [.clock, .jobs, .render, .free, .log, .net] else [.clock, .jobs, .render, .free]) s n := by
  let n := chunkStored comp (mismatchCount mismatch c) mismatch (retires mismatch c) ch (beginAt t s)
  have hrender := chunkStored_render (comp := comp) (n := mismatchCount mismatch c) (mismatch := mismatch)
    (gone := retires mismatch c) (ch := ch) (s := beginAt t s) hnow hstrip
  have hfed : feedCompressors 48 n = n :=
    feedCompressors_of_none ((congrArg Render.now hrender).trans hnow) hwait 48
  have hexec : exec (.chunkCompressed t comp mismatch) s = .next n := by rw [chunkCompressed_stores hc hinput hduty, hfed]
  refine ⟨n, hexec, chunkStored_page (s := beginAt t s) hnow hstrip hpg, ?_, congrArg Render.blocksWritten hrender,
    congrArg Render.encodeMismatches hrender, fun hmis hnew hstays => ?_, ?_⟩
  · refine (congrArg (fun x : Render => (x.compressors[comp]?).map fun c => c.input) hrender).trans ?_
    exact chunkCoded_input (mismatch := mismatch) (b := chunkBlock mismatch ch) (s := beginAt t s) hc
  · have hgone : retires mismatch c = false := not_retires fun _ => hstays
    subst hmis
    simp only [n, hgone]
    exact chunkStored_raises (s := beginAt t s) hnow hstrip rfl hnew
  · cases mismatch with
    | false => exact (chunkStored_keeps_of_match (s := beginAt t s)).onlySince (v := [.jobs, .render, .free])
    | true => exact (chunkStored_keeps (s := beginAt t s)).onlySince (v := [.jobs, .render, .free, .log, .net])

/-! ### PAGE_RENDERED (R111, R117) -/

theorem sendToken_of_solo {s : State} (h : s.pair.state = .solo) (kind : Nat) (body : List Byte) : sendToken kind body s = s :=
  if_neg (by simp [h])

/-- A module alone makes a finished result ready without a token (R508). -/
theorem finishResult_keeps_of_solo {k : Nat} {body : List Byte} {s : State} (h : Answerable k s) (hsolo : s.pair.state = .solo) :
    Keeps [.net] s (finishResult k body s) := by
  rw [finishResult_of_settled h, sendToken_of_solo (s := bodyKnown k body s) hsolo]
  exact (set_net_keeps s (bodyKnown k body s).net).then (timeResult_keeps ..) (by decide)

theorem finishPage_of_due {id outcome : Nat} {pg : Page} {s : State} (hpg : pageOf s id = some pg) (hdue : pg.resultDue = true) :
    finishPage id outcome s =
      finishResult pg.ticket (pageResult pg outcome) (modPage id (fun p => { p with resultDue := false }) s) := by
  unfold finishPage
  rw [hpg]
  exact if_pos hdue

theorem noteUnresolved_of_none {id : Nat} {pg : Page} {s : State} (hpg : pageOf s id = some pg) (h : pg.epUnresolved = none) :
    noteUnresolved id s = s := by
  unfold noteUnresolved
  rw [hpg, Option.bind_some, h]

theorem sendSignature_of_linkDown {id : Nat} {s : State} (h : s.pair.linkUp = false) : sendSignature id s = s :=
  if_neg (ne_true_of_eq_false h)

theorem keepOld_of_settled {id : Nat} {s : State} (h : s.cal.rerendering = false) : keepOld id s = s :=
  if_neg (by simp [h])

theorem tryStandby_of_solo {s : State} (h : s.pair.state = .solo) : tryStandby s = s := if_neg (by simp [h])

/-- Outside a group, and with no slot held, nothing waits for a page (R130, R495). -/
theorem retryHold_of_none {s : State} (hgroup : inGroup s = false) (hhold : ∀ a, s.jobs.armed = some a → a.hold = false) :
    retryHold s = s := by
  have hready : sendSlotReady s = s := by
    unfold sendSlotReady
    split
    · rfl
    · exact if_neg (by simp [hgroup])
  have hdrop : (if drives s && inGroup s && !groupKing s then dropHeldPages (queueLength s) s else s) = s :=
    if_neg (by simp [hgroup])
  unfold retryHold
  rw [hdrop, hready]
  refine if_neg ?_
  cases ha : s.jobs.armed with
  | none => decide
  | some a => simp [hhold a ha]

/-- Where the module does not follow, the partner's signature changes of the page only itself (R509, R633). -/
theorem compareSignature_of_leads {id : Nat} {pg : Page} {s : State} (hleads : follows s = false) (hpg : pageOf s id = some pg) :
    Keeps [.jobs, .pair] s (compareSignature id s) ∧ (compareSignature id s).pair.state = s.pair.state ∧
      (compareSignature id s).jobs.armed = s.jobs.armed ∧
      ((pageOf (compareSignature id s) id).map fun q => q.state) = some pg.state := by
  let counted : State := { s with pair := { s.pair with signatures := wrapInc 16 s.pair.signatures } }
  have hcounted : Keeps [.jobs, .pair] s counted := (set_pair_keeps s _).mono (by decide)
  unfold compareSignature
  rw [hpg]
  dsimp only
  have hsame : ((pageOf s id).map fun q => q.state) = some pg.state := by rw [hpg]; rfl
  split
  · split
    · split
      · exact ⟨hcounted, rfl, rfl, hsame⟩
      · rw [if_neg (ne_true_of_eq_false (show follows counted = false from hleads))]
        refine ⟨hcounted.then (modPage_keeps ..) (by decide), rfl, rfl, ?_⟩
        exact (congrArg (Option.map _) (pageOf_modPage_of_id (s := counted) (by exact fun _ h => h) hpg)).trans rfl
    · exact ⟨.refl _ _, rfl, rfl, hsame⟩
  · exact ⟨.refl _ _, rfl, rfl, hsame⟩

theorem pageRendered_ends {t : Nat} {r : Rendering} {pg : Page} {s : State} (hnow : s.render.now = some r)
    (hstrip : r.strip = none) (hfailed : r.failed = false) (hwait : r.waiting = []) (hopen : ∀ x ∈ r.open_, x.2.1 = [])
    (hidle : ∀ c ∈ s.render.compressors, c.input = none) (hpg : pageOf s r.page = some pg) (hlines : pg.length ≤ r.line)
    (hduty : 0 < s.gov.renderDuty) : exec (.pageRendered t) s = .next (pageDone pg.id (beginAt t s)) := by
  have hnow' : (if (beginAt t s).gov.renderDuty = 0 then none else (beginAt t s).render.now) = some r :=
    (if_neg hduty.ne').trans hnow
  have hdone : (r.waiting.isEmpty && (r.open_.all fun x => x.2.1.isEmpty) && s.render.compressors.all fun c => c.input.isNone) =
      true := by
    simp only [hwait, List.isEmpty_nil, Bool.true_and, Bool.and_eq_true, List.all_eq_true, List.isEmpty_iff,
      Option.isNone_iff_eq_none]
    exact ⟨hopen, hidle⟩
  show execPageRendered t s = _
  unfold execPageRendered
  dsimp only
  rw [hnow']
  dsimp only
  rw [beginAt_render, hdone, hstrip]
  dsimp only
  rw [show pageOf (beginAt t s) r.page = some pg from hpg]
  refine (if_neg (by decide)).trans ?_
  exact congrArg Host.Outcome.next (if_pos (by simp [hlines, hfailed]))

/-- The module with a page RENDERED, its result not yet finished (R121). -/
def asRendered (id : Nat) (s : State) : State :=
  modPage id (fun p => { p with state := .rendered, reserved := streamSize p.parts, renderedAt := s.now })
    (freeEngine { s with render := { s.render with pagesRendered := wrapInc 32 s.render.pagesRendered } })

section PageDone
variable {pg : Page} {s : State} (hpg : pageOf s pg.id = some pg) (hdue : pg.resultDue = true) (hsolo : s.pair.state = .solo)
  (hanswer : Answerable pg.ticket s)
include hpg hdue hsolo hanswer

/-- The result of a page that has become RENDERED is ready (R111); what else the module has is as before. -/
theorem finishPage_rendered : Keeps [.net, .jobs] (asRendered pg.id s) (finishPage pg.id 0 (asRendered pg.id s)) ∧
    Ready pg.ticket (pageResult pg 0) (finishPage pg.id 0 (asRendered pg.id s)) ∧
    (∃ q, pageOf (finishPage pg.id 0 (asRendered pg.id s)) pg.id = some q ∧ q.state = .rendered ∧
      q.epUnresolved = pg.epUnresolved) ∧
    (finishPage pg.id 0 (asRendered pg.id s)).jobs.armed = s.jobs.armed := by
  have hrendered : pageOf (asRendered pg.id s) pg.id =
      some { pg with state := .rendered, reserved := streamSize pg.parts, renderedAt := s.now } :=
    pageOf_modPage_of_id (by exact fun _ h => h) hpg
  have hanswer' := hanswer.of_net_pair_eq
    (n := modPage pg.id (fun p => { p with resultDue := false }) (asRendered pg.id s)) rfl rfl
  have hkeeps := finishResult_keeps_of_solo (body := pageResult pg 0) hanswer' hsolo
  have harmed := congrArg Jobs.armed hkeeps.jobs_eq
  rw [finishPage_of_due hrendered hdue]
  refine ⟨((modPage_keeps ..).mono (by decide)).then hkeeps (by decide), finishResult_ready hanswer', ?_, ?_⟩
  · refine ⟨_, (pageOf_of_jobs_eq hkeeps.jobs_eq _).trans (pageOf_modPage_of_id (by exact fun _ h => h) hrendered), rfl, rfl⟩
  · exact harmed

/-- Alone, outside a group and with no slot held, a page that is done is RENDERED, with its result, and nothing waits for it (R111,
R117). -/
theorem pageDone_alone (hnote : pg.epUnresolved = none) (hlink : s.pair.linkUp = false) (hgroup : inGroup s = false)
    (hagain : s.cal.rerendering = false) (hhold : ∀ a, s.jobs.armed = some a → a.hold = false) :
    ((pageOf (pageDone pg.id s) pg.id).map fun q => q.state) = some .rendered ∧
    (pageDone pg.id s).render = (asRendered pg.id s).render ∧ Ready pg.ticket (pageResult pg 0) (pageDone pg.id s) := by
  obtain ⟨hkeeps, hready, ⟨q, hq, hstate, hquiet⟩, harmed⟩ := finishPage_rendered hpg hdue hsolo hanswer
  let told := finishPage pg.id 0 (asRendered pg.id s)
  have hpair : told.pair = s.pair := hkeeps.pair_eq
  have hleads : follows told = false := by unfold follows; rw [hpair, hsolo]; rfl
  obtain ⟨hcompared, hpairState, harmed', hpage⟩ := compareSignature_of_leads hleads hq
  let compared := compareSignature pg.id told
  have hsolo' : compared.pair.state = .solo := by rw [hpairState, hpair, hsolo]
  have hagain' : compared.cal.rerendering = false := by rw [hcompared.cal_eq, hkeeps.cal_eq]; exact hagain
  have hgroup' : inGroup compared = false := by unfold inGroup; rw [cfgN, hcompared.conf_eq, hkeeps.conf_eq]; exact hgroup
  have hdone : pageDone pg.id s = beginSeal compared := by
    show beginSeal (retryHold (tryStandby (keepOld pg.id (compareSignature pg.id (sendSignature pg.id
      (noteUnresolved pg.id told)))))) = _
    rw [noteUnresolved_of_none hq (hquiet.trans hnote), sendSignature_of_linkDown (by rw [hpair]; exact hlink),
      keepOld_of_settled hagain', tryStandby_of_solo hsolo', retryHold_of_none hgroup' fun a ha => hhold a ?_]
    rw [← harmed, ← harmed', ha]
  have hseal := beginSeal_keeps compared
  rw [hdone]
  refine ⟨?_, ?_, ?_⟩
  · rw [pageOf, beginSeal_jobs]
    exact hpage.trans (congrArg some hstate)
  · rw [hseal.render_eq, hcompared.render_eq, hkeeps.render_eq]
  · exact hready.of_results_eq (congrArg Net.results (hseal.net_eq.trans hcompared.net_eq))

end PageDone

theorem pageRendered_done {t : Nat} {r : Rendering} {pg : Page} {s : State} (hnow : s.render.now = some r)
    (hstrip : r.strip = none) (hfailed : r.failed = false) (hwait : r.waiting = []) (hopen : ∀ x ∈ r.open_, x.2.1 = [])
    (hidle : ∀ c ∈ s.render.compressors, c.input = none) (hpg : pageOf s r.page = some pg) (hlines : pg.length ≤ r.line)
    (hdue : pg.resultDue = true) (hnote : pg.epUnresolved = none) (hsolo : s.pair.state = .solo)
    (hlink : s.pair.linkUp = false) (hgroup : inGroup s = false) (hagain : s.cal.rerendering = false)
    (hhold : ∀ a, s.jobs.armed = some a → a.hold = false) (hduty : 0 < s.gov.renderDuty) (hanswer : Answerable pg.ticket s) :
    Completes (.pageRendered t) s fun n =>
      ((pageOf n pg.id).map fun q => q.state) = some .rendered ∧ n.render.now = none ∧
      n.render.pagesRendered = wrapInc 32 s.render.pagesRendered ∧ Ready pg.ticket (pageResult pg 0) n := by
  have hpg' : pageOf (beginAt t s) pg.id = some pg := (congrArg (pageOf s) (pageOf_id hpg)).trans hpg
  obtain ⟨hpage, hrender, hready⟩ :=
    pageDone_alone hpg' hdue hsolo (hanswer.of_net_pair_eq rfl rfl) hnote hlink hgroup hagain hhold
  refine ⟨_, pageRendered_ends hnow hstrip hfailed hwait hopen hidle hpg hlines hduty, hpage, ?_, ?_, hready⟩
  · rw [hrender]; rfl
  · rw [hrender]; rfl

/-- Settles O43: the engine takes a page up, composes its lines, stores its chunks and ends it. -/
theorem pagesRender : Obligations.PagesRender := by
  unfold Obligations.PagesRender
  refine ⟨?start, ?line, ?failure, ?chunk, ?rendered⟩
  case start =>
    intro t k rest a pg s hnow hseal hrun hwait hagain harmed hcoming hpg hstate hahead hsealed hluts hlayers hcontexts hduty hfits
    exact pageRenderStart_takesUp hnow hseal hrun hwait hagain harmed hcoming hpg hstate hahead
      (checkStart_of_ready (s := beginAt t s) hsealed hluts hlayers hcontexts) hduty hfits
  case line =>
    exact fun _ _ _ _ hnow hstrip hfailed hpg hline hseal hgood hregions hduty =>
      compositionLine_composes hnow hstrip hfailed hpg hline hseal hgood hregions hduty
  case failure =>
    exact fun _ _ _ _ _ _ hnow hstrip hpg hline hseal hbad hduty =>
      ⟨compositionLine_retries hnow hstrip hpg hline hseal hbad hduty,
        compositionLine_corrupts hnow hstrip hpg hline hseal hbad hduty⟩
  case chunk =>
    exact fun _ _ _ _ _ _ _ _ hc hinput hnow hwait hstrip hpg hduty =>
      chunkCompressed_codes hc hinput hnow hwait hstrip hpg hduty
  case rendered =>
    exact fun _ _ _ _ hnow hstrip hfailed hwait hopen hidle hpg hlines hdue hnote hsolo hlink hgroup hagain hhold hduty hanswer =>
      pageRendered_done hnow hstrip hfailed hwait hopen hidle hpg hlines hdue hnote hsolo hlink hgroup hagain hhold hduty hanswer

end Sys2Proof.Machine
end

section
/-! Proofs of the statement on the tokens that decide runs (17_castling.md, O59): ARM, RELEASE, NOT_READY, RESULT and RING take effect
on a following module in their turn. -/
namespace Sys2Proof.Machine
open Sys2Proof

-- As in the sections before: checked in parallel, the whole text takes more threads than the memory limit leaves room for.
set_option Elab.async false

/-! ### A token whose effect reaches the pair (R507, R511) -/

/-- The tokens taken so far, and those that came ahead, are the same. -/
def TurnsKept (s n : State) : Prop := n.pair.tokenSeq = s.pair.tokenSeq ∧ n.pair.tokensAhead = s.pair.tokensAhead

theorem TurnsKept.of_pair_eq {s n : State} (h : n.pair = s.pair) : TurnsKept s n := by
  rw [TurnsKept, h]
  exact ⟨rfl, rfl⟩

theorem TurnsKept.trans {s m n : State} (h : TurnsKept s m) (h' : TurnsKept m n) : TurnsKept s n :=
  ⟨h'.1.trans h.1, h'.2.trans h.2⟩

/-- A token in its turn takes effect; where its effect takes no other token, nothing that came ahead follows it. -/
theorem token_takes {t q kind : Nat} {body : List Byte} {c : Instr} {s m : State} (h : TokenTurn s q)
    (hexec : exec c s = .next (takeToken kind q body (beginAt t s))) (happly : applyToken kind body (atToken t s) = m)
    (hkept : TurnsKept (atToken t s) m) : exec c s = .next (gapClosed m) ∧ (gapClosed m).pair.tokenSeq = wrapInc 32 q := by
  obtain ⟨hfollows, rfl, hahead⟩ := h
  obtain ⟨hseq, hkeptAhead⟩ := hkept
  have hd : (s.pair.tokenSeq + 2 ^ 32 - s.pair.tokenSeq) % 2 ^ 32 = 0 := by simp
  have hnone : m.pair.tokensAhead = [] := hkeptAhead.trans hahead
  have hstart : takeToken kind s.pair.tokenSeq body (beginAt t s) = applyAhead (m.pair.tokensAhead.length + 1) m := by
    have hgo : ¬ (!follows (beginAt t s) ||
        2 ^ 31 ≤ (s.pair.tokenSeq + 2 ^ 32 - (beginAt t s).pair.tokenSeq) % 2 ^ 32) = true := by
      rw [beginAt_pair, hd, show follows (beginAt t s) = true from hfollows]
      decide
    rw [← happly]
    exact (if_neg hgo).trans (if_pos hd)
  refine ⟨?_, hseq⟩
  rw [hexec, hstart, applyAhead, hnone]
  exact congrArg Host.Outcome.next (if_pos (by rw [hnone]; rfl))

theorem setPairState_turns (st : PairState) (s : State) : TurnsKept s (setPairState st s) := by
  unfold setPairState
  split
  · exact .of_pair_eq rfl
  · exact TurnsKept.trans (m := { s with pair := { s.pair with state := st }, cal := { s.cal with held := [] } }) ⟨rfl, rfl⟩
      (.of_pair_eq (raise_keeps ..).pair_eq)

theorem tryStandby_turns (s : State) : TurnsKept s (tryStandby s) := by
  unfold tryStandby
  split
  · refine (setPairState_turns .standby s).trans ?_
    exact TurnsKept.trans (m := { setPairState .standby s with pair :=
      { (setPairState .standby s).pair with progress := 65535 } }) ⟨rfl, rfl⟩ (.of_pair_eq (raise_keeps ..).pair_eq)
  · exact .of_pair_eq rfl

theorem dropToCatchup_turns (s : State) : TurnsKept s (dropToCatchup s) := by
  unfold dropToCatchup
  split
  · exact (setPairState_turns .catchup s).trans ⟨rfl, rfl⟩
  · exact .of_pair_eq rfl

/-! ### ARM (R126, R507) -/

theorem armByToken_of_mayArm {body : List Byte} {r : RunDef} {s : State}
    (hrun : s.jobs.runs.find? (fun r => r.id = armRunId body) = some r) (harming : s.jobs.arming = none)
    (hmay : mayArm s = true) : armByToken body s =
      armRun r (armVerdict body) (armTag body) (armPoints (maskInputs s r.barMask) body) none s := by
  unfold armByToken
  rw [hrun]
  dsimp only
  rw [if_neg (by simp [harming]), if_pos hmay]

/-- The active's arming may bring a module in CATCHUP into step, and changes nothing else (R513). -/
theorem noteArm_kept (s : State) : Keeps [.log, .net, .cal, .pair] s (noteArm s) ∧ TurnsKept s (noteArm s) := by
  refine ⟨noteArm_keeps s, ?_⟩
  unfold noteArm
  split
  · exact TurnsKept.trans (m := { s with pair := { s.pair with armSeen := true } }) ⟨rfl, rfl⟩ (tryStandby_turns _)
  · exact .of_pair_eq rfl

theorem tokenArm_arms {t q : Nat} {body : List Byte} {r : RunDef} {s : State} (h : TokenTurn s q)
    (hrun : s.jobs.runs.find? (fun r => r.id = armRunId body) = some r) (harming : s.jobs.arming = none)
    (hmay : mayArm s = true) :
    Completes (.tokenArm t q body) s fun n =>
      n.mod.state = .armed ∧ n.jobs.armed.map (fun a => a.run) = some r ∧ n.jobs.runTag = armTag body ∧ n.jobs.runId = r.id ∧
      n.pair.tokenSeq = wrapInc 32 q := by
  have harm := armByToken_of_mayArm (s := atToken t s) hrun harming hmay
  obtain ⟨hview, hpair⟩ := armRun_of_follows (r := r) (s := atToken t s) h.1 (armVerdict body) (armTag body)
    (armPoints (maskInputs (atToken t s) r.barMask) body) none
  rw [← harm] at hview hpair
  obtain ⟨hnoted, hturns⟩ := noteArm_kept (armByToken body (atToken t s))
  obtain ⟨hexec, hseq⟩ := token_takes (c := .tokenArm t q body) h rfl rfl ((TurnsKept.of_pair_eq hpair).trans hturns)
  have hview' := (armView_of_keeps hnoted).trans hview
  simp only [armView, Prod.mk.injEq] at hview'
  obtain ⟨hstate, harmed, -, hid, htag, -⟩ := hview'
  exact ⟨_, hexec, hstate, harmed, htag, hid, hseq⟩

/-! ### RESULT (R508) -/

theorem resultByToken_of_host {body : List Byte} {s : State} (hnow : s.cal.runNow = []) (hticket : fld body 0 4 < 0x80000000) :
    resultByToken body s = timeResult (fld body 0 4) (readNative ((body.drop 4).take 12)) s := by
  have hclose : closeRunNow (fld body 0 4) s = s := by
    unfold closeRunNow
    rw [hnow]
    rfl
  unfold resultByToken
  dsimp only
  rw [if_neg (by simp [Nat.not_le.mpr hticket]), hclose]

theorem tokenResult_times {t q : Nat} {body : List Byte} {s : State} (h : TokenTurn s q) (hnow : s.cal.runNow = [])
    (hticket : fld body 0 4 < 0x80000000)
    (hheld : ∃ r ∈ s.net.results, r.ticket = fld body 0 4 ∧ r.dropWhenReady = false ∧ r.newer = 0)
    (hbody : ∀ r ∈ s.net.results, r.ticket = fld body 0 4 → r.body.isSome = true) :
    Completes (.tokenResult t q body) s fun n =>
      (∃ r ∈ n.net.results, r.ticket = fld body 0 4 ∧ r.time = some (readNative ((body.drop 4).take 12)) ∧
        r.body.isSome = true) ∧ n.pair.tokenSeq = wrapInc 32 q ∧ Only [.clock, .pair, .net] s n := by
  have happly : applyToken 6 body (atToken t s) =
      timeResult (fld body 0 4) (readNative ((body.drop 4).take 12)) (atToken t s) :=
    resultByToken_of_host (s := atToken t s) hnow hticket
  have hkeeps := timeResult_keeps (fld body 0 4) (readNative ((body.drop 4).take 12)) (atToken t s)
  rw [← happly] at hkeeps
  obtain ⟨n, hexec, hn, hseq, honly⟩ := token_completes (w := [.clock, .pair, .net]) h (c := .tokenResult t q body) rfl hkeeps
  obtain ⟨r, hr, hk, hdrop, hnew⟩ := hheld
  rw [happly] at hn
  refine ⟨n, hexec, ⟨{ r with time := some (readNative ((body.drop 4).take 12)) }, ?_, hk, rfl, hbody r hr hk⟩,
    hseq, honly⟩
  rw [hn]
  exact mem_timeResult (s := atToken t s) hr hk hdrop hnew hbody

/-! ### RING (R494, R499) -/

theorem applyRing_cascade {body : List Byte} {s : State} (hgroup : inGroup s = true) (hrun : ofRun body s = true)
    (hking : s.ring.state ≠ .king) : applyRing 0x31 body s = applyCascade (fld body 4 4) s := by
  unfold applyRing
  rw [if_neg (by simp), if_neg (by decide), if_neg (by simp [hgroup, hrun]), if_pos rfl, if_neg hking]

theorem sendSlotReady_of_follows {s : State} (h : follows s = true) : sendSlotReady s = s := by
  unfold sendSlotReady
  split
  · rfl
  · exact if_neg (by simp [drives_of_follows h])

/-- The cascade's leading offset is noted, and the bars go by it (R290, R494). -/
def cascadeNoted (off : Nat) (s : State) : State :=
  let noted := modArmed (fun a => { a with leadOffset := off, armedAt := s.now })
    { s with ring := { s.ring with cascade := some off } }
  forEach (runBars noted) cascadeBar noted

theorem applyCascade_eq (off : Nat) (s : State) : applyCascade off s =
    if (cascadeNoted off s).ring.state = .king then fixStart (cascadeNoted off s) else sendSlotReady (cascadeNoted off s) := rfl

theorem cascadeNoted_ring (off : Nat) (s : State) : (cascadeNoted off s).ring = { s.ring with cascade := some off } :=
  (Keeps.forEach cascadeBar_keeps (.refl _ _)).ring_eq

theorem cascadeNoted_pair (off : Nat) (s : State) : (cascadeNoted off s).pair = s.pair :=
  (Keeps.forEach cascadeBar_keeps (.refl _ _)).pair_eq

/-- A following member notes the cascade's offset, and sends nothing (R494, R499). -/
theorem applyCascade_cascade {s : State} (h : follows s = true) (hking : s.ring.state ≠ .king) (off : Nat) :
    (applyCascade off s).ring.cascade = some off := by
  have hfollows : follows (cascadeNoted off s) = true := by unfold follows; rw [cascadeNoted_pair]; exact h
  rw [applyCascade_eq, cascadeNoted_ring, if_neg hking, sendSlotReady_of_follows hfollows, cascadeNoted_ring]

theorem tokenRing_cascades {t q : Nat} {body : List Byte} {s : State} (h : TokenTurn s q) (htype : fld body 0 1 = 0x31)
    (hgroup : inGroup s = true) (hking : s.ring.state ≠ .king) (hrun : ofRun (body.drop 1) s = true) :
    Completes (.tokenRing t q body) s fun n =>
      n.ring.cascade = some (fld (body.drop 1) 4 4) ∧ n.pair.tokenSeq = wrapInc 32 q ∧ n.mod = s.mod := by
  have happly : applyToken 7 body (atToken t s) = applyCascade (fld (body.drop 1) 4 4) (atToken t s) := by
    show applyRing (fld body 0 1) (body.drop 1) (atToken t s) = _
    rw [htype]
    exact applyRing_cascade (s := atToken t s) hgroup hrun hking
  have hkeeps := applyCascade_keeps (fld (body.drop 1) 4 4) (atToken t s)
  have hcascade := applyCascade_cascade (s := atToken t s) h.1 hking (fld (body.drop 1) 4 4)
  rw [← happly] at hkeeps hcascade
  obtain ⟨n, hexec, hn, hseq, -⟩ :=
    token_completes (w := [.clock, .pair, .jobs, .fire, .ring]) h (c := .tokenRing t q body) rfl hkeeps
  exact ⟨n, hexec, hn ▸ hcascade, hseq, hn ▸ hkeeps.mod_eq⟩

/-! ### RELEASE (R133, R511) -/

/-- The next slot of the armed run, and its slots so far. -/
def slotView (s : State) : Option (Nat × List Slot) := s.jobs.armed.map fun a => (a.nextSlot, a.slots)

theorem slotView_of_jobs_eq {s n : State} (h : n.jobs = s.jobs) : slotView n = slotView s := by
  rw [slotView, slotView, h]

theorem slotView_modArmed {f : Armed → Armed} (hf : ∀ a, ((f a).nextSlot, (f a).slots) = (a.nextSlot, a.slots)) (s : State) :
    slotView (modArmed f s) = slotView s := by
  unfold slotView
  rw [modArmed_jobs_armed, Option.map_map]
  simp only [Function.comp_def, hf]

theorem slotView_of_releaseView {s n : State} (h : releaseView n = releaseView s) : slotView n = slotView s := by
  have hview (m : State) : slotView m = (releaseView m).2.2.map fun x => x.2 := by
    rw [slotView, releaseView, Option.map_map]
    rfl
  rw [hview, hview, h]

theorem openSlots_of_slotView {k : Nat} {l : List Slot} {x : Slot} {s : State} (h : slotView s = some (k, l)) (hx : x ∈ l)
    (hopen : x.ended = false) : (openSlots s).isEmpty = false := by
  obtain ⟨a, ha, heq⟩ := Option.map_eq_some_iff.mp h
  obtain ⟨-, hslots⟩ := Prod.mk.inj heq
  rw [openSlots, ha, List.isEmpty_eq_false_iff]
  exact List.ne_nil_of_mem (List.mem_filter.mpr ⟨hslots ▸ hx, by simp [hopen]⟩)

theorem refill_slots (a : Armed) : (refill a).nextSlot = a.nextSlot ∧ (refill a).slots = a.slots ∧
    (refill a).releasesEnded = a.releasesEnded := by
  unfold refill
  split
  · split <;> exact ⟨rfl, rfl, rfl⟩
  · exact ⟨rfl, rfl, rfl⟩

/-- A page that leaves the run leaves the slots decided so far, and the releases, as they are (R130). -/
theorem removePage_armed {id : Nat} {a : Armed} {s : State} (ha : s.jobs.armed = some a) :
    ∃ b, (removePage id s).jobs.armed = some b ∧ b.nextSlot = a.nextSlot ∧ b.slots = a.slots ∧
      b.releasesEnded = a.releasesEnded := by
  obtain ⟨hnext, hslots, hended⟩ := refill_slots { a with queue := a.queue.filter (· ≠ id), removed := id :: a.removed }
  refine ⟨{ withoutPage id a with quarantined := wrapInc 32 a.quarantined }, ?_, hnext, hslots, hended⟩
  rw [removePage, (raise_keeps ..).jobs_eq, modArmed_jobs_armed, ha]
  rfl

theorem dropBefore_armed {id : Nat} (k : Nat) {a : Armed} {s : State} (ha : s.jobs.armed = some a) :
    ∃ b, (dropBefore k id s).jobs.armed = some b ∧ b.nextSlot = a.nextSlot ∧ b.slots = a.slots ∧
      b.releasesEnded = a.releasesEnded := by
  induction k generalizing s a with
  | zero => exact ⟨a, ha, rfl, rfl, rfl⟩
  | succ k ih =>
    unfold dropBefore
    rw [ha]
    split
    · split
      · obtain ⟨b, hb, hnext, hslots, hended⟩ := removePage_armed ha
        obtain ⟨c, hc, hnext', hslots', hended'⟩ := ih hb
        exact ⟨c, hc, hnext'.trans hnext, hslots'.trans hslots, hended'.trans hended⟩
      · exact ⟨a, ha, rfl, rfl, rfl⟩
    · exact ⟨a, ha, rfl, rfl, rfl⟩

theorem sealsGo_slotView (s : State) : slotView (sealsGo s) = slotView s := by
  unfold sealsGo
  split <;> rfl

theorem endReleases_slotView (s : State) : slotView (endReleases s) = slotView s := by
  have hended : slotView (sealsGo (modArmed (fun a => { a with releasesEnded := true, hold := false }) s)) = slotView s :=
    (sealsGo_slotView _).trans (slotView_modArmed (by intro; rfl) s)
  exact iteInduction (motive := fun m => slotView m = slotView s)
    (fun _ => (slotView_of_jobs_eq (setModState_keeps ..).jobs_eq).trans hended) fun _ => hended

theorem endReleases_addsAtMost (s : State) : AddsAtMost 1 s (endReleases s) := by
  have hended : AddsAtMost 0 s (sealsGo (modArmed (fun a => { a with releasesEnded := true, hold := false }) s)) :=
    ((modArmed_keeps ..).then (sealsGo_keeps _) (by decide)).addsNone
  exact iteInduction (motive := fun m => AddsAtMost 1 s m) (fun _ => hended.trans (setModState_addsAtMost ..))
    fun _ => hended.mono (by decide)

/-- With a slot still open the end of the releases is DRAIN at most (R134). -/
theorem settle_of_open {s : State} (h : (openSlots s).isEmpty = false) : settle s = s := if_neg (by simp [h])

/-- What a module keeps of its slots as it goes on after a decision, and how little it tells. -/
structure GoesOn (k : Nat) (s n : State) : Prop where
  slots : slotView n = slotView s
  log : AddsAtMost k s n
  pair : n.pair = s.pair

theorem GoesOn.of_keeps {w : List Group} {s n : State} (h : Keeps w s n) (hjobs : Group.jobs ∉ w := by decide)
    (hlog : Group.log ∉ w := by decide) (hpair : Group.pair ∉ w := by decide) : GoesOn 0 s n :=
  ⟨slotView_of_jobs_eq (h.jobs_eq hjobs), h.addsNone hlog, h.pair_eq hpair⟩

theorem GoesOn.trans {j k : Nat} {s m n : State} (h : GoesOn j s m) (h' : GoesOn k m n) : GoesOn (j + k) s n :=
  ⟨h'.slots.trans h.slots, h.log.trans h'.log, h'.pair.trans h.pair⟩

/-- Where a slot is open the releases may end, and nothing more (R134). -/
theorem endIfLast_goesOn {k : Nat} {l : List Slot} {x : Slot} {s : State} (h : slotView s = some (k, l)) (hx : x ∈ l)
    (hopen : x.ended = false) : GoesOn 1 s (endIfLast s) := by
  have hsame : GoesOn 1 s s := ⟨rfl, (AddsAtMost.of_log_eq rfl).mono (by decide), rfl⟩
  unfold endIfLast
  split
  · split
    · rw [settle_of_open (openSlots_of_slotView ((endReleases_slotView s).trans h) hx hopen)]
      exact ⟨endReleases_slotView s, endReleases_addsAtMost s, (endReleases_keeps s).pair_eq⟩
    · exact hsame
  · exact hsame

/-- What follows a release with its slot open: the releases may end (R134). -/
theorem afterPrint_goesOn {start : Int} {a : Armed} {k : Nat} {l : List Slot} {x : Slot} {s : State}
    (h : slotView s = some (k, l)) (hx : x ∈ l) (hopen : x.ended = false) : GoesOn 1 s (afterPrint start a s) := by
  have hload : GoesOn 0 s (loadCams (ringDecision 0x33 (leBytes 4 a.run.id ++ leBytes 4 a.nextSlot ++ sgBytes 8 start) s)) :=
    .of_keeps (w := [.ring, .pos]) (((ringDecision_keeps ..).mono (by decide)).then (loadCams_keeps _) (by decide))
  exact (hload.trans (endIfLast_goesOn (hload.slots.trans h) hx hopen)).trans (.of_keeps (sendSlotReady_keeps _))

/-- Whatever the state of the run, a release in its turn notes the slot, and PRINT begins in ARMED (R117, R122). -/
def printing (m : State) : State := if m.mod.state = .armed then enterPrint m else m

theorem printing_goesOn (m : State) : GoesOn 1 m (printing m) := by
  unfold printing
  split
  · exact ⟨slotView_of_jobs_eq (enterPrint_keeps m).jobs_eq, (set_fire_keeps ..).addsNone.trans (setModState_addsAtMost ..),
      (enterPrint_keeps m).pair_eq⟩
  · exact ⟨rfl, (AddsAtMost.of_log_eq rfl).mono (by decide), rfl⟩

theorem releaseSlot_of_next {id : Nat} {start : Int} {a : Armed} {s : State} (ha : s.jobs.armed = some a)
    (hend : a.releasesEnded = false) :
    releaseSlot true a.nextSlot id start s = afterPrint start a (printing (releaseNoted id start a s)) := by
  unfold releaseSlot
  rw [ha]
  have hgo : ¬ (decide (a.nextSlot ≠ a.nextSlot) || a.releasesEnded) = true := by simp [hend]
  dsimp only
  rw [if_neg hgo, if_pos (rfl : true = true)]
  rfl

/-- The run has one slot more, and the next one follows (R122). -/
theorem releaseNoted_slotView {id : Nat} {start : Int} {a : Armed} {s : State} (ha : s.jobs.armed = some a) :
    slotView (releaseNoted id start a s) = some (a.nextSlot + 1, a.slots ++ [releasedSlot id start a s]) := by
  have hview : slotView (placeMargin id (takeStrip a.nextSlot s).2) = some (a.nextSlot, a.slots) :=
    (slotView_of_releaseView ((releaseView_of_jobs_eq (placeMargin_keeps ..).jobs_eq).trans
      (releaseView_takeStrip ..))).trans (by rw [slotView, ha]; rfl)
  obtain ⟨b, hb, heq⟩ := Option.map_eq_some_iff.mp hview
  obtain ⟨-, hslots⟩ := Prod.mk.inj heq
  rw [releaseNoted, slotView_of_jobs_eq ((raise_keeps ..).jobs_eq.trans (beginReading_keeps ..).jobs_eq), slotView,
    modArmed_jobs_armed, hb, Option.map_some, Option.map_some, afterRelease, (refill_slots _).1, (refill_slots _).2.1, hslots]

theorem releaseNoted_pair (id : Nat) (start : Int) (a : Armed) (s : State) : (releaseNoted id start a s).pair = s.pair := by
  rw [releaseNoted, (raise_keeps ..).pair_eq, (beginReading_keeps ..).pair_eq, (modArmed_keeps ..).pair_eq,
    (placeMargin_keeps ..).pair_eq, (takeStrip_keeps ..).pair_eq]

/-- A release in its turn: the run has the slot, and the event tells of it (R117, R122). -/
theorem releaseSlot_next {id : Nat} {start : Int} {a : Armed} {s : State} (ha : s.jobs.armed = some a)
    (hend : a.releasesEnded = false) :
    slotView (releaseSlot true a.nextSlot id start s) =
      some (a.nextSlot + 1, a.slots ++ [releasedSlot id start a s]) ∧
    AddsAtMost 2 (releaseNoted id start a s) (releaseSlot true a.nextSlot id start s) ∧
    (releaseSlot true a.nextSlot id start s).pair = s.pair := by
  have hprint := printing_goesOn (releaseNoted id start a s)
  have hview := hprint.slots.trans (releaseNoted_slotView ha)
  have hgo := hprint.trans (afterPrint_goesOn (start := start) (a := a) hview
    (List.mem_append_right _ (List.mem_singleton.mpr rfl)) rfl)
  rw [releaseSlot_of_next ha hend]
  exact ⟨hgo.slots.trans (releaseNoted_slotView ha), hgo.log, hgo.pair.trans (releaseNoted_pair ..)⟩

theorem setPairState_addsAtMost (st : PairState) (s : State) : AddsAtMost 1 s (setPairState st s) := by
  unfold setPairState
  split
  · exact (AddsAtMost.of_log_eq rfl).mono (by decide)
  · refine AddsAtMost.trans (j := 0) ?_ (raise_addsAtMost ..)
    exact .of_log_eq rfl

theorem dropToCatchup_addsAtMost (s : State) : AddsAtMost 1 s (dropToCatchup s) := by
  unfold dropToCatchup
  split
  · exact (setPairState_addsAtMost .catchup s).trans (k := 0) (.of_log_eq rfl)
  · exact (AddsAtMost.of_log_eq rfl).mono (by decide)

/-- A module that lacks the page enters CATCHUP, and keeps the slot and the turns (R511). -/
def caughtUp (id : Nat) (s : State) : State := if pageReady s id then s else dropToCatchup s

theorem caughtUp_kept (id : Nat) (s : State) :
    slotView (caughtUp id s) = slotView s ∧ AddsAtMost 1 s (caughtUp id s) ∧ TurnsKept s (caughtUp id s) := by
  unfold caughtUp
  split
  · exact ⟨rfl, (AddsAtMost.of_log_eq rfl).mono (by decide), .of_pair_eq rfl⟩
  · exact ⟨slotView_of_jobs_eq (dropToCatchup_keeps s).jobs_eq, dropToCatchup_addsAtMost s, dropToCatchup_turns s⟩

theorem releaseByToken_eq (body : List Byte) (s : State) :
    releaseByToken body s = caughtUp (fld body 4 4) (applyRelease (fld body 0 4) (fld body 4 4) (sfld body 8 8) s) := rfl

theorem tokenRelease_releases {t q id : Nat} {body : List Byte} {a : Armed} {s : State} (h : TokenTurn s q)
    (ha : s.jobs.armed = some a) (hslot : fld body 0 4 = a.nextSlot) (hend : a.releasesEnded = false) (hid : fld body 4 4 = id) :
    Completes (.tokenRelease t q body) s fun n =>
      (∃ a', n.jobs.armed = some a' ∧ a'.nextSlot = a.nextSlot + 1 ∧
        ∃ x ∈ a'.slots, x.num = a.nextSlot ∧ x.page = id ∧ x.start = sfld body 8 8 ∧ x.state = .released) ∧
      Raised 0x0314 (leBytes 4 a.nextSlot ++ leBytes 4 id) n ∧ n.pair.tokenSeq = wrapInc 32 q := by
  let s1 := atToken t s
  let s2 := dropBefore (queueLength s1) id s1
  obtain ⟨b, hb, hnext, -, hended⟩ := dropBefore_armed (id := id) (queueLength s1) (s := s1) ha
  obtain ⟨hview, hlog, hpair⟩ := releaseSlot_next (id := id) (start := sfld body 8 8) (s := s2) hb (hended.trans hend)
  obtain ⟨hview', hlog', hturns⟩ := caughtUp_kept id (releaseSlot true b.nextSlot id (sfld body 8 8) s2)
  have happly : applyToken 2 body s1 = caughtUp id (releaseSlot true b.nextSlot id (sfld body 8 8) s2) := by
    show releaseByToken body s1 = _
    rw [releaseByToken_eq, hid, hslot, applyRelease, hnext]
  obtain ⟨hexec, hseq⟩ := token_takes (c := .tokenRelease t q body) h rfl happly
    ((TurnsKept.of_pair_eq (hpair.trans (dropBefore_keeps ..).pair_eq)).trans hturns)
  obtain ⟨c, hc, heq⟩ := Option.map_eq_some_iff.mp (hview'.trans hview)
  obtain ⟨hnext', hslots⟩ := Prod.mk.inj heq
  refine ⟨_, hexec, ⟨c, hc, hnext'.trans (by rw [hnext]), releasedSlot id (sfld body 8 8) b s2, ?_, hnext, rfl, rfl, rfl⟩, ?_,
    hseq⟩
  · rw [hslots]
    exact List.mem_append_right _ (List.mem_singleton.mpr rfl)
  · rw [← hnext]
    exact raised_of_raise ((hlog.trans hlog').trans (k := 0) (.of_log_eq rfl))

/-! ### NOT_READY (R128, R133) -/

/-- A slot that passes unprinted: SPOILED with reason BLANK, and ended (R119, R128). -/
def passedSlot (n id : Nat) (a : Armed) (s : State) : Slot :=
  { num := n, page := id, state := .spoiled, reasons := 2 ^ spoilBlank
    start := a.nextStart.getD (leadNextLine s + a.run.releaseLead), length := pageLength s id
    barsDone := 0, barsFired := 0, linksOut := 0, damaged := [], ended := true, strip := none
    versions := [], streams := none, latched := [], upsets := [], stripUpsets := [] }

/-- The run once a slot has passed: the queue stays, for the page to go to the next slot (R128). -/
def afterPass (n id : Nat) (a : Armed) (s : State) (b : Armed) : Armed :=
  { b with
    nextSlot := n + 1, nextStart := some ((passedSlot n id a s).start + pitchOf s b.run id), hold := false
    spoiled := wrapInc 32 b.spoiled, slots := b.slots ++ [passedSlot n id a s] }

theorem passBlank_eq (n id : Nat) {a : Armed} {s : State} (ha : s.jobs.armed = some a) :
    passBlank n id s =
      raise 0x0316 (leBytes 4 n ++ leBytes 4 id ++ leBytes 1 1) (modArmed (afterPass n id a s) (passStrip n s)) := by
  unfold passBlank
  rw [ha]
  rfl

theorem passBlank_addsAtMost (n id : Nat) {a : Armed} {s : State} (ha : s.jobs.armed = some a) :
    AddsAtMost 1 s (passBlank n id s) := by
  rw [passBlank_eq n id ha]
  exact ((passStrip_keeps n s).then (modArmed_keeps ..) (by decide) : Keeps [.jobs, .render, .cal] s _).addsNone.raise ..

theorem releaseView_passStrip (n : Nat) (s : State) : releaseView (passStrip n s) = releaseView s := by
  unfold passStrip
  split
  · exact releaseView_dropStrip ..
  · exact releaseView_passStrips n s

theorem passBlank_armed (n id : Nat) {a : Armed} {s : State} (ha : s.jobs.armed = some a) :
    ∃ b, (passBlank n id s).jobs.armed = some b ∧ b.queue = a.queue ∧ b.nextSlot = n + 1 ∧
      b.slots = a.slots ++ [passedSlot n id a s] := by
  have hview := congrArg (fun v => v.2.2) (releaseView_passStrip n s)
  simp only [releaseView, ha, Option.map_some] at hview
  obtain ⟨b, hb, heq⟩ := Option.map_eq_some_iff.mp hview
  obtain ⟨hqueue, hslot⟩ := Prod.mk.inj heq
  obtain ⟨-, hslots⟩ := Prod.mk.inj hslot
  refine ⟨afterPass n id a s b, ?_, hqueue, rfl, congrArg (· ++ [passedSlot n id a s]) hslots⟩
  rw [passBlank_eq n id ha, (raise_keeps ..).jobs_eq, modArmed_jobs_armed, hb, Option.map_some]

/-- The slot is not ready, the event and the ring tell of it, and it passes (R128). -/
def blankNoted (id : Nat) (a : Armed) (s : State) : State :=
  ringDecision 0x34 (leBytes 4 a.run.id ++ leBytes 4 a.nextSlot ++ leBytes 1 0)
    (raise 0x0312 (leBytes 4 a.nextSlot ++ leBytes 4 id ++ leBytes 1 0) s)

theorem blankNoted_keeps (id : Nat) (a : Armed) (s : State) : Keeps [.log, .net, .ring] s (blankNoted id a s) :=
  ((raise_keeps ..).mono (by decide)).then (ringDecision_keeps ..) (by decide)

/-- A page that is not quarantined stays in the run, held or not (R130). -/
theorem dropHeldPages_of_head {id : Nat} {s : State} (hhead : nextPage s = some id) (h : pageQuarantined s id = false) (k : Nat) :
    dropHeldPages k s = s := by
  cases k with
  | zero => rfl
  | succ k =>
    unfold dropHeldPages
    rw [hhead]
    cases s.jobs.armed with
    | none => rfl
    | some a => exact if_neg (by simp [h])

theorem dropQuarantined_of_head {id : Nat} {s : State} (hhead : nextPage s = some id) (h : pageQuarantined s id = false) :
    dropQuarantined s = s := by
  unfold dropQuarantined
  rw [hhead]
  exact if_neg (by simp [h])

section Blank
variable {id : Nat} {a : Armed} {s : State} (ha : s.jobs.armed = some a) (hend : a.releasesEnded = false)
  (hhead : a.queue.head? = some id) (hquar : pageQuarantined s id = false)
include ha hend hhead hquar

theorem applyNotReady_blank : applyNotReady a.nextSlot 0 s =
    sendSlotReady (endIfLast (loadCams (passBlank a.nextSlot id (blankNoted id a s)))) := by
  have hpage : nextPage s = some id := by
    rw [nextPage, ha]
    exact hhead
  unfold applyNotReady
  dsimp only
  rw [dropHeldPages_of_head hpage hquar, ite_self, ha, hpage]
  dsimp only
  rw [if_neg (by simp [hend]), if_neg (by decide), if_neg (by decide), dropQuarantined_of_head hpage hquar]
  rfl

/-- With a page left, the run goes on after the slot that has passed (R128). -/
theorem applyNotReady_passes :
    Keeps [.pos, .ring] (passBlank a.nextSlot id (blankNoted id a s)) (applyNotReady a.nextSlot 0 s) := by
  rw [applyNotReady_blank ha hend hhead hquar]
  obtain ⟨b, hb, hqueue, -⟩ := passBlank_armed a.nextSlot id (s := blankNoted id a s) (by rw [(blankNoted_keeps ..).jobs_eq, ha])
  have hload := loadCams_keeps (passBlank a.nextSlot id (blankNoted id a s))
  have hmore : b.queue.isEmpty = false := by
    rw [hqueue]
    exact List.isEmpty_eq_false_iff.mpr fun h => by simp [h] at hhead
  rw [endIfLast_of_queue (by rw [hload.jobs_eq, hb]) hmore]
  exact (hload.mono (by decide)).then (sendSlotReady_keeps _) (by decide)

end Blank

theorem tokenNotReady_passes {t q id : Nat} {body : List Byte} {a : Armed} {s : State} (h : TokenTurn s q)
    (ha : s.jobs.armed = some a) (hslot : fld body 0 4 = a.nextSlot) (haction : fld body 4 1 = 0) (hend : a.releasesEnded = false)
    (hhead : a.queue.head? = some id) (hquar : pageQuarantined s id = false) :
    Completes (.tokenNotReady t q body) s fun n =>
      (∃ a', n.jobs.armed = some a' ∧ a'.nextSlot = a.nextSlot + 1 ∧
        ∃ x ∈ a'.slots, x.num = a.nextSlot ∧ x.page = id ∧ x.state = .spoiled ∧ x.ended = true) ∧
      Raised 0x0312 (leBytes 4 a.nextSlot ++ leBytes 4 id ++ leBytes 1 0) n ∧ n.pair.tokenSeq = wrapInc 32 q := by
  let s1 := atToken t s
  have hnoted := blankNoted_keeps id a s1
  have hnotedArmed : (blankNoted id a s1).jobs.armed = some a := by rw [hnoted.jobs_eq]; exact ha
  have hkeeps := applyNotReady_passes (s := s1) ha hend hhead hquar
  have happly : applyToken 3 body s1 = applyNotReady a.nextSlot 0 s1 := by
    show applyNotReady (fld body 0 4) (fld body 4 1) s1 = _
    rw [hslot, haction]
  have hpair : (applyNotReady a.nextSlot 0 s1).pair = s1.pair := by
    rw [hkeeps.pair_eq, (passBlank_keeps ..).pair_eq, hnoted.pair_eq]
  obtain ⟨hexec, hseq⟩ := token_takes (c := .tokenNotReady t q body) h rfl happly (.of_pair_eq hpair)
  obtain ⟨b, hb, -, hnext, hslots⟩ := passBlank_armed a.nextSlot id hnotedArmed
  have hlog : AddsAtMost 1 (blankNoted id a s1) (gapClosed (applyNotReady a.nextSlot 0 s1)) :=
    ((passBlank_addsAtMost a.nextSlot id hnotedArmed).trans hkeeps.addsNone).trans (k := 0) (.of_log_eq rfl)
  refine ⟨_, hexec, ⟨b, (congrArg Jobs.armed hkeeps.jobs_eq).trans hb, hnext, passedSlot a.nextSlot id a (blankNoted id a s1), ?_,
    rfl, rfl, rfl, rfl⟩, raised_of_raise ((ringDecision_keeps ..).addsNone.trans hlog), hseq⟩
  rw [hslots]
  exact List.mem_append_right _ (List.mem_singleton.mpr rfl)

/-- Settles O59: a token in its turn takes effect once, and what it decides is what its own lemma says: ARM, RELEASE, NOT_READY,
RESULT and RING. -/
theorem tokensDecideRuns : Obligations.TokensDecideRuns := by
  unfold Obligations.TokensDecideRuns
  refine ⟨?_, ?_, ?_, ?_, ?_⟩
  · intro t q body r s h hrun harming hmay
    exact tokenArm_arms h hrun harming hmay
  · intro t q id body a s h ha _ hslot hend hid
    exact tokenRelease_releases h ha hslot hend hid
  · intro t q id body a s h ha hslot haction hend hhead hquar
    exact tokenNotReady_passes h ha hslot haction hend hhead hquar
  · intro t q body s h hnow hticket hheld hbody
    exact tokenResult_times h hnow hticket hheld hbody
  · intro t q body s h htype hgroup hking hrun
    exact tokenRing_cascades h htype hgroup hking hrun

end Sys2Proof.Machine
end

section
/-! Proofs of the statements on the web's position (09_web_position.md) and the press inputs (22_0824_compatibility.md): a wire fault
of an axis's encoder (O37); an accepted change of a discrete input, HALT_IN_N in a run and in HALTED, and PRINT_GO (O39). -/
namespace Sys2Proof.Machine
open Sys2Proof

-- As in the sections before: checked in parallel, the whole text takes more threads than the memory limit leaves room for.
set_option Elab.async false

/-! ### A wire fault of an input that is the encoder of an axis (R254, R457) -/

/-- A module in IDLE, alone, with motion of axis 0 enabled; position input 0 is in QUADRATURE mode and is the axis's encoder. -/
def encoderWired : State := { State.reset with
  mod := { state := .idle }, pair := { state := .solo }
  conf := { inForce := true, cfg := { defaultCfg with num :=
    (Fld.position_mode, [1]) :: (Fld.motion_enable, [1]) :: (Fld.motion_encoder_input, [0]) :: defaultCfg.num } } }

/-- The axis, which was OFF, enters FAULT with its encoder (R457). -/
theorem wireFault_axisFault : ∃ n, exec (.wireFault 0 0 0 3) encoderWired = .next n ∧ (axisOf n 0).state = .fault :=
  ⟨_, rfl, by decide +kernel⟩

/-- Refutes O37: where an enabled axis has the input as its encoder, POSITION_FAULT puts that axis into FAULT at once (R457), and no
premise of the clause on wire faults leaves that case out. -/
theorem not_positionInputs : ¬ Obligations.PositionInputs := by
  rintro ⟨-, -, hwire, -⟩
  obtain ⟨n, hn, -, -, -, -, honly⟩ := (hwire 0 0 0 3 encoderWired (by decide +kernel) (by decide +kernel) (by decide)
    (by decide)).2 (by decide +kernel) rfl rfl
  obtain ⟨m, hm, hfault⟩ := wireFault_axisFault
  cases hn.symm.trans hm
  have haxes : n.axes = encoderWired.axes := honly.same .axes (by decide)
  rw [axisOf, haxes] at hfault
  exact absurd hfault (by decide)

/-! ### An accepted change of a discrete input (R286, R287) -/

/-- The record of a discrete input that has changed to `acc` since the edge dated `edgeT` (R287). -/
def dinChanged (d edgeT : Nat) (acc : Bool) (s : State) (x : Din) : Din :=
  if positionOn s then
    { level := acc, lastRising := acc, edges := wrapInc 16 x.edges, lastTime := timeAt s edgeT
      lastPosition := (linePosValue s (cfgN s Fld.din_latch_input d) edgeT * 4294967296).floor }
  else { x with level := acc }

/-- The state in which discrete input `d` has changed. -/
def dinTaken (d edgeT : Nat) (acc : Bool) (s : State) : State :=
  { s with pos := { s.pos with dins := s.pos.dins.modify d (dinChanged d edgeT acc s) } }

/-- What a rising edge of discrete input `d` sets going on the axes and the run (R116, R451, R459). -/
def dinRises (d edgeT : Nat) (s : State) : State :=
  markStart d edgeT (forEach (List.range 12) (homeHit d edgeT) (forEach (List.range 12) (limitHit d) s))

theorem dinRises_keeps (d edgeT : Nat) (s : State) : Keeps [.jobs, .axes, .pair] s (dinRises d edgeT s) := by
  refine Keeps.then (v := [.jobs]) ?_ (markStart_keeps ..) (by decide)
  exact Keeps.forEach (fun a s => (homeHit_keeps d edgeT a s).mono (by decide))
    (Keeps.forEach (fun a s => (limitHit_keeps d a s).mono (by decide)) (Keeps.refl _ s))

section Din
variable (t d edgeT : Nat) (level : Bool) {s : State}

/-- What an edge does by the level that it stands for, `acc` (R286, R287). -/
theorem exec_dinChange {acc : Bool} (hacc : (level != decide (cfgN s Fld.din_invert d = 1)) = acc) :
    exec (.dinChange t d level edgeT) s =
      if (s.pos.dins.getD d {}).level = acc || max s.now t < edgeT + usT (cfgN s Fld.din_filter d) then .next (beginAt t s)
      else if !acc then .next (dinTaken d edgeT acc (beginAt t s))
      else .next (dinRises d edgeT (dinTaken d edgeT acc (beginAt t s))) := by
  subst hacc
  rfl

theorem exec_dinChange_of_unfiltered (h : max s.now t < edgeT + usT (cfgN s Fld.din_filter d)) :
    exec (.dinChange t d level edgeT) s = .next (beginAt t s) :=
  (exec_dinChange t d edgeT level rfl).trans (if_pos (Bool.or_eq_true_iff.mpr (.inr (decide_eq_true h))))

/-- A change that the filter's time of samples confirms is taken up (R286). -/
theorem exec_dinChange_of_change {acc : Bool} (hacc : (level != decide (cfgN s Fld.din_invert d = 1)) = acc)
    (hchange : (s.pos.dins.getD d {}).level = !acc) (ht : edgeT + usT (cfgN s Fld.din_filter d) ≤ t) :
    exec (.dinChange t d level edgeT) s =
      if !acc then .next (dinTaken d edgeT acc (beginAt t s))
      else .next (dinRises d edgeT (dinTaken d edgeT acc (beginAt t s))) := by
  have hnow : ¬ max s.now t < edgeT + usT (cfgN s Fld.din_filter d) := by omega
  rw [exec_dinChange t d edgeT level hacc, hchange, decide_eq_false hnow, if_neg (by cases acc <;> decide)]

variable {t d edgeT level}

theorem dinTaken_din (acc : Bool) (h : d < s.pos.dins.length) (hon : positionOn s = true) :
    (dinTaken d edgeT acc s).pos.dins.getD d {} =
      { level := acc, lastRising := acc, edges := wrapInc 16 (s.pos.dins.getD d {}).edges, lastTime := timeAt s edgeT
        lastPosition := (linePosValue s (cfgN s Fld.din_latch_input d) edgeT * 4294967296).floor } :=
  ((getD_modify ..).trans (if_pos ⟨rfl, h⟩)).trans (if_pos hon)

theorem dinTaken_din_other (acc : Bool) {j : Nat} (h : j ≠ d) :
    (dinTaken d edgeT acc s).pos.dins.getD j {} = s.pos.dins.getD j {} :=
  (getD_modify ..).trans (if_neg fun ⟨hd, _⟩ => h hd.symm)

theorem dinTaken_keeps (d edgeT : Nat) (acc : Bool) (s : State) : Keeps [.pos] s (dinTaken d edgeT acc s) := set_pos_keeps ..

variable (hd : d < s.pos.dins.length) (hon : positionOn s = true) (ht : edgeT + usT (cfgN s Fld.din_filter d) ≤ t)
include hd hon ht

theorem dinChange_falls (hacc : (level != decide (cfgN s Fld.din_invert d = 1)) = false)
    (hlevel : (s.pos.dins.getD d {}).level = true) : Completes (.dinChange t d level edgeT) s fun n =>
      n.pos.dins.getD d {} = { level := false, lastRising := false, edges := wrapInc 16 (s.pos.dins.getD d {}).edges
                               lastTime := timeAt (beginAt t s) edgeT
                               lastPosition := (linePosValue s (cfgN s Fld.din_latch_input d) edgeT * 4294967296).floor } ∧
      (∀ j, j ≠ d → n.pos.dins.getD j {} = s.pos.dins.getD j {}) ∧ n.pos.inputs = s.pos.inputs ∧ Only [.clock, .pos] s n :=
  ⟨_, exec_dinChange_of_change t d edgeT level hacc hlevel ht, dinTaken_din false (s := beginAt t s) hd hon,
    fun _ hj => dinTaken_din_other false (s := beginAt t s) hj, rfl, (dinTaken_keeps d edgeT false _).onlySince⟩

theorem dinChange_rises (hacc : (level != decide (cfgN s Fld.din_invert d = 1)) = true)
    (hlevel : (s.pos.dins.getD d {}).level = false) : Completes (.dinChange t d level edgeT) s fun n =>
      (n.pos.dins.getD d {}).level = true ∧ (n.pos.dins.getD d {}).lastRising = true ∧
      (n.pos.dins.getD d {}).edges = wrapInc 16 (s.pos.dins.getD d {}).edges ∧
      (n.pos.dins.getD d {}).lastTime = timeAt (beginAt t s) edgeT ∧ n.pos.inputs = s.pos.inputs ∧
      Only [.clock, .pos, .net, .jobs, .axes, .pair] s n := by
  have hrises := dinRises_keeps d edgeT (dinTaken d edgeT true (beginAt t s))
  have hkeeps : Keeps [.pos, .jobs, .axes, .pair] (beginAt t s) (dinRises d edgeT (dinTaken d edgeT true (beginAt t s))) :=
    ((dinTaken_keeps ..).mono (by decide)).then hrises (by decide)
  refine ⟨_, exec_dinChange_of_change t d edgeT level hacc hlevel ht, ?_⟩
  dsimp only
  rw [hrises.pos_eq, dinTaken_din true (s := beginAt t s) hd hon]
  exact ⟨rfl, rfl, rfl, rfl, rfl, hkeeps.onlySince⟩

end Din

/-! ### How many bars there are -/

/-- The number of bars, which no operation on a run changes. -/
def barCount (s : State) : Nat := s.fire.bars.length

theorem barCount_of_bars {s n : State} (h : n.fire.bars = s.fire.bars) : barCount n = barCount s := congrArg List.length h

theorem Keeps.bars_eq {w : List Group} {s n : State} (h : Keeps w s n) (hw : Group.fire ∉ w := by decide) :
    n.fire.bars = s.fire.bars := congrArg Fire.bars (h.fire_eq hw)

theorem Keeps.barCount_eq {w : List Group} {s n : State} (h : Keeps w s n) (hw : Group.fire ∉ w := by decide) :
    barCount n = barCount s := barCount_of_bars (h.bars_eq hw)

theorem barCount_modBar (b : Nat) (f : Bar → Bar) (s : State) : barCount (modBar b f s) = barCount s := List.length_modify ..

/-! #### What leaves the bars alone -/

theorem haltLanes_bars (packet : Bool) (l : List Nat) (s : State) : (haltLanes packet l s).fire.bars = s.fire.bars :=
  forEach_eq (f := haltLane packet) (v := fun s => s.fire.bars) (fun _ _ => rfl) _ s

theorem sendHalt_bars (b : Nat) (s : State) : (sendHalt b s).fire.bars = s.fire.bars := by
  unfold sendHalt
  split
  · exact haltLanes_bars ..
  · rfl

theorem endReading_bars (b n : Nat) (s : State) : (endReading b n s).fire.bars = s.fire.bars :=
  forEach_eq (f := fun g => modLane g fun x => { x with reading := x.reading.filter fun p => p.1 ≠ n })
    (v := fun s => s.fire.bars) (fun _ _ => rfl) _ s

theorem barDone_bars (b n : Nat) (s : State) : (barDone b n s).fire.bars = s.fire.bars :=
  (checkSlot_keeps ..).bars_eq.trans (endReading_bars b n s)

theorem stopSlotsOn_bars (b : Nat) (bits : List Nat) (s : State) : (stopSlotsOn b bits s).fire.bars = s.fire.bars :=
  (forEach_eq (v := fun s => s.fire.bars) (barDone_bars b) _ _).trans
    (Keeps.forEach (fun n _ => Keeps.forEach (spoilSlot_keeps n) (Keeps.refl [.jobs] _)) (Keeps.refl _ s)).bars_eq

theorem finishSlots_bars (b : Nat) (n : Int) (s : State) : (finishSlots b n s).fire.bars = s.fire.bars :=
  forEach_eq (v := fun s => s.fire.bars) (barDone_bars b) _ s

theorem fillLine_bars (b : Nat) (n : Int) (s : State) : (fillLine b n s).fire.bars = s.fire.bars :=
  forEach_eq (f := fun g s => modLane g (fun x =>
    { putLine n (laneLineAt s b g n) x with reading := advanceReading (pageLineAt s b n) x.reading }) s)
    (v := fun s => s.fire.bars) (fun _ _ => rfl) _ s

theorem fillUpTo_bars (b : Nat) (n : Int) (s : State) : (fillUpTo b n s).fire.bars = s.fire.bars :=
  forEach_eq (v := fun s => s.fire.bars) (fun _ s => fillLine_bars b _ s) _ s

theorem sendPackets_bars (b : Nat) (n : Int) (s : State) : (sendPackets b n s).fire.bars = s.fire.bars := by
  unfold sendPackets
  split
  · refine forEach_eq (v := fun s => s.fire.bars) (fun k s => ?_) _ s
    rfl
  · rfl

/-! #### A line's packet (R297, R300, R301) -/

theorem barCount_latchSlot (b : Nat) (n : Int) (x : Slot) (s : State) : barCount (latchSlot b n x s) = barCount s := by
  unfold latchSlot
  extract_lets s1 o s2 out s3 s4
  have hs1 : barCount s1 = barCount s :=
    (endSlews_keeps ..).barCount_eq.trans ((barCount_modBar ..).trans (barCount_modBar ..))
  have hs2 : barCount s2 = barCount s1 := (Keeps.forEach (fun k s => modLink_keeps k _ s) (Keeps.refl _ s1)).barCount_eq
  have hs3 : barCount s3 = barCount s2 := (modSlot_keeps ..).barCount_eq
  have hs4 : barCount s4 = barCount s3 := by
    unfold s4
    split
    · exact (raise_keeps ..).barCount_eq.trans ((barCount_modBar ..).trans (sendToken_keeps ..).barCount_eq)
    · rfl
  rw [(noteMarks_keeps ..).barCount_eq, hs4, hs3, hs2, hs1]

theorem barCount_latchDueSlots (b : Nat) (n : Int) (fuel : Nat) (s : State) :
    barCount (latchDueSlots b n fuel s) = barCount s := by
  induction fuel generalizing s with
  | zero => rfl
  | succ fuel ih =>
    unfold latchDueSlots
    split
    · rfl
    · dsimp only
      split
      · exact (ih _).trans (barCount_latchSlot ..)
      · rfl

theorem barCount_startPacket (b : Nat) (n : Int) (s : State) : barCount (startPacket b n s) = barCount s :=
  (barCount_of_bars (sendPackets_bars ..)).trans ((barCount_modBar ..).trans
    ((barCount_of_bars (fillUpTo_bars ..)).trans (barCount_latchDueSlots ..)))

theorem barCount_nextPacket (b : Nat) (n : Int) (s : State) : barCount (nextPacket b n s) = barCount s := by
  unfold nextPacket
  split
  · exact barCount_startPacket ..
  · exact barCount_modBar ..

/-! #### A line is fired, dropped or passed over (R302, R306, R307, R318) -/

theorem barCount_insertSync (b : Nat) (n : Int) (s : State) : barCount (insertSync b n s) = barCount s := by
  unfold insertSync
  extract_lets q s1
  have hs1 : barCount s1 = barCount s := by
    unfold s1
    split
    · exact (forEach_eq (f := fun g => insertSymbols g (syncSymbols q)) (v := barCount) (fun _ _ => rfl) _ _).trans
        (barCount_modBar ..)
    · rfl
  have hmissing : ∀ m, barCount (countMissing b n m) = barCount m := by
    intro m
    unfold countMissing
    dsimp only
    split
    · exact barCount_modBar ..
    · rfl
  rw [barCount_of_bars (finishSlots_bars ..), hmissing, (markFiring_keeps ..).barCount_eq, hs1]

theorem barCount_updateOverspeed (s : State) : barCount (updateOverspeed s) = barCount s := by
  unfold updateOverspeed
  split
  · rfl
  · extract_lets s1 fast recent slow since fire s2
    have hs2 : barCount s2 = barCount s := forEach_eq (v := barCount) (fun b s => barCount_modBar b _ s) _ s
    split
    · exact (raise_keeps ..).barCount_eq.trans hs2
    · exact hs2

theorem barCount_applyDrop (b : Nat) (n : Int) (s : State) : barCount (applyDrop b n s) = barCount s := by
  unfold applyDrop
  extract_lets on s2 s3
  have hs2 : barCount s2 = barCount s := (Keeps.forEach (fun i s => spoilSlot_keeps i _ s) (Keeps.refl _ s)).barCount_eq
  have hs3 : barCount s3 = barCount s2 := by
    unfold s3
    split
    · exact (Keeps.forEach (fun i s => respoil_keeps i _ s) (Keeps.refl _ s2)).barCount_eq
    · rfl
  rw [barCount_of_bars (finishSlots_bars ..), barCount_modBar, hs3, hs2]

theorem barCount_dropLine (b : Nat) (n : Int) (deltaNs : Nat) (s : State) : barCount (dropLine b n deltaNs s) = barCount s := by
  unfold dropLine
  extract_lets ended s1 s2 fire s3
  have hs1 : barCount s1 = barCount s := by
    unfold s1
    split
    · refine forEach_eq (v := barCount) (fun g s => ?_) _ s
      rfl
    · rfl
  have hs2 : barCount s2 = barCount s :=
    (dropEvent_keeps ..).barCount_eq.trans ((barCount_applyDrop ..).trans ((barToken_keeps ..).barCount_eq.trans hs1))
  clear_value s2
  have hs3 : barCount s3 = barCount s := (barCount_updateOverspeed _).trans hs2
  split
  · exact (barCount_nextPacket ..).trans hs3
  · exact hs3

theorem barCount_handleLine (b : Nat) (n : Int) (s : State) : barCount (handleLine b n s) = barCount s := by
  unfold handleLine
  extract_lets x floor_ ready delta s0 s1
  have hs0 : barCount s0 = barCount s := barCount_modBar ..
  have hs1 : barCount s1 = barCount s := (barCount_modBar ..).trans hs0
  split_ifs
  · rw [barCount_nextPacket, barCount_insertSync, (dropEvent_keeps ..).barCount_eq, hs0]
  · rw [barCount_dropLine, hs0]
  · rw [barCount_nextPacket, barCount_insertSync, hs1]
  · rw [barCount_modBar, hs1]

/-! #### What is due on the bars before a halt (R310) -/

theorem barCount_takePoint (b : Nat) (n : Int) (s : State) : barCount (takePoint b n s) = barCount s := by
  unfold takePoint
  extract_lets s0 s1 s2 s3
  have hs1 : barCount s1 = barCount s := by
    unfold s1 countInhibited
    split_ifs
    · exact (barCount_modBar ..).trans (barCount_modBar ..)
    · exact barCount_modBar ..
    · exact barCount_modBar ..
  have hs2 : barCount s2 = barCount s := (barCount_modBar ..).trans hs1
  have hs3 : barCount s3 = barCount s := by
    unfold s3
    split
    · rw [barCount_nextPacket, hs2]
    · split
      · exact hs2
      · split_ifs
        · exact hs2
        · rw [inhibitedLine, barCount_nextPacket, barCount_of_bars (finishSlots_bars ..), hs2]
        · rw [barCount_handleLine, hs2]
  split_ifs
  · exact hs1
  · rw [barCount_updateOverspeed, hs1]
  · rw [barCount_updateOverspeed, hs3]

theorem barCount_insertDue (b : Nat) (s : State) : barCount (insertDue b s) = barCount s := by
  unfold insertDue
  split
  · rfl
  · split
    · rfl
    · extract_lets s0 s1 next
      have hs1 : barCount s1 = barCount s0 := by
        unfold s1
        split
        · exact barCount_of_bars (finishSlots_bars ..)
        · exact barCount_insertSync ..
      rw [barCount_nextPacket, hs1, barCount_modBar]

theorem barCount_handleDue (b : Nat) (s : State) : barCount (handleDue b s) = barCount s := by
  unfold handleDue
  split
  · rfl
  · rw [barCount_takePoint, barCount_modBar]

theorem barCount_syncsFirst (n b : Nat) (s : State) : barCount (syncsFirst n b s) = barCount s := by
  induction n generalizing s with
  | zero => rfl
  | succ n ih => rw [syncsFirst, ih, barCount_handleDue, barCount_insertDue]

theorem barCount_barsFirst (bars : List Nat) (s : State) : barCount (barsFirst bars s) = barCount s :=
  forEach_eq (v := barCount) (fun b s => barCount_syncsFirst _ b s) bars s

/-! ### HALT on every bar (R310, R311, R312) -/

/-- A bar as a halt leaves it (R310). -/
def haltedBar (cause : Nat) (x : Bar) : Bar := { x with haltCause := cause, pendingSync := [], packet := none }

/-- A halt changes its own bar, and a bar that is halted stays as it was (R311). -/
theorem haltBar_bars (b cause : Nat) (bits : List Nat) (s : State) : (haltBar b cause bits s).fire.bars =
    if halted s b then s.fire.bars else s.fire.bars.modify b (haltedBar cause) := by
  have hmod : (modBar b (haltedBar cause) (sendHalt b s)).fire.bars = s.fire.bars.modify b (haltedBar cause) := by
    rw [modBar_fire_bars, sendHalt_bars]
  unfold haltBar
  split
  · rfl
  · dsimp only
    split
    · exact (stopSlotsOn_bars ..).trans ((raise_keeps ..).bars_eq.trans hmod)
    · exact hmod

theorem barCount_haltBar (b cause : Nat) (bits : List Nat) (s : State) : barCount (haltBar b cause bits s) = barCount s := by
  rw [barCount, haltBar_bars]
  split
  · rfl
  · exact List.length_modify ..

theorem halted_of_bars {s n : State} (h : n.fire.bars = s.fire.bars) (b : Nat) : halted n b = halted s b := by
  rw [halted, halted, barOf, barOf, h]

theorem halted_haltBar {b cause : Nat} (bits : List Nat) {s : State} (hb : b < barCount s) (hcause : cause ≠ 0) :
    halted (haltBar b cause bits s) b = true := by
  by_cases h : halted s b = true
  · rw [halted_of_bars ((haltBar_bars ..).trans (if_pos h)), h]
  · rw [halted, barOf, haltBar_bars, if_neg h, getD_modify, if_pos ⟨rfl, hb⟩]
    exact decide_eq_true hcause

theorem halted_haltBar_of_halted {b c cause : Nat} (bits : List Nat) {s : State} (h : halted s c = true) :
    halted (haltBar b cause bits s) c = true := by
  by_cases hb : halted s b = true
  · rw [halted_of_bars ((haltBar_bars ..).trans (if_pos hb)), h]
  · have hne : b ≠ c := fun hbc => hb (hbc ▸ h)
    rw [halted, barOf, haltBar_bars, if_neg hb, getD_modify, if_neg fun hbc => hne hbc.1]
    exact h

/-- The bars of a list are halted one after the other, and none of them is free again before the last one is. -/
theorem halted_forEach_haltBar {c cause : Nat} (bits : List Nat) (hcause : cause ≠ 0) (l : List Nat) {s : State}
    (h : halted s c = true ∨ c ∈ l ∧ c < barCount s) :
    halted (forEach l (fun b => haltBar b cause bits) s) c = true := by
  induction l generalizing s with
  | nil => exact h.elim id fun hc => absurd hc.1 List.not_mem_nil
  | cons b l ih =>
    refine ih (s := haltBar b cause bits s) ?_
    obtain hhalted | ⟨hmem, hlt⟩ := h
    · exact .inl (halted_haltBar_of_halted bits hhalted)
    · obtain rfl | hmem := List.mem_cons.mp hmem
      · exact .inl (halted_haltBar bits hlt hcause)
      · exact .inr ⟨hmem, by rwa [barCount_haltBar]⟩

/-! ### Entry into HALTED (R20, R24) -/

theorem setModState_haltIn (st : ModState) (cause : Nat) (s : State) : (setModState st cause s).mod.haltIn = s.mod.haltIn := by
  simp [setModState]

theorem clearOverspeed_bars (s : State) : (clearOverspeed s).fire.bars = s.fire.bars := by
  unfold clearOverspeed
  dsimp only
  split
  · exact (raise_keeps ..).bars_eq
  · rfl

/-- HALTED changes no bar, and the level of HALT_IN_N stands (R24). -/
theorem enterHalted_spec (cause : Nat) (s : State) : (enterHalted cause s).mod.state = .halted ∧
    (enterHalted cause s).mod.haltIn = s.mod.haltIn ∧ (enterHalted cause s).fire.bars = s.fire.bars := by
  unfold enterHalted
  extract_lets byModule s1 s2 s3 s4 s5 m
  have hs1 : s1.mod.state = .halted ∧ s1.mod.haltIn = s.mod.haltIn := ⟨setModState_state .., setModState_haltIn ..⟩
  have hstopped : Keeps [.log, .net, .jobs, .render, .pos, .cams, .axes] s1 s4 := by
    refine Keeps.forEach (fun a s => (requestStop_keeps a 3 s).mono (by decide)) ?_
    refine Keeps.then ?_ (sealsGo_keeps _) (by decide)
    refine Keeps.then ?_ (dropCamAux_keeps _) (by decide)
    refine Keeps.then ?_ (abandonRendering_keeps _) (by decide)
    exact ((spoilAll_keeps ..).mono (by decide)).then (modArmed_keeps ..) (by decide)
  have hmod : s5.mod = s1.mod := (Keeps.forEach sendHalt_keeps (Keeps.refl _ s4)).mod_eq.trans hstopped.mod_eq
  have hbars : s5.fire.bars = s.fire.bars := calc
    s5.fire.bars = s4.fire.bars := forEach_eq (v := fun s => s.fire.bars) sendHalt_bars _ s4
    _ = s1.fire.bars := hstopped.bars_eq
    _ = s.fire.bars := (setModState_keeps ..).bars_eq
  simp only [clearOverspeed_mod, clearOverspeed_bars, (sendCascadeStop_keeps ..).mod_eq, (sendCascadeStop_keeps ..).bars_eq, m,
    hmod, hs1, hbars, and_self]

/-- All eight bars halt, and the module is HALTED (R20, R312). -/
theorem haltAllBars_spec {cause : Nat} (allCause : Nat) {s : State} (hcause : cause ≠ 0) (hcount : barCount s = 8) :
    (haltAllBars cause allCause s).mod.state = .halted ∧ (haltAllBars cause allCause s).mod.haltIn = s.mod.haltIn ∧
      ∀ b, b < 8 → halted (haltAllBars cause allCause s) b = true := by
  unfold haltAllBars
  have hmod : (forEach (List.range 8) (fun b => haltBar b cause [spoilHalt]) s).mod = s.mod :=
    forEach_eq (v := State.mod) (fun b s => (haltBar_keeps b _ _ s).mod_eq) _ s
  have hbars : ∀ b, b < 8 → halted (forEach (List.range 8) (fun b => haltBar b cause [spoilHalt]) s) b = true := fun b hb =>
    halted_forEach_haltBar _ hcause _ (.inr ⟨List.mem_range.mpr hb, hcount ▸ hb⟩)
  generalize forEach (List.range 8) _ s = m at hmod hbars ⊢
  obtain ⟨hstate, hlevel, hsame⟩ := enterHalted_spec allCause m
  exact ⟨hstate, by rw [hlevel, hmod], fun b hb => (halted_of_bars hsame b).trans (hbars b hb)⟩

/-- The level of HALT_IN_N is taken up. -/
def haltInTaken (level : Bool) (s : State) : State := { s with mod := { s.mod with haltIn := level } }

theorem haltInTaken_keeps (level : Bool) (s : State) : Keeps [.mod] s (haltInTaken level s) := set_mod_keeps ..

theorem exec_haltInAsserted (t : Nat) (s : State) : exec (.haltInAsserted t) s = .next
    (if inRun s then haltAllBars 1 16 (barsFirst (runBars s) (haltInTaken true (beginAt t s)))
      else haltInTaken true (beginAt t s)) := rfl

/-- HALT_IN_N asserted in a run: what is due on the bars goes first, then every bar halts and the module is HALTED (R310, R312). -/
theorem haltInAsserted_halts (t : Nat) {s : State} (hrun : inRun s = true) (hbars : s.fire.bars.length = 8) :
    Completes (.haltInAsserted t) s fun n =>
      n.mod.state = .halted ∧ n.mod.haltIn = true ∧ ∀ b, b < 8 → halted n b = true := by
  have hexec := exec_haltInAsserted t s
  rw [if_pos hrun] at hexec
  obtain ⟨hstate, hlevel, hhalted⟩ := haltAllBars_spec (cause := 1) 16 (by decide)
    ((barCount_barsFirst (runBars s) (haltInTaken true (beginAt t s))).trans hbars)
  exact ⟨_, hexec, hstate, hlevel.trans (congrArg Mod.haltIn (barsFirst_keeps ..).mod_eq), hhalted⟩

theorem haltInAsserted_level (t : Nat) {s : State} (hrun : inRun s = false) : Completes (.haltInAsserted t) s fun n =>
    n.mod = { s.mod with haltIn := true } ∧ Only [.clock, .mod] s n := by
  have hexec := exec_haltInAsserted t s
  rw [if_neg (ne_true_of_eq_false hrun)] at hexec
  exact ⟨_, hexec, rfl, (haltInTaken_keeps ..).onlySince⟩

/-! ### The end of HALTED (R138) -/

theorem firstIdle_haltIn (s : State) : (firstIdle s).mod.haltIn = s.mod.haltIn := by
  have hm : (forEach s.conf.atIdle (fun e => raise e.1 e.2)
      (announceStart { s with mod := { s.mod with idleSeen := true } })).mod = { s.mod with idleSeen := true } := by
    rw [(forEach_raise_keeps ..).mod_eq, announceStart_mod]
  unfold firstIdle
  dsimp only
  split <;> simp [hm]

theorem keepRun_armed (s : State) : (keepRun s).jobs.armed = none := by
  unfold keepRun
  split
  · assumption
  · rfl

/-- IDLE holds no run, and the level of HALT_IN_N stands. -/
theorem enterIdle_spec (cause : Nat) (s : State) :
    (enterIdle cause s).mod.haltIn = s.mod.haltIn ∧ (enterIdle cause s).jobs.armed = none := by
  unfold enterIdle
  extract_lets done s1 s2 s3 m u r s4
  have hs1 : s1.mod.haltIn = s.mod.haltIn := setModState_haltIn ..
  have hs2 : s2.mod = s1.mod := by
    unfold s2
    split
    · cases hd : done with
      | none => rfl
      | some run => exact raise_mod ..
    · rfl
  have hs3 : s3.mod.haltIn = s.mod.haltIn ∧ s3.jobs.armed = none := by
    constructor
    · simp only [s3, clearOverspeed_mod, dropCamAux_mod, endCascade_mod, endCalRun_mod, endRunInputs_mod, clearBars_mod,
        endHalts_mod, keepRun_mod, endInspection_mod, hs2, hs1]
    · simp only [s3, (clearOverspeed_keeps _).jobs_eq, (dropCamAux_keeps _).jobs_eq, (endCascade_keeps _).jobs_eq,
        (endCalRun_keeps _).jobs_eq, (endRunInputs_keeps _).jobs_eq, (clearBars_keeps _).jobs_eq, (endHalts_keeps _).jobs_eq,
        keepRun_armed]
  have hs4 : s4.mod.haltIn = s.mod.haltIn ∧ s4.jobs.armed = none := by simp only [s4, m, hs3, and_self]
  clear_value s4
  split
  · exact hs4
  · exact ⟨(firstIdle_haltIn s4).trans hs4.1, (congrArg Jobs.armed (firstIdle_keeps s4).jobs_eq).trans hs4.2⟩

section Deasserted
variable (t : Nat) {a : Armed} {s : State} (ha : s.jobs.armed = some a)

theorem exec_haltInDeasserted (t : Nat) (s : State) :
    exec (.haltInDeasserted t) s = .next (leaveHalted (haltInTaken false (beginAt t s))) := rfl

include ha

/-- HALT_IN_N deasserted in HALTED, once RUN_END has come (R138). -/
theorem haltInDeasserted_ends (hstate : s.mod.state = .halted) (hended : a.runEnded = true) :
    Completes (.haltInDeasserted t) s fun n => n.mod.state = .idle ∧ n.mod.haltIn = false ∧ n.jobs.armed = none := by
  have hleaves : leaveHalted (haltInTaken false (beginAt t s)) = enterIdle 19 (haltInTaken false (beginAt t s)) :=
    if_pos (by simp [haltInTaken, hstate, ha, hended])
  exact ⟨_, (exec_haltInDeasserted t s).trans (congrArg _ hleaves), enterIdle_state .., enterIdle_spec ..⟩

theorem haltInDeasserted_level (hended : a.runEnded = false) : Completes (.haltInDeasserted t) s fun n =>
    n.mod = { s.mod with haltIn := false } ∧ Only [.clock, .mod] s n := by
  have hstays : leaveHalted (haltInTaken false (beginAt t s)) = haltInTaken false (beginAt t s) :=
    if_neg (by simp [haltInTaken, ha, hended])
  exact ⟨_, (exec_haltInDeasserted t s).trans (congrArg _ hstays), rfl, (haltInTaken_keeps ..).onlySince⟩

end Deasserted

/-! ### PRINT_GO (R614, R615, R617) -/

section PrintGo
variable (t edgeT : Nat) (level : Bool) {s : State}

/-- The state in which the level of PRINT_GO is taken up. -/
def goTaken (level : Bool) (s : State) : State := { s with mod := { s.mod with printGo := level } }

theorem goTaken_keeps (level : Bool) (s : State) : Keeps [.mod] s (goTaken level s) := set_mod_keeps ..

theorem printGoStart_of_compat_off (h : s.mod.compat = false) : printGoStart edgeT s = s := by
  unfold printGoStart
  split
  · exact if_neg (by simp [h])
  · rfl

theorem exec_printGoEdge (s : State) : exec (.printGoEdge t level edgeT) s = .next
    (if s.mod.compat && max s.now t < edgeT + usT (cfgN s Fld.compat_go_filter 0) then beginAt t s
      else if level && !s.mod.printGo && !s.pending.any (stopsRun (max s.now t)) then
        printGoStart edgeT (goTaken level (beginAt t s))
      else goTaken level (beginAt t s)) := rfl

/-- Outside compatibility mode no filter delays PRINT_GO, and its edge places nothing (R614). -/
theorem printGoEdge_follows (h : s.mod.compat = false) : Completes (.printGoEdge t level edgeT) s fun n =>
    n.mod = { s.mod with printGo := level } ∧ Only [.clock, .mod] s n := by
  have hexec : exec (.printGoEdge t level edgeT) s = .next (goTaken level (beginAt t s)) := by
    rw [exec_printGoEdge, if_neg (by simp [h]), printGoStart_of_compat_off edgeT (s := goTaken level (beginAt t s)) h, ite_self]
  exact ⟨_, hexec, rfl, (goTaken_keeps ..).onlySince⟩

theorem exec_printGoEdge_of_unfiltered (h : s.mod.compat = true)
    (ht : max s.now t < edgeT + usT (cfgN s Fld.compat_go_filter 0)) :
    exec (.printGoEdge t level edgeT) s = .next (beginAt t s) := by
  rw [exec_printGoEdge, if_pos (Bool.and_eq_true_iff.mpr ⟨h, decide_eq_true ht⟩)]

/-- The run's first page start as the edge of PRINT_GO dated `edgeT` fixes it (R614, R615). -/
def goPlaced (i edgeT : Nat) (s : State) (a : Armed) : Armed :=
  { a with nGo := some (lineAt s i edgeT).ceil, nextStart := some ((lineAt s i edgeT).ceil + cfgN s Fld.compat_go_delay 0) }

theorem printGoStart_of_placing {i : Nat} {a : Armed} (hcompat : s.mod.compat = true) (hstate : s.mod.state = .armed)
    (ha : s.jobs.armed = some a) (hgo : a.nGo = none) (hslot : a.nextSlot = 0) (hplaces : placesStart s = true)
    (hlead : leadInput s = some i) : printGoStart edgeT s =
      raise 0x031E (leBytes 4 a.run.id ++ leBytes 8 (ofSigned 64 (lineAt s i edgeT).ceil)) (modArmed (goPlaced i edgeT s) s) := by
  unfold printGoStart
  rw [ha, hlead]
  exact if_pos (by simp [hcompat, hstate, hgo, hslot, hplaces])

theorem modArmed_jobs (f : Armed → Armed) (s : State) :
    (modArmed f s).jobs = { s.jobs with armed := s.jobs.armed.map f } := rfl

variable {t edgeT} {i : Nat} {a : Armed} (hlow : s.mod.printGo = false)
  (ht : edgeT + usT (cfgN s Fld.compat_go_filter 0) ≤ max s.now t) (hstops : s.pending.any (stopsRun (max s.now t)) = false)
include hlow ht hstops

/-- A rising edge that is accepted and that no stop of the run precedes may place slot 0 (R614, R617). -/
theorem exec_printGoEdge_rising : exec (.printGoEdge t true edgeT) s =
    .next (printGoStart edgeT (goTaken true (beginAt t s))) := by
  have hfiltered : ¬ max s.now t < edgeT + usT (cfgN s Fld.compat_go_filter 0) := Nat.not_lt.mpr ht
  rw [exec_printGoEdge, hstops, hlow, decide_eq_false hfiltered, Bool.and_false]
  rfl

theorem printGoEdge_places (hcompat : s.mod.compat = true) (hstate : s.mod.state = .armed) (ha : s.jobs.armed = some a)
    (hgo : a.nGo = none) (hslot : a.nextSlot = 0) (hplaces : placesStart s = true) (hlead : leadInput s = some i) :
    Completes (.printGoEdge t true edgeT) s fun n =>
      n.mod = { s.mod with printGo := true } ∧
      n.jobs = { s.jobs with armed := some { a with
        nGo := some (lineAt (beginAt t s) i edgeT).ceil
        nextStart := some ((lineAt (beginAt t s) i edgeT).ceil + cfgN s Fld.compat_go_delay 0) } } ∧
      Only [.clock, .mod, .log, .net, .jobs] s n := by
  have hexec := exec_printGoEdge_rising hlow ht hstops
  rw [printGoStart_of_placing edgeT (s := goTaken true (beginAt t s)) hcompat hstate ha hgo hslot hplaces hlead] at hexec
  refine ⟨_, hexec, raise_mod .., (raise_keeps ..).jobs_eq.trans ?_,
    Keeps.onlySince (t := t) (v := [.mod, .log, .net, .jobs]) ?_⟩
  · rw [modArmed_jobs, show (goTaken true (beginAt t s)).jobs = s.jobs from rfl, ha]
    rfl
  · exact (((goTaken_keeps ..).mono (by decide)).then (modArmed_keeps ..) (by decide)).then (raise_keeps ..) (by decide)

end PrintGo

/-- Settles O39: each clause is the lemma on its input. -/
theorem pressInputs : Obligations.PressInputs := by
  unfold Obligations.PressInputs
  refine ⟨?_, ?_, ?_, ?_, ?_, ?_, ?_, ?_, ?_⟩
  · intro t d edgeT level s hd hon hacc hlevel ht
    exact dinChange_falls hd hon ht hacc hlevel
  · intro t d edgeT level s hd hon hacc hlevel ht
    exact dinChange_rises hd hon ht hacc hlevel
  · intro t d edgeT level s h
    exact exec_dinChange_of_unfiltered t d edgeT level h
  · intro t s hrun
    exact haltInAsserted_level t hrun
  · intro t s hrun hbars
    exact haltInAsserted_halts t hrun hbars
  · intro t a s hstate ha
    exact ⟨haltInDeasserted_ends t ha hstate, haltInDeasserted_level t ha⟩
  · intro t edgeT level s h
    exact printGoEdge_follows t edgeT level h
  · intro t edgeT level s h ht
    exact exec_printGoEdge_of_unfiltered t edgeT level h ht
  · intro t edgeT i a s hcompat hstate hlow ht hstops ha hgo hslot hplaces hlead
    exact printGoEdge_places hlow ht hstops hcompat hstate ha hgo hslot hplaces hlead

end Sys2Proof.Machine
end

section
/-! Proofs of the statements on firing (10_firing.md): line triggers and deferred FIRE-SYNCs (O40); line packets, OVERSPEED_N and
HALT on the data lanes (O41). First what symbols given to one lane leave of the others, and for O40 what stays put out while a
line is handled. -/
namespace Sys2Proof.Machine
open Sys2Proof

-- As in the sections before: checked in parallel, the whole text takes more threads than the memory limit leaves room for.
set_option Elab.async false

/-! ### Symbols on several lanes (R302, R310, R329) -/

theorem laneDisparity_of_lane {s m : State} {g : Nat} (hnow : m.now = s.now) (hlane : laneOf m g = laneOf s g) :
    laneDisparity m g = laneDisparity s g := laneDisparity_congr hnow (u := (laneOf s g).underruns) hlane

theorem laneRest_of_lane {s m : State} {g : Nat} (hnow : m.now = s.now) (hlane : laneOf m g = laneOf s g) :
    laneRest m g = laneRest s g := by
  rw [laneRest, laneRest, laneSent, laneSent, hlane, hnow]

theorem LaneSends.mono {s m n : State} {g : Nat} {l : List Symbol} (h : LaneSends s g l m) (hn : m.sent ⊆ n.sent) :
    LaneSends s g l n := hn h

/-- A lane is given symbols by what it carried already, and its fill likewise. -/
def giveLane (fill : Nat → State → LaneFill) (l : Nat → State → List Symbol) (g : Nat) (s : State) : State :=
  putSymbols g (fill g s) (l g s) s

section Lanes
variable (fill : Nat → State → LaneFill) {l : Nat → State → List Symbol}

theorem giveLane_sent (g : Nat) (s : State) :
    (giveLane fill l g s).sent = s.sent ++ [Out.lane g (laneDisparity s g) (l g s)] := rfl

theorem giveLane_sends (g : Nat) (s : State) : s.sent ⊆ (giveLane fill l g s).sent := List.subset_append_left _ _

/-- Each lane of a list sends its symbols as though it were the only one: those before it leave it alone. -/
theorem forEach_giveLane_sends (hl : ∀ {g : Nat} {s m : State}, m.now = s.now → laneOf m g = laneOf s g → l g m = l g s)
    {g : Nat} {lanes : List Nat} (hg : g ∈ lanes) (s : State) :
    LaneSends s g (l g s) (forEach lanes (giveLane fill l) s) := by
  induction lanes generalizing s with
  | nil => exact absurd hg List.not_mem_nil
  | cons k lanes ih =>
    by_cases hk : g = k
    · subst hk
      exact LaneSends.mono (putSymbols_sends g (fill g s) (l g s) s)
        (forEach_sends (giveLane_sends fill) lanes (giveLane fill l g s))
    · have hlane : laneOf (giveLane fill l k s) g = laneOf s g := laneOf_putSymbols_other _ _ s hk
      have hrest := ih (List.mem_of_ne_of_mem hk hg) (giveLane fill l k s)
      have hnow : (giveLane fill l k s).now = s.now := rfl
      rwa [LaneSends, laneDisparity_of_lane hnow hlane, hl hnow hlane] at hrest

theorem laneOf_forEach_giveLane_other {g : Nat} {lanes : List Nat} (hg : g ∉ lanes) (s : State) :
    laneOf (forEach lanes (giveLane fill l) s) g = laneOf s g := by
  induction lanes generalizing s with
  | nil => rfl
  | cons k lanes ih =>
    obtain ⟨hk, hlanes⟩ := List.ne_and_not_mem_of_not_mem_cons hg
    exact (ih hlanes (giveLane fill l k s)).trans (laneOf_putSymbols_other _ _ s hk)

theorem length_sent_forEach_giveLane (lanes : List Nat) (s : State) :
    (forEach lanes (giveLane fill l) s).sent.length = s.sent.length + lanes.length := by
  induction lanes generalizing s with
  | nil => rfl
  | cons k lanes ih =>
    have htail := ih (giveLane fill l k s)
    rw [giveLane_sent, List.length_append, List.length_singleton] at htail
    rw [List.length_cons, Nat.add_comm lanes.length 1, ← Nat.add_assoc]
    exact htail

end Lanes

/-! ### LINE_PACKET_COMPLETE (R301, R335) -/

/-- A bar's packet at the moment at which it is looked at for its end (R301, R335). -/
def packetLooked (b : Nat) (s : State) (p : Packet) : Packet :=
  { p with done := if p.done.isNone && p.start + packetTime s b ≤ s.now then some (p.start + packetTime s b) else p.done }

/-- The state after that look at the packet. -/
def packetSeen (b : Nat) (s : State) : State := modBar b (fun y => { y with packet := y.packet.map (packetLooked b s) }) s

theorem exec_linePacketComplete (t b : Nat) (s : State) :
    exec (.linePacketComplete t b) s = .next (packetSeen b (beginAt t s)) := rfl

theorem packetSeen_only (t b : Nat) (s : State) : Only [.clock, .fire] s (packetSeen b (beginAt t s)) :=
  Keeps.onlySince (v := [.fire]) (modBar_keeps ..)

section Packet
variable {t b : Nat} {p : Packet} {s : State}

theorem linePacketComplete_done (hb : b < s.fire.bars.length) (hp : (barOf s b).packet = some p) (hdone : p.done = none)
    (ht : p.start + packetTime s b ≤ t) : Completes (.linePacketComplete t b) s fun n =>
      barOf n b = { barOf s b with packet := some { p with done := some (p.start + packetTime s b) } } ∧
      (∀ c, c ≠ b → barOf n c = barOf s c) ∧ n.fire.lanes = s.fire.lanes ∧ n.sent = [] ∧ Only [.clock, .fire] s n := by
  have hlooked : packetLooked b (beginAt t s) p = { p with done := some (p.start + packetTime s b) } := by
    have hnow : p.start + packetTime (beginAt t s) b ≤ (beginAt t s).now := Nat.le_trans ht (Nat.le_max_right ..)
    rw [packetLooked, hdone, Option.isNone_none, Bool.true_and, if_pos (decide_eq_true hnow)]
    rfl
  refine ⟨_, exec_linePacketComplete t b s, ?_, fun c hc => barOf_modBar_other _ (beginAt t s) hc, rfl, rfl,
    packetSeen_only t b s⟩
  have hbar : barOf (packetSeen b (beginAt t s)) b = _ := barOf_modBar _ (s := beginAt t s) hb
  have hp' : (barOf (beginAt t s) b).packet = some p := hp
  rw [hbar, hp', Option.map_some, hlooked]
  rfl

/-- Before its time the packet stays as it is. -/
theorem linePacketComplete_early (hp : (barOf s b).packet = some p) (ht : max s.now t < p.start + packetTime s b) :
    Completes (.linePacketComplete t b) s fun n => barOf n b = barOf s b ∧ n.sent = [] ∧ Only [.clock, .fire] s n := by
  refine ⟨_, exec_linePacketComplete t b s, ?_, rfl, packetSeen_only t b s⟩
  have hlooked : packetLooked b (beginAt t s) p = p := by
    have hnow : ¬ p.start + packetTime (beginAt t s) b ≤ (beginAt t s).now := Nat.not_le.mpr ht
    rw [packetLooked, decide_eq_false hnow, Bool.and_false, if_neg Bool.false_ne_true]
  have hp' : (barOf (beginAt t s) b).packet = some p := hp
  have hsame : { barOf (beginAt t s) b with packet := (barOf (beginAt t s) b).packet.map (packetLooked b (beginAt t s)) } =
      barOf (beginAt t s) b := by
    rw [hp', Option.map_some, hlooked, ← hp']
  rw [packetSeen, barOf, modBar_fire_bars, getD_modify]
  split
  · exact hsame
  · rfl

end Packet

/-! ### OVERSPEED_CLEAR (R309) -/

theorem overspeedClear_clears (t : Nat) {s : State} (h : overspeedOver (updateOverspeed (beginAt t s)) = true) :
    Completes (.overspeedClear t) s fun n =>
      n.fire = { (updateOverspeed (beginAt t s)).fire with overspeedN := false } ∧ Raised 0x0512 [] n ∧
      Only [.clock, .fire, .log, .net] s n := by
  have hexec : exec (.overspeedClear t) s = .next _ := congrArg Host.Outcome.next (if_pos h)
  exact ⟨_, hexec, (raise_keeps ..).fire_eq, raised_of_raise (k := 0) (.of_log_eq rfl),
    (execOverspeedClear_keeps t s _ hexec).onlySince⟩

theorem exec_overspeedClear_of_held (t : Nat) {s : State} (h : overspeedOver (updateOverspeed (beginAt t s)) = false) :
    exec (.overspeedClear t) s = .next (updateOverspeed (beginAt t s)) :=
  congrArg Host.Outcome.next (if_neg (ne_true_of_eq_false h))

/-! ### HALT_REPEAT (R24, R311) -/

/-- The fill of a lane that carries HALT (R310, R346). -/
def haltFill (g : Nat) (s : State) : LaneFill :=
  if (laneOf s g).fill = .training || (laneOf s g).fill = .haltTraining then .haltTraining else .halt

/-- What a lane sends as HALT goes out on it: a line packet ends there (R310). -/
def haltSymbols (packet : Bool) (g : Nat) (s : State) : List Symbol := kHalt :: if packet then [] else laneRest s g

theorem haltLanes_eq (packet : Bool) (lanes : List Nat) (s : State) :
    haltLanes packet lanes s = forEach (lanes.filter (laneDriven s)) (giveLane haltFill (haltSymbols packet)) s := rfl

theorem haltSymbols_of_lane (packet : Bool) {g : Nat} {s m : State} (hnow : m.now = s.now) (hlane : laneOf m g = laneOf s g) :
    haltSymbols packet g m = haltSymbols packet g s := by
  rw [haltSymbols, haltSymbols, laneRest_of_lane hnow hlane]

section HaltRepeat
variable {t b : Nat} {s : State}

/-- A bar repeats HALT where it is halted, and in HALTED. -/
theorem exec_haltRepeat (t b : Nat) (s : State) : exec (.haltRepeat t b) s =
    .next (if halted s b || (s.mod.state = .halted && b < 8) then sendHalt b (beginAt t s) else beginAt t s) := rfl

theorem haltRepeat_sends (hb : b < 8) (hhalt : halted s b = true ∨ s.mod.state = .halted) (hdrives : drives s = true) :
    Completes (.haltRepeat t b) s fun n =>
      (∀ g ∈ (barLanes b).filter (laneDriven s), LaneSends (beginAt t s) g
        (kHalt :: if (barOf s b).packet.isSome then [] else laneRest (beginAt t s) g) n) ∧
      n.sent.length = ((barLanes b).filter (laneDriven s)).length ∧ n.fire.bars = s.fire.bars ∧
      (∀ g, g ∉ (barLanes b).filter (laneDriven s) → laneOf n g = laneOf s g) ∧ Only [.clock, .fire] s n := by
  have hcond : (halted s b || (decide (s.mod.state = .halted) && decide (b < 8))) = true := by
    rcases hhalt with h | h <;> simp [h, hb]
  have hsend : sendHalt b (beginAt t s) = forEach ((barLanes b).filter (laneDriven s))
      (giveLane haltFill (haltSymbols (barOf s b).packet.isSome)) (beginAt t s) := (if_pos hdrives).trans (haltLanes_eq ..)
  have hexec := (exec_haltRepeat t b s).trans (congrArg Host.Outcome.next (if_pos hcond))
  have honly := (execHaltRepeat_keeps t b s _ hexec).onlySince (w := [.clock, .fire])
  refine ⟨_, hexec, ?_, ?_, sendHalt_bars .., ?_, honly⟩ <;> rw [hsend]
  · exact fun g hg => forEach_giveLane_sends haltFill (haltSymbols_of_lane _) hg (beginAt t s)
  · exact (length_sent_forEach_giveLane ..).trans (Nat.zero_add _)
  · exact fun g hg => laneOf_forEach_giveLane_other haltFill hg (beginAt t s)

theorem exec_haltRepeat_of_free (h : halted s b = false) (hstate : s.mod.state ≠ .halted) :
    exec (.haltRepeat t b) s = .next (beginAt t s) := by
  rw [exec_haltRepeat, h, decide_eq_false hstate, Bool.false_and, Bool.or_false, if_neg Bool.false_ne_true]

end HaltRepeat

/-- Settles O41: each clause is the lemma on its command. -/
theorem packetsHaltsOverspeed : Obligations.PacketsHaltsOverspeed := by
  unfold Obligations.PacketsHaltsOverspeed
  refine ⟨?_, ?_, ?_, ?_, ?_, ?_⟩
  · intro t b p s hb hp hdone ht
    exact linePacketComplete_done hb hp hdone ht
  · intro t b p s hp ht
    exact linePacketComplete_early hp ht
  · intro t s h
    exact overspeedClear_clears t h
  · intro t s h
    exact exec_overspeedClear_of_held t h
  · intro t b s hb _ hhalt hdrives
    exact haltRepeat_sends hb hhalt hdrives
  · intro t b s h hstate
    exact exec_haltRepeat_of_free h hstate

/-! ### What is put out stays put out as slots end on a bar (R119) -/

/-- What is put out stays put out over a branch if it does so over both of its ends. -/
theorem ite_sends {p : Prop} [Decidable p] {s a b : State} (ha : s.sent ⊆ a.sent) (hb : s.sent ⊆ b.sent) :
    s.sent ⊆ (if p then a else b).sent := by
  split
  · exact ha
  · exact hb

/-- A walk whose steps put nothing out. -/
theorem forEach_quiet_sends {α : Type} {f : α → State → State} (l : List α) (s : State)
    (hf : ∀ x s, (f x s).sent = s.sent := by exact fun _ _ => rfl) : s.sent ⊆ (forEach l f s).sent := by
  rw [forEach_eq (v := State.sent) hf l s]
  exact List.Subset.refl _

/-- An event that is raised after what puts nothing out. -/
theorem raise_sends_after (code : Nat) (detail : List Byte) {s m : State} (h : m.sent = s.sent := by rfl) :
    s.sent ⊆ (raise code detail m).sent := h ▸ raise_sends code detail m

theorem forEach_raise_sends {α : Type} (l : List α) (code : α → Nat) (detail : α → List Byte) {s m : State}
    (h : m.sent = s.sent := by rfl) : s.sent ⊆ (forEach l (fun x => raise (code x) (detail x)) m).sent :=
  h ▸ forEach_sends (fun x m => raise_sends (code x) (detail x) m) l m

theorem endSlot_sends (n : Nat) (s : State) : s.sent ⊆ (endSlot n s).sent := by
  unfold endSlot
  split
  · exact List.Subset.refl _
  · refine ite_sends (List.Subset.refl _) (ite_sends ?_ ?_)
    · exact raise_sends_after ..
    · exact raise_sends_after ..

theorem barDone_sends (b n : Nat) (s : State) : s.sent ⊆ (barDone b n s).sent := by
  have hreading : s.sent ⊆ (endReading b n s).sent := forEach_quiet_sends _ s
  refine List.Subset.trans hreading ?_
  unfold barDone checkSlot
  split
  · exact List.Subset.refl _
  · exact ite_sends (endSlot_sends n (modSlot n _ (endReading b n s))) (List.Subset.refl _)

theorem finishSlots_sends (b : Nat) (n : Int) (s : State) : s.sent ⊆ (finishSlots b n s).sent :=
  forEach_sends (barDone_sends b) _ s

/-! ### What is put out stays put out as the next packet starts (R297, R300, R301, R309) -/

theorem endSlews_sends (b : Nat) (s : State) : s.sent ⊆ (endSlews b s).sent := forEach_quiet_sends _ s

theorem noteMarks_sends (b : Nat) (x : Slot) (s : State) : s.sent ⊆ (noteMarks b x s).sent := by
  unfold noteMarks
  split
  · exact List.Subset.refl _
  · exact ite_sends (List.Subset.refl _) (List.Subset.refl _)

theorem latchSlot_sends (b : Nat) (n : Int) (x : Slot) (s : State) : s.sent ⊆ (latchSlot b n x s).sent := by
  unfold latchSlot
  extract_lets s1 o s2 out s3 s4
  have hs1 : s.sent ⊆ s1.sent := endSlews_sends b (latchTaps b s)
  have hs3 : s1.sent ⊆ s3.sent := forEach_quiet_sends _ s1
  have hs4 : s3.sent ⊆ s4.sent := by
    let token := leBytes 1 b ++ leBytes 1 4 ++ leBytes 4 (seqOf s3 b n) ++ leBytes 1 0
    refine ite_sends (List.Subset.trans (sendToken_sends 0x08 token s3) ?_) (List.Subset.refl _)
    exact raise_sends_after _ _ (modBar_sent ..)
  exact List.Subset.trans hs1 (List.Subset.trans hs3 (List.Subset.trans hs4 (noteMarks_sends b x s4)))

theorem latchDueSlots_sends (b : Nat) (n : Int) (fuel : Nat) (s : State) : s.sent ⊆ (latchDueSlots b n fuel s).sent := by
  induction fuel generalizing s with
  | zero => exact List.Subset.refl _
  | succ fuel ih =>
    unfold latchDueSlots
    split
    · exact List.Subset.refl _
    · next x _ => exact ite_sends (List.Subset.trans (latchSlot_sends b n x s) (ih _)) (List.Subset.refl _)

theorem fillUpTo_sends (b : Nat) (n : Int) (s : State) : s.sent ⊆ (fillUpTo b n s).sent :=
  forEach_sends (fun _ s => forEach_quiet_sends _ s) _ s

theorem sendPackets_sends (b : Nat) (n : Int) (s : State) : s.sent ⊆ (sendPackets b n s).sent :=
  ite_sends (forEach_sends (fun _ s => forEach_sends (fun _ _ => List.subset_append_left _ _) _ s) _ s) (List.Subset.refl _)

theorem startPacket_sends (b : Nat) (n : Int) (s : State) : s.sent ⊆ (startPacket b n s).sent := by
  unfold startPacket
  extract_lets s1 on
  have hs1 : s.sent ⊆ s1.sent := List.Subset.trans (latchDueSlots_sends b n 16 s) (fillUpTo_sends ..)
  exact List.Subset.trans hs1 (sendPackets_sends b n (modBar b _ s1))

theorem nextPacket_sends (b : Nat) (n : Int) (s : State) : s.sent ⊆ (nextPacket b n s).sent :=
  ite_sends (startPacket_sends b n s) (List.Subset.refl _)

theorem updateOverspeed_sends (s : State) : s.sent ⊆ (updateOverspeed s).sent := by
  refine ite_sends (List.Subset.refl _) ?_
  extract_lets s1 fast recent slow since s2
  have hs1 : s.sent ⊆ s1.sent := forEach_quiet_sends _ s
  refine List.Subset.trans hs1 (ite_sends ?_ (List.Subset.refl _))
  exact raise_sends_after ..

/-! ### What is put out stays put out as DRAIN ends (R20) -/

theorem setModState_sends (st : ModState) (cause : Nat) (s : State) : s.sent ⊆ (setModState st cause s).sent :=
  raise_sends_after ..

theorem announceStart_sends (s : State) : s.sent ⊆ (announceStart s).sent := by
  unfold announceStart
  extract_lets ms p s1
  have hs1 : s.sent ⊆ s1.sent := raise_sends_after ..
  clear_value s1
  exact List.Subset.trans hs1 (forEach_raise_sends ..)

theorem firstIdle_sends (s : State) : s.sent ⊆ (firstIdle s).sent := by
  unfold firstIdle
  extract_lets m s1 s2
  have hs1 : s.sent ⊆ s1.sent :=
    List.Subset.trans (announceStart_sends { s with mod := { s.mod with idleSeen := true } }) (forEach_raise_sends ..)
  exact List.Subset.trans hs1 (ite_sends (List.Subset.refl _) (List.Subset.refl _))

theorem keepRun_sends (s : State) : s.sent ⊆ (keepRun s).sent := by
  unfold keepRun
  split <;> exact List.Subset.refl _

theorem endHalt_sends (g : Nat) (s : State) : s.sent ⊆ (endHalt g s).sent := by
  unfold endHalt
  split
  · exact List.subset_append_left _ _
  · exact List.subset_append_left _ _
  · exact List.Subset.refl _

theorem putValue_sent (e : Element) (v : List Int) (s : State) : (putValue e v s).sent = s.sent := by
  unfold putValue
  dsimp only
  split_ifs <;> rfl

theorem nozzleEvent_sends (e : Element) (old new : List Int) (s : State) : s.sent ⊆ (nozzleEvent e old new s).sent :=
  ite_sends (List.Subset.refl _) (raise_sends ..)

theorem installValue_sends (e : Element) (v : List Int) (s : State) : s.sent ⊆ (installValue e v s).sent := by
  unfold installValue
  extract_lets old s1
  have hs1 : s1.sent = s.sent := putValue_sent e v s
  rw [← hs1]
  exact nozzleEvent_sends e old v { s1 with cal := { s1.cal with changed := true } }

theorem endCalRun_sends (s : State) : s.sent ⊆ (endCalRun s).sent := by
  have hwaiting := forEach_sends (fun p : Element × List Int => installValue_sends p.1 p.2) s.cal.waiting s
  unfold endCalRun
  refine List.Subset.trans hwaiting ?_
  generalize forEach s.cal.waiting _ s = m
  exact forEach_quiet_sends s.cal.slews m

theorem clearOverspeed_sends (s : State) : s.sent ⊆ (clearOverspeed s).sent :=
  ite_sends (raise_sends_after ..) (List.Subset.refl _)

theorem endHalts_keepRun_endInspection_sends (s : State) : s.sent ⊆ (endHalts (keepRun (endInspection s))).sent :=
  List.Subset.trans (show s.sent ⊆ (endInspection s).sent from forEach_quiet_sends _ s)
    (List.Subset.trans (keepRun_sends (endInspection s)) (forEach_sends endHalt_sends _ _))

theorem endCalRun_endRunInputs_clearBars_sends (s : State) : s.sent ⊆ (endCalRun (endRunInputs (clearBars s))).sent :=
  endCalRun_sends (endRunInputs (clearBars s))

theorem clearOverspeed_dropCamAux_endCascade_sends (s : State) : s.sent ⊆ (clearOverspeed (dropCamAux (endCascade s))).sent :=
  clearOverspeed_sends (dropCamAux (endCascade s))

theorem enterIdle_sends (cause : Nat) (s : State) : s.sent ⊆ (enterIdle cause s).sent := by
  unfold enterIdle
  extract_lets done s1 s2 s3 m u r s4
  have hs1 : s.sent ⊆ s1.sent := setModState_sends .idle cause s
  have hs2 : s1.sent ⊆ s2.sent := by
    refine ite_sends ?_ (List.Subset.refl _)
    clear_value done
    split
    · exact raise_sends ..
    · exact List.Subset.refl _
  have hs3 : s2.sent ⊆ s3.sent :=
    List.Subset.trans (endHalts_keepRun_endInspection_sends s2)
      (List.Subset.trans (endCalRun_endRunInputs_clearBars_sends _) (clearOverspeed_dropCamAux_endCascade_sends _))
  clear_value s3
  exact List.Subset.trans hs1 (List.Subset.trans hs2 (List.Subset.trans hs3
    (ite_sends (List.Subset.refl _) (firstIdle_sends s4))))

theorem settle_sends (s : State) : s.sent ⊆ (settle s).sent := ite_sends (enterIdle_sends 15 s) (List.Subset.refl _)

theorem settle_of_not_drain {s : State} (h : s.mod.state ≠ .drain) : settle s = s :=
  if_neg (by simp [h])

/-! ### FIRE-SYNC on the data lanes (R302) -/

/-- From `s` to `m` nothing has changed but what is kept of the bars. -/
def BarsOnly (s m : State) : Prop := m = { s with fire := { s.fire with bars := m.fire.bars } }

theorem BarsOnly.refl (s : State) : BarsOnly s s := rfl

theorem BarsOnly.modBar {s m : State} (h : BarsOnly s m) (b : Nat) (f : Bar → Bar) : BarsOnly s (modBar b f m) := by
  unfold BarsOnly Machine.modBar at *
  rw [h]

/-- A lane keeps its fill. -/
def keptFill (g : Nat) (s : State) : LaneFill := (laneOf s g).fill

/-- What a lane sends as FIRE-SYNC of a line sequence is inserted (R302). -/
def syncInserted (seq g : Nat) (s : State) : List Symbol := syncSymbols seq ++ laneRest s g

theorem insertSync_fires {b g : Nat} (n : Int) {s : State} (hdrives : drives s = true) (hg : g ∈ sendingLanes s b) :
    LaneSends s g (syncSymbols (seqOf s b n) ++ laneRest s g) (insertSync b n s) := by
  unfold insertSync
  extract_lets q s1
  have hs1 : LaneSends s g (syncSymbols q ++ laneRest s g) s1 := by
    have heq : s1 = forEach (sendingLanes s b) (giveLane keptFill (syncInserted q)) (modBar b _ s) := if_pos hdrives
    rw [heq]
    exact forEach_giveLane_sends keptFill (fun hnow hlane => congrArg _ (laneRest_of_lane hnow hlane)) hg (modBar b _ s)
  have hmarked : s1.sent ⊆ (markFiring b n s1).sent := forEach_quiet_sends _ s1
  have hcounted : (markFiring b n s1).sent ⊆ (countMissing b n (markFiring b n s1)).sent :=
    ite_sends (List.Subset.refl _) (List.Subset.refl _)
  exact hs1.mono (List.Subset.trans hmarked (List.Subset.trans hcounted (finishSlots_sends ..)))

/-- What is kept of the bars makes no difference to a FIRE-SYNC. -/
theorem insertSync_fires_of_bars {b g : Nat} (n : Int) {s m : State} (hm : BarsOnly s m) (hdrives : drives s = true)
    (hg : g ∈ sendingLanes s b) :
    LaneSends s g (syncSymbols (seqOf s b n) ++ laneRest s g) (insertSync b n m) := by
  obtain ⟨l, rfl⟩ : ∃ l, m = { s with fire := { s.fire with bars := l } } := ⟨_, hm⟩
  exact insertSync_fires n (s := { s with fire := { s.fire with bars := l } }) hdrives hg

/-! ### A bar's fields that an update of it leaves alone -/

theorem barOf_modBar_field {β : Type} (v : Bar → β) {f : Bar → Bar} (c b : Nat) (s : State)
    (hf : ∀ y, v (f y) = v y := by exact fun _ => rfl) : v (barOf (modBar c f s) b) = v (barOf s b) := by
  rw [barOf, modBar_fire_bars, getD_modify]
  split
  · exact hf _
  · rfl

/-- Of the bars, OVERSPEED_N's update writes the overspeed flag only (R309). -/
theorem barOf_updateOverspeed_field {β : Type} (v : Bar → β) (b : Nat) (s : State)
    (hf : ∀ y o, v { y with overspeed := o } = v y := by exact fun _ _ => rfl) :
    v (barOf (updateOverspeed s) b) = v (barOf s b) := by
  unfold updateOverspeed
  split
  · rfl
  · extract_lets s1 fast recent slow since fire s2
    have hs2 : v (barOf s2 b) = v (barOf s b) :=
      forEach_eq (v := fun m => v (barOf m b)) (fun c m => barOf_modBar_field v c b m fun y => hf y _) (runBars s) s
    split
    · rw [barOf, (raise_keeps ..).bars_eq]
      exact hs2
    · exact hs2

/-! ### The longest deferral (R305, R306) -/

theorem foldl_min_nonneg {α : Type} (l : List α) {f : α → Rat} (hf : ∀ x, 0 ≤ f x) {m : Rat} (hm : 0 ≤ m) :
    0 ≤ l.foldl (fun m x => min m (f x)) m := by
  induction l generalizing m with
  | nil => exact hm
  | cons x l ih => exact ih (le_min hm (hf x))

theorem maxDefer_nonneg (s : State) (b : Nat) : 0 ≤ maxDefer s b := by
  have hceiling : 0 ≤ barCeiling s.conf.cfg b (runDepth s) :=
    foldl_min_nonneg _ (fun k => by positivity) (le_min (by norm_num) (by positivity))
  unfold maxDefer
  positivity

/-! ### A compare point of a bar (R292, R300, R306) -/

/-- The bar counts compare point n (R292). -/
def pointCounted (b : Nat) (n : Int) (s : State) : State :=
  modBar b (fun y => { y with sequence := seqOf s b n, lastPoint := some n }) s

/-- A compare point of the bar in PRINT or DRAIN (R300). -/
def pointInPrint (b : Nat) (s : State) : State :=
  modBar b (fun y => { y with pointsInPrint := min 2 (y.pointsInPrint + 1) }) s

theorem inRun_of_isFiring {s : State} (h : isFiring s = true) : inRun s = true := by
  unfold inRun isFiring at *
  rw [Bool.or_assoc, h, Bool.or_true]

theorem barOf_countInhibited_field {β : Type} (v : Bar → β) (c b : Nat) (s : State)
    (hf : ∀ y k, v { y with inhibitedLines := k } = v y := by exact fun _ _ => rfl) :
    v (barOf (countInhibited c s) b) = v (barOf s b) := by
  unfold countInhibited
  split
  · exact barOf_modBar_field v c b s fun y => hf y _
  · rfl

theorem halted_of_haltCause {s m : State} {b : Nat} (h : (barOf m b).haltCause = (barOf s b).haltCause) :
    halted m b = halted s b := by
  rw [halted, halted, h]

/-- The packet `p` of the bar is complete, and nothing keeps its line from being fired at once: neither a halt, an inhibit, nor a
FIRE-SYNC deferred or too recent (R300, R306, R310, R318). -/
structure FiresNow (b : Nat) (p : Packet) (s : State) : Prop where
  firing : isFiring s = true
  drives : drives s = true
  free : halted s b = false
  uninhibited : (barOf s b).inhibited = false
  points : 1 ≤ (barOf s b).pointsInPrint
  packet : (barOf s b).packet = some p
  undeferred : (barOf s b).pendingSync = []
  complete : p.start + packetTime s b ≤ s.now
  spaced : ∀ u, (barOf s b).syncLast = some u → u + nsT (cfgN s Fld.firing_min_interval b) ≤ s.now

section Point
variable {b : Nat} {n : Int} {s : State}

/-- With no run the point is only counted (R292). -/
theorem takePoint_of_no_run (h : inRun s = false) : takePoint b n s = pointCounted b n s := by
  unfold takePoint
  extract_lets s0 s1
  have hs1 : s1 = pointCounted b n s := if_neg (ne_true_of_eq_false h)
  have hrun : inRun s1 = false := hs1 ▸ h
  exact (if_pos (by simp [hrun])).trans hs1

/-- In ARMED the point is counted, and the rates are looked at (R292, R300, R309). -/
theorem takePoint_of_armed (hstate : s.mod.state = .armed) (hhalt : halted s b = false) :
    takePoint b n s = updateOverspeed (countInhibited b (pointCounted b n s)) := by
  unfold takePoint
  extract_lets s0 s1
  have hs1 : s1 = countInhibited b (pointCounted b n s) := if_pos (by simp [inRun, s0, hstate])
  have hmod : s1.mod.state = .armed := by rw [hs1, (countInhibited_keeps ..).mod_eq]; exact hstate
  have hfree : halted s1 b = false := by
    rw [hs1, halted_of_haltCause (barOf_countInhibited_field Bar.haltCause ..), ← hhalt]
    exact halted_of_haltCause (barOf_modBar_field Bar.haltCause ..)
  have hrun : inRun s1 = true := by simp [inRun, hmod]
  have hfiring : isFiring s1 = false := by simp [isFiring, hmod]
  rw [if_neg (by simp [hrun, hfree]), if_pos (by simp [hfiring]), hs1]

/-- A further compare point in PRINT or DRAIN of a bar that has its packet: the line is handled (R300, R306). -/
theorem takePoint_of_packet {p : Packet} (hb : b < s.fire.bars.length) (h : FiresNow b p s) :
    takePoint b p.n s = updateOverspeed (handleLine b p.n (pointInPrint b (pointCounted b p.n s))) := by
  obtain ⟨hfiring, -, hhalt, hinh, hpoints, hp, -, -, -⟩ := h
  have hcounted : barOf (pointCounted b p.n s) b = _ := barOf_modBar _ hb
  have hbar : barOf (pointInPrint b (pointCounted b p.n s)) b = _ :=
    barOf_modBar _ (s := pointCounted b p.n s) (hb.trans_eq (barCount_modBar ..).symm)
  rw [hcounted] at hbar
  unfold takePoint
  extract_lets s0 s1 s2 s3
  have hs1 : s1 = pointCounted b p.n s := by
    refine (if_pos (inRun_of_isFiring hfiring)).trans (if_neg ?_)
    rw [show s0 = pointCounted b p.n s from rfl, hcounted, hinh]
    exact Bool.false_ne_true
  have hs2 : s2 = pointInPrint b (pointCounted b p.n s) := congrArg (pointInPrint b) hs1
  have hs3 : s3 = handleLine b p.n s2 := by
    have hbar2 := hs2 ▸ hbar
    have hfurther : (barOf s2 b).pointsInPrint ≠ 1 := by
      rw [hbar2]
      show min 2 ((barOf s b).pointsInPrint + 1) ≠ 1
      omega
    have hpacket : (barOf s2 b).packet = some p := by rw [hbar2, ← hp]
    have hsends : (barOf s2 b).inhibited = false := by rw [hbar2, ← hinh]
    unfold s3
    rw [if_neg hfurther, hpacket]
    dsimp only
    rw [if_neg (by simp), hsends, if_neg Bool.false_ne_true]
  have hrun : inRun s1 = true := by rw [hs1]; exact inRun_of_isFiring hfiring
  have hfree : halted s1 b = false := by
    rw [hs1, ← hhalt]
    exact halted_of_haltCause (barOf_modBar_field Bar.haltCause ..)
  have hon : isFiring s1 = true := by rw [hs1]; exact hfiring
  have hlater : atPrintEntry s1 b = false := by
    have hk : (barOf s1 b).pointsInPrint ≠ 0 := by
      rw [hs1, hcounted]
      exact Nat.ne_of_gt hpoints
    simp [atPrintEntry, hk]
  rw [if_neg (by simp [hrun, hfree]), if_neg (by simp [hon, hlater]), hs3, hs2]

/-- A line whose packet is complete, and whose bar has sent its last FIRE-SYNC long enough ago, is fired at once (R306). -/
theorem handleLine_at_once {p : Packet} (hp : (barOf s b).packet = some p) (hnone : (barOf s b).pendingSync = [])
    (hready : p.start + packetTime s b ≤ s.now)
    (hfloor : ∀ u, (barOf s b).syncLast = some u → u + nsT (cfgN s Fld.firing_min_interval b) ≤ s.now) :
    handleLine b n s = nextPacket b (n + 1) (insertSync b n
      (modBar b (fun y => { y with syncLast := some s.now }) (noteDelta b 0 s))) := by
  unfold handleLine
  extract_lets x floor_ ready delta s0 s1
  have hpacket : packetReady s b = p.start + packetTime s b := by
    rw [packetReady, hnone, hp]
    rfl
  have hlast : floor_ ≤ s.now := by
    unfold floor_ x
    cases hu : (barOf s b).syncLast with
    | none => exact Nat.zero_le _
    | some u => exact hfloor u hu
  have hnow : ready = s.now := by
    unfold ready
    omega
  have hdelta : delta = 0 := by
    unfold delta
    omega
  have hs1 : s1 = modBar b (fun y => { y with syncLast := some s.now }) (noteDelta b 0 s) := by
    unfold s1 s0
    rw [hnow, hdelta]
  have hshort : ¬ maxDefer s b < delta := by
    rw [hdelta, Nat.cast_zero]
    exact not_lt.mpr (maxDefer_nonneg s b)
  rw [if_neg hshort, if_pos (by simp [hdelta]), hs1]

/-- The packet time is that of the configuration and the run (R335). -/
theorem packetTime_of_groups {s m : State} (hconf : m.conf = s.conf) (hjobs : m.jobs = s.jobs) :
    packetTime m b = packetTime s b := by
  have hdepth : runDepth m = runDepth s := by rw [runDepth, runDepth, hjobs]
  have hlink : linkPacketTime m = linkPacketTime s := by
    funext k
    rw [linkPacketTime, linkPacketTime, hdepth, hconf]
  rw [packetTime, packetTime, hlink, hconf]

theorem takePoint_fires {g : Nat} {p : Packet} (hb : b < s.fire.bars.length) (h : FiresNow b p s) (hg : g ∈ sendingLanes s b) :
    LaneSends s g (syncSymbols (seqOf s b p.n) ++ laneRest s g) (takePoint b p.n s) := by
  let s1 := pointInPrint b (pointCounted b p.n s)
  let s2 := modBar b (fun y => { y with syncLast := some s1.now }) (noteDelta b 0 s1)
  have hfield {β : Type} (v : Bar → β)
      (hv : ∀ y q l k, v { y with sequence := q, lastPoint := l, pointsInPrint := k } = v y) : v (barOf s1 b) = v (barOf s b) :=
    (barOf_modBar_field v b b (pointCounted b p.n s) fun y => hv y y.sequence y.lastPoint _).trans
      (barOf_modBar_field v b b s fun y => hv y _ _ y.pointsInPrint)
  have hready : p.start + packetTime s1 b ≤ s1.now := by
    rw [packetTime_of_groups (s := s) (m := s1) rfl rfl]
    exact h.complete
  have hline : handleLine b p.n s1 = nextPacket b (p.n + 1) (insertSync b p.n s2) := by
    refine handleLine_at_once (p := p) (s := s1) ?_ ?_ hready ?_
    · rw [hfield Bar.packet fun _ _ _ _ => rfl, h.packet]
    · rw [hfield Bar.pendingSync fun _ _ _ _ => rfl, h.undeferred]
    · rw [hfield Bar.syncLast fun _ _ _ _ => rfl]
      exact h.spaced
  rw [takePoint_of_packet hb h, hline]
  have hs2 : BarsOnly s s2 := ((((BarsOnly.refl s).modBar ..).modBar ..).modBar ..).modBar ..
  have hsync : LaneSends s g (syncSymbols (seqOf s b p.n) ++ laneRest s g) (insertSync b p.n s2) :=
    insertSync_fires_of_bars p.n hs2 h.drives hg
  exact hsync.mono (List.Subset.trans (nextPacket_sends ..) (updateOverspeed_sends _))

end Point

/-! ### Events put out no symbols of a lane (R85) -/

/-- What is put out gives symbols to a data lane. -/
def Out.isLane : Out → Bool
  | .lane .. => true
  | _ => false

/-- The symbols given to data lanes among what has been put out. -/
def laneOuts (s : State) : List Out := s.sent.filter Out.isLane

theorem laneOuts_of_sent {s m : State} (h : m.sent = s.sent) : laneOuts m = laneOuts s := congrArg (List.filter Out.isLane) h

theorem lane_not_mem_sent {g : Nat} {rd : Bool} {l : List Symbol} {s : State} (h : laneOuts s = []) :
    Out.lane g rd l ∉ s.sent := fun hmem => by
  have hlane : Out.lane g rd l ∈ laneOuts s := List.mem_filter.mpr ⟨hmem, rfl⟩
  rw [h] at hlane
  exact List.not_mem_nil hlane

theorem emit_laneOuts {o : Out} (ho : o.isLane = false) (s : State) : laneOuts (emit o s) = laneOuts s := by
  rw [laneOuts, emit_sent, List.filter_append, List.filter_singleton, ho]
  exact List.append_nil _

theorem emitTo_laneOuts (port addr : Nat) {o : Out} (ho : o.isLane = false) (s : State) :
    laneOuts (emitTo port addr o s) = laneOuts s := by
  unfold emitTo
  split
  · exact emit_laneOuts ho s
  · exact (emit_laneOuts ho _).trans (emit_laneOuts rfl _)

theorem sendOwn_laneOuts (i type : Nat) (payload : List Byte) (s : State) :
    laneOuts (sendOwn i type payload s) = laneOuts s := by
  unfold sendOwn sendOn
  dsimp only
  split
  · rfl
  · split
    · exact emitTo_laneOuts _ _ rfl (modSession i _ s)
    · rfl

theorem raise_laneOuts (code : Nat) (detail : List Byte) (s : State) : laneOuts (raise code detail s) = laneOuts s := by
  unfold raise raiseAt
  refine (forEach_eq (v := laneOuts) (fun i m => ?_) _ _).trans (laneOuts_of_sent rfl)
  exact sendOwn_laneOuts ..

theorem updateOverspeed_laneOuts (s : State) : laneOuts (updateOverspeed s) = laneOuts s := by
  unfold updateOverspeed
  split
  · rfl
  · extract_lets s1 fast recent slow since fire s2
    have hs2 : laneOuts s2 = laneOuts s := by
      refine (laneOuts_of_sent rfl).trans (forEach_eq (v := laneOuts) (fun b m => ?_) (runBars s) s)
      exact laneOuts_of_sent rfl
    split
    · exact (raise_laneOuts ..).trans hs2
    · exact hs2

theorem countInhibited_sent (b : Nat) (s : State) : (countInhibited b s).sent = s.sent := by
  unfold countInhibited
  split <;> rfl

/-! ### LINE_TRIGGER (R292, R300, R306) -/

theorem exec_lineTrigger (t b : Nat) (s : State) :
    exec (.lineTrigger t b) s = .next (settle (handleDue b (beginAt t s))) := rfl

/-- The oldest trigger of the bar is taken off. -/
def trigTaken (b : Nat) (s : State) : State := modBar b (fun y => { y with trigs := y.trigs.drop 1 }) s

theorem handleDue_of_due {b : Nat} {x : Trig} {rest : List Trig} {s : State} (htrigs : (barOf s b).trigs = x :: rest)
    (hdue : x.t ≤ s.now) : handleDue b s = takePoint b x.n (trigTaken b s) := by
  rw [handleDue, nextTrig, htrigs]
  dsimp only
  rw [if_pos hdue]
  rfl

theorem handleDue_of_none {b : Nat} {s : State} (htrigs : (barOf s b).trigs = []) : handleDue b s = s := by
  rw [handleDue, nextTrig, htrigs]

section Trigger
variable {t b : Nat} {x : Trig} {rest : List Trig} {s : State}

theorem exec_lineTrigger_of_due (htrigs : (barOf s b).trigs = x :: rest) (ht : x.t ≤ t) :
    exec (.lineTrigger t b) s = .next (settle (takePoint b x.n (trigTaken b (beginAt t s)))) := by
  rw [exec_lineTrigger, handleDue_of_due (s := beginAt t s) htrigs (Nat.le_trans ht (Nat.le_max_right ..))]

theorem exec_lineTrigger_of_none (htrigs : (barOf s b).trigs = []) (hstate : s.mod.state ≠ .drain) :
    exec (.lineTrigger t b) s = .next (beginAt t s) := by
  rw [exec_lineTrigger, handleDue_of_none (s := beginAt t s) htrigs, settle_of_not_drain (s := beginAt t s) hstate]

/-- What the trigger and its compare point write of the bar (R292, R306). -/
theorem barOf_trigTaken_counted (hb : b < s.fire.bars.length) (htrigs : (barOf s b).trigs = x :: rest) (t : Nat) :
    barOf (pointCounted b x.n (trigTaken b (beginAt t s))) b =
      { barOf s b with trigs := rest, sequence := seqOf s b x.n, lastPoint := some x.n } := by
  have htaken : barOf (trigTaken b (beginAt t s)) b = { barOf s b with trigs := rest } := by
    refine (barOf_modBar _ (s := beginAt t s) hb).trans ?_
    rw [show (barOf (beginAt t s) b).trigs = x :: rest from htrigs]
    rfl
  refine (barOf_modBar _ (s := trigTaken b (beginAt t s)) (hb.trans_eq (barCount_modBar ..).symm)).trans ?_
  rw [htaken]
  rfl

theorem lineTrigger_counts (hb : b < s.fire.bars.length) (htrigs : (barOf s b).trigs = x :: rest) (ht : x.t ≤ t)
    (hrun : inRun s = false) : Completes (.lineTrigger t b) s fun n =>
      barOf n b = { barOf s b with trigs := rest, sequence := seqOf s b x.n, lastPoint := some x.n } ∧
      (∀ c, c ≠ b → barOf n c = barOf s c) ∧ n.sent = [] ∧ Only [.clock, .fire] s n := by
  have hstate : s.mod.state ≠ .drain := fun h => by simp [inRun, h] at hrun
  have hexec := exec_lineTrigger_of_due htrigs ht
  rw [takePoint_of_no_run (s := trigTaken b (beginAt t s)) hrun,
    settle_of_not_drain (s := pointCounted b x.n (trigTaken b (beginAt t s))) hstate] at hexec
  refine ⟨_, hexec, barOf_trigTaken_counted hb htrigs t, fun c hc => ?_, rfl,
    Keeps.onlySince (v := [.fire]) ((modBar_keeps ..).then (modBar_keeps ..) (by decide))⟩
  exact (barOf_modBar_other _ (trigTaken b (beginAt t s)) hc).trans (barOf_modBar_other _ (beginAt t s) hc)

theorem lineTrigger_fires {p : Packet} (hb : b < s.fire.bars.length) (htrigs : (barOf s b).trigs = x :: rest) (ht : x.t ≤ t)
    (hfiring : isFiring s = true) (hdrives : drives s = true) (hhalt : halted s b = false)
    (hp : (barOf s b).packet = some p) (hn : p.n = x.n) (hnone : (barOf s b).pendingSync = [])
    (hinh : (barOf s b).inhibited = false) (hpoints : 1 ≤ (barOf s b).pointsInPrint)
    (hready : p.start + packetTime s b ≤ t)
    (hfloor : ∀ u, (barOf s b).syncLast = some u → u + nsT (cfgN s Fld.firing_min_interval b) ≤ t) :
    Completes (.lineTrigger t b) s fun n => ∀ g ∈ sendingLanes s b,
      LaneSends (beginAt t s) g (syncSymbols (seqOf s b x.n) ++ laneRest (beginAt t s) g) n := by
  have hfield {β : Type} (v : Bar → β) (hv : ∀ y l, v { y with trigs := l } = v y) :
      v (barOf (trigTaken b (beginAt t s)) b) = v (barOf s b) := barOf_modBar_field v b b (beginAt t s) fun y => hv y _
  have hlast : t ≤ max s.now t := Nat.le_max_right ..
  have hfires : FiresNow b p (trigTaken b (beginAt t s)) := by
    refine ⟨hfiring, hdrives, ?_, ?_, ?_, ?_, ?_, Nat.le_trans hready hlast, fun u hu => ?_⟩
    · rw [halted, hfield Bar.haltCause fun _ _ => rfl]
      exact hhalt
    · rw [hfield Bar.inhibited fun _ _ => rfl, hinh]
    · rwa [hfield Bar.pointsInPrint fun _ _ => rfl]
    · rw [hfield Bar.packet fun _ _ => rfl, hp]
    · rw [hfield Bar.pendingSync fun _ _ => rfl, hnone]
    · rw [hfield Bar.syncLast fun _ _ => rfl] at hu
      exact Nat.le_trans (hfloor u hu) hlast
  refine ⟨_, exec_lineTrigger_of_due htrigs ht, fun g hg => ?_⟩
  rw [← hn]
  have hpoint := takePoint_fires (s := trigTaken b (beginAt t s)) (hb.trans_eq (barCount_modBar ..).symm) hfires hg
  exact LaneSends.mono hpoint (settle_sends _)

/-- In ARMED the point is counted; but for that only the rates are looked at (R292, R300, R309). -/
theorem lineTrigger_armed (hb : b < s.fire.bars.length) (htrigs : (barOf s b).trigs = x :: rest) (ht : x.t ≤ t)
    (hstate : s.mod.state = .armed) (hhalt : halted s b = false) : Completes (.lineTrigger t b) s fun n =>
      (barOf n b).sequence = seqOf s b x.n ∧ (barOf n b).lastPoint = some x.n ∧ (barOf n b).trigs = rest ∧
      (barOf n b).packet = (barOf s b).packet ∧ (∀ g rd l, Out.lane g rd l ∉ n.sent) ∧
      Only [.clock, .fire, .log, .net] s n := by
  let s1 := trigTaken b (beginAt t s)
  let s2 := pointCounted b x.n s1
  let n := updateOverspeed (countInhibited b s2)
  have hkeeps : Keeps [.fire, .log, .net] (beginAt t s) n :=
    (((modBar_keeps ..).mono (w := [.fire, .log, .net]) (by decide)).then (modBar_keeps ..) (by decide)).then
      (countInhibited_keeps b s2) (by decide) |>.then (updateOverspeed_keeps _) (by decide)
  have hfree : halted s1 b = false := by
    rw [← hhalt]
    exact halted_of_haltCause (barOf_modBar_field Bar.haltCause b b (beginAt t s))
  have hexec : exec (.lineTrigger t b) s = .next n := by
    rw [exec_lineTrigger_of_due htrigs ht, takePoint_of_armed (s := s1) hstate hfree, settle_of_not_drain]
    rw [hkeeps.mod_eq, beginAt_mod, hstate]
    decide
  have hfield {β : Type} (v : Bar → β) (hv : ∀ y o k, v { y with overspeed := o, inhibitedLines := k } = v y) :
      v (barOf n b) = v { barOf s b with trigs := rest, sequence := seqOf s b x.n, lastPoint := some x.n } := by
    rw [← barOf_trigTaken_counted hb htrigs t]
    exact (barOf_updateOverspeed_field v b _ fun y o => hv y o y.inhibitedLines).trans
      (barOf_countInhibited_field v b b s2 fun y k => hv y y.overspeed k)
  have hlanes : laneOuts n = [] :=
    (updateOverspeed_laneOuts _).trans (laneOuts_of_sent (countInhibited_sent b s2))
  exact ⟨n, hexec, hfield Bar.sequence fun _ _ _ => rfl, hfield Bar.lastPoint fun _ _ _ => rfl,
    hfield Bar.trigs fun _ _ _ => rfl, hfield Bar.packet fun _ _ _ => rfl,
    fun g rd l h => lane_not_mem_sent hlanes h, hkeeps.onlySince⟩

end Trigger

/-! ### DEFERRED_FIRE_SYNC (R306) -/

theorem exec_deferredFireSync (t b : Nat) (s : State) :
    exec (.deferredFireSync t b) s = .next (settle (insertDue b (beginAt t s))) := rfl

section Deferred
variable {t b d : Nat} {m : Int} {rest : List (Int × Nat)} {s : State}

theorem insertDue_fires {g : Nat} (hsyncs : (barOf s b).pendingSync = (m, d) :: rest)
    (hdue : d ≤ s.now) (hhalt : halted s b = false) (hdrives : drives s = true) (hinh : (barOf s b).inhibited = false)
    (hg : g ∈ sendingLanes s b) :
    LaneSends s g (syncSymbols (seqOf s b m) ++ laneRest s g) (insertDue b s) := by
  unfold insertDue
  rw [hsyncs]
  dsimp only
  rw [if_neg (by simp [hdue, hhalt]), barOf_modBar_field Bar.inhibited, hinh, if_neg Bool.false_ne_true]
  exact (insertSync_fires_of_bars m ((BarsOnly.refl s).modBar ..) hdrives hg).mono (nextPacket_sends ..)

theorem insertDue_of_early (hsyncs : (barOf s b).pendingSync = (m, d) :: rest) (h : s.now < d) : insertDue b s = s := by
  unfold insertDue
  rw [hsyncs]
  exact if_pos (by simp [h])

theorem deferredFireSync_fires (hsyncs : (barOf s b).pendingSync = (m, d) :: rest)
    (ht : d ≤ t) (hhalt : halted s b = false) (hdrives : drives s = true) (hinh : (barOf s b).inhibited = false) :
    Completes (.deferredFireSync t b) s fun n => ∀ g ∈ sendingLanes s b,
      LaneSends (beginAt t s) g (syncSymbols (seqOf s b m) ++ laneRest (beginAt t s) g) n := by
  refine ⟨_, exec_deferredFireSync t b s, fun g hg => ?_⟩
  have hsync := insertDue_fires (s := beginAt t s) hsyncs (Nat.le_trans ht (Nat.le_max_right ..)) hhalt hdrives hinh hg
  exact LaneSends.mono hsync (settle_sends _)

theorem exec_deferredFireSync_of_early (hsyncs : (barOf s b).pendingSync = (m, d) :: rest) (h : max s.now t < d)
    (hstate : s.mod.state ≠ .drain) : exec (.deferredFireSync t b) s = .next (beginAt t s) := by
  rw [exec_deferredFireSync, insertDue_of_early (s := beginAt t s) hsyncs h, settle_of_not_drain (s := beginAt t s) hstate]

end Deferred

/-- Settles O40: each clause is the lemma on its command and case. -/
theorem lineTriggersFire : Obligations.LineTriggersFire := by
  unfold Obligations.LineTriggersFire
  refine ⟨?_, ?_, ?_, ?_, ?_, ?_⟩
  · intro t b x rest p s hb htrigs ht hfiring hdrives hhalt hp hn hnone hinh hpoints hready hfloor
    exact lineTrigger_fires hb htrigs ht hfiring hdrives hhalt hp hn hnone hinh hpoints hready hfloor
  · intro t b x rest s hb htrigs ht hrun
    exact lineTrigger_counts hb htrigs ht hrun
  · intro t b x rest s hb htrigs ht hstate hhalt
    exact lineTrigger_armed hb htrigs ht hstate hhalt
  · intro t b s htrigs hstate
    exact exec_lineTrigger_of_none htrigs hstate
  · intro t b d m rest s _ hsyncs ht hhalt hdrives hinh
    exact deferredFireSync_fires hsyncs ht hhalt hdrives hinh
  · intro t b d m rest s hsyncs h hstate
    exact exec_deferredFireSync_of_early hsyncs h hstate

end Sys2Proof.Machine
end

section
/-! Proofs of the statements on the head links (11_tollos_link.md): links that come UP, leave UP and carry OWNER frames (O45), the
timeout of their training (O46), and the PLLs that drive them (O47). First what an operation makes of one link and what it leaves
of a lane's symbols, then the commands. -/
namespace Sys2Proof.Machine
open Sys2Proof

-- As in the sections before: checked in parallel, the whole text takes more threads than the memory limit leaves room for.
set_option Elab.async false

section KeepsGroups
variable {w : List Group} {s n : State} (h : Keeps w s n)
include h

theorem Keeps.links_eq (hw : Group.links ∉ w := by decide) : n.links = s.links := h.only.same .links hw
theorem Keeps.loops_eq (hw : Group.loops ∉ w := by decide) : n.loops = s.loops := h.only.same .loops hw

end KeepsGroups

/-- The event just raised is the next one of the log before it. -/
theorem raisedNext_raise (code : Nat) (detail : List Byte) {s0 s : State} (hlog : s.log = s0.log) :
    RaisedNext s0 code detail (raise code detail s) := raisedNext_of_raise (k := 0) hlog (.of_log_eq rfl)

/-! ### What an operation makes of one link (object 0x0412) -/

theorem linkOf_modLink {k : Nat} (f : Link → Link) {s : State} (h : k < s.links.links.length) :
    linkOf (modLink k f s) k = f (linkOf s k) := by
  simp only [linkOf, modLink_links_links, getD_modify, h, and_self, if_true]

theorem linkOf_modLink_other {k j : Nat} (f : Link → Link) (s : State) (h : j ≠ k) :
    linkOf (modLink k f s) j = linkOf s j := by
  simp only [linkOf, modLink_links_links, getD_modify, h.symm, false_and, if_false]

theorem modLink_modLink (k : Nat) (f g : Link → Link) (s : State) :
    modLink k g (modLink k f s) = modLink k (g ∘ f) s := by
  unfold modLink
  rw [List.modify_modify_eq]

/-- Of two updates of a link that agree on what it holds, one is as good as the other. -/
theorem modLink_congr {k : Nat} {f g : Link → Link} {s : State} (h : f (linkOf s k) = g (linkOf s k)) :
    modLink k f s = modLink k g s := by
  have hlist : s.links.links.modify k f = s.links.links.modify k g := by
    refine List.ext_getElem? fun j => ?_
    rw [List.getElem?_modify, List.getElem?_modify]
    by_cases hj : k = j
    · subst hj
      rw [linkOf, List.getD_eq_getElem?_getD] at h
      cases hx : s.links.links[k]? with
      | none => rfl
      | some x =>
        rw [hx, Option.getD_some] at h
        simp [h]
    · simp [hj]
  rw [modLink, hlist, modLink]

theorem modLink_of_fixed {k : Nat} {f : Link → Link} {s : State} (h : f (linkOf s k) = linkOf s k) : modLink k f s = s := by
  rw [modLink_congr (g := id) h, modLink, List.modify_id]

theorem lt_length_of_linkUp {s : State} {k : Nat} (h : linkUp s k = true) : k < s.links.links.length := by
  by_contra hk
  rw [linkUp, linkOf, List.getD_eq_default _ _ (Nat.le_of_not_lt hk)] at h
  exact absurd h (by decide)

/-- Of the links and PLLs, an operation changes link `k` only, by `f`. -/
def LinkBecomes (k : Nat) (f : Link → Link) (s n : State) : Prop := n.links = (modLink k f s).links

section LinkBecomes
variable {k : Nat} {f g : Link → Link} {s m n : State}

theorem LinkBecomes.own (h : LinkBecomes k f s n) (hk : k < s.links.links.length) : linkOf n k = f (linkOf s k) := by
  rw [linkOf, h]
  exact linkOf_modLink f hk

theorem LinkBecomes.other (h : LinkBecomes k f s n) {j : Nat} (hj : j ≠ k) : linkOf n j = linkOf s j := by
  rw [linkOf, h]
  exact linkOf_modLink_other f s hj

theorem LinkBecomes.pll (h : LinkBecomes k f s n) : n.links.pll = s.links.pll := by
  rw [h]
  rfl

theorem LinkBecomes.length (h : LinkBecomes k f s n) : n.links.links.length = s.links.links.length := by
  rw [h]
  exact List.length_modify ..

theorem LinkBecomes.then (h : LinkBecomes k f s m) (h' : n.links = m.links) : LinkBecomes k f s n := Eq.trans h' h

theorem LinkBecomes.thenLink (h : LinkBecomes k f s m) (h' : LinkBecomes k g m n) : LinkBecomes k (g ∘ f) s n := by
  rw [LinkBecomes, ← modLink_modLink, h', modLink, h]
  rfl

end LinkBecomes

/-! ### An operation for each of several links -/

section EachLink
variable {w : List Group} {s0 : State} {op : Nat → State → State} {f : Link → Link}
  (hkeeps : ∀ k m, Keeps w s0 m → Keeps w m (op k m))
include hkeeps

/-- An operation that keeps to `w` where all before it did: so does the walk. -/
theorem forEach_keepsSince (l : List Nat) {s : State} (hs : Keeps w s0 s) : Keeps w s0 (forEach l op s) := by
  induction l generalizing s with
  | nil => exact hs
  | cons k l ih => exact ih (hs.then (hkeeps k s hs) (List.Subset.refl w))

variable (hop : ∀ k m, Keeps w s0 m → LinkBecomes k f m (op k m))
include hop

theorem forEach_link_pll (l : List Nat) {s : State} (hs : Keeps w s0 s) : (forEach l op s).links.pll = s.links.pll := by
  induction l generalizing s with
  | nil => rfl
  | cons k l ih => exact (ih (hs.then (hkeeps k s hs) (List.Subset.refl w))).trans (hop k s hs).pll

theorem linkOf_forEach_other {j : Nat} {l : List Nat} (hj : j ∉ l) {s : State} (hs : Keeps w s0 s) :
    linkOf (forEach l op s) j = linkOf s j := by
  induction l generalizing s with
  | nil => rfl
  | cons k l ih =>
    obtain ⟨hk, hl⟩ := List.ne_and_not_mem_of_not_mem_cons hj
    exact (ih hl (hs.then (hkeeps k s hs) (List.Subset.refl w))).trans ((hop k s hs).other hk)

theorem linkOf_forEach {j : Nat} {l : List Nat} (hl : l.Nodup) (hj : j ∈ l) {s : State} (hs : Keeps w s0 s)
    (hlen : j < s.links.links.length) : linkOf (forEach l op s) j = f (linkOf s j) := by
  induction l generalizing s with
  | nil => exact absurd hj List.not_mem_nil
  | cons k l ih =>
    obtain ⟨hk, hl⟩ := List.nodup_cons.mp hl
    have hnext := hs.then (hkeeps k s hs) (List.Subset.refl w)
    by_cases hjk : j = k
    · subst hjk
      exact (linkOf_forEach_other hkeeps hop hk hnext).trans ((hop j s hs).own hlen)
    · have hrest := ih hl (List.mem_of_ne_of_mem hjk hj) hnext ((hop k s hs).length ▸ hlen)
      exact hrest.trans (congrArg f ((hop k s hs).other hjk))

end EachLink

/-! ### LINK_TRAIN_TIMEOUT (R343) -/

section TrainTimeout
variable {t k : Nat} {s : State}

theorem exec_linkTrainTimeout (t k : Nat) (s : State) : exec (.linkTrainTimeout t k) s = .next
    (if (linkOf s k).state = .training && !(linkOf s k).timeoutRaised &&
        (linkOf s k).trainSince + msT (cfgN s Fld.heads_train_timeout 0) ≤ max s.now t then
      raise 0x0414 (leBytes 1 k) (modLink k (fun y => { y with timeoutRaised := true }) (beginAt t s))
    else beginAt t s) := rfl

theorem linkTrainTimeout_raises (hk : k < s.links.links.length) (hstate : (linkOf s k).state = .training)
    (ht : (linkOf s k).trainSince + msT (cfgN s Fld.heads_train_timeout 0) ≤ t) (hnew : (linkOf s k).timeoutRaised = false) :
    Completes (.linkTrainTimeout t k) s fun n =>
      linkOf n k = { linkOf s k with timeoutRaised := true } ∧ RaisedNext s 0x0414 (leBytes 1 k) n ∧
      (∀ j, j ≠ k → linkOf n j = linkOf s j) ∧ Only [.clock, .links, .log, .net] s n := by
  have hnow := Nat.le_trans ht (Nat.le_max_right s.now t)
  have hexec := (exec_linkTrainTimeout t k s).trans
    (congrArg Host.Outcome.next (if_pos (by rw [hstate, hnew, decide_eq_true hnow]; rfl)))
  have hlink : LinkBecomes k (fun y => { y with timeoutRaised := true }) (beginAt t s) _ :=
    LinkBecomes.then rfl (raise_keeps 0x0414 (leBytes 1 k) _).links_eq
  exact ⟨_, hexec, hlink.own hk, raisedNext_raise _ _ rfl, fun j hj => hlink.other hj,
    (execLinkTrainTimeout_keeps t k s _ hexec).onlySince⟩

theorem exec_linkTrainTimeout_of_raised (h : (linkOf s k).timeoutRaised = true) :
    exec (.linkTrainTimeout t k) s = .next (beginAt t s) := by
  rw [exec_linkTrainTimeout, h, Bool.not_true, Bool.and_false, Bool.false_and, if_neg Bool.false_ne_true]

end TrainTimeout

/-- Settles O46: the first timeout of an episode of training raises the event, a further one has no effect. -/
theorem trainTimeoutOnce : Obligations.TrainTimeoutOnce := by
  unfold Obligations.TrainTimeoutOnce
  intro t k s hk hstate ht
  exact ⟨linkTrainTimeout_raises hk hstate ht, exec_linkTrainTimeout_of_raised⟩

/-! ### A link leaves UP (R321, R345, R642) -/

theorem Keeps.no_run {w : List Group} {s n : State} (h : Keeps w s n) (hrun : inRun s = false)
    (hw : Group.mod ∉ w := by decide) : inRun n = false := by
  rw [inRun, h.mod_eq hw]
  exact hrun

/-- A link that has left UP for TRAINING with a cause (R345). -/
def leftUp (now cause : Nat) (x : Link) : Link :=
  { trained now x with
    downCause := cause, linkDowns := wrapInc 16 x.linkDowns
    heads := x.heads.map fun q => { q with brokenRaised := false } }

/-- A link that leaves UP if it is UP. -/
def leftIfUp (now cause : Nat) (x : Link) : Link := if x.state = .up then leftUp now cause x else x

/-- The state in which the event of link `k` leaving UP is raised. -/
def droppedLink (k cause : Nat) (s : State) : State := forgetOwner k (modLink k (leftUp s.now cause) s)

theorem droppedLink_keeps (k cause : Nat) (s : State) : Keeps [.fire, .links] s (droppedLink k cause s) :=
  ((modLink_keeps ..).mono (by decide)).then (forgetOwner_keeps ..) (by decide)

theorem leaveUp_eq (k cause : Nat) (s : State) : leaveUp k cause s =
    if cause = 6 || cause = 7 then raise 0x0411 (leBytes 1 k ++ leBytes 1 cause) (droppedLink k cause s)
    else sendTraining k (raise 0x0411 (leBytes 1 k ++ leBytes 1 cause) (droppedLink k cause s)) := rfl

section LeaveUp
variable {k cause : Nat} {s : State}

theorem leaveUp_link (k cause : Nat) (s : State) : LinkBecomes k (leftUp s.now cause) s (leaveUp k cause s) := by
  have hraised : LinkBecomes k (leftUp s.now cause) s
      (raise 0x0411 (leBytes 1 k ++ leBytes 1 cause) (droppedLink k cause s)) :=
    (LinkBecomes.then rfl (forgetOwner_keeps k _).links_eq).then (raise_keeps ..).links_eq
  rw [leaveUp_eq]
  split
  · exact hraised
  · exact hraised.then (sendTraining_keeps ..).links_eq

theorem leaveUp_raises (k cause : Nat) {s0 s : State} (hlog : s.log = s0.log) :
    RaisedNext s0 0x0411 (leBytes 1 k ++ leBytes 1 cause) (leaveUp k cause s) := by
  have hdropped := (droppedLink_keeps k cause s).log_eq.trans hlog
  rw [leaveUp_eq]
  split
  · exact raisedNext_raise _ _ hdropped
  · exact raisedNext_of_raise (k := 0) hdropped (sendTraining_keeps ..).addsNone

/-- Outside a run a link that leaves UP harms no bar (R321). -/
theorem linkLost_of_no_run (h : inRun s = false) : linkLost k s = s := if_pos (by rw [h]; rfl)

theorem farDown_of_no_loops (h : s.loops = []) : farDown k s = s := by
  rw [farDown, h]
  rfl

/-- Outside a run and with no loop-back, leaving UP is all that a link's loss means. -/
theorem downLink_of_up (hup : linkUp s k = true) (hrun : inRun s = false) (hloops : s.loops = []) :
    downLink k cause s = leaveUp k cause s := by
  have hkeeps := leaveUp_keeps k cause s
  rw [downLink, if_pos hup, dropLink, if_pos hup, linkLost_of_no_run (hkeeps.no_run hrun),
    farDown_of_no_loops (hkeeps.loops_eq.trans hloops)]

theorem downLink_of_not_up (h : linkUp s k = false) : downLink k cause s = s := if_neg (ne_true_of_eq_false h)

theorem downLink_keeps_of_no_run (hrun : inRun s = false) (hloops : s.loops = []) :
    Keeps [.log, .net, .fire, .links] s (downLink k cause s) := by
  by_cases hup : linkUp s k = true
  · rw [downLink_of_up hup hrun hloops]
    exact leaveUp_keeps ..
  · rw [downLink_of_not_up (eq_false_of_ne_true hup)]
    exact Keeps.refl ..

theorem downLink_link (hrun : inRun s = false) (hloops : s.loops = []) :
    LinkBecomes k (leftIfUp s.now cause) s (downLink k cause s) := by
  by_cases hup : linkUp s k = true
  · have hleft : leftIfUp s.now cause (linkOf s k) = leftUp s.now cause (linkOf s k) := if_pos (of_decide_eq_true hup)
    rw [downLink_of_up hup hrun hloops, LinkBecomes, modLink_congr hleft]
    exact leaveUp_link k cause s
  · have hstays : leftIfUp s.now cause (linkOf s k) = linkOf s k := if_neg (mt decide_eq_true hup)
    rw [downLink_of_not_up (eq_false_of_ne_true hup), LinkBecomes, modLink_of_fixed hstays]

end LeaveUp

/-! ### PLL_UNLOCK and PLL_RELOCK (R328) -/

/-- The links that a PLL drives. -/
def pllLinks (p : Nat) : List Nat := [4 * p, 4 * p + 1, 4 * p + 2, 4 * p + 3]

theorem mem_pllLinks {k p : Nat} : k ∈ pllLinks p ↔ k / 4 = p := by
  simp only [pllLinks, List.mem_cons, List.not_mem_nil, or_false]
  omega

theorem nodup_pllLinks (p : Nat) : (pllLinks p).Nodup := by simp [pllLinks]

/-- A PLL's lock is lost or found at a date. -/
def pllSet (t p : Nat) (locked : Bool) (s : State) : State :=
  { beginAt t s with links := { s.links with pll := s.links.pll.set p locked } }

theorem pllSet_keeps (t p : Nat) (locked : Bool) (s : State) : Keeps [.links] (beginAt t s) (pllSet t p locked s) :=
  set_links_keeps ..

section Pll
variable {t p : Nat} {s : State}

theorem exec_pllUnlock (hoff : s.mod.state ≠ .off) (hp : p < 4) : exec (.pllUnlock t p) s =
    .next (forEach (pllLinks p) (fun k => downLink k 6) (pllSet t p false s)) :=
  if_neg (by simp [hoff, hp])

theorem pllUnlock_downs (hoff : s.mod.state ≠ .off) (hp : p < 4) (hlen : s.links.links.length = 16) (hrun : inRun s = false)
    (hloops : s.loops = []) : Completes (.pllUnlock t p) s fun n =>
      n.links.pll = s.links.pll.set p false ∧
      (∀ k, k / 4 = p → linkUp s k = true → (linkOf n k).state = .training ∧ (linkOf n k).downCause = 6) ∧
      (∀ k, k / 4 = p → linkUp s k = false → linkOf n k = linkOf s k) ∧ (∀ k, k / 4 ≠ p → linkOf n k = linkOf s k) ∧
      Only [.clock, .links, .fire, .log, .net] s n := by
  have hkeeps (k : Nat) (m : State) (hm : Keeps [.log, .net, .fire, .links] (beginAt t s) m) :
      Keeps [.log, .net, .fire, .links] m (downLink k 6 m) :=
    downLink_keeps_of_no_run (hm.no_run hrun) (hm.loops_eq.trans hloops)
  have hop (k : Nat) (m : State) (hm : Keeps [.log, .net, .fire, .links] (beginAt t s) m) :
      LinkBecomes k (leftIfUp (max s.now t) 6) m (downLink k 6 m) := by
    have hlink := downLink_link (k := k) (cause := 6) (hm.no_run hrun) (hm.loops_eq.trans hloops)
    rwa [hm.now_eq] at hlink
  have hset : Keeps [.log, .net, .fire, .links] (beginAt t s) (pllSet t p false s) := (pllSet_keeps ..).mono (by decide)
  have hown (k : Nat) (hk : k / 4 = p) :
      linkOf (forEach (pllLinks p) (fun k => downLink k 6) (pllSet t p false s)) k =
        leftIfUp (max s.now t) 6 (linkOf s k) :=
    linkOf_forEach hkeeps hop (nodup_pllLinks p) (mem_pllLinks.mpr hk) hset (by show k < s.links.links.length; omega)
  refine ⟨_, exec_pllUnlock hoff hp, forEach_link_pll hkeeps hop _ hset, fun k hk hup => ?_, fun k hk hup => ?_, fun k hk =>
    linkOf_forEach_other hkeeps hop (mt mem_pllLinks.mp hk) hset, (forEach_keepsSince hkeeps _ hset).onlySince⟩
  · rw [hown k hk, leftIfUp, if_pos (of_decide_eq_true hup)]
    exact ⟨rfl, rfl⟩
  · rw [hown k hk, leftIfUp, if_neg (of_decide_eq_false hup)]

theorem startTraining_link (k : Nat) (s : State) : LinkBecomes k (trained s.now) s (startTraining k s) :=
  ((LinkBecomes.then rfl (forgetOwner_keeps k _).links_eq).then (startLanes_keeps k _).links_eq).then
    (sendTraining_keeps ..).links_eq

theorem exec_pllRelock (h : s.links.pll.getD p true = false) : exec (.pllRelock t p) s = .next
    (forEach ((pllLinks p).filter fun k => (linkOf s k).state = .training) startTraining (pllSet t p true s)) :=
  if_neg (ne_true_of_eq_false h)

theorem pllRelock_restarts (hp : p < 4) (hpll : s.links.pll.getD p true = false) (hlen : s.links.links.length = 16) :
    Completes (.pllRelock t p) s fun n =>
      n.links.pll = s.links.pll.set p true ∧
      (∀ k, k / 4 = p → (linkOf s k).state = .training → linkOf n k = trained n.now (linkOf s k)) ∧
      (∀ k, k / 4 ≠ p → linkOf n k = linkOf s k) ∧ Only [.clock, .links, .fire] s n := by
  have hkeeps (k : Nat) (m : State) (_ : Keeps [.fire, .links] (beginAt t s) m) :
      Keeps [.fire, .links] m (startTraining k m) := startTraining_keeps ..
  have hop (k : Nat) (m : State) (hm : Keeps [.fire, .links] (beginAt t s) m) :
      LinkBecomes k (trained (max s.now t)) m (startTraining k m) := by
    have hlink := startTraining_link k m
    rwa [hm.now_eq] at hlink
  have hset : Keeps [.fire, .links] (beginAt t s) (pllSet t p true s) := (pllSet_keeps ..).mono (by decide)
  have hend := forEach_keepsSince hkeeps ((pllLinks p).filter fun k => (linkOf s k).state = .training) hset
  refine ⟨_, exec_pllRelock hpll, forEach_link_pll hkeeps hop _ hset, fun k hk hstate => ?_, fun k hk => ?_, hend.onlySince⟩
  · rw [hend.now_eq]
    have hmem : k ∈ (pllLinks p).filter fun k => (linkOf s k).state = .training :=
      List.mem_filter.mpr ⟨mem_pllLinks.mpr hk, decide_eq_true hstate⟩
    exact linkOf_forEach hkeeps hop ((nodup_pllLinks p).filter _) hmem hset (by show k < s.links.links.length; omega)
  · exact linkOf_forEach_other hkeeps hop (fun hmem => hk (mem_pllLinks.mp (List.mem_filter.mp hmem).1)) hset

end Pll

/-- Settles O47: both commands act on the links of their PLL one after the other, and on each of them alone. -/
theorem pllsDriveTheirLinks : Obligations.PllsDriveTheirLinks := by
  unfold Obligations.PllsDriveTheirLinks
  exact ⟨fun t p s hoff hp _ hlen hrun hloops => pllUnlock_downs hoff hp hlen hrun hloops,
    fun t p s hp hpll hlen => pllRelock_restarts hp hpll hlen⟩

/-! ### What a lane carries (R329, R331) -/

/-- What a lane carries on the wire: its symbols since a date, and what it repeats after them. -/
def carried (x : FireLane) : Bool × List Symbol × Nat × LaneFill := (x.rd, x.stream, x.streamAt, x.fill)

section Carried
variable {s m : State} {g : Nat} (hnow : m.now = s.now) (h : carried (laneOf m g) = carried (laneOf s g))
include hnow h

theorem laneSent_of_carried : laneSent m g = laneSent s g := by
  obtain ⟨-, hstream, hat, -⟩ : _ ∧ _ ∧ _ ∧ _ := by simpa only [carried, Prod.mk.injEq] using h
  rw [laneSent, laneSent, hstream, hat, hnow]

theorem laneRest_of_carried : laneRest m g = laneRest s g := by
  have hstream : (laneOf m g).stream = (laneOf s g).stream := congrArg (fun c => c.2.1) h
  rw [laneRest, laneRest, laneSent_of_carried hnow h, hstream]

theorem laneDisparity_of_carried : laneDisparity m g = laneDisparity s g := by
  obtain ⟨hrd, hstream, -, hfill⟩ : _ ∧ _ ∧ _ ∧ _ := by simpa only [carried, Prod.mk.injEq] using h
  rw [laneDisparity, laneDisparity, laneSent_of_carried hnow h, hrd, hstream, hfill]

end Carried

/-- The record of the last OWNER frame is none of a lane's symbols. -/
theorem carried_ownerSent (o : Option Nat) (c g : Nat) (s : State) :
    carried (laneOf (modLane c (fun x => { x with ownerSent := o }) s) g) = carried (laneOf s g) := by
  rw [laneOf, modLane_fire_lanes, getD_modify]
  split <;> rfl

theorem carried_forgetOwner (k g : Nat) (s : State) : carried (laneOf (forgetOwner k s) g) = carried (laneOf s g) :=
  forEach_eq (v := fun m => carried (laneOf m g)) (fun c m => carried_ownerSent none c g m) _ s

/-! ### LINK_UP_LOST and STATUS_TIMEOUT (R339, R345) -/

/-- What the lanes of a link in TRAINING repeat (R339, R346). -/
def trainingFill (k : Nat) (s : State) : LaneFill :=
  if (barOf s (k / 2)).haltCause ≠ 0 && drives s then .haltTraining else .training

/-- Each lane of a link whose PLL is locked is given its training block. -/
theorem sendTraining_sends {k l : Nat} {s : State} (hpll : linkPll s k = true) (hl : l < 3) :
    LaneSends s (3 * k + l) (trainingBlock k l) (sendTraining k s) := by
  have hlanes : sendTraining k s = forEach [3 * k + 0, 3 * k + 1, 3 * k + 2]
      (giveLane (fun _ _ => trainingFill k s) fun g _ => trainingBlock k (g - 3 * k)) s := by
    rw [sendTraining, hpll, Bool.not_true, if_neg Bool.false_ne_true]
    simp only [forEach, giveLane, List.foldl_cons, List.foldl_nil, Nat.add_sub_cancel_left]
    rfl
  have hmem : 3 * k + l ∈ [3 * k + 0, 3 * k + 1, 3 * k + 2] := by
    simp only [List.mem_cons, List.not_mem_nil, or_false]
    omega
  have hsends := forEach_giveLane_sends (fun _ _ => trainingFill k s) (l := fun g _ => trainingBlock k (g - 3 * k))
    (fun _ _ => rfl) hmem s
  rwa [← hlanes, Nat.add_sub_cancel_left] at hsends

theorem leaveUp_sends {k cause l : Nat} {s : State} (hcause : (cause = 6 || cause = 7) = false) (hpll : linkPll s k = true)
    (hl : l < 3) : LaneSends s (3 * k + l) (trainingBlock k l) (leaveUp k cause s) := by
  let m := raise 0x0411 (leBytes 1 k ++ leBytes 1 cause) (droppedLink k cause s)
  have hraised : Keeps [.log, .net] (droppedLink k cause s) m := raise_keeps ..
  have hpllm : linkPll m k = true := by
    rw [linkPll, hraised.links_eq]
    exact (congrArg (fun x : Links => x.pll.getD (k / 4) true) (forgetOwner_keeps k _).links_eq).trans hpll
  have hnow : m.now = s.now := hraised.now_eq.trans (droppedLink_keeps k cause s).now_eq
  have hlane : carried (laneOf m (3 * k + l)) = carried (laneOf s (3 * k + l)) := by
    rw [laneOf, hraised.fire_eq]
    exact carried_forgetOwner k (3 * k + l) _
  have hsends := sendTraining_sends hpllm hl
  rw [LaneSends, laneDisparity_of_carried hnow hlane] at hsends
  rwa [leaveUp_eq, hcause, if_neg Bool.false_ne_true]

section LinkDown
variable {t k since : Nat} {s : State}

theorem exec_linkUpLost (ht : since + usT 10 ≤ t) :
    exec (.linkUpLost t k since) s = .next (downLink k 1 (beginAt t s)) :=
  congrArg Host.Outcome.next (if_pos (Nat.le_trans ht (Nat.le_max_right s.now t)))

theorem exec_statusTimeout (ht : (linkOf s k).lastStatus + usT (cfgN s Fld.heads_status_timeout 0) ≤ t) :
    exec (.statusTimeout t k) s = .next (downLink k 2 (beginAt t s)) :=
  congrArg Host.Outcome.next (if_pos (Nat.le_trans ht (Nat.le_max_right s.now t)))

variable (hup : linkUp s k = true) (hrun : inRun s = false) (hloops : s.loops = [])
include hup hrun hloops

/-- A command that takes link `k` out of UP for a cause, outside a run and with no loop-back. -/
theorem completes_of_downLink {i : Instr} {cause : Nat} (hcause : (cause = 6 || cause = 7) = false)
    (hexec : exec i s = .next (downLink k cause (beginAt t s))) : Completes i s fun n =>
      (linkOf n k).state = .training ∧ (linkOf n k).downCause = cause ∧
      (linkOf n k).linkDowns = wrapInc 16 (linkOf s k).linkDowns ∧
      (linkPll s k = true → ∀ l, l < 3 → LaneSends (beginAt t s) (3 * k + l) (trainingBlock k l) n) ∧
      RaisedNext s 0x0411 (leBytes 1 k ++ leBytes 1 cause) n ∧ (∀ j, j ≠ k → linkOf n j = linkOf s j) ∧
      Only [.clock, .links, .fire, .log, .net] s n := by
  rw [downLink_of_up (s := beginAt t s) hup hrun hloops] at hexec
  have hlink := leaveUp_link k cause (beginAt t s)
  have hown : linkOf _ k = leftUp (max s.now t) cause (linkOf s k) := hlink.own (lt_length_of_linkUp (s := s) hup)
  refine ⟨_, hexec, ?_, ?_, ?_, fun hpll l hl => leaveUp_sends hcause hpll hl, leaveUp_raises k cause rfl,
    fun j hj => hlink.other hj, (leaveUp_keeps ..).onlySince⟩ <;> rw [hown] <;> rfl

end LinkDown

/-! ### OWNER_FRAME_DUE (R337, R338, R644) -/

section OwnerFrame
variable {t g : Nat} {s : State}

theorem sendClaim_sent (before : List Symbol) (g : Nat) (s : State) : (sendClaim before g s).sent = s.sent ++
    [.lane g (laneDisparity s g) (laneRest s g ++ (before ++ frameSymbols (ownerFrame s (g / 3)) ++ [kComma]))] := by
  have hlane := carried_ownerSent (some (claimWord s)) g g s
  have hnow : (modLane g (fun x => { x with ownerSent := some (claimWord s) }) s).now = s.now := rfl
  rw [← laneDisparity_of_carried hnow hlane, ← laneRest_of_carried hnow hlane]
  rfl

theorem laneOf_sendClaim (before : List Symbol) (h : g < s.fire.lanes.length) :
    (laneOf (sendClaim before g s) g).ownerSent = some (claimWord s) ∧
    (laneOf (sendClaim before g s) g).buffer = (laneOf s g).buffer := by
  have hput : laneOf (sendClaim before g s) g = _ :=
    laneOf_modLane _ (s := modLane g _ s) (Nat.lt_of_lt_of_eq h (List.length_modify ..).symm)
  rw [hput, laneOf_modLane _ h]
  exact ⟨rfl, rfl⟩

theorem laneOf_sendClaim_other (before : List Symbol) {h : Nat} (hg : h ≠ g) : laneOf (sendClaim before g s) h = laneOf s h :=
  (laneOf_putSymbols_other _ _ _ hg).trans (laneOf_modLane_other _ s hg)

theorem exec_ownerFrameDue (hg : g < 48) (hup : linkUp s (g / 3) = true) (hfree : packetOnLane (beginAt t s) g = false) :
    exec (.ownerFrameDue t g) s = .next (sendOwner g (beginAt t s)) := by
  have hup' : linkUp (beginAt t s) (g / 3) = true := hup
  exact congrArg Host.Outcome.next (if_pos (by rw [hup', hfree, decide_eq_true hg]; rfl))

theorem ownerFrameDue_claims (hg : g < 48) (hlane : g < s.fire.lanes.length) (hup : linkUp s (g / 3) = true)
    (hfree : packetOnLane (beginAt t s) g = false) (hfar : farLoop s (g / 3) = none) :
    Completes (.ownerFrameDue t g) s fun n =>
      n.sent = [.lane g (laneDisparity (beginAt t s) g)
        (laneRest (beginAt t s) g ++ (frameSymbols (ownerFrame s (g / 3)) ++ [kComma]))] ∧
      (laneOf n g).ownerSent = some (claimWord s) ∧ (laneOf n g).buffer = (laneOf s g).buffer ∧
      (∀ h, h ≠ g → laneOf n h = laneOf s h) ∧ Only [.clock, .fire] s n := by
  have hsend : sendOwner g (beginAt t s) = sendClaim [] g (beginAt t s) := by
    have hfar' : farLoop (beginAt t s) (g / 3) = none := hfar
    rw [sendOwner, hfar']
  have hexec := (exec_ownerFrameDue hg hup hfree).trans (congrArg Host.Outcome.next hsend)
  obtain ⟨hclaim, hbuffer⟩ := laneOf_sendClaim (s := beginAt t s) [] hlane
  exact ⟨_, hexec, sendClaim_sent .., hclaim, hbuffer, fun h hh => laneOf_sendClaim_other [] hh,
    (sendClaim_keeps ..).onlySince⟩

theorem length_leBytes (n v : Nat) : (leBytes n v).length = n := by
  induction n generalizing v with
  | zero => rfl
  | succ n ih => exact congrArg (· + 1) (ih _)

theorem length_prbsBytes (taps : Nat × Nat) (n : Nat) (l : List Byte) (r : Nat) :
    (prbsBytes taps n l r).1.length = l.length + n := by
  induction n generalizing l r with
  | zero => exact List.length_reverse
  | succ n ih => rw [prbsBytes, ih, List.length_cons, Nat.add_right_comm, Nat.add_assoc]

/-- The LOOP frame that a FAR loop-back sends next on one of its data lanes (*Table: LOOP frame*). -/
def loopFrame (l : Loop) (lane : Nat) : List Byte :=
  leBytes 1 0x11 ++ leBytes 1 lane ++ leBytes 2 0 ++ leBytes 4 (l.generators.getD lane (0, 1)).1 ++
    (prbsBytes (prbsTaps l.pattern) 4096 [] (l.generators.getD lane (0, 1)).2).1

theorem length_loopFrame (l : Loop) (lane : Nat) : (loopFrame l lane).length = 4104 := by
  simp only [loopFrame, List.length_append, length_leBytes, length_prbsBytes, List.length_nil]

theorem take_loopFrame (l : Loop) (lane : Nat) : (loopFrame l lane).take 4 = [0x11, BitVec.ofNat 8 lane, 0, 0] := rfl

/-- A loop-back that runs over a link is one of that link. -/
theorem index_of_farLoop {k : Nat} {l : Loop} (h : farLoop s k = some l) : l.index = k := by
  have hfound := List.find?_some h
  simp only [Bool.and_eq_true, decide_eq_true_eq] at hfound
  exact hfound.1.2

/-- The lane of link `g / 3` that the LOOP frame goes out on is `g`; the loop-back's generator is the only other change. -/
theorem sendOwner_of_farLoop {l : Loop} (h : farLoop s (g / 3) = some l) : ∃ f : Loop → Loop,
    sendOwner g s = sendClaim (frameSymbols (loopFrame l (g % 3)) ++ [kComma]) g (modLoop l.ticket f s) := by
  have hlane : 3 * l.index + g % 3 = g := by rw [index_of_farLoop h]; omega
  rw [sendOwner, h]
  dsimp only
  rw [sendLoop, hlane]
  exact ⟨_, rfl⟩

theorem ownerFrameDue_loops (hg : g < 48) (hlane : g < s.fire.lanes.length) (hup : linkUp s (g / 3) = true)
    (hfree : packetOnLane (beginAt t s) g = false) {l : Loop} (hfar : farLoop s (g / 3) = some l) :
    Completes (.ownerFrameDue t g) s fun n =>
      ∃ loop, n.sent = [.lane g (laneDisparity (beginAt t s) g) (laneRest (beginAt t s) g ++
          (frameSymbols loop ++ [kComma] ++ frameSymbols (ownerFrame s (g / 3)) ++ [kComma]))] ∧
        loop.length = 4104 ∧ loop.take 4 = [0x11, BitVec.ofNat 8 (g % 3), 0, 0] ∧
        (laneOf n g).ownerSent = some (claimWord s) ∧ Only [.clock, .fire, .loops] s n := by
  have hexec := exec_ownerFrameDue hg hup hfree
  have honly := (execOwnerFrameDue_keeps t g s _ hexec).onlySince (w := [.clock, .fire, .loops])
  obtain ⟨f, hsend⟩ := sendOwner_of_farLoop (s := beginAt t s) hfar
  rw [hsend] at hexec honly
  exact ⟨_, hexec, _, sendClaim_sent .., length_loopFrame l (g % 3), take_loopFrame l (g % 3),
    (laneOf_sendClaim (s := modLoop l.ticket f (beginAt t s)) _ hlane).1, honly⟩

end OwnerFrame

/-! ### LINK_STATUS_FRAME (R330 to R332, R342) -/

/-- The stray symbols before a frame are counted (R330). -/
def straysCounted (between : List Symbol) (x : Link) : Link :=
  { x with strays := (x.strays + (between.filter isStray).length) % 65536 }

/-- What a frame reports is noted, so that its events come once in an episode of training (R344). -/
def frameNoted (f : List Byte) (x : Link) : Link :=
  { x with miscabled := some (fld f 8 1), countRaised := some (fld f 11 1) }

/-- A link that comes UP; it may have missed the start of a slot (R342, R346). -/
def cameUp (missed : Bool) (x : Link) : Link := { x with state := .up, goodFrames := 0, joinNext := missed }

section StatusFrame
variable {t k : Nat} {inverted : Bool} {between frame : List Symbol} {f : List Byte} {s : State}

theorem exec_linkStatusFrame_bad (hk : k < 16) (hstate : (linkOf s k).state ≠ .disabled) (hframe : frame ≠ [])
    (hbad : (readFrame frame).filter statusValid = none) : exec (.linkStatusFrame t k inverted between frame) s = .next
      (modLink k (fun x => { x with statusBad := wrapInc 16 x.statusBad })
        (modLink k (straysCounted between) (beginAt t s))) := by
  have hlink : ¬ (16 ≤ k || (linkOf (beginAt t s) k).state = .disabled) = true := by
    have hstate' : (linkOf (beginAt t s) k).state ≠ .disabled := hstate
    simp [hk, hstate']
  refine (if_neg hlink).trans ?_
  rw [hbad]
  exact congrArg Host.Outcome.next (if_neg (by simp [hframe]))

theorem linkStatusFrame_bad (hk : k < 16) (hlen : s.links.links.length = 16) (hstate : (linkOf s k).state ≠ .disabled)
    (hframe : frame ≠ []) (hbad : (readFrame frame).filter statusValid = none) :
    Completes (.linkStatusFrame t k inverted between frame) s fun n =>
      linkOf n k = { linkOf s k with
        strays := ((linkOf s k).strays + (between.filter isStray).length) % 65536
        statusBad := wrapInc 16 (linkOf s k).statusBad } ∧
      (∀ j, j ≠ k → linkOf n j = linkOf s j) ∧ n.sent = [] ∧ Only [.clock, .links] s n := by
  have hexec := exec_linkStatusFrame_bad (t := t) (inverted := inverted) (between := between) hk hstate hframe hbad
  rw [modLink_modLink] at hexec
  exact ⟨_, hexec, linkOf_modLink _ (s := beginAt t s) (Nat.lt_of_lt_of_eq hk hlen.symm),
    fun j hj => linkOf_modLink_other _ (beginAt t s) hj, rfl, (modLink_keeps ..).onlySince⟩

theorem exec_linkStatusFrame_training (hk : k < 16) (hstate : (linkOf s k).state = .training)
    (hread : readFrame frame = some f) (hvalid : statusValid f = true) :
    exec (.linkStatusFrame t k inverted between frame) s = .next (ownerCheck k f (trainingFrame k f
      (statusReports k inverted f (modLink k (straysCounted between) (beginAt t s))))) := by
  have hstate' : (linkOf (beginAt t s) k).state = .training := hstate
  have hlink : ¬ (16 ≤ k || (linkOf (beginAt t s) k).state = .disabled) = true := by simp [hk, hstate']
  refine (if_neg hlink).trans ?_
  rw [hread, Option.filter_some, if_pos hvalid]
  dsimp only
  rw [hstate']
  rfl

/-- A frame that reports no further CRC error and the same owner as before raises no event (R701). -/
theorem statusReports_of_same (hcrc : fld f 22 2 = (linkOf s k).crcErrors)
    (howner : sameOwner (fld f 12 4) (linkOf s k).ownerSeen = true) :
    statusReports k inverted f s = modLink k (takeStatus s.now inverted f) s := by
  have hgrown : (fld f 22 2 + 65536 - (linkOf s k).crcErrors) % 65536 = 0 := by
    rw [hcrc, Nat.add_sub_cancel_left]
  rw [statusReports, hgrown, howner, if_pos rfl]
  rfl

theorem statusMeets_iff : statusMeets s k f = true ↔
    statusAligned f = true ∧ fld f 8 1 = 4 * k ∧ fld f 11 1 = (headsOf s.conf.cfg k).length := by
  rw [statusMeets, Bool.and_eq_true, Bool.and_eq_true, decide_eq_true_eq, decide_eq_true_eq, and_assoc]

/-- A frame that meets R342 shows neither LINK_MISCABLED nor HEAD_COUNT_MISMATCH (R344). -/
theorem trainingEvents_of_meets (h : statusMeets s k f = true) : trainingEvents k f s = modLink k (frameNoted f) s := by
  obtain ⟨-, hident, hcount⟩ := statusMeets_iff.mp h
  have hcabled : (fld f 8 1 = 4 * k || (linkOf s k).miscabled = some (fld f 8 1)) = true := by
    rw [decide_eq_true hident, Bool.true_or]
  have hcounted : (fld f 11 1 = (headsOf s.conf.cfg k).length || (linkOf s k).countRaised = some (fld f 11 1)) = true := by
    rw [decide_eq_true hcount, Bool.true_or]
  rw [trainingEvents, if_pos hcabled]
  exact if_pos hcounted

theorem trainingFrame_third (hmeets : statusMeets s k f = true) (hpll : linkPll s k = true)
    (hk : k < s.links.links.length) (hgood : 2 ≤ (linkOf s k).goodFrames) :
    trainingFrame k f s = comeUp k f (modLink k (frameNoted f) s) := by
  have hmeets' : (statusMeets (modLink k (frameNoted f) s) k f && linkPll (modLink k (frameNoted f) s) k) = true :=
    Bool.and_eq_true_iff.mpr ⟨hmeets, hpll⟩
  have hgood' : 2 ≤ (linkOf (modLink k (frameNoted f) s) k).goodFrames := by rw [linkOf_modLink _ hk]; exact hgood
  rw [trainingFrame, trainingEvents_of_meets hmeets, if_pos hmeets', if_pos hgood']

theorem comeUp_link (k : Nat) (f : List Byte) (s : State) : LinkBecomes k (cameUp (slotUnderWay s k)) s (comeUp k f s) :=
  (LinkBecomes.then rfl (raise_keeps ..).links_eq).then (endTraining_keeps ..).links_eq

theorem comeUp_raises (k : Nat) (f : List Byte) {s0 s : State} (hlog : s.log = s0.log) :
    RaisedNext s0 0x0410 (leBytes 1 k ++ leBytes 4 (fld f 4 4) ++ leBytes 1 (b2n ((fld f 1 1).testBit 3))) (comeUp k f s) :=
  raisedNext_of_raise (s := modLink k (cameUp (slotUnderWay s k)) s) hlog (endTraining_keeps ..).addsNone

theorem ownerCheck_of_noOwner (h : fld f 12 4 = noOwner) : ownerCheck k f s = s := if_pos (by simp [otherOwner, h])

/-- What the third good frame in a row makes of its link before that comes UP. -/
def thirdFrame (now : Nat) (inverted : Bool) (between : List Symbol) (f : List Byte) (x : Link) : Link :=
  frameNoted f (takeStatus now inverted f (straysCounted between x))

section Third
variable (hk : k < 16) (hlen : s.links.links.length = 16) (hstate : (linkOf s k).state = .training)
  (hgood : 2 ≤ (linkOf s k).goodFrames) (hread : readFrame frame = some f) (hvalid : statusValid f = true)
  (hmeets : statusMeets s k f = true) (hpll : linkPll s k = true) (hcrc : fld f 22 2 = (linkOf s k).crcErrors)
  (howner : fld f 12 4 = noOwner) (hseen : (linkOf s k).ownerSeen = noOwner)
include hk hlen hstate hgood hread hvalid hmeets hpll hcrc howner hseen

theorem exec_linkStatusFrame_third : exec (.linkStatusFrame t k inverted between frame) s = .next
    (comeUp k f (modLink k (thirdFrame (max s.now t) inverted between f) (beginAt t s))) := by
  let s2 := modLink k (straysCounted between) (beginAt t s)
  let s3 := modLink k (takeStatus s2.now inverted f) s2
  have hlen1 : k < (beginAt t s).links.links.length := Nat.lt_of_lt_of_eq hk hlen.symm
  have hlen2 : k < s2.links.links.length := Nat.lt_of_lt_of_eq hlen1 (List.length_modify ..).symm
  have hx : linkOf s2 k = straysCounted between (linkOf s k) := linkOf_modLink _ hlen1
  have howner2 : sameOwner (fld f 12 4) (linkOf s2 k).ownerSeen = true := by
    have hseen2 : (linkOf s2 k).ownerSeen = noOwner := by rw [hx]; exact hseen
    rw [howner, hseen2]
    rfl
  have hgood3 : 2 ≤ (linkOf s3 k).goodFrames := by
    rw [linkOf_modLink _ hlen2, hx]
    exact hgood
  have hframe : trainingFrame k f s3 = comeUp k f (modLink k (frameNoted f) s3) :=
    trainingFrame_third hmeets hpll (Nat.lt_of_lt_of_eq hlen2 (List.length_modify ..).symm) hgood3
  rw [exec_linkStatusFrame_training hk hstate hread hvalid, statusReports_of_same (by rw [hx]; exact hcrc) howner2, hframe,
    ownerCheck_of_noOwner howner, modLink_modLink, modLink_modLink]
  rfl

theorem linkStatusFrame_up : Completes (.linkStatusFrame t k inverted between frame) s fun n =>
    (linkOf n k).state = .up ∧ (linkOf n k).carrierId = fld f 4 4 ∧ (linkOf n k).lastStatus = n.now ∧
    (linkOf n k).upInverted = inverted ∧
    (linkOf n k).strays = ((linkOf s k).strays + (between.filter isStray).length) % 65536 ∧
    RaisedNext s 0x0410 (leBytes 1 k ++ leBytes 4 (fld f 4 4) ++ leBytes 1 (b2n ((fld f 1 1).testBit 3))) n ∧
    (∀ j, j ≠ k → linkOf n j = linkOf s j) ∧ Only [.clock, .links, .fire, .log, .net] s n := by
  let m := modLink k (thirdFrame (max s.now t) inverted between f) (beginAt t s)
  have hlink := (show LinkBecomes k _ (beginAt t s) m from rfl).thenLink (comeUp_link k f m)
  have hown := hlink.own (Nat.lt_of_lt_of_eq hk hlen.symm)
  have hkeeps : Keeps [.log, .net, .fire, .links] (beginAt t s) (comeUp k f m) :=
    ((modLink_keeps ..).mono (by decide)).then (comeUp_keeps ..) (by decide)
  refine ⟨_, exec_linkStatusFrame_third hk hlen hstate hgood hread hvalid hmeets hpll hcrc howner hseen, ?_, ?_, ?_, ?_, ?_,
    comeUp_raises k f rfl, fun j hj => hlink.other hj, hkeeps.onlySince⟩ <;> rw [hown]
  · rfl
  · rfl
  · rw [hkeeps.now_eq]
    rfl
  · rfl
  · rfl

end Third

end StatusFrame

/-- Settles O45: each clause is the lemma on its command and case; both losses of a link are its leaving UP with a cause. -/
theorem linksComeAndGo : Obligations.LinksComeAndGo := by
  unfold Obligations.LinksComeAndGo
  refine ⟨?_, ?_, ?_, ?_, ?_⟩
  · intro t k inverted between frame f s hk hlen hstate hgood hread hvalid hmeets hpll hcrc howner hseen
    exact linkStatusFrame_up hk hlen hstate hgood hread hvalid hmeets hpll hcrc howner hseen
  · intro t k inverted between frame s hk hlen hstate hframe hbad
    exact linkStatusFrame_bad hk hlen hstate hframe hbad
  · intro t k since s _ hup ht hrun hloops
    exact completes_of_downLink hup hrun hloops rfl (exec_linkUpLost ht)
  · intro t k s _ hup ht hrun hloops
    obtain ⟨n, hexec, hstate, hcause, -, -, hraised, hothers, honly⟩ :=
      completes_of_downLink hup hrun hloops rfl (exec_statusTimeout ht)
    exact ⟨n, hexec, hstate, hcause, hraised, hothers, honly⟩
  · intro t g s hg hlane hup hfree
    exact ⟨ownerFrameDue_claims hg hlane hup hfree, fun l hfar => ownerFrameDue_loops hg hlane hup hfree hfar⟩

end Sys2Proof.Machine
end

section
/-! Proof on the statement of the camera ports (12_inspection_cameras.md): what an acknowledged register write leads to where a frame
has ended and waits for it (O48). -/
namespace Sys2Proof.Machine
open Sys2Proof

-- As in the sections before: checked in parallel, the whole text takes more threads than the memory limit leaves room for.
set_option Elab.async false

/-- A command of camera settings that trigger 1 has committed, and whose register write has no answer yet (R375, R377). -/
def writeOpen : CamCommand :=
  { gen := 1, exposure := 1000, gain := 256, writtenAt := 0, commit := some 1, acked := false, failed := false }

/-- A frame of trigger 1 whose header has come, with tag 9, but none of its lines. -/
def taggedFrame : CamFrame := { (default : CamFrame) with trigger := 1, header := some (2048, 8, 9) }

/-- A module in IDLE, alone. On camera 0 the frame of trigger 1 has ended and waits for the answer to the write (R377, R381); the
frame before it had tag 7, so that tag 8 is expected of it (R378). -/
def frameWaits : State := { State.reset with
  mod := { state := .idle }, power := { domainsOn := [0, 1, 8] }, pair := { state := .solo }
  cams := [{ state := .ready, connections := 1, triggers := 2, tag := some 7, commands := [writeOpen], nextGen := 2
             ended := some taggedFrame }, {}, {}, {}] }

/-- The acknowledgement finishes the frame: its tag is not the expected one, and event 0x0916 is raised (R378). -/
theorem cameraWriteAck_finishes : ∃ n, exec (.cameraWriteAck 0 0 1 true) frameWaits = .next n ∧
    (camOf n 0).ended = none ∧ RaisedNext frameWaits 0x0916 (leBytes 1 0 ++ leBytes 2 8 ++ leBytes 2 9) n :=
  ⟨_, rfl, by unfold RaisedNext; decide +kernel⟩

/-- Refutes O48: where an ended frame waits for the acknowledged write, and for no other, the acknowledgement finishes that frame,
which can raise event 0x0916 (R377, R378), and no premise of the clause on acknowledged writes leaves that case out. -/
theorem not_cameraPortsAndFrames : ¬ Obligations.CameraPortsAndFrames := by
  rintro ⟨-, -, -, -, -, -, -, hack⟩
  obtain ⟨n, hn, -, -, -, honly⟩ := hack 0 0 1 writeOpen frameWaits (by decide) (by decide)
  obtain ⟨m, hm, -, e, he, -⟩ := cameraWriteAck_finishes
  cases hn.symm.trans hm
  have hlog : n.log = frameWaits.log := honly.same .log (by decide)
  rw [hlog] at he
  exact absurd he List.not_mem_nil

end Sys2Proof.Machine
end

section
/-! Proofs of the statement on CAL_REQUEST (13_calibration_loop.md, O27): RUN_NOW by the module's state, FREEZE and THAW, and RESET of
the registration taps with no run armed. First what the decisions of a settled module leave alone. -/
namespace Sys2Proof.Machine
open Sys2Proof

-- As in the sections before: checked in parallel, the whole text takes more threads than the memory limit leaves room for.
set_option Elab.async false

/-! ### Who takes decisions (R507, R508) -/

/-- Of what the pair keeps, that which tells whether the module decides by itself. -/
def partnerSeen (s : State) : PairState × Bool × Nat := (s.pair.state, s.pair.absent, s.pair.peerState)

theorem Settled.of_partnerSeen_eq {s n : State} (h : Settled s) (hn : partnerSeen n = partnerSeen s) : Settled n := by
  obtain ⟨hstate, habsent, hpeer⟩ : n.pair.state = s.pair.state ∧ n.pair.absent = s.pair.absent ∧
      n.pair.peerState = s.pair.peerState := by simpa [partnerSeen] using hn
  unfold Settled follows partnerTakes
  rw [hstate, habsent, hpeer]
  exact h

theorem partnerSeen_of_pair_eq {s n : State} (h : n.pair = s.pair) : partnerSeen n = partnerSeen s := by
  unfold partnerSeen; rw [h]

theorem partnerSeen_sendToken (kind : Nat) (body : List Byte) (s : State) :
    partnerSeen (sendToken kind body s) = partnerSeen s := by
  unfold sendToken
  split <;> rfl

theorem partnerSeen_sendOrder (group : Bool) (session msg type : Nat) (payload : List Byte) (s : State) :
    partnerSeen (sendOrder group session msg type payload s) = partnerSeen s := by
  unfold sendOrder
  split <;> rfl

/-- A message's turn does not change whether the module decides by itself. -/
theorem Settled.atTurn {t i type : Nat} {src : Src} {payload : List Byte} {s : State} (h : Settled s) :
    Settled (atTurn t src type payload i s) :=
  h.of_partnerSeen_eq ((partnerSeen_sendOrder ..).trans (partnerSeen_of_pair_eq (s := beginAt t s) (takeTurn_keeps ..).pair_eq))

/-- A module that decides by itself can answer a request from the moment at which its result is pending. -/
theorem addPending_answerable (k kind : Nat) {s : State} (h : Settled s) : Answerable k (addPending k kind s) :=
  ⟨h, _, List.mem_append_right _ (List.mem_singleton.mpr rfl), rfl, rfl, rfl, rfl⟩

/-! ### RUN_NOW (R396, R416) -/

/-- What a RUN_NOW asks for, none of whose elements has answered. -/
def runNowAsked (p : List Byte) : RunNow :=
  { ticket := fld p 0 4, kinds := fld p 5 1 % 64, bars := fld p 6 1, accepted := List.replicate 6 0
    disagreed := List.replicate 6 0, done := [] }

/-- The kinds that a RUN_NOW selects are due, and it waits, alone. -/
def madeDue (p : List Byte) (s : State) : State :=
  { s with cal := { s.cal with due := s.cal.due ||| (fld p 5 1 % 64), runNow := [runNowAsked p] } }

/-- A RUN_NOW that selects an element is not over at once. -/
theorem calRunNow_waits {p : List Byte} {s : State} (hnone : s.cal.runNow = [])
    (hsel : selectedElements s (fld p 5 1 % 64) (fld p 6 1) ≠ []) : calRunNow p s = madeDue p s := by
  have hasked : calRunNow p s = settleRunNow (madeDue p s) := by
    unfold calRunNow
    rw [hnone]
    rfl
  have hopen : (selectedElements (madeDue p s) (runNowAsked p).kinds (runNowAsked p).bars).all (runNowAsked p).done.contains =
      false := by
    obtain ⟨e, l, hl⟩ := List.exists_cons_of_ne_nil hsel
    have hl' : selectedElements (madeDue p s) (runNowAsked p).kinds (runNowAsked p).bars = e :: l := hl
    rw [hl']
    rfl
  have hkept : (madeDue p s).cal.runNow = [runNowAsked p] := rfl
  rw [hasked, settleRunNow, hkept]
  simp only [List.filter_cons, hopen, List.filter_nil]
  rfl

theorem msgCalRequest_runNow {i : Nat} {p : List Byte} {s : State} (haction : fld p 4 1 = 0)
    (hst : s.mod.state = .armed ∨ s.mod.state = .print) :
    msgCalRequest i p s = .ok (calRunNow p (addPending (fld p 0 4) 0x2C s)) := by
  unfold msgCalRequest calAction
  rw [haction]
  exact if_pos (by simpa using hst)

theorem msgCalRequest_wrongState {i : Nat} {p : List Byte} {s : State} (haction : fld p 4 1 = 0)
    (harmed : s.mod.state ≠ .armed) (hprint : s.mod.state ≠ .print) :
    msgCalRequest i p s = .error (reasonWrongState, 0) := by
  unfold msgCalRequest calAction
  rw [haction]
  exact if_neg (by simp [harmed, hprint])

/-! ### FREEZE and THAW (R411) -/

theorem msgCalRequest_freeze {i : Nat} {p : List Byte} {s : State} (haction : fld p 4 1 = 1) :
    msgCalRequest i p s = .ok (calDone (fld p 0 4) (setFrozen true (addPending (fld p 0 4) 0x2C s))) := by
  unfold msgCalRequest calAction
  rw [haction]
  rfl

theorem msgCalRequest_thaw {i : Nat} {p : List Byte} {s : State} (haction : fld p 4 1 = 2) :
    msgCalRequest i p s = .ok (calDone (fld p 0 4) (setFrozen false (addPending (fld p 0 4) 0x2C s))) := by
  unfold msgCalRequest calAction
  rw [haction]
  rfl

/-! ### RESET of registration taps (R417) -/

theorem msgCalRequest_reset {i : Nat} {p : List Byte} {s : State} (haction : fld p 4 1 = 3) :
    msgCalRequest i p s = .ok (calDone (fld p 0 4) (calReset p (addPending (fld p 0 4) 0x2C s))) := by
  unfold msgCalRequest calAction
  rw [haction]
  rfl

/-- Of the accepted values, all but the registration taps and the versions. -/
def regless (q : CalValues) : CalValues := { q with reg := [], versions := [] }

theorem regless_eq_iff {a b : CalValues} :
    regless a = regless b ↔ a.taps = b.taps ∧ a.dead = b.dead ∧ a.rank = b.rank ∧ a.tone = b.tone := by
  simp [regless]

theorem installValue_reg_regless (b n : Nat) (v : List Int) (s : State) :
    regless (installValue ⟨4, b, n⟩ v s).cal.values = regless s.cal.values := by
  unfold installValue
  rw [putValue_reg, nozzleEvent, if_pos (by simp)]
  rfl

/-- With no run armed, and no partner that takes decisions, the value of a registration tap is in force once its token is sent (R412,
R508). -/
theorem sendTap_reg (b n : Nat) (v : Int) {s : State} (hset : Settled s) (hrun : s.jobs.armed = none) :
    ∃ body, sendTap ⟨4, b, n⟩ [v] s = installValue ⟨4, b, n⟩ [v] (sendToken 0x05 body s) := by
  refine ⟨_, (if_neg (ne_true_of_eq_false hset.2)).trans (applyTap_reg_of_unarmed b n [v] ?_)⟩
  rw [(sendToken_keeps ..).jobs_eq]
  exact hrun

/-- From `s` to `n` the registration taps of these bars have gone back to 0, and no other value has changed. -/
structure RegsReset (bars : List Nat) (s n : State) : Prop where
  keeps : Keeps [.cal, .pair] s n
  partner : partnerSeen n = partnerSeen s
  reg : ∀ b, n.cal.values.reg.getD b 0 = if b ∈ bars then 0 else s.cal.values.reg.getD b 0
  others : regless n.cal.values = regless s.cal.values

theorem RegsReset.refl (s : State) : RegsReset [] s s := ⟨.refl _ s, rfl, fun _ => (if_neg List.not_mem_nil).symm, rfl⟩

theorem RegsReset.trans {l k : List Nat} {a b c : State} (h1 : RegsReset l a b) (h2 : RegsReset k b c) : RegsReset (l ++ k) a c := by
  refine ⟨h1.keeps.then h2.keeps (List.Subset.refl _), h2.partner.trans h1.partner, fun j => ?_, h2.others.trans h1.others⟩
  rw [h2.reg, h1.reg]
  by_cases hk : j ∈ k <;> simp [hk]

/-- The start value of a registration tap is 0, and it is in force at once with no run armed. -/
theorem resetTap_regsReset {e : Element} {s : State} (he : e.kind = 4) (hset : Settled s) (hrun : s.jobs.armed = none) :
    RegsReset [e.unit] s (sendTap e (startValue s e) s) := by
  obtain ⟨kind, b, n⟩ := e
  obtain rfl : kind = 4 := he
  have hstart : startValue s ⟨4, b, n⟩ = [0] := by simp [startValue]
  obtain ⟨body, htap⟩ := sendTap_reg b n 0 hset hrun
  have htoken : Keeps [.pair] s (sendToken 0x05 body s) := sendToken_keeps ..
  obtain ⟨hkeeps, hreg, -⟩ := installValue_reg b n [0] (sendToken 0x05 body s)
  rw [hstart, htap]
  refine ⟨(htoken.mono (by decide)).then hkeeps (by decide), ?_, fun j => ?_, ?_⟩
  · exact (partnerSeen_of_pair_eq hkeeps.pair_eq).trans (partnerSeen_sendToken ..)
  · rw [hreg, htoken.cal_eq]
    simp only [List.getD_eq_getElem?_getD, List.getElem?_set, List.mem_singleton, List.headD_cons]
    by_cases hj : b = j
    · subst hj
      by_cases hlen : b < s.cal.values.reg.length <;> simp [hlen]
    · simp [hj, Ne.symm hj]
  · rw [installValue_reg_regless, htoken.cal_eq]

/-- So it is with several, one after the other. -/
theorem resetTaps_regsReset {l : List Element} {s : State} (hl : ∀ e ∈ l, e.kind = 4) (hset : Settled s)
    (hrun : s.jobs.armed = none) :
    RegsReset (l.map (·.unit)) s (forEach l (fun e s => sendTap e (startValue s e) s) s) := by
  induction l generalizing s with
  | nil => exact .refl s
  | cons e l ih =>
    have hone := resetTap_regsReset (hl e List.mem_cons_self) hset hrun
    refine hone.trans (ih (fun x hx => hl x (List.mem_cons_of_mem e hx)) (hset.of_partnerSeen_eq hone.partner) ?_)
    rw [hone.keeps.jobs_eq]
    exact hrun

theorem presentElements_reg (s : State) (b : Nat) :
    presentElements s 4 b = if s.cal.values.reg.getD b 0 = 0 then [] else [⟨4, b, 0⟩] := rfl

/-- What a RESET changes for a bar, among the registration taps, is that bar's. -/
theorem mem_changedElements_reg {s : State} {b : Nat} {e : Element} (h : e ∈ changedElements s 4 b) : e.kind = 4 ∧ e.unit = b := by
  rw [changedElements, List.mem_eraseDups, List.mem_append] at h
  rcases h with hpresent | hwaits
  · rw [presentElements_reg] at hpresent
    split at hpresent
    · exact absurd hpresent List.not_mem_nil
    · rw [List.mem_singleton.mp hpresent]
      exact ⟨rfl, rfl⟩
  · have hnames := (List.mem_filter.mp hwaits).2
    simp only [Bool.and_eq_true, decide_eq_true_eq] at hnames
    obtain ⟨hkind, hbar⟩ := hnames
    exact ⟨hkind, by simpa [elemBar, hkind] using hbar⟩

/-- A registration tap other than 0 is one that a RESET changes. -/
theorem reg_mem_changedElements {s : State} {b : Nat} (h : s.cal.values.reg.getD b 0 ≠ 0) : ⟨4, b, 0⟩ ∈ changedElements s 4 b := by
  rw [changedElements, List.mem_eraseDups, presentElements_reg, if_neg h]
  exact List.mem_append_left _ (List.mem_singleton.mpr rfl)

/-- The elements that a RESET of the registration taps of some bars changes. -/
def resetRegs (bars : Nat) (s : State) : List Element := (bitList 8 bars).flatMap (changedElements s 4)

theorem mem_resetRegs {bars : Nat} {s : State} {e : Element} (h : e ∈ resetRegs bars s) : e.kind = 4 ∧ bars.testBit e.unit = true := by
  obtain ⟨b, hb, he⟩ := List.mem_flatMap.mp h
  obtain ⟨hkind, rfl⟩ := mem_changedElements_reg he
  exact ⟨hkind, (List.mem_filter.mp hb).2⟩

theorem unit_mem_resetRegs {bars b : Nat} {s : State} (hb : b < 8) (hsel : bars.testBit b = true)
    (hreg : s.cal.values.reg.getD b 0 ≠ 0) : b ∈ (resetRegs bars s).map (·.unit) :=
  List.mem_map.mpr ⟨⟨4, b, 0⟩, List.mem_flatMap.mpr
    ⟨b, List.mem_filter.mpr ⟨List.mem_range.mpr hb, hsel⟩, reg_mem_changedElements hreg⟩, rfl⟩

theorem calReset_reg {p : List Byte} {s : State} (hkinds : fld p 5 1 % 64 = 16) (hset : Settled s) :
    calReset p s = forEach (resetRegs (fld p 6 1) s) (fun e s => sendTap e (startValue s e) s) s := by
  have hkind : bitList 6 (calKinds p) = [4] := by rw [calKinds, hkinds]; decide
  rw [calReset, if_neg (ne_true_of_eq_false hset.1), hkind, List.flatMap_singleton]
  rfl

/-- A RESET of the registration taps, with no run armed: a tap of a selected bar that is not changed is 0 already. -/
theorem calReset_regs {p : List Byte} {s : State} (hkinds : fld p 5 1 % 64 = 16) (hset : Settled s) (hrun : s.jobs.armed = none) :
    Keeps [.cal, .pair] s (calReset p s) ∧ partnerSeen (calReset p s) = partnerSeen s ∧
    regless (calReset p s).cal.values = regless s.cal.values ∧
    ∀ b, b < 8 → (calReset p s).cal.values.reg.getD b 0 =
      if (fld p 6 1).testBit b then 0 else s.cal.values.reg.getD b 0 := by
  have hreset : RegsReset ((resetRegs (fld p 6 1) s).map (·.unit)) s (calReset p s) := by
    rw [calReset_reg hkinds hset]
    exact resetTaps_regsReset (fun e he => (mem_resetRegs he).1) hset hrun
  refine ⟨hreset.keeps, hreset.partner, hreset.others, fun b hb => ?_⟩
  rw [hreset.reg]
  by_cases hsel : (fld p 6 1).testBit b = true
  · rw [if_pos hsel]
    by_cases hreg : s.cal.values.reg.getD b 0 = 0
    · rw [hreg, ite_self]
    · exact if_pos (unit_mem_resetRegs hb hsel hreg)
  · rw [if_neg hsel]
    refine if_neg fun hmem => hsel ?_
    obtain ⟨e, he, rfl⟩ := List.mem_map.mp hmem
    exact (mem_resetRegs he).2

/-! ### The clauses of CAL_REQUEST (R415 to R417) -/

section Requests
variable {t i : Nat} {src : Src} {payload : List Byte} {s : State} (h : Admitted t src 0x2C payload s i)
include h

theorem calRunNow_makesDue (haction : fld payload 4 1 = 0) (hst : s.mod.state = .armed ∨ s.mod.state = .print)
    (hnone : s.cal.runNow = []) (hsel : selectedElements s (fld payload 5 1 % 64) (fld payload 6 1) ≠ []) :
    Completes (.calRunNow t src payload) s fun n =>
      n.cal.due = s.cal.due ||| (fld payload 5 1 % 64) ∧ n.cal.values = s.cal.values ∧ Pending (fld payload 0 4) n ∧
      n.cal.runNow.map (fun r => (r.ticket, r.kinds, r.bars)) = [(fld payload 0 4, fld payload 5 1 % 64, fld payload 6 1)] ∧
      Only [.clock, .net, .pair, .cal] s n := by
  let asked := addPending (fld payload 0 4) 0x2C (atTurn t src 0x2C payload i s)
  have hcal : asked.cal = s.cal := (atTurn_keeps (s := s)).cal_eq
  have hwaits : calRunNow payload asked = madeDue payload asked :=
    calRunNow_waits (hcal ▸ hnone) (by simp only [asked]; rw [atTurn_eq]; exact hsel)
  have hok : msgCalRequest i payload (atTurn t src 0x2C payload i s) = .ok (madeDue payload asked) := by
    rw [msgCalRequest_runNow haction (by rwa [atTurn_mod]), ← hwaits]
  have hkeeps : Keeps [.net, .cal] (atTurn t src 0x2C payload i s) (madeDue payload asked) :=
    ((addPending_keeps ..).mono (by decide)).then (set_cal_keeps ..) (by decide)
  obtain ⟨n, hexec, hafter, htalks, honly⟩ := h.accepted (c := .calRunNow t src payload) (w := [.clock, .net, .pair, .cal]) rfl hok
    (hok ▸ KeepsV.ok hkeeps)
  have hpending : Pending (fld payload 0 4) (madeDue payload asked) := addPending_pending (fld payload 0 4) 0x2C _
  refine ⟨n, hexec, ?_, ?_, hpending.of_results_eq htalks.results, ?_, honly⟩
  · rw [hafter.cal_eq, ← hcal]; rfl
  · rw [hafter.cal_eq, ← hcal]; rfl
  · rw [hafter.cal_eq]; rfl

theorem calRunNow_refused (haction : fld payload 4 1 = 0) (harmed : s.mod.state ≠ .armed) (hprint : s.mod.state ≠ .print)
    (ht : transmits s src.group = true) :
    Completes (.calRunNow t src payload) s fun n =>
      Answers s i 0x06 (leBytes 4 src.msg ++ leBytes 1 0x2C ++ leBytes 1 0 ++ leBytes 2 0x0005 ++ leBytes 4 0) n ∧
      Only [.clock, .net, .pair] s n :=
  h.refused_answers ht rfl (msgCalRequest_wrongState haction (by rwa [atTurn_mod]) (by rwa [atTurn_mod]))

/-- A CAL_REQUEST whose work `m` changes the calibration only, and sends tokens, is ready at once with an empty body (R416). -/
theorem calRequest_done {c : Instr} {m : State} (hset : Settled s)
    (hexec : exec c s = .next (hostMessage t src 0x2C payload msgCalRequest s))
    (hok : msgCalRequest i payload (atTurn t src 0x2C payload i s) = .ok (calDone (fld payload 0 4) m))
    (hm : Keeps [.cal, .pair] (addPending (fld payload 0 4) 0x2C (atTurn t src 0x2C payload i s)) m)
    (hpartner : partnerSeen m = partnerSeen (atTurn t src 0x2C payload i s)) :
    Completes c s fun n => n.cal = m.cal ∧ Ready (fld payload 0 4) [] n ∧ Only [.clock, .net, .pair, .cal] s n := by
  have hkeeps : Keeps [.net, .cal, .pair] (atTurn t src 0x2C payload i s) (calDone (fld payload 0 4) m) :=
    (((addPending_keeps ..).mono (by decide)).then hm (by decide)).then (calDone_keeps ..) (by decide)
  obtain ⟨n, hn, hafter, htalks, honly⟩ := h.accepted (w := [.clock, .net, .pair, .cal]) hexec hok (hok ▸ KeepsV.ok hkeeps)
  have hanswer : Answerable (fld payload 0 4) m := by
    refine ⟨hset.atTurn.of_partnerSeen_eq hpartner, ?_⟩
    rw [hm.net_eq]
    exact (addPending_answerable _ _ hset.atTurn).2
  exact ⟨n, hn, hafter.cal_eq.trans (calDone_keeps ..).cal_eq, (finishResult_ready hanswer).of_results_eq htalks.results, honly⟩

/-- FREEZE and THAW: the message sets the bit to `v`. -/
theorem calRequest_setsFrozen {c : Instr} {v : Bool} (hset : Settled s)
    (hexec : exec c s = .next (hostMessage t src 0x2C payload msgCalRequest s))
    (hok : msgCalRequest i payload (atTurn t src 0x2C payload i s) =
      .ok (calDone (fld payload 0 4) (setFrozen v (addPending (fld payload 0 4) 0x2C (atTurn t src 0x2C payload i s))))) :
    Completes c s fun n => n.cal = { s.cal with frozen := v } ∧ Ready (fld payload 0 4) [] n ∧
      Only [.clock, .net, .pair, .cal] s n := by
  obtain ⟨n, hn, hcal, hready, honly⟩ := calRequest_done h hset hexec hok ((setFrozen_keeps ..).mono (by decide)) rfl
  refine ⟨n, hn, hcal.trans ?_, hready, honly⟩
  show { (atTurn t src 0x2C payload i s).cal with frozen := v } = _
  rw [(atTurn_keeps (s := s)).cal_eq]
  rfl

theorem calReset_resetsRegs (haction : fld payload 4 1 = 3) (hkinds : fld payload 5 1 % 64 = 16) (hrun : s.jobs.armed = none)
    (hset : Settled s) :
    Completes (.calReset t src payload) s fun n =>
      (∀ b, b < 8 → n.cal.values.reg.getD b 0 = if (fld payload 6 1).testBit b then 0 else s.cal.values.reg.getD b 0) ∧
      n.cal.values.taps = s.cal.values.taps ∧ n.cal.values.dead = s.cal.values.dead ∧ n.cal.values.tone = s.cal.values.tone ∧
      n.cal.values.rank = s.cal.values.rank ∧ Ready (fld payload 0 4) [] n ∧ Only [.clock, .net, .pair, .cal] s n := by
  have hrun' : (atTurn t src 0x2C payload i s).jobs.armed = none := by rwa [atTurn_jobs]
  obtain ⟨hkeeps, hpartner, hothers, hregs⟩ :=
    calReset_regs (s := addPending (fld payload 0 4) 0x2C (atTurn t src 0x2C payload i s)) hkinds hset.atTurn hrun'
  obtain ⟨n, hn, hcal, hready, honly⟩ :=
    calRequest_done (c := .calReset t src payload) h hset rfl (msgCalRequest_reset haction) hkeeps hpartner
  have hbefore : (addPending (fld payload 0 4) 0x2C (atTurn t src 0x2C payload i s)).cal = s.cal := (atTurn_keeps (s := s)).cal_eq
  rw [hbefore, ← hcal] at hothers hregs
  obtain ⟨htaps, hdead, hrank, htone⟩ := regless_eq_iff.mp hothers
  exact ⟨n, hn, hregs, htaps, hdead, htone, hrank, hready, honly⟩

end Requests

/-- Settles O27: RUN_NOW waits where it selects an element, and is refused by state; FREEZE, THAW and RESET are answered at once,
and a RESET of registration taps walks through the taps of the selected bars that are not 0 yet. -/
theorem calibrationRequests : Obligations.CalibrationRequests := by
  unfold Obligations.CalibrationRequests
  refine ⟨?due, ?wrongState, ?freeze, ?thaw, ?reset⟩
  case due => exact fun _ _ _ _ _ h haction hst hnone hsel => calRunNow_makesDue h haction hst hnone hsel
  case wrongState => exact fun _ _ _ _ _ h haction harmed hprint ht => calRunNow_refused h haction harmed hprint ht
  case freeze => exact fun _ _ _ _ _ h haction hset => calRequest_setsFrozen h hset rfl (msgCalRequest_freeze haction)
  case thaw => exact fun _ _ _ _ _ h haction hset => calRequest_setsFrozen h hset rfl (msgCalRequest_thaw haction)
  case reset => exact fun _ _ _ _ _ h haction hkinds hrun hset => calReset_resetsRegs h haction hkinds hrun hset

end Sys2Proof.Machine
end

section
/-! Proofs of the statements on the block as a whole: the state before any command (O2), and what every command keeps (O3). -/
namespace Sys2Proof.Machine
open Sys2Proof

-- As in the sections before: checked in parallel, the whole text takes more threads than the memory limit leaves room for.
set_option Elab.async false

/-- Settles O2: the log of the reset state is empty and its clock stands at 0; every session and output is at its reset value. -/
theorem resetInvariant : Obligations.ResetInvariant := by
  unfold Obligations.ResetInvariant
  refine ⟨?inv, rfl, rfl, rfl, rfl, rfl, rfl, rfl, rfl, rfl, rfl, rfl, ?sessions, ?outputs⟩
  case inv => exact ⟨Nat.le_refl _, Nat.zero_le _, List.forall_mem_nil _, .nil, fun _ he => nomatch he⟩
  case sessions => exact fun x hx => by rw [List.eq_of_mem_replicate (show x ∈ List.replicate 4 ({} : Session) from hx)]
  case outputs => exact fun x hx => by rw [List.eq_of_mem_replicate hx]; exact ⟨rfl, rfl⟩

/-! ### Every command keeps to its groups, and keeps the invariant (R419, R664 to R666) -/

/-- What keeps to `v` from the moment at which a command begins keeps to `v` and the clock from before it. -/
theorem Keeps.since {t : Nat} {v : List Group} {s n : State} (h : Keeps v (beginAt t s) n) : Keeps (.clock :: v) s n :=
  ((beginAt_keeps t s).mono (by simp)).then h (List.subset_cons_self ..)

theorem KeepsO.since {t : Nat} {v : List Group} {s : State} {o : Host.Outcome State Fault Refusal}
    (h : KeepsO v (beginAt t s) o) : KeepsO (.clock :: v) s o := fun n hn => (h n hn).since

/-- A host message, and the messages that waited for it, keep to what messages may write. -/
theorem hostMessage_waits {f : Nat → List Byte → State → Verdict} {t type : Nat} {src : Src} {payload : List Byte} {s : State}
    (hf : ∀ i p s, KeepsV messagesWrite.tail s (f i p s)) : KeepsO messagesWrite s (.next (hostMessage t src type payload f s)) :=
  .next (hostMessage_any t src type payload s (List.Subset.refl messagesWrite.tail) hf).since

theorem dptSegmentReceived_waits (t port addr dest udp s) :
    KeepsO messagesWrite s (execDptSegmentReceived t port addr dest udp s) :=
  .next (((hearDatagram_keeps t port addr dest udp s).mono (w := messagesWrite.tail) (by decide)).then
    (applyWaiting_keeps ..) (by decide)).since

theorem unknownType_waits (t src type s) : KeepsO messagesWrite s (execUnknownType t src type s) := by
  unfold execUnknownType
  split
  · exact .next ((beginAt_keeps t s).mono (by decide))
  · exact hostMessage_waits fun _ _ _ => (msgUnknown_keeps _ _ _).mono (by decide)

theorem haltReq_waits (t src payload s) : KeepsO messagesWrite s (execHaltReq t src payload s) :=
  .next ((hostMessage_waits (messageMeaning_keeps 0x08) _ rfl).then (settle_keeps _) (by decide))

section Release
variable {c : Instr} {s : State} {t : Nat} {v : List Group}

/-- A command after which waiting messages may be applied, by whether one waits (R76). -/
theorem release_keeps (hwaits : KeepsO messagesWrite s (exec c s)) (hc : mayRelease c = true) (hv : mayWrite c = .clock :: v)
    (h : waitingCount s = 0 → KeepsO v (beginAt t s) (exec c s)) : KeepsO (writesIn c s) s (exec c s) := by
  rw [writesIn, hc, hv]
  split
  · exact hwaits
  · next hnone => exact (h (by simpa using hnone)).since

/-- A command that is a host message, whose effect its type gives. -/
theorem message_keeps {src : Src} {payload : List Byte} (type : Nat)
    (hexec : exec c s = .next (hostMessage t src type payload (messageMeaning type) s)) (hc : mayRelease c = true)
    (hv : mayWrite c = .clock :: v) (h : waitingCount s = 0 → KeepsO v (beginAt t s) (exec c s)) :
    KeepsO (writesIn c s) s (exec c s) :=
  release_keeps (hexec ▸ hostMessage_waits (messageMeaning_keeps type)) hc hv h

end Release

/-- Every command, in every state, keeps to the groups that it may write there, and keeps the invariant. -/
theorem exec_keeps : ∀ (c : Instr) (s : State), KeepsO (writesIn c s) s (exec c s)
  | .powerGood .., _ => (execPowerGood_keeps _ _ _ _).since
  | .powerGoodLost .., _ => (execPowerGoodLost_keeps _ _ _ _).since
  | .bootSelect .., _ => (execBootSelect_keeps _ _).since
  | .configRead .., _ => (execConfigRead_keeps _ _).since
  | .trainingDone .., _ => (execTrainingDone_keeps _ _ _ _ _ _).since
  | .memoryInitialised .., _ => (execMemoryInitialised_keeps _ _).since
  | .codecSelftest .., _ => (execCodecSelftest_keeps _ _ _).since
  | .watchdogExpiry .., _ => (execWatchdogExpiry_keeps _ _).since
  | .inputLow .., _ => (execInputLow_keeps _ _ _).since
  | .shutdownLatchClear .., _ => (execShutdownLatchClear_keeps _ _ _).since
  | .thermalSample .., _ => (execThermalSample_keeps _ _ _).since
  | .blitzOff .., _ => (execBlitzOff_keeps _ _).since
  | .shutdownRecordWritten .., _ => (execShutdownRecordWritten_keeps _ _).since
  | .speedMonitorWindow .., _ => (execSpeedMonitorWindow_keeps _ _ _ _).since
  | .speedMonitorBroken .., _ => (execSpeedMonitorBroken_keeps _ _ _).since
  | .governorPeriod .., _ => (execGovernorPeriod_keeps _ _).since
  | .dptSegmentReceived .., _ => release_keeps (dptSegmentReceived_waits _ _ _ _ _ _) rfl rfl (execDptSegmentReceived_keeps _ _ _ _ _ _)
  | .networkFrameDiscarded .., _ => (execNetworkFrameDiscarded_keeps _ _ _ _).since
  | .arpNdpRequest .., _ => (execArpNdpRequest_keeps _ _ _ _ _ _).since
  | .icmpEcho .., _ => (execIcmpEcho_keeps _ _ _ _ _ _).since
  | .portLinkChange .., _ => (execPortLinkChange_keeps _ _ _ _).since
  | .portSpeedAlternate .., _ => (execPortSpeedAlternate_keeps _ _ _).since
  | .ackDelayExpiry .., _ => (execAckDelayExpiry_keeps _ _ _).since
  | .creditReopened .., _ => (execCreditReopened_keeps _ _ _ _).since
  | .dptRtoExpiry .., _ => (execDptRtoExpiry_keeps _ _ _ _).since
  | .sessionTimeout .., _ => (execSessionTimeout_keeps _ _ _).since
  | .keepaliveDue .., _ => (execKeepaliveDue_keeps _ _ _).since
  | .sessionOpen .., _ => (execSessionOpen_keeps _ _ _ _ _ _ _).since
  | .sessionClose .., _ => message_keeps 0x03 rfl rfl rfl (execSessionClose_keeps _ _ _ _)
  | .keepalive .., _ => (execKeepalive_keeps _ _ _).since
  | .ack .., _ => (execAck_keeps _ _ _ _ _ _).since
  | .unknownType .., _ => release_keeps (unknownType_waits _ _ _ _) rfl rfl (execUnknownType_keeps _ _ _ _)
  | .haltReq .., _ => release_keeps (haltReq_waits _ _ _ _) rfl rfl (execHaltReq_keeps _ _ _ _)
  | .restartReq .., _ => message_keeps 0x09 rfl rfl rfl (execRestartReq_keeps _ _ _ _)
  | .maintenanceReq .., _ => message_keeps 0x0A rfl rfl rfl (execMaintenanceReq_keeps _ _ _)
  | .loopbackStart .., _ => message_keeps 0x0B rfl rfl rfl (execLoopbackStart_keeps _ _ _ _)
  | .loopbackStop .., _ =>
    release_keeps (hostMessage_waits fun _ _ _ => (msgLoopback_keeps _ _ _ _).mono (by decide)) rfl rfl
      (execLoopbackStop_keeps _ _ _ _ _)
  | .loopbackEnd .., _ => (execLoopbackEnd_keeps _ _ _ _ _).since
  | .loopbackPreempted .., _ => (execLoopbackPreempted_keeps _ _ _ _).since
  | .surfaceDefine .., _ => message_keeps 0x20 rfl rfl rfl (execSurfaceDefine_keeps _ _ _ _)
  | .surfaceData .., _ => message_keeps 0x21 rfl rfl rfl (execSurfaceData_keeps _ _ _ _)
  | .surfaceSeal .., _ => message_keeps 0x22 rfl rfl rfl (execSurfaceSeal_keeps _ _ _ _)
  | .sealCheckDone .., _ => (execSealCheckDone_keeps _ _).since
  | .surfaceFree .., _ => message_keeps 0x23 rfl rfl rfl (execSurfaceFree_keeps _ _ _ _)
  | .lutDefine .., _ => message_keeps 0x24 rfl rfl rfl (execLutDefine_keeps _ _ _ _)
  | .pageDefine .., _ => message_keeps 0x25 rfl rfl rfl (execPageDefine_keeps _ _ _ _)
  | .pageFree .., _ => message_keeps 0x26 rfl rfl rfl (execPageFree_keeps _ _ _ _)
  | .runDefine .., _ => message_keeps 0x27 rfl rfl rfl (execRunDefine_keeps _ _ _ _)
  | .runArm .., _ => message_keeps 0x28 rfl rfl rfl (execRunArm_keeps _ _ _ _)
  | .runArmVerdict .., _ => (execRunArmVerdict_keeps _ _).since
  | .runStop .., _ => message_keeps 0x29 rfl rfl rfl (execRunStop_keeps _ _ _ _)
  | .runCancel .., _ => message_keeps 0x2A rfl rfl rfl (execRunCancel_keeps _ _ _ _)
  | .runEnd .., _ => message_keeps 0x2B rfl rfl rfl (execRunEnd_keeps _ _ _ _)
  | .calRunNow .., _ => message_keeps 0x2C rfl rfl rfl (execCalRunNow_keeps _ _ _ _)
  | .calFreeze .., _ => message_keeps 0x2C rfl rfl rfl (execCalFreeze_keeps _ _ _ _)
  | .calThaw .., _ => message_keeps 0x2C rfl rfl rfl (execCalThaw_keeps _ _ _ _)
  | .calReset .., _ => message_keeps 0x2C rfl rfl rfl (execCalReset_keeps _ _ _ _)
  | .moveAbs .., _ => message_keeps 0x2D rfl rfl rfl (execMoveAbs_keeps _ _ _ _)
  | .moveRel .., _ => message_keeps 0x2D rfl rfl rfl (execMoveRel_keeps _ _ _ _)
  | .jog .., _ => message_keeps 0x2D rfl rfl rfl (execJog_keeps _ _ _ _)
  | .stop .., _ => message_keeps 0x2D rfl rfl rfl (execStop_keeps _ _ _ _)
  | .estop .., _ => message_keeps 0x2D rfl rfl rfl (execEstop_keeps _ _ _ _)
  | .home .., _ => message_keeps 0x2D rfl rfl rfl (execHome_keeps _ _ _ _)
  | .gear .., _ => message_keeps 0x2D rfl rfl rfl (execGear_keeps _ _ _ _)
  | .gearChange .., _ => message_keeps 0x2D rfl rfl rfl (execGearChange_keeps _ _ _ _)
  | .setParams .., _ => message_keeps 0x2D rfl rfl rfl (execSetParams_keeps _ _ _ _)
  | .enable .., _ => message_keeps 0x2D rfl rfl rfl (execEnable_keeps _ _ _ _)
  | .disable .., _ => message_keeps 0x2D rfl rfl rfl (execDisable_keeps _ _ _ _)
  | .clearFault .., _ => message_keeps 0x2D rfl rfl rfl (execClearFault_keeps _ _ _ _)
  | .timedOutputCancel .., _ => message_keeps 0x2E rfl rfl rfl (execTimedOutputCancel_keeps _ _ _ _)
  | .timedOutputOnce .., _ => message_keeps 0x2E rfl rfl rfl (execTimedOutputOnce_keeps _ _ _ _)
  | .timedOutputPeriodic .., _ => message_keeps 0x2E rfl rfl rfl (execTimedOutputPeriodic_keeps _ _ _ _)
  | .resultRead .., _ =>
    release_keeps (hostMessage_waits fun _ _ _ => (readResult_keeps _ _ _ _).mono (by decide)) rfl rfl
      (execResultRead_keeps _ _ _ _)
  | .resultRelease .., _ => message_keeps 0x42 rfl rfl rfl (execResultRelease_keeps _ _ _ _)
  | .statusRead .., _ => message_keeps 0x43 rfl rfl rfl (execStatusRead_keeps _ _ _ _)
  | .imageBegin .., _ => message_keeps 0x60 rfl rfl rfl (execImageBegin_keeps _ _ _ _)
  | .imageBlock .., _ => message_keeps 0x61 rfl rfl rfl (execImageBlock_keeps _ _ _ _)
  | .flashBlockWritten .., _ => (execFlashBlockWritten_keeps _ _).since
  | .imageVerify .., _ => message_keeps 0x62 rfl rfl rfl (execImageVerify_keeps _ _ _ _)
  | .imageActivate .., _ => message_keeps 0x63 rfl rfl rfl (execImageActivate_keeps _ _ _ _)
  | .configActivationDone .., _ => (execConfigActivationDone_keeps _ _).since
  | .imageConfirm .., _ => message_keeps 0x64 rfl rfl rfl (execImageConfirm_keeps _ _ _)
  | .imageAbort .., _ => message_keeps 0x65 rfl rfl rfl (execImageAbort_keeps _ _ _)
  | .bundleConfirmed .., _ => (execBundleConfirmed_keeps _ _).since
  | .ptpMessageReceived .., _ => (execPtpMessageReceived_keeps _ _ _ _).since
  | .ptpMessageDue .., _ => (execPtpMessageDue_keeps _ _ _).since
  | .timeServoMeasurement .., _ => (execTimeServoMeasurement_keeps _ _ _).since
  | .timeSourceLost .., _ => (execTimeSourceLost_keeps _ _).since
  | .timeChangeApply .., _ => (execTimeChangeApply_keeps _ _).since
  | .timedOutputEdge .., _ => (execTimedOutputEdge_keeps _ _ _).since
  | .timedOutputPulseEnd .., _ => (execTimedOutputPulseEnd_keeps _ _ _).since
  | .ppsEdge .., _ => (execPpsEdge_keeps _ _).since
  | .quadratureEdge .., _ => (execQuadratureEdge_keeps _ _ _ _ _ _).since
  | .wireFault .., _ => (execWireFault_keeps _ _ _ _ _).since
  | .indexEvent .., _ => (execIndexEvent_keeps _ _ _).since
  | .ssiFrame .., _ => (execSsiFrame_keeps _ _ _ _).since
  | .positionFaultCleared .., _ => (execPositionFaultCleared_keeps _ _ _).since
  | .coastTrigger .., _ => (execCoastTrigger_keeps _ _ _).since
  | .extrapolatedTrigger .., _ => (execExtrapolatedTrigger_keeps _ _ _).since
  | .auxCompareTrigger t chan, s => (execAuxCompareTrigger_keeps t chan s).since
  | .dinChange .., _ => (execDinChange_keeps _ _ _ _ _).since
  | .haltInAsserted .., _ => (execHaltInAsserted_keeps _ _).since
  | .haltInDeasserted .., _ => (execHaltInDeasserted_keeps _ _).since
  | .printGoEdge .., _ => (execPrintGoEdge_keeps _ _ _ _).since
  | .lineTrigger .., _ => (execLineTrigger_keeps _ _ _).since
  | .deferredFireSync .., _ => (execDeferredFireSync_keeps _ _ _).since
  | .linePacketComplete .., _ => (execLinePacketComplete_keeps _ _ _).since
  | .overspeedClear .., _ => (execOverspeedClear_keeps _ _).since
  | .fireUnderrun .., _ => (execFireUnderrun_keeps _ _ _).since
  | .fireDecodeError .., _ => (execFireDecodeError_keeps _ _ _ _).since
  | .haltRepeat .., _ => (execHaltRepeat_keeps _ _ _).since
  | .slotReleasePoint .., _ => (execSlotReleasePoint_keeps _ _).since
  | .pageRenderStart .., _ => (execPageRenderStart_keeps _ _).since
  | .compositionLine .., _ => (execCompositionLine_keeps _ _ _).since
  | .chunkCompressed .., _ => (execChunkCompressed_keeps _ _ _ _).since
  | .pageRendered .., _ => (execPageRendered_keeps _ _).since
  | .flagFall .., _ => (execFlagFall_keeps _ _ _ _).since
  | .dtRead .., _ => (execDtRead_keeps _ _ _).since
  | .scrubPass .., _ => (execScrubPass_keeps _ _).since
  | .eccUncorrectable .., _ => (execEccUncorrectable_keeps _ _ _ _ _ _).since
  | .eccCorrectedRate .., _ => (execEccCorrectedRate_keeps _ _ _ _).since
  | .linkStatusFrame .., _ => (execLinkStatusFrame_keeps _ _ _ _ _ _).since
  | .linkUpLost .., _ => (execLinkUpLost_keeps _ _ _ _).since
  | .statusTimeout .., _ => (execStatusTimeout_keeps _ _ _).since
  | .linkTrainTimeout .., _ => (execLinkTrainTimeout_keeps _ _ _).since
  | .pllUnlock .., _ => (execPllUnlock_keeps _ _ _).since
  | .ownerFrameDue .., _ => (execOwnerFrameDue_keeps _ _ _).since
  | .cameraDiscovery .., _ => (execCameraDiscovery_keeps _ _ _ _).since
  | .cameraDown .., _ => (execCameraDown_keeps _ _ _ _ _).since
  | .cameraRetry .., _ => (execCameraRetry_keeps _ _ _).since
  | .cameraPacket .., _ => (execCameraPacket_keeps _ _ _ _ _).since
  | .cameraFrameEnd .., _ => (execCameraFrameEnd_keeps _ _ _ _).since
  | .cameraWriteAck .., _ => (execCameraWriteAck_keeps _ _ _ _ _).since
  | .motionProfilePeriod .., _ => (execMotionProfilePeriod_keeps _ _).since
  | .pwmPeriod .., _ => (execPwmPeriod_keeps _ _ _ _ _).since
  | .holdCurrentDelay .., _ => (execHoldCurrentDelay_keeps _ _ _).since
  | .ringFrameReceived .., _ => (execRingFrameReceived_keeps _ _ _ _).since
  | .ringFrameResend .., _ => (execRingFrameResend_keeps _ _ _).since
  | .ringTimeSend .., _ => (execRingTimeSend_keeps _ _).since
  | .ringDelayExchange .., _ => (execRingDelayExchange_keeps _ _ _).since
  | .kingListenExpiry .., _ => (execKingListenExpiry_keeps _ _).since
  | .discoverSend .., _ => (execDiscoverSend_keeps _ _).since
  | .discover .., _ => (execDiscover_keeps _ _ _).since
  | .ringAttnAsserted .., _ => (execRingAttnAsserted_keeps _ _).since
  | .joinGrant .., _ => (execJoinGrant_keeps _ _ _).since
  | .bypassOpenTime .., _ => (execBypassOpenTime_keeps _ _).since
  | .joinHello .., _ => (execJoinHello_keeps _ _ _).since
  | .joinHelloTimeout .., _ => (execJoinHelloTimeout_keeps _ _).since
  | .eject .., _ => (execEject_keeps _ _ _).since
  | .leaveReq .., _ => (execLeaveReq_keeps _ _ _).since
  | .leaveWaitExpiry .., _ => (execLeaveWaitExpiry_keeps _ _).since
  | .roll .., _ => (execRoll_keeps _ _ _).since
  | .ringMemberLost .., _ => (execRingMemberLost_keeps _ _ _).since
  | .originSend .., _ => (execOriginSend_keeps _ _).since
  | .origin .., _ => (execOrigin_keeps _ _ _).since
  | .runArmedFrame .., _ => (execRunArmedFrame_keeps _ _ _).since
  | .cascadeArmed .., _ => (execCascadeArmed_keeps _ _ _).since
  | .slotReady .., _ => (execSlotReady_keeps _ _ _).since
  | .ringRelease .., _ => (execRingRelease_keeps _ _ _).since
  | .ringNotReady .., _ => (execRingNotReady_keeps _ _ _).since
  | .cascadeStop .., _ => (execCascadeStop_keeps _ _ _).since
  | .ringImageBlock .., _ => (execRingImageBlock_keeps _ _ _).since
  | .imageAck .., _ => (execImageAck_keeps _ _ _).since
  | .relayAckDue .., _ => (execRelayAckDue_keeps _ _).since
  | .heartbeatDue .., _ => (execHeartbeatDue_keeps _ _).since
  | .heartbeat .., _ => (execHeartbeat_keeps _ _ _ _).since
  | .heartbeatMissed .., _ => (execHeartbeatMissed_keeps _ _).since
  | .pairWaitExpiry .., _ => (execPairWaitExpiry_keeps _ _).since
  | .reclaimWaitExpiry .., _ => (execReclaimWaitExpiry_keeps _ _).since
  | .order .., _ => (execOrder_keeps _ _ _).since
  | .tokenArm .., _ => (execTokenArm_keeps _ _ _ _).since
  | .tokenRelease .., _ => (execTokenRelease_keeps _ _ _ _).since
  | .tokenNotReady .., _ => (execTokenNotReady_keeps _ _ _ _).since
  | .tokenGovernor .., _ => (execTokenGovernor_keeps _ _ _ _).since
  | .tokenTap .., _ => (execTokenTap_keeps _ _ _ _).since
  | .tokenChangeover .., _ => (execTokenChangeover_keeps _ _ _ _).since
  | .tokenResult .., _ => (execTokenResult_keeps _ _ _ _).since
  | .tokenRing .., _ => (execTokenRing_keeps _ _ _ _).since
  | .tokenBar .., _ => (execTokenBar_keeps _ _ _ _).since
  | .tokenCamera .., _ => (execTokenCamera_keeps _ _ _ _).since
  | .tokenAxis .., _ => (execTokenAxis_keeps _ _ _ _).since
  | .tokenGapTimeout .., _ => (execTokenGapTimeout_keeps _ _).since
  | .resendReq .., _ => (execResendReq_keeps _ _ _ _ _).since
  | .partnerSegment .., _ => (execPartnerSegment_keeps _ _ _).since
  | .copy .., _ => (execCopy_keeps _ _ _).since
  | .catchupDone .., _ => (execCatchupDone_keeps _ _).since
  | .signature .., _ => (execSignature_keeps _ _ _ _).since
  | .partnerCamera .., _ => (execPartnerCamera_keeps _ _ _).since
  | .flashRecordWritten .., _ => (execFlashRecordWritten_keeps _ _ _ _).since
  | .imageVerifyDone .., _ => (execImageVerifyDone_keeps _ _).since
  | .loopbackDone .., _ => (execLoopbackDone_keeps _ _ _ _).since
  | .pllRelock .., _ => (execPllRelock_keeps _ _ _).since
  | .igmpMldQuery .., _ => (execIgmpMldQuery_keeps _ _ _ _ _).since

/-- Settles O3: the command at the front keeps the invariant, which does not speak of the queue. -/
theorem stepKeepsInvariant : Obligations.StepKeepsInvariant := by
  unfold Obligations.StepKeepsInvariant
  intro s n hs hstep
  unfold step at hstep
  split at hstep
  · cases hstep
    exact hs
  · next c rest _ =>
    obtain ⟨hraw, hsize, hdetail, hchain, hlast⟩ := hs
    exact (exec_keeps c { s with pending := rest } n hstep).inv ⟨hraw, hsize, hdetail, hchain, hlast⟩

end Sys2Proof.Machine
end

section
/-! Proof of the statement on power good (19_power_and_start.md, O5). -/
namespace Sys2Proof.Machine
open Sys2Proof

-- As in the sections before: checked in parallel, the whole text takes more threads than the memory limit leaves room for.
set_option Elab.async false

section KeepsGroups
variable {w : List Group} {s n : State} (h : Keeps w s n)
include h

theorem Keeps.rawOrigin_eq (hw : Group.raw ∉ w := by decide) : n.rawOrigin = s.rawOrigin := h.only.same .raw hw
theorem Keeps.otp_eq (hw : Group.otp ∉ w := by decide) : n.otp = s.otp := h.only.same .otp hw
theorem Keeps.time_eq (hw : Group.time ∉ w := by decide) : n.time = s.time := h.only.same .time hw

end KeepsGroups

/-! ### What is latched at power good (R419, R550, R565, R566) -/

theorem mayStart_iff {mv : Nat} {s : State} : mayStart mv s = true ↔
    39000 ≤ mv ∧ mv ≤ 60000 ∧ s.power.shutdownLatch = false ∧ ∀ w, s.power.watchdogUntil = some w → w + msT 10 ≤ s.now := by
  unfold mayStart
  cases s.power.watchdogUntil <;> simp [and_assoc]

/-- Events kept for the next start are all that a list of them adds to the registers of the power group. -/
theorem forEach_atNextStart_power {α : Type} (l : List α) (code : Nat) (detail : α → List Byte) (s : State) :
    ∃ kept, (forEach l (fun x => atNextStart code (detail x)) s).power = { s.power with atStart := kept } := by
  induction l generalizing s with
  | nil => exact ⟨_, rfl⟩
  | cons x l ih =>
    obtain ⟨kept, hkept⟩ := ih (atNextStart code (detail x) s)
    exact ⟨kept, hkept⟩

theorem forEach_atNextStart_keeps {α : Type} (l : List α) (code : Nat) (detail : α → List Byte) (s : State) :
    Keeps [.power] s (forEach l (fun x => atNextStart code (detail x)) s) :=
  Keeps.forEach (fun _ _ => atNextStart_keeps ..) (Keeps.refl _ _)

/-- The raw counter is at 0 now (R419). -/
theorem latchStart_rawOrigin (straps mv : Nat) (s : State) : (latchStart straps mv s).rawOrigin = s.now := by
  unfold latchStart
  dsimp only
  split
  · exact (forEach_atNextStart_keeps ..).rawOrigin_eq
  · exact (forEach_atNextStart_keeps ..).rawOrigin_eq

/-- Of the power group, the events of domains held off and of straps that fail their parity change what is kept for the start. -/
theorem startEvents_power (p : Prop) [Decidable p] (held : List Nat) (detail : List Byte) (s : State) :
    ∃ kept, (if p then forEach held (fun d => atNextStart 0x0123 (leBytes 1 d)) s
      else atNextStart 0x0124 detail (forEach held (fun d => atNextStart 0x0123 (leBytes 1 d)) s)).power =
        { s.power with atStart := kept } := by
  obtain ⟨kept, hkept⟩ := forEach_atNextStart_power held 0x0123 (fun d => leBytes 1 d) s
  split
  · exact ⟨kept, hkept⟩
  · exact ⟨kept ++ [(0x0124, detail)], by rw [atNextStart, hkept]⟩

/-- The straps as latched; without odd parity the module takes position 3, side 1 (R565, R566). -/
theorem latchStart_power (straps mv : Nat) (s : State) :
    ∃ held kept, (latchStart straps mv s).power = { s.power with
      straps := straps % 16, strapValid := strapsOdd straps, position := if strapsOdd straps then straps % 4 else 3
      side := if strapsOdd straps then straps / 4 % 2 else 1
      domainsHeld := held, inputMv := mv, watchdogUntil := none, atStart := kept } := by
  obtain ⟨kept, hkept⟩ := startEvents_power (strapsOdd straps = true) _ (leBytes 1 (straps % 16)) _
  exact ⟨_, kept, hkept⟩

/-! ### BOOT (R20, R550) -/

/-- What BOOT switches off and forgets first does not touch the registers of the power group. -/
theorem bootOff_power (cause : Nat) (s : State) :
    (dropCamAux (clearBars (endRunInputs (loseMemory (loseTime (endCascade (closeBypass .bypassed
      (disableCams (disableLinks (clearOutputs (axesLose (axesOff (setModState .boot cause s))))))))))))).power = s.power := by
  rw [(dropCamAux_keeps _).power_eq, (clearBars_keeps _).power_eq, (endRunInputs_keeps _).power_eq, (loseMemory_keeps _).power_eq,
    (loseTime_keeps _).power_eq, (endCascade_keeps _).power_eq, (closeBypass_keeps ..).power_eq, (disableCams_keeps _).power_eq,
    (disableLinks_keeps _).power_eq, (clearOutputs_keeps _).power_eq, (axesLose_keeps _).power_eq, (axesOff_keeps _).power_eq,
    (setModState_keeps ..).power_eq]

/-- BOOT leaves of the power domains PD0 only, counts the start, and keeps the straps. -/
theorem enterBoot_power (cause : Nat) (s : State) :
    (enterBoot cause s).power = { s.power with
      domainsOn := [0], starts := wrapInc 16 s.power.starts
      faultCounts := if s.mod.state = .off then s.power.faultCounts else List.replicate 10 0 } := by
  unfold enterBoot
  dsimp only
  rw [bootOff_power]

/-- Settles O5: where the start conditions hold, power good latches the straps and the raw counter's origin, and enters BOOT. -/
theorem powerGoodStarts : Obligations.PowerGoodStarts := by
  unfold Obligations.PowerGoodStarts
  intro t straps mv s hoff hlow hhigh hlatch hwatchdog
  have hmay : mayStart mv (beginAt t s) = true := mayStart_iff.mpr ⟨hlow, hhigh, hlatch, hwatchdog⟩
  have hexec : exec (.powerGood t straps mv) s = .next (enterBoot 0 (latchStart straps mv (beginAt t s))) := by
    show Host.Outcome.next _ = _
    rw [beginAt_mod, hoff, hmay]
    rfl
  have hkeeps : Keeps [.raw, .free, .mod, .power, .conf, .update, .log, .thermal, .gov, .net, .jobs, .render, .mem, .pos, .fire,
      .links, .cams, .cal, .time, .axes, .ring, .pair, .loops] (beginAt t s) (enterBoot 0 (latchStart straps mv (beginAt t s))) :=
    ((latchStart_keeps ..).mono (by decide)).then (enterBoot_keeps ..) (by decide)
  obtain ⟨held, kept, hlatched⟩ := latchStart_power straps mv (beginAt t s)
  have hpower := enterBoot_power 0 (latchStart straps mv (beginAt t s))
  rw [hlatched] at hpower
  have hnow := hkeeps.now_eq
  refine ⟨_, hexec, enterBoot_state .., ?_, hnow, congrArg Power.strapValid hpower, congrArg Power.position hpower,
    congrArg Power.side hpower, congrArg Power.domainsOn hpower, hkeeps.otp_eq, hkeeps.flash_eq⟩
  rw [hnow, (enterBoot_keeps ..).rawOrigin_eq, latchStart_rawOrigin]

end Sys2Proof.Machine
end

section
/-! Proofs of the statements on the timebase (14_timebase.md): changes of the anchor (O32), PTP messages (O33) and the timed
outputs (O30). -/
namespace Sys2Proof.Machine
open Sys2Proof

-- As in the sections before: checked in parallel, the whole text takes more threads than the memory limit leaves room for.
set_option Elab.async false

/-! ### Module time by the anchors (R421, R425, R426) -/

theorem anchors_of_pending {rc : Nat} {step rate : Int} {s : State} (h : s.time.pending = some (rc, step, rate)) :
    anchors s = (rc, anchorTime s.time.raw0 s.time.t0 s.time.rate (rc * 256) + step, rate) ::
      (s.time.raw0, s.time.t0, s.time.rate) :: s.time.old := by
  rw [anchors, h]
  rfl

/-- A date that the newest anchor's raw count is not after is read by that anchor. -/
theorem timeAt_of_reached {a : Nat × Int × Int} {l : List (Nat × Int × Int)} {s : State} {d : Nat} (h : anchors s = a :: l)
    (hd : (a.1 * 256 : Int) ≤ rawOf s d) : timeAt s d = anchorTime a.1 a.2.1 a.2.2 (rawOf s d) := by
  simp [timeAt, h, hd]

/-- An earlier date, not before the next anchor's raw count, is read by that one. -/
theorem timeAt_of_notReached {a b : Nat × Int × Int} {l : List (Nat × Int × Int)} {s : State} {d : Nat}
    (h : anchors s = a :: b :: l) (ha : rawOf s d < a.1 * 256) (hb : (b.1 * 256 : Int) ≤ rawOf s d) :
    timeAt s d = anchorTime b.1 b.2.1 b.2.2 (rawOf s d) := by
  simp [timeAt, h, hb, ha.not_ge]

/-- Two states with the same raw counter whose newest two anchors agree read the same from the older one's raw count on. -/
theorem timeAt_eq_of_anchors {a b : Nat × Int × Int} {l m : List (Nat × Int × Int)} {s n : State} {d : Nat}
    (hraw : n.rawOrigin = s.rawOrigin) (hn : anchors n = a :: b :: m) (hs : anchors s = a :: b :: l)
    (hd : (b.1 * 256 : Int) ≤ rawOf s d) : timeAt n d = timeAt s d := by
  have hrawOf : rawOf n d = rawOf s d := by rw [rawOf, rawOf, hraw]
  by_cases ha : (a.1 * 256 : Int) ≤ rawOf s d
  · rw [timeAt_of_reached hs ha, timeAt_of_reached hn (hrawOf ▸ ha), hrawOf]
  · rw [timeAt_of_notReached hs (not_le.mp ha) hd, timeAt_of_notReached hn (hrawOf ▸ not_le.mp ha) (hrawOf ▸ hd), hrawOf]

/-- What leaves the clock, the raw counter and the anchors alone leaves module time alone. -/
theorem timeNow_congr {s n : State} (hnow : n.now = s.now) (hraw : n.rawOrigin = s.rawOrigin) (hanchors : anchors n = anchors s) :
    timeNow n = timeNow s := by
  rw [timeNow, timeNow, timeAt, timeAt, hanchors, rawOf, rawOf, hnow, hraw]

theorem Keeps.timeNow_eq {w : List Group} {s n : State} (h : Keeps w s n) (hclock : Group.clock ∉ w := by decide)
    (hraw : Group.raw ∉ w := by decide) (htime : Group.time ∉ w := by decide) : timeNow n = timeNow s :=
  timeNow_congr (h.now_eq hclock) (h.rawOrigin_eq hraw) (by rw [anchors, anchors, h.time_eq htime])

/-! ### TIME_CHANGE_APPLY (R425, R426) -/

theorem settleChange_of_none {s : State} (h : s.time.pending = none) : settleChange s = s := by
  rw [settleChange, h]

theorem settleChange_of_reached {rc : Nat} {step rate : Int} {s : State} (h : s.time.pending = some (rc, step, rate))
    (hrc : (rc * 256 : Int) ≤ rawOf s s.now) :
    settleChange s = { s with time := { s.time with
      raw0 := rc, t0 := anchorTime s.time.raw0 s.time.t0 s.time.rate (rc * 256) + step, rate := rate, pending := none
      old := keptAnchors rc s } } := by
  rw [settleChange, h]
  exact if_pos hrc

/-- The anchor that a change replaces is kept for 250,000,000 ticks after the change's raw count. -/
theorem keptAnchors_of_recent {rc : Nat} {s : State} (h : rawTicks s ≤ rc + 250000000) :
    ∃ l, keptAnchors rc s = (s.time.raw0, s.time.t0, s.time.rate) :: l := by
  simp [keptAnchors, h]

/-- Settles O32: before the change its anchor stands ahead of the one in force, afterwards it is the one in force. -/
theorem anchorChanges : Obligations.AnchorChanges := by
  unfold Obligations.AnchorChanges
  intro rc step rate s hpending
  have hs := anchors_of_pending hpending
  refine ⟨?before, ?after, ?applied⟩
  case before => exact fun d hraw0 hrc => timeAt_of_notReached hs hrc hraw0
  case after => exact fun d hrc => timeAt_of_reached hs hrc
  case applied =>
    intro t hrc
    have hsettled := settleChange_of_reached (s := beginAt t s) hpending hrc
    have hn : anchors (settleChange (beginAt t s)) =
        (rc, anchorTime s.time.raw0 s.time.t0 s.time.rate (rc * 256) + step, rate) :: keptAnchors rc (beginAt t s) := by
      rw [hsettled]
      rfl
    refine ⟨_, rfl, ?_, ?_, ?_, (settleChange_keeps _).onlySince⟩
    · rw [hsettled]
      rfl
    · intro d hd
      have hrawOf : rawOf (settleChange (beginAt t s)) d = rawOf s d := by rw [hsettled]; rfl
      rw [timeAt_of_reached hs hd, timeAt_of_reached hn (hrawOf ▸ hd), hrawOf]
    · intro hrecent d hd
      have hticks : rawTicks (settleChange (beginAt t s)) = rawTicks (beginAt t s) := by rw [hsettled]; rfl
      obtain ⟨l, hl⟩ := keptAnchors_of_recent (hticks ▸ hrecent)
      rw [hl] at hn
      exact timeAt_eq_of_anchors (settleChange_keeps _).rawOrigin_eq hn hs hd

/-! ### PTP messages (R54, R431 to R433) -/

theorem portOf_modPort {p : Nat} (f : Port → Port) {s : State} (h : p < s.net.ports.length) :
    portOf (modPort p f s) p = f (portOf s p) := by
  simp only [portOf, modPort_net_ports, getD_modify, h, and_self, if_true]

theorem lt_ports_of_linkUp {p : Nat} {s : State} (h : (portOf s p).linkUp = true) : p < s.net.ports.length := by
  by_contra hp
  rw [portOf, List.getD_eq_default _ _ (Nat.le_of_not_lt hp)] at h
  exact absurd h (by decide)

/-- A message of the configured domain on the PTP port has its effect. -/
theorem exec_ptpMessageReceived {t port d : Nat} {m : PtpMsg} {s : State} (hon : ptpOn s = true)
    (hport : port = cfgN s Fld.ptp_port 0) (hdomain : ptpDomain m = some d) (hd : d = cfgN s Fld.ptp_domain 0) :
    exec (.ptpMessageReceived t port m) s = .next (takePtp m (beginAt t s)) := by
  show execPtpMessageReceived t port m s = _
  unfold execPtpMessageReceived
  have hon' : ptpOn (beginAt t s) = true := hon
  have hport' : port = cfgN (beginAt t s) Fld.ptp_port 0 := hport
  have hd' : d = cfgN (beginAt t s) Fld.ptp_domain 0 := hd
  simp only [hdomain, hon', ← hport', ← hd', decide_true, Bool.and_self, if_true]

/-- A one-step Sync of the master is measured at once (R431, R432). -/
theorem takePtp_sync {dom src seq : Nat} {origin corr : Int} {a : PtpAnnounce} {s : State} (h : s.time.master = some (src, a)) :
    takePtp (.sync dom src seq false origin corr) s = takeSync (timeNow s - origin - corr) s := by
  simp [takePtp, h]

theorem takePtp_delayReq {dom src seq : Nat} {corr : Int} {s : State} (h : s.time.ptpMaster = true) :
    takePtp (.delayReq dom src seq corr) s = sendPtp 9 seq (timeNow s) corr .ordinary s := by
  simp [takePtp, h]

/-- A Sync falls due, and goes out in one step (R432). -/
theorem exec_ptpMessageDue_sync {t : Nat} {s : State} (hon : ptpOn s = true) (hmaster : s.time.ptpMaster = true)
    (hone : cfgN s Fld.ptp_one_step 0 = 1) :
    exec (.ptpMessageDue t .sync) s = .next (sendPtp 0 s.time.ptpSeq (timeNow (beginAt t s)) 0 (oneStepSum s)
      { beginAt t s with time := { s.time with ptpSeq := wrapInc 16 s.time.ptpSeq } }) := by
  show execPtpMessageDue t .sync s = _
  unfold execPtpMessageDue
  have hon' : ptpOn (beginAt t s) = true := hon
  have hone' : cfgN (beginAt t s) Fld.ptp_one_step 0 = 1 := hone
  simp only [hon', hone', beginAt_time, hmaster, Bool.not_true, Bool.false_eq_true, if_false, if_true]
  rfl

theorem exec_ptpMessageDue_slave {t : Nat} {s : State} (hmaster : s.time.ptpMaster = false) :
    exec (.ptpMessageDue t .sync) s = .next (beginAt t s) := by
  show execPtpMessageDue t .sync s = _
  unfold execPtpMessageDue
  simp only [beginAt_time, hmaster, Bool.not_false, if_true, ite_self]

/-- Settles O33: each clause is the equation of its message. -/
theorem ptpMessages : Obligations.PtpMessages := by
  unfold Obligations.PtpMessages
  refine ⟨?sync, ?delayReq, ?unsupported, ?due, ?slave⟩
  case sync =>
    intro t port dom src seq origin corr a s hon hport hdom hmaster
    refine ⟨_, exec_ptpMessageReceived hon hport rfl hdom, ?_⟩
    rw [takePtp_sync (s := beginAt t s) hmaster]
    exact ⟨rfl, (takeSync_keeps ..).onlySince⟩
  case delayReq =>
    intro t port dom src seq corr s hon hport hdom hmaster
    refine ⟨_, exec_ptpMessageReceived hon hport rfl hdom, ?_⟩
    rw [takePtp_delayReq (s := beginAt t s) hmaster]
    have hkeeps := sendPtp_keeps 9 seq (timeNow (beginAt t s)) corr .ordinary (beginAt t s)
    refine ⟨?_, hkeeps.onlySince⟩
    rw [hkeeps.timeNow_eq, hport]
    rfl
  case unsupported =>
    intro t port s hup
    have hup' : (portOf (beginAt t s) port).linkUp = true := hup
    refine ⟨modPort port (fun p => { p with discarded := wrapInc 16 p.discarded }) (beginAt t s), ?_, ?_, rfl,
      (modPort_keeps ..).onlySince⟩
    · show Host.Outcome.next _ = _
      rw [if_pos hup']
    · exact congrArg Port.discarded (portOf_modPort _ (s := beginAt t s) (lt_ports_of_linkUp hup))
  case due =>
    intro t s hon hmaster hone
    refine ⟨_, exec_ptpMessageDue_sync hon hmaster hone, ?_, rfl, ?_⟩
    · rw [(sendPtp_keeps ..).timeNow_eq, timeNow_congr (s := beginAt t s) rfl rfl rfl]
      show [Out.ptp _ _ _ _ (0 + timeNow (beginAt t s) % 65536) _] = _
      rw [Int.zero_add]
      rfl
    · exact ((set_time_keeps (beginAt t s) _).then (sendPtp_keeps ..) (by decide)).onlySince
  case slave => exact fun t s hmaster => exec_ptpMessageDue_slave hmaster

/-! ### One timed output changes (object 0x0B02) -/

/-- Of the timed outputs, only `o` changes, by `f`. -/
def OutBecomes (o : Nat) (f : Tpo → Tpo) (s n : State) : Prop := n.time.outs = s.time.outs.modify o f

section OutBecomes
variable {o : Nat} {f : Tpo → Tpo} {s n : State} (h : OutBecomes o f s n)
include h

theorem OutBecomes.own (ho : o < s.time.outs.length) : n.time.outs.getD o {} = f (s.time.outs.getD o {}) := by
  rw [h, getD_modify, if_pos ⟨rfl, ho⟩]

theorem OutBecomes.other {j : Nat} (hj : j ≠ o) : n.time.outs.getD j {} = s.time.outs.getD j {} := by
  rw [h, getD_modify, if_neg fun ho => hj ho.1.symm]

end OutBecomes

/-- A pulse of an output that has just been changed otherwise changes it in one go. -/
theorem pulseOut_modOut_becomes (o width : Nat) (f : Tpo → Tpo) (s : State) :
    OutBecomes o (fun x => { f x with
      level := true, edges := wrapInc 32 (f x).edges, fallAt := some (pulseEnd (f x) (s.now + nsT width)) }) s
      (pulseOut o width (modOut o f s)) := List.modify_modify_eq ..

/-! ### The edges of a programme (R437) -/

theorem edgeDue_zero (p : Programme) : edgeDue p 0 = p.start := by
  simp [edgeDue]

theorem firstEdge_of_le {p : Programme} {time : Int} (h : time ≤ p.start) : firstEdge p time = 0 := by
  simp [firstEdge, h]

/-- Edge k is the first one at or after an instant where the instant is at or before it, and after the edge before it. -/
theorem firstEdge_isFirst {p : Programme} {time : Int} (hperiod : 0 < p.period) :
    time ≤ edgeDue p (firstEdge p time) ∧ (0 < firstEdge p time → edgeDue p (firstEdge p time - 1) < time) := by
  by_cases hstart : time ≤ p.start
  · rw [firstEdge_of_le hstart, edgeDue_zero]
    exact ⟨hstart, fun h => absurd h (Nat.lt_irrefl 0)⟩
  · have hpos : (0 : Int) < p.period := by exact_mod_cast hperiod
    have hfirst : firstEdge p time = ((time - p.start + p.period - 1) / p.period).toNat := by
      simp [firstEdge, hstart, hperiod.ne']
    have hle : 1 ≤ (time - p.start + p.period - 1) / p.period := by
      rw [Int.le_ediv_iff_mul_le hpos]
      omega
    have hlower := Int.lt_ediv_add_one_mul_self (time - p.start + p.period - 1) hpos
    have hupper := Int.ediv_mul_le (time - p.start + p.period - 1) hpos.ne'
    generalize (time - p.start + p.period - 1) / p.period = q at *
    obtain ⟨k, rfl⟩ := Int.eq_ofNat_of_zero_le (Int.le_trans Int.one_nonneg hle)
    rw [hfirst, Int.toNat_natCast, edgeDue, edgeDue, Nat.cast_sub (by omega)]
    constructor
    · linarith
    · intro _
      push_cast
      linarith

/-! ### TIMED_OUTPUT_SET (R436, R437, R439) -/

/-- The programme that a TIMED_OUTPUT_SET asks for: none to cancel, one edge or several from the first one 2 µs ahead on. -/
def requestedProg (b : List Byte) (s : State) : Option Programme :=
  if fld b 4 1 = 0 then none
  else
    let p : Programme :=
      { periodic := fld b 4 1 = 2, start := readStamp s ((b.drop 8).take 12), width := fld b 20 4, period := fld b 24 8
        left := if fld b 4 1 = 1 then some 1 else if fld b 32 4 = 0 then none else some (fld b 32 4), next := 0 }
    some { p with next := firstEdge p (timeNow s + nsUnits 2000) }

theorem requestedProg_congr {b : List Byte} {s n : State} (hmod : n.mod = s.mod) (hnow : timeNow n = timeNow s) :
    requestedProg b n = requestedProg b s := by
  simp only [requestedProg, readStamp, hmod, hnow]

theorem claimedOut_congr {s n : State} (h : n.conf = s.conf) (o : Nat) : claimedOut n o = claimedOut s o := by
  unfold claimedOut cfgN
  rw [h]

/-- The fields that go with the action: period and count 0 for no or one edge, a period that leaves 8 ns low for several (R436,
R437). -/
def FitsAction (b : List Byte) : Prop :=
  (fld b 4 1 < 2 ∧ fld b 24 8 = 0 ∧ fld b 32 4 = 0) ∨
  (fld b 4 1 = 2 ∧ nsUnits (fld b 20 4 + 8) ≤ (fld b 24 8 : Int) ∧ (fld b 24 8 : Int) ≤ 1000 * secondUnits)

section Requests
variable {b : List Byte} (hout : fld b 0 1 < 8) (hwidth : 8 ≤ fld b 20 4) (hlong : fld b 20 4 ≤ 1000000000)
  (hstamp : fld b 14 4 < 1000000000) (hfits : FitsAction b)
include hout hwidth hlong hstamp hfits

/-- A request in range for an output that no camera claims gives that output the programme it asks for. -/
theorem msgTimedOutput_programmes {s : State} (i : Nat) (hclaim : claimedOut s (fld b 0 1) = false)
    (hahead : fld b 4 1 = 1 → timeNow s + nsUnits 2000 ≤ readStamp s ((b.drop 8).take 12)) :
    msgTimedOutput i b s = .ok (modOut (fld b 0 1) (fun x => { x with prog := requestedProg b s }) s) := by
  have hrange : ∀ compat : Bool, (decide (7 < fld b 0 1) || decide (2 < fld b 4 1) ||
      (!compat && decide (1000000000 ≤ fld b 14 4)) ||
      decide (fld b 20 4 < 8) || decide (1000000000 < fld b 20 4) ||
      (decide (fld b 4 1 = 2) && (decide ((fld b 24 8 : Int) < nsUnits (fld b 20 4 + 8)) ||
        decide (1000 * secondUnits < (fld b 24 8 : Int)))) ||
      (decide (fld b 4 1 ≠ 2) && (decide (fld b 24 8 ≠ 0) || decide (fld b 32 4 ≠ 0)))) = false := by
    intro compat
    rcases hfits with ⟨haction, hperiod, hcount⟩ | ⟨haction, hleast, hmost⟩
    · simp [hperiod, hcount, haction.ne, haction.le, Nat.le_of_lt_succ hout, hwidth, hlong, hstamp]
    · simp [haction, hleast, hmost, Nat.le_of_lt_succ hout, hwidth, hlong, hstamp]
  unfold msgTimedOutput requestedProg
  dsimp only
  rw [hrange, if_neg Bool.false_ne_true, hclaim, if_neg Bool.false_ne_true, if_neg (by simpa using hahead)]
  split <;> rfl

section Set
variable {t i : Nat} {src : Src} {s : State} (h : Admitted t src 0x2E b s i) (hlen : s.time.outs.length = 9)
  (hclaim : claimedOut s (fld b 0 1) = false)
include h hlen hclaim

theorem timedOutputSet_programmes {c : Instr} (hexec : exec c s = .next (hostMessage t src 0x2E b msgTimedOutput s))
    (hahead : fld b 4 1 = 1 → timeNow (beginAt t s) + nsUnits 2000 ≤ readStamp s ((b.drop 8).take 12)) :
    Completes c s fun n =>
      timeNow n = timeNow (beginAt t s) ∧
      n.time.outs.getD (fld b 0 1) {} = { s.time.outs.getD (fld b 0 1) {} with prog := requestedProg b (beginAt t s) } ∧
      (∀ o, o ≠ fld b 0 1 → n.time.outs.getD o {} = s.time.outs.getD o {}) ∧ Only [.clock, .net, .pair, .time] s n := by
  have hturn : Keeps [.net, .pair] (beginAt t s) (atTurn t src 0x2E b i s) := atTurn_keeps
  have hprog := requestedProg_congr (b := b) hturn.mod_eq hturn.timeNow_eq
  have hok := msgTimedOutput_programmes hout hwidth hlong hstamp hfits i ((claimedOut_congr hturn.conf_eq _).trans hclaim)
    (by rw [hturn.timeNow_eq, readStamp, hturn.mod_eq]; exact hahead)
  rw [hprog] at hok
  obtain ⟨n, hn, hafter, -, honly⟩ := h.accepted (w := [.clock, .net, .pair, .time]) hexec hok (msgTimedOutput_keeps _ _ _)
  have hbecomes : OutBecomes (fld b 0 1) (fun x => { x with prog := requestedProg b (beginAt t s) }) s n :=
    (congrArg Time.outs hafter.time_eq).trans (congrArg (fun x : Time => x.outs.modify _ _) hturn.time_eq)
  refine ⟨n, hn, ?_, hbecomes.own (by omega), fun o ho => hbecomes.other ho, honly⟩
  rw [hafter.timeNow_eq, ← hturn.timeNow_eq]
  exact timeNow_congr rfl rfl rfl

end Set

end Requests

/-! ### TIMED_OUTPUT_EDGE, TIMED_OUTPUT_PULSE_END and PPS_EDGE (R437, R439, R441) -/

/-- The only edge of a one-shot, issued in time, ends its programme with its pulse. -/
theorem exec_timedOutputEdge_once {t out : Nat} {p : Programme} {s : State} (hpending : s.time.pending = none)
    (hprog : (s.time.outs.getD out {}).prog = some p) (hleft : p.left = some 1) (hnext : p.next = 0) (hperiod : p.period = 0)
    (hdue : p.start ≤ timeNow (beginAt t s)) (hintime : timeNow (beginAt t s) ≤ p.start + 1025) :
    exec (.timedOutputEdge t out) s =
      .next (pulseOut out p.width (modOut out (fun x => { x with prog := none }) (beginAt t s))) := by
  have hlatest : latestEdge p (timeNow (beginAt t s)) = 0 := by rw [latestEdge, if_pos hperiod, hnext]
  have hends : afterEdge p 0 1 = none := by simp [afterEdge, hleft]
  have hlate : isLate (beginAt t s) p.start = false := by simpa [isLate] using hintime
  show execTimedOutputEdge t out s = _
  unfold execTimedOutputEdge
  rw [settleChange_of_none (s := beginAt t s) hpending]
  simp [-List.getD_eq_getElem?_getD, hprog, hnext, edgeDue_zero, hdue.not_gt, hleft, hlatest, hends, hlate]

/-- A pulse that has had its width ends. -/
theorem exec_timedOutputPulseEnd_due {t out d : Nat} {s : State} (hfall : (s.time.outs.getD out {}).fallAt = some d)
    (hd : d ≤ t) :
    exec (.timedOutputPulseEnd t out) s =
      .next (modOut out (fun x => { x with level := false, fallAt := none }) (beginAt t s)) := by
  show execTimedOutputPulseEnd t out s = _
  unfold execTimedOutputPulseEnd
  simp [-List.getD_eq_getElem?_getD, hfall, hd]

/-- At the start of the second after the last one that had its edge, PPS pulses once. -/
theorem exec_ppsEdge_nextSecond {t : Nat} {sec : Int} {s : State} (hpending : s.time.pending = none) (hon : ppsOn s = true)
    (hlast : (s.time.outs.getD 8 {}).lastSecond = some (sec - 1)) (hnow : timeNow (beginAt t s) = sec * secondUnits) :
    exec (.ppsEdge t) s = .next (pulseOut 8 (1000 * cfgN s Fld.timebase_pps_width 0)
      (modOut 8 (fun x => { x with lastSecond := some sec }) (beginAt t s))) := by
  have hon' : ppsOn (beginAt t s) = true := hon
  have hsec : timeNow (beginAt t s) / secondUnits = sec := by rw [hnow]; exact Int.mul_ediv_cancel _ (by decide)
  have hlate : isLate (beginAt t s) (sec * secondUnits) = false := by simp [isLate, hnow]
  show execPpsEdge t s = _
  unfold execPpsEdge
  rw [settleChange_of_none (s := beginAt t s) hpending]
  simp [-List.getD_eq_getElem?_getD, hon', hsec, hlate, hlast]
  rfl

/-- Settles O30: the requests by the programme they ask for, the edges and the end of a pulse by the equation of each. -/
theorem timedOutputs : Obligations.TimedOutputs := by
  unfold Obligations.TimedOutputs
  refine ⟨?cancel, ?once, ?periodic, ?edge, ?pulseEnd, ?pps⟩
  case cancel =>
    intro t i src b s h hout hlen hclaim haction hperiod hcount hwidth hlong hstamp
    obtain ⟨n, hn, -, hown, hothers⟩ := timedOutputSet_programmes hout hwidth hlong hstamp
      (.inl ⟨by omega, hperiod, hcount⟩) h hlen hclaim (c := .timedOutputCancel t src b) rfl (by omega)
    rw [requestedProg, if_pos haction] at hown
    exact ⟨n, hn, hown, hothers⟩
  case once =>
    intro t i src b s h hout hlen hclaim haction hperiod hcount hwidth hlong hstamp hahead
    obtain ⟨n, hn, -, hown, hothers⟩ := timedOutputSet_programmes hout hwidth hlong hstamp
      (.inl ⟨by omega, hperiod, hcount⟩) h hlen hclaim (c := .timedOutputOnce t src b) rfl fun _ => hahead
    refine ⟨n, hn, ?_, hothers⟩
    have hfirst {p : Programme} (hp : p.start = readStamp s ((b.drop 8).take 12)) :
        firstEdge p (timeNow (beginAt t s) + nsUnits 2000) = 0 := firstEdge_of_le (hp ▸ hahead)
    rw [hown, requestedProg, haction]
    simp [hfirst, readStamp]
  case periodic =>
    intro t i src b s h hout hlen hclaim haction hwidth hlong hstamp hleast hmost
    obtain ⟨n, hn, hnow, hown, hothers⟩ := timedOutputSet_programmes hout hwidth hlong hstamp
      (.inr ⟨haction, hleast, hmost⟩) h hlen hclaim (c := .timedOutputPeriodic t src b) rfl (by omega)
    refine ⟨n, hn, ?_, hothers⟩
    rw [hown, hnow, requestedProg, if_neg (by omega)]
    have hpos : 0 < fld b 24 8 := by unfold nsUnits at hleast; omega
    exact ⟨_, rfl, by simp [haction], rfl, rfl, by simp [haction], firstEdge_isFirst hpos⟩
  case edge =>
    intro t out p s hout hlen hpending hprog _ hleft hnext hperiod hdue hintime
    have hbecomes := pulseOut_modOut_becomes out p.width (fun x => { x with prog := none }) (beginAt t s)
    exact ⟨_, exec_timedOutputEdge_once hpending hprog hleft hnext hperiod hdue hintime,
      hbecomes.own (hlen.symm ▸ hout), fun o ho => hbecomes.other ho,
      ((modOut_keeps ..).then (pulseOut_keeps ..) (by decide)).onlySince⟩
  case pulseEnd =>
    intro t out d s hout hlen hfall hd
    have hbecomes : OutBecomes out (fun x => { x with level := false, fallAt := none }) s
        (modOut out (fun x => { x with level := false, fallAt := none }) (beginAt t s)) := rfl
    exact ⟨_, exec_timedOutputPulseEnd_due hfall hd, hbecomes.own (hlen.symm ▸ hout), fun o ho => hbecomes.other ho,
      (modOut_keeps ..).onlySince⟩
  case pps =>
    intro t sec s hlen hpending hon hlast hnow
    have hbecomes := pulseOut_modOut_becomes 8 (1000 * cfgN s Fld.timebase_pps_width 0)
      (fun x => { x with lastSecond := some sec }) (beginAt t s)
    exact ⟨_, exec_ppsEdge_nextSecond hpending hon hlast hnow, hbecomes.own (hlen.symm ▸ (by decide)),
      fun o ho => hbecomes.other ho, ((modOut_keeps ..).then (pulseOut_keeps ..) (by decide)).onlySince⟩

end Sys2Proof.Machine
end

section
/-! Proofs of the statements on motion requests (15_motion.md): moves and stops (O28), homing, gearing and the states of an axis
(O29). First what a request may do to its axis; then one equation for each action, in the axis state that accepts it. -/
namespace Sys2Proof.Machine
open Sys2Proof

-- As in the sections before: checked in parallel, the whole text takes more threads than the memory limit leaves room for.
set_option Elab.async false

/-! ### The work of a request on its axis -/

/-- From `s` to `n` there has been work on axis `a`, in the groups `w`: `f` gives what the axis has become, every other axis is as it
was, and the module takes decisions by itself or not as before. -/
structure AxisWork (w : List Group) (a : Nat) (f : Axis → Axis) (s n : State) : Prop where
  keeps : Keeps w s n
  partner : partnerSeen n = partnerSeen s
  length : n.axes.length = s.axes.length
  own : axisOf n a = f (axisOf s a)
  others : ∀ b, b ≠ a → axisOf n b = axisOf s b

theorem axisOf_congr {s n : State} (h : n.axes = s.axes) (b : Nat) : axisOf n b = axisOf s b := by rw [axisOf, axisOf, h]

/-- Work that leaves the axes alone. -/
theorem AxisWork.of_keeps {w : List Group} {s n : State} (h : Keeps w s n) (hpartner : partnerSeen n = partnerSeen s) (a : Nat)
    (hw : Group.axes ∉ w := by decide) : AxisWork w a id s n :=
  ⟨h, hpartner, congrArg List.length (h.axes_eq hw), axisOf_congr (h.axes_eq hw) a, fun b _ => axisOf_congr (h.axes_eq hw) b⟩

theorem AxisWork.mono {w v : List Group} {a : Nat} {f : Axis → Axis} {s n : State} (h : AxisWork v a f s n) (hv : v ⊆ w) :
    AxisWork w a f s n := ⟨h.keeps.mono hv, h.partner, h.length, h.own, h.others⟩

theorem AxisWork.then {w v : List Group} {a : Nat} {f g : Axis → Axis} {s m n : State} (h1 : AxisWork w a f s m)
    (h2 : AxisWork v a g m n) (hv : v ⊆ w := by decide) : AxisWork w a (fun x => g (f x)) s n :=
  ⟨h1.keeps.then h2.keeps hv, h2.partner.trans h1.partner, h2.length.trans h1.length, by rw [h2.own, h1.own],
    fun b hb => (h2.others b hb).trans (h1.others b hb)⟩

theorem modAxis_work {a : Nat} (f : Axis → Axis) {s : State} (ha : a < s.axes.length) : AxisWork [.axes] a f s (modAxis a f s) :=
  ⟨modAxis_keeps .., rfl, List.length_modify .., axisOf_modAxis f ha, fun _ hb => axisOf_modAxis_other f s hb⟩

theorem addPending_work (a k kind : Nat) (s : State) : AxisWork [.net] a id s (addPending k kind s) :=
  .of_keeps (addPending_keeps ..) rfl a

theorem partnerSeen_finishResult (k : Nat) (body : List Byte) (s : State) : partnerSeen (finishResult k body s) = partnerSeen s := by
  unfold finishResult
  split
  · rfl
  · dsimp only
    split
    · split <;> rfl
    · unfold onAck
      split
      · exact partnerSeen_sendToken ..
      · exact (partnerSeen_of_pair_eq (timeResult_keeps ..).pair_eq).trans (partnerSeen_sendToken ..)

theorem finishResult_work (a k : Nat) (body : List Byte) (s : State) : AxisWork [.net, .pair] a id s (finishResult k body s) :=
  .of_keeps (finishResult_keeps ..) (partnerSeen_finishResult ..) a

/-- The request in progress on an axis is over, in whatever way (R468). -/
def reqOver (x : Axis) : Axis := { x with req := none }

/-- The gear change pending on an axis is over, in whatever way (R461). -/
def changeOver (x : Axis) : Axis := { x with change := none }

theorem endReq_work {a : Nat} (outcome : Nat) {s : State} (ha : a < s.axes.length) :
    AxisWork [.net, .axes, .pair] a reqOver s (endReq a outcome s) := by
  unfold endReq
  dsimp only
  split
  · next hnone => exact ⟨.refl _ s, rfl, rfl, by rw [reqOver, ← hnone], fun _ _ => rfl⟩
  · exact ((modAxis_work reqOver ha).mono (by decide)).then (finishResult_work ..)

theorem endChange_work {a : Nat} (outcome : Nat) {s : State} (ha : a < s.axes.length) :
    AxisWork [.net, .pos, .axes, .pair] a changeOver s (endChange a outcome s) := by
  unfold endChange
  split
  · next hnone => exact ⟨.refl _ s, rfl, rfl, by rw [changeOver, ← hnone], fun _ _ => rfl⟩
  · exact (((modAxis_work changeOver ha).mono (by decide)).then (.of_keeps (dropAux_keeps ..) rfl a)).then (finishResult_work ..)

/-- The axis is still there after work on it. -/
theorem AxisWork.lt {w : List Group} {a : Nat} {f : Axis → Axis} {s n : State} (h : AxisWork w a f s n) (ha : a < s.axes.length) :
    a < n.axes.length := h.length.symm ▸ ha

/-- After other work, `g` changes the axis. -/
theorem AxisWork.mod {w : List Group} {a : Nat} {f : Axis → Axis} {s n : State} (h : AxisWork w a f s n) (ha : a < s.axes.length)
    (g : Axis → Axis) (hw : [.axes] ⊆ w := by decide) : AxisWork w a (fun x => g (f x)) s (modAxis a g n) :=
  h.then (modAxis_work g (h.lt ha)) hw

/-- What a request ends on an axis: the request before it, and the pending gear change. -/
theorem endBoth_work {a : Nat} (outcome : Nat) {s : State} (ha : a < s.axes.length) :
    AxisWork [.net, .pos, .axes, .pair] a (fun x => changeOver (reqOver x)) s (endChange a outcome (endReq a outcome s)) :=
  have hreq := endReq_work outcome ha
  (hreq.mono (by decide)).then (endChange_work outcome (hreq.lt ha))

/-- The record of a request that has just begun in HOLD. -/
def freshReq (k : Nat) : AxisReq :=
  { ticket := k, deferred := false, reversed := false, late := false, reversal := 0, retargetAt := none, maxDev := 0 }

/-- Request `k` is in progress on an axis. -/
def inProgress (k : Nat) (x : Axis) : Axis := { x with req := some (freshReq k) }

theorem beginReq_work {a : Nat} (k : Nat) {s : State} (ha : a < s.axes.length) :
    AxisWork [.net, .axes] a (inProgress k) s (beginReq a k none s) :=
  ((addPending_work a k 0x2D s).mono (by decide)).then (modAxis_work (inProgress k) ha)

theorem beginReq_pending (a k : Nat) (at_ : Option Rat) (s : State) : Pending k (beginReq a k at_ s) :=
  (addPending_pending k 0x2D s).of_results_eq rfl

/-! ### A MOVE_REQUEST in its turn (R453, R466, R467) -/

/-- With no emergency stop due and no homing latch, nothing comes before the message. -/
theorem causesFirst_of_none {a : Nat} {s : State} (hstop : (axisOf s a).stopDue = none) (hlatch : (axisOf s a).latchDue = none) :
    causesFirst a s = s := by
  have hfirst : stopFirst a s = s := by rw [stopFirst, hstop]
  simp [causesFirst, hfirst, hlatch]

theorem plainBody_congr {a : Nat} {s n : State} (hmod : n.mod = s.mod) (htime : timeNow n = timeNow s)
    (hp : (axisOf n a).p = (axisOf s a).p) (outcome flags : Nat) : plainBody n a outcome flags = plainBody s a outcome flags := by
  unfold plainBody moveBody stampOf
  rw [hmod, htime, hp]

section AtTurn
variable {t i : Nat} {src : Src} {payload : List Byte} {s : State}

theorem partnerSeen_atTurn : partnerSeen (atTurn t src 0x2D payload i s) = partnerSeen s :=
  (partnerSeen_sendOrder ..).trans (partnerSeen_of_pair_eq (s := beginAt t s) (takeTurn_keeps ..).pair_eq)

theorem axisOf_atTurn (a : Nat) : axisOf (atTurn t src 0x2D payload i s) a = axisOf s a :=
  axisOf_congr (atTurn_keeps (s := s)).axes_eq a

theorem cfgN_atTurn (id a : Nat) : cfgN (atTurn t src 0x2D payload i s) id a = cfgN s id a := by rw [atTurn_eq]; rfl

theorem dinActive_atTurn (d : Nat) : dinActive (atTurn t src 0x2D payload i s) d = dinActive s d := by rw [atTurn_eq]; rfl

theorem limitActive_atTurn (a : Nat) (dir : Rat) : limitActive (atTurn t src 0x2D payload i s) a dir = limitActive s a dir := by
  rw [atTurn_eq]; rfl

theorem linePosValue_atTurn (k date : Nat) : linePosValue (atTurn t src 0x2D payload i s) k date = linePosValue s k date := by
  rw [atTurn_eq]; rfl

theorem now_atTurn : (atTurn t src 0x2D payload i s).now = max s.now t := (atTurn_keeps (s := s)).now_eq

end AtTurn

section Move
variable {t i a action : Nat} {src : Src} {payload : List Byte} {s : State} (h : MoveAdmitted t src payload s i a action)
include h

theorem MoveAdmitted.axis_lt : a < (atTurn t src 0x2D payload i s).axes.length := by
  obtain ⟨-, -, -, ha, -, hlen, -⟩ := h
  rw [(atTurn_keeps (s := s)).axes_eq]
  exact hlen ▸ ha

/-- The message gets to its own action, on the axis and the ticket that it names, in the state of its turn. -/
theorem MoveAdmitted.moveCommon_eq (f : Nat → Nat → State → Verdict) :
    moveCommon payload (atTurn t src 0x2D payload i s) f = f a (fld payload 0 4) (atTurn t src 0x2D payload i s) := by
  obtain ⟨-, hpayload, haxis, ha, henable, -, hlatch, hstop, -⟩ := h
  have hnamed : moveAxis payload = a := haxis
  unfold moveCommon
  rw [if_neg (Nat.not_lt.mpr hpayload), hnamed, if_neg (by simp [cfgN_atTurn, henable, ha]),
    causesFirst_of_none (by rwa [axisOf_atTurn]) (by rwa [axisOf_atTurn])]
  rfl

theorem MoveAdmitted.action_eq : fld payload 8 1 = action := by
  obtain ⟨-, -, -, -, -, -, -, -, haction⟩ := h
  exact haction

/-- What an accepted request leaves behind is its work on the axis. -/
theorem MoveAdmitted.accepted {c : Instr} {v w : List Group} {f : Axis → Axis} {m : State}
    (hexec : exec c s = .next (hostMessage t src 0x2D payload msgMove s))
    (hok : msgMove i payload (atTurn t src 0x2D payload i s) = .ok m) (hm : AxisWork v a f (atTurn t src 0x2D payload i s) m)
    (hv : v ⊆ [.net, .pos, .axes, .pair] := by decide) (hw : ([.clock, .net, .pair] : List Group) ++ v ⊆ w := by decide) :
    Completes c s fun n => n.now = max s.now t ∧ n.net.results = m.net.results ∧ axisOf n a = f (axisOf s a) ∧
      (∀ b, b ≠ a → axisOf n b = axisOf s b) ∧ Only w s n := by
  obtain ⟨n, hn, hafter, htalks, honly⟩ := h.1.accepted hexec hok (hok ▸ KeepsV.ok hm.keeps) hw
  have hlast (b : Nat) : axisOf n b = axisOf m b := axisOf_congr hafter.axes_eq b
  have hnow : m.now = max s.now t := (hm.keeps.mono hv).now_eq.trans now_atTurn
  exact ⟨n, hn, htalks.now.trans hnow, htalks.results, by rw [hlast, hm.own, axisOf_atTurn],
    fun b hb => by rw [hlast, hm.others b hb, axisOf_atTurn], honly⟩

/-- So it is with a request whose result is pending. -/
theorem MoveAdmitted.pends {c : Instr} {v w : List Group} {f : Axis → Axis} {m : State}
    (hexec : exec c s = .next (hostMessage t src 0x2D payload msgMove s))
    (hok : msgMove i payload (atTurn t src 0x2D payload i s) = .ok m) (hm : AxisWork v a f (atTurn t src 0x2D payload i s) m)
    (hpending : Pending (fld payload 0 4) m) (hv : v ⊆ [.net, .pos, .axes, .pair] := by decide)
    (hw : ([.clock, .net, .pair] : List Group) ++ v ⊆ w := by decide) :
    Completes c s fun n => n.now = max s.now t ∧ axisOf n a = f (axisOf s a) ∧ Pending (fld payload 0 4) n ∧
      (∀ b, b ≠ a → axisOf n b = axisOf s b) ∧ Only w s n := by
  obtain ⟨n, hn, hnow, hresults, hown, hothers, honly⟩ := h.accepted hexec hok hm hv hw
  exact ⟨n, hn, hnow, hown, hpending.of_results_eq hresults, hothers, honly⟩

/-- A request that is done at once is ready with a body that reports the position, where the work before it leaves the position
alone (R468). -/
theorem MoveAdmitted.done {c : Instr} {v w : List Group} {f : Axis → Axis} {m : State} {outcome : Nat} (hset : Settled s)
    (hexec : exec c s = .next (hostMessage t src 0x2D payload msgMove s))
    (hok : msgMove i payload (atTurn t src 0x2D payload i s) = .ok (doneAtOnce a (fld payload 0 4) outcome 0 m))
    (hm : AxisWork v a f (atTurn t src 0x2D payload i s) m) (hp : ∀ x, (f x).p = x.p := by intro _; rfl)
    (hv : v ⊆ [.net, .pos, .axes, .pair] := by decide)
    (hw : ([.clock, .net, .pair] : List Group) ++ (([.net, .pair] : List Group) ++ v) ⊆ w := by decide) :
    Completes c s fun n => axisOf n a = f (axisOf s a) ∧ Ready (fld payload 0 4) (plainBody (beginAt t s) a outcome 0) n ∧
      (∀ b, b ≠ a → axisOf n b = axisOf s b) ∧ Only w s n := by
  let asked := addPending (fld payload 0 4) 0x2D m
  have hall : AxisWork (([.net, .pair] : List Group) ++ v) a f (atTurn t src 0x2D payload i s)
      (doneAtOnce a (fld payload 0 4) outcome 0 m) :=
    ((hm.mono (List.subset_append_right ..)).then ((addPending_work a _ _ m).mono (w := [.net, .pair]) (by decide))
      (List.subset_append_left ..)).then (finishResult_work ..) (List.subset_append_left ..)
  obtain ⟨n, hn, -, hresults, hown, hothers, honly⟩ := h.accepted hexec hok hall
    (List.append_subset.mpr ⟨by decide, hv⟩) hw
  have hturn : Keeps [.net, .pos, .axes, .pair] (beginAt t s) (atTurn t src 0x2D payload i s) :=
    (atTurn_keeps (s := s)).mono (by decide)
  have hkeeps := hturn.then (hm.keeps.mono hv) (List.Subset.refl _)
  have hbody : plainBody m a outcome 0 = plainBody (beginAt t s) a outcome 0 :=
    plainBody_congr hkeeps.mod_eq hkeeps.timeNow_eq (by rw [hm.own, hp, axisOf_atTurn]; rfl) outcome 0
  have hready : Ready (fld payload 0 4) (plainBody asked a outcome 0) (doneAtOnce a (fld payload 0 4) outcome 0 m) :=
    finishResult_ready (addPending_answerable _ _ (hset.atTurn.of_partnerSeen_eq hm.partner))
  rw [show plainBody asked a outcome 0 = plainBody m a outcome 0 from rfl, hbody] at hready
  exact ⟨n, hn, hown, hready.of_results_eq hresults, hothers, honly⟩

end Move

/-! ### Requests that set an axis in motion out of HOLD (R447, R448, R458, R460) -/

/-- A motion begins on an axis in HOLD: `f` gives what it is. -/
def beginMotion (a k : Nat) (f : Axis → Axis) (s : State) : State := clearStop a (modAxis a f (latchShadow a (beginReq a k none s)))

/-- The shadow is latched (R448). -/
def withShadow (x : Axis) : Axis := { x with latched := x.shadow }

/-- The cause of an earlier emergency stop is gone. -/
def stopCleared (x : Axis) : Axis := { x with stopCause := 0 }

/-- What an axis is once it has begun the motion of request `k`. -/
def motionBegun (k : Nat) (f : Axis → Axis) (x : Axis) : Axis := stopCleared (f (withShadow (inProgress k x)))

theorem beginMotion_work {a : Nat} (k : Nat) (f : Axis → Axis) {s : State} (ha : a < s.axes.length) :
    AxisWork [.net, .axes] a (motionBegun k f) s (beginMotion a k f s) :=
  (((beginReq_work k ha).mod ha withShadow).mod ha f).mod ha stopCleared

theorem beginMotion_pending (a k : Nat) (f : Axis → Axis) (s : State) : Pending k (beginMotion a k f s) :=
  (beginReq_pending a k none s).of_results_eq rfl

theorem MoveAdmitted.begins {t i a action : Nat} {src : Src} {payload : List Byte} {s : State}
    (h : MoveAdmitted t src payload s i a action) {c : Instr} {f : Axis → Axis}
    (hexec : exec c s = .next (hostMessage t src 0x2D payload msgMove s))
    (hok : msgMove i payload (atTurn t src 0x2D payload i s) =
      .ok (beginMotion a (fld payload 0 4) f (atTurn t src 0x2D payload i s))) :
    Completes c s fun n => n.now = max s.now t ∧ axisOf n a = motionBegun (fld payload 0 4) f (axisOf s a) ∧
      Pending (fld payload 0 4) n ∧ (∀ b, b ≠ a → axisOf n b = axisOf s b) ∧ Only [.clock, .net, .pair, .axes] s n :=
  h.pends hexec hok (beginMotion_work _ f h.axis_lt) (beginMotion_pending ..)

/-- The direction in which a move sets out: that of its velocity, or of the way to its target. -/
def startDir (jog : Option Rat) (way : Rat) : Rat := jog.elim (signRat way) signRat

/-- What a move makes of the axis. -/
def moveOf (target : Rat) (jog : Option Rat) (x : Axis) : Axis :=
  { x with state := .moving, target := target, jog := jog, holdCurrent := false }

theorem startMove_of_hold {a k : Nat} {target : Rat} {jog : Option Rat} {s : State} (hhold : (axisOf s a).state = .hold)
    (hlimit : limitActive s a (startDir jog (target - (axisOf s a).p)) = false) :
    startMove a k target jog s = .ok (beginMotion a k (moveOf target jog) s) := by
  unfold startMove
  dsimp only
  rw [if_neg (by simp [hhold])]
  cases jog <;> exact (if_neg (ne_true_of_eq_false hlimit)).trans (by rw [if_neg (by simp [hhold])]; rfl)

/-! ### STOP and ESTOP (R447, R451) -/

/-- STOP makes an axis run to the rest position of its profile. -/
def runToRest (x : Axis) : Axis :=
  { x with
    state := .stopping, target := restPosition x, jog := none, home := none, gear := none, latchDue := none, stopCause := 0 }

/-- What an axis is once STOP, request `k`, has ended what was in progress. -/
def stopBegun (k : Nat) (x : Axis) : Axis := runToRest (inProgress k (changeOver (reqOver x)))

theorem stopBegun_v (k : Nat) (x : Axis) : (stopBegun k x).v = x.v := rfl

/-- What STOP ends and begins does not count in the profile. -/
theorem stopBegun_target (k : Nat) (x : Axis) : (stopBegun k x).target = restPosition x := by
  simp only [stopBegun, runToRest, restPosition, inProgress, changeOver, reqOver]

/-- STOP, request `k`, of an axis that moves. -/
def stopMoving (a k : Nat) (s : State) : State :=
  modAxis a runToRest (beginReq a k none (endChange a moveStopped (endReq a moveStopped s)))

theorem stopMoving_work {a : Nat} (k : Nat) {s : State} (ha : a < s.axes.length) :
    AxisWork [.net, .pos, .axes, .pair] a (stopBegun k) s (stopMoving a k s) :=
  have hended := endBoth_work moveStopped ha
  (hended.then (beginReq_work k (hended.lt ha))).mod ha runToRest

theorem stopMoving_pending (a k : Nat) (s : State) : Pending k (stopMoving a k s) :=
  (beginReq_pending a k none (endChange a moveStopped (endReq a moveStopped s))).of_results_eq rfl

theorem axisToken_work (a event : Nat) (value : Int) (s : State) : AxisWork [.pair] a id s (axisToken a event value s) :=
  .of_keeps (axisToken_keeps ..) (partnerSeen_sendToken ..) a

theorem axisEstop_work {a : Nat} (cause : Nat) {s : State} (ha : a < s.axes.length) (hrest : atRest s a = false) :
    AxisWork [.net, .pos, .axes, .pair] a (fun x => changeOver (reqOver (stopping cause x))) s (axisEstop a cause s) := by
  have hestop : axisEstop a cause s = endChange a moveEstopped (endReq a moveEstopped (modAxis a (stopping cause) s)) :=
    if_neg (ne_true_of_eq_false hrest)
  have hstopping := (modAxis_work (stopping cause) ha).mono (w := [.net, .pos, .axes, .pair]) (by decide)
  rw [hestop]
  exact hstopping.then (endBoth_work moveEstopped (hstopping.lt ha))

/-- The work of an ESTOP on a module that decides by itself. -/
theorem estop_work {a : Nat} (k : Nat) {s : State} (ha : a < s.axes.length) (hfollows : follows s = false)
    (hrest : atRest s a = false) :
    AxisWork [.net, .pos, .axes, .pair] a (fun x => inProgress k (changeOver (reqOver (stopping 1 x)))) s
      (beginReq a k none (ownEstop a 1 s)) := by
  have htoken := (axisToken_work a 1 1 s).mono (w := [.net, .pos, .axes, .pair]) (by decide)
  have hrest' : atRest (axisToken a 1 1 s) a = false := by
    rw [atRest, htoken.own]
    exact hrest
  have hown : ownEstop a 1 s = axisEstop a 1 (axisToken a 1 1 s) := if_neg (by simp [hfollows, hrest])
  have hestop := htoken.then (axisEstop_work 1 (htoken.lt ha) hrest')
  rw [hown]
  exact hestop.then (beginReq_work k (hestop.lt ha))

theorem atRest_eq_false {a : Nat} {s : State} (hoff : (axisOf s a).state ≠ .off) (hfault : (axisOf s a).state ≠ .fault) :
    atRest s a = false := by simp [atRest, hoff, hfault]

theorem follows_congr {s n : State} (h : partnerSeen n = partnerSeen s) : follows n = follows s := by
  have hstate : n.pair.state = s.pair.state := congrArg Prod.fst h
  rw [follows, follows, hstate]

/-- A move out of HOLD, with the limit of its direction inactive. -/
theorem MoveAdmitted.setsOut {t i a action : Nat} {src : Src} {payload : List Byte} {s : State}
    (h : MoveAdmitted t src payload s i a action) {c : Instr} {target : Rat} {jog : Option Rat}
    (hexec : exec c s = .next (hostMessage t src 0x2D payload msgMove s))
    (hmsg : msgMove i payload (atTurn t src 0x2D payload i s) =
      startMove a (fld payload 0 4) target jog (atTurn t src 0x2D payload i s))
    (hhold : (axisOf s a).state = .hold) (hlimit : limitActive s a (startDir jog (target - (axisOf s a).p)) = false) :
    Completes c s fun n => axisOf n a = motionBegun (fld payload 0 4) (moveOf target jog) (axisOf s a) ∧
      Pending (fld payload 0 4) n ∧ (∀ b, b ≠ a → axisOf n b = axisOf s b) ∧ Only [.clock, .net, .pair, .axes] s n := by
  obtain ⟨n, hn, -, hrest⟩ := h.begins hexec (hmsg.trans (startMove_of_hold (by rwa [axisOf_atTurn])
    (by rwa [axisOf_atTurn, limitActive_atTurn])))
  exact ⟨n, hn, hrest⟩

/-- Settles O28: a move begins its motion, STOP and ESTOP end what was in progress first; the axis in the state left behind is the
one that the request makes of it. -/
theorem movesAndStops : Obligations.MovesAndStops := by
  unfold Obligations.MovesAndStops
  refine ⟨?abs, ?rel, ?jog, ?stop, ?stopAtRest, ?estop⟩
  case abs =>
    intro t i a src payload s h hhold hlimit
    have hmsg : msgMove i payload (atTurn t src 0x2D payload i s) =
        startMove a (fld payload 0 4) (moveValue payload : Rat) none (atTurn t src 0x2D payload i s) := by
      rw [msgMove, h.action_eq]
      exact h.moveCommon_eq _
    obtain ⟨n, hn, hown, hrest⟩ := h.setsOut (c := .moveAbs t src payload) rfl hmsg hhold hlimit
    refine ⟨n, hn, ?_⟩
    beta_reduce
    rw [hown]
    exact ⟨rfl, rfl, rfl, rfl, rfl, hrest⟩
  case rel =>
    intro t i a src payload s h hhold hlimit
    have hmsg : msgMove i payload (atTurn t src 0x2D payload i s) =
        startMove a (fld payload 0 4) ((axisOf s a).p + (moveValue payload : Rat)) none (atTurn t src 0x2D payload i s) := by
      rw [msgMove, h.action_eq, ← axisOf_atTurn]
      exact h.moveCommon_eq _
    obtain ⟨n, hn, hown, hrest⟩ := h.setsOut (c := .moveRel t src payload) rfl hmsg hhold (by rwa [add_sub_cancel_left])
    refine ⟨n, hn, ?_⟩
    beta_reduce
    rw [hown]
    exact ⟨rfl, rfl, rfl, rfl, hrest⟩
  case jog =>
    intro t i a src payload s h hhold hlimit
    have hmsg : msgMove i payload (atTurn t src 0x2D payload i s) =
        startMove a (fld payload 0 4) 0 (some (moveValue payload : Rat)) (atTurn t src 0x2D payload i s) := by
      rw [msgMove, h.action_eq]
      exact h.moveCommon_eq _
    obtain ⟨n, hn, hown, hrest⟩ := h.setsOut (c := .jog t src payload) rfl hmsg hhold hlimit
    refine ⟨n, hn, ?_⟩
    beta_reduce
    rw [hown]
    exact ⟨rfl, rfl, rfl, hrest⟩
  case stop =>
    intro t i a src payload s h hmoving
    have hok : msgMove i payload (atTurn t src 0x2D payload i s) = .ok (stopMoving a (fld payload 0 4)
        (atTurn t src 0x2D payload i s)) := by
      rw [msgMove, h.action_eq]
      exact (h.moveCommon_eq _).trans (if_pos (by simp [axisOf_atTurn, hmoving]))
    obtain ⟨n, hn, -, hown, hrest⟩ := h.pends (c := .stop t src payload) (w := [.clock, .net, .pair, .axes, .pos]) rfl hok
      (stopMoving_work _ h.axis_lt) (stopMoving_pending ..)
    refine ⟨n, hn, ?_⟩
    beta_reduce
    rw [hown]
    exact ⟨rfl, rfl, stopBegun_target .., rfl, stopBegun_v .., hrest⟩
  case stopAtRest =>
    intro t i a src payload s h hhold hset
    have hok : msgMove i payload (atTurn t src 0x2D payload i s) =
        .ok (doneAtOnce a (fld payload 0 4) moveDone 0 (atTurn t src 0x2D payload i s)) := by
      rw [msgMove, h.action_eq]
      exact (h.moveCommon_eq _).trans (if_neg (by simp [axisOf_atTurn, hhold]))
    obtain ⟨n, hn, -, hready, -, honly⟩ := h.done (c := .stop t src payload) (w := [.clock, .net, .pair]) hset rfl hok
      (.of_keeps (.refl [] _) rfl a)
    exact ⟨n, hn, hready, honly⟩
  case estop =>
    intro t i a src payload s h hoff hfault hfollows
    have hfollows' : follows (atTurn t src 0x2D payload i s) = false := (follows_congr partnerSeen_atTurn).trans hfollows
    have hatRest : atRest (atTurn t src 0x2D payload i s) a = false :=
      atRest_eq_false (by rwa [axisOf_atTurn]) (by rwa [axisOf_atTurn])
    have hok : msgMove i payload (atTurn t src 0x2D payload i s) =
        .ok (beginReq a (fld payload 0 4) none (ownEstop a 1 (atTurn t src 0x2D payload i s))) := by
      rw [msgMove, h.action_eq]
      exact (h.moveCommon_eq _).trans ((if_neg (ne_true_of_eq_false hatRest)).trans (if_neg (by simp [hfollows'])))
    obtain ⟨n, hn, -, hown, hrest⟩ := h.pends (c := .estop t src payload) (w := [.clock, .net, .pair, .axes, .pos]) rfl hok
      (estop_work _ h.axis_lt hfollows' hatRest) (beginReq_pending ..)
    refine ⟨n, hn, ?_⟩
    beta_reduce
    rw [hown]
    exact ⟨rfl, rfl, rfl, rfl, hrest⟩

/-! ### HOME, GEAR and GEAR_CHANGE (R458, R460, R461) -/

/-- What HOME makes of the axis. -/
def homeOf (phase : HomePhase) (x : Axis) : Axis := { x with state := .homing, home := some (phase, 0, 0), holdCurrent := false }

/-- What GEAR to input `k` makes of the axis, with the anchor at a line-position value. -/
def gearOf (k : Nat) (anchor : Rat) (ratio : Int) (x : Axis) : Axis :=
  { x with
    state := .geared, gear := some (k, x.p, anchor, ratio), target := x.p, lag := 0, lagRaised := false, holdCurrent := false }

/-- A gear change is pending on the axis. -/
def withChange (g : GearChange) (x : Axis) : Axis := { x with change := some g }

theorem freezeRamp_of_none {a : Nat} {s : State} (h : (axisOf s a).change = none) : freezeRamp a s = s := by
  simp only [freezeRamp, h]
  cases (axisOf s a).gear <;> rfl

theorem endChange_of_none {a outcome : Nat} {s : State} (h : (axisOf s a).change = none) : endChange a outcome s = s := by
  rw [endChange, h]

theorem addAux_work (a : Nat) (x : Aux) (s : State) : AxisWork [.pos] a id s (addAux x s) :=
  .of_keeps (addAux_keeps ..) (partnerSeen_of_pair_eq (addAux_keeps ..).pair_eq) a

/-- The gear change that a GEAR_CHANGE asks for ahead of its count. -/
def changeAsked (p : List Byte) : GearChange :=
  { ticket := fld p 0 4, at_ := (sfld p 20 8 : Rat), ramp := fld p 28 4, ratio := moveValue p, started := false, late := false }

/-- The auxiliary channel that a gear change waits for its count on (R461). -/
def changeAux (p : List Byte) (a k : Nat) : Aux :=
  { source := k, point := sfld p 20 8 * 4294967296, spacing := 0, count := 1, action := .gearChange a }

/-- A GEAR_CHANGE ahead of its count, with none pending before it. -/
def askChange (p : List Byte) (a k : Nat) (s : State) : State :=
  addAux (changeAux p a k) (modAxis a (withChange (changeAsked p)) (addPending (fld p 0 4) 0x2D s))

theorem askChange_work (p : List Byte) {a : Nat} (k : Nat) {s : State} (ha : a < s.axes.length) :
    AxisWork [.net, .axes, .pos] a (withChange (changeAsked p)) s (askChange p a k s) :=
  (((addPending_work a _ 0x2D s).mono (by decide)).mod ha (withChange (changeAsked p))).then (addAux_work ..)

theorem askChange_pending (p : List Byte) (a k : Nat) (s : State) : Pending (fld p 0 4) (askChange p a k s) :=
  (addPending_pending (fld p 0 4) 0x2D s).of_results_eq (congrArg Net.results (addAux_keeps ..).net_eq)

/-! ### SET_PARAMS, ENABLE, DISABLE and CLEAR_FAULT (R445, R448) -/

/-- An axis that has entered HOLD at a clock. -/
def heldSince (now : Nat) (x : Axis) : Axis :=
  { x with
    state := .hold, v := 0, a := 0, jog := none, home := none, gear := none, latchDue := none, stopDue := none, track := []
    holdSince := now, holdCurrent := false }

/-- The position of an axis is referred to an encoder count (R457). -/
def referredTo (count : Int) (x : Axis) : Axis :=
  { x with countRef := count, refPos := x.p, referenced := true, deviation := 0, stallSince := none, vbusBad := 0 }

theorem enable_work {a : Nat} (count : Int) {s : State} (ha : a < s.axes.length) :
    AxisWork [.axes] a (fun x => stopCleared (referredTo count (heldSince s.now x))) s
      (clearStop a (modAxis a (referredTo count) (enterHold a s))) :=
  ((modAxis_work (heldSince s.now) ha).mod ha (referredTo count)).mod ha stopCleared

/-- An axis that has entered OFF, its requests ended before. -/
def switchedOff (x : Axis) : Axis :=
  { x with
    state := .off, v := 0, a := 0, jog := none, home := none, gear := none, latchDue := none, stopDue := none, track := []
    stallSince := none, duty := none, holdCurrent := false }

theorem axisOff_work {a : Nat} {s : State} (ha : a < s.axes.length) :
    AxisWork [.net, .pos, .axes, .pair] a (fun x => switchedOff (changeOver (reqOver x))) s (axisOff a s) :=
  (endBoth_work moveStopped ha).mod ha switchedOff

/-- The cause of the last fault is gone. -/
def faultCleared (x : Axis) : Axis := { x with faultCause := 0 }

/-- Settles O29: HOME and GEAR begin a motion, GEAR_CHANGE takes an auxiliary channel, and the other requests are done at once. -/
theorem homingGearingAndStates : Obligations.HomingGearingAndStates := by
  unfold Obligations.HomingGearingAndStates
  refine ⟨?home, ?gear, ?gearChange, ?setParams, ?enable, ?disable, ?clearFault⟩
  case home =>
    intro t i a src payload s h hhold hinput
    have hok : msgMove i payload (atTurn t src 0x2D payload i s) = .ok (beginMotion a (fld payload 0 4)
        (homeOf (if dinActive s (cfgN s Fld.motion_home_input a) then .backoff else .seek)) (atTurn t src 0x2D payload i s)) := by
      rw [msgMove, h.action_eq, ← dinActive_atTurn, ← cfgN_atTurn]
      exact (h.moveCommon_eq _).trans (if_neg (by simp [axisOf_atTurn, cfgN_atTurn, hhold, hinput]))
    obtain ⟨n, hn, -, hown, hrest⟩ := h.begins (c := .home t src payload) rfl hok
    refine ⟨n, hn, ?_⟩
    beta_reduce
    rw [hown]
    exact ⟨rfl, rfl, rfl, hrest⟩
  case gear =>
    intro t i a src payload s h hhold hinput hlimit
    have hok : msgMove i payload (atTurn t src 0x2D payload i s) = .ok (beginMotion a (fld payload 0 4)
        (gearOf (fld payload 32 1) (linePosValue s (fld payload 32 1) (max s.now t)) (moveValue payload))
        (atTurn t src 0x2D payload i s)) := by
      rw [msgMove, h.action_eq, ← linePosValue_atTurn, ← now_atTurn]
      exact (h.moveCommon_eq _).trans ((if_neg (by simp [axisOf_atTurn, hhold, hinput])).trans
        (if_neg (by simp [limitActive_atTurn, hlimit])))
    obtain ⟨n, hn, hnow, hown, hrest⟩ := h.begins (c := .gear t src payload) rfl hok
    refine ⟨n, hn, ?_⟩
    beta_reduce
    rw [hown, hnow]
    exact ⟨rfl, rfl, rfl, hrest⟩
  case gearChange =>
    intro t i a k off anchor r src payload s h hgeared hgear hlimit hchange hahead
    have hok : msgMove i payload (atTurn t src 0x2D payload i s) = .ok (askChange payload a k (atTurn t src 0x2D payload i s)) := by
      rw [msgMove, h.action_eq]
      refine (h.moveCommon_eq _).trans ?_
      have hchange' : (axisOf (atTurn t src 0x2D payload i s) a).change = none := by rwa [axisOf_atTurn]
      have hlate : ¬ posDiff (sfld payload 20 8 : Rat) (linePosValue s k (max s.now t)) ≤ 0 := not_le.mpr hahead
      simp only [axisOf_atTurn, hgear, hgeared, limitActive_atTurn, hlimit, freezeRamp_of_none hchange', endChange_of_none hchange',
        linePosValue_atTurn, now_atTurn, hlate]
      rfl
    obtain ⟨n, hn, -, hown, hrest⟩ := h.pends (c := .gearChange t src payload) (w := [.clock, .net, .pair, .axes, .pos]) rfl hok
      (askChange_work payload k h.axis_lt) (askChange_pending ..)
    refine ⟨n, hn, ?_⟩
    beta_reduce
    rw [hown]
    exact ⟨hgeared, rfl, rfl, hrest⟩
  case setParams =>
    intro t i a src payload s h hreq hset
    have hok : msgMove i payload (atTurn t src 0x2D payload i s) = .ok (doneAtOnce a (fld payload 0 4) moveApplied 0
        (modAxis a (fun x => { x with shadow := readParams payload }) (atTurn t src 0x2D payload i s))) := by
      rw [msgMove, h.action_eq]
      refine (h.moveCommon_eq _).trans ?_
      simp only [axisOf_atTurn, hreq]
    exact h.done (c := .setParams t src payload) (w := [.clock, .net, .pair, .axes]) hset rfl hok (modAxis_work _ h.axis_lt)
  case enable =>
    intro t i a src payload s h hoff hset
    have hok : ∃ count, msgMove i payload (atTurn t src 0x2D payload i s) = .ok (doneAtOnce a (fld payload 0 4) moveApplied 0
        (clearStop a (modAxis a (referredTo count) (enterHold a (atTurn t src 0x2D payload i s))))) := by
      rw [msgMove, h.action_eq]
      exact ⟨_, (h.moveCommon_eq _).trans (if_neg (by simp [axisOf_atTurn, hoff]))⟩
    obtain ⟨count, hok⟩ := hok
    obtain ⟨n, hn, hown, hrest⟩ := h.done (c := .enable t src payload) (w := [.clock, .net, .pair, .axes]) hset rfl hok
      (enable_work count h.axis_lt)
    refine ⟨n, hn, ?_⟩
    beta_reduce
    rw [hown]
    exact ⟨rfl, rfl, rfl, hrest⟩
  case disable =>
    intro t i a src payload s h hhold hset
    have hok : msgMove i payload (atTurn t src 0x2D payload i s) =
        .ok (doneAtOnce a (fld payload 0 4) moveApplied 0 (axisOff a (atTurn t src 0x2D payload i s))) := by
      rw [msgMove, h.action_eq]
      exact (h.moveCommon_eq _).trans (if_neg (by simp [axisOf_atTurn, hhold]))
    obtain ⟨n, hn, hown, hrest⟩ := h.done (c := .disable t src payload) (w := [.clock, .net, .pair, .axes, .pos]) hset rfl hok
      (axisOff_work h.axis_lt)
    exact ⟨n, hn, congrArg Axis.state hown, hrest⟩
  case clearFault =>
    intro t i a src payload s h hfault hset
    have hok : msgMove i payload (atTurn t src 0x2D payload i s) = .ok (doneAtOnce a (fld payload 0 4) moveApplied 0
        (modAxis a faultCleared (axisOff a (atTurn t src 0x2D payload i s)))) := by
      rw [msgMove, h.action_eq]
      exact (h.moveCommon_eq _).trans (if_neg (by simp [axisOf_atTurn, hfault]))
    obtain ⟨n, hn, hown, hrest⟩ := h.done (c := .clearFault t src payload) (w := [.clock, .net, .pair, .axes, .pos]) hset rfl hok
      ((axisOff_work h.axis_lt).mod h.axis_lt faultCleared)
    exact ⟨n, hn, congrArg Axis.state hown, congrArg Axis.faultCause hown, hrest⟩

end Sys2Proof.Machine
end

section
/-! Proof on the statement of what motion does by itself (15_motion.md): an emergency stop that is due comes before the motion of a
profile period (O49). -/
namespace Sys2Proof.Machine
open Sys2Proof

-- As in the sections before: checked in parallel, the whole text takes more threads than the memory limit leaves room for.
set_option Elab.async false

/-- A module in IDLE, alone, whose axis 2 is on its way to a target when its limit input becomes active (R451, R452). -/
def limitReached : State := requestStop 2 2 { State.reset with
  mod := { state := .idle }
  pair := { state := .solo }
  axes := State.reset.axes.set 2 { state := .moving, v := 1000, target := 100000 } }

/-- The next profile period acts on the limit: the axis brakes (R451, R453). -/
theorem motionProfilePeriod_brakes : ∃ n, exec (.motionProfilePeriod 0) limitReached = .next n ∧ (axisOf n 2).state = .stopping :=
  ⟨_, rfl, by decide +kernel⟩

/-- Refutes O49: where a limit has become active since the last profile period, the period brakes a moving axis, and no premise of
the clause on moving axes leaves an emergency stop that is due out. -/
theorem not_axesRun : ¬ Obligations.AxesRun := by
  rintro ⟨hmoves, -⟩
  obtain ⟨hunderWay, -⟩ := hmoves 0 2 limitReached (by decide) (by decide) (by decide) (by decide) (by decide) (by decide) (by decide)
  obtain ⟨n, hn, hmoving, -⟩ := hunderWay (by decide +kernel)
  obtain ⟨m, hm, hstopping⟩ := motionProfilePeriod_brakes
  cases hn.symm.trans hm
  exact absurd (hmoving.symm.trans hstopping) (by decide)

end Sys2Proof.Machine
end

section
/-! Proofs of the statements on the block as a whole (00_scope.md): what a step runs (O1), and that every command completes and
writes only its own groups (O4). -/
namespace Sys2Proof.Machine
open Sys2Proof

-- As in the sections before: checked in parallel, the whole text takes more threads than the memory limit leaves room for.
set_option Elab.async false

/-- The clock does not run backwards in what a command answers. -/
def NotBefore (s : State) (o : Host.Outcome State Fault Refusal) : Prop := ∀ n, o = .next n → s.now ≤ n.now

/-- What writes no clock after the command began stands at the moment at which it began. -/
theorem KeepsO.monotone {t : Nat} {v : List Group} {s : State} {o : Host.Outcome State Fault Refusal}
    (h : KeepsO v (beginAt t s) o) (hv : .clock ∉ v := by decide) : NotBefore s o := by
  intro n hn
  rw [(h n hn).now_eq hv]
  exact Nat.le_max_left ..

theorem hostMessage_monotone {f : Nat → List Byte → State → Verdict} {t type : Nat} {src : Src} {payload : List Byte} {s : State}
    (hf : ∀ i p s, KeepsV messagesWrite.tail s (f i p s)) : NotBefore s (.next (hostMessage t src type payload f s)) :=
  (KeepsO.next (hostMessage_any t src type payload s (List.Subset.refl messagesWrite.tail) hf)).monotone

theorem message_monotone (type : Nat) {t : Nat} {src : Src} {payload : List Byte} {s : State} :
    NotBefore s (.next (hostMessage t src type payload (messageMeaning type) s)) :=
  hostMessage_monotone (messageMeaning_keeps type)

theorem unknownType_monotone (t src type s) : NotBefore s (execUnknownType t src type s) := by
  unfold execUnknownType
  split
  · exact (KeepsO.next (Keeps.refl [] (beginAt t s))).monotone
  · exact hostMessage_monotone fun _ _ _ => (msgUnknown_keeps _ _ _).mono (by decide)

theorem haltReq_monotone (t src payload s) : NotBefore s (execHaltReq t src payload s) :=
  (KeepsO.next ((hostMessage_any t src 0x08 payload s (List.Subset.refl messagesWrite.tail) (messageMeaning_keeps 0x08)).then
    (settle_keeps _) (by decide))).monotone

theorem exec_monotone : ∀ (c : Instr) (s : State), NotBefore s (exec c s)
  | .powerGood .., _ => (execPowerGood_keeps _ _ _ _).monotone
  | .powerGoodLost .., _ => (execPowerGoodLost_keeps _ _ _ _).monotone
  | .bootSelect .., _ => (execBootSelect_keeps _ _).monotone
  | .configRead .., _ => (execConfigRead_keeps _ _).monotone
  | .trainingDone .., _ => (execTrainingDone_keeps _ _ _ _ _ _).monotone
  | .memoryInitialised .., _ => (execMemoryInitialised_keeps _ _).monotone
  | .codecSelftest .., _ => (execCodecSelftest_keeps _ _ _).monotone
  | .watchdogExpiry .., _ => (execWatchdogExpiry_keeps _ _).monotone
  | .inputLow .., _ => (execInputLow_keeps _ _ _).monotone
  | .shutdownLatchClear .., _ => (execShutdownLatchClear_keeps _ _ _).monotone
  | .thermalSample .., _ => (execThermalSample_keeps _ _ _).monotone
  | .blitzOff .., _ => (execBlitzOff_keeps _ _).monotone
  | .shutdownRecordWritten .., _ => (execShutdownRecordWritten_keeps _ _).monotone
  | .speedMonitorWindow .., _ => (execSpeedMonitorWindow_keeps _ _ _ _).monotone
  | .speedMonitorBroken .., _ => (execSpeedMonitorBroken_keeps _ _ _).monotone
  | .governorPeriod .., _ => (execGovernorPeriod_keeps _ _).monotone
  | .dptSegmentReceived t port addr dest udp, s =>
    (KeepsO.next (((hearDatagram_keeps t port addr dest udp s).mono (w := messagesWrite.tail) (by decide)).then (applyWaiting_keeps ..) (by decide))).monotone
  | .networkFrameDiscarded .., _ => (execNetworkFrameDiscarded_keeps _ _ _ _).monotone
  | .arpNdpRequest .., _ => (execArpNdpRequest_keeps _ _ _ _ _ _).monotone
  | .icmpEcho .., _ => (execIcmpEcho_keeps _ _ _ _ _ _).monotone
  | .portLinkChange .., _ => (execPortLinkChange_keeps _ _ _ _).monotone
  | .portSpeedAlternate .., _ => (execPortSpeedAlternate_keeps _ _ _).monotone
  | .ackDelayExpiry .., _ => (execAckDelayExpiry_keeps _ _ _).monotone
  | .creditReopened .., _ => (execCreditReopened_keeps _ _ _ _).monotone
  | .dptRtoExpiry .., _ => (execDptRtoExpiry_keeps _ _ _ _).monotone
  | .sessionTimeout .., _ => (execSessionTimeout_keeps _ _ _).monotone
  | .keepaliveDue .., _ => (execKeepaliveDue_keeps _ _ _).monotone
  | .sessionOpen .., _ => (execSessionOpen_keeps _ _ _ _ _ _ _).monotone
  | .sessionClose .., _ => message_monotone 0x03
  | .keepalive .., _ => (execKeepalive_keeps _ _ _).monotone
  | .ack .., _ => (execAck_keeps _ _ _ _ _ _).monotone
  | .unknownType .., _ => unknownType_monotone _ _ _ _
  | .haltReq .., _ => haltReq_monotone _ _ _ _
  | .restartReq .., _ => message_monotone 0x09
  | .maintenanceReq .., _ => message_monotone 0x0A
  | .loopbackStart .., _ => message_monotone 0x0B
  | .loopbackStop .., _ => hostMessage_monotone fun _ _ _ => (msgLoopback_keeps _ _ _ _).mono (by decide)
  | .loopbackEnd .., _ => (execLoopbackEnd_keeps _ _ _ _ _).monotone
  | .loopbackPreempted .., _ => (execLoopbackPreempted_keeps _ _ _ _).monotone
  | .surfaceDefine .., _ => message_monotone 0x20
  | .surfaceData .., _ => message_monotone 0x21
  | .surfaceSeal .., _ => message_monotone 0x22
  | .sealCheckDone .., _ => (execSealCheckDone_keeps _ _).monotone
  | .surfaceFree .., _ => message_monotone 0x23
  | .lutDefine .., _ => message_monotone 0x24
  | .pageDefine .., _ => message_monotone 0x25
  | .pageFree .., _ => message_monotone 0x26
  | .runDefine .., _ => message_monotone 0x27
  | .runArm .., _ => message_monotone 0x28
  | .runArmVerdict .., _ => (execRunArmVerdict_keeps _ _).monotone
  | .runStop .., _ => message_monotone 0x29
  | .runCancel .., _ => message_monotone 0x2A
  | .runEnd .., _ => message_monotone 0x2B
  | .calRunNow .., _ => message_monotone 0x2C
  | .calFreeze .., _ => message_monotone 0x2C
  | .calThaw .., _ => message_monotone 0x2C
  | .calReset .., _ => message_monotone 0x2C
  | .moveAbs .., _ => message_monotone 0x2D
  | .moveRel .., _ => message_monotone 0x2D
  | .jog .., _ => message_monotone 0x2D
  | .stop .., _ => message_monotone 0x2D
  | .estop .., _ => message_monotone 0x2D
  | .home .., _ => message_monotone 0x2D
  | .gear .., _ => message_monotone 0x2D
  | .gearChange .., _ => message_monotone 0x2D
  | .setParams .., _ => message_monotone 0x2D
  | .enable .., _ => message_monotone 0x2D
  | .disable .., _ => message_monotone 0x2D
  | .clearFault .., _ => message_monotone 0x2D
  | .timedOutputCancel .., _ => message_monotone 0x2E
  | .timedOutputOnce .., _ => message_monotone 0x2E
  | .timedOutputPeriodic .., _ => message_monotone 0x2E
  | .resultRead .., _ => hostMessage_monotone fun _ _ _ => (readResult_keeps _ _ _ _).mono (by decide)
  | .resultRelease .., _ => message_monotone 0x42
  | .statusRead .., _ => message_monotone 0x43
  | .imageBegin .., _ => message_monotone 0x60
  | .imageBlock .., _ => message_monotone 0x61
  | .flashBlockWritten .., _ => (execFlashBlockWritten_keeps _ _).monotone
  | .imageVerify .., _ => message_monotone 0x62
  | .imageActivate .., _ => message_monotone 0x63
  | .configActivationDone .., _ => (execConfigActivationDone_keeps _ _).monotone
  | .imageConfirm .., _ => message_monotone 0x64
  | .imageAbort .., _ => message_monotone 0x65
  | .bundleConfirmed .., _ => (execBundleConfirmed_keeps _ _).monotone
  | .ptpMessageReceived .., _ => (execPtpMessageReceived_keeps _ _ _ _).monotone
  | .ptpMessageDue .., _ => (execPtpMessageDue_keeps _ _ _).monotone
  | .timeServoMeasurement .., _ => (execTimeServoMeasurement_keeps _ _ _).monotone
  | .timeSourceLost .., _ => (execTimeSourceLost_keeps _ _).monotone
  | .timeChangeApply .., _ => (execTimeChangeApply_keeps _ _).monotone
  | .timedOutputEdge .., _ => (execTimedOutputEdge_keeps _ _ _).monotone
  | .timedOutputPulseEnd .., _ => (execTimedOutputPulseEnd_keeps _ _ _).monotone
  | .ppsEdge .., _ => (execPpsEdge_keeps _ _).monotone
  | .quadratureEdge .., _ => (execQuadratureEdge_keeps _ _ _ _ _ _).monotone
  | .wireFault .., _ => (execWireFault_keeps _ _ _ _ _).monotone
  | .indexEvent .., _ => (execIndexEvent_keeps _ _ _).monotone
  | .ssiFrame .., _ => (execSsiFrame_keeps _ _ _ _).monotone
  | .positionFaultCleared .., _ => (execPositionFaultCleared_keeps _ _ _).monotone
  | .coastTrigger .., _ => (execCoastTrigger_keeps _ _ _).monotone
  | .extrapolatedTrigger .., _ => (execExtrapolatedTrigger_keeps _ _ _).monotone
  | .auxCompareTrigger t chan, s => (execAuxCompareTrigger_keeps t chan s).monotone
  | .dinChange .., _ => (execDinChange_keeps _ _ _ _ _).monotone
  | .haltInAsserted .., _ => (execHaltInAsserted_keeps _ _).monotone
  | .haltInDeasserted .., _ => (execHaltInDeasserted_keeps _ _).monotone
  | .printGoEdge .., _ => (execPrintGoEdge_keeps _ _ _ _).monotone
  | .lineTrigger .., _ => (execLineTrigger_keeps _ _ _).monotone
  | .deferredFireSync .., _ => (execDeferredFireSync_keeps _ _ _).monotone
  | .linePacketComplete .., _ => (execLinePacketComplete_keeps _ _ _).monotone
  | .overspeedClear .., _ => (execOverspeedClear_keeps _ _).monotone
  | .fireUnderrun .., _ => (execFireUnderrun_keeps _ _ _).monotone
  | .fireDecodeError .., _ => (execFireDecodeError_keeps _ _ _ _).monotone
  | .haltRepeat .., _ => (execHaltRepeat_keeps _ _ _).monotone
  | .slotReleasePoint .., _ => (execSlotReleasePoint_keeps _ _).monotone
  | .pageRenderStart .., _ => (execPageRenderStart_keeps _ _).monotone
  | .compositionLine .., _ => (execCompositionLine_keeps _ _ _).monotone
  | .chunkCompressed .., _ => (execChunkCompressed_keeps _ _ _ _).monotone
  | .pageRendered .., _ => (execPageRendered_keeps _ _).monotone
  | .flagFall .., _ => (execFlagFall_keeps _ _ _ _).monotone
  | .dtRead .., _ => (execDtRead_keeps _ _ _).monotone
  | .scrubPass .., _ => (execScrubPass_keeps _ _).monotone
  | .eccUncorrectable .., _ => (execEccUncorrectable_keeps _ _ _ _ _ _).monotone
  | .eccCorrectedRate .., _ => (execEccCorrectedRate_keeps _ _ _ _).monotone
  | .linkStatusFrame .., _ => (execLinkStatusFrame_keeps _ _ _ _ _ _).monotone
  | .linkUpLost .., _ => (execLinkUpLost_keeps _ _ _ _).monotone
  | .statusTimeout .., _ => (execStatusTimeout_keeps _ _ _).monotone
  | .linkTrainTimeout .., _ => (execLinkTrainTimeout_keeps _ _ _).monotone
  | .pllUnlock .., _ => (execPllUnlock_keeps _ _ _).monotone
  | .ownerFrameDue .., _ => (execOwnerFrameDue_keeps _ _ _).monotone
  | .cameraDiscovery .., _ => (execCameraDiscovery_keeps _ _ _ _).monotone
  | .cameraDown .., _ => (execCameraDown_keeps _ _ _ _ _).monotone
  | .cameraRetry .., _ => (execCameraRetry_keeps _ _ _).monotone
  | .cameraPacket .., _ => (execCameraPacket_keeps _ _ _ _ _).monotone
  | .cameraFrameEnd .., _ => (execCameraFrameEnd_keeps _ _ _ _).monotone
  | .cameraWriteAck .., _ => (execCameraWriteAck_keeps _ _ _ _ _).monotone
  | .motionProfilePeriod .., _ => (execMotionProfilePeriod_keeps _ _).monotone
  | .pwmPeriod .., _ => (execPwmPeriod_keeps _ _ _ _ _).monotone
  | .holdCurrentDelay .., _ => (execHoldCurrentDelay_keeps _ _ _).monotone
  | .ringFrameReceived .., _ => (execRingFrameReceived_keeps _ _ _ _).monotone
  | .ringFrameResend .., _ => (execRingFrameResend_keeps _ _ _).monotone
  | .ringTimeSend .., _ => (execRingTimeSend_keeps _ _).monotone
  | .ringDelayExchange .., _ => (execRingDelayExchange_keeps _ _ _).monotone
  | .kingListenExpiry .., _ => (execKingListenExpiry_keeps _ _).monotone
  | .discoverSend .., _ => (execDiscoverSend_keeps _ _).monotone
  | .discover .., _ => (execDiscover_keeps _ _ _).monotone
  | .ringAttnAsserted .., _ => (execRingAttnAsserted_keeps _ _).monotone
  | .joinGrant .., _ => (execJoinGrant_keeps _ _ _).monotone
  | .bypassOpenTime .., _ => (execBypassOpenTime_keeps _ _).monotone
  | .joinHello .., _ => (execJoinHello_keeps _ _ _).monotone
  | .joinHelloTimeout .., _ => (execJoinHelloTimeout_keeps _ _).monotone
  | .eject .., _ => (execEject_keeps _ _ _).monotone
  | .leaveReq .., _ => (execLeaveReq_keeps _ _ _).monotone
  | .leaveWaitExpiry .., _ => (execLeaveWaitExpiry_keeps _ _).monotone
  | .roll .., _ => (execRoll_keeps _ _ _).monotone
  | .ringMemberLost .., _ => (execRingMemberLost_keeps _ _ _).monotone
  | .originSend .., _ => (execOriginSend_keeps _ _).monotone
  | .origin .., _ => (execOrigin_keeps _ _ _).monotone
  | .runArmedFrame .., _ => (execRunArmedFrame_keeps _ _ _).monotone
  | .cascadeArmed .., _ => (execCascadeArmed_keeps _ _ _).monotone
  | .slotReady .., _ => (execSlotReady_keeps _ _ _).monotone
  | .ringRelease .., _ => (execRingRelease_keeps _ _ _).monotone
  | .ringNotReady .., _ => (execRingNotReady_keeps _ _ _).monotone
  | .cascadeStop .., _ => (execCascadeStop_keeps _ _ _).monotone
  | .ringImageBlock .., _ => (execRingImageBlock_keeps _ _ _).monotone
  | .imageAck .., _ => (execImageAck_keeps _ _ _).monotone
  | .relayAckDue .., _ => (execRelayAckDue_keeps _ _).monotone
  | .heartbeatDue .., _ => (execHeartbeatDue_keeps _ _).monotone
  | .heartbeat .., _ => (execHeartbeat_keeps _ _ _ _).monotone
  | .heartbeatMissed .., _ => (execHeartbeatMissed_keeps _ _).monotone
  | .pairWaitExpiry .., _ => (execPairWaitExpiry_keeps _ _).monotone
  | .reclaimWaitExpiry .., _ => (execReclaimWaitExpiry_keeps _ _).monotone
  | .order .., _ => (execOrder_keeps _ _ _).monotone
  | .tokenArm .., _ => (execTokenArm_keeps _ _ _ _).monotone
  | .tokenRelease .., _ => (execTokenRelease_keeps _ _ _ _).monotone
  | .tokenNotReady .., _ => (execTokenNotReady_keeps _ _ _ _).monotone
  | .tokenGovernor .., _ => (execTokenGovernor_keeps _ _ _ _).monotone
  | .tokenTap .., _ => (execTokenTap_keeps _ _ _ _).monotone
  | .tokenChangeover .., _ => (execTokenChangeover_keeps _ _ _ _).monotone
  | .tokenResult .., _ => (execTokenResult_keeps _ _ _ _).monotone
  | .tokenRing .., _ => (execTokenRing_keeps _ _ _ _).monotone
  | .tokenBar .., _ => (execTokenBar_keeps _ _ _ _).monotone
  | .tokenCamera .., _ => (execTokenCamera_keeps _ _ _ _).monotone
  | .tokenAxis .., _ => (execTokenAxis_keeps _ _ _ _).monotone
  | .tokenGapTimeout .., _ => (execTokenGapTimeout_keeps _ _).monotone
  | .resendReq .., _ => (execResendReq_keeps _ _ _ _ _).monotone
  | .partnerSegment .., _ => (execPartnerSegment_keeps _ _ _).monotone
  | .copy .., _ => (execCopy_keeps _ _ _).monotone
  | .catchupDone .., _ => (execCatchupDone_keeps _ _).monotone
  | .signature .., _ => (execSignature_keeps _ _ _ _).monotone
  | .partnerCamera .., _ => (execPartnerCamera_keeps _ _ _).monotone
  | .flashRecordWritten .., _ => (execFlashRecordWritten_keeps _ _ _ _).monotone
  | .imageVerifyDone .., _ => (execImageVerifyDone_keeps _ _).monotone
  | .loopbackDone .., _ => (execLoopbackDone_keeps _ _ _ _).monotone
  | .pllRelock .., _ => (execPllRelock_keeps _ _ _).monotone
  | .igmpMldQuery .., _ => (execIgmpMldQuery_keeps _ _ _ _ _).monotone

/-- An outcome that is a next state, no fault and no refusal. -/
def Nexts (o : Host.Outcome State Fault Refusal) : Prop := ∃ n, o = .next n

theorem nexts_next (n : State) : Nexts (.next n) := ⟨n, rfl⟩

theorem exec_nexts (c : Instr) (s : State) : Nexts (exec c s) := by
  cases c
  -- These decide between outcomes; each branch is a next state. The others answer one by definition.
  case
    cameraDiscovery | cameraPacket | cameraWriteAck | cameraFrameEnd | cameraDown | wireFault | ssiFrame |
    positionFaultCleared | pwmPeriod | auxCompareTrigger | compositionLine | chunkCompressed | pageRendered | flagFall
    | eccUncorrectable | ackDelayExpiry | creditReopened | dptRtoExpiry | sessionTimeout | keepaliveDue | keepalive |
    ack | loopbackEnd | loopbackPreempted | loopbackDone | flashBlockWritten | imageVerifyDone | configActivationDone
    | flashRecordWritten | linkStatusFrame | pllUnlock | pllRelock | runArmVerdict | speedMonitorWindow |
    governorPeriod | ringFrameResend | ringDelayExchange | thermalSample | shutdownRecordWritten |
    timeServoMeasurement | ptpMessageReceived | ptpMessageDue | timeSourceLost | timedOutputEdge | ppsEdge |
    fireUnderrun | fireDecodeError | dinChange | partnerSegment | unknownType =>
    dsimp only [exec, execCameraDiscovery, execCameraPacket, execCameraWriteAck, execCameraFrameEnd, execCameraDown, execWireFault,
      execSsiFrame, execPositionFaultCleared, execPwmPeriod, execAuxCompareTrigger, execCompositionLine,
      execChunkCompressed, execPageRendered, execFlagFall, execEccUncorrectable, execAckDelayExpiry,
      execCreditReopened, execDptRtoExpiry, execSessionTimeout, execKeepaliveDue, execKeepalive, execAck,
      execLoopbackEnd, execLoopbackPreempted, execLoopbackDone, execFlashBlockWritten, execImageVerifyDone,
      execConfigActivationDone, execFlashRecordWritten, execLinkStatusFrame, execPllUnlock, execPllRelock,
      execRunArmVerdict, execSpeedMonitorWindow, execGovernorPeriod, execRingFrameResend, execRingDelayExchange,
      execThermalSample, execShutdownRecordWritten, execTimeServoMeasurement, execPtpMessageReceived,
      execPtpMessageDue, execTimeSourceLost, execTimedOutputEdge, execPpsEdge, execFireUnderrun,
      execFireDecodeError, execDinChange, execPartnerSegment, execUnknownType, takePartnerSegment]
    repeat' (split <;> try exact nexts_next _)
  all_goals exact nexts_next _

/-- Settles O4: the groups that `writesIn` gives are those of `exec_keeps`. -/
theorem frameOfEveryCommand : Obligations.FrameOfEveryCommand := by
  unfold Obligations.FrameOfEveryCommand
  intro c s
  obtain ⟨n, hn⟩ := exec_nexts c s
  exact ⟨n, hn, exec_monotone c s n hn, (exec_keeps c s n hn).only⟩

/-- Settles O1. -/
theorem stepRunsTheFront : Obligations.StepRunsTheFront := by
  unfold Obligations.StepRunsTheFront
  intro c rest s h
  unfold step
  rw [h]

end Sys2Proof.Machine
end

section
/-! Proofs of the statements on power and start (19_power_and_start.md, 21_firmware_update.md): power good lost and the watchdog
(O6), the input and the latch (O7), and the boot ROM's choice (O8). -/
namespace Sys2Proof.Machine
open Sys2Proof

-- As in the sections before: checked in parallel, the whole text takes more threads than the memory limit leaves room for.
set_option Elab.async false

/-! ### OFF, and the hot-swap controller's record (R20, R551, R552, R555, R559) -/

@[simp] theorem haltAllLanes_power (s : State) : (haltAllLanes s).power = s.power := (haltAllLanes_keeps s).power_eq

theorem losePower_state (cause domain : Nat) (s : State) : (losePower cause domain s).mod.state = .off := by
  unfold losePower
  dsimp only
  split
  · rfl
  · rfl

/-- The record keeps the cause, and counts by it; only the events kept for the next start depend on the domain besides. -/
theorem losePower_power (cause domain : Nat) (s : State) :
    ∃ kept, (losePower cause domain s).power = { (goOff s).power with
      lastOffCause := cause, faultCounts := nextFaults cause domain s.power.faultCounts
      faultDomain := if cause = 9 then domain else s.power.faultDomain
      watchdogResets := if cause = 5 then wrapInc 16 s.power.watchdogResets else s.power.watchdogResets
      watchdogUntil := if cause = 5 then some s.now else none, atStart := kept } := by
  unfold losePower
  dsimp only
  split
  · exact ⟨_, by simp only [atNextStart, goOff, haltAllLanes_power]; rfl⟩
  · exact ⟨_, by simp only [goOff, haltAllLanes_power]; rfl⟩

theorem nextFaults_counted {domain : Nat} (l : List Nat) (h : domain < 10) :
    (nextFaults 9 domain l).getD domain 0 = l.getD domain 0 + 1 := by
  simp [nextFaults, List.getD_eq_getElem?_getD, h]

theorem losesPower_iff {c : OffCause} {domain : Nat} {s : State} : losesPower c domain s = true ↔
    s.mod.state ≠ .off ∧ (s.mod.state = .shutdown → c ≠ .slotReset ∧ c ≠ .watchdog) ∧
      (c = .domainFault → 1 ≤ domain ∧ domainOn s domain = true) := by
  simp only [losesPower, Bool.and_eq_true, Bool.or_eq_true, Bool.not_eq_true', Bool.and_eq_false_iff, decide_eq_true_eq,
    decide_eq_false_iff_not, Bool.or_eq_false_iff, ne_eq, and_assoc]
  tauto

theorem offCode_watchdog_iff (c : OffCause) : offCode c = 5 ↔ c = .watchdog := by cases c <;> decide

theorem exec_powerGoodLost (t : Nat) {c : OffCause} {domain : Nat} {s : State} (h : losesPower c domain (beginAt t s) = true) :
    exec (.powerGoodLost t c domain) s = .next (losePower (offCode c) domain (beginAt t s)) :=
  congrArg Host.Outcome.next (if_pos h)

theorem exec_powerGoodLost_of_kept (t : Nat) {c : OffCause} {domain : Nat} {s : State}
    (h : ¬ losesPower c domain (beginAt t s) = true) : exec (.powerGoodLost t c domain) s = .next (beginAt t s) :=
  congrArg Host.Outcome.next (if_neg h)

/-- Settles O6: the record is the one that the loss of power writes; in SHUTDOWN the condition of the loss fails. -/
theorem powerGoodLostGoesOff : Obligations.PowerGoodLostGoesOff := by
  unfold Obligations.PowerGoodLostGoesOff
  refine ⟨?lost, ?domainFault, ?watchdog, ?shutdown⟩
  case lost =>
    intro t domain cause s hon hcause hkept
    have hloses : losesPower cause domain (beginAt t s) = true := losesPower_iff.mpr ⟨hon, hkept, fun h => absurd h hcause⟩
    obtain ⟨kept, hpower⟩ := losePower_power (offCode cause) domain (beginAt t s)
    have hkeeps := losePower_keeps (offCode cause) domain (beginAt t s)
    refine ⟨_, exec_powerGoodLost t hloses, losePower_state .., congrArg Power.lastOffCause hpower, hkeeps.flash_eq,
      hkeeps.otp_eq, (congrArg Power.watchdogResets hpower).trans ?_⟩
    simp only [offCode_watchdog_iff]
    rfl
  case domainFault =>
    intro t domain s hon hlow hhigh hdomain
    have hloses : losesPower .domainFault domain (beginAt t s) = true :=
      losesPower_iff.mpr ⟨hon, fun _ => ⟨nofun, nofun⟩, fun _ => ⟨hlow, hdomain⟩⟩
    obtain ⟨kept, hpower⟩ := losePower_power 9 domain (beginAt t s)
    refine ⟨_, exec_powerGoodLost t hloses, losePower_state .., congrArg Power.lastOffCause hpower,
      congrArg Power.faultDomain hpower, ?_⟩
    exact (congrArg (fun p => p.faultCounts.getD domain 0) hpower).trans (nextFaults_counted _ hhigh)
  case watchdog =>
    intro t s hon hnot
    have hloses : losesPower .watchdog 0 (beginAt t s) = true := losesPower_iff.mpr ⟨hon, fun h => absurd h hnot, nofun⟩
    obtain ⟨kept, hpower⟩ := losePower_power 5 0 (beginAt t s)
    have hnow := (losePower_keeps 5 0 (beginAt t s)).now_eq
    exact ⟨_, congrArg Host.Outcome.next (if_pos hloses), losePower_state .., congrArg Power.lastOffCause hpower,
      congrArg Power.watchdogResets hpower, (congrArg Power.watchdogUntil hpower).trans (congrArg some hnow.symm)⟩
  case shutdown =>
    intro t domain s hdown
    have hkept : ∀ (c : OffCause) (d : Nat), c = .slotReset ∨ c = .watchdog → ¬ losesPower c d (beginAt t s) = true := by
      intro c d hc h
      obtain ⟨-, hnot, -⟩ := losesPower_iff.mp h
      obtain ⟨hslot, hdog⟩ := hnot hdown
      exact hc.elim hslot hdog
    exact ⟨exec_powerGoodLost_of_kept t (hkept _ _ (.inl rfl)), exec_powerGoodLost_of_kept t (hkept _ _ (.inr rfl)),
      congrArg Host.Outcome.next (if_neg (hkept .watchdog 0 (.inr rfl)))⟩

/-! ### The input, and the latch (R548, R560) -/

/-- The input has been measured; whether it is low has been reported. -/
def inputMeasured (mv : Nat) (raised : Bool) (s : State) : State :=
  { s with power := { s.power with inputMv := mv, inputLowRaised := raised } }

theorem inputMeasured_keeps (mv : Nat) (raised : Bool) (s : State) : Keeps [.power] s (inputMeasured mv raised s) :=
  set_power_keeps ..

section InputLow
variable (t : Nat) {mv : Nat} {s : State} (hon : s.mod.state ≠ .off)
include hon

theorem exec_inputLow_first (h : mv < 40000) (hraised : s.power.inputLowRaised = false) :
    exec (.inputLow t mv) s = .next (raise 0x0121 (leBytes 4 mv) (inputMeasured mv true (beginAt t s))) := by
  have hlow : ¬ 41000 < mv := by omega
  show Host.Outcome.next _ = _
  simp [hon, hlow, h, hraised, inputMeasured]

theorem exec_inputLow_again (h : mv < 40000) (hraised : s.power.inputLowRaised = true) :
    exec (.inputLow t mv) s = .next (inputMeasured mv true (beginAt t s)) := by
  have hlow : ¬ 41000 < mv := by omega
  show Host.Outcome.next _ = _
  simp [hon, hlow, hraised, inputMeasured]

theorem exec_inputLow_returned (h : 41000 < mv) :
    exec (.inputLow t mv) s = .next (inputMeasured mv false (beginAt t s)) := by
  show Host.Outcome.next _ = _
  simp [hon, h, inputMeasured]

end InputLow

theorem exec_shutdownLatchClear (t : Nat) {removed : Bool} {s : State} (h : s.mod.state = .shutdown) :
    exec (.shutdownLatchClear t removed) s =
      let s2 := losePower (if removed then 1 else 3) 0 (beginAt t s)
      .next (if removed then { s2 with power := { atStart := s2.power.atStart.filter flashBacked } }
        else { s2 with power := { s2.power with shutdownLatch := false } }) := by
  show Host.Outcome.next _ = _
  simp [h, losePower_state]

/-- Settles O7: each band of the input has its own answer; the latch is cleared after the loss of power. -/
theorem inputLowAndLatch : Obligations.InputLowAndLatch := by
  unfold Obligations.InputLowAndLatch
  refine ⟨?first, ?again, ?returned, ?latch⟩
  case first =>
    intro t mv s hon hlow hraised
    have hraise := raise_keeps 0x0121 (leBytes 4 mv) (inputMeasured mv true (beginAt t s))
    exact ⟨_, exec_inputLow_first t hon hlow hraised, raisedNext_raise _ _ rfl,
      congrArg Power.inputLowRaised hraise.power_eq, congrArg Power.inputMv hraise.power_eq,
      (((inputMeasured_keeps mv true (beginAt t s)).mono (w := [.power, .log, .net]) (by decide)).then hraise (by decide)).onlySince (by decide)⟩
  case again =>
    intro t mv s hon hlow hraised
    exact ⟨_, exec_inputLow_again t hon hlow hraised, rfl, (inputMeasured_keeps ..).onlySince (by decide)⟩
  case returned =>
    intro t mv s hon hhigh
    exact ⟨_, exec_inputLow_returned t hon hhigh, rfl, (inputMeasured_keeps ..).onlySince (by decide)⟩
  case latch =>
    intro t removed s hdown
    refine ⟨_, exec_shutdownLatchClear t hdown, ?_⟩
    have hstate := losePower_state (if removed then 1 else 3) 0 (beginAt t s)
    have hflash := (losePower_keeps (if removed then 1 else 3) 0 (beginAt t s)).flash_eq
    cases removed with
    | true => exact ⟨hstate, rfl, hflash⟩
    | false => exact ⟨hstate, rfl, hflash⟩

/-! ### The boot ROM (R591, R592) -/

theorem countTrial_of_confirmed {s : State} (h : (bootRec s).confirmed = true) : countTrial s = s := if_pos h

theorem exec_bootSelect (t : Nat) {s : State} (hboot : s.mod.state = .boot) (hconf : (bootRec s).confirmed = true) :
    exec (.bootSelect t) s =
      .next (trySlots [(bootRec s).selected, otherSlot (bootRec s).selected] (beginAt t s)) := by
  have hcount : countTrial (beginAt t s) = beginAt t s := countTrial_of_confirmed hconf
  show Host.Outcome.next (if s.mod.state = .boot then _ else _) = _
  rw [if_pos hboot, hcount]
  rfl

theorem bootable_selected {s : State} (h : slotState s (bootRec s).selected = 4) : bootable s (bootRec s).selected = true := by
  simp [bootable, h]

section TrySlots
variable {n : Nat} {rest : List Nat} {s : State}

theorem trySlots_starts (h : bootable s n = true) (hcheck : bootCheck s (slotBytes s n) = none) :
    trySlots (n :: rest) s = startSupervisor n (if n = (bootRec s).selected then s else fallBack n s) := by
  unfold trySlots
  rw [if_pos h, hcheck]

theorem trySlots_passes (h : bootable s n = false) : trySlots (n :: rest) s = trySlots rest s := by
  conv_lhs => unfold trySlots
  rw [h, if_neg Bool.false_ne_true]

end TrySlots

theorem otherSlot_ne (n : Nat) : otherSlot n ≠ n := by
  unfold otherSlot
  omega

/-- The record that a fall-back writes is confirmed: the slot it names is no trial (R591). -/
theorem fallBack_confirmed (n : Nat) (s : State) : (bootRec (fallBack n s)).confirmed = true := by
  have hwritten : ∀ m : State, (bootRec (writeBoot n (bootRec s).selected 0 true m)).confirmed = true :=
    fun m => congrArg BootRec.confirmed (bootRec_writeBoot ..)
  unfold fallBack
  dsimp only
  split
  · exact hwritten _
  · exact hwritten _

/-- The registers of the update group of a slot's supervisor as it starts, and CONFIG (R20, R592). -/
theorem enterConfig_state (cause : Nat) (s : State) : (enterConfig cause s).mod.state = .config := by
  simp only [enterConfig, freshPorts_mod]
  split
  · exact setModState_state ..
  · exact setModState_state ..

theorem startSupervisor_config (n : Nat) (s : State) : (startSupervisor n s).mod.state = .config := enterConfig_state ..

theorem startSupervisor_update (n : Nat) (s : State) :
    (startSupervisor n s).update.runningSlot = n ∧ (startSupervisor n s).update.trial = !(bootRec s).confirmed ∧
      (startSupervisor n s).update.digest = bundleDigest (slotBytes s n) := by
  unfold startSupervisor
  simp only [(enterConfig_keeps ..).update_eq, and_self]

theorem startSupervisor_flash (n : Nat) (s : State) : (startSupervisor n s).flash = s.flash := by
  rw [startSupervisor, (enterConfig_keeps ..).flash_eq]

theorem enterMaintenance_romServed (cause : Nat) (s : State) : (enterMaintenance cause s).mod.romServed = s.mod.romServed := by
  have hset : (setModState .maintenance cause s).mod.romServed = s.mod.romServed := by simp [setModState]
  unfold enterMaintenance
  dsimp only
  split_ifs <;> simpa using hset

/-- Settles O8: a confirmed record makes no trial start, and the list of slots tried is the selected one and the other. -/
theorem bootSelects : Obligations.BootSelects := by
  unfold Obligations.BootSelects
  intro t s hboot hconf
  refine ⟨_, exec_bootSelect t hboot hconf, ?selected, ?other, ?none⟩
  case selected =>
    intro hstate hcheck
    have hstarts : trySlots [(bootRec s).selected, otherSlot (bootRec s).selected] (beginAt t s) =
        startSupervisor (bootRec s).selected (beginAt t s) :=
      (trySlots_starts (s := beginAt t s) (bootable_selected hstate) hcheck).trans (congrArg _ (if_pos rfl))
    obtain ⟨hslot, htrial, hdigest⟩ := startSupervisor_update (bootRec s).selected (beginAt t s)
    rw [hstarts]
    exact ⟨startSupervisor_config .., hslot, htrial.trans (congrArg not hconf), hdigest, startSupervisor_flash ..⟩
  case other =>
    intro hnot hother hcheck
    have hstarts : trySlots [(bootRec s).selected, otherSlot (bootRec s).selected] (beginAt t s) =
        startSupervisor (otherSlot (bootRec s).selected) (fallBack (otherSlot (bootRec s).selected) (beginAt t s)) :=
      (trySlots_passes (s := beginAt t s) hnot).trans
        ((trySlots_starts (s := beginAt t s) hother hcheck).trans (congrArg _ (if_neg (otherSlot_ne _))))
    obtain ⟨hslot, htrial, -⟩ := startSupervisor_update (otherSlot (bootRec s).selected)
      (fallBack (otherSlot (bootRec s).selected) (beginAt t s))
    rw [hstarts]
    exact ⟨startSupervisor_config .., hslot, htrial.trans (congrArg not (fallBack_confirmed ..))⟩
  case none =>
    intro hnot hother
    have hserves : trySlots [(bootRec s).selected, otherSlot (bootRec s).selected] (beginAt t s) = trySlots [] (beginAt t s) :=
      (trySlots_passes (s := beginAt t s) hnot).trans (trySlots_passes (s := beginAt t s) hother)
    rw [hserves]
    unfold trySlots
    exact ⟨enterMaintenance_state .., enterMaintenance_romServed ..⟩

end Sys2Proof.Machine
end

section
/-! Proofs of the statements on updates (21_firmware_update.md, 18_configuration_image.md): the update messages (O34). -/
namespace Sys2Proof.Machine
open Sys2Proof

-- As in the sections before: checked in parallel, the whole text takes more threads than the memory limit leaves room for.
set_option Elab.async false

section KeepsGroups
variable {w : List Group} {s n : State} (h : Keeps w s n)
include h

theorem Keeps.beginOutcome_eq (kind : Nat) (b : List Byte) (hmod : Group.mod ∉ w := by decide) (hflash : Group.flash ∉ w := by decide)
    (hconf : Group.conf ∉ w := by decide) (hotp : Group.otp ∉ w := by decide) : beginOutcome n kind b = beginOutcome s kind b := by
  unfold beginOutcome earlyChecks bundleSigned bootRec
  rw [h.mod_eq hmod, h.flash_eq hflash, h.conf_eq hconf, h.otp_eq hotp]

end KeepsGroups

/-! ### The slots of the flash (R589, R590, R598) -/

theorem targetSlot_lt (s : State) : targetSlot s < 2 := by
  unfold targetSlot otherSlot
  omega

theorem targetSlot_congr {s n : State} (h : n.flash.boot = s.flash.boot) : targetSlot n = targetSlot s := by
  unfold targetSlot
  rw [bootRec_congr h]

theorem slotRec_congr {s n : State} (h : n.flash = s.flash) (k : Nat) : slotRec n k = slotRec s k := by
  unfold slotRec
  rw [h]

theorem TwoSlots.of_flash_eq {s n : State} (hs : TwoSlots s) (h : n.flash = s.flash) : TwoSlots n := by
  unfold TwoSlots
  rw [h]
  exact hs

theorem slotRec_modSlotRec_other {j k : Nat} (f : BundleSlot → BundleSlot) (s : State) (h : j ≠ k) :
    slotRec (modSlotRec k f s) j = slotRec s j := by
  unfold slotRec modSlotRec
  rw [getD_modify, if_neg fun hkj => h hkj.1.symm]

/-- A change of a slot that leaves its state records leaves the one in force. -/
theorem slotInForce_modSlotRec {f : BundleSlot → BundleSlot} (hf : ∀ x, (f x).copies = x.copies) (k j : Nat) (s : State) :
    slotInForce (modSlotRec k f s) j = slotInForce s j := by
  have hcopies : (slotRec (modSlotRec k f s) j).copies = (slotRec s j).copies := by
    unfold slotRec modSlotRec
    rw [getD_modify]
    split
    · exact hf _
    · rfl
  unfold slotInForce
  rw [hcopies]

theorem modSlotRec_slots_length (k : Nat) (f : BundleSlot → BundleSlot) (s : State) :
    (modSlotRec k f s).flash.slots.length = s.flash.slots.length := List.length_modify ..

theorem writeSlot_slots_length (k state : Nat) (digest : List Byte) (s : State) :
    (writeSlot k state digest s).flash.slots.length = s.flash.slots.length := modSlotRec_slots_length ..

theorem TwoSlots.modSlotRec {s : State} (hs : TwoSlots s) {f : BundleSlot → BundleSlot}
    (hf : ∀ x, (f x).copies.length = x.copies.length) (k : Nat) : TwoSlots (modSlotRec k f s) := by
  obtain ⟨hslots, hcopies⟩ := hs
  refine ⟨(modSlotRec_slots_length ..).trans hslots, fun x hx => ?_⟩
  obtain ⟨j, hj, rfl⟩ := List.mem_iff_getElem.mp hx
  rw [modSlotRec_slots_length] at hj
  have hcopy := hcopies _ (List.getElem_mem hj)
  simp only [Machine.modSlotRec, List.getElem_modify]
  split
  · exact (hf _).trans hcopy
  · exact hcopy

/-- A slot with this header and no block. -/
def emptied (header : List Byte) (x : BundleSlot) : BundleSlot := { x with header := header, blocks := [] }

/-- The state record of slot `k` is written, and the slot's header and blocks are those of a download begun afresh. -/
def slotCleared (k state : Nat) (header : List Byte) (s : State) : State :=
  modSlotRec k (emptied header) (writeSlot k state [] s)

/-- What `slotCleared` leaves of both slots. -/
structure SlotCleared (k state : Nat) (header : List Byte) (s n : State) : Prop where
  header : (slotRec n k).header = header
  blocks : (slotRec n k).blocks = []
  written : SlotWritten s k state [] n
  other : slotRec n (otherSlot k) = slotRec s (otherSlot k)

theorem SlotCleared.congr {k state : Nat} {header : List Byte} {s n s' n' : State} (h : SlotCleared k state header s n)
    (hs : s'.flash = s.flash) (hn : n'.flash = n.flash) : SlotCleared k state header s' n' := by
  obtain ⟨hheader, hblocks, hwritten, hother⟩ := h
  refine ⟨?_, ?_, ?_, ?_⟩
  · rwa [slotRec_congr hn]
  · rwa [slotRec_congr hn]
  · simpa only [SlotWritten, slotState, slotDigest, slotInForce, slotRec_congr hs, slotRec_congr hn] using hwritten
  · rwa [slotRec_congr hn, slotRec_congr hs]

theorem slotWritten_writeSlot {s : State} (hs : TwoSlots s) {k : Nat} (hk : k < 2) (state : Nat) (digest : List Byte) :
    SlotWritten s k state digest (writeSlot k state digest s) := by
  unfold SlotWritten slotState slotDigest
  rw [slotInForce_writeSlot s k state digest hs hk]
  exact ⟨rfl, rfl, rfl⟩

theorem slotCleared_cleared {s : State} (hs : TwoSlots s) {k : Nat} (hk : k < 2) (state : Nat) (header : List Byte) :
    SlotCleared k state header s (slotCleared k state header s) := by
  have hin : k < (writeSlot k state [] s).flash.slots.length := by
    rw [writeSlot_slots_length, hs.1]
    exact hk
  have hrec : slotRec (slotCleared k state header s) k = emptied header (slotRec (writeSlot k state [] s) k) :=
    slotRec_modSlotRec _ _ _ hin
  refine ⟨?_, ?_, ?_, ?_⟩
  · rw [hrec, emptied]
  · rw [hrec, emptied]
  · have hforce : slotInForce (slotCleared k state header s) k = slotInForce (writeSlot k state [] s) k :=
      slotInForce_modSlotRec (f := emptied header) (fun _ => rfl) k k (writeSlot k state [] s)
    have hwritten := slotWritten_writeSlot hs hk state []
    unfold SlotWritten slotState slotDigest at hwritten ⊢
    rwa [hforce]
  · exact (slotRec_modSlotRec_other (emptied header) _ (otherSlot_ne k)).trans (slotRec_modSlotRec_other _ s (otherSlot_ne k))

/-! ### IMAGE_BEGIN (R596) -/

theorem nextBlock_nil (header : List Byte) : nextBlock header [] = 0 := by
  have hmissing : missingBlocks header [] = List.range (blockCount header) := by simp [missingBlocks, blockGood]
  unfold nextBlock
  rw [hmissing]
  cases blockCount header with
  | zero => rfl
  | succ n => simp [List.range_succ_eq_map]

theorem openConfig_fresh {b : List Byte} {s : State} (h : s.flash.stagingHeader ≠ b) : openConfig b s = { s with
    flash := { s.flash with stagingHeader := b, staging := [] }
    update := { s.update with queue := s.update.queue.filter (fun j => j.kind ≠ 1), confValid := false } } := if_neg h

theorem openBundle_fresh {b : List Byte} {s : State} (h : (slotRec s (targetSlot s)).header ≠ b) : openBundle b s =
    slotCleared (targetSlot s) 1 b
      { s with update := { s.update with queue := s.update.queue.filter fun j => j.kind ≠ 0 } } := by
  unfold openBundle
  simp only [h, decide_false, Bool.false_and, Bool.false_eq_true, if_false]
  rfl

/-- The download that IMAGE_BEGIN asks for has been opened, or its header has failed; the result waits for its body. -/
def downloadBegun (kind ticket outcome : Nat) (b : List Byte) (s : State) : State :=
  let s1 := addPending ticket 0x60 { s with update := { s.update with lastKind := some kind } }
  if outcome = 0 then openDownload kind b s1 else s1

theorem downloadBegun_keeps (kind ticket outcome : Nat) (b : List Byte) (s : State) :
    Keeps [.net, .flash, .update] s (downloadBegun kind ticket outcome b s) := by
  have hpending : Keeps [.net, .flash, .update] s (addPending ticket 0x60 { s with update := { s.update with lastKind := some kind } }) :=
    ((set_update_keeps ..).mono (by decide)).then (addPending_keeps ..) (by decide)
  unfold downloadBegun
  dsimp only
  split
  · exact hpending.then (openDownload_keeps ..) (by decide)
  · exact hpending

theorem downloadBegun_answerable (kind ticket outcome : Nat) (b : List Byte) {s : State} (h : Settled s) :
    Answerable ticket (downloadBegun kind ticket outcome b s) := by
  have hpending : Answerable ticket (addPending ticket 0x60 { s with update := { s.update with lastKind := some kind } }) :=
    addPending_answerable (s := { s with update := { s.update with lastKind := some kind } }) _ _ h
  unfold downloadBegun
  dsimp only
  split
  · exact hpending.of_net_pair_eq (openDownload_keeps ..).net_eq (openDownload_keeps ..).pair_eq
  · exact hpending

theorem actedOn_of_current {s : State} {k : Nat} (hkind : s.update.lastKind = some k) (hcur : s.update.current.getD k false = true) :
    actedOn s = some k := by
  unfold actedOn
  rw [hkind]
  exact if_pos hcur

theorem getD_set_true {l : List Bool} {k : Nat} (h : k < l.length) : (l.set k true).getD k false = true := by
  simp [List.getD_eq_getElem?_getD, h]

/-- A configuration download begun afresh: area S is empty but for the header. -/
theorem downloadBegun_config {ticket : Nat} {b : List Byte} {s : State} (hnew : s.flash.stagingHeader ≠ b)
    (hcur : s.update.current.length = 2) :
    (downloadBegun 1 ticket 0 b s).flash = { s.flash with staging := [], stagingHeader := b } ∧
      actedOn (downloadBegun 1 ticket 0 b s) = some 1 := by
  have hopen : (openConfig b (addPending ticket 0x60 { s with update := { s.update with lastKind := some 1 } })) = _ :=
    openConfig_fresh hnew
  have hbegun : downloadBegun 1 ticket 0 b s = openDownload 1 b
      (addPending ticket 0x60 { s with update := { s.update with lastKind := some 1 } }) := rfl
  rw [hbegun, openDownload, if_neg Nat.one_ne_zero, hopen]
  exact ⟨rfl, actedOn_of_current rfl (getD_set_true (by exact hcur ▸ Nat.one_lt_two))⟩

/-- A bundle download begun afresh: the target slot is INCOMPLETE and holds the header only. -/
theorem downloadBegun_bundle {ticket : Nat} {b : List Byte} {s : State} (hnew : (slotRec s (targetSlot s)).header ≠ b)
    (hslots : TwoSlots s) (hcur : s.update.current.length = 2) :
    SlotCleared (targetSlot s) 1 b s (downloadBegun 0 ticket 0 b s) ∧ actedOn (downloadBegun 0 ticket 0 b s) = some 0 ∧
      targetSlot (downloadBegun 0 ticket 0 b s) = targetSlot s := by
  have hopen : (openBundle b (addPending ticket 0x60 { s with update := { s.update with lastKind := some 0 } })) = _ :=
    openBundle_fresh hnew
  have hbegun : downloadBegun 0 ticket 0 b s = openDownload 0 b
      (addPending ticket 0x60 { s with update := { s.update with lastKind := some 0 } }) := rfl
  rw [hbegun, openDownload, if_pos rfl, hopen]
  exact ⟨(slotCleared_cleared hslots (targetSlot_lt s) 1 b).congr rfl rfl,
    actedOn_of_current rfl (getD_set_true (by exact hcur ▸ Nat.zero_lt_two)), targetSlot_congr rfl⟩

/-- A header that fails opens nothing. -/
theorem downloadBegun_of_failed {kind ticket outcome : Nat} {b : List Byte} {s : State} (h : outcome ≠ 0) :
    downloadBegun kind ticket outcome b s = addPending ticket 0x60 { s with update := { s.update with lastKind := some kind } } :=
  if_neg h

theorem hasDownload_of_actedOn {s : State} {k : Nat} (h : actedOn s = some k) : hasDownload s k = true := by
  unfold actedOn at h
  split at h
  · split at h
    · next hhas => exact Option.some.inj h ▸ hhas
    · exact nomatch h
  · exact nomatch h

theorem hasDownload_of_update_eq {s n : State} (h : n.update = s.update) (kind : Nat) : hasDownload n kind = hasDownload s kind := by
  unfold hasDownload
  rw [h]

theorem actedOn_of_update_eq {s n : State} (h : n.update = s.update) : actedOn n = actedOn s := by
  unfold actedOn hasDownload
  rw [h]

section AtTurn
variable {t i type : Nat} {src : Src} {payload : List Byte} {s : State}

theorem atTurn_flash : (atTurn t src type payload i s).flash = s.flash := (atTurn_keeps (s := s)).flash_eq
theorem atTurn_update : (atTurn t src type payload i s).update = s.update := (atTurn_keeps (s := s)).update_eq

end AtTurn

section UpdateMessages
variable {t i : Nat} {src : Src} {payload : List Byte} {s : State}

theorem msgImageBegin_ok {i : Nat} {p : List Byte} {s : State} (hrom : s.mod.romServed = false ∨ fld p 4 1 = 0)
    (hkind : fld p 4 1 ≤ 1) : msgImageBegin i p s =
      let o := beginOutcome s (fld p 4 1) ((p.drop 8).take 256)
      let m := downloadBegun (fld p 4 1) (fld p 0 4) o ((p.drop 8).take 256) s
      .ok (finishResult (fld p 0 4) (beginBody m o (fld p 4 1) ((p.drop 8).take 256)) m) := by
  have hstate : ¬ (s.mod.romServed && decide (fld p 4 1 ≠ 0)) = true := by
    rcases hrom with hrom | hrom <;> simp [hrom]
  unfold msgImageBegin
  dsimp only
  rw [if_neg hstate, if_neg (Nat.not_lt.mpr hkind)]
  rfl

/-- IMAGE_BEGIN is answered at once: the flash and the downloads are those of the download begun. -/
theorem imageBegin_begins (h : Admitted t src 0x60 payload s i) (hset : Settled s)
    (hrom : s.mod.romServed = false ∨ fld payload 4 1 = 0) (hkind : fld payload 4 1 ≤ 1) :
    let o := beginOutcome s (fld payload 4 1) ((payload.drop 8).take 256)
    let m := downloadBegun (fld payload 4 1) (fld payload 0 4) o ((payload.drop 8).take 256) (atTurn t src 0x60 payload i s)
    Completes (.imageBegin t src payload) s fun n => n.flash = m.flash ∧ n.update = m.update ∧
      Ready (fld payload 0 4) (beginBody m o (fld payload 4 1) ((payload.drop 8).take 256)) n ∧
      Only [.clock, .net, .pair, .flash, .update] s n := by
  intro o m
  have hok : msgImageBegin i payload (atTurn t src 0x60 payload i s) =
      .ok (finishResult (fld payload 0 4) (beginBody m o (fld payload 4 1) ((payload.drop 8).take 256)) m) := by
    rw [msgImageBegin_ok (by rwa [atTurn_mod]) hkind, (atTurn_keeps (s := s)).beginOutcome_eq]
    rfl
  have hfinish := finishResult_keeps (fld payload 0 4) (beginBody m o (fld payload 4 1) ((payload.drop 8).take 256)) m
  obtain ⟨n, hn, hafter, htalks, honly⟩ := h.accepted (c := .imageBegin t src payload)
    (w := [.clock, .net, .pair, .flash, .update]) rfl hok
    (hok ▸ KeepsV.ok (((downloadBegun_keeps ..).mono (w := [.net, .pair, .flash, .update]) (by decide)).then hfinish (by decide)))
  exact ⟨n, hn, hafter.flash_eq.trans hfinish.flash_eq, hafter.update_eq.trans hfinish.update_eq,
    (finishResult_ready (downloadBegun_answerable _ _ _ _ hset.atTurn)).of_results_eq htalks.results, honly⟩

/-- A configuration image whose header passes is begun afresh (R596). -/
theorem imageBegin_config (h : Admitted t src 0x60 payload s i) (hset : Settled s) (hkind : fld payload 4 1 = 1)
    (hrom : s.mod.romServed = false) (hcur : s.update.current.length = 2)
    (ho : beginOutcome s 1 ((payload.drop 8).take 256) = 0) (hnew : s.flash.stagingHeader ≠ (payload.drop 8).take 256) :
    Completes (.imageBegin t src payload) s fun n =>
      n.flash = { s.flash with staging := [], stagingHeader := (payload.drop 8).take 256 } ∧ hasDownload n 1 = true ∧
      actedOn n = some 1 ∧ Ready (fld payload 0 4) (leBytes 1 0 ++ leBytes 1 4 ++ leBytes 2 0 ++ leBytes 4 0 ++
        leBytes 4 (blockCount ((payload.drop 8).take 256))) n ∧ Only [.clock, .net, .pair, .flash, .update] s n := by
  obtain ⟨n, hn, hflash, hupd, hready, honly⟩ := imageBegin_begins h hset (.inl hrom) hkind.le
  rw [hkind, ho] at hflash hupd hready
  obtain ⟨hmflash, hmact⟩ := downloadBegun_config (ticket := fld payload 0 4) (s := atTurn t src 0x60 payload i s)
    (by rwa [atTurn_flash]) (by rwa [atTurn_update])
  rw [atTurn_flash] at hmflash
  have hact : actedOn n = some 1 := (actedOn_of_update_eq hupd).trans hmact
  refine ⟨n, hn, hflash.trans hmflash, hasDownload_of_actedOn hact, hact, ?_, honly⟩
  have hblocks : downloadBlocks _ 1 = [] := congrArg Flash.staging hmflash
  rw [beginBody, hblocks, nextBlock_nil] at hready
  exact hready

/-- A bundle whose header passes is begun afresh; the result of one that fails names the check (R596). -/
theorem imageBegin_bundle (h : Admitted t src 0x60 payload s i) (hset : Settled s) (hkind : fld payload 4 1 = 0)
    (hslots : TwoSlots s) (hcur : s.update.current.length = 2) :
    Completes (.imageBegin t src payload) s fun n =>
      (beginOutcome s 0 ((payload.drop 8).take 256) = 0 → (slotRec s (targetSlot s)).header ≠ (payload.drop 8).take 256 →
        SlotCleared (targetSlot s) 1 ((payload.drop 8).take 256) s n ∧ actedOn n = some 0 ∧
        Ready (fld payload 0 4) (leBytes 1 0 ++ leBytes 1 (targetSlot s) ++ leBytes 2 0 ++ leBytes 4 0 ++
          leBytes 4 (blockCount ((payload.drop 8).take 256))) n) ∧
      (beginOutcome s 0 ((payload.drop 8).take 256) ≠ 0 →
        n.flash = s.flash ∧ n.update = { s.update with lastKind := some 0 } ∧
        Ready (fld payload 0 4) (leBytes 1 (beginOutcome s 0 ((payload.drop 8).take 256)) ++ leBytes 1 (targetSlot s) ++
          leBytes 2 0 ++ leBytes 4 0 ++ leBytes 4 (blockCount ((payload.drop 8).take 256))) n) ∧
      Only [.clock, .net, .pair, .flash, .update] s n := by
  have htarget : targetSlot (atTurn t src 0x60 payload i s) = targetSlot s := targetSlot_congr (congrArg Flash.boot atTurn_flash)
  obtain ⟨n, hn, hflash, hupd, hready, honly⟩ := imageBegin_begins h hset (.inr hkind) (hkind ▸ Nat.zero_le 1)
  rw [hkind] at hflash hupd hready
  refine ⟨n, hn, fun ho hnew => ?_, fun ho => ?_, honly⟩
  · rw [ho] at hflash hupd hready
    obtain ⟨hcleared, hmact, hmtarget⟩ := downloadBegun_bundle (ticket := fld payload 0 4)
      (s := atTurn t src 0x60 payload i s) (by rwa [htarget, slotRec_congr atTurn_flash]) (hslots.of_flash_eq atTurn_flash)
      (by rwa [atTurn_update])
    rw [htarget] at hcleared hmtarget
    refine ⟨hcleared.congr atTurn_flash.symm hflash, (actedOn_of_update_eq hupd).trans hmact, ?_⟩
    rw [beginBody, downloadBlocks, hmtarget, if_pos rfl, if_pos rfl, if_pos rfl, hcleared.blocks, nextBlock_nil] at hready
    exact hready
  · rw [downloadBegun_of_failed ho] at hflash hupd hready
    refine ⟨hflash.trans atTurn_flash, hupd.trans ?_, ?_⟩
    · exact congrArg (fun u : Update => { u with lastKind := some 0 }) (atTurn_update (s := s))
    · rw [beginBody, if_neg ho, if_pos rfl] at hready
      rw [← htarget]
      exact hready

/-! ### IMAGE_BLOCK, IMAGE_VERIFY, IMAGE_ACTIVATE and IMAGE_CONFIRM (R597, R600, R601, R603) -/

theorem downloadHeader_congr {s n : State} (h : n.flash = s.flash) (kind : Nat) : downloadHeader n kind = downloadHeader s kind := by
  unfold downloadHeader
  rw [slotRec_congr h, targetSlot_congr (congrArg Flash.boot h), h]

/-- A block as it waits for the flash writer. -/
def blockJob (p : List Byte) : FlashJob := { kind := fld p 4 1, block := fld p 0 4, data := p.drop 12, crc := fld p 8 4 }

section ImageBlock
variable {p : List Byte} {m : State} (hrom : m.mod.romServed = false) (hkind : fld p 4 1 ≤ 1) (hlen : 12 ≤ p.length)
  (hhas : hasDownload m (fld p 4 1) = true) (hblock : fld p 0 4 < blockCount (downloadHeader m (fld p 4 1)))
  (hsize : (p.drop 12).length = blockLength (downloadHeader m (fld p 4 1)) (fld p 0 4))
include hrom hkind hlen hhas hblock hsize

/-- A block in its place and of its length goes by its CRC. -/
theorem msgImageBlock_inPlace : msgImageBlock i p m =
    if crc32c (p.drop 12) ≠ fld p 8 4 then .error (reasonBlockCrc, 0)
    else .ok { m with update := { m.update with queue := m.update.queue ++ [blockJob p] } } := by
  have hplace : ¬ (blockCount (downloadHeader m (fld p 4 1)) ≤ fld p 0 4 ∨
      (p.drop 12).length ≠ blockLength (downloadHeader m (fld p 4 1)) (fld p 0 4)) :=
    not_or.mpr ⟨Nat.not_le.mpr hblock, not_not.mpr hsize⟩
  unfold msgImageBlock
  dsimp only
  rw [if_neg (Nat.not_lt.mpr hlen), hrom, hhas, if_neg (by simp), if_neg (Nat.not_lt.mpr hkind), if_neg (by simp), if_neg (by simpa using hplace)]
  rfl

end ImageBlock

theorem imageBlock_queues (h : Admitted t src 0x61 payload s i) (hrom : s.mod.romServed = false) (hkind : fld payload 4 1 ≤ 1)
    (hlen : 12 ≤ payload.length) (hhas : hasDownload s (fld payload 4 1) = true)
    (hblock : fld payload 0 4 < blockCount (downloadHeader s (fld payload 4 1)))
    (hsize : (payload.drop 12).length = blockLength (downloadHeader s (fld payload 4 1)) (fld payload 0 4)) :
    (crc32c (payload.drop 12) = fld payload 8 4 → Completes (.imageBlock t src payload) s fun n =>
      n.update = { s.update with queue := s.update.queue ++ [blockJob payload] } ∧ Only [.clock, .net, .pair, .update] s n) ∧
    (crc32c (payload.drop 12) ≠ fld payload 8 4 →
      Completes (.imageBlock t src payload) s fun n => Only [.clock, .net, .pair] s n) := by
  have hmsg := msgImageBlock_inPlace (i := i) (p := payload) (m := atTurn t src 0x61 payload i s) (by rwa [atTurn_mod]) hkind hlen
    (by rwa [hasDownload_of_update_eq atTurn_update]) (by rwa [downloadHeader_congr atTurn_flash])
    (by rwa [downloadHeader_congr atTurn_flash])
  refine ⟨fun hcrc => ?_, fun hcrc => ?_⟩
  · rw [if_neg (not_not.mpr hcrc)] at hmsg
    obtain ⟨n, hn, hafter, -, honly⟩ := h.accepted (c := .imageBlock t src payload) (w := [.clock, .net, .pair, .update]) rfl hmsg
      (msgImageBlock_keeps i payload _)
    refine ⟨n, hn, hafter.update_eq.trans ?_, honly⟩
    exact congrArg (fun u : Update => { u with queue := u.queue ++ [blockJob payload] }) (atTurn_update (s := s))
  · rw [if_pos hcrc] at hmsg
    obtain ⟨n, hn, honly, -⟩ := h.refused (c := .imageBlock t src payload) rfl hmsg
    exact ⟨n, hn, honly⟩

/-- A request of which the downloads note only what is asked for, its result pending. -/
theorem Admitted.asks {type kind : Nat} {c : Instr} {f : Nat → List Byte → State → Verdict} {g : Update → Update}
    (h : Admitted t src type payload s i) (hexec : exec c s = .next (hostMessage t src type payload f s))
    (hok : f i payload (atTurn t src type payload i s) = .ok
      { addPending (fld payload 0 4) kind (atTurn t src type payload i s) with
        update := g (atTurn t src type payload i s).update }) :
    Completes c s fun n => n.update = g s.update ∧ Pending (fld payload 0 4) n ∧ Only [.clock, .net, .pair, .update] s n := by
  obtain ⟨n, hn, hafter, htalks, honly⟩ := h.accepted (w := [.clock, .net, .pair, .update]) (v := [.net, .update]) hexec hok
    (hok ▸ KeepsV.ok (((addPending_keeps ..).mono (by decide)).then (set_update_keeps ..) (by decide)))
  exact ⟨n, hn, hafter.update_eq.trans (congrArg g atTurn_update),
    (addPending_pending (fld payload 0 4) kind (atTurn t src type payload i s)).of_results_eq htalks.results, honly⟩

theorem imageVerify_asks {k : Nat} (h : Admitted t src 0x62 payload s i) (hact : actedOn s = some k) :
    Completes (.imageVerify t src payload) s fun n =>
      n.update = { s.update with verifying := s.update.verifying ++ [(k, fld payload 0 4, false)] } ∧
      Pending (fld payload 0 4) n ∧ Only [.clock, .net, .pair, .update] s n := by
  refine h.asks (c := .imageVerify t src payload) (kind := 0x62)
    (g := fun u => { u with verifying := u.verifying ++ [(k, fld payload 0 4, false)] }) rfl ?_
  rw [msgImageVerify, actedOn_of_update_eq atTurn_update, hact]
  rfl

theorem imageActivate_bundle (h : Admitted t src 0x63 payload s i) (hidle : s.mod.state = .idle) (hact : actedOn s = some 0)
    (hstate : slotState s (targetSlot s) = 3) :
    Completes (.imageActivate t src payload) s fun n =>
      n.update = { s.update with verifying := s.update.verifying ++ [(0, fld payload 0 4, true)] } ∧
      Pending (fld payload 0 4) n ∧ Only [.clock, .net, .pair, .update] s n := by
  refine h.asks (c := .imageActivate t src payload) (kind := 0x63)
    (g := fun u => { u with verifying := u.verifying ++ [(0, fld payload 0 4, true)] }) rfl ?_
  have hslot : slotState (atTurn t src 0x63 payload i s) (targetSlot (atTurn t src 0x63 payload i s)) = 3 := by
    rw [targetSlot_congr (congrArg Flash.boot atTurn_flash), slotState_congr (congrArg Flash.slots atTurn_flash), hstate]
  unfold msgImageActivate
  simp only [atTurn_mod, hidle, actedOn_of_update_eq atTurn_update, hact, hslot]
  rfl

theorem imageActivate_config (h : Admitted t src 0x63 payload s i) (hidle : s.mod.state = .idle) (hact : actedOn s = some 1)
    (hvalid : s.update.confValid = true) :
    Completes (.imageActivate t src payload) s fun n =>
      n.update = { s.update with activating := s.update.activating ++ [fld payload 0 4] } ∧
      Pending (fld payload 0 4) n ∧ Only [.clock, .net, .pair, .update] s n := by
  refine h.asks (c := .imageActivate t src payload) (kind := 0x63)
    (g := fun u => { u with activating := u.activating ++ [fld payload 0 4] }) rfl ?_
  have hvalid' : (atTurn t src 0x63 payload i s).update.confValid = true := by rwa [atTurn_update]
  rw [msgImageActivate, if_neg (by simp [atTurn_mod, hidle]), actedOn_of_update_eq atTurn_update, hact]
  exact if_neg (by simp [hvalid'])

theorem imageConfirm_received (h : Admitted t src 0x64 [] s i) (hrom : s.mod.romServed = false) (htrial : s.update.trial = true) :
    Completes (.imageConfirm t src) s fun n =>
      n.update = { s.update with confirmReceived := true } ∧ Only [.clock, .net, .pair, .update] s n := by
  have hok : msgImageConfirm i [] (atTurn t src 0x64 [] i s) = .ok { atTurn t src 0x64 [] i s with
      update := { (atTurn t src 0x64 [] i s).update with confirmReceived := true } } := by
    have htrial' : (atTurn t src 0x64 [] i s).update.trial = true := by rwa [atTurn_update]
    unfold msgImageConfirm
    simp only [atTurn_mod, hrom, htrial']
    rfl
  obtain ⟨n, hn, hafter, -, honly⟩ := h.accepted (c := .imageConfirm t src) (w := [.clock, .net, .pair, .update]) rfl hok
    (msgImageConfirm_keeps i [] _)
  exact ⟨n, hn, hafter.update_eq.trans (congrArg (fun u : Update => { u with confirmReceived := true }) (atTurn_update (s := s))),
    honly⟩

/-! ### IMAGE_ABORT (R604) -/

/-- A message whose meaning ends the download of a kind. -/
theorem imageAbort_ends {k : Nat} (h : Admitted t src 0x65 [] s i) (htrial : s.update.trial = false) (hact : actedOn s = some k) :
    Completes (.imageAbort t src) s fun n =>
      n.flash = (endDownload k (atTurn t src 0x65 [] i s)).flash ∧ n.update = (endDownload k (atTurn t src 0x65 [] i s)).update ∧
      Only [.clock, .net, .pair, .flash, .update] s n := by
  have hok : msgImageAbort i [] (atTurn t src 0x65 [] i s) = .ok (endDownload k (atTurn t src 0x65 [] i s)) := by
    unfold msgImageAbort
    simp only [atTurn_update, htrial, actedOn_of_update_eq atTurn_update, hact]
    rfl
  obtain ⟨n, hn, hafter, -, honly⟩ := h.accepted (c := .imageAbort t src) (w := [.clock, .net, .pair, .flash, .update]) rfl hok
    (hok ▸ KeepsV.ok (endDownload_keeps ..))
  exact ⟨n, hn, hafter.flash_eq, hafter.update_eq, honly⟩

theorem getD_set_false (l : List Bool) (k : Nat) : (l.set k false).getD k false = false := by
  by_cases h : k < l.length <;> simp [List.getD_eq_getElem?_getD, h]

theorem endDownload_bundle (s : State) : endDownload 0 s = slotCleared (targetSlot s) 0 [] { s with update := { s.update with
    current := s.update.current.set 0 false, queue := s.update.queue.filter fun j => j.kind ≠ 0 } } := rfl

theorem imageAbort_bundle (h : Admitted t src 0x65 [] s i) (htrial : s.update.trial = false) (hact : actedOn s = some 0)
    (hslots : TwoSlots s) :
    Completes (.imageAbort t src) s fun n => SlotCleared (targetSlot s) 0 [] s n ∧ hasDownload n 0 = false ∧
      n.update.queue = s.update.queue.filter (fun j => j.kind ≠ 0) ∧ Only [.clock, .net, .pair, .flash, .update] s n := by
  obtain ⟨n, hn, hflash, hupd, honly⟩ := imageAbort_ends h htrial hact
  rw [endDownload_bundle] at hflash hupd
  have hcleared := slotCleared_cleared (hslots.of_flash_eq (atTurn_flash (t := t) (src := src) (type := 0x65) (payload := [])
    (i := i))) (targetSlot_lt (atTurn t src 0x65 [] i s)) 0 []
  rw [targetSlot_congr (congrArg Flash.boot atTurn_flash)] at hcleared hflash
  refine ⟨n, hn, hcleared.congr atTurn_flash.symm hflash, ?_, ?_, honly⟩
  · rw [hasDownload, hupd]
    exact getD_set_false _ 0
  · rw [hupd]
    exact congrArg (fun u : Update => u.queue.filter fun j => j.kind ≠ 0) (atTurn_update (s := s))

theorem imageAbort_config (h : Admitted t src 0x65 [] s i) (htrial : s.update.trial = false) (hact : actedOn s = some 1) :
    Completes (.imageAbort t src) s fun n =>
      n.flash = { s.flash with stagingHeader := [], staging := [] } ∧ hasDownload n 1 = false ∧ n.update.confValid = false ∧
      n.update.queue = s.update.queue.filter (fun j => j.kind ≠ 1) ∧ Only [.clock, .net, .pair, .flash, .update] s n := by
  obtain ⟨n, hn, hflash, hupd, honly⟩ := imageAbort_ends h htrial hact
  rw [endDownload, if_neg Nat.one_ne_zero] at hflash hupd
  refine ⟨n, hn, hflash.trans ?_, ?_, congrArg Update.confValid hupd, ?_, honly⟩
  · exact congrArg (fun f : Flash => { f with stagingHeader := [], staging := [] }) (atTurn_flash (s := s))
  · rw [hasDownload, hupd]
    exact getD_set_false _ 1
  · rw [hupd]
    exact congrArg (fun u : Update => u.queue.filter fun j => j.kind ≠ 1) (atTurn_update (s := s))

end UpdateMessages

/-- Settles O34: each message by what its meaning makes of the downloads and the slots. -/
theorem updateMessages : Obligations.UpdateMessages := by
  unfold Obligations.UpdateMessages
  refine ⟨?config, ?bundle, ?block, ?verify, ?activateBundle, ?activateConfig, ?confirm, ?abortBundle, ?abortConfig⟩
  case config => exact fun _ _ _ _ _ h hset hkind hrom hcur ho hnew => imageBegin_config h hset hkind hrom hcur ho hnew
  case bundle =>
    intro t i src payload s h hset hkind hslots hcur
    obtain ⟨n, hn, hopened, hfailed, honly⟩ := imageBegin_bundle h hset hkind hslots hcur
    refine ⟨n, hn, fun ho hnew => ?_, hfailed, honly⟩
    obtain ⟨⟨hheader, hblocks, hwritten, hother⟩, hact, hready⟩ := hopened ho hnew
    exact ⟨hheader, hblocks, hwritten, hother, hact, hready⟩
  case block => exact fun _ _ _ _ _ h hrom hkind hlen hhas hblock hsize => imageBlock_queues h hrom hkind hlen hhas hblock hsize
  case verify => exact fun _ _ _ _ _ _ h hact => imageVerify_asks h hact
  case activateBundle => exact fun _ _ _ _ _ h hidle hact hstate => imageActivate_bundle h hidle hact hstate
  case activateConfig => exact fun _ _ _ _ _ h hidle hact hvalid => imageActivate_config h hidle hact hvalid
  case confirm => exact fun _ _ _ _ h hrom htrial => imageConfirm_received h hrom htrial
  case abortBundle =>
    intro t i src s h htrial hact hslots
    obtain ⟨n, hn, ⟨hheader, hblocks, hwritten, hother⟩, hrest⟩ := imageAbort_bundle h htrial hact hslots
    exact ⟨n, hn, hheader, hblocks, hwritten, hother, hrest⟩
  case abortConfig => exact fun _ _ _ _ h htrial hact => imageAbort_config h htrial hact

end Sys2Proof.Machine
end

section
/-! Proofs of the statements on what reaches the flash (21_firmware_update.md, 18_configuration_image.md, 13_calibration.md): the
records and the configuration (O36), and the blocks and the verification of a download (O35). -/
namespace Sys2Proof.Machine
open Sys2Proof

-- As in the sections before: checked in parallel, the whole text takes more threads than the memory limit leaves room for.
set_option Elab.async false

/-- What a command that is no message writes lies in its own groups. -/
theorem exec_only {c : Instr} {s n : State} {w : List Group} (h : exec c s = .next n) (hc : mayRelease c = false := by rfl)
    (hw : ((mayWrite c).all fun g => g ∈ w) = true := by rfl) : Only w s n := by
  have honly := (exec_keeps c s n h).only
  rw [writesIn, hc] at honly
  exact honly.mono fun g hg => of_decide_eq_true (List.all_eq_true.mp hw g hg)

/-! ### The configuration areas (R520, R521, R541) -/

theorem setArea_areas_length (k : Nat) (a : Option Area) (s : State) : (setArea k a s).flash.areas.length = s.flash.areas.length :=
  List.length_set ..

theorem areaOf18_setArea_same {k : Nat} (a : Option Area) {s : State} (h : k < s.flash.areas.length) :
    areaOf18 (setArea k a s) k = a := by
  simp [areaOf18, setArea, List.getD_eq_getElem?_getD, h]

theorem areaOf18_setArea_other {j k : Nat} (a : Option Area) (s : State) (h : j ≠ k) :
    areaOf18 (setArea k a s) j = areaOf18 s j := by
  simp [areaOf18, setArea, List.getD_eq_getElem?_getD, List.getElem?_set_ne h.symm]

theorem downloadBytes_congr {s n : State} (h : n.flash = s.flash) (kind : Nat) : downloadBytes n kind = downloadBytes s kind := by
  unfold downloadBytes downloadBlocks
  rw [downloadHeader_congr h, slotRec_congr h, targetSlot_congr (congrArg Flash.boot h), h]

theorem areaSeq_congr {s n : State} (h : n.flash = s.flash) (k : Nat) : areaSeq n k = areaSeq s k := by
  unfold areaSeq
  rw [areaOf18_congr h]

/-- The sequence number under which an activation writes (R541). -/
def activationSeq (s : State) : Nat :=
  wrapInc 32 (if seqAfter (areaSeq s 1) (areaSeq s 0) then areaSeq s 1 else areaSeq s 0)

theorem activationSeq_congr {s n : State} (h : n.flash = s.flash) : activationSeq n = activationSeq s := by
  unfold activationSeq
  rw [areaSeq_congr h, areaSeq_congr h]

/-- The four steps of an activation of an image in a running format. -/
theorem activateConfig_of_current {s : State} (h : olderFormat (downloadBytes s 1) = false) : activateConfig s =
    (let s2 := setArea 1 (some (sealed (downloadBytes s 1) (activationSeq s)))
      (setArea 0 (some (sealed (downloadBytes s 1) (activationSeq s))) (setArea 3 none (setArea 2 none s)))
     emit (.flashWrite 2) { s2 with conf := { s2.conf with pending := true } }) := by
  unfold activateConfig
  dsimp only
  rw [h]
  rfl

theorem activateConfig_areas {s : State} (holder : olderFormat (downloadBytes s 1) = false) (hlen : s.flash.areas.length = 5) :
    areaOf18 (activateConfig s) 0 = some (sealed (downloadBytes s 1) (activationSeq s)) ∧
      areaOf18 (activateConfig s) 1 = some (sealed (downloadBytes s 1) (activationSeq s)) ∧
      areaOf18 (activateConfig s) 2 = none ∧ areaOf18 (activateConfig s) 3 = none ∧
      areaOf18 (activateConfig s) 4 = areaOf18 s 4 := by
  have hflash : (activateConfig s).flash = (setArea 1 (some (sealed (downloadBytes s 1) (activationSeq s)))
      (setArea 0 (some (sealed (downloadBytes s 1) (activationSeq s))) (setArea 3 none (setArea 2 none s)))).flash := by
    rw [activateConfig_of_current holder]
    rfl
  simp [areaOf18_congr hflash, areaOf18_setArea_same, areaOf18_setArea_other, setArea_areas_length, hlen]

theorem activateConfig_conf {s : State} (holder : olderFormat (downloadBytes s 1) = false) :
    (activateConfig s).conf = { s.conf with pending := true } := by
  rw [activateConfig_of_current holder]
  rfl

/-- What a verification of area S finds goes by the flash, the configuration in force, the straps, and the helpers of the running
bundle. -/
theorem configOutcome_congr {s n : State} (hflash : n.flash = s.flash) (hconf : n.conf = s.conf) (hpower : n.power = s.power)
    (hformats : n.update.formats = s.update.formats) (hdigest : n.update.digest = s.update.digest) :
    configOutcome n = configOutcome s := by
  have hmigrate : ∀ b, migrateImage n b = migrateImage s b := fun b => by
    unfold migrateImage
    rw [hformats, hdigest]
  have hread : ∀ m b, readConfig n m b = readConfig s m b := fun m b => readConfig_congr hpower m b
  unfold configOutcome structureOk
  simp only [downloadBytes_congr hflash, hconf, hformats, hmigrate, hread]

theorem configBody_congr {s n : State} (hflash : n.flash = s.flash) (hconf : n.conf = s.conf) (hpower : n.power = s.power)
    (hformats : n.update.formats = s.update.formats) (hdigest : n.update.digest = s.update.digest) :
    configBody n = configBody s := by
  unfold configBody
  rw [configOutcome_congr hflash hconf hpower hformats hdigest, downloadBytes_congr hflash]

/-- The oldest activation asked for is under way no more. -/
def activationTaken (rest : List Nat) (s : State) : State := { s with update := { s.update with activating := rest } }

/-- The activation of a configuration image in a running format, its writes complete (R541, R542). -/
theorem configActivationDone_activates {t k : Nat} {rest : List Nat} {s : State} (hact : s.update.activating = k :: rest)
    (hrun : inRun s = false) (hrec : s.update.records.contains .calibration = false) (hlen : s.flash.areas.length = 5)
    (holder : olderFormat (downloadBytes s 1) = false) (hans : Answerable k s) :
    Completes (.configActivationDone t) s fun n =>
      areaOf18 n 0 = some (sealed (downloadBytes s 1) (activationSeq s)) ∧
      areaOf18 n 1 = some (sealed (downloadBytes s 1) (activationSeq s)) ∧
      areaOf18 n 2 = none ∧ areaOf18 n 3 = none ∧ areaOf18 n 4 = areaOf18 s 4 ∧ n.conf = { s.conf with pending := true } ∧
      Ready k (configBody s) n ∧ Only [.clock, .net, .pair, .flash, .conf, .update] s n := by
  have hrun' : inRun (beginAt t s) = false := hrun
  have hexec : exec (.configActivationDone t) s = .next (finishResult k (configBody (beginAt t s))
      (activateConfig (activationTaken rest (beginAt t s)))) := by
    show execConfigActivationDone t s = _
    unfold execConfigActivationDone
    simp only [beginAt_update, hact, hrun', hrec, Bool.or_self, Bool.false_eq_true, if_false]
    rfl
  have hbytes : downloadBytes (activationTaken rest (beginAt t s)) 1 = downloadBytes s 1 := downloadBytes_congr rfl 1
  have hseq : activationSeq (activationTaken rest (beginAt t s)) = activationSeq s := activationSeq_congr rfl
  have hbody : configBody (beginAt t s) = configBody s := configBody_congr rfl rfl rfl rfl rfl
  have holder' : olderFormat (downloadBytes (activationTaken rest (beginAt t s)) 1) = false := by
    rwa [hbytes]
  obtain ⟨h0, h1, h2, h3, h4⟩ := activateConfig_areas holder' hlen
  rw [hbytes, hseq] at h0 h1
  have hconf := activateConfig_conf holder'
  have hactivated := activateConfig_keeps (activationTaken rest (beginAt t s))
  have hans' := hans.of_net_pair_eq hactivated.net_eq hactivated.pair_eq
  rw [hbody] at hexec
  have hfinish := finishResult_keeps k (configBody s) (activateConfig (activationTaken rest (beginAt t s)))
  refine ⟨_, hexec, ?_, ?_, ?_, ?_, ?_, hfinish.conf_eq.trans hconf, finishResult_ready hans', exec_only hexec⟩
  · exact (areaOf18_congr hfinish.flash_eq 0).trans h0
  · exact (areaOf18_congr hfinish.flash_eq 1).trans h1
  · exact (areaOf18_congr hfinish.flash_eq 2).trans h2
  · exact (areaOf18_congr hfinish.flash_eq 3).trans h3
  · exact (areaOf18_congr hfinish.flash_eq 4).trans h4

/-! ### The trial, and the records (R246, R418, R521, R602) -/

/-- The trial of the running slot has ended well: the slot is CONFIRMED, and the boot-select record says so (R602). -/
def bundleConfirmedNow (s : State) : State :=
  let s1 := emit (.flashWrite 1)
    (writeBoot s.update.runningSlot (bootRec s).previous 0 true (markSlot s.update.runningSlot 4 s))
  { s1 with update := { s1.update with trial := false } }

theorem exec_bundleConfirmed (t : Nat) {s : State} (h : mayConfirm s = true) : exec (.bundleConfirmed t) s =
    .next (raise 0x0F31 (leBytes 1 s.update.runningSlot ++ padTo 8 s.update.digest) (bundleConfirmedNow (beginAt t s))) :=
  congrArg Host.Outcome.next (if_pos h)

theorem bundleConfirmed_confirms (t : Nat) {s : State} (h : mayConfirm s = true) (hslots : TwoSlots s)
    (hslot : s.update.runningSlot < 2) :
    Completes (.bundleConfirmed t) s fun n =>
      slotState n s.update.runningSlot = 4 ∧ (bootRec n).selected = s.update.runningSlot ∧ (bootRec n).confirmed = true ∧
      (bootRec n).trial = 0 ∧ n.update = { s.update with trial := false } ∧
      RaisedNext s 0x0F31 (leBytes 1 s.update.runningSlot ++ padTo 8 s.update.digest) n ∧
      Only [.clock, .flash, .update, .log, .net] s n := by
  have hexec := exec_bundleConfirmed t h
  have hraise := raise_keeps 0x0F31 (leBytes 1 s.update.runningSlot ++ padTo 8 s.update.digest) (bundleConfirmedNow (beginAt t s))
  have hmarked : slotState (markSlot s.update.runningSlot 4 (beginAt t s)) s.update.runningSlot = 4 :=
    slotState_markSlot (beginAt t s) s.update.runningSlot 4 hslots hslot
  have hstate : slotState (bundleConfirmedNow (beginAt t s)) s.update.runningSlot = 4 := (slotState_congr rfl _).trans hmarked
  have hboot : bootRec (bundleConfirmedNow (beginAt t s)) = bootRecNext s.update.runningSlot (bootRec s).previous 0 true
      (markSlot s.update.runningSlot 4 (beginAt t s)) := (bootRec_congr rfl).trans (bootRec_writeBoot ..)
  have hrec := (bootRec_congr (congrArg Flash.boot hraise.flash_eq)).trans hboot
  exact ⟨_, hexec, (slotState_congr (congrArg Flash.slots hraise.flash_eq) _).trans hstate, congrArg BootRec.selected hrec,
    congrArg BootRec.confirmed hrec, congrArg BootRec.trial hrec, hraise.update_eq, raisedNext_raise _ _ rfl, exec_only hexec⟩

/-- A record that waited for the flash writer waits no more. -/
def recordTaken (rec : FlashRecord) (s : State) : State :=
  { s with update := { s.update with records := s.update.records.filter fun r => r ≠ rec } }

theorem exec_calibrationWritten (t : Nat) (ok : Bool) {s : State} (h : mayWriteRecord s .calibration = true) :
    exec (.flashRecordWritten t .calibration ok) s =
      .next (writeStore ok (emit (.flashWrite 3) (recordTaken .calibration (beginAt t s)))) := by
  have h' : mayWriteRecord (beginAt t s) .calibration = true := h
  show execFlashRecordWritten t .calibration ok s = _
  unfold execFlashRecordWritten
  dsimp only
  rw [h']
  rfl

theorem exec_configCopyWritten (t : Nat) {s : State} (h : mayWriteRecord s .configCopy = true) :
    exec (.flashRecordWritten t .configCopy true) s =
      .next (writeCopy (emit (.flashWrite 2) (recordTaken .configCopy (beginAt t s)))) := by
  have h' : mayWriteRecord (beginAt t s) .configCopy = true := h
  show execFlashRecordWritten t .configCopy true s = _
  unfold execFlashRecordWritten
  dsimp only
  rw [h']
  rfl

theorem nextPlace_lt_two {α : Type} (seq : α → Nat) (l : List (Option α)) : nextPlace seq l < 2 := by
  unfold nextPlace
  cases laterCopy seq l with
  | none => exact Nat.zero_lt_two
  | some k => exact Nat.lt_succ_of_le (Nat.sub_le 1 k)

theorem mem_set {α : Type} {l : List α} {k : Nat} (x : α) (h : k < l.length) : x ∈ l.set k x :=
  List.mem_iff_getElem.mpr ⟨k, by simpa using h, List.getElem_set_self ..⟩

theorem calibrationWritten_stored (t : Nat) {s : State} (h : mayWriteRecord s .calibration = true) :
    Completes (.flashRecordWritten t .calibration true) s fun n =>
      n.cal.values = s.cal.values ∧ n.cal.changed = false ∧ RaisedNext s 0x0A16 (leBytes 4 n.cal.storeSeq) n ∧
      (s.flash.calStore.length = 2 →
        some ⟨n.cal.storeSeq, s.cal.values, storeCrc n.cal.storeSeq s.cal.values⟩ ∈ n.flash.calStore) ∧
      Only [.clock, .flash, .update, .log, .net, .cal] s n := by
  have hexec := exec_calibrationWritten t true h
  obtain ⟨q, m, hm, hcal, hflash, hlog⟩ : ∃ q m, writeStore true (emit (.flashWrite 3) (recordTaken .calibration (beginAt t s))) =
      raise 0x0A16 (leBytes 4 q) m ∧ m.cal = { s.cal with storeSeq := q, changed := false } ∧
      m.flash.calStore = s.flash.calStore.set (nextPlace (fun x => x.seq) (s.flash.calStore.map validStore))
        (some ⟨q, s.cal.values, storeCrc q s.cal.values⟩) ∧ m.log = s.log := ⟨_, _, rfl, rfl, rfl, rfl⟩
  rw [hm] at hexec
  have hraise := raise_keeps 0x0A16 (leBytes 4 q) m
  have hncal := hraise.cal_eq.trans hcal
  refine ⟨_, hexec, (congrArg Cal.values hncal).trans rfl, (congrArg Cal.changed hncal).trans rfl, ?_, fun hlen => ?_, exec_only hexec⟩
  · rw [hncal]
    exact raisedNext_raise _ _ hlog
  · rw [hncal, hraise.flash_eq, hflash]
    exact mem_set _ (by rw [hlen]; exact nextPlace_lt_two ..)

theorem calibrationWritten_failed (t : Nat) {s : State} (h : mayWriteRecord s .calibration = true) :
    Completes (.flashRecordWritten t .calibration false) s fun n => n.flash = s.flash ∧ n.cal = s.cal ∧
      Raised 0x0A17 (leBytes 1 (nextPlace (fun x => x.seq) (s.flash.calStore.map validStore))) n := by
  have hraise := raise_keeps 0x0A17 (leBytes 1 (nextPlace (fun x => x.seq) (s.flash.calStore.map validStore)))
    (emit (.flashWrite 3) (recordTaken .calibration (beginAt t s)))
  exact ⟨_, exec_calibrationWritten t false h, hraise.flash_eq, hraise.cal_eq, raised_of_raise (.of_log_eq rfl)⟩

/-- Which copy is in use goes by the areas and the formats that the running bundle reads. -/
theorem installedCopy_of_formats_eq {s n : State} (hflash : n.flash = s.flash) (hformats : n.update.formats = s.update.formats) :
    installedCopy n = installedCopy s := by
  have hfault : ∀ k, areaFault n k = areaFault s k := fun k => by
    unfold areaFault structureOk
    rw [areaOf18_congr hflash, hformats]
  unfold installedCopy
  rw [hfault, hfault, areaOf18_congr hflash, areaOf18_congr hflash]

theorem configCopy_written (t : Nat) {k : Nat} {a : Area} {s : State} (h : mayWriteRecord s .configCopy = true)
    (hcopy : installedCopy s = some (k, a)) (hlen : s.flash.areas.length = 5) :
    Completes (.flashRecordWritten t .configCopy true) s fun n =>
      areaOf18 n (1 - k) = some a ∧ Only [.clock, .flash, .update] s n := by
  have hexec := exec_configCopyWritten t h
  have hcopy' : installedCopy (emit (.flashWrite 2) (recordTaken .configCopy (beginAt t s))) = some (k, a) :=
    (installedCopy_of_formats_eq rfl rfl).trans hcopy
  have hwrite : writeCopy (emit (.flashWrite 2) (recordTaken .configCopy (beginAt t s))) =
      setArea (1 - k) (some a) (emit (.flashWrite 2) (recordTaken .configCopy (beginAt t s))) := by
    rw [writeCopy, hcopy']
  have hkeeps : Keeps [.flash, .update] (beginAt t s)
      (setArea (1 - k) (some a) (emit (.flashWrite 2) (recordTaken .configCopy (beginAt t s)))) :=
    ((((set_update_keeps ..).mono (v := [.update]) (by decide)).then (emit_keeps (.flashWrite 2) _) (by decide)).then
      (setArea_keeps ..) (by decide))
  rw [hwrite] at hexec
  refine ⟨_, hexec, areaOf18_setArea_same _ ?_, hkeeps.onlySince⟩
  show 1 - k < s.flash.areas.length
  omega

/-- Settles O36: each write by the operation that makes it. -/
theorem recordsAreWritten : Obligations.RecordsAreWritten := by
  unfold Obligations.RecordsAreWritten
  refine ⟨?activation, ?confirmed, ?calibration, ?configCopy⟩
  case activation =>
    intro t k rest s hact hrun hrec hlen holder hans
    obtain ⟨n, hn, h0, h1, hothers⟩ := configActivationDone_activates hact hrun hrec hlen holder hans
    exact ⟨n, hn, ⟨_, rfl, h0, h1⟩, hothers⟩
  case confirmed => exact fun t _ h hslots hslot => bundleConfirmed_confirms t h hslots hslot
  case calibration => exact fun t _ h => ⟨calibrationWritten_stored t h, calibrationWritten_failed t h⟩
  case configCopy => exact fun t _ _ _ h hcopy hlen => configCopy_written t h hcopy hlen

/-! ### Image blocks (R597 to R599) -/

/-- A slot with one more block in its place. -/
def withBlock (j : FlashJob) (x : BundleSlot) : BundleSlot := { x with blocks := putBlock j x.blocks }

section PutSlot
variable {s : State} {k : Nat} (state : Nat) (digest : List Byte)

/-- Header and blocks of a slot, which its state records do not touch. -/
theorem slotRec_putSlot (hk : k < s.flash.slots.length) :
    (slotRec (putSlot k state digest s) k).header = (slotRec s k).header ∧
      (slotRec (putSlot k state digest s) k).blocks = (slotRec s k).blocks := by
  unfold putSlot
  split
  · exact ⟨rfl, rfl⟩
  · rw [writeSlot, slotRec_modSlotRec _ _ _ hk]
    exact ⟨rfl, rfl⟩

theorem slotRec_putSlot_other {j : Nat} (h : j ≠ k) : slotRec (putSlot k state digest s) j = slotRec s j := by
  unfold putSlot
  split
  · rfl
  · exact slotRec_modSlotRec_other _ s h

theorem slotState_putSlot (hs : TwoSlots s) (hk : k < 2) : slotState (putSlot k state digest s) k = state := by
  unfold putSlot
  split
  · next hsame =>
    rw [Bool.and_eq_true, decide_eq_true_eq] at hsame
    exact hsame.1
  · rw [slotState, slotInForce_writeSlot s k state digest hs hk]
    rfl

theorem putSlot_sent : (putSlot k state digest s).sent = s.sent := by
  unfold putSlot
  split
  · rfl
  · rfl

end PutSlot

theorem blockState_cases (header : List Byte) (l : List (Nat × List Byte × Nat)) :
    blockState header l = 2 ∨ blockState header l = 1 := by
  unfold blockState
  split
  · exact .inl rfl
  · exact .inr rfl

theorem verifyRelay_queue (s : State) : (verifyRelay s).update.queue = s.update.queue ∧ (verifyRelay s).sent = s.sent := by
  unfold verifyRelay
  split
  · exact ⟨rfl, rfl⟩
  · exact ⟨rfl, rfl⟩

/-- A block of a bundle in flash: the slot has the block and the state that its blocks give it. -/
theorem writeBundleBlock_puts (j : FlashJob) {s : State} (hin : targetSlot s < s.flash.slots.length) : ∃ digest,
    (writeBundleBlock j s).flash = (putSlot (targetSlot s)
      (blockState (slotRec s (targetSlot s)).header (putBlock j (slotRec s (targetSlot s)).blocks)) digest
      (modSlotRec (targetSlot s) (withBlock j) s)).flash ∧
    (writeBundleBlock j s).update.queue = s.update.queue ∧ (writeBundleBlock j s).sent = s.sent := by
  have hrec : slotRec (modSlotRec (targetSlot s) (withBlock j) s) (targetSlot s) = withBlock j (slotRec s (targetSlot s)) :=
    slotRec_modSlotRec s (targetSlot s) (withBlock j) hin
  have hwrite : writeBundleBlock j s = (let s1 := modSlotRec (targetSlot s) (withBlock j) s
      let x := slotRec s1 (targetSlot s)
      if blockState x.header x.blocks = 2 then
        verifyRelay (putSlot (targetSlot s) 2 (bundleDigest (blockBytes x.header x.blocks)) s1)
      else putSlot (targetSlot s) 1 [] s1) := rfl
  dsimp only at hwrite
  rw [hrec] at hwrite
  generalize hdigest : bundleDigest (blockBytes (withBlock j (slotRec s (targetSlot s))).header
    (withBlock j (slotRec s (targetSlot s))).blocks) = digest at hwrite
  rcases blockState_cases (withBlock j (slotRec s (targetSlot s))).header (withBlock j (slotRec s (targetSlot s))).blocks
    with hstate | hstate
  · rw [if_pos hstate] at hwrite
    obtain ⟨hqueue, hsent⟩ := verifyRelay_queue (putSlot (targetSlot s) 2 digest (modSlotRec (targetSlot s) (withBlock j) s))
    rw [← hwrite] at hqueue hsent
    refine ⟨digest, ?_, hqueue.trans (congrArg Update.queue (putSlot_keeps ..).update_eq), hsent.trans (putSlot_sent ..)⟩
    rw [hwrite, (verifyRelay_keeps _).flash_eq]
    exact congrArg (fun st => (putSlot (targetSlot s) st digest (modSlotRec (targetSlot s) (withBlock j) s)).flash) hstate.symm
  · rw [if_neg (by rw [hstate]; decide)] at hwrite
    rw [hwrite]
    exact ⟨[], congrArg (fun st => (putSlot (targetSlot s) st [] (modSlotRec (targetSlot s) (withBlock j) s)).flash) hstate.symm,
      congrArg Update.queue (putSlot_keeps ..).update_eq, putSlot_sent ..⟩

/-- The oldest image block has been taken by the flash writer. -/
def blockTaken (rest : List FlashJob) (s : State) : State :=
  emit (.flashWrite 0) { s with update := { s.update with queue := rest } }

theorem exec_flashBlockWritten (t : Nat) {j : FlashJob} {rest : List FlashJob} {s : State} (hqueue : s.update.queue = j :: rest)
    (hrec : recordFirst s = false) : exec (.flashBlockWritten t) s =
      .next (if j.kind = 0 then writeBundleBlock j (blockTaken rest (beginAt t s))
        else writeConfigBlock j (blockTaken rest (beginAt t s))) := by
  have hrec' : recordFirst (beginAt t s) = false := hrec
  show execFlashBlockWritten t s = _
  unfold execFlashBlockWritten
  simp only [beginAt_update, hqueue, hrec', Bool.false_eq_true, if_false]
  rfl

theorem flashBlockWritten_bundle (t : Nat) {j : FlashJob} {rest : List FlashJob} {s : State} (hqueue : s.update.queue = j :: rest)
    (hkind : j.kind = 0) (hslots : TwoSlots s) (hrec : recordFirst s = false) :
    Completes (.flashBlockWritten t) s fun n =>
      (slotRec n (targetSlot s)).blocks = putBlock j (slotRec s (targetSlot s)).blocks ∧
      (slotRec n (targetSlot s)).header = (slotRec s (targetSlot s)).header ∧
      slotState n (targetSlot s) =
        blockState (slotRec s (targetSlot s)).header (putBlock j (slotRec s (targetSlot s)).blocks) ∧
      slotRec n (otherSlot (targetSlot s)) = slotRec s (otherSlot (targetSlot s)) ∧ n.update.queue = rest ∧
      n.sent = [.flashWrite 0] ∧ Only [.clock, .flash, .update] s n := by
  have hexec := exec_flashBlockWritten t hqueue hrec
  rw [if_pos hkind] at hexec
  have hin : targetSlot s < s.flash.slots.length := hslots.1 ▸ targetSlot_lt s
  obtain ⟨digest, hflash, hrest, hsent⟩ : ∃ digest,
      (writeBundleBlock j (blockTaken rest (beginAt t s))).flash = (putSlot (targetSlot s)
        (blockState (slotRec s (targetSlot s)).header (putBlock j (slotRec s (targetSlot s)).blocks)) digest
        (modSlotRec (targetSlot s) (withBlock j) (blockTaken rest (beginAt t s)))).flash ∧ _ ∧ _ :=
    writeBundleBlock_puts j (s := blockTaken rest (beginAt t s)) hin
  have hslots' : TwoSlots (modSlotRec (targetSlot s) (withBlock j) (blockTaken rest (beginAt t s))) :=
    TwoSlots.modSlotRec (s := blockTaken rest (beginAt t s)) (hslots.of_flash_eq rfl) (f := withBlock j) (fun _ => rfl) _
  have hin' : targetSlot s < (modSlotRec (targetSlot s) (withBlock j) (blockTaken rest (beginAt t s))).flash.slots.length :=
    hslots'.1 ▸ targetSlot_lt s
  have hblock : slotRec (modSlotRec (targetSlot s) (withBlock j) (blockTaken rest (beginAt t s))) (targetSlot s) =
      withBlock j (slotRec s (targetSlot s)) := slotRec_modSlotRec _ (targetSlot s) (withBlock j) hin
  obtain ⟨hheader, hblocks⟩ := slotRec_putSlot
    (blockState (slotRec s (targetSlot s)).header (putBlock j (slotRec s (targetSlot s)).blocks)) digest hin'
  rw [hblock, ← slotRec_congr hflash] at hheader hblocks
  refine ⟨_, hexec, hblocks, hheader, (slotState_congr (congrArg Flash.slots hflash) _).trans
    (slotState_putSlot _ _ hslots' (targetSlot_lt s)), ?_, hrest, hsent, exec_only hexec⟩
  rw [slotRec_congr hflash, slotRec_putSlot_other _ _ (otherSlot_ne _), slotRec_modSlotRec_other _ _ (otherSlot_ne _)]
  rfl

theorem flashBlockWritten_config (t : Nat) {j : FlashJob} {rest : List FlashJob} {s : State} (hqueue : s.update.queue = j :: rest)
    (hkind : j.kind = 1) (hrec : recordFirst s = false) :
    Completes (.flashBlockWritten t) s fun n => n.flash = { s.flash with staging := putBlock j s.flash.staging } ∧
      n.update = { s.update with queue := rest, confValid := false } ∧ Only [.clock, .flash, .update] s n := by
  have hexec := exec_flashBlockWritten t hqueue hrec
  rw [if_neg (by rw [hkind]; decide)] at hexec
  exact ⟨_, hexec, rfl, rfl, exec_only hexec⟩

theorem flashBlockWritten_waits (t : Nat) {s : State} (h : recordFirst s = true) :
    exec (.flashBlockWritten t) s = .next (beginAt t s) := by
  have h' : recordFirst (beginAt t s) = true := h
  show execFlashBlockWritten t s = _
  unfold execFlashBlockWritten
  dsimp only
  split
  · rfl
  · rw [if_pos h']

/-! ### Verification and promotion (R539, R540, R600, R601) -/

theorem slotBytes_congr {s n : State} (h : n.flash = s.flash) (k : Nat) : slotBytes n k = slotBytes s k := by
  unfold slotBytes
  rw [slotRec_congr h]

/-- What a verification of a slot finds goes by the flash, the fuses and the configuration. -/
theorem bundleOutcome_congr {s n : State} (hflash : n.flash = s.flash) (hotp : n.otp = s.otp) (hconf : n.conf = s.conf) (k : Nat) :
    bundleOutcome n k = bundleOutcome s k := by
  have hsigned : bundleSigned n = bundleSigned s := by
    funext b
    unfold bundleSigned
    rw [hotp]
  have hcfg : cfgN n = cfgN s := by
    unfold cfgN
    rw [hconf]
  unfold bundleOutcome
  rw [slotRec_congr hflash, slotBytes_congr hflash, hsigned, hcfg]

theorem bundleBody_congr {s n : State} (hflash : n.flash = s.flash) (hotp : n.otp = s.otp) (hconf : n.conf = s.conf) (k : Nat) :
    bundleBody n k = bundleBody s k := by
  unfold bundleBody
  rw [bundleOutcome_congr hflash hotp hconf, slotRec_congr hflash, slotBytes_congr hflash]

/-- The oldest verification asked for is complete. -/
def verificationTaken (rest : List (Nat × Nat × Bool)) (s : State) : State :=
  { s with update := { s.update with verifying := rest } }

/-- A bundle's slot once its verification is complete. -/
def bundleChecked (s : State) : State :=
  if (bundleOutcome s (targetSlot s)).1 = 0 then
    putSlot (targetSlot s) 3 (bundleDigest (slotBytes s (targetSlot s))) s
  else s

theorem bundleChecked_keeps (s : State) : Keeps [.flash] s (bundleChecked s) := verifiedBundle_keeps s

theorem bundleChecked_of_passed {s : State} (h : (bundleOutcome s (targetSlot s)).1 = 0) (hslots : TwoSlots s) :
    slotState (bundleChecked s) (targetSlot s) = 3 := by
  rw [bundleChecked, if_pos h]
  exact slotState_putSlot 3 _ hslots (targetSlot_lt s)

theorem bundleChecked_of_failed {s : State} (h : (bundleOutcome s (targetSlot s)).1 ≠ 0) : bundleChecked s = s := if_neg h

theorem exec_imageVerifyDone_bundle (t : Nat) {k : Nat} {rest : List (Nat × Nat × Bool)} {s : State}
    (hver : s.update.verifying = (0, k, false) :: rest) : exec (.imageVerifyDone t) s =
      let s2 := verificationTaken rest (beginAt t s)
      let s3 := finishResult k (bundleBody s2 (targetSlot s2)) (bundleChecked s2)
      .next (if (bundleOutcome s2 (targetSlot s2)).1 = 0 then startRelay s3 else s3) := by
  show execImageVerifyDone t s = _
  unfold execImageVerifyDone
  simp only [beginAt_update, hver]
  rfl

theorem exec_imageVerifyDone_config (t : Nat) {k : Nat} {rest : List (Nat × Nat × Bool)} {s : State}
    (hver : s.update.verifying = (1, k, false) :: rest) : exec (.imageVerifyDone t) s =
      let s2 := verificationTaken rest (beginAt t s)
      .next (finishResult k (configBody s2) { s2 with update := { s2.update with confValid := (configOutcome s2).1 = 0 } }) := by
  show execImageVerifyDone t s = _
  unfold execImageVerifyDone
  simp only [beginAt_update, hver]
  rfl

theorem exec_imageVerifyDone_promotes (t : Nat) {k : Nat} {rest : List (Nat × Nat × Bool)} {s : State}
    (hver : s.update.verifying = (0, k, true) :: rest) (hidle : s.mod.state = .idle) : exec (.imageVerifyDone t) s =
      let s2 := verificationTaken rest (beginAt t s)
      .next (if (bundleOutcome s2 (targetSlot s2)).1 = 0 then promote k (bundleBody s2 (targetSlot s2)) (bundleChecked s2)
        else finishResult k (bundleBody s2 (targetSlot s2)) (bundleChecked s2)) := by
  show execImageVerifyDone t s = _
  unfold execImageVerifyDone
  simp only [beginAt_update, hver, beginAt_mod, hidle]
  rfl

section Verification
variable (t : Nat) {k : Nat} {rest : List (Nat × Nat × Bool)} {s : State}

theorem verificationTaken_target : targetSlot (verificationTaken rest (beginAt t s)) = targetSlot s := targetSlot_congr rfl

theorem verificationTaken_outcome : bundleOutcome (verificationTaken rest (beginAt t s)) (targetSlot s) =
    bundleOutcome s (targetSlot s) := bundleOutcome_congr (s := s) (n := verificationTaken rest (beginAt t s)) rfl rfl rfl _

theorem verificationTaken_body : bundleBody (verificationTaken rest (beginAt t s)) (targetSlot s) =
    bundleBody s (targetSlot s) := bundleBody_congr (s := s) (n := verificationTaken rest (beginAt t s)) rfl rfl rfl _

theorem startRelay_of_no_king {m : State} (h : m.ring.state ≠ .king) : startRelay m = m := by
  unfold startRelay
  rw [if_neg (by simp [h])]

/-- The result of a verification is ready; the downloads note that it is no longer waiting, and the flash is that of the slot
checked. -/
theorem bundleChecked_finished (hans : Answerable k s) {m : State}
    (hm : m = finishResult k (bundleBody s (targetSlot s)) (bundleChecked (verificationTaken rest (beginAt t s)))) :
    Ready k (bundleBody s (targetSlot s)) m ∧ m.update = { s.update with verifying := rest } ∧
      m.flash = (bundleChecked (verificationTaken rest (beginAt t s))).flash ∧ m.mod = s.mod ∧
      Only [.clock, .net, .pair, .flash, .update] s m := by
  have hchecked := bundleChecked_keeps (verificationTaken rest (beginAt t s))
  have hfinish := finishResult_keeps k (bundleBody s (targetSlot s)) (bundleChecked (verificationTaken rest (beginAt t s)))
  have hkeeps : Keeps [.net, .pair, .flash, .update] (beginAt t s)
      (finishResult k (bundleBody s (targetSlot s)) (bundleChecked (verificationTaken rest (beginAt t s)))) :=
    (((set_update_keeps ..).mono (by decide)).then hchecked (by decide)).then hfinish (by decide)
  rw [hm]
  exact ⟨finishResult_ready (hans.of_net_pair_eq hchecked.net_eq hchecked.pair_eq), hfinish.update_eq.trans hchecked.update_eq,
    hfinish.flash_eq, hkeeps.mod_eq, hkeeps.onlySince⟩

theorem imageVerifyDone_bundle (hver : s.update.verifying = (0, k, false) :: rest) (hking : s.ring.state ≠ .king)
    (hans : Answerable k s) :
    Completes (.imageVerifyDone t) s fun n =>
      Ready k (bundleBody s (targetSlot s)) n ∧ n.update = { s.update with verifying := rest } ∧
      ((bundleOutcome s (targetSlot s)).1 = 0 → TwoSlots s → slotState n (targetSlot s) = 3) ∧
      ((bundleOutcome s (targetSlot s)).1 ≠ 0 → n.flash = s.flash) ∧ Only [.clock, .net, .pair, .flash, .update] s n := by
  have hexec := exec_imageVerifyDone_bundle t hver
  dsimp only at hexec
  rw [verificationTaken_target, verificationTaken_outcome, verificationTaken_body] at hexec
  have hring : (finishResult k (bundleBody s (targetSlot s)) (bundleChecked (verificationTaken rest (beginAt t s)))).ring = s.ring :=
    ((finishResult_keeps ..).ring_eq).trans (bundleChecked_keeps (verificationTaken rest (beginAt t s))).ring_eq
  rw [startRelay_of_no_king (by rwa [hring]), ite_self] at hexec
  obtain ⟨hready, hupd, hflash, -, honly⟩ := bundleChecked_finished t (rest := rest) hans rfl
  refine ⟨_, hexec, hready, hupd, fun ho hslots => ?_, fun ho => ?_, honly⟩
  · rw [slotState_congr (congrArg Flash.slots hflash)]
    have hpassed := bundleChecked_of_passed (s := verificationTaken rest (beginAt t s))
      (by rwa [verificationTaken_target, verificationTaken_outcome]) (hslots.of_flash_eq rfl)
    rwa [verificationTaken_target] at hpassed
  · rw [hflash, bundleChecked_of_failed (by rwa [verificationTaken_target, verificationTaken_outcome])]
    rfl

theorem imageVerifyDone_config (hver : s.update.verifying = (1, k, false) :: rest) (hans : Answerable k s) :
    Completes (.imageVerifyDone t) s fun n =>
      Ready k (configBody s) n ∧ n.update = { s.update with verifying := rest, confValid := (configOutcome s).1 = 0 } ∧
      Only [.clock, .net, .pair, .update] s n := by
  have hexec := exec_imageVerifyDone_config t hver
  have hbody : configBody (verificationTaken rest (beginAt t s)) = configBody s := configBody_congr rfl rfl rfl rfl rfl
  have houtcome : configOutcome (verificationTaken rest (beginAt t s)) = configOutcome s := configOutcome_congr rfl rfl rfl rfl rfl
  dsimp only at hexec
  rw [hbody, houtcome] at hexec
  have hfinish := finishResult_keeps k (configBody s) { verificationTaken rest (beginAt t s) with
    update := { (verificationTaken rest (beginAt t s)).update with confValid := decide ((configOutcome s).1 = 0) } }
  have hkeeps := (((set_update_keeps (beginAt t s) { (verificationTaken rest (beginAt t s)).update with
    confValid := decide ((configOutcome s).1 = 0) }).mono (w := [.net, .pair, .update]) (by decide))).then hfinish (by decide)
  exact ⟨_, hexec, finishResult_ready (hans.of_net_pair_eq rfl rfl), hfinish.update_eq, hkeeps.onlySince⟩

theorem leaveRing_of_alone {toBoot : Bool} {m : State} (h : joined m = false) : leaveRing toBoot m = depart toBoot m := by
  unfold leaveRing
  dsimp only
  rw [h]
  rfl

theorem depart_boots {m : State} (h : m.mod.state = .idle) : depart true m = enterBoot 11 m := if_pos (by simp [h])

/-- The sessions are closed for a restart, and its mode is noted (R561). -/
def restarting (mode : Nat) (m : State) : State :=
  let m1 := forEach (openSessions m) (fun i => closeSession i closeRestart) m
  { m1 with mod := { m1.mod with restartMode := some mode } }

theorem restarting_keeps (mode : Nat) (m : State) : Keeps [.net, .mod] m (restarting mode m) :=
  (Keeps.forEach (fun _ _ => (closeSession_keeps ..).mono (by decide)) (Keeps.refl _ _)).then (set_mod_keeps ..) (by decide)

theorem restarting_state (mode : Nat) (m : State) : (restarting mode m).mod.state = m.mod.state := by
  have hclosed : Keeps [.net] m (forEach (openSessions m) (fun i => closeSession i closeRestart) m) :=
    Keeps.forEach (fun _ _ => closeSession_keeps ..) (Keeps.refl _ _)
  show (forEach (openSessions m) (fun i => closeSession i closeRestart) m).mod.state = m.mod.state
  rw [hclosed.mod_eq]

/-- A restart of a module that has joined no ring and stands in IDLE is the entry into BOOT (R561). -/
theorem restart_boots {mode : Nat} {m : State} (hidle : m.mod.state = .idle) (hjoined : joined m = false) :
    (restart mode m).mod.state = .boot := by
  have hjoined' : joined (restarting mode m) = false := by
    unfold joined
    rw [(restarting_keeps mode m).ring_eq]
    exact hjoined
  have hboots : restart mode m = enterBoot 11 (restarting mode m) :=
    (leaveRing_of_alone hjoined').trans (depart_boots ((restarting_state mode m).trans hidle))
  rw [hboots]
  exact enterBoot_state ..

/-- A promotion selects the target slot, on trial, and restarts (R601). -/
theorem promote_boots {ticket : Nat} {body : List Byte} {m : State} (hidle : m.mod.state = .idle) (hjoined : joined m = false) :
    (promote ticket body m).mod.state = .boot ∧
      bootRec (promote ticket body m) = bootRecNext (targetSlot m) (otherSlot (targetSlot m)) 3 false m := by
  have hraise := raise_keeps 0x0F32 (leBytes 1 (targetSlot m) ++ leBytes 4 3)
    (writeBoot (targetSlot m) (otherSlot (targetSlot m)) 3 false m)
  have hfinish := finishResult_keeps ticket body (raise 0x0F32 (leBytes 1 (targetSlot m) ++ leBytes 4 3)
    (writeBoot (targetSlot m) (otherSlot (targetSlot m)) 3 false m))
  unfold promote
  refine ⟨restart_boots ?_ ?_, ?_⟩
  · rw [hfinish.mod_eq, hraise.mod_eq]
    exact hidle
  · unfold joined
    rw [hfinish.ring_eq, hraise.ring_eq]
    exact hjoined
  · rw [bootRec_congr (congrArg Flash.boot ((restart_keeps ..).flash_eq.trans (hfinish.flash_eq.trans hraise.flash_eq)))]
    exact bootRec_writeBoot ..

theorem bundleChecked_boot (m : State) : (bundleChecked m).flash.boot = m.flash.boot := by
  unfold bundleChecked putSlot
  split
  · split
    · rfl
    · rfl
  · rfl

theorem imageVerifyDone_promotes (hver : s.update.verifying = (0, k, true) :: rest) (hidle : s.mod.state = .idle)
    (hking : s.ring.state ≠ .king) (hmember : s.ring.state ≠ .member) (hans : Answerable k s) :
    Completes (.imageVerifyDone t) s fun n =>
      ((bundleOutcome s (targetSlot s)).1 = 0 →
        n.mod.state = .boot ∧ (bootRec n).selected = targetSlot s ∧ (bootRec n).previous = otherSlot (targetSlot s) ∧
        (bootRec n).trial = 3 ∧ (bootRec n).confirmed = false) ∧
      ((bundleOutcome s (targetSlot s)).1 ≠ 0 →
        Ready k (bundleBody s (targetSlot s)) n ∧ n.mod = s.mod ∧ n.flash = s.flash ∧
        n.update = { s.update with verifying := rest }) := by
  have hexec := exec_imageVerifyDone_promotes t hver hidle
  dsimp only at hexec
  rw [verificationTaken_target, verificationTaken_outcome, verificationTaken_body] at hexec
  refine ⟨_, hexec, fun ho => ?_, fun ho => ?_⟩
  · have hchecked := bundleChecked_keeps (verificationTaken rest (beginAt t s))
    have htarget : targetSlot (bundleChecked (verificationTaken rest (beginAt t s))) = targetSlot s :=
      targetSlot_congr (bundleChecked_boot _)
    have halone : joined (bundleChecked (verificationTaken rest (beginAt t s))) = false := by
      unfold joined
      rw [hchecked.ring_eq]
      simp [verificationTaken, hking, hmember]
    obtain ⟨hboot, hrec⟩ := promote_boots (ticket := k) (body := bundleBody s (targetSlot s))
      ((congrArg Mod.state hchecked.mod_eq).trans hidle) halone
    rw [htarget] at hrec
    rw [if_pos ho, hrec]
    exact ⟨hboot, rfl, rfl, rfl, rfl⟩
  · rw [if_neg ho]
    obtain ⟨hready, hupd, hflash, hmod, -⟩ := bundleChecked_finished t (rest := rest) hans rfl
    refine ⟨hready, hmod, hflash.trans ?_, hupd⟩
    rw [bundleChecked_of_failed (by rwa [verificationTaken_target, verificationTaken_outcome])]
    rfl

end Verification

/-- Settles O35: blocks by the flash writer's work on their slot or area, verifications by what becomes of the slot checked. -/
theorem blocksAndVerification : Obligations.BlocksAndVerification := by
  unfold Obligations.BlocksAndVerification
  refine ⟨?bundle, ?config, ?waits, ?verified, ?configVerified, ?promoted⟩
  case bundle => exact fun t _ _ _ hqueue hkind hslots hrec => flashBlockWritten_bundle t hqueue hkind hslots hrec
  case config => exact fun t _ _ _ hqueue hkind hrec => flashBlockWritten_config t hqueue hkind hrec
  case waits => exact fun t _ h => flashBlockWritten_waits t h
  case verified => exact fun t _ _ _ hver hking hans => imageVerifyDone_bundle t hver hking hans
  case configVerified => exact fun t _ _ _ hver hans => imageVerifyDone_config t hver hans
  case promoted => exact fun t _ _ _ hver hidle hking hmember hans => imageVerifyDone_promotes t hver hidle hking hmember hans

end Sys2Proof.Machine
end

section
/-! Proofs of the statements on the ring port (16_satos_ring.md): frames, TIME and delay (O50), and the crown and its grants (O51). -/
namespace Sys2Proof.Machine
open Sys2Proof

-- As in the sections before: checked in parallel, the whole text takes more threads than the memory limit leaves room for.
set_option Elab.async false

/-! ### Frames of the module's own (R474, R476, R478) -/

/-- The next frame of the module's own. -/
def ownFrame (type dest : Nat) (body : List Byte) (s : State) : RingFrame :=
  { type := type, source := nodeNumber s, dest := dest, hops := 0, seq := s.ring.seq, body := body }

theorem emitOwn_sent_of_nil (f : RingFrame) {s : State} (h : s.sent = []) : (emitOwn f s).sent = [ringOut f] := by
  unfold emitOwn
  rw [h]
  rfl

theorem ringOut_mem_emitOwn (f : RingFrame) (s : State) : ringOut f ∈ (emitOwn f s).sent :=
  List.mem_append_right _ (List.mem_cons_self ..)

/-- An image frame goes in last (R476). -/
theorem emitOwn_sent_of_image {f : RingFrame} (hf : ringClass f.type = 3) (s : State) :
    (emitOwn f s).sent = s.sent ++ [ringOut f] := by
  have hlast (g : RingFrame) : ringClass g.type ≤ 3 := by
    unfold ringClass
    split_ifs <;> omega
  have hgives : givesWay f = fun _ => false := by
    funext o
    cases o with
    | ring g w => exact Bool.and_eq_false_imp.mpr fun _ => decide_eq_false (by have := hlast g; omega)
    | _ => rfl
  have hnone : s.sent.reverse.takeWhile (givesWay f) = [] := by
    rw [hgives]
    cases s.sent.reverse <;> rfl
  unfold emitOwn
  rw [hnone]
  simp

theorem ringSend_sent_of_nil (type dest : Nat) (body : List Byte) {s : State} (h : s.sent = []) :
    (ringSend type dest body s).sent = [ringOut (ownFrame type dest body s)] := emitOwn_sent_of_nil _ h

theorem ownFrame_mem_ringSend (type dest : Nat) (body : List Byte) (s : State) :
    ringOut (ownFrame type dest body s) ∈ (ringSend type dest body s).sent := ringOut_mem_emitOwn ..

/-- Relay blocks go out after what the module has put out already (R476). -/
theorem pumpImages_sent (n : Nat) (s : State) : s.sent <+: (pumpImages n s).sent := by
  induction n generalizing s with
  | zero => exact List.prefix_refl _
  | succ n ih =>
    unfold pumpImages
    split
    · exact List.prefix_refl _
    · dsimp only
      split
      · exact List.prefix_refl _
      · refine List.IsPrefix.trans ?_ (ih _)
        exact ⟨_, (emitOwn_sent_of_image (by rfl) _).symm⟩

theorem length_nodeBytes (state : Nat) (n : Node) : (nodeBytes state n).length = 8 := by
  simp only [nodeBytes, List.length_append, length_leBytes]

theorem length_rollBody (s : State) : (rollBody s).length = 64 := by
  have hentry : (fun n => (if n = nodeNumber s then nodeBytes (ringCode s.ring.state) (ownNode s)
      else nodeBytes 0 (nodeOf s n)).length) = fun _ => 8 := by
    funext n
    rw [apply_ite List.length, length_nodeBytes, length_nodeBytes, ite_self]
  rw [rollBody, List.length_flatMap, hentry]
  rfl

/-- A TIME frame and a roll go out in this order (R434, R476). -/
theorem sendRoll_sendTime_sent {s : State} (h : s.sent = []) : (sendRoll (sendTime s)).sent =
    [ringOut (ownFrame 0x20 0xFF (stampNative (timeNow s)) s),
      ringOut (ownFrame 0x24 0xFF (rollBody (sendTime s)) (sendTime s))] := by
  have htime : (sendTime s).sent = [ringOut (ownFrame 0x20 0xFF (stampNative (timeNow s)) s)] := ringSend_sent_of_nil _ _ _ h
  unfold sendRoll
  unfold ringSend emitOwn
  dsimp only
  rw [htime]
  simp [givesWay, ringOut, ringClass, ownFrame]

/-! ### A frame that arrives (R475, R478) -/

/-- The king has been heard before, or an outage of it means nothing here (R489). -/
def NoOutage (s : State) : Prop := s.ring.state ≠ .member ∨ s.ring.kingHeard = true

/-- An arriving frame forwarded, its king heard, and its number noted: what precedes its effect (R475, R478, R489). -/
def ringFrameNoted (f : RingFrame) (s : State) : State := noteApplied f (hearKing f (forward f s))

/-- Between two states the ring's registers differ only in what hearing a frame notes. -/
def HeardOnly (s n : State) : Prop := ∃ heard seen hops applied,
  n.ring = { s.ring with kingHeard := heard, kingSeen := seen, hops := hops, applied := applied }

theorem noteApplied_ring (f : RingFrame) (s : State) : ∃ l, (noteApplied f s).ring = { s.ring with applied := l } := by
  unfold noteApplied
  split
  · exact ⟨_, rfl⟩
  · exact ⟨s.ring.applied, rfl⟩

theorem hearKing_of_noOutage {s : State} (f : RingFrame) (h : NoOutage s) : Keeps [.ring] s (hearKing f s) ∧
    ∃ heard seen hops, (hearKing f s).ring = { s.ring with kingHeard := heard, kingSeen := seen, hops := hops } := by
  unfold hearKing
  split
  · exact ⟨.refl .., _, _, _, rfl⟩
  · next hheard =>
    have hking : s.ring.state ≠ .king := fun hk => hheard (by simp [hk])
    have hquiet : (joined s && !s.ring.kingHeard) = false := by
      rcases h with hmember | hheard
      · simp [joined, hking, hmember]
      · simp [hheard]
    dsimp only
    rw [hquiet]
    split <;> exact ⟨set_ring_keeps .., _, _, _, rfl⟩

theorem ringFrameNoted_of_noOutage {s : State} (f : RingFrame) (h : NoOutage s) :
    Keeps [.ring] s (ringFrameNoted f s) ∧ HeardOnly s (ringFrameNoted f s) := by
  have hforward := forward_keeps f s
  obtain ⟨hking, heard, seen, hops, hring⟩ := hearKing_of_noOutage (s := forward f s) f
    (by rwa [NoOutage, hforward.ring_eq])
  obtain ⟨applied, happlied⟩ := noteApplied_ring f (hearKing f (forward f s))
  refine ⟨(hforward.mono (w := [.ring]) (by decide)).then (hking.then (noteApplied_keeps ..) (by decide)) (by decide),
    heard, seen, hops, applied, ?_⟩
  rw [ringFrameNoted, happlied, hring, hforward.ring_eq]

theorem receiveFrame_of_arrives {type : Nat} {f : RingFrame} {s : State} (h : Arrives s type f) :
    receiveFrame true f s = applyFrame f (ringFrameNoted f s) := by
  obtain ⟨hon, -, hsource, hdest, hnew⟩ := h
  have hforward := forward_keeps f s
  have hnode : nodeNumber (forward f s) = nodeNumber s := nodeNumber_congr hforward.power_eq
  have hnew' : repeated f (forward f s) = false := by
    rw [repeated, hforward.ring_eq]
    exact hnew
  have hhere : (decide (f.dest ≠ 0xFF) && decide (f.dest ≠ nodeNumber (forward f s))) = false := by
    rw [hnode]
    rcases hdest with hd | hd <;> simp [hd]
  unfold receiveFrame
  dsimp only
  rw [hon, hnew', hhere, hnode]
  simp [hsource, ringFrameNoted]

/-- What a frame of a type does on its arrival is what its type does after the frame is noted. -/
theorem typedFrame_of_arrives {type : Nat} {f : RingFrame} {s : State} (t : Nat) (h : Arrives s type f) :
    typedFrame type f (beginAt t s) = applyFrame f (ringFrameNoted f (beginAt t s)) :=
  (if_pos h.2.1).trans (receiveFrame_of_arrives (s := beginAt t s) h)

/-- The state in which an arriving frame takes its effect. -/
theorem ringFrameNoted_beginAt {s : State} (t : Nat) (f : RingFrame) (h : NoOutage s) :
    Keeps [.ring] (beginAt t s) (ringFrameNoted f (beginAt t s)) ∧ HeardOnly s (ringFrameNoted f (beginAt t s)) :=
  ringFrameNoted_of_noOutage (s := beginAt t s) f h

theorem noOutage_of_king {s : State} (h : isKing s = true) : NoOutage s := by
  simp only [isKing, Bool.and_eq_true, decide_eq_true_eq] at h
  exact .inl (by simp [h.1])

theorem drives_congr {s n : State} (h : n.pair = s.pair) : drives n = drives s := by rw [drives, drives, h]

theorem isKing_congr {s n : State} (hring : n.ring.state = s.ring.state) (hpair : n.pair = s.pair) : isKing n = isKing s := by
  rw [isKing, isKing, hring, drives_congr hpair]

theorem HeardOnly.state_eq {s n : State} (h : HeardOnly s n) : n.ring.state = s.ring.state := by
  obtain ⟨_, _, _, _, h⟩ := h
  rw [h]

theorem HeardOnly.nodes_eq {s n : State} (h : HeardOnly s n) : n.ring.nodes = s.ring.nodes := by
  obtain ⟨_, _, _, _, h⟩ := h
  rw [h]

theorem isKing_ringFrameNoted (t : Nat) (f : RingFrame) {s : State} (h : NoOutage s) :
    isKing (ringFrameNoted f (beginAt t s)) = isKing s := by
  obtain ⟨hkeeps, hheard⟩ := ringFrameNoted_beginAt t f h
  exact isKing_congr hheard.state_eq hkeeps.pair_eq

/-! ### What the frames of each type do (*Table: Ring frame types*) -/

section
variable {f : RingFrame} {s : State}

theorem applyFrame_discover (hf : f.type = 0x23) : applyFrame f s = takeDiscover f s := if_pos hf

theorem applyFrame_grant (hf : f.type = 0x25) : applyFrame f s = takeGrant f s := by
  unfold applyFrame
  simp [hf]

theorem applyFrame_roll (hf : f.type = 0x24) : applyFrame f s = takeRoll f s := by
  unfold applyFrame
  simp [hf]

theorem applyFrame_eject (hf : f.type = 0x27) : applyFrame f s = takeEject f s := by
  unfold applyFrame
  simp [hf]

theorem applyFrame_delayResp (hf : f.type = 0x22) (hs : joined s = true) : applyFrame f s = takeDelayResp f s := by
  unfold applyFrame
  simp [hf, hs]

theorem applyFrame_hello (hf : f.type = 0x26) (hs : joined s = true) : applyFrame f s = takeHello f s := by
  unfold applyFrame
  simp [hf, hs]

theorem applyFrame_leave (hf : f.type = 0x28) (hs : joined s = true) : applyFrame f s = takeLeave f s := by
  unfold applyFrame
  simp [hf, hs]

theorem applyFrame_runArmed (hf : f.type = 0x30) (hs : joined s = true) : applyFrame f s = takeRunArmed f s := by
  unfold applyFrame
  simp [hf, hs]

theorem applyFrame_slotReady (hf : f.type = 0x32) (hs : joined s = true) : applyFrame f s = takeSlotReady f s := by
  unfold applyFrame
  simp [hf, hs]

theorem applyFrame_decision (hf : f.type = 0x29 ∨ f.type = 0x31) (hs : joined s = true) : applyFrame f s = decideRing f s := by
  unfold applyFrame
  rcases hf with hf | hf <;> simp [hf, hs]

end

/-! ### Forwarding, discards, and frames sent again (R475, R478) -/

theorem receiveFrame_forwards {f : RingFrame} {s : State} (hon : ringOn s = true) (hsource : f.source ≠ nodeNumber s)
    (hdest : f.dest ≠ nodeNumber s) (hall : f.dest ≠ 0xFF) : receiveFrame true f s = hearKing f (forward f s) := by
  have hnode : nodeNumber (forward f s) = nodeNumber s := nodeNumber_congr (forward_keeps f s).power_eq
  unfold receiveFrame
  dsimp only
  rw [hon, hnode]
  simp [hsource, hdest, hall]

theorem forward_sent {f : RingFrame} {s : State} (hopen : ringOpen s = true) (hsource : f.source ≠ nodeNumber s)
    (hdest : f.dest ≠ nodeNumber s) (hhops : f.hops < 8) : (forward f s).sent =
      s.sent ++ [ringOut { f with hops := f.hops + 1, body := if f.type = 0x24 then fillRoll s f.body else f.body }] := by
  unfold forward
  rw [if_neg (by simp [hopen, hsource, hdest, hhops])]
  rfl

theorem hearKing_sends (f : RingFrame) (s : State) : s.sent ⊆ (hearKing f s).sent := by
  unfold hearKing
  refine ite_sends (List.Subset.refl _) ?_
  dsimp only
  split
  · exact ite_sends (raise_sends_after _ _) (List.Subset.refl _)
  · exact List.Subset.refl _

theorem hearKing_of_far {f : RingFrame} (s : State) (h : 2 ≤ f.source) : hearKing f s = s := if_pos (by simp [h])

/-- A frame for another node goes on (R475). -/
theorem ringFrameReceived_forwards (t : Nat) {f : RingFrame} {s : State} (hon : ringOn s = true) (hopen : ringOpen s = true)
    (hsource : f.source ≠ nodeNumber s) (hdest : f.dest ≠ nodeNumber s) (hall : f.dest ≠ 0xFF) (hhops : f.hops < 8) :
    Completes (.ringFrameReceived t true f) s fun n =>
      ringOut { f with hops := f.hops + 1, body := if f.type = 0x24 then fillRoll (beginAt t s) f.body else f.body } ∈ n.sent ∧
      (2 ≤ f.source → Only [.clock] s n) ∧ Only [.clock, .ring, .log, .net] s n := by
  have hexec : exec (.ringFrameReceived t true f) s = .next (hearKing f (forward f (beginAt t s))) :=
    congrArg Host.Outcome.next (receiveFrame_forwards (s := beginAt t s) hon hsource hdest hall)
  have hforward := forward_keeps f (beginAt t s)
  refine ⟨_, hexec, hearKing_sends _ _ ?_, fun hfar => ?_, ?_⟩
  · rw [forward_sent (s := beginAt t s) hopen hsource hdest hhops]
    exact List.mem_cons_self ..
  · rw [hearKing_of_far _ hfar]
    exact hforward.onlySince
  · exact ((hforward.mono (w := [.ring, .log, .net]) (by decide)).then (hearKing_keeps ..) (by decide)).onlySince

/-- A frame discarded for its CRC is counted (R475). -/
def crcDiscarded (s : State) : State := { s with ring := { s.ring with crcDiscards := wrapInc 16 s.ring.crcDiscards } }

/-- A frame with a wrong CRC has no other effect (R475). -/
theorem ringFrameReceived_discards (t : Nat) (f : RingFrame) {s : State} (hon : ringOn s = true) :
    Completes (.ringFrameReceived t false f) s fun n =>
      n.ring = { s.ring with crcDiscards := wrapInc 16 s.ring.crcDiscards } ∧ Only [.clock, .ring] s n := by
  have hforward := forward_keeps f (beginAt t s)
  have hon' : ringOn (beginAt t s) = true := hon
  have hexec : exec (.ringFrameReceived t false f) s = .next (crcDiscarded (forward f (beginAt t s))) := by
    show Host.Outcome.next (receiveFrame false f (beginAt t s)) = _
    unfold receiveFrame
    rw [hon']
    rfl
  refine ⟨_, hexec, ?_, ((hforward.mono (w := [.ring]) (by decide)).then (set_ring_keeps ..) (by decide)).onlySince⟩
  unfold crcDiscarded
  rw [hforward.ring_eq]
  rfl

/-- A frame of the module's own that has not returned in 20 µs goes out again, up to 25 times (R478). -/
theorem ringFrameResend_resends {t q : Nat} {x : RingTx} {s : State} (hfind : s.ring.tx.find? (fun x => x.frame.seq = q) = some x)
    (hopen : ringOpen s = true) (hdue : x.sentAt + usT 20 ≤ t) (htries : x.resends < 25) :
    Completes (.ringFrameResend t q) s fun n =>
      n.sent = [ringOut x.frame] ∧ n.ring.resends = wrapInc 16 s.ring.resends ∧ n.ring.tx.length = s.ring.tx.length ∧
      Only [.clock, .ring] s n := by
  have hopen' : ringOpen (beginAt t s) = true := hopen
  have hexec : exec (.ringFrameResend t q) s = .next (emit (ringOut x.frame) { beginAt t s with ring := { s.ring with
      resends := wrapInc 16 s.ring.resends
      tx := s.ring.tx.map fun y =>
        if y.frame.seq = q then { y with sentAt := (beginAt t s).now, resends := y.resends + 1 } else y } }) := by
    show execRingFrameResend t q s = _
    unfold execRingFrameResend
    simp only [beginAt_ring, hfind, hopen', beginAt_now]
    rw [if_neg (by simp; omega), if_neg (by omega)]
  exact ⟨_, hexec, rfl, rfl, List.length_map .., exec_only hexec⟩

theorem ringFrameResend_gives_up {t q : Nat} {x : RingTx} {s : State}
    (hfind : s.ring.tx.find? (fun x => x.frame.seq = q) = some x) (hopen : ringOpen s = true) (hdue : x.sentAt + usT 20 ≤ t)
    (htries : 25 ≤ x.resends) : Completes (.ringFrameResend t q) s fun n =>
      n.sent = [] ∧ n.ring = { s.ring with tx := s.ring.tx.filter fun y => y.frame.seq ≠ q } ∧ Only [.clock, .ring] s n := by
  have hopen' : ringOpen (beginAt t s) = true := hopen
  have hexec : exec (.ringFrameResend t q) s = .next { beginAt t s with ring := { s.ring with
      tx := s.ring.tx.filter fun y => y.frame.seq ≠ q } } := by
    show execRingFrameResend t q s = _
    unfold execRingFrameResend
    simp only [beginAt_ring, hfind, hopen', beginAt_now]
    rw [if_neg (by simp; omega), if_pos htries]
  exact ⟨_, hexec, rfl, rfl, exec_only hexec⟩

/-! ### TIME and delay (R434) -/

/-- The king sends TIME, then the roll, then the relay blocks that there is room for (R434, R476). -/
theorem ringTimeSend_sends (t : Nat) {s : State} (h : isKing s = true) : Completes (.ringTimeSend t) s fun n =>
    (∃ f g, n.sent.take 2 = [ringOut f, ringOut g] ∧ f.type = 0x20 ∧ f.source = nodeNumber s ∧
      f.body = stampNative (timeNow n) ∧ g.type = 0x24 ∧ g.source = nodeNumber s ∧ g.body.length = 64) ∧
    (s.ring.imageTx = [] → n.sent.length = 2) ∧ Only [.clock, .ring] s n := by
  have hexec : exec (.ringTimeSend t) s =
      .next (pumpImages s.ring.imageTx.length (sendRoll (sendTime (beginAt t s)))) := congrArg Host.Outcome.next (if_pos h)
  have htold := sendRoll_sendTime_sent (s := beginAt t s) rfl
  have hkeeps : Keeps [.ring] (beginAt t s) (pumpImages s.ring.imageTx.length (sendRoll (sendTime (beginAt t s)))) :=
    ((ringSend_keeps ..).then (ringSend_keeps ..) (by decide)).then (pumpImages_keeps ..) (by decide)
  refine ⟨_, hexec, ⟨ownFrame 0x20 0xFF (stampNative (timeNow (beginAt t s))) (beginAt t s),
    ownFrame 0x24 0xFF (rollBody (sendTime (beginAt t s))) (sendTime (beginAt t s)), ?_, rfl, rfl, ?_, rfl, rfl,
    length_rollBody _⟩, fun hnone => ?_, hkeeps.onlySince⟩
  · obtain ⟨rest, hrest⟩ := pumpImages_sent s.ring.imageTx.length (sendRoll (sendTime (beginAt t s)))
    rw [← hrest, htold]
    rfl
  · exact congrArg stampNative hkeeps.timeNow_eq.symm
  · rw [hnone]
    show (sendRoll (sendTime (beginAt t s))).sent.length = 2
    rw [htold]
    rfl

/-- A member asks for its delay, and notes when (R434). -/
theorem ringDelayExchange_asks (t : Nat) {s : State} (h : s.ring.state = .member) : Completes (.ringDelayExchange t none) s fun n =>
    (∃ f, n.sent = [ringOut f] ∧ f.type = 0x21 ∧ f.source = nodeNumber s ∧ f.body = stampNative (timeNow n)) ∧
    n.ring.delayReq = some (timeNow n, n.now) ∧ Only [.clock, .ring] s n := by
  have hexec : exec (.ringDelayExchange t none) s = .next (askDelay (beginAt t s)) := congrArg Host.Outcome.next (if_pos h)
  have hkeeps : Keeps [.ring] (beginAt t s) (askDelay (beginAt t s)) :=
    (set_ring_keeps ..).then (ringSend_keeps ..) (by decide)
  refine ⟨_, hexec, ⟨ownFrame 0x21 0xFF (stampNative (timeNow (beginAt t s))) (beginAt t s), ?_, rfl, rfl, ?_⟩, ?_,
    hkeeps.onlySince⟩
  · exact ringSend_sent_of_nil 0x21 0xFF (stampNative (timeNow (beginAt t s)))
      (s := { beginAt t s with ring := { s.ring with delayReq := some (timeNow (beginAt t s), (beginAt t s).now) } }) rfl
  · exact congrArg stampNative hkeeps.timeNow_eq.symm
  · rw [hkeeps.timeNow_eq, hkeeps.now_eq]
    rfl

/-- The delay that the king's answer gives (R422, R434). -/
theorem takeDelayResp_measures {f : RingFrame} {stamp : Int} {left : Nat} {m : State} (hreq : m.ring.delayReq = some (stamp, left))
    (hstamp : stampNative stamp = f.body.take 12) (hnode : nodeNumber m < m.ring.nodes.length) :
    let n := takeDelayResp f m
    n.ring.hopDelay = ((m.now - left : Nat) * 1024 - (fld f.body 12 4 : Nat)) / 2 ∧ n.ring.delayReq = none ∧
    (nodeOf n (nodeNumber m)).hopDelay = (clampInt 0 65535 (roundDiv n.ring.hopDelay 65536)).toNat ∧ n.now = m.now := by
  unfold takeDelayResp
  rw [hreq]
  dsimp only
  rw [if_neg (by simpa using hstamp)]
  refine ⟨rfl, rfl, ?_, rfl⟩
  unfold nodeOf modNode
  rw [getD_modify, if_pos ⟨rfl, hnode⟩]

theorem ringDelayExchange_measures {t left : Nat} {stamp : Int} {f : RingFrame} {s : State} (harrives : Arrives s 0x22 f)
    (hmember : s.ring.state = .member) (hking : s.ring.kingHeard = true) (hnode : nodeNumber s < s.ring.nodes.length)
    (hreq : s.ring.delayReq = some (stamp, left)) (hstamp : stampNative stamp = f.body.take 12) :
    Completes (.ringDelayExchange t (some f)) s fun n =>
      n.ring.hopDelay = ((n.now - left : Nat) * 1024 - (fld f.body 12 4 : Nat)) / 2 ∧ n.ring.delayReq = none ∧
      (nodeOf n (nodeNumber s)).hopDelay = (clampInt 0 65535 (roundDiv n.ring.hopDelay 65536)).toNat ∧
      Only [.clock, .ring, .time] s n := by
  obtain ⟨hkeeps, hheard⟩ := ringFrameNoted_beginAt t f (.inr hking)
  have hjoined : joined (ringFrameNoted f (beginAt t s)) = true := by simp [joined, hheard.state_eq, hmember]
  have hexec : exec (.ringDelayExchange t (some f)) s = .next (takeDelayResp f (ringFrameNoted f (beginAt t s))) := by
    rw [← applyFrame_delayResp harrives.2.1 hjoined]
    exact congrArg Host.Outcome.next (typedFrame_of_arrives t harrives)
  have hsame : nodeNumber (ringFrameNoted f (beginAt t s)) = nodeNumber s := nodeNumber_congr hkeeps.power_eq
  obtain ⟨_, _, _, _, hring⟩ := hheard
  obtain ⟨hdelay, hnone, hentry, hnow⟩ := takeDelayResp_measures (m := ringFrameNoted f (beginAt t s)) (by rw [hring]; exact hreq)
    hstamp (by rw [hsame, hring]; exact hnode)
  refine ⟨_, hexec, ?_, hnone, ?_,
    ((hkeeps.mono (w := [.time, .ring]) (by decide)).then (takeDelayResp_keeps ..) (by decide)).onlySince⟩
  · rw [hnow]
    exact hdelay
  · rw [← hsame]
    exact hentry

/-- Settles O50: frames forwarded, discarded and sent again, TIME with the roll, and the delay of a member. -/
theorem ringFrames : Obligations.RingFrames := by
  unfold Obligations.RingFrames
  refine ⟨fun t f s hon hopen hsource hdest hall hhops => ringFrameReceived_forwards t hon hopen hsource hdest hall hhops,
    fun t f s hon => ringFrameReceived_discards t f hon,
    fun t q x s hfind hopen hdue => ⟨fun h => ringFrameResend_resends hfind hopen hdue h,
      fun h => ringFrameResend_gives_up hfind hopen hdue h⟩,
    fun t s h => ringTimeSend_sends t h, fun t s h => ringDelayExchange_asks t h,
    fun t left stamp f s harrives hmember hking hnode hreq hstamp =>
      ringDelayExchange_measures harrives hmember hking hnode hreq hstamp⟩

/-! ### The crown (R482) -/

/-- A change of the ring state raises its event. -/
theorem setRingState_of_ne {st : RingState} {s : State} (h : s.ring.state ≠ st) : setRingState st s =
    raise 0x0D10 (leBytes 1 (ringCode s.ring.state) ++ leBytes 1 (ringCode st)) { s with ring := { s.ring with state := st } } :=
  if_neg h

/-- The bypass open, the module is the king, and all but its own entry of the roll is done (R482). -/
def crowned (s : State) : State := { openBypass s with ring := { (openBypass s).ring with
  state := .king, kingHeard := true, listenSince := none, attn := false, hops := 0 } }

/-- The king raises its new state, and its roll begins with its own entry. -/
theorem becomeKing_of_bypassed {s : State} (h : s.ring.state = .bypassed) : becomeKing s =
    (let told := raise 0x0D10 (leBytes 1 0 ++ leBytes 1 2) (crowned s)
     noteRoll (modNode (nodeNumber told) (fun _ => ownNode told) told)) := by
  have hset : setRingState .king { openBypass s with ring := { (openBypass s).ring with
      kingHeard := true, listenSince := none, attn := false, hops := 0 } } =
      raise 0x0D10 (leBytes 1 0 ++ leBytes 1 2) (crowned s) := by
    rw [setRingState_of_ne (by show s.ring.state ≠ .king; simp [h])]
    show raise 0x0D10 (leBytes 1 (ringCode s.ring.state) ++ leBytes 1 2) _ = _
    rw [h]
    rfl
  unfold becomeKing
  rw [hset]

theorem becomeKing_crowns {s : State} (h : s.ring.state = .bypassed) :
    (becomeKing s).ring.state = .king ∧ (becomeKing s).ring.bypassClosed = false ∧ (becomeKing s).ring.listenSince = none ∧
      RaisedNext s 0x0D10 (leBytes 1 0 ++ leBytes 1 2) (becomeKing s) := by
  have hring := (raise_keeps 0x0D10 (leBytes 1 0 ++ leBytes 1 2) (crowned s)).ring_eq
  have hraised := raisedNext_raise 0x0D10 (leBytes 1 0 ++ leBytes 1 2) (s0 := s) (s := crowned s) rfl
  rw [becomeKing_of_bypassed h]
  generalize raise 0x0D10 (leBytes 1 0 ++ leBytes 1 2) (crowned s) = told at hring hraised ⊢
  exact ⟨congrArg Ring.state hring, congrArg Ring.bypassClosed hring, congrArg Ring.listenSince hring, hraised⟩

theorem any_due {o : Option Nat} {d wait now : Nat} (ho : o = some d) (h : d + wait ≤ now) :
    (o.any fun d => decide (d + wait ≤ now)) = true := by
  subst ho
  exact decide_eq_true h

/-- After 20 ms of silence the module at position 0 is the king (R482). -/
theorem kingListenExpiry_crowns {t d : Nat} {s : State} (hon : ringOn s = true) (hpos : s.power.position = 0)
    (hvalid : s.power.strapValid = true) (hdrives : drives s = true) (hstate : s.ring.state = .bypassed)
    (hejected : s.ring.ejected = false) (hloop : ringLoop s = false) (hsince : s.ring.listenSince = some d)
    (hdue : d + msT 20 ≤ t) : Completes (.kingListenExpiry t) s fun n =>
      n.ring.state = .king ∧ n.ring.bypassClosed = false ∧ n.ring.listenSince = none ∧
      RaisedNext s 0x0D10 (leBytes 1 0 ++ leBytes 1 2) n ∧ Only [.clock, .ring, .log, .net] s n := by
  have hon' : ringOn (beginAt t s) = true := hon
  have hdrives' : drives (beginAt t s) = true := hdrives
  have hloop' : ringLoop (beginAt t s) = false := hloop
  have hsilent : (s.ring.listenSince.any fun d => decide (d + msT 20 ≤ (beginAt t s).now)) = true :=
    any_due hsince (le_max_of_le_right hdue)
  have hexec : exec (.kingListenExpiry t) s = .next (becomeKing (freshRoll (beginAt t s))) := by
    show execKingListenExpiry t s = _
    unfold execKingListenExpiry
    simp only [hon', hdrives', hloop', beginAt_power, beginAt_ring, hpos, hvalid, hstate, hejected, hsilent]
    rfl
  obtain ⟨hking, hopen, hheard, hraised⟩ := becomeKing_crowns (s := freshRoll (beginAt t s)) hstate
  exact ⟨_, hexec, hking, hopen, hheard, hraised, exec_only hexec⟩

theorem discoverSend_sends (t : Nat) {s : State} (h : isKing s = true) : Completes (.discoverSend t) s fun n =>
    (∃ f, n.sent = [ringOut f] ∧ f.type = 0x23 ∧ f.source = nodeNumber s ∧ f.dest = 0xFF ∧ f.body = discoverBody s) ∧
    Only [.clock, .ring] s n := by
  have hexec : exec (.discoverSend t) s = .next (ringSend 0x23 0xFF (discoverBody (beginAt t s)) (beginAt t s)) :=
    congrArg Host.Outcome.next (if_pos h)
  exact ⟨_, hexec, ⟨ownFrame 0x23 0xFF (discoverBody s) (beginAt t s), ringSend_sent_of_nil _ _ _ rfl, rfl, rfl, rfl, rfl⟩,
    exec_only hexec⟩

/-! ### Asking to join, and being granted (R483, R484) -/

theorem takeDiscover_asks {f : RingFrame} {s : State} (hstate : s.ring.state = .bypassed) (hejected : s.ring.ejected = false)
    (hpos : s.power.position ≠ 0) (hmajor : fld f.body 0 1 = s.update.ringMajor) (hloop : ringLoop s = false) :
    (takeDiscover f s).ring.attn = true ∧ (takeDiscover f s).ring.state = .bypassed ∧ Keeps [.ring] s (takeDiscover f s) := by
  unfold takeDiscover
  dsimp only
  generalize hm : modNode f.source _ s = m
  have hkeeps : Keeps [.ring] s m := hm ▸ modNode_keeps ..
  have hstate' : m.ring.state = .bypassed := by
    rw [← hm]
    exact hstate
  have hejected' : m.ring.ejected = false := by
    rw [← hm]
    exact hejected
  have hloop' : ringLoop m = false := by
    rw [ringLoop, hkeeps.loops_eq]
    exact hloop
  rw [if_neg (by simp [hstate', hejected']), if_neg (by simp [hkeeps.power_eq, hpos]),
    if_pos (hmajor.trans (congrArg Update.ringMajor hkeeps.update_eq.symm)), hloop']
  exact ⟨Bool.or_true _, hstate', hkeeps.then (set_ring_keeps ..) (by decide)⟩

theorem discover_asks {t : Nat} {f : RingFrame} {s : State} (harrives : Arrives s 0x23 f) (hstate : s.ring.state = .bypassed)
    (hejected : s.ring.ejected = false) (hpos : s.power.position ≠ 0) (hmajor : fld f.body 0 1 = s.update.ringMajor)
    (hloop : ringLoop s = false) : Completes (.discover t f) s fun n =>
      n.ring.attn = true ∧ n.ring.state = .bypassed ∧ Only [.clock, .ring] s n := by
  obtain ⟨hkeeps, hheard⟩ := ringFrameNoted_beginAt (s := s) t f (.inl (by simp [hstate]))
  have hexec : exec (.discover t f) s = .next (takeDiscover f (ringFrameNoted f (beginAt t s))) := by
    rw [← applyFrame_discover harrives.2.1]
    exact congrArg Host.Outcome.next (typedFrame_of_arrives t harrives)
  have hloop' : ringLoop (ringFrameNoted f (beginAt t s)) = false := by
    rw [ringLoop, hkeeps.loops_eq]
    exact hloop
  have hstate' := hheard.state_eq.trans hstate
  obtain ⟨_, _, _, _, hring⟩ := hheard
  obtain ⟨hattn, hbypassed, hasks⟩ := takeDiscover_asks (f := f) (s := ringFrameNoted f (beginAt t s)) hstate'
    (by rw [hring]; exact hejected) (by rw [hkeeps.power_eq]; exact hpos) (by rw [hkeeps.update_eq]; exact hmajor) hloop'
  exact ⟨_, hexec, hattn, hbypassed, (hkeeps.then hasks (by decide)).onlySince⟩

/-- The king's grant of an opening time to a node (R484). -/
def granting (k : Nat) (s : State) : State :=
  { s with ring := { s.ring with granted := some (k, s.now + usT 20), tried := k :: s.ring.tried } }

theorem grantNext_grants {k : Nat} {s : State} (hking : isKing s = true) (hnone : s.ring.granted = none)
    (hnext : nextGrant s = some k) (hgap : mayChange s = true) : grantNext s =
      ringSend 0x25 0xFF (leBytes 1 k ++ leBytes 3 0 ++ stampNative (timeNow s + 20000 * 65536)) (granting k s) := by
  unfold grantNext
  rw [if_neg (by simp [hking, hnone])]
  dsimp only
  rw [hnext, Option.isNone_some, if_neg Bool.false_ne_true, hnext]
  exact if_neg (by simp [hgap])

/-- The king sees RING_ATTN_N asserted. -/
def attnSeen (s : State) : State := { s with ring := { s.ring with attnLine := true } }

theorem ringAttnAsserted_grants {t k : Nat} {s : State} (hking : isKing s = true) (hnone : s.ring.granted = none)
    (hnext : nextGrant s = some k) (hgap : mayChange (beginAt t s) = true) : Completes (.ringAttnAsserted t) s fun n =>
      n.ring.granted = some (k, n.now + usT 20) ∧
      (∃ f, n.sent = [ringOut f] ∧ f.type = 0x25 ∧
        f.body = leBytes 1 k ++ leBytes 3 0 ++ stampNative (timeNow n + 20000 * 65536)) ∧ Only [.clock, .ring] s n := by
  have hexec : exec (.ringAttnAsserted t) s = .next (grantNext (attnSeen (beginAt t s))) :=
    congrArg Host.Outcome.next (if_pos hking)
  have hgrant := grantNext_grants (s := attnSeen (beginAt t s)) hking hnone hnext hgap
  have hkeeps : Keeps [.ring] (beginAt t s) (grantNext (attnSeen (beginAt t s))) :=
    (set_ring_keeps ..).then (grantNext_keeps ..) (by decide)
  have htime : timeNow (attnSeen (beginAt t s)) = timeNow (beginAt t s) := rfl
  refine ⟨_, hexec, ?_, ⟨ownFrame 0x25 0xFF (leBytes 1 k ++ leBytes 3 0 ++ stampNative (timeNow (beginAt t s) + 20000 * 65536))
    (granting k (attnSeen (beginAt t s))), ?_, rfl, ?_⟩, hkeeps.onlySince⟩
  · rw [hkeeps.now_eq, hgrant]
    rfl
  · rw [hgrant, htime]
    exact ringSend_sent_of_nil 0x25 0xFF _ (s := granting k (attnSeen (beginAt t s))) rfl
  · rw [hkeeps.timeNow_eq]
    rfl

theorem takeGrant_opens {f : RingFrame} {s : State} (hnode : fld f.body 0 1 = nodeNumber s) (hattn : s.ring.attn = true)
    (hjoined : joined s = false) : takeGrant f s =
      { s with ring := { s.ring with openAt := some (readNative ((f.body.drop 4).take 12)) } } :=
  if_pos (by simp [hnode, hattn, hjoined])

theorem joinGrant_opens {t : Nat} {f : RingFrame} {s : State} (harrives : Arrives s 0x25 f) (hstate : s.ring.state = .bypassed)
    (hattn : s.ring.attn = true) (hnode : fld f.body 0 1 = nodeNumber s) : Completes (.joinGrant t f) s fun n =>
      n.ring.openAt = some (readNative ((f.body.drop 4).take 12)) ∧ n.ring.state = .bypassed ∧ Only [.clock, .ring] s n := by
  obtain ⟨hkeeps, hheard⟩ := ringFrameNoted_beginAt (s := s) t f (.inl (by simp [hstate]))
  have hstate' := hheard.state_eq.trans hstate
  have hexec : exec (.joinGrant t f) s = .next (takeGrant f (ringFrameNoted f (beginAt t s))) := by
    rw [← applyFrame_grant harrives.2.1]
    exact congrArg Host.Outcome.next (typedFrame_of_arrives t harrives)
  obtain ⟨_, _, _, _, hring⟩ := hheard
  have hopens := takeGrant_opens (f := f) (s := ringFrameNoted f (beginAt t s))
    (hnode.trans (nodeNumber_congr hkeeps.power_eq).symm) (by rw [hring]; exact hattn) (by simp [joined, hstate'])
  refine ⟨_, hexec, by rw [hopens], by rw [hopens]; exact hstate', (hkeeps.then (takeGrant_keeps ..) (by decide)).onlySince⟩

/-- The bypass of a node that joins is open, and the king's roll has yet to show it (R484). -/
def bypassOpened (s : State) : State := openBypass { s with ring := { s.ring with openAt := none } }

/-- The first frame of a node that joins (*Table: Ring frame types*). -/
def helloBody (s : State) : List Byte :=
  leBytes 1 s.update.ringMajor ++ leBytes 1 s.update.ringMinor ++ leBytes 1 (pairCode s.pair.state) ++ leBytes 1 0 ++
    padTo 8 s.update.digest

theorem bypassOpenTime_opens {t : Nat} {u : Int} {s : State} (hon : ringOn s = true) (hat : s.ring.openAt = some u)
    (hdue : u ≤ timeNow (beginAt t s)) (hstate : s.ring.state = .bypassed) : Completes (.bypassOpenTime t) s fun n =>
      n.ring.state = .joining ∧ n.ring.bypassClosed = false ∧ n.ring.openAt = none ∧
      (∃ f, ringOut f ∈ n.sent ∧ f.type = 0x26 ∧ f.source = nodeNumber s) ∧
      RaisedNext s 0x0D10 (leBytes 1 0 ++ leBytes 1 1) n ∧ Only [.clock, .ring, .log, .net] s n := by
  have hon' : ringOn (beginAt t s) = true := hon
  have hexec : exec (.bypassOpenTime t) s =
      .next (let told := setRingState .joining (bypassOpened (beginAt t s)); ringSend 0x26 0xFF (helloBody told) told) := by
    show execBypassOpenTime t s = _
    unfold execBypassOpenTime
    simp only [beginAt_ring, hat]
    rw [if_pos (by simp [hon', hdue, joined, hstate])]
    rfl
  have hset : setRingState .joining (bypassOpened (beginAt t s)) = raise 0x0D10 (leBytes 1 0 ++ leBytes 1 1)
      { bypassOpened (beginAt t s) with ring := { (bypassOpened (beginAt t s)).ring with state := .joining } } := by
    have hbefore : (bypassOpened (beginAt t s)).ring.state = .bypassed := hstate
    rw [setRingState_of_ne (by simp [hbefore]), hbefore]
    rfl
  have hraise := raise_keeps 0x0D10 (leBytes 1 0 ++ leBytes 1 1)
    { bypassOpened (beginAt t s) with ring := { (bypassOpened (beginAt t s)).ring with state := .joining } }
  have hraised := raisedNext_raise 0x0D10 (leBytes 1 0 ++ leBytes 1 1) (s0 := s)
    (s := { bypassOpened (beginAt t s) with ring := { (bypassOpened (beginAt t s)).ring with state := .joining } }) rfl
  rw [← hset] at hraise hraised
  generalize hm : setRingState .joining (bypassOpened (beginAt t s)) = told at hexec hraise hraised
  have hnode : nodeNumber told = nodeNumber s := nodeNumber_congr hraise.power_eq
  exact ⟨_, hexec, congrArg Ring.state hraise.ring_eq, congrArg Ring.bypassClosed hraise.ring_eq,
    congrArg Ring.openAt hraise.ring_eq, ⟨_, ownFrame_mem_ringSend .., rfl, hnode⟩, hraised, exec_only hexec⟩

/-- Settles O51: the crown, DISCOVER, the grants, and the opening of a bypass. -/
theorem crownAndGrants : Obligations.CrownAndGrants := by
  unfold Obligations.CrownAndGrants
  refine ⟨fun t d s hon hpos hvalid hdrives hstate hejected hloop hsince hdue =>
      kingListenExpiry_crowns hon hpos hvalid hdrives hstate hejected hloop hsince hdue,
    fun t s h => discoverSend_sends t h,
    fun t f s harrives hstate hejected hpos hmajor hloop => discover_asks harrives hstate hejected hpos hmajor hloop,
    fun t k s hking hnone hnext hgap => ringAttnAsserted_grants hking hnone hnext hgap,
    fun t f s harrives hstate hattn hnode => joinGrant_opens harrives hstate hattn hnode,
    fun t u s hon hat hdue hstate => bypassOpenTime_opens hon hat hdue hstate⟩

end Sys2Proof.Machine
end

section
/-! Proofs of the statement on the nodes of the ring, which join, are ejected, leave, and are lost (16_satos_ring.md): O52. -/
namespace Sys2Proof.Machine
open Sys2Proof

-- As in the sections before: checked in parallel, the whole text takes more threads than the memory limit leaves room for.
set_option Elab.async false

/-- Where only the clock, the ring and the pair may differ, every other group stands as it was. -/
theorem Only.eq_ring {s n : State} (h : Only [.clock, .ring, .pair] s n) :
    n = { s with now := n.now, sent := n.sent, ring := n.ring, pair := n.pair } := by
  have hs : ∀ g, g ∉ [Group.clock, .ring, .pair] → g.same s n := h.same
  cases n
  exact (State.mk.injEq ..).mpr ⟨hs .queue (by decide), rfl, hs .raw (by decide), rfl, hs .free (by decide), hs .mod (by decide),
    hs .power (by decide), hs .otp (by decide),
    hs .flash (by decide), hs .conf (by decide), hs .update (by decide), hs .log (by decide),
    hs .thermal (by decide), hs .monitors (by decide), hs .gov (by decide), hs .net (by decide), hs .jobs (by decide),
    hs .render (by decide), hs .mem (by decide), hs .pos (by decide), hs .fire (by decide), hs .links (by decide),
    hs .cams (by decide), hs .cal (by decide), hs .time (by decide), hs .axes (by decide), rfl, rfl,
    hs .loops (by decide)⟩

/-! ### JOIN_HELLO at the king (R484, R487) -/

theorem tryGrant_of_quiet {s : State} (h : s.ring.attnLine = false) : tryGrant s = s := if_pos (by simp [h])

/-- The grant that a node's JOIN_HELLO answers is done (R484). -/
def grantAnswered (n : Nat) (s : State) : State :=
  if s.ring.granted.any fun g => g.1 = n then { s with ring := { s.ring with granted := none } } else s

theorem grantAnswered_keeps (n : Nat) (s : State) : Keeps [.ring] s (grantAnswered n s) :=
  .ite (fun _ => set_ring_keeps ..) fun _ => .refl ..

theorem grantAnswered_ring (n : Nat) (s : State) : ∃ g, (grantAnswered n s).ring = { s.ring with granted := g } := by
  unfold grantAnswered
  split
  · exact ⟨_, rfl⟩
  · exact ⟨s.ring.granted, rfl⟩

/-- The node's entry in the roll once it is admitted (R484). -/
def admittedNode (f : RingFrame) (now : Nat) (x : Node) : Node :=
  { x with
    present := true, lost := false, major := fld f.body 0 1 % 16, minor := fld f.body 1 1 % 16, seen := some now
    pairActive := fld f.body 2 1 ≤ 1, gapOk := true, armed := none, ready := [], groupRun := none }

def nodeAdmitted (f : RingFrame) (s : State) : State :=
  modNode f.source (admittedNode f (grantAnswered f.source s).now) (grantAnswered f.source s)

/-- What the king tells of a node that it admits. -/
def joinDetail (f : RingFrame) : List Byte := leBytes 1 f.source ++ leBytes 1 (fld f.body 0 1) ++ leBytes 1 (fld f.body 1 1)

theorem nodeAdmitted_keeps (f : RingFrame) (s : State) : Keeps [.ring] s (nodeAdmitted f s) :=
  (grantAnswered_keeps ..).then (modNode_keeps ..) (by decide)

theorem takeHello_admits {f : RingFrame} {s : State} (hking : isKing s = true) (hroll : s.ring.roll.testBit f.source = false)
    (hmajor : fld f.body 0 1 = s.update.ringMajor) (hquiet : s.ring.attnLine = false) :
    takeHello f s = sendRoll (noteRoll (raise 0x0D11 (joinDetail f) (nodeAdmitted f s))) := by
  have hstill : (sendRoll (noteRoll (raise 0x0D11 (joinDetail f) (nodeAdmitted f s)))).ring.attnLine = false := by
    have hraise := raise_keeps 0x0D11 (joinDetail f) (nodeAdmitted f s)
    obtain ⟨g, hg⟩ := grantAnswered_ring f.source s
    show (raise 0x0D11 (joinDetail f) (nodeAdmitted f s)).ring.attnLine = false
    rw [hraise.ring_eq]
    show (grantAnswered f.source s).ring.attnLine = false
    rw [hg]
    exact hquiet
  unfold takeHello
  rw [if_neg (by simp [hking])]
  dsimp only
  rw [hroll, if_neg Bool.false_ne_true, if_neg (by simp [hmajor])]
  exact tryGrant_of_quiet hstill

theorem takeHello_ejects {f : RingFrame} {s : State} (hking : isKing s = true) (hroll : s.ring.roll.testBit f.source = false)
    (hmajor : fld f.body 0 1 ≠ s.update.ringMajor) (hquiet : s.ring.attnLine = false) :
    takeHello f s = sendEject f.source 0 (grantAnswered f.source s) := by
  have hstill : (sendEject f.source 0 (grantAnswered f.source s)).ring.attnLine = false := by
    obtain ⟨g, hg⟩ := grantAnswered_ring f.source s
    show (grantAnswered f.source s).ring.attnLine = false
    rw [hg]
    exact hquiet
  unfold takeHello
  rw [if_neg (by simp [hking])]
  dsimp only
  rw [hroll, if_neg Bool.false_ne_true, if_pos hmajor]
  exact tryGrant_of_quiet hstill

theorem joined_of_isKing {s : State} (h : isKing s = true) : joined s = true := by
  simp only [isKing, Bool.and_eq_true, decide_eq_true_eq] at h
  simp [joined, h.1]

theorem exec_joinHello {t : Nat} {f : RingFrame} {s : State} (harrives : Arrives s 0x26 f) (hking : isKing s = true) :
    exec (.joinHello t f) s = .next (takeHello f (ringFrameNoted f (beginAt t s))) := by
  have hking' := (isKing_ringFrameNoted t f (noOutage_of_king hking)).trans hking
  rw [← applyFrame_hello harrives.2.1 (joined_of_isKing hking')]
  exact congrArg Host.Outcome.next (typedFrame_of_arrives t harrives)

section Hello
variable {t : Nat} {f : RingFrame} {s : State} (harrives : Arrives s 0x26 f) (hking : isKing s = true)
  (hroll : s.ring.roll.testBit f.source = false) (hquiet : s.ring.attnLine = false)
include harrives hking hroll hquiet

/-- A node of the same major revision joins (R484). -/
theorem joinHello_admits (hsource : f.source < s.ring.nodes.length) (hmajor : fld f.body 0 1 = s.update.ringMajor) :
    Completes (.joinHello t f) s fun n =>
      (nodeOf n f.source).present = true ∧ (nodeOf n f.source).major = fld f.body 0 1 % 16 ∧
      RaisedNext s 0x0D11 (leBytes 1 f.source ++ leBytes 1 (fld f.body 0 1) ++ leBytes 1 (fld f.body 1 1)) n ∧
      (∃ g, ringOut g ∈ n.sent ∧ g.type = 0x24 ∧ g.source = nodeNumber s) ∧ Only [.clock, .ring, .log, .net] s n := by
  obtain ⟨hkeeps, hheard⟩ := ringFrameNoted_beginAt (s := s) t f (noOutage_of_king hking)
  have hking' := (isKing_ringFrameNoted t f (noOutage_of_king hking)).trans hking
  have hexec := exec_joinHello (t := t) harrives hking
  obtain ⟨_, _, _, _, hring⟩ := hheard
  generalize ringFrameNoted f (beginAt t s) = m at hkeeps hking' hexec hring
  rw [takeHello_admits hking' (by rw [hring]; exact hroll) (by rw [hkeeps.update_eq]; exact hmajor)
    (by rw [hring]; exact hquiet)] at hexec
  have hadmitted := hkeeps.then (nodeAdmitted_keeps f m) (by decide)
  have hraise := raise_keeps 0x0D11 (joinDetail f) (nodeAdmitted f m)
  have hraised := raisedNext_raise 0x0D11 (joinDetail f) (s0 := s) (s := nodeAdmitted f m) hadmitted.log_eq
  have hnodes : (raise 0x0D11 (joinDetail f) (nodeAdmitted f m)).ring.nodes =
      s.ring.nodes.modify f.source (admittedNode f (grantAnswered f.source m).now) := by
    rw [hraise.ring_eq]
    obtain ⟨g, hg⟩ := grantAnswered_ring f.source m
    show (grantAnswered f.source m).ring.nodes.modify _ _ = _
    rw [hg, hring]
  have htold := (hadmitted.mono (w := [.ring, .log, .net]) (by decide)).then hraise (by decide)
  have hall := htold.onlySince (w := [.clock, .ring, .log, .net])
  have hnode := nodeNumber_congr htold.power_eq
  generalize raise 0x0D11 (joinDetail f) (nodeAdmitted f m) = told at hexec hraised hnodes hall hnode
  have hentry : nodeOf (sendRoll (noteRoll told)) f.source =
      admittedNode f (grantAnswered f.source m).now (s.ring.nodes.getD f.source {}) := by
    show told.ring.nodes.getD f.source {} = _
    rw [hnodes, getD_modify, if_pos ⟨rfl, hsource⟩]
  have hsends : Keeps [.ring] told (sendRoll (noteRoll told)) := (noteRoll_keeps _).then (ringSend_keeps ..) (by decide)
  exact ⟨_, hexec, by rw [hentry]; rfl, by rw [hentry]; rfl, hraised, ⟨_, ownFrame_mem_ringSend .., rfl, hnode⟩,
    hall.trans (hsends.only.mono (by decide))⟩

/-- A node of another major revision is ejected (R487). -/
theorem joinHello_ejects (hmajor : fld f.body 0 1 ≠ s.update.ringMajor) : Completes (.joinHello t f) s fun n =>
    (∃ g, ringOut g ∈ n.sent ∧ g.type = 0x27 ∧ g.body = leBytes 1 f.source ++ leBytes 1 0) ∧ n.ring.nodes = s.ring.nodes ∧
    n.ring.roll = s.ring.roll ∧ Only [.clock, .ring] s n := by
  obtain ⟨hkeeps, hheard⟩ := ringFrameNoted_beginAt (s := s) t f (noOutage_of_king hking)
  have hking' := (isKing_ringFrameNoted t f (noOutage_of_king hking)).trans hking
  have hexec := exec_joinHello (t := t) harrives hking
  obtain ⟨_, _, _, _, hring⟩ := hheard
  generalize ringFrameNoted f (beginAt t s) = m at hkeeps hking' hexec hring
  rw [takeHello_ejects hking' (by rw [hring]; exact hroll) (by rw [hkeeps.update_eq]; exact hmajor)
    (by rw [hring]; exact hquiet)] at hexec
  obtain ⟨g, hg⟩ := grantAnswered_ring f.source m
  refine ⟨_, hexec, ⟨_, ownFrame_mem_ringSend .., rfl, rfl⟩, ?_, ?_,
    ((hkeeps.then (grantAnswered_keeps ..) (by decide)).then (sendEject_keeps ..) (by decide)).onlySince⟩
  · show (grantAnswered f.source m).ring.nodes = _
    rw [hg, hring]
  · show (grantAnswered f.source m).ring.roll = _
    rw [hg, hring]

end Hello

theorem joinHelloTimeout_ends {t k u : Nat} {s : State} (hgranted : s.ring.granted = some (k, u)) (hdue : u + usT 200 ≤ max s.now t)
    (hquiet : s.ring.attnLine = false) : Completes (.joinHelloTimeout t) s fun n =>
      n.ring = { s.ring with granted := none } ∧ Only [.clock, .ring] s n := by
  have hexec : exec (.joinHelloTimeout t) s = .next { beginAt t s with ring := { s.ring with granted := none } } := by
    show execJoinHelloTimeout t s = _
    unfold execJoinHelloTimeout
    dsimp only
    have hgranted' : (beginAt t s).ring.granted = some (k, u) := hgranted
    rw [hgranted']
    exact congrArg Host.Outcome.next ((if_pos hdue).trans (tryGrant_of_quiet hquiet))
  exact ⟨_, hexec, rfl, (set_ring_keeps (beginAt t s) _).onlySince⟩

/-! ### EJECT, LEAVE_REQ and ring.leave_wait (R485, R487, R488) -/

/-- What a module gives up of the ring with its bypass (R473). -/
def ringGivenUp (s : State) : State := { s with ring := { s.ring with
  bypassClosed := true, kingHeard := false, tx := [], attn := false
  imageTx := [], sameMajor := false, openAt := none, granted := none, tried := [], attnLine := false, leavers := []
  kingSeen := none, timeSeen := none, delayReq := none, rollSeen := none, leaving := none
  cascade := none, readySent := [], stopped := false, owed := [] } }

theorem closeBypass_ring {st : RingState} {s : State} (h : s.ring.state ≠ st) :
    (closeBypass st s).ring = { (ringGivenUp s).ring with state := st } := by
  show (setRingState st (ringGivenUp s)).ring = _
  rw [setRingState_of_ne (s := ringGivenUp s) h]
  exact (raise_keeps ..).ring_eq

theorem takeEject_joining {f : RingFrame} {s : State} (hstate : s.ring.state = .joining) (hnode : fld f.body 0 1 = nodeNumber s)
    (hreason : fld f.body 1 1 = 1) : takeEject f s = raise 0x0D16 (leBytes 1 (nodeNumber s))
      (closeBypass .bypassed { s with ring := { s.ring with ejected := true } }) := by
  unfold takeEject
  dsimp only
  rw [if_neg (by simp [hnode]), if_neg (by simp [hreason]), if_pos hstate, if_pos hreason]

theorem eject_closes {t : Nat} {f : RingFrame} {s : State} (harrives : Arrives s 0x27 f) (hstate : s.ring.state = .joining)
    (hnode : fld f.body 0 1 = nodeNumber s) (hreason : fld f.body 1 1 = 1) : Completes (.eject t f) s fun n =>
      n.ring.state = .bypassed ∧ n.ring.bypassClosed = true ∧ n.ring.ejected = true ∧
      Raised 0x0D16 (leBytes 1 (nodeNumber s)) n ∧ Only [.clock, .ring, .log, .net] s n := by
  obtain ⟨hkeeps, hheard⟩ := ringFrameNoted_beginAt (s := s) t f (.inl (by simp [hstate]))
  have hexec : exec (.eject t f) s = .next (takeEject f (ringFrameNoted f (beginAt t s))) := by
    rw [← applyFrame_eject harrives.2.1]
    exact congrArg Host.Outcome.next (typedFrame_of_arrives t harrives)
  have hstate' := hheard.state_eq.trans hstate
  have hnode' := nodeNumber_congr hkeeps.power_eq
  generalize ringFrameNoted f (beginAt t s) = m at hkeeps hexec hstate' hnode'
  change nodeNumber m = nodeNumber s at hnode'
  rw [takeEject_joining hstate' (hnode.trans hnode'.symm) hreason, hnode'] at hexec
  have hclosed : (closeBypass .bypassed { m with ring := { m.ring with ejected := true } }).ring =
      { (ringGivenUp { m with ring := { m.ring with ejected := true } }).ring with state := .bypassed } :=
    closeBypass_ring (by rw [hstate']; decide)
  have hring := ((raise_keeps 0x0D16 (leBytes 1 (nodeNumber s)) _).ring_eq).trans hclosed
  have hsteps : Keeps [.ring, .log, .net] (beginAt t s) (raise 0x0D16 (leBytes 1 (nodeNumber s))
      (closeBypass .bypassed { m with ring := { m.ring with ejected := true } })) :=
    (((hkeeps.mono (w := [.ring, .log, .net]) (by decide)).then (set_ring_keeps m _) (by decide)).then
      (closeBypass_keeps ..) (by decide)).then (raise_keeps ..) (by decide)
  exact ⟨_, hexec, congrArg Ring.state hring, congrArg Ring.bypassClosed hring, congrArg Ring.ejected hring,
    raised_of_raise (.of_log_eq rfl), hsteps.onlySince⟩

/-- A leave that waits for the next gap (R485). -/
def leaveNoted (n : Nat) (s : State) : State := { s with ring := { s.ring with leavers := s.ring.leavers ++ [n] } }

theorem takeLeave_waits {f : RingFrame} {s : State} (hking : isKing s = true) (hgap : mayChange s = false) :
    takeLeave f s = leaveNoted f.source s := by
  have hgap' : mayChange (leaveNoted f.source s) = false := hgap
  unfold takeLeave
  rw [if_pos hking]
  show serveLeaves (leaveNoted f.source s) = _
  exact if_pos (by simp [hgap'])

/-- Whether the ring may change goes by the run, the roll and its nodes, and not by what hearing a frame notes (R485). -/
theorem mayChange_ringFrameNoted (t : Nat) (f : RingFrame) {s : State} (h : NoOutage s) :
    mayChange (ringFrameNoted f (beginAt t s)) = mayChange (beginAt t s) := by
  obtain ⟨hkeeps, hheard⟩ := ringFrameNoted_beginAt t f h
  have hsame := (hkeeps.mono (w := [.clock, .ring, .pair]) (by decide)).only.eq_ring
  rw [hkeeps.now_eq, hkeeps.pair_eq] at hsame
  obtain ⟨_, _, _, _, hring⟩ := hheard
  rw [hsame, hring]
  rfl

theorem leaveReq_waits {t : Nat} {f : RingFrame} {s : State} (harrives : Arrives s 0x28 f) (hking : isKing s = true)
    (hgap : mayChange (beginAt t s) = false) : Completes (.leaveReq t f) s fun n =>
      n.ring.leavers = s.ring.leavers ++ [f.source] ∧ n.ring.state = .king ∧ Only [.clock, .ring] s n := by
  obtain ⟨hkeeps, hheard⟩ := ringFrameNoted_beginAt (s := s) t f (noOutage_of_king hking)
  have hking' := (isKing_ringFrameNoted t f (noOutage_of_king hking)).trans hking
  have hexec : exec (.leaveReq t f) s = .next (takeLeave f (ringFrameNoted f (beginAt t s))) := by
    rw [← applyFrame_leave harrives.2.1 (joined_of_isKing hking')]
    exact congrArg Host.Outcome.next (typedFrame_of_arrives t harrives)
  rw [takeLeave_waits hking' ((mayChange_ringFrameNoted t f (noOutage_of_king hking)).trans hgap)] at hexec
  have hstate : (ringFrameNoted f (beginAt t s)).ring.state = .king := by
    simp only [isKing, Bool.and_eq_true, decide_eq_true_eq] at hking'
    exact hking'.1
  obtain ⟨_, _, _, _, hring⟩ := hheard
  refine ⟨_, hexec, ?_, hstate, (hkeeps.then (set_ring_keeps ..) (by decide)).onlySince⟩
  show (ringFrameNoted f (beginAt t s)).ring.leavers ++ [f.source] = _
  rw [hring]

theorem depart_of_idle {restarts : Bool} {s : State} (h : s.mod.state = .idle) :
    (depart restarts s).mod.state = if restarts then .boot else .maintenance := by
  cases restarts with
  | true =>
    rw [depart_boots h, enterBoot_state]
    rfl
  | false =>
    have hdepart : depart false s = enterMaintenance 10 s := by
      unfold depart
      rw [if_neg (by simp), if_pos (by simp [h])]
    rw [hdepart, enterMaintenance_state]
    rfl

/-- A leave takes place in IDLE only, or as a restart in MAINTENANCE (R20, R488). -/
theorem depart_elsewhere {restarts : Bool} {s : State} (hidle : s.mod.state ≠ .idle) (hmaint : s.mod.state ≠ .maintenance) :
    depart restarts s = s := by
  unfold depart
  rw [if_neg (by simp [hidle, hmaint]), if_neg (by simp [hidle])]

theorem exec_leaveWaitExpiry {t d : Nat} {restarts : Bool} {s : State} (hleaving : s.ring.leaving = some (restarts, d))
    (hdue : d + msT (cfgN s Fld.ring_leave_wait 0) ≤ t) : exec (.leaveWaitExpiry t) s = .next (depart restarts (beginAt t s)) := by
  show execLeaveWaitExpiry t s = _
  unfold execLeaveWaitExpiry
  dsimp only
  have hleaving' : (beginAt t s).ring.leaving = some (restarts, d) := hleaving
  rw [hleaving']
  exact congrArg Host.Outcome.next (if_pos (le_max_of_le_right hdue))

/-! ### The roll and lost nodes (R484, R489) -/

/-- A joining node that the roll shows is a member (R484). -/
def rollShown (s : State) : State := { s with ring := { s.ring with attn := false, state := .member } }

theorem takeRoll_joins {f : RingFrame} {s : State} (hstate : s.ring.state = .joining)
    (hshown : (fld (rollEntry f.body (nodeNumber s)) 0 1).testBit 3 = true) :
    (takeRoll f s).ring.state = .member ∧ (takeRoll f s).ring.attn = false ∧
      RaisedNext s 0x0D10 (leBytes 1 1 ++ leBytes 1 3) (takeRoll f s) := by
  have hset : setRingState .member { s with ring := { s.ring with attn := false } } =
      raise 0x0D10 (leBytes 1 1 ++ leBytes 1 3) (rollShown s) := by
    rw [setRingState_of_ne (by show s.ring.state ≠ _; rw [hstate]; decide), hstate]
    rfl
  have hring := (raise_keeps 0x0D10 (leBytes 1 1 ++ leBytes 1 3) (rollShown s)).ring_eq
  have hraised := raisedNext_raise 0x0D10 (leBytes 1 1 ++ leBytes 1 3) (s0 := s) (s := rollShown s) rfl
  unfold takeRoll
  dsimp only
  have hjoins : (decide (s.ring.state = .joining) && true) = true := by simp [hstate]
  rw [hshown, if_pos hjoins, hset]
  generalize raise 0x0D10 (leBytes 1 1 ++ leBytes 1 3) (rollShown s) = told at hring hraised ⊢
  have hjoined : joined told = true := by simp [joined, hring, rollShown]
  rw [if_pos hjoined]
  exact ⟨congrArg Ring.state hring, congrArg Ring.attn hring, hraised⟩

theorem roll_joins {t : Nat} {f : RingFrame} {s : State} (harrives : Arrives s 0x24 f) (hstate : s.ring.state = .joining)
    (hshown : (fld (rollEntry f.body (nodeNumber s)) 0 1).testBit 3 = true) : Completes (.roll t f) s fun n =>
      n.ring.state = .member ∧ n.ring.attn = false ∧ RaisedNext s 0x0D10 (leBytes 1 1 ++ leBytes 1 3) n ∧
      Only [.clock, .ring, .log, .net] s n := by
  obtain ⟨hkeeps, hheard⟩ := ringFrameNoted_beginAt (s := s) t f (.inl (by simp [hstate]))
  have hexec : exec (.roll t f) s = .next (takeRoll f (ringFrameNoted f (beginAt t s))) := by
    rw [← applyFrame_roll harrives.2.1]
    exact congrArg Host.Outcome.next (typedFrame_of_arrives t harrives)
  obtain ⟨hmember, hattn, e, he, hcode, hdetail, hseq⟩ := takeRoll_joins (f := f) (s := ringFrameNoted f (beginAt t s))
    (hheard.state_eq.trans hstate) (by rw [nodeNumber_congr hkeeps.power_eq]; exact hshown)
  rw [hkeeps.log_eq] at hseq
  exact ⟨_, hexec, hmember, hattn, ⟨e, he, hcode, hdetail, hseq⟩,
    ((hkeeps.mono (w := [.ring, .log, .net]) (by decide)).then (takeRoll_keeps ..) (by decide)).onlySince⟩

theorem settleRelay_of_idle {s : State} (h : s.update.relaying = false) : settleRelay s = s := if_neg (by simp [h])

theorem ringMemberLost_loses {t k d : Nat} {s : State} (hking : isKing s = true) (hk : k < 8) (hlen : k < s.ring.nodes.length)
    (hother : k ≠ nodeNumber s) (hlost : (nodeOf s k).lost = false) (hseen : (nodeOf s k).seen = some d)
    (hdue : d + lossTolerance s ≤ t) (hrelay : s.update.relaying = false) : Completes (.ringMemberLost t k) s fun n =>
      nodeOf n k = { nodeOf s k with lost := true } ∧ RaisedNext s 0x0D12 (leBytes 1 k) n ∧
      (∀ j, j ≠ k → nodeOf n j = nodeOf s j) ∧ Only [.clock, .ring, .log, .net] s n := by
  have hsilent : silent (beginAt t s) (some d) = true := any_due rfl (le_max_of_le_right hdue)
  have hlost' : (nodeOf (beginAt t s) k).lost = false := hlost
  have hseen' : (nodeOf (beginAt t s) k).seen = some d := hseen
  have hother' : k ≠ nodeNumber (beginAt t s) := hother
  have hraise := raise_keeps 0x0D12 (leBytes 1 k) (modNode k (fun n => { n with lost := true }) (beginAt t s))
  have hraised := raisedNext_raise 0x0D12 (leBytes 1 k) (s0 := s)
    (s := modNode k (fun n => { n with lost := true }) (beginAt t s)) rfl
  have hexec : exec (.ringMemberLost t k) s =
      .next (raise 0x0D12 (leBytes 1 k) (modNode k (fun n => { n with lost := true }) (beginAt t s))) := by
    show execRingMemberLost t k s = _
    unfold execRingMemberLost
    dsimp only
    rw [if_pos (show isKing (beginAt t s) = true from hking), if_pos (by simp [hk, hother', hlost', hsilent, hseen'])]
    exact congrArg Host.Outcome.next (settleRelay_of_idle (by rw [hraise.update_eq]; exact hrelay))
  have hnodes : (raise 0x0D12 (leBytes 1 k) (modNode k (fun n => { n with lost := true }) (beginAt t s))).ring.nodes =
      s.ring.nodes.modify k fun n => { n with lost := true } := congrArg Ring.nodes hraise.ring_eq
  refine ⟨_, hexec, ?_, hraised, fun j hj => ?_,
    (((modNode_keeps ..).mono (v := [.ring]) (w := [.ring, .log, .net]) (by decide)).then hraise (by decide)).onlySince⟩
  · unfold nodeOf
    rw [hnodes, getD_modify, if_pos ⟨rfl, hlen⟩]
  · unfold nodeOf
    rw [hnodes, getD_modify, if_neg fun h => hj h.1.symm]

/-- Settles O52: nodes that join, are ejected, leave, and are lost. -/
theorem joiningAndLeaving : Obligations.JoiningAndLeaving := by
  unfold Obligations.JoiningAndLeaving
  refine ⟨fun t f s harrives hking hroll hsource hquiet =>
      ⟨fun h => joinHello_admits harrives hking hroll hquiet hsource h, fun h => joinHello_ejects harrives hking hroll hquiet h⟩,
    fun t k u s hgranted hdue hquiet => joinHelloTimeout_ends hgranted hdue hquiet,
    fun t f s harrives hstate hnode hreason => eject_closes harrives hstate hnode hreason,
    fun t f s harrives hking hgap => leaveReq_waits harrives hking hgap,
    fun t d restarts s hleaving hdue => ⟨fun hidle => ⟨_, exec_leaveWaitExpiry hleaving hdue, depart_of_idle hidle⟩,
      fun hidle hmaint => (exec_leaveWaitExpiry hleaving hdue).trans (congrArg Host.Outcome.next (depart_elsewhere hidle hmaint))⟩,
    fun t f s harrives hstate _ hshown => roll_joins harrives hstate hshown,
    fun t k d s hking hk hlen hother hlost hseen hdue hrelay =>
      ringMemberLost_loses hking hk hlen hother hlost hseen hdue hrelay⟩

end Sys2Proof.Machine
end

section
/-! Proofs of the statement on what the nodes of a cascade agree on (16_satos_ring.md, R492 to R495): O53. -/
namespace Sys2Proof.Machine
open Sys2Proof

-- As in the sections before: checked in parallel, the whole text takes more threads than the memory limit leaves room for.
set_option Elab.async false

/-! ### The king's origin (R492) -/

theorem originSend_sends (t : Nat) {s : State} (hking : isKing s = true) (hgroup : inGroup s = true) (hidle : groupIdle s = true) :
    Completes (.originSend t) s fun n =>
      (∃ f, n.sent = [ringOut f] ∧ f.type = 0x29 ∧ f.source = nodeNumber s ∧ f.body = stampNative (timeNow n) ++
        sgBytes 8 (idleLine s (cfgN s Fld.ring_origin_input 0) n.now * 4294967296).floor) ∧ Only [.clock, .ring] s n := by
  have hready : (isKing (beginAt t s) && inGroup (beginAt t s) && groupIdle (beginAt t s)) = true := by
    show (isKing s && inGroup s && groupIdle s) = true
    rw [hking, hgroup, hidle]
    rfl
  have hexec : exec (.originSend t) s = .next (ringSend 0x29 0xFF (stampNative (timeNow (beginAt t s)) ++
      sgBytes 8 (idleLine s (cfgN s Fld.ring_origin_input 0) (beginAt t s).now * 4294967296).floor) (beginAt t s)) :=
    congrArg Host.Outcome.next (if_pos hready)
  have hkeeps := ringSend_keeps 0x29 0xFF (stampNative (timeNow (beginAt t s)) ++
    sgBytes 8 (idleLine s (cfgN s Fld.ring_origin_input 0) (beginAt t s).now * 4294967296).floor) (beginAt t s)
  refine ⟨_, hexec, ⟨_, ringSend_sent_of_nil _ _ _ rfl, rfl, rfl, ?_⟩, hkeeps.onlySince⟩
  rw [hkeeps.timeNow_eq, hkeeps.now_eq]
  rfl

/-! ### A decision of the king's at a member (R499, R508) -/

/-- A member whose partner need not agree takes the king's decision at once. -/
theorem decideRing_of_member {f : RingFrame} {s : State} (hstate : s.ring.state = .member) (hdrives : drives s = true)
    (hgroup : inGroup s = true) (halone : partnerTakes s = false) (htype : f.type ≠ 0x33) :
    decideRing f s = applyRing f.type f.body (sendToken 0x07 (leBytes 1 f.type ++ f.body) s) := by
  have hnone : changeoverFirst f s = s := if_neg (by simp [htype])
  unfold decideRing
  rw [if_neg (by simp [hdrives, hgroup, hstate]), hnone]
  unfold onAck
  rw [if_neg (by simp [halone])]

theorem typedFrame_decision {t type : Nat} {f : RingFrame} {s : State} (harrives : Arrives s type f)
    (htype : type = 0x29 ∨ type = 0x31) (hstate : s.ring.state = .member) (hheard : s.ring.kingHeard = true)
    (hdrives : drives s = true) (hgroup : inGroup s = true) (halone : partnerTakes s = false) :
    ∃ m, typedFrame type f (beginAt t s) = applyRing type f.body m ∧ Keeps [.ring, .pair] (beginAt t s) m ∧ HeardOnly s m := by
  obtain ⟨hkeeps, honly⟩ := ringFrameNoted_beginAt (s := s) t f (.inr hheard)
  have hframe := typedFrame_of_arrives t harrives
  have hftype : f.type = type := harrives.2.1
  have hstate' := honly.state_eq.trans hstate
  have hgroup' : inGroup (ringFrameNoted f (beginAt t s)) = true := by
    rw [inGroup, cfgN, hkeeps.conf_eq]
    exact hgroup
  have halone' : partnerTakes (ringFrameNoted f (beginAt t s)) = false := by
    rw [partnerTakes, hkeeps.pair_eq]
    exact halone
  have hdrives' : drives (ringFrameNoted f (beginAt t s)) = true := (drives_congr hkeeps.pair_eq).trans hdrives
  generalize ringFrameNoted f (beginAt t s) = m at *
  have htold := sendToken_keeps 0x07 (leBytes 1 f.type ++ f.body) m
  refine ⟨sendToken 0x07 (leBytes 1 f.type ++ f.body) m, ?_, (hkeeps.mono (w := [.ring, .pair]) (by decide)).then htold (by decide), ?_⟩
  · rw [hframe, applyFrame_decision (hftype ▸ htype) (by simp [joined, hstate']),
      decideRing_of_member hstate' hdrives' hgroup' halone' (by rcases htype with h | h <;> simp [hftype, h]), hftype]
  · obtain ⟨heard, seen, hops, applied, hring⟩ := honly
    exact ⟨heard, seen, hops, applied, htold.ring_eq.trans hring⟩

/-! ### ORIGIN at a member (R492) -/

/-- The origin that gives an input a line position at a date. -/
def originValue (date : Nat) (line : Rat) (s : State) (i : Nat) : Int :=
  (linePosValue s i date * 4294967296 - line * spacingOf s i 1200).floor

def originSet (date : Nat) (line : Rat) (i : Nat) (s : State) : State :=
  modInput i (fun x => { x with origin := originValue date line s i }) s

/-- The web master inputs: those that a bar goes by (R492). -/
def masterInputs (s : State) : List Nat :=
  (List.range 16).filter fun i => (List.range 8).any fun b => barInput s b = some i

theorem applyOrigin_eq (body : List Byte) (s : State) : applyOrigin body s = forEach (masterInputs s)
    (originSet (dateOfTime s (readNative (body.take 12))) ((sfld body 12 8 : Rat) / 4294967296)) s := rfl

theorem mem_masterInputs {s : State} {i : Nat} : i ∈ masterInputs s ↔ i < 16 ∧ ∃ b, b < 8 ∧ barInput s b = some i := by
  simp [masterInputs]

theorem inputOf_originSet (date : Nat) (line : Rat) {s : State} {i : Nat} (j : Nat) (h : i < s.pos.inputs.length) :
    inputOf (originSet date line i s) j =
      if i = j then { inputOf s j with origin := originValue date line s i } else inputOf s j := by
  unfold inputOf originSet
  rw [modInput_pos_inputs, getD_modify]
  simp only [h, and_true]

/-- An input's origin goes by its own registers, and not by another input's. -/
theorem originValue_originSet (date : Nat) (line : Rat) {s : State} {i j : Nat} (h : i < s.pos.inputs.length) (hij : i ≠ j) :
    originValue date line (originSet date line i s) j = originValue date line s j := by
  have hline : linePosValue (originSet date line i s) j date = linePosValue s j date := by
    unfold linePosValue
    rw [inputOf_originSet date line j h, if_neg hij]
    rfl
  unfold originValue
  rw [hline]
  rfl

theorem inputOf_forEach_originSet (date : Nat) (line : Rat) {l : List Nat} (hl : l.Nodup) (j : Nat) {s : State}
    (hlen : ∀ i ∈ l, i < s.pos.inputs.length) : inputOf (forEach l (originSet date line) s) j =
      if j ∈ l then { inputOf s j with origin := originValue date line s j } else inputOf s j := by
  induction l generalizing s with
  | nil => rfl
  | cons i l ih =>
    obtain ⟨hi, hl'⟩ := List.nodup_cons.mp hl
    have hi' := hlen i (List.mem_cons_self ..)
    have hlen' : ∀ k ∈ l, k < (originSet date line i s).pos.inputs.length := fun k hk => by
      rw [originSet, modInput_pos_inputs, List.length_modify]
      exact hlen k (List.mem_cons_of_mem _ hk)
    show inputOf (forEach l (originSet date line) (originSet date line i s)) j = _
    rw [ih hl' hlen', inputOf_originSet date line j hi']
    by_cases hij : i = j
    · subst hij
      simp [hi]
    · have hji : j ≠ i := fun h => hij h.symm
      rw [originValue_originSet date line hi' hij, if_neg hij]
      simp [hji]

theorem origin_sets {t : Nat} {f : RingFrame} {s : State} (harrives : Arrives s 0x29 f) (hstate : s.ring.state = .member)
    (hheard : s.ring.kingHeard = true) (hdrives : drives s = true) (hgroup : inGroup s = true) (halone : partnerTakes s = false)
    (hnone : s.jobs.armed = none) (hlen : s.pos.inputs.length = 16) : Completes (.origin t f) s fun n =>
      (∀ i, i < 16 → (∃ b, b < 8 ∧ barInput s b = some i) → (inputOf n i).origin =
        (linePosValue s i (dateOfTime (beginAt t s) (readNative (f.body.take 12))) * 4294967296 -
          (sfld f.body 12 8 : Rat) / 4294967296 * spacingOf s i 1200).floor) ∧
      (∀ i, (∀ b, b < 8 → barInput s b ≠ some i) → inputOf n i = inputOf s i) ∧ Only [.clock, .ring, .pos, .pair] s n := by
  obtain ⟨m, hframe, hkeeps, -⟩ := typedFrame_decision (t := t) harrives (.inl rfl) hstate hheard hdrives hgroup halone
  have hsame := hkeeps.since.only.eq_ring
  rw [show m.now = max s.now t from hkeeps.now_eq] at hsame
  have happly : applyRing 0x29 f.body m = applyOrigin f.body m := by
    have hgroup' : inGroup m = true := by
      rw [hsame]
      exact hgroup
    unfold applyRing
    rw [if_neg (by simp), if_pos rfl, if_pos (by simp [hgroup', hkeeps.jobs_eq, hnone])]
  have hexec : exec (.origin t f) s = .next (applyOrigin f.body m) := congrArg Host.Outcome.next (hframe.trans happly)
  have hdate : ∀ x, dateOfTime m x = dateOfTime (beginAt t s) x := fun x => by
    rw [hsame]
    rfl
  have hmasters : masterInputs m = masterInputs s := by
    rw [hsame]
    rfl
  have hvalue : ∀ date line i, originValue date line m i = originValue date line s i := fun date line i => by
    rw [hsame]
    rfl
  have hinput : ∀ i, inputOf m i = inputOf s i := fun i => by
    rw [hsame]
    rfl
  have hall := fun j => inputOf_forEach_originSet (dateOfTime m (readNative (f.body.take 12))) ((sfld f.body 12 8 : Rat) / 4294967296)
    (l := masterInputs m) (List.nodup_range.filter _) j (s := m)
    fun i hi => by rw [hkeeps.pos_eq]; exact hlen ▸ (mem_masterInputs.mp hi).1
  rw [hmasters] at hall
  refine ⟨_, hexec, fun i hi hb => ?_, fun i hb => ?_,
    ((hkeeps.mono (w := [.ring, .pos, .pair]) (by decide)).then (applyOrigin_keeps ..) (by decide)).onlySince⟩
  · rw [applyOrigin_eq, hmasters, hall i, if_pos (mem_masterInputs.mpr ⟨hi, hb⟩), hvalue, hdate]
    rfl
  · rw [applyOrigin_eq, hmasters, hall i, if_neg fun h => ?_, hinput]
    obtain ⟨b, hb', hbar⟩ := (mem_masterInputs.mp h).2
    exact hb b hb' hbar

/-! ### What the king keeps of a node (R493, R495) -/

theorem checkCascade_of_none {s : State} (h : s.jobs.armed = none) : checkCascade s = s := by
  unfold checkCascade
  rw [h]

theorem nodeOf_modNode (g : Node → Node) {s : State} {n : Nat} (j : Nat) (h : n < s.ring.nodes.length) :
    nodeOf (modNode n g s) j = if n = j then g (nodeOf s j) else nodeOf s j := by
  unfold nodeOf modNode
  rw [getD_modify]
  simp only [h, and_true]

theorem runArmedFrame_keeps {t : Nat} {f : RingFrame} {s : State} (harrives : Arrives s 0x30 f) (hking : isKing s = true)
    (hsource : f.source < s.ring.nodes.length) (hnone : s.jobs.armed = none) : Completes (.runArmedFrame t f) s fun n =>
      nodeOf n f.source = { nodeOf s f.source with
        armed := some (fld f.body 0 4, fld f.body 4 4, fld f.body 8 4), ready := [], groupRun := some (fld f.body 0 4, 0) } ∧
      (∀ j, j ≠ f.source → nodeOf n j = nodeOf s j) ∧ Only [.clock, .ring] s n := by
  obtain ⟨hkeeps, hheard⟩ := ringFrameNoted_beginAt (s := s) t f (noOutage_of_king hking)
  have hking' := (isKing_ringFrameNoted t f (noOutage_of_king hking)).trans hking
  have hexec : exec (.runArmedFrame t f) s = .next (takeRunArmed f (ringFrameNoted f (beginAt t s))) := by
    rw [← applyFrame_runArmed harrives.2.1 (joined_of_isKing hking')]
    exact congrArg Host.Outcome.next (typedFrame_of_arrives t harrives)
  generalize ringFrameNoted f (beginAt t s) = m at hkeeps hheard hexec
  have htaken : takeRunArmed f m = modNode f.source (fun n => { n with
      armed := some (fld f.body 0 4, fld f.body 4 4, fld f.body 8 4), ready := [], groupRun := some (fld f.body 0 4, 0) }) m :=
    checkCascade_of_none (Eq.trans (congrArg Jobs.armed hkeeps.jobs_eq) hnone)
  have hentry : ∀ j, nodeOf m j = nodeOf s j := fun j => by rw [nodeOf, nodeOf, hheard.nodes_eq]
  have hsource' : f.source < m.ring.nodes.length := by rwa [hheard.nodes_eq]
  rw [htaken] at hexec
  refine ⟨_, hexec, ?_, fun j hj => ?_, (hkeeps.then (modNode_keeps ..) (by decide)).onlySince⟩
  · rw [nodeOf_modNode _ _ hsource', if_pos rfl, hentry]
  · rw [nodeOf_modNode _ _ hsource', if_neg hj.symm, hentry]

theorem sendSlotReady_ring (s : State) : ∃ seq tx ready, (sendSlotReady s).ring =
    { s.ring with seq := seq, tx := tx, readySent := ready } := by
  unfold sendSlotReady
  split
  · exact ⟨_, _, _, rfl⟩
  · split
    · unfold ringSendActive
      split
      · exact ⟨_, _, _, rfl⟩
      · exact ⟨_, _, _, rfl⟩
    · exact ⟨_, _, _, rfl⟩

/-- A king that holds no slot tells of its own slot at most (R495). -/
theorem retryHold_of_king {s : State} (hking : isKing s = true) (hhold : ∀ a, s.jobs.armed = some a → a.hold = false) :
    retryHold s = sendSlotReady s := by
  have hstate : s.ring.state = .king := by
    simp only [isKing, Bool.and_eq_true, decide_eq_true_eq] at hking
    exact hking.1
  have hgroup : (drives s && inGroup s && !groupKing s) = false := by
    cases hg : inGroup s <;> simp [groupKing, hg, hstate]
  have hnone : ((sendSlotReady s).jobs.armed.any fun a => a.hold) = false := by
    rw [(sendSlotReady_keeps s).jobs_eq]
    cases harmed : s.jobs.armed with
    | none => rfl
    | some a => exact hhold a harmed
  unfold retryHold
  rw [hgroup]
  exact if_neg (by simpa using hnone)

theorem slotReady_keeps {t : Nat} {f : RingFrame} {s : State} (harrives : Arrives s 0x32 f) (hking : isKing s = true)
    (hrun : (nodeOf s f.source).armed.map (fun x => x.1) = some (fld f.body 0 4)) (hsource : f.source < s.ring.nodes.length)
    (hhold : ∀ a, s.jobs.armed = some a → a.hold = false) : Completes (.slotReady t f) s fun n =>
      nodeOf n f.source = { nodeOf s f.source with ready := fld f.body 4 4 :: (nodeOf s f.source).ready } ∧
      n.jobs = s.jobs ∧ Only [.clock, .ring] s n := by
  obtain ⟨hkeeps, hheard⟩ := ringFrameNoted_beginAt (s := s) t f (noOutage_of_king hking)
  have hking' := (isKing_ringFrameNoted t f (noOutage_of_king hking)).trans hking
  have hexec : exec (.slotReady t f) s = .next (takeSlotReady f (ringFrameNoted f (beginAt t s))) := by
    rw [← applyFrame_slotReady harrives.2.1 (joined_of_isKing hking')]
    exact congrArg Host.Outcome.next (typedFrame_of_arrives t harrives)
  generalize ringFrameNoted f (beginAt t s) = m at hkeeps hheard hexec hking'
  have hentry : nodeOf m f.source = nodeOf s f.source := by rw [nodeOf, nodeOf, hheard.nodes_eq]
  have hsource' : f.source < m.ring.nodes.length := by rwa [hheard.nodes_eq]
  have hknown : ((nodeOf m f.source).armed.any fun x => x.1 = fld f.body 0 4) = true := by
    rw [hentry]
    obtain ⟨x, hx, hid⟩ := Option.map_eq_some_iff.mp hrun
    simp [hx, hid]
  generalize hnoted : modNode f.source (fun n => { n with ready := fld f.body 4 4 :: n.ready }) m = noted
  have hnotedKeeps : Keeps [.ring] m noted := hnoted ▸ modNode_keeps ..
  have hking'' : isKing noted = true := by
    rw [← hnoted]
    exact hking'
  have htaken : takeSlotReady f m = if ofRun f.body noted then sendSlotReady noted else noted := by
    unfold takeSlotReady
    dsimp only
    rw [hknown, if_pos rfl, hnoted, retryHold_of_king hking'' fun a ha => hhold a ?_]
    rwa [hnotedKeeps.jobs_eq, hkeeps.jobs_eq] at ha
  have hsent : Keeps [.ring] noted (takeSlotReady f m) := by
    rw [htaken]
    exact .ite (fun _ => sendSlotReady_keeps _) fun _ => .refl ..
  have hnodes : (takeSlotReady f m).ring.nodes = noted.ring.nodes := by
    rw [htaken]
    obtain ⟨_, _, _, hring⟩ := sendSlotReady_ring noted
    split
    · rw [hring]
    · rfl
  have hall := (hkeeps.then hnotedKeeps (by decide)).then hsent (by decide)
  refine ⟨_, hexec, ?_, hall.jobs_eq, hall.onlySince⟩
  rw [nodeOf, hnodes, ← hnoted]
  show nodeOf (modNode f.source _ m) f.source = _
  rw [nodeOf_modNode _ _ hsource', if_pos rfl, hentry]

/-! ### CASCADE_ARMED at a member (R494) -/

theorem cascadeNoted_jobs (off : Nat) (s : State) : (cascadeNoted off s).jobs =
    (modArmed (fun a => { a with leadOffset := off, armedAt := s.now }) s).jobs :=
  (Keeps.forEach cascadeBar_keeps (.refl _ _)).jobs_eq

theorem applyCascade_of_member {s : State} (h : s.ring.state = .member) (off : Nat) :
    (applyCascade off s).ring.cascade = some off ∧
      (applyCascade off s).jobs.armed.map (fun a => a.leadOffset) = s.jobs.armed.map fun _ => off := by
  rw [applyCascade_eq, cascadeNoted_ring, if_neg (by simp [h])]
  obtain ⟨_, _, _, hring⟩ := sendSlotReady_ring (cascadeNoted off s)
  refine ⟨by rw [hring, cascadeNoted_ring], ?_⟩
  rw [(sendSlotReady_keeps _).jobs_eq, cascadeNoted_jobs, modArmed_jobs_armed, Option.map_map]
  rfl

theorem cascadeArmed_applies {t : Nat} {f : RingFrame} {s : State} (harrives : Arrives s 0x31 f) (hstate : s.ring.state = .member)
    (hheard : s.ring.kingHeard = true) (hdrives : drives s = true) (hgroup : inGroup s = true) (halone : partnerTakes s = false)
    (hrun : ofRun f.body s = true) : Completes (.cascadeArmed t f) s fun n =>
      n.ring.cascade = some (fld f.body 4 4) ∧ n.jobs.armed.map (fun a => a.leadOffset) = some (fld f.body 4 4) ∧
      n.mod = s.mod ∧ Only [.clock, .ring, .jobs, .fire, .pair] s n := by
  obtain ⟨m, hframe, hkeeps, honly⟩ := typedFrame_decision (t := t) harrives (.inr rfl) hstate hheard hdrives hgroup halone
  have hstate' := honly.state_eq.trans hstate
  have hgroup' : inGroup m = true := by
    rw [inGroup, cfgN, hkeeps.conf_eq]
    exact hgroup
  have hrun' : ofRun f.body m = true := by
    rw [ofRun, inRun, hkeeps.mod_eq, hkeeps.jobs_eq]
    exact hrun
  have happly := applyRing_cascade hgroup' hrun' (by simp [hstate'])
  obtain ⟨hcascade, hlead⟩ := applyCascade_of_member hstate' (fld f.body 4 4)
  obtain ⟨a, ha⟩ : ∃ a, s.jobs.armed = some a := by
    rw [ofRun, Bool.and_eq_true] at hrun
    cases harmed : s.jobs.armed with
    | none => simp [harmed] at hrun
    | some a => exact ⟨a, rfl⟩
  have hall : Keeps [.ring, .jobs, .fire, .pair] (beginAt t s) (applyCascade (fld f.body 4 4) m) :=
    (hkeeps.mono (by decide)).then (applyCascade_keeps ..) (by decide)
  refine ⟨_, congrArg Host.Outcome.next (hframe.trans happly), hcascade, ?_, hall.mod_eq, hall.onlySince⟩
  rw [hlead, hkeeps.jobs_eq]
  show s.jobs.armed.map _ = _
  rw [ha]
  rfl

/-- Settles O53: ORIGIN, what the king keeps of RUN_ARMED and SLOT_READY, and the cascade's offset. -/
theorem cascadeAgrees : Obligations.CascadeAgrees := by
  unfold Obligations.CascadeAgrees
  refine ⟨fun t s hking hgroup hidle => originSend_sends t hking hgroup hidle,
    fun t f s harrives hstate hheard hdrives hgroup halone hnone hlen =>
      origin_sets harrives hstate hheard hdrives hgroup halone hnone hlen,
    fun t f s harrives hking hsource hnone => runArmedFrame_keeps harrives hking hsource hnone,
    fun t f s harrives hstate hheard hdrives hgroup halone hrun =>
      cascadeArmed_applies harrives hstate hheard hdrives hgroup halone hrun,
    fun t f s harrives hking hrun hsource hhold => slotReady_keeps harrives hking hrun hsource hhold⟩

end Sys2Proof.Machine
end

section
/-! Proofs on the statements of what others decide for the module (16_satos_ring.md, 17_castling.md): a halt in the same moment comes
before the end of releases (O54), and a message that waited may be the module's restart (O56, O57). -/
namespace Sys2Proof.Machine
open Sys2Proof

-- As in the sections before: checked in parallel, the whole text takes more threads than the memory limit leaves room for.
set_option Elab.async false

/-! ### CASCADE_STOP in the moment of a halt (R21, R497) -/

/-- A run whose one slot is released and open. -/
def memberRun : Armed :=
  { run := ⟨5, 0, 0, 0, 1, 0, 1, 0, 0, 100, 200, 300, 1000000, 1, 0, 1, [3]⟩, queue := [], cyclesLeft := some 0, nextSlot := 1
    nextStart := some 1000, armedAt := 0, releasesEnded := false, hold := false, riskRaised := [], runEnded := false, lost := false
    barHalted := false, fired := 0, spoiled := 0, quarantined := 0, leadOffset := 0, leadBar := 0, nGo := none, strips := []
    nextStrip := 0, ncOwed := [], removed := [], digest := 0
    slots := [⟨0, 3, .released, 0, 1000, 10, 0, 0, 0, [], false, none, [], [], [], none, []⟩] }

/-- A member of a cascade in PRINT, alone in its pair, in the moment in which HALT_IN_N is asserted. -/
def haltedMember : State := { State.reset with
  pending := [.haltInAsserted 0]
  mod := { state := .print }
  conf := { State.reset.conf with cfg := { State.reset.conf.cfg with num := [(Fld.ring_enable, [1]), (Fld.ring_group, [1])] } }
  power := { strapValid := true, position := 1 }
  pair := { state := .solo }
  ring := { state := .member, kingHeard := true }
  jobs := { armed := some memberRun } }

/-- The king's CASCADE_STOP for that run. -/
def stopFrame : RingFrame := ⟨0x35, 0, 0xFF, 0, 6, leBytes 4 5⟩

theorem stopFrame_arrives : Arrives haltedMember 0x35 stopFrame := ⟨by decide +kernel, rfl, by decide, by decide, by decide⟩

/-- HALTED takes precedence over DRAIN: the stop leaves the module in PRINT (R21). -/
theorem cascadeStop_keeps_print : ∃ n, exec (.cascadeStop 0 stopFrame) haltedMember = .next n ∧ n.mod.state = .print :=
  ⟨_, rfl, by decide +kernel⟩

/-- Refutes O54: a halt of the module due in the same moment leaves it out of DRAIN at a CASCADE_STOP, and no premise of the clause
leaves one out. -/
theorem not_cascadeDecides : ¬ Obligations.CascadeDecides := by
  rintro ⟨-, -, hstops⟩
  obtain ⟨n, hn, hdrain, -⟩ := hstops 0 stopFrame haltedMember stopFrame_arrives rfl rfl (by decide) (by decide +kernel) (by decide)
    (by decide +kernel) (by decide) (by decide)
  obtain ⟨m, hm, hprint⟩ := cascadeStop_keeps_print
  cases hn.symm.trans hm
  exact absurd (hdrain.symm.trans hprint) (by decide)

/-! ### A restart that waited for a partner (R76, R98) -/

/-- A module in IDLE, in a state of its pair, where a message to the pair waits in its turn: RESTART. -/
def restartWaits (p : Pair) : State := { State.reset with
  mod := { state := .idle }
  conf := { State.reset.conf with
    inForce := true
    cfg := { State.reset.conf.cfg with num := [(Fld.redundancy_pair_enable, [1]), (Fld.redundancy_pair_wait, [2000])] } }
  net := { sessions := [{ id := 7, control := true, waiting := [⟨2, 0x09, leBytes 4 0, true⟩] }, {}, {}, {}] }
  pair := p }

/-- The third heartbeat of the active is due. -/
def lastMissed : Pair := { state := .standby, decided := true, linkUp := true, lastBeat := some 0, missRun := 2 }

/-- No partner has been there since the start. -/
def awaited : Pair := { state := .catchup, waitSince := some 0 }

/-- The castled module applies the message that waited, and restarts. -/
theorem heartbeatMissed_restarts : ∃ n, exec (.heartbeatMissed (usT 15)) (restartWaits lastMissed) = .next n ∧
    n.pair.state = .catchup := ⟨_, rfl, by decide +kernel⟩

/-- Refutes O56: a castled module applies the messages to the pair that waited in their turn, and a RESTART among them starts it
anew, in CATCHUP. -/
theorem not_heartbeats : ¬ Obligations.Heartbeats := by
  rintro ⟨-, -, -, -, -, hcastles⟩
  obtain ⟨n, hn, hactive, -⟩ := hcastles (usT 15) 0 (restartWaits lastMissed) (by decide +kernel) rfl rfl (by decide) (by decide)
    rfl rfl rfl rfl rfl rfl
  obtain ⟨m, hm, hcatchup⟩ := heartbeatMissed_restarts
  cases hn.symm.trans hm
  exact absurd (hactive.symm.trans hcatchup) (by decide)

theorem pairWaitExpiry_restarts : ∃ n, exec (.pairWaitExpiry (msT 2000)) (restartWaits awaited) = .next n ∧
    n.pair.state = .catchup := ⟨_, rfl, by decide +kernel⟩

/-- Refutes O57: a module that no partner joined in pair_wait applies the messages to the pair that waited in their turn, and a
RESTART among them starts it anew, in CATCHUP. -/
theorem not_pairWaitsAndCatchUp : ¬ Obligations.PairWaitsAndCatchUp := by
  rintro ⟨hwaits, -⟩
  obtain ⟨n, hn, hactive, -⟩ := hwaits (msT 2000) 0 (restartWaits awaited) (by decide +kernel) rfl rfl (by decide +kernel) rfl rfl
  obtain ⟨m, hm, hcatchup⟩ := pairWaitExpiry_restarts
  cases hn.symm.trans hm
  exact absurd (hactive.symm.trans hcatchup) (by decide)

end Sys2Proof.Machine
end

section
/-! Proofs of the statement on heat (20_thermal.md, R572, R573, R582, R583): O11. -/
namespace Sys2Proof.Machine
open Sys2Proof

-- As in the sections before: checked in parallel, the whole text takes more threads than the memory limit leaves room for.
set_option Elab.async false

/-! ### What a sample leaves of the readings (R572) -/

/-- The readings, and the shutdown record that waits to be written. -/
def thermalView (s : State) : List Sensor × Option ShutdownRecord := (s.thermal.sensors, s.thermal.recordPending)

theorem Keeps.thermal_eq {w : List Group} {s n : State} (h : Keeps w s n) (hw : Group.thermal ∉ w := by decide) :
    n.thermal = s.thermal := h.only.same .thermal hw

theorem thermalView_of_keeps {w : List Group} {s n : State} (h : Keeps w s n) (hw : Group.thermal ∉ w := by decide) :
    thermalView n = thermalView s := by
  rw [thermalView, thermalView, h.thermal_eq hw]

theorem thermalView_raise (code : Nat) (detail : List Byte) (s : State) : thermalView (raise code detail s) = thermalView s :=
  thermalView_of_keeps (raise_keeps ..)

theorem thermalView_warningCheck (s : State) : thermalView (warningCheck s) = thermalView s := by
  unfold warningCheck
  dsimp only
  split
  · split
    · rfl
    · exact thermalView_raise ..
  · split
    · exact thermalView_raise ..
    · rfl

theorem thermalView_throttleCheck (s : State) : thermalView (throttleCheck s) = thermalView s := by
  unfold throttleCheck
  dsimp only
  split
  · split
    · rfl
    · exact thermalView_raise ..
  · split
    · exact thermalView_raise ..
    · rfl

theorem thermalView_blitzCheck (s : State) : thermalView (blitzCheck s) = thermalView s := by
  unfold blitzCheck
  dsimp only
  split
  · split
    · rfl
    · exact thermalView_raise ..
  · rfl

theorem refreshSub_trained (k : Nat) (s : State) : (refreshSub k id s).mem.trained = s.mem.trained := by
  unfold refreshSub
  dsimp only
  split
  · rfl
  · rw [(raise_keeps ..).mem_eq]

/-- The state with every reading sampled (R572). -/
def sampled (t : Nat) (conv : List SensorConv) (s : State) : State :=
  { beginAt t s with thermal := { s.thermal with
    sensors := s.thermal.sensors.zipIdx.map fun p => sampleOne (beginAt t s) conv p.2 p.1 } }

/-- And with the refresh rates set by the readings of the memory (R239). -/
def refreshed (t : Nat) (conv : List SensorConv) (s : State) : State :=
  forEach ((List.range 8).filter fun k => takesPart (beginAt t s) (20 + k)) (fun k => refreshSub k id) (sampled t conv s)

theorem sampled_keeps (t : Nat) (conv : List SensorConv) (s : State) : Keeps [.thermal] (beginAt t s) (sampled t conv s) :=
  set_thermal_keeps ..

theorem refreshed_keeps (t : Nat) (conv : List SensorConv) (s : State) :
    Keeps [.log, .net, .mem] (sampled t conv s) (refreshed t conv s) :=
  .forEach (fun k s => refreshSub_keeps k id s) (.refl ..)

theorem refreshed_trained (t : Nat) (conv : List SensorConv) (s : State) : (refreshed t conv s).mem.trained = s.mem.trained :=
  forEach_eq (f := fun k => refreshSub k id) (v := fun s => s.mem.trained) (fun k s => refreshSub_trained k s) _ (sampled t conv s)

/-- What a sample finds goes by the readings, the time, and the records in flash. -/
theorem shutdownFinding_of_keeps {w : List Group} {s n : State} (h : Keeps w s n) (hthermal : Group.thermal ∉ w := by decide)
    (hflash : Group.flash ∉ w := by decide) (hclock : Group.clock ∉ w := by decide) (hraw : Group.raw ∉ w := by decide)
    (htime : Group.time ∉ w := by decide) : shutdownFinding n = shutdownFinding s := by
  unfold shutdownFinding readings shutdownRecord
  rw [h.thermal_eq hthermal, h.flash_eq hflash, h.timeNow_eq hclock hraw htime]

/-- What a sample that finds a shutdown does before it: a blitz may begin, and what is broken is told (R573, R575, R582). -/
def findingTold (t : Nat) (conv : List SensorConv) (s : State) : State :=
  blitzCheck (brokenEvents s.thermal.sensors (refreshed t conv s))

/-- What a sample that finds no shutdown does before the heads are looked at (R573, R576 to R578). -/
def sampleTold (t : Nat) (conv : List SensorConv) (s : State) : State :=
  blitzCheck (headEvents (throttleCheck (warningCheck (refreshed t conv s))))

section Sample
variable {t : Nat} {conv : List SensorConv} {s : State} (hon : s.mod.state ≠ .off)
include hon

theorem exec_thermalSample_found {r : ShutdownRecord} (h : shutdownFinding (refreshed t conv s) = some r) :
    exec (.thermalSample t conv) s = .next (if mayShutdown (findingTold t conv s)
      then enterShutdown r (barsFirst (runBars (findingTold t conv s)) (findingTold t conv s)) else findingTold t conv s) := by
  show execThermalSample t conv s = _
  unfold execThermalSample
  dsimp only
  rw [if_neg (show (beginAt t s).mod.state ≠ .off from hon)]
  split
  case h_1 r' hfound =>
    cases h.symm.trans hfound
    rfl
  case h_2 hnone => cases h.symm.trans hnone

theorem exec_thermalSample_none (h : shutdownFinding (refreshed t conv s) = none) :
    exec (.thermalSample t conv) s = .next (forEach (List.range 8) headCheck (sampleTold t conv s)) := by
  show execThermalSample t conv s = _
  unfold execThermalSample
  dsimp only
  rw [if_neg (show (beginAt t s).mod.state ≠ .off from hon)]
  split
  case h_1 r' hfound => cases h.symm.trans hfound
  case h_2 => rfl

/-- A reading at its shutdown threshold ends in SHUTDOWN (R582, R583). -/
theorem thermalSample_shuts {r : ShutdownRecord} (hrun : s.mod.state ≠ .shutdown) (h : shutdownFinding (sampled t conv s) = some r) :
    Completes (.thermalSample t conv) s fun n =>
      n.mod.state = .shutdown ∧ n.power.shutdownLatch = true ∧ n.thermal.recordPending = some r ∧ n.power.domainsOn = [0] ∧
      n.flash = s.flash := by
  have hfound := (shutdownFinding_of_keeps (refreshed_keeps t conv s)).trans h
  have htold : Keeps [.log, .thermal, .net, .mem] (beginAt t s) (findingTold t conv s) :=
    ((((sampled_keeps t conv s).mono (by decide)).then (refreshed_keeps t conv s) (by decide)).then
      (brokenEvents_keeps ..) (by decide)).then (blitzCheck_keeps ..) (by decide)
  have hmay : mayShutdown (findingTold t conv s) = true := by
    simp [mayShutdown, htold.mod_eq, hon, hrun]
  have hexec := exec_thermalSample_found hon hfound
  rw [if_pos hmay] at hexec
  refine ⟨_, hexec, enterShutdown_state .., rfl, rfl, rfl, ?_⟩
  rw [(enterShutdown_keeps ..).flash_eq, (barsFirst_keeps ..).flash_eq, htold.flash_eq]
  rfl

/-- A sample that finds none leaves the record, flash, memory and monitors alone (R572). -/
theorem thermalSample_samples (h : shutdownFinding (sampled t conv s) = none) : Completes (.thermalSample t conv) s fun n =>
    n.thermal.sensors = (s.thermal.sensors.zipIdx.map fun p => sampleOne (beginAt t s) conv p.2 p.1) ∧
    n.thermal.recordPending = s.thermal.recordPending ∧ n.flash = s.flash ∧ n.mem.trained = s.mem.trained ∧
    n.monitors = s.monitors := by
  have hfound := (shutdownFinding_of_keeps (refreshed_keeps t conv s)).trans h
  have htold : Keeps [.log, .thermal, .gov, .net, .links] (refreshed t conv s) (sampleTold t conv s) :=
    ((((warningCheck_keeps _).mono (by decide)).then (throttleCheck_keeps ..) (by decide)).then (headEvents_keeps ..) (by decide)).then
      (blitzCheck_keeps ..) (by decide)
  have hchecked := Keeps.forEach (l := List.range 8) (fun b s => headCheck_keeps b s) (.refl _ (sampleTold t conv s))
  have hview : thermalView (sampleTold t conv s) = thermalView (refreshed t conv s) :=
    (thermalView_blitzCheck _).trans ((thermalView_of_keeps (headEvents_keeps _)).trans
      ((thermalView_throttleCheck _).trans (thermalView_warningCheck _)))
  have hall := (thermalView_of_keeps hchecked).trans (hview.trans (thermalView_of_keeps (refreshed_keeps t conv s)))
  obtain ⟨hsensors, hpending⟩ := Prod.mk.inj hall
  have hstart := ((sampled_keeps t conv s).mono (w := [.log, .thermal, .net, .mem]) (by decide)).then (refreshed_keeps t conv s) (by decide)
  refine ⟨_, exec_thermalSample_none hon hfound, hsensors, hpending, ?_, ?_, ?_⟩
  · rw [hchecked.flash_eq, htold.flash_eq, hstart.flash_eq]
    rfl
  · rw [hchecked.mem_eq, htold.mem_eq, refreshed_trained]
  · rw [hchecked.monitors_eq, htold.monitors_eq, hstart.monitors_eq]
    rfl

end Sample

/-! ### The end of a blitz, and the record (R573, R583) -/

theorem blitzOff_ends {t since : Nat} {s : State} (hblitz : s.thermal.blitz = true) (hcool : s.thermal.coolSince = some since)
    (hdue : since + secT 1 ≤ t) : Completes (.blitzOff t) s fun n =>
      n.thermal = { s.thermal with blitz := false } ∧ RaisedNext s 0x0146 [] n ∧ Only [.clock, .thermal, .log, .net] s n := by
  have hcooled : (s.thermal.coolSince.any fun n => decide (n + secT 1 ≤ (beginAt t s).now)) = true :=
    any_due hcool (le_max_of_le_right hdue)
  have hexec : exec (.blitzOff t) s =
      .next (raise 0x0146 [] { beginAt t s with thermal := { s.thermal with blitz := false } }) := by
    refine congrArg Host.Outcome.next (if_pos ?_)
    show (s.thermal.blitz && s.thermal.coolSince.any fun n => decide (n + secT 1 ≤ (beginAt t s).now)) = true
    rw [hblitz, hcooled]
    rfl
  exact ⟨_, hexec, (raise_keeps ..).thermal_eq, raisedNext_raise 0x0146 [] rfl, exec_only hexec⟩

theorem shutdownRecordWritten_writes {t : Nat} {r : ShutdownRecord} {s : State} (hpending : s.thermal.recordPending = some r)
    (hlen : s.flash.shutdown.length = 2) : Completes (.shutdownRecordWritten t) s fun n =>
      some r ∈ n.flash.shutdown ∧ n.thermal.record = some r ∧ n.thermal.recordPending = none ∧
      (0x0147, leBytes 1 r.reading ++ sgBytes 2 r.value ++ leBytes 1 r.cause ++ stampNative r.time) ∈ n.power.atStart ∧
      Only [.clock, .power, .flash, .thermal] s n := by
  have hexec : exec (.shutdownRecordWritten t) s = .next (atNextStart 0x0147
      (leBytes 1 r.reading ++ sgBytes 2 r.value ++ leBytes 1 r.cause ++ stampNative r.time) (emit (.flashWrite 5) { beginAt t s with
        flash := { s.flash with
          shutdown := s.flash.shutdown.set (nextPlace (fun x => x.seq) (s.flash.shutdown.map validShutdown)) (some r) }
        thermal := { s.thermal with record := some r, recordPending := none } })) := by
    have hpending' : (beginAt t s).thermal.recordPending = some r := hpending
    show execShutdownRecordWritten t s = _
    unfold execShutdownRecordWritten
    dsimp only
    rw [hpending']
    rfl
  refine ⟨_, hexec, ?_, rfl, rfl, List.mem_append_right _ (List.mem_singleton.mpr rfl), exec_only hexec⟩
  exact List.mem_set (hlen ▸ nextPlace_lt_two ..) _

/-- Settles O11: the thermal samples, the end of a blitz, and the shutdown record. -/
theorem thermalActs : Obligations.ThermalActs := by
  unfold Obligations.ThermalActs
  refine ⟨fun t conv r s hon hrun h => thermalSample_shuts hon hrun h, fun t conv s hon h => thermalSample_samples hon h,
    fun t since s hblitz hcool hdue => blitzOff_ends hblitz hcool hdue,
    fun t r s hpending hlen => shutdownRecordWritten_writes hpending hlen⟩

end Sys2Proof.Machine
end

section
/-! Proofs of the statement on STATUS_READ (25_status_objects.md, R656, R657): O20. -/
namespace Sys2Proof.Machine
open Sys2Proof

-- As in the sections before: checked in parallel, the whole text takes more threads than the memory limit leaves room for.
set_option Elab.async false

/-- The dictionary lists the same IDs in every state (*Table: Status object index*). -/
theorem objects_ids (s n : State) : (objects n).map (fun o => o.1) = (objects s).map fun o => o.1 := rfl

/-- An ID that names no object has no bytes, whatever the state (R657). -/
theorem objectValue_of_unknown {id : Nat} {s : State} (h : ∀ o ∈ objects s, o.1 ≠ id) (n : State) : objectValue n id = [] := by
  have hnone : (objects n).find? (fun o => o.1 = id) = none := by
    refine List.find?_eq_none.mpr fun o ho => ?_
    have hmem : o.1 ∈ (objects s).map fun o => o.1 := objects_ids s n ▸ List.mem_map_of_mem ho
    obtain ⟨x, hx, hid⟩ := List.mem_map.mp hmem
    simpa [← hid] using h x hx
  unfold objectValue
  rw [hnone]
  exact ite_self _

/-- The values that a STATUS_READ is answered with (R656). -/
def readValues (p : List Byte) (s : State) : List (List Byte) :=
  (List.range (fld p 0 2)).map fun k => objectValue s (fld p (4 + 2 * k) 2)

theorem readValues_getD {p : List Byte} (s : State) {k : Nat} (hk : k < fld p 0 2) :
    (readValues p s).getD k [] = objectValue s (fld p (4 + 2 * k) 2) := by
  simp [readValues, List.getD_eq_getElem?_getD, hk]

/-- STATUS as it lists the values (*Table: STATUS payload*). -/
theorem statusPayload_eq (p : List Byte) (s : State) : statusPayload s (readIds p) =
    leBytes 2 (fld p 0 2) ++ leBytes 2 0 ++ (List.range (fld p 0 2)).flatMap fun k =>
      leBytes 2 (fld p (4 + 2 * k) 2) ++ leBytes 2 ((readValues p s).getD k []).length ++ (readValues p s).getD k [] := by
  unfold statusPayload readIds
  rw [List.length_map, List.length_range, List.flatMap_map]
  refine congrArg _ (List.flatMap_congr fun k hk => ?_)
  rw [readValues_getD s (List.mem_range.mp hk)]

section Read
variable {t i : Nat} {src : Src} {payload : List Byte} {s : State} (h : Admitted t src 0x43 payload s i)
  (ht : transmits s src.group = true)
include h ht

/-- The objects asked for are read as they stand (R656, R657). -/
theorem statusRead_answers (hone : 1 ≤ fld payload 0 2) (hmost : fld payload 0 2 ≤ 64)
    (hlen : 4 + 2 * fld payload 0 2 ≤ payload.length) : Completes (.statusRead t src payload) s fun n =>
      (∃ values : List (List Byte), values.length = fld payload 0 2 ∧
        (∀ k, k < fld payload 0 2 → values.getD k [] =
          objectValue (sampleCounts (atTurn t src 0x43 payload i s)) (fld payload (4 + 2 * k) 2) ∧
          ((∀ o ∈ objects s, o.1 ≠ fld payload (4 + 2 * k) 2) → values.getD k [] = [])) ∧
        Answers s i 0x44 (leBytes 2 (fld payload 0 2) ++ leBytes 2 0 ++ (List.range (fld payload 0 2)).flatMap fun k =>
          leBytes 2 (fld payload (4 + 2 * k) 2) ++ leBytes 2 (values.getD k []).length ++ values.getD k []) n) ∧
      n.net.results = s.net.results ∧ Only [.clock, .net, .pair, .mem, .loops, .free] s n := by
  have hmsg : msgStatus i payload (atTurn t src 0x43 payload i s) = .ok (drawFree (sendDpt i 0x44
      (statusPayload (sampleCounts (atTurn t src 0x43 payload i s)) (readIds payload))
      (sampleCounts (atTurn t src 0x43 payload i s)))) := if_neg (by simp; omega)
  obtain ⟨n, hexec, -, htalks, honly⟩ := h.accepted (c := .statusRead t src payload)
    (w := [.clock, .net, .pair, .mem, .loops, .free]) rfl hmsg (msgStatus_keeps i payload _)
  have hanswers := (h.sendDpt_answers ht (m := sampleCounts (atTurn t src 0x43 payload i s)) (answer := 0x44)
    (body := statusPayload (sampleCounts (atTurn t src 0x43 payload i s)) (readIds payload)) rfl rfl).mono htalks.sent
  rw [statusPayload_eq] at hanswers
  refine ⟨n, hexec, ⟨readValues payload (sampleCounts (atTurn t src 0x43 payload i s)), ?_, fun k hk => ⟨readValues_getD _ hk,
    fun hunknown => ?_⟩, hanswers⟩, ?_, honly⟩
  · rw [readValues, List.length_map, List.length_range]
  · rw [readValues_getD _ hk, objectValue_of_unknown hunknown]
  · exact htalks.results.trans ((sendDpt_talks i 0x44 _ (sampleCounts (atTurn t src 0x43 payload i s))).results.trans
      (atTurn_talks (s := s)).results)

/-- A count out of range, or a payload too short for its count, is MALFORMED (R656). -/
theorem statusRead_refused (hbad : fld payload 0 2 = 0 ∨ 64 < fld payload 0 2 ∨ payload.length < 4 + 2 * fld payload 0 2) :
    Completes (.statusRead t src payload) s fun n =>
      Answers s i 0x06 (leBytes 4 src.msg ++ leBytes 1 0x43 ++ leBytes 1 0 ++ leBytes 2 0x0002 ++ leBytes 4 0) n ∧
      Only [.clock, .net, .pair] s n := by
  have hmsg : msgStatus i payload (atTurn t src 0x43 payload i s) = .error (reasonMalformed, 0) := if_pos (by simp; omega)
  exact h.refused_answers ht rfl hmsg

end Read

/-- Settles O20: the objects asked for as they stand, or REJECT MALFORMED. -/
theorem statusIsRead : Obligations.StatusIsRead := by
  unfold Obligations.StatusIsRead
  exact ⟨fun t i src payload s h ht hone hmost hlen => statusRead_answers h ht hone hmost hlen,
    fun t i src payload s h ht hbad => statusRead_refused h ht hbad⟩

end Sys2Proof.Machine
end

section
/-! Proofs of the statement on loop-backs (24_loopback_and_test.md, R637 to R654): O21. -/
namespace Sys2Proof.Machine
open Sys2Proof

-- As in the sections before: checked in parallel, the whole text takes more threads than the memory limit leaves room for.
set_option Elab.async false

/-! ### The end of a loop-back (R642) -/

theorem endLoop_loops (l : Loop) (o : Nat) (c : LoopCounts) (s : State) :
    (endLoop l o c s).loops = s.loops.filter fun x => x.ticket ≠ l.ticket := by
  unfold endLoop
  dsimp only
  rw [(raise_keeps ..).loops_eq, (drawFree_keeps _).loops_eq, (finishResult_keeps ..).loops_eq, (loopEnds_keeps ..).loops_eq]

theorem endLoop_ready {l : Loop} {s : State} (o : Nat) (c : LoopCounts) (h : Answerable l.ticket s) :
    Ready l.ticket (loopBody s l o c) (endLoop l o c s) := by
  have hends := loopEnds_keeps l { s with loops := s.loops.filter fun x => x.ticket ≠ l.ticket }
  have hready := finishResult_ready (body := loopBody s l o c) (h.of_net_pair_eq hends.net_eq hends.pair_eq)
  exact hready.of_results_eq (raise_talks ..).results

theorem endLoop_raised (l : Loop) (o : Nat) (c : LoopCounts) (s : State) :
    Raised 0x0021 (leBytes 4 l.ticket ++ leBytes 1 o) (endLoop l o c s) := raised_of_raise (.of_log_eq rfl)

theorem closeLoop_of_own {l : Loop} (h : isFar l = false) (whole : Bool) (r : LoopReturn) (s : State) :
    closeLoop l whole r s = endLoop l
      (if loopLocked s l r || s.now < l.startedAt + msT 1 then loopOutcome (loopCounts s l whole r) else 2)
      (loopCounts s l whole r) s := if_neg (by simp [h])

/-! ### STOP (R640, R644) -/

theorem msgLoopback_stop {i : Nat} {p : List Byte} {l : Loop} {s : State} (r : LoopReturn) (hstop : fld p 4 1 = 1)
    (hfind : s.loops.find? (fun l => l.ticket = fld p 0 4) = some l) :
    msgLoopback r i p s = .ok (closeLoop { l with stopped := true } false r s) := by
  unfold msgLoopback msgLoopStop
  rw [if_pos hstop, hfind]

/-- A FAR loop-back stopped at a moment, its closing STATUS frame to come (R644). -/
def farStopped (now : Nat) (l : Loop) : Loop := { l with endedAt := some (l.endedAt.getD now), stopped := l.stopped || true }

section Message
variable {t i : Nat} {src : Src} {payload : List Byte} {s : State}

theorem atTurn_loops : (atTurn t src 0x0B payload i s).loops = s.loops := (atTurn_keeps (s := s)).loops_eq

theorem Answerable.atTurn {k : Nat} (h : Answerable k s) : Answerable k (atTurn t src 0x0B payload i s) := by
  obtain ⟨hsettled, hheld⟩ := h
  refine ⟨hsettled.atTurn, ?_⟩
  rw [(atTurn_talks (s := s)).results]
  exact hheld

variable (h : Admitted t src 0x0B payload s i)
include h

/-- STOP ends a loop-back with the counts reached (R640, R642). -/
theorem loopbackStop_ends {r : LoopReturn} {l : Loop} (hstop : fld payload 4 1 = 1)
    (hfind : s.loops.find? (fun l => l.ticket = fld payload 0 4) = some l) (hfar : isFar l = false)
    (hans : Answerable l.ticket s) {o : Nat} (ho : o = if loopLocked (atTurn t src 0x0B payload i s) { l with stopped := true } r ||
        max s.now t < l.startedAt + msT 1
      then loopOutcome (loopCounts (atTurn t src 0x0B payload i s) { l with stopped := true } false r) else 2) :
    Completes (.loopbackStop t src payload r) s fun n =>
      n.loops = s.loops.filter (fun x => x.ticket ≠ l.ticket) ∧
      Ready l.ticket (loopBody (atTurn t src 0x0B payload i s) { l with stopped := true } o
        (loopCounts (atTurn t src 0x0B payload i s) { l with stopped := true } false r)) n ∧
      Raised 0x0021 (leBytes 4 l.ticket ++ leBytes 1 o) n := by
  have hnow : (atTurn t src 0x0B payload i s).now = max s.now t := (atTurn_talks (s := s)).now
  have hmsg := msgLoopback_stop (i := i) (p := payload) (s := atTurn t src 0x0B payload i s) r hstop (by rwa [atTurn_loops])
  rw [closeLoop_of_own (l := { l with stopped := true }) hfar, hnow, ← ho] at hmsg
  obtain ⟨n, hexec, hkeeps, htalks, -⟩ := h.accepted (c := .loopbackStop t src payload r)
    (w := [.clock, .net, .pair, .free, .log, .jobs, .render, .fire, .links, .loops]) rfl hmsg (msgLoopback_keeps r i payload _)
  refine ⟨n, hexec, ?_, ?_, ?_⟩
  · rw [hkeeps.loops_eq, endLoop_loops, atTurn_loops]
  · exact (endLoop_ready (l := { l with stopped := true }) o _ hans.atTurn).of_results_eq htalks.results
  · unfold Raised
    rw [hkeeps.log_eq]
    exact endLoop_raised { l with stopped := true } o _ _

/-- A FAR loop-back that is stopped waits for its closing STATUS frame (R644). -/
theorem loopbackStop_waits {r : LoopReturn} {l : Loop} (hstop : fld payload 4 1 = 1)
    (hfind : s.loops.find? (fun l => l.ticket = fld payload 0 4) = some l) (hfar : isFar l = true) :
    Completes (.loopbackStop t src payload r) s fun n =>
      { l with stopped := true, endedAt := some (l.endedAt.getD n.now) } ∈ n.loops ∧ n.net.results = s.net.results ∧
      Only [.clock, .net, .pair, .loops] s n := by
  have hmsg := msgLoopback_stop (i := i) (p := payload) (s := atTurn t src 0x0B payload i s) r hstop (by rwa [atTurn_loops])
  have hclose : closeLoop { l with stopped := true } false r (atTurn t src 0x0B payload i s) = modLoop l.ticket
      (farStopped (atTurn t src 0x0B payload i s).now) (atTurn t src 0x0B payload i s) := if_pos hfar
  rw [hclose] at hmsg
  obtain ⟨n, hexec, hkeeps, htalks, -⟩ := h.accepted (c := .loopbackStop t src payload r)
    (w := [.clock, .net, .pair, .free, .log, .jobs, .render, .fire, .links, .loops]) rfl hmsg (msgLoopback_keeps r i payload _)
  have hall : Keeps [.net, .pair, .loops] (beginAt t s) n :=
    ((atTurn_keeps.mono (by decide)).then (modLoop_keeps ..) (by decide)).then hkeeps (by decide)
  refine ⟨n, hexec, ?_, htalks.results.trans (atTurn_talks (s := s)).results, hall.onlySince⟩
  rw [hkeeps.loops_eq, show n.now = (atTurn t src 0x0B payload i s).now from htalks.now]
  refine List.mem_map.mpr ⟨l, atTurn_loops (s := s) ▸ List.mem_of_find?_eq_some hfind, ?_⟩
  rw [if_pos rfl, farStopped, Bool.or_true]

end Message

/-! ### Its duration, its lock, its preemption, and its own end (R642, R648, R654) -/

theorem endLoop_completes {t : Nat} {l : Loop} {s : State} (hans : Answerable l.ticket s) {c : Instr} {o : Nat} {k : LoopCounts}
    (hexec : exec c s = .next (endLoop l o k (beginAt t s))) :
    Completes c s fun n => n.loops = s.loops.filter (fun x => x.ticket ≠ l.ticket) ∧
      Ready l.ticket (loopBody (beginAt t s) l o k) n :=
  ⟨_, hexec, endLoop_loops l o k (beginAt t s), endLoop_ready o k (s := beginAt t s) hans⟩

section Ends
variable {t : Nat} {r : LoopReturn} {l : Loop} {s : State}
  (hfind : s.loops.find? (fun x => x.ticket = l.ticket) = some l) (hans : Answerable l.ticket s)
include hfind hans

theorem loopbackEnd_duration (hfar : isFar l = false) (hdur : 0 < l.duration) (hdue : l.startedAt + msT l.duration ≤ t)
    (hlocked : loopLocked (beginAt t s) l r = true) : Completes (.loopbackEnd t l.ticket false r) s fun n =>
      n.loops = s.loops.filter (fun x => x.ticket ≠ l.ticket) ∧
      Ready l.ticket (loopBody (beginAt t s) l (loopOutcome (loopCounts (beginAt t s) l false r))
        (loopCounts (beginAt t s) l false r)) n := by
  refine endLoop_completes hans ?_
  have hclose := closeLoop_of_own hfar false r (beginAt t s)
  rw [hlocked, Bool.true_or, if_pos rfl] at hclose
  have hfind' : (beginAt t s).loops.find? (fun x => x.ticket = l.ticket) = some l := hfind
  have hover : (decide (0 < l.duration) && decide (l.startedAt + msT l.duration ≤ (beginAt t s).now)) = true := by
    rw [Bool.and_eq_true, decide_eq_true_eq, decide_eq_true_eq]
    exact ⟨hdur, le_max_of_le_right hdue⟩
  show execLoopbackEnd t l.ticket false r s = _
  unfold execLoopbackEnd
  dsimp only
  rw [hfind']
  dsimp only
  rw [if_neg Bool.false_ne_true, if_pos hover, hclose]

theorem loopbackEnd_noLock (hdue : l.startedAt + msT 1 ≤ t) (hlocked : loopLocked (beginAt t s) l r = false) :
    Completes (.loopbackEnd t l.ticket true r) s fun n =>
      n.loops = s.loops.filter (fun x => x.ticket ≠ l.ticket) ∧
      Ready l.ticket (loopBody (beginAt t s) l 2 (loopCounts (beginAt t s) l false r)) n := by
  refine endLoop_completes hans ?_
  have hfind' : (beginAt t s).loops.find? (fun x => x.ticket = l.ticket) = some l := hfind
  have hover : (decide (l.startedAt + msT 1 ≤ (beginAt t s).now) && !loopLocked (beginAt t s) l r) = true := by
    rw [hlocked, Bool.and_eq_true, decide_eq_true_eq]
    exact ⟨le_max_of_le_right hdue, rfl⟩
  show execLoopbackEnd t l.ticket true r s = _
  unfold execLoopbackEnd
  dsimp only
  rw [hfind']
  dsimp only
  rw [if_pos rfl, if_pos hover]

theorem loopbackPreempted_ends : Completes (.loopbackPreempted t l.ticket r) s fun n =>
    n.loops = s.loops.filter (fun x => x.ticket ≠ l.ticket) ∧
    Ready l.ticket (loopBody (beginAt t s) l 3 (loopCounts (beginAt t s) l false r)) n := by
  refine endLoop_completes hans ?_
  have hfind' : (beginAt t s).loops.find? (fun x => x.ticket = l.ticket) = some l := hfind
  show execLoopbackPreempted t l.ticket r s = _
  unfold execLoopbackPreempted
  dsimp only
  rw [hfind']

theorem loopbackDone_ends (hfar : isFar l = false) (hown : 4 ≤ l.interface) (hmotion : l.interface ≠ 7) :
    Completes (.loopbackDone t l.ticket r) s fun n =>
      n.loops = s.loops.filter (fun x => x.ticket ≠ l.ticket) ∧
      Ready l.ticket (loopBody (beginAt t s) l (loopOutcome (loopCounts (beginAt t s) l true r))
        (loopCounts (beginAt t s) l true r)) n := by
  refine endLoop_completes hans ?_
  have hlocked : loopLocked (beginAt t s) l r = true := by
    unfold loopLocked isSerial
    rw [decide_eq_false (Nat.not_lt.mpr hown)]
    rfl
  have hclose := closeLoop_of_own hfar true r (beginAt t s)
  rw [hlocked, Bool.true_or, if_pos rfl] at hclose
  have hfind' : (beginAt t s).loops.find? (fun x => x.ticket = l.ticket) = some l := hfind
  show execLoopbackDone t l.ticket r s = _
  unfold execLoopbackDone
  dsimp only
  rw [hfind']
  dsimp only
  rw [if_pos (by simp [hown, hmotion]), hclose]

end Ends

/-! ### START (R637 to R639) -/

/-- What names a loop-back, and when it began. -/
def loopKeys (s : State) : List (Nat × Nat × Nat × Nat × Nat) :=
  s.loops.map fun l => (l.ticket, l.interface, l.index, l.depth, l.startedAt)

theorem loopKeys_of_keeps {w : List Group} {s n : State} (h : Keeps w s n) (hw : Group.loops ∉ w := by decide) :
    loopKeys n = loopKeys s := by
  rw [loopKeys, loopKeys, h.loops_eq hw]

theorem loopKeys_sendOwner (g : Nat) (s : State) : loopKeys (sendOwner g s) = loopKeys s := by
  unfold sendOwner
  split
  · next l _ =>
    unfold sendLoop
    dsimp only
    refine (loopKeys_of_keeps (sendClaim_keeps ..)).trans ?_
    unfold loopKeys modLoop
    rw [List.map_map]
    refine List.map_congr_left fun x _ => ?_
    by_cases hx : x.ticket = l.ticket
    · simp [hx]
    · simp [hx]
  · exact loopKeys_of_keeps (sendClaim_keeps ..)

/-- The pads driven with the pattern, where the loop-back goes over them (R641, R652). -/
def padsDriven (l : Loop) (s : State) : State :=
  if l.depth = 1 && l.interface ≠ 5 && l.interface ≠ 6 then
    emit (.pattern l.interface l.index l.pattern ((l.generators.head?.map (·.2)).getD 0)) s else s

theorem padsDriven_keeps (l : Loop) (s : State) : Keeps [] s (padsDriven l s) := .ite (fun _ => emit_keeps ..) fun _ => .refl ..

/-- What the start of a loop-back does to its interface leaves the loop-backs named as they were (R641, R643, R644, R646). -/
theorem loopKeys_loopStarts (l : Loop) (s : State) : loopKeys (loopStarts l s) = loopKeys s := by
  have hpads : loopKeys (padsDriven l s) = loopKeys s := loopKeys_of_keeps (padsDriven_keeps l s)
  rw [← hpads]
  unfold loopStarts
  dsimp only
  rw [← padsDriven]
  generalize padsDriven l s = m
  split
  · exact forEach_eq (fun j s => loopKeys_sendOwner (3 * l.index + j) s) _ _
  · split
    · exact loopKeys_of_keeps (disableLink_keeps ..)
    · split
      · exact (loopKeys_of_keeps (raise_keeps ..)).trans (loopKeys_of_keeps (modPort_keeps ..))
      · split
        · exact loopKeys_of_keeps (marchOver_keeps ..)
        · rfl

theorem disableLink_results (k : Nat) (s : State) : (disableLink k s).net.results = s.net.results := by
  show (if linkUp s k then leaveUp k 7 s else s).net.results = _
  split
  · unfold leaveUp
    dsimp only
    rw [if_pos (by simp), (raise_talks ..).results, (forgetOwner_keeps ..).net_eq]
    rfl
  · rfl

/-- No start but that of MARCH touches a result (R650). -/
theorem loopStarts_results {l : Loop} (h : l.interface ≠ 5) (s : State) : (loopStarts l s).net.results = s.net.results := by
  have hpads : (padsDriven l s).net.results = s.net.results := congrArg Net.results (padsDriven_keeps l s).net_eq
  rw [← hpads]
  unfold loopStarts
  dsimp only
  rw [← padsDriven]
  generalize padsDriven l s = m
  split
  · exact forEach_eq (v := fun s => s.net.results)
      (fun j s => congrArg Net.results (sendOwner_keeps (3 * l.index + j) s).net_eq) _ _
  · split
    · exact disableLink_results ..
    · split
      · exact (raise_talks ..).results
      · rw [if_neg (by simp [h])]

/-- The loop-back that a START asks for (R637). -/
def startedLoop (p : List Byte) (s : State) : Loop :=
  { ticket := fld p 0 4, interface := fld p 5 1, index := fld p 6 1, depth := fld p 7 1, pattern := fld p 8 1, duration := fld p 12 4
    startedAt := s.now, paramA := fld p 16 8, paramB := fld p 24 8
    generators := [0, 1, 2].map fun j => (0, prbsSeed (fld p 8 1) (s.freeN + j))
    illegal := (inputOf s (fld p 6 1)).illegal, disagreements := (inputOf s (fld p 6 1)).wireDisagreements }

/-- The loop-back noted, its result pending. -/
def loopNoted (p : List Byte) (s : State) : State :=
  addPending (fld p 0 4) 0x0B (drawFrees 3 { s with loops := s.loops ++ [startedLoop p s] })

theorem msgLoopback_start {i : Nat} {p : List Byte} {s : State} (hstart : fld p 4 1 = 0) (hrange : loopRange p = true)
    (hdepth : loopDepthOk p = true)
    (hallowed : loopAllowed s (sessionOf s i).toGroup (sessionOf s i).port (fld p 5 1) (fld p 6 1) (fld p 7 1) (fld p 16 8)
      (fld p 24 8) = true)
    (hfree : ∀ l ∈ s.loops, l.interface = fld p 5 1 → l.index ≠ fld p 6 1) :
    msgLoopback .nothing i p s = .ok (loopStarts (startedLoop p s) (loopNoted p s)) := by
  have hbusy : (s.loops.any fun l => l.interface = fld p 5 1 && l.index = fld p 6 1) = false := by
    rw [List.any_eq_false]
    exact fun l hl => by simpa using hfree l hl
  unfold msgLoopback
  rw [if_neg (by simp [hstart])]
  unfold msgLoopStart
  dsimp only
  rw [hrange, hdepth, hallowed, hbusy]
  rfl

theorem loopNoted_keeps (p : List Byte) (s : State) : Keeps [.net, .free, .loops] s (loopNoted p s) :=
  (((set_loops_keeps ..).mono (v := [.loops]) (by decide)).then (drawFrees_keeps ..) (by decide)).then (addPending_keeps ..)
    (by decide)

/-- The codec self-test has no interface to prepare (R651). -/
theorem loopStarts_codec {l : Loop} (h : l.interface = 8) (hdepth : l.depth = 0) (s : State) : loopStarts l s = s := by
  have hpads : padsDriven l s = s := if_neg (by simp [hdepth])
  unfold loopStarts
  dsimp only
  rw [← padsDriven, hpads, if_neg (by simp [isFar, h]), if_neg (by simp [h]), if_neg (by simp [h]), if_neg (by simp [h])]

theorem loopbackStart_starts {t i : Nat} {src : Src} {payload : List Byte} {s : State} (h : Admitted t src 0x0B payload s i)
    (hstart : fld payload 4 1 = 0) (hrange : loopRange payload = true) (hdepth : loopDepthOk payload = true)
    (hmemory : fld payload 5 1 ≠ 5)
    (hallowed : loopAllowed (atTurn t src 0x0B payload i s) (sessionOf (atTurn t src 0x0B payload i s) i).toGroup
      (sessionOf s i).port (fld payload 5 1) (fld payload 6 1) (fld payload 7 1) (fld payload 16 8) (fld payload 24 8) = true)
    (hfree : ∀ l ∈ s.loops, l.interface = fld payload 5 1 → l.index ≠ fld payload 6 1) :
    Completes (.loopbackStart t src payload) s fun n =>
      (∃ l ∈ n.loops, l.ticket = fld payload 0 4 ∧ l.interface = fld payload 5 1 ∧ l.index = fld payload 6 1 ∧
        l.depth = fld payload 7 1 ∧ l.startedAt = n.now) ∧ Pending (fld payload 0 4) n ∧
      (fld payload 5 1 = 8 → Only [.clock, .net, .pair, .loops, .free] s n) := by
  obtain ⟨-, -, -, -, -, -, -, hport, -⟩ := lasting_eq_iff.mp ((atTurn_talks (type := 0x0B) (src := src) (payload := payload)
    (i := i) (t := t) (s := s)).table i)
  change _ = (sessionOf s i).port at hport
  rw [← hport] at hallowed
  have hmsg := msgLoopback_start (s := atTurn t src 0x0B payload i s) hstart hrange hdepth hallowed (by rwa [atTurn_loops])
  have hnoted := loopNoted_keeps payload (atTurn t src 0x0B payload i s)
  obtain ⟨n, hexec, hkeeps, htalks, -⟩ := h.accepted (c := .loopbackStart t src payload)
    (w := [.clock, .net, .pair, .free, .log, .jobs, .render, .fire, .links, .loops]) rfl hmsg
    (msgLoopback_keeps .nothing i payload _)
  have hnow : n.now = (atTurn t src 0x0B payload i s).now :=
    htalks.now.trans ((loopStarts_keeps ..).now_eq.trans hnoted.now_eq)
  refine ⟨n, hexec, ?_, ?_, fun hcodec => ?_⟩
  · have hkeys : (fld payload 0 4, fld payload 5 1, fld payload 6 1, fld payload 7 1, n.now) ∈ loopKeys n := by
      rw [loopKeys_of_keeps hkeeps, loopKeys_loopStarts, hnow]
      exact List.mem_map_of_mem (f := fun l : Loop => (l.ticket, l.interface, l.index, l.depth, l.startedAt))
        (List.mem_append_right _ (List.mem_singleton.mpr rfl))
    obtain ⟨l, hl, hkey⟩ := List.mem_map.mp hkeys
    simp only [Prod.mk.injEq] at hkey
    exact ⟨l, hl, hkey⟩
  · exact (addPending_pending _ _ _).of_results_eq (htalks.results.trans (loopStarts_results hmemory _))
  · have hzero : fld payload 7 1 = 0 := by
      simpa [loopDepthOk, hcodec, loopDepths] using hdepth
    rw [loopStarts_codec (l := startedLoop payload (atTurn t src 0x0B payload i s)) hcodec hzero] at hkeeps
    have hall : Keeps [.net, .pair, .loops, .free] (beginAt t s) n :=
      ((atTurn_keeps.mono (by decide)).then hnoted (by decide)).then hkeeps (by decide)
    exact hall.onlySince

/-- Settles O21: loop-backs start, and end by STOP, their duration, their lock, their preemption, or their own work. -/
theorem loopBacks : Obligations.LoopBacks := by
  unfold Obligations.LoopBacks
  refine ⟨fun t i src payload s h hstart hrange hdepth hmemory hallowed hfree =>
      loopbackStart_starts h hstart hrange hdepth hmemory hallowed hfree,
    fun t i src payload r l x c o s h hstop hfind hfar hans hx hc ho => ?_,
    fun t i src payload r l s h hstop hfind hfar => loopbackStop_waits h hstop hfind hfar,
    fun t r l s hfind hfar hans => ⟨fun hdur hdue hlocked => loopbackEnd_duration hfind hans hfar hdur hdue hlocked,
      fun hdue hlocked => loopbackEnd_noLock hfind hans hdue hlocked, loopbackPreempted_ends hfind hans,
      fun hown hmotion => loopbackDone_ends hfind hans hfar hown hmotion⟩⟩
  subst hx hc
  exact loopbackStop_ends h hstop hfind hfar hans ho

end Sys2Proof.Machine
end
